-- ==== Sys2Proof/Word.lean ====
section
/-! DEFINITION. The word types of the AX5120 model and nothing else. -/

namespace Sys2Proof

/-- A 32-bit register or data word (R6). -/
abbrev Word := BitVec 32

/-- One byte of memory. -/
abbrev Byte := BitVec 8

/-- A device time: 48 bits of nanoseconds above 16 bits of fraction, unit 2^-16 ns (R475). -/
abbrev Time := BitVec 64

end Sys2Proof
end

