-- ==== Sys2Proof/Syntax.lean ====
section
/-! DEFINITION. The commands of the AX5120 block: one constructor for each row of the opcode table, with the row's
operands. Operands that the environment supplies (a received block, a stamp, the outcome of an analogue process) stand
beside the numbers of the units a command names. -/

namespace Sys2Proof

/-- A unit command word as its unit receives it (R258, R261): the issuing logical engine and port, UNIT, IMM, and
the copy of the parameter block. -/
structure UCmd where
  e : Nat
  k : Nat
  unit : Nat
  imm : Nat
  block : List Byte
  deriving DecidableEq, Repr

/-- The header of a cascade message as it arrives (R543, R544): the link it came in on, RETRY, EPOCH, SRC, DST, SEQ, and whether its CRC and
its length hold. -/
structure CasMsg where
  link : Nat
  retry : Bool
  epoch : Nat
  src : Nat
  dst : Nat
  seq : Nat
  good : Bool
  deriving DecidableEq, Repr

/-- What a unit in TEST measures. A monitor converter (R515) reads, in units of 2^-30 V, ground, CALREF_V with the factory selection, and CALREF_V
with each selection that the calibration tries. `sel` is the selection with which the calibration of another class ends (R516, R517), and `temp` the
temperature in °C. -/
structure Readings where
  sel : Nat
  temp : Nat
  ground : Int
  factory : Int
  tried : List (Nat × Int)
  deriving DecidableEq, Repr

/-- The immediate of a Disoex instruction (R298): imm16 in the first word, or imm32 in the second. -/
inductive Imm where
  | short (n : Nat)
  | long (n : Nat)
  deriving DecidableEq, Repr

/-- One data move of an extended complex instruction (R300). -/
structure Move where
  store : Bool
  wide : Bool
  cn : Nat
  pn : Nat
  mode : Nat
  deriving DecidableEq, Repr

/-- The second word of a complex instruction, when it has one: its X move and its Y move (R298, R300). -/
abbrev Moves := Option (Option Move × Option Move)

/-- The pass count of REP (R311): an immediate, the extended immediate, or a g register. -/
inductive RepSrc where
  | imm (n : Nat)
  | long (n : Nat)
  | reg (gs : Nat)
  deriving DecidableEq, Repr

/-- The commands of the AX5120: operations of the host and the engines, events, and Disoex instructions. The first
operand `e` of a Disoex instruction is the logical engine that issues it. -/
inductive Instr where
  | hostRegisterWrite (addr len val hwSet : Nat)
  | loWriteHold (addr val : Nat)
  | hiWriteApply (addr val : Nat)
  | loReadLatch (addr len : Nat)
  | counterRead (addr : Nat) (event : Bool)
  | bar2Read (off len : Nat)
  | bar2Write (off : Nat) (data : List Byte)
  | contextWrite (c off : Nat) (data : List Byte)
  | deviceBoundary (b : Time) (staging : List (Nat × Nat))
  | tclkTick
  | timeWrap
  | nativeBlockReceive (lane hdr payload : Nat)
  | sampleSlot (s p : Nat)
  | larkspurCharacterReceive (lane code : Nat) (skipAdj : Bool)
  | cdrLock (lane : Nat)
  | cdrLost (lane : Nat)
  | lanePllLock (tx : Bool) (grp : Nat)
  | laneEnable (lane : Nat) (polInv : Bool)
  | laneDisable (lane : Nat)
  | sampleRelease (s : Nat) (g : Int)
  | acquireTimeout (s : Nat)
  | samplerWindowEnd (lane : Nat) (differ shadowBad mainBad : Bool)
  | lnkSCtlStart (s : Nat)
  | lnkSCtlStop (s : Nat)
  | lnkSCtlRate (s : Nat)
  | lnkStart (u : UCmd)
  | lnkStop (u : UCmd)
  | lnkRate (u : UCmd)
  | exportRun (s val : Nat)
  | chnCCtlSwap (s : Nat)
  | chnSwap (u : UCmd)
  | chnZCtlStart (z : Nat)
  | chnZCtlStop (z : Nat)
  | chnZCtlTune (z : Nat)
  | chnStart (u : UCmd)
  | chnStop (u : UCmd)
  | chnTune (u : UCmd)
  | chnResetCtlGo
  | chnReset (u : UCmd)
  | syncInEdge (t : Time)
  | decimatorReset (t : Time)

  | ucmd (e k gs : Nat)
  | commandCompletion (e k : Nat)
  | engStart (u : UCmd)
  | engStop (u : UCmd)
  | engSignal (u : UCmd)
  | engTimer (u : UCmd)
  | engineTimerExpire (e : Nat)
  | clECtlStart (e : Nat)
  | clECtlStop (e : Nat)
  | mbH2eWrWrite (k val : Nat) (byHost : Bool)
  | mbH2eRdWrite (k val : Nat) (byHost : Bool)
  | mbE2hWrWrite (k val : Nat) (byHost : Bool) (e : Nat)
  | mbE2hRdWrite (k val : Nat) (byHost : Bool)
  | add (e gd gs gt : Nat)
  | sub (e gd gs gt : Nat)
  | and (e gd gs gt : Nat)
  | or (e gd gs gt : Nat)
  | xor (e gd gs gt : Nat)
  | shl (e gd gs gt : Nat)
  | shr (e gd gs gt : Nat)
  | sar (e gd gs gt : Nat)
  | mul (e gd gs gt : Nat)
  | mulh (e gd gs gt : Nat)
  | mulhu (e gd gs gt : Nat)
  | min (e gd gs gt : Nat)
  | max (e gd gs gt : Nat)
  | minu (e gd gs gt : Nat)
  | maxu (e gd gs gt : Nat)
  | clz (e gd gs : Nat)
  | popc (e gd gs : Nat)
  | addi (e gd gs : Nat) (imm : Imm)
  | andi (e gd gs : Nat) (imm : Imm)
  | ori (e gd gs : Nat) (imm : Imm)
  | xori (e gd gs : Nat) (imm : Imm)
  | shli (e gd gs n : Nat)
  | shri (e gd gs n : Nat)
  | sari (e gd gs n : Nat)
  | cmpi (e gs : Nat) (imm : Imm)
  | ftoi (e gd gs ex : Nat)
  | itof (e gd gs ex : Nat)
  | movr (e rd rs : Nat)
  | ld (e gd pn mode size : Nat) (u : Bool)
  | st (e gs pn mode size : Nat)
  | ldc (e cn pn mode : Nat) (wide : Bool)
  | stc (e cn pn mode : Nat) (wide : Bool)
  | cmac (e ad cx cy : Nat) (mv : Moves)
  | cmacc (e ad cx cy : Nat) (mv : Moves)
  | cmsu (e ad cx cy : Nat) (mv : Moves)
  | cmul (e ad cx cy : Nat) (mv : Moves)
  | cmulc (e ad cx cy : Nat) (mv : Moves)
  | cpow (e ad cx : Nat) (mv : Moves)
  | cpowa (e ad cx : Nat) (mv : Moves)
  | aclr (e ad : Nat) (mv : Moves)
  | cnop (e : Nat) (mv : Moves)
  | cmulr (e cd cs ct : Nat) (mv : Moves)
  | cadd (e cd cs ct : Nat) (mv : Moves)
  | csub (e cd cs ct : Nat) (mv : Moves)
  | cconj (e cd cs : Nat) (mv : Moves)
  | cmov (e cd cs : Nat) (mv : Moves)
  | arndH (e cd as sh : Nat) (mv : Moves)
  | arndW (e cd as sh : Nat) (mv : Moves)
  | cscl (e cd cs sh : Nat) (mv : Moves)
  | aadd (e ad as : Nat) (mv : Moves)
  | amov (e ad as : Nat) (mv : Moves)
  | apeak (e ad as gi : Nat) (mv : Moves)
  | cpeak (e ad ct gi : Nat) (mv : Moves)
  | br (e cond off : Nat)
  | bbc (e bit off : Nat)
  | bbs (e bit off : Nat)
  | call (e off : Nat)
  | callr (e gs : Nat)
  | jmp (e gs : Nat)
  | ret (e : Nat)
  | brk (e cond : Nat)
  | rep (e : Nat) (src : RepSrc) (body : Nat)
  | qpush (e gq gn pn : Nat)
  | qpop (e gq gn pn : Nat)
  | qmark (e gq : Nat)
  | qrew (e gq : Nat)
  | qrel (e gq : Nat)
  | wait (e : Nat)
  | waitResume (e : Nat)
  | evget (e cd : Nat)
  | evack (e : Nat)
  | fld (e dst gs size : Nat) (u : Bool) (off : Nat)
  | farLoadArrival (e i : Nat)
  | fst (e src gs size off : Nat)
  | ffence (e : Nat)
  | nop (e : Nat)
  | halt (e : Nat)
  | sleep (e : Nat)
  | sync (e : Nat)
  | time (e gd : Nat)
  | tprpg (e gs : Nat) (phys : Option Nat)
  | tscan (e gs : Nat) (phys : Option Nat)
  | tmisr (e gd : Nat) (phys : Option Nat)
  | illegalEncoding (e : Nat)
  | fetchRange (e : Nat)
  | farStoreVisible (e i : Nat)

  | lanePllLockLost (tx : Bool) (grp : Nat) (refAbsent : Bool)

  | frameReady (drop : Bool)
  | pipeFrameDone (c drops : Nat) (differ : Bool)
  | xfSchedCtlGo
  | xfSchedCtlStop
  | xfLoad (u : UCmd)
  | xfStop (u : UCmd)
  | xfCredit (u : UCmd)
  | scheduleChecked
  | detClrCtlGo
  | detClear (u : UCmd)
  | denCmdCtlSnap
  | denCmdCtlClear
  | denSnap (u : UCmd)
  | denClear (u : UCmd)
  | snapshotComplete (p : Nat)
  | snapshotMerged (p : Nat)
  | decayStep (p m : Nat)
  | trgTCtlArm (n : Nat)
  | trgTCtlDisarm (n : Nat)
  | trgArm (u : UCmd)
  | trgDisarm (u : UCmd)
  | trgFire (u : UCmd)
  | trgSwCtlFire
  | timerTriggerFire (n : Nat)
  | seqExpired (n : Nat)
  | triggerRelease
  | acqBCtlArm (b : Nat)
  | acqBCtlStop (b : Nat)
  | acqBCtlDisarm (b : Nat)
  | acqArm (u : UCmd)
  | acqStop (u : UCmd)
  | acqDisarm (u : UCmd)
  | returnHoldExpire (b : Nat)
  | captureSpanEnd (b : Nat)
  | captureRecordPush (b : Nat)
  | recordComplete (q : Nat)
  | slotRefill (q n : Nat) (unc : Bool)
  | qwCtlAdvance (q : Nat)
  | qwCtlMark (q : Nat)
  | qwCtlRewind (q : Nat)
  | qwCtlRelease (q : Nat)
  | queQIrqArm (q vec : Nat)
  | queQCtlEnable (q : Nat)
  | queQCtlDisable (q : Nat)
  | queEnable (u : UCmd)
  | queDisable (u : UCmd)
  | planeClearDone (p : Nat)

  | cmpZCtlGo (z : Nat)
  | cmpZCtlCont (z : Nat)
  | cmpZCtlEnd (z : Nat)
  | cmpSubmit (u : UCmd)
  | cmpCont (u : UCmd)
  | cmpEnd (u : UCmd)
  | cmpUCtlGo (u' : Nat)
  | cmpUCtlEnd (u' : Nat)
  | cmpDsubmit (u : UCmd)
  | cmpDend (u : UCmd)
  | compressFlushTimeout (z : Nat)
  | compressFrameDone (z : Nat) (poison : Bool)
  | decompressFrameDone (u' : Nat)
  | compressedRecordPush (i : Nat)

  | memReadComplete (addr port kind age : Nat)
  | scrubRead (kind age : Nat)
  | phyTrackingUpdate (p age : Nat)
  | memRepairCtlSoft (hardToo : Bool)
  | memRepairCtlHard (softToo : Bool)
  | memRepair (u : UCmd)
  | memScrub (u : UCmd)
  | softRepairDone

  | dmaRgnCtlSet (r : Nat)
  | dmaRgnCtlClear (r : Nat)
  | dmaCCfgEnable (c val : Nat)
  | dmaCCfgDisable (c val moved : Nat)
  | dmaCTailWrite (c val : Nat)
  | dmaCCtlResume (c : Nat)
  | dmaEnable (u : UCmd)
  | dmaDisable (u : UCmd) (moved : Nat)
  | dmaDoorbell (u : UCmd)
  | descriptorFetch (c : Nat)
  | descriptorComplete (c : Nat)
  | hostReadCompletion (c : Nat) (dstSide : Bool) (status : Nat) (data : List Byte)
  | completionTimeout (c : Nat)
  | linkRetrain
  | tlpError (kind off : Nat) (data : List Byte)
  | powerStateChange (d3 : Bool)
  | pcieLinkTrained (speed width : Nat) (flit : Bool)
  | configurationRequest (f val : Nat)

  | rotationStep (k g : Nat)
  | shadowWindowEnd (k : Nat) (differ : Bool)
  | selfTestDone (u sig : Nat) (ok : Bool) (rd : Readings)
  | rotCmdStep (u expect : Nat)
  | rotCmdWithdraw (u expect : Nat)
  | rotStep (u : UCmd)
  | rotWithdraw (u : UCmd)
  | bstCmdGo (u expect : Nat)
  | bstRun (u : UCmd)
  | bstRunDone (sig : Nat)

  | refclkLost
  | refclkPresent
  | rootLock (r : Nat)
  | rootLockLost (r : Nat)
  | rootRelockTimeout (r : Nat)
  | clkChangeCtlGo
  | clkChange (u : UCmd)
  | changeRetuned
  | changeLockTimeout
  | changeSettled
  | clkProbeGo (code : Nat)
  | probeDone (mhz : Nat)
  | ckoCtlStart (o : Nat)
  | ckoCtlStop (o : Nat)
  | clkOutputStart (u : UCmd)
  | clkOutputStop (u : UCmd)

  | evtSetCtlGo
  | evtSet (u : UCmd)
  | eventEdge (n num den : Nat) (rising : Bool)
  | stampFlushTimeout (n : Nat)
  | thresholdWrite (n val : Nat)
  | blankEnd (n : Nat)
  | evtICtlEnable (n : Nat)
  | evtICtlDisable (n : Nat)
  | evtEnable (u : UCmd)
  | evtDisable (u : UCmd)
  | evtSCtlArm (t : Nat)
  | evtSCtlStop (t : Nat)
  | evtArm (u : UCmd)
  | evtStop (u : UCmd)

  | monMCtlStart (m : Nat)
  | monMCtlStop (m : Nat)
  | monMCtlArmInj (m : Nat)
  | monMCtlDisarmInj (m : Nat)
  | monMCtlInject (m : Nat)
  | monStart (u : UCmd)
  | monStop (u : UCmd)
  | monArmInj (u : UCmd)
  | monDisarmInj (u : UCmd)
  | monInject (u : UCmd)
  | monResult (m : Nat) (codes shadow : List Int)
  | monPassStart (m : Nat)
  | monsyncEdge (t : Time)
  | monDecimatorReset (t : Time)
  | i2cPointerWrite (p : Nat)
  | i2cRead (n : Nat)
  | calSetref (u : UCmd)
  | calOutcal (u : UCmd)
  | outputCalDone (o sel temp : Nat)

  | roleMessage (m : CasMsg) (epoch : Nat) (b : Time) (table : List (Nat × Nat × Nat))
  | ackMessage (m : CasMsg) (seq : Nat)
  | nakMessage (m : CasMsg) (seq code : Nat)
  | timeMessage (m : CasMsg) (t : Time) (epoch : Nat)
  | markMessage (m : CasMsg) (t : Time) (reset : Bool)
  | statusMessage (m : CasMsg) (ready timeOk : Bool)
  | decidedMessage (m : CasMsg) (t : Time)
  | triggerMessage (m : CasMsg) (unit : Nat) (t : Time)
  | recordMessage (m : CasMsg) (q : Nat) (data : List Byte)
  | partMessage (m : CasMsg) (c index : Nat) (stamp : Int) (marks : Nat) (bins : List Byte)
  | caldataMessage (m : CasMsg) (i : Nat) (t u : Time)
  | controlRetryTimeout (l seq : Nat)
  | statusSend
  | decidedSend
  | deviceLostTimeout (dv : Nat)
  | masterLostTimeout
  | casCtlForm
  | casCtlCal
  | casCtlReset
  | casCtlTakeover
  | casCtlLeave
  | casForm (u : UCmd)
  | casCal (u : UCmd)
  | casReset (u : UCmd)
  | casTakeover (u : UCmd)
  | casLeave (u : UCmd)
  | cascadeCalDone (theta fwd : Int)
  | recalTimer
  | markTimer
  | slewStep
  | joinWaitTimeout (j : Nat)
  | casLinkRun (l peer : Nat)


  | pnlCtlStart
  | pnlCtlStop
  | pnlCtlCommit
  | pnlStart (u : UCmd)
  | pnlStop (u : UCmd)
  | pnlCommit (u : UCmd)
  | pnlFlip (u : UCmd)
  | trainingStepDone (ok lacks : Bool) (drive : Nat)
  | commitPoint (t : Time)
  | pixelDue (level : Nat)
  | panelStopDone
  | pnlAuxCmdGo (cmd : Nat)
  | auxReply (reply : Nat) (data : List Byte)
  | auxTimeout
  | hpdChange (level lost : Bool)
  | hpdLowTimeout


  | sysImgCtlStart
  | sysImgCtlFlash
  | sysImgCtlRestart
  | sysImgCtlRestartLoad
  | sysRestart (u : UCmd)
  | imageLoaded
  | flashImageRead (data : List Byte) (big : Bool)
  | sysOvlCtlGo
  | sysOverlay (u : UCmd)
  | overlayStaged
  | sysSleepCtlGo
  | sysSleep (u : UCmd)
  | sleepEntryDone
  | wakePin
  | wakeHostAccess
  | wakeTimer
  | wakeStart
  | resumeInstant
  | resetAssert (perst : Bool) (ns : Nat) (full : Bool)
  | resetRelease (perst : Bool)
  | refclkReady (hz : Nat) (lockA lockB : Bool)
  | rootLockTimeout
  | postDone (failed : List Nat) (fixed : Nat) (vddOk : Bool)
  | trainingDone (remaps : List Nat) (flash : Bool)
  | sysFlashCmdGo (cmd : Nat)
  | flashCmdDone (data : List Byte)
  | functionLevelReset


  | railOutOfRange
  | powerUp (straps : Nat)
  | testAccessPortClock (tms tdi trst rising : Bool)


  deriving DecidableEq, Repr

end Sys2Proof
end

