-- ==== Sys2Proof/Decode.lean ====
section
/-!
DEFINITION. The commands as words of spec/opcode_table.json.

No row of the table gives bits to its command (every row's list of fields is empty): the block
is commanded by events and by register accesses, and a word spells none of them. The 128-bit
words of the DISOEX instructions are decoded in Sys2Proof/Machine/Disoex.lean.
-/

namespace Sys2Proof

/-- The command a word spells by the table's bits: the table gives no row any bits. -/
def decodeTableWord (_nbits _w : Nat) : Option Instr := none

end Sys2Proof
end

