-- ==== Sys2Proof/Config.lean ====
section
/-! DEFINITION. What the AX5120 fixes as constants of the part, and the free values: opaque constants with no body, for
the values the manual leaves open. Nothing in Lean can evaluate a free value. -/

namespace Sys2Proof

/-- The size of device memory, 48 GiB (R51). -/
def Config.memSize : Nat := 0xC00000000

/-- The expected self-test signature of a rotation class, fixed in on-die memory (R533, R534). -/
opaque Config.goldenSig (k : Nat) : Nat

/-- The coarse code of the factory band entry, trimmed for the part (R456). -/
opaque Config.factoryCode : Nat

/-- A free value of the machine's own draw counter `n`, for a value the manual leaves undefined. -/
opaque Config.free : Nat → Nat

/-- The signature register after `n` scan patterns from a seed and an earlier signature (R325): the scan chains of the
part are not described. -/
opaque Config.scanSignature (seed sig n : Nat) : Nat

/-- The DEFLATE data that a compressor makes of a frame's original bytes at a level (R378, R382): the manual fixes its limits
and that it inflates to them, not the bytes. -/
opaque Config.deflate (level : Nat) (orig : List Byte) : List Byte

/-- The Kaiser coefficient, in units of 2^-16, for a parameter whose encoding is not finite: R141 defines no value. -/
opaque Config.kaiserOpen (beta x n : Nat) : Int

/-- How far the level that the device computes for the power ratio `n / m` lies from the exact one, in units of
2^-40 dB (R181, R188): the model clamps it to the 0.001 dB that the manual allows. -/
opaque Config.dbError (n m : Nat) : Int

/-- Byte `i` of the sleep save region (R348), at the draw `n`: the manual fixes what it holds, not where, and leaves its contents
outside sleep undefined. -/
opaque Config.saveByte (n i : Nat) : Byte

/-- Tap `i` of the monitor converters' decimating FIR (R496), and the fraction bits that the CIC output keeps (R497): the manual gives neither. -/
opaque Config.monTap (i : Nat) : Int
opaque Config.cicBits : Nat

/-- The scale of a physical monitor converter with a capacitor word (R514, R515), in units of 2^-94 V for one unit of its FIR output. -/
opaque Config.monScale (u sel : Nat) : Nat

/-- The factory selection of a physical monitor converter (R513). -/
opaque Config.factoryWord (u : Nat) : Nat

/-- The low 12 bits of the part's IEEE 1149.1 identification, with the manufacturer's code in bits 11 to 1 and 1 in bit 0 (R592): the manual
gives the version and the part number. -/
opaque Config.idLow : Nat

/-- The instruction codes of the test access port (R592), which the manual leaves to the BSDL file: 0 IDCODE, 1 SAMPLE/PRELOAD, 2 EXTEST,
3 EXTEST_PULSE, 4 EXTEST_TRAIN. BYPASS is all ones by IEEE 1149.1; CLAMP and HIGHZ select the bypass register as it does. -/
opaque Config.tapCode (i : Nat) : Nat

/-- The length of the boundary scan register (R592): the manual gives no list of its cells. -/
opaque Config.boundaryLength : Nat

/-- What the boundary scan register captures in cell `i`, at the draw `n` (R592). -/
opaque Config.boundaryCell (n i : Nat) : Bool

end Sys2Proof
end

