-- ==== Sys2Proof/Machine/Bits.lean ====
section
/-! DEFINITION. Bit fields, signed views, byte order and exact rounding: the helpers that every
chapter's arithmetic uses. -/

namespace Sys2Proof.Machine

/-- A register field: its lowest bit and its width (the manual's `[high:low]`). -/
structure Field where
  lo : Nat
  w : Nat
  deriving DecidableEq, Repr

/-- The bits of `n` from `lo`, `w` bits wide. -/
def bitsOf (n lo w : Nat) : Nat := (n / 2 ^ lo) % 2 ^ w

/-- `n` with the bits from `lo`, `w` wide, replaced by the low `w` bits of `v`. -/
def setBits (n lo w v : Nat) : Nat :=
  n - bitsOf n lo w * 2 ^ lo + (v % 2 ^ w) * 2 ^ lo

/-- Bit `i` of `n`. -/
def bitAt (n i : Nat) : Bool := decide ((n / 2 ^ i) % 2 = 1)

/-- The bits of `n` set in a list of `w`. -/
def onesBelow (n w : Nat) : List Nat := (List.range w).filter (bitAt n)

/-- How many of the low `w` bits of `n` are one. -/
def popCount (n w : Nat) : Nat := (onesBelow n w).length

/-- The two's-complement view of the low `w` bits of `n`. -/
def signed (w n : Nat) : Int :=
  if n % 2 ^ w < 2 ^ (w - 1) then (n % 2 ^ w : Nat) else (n % 2 ^ w : Nat) - (2 ^ w : Nat)

/-- The low `w` bits of an integer, in two's complement. -/
def wrap (w : Nat) (z : Int) : Nat := (z % (2 ^ w : Nat)).toNat

/-- Saturation to `w` signed bits. -/
def satTo (w : Nat) (z : Int) : Int :=
  if z > (2 ^ (w - 1) : Nat) - 1 then (2 ^ (w - 1) : Nat) - 1
  else if z < -(2 ^ (w - 1) : Nat) then -(2 ^ (w - 1) : Nat) else z

/-- Whether saturation to `w` signed bits changes the value. -/
def saturates (w : Nat) (z : Int) : Bool := decide (satTo w z ≠ z)

/-- `n / m` rounded to the nearest integer, ties to even, for `0 < m`. -/
def roundHalfEven (n m : Int) : Int :=
  let q := n / m
  let r := n % m
  if 2 * r < m then q else if 2 * r > m then q + 1 else if q % 2 = 0 then q else q + 1

/-- `n / m` rounded up. -/
def ceilDiv (n m : Nat) : Nat := (n + m - 1) / m

/-- The bytes of `n`, least significant first (little-endian), `len` of them. -/
def bytesLE : Nat → Nat → List Byte
  | 0, _ => []
  | len + 1, n => BitVec.ofNat 8 n :: bytesLE len (n / 256)

/-- The number that little-endian bytes spell. -/
def ofBytesLE : List Byte → Nat
  | [] => 0
  | b :: bs => b.toNat + 256 * ofBytesLE bs

/-- R477: whether instant `a` is equal to or earlier than instant `b`, by the sign of the 64-bit
difference. -/
def timeLE (a b : Time) : Bool := decide (0 ≤ (b - a).toInt)

/-- R477: whether instant `a` is earlier than instant `b`. -/
def timeLT (a b : Time) : Bool := decide (0 < (b - a).toInt)

/-- The later of two instants. -/
def timeMax (a b : Time) : Time := if timeLE a b then b else a

/-- A length in nanoseconds as a difference of device times. -/
def nsTime (ns : Nat) : Time := BitVec.ofNat 64 (ns * 65536)

end Sys2Proof.Machine
end

