-- ==== Sys2Proof/Machine/Regs.lean ====
section
/-! DEFINITION. The register map: every register of the BAR0 unit and cluster windows (R46, R47), its byte
address, its named fields, and its row of access masks and reset value (R3, R5), written from the register
tables of the chapters. `Reg` holds the addresses, `F` the fields at their addresses, `regTable` the rows. -/

namespace Sys2Proof.Machine

/-- A field of the register at a BAR0 byte address. -/
structure FieldAt where
  addr : Nat
  f : Field
  deriving DecidableEq, Repr

/-- A register row of the tables: its first address, its index strides as (stride, count), the masks of its RW,
W1C, W1S and RC bits, its reset value, and whether it is the low (1) or high (2) half of a pair. -/
structure RegRow where
  base : Nat
  dims : List (Nat × Nat)
  rw : Nat
  w1c : Nat
  w1s : Nat
  rc : Nat
  reset : Nat
  half : Nat
  deriving DecidableEq, Repr

namespace Reg

def LNK_ID : Nat := 0x200000
def LNK_SUM_PAYLOAD : Nat := 0x200004
def LNK_SUM_RATE : Nat := 0x200008
def LNK_G_CFG (g : Nat) : Nat := 0x200100 + g * 0x10
def LNK_TG_CFG (g : Nat) : Nat := 0x200200 + g * 0x10
def LNK_L_CFG (i : Nat) : Nat := 0x201000 + i * 0x40
def LNK_L_STAT (i : Nat) : Nat := 0x201004 + i * 0x40
def LNK_L_FLAGS (i : Nat) : Nat := 0x201008 + i * 0x40
def LNK_L_HDR_ERR (i : Nat) : Nat := 0x201010 + i * 0x40
def LNK_L_LOCK_LOSS (i : Nat) : Nat := 0x201014 + i * 0x40
def LNK_L_ALIGN_LOSS (i : Nat) : Nat := 0x201018 + i * 0x40
def LNK_L_SCB_ERR (i : Nat) : Nat := 0x20101c + i * 0x40
def LNK_L_CODE_ERR (i : Nat) : Nat := 0x201020 + i * 0x40
def LNK_L_CDR_LOSS (i : Nat) : Nat := 0x201024 + i * 0x40
def LNK_L_SKIP_ADJ (i : Nat) : Nat := 0x201028 + i * 0x40
def LNK_S_CFG (s : Nat) : Nat := 0x202000 + s * 0x100
def LNK_S_LANES (s : Nat) : Nat := 0x202004 + s * 0x100
def LNK_S_PNUM (s : Nat) : Nat := 0x202008 + s * 0x100
def LNK_S_PDEN (s : Nat) : Nat := 0x20200c + s * 0x100
def LNK_S_TOFS (s : Nat) : Nat := 0x202010 + s * 0x100
def LNK_S_HOLD (s : Nat) : Nat := 0x202014 + s * 0x100
def LNK_S_AT_LO (s : Nat) : Nat := 0x202018 + s * 0x100
def LNK_S_AT_HI (s : Nat) : Nat := 0x20201c + s * 0x100
def LNK_S_CTL (s : Nat) : Nat := 0x202020 + s * 0x100
def LNK_S_STAT (s : Nat) : Nat := 0x202024 + s * 0x100
def LNK_S_FLAGS (s : Nat) : Nat := 0x202028 + s * 0x100
def LNK_S_ANCHOR_LO (s : Nat) : Nat := 0x202030 + s * 0x100
def LNK_S_ANCHOR_HI (s : Nat) : Nat := 0x202034 + s * 0x100
def LNK_S_LEVEL (s : Nat) : Nat := 0x202038 + s * 0x100
def LNK_S_LATE_CNT (s : Nat) : Nat := 0x202040 + s * 0x100
def LNK_S_EARLY_CNT (s : Nat) : Nat := 0x202044 + s * 0x100
def LNK_S_REBUILT_CNT (s : Nat) : Nat := 0x202048 + s * 0x100
def LNK_S_LOST_CNT (s : Nat) : Nat := 0x20204c + s * 0x100
def LNK_S_PMIS_CNT (s : Nat) : Nat := 0x202050 + s * 0x100
def LNK_S_RESTART_CNT (s : Nat) : Nat := 0x202054 + s * 0x100
def LNK_S_INDEX_ERR_CNT (s : Nat) : Nat := 0x202058 + s * 0x100
def LNK_S_PDOWN_CNT (s : Nat) : Nat := 0x20205c + s * 0x100
def LNK_S_PNUM_CUR (s : Nat) : Nat := 0x202060 + s * 0x100
def LNK_S_PDEN_CUR (s : Nat) : Nat := 0x202064 + s * 0x100
def LNK_E_CFG (s : Nat) : Nat := 0x203000 + s * 0x20
def LNK_E_LANES (s : Nat) : Nat := 0x203004 + s * 0x20
def LNK_E_STAT (s : Nat) : Nat := 0x203008 + s * 0x20
def CHN_ID : Nat := 0x300000
def CHN_SYNC_CFG : Nat := 0x300010
def CHN_RESET_AT_LO : Nat := 0x300018
def CHN_RESET_AT_HI : Nat := 0x30001c
def CHN_RESET_CTL : Nat := 0x300020
def CHN_LAST_RESET_LO : Nat := 0x300028
def CHN_LAST_RESET_HI : Nat := 0x30002c
def CHN_RESET_CNT : Nat := 0x300030
def CHN_SYNC_CNT : Nat := 0x300034
def CHN_C_CFG (s : Nat) : Nat := 0x301000 + s * 0x100
def CHN_C_CTL (s : Nat) : Nat := 0x301008 + s * 0x100
def CHN_C_STAT (s : Nat) : Nat := 0x30100c + s * 0x100
def CHN_C_AT_LO (s : Nat) : Nat := 0x301010 + s * 0x100
def CHN_C_AT_HI (s : Nat) : Nat := 0x301014 + s * 0x100
def CHN_C_FLAGS (s : Nat) : Nat := 0x301018 + s * 0x100
def CHN_C_SAT_CNT (s : Nat) : Nat := 0x30101c + s * 0x100
def CHN_Z_CFG (z : Nat) : Nat := 0x302000 + z * 0x100
def CHN_Z_RATIO (z : Nat) : Nat := 0x302004 + z * 0x100
def CHN_Z_FTW_LO (z : Nat) : Nat := 0x302008 + z * 0x100
def CHN_Z_FTW_HI (z : Nat) : Nat := 0x30200c + z * 0x100
def CHN_Z_PHASE (z : Nat) : Nat := 0x302010 + z * 0x100
def CHN_Z_FIR_REF (z : Nat) : Nat := 0x302014 + z * 0x100
def CHN_Z_CTL (z : Nat) : Nat := 0x302018 + z * 0x100
def CHN_Z_STAT (z : Nat) : Nat := 0x30201c + z * 0x100
def CHN_Z_AT_LO (z : Nat) : Nat := 0x302020 + z * 0x100
def CHN_Z_AT_HI (z : Nat) : Nat := 0x302024 + z * 0x100
def CHN_Z_GAIN (z : Nat) : Nat := 0x302028 + z * 0x100
def CHN_Z_SHIFT (z : Nat) : Nat := 0x30202c + z * 0x100
def CHN_Z_TAU2 (z : Nat) : Nat := 0x302030 + z * 0x100
def CHN_Z_FLAGS (z : Nat) : Nat := 0x302038 + z * 0x100
def CHN_Z_SAT_CNT (z : Nat) : Nat := 0x30203c + z * 0x100
def XF_ID : Nat := 0x400000
def XF_CAPACITY : Nat := 0x400004
def XF_LIVE : Nat := 0x400008
def XF_SCHED_BASE_LO : Nat := 0x400010
def XF_SCHED_BASE_HI : Nat := 0x400014
def XF_SCHED_SIZE : Nat := 0x400018
def XF_SCHED_AT_LO : Nat := 0x400020
def XF_SCHED_AT_HI : Nat := 0x400024
def XF_SCHED_CTL : Nat := 0x400028
def XF_SCHED_STAT : Nat := 0x40002c
def XF_RUN_LOAD : Nat := 0x400030
def XF_RUN_LONG : Nat := 0x400034
def XF_RUN_ENTRIES : Nat := 0x400038
def XF_POOL_LOAD (p : Nat) : Nat := 0x400040 + p * 0x4
def XF_SWITCH_LO : Nat := 0x400050
def XF_SWITCH_HI : Nat := 0x400054
def XF_FLAGS : Nat := 0x400060
def XF_STAT : Nat := 0x400064
def XF_DEGRADED_CNT : Nat := 0x400070
def XF_SKIP_CNT : Nat := 0x400074
def XF_LONG_DROP_CNT : Nat := 0x400078
def XF_CL_DROP_CNT : Nat := 0x40007c
def XF_FRAME_CNT_LO : Nat := 0x400080
def XF_FRAME_CNT_HI : Nat := 0x400084
def XF_KAISER_BETA (i : Nat) : Nat := 0x400100 + i * 0x4
def XF_WSTORE_USED : Nat := 0x400200
def XF_T_STAT (t : Nat) : Nat := 0x400400 + t * 0x10
def XF_T_BUSY (t : Nat) : Nat := 0x400404 + t * 0x10
def XF_C_STAT (c : Nat) : Nat := 0x410000 + c * 0x10
def XF_C_INDEX_LO (c : Nat) : Nat := 0x410004 + c * 0x10
def XF_C_INDEX_HI (c : Nat) : Nat := 0x410008 + c * 0x10
def XF_C_SKIP (c : Nat) : Nat := 0x41000c + c * 0x10
def DET_ID : Nat := 0x500000
def DET_STORE_USED : Nat := 0x500004
def DET_CLR_CFG : Nat := 0x500010
def DET_CLR_AT_LO : Nat := 0x500018
def DET_CLR_AT_HI : Nat := 0x50001c
def DET_CLR_CTL : Nat := 0x500020
def DET_CLR_STAT : Nat := 0x500024
def DET_FLAGS : Nat := 0x500030
def DET_EMPTY_CNT : Nat := 0x500040
def DET_PARTIAL_CNT : Nat := 0x500044
def DET_TRACE_CNT_LO : Nat := 0x500048
def DET_TRACE_CNT_HI : Nat := 0x50004c
def DET_C_STAT (c : Nat) : Nat := 0x510000 + c * 0x4
def DEN_ID : Nat := 0x580000
def DEN_MEM_RATE : Nat := 0x580004
def DEN_TILE_USED (p : Nat) : Nat := 0x580008 + p * 0x4
def DEN_CMD_CFG : Nat := 0x580020
def DEN_SNAP_DEST_LO : Nat := 0x580028
def DEN_SNAP_DEST_HI : Nat := 0x58002c
def DEN_CMD_AT_LO : Nat := 0x580030
def DEN_CMD_AT_HI : Nat := 0x580034
def DEN_CMD_CTL : Nat := 0x580038
def DEN_CMD_STAT : Nat := 0x58003c
def DEN_FLAGS : Nat := 0x580040
def DEN_SAT_CNT : Nat := 0x580050
def DEN_MEM_DROP_CNT : Nat := 0x580054
def DEN_DECAY_LATE_CNT : Nat := 0x580058
def DEN_TILE_LOST_CNT : Nat := 0x58005c
def DEN_P_STAT (p : Nat) : Nat := 0x581000 + p * 0x20
def DEN_P_FRAMES_LO (p : Nat) : Nat := 0x581008 + p * 0x20
def DEN_P_FRAMES_HI (p : Nat) : Nat := 0x58100c + p * 0x20
def DEN_P_LAST_LO (p : Nat) : Nat := 0x581010 + p * 0x20
def DEN_P_LAST_HI (p : Nat) : Nat := 0x581014 + p * 0x20
def DEN_P_SAT (p : Nat) : Nat := 0x581018 + p * 0x20
def DEN_P_DROP (p : Nat) : Nat := 0x58101c + p * 0x20
def TRG_ID : Nat := 0x600000
def TRG_MASK_USED : Nat := 0x600004
def TRG_FLAGS : Nat := 0x600010
def TRG_COINC_CNT : Nat := 0x600020
def TRG_SEQ_EXP_CNT : Nat := 0x600024
def TRG_RUN_BROKEN_CNT : Nat := 0x600028
def TRG_MT_VIOL_CNT : Nat := 0x60002c
def TRG_HOLDOFF_CNT : Nat := 0x600030
def TRG_SW_CFG : Nat := 0x600040
def TRG_SW_AT_LO : Nat := 0x600048
def TRG_SW_AT_HI : Nat := 0x60004c
def TRG_SW_CTL : Nat := 0x600050
def TRG_SW_STAT : Nat := 0x600054
def TRG_DECIDED_LO : Nat := 0x600060
def TRG_DECIDED_HI : Nat := 0x600064
def TRG_T_CFG (n : Nat) : Nat := 0x601000 + n * 0x40
def TRG_T_PARAM0 (n : Nat) : Nat := 0x601004 + n * 0x40
def TRG_T_PARAM1 (n : Nat) : Nat := 0x601008 + n * 0x40
def TRG_T_PARAM2 (n : Nat) : Nat := 0x60100c + n * 0x40
def TRG_T_PARAM3 (n : Nat) : Nat := 0x601010 + n * 0x40
def TRG_T_HOLDOFF (n : Nat) : Nat := 0x601014 + n * 0x40
def TRG_T_QUEUE (n : Nat) : Nat := 0x601018 + n * 0x40
def TRG_T_CTL (n : Nat) : Nat := 0x60101c + n * 0x40
def TRG_T_STAT (n : Nat) : Nat := 0x601020 + n * 0x40
def TRG_T_AT_LO (n : Nat) : Nat := 0x601028 + n * 0x40
def TRG_T_AT_HI (n : Nat) : Nat := 0x60102c + n * 0x40
def TRG_T_LAST_LO (n : Nat) : Nat := 0x601030 + n * 0x40
def TRG_T_LAST_HI (n : Nat) : Nat := 0x601034 + n * 0x40
def TRG_T_FIRE_CNT (n : Nat) : Nat := 0x601038 + n * 0x40
def ACQ_ID : Nat := 0x680000
def ACQ_RETURN_HOLD : Nat := 0x680004
def ACQ_FLAGS : Nat := 0x680010
def ACQ_REDUCE_CNT : Nat := 0x680020
def ACQ_TRUNC_CNT : Nat := 0x680024
def ACQ_IGNORED_CNT : Nat := 0x680028
def ACQ_FROZEN_CNT : Nat := 0x68002c
def ACQ_B_CFG (b : Nat) : Nat := 0x690000 + b * 0x80
def ACQ_B_QUEUE (b : Nat) : Nat := 0x690004 + b * 0x80
def ACQ_B_BASE_LO (b : Nat) : Nat := 0x690008 + b * 0x80
def ACQ_B_BASE_HI (b : Nat) : Nat := 0x69000c + b * 0x80
def ACQ_B_SIZE_LO (b : Nat) : Nat := 0x690010 + b * 0x80
def ACQ_B_SIZE_HI (b : Nat) : Nat := 0x690014 + b * 0x80
def ACQ_B_BIND_LO (b : Nat) : Nat := 0x690018 + b * 0x80
def ACQ_B_BIND_HI (b : Nat) : Nat := 0x69001c + b * 0x80
def ACQ_B_PRE_LO (b : Nat) : Nat := 0x690020 + b * 0x80
def ACQ_B_PRE_HI (b : Nat) : Nat := 0x690024 + b * 0x80
def ACQ_B_POST_LO (b : Nat) : Nat := 0x690028 + b * 0x80
def ACQ_B_POST_HI (b : Nat) : Nat := 0x69002c + b * 0x80
def ACQ_B_AT_LO (b : Nat) : Nat := 0x690030 + b * 0x80
def ACQ_B_AT_HI (b : Nat) : Nat := 0x690034 + b * 0x80
def ACQ_B_CHUNK (b : Nat) : Nat := 0x690038 + b * 0x80
def ACQ_B_CTL (b : Nat) : Nat := 0x69003c + b * 0x80
def ACQ_B_STAT (b : Nat) : Nat := 0x690040 + b * 0x80
def ACQ_B_TRIG_LO (b : Nat) : Nat := 0x690048 + b * 0x80
def ACQ_B_TRIG_HI (b : Nat) : Nat := 0x69004c + b * 0x80
def ACQ_B_WPOS_LO (b : Nat) : Nat := 0x690050 + b * 0x80
def ACQ_B_WPOS_HI (b : Nat) : Nat := 0x690054 + b * 0x80
def ACQ_B_REDUCE_CNT (b : Nat) : Nat := 0x690058 + b * 0x80
def ACQ_B_IGNORED_CNT (b : Nat) : Nat := 0x69005c + b * 0x80
def SYS_ID : Nat := 0x0
def SYS_STAT : Nat := 0x4
def SYS_POST_STAT : Nat := 0x8
def SYS_FLAGS : Nat := 0x10
def SYS_BAD_ACCESS : Nat := 0x20
def SYS_RESTART_CNT : Nat := 0x24
def SYS_OVL_CNT : Nat := 0x28
def SYS_SLEEP_CNT : Nat := 0x2c
def SYS_IMG_FAIL_CNT : Nat := 0x30
def SYS_IMG_BASE_LO : Nat := 0x40
def SYS_IMG_BASE_HI : Nat := 0x44
def SYS_IMG_CTL : Nat := 0x48
def SYS_IMG_STAT : Nat := 0x4c
def SYS_IMG_ID_LO : Nat := 0x50
def SYS_IMG_ID_HI : Nat := 0x54
def SYS_FLASH_CFG : Nat := 0x60
def SYS_FLASH_CMD : Nat := 0x64
def SYS_FLASH_ADDR : Nat := 0x68
def SYS_FLASH_STAT : Nat := 0x6c
def SYS_OVL_CFG : Nat := 0x80
def SYS_OVL_AT_LO : Nat := 0x88
def SYS_OVL_AT_HI : Nat := 0x8c
def SYS_OVL_CTL : Nat := 0x90
def SYS_OVL_STAT : Nat := 0x94
def SYS_MODE : Nat := 0x98
def SYS_MODE_AT_LO : Nat := 0xa0
def SYS_MODE_AT_HI : Nat := 0xa4
def SYS_SLEEP_CFG : Nat := 0xc0
def SYS_SLEEP_AT_LO : Nat := 0xc8
def SYS_SLEEP_AT_HI : Nat := 0xcc
def SYS_WAKE_AT_LO : Nat := 0xd0
def SYS_WAKE_AT_HI : Nat := 0xd4
def SYS_SLEEP_CTL : Nat := 0xd8
def SYS_SLEEP_STAT : Nat := 0xdc
def SYS_RESUME_LO : Nat := 0xe0
def SYS_RESUME_HI : Nat := 0xe4
def SYS_SAVE_BASE_LO : Nat := 0xe8
def SYS_SAVE_BASE_HI : Nat := 0xec
def QUE_ID : Nat := 0x700000
def QUE_ENABLED : Nat := 0x700004
def QUE_FLAGS : Nat := 0x700010
def QUE_DROP_CNT : Nat := 0x700020
def QUE_DISABLED_DROP_CNT : Nat := 0x700024
def QUE_POISON_CNT : Nat := 0x700028
def QUE_SPILL_LAT : Nat := 0x700040
def QUE_Q_CFG (q : Nat) : Nat := 0x710000 + q * 0x40
def QUE_Q_SLOTS (q : Nat) : Nat := 0x710004 + q * 0x40
def QUE_Q_BASE_LO (q : Nat) : Nat := 0x710008 + q * 0x40
def QUE_Q_BASE_HI (q : Nat) : Nat := 0x71000c + q * 0x40
def QUE_Q_CTL (q : Nat) : Nat := 0x710010 + q * 0x40
def QUE_Q_STAT (q : Nat) : Nat := 0x710014 + q * 0x40
def QUE_Q_THRESH (q : Nat) : Nat := 0x710018 + q * 0x40
def QUE_Q_IRQ (q : Nat) : Nat := 0x71001c + q * 0x40
def QUE_Q_RECORDS (q : Nat) : Nat := 0x710020 + q * 0x40
def QUE_Q_USED (q : Nat) : Nat := 0x710024 + q * 0x40
def QUE_Q_SEQ (q : Nat) : Nat := 0x710028 + q * 0x40
def QUE_Q_DROP (q : Nat) : Nat := 0x71002c + q * 0x40
def QUE_Q_PUSHED_LO (q : Nat) : Nat := 0x710030 + q * 0x40
def QUE_Q_PUSHED_HI (q : Nat) : Nat := 0x710034 + q * 0x40
def QUE_Q_PEAK (q : Nat) : Nat := 0x710038 + q * 0x40
def CMP_ID : Nat := 0x800000
def CMP_VACANT : Nat := 0x800004
def CMP_U_VACANT : Nat := 0x800008
def CMP_FLAGS : Nat := 0x800010
def CMP_STOP_CNT : Nat := 0x800020
def CMP_FAIL_CNT : Nat := 0x800024
def CMP_RAW_CNT : Nat := 0x800028
def CMP_POISON_CNT : Nat := 0x80002c
def CMP_IN_LO : Nat := 0x800040
def CMP_IN_HI : Nat := 0x800044
def CMP_OUT_LO : Nat := 0x800048
def CMP_OUT_HI : Nat := 0x80004c
def CMP_Z_CTL (z : Nat) : Nat := 0x801040 + z * 0x80
def CMP_Z_STAT (z : Nat) : Nat := 0x801044 + z * 0x80
def CMP_Z_CONT_ADDR_LO (z : Nat) : Nat := 0x801048 + z * 0x80
def CMP_Z_CONT_ADDR_HI (z : Nat) : Nat := 0x80104c + z * 0x80
def CMP_Z_CONT_LEN (z : Nat) : Nat := 0x801050 + z * 0x80
def CMP_Z_IN_DONE_LO (z : Nat) : Nat := 0x801058 + z * 0x80
def CMP_Z_IN_DONE_HI (z : Nat) : Nat := 0x80105c + z * 0x80
def CMP_Z_OUT_DONE_LO (z : Nat) : Nat := 0x801060 + z * 0x80
def CMP_Z_OUT_DONE_HI (z : Nat) : Nat := 0x801064 + z * 0x80
def CMP_Z_FRAMES (z : Nat) : Nat := 0x801068 + z * 0x80
def CMP_U_CTL (u : Nat) : Nat := 0x804040 + u * 0x80
def CMP_U_STAT (u : Nat) : Nat := 0x804044 + u * 0x80
def MEM_ID : Nat := 0x900000
def MEM_STAT : Nat := 0x900004
def MEM_FLAGS : Nat := 0x900010
def MEM_CE_CNT : Nat := 0x900020
def MEM_UE_CNT : Nat := 0x900024
def MEM_PROMOTE_CNT : Nat := 0x900028
def MEM_REPAIR_CNT : Nat := 0x90002c
def MEM_POISON_READ_CNT : Nat := 0x900030
def MEM_LOG_LOST_CNT : Nat := 0x900034
def MEM_POISON_FULL_CNT : Nat := 0x900038
def MEM_REPAIR_FAIL_CNT : Nat := 0x90003c
def MEM_AGE_LIMIT : Nat := 0x900040
def MEM_PORT_PRI0 : Nat := 0x900044
def MEM_PORT_PRI1 : Nat := 0x900048
def MEM_PORT_PRI2 : Nat := 0x90004c
def MEM_SCRUB_CFG : Nat := 0x900050
def MEM_SCRUB_POS_LO : Nat := 0x900058
def MEM_SCRUB_POS_HI : Nat := 0x90005c
def MEM_REPAIR_CFG : Nat := 0x900060
def MEM_REPAIR_ADDR_LO : Nat := 0x900068
def MEM_REPAIR_ADDR_HI : Nat := 0x90006c
def MEM_REPAIR_CTL : Nat := 0x900070
def MEM_REPAIR_STAT : Nat := 0x900074
def MEM_POISON_USED : Nat := 0x900078
def MEM_DEC_ADDR_LO : Nat := 0x900080
def MEM_DEC_ADDR_HI : Nat := 0x900084
def MEM_DEC_RESULT : Nat := 0x900088
def MEM_IRQ : Nat := 0x90008c
def MEM_LOG_WR : Nat := 0x900090
def MEM_LOG_RD : Nat := 0x900094
def MEM_CLASS_BW (k : Nat) : Nat := 0x900100 + k * 0x4
def MEM_CLASS_LAT (k : Nat) : Nat := 0x900120 + k * 0x4
def MEM_S_STAT (s : Nat) : Nat := 0x900200 + s * 0x10
def MEM_PC_STAT (p : Nat) : Nat := 0x900400 + p * 0x4
def HIF_ID : Nat := 0xa00000
def HIF_LINK_STAT : Nat := 0xa00004
def HIF_CFG : Nat := 0xa00008
def HIF_FLAGS : Nat := 0xa00010
def HIF_RETRAIN_CNT : Nat := 0xa00020
def HIF_COR_CNT : Nat := 0xa00024
def HIF_UNCOR_CNT : Nat := 0xa00028
def HIF_POISON_RX_CNT : Nat := 0xa0002c
def HIF_CPL_TIMEOUT_CNT : Nat := 0xa00030
def HIF_TX_BYTES_LO : Nat := 0xa00040
def HIF_TX_BYTES_HI : Nat := 0xa00044
def HIF_RX_BYTES_LO : Nat := 0xa00048
def HIF_RX_BYTES_HI : Nat := 0xa0004c
def HIF_RD_LAT : Nat := 0xa00050
def DMA_ID : Nat := 0xa80000
def DMA_FLAGS : Nat := 0xa80010
def DMA_ERR_CNT : Nat := 0xa80020
def DMA_DB_ERR_CNT : Nat := 0xa80024
def DMA_POISON_CNT : Nat := 0xa80028
def DMA_RGN_CTL : Nat := 0xa80040
def DMA_RGN_STAT : Nat := 0xa80044
def DMA_R_CFG (r : Nat) : Nat := 0xa81000 + r * 0x20
def DMA_R_DBASE_LO (r : Nat) : Nat := 0xa81008 + r * 0x20
def DMA_R_DBASE_HI (r : Nat) : Nat := 0xa8100c + r * 0x20
def DMA_R_SIZE_LO (r : Nat) : Nat := 0xa81010 + r * 0x20
def DMA_R_SIZE_HI (r : Nat) : Nat := 0xa81014 + r * 0x20
def DMA_R_TBASE_LO (r : Nat) : Nat := 0xa81018 + r * 0x20
def DMA_R_TBASE_HI (r : Nat) : Nat := 0xa8101c + r * 0x20
def DMA_C_CFG (c : Nat) : Nat := 0xa90000 + c * 0x80
def DMA_C_RING_LO (c : Nat) : Nat := 0xa90008 + c * 0x80
def DMA_C_RING_HI (c : Nat) : Nat := 0xa9000c + c * 0x80
def DMA_C_RING_SIZE (c : Nat) : Nat := 0xa90010 + c * 0x80
def DMA_C_TAIL (c : Nat) : Nat := 0xa90014 + c * 0x80
def DMA_C_HEAD (c : Nat) : Nat := 0xa90018 + c * 0x80
def DMA_C_CTL (c : Nat) : Nat := 0xa9001c + c * 0x80
def DMA_C_STAT (c : Nat) : Nat := 0xa90020 + c * 0x80
def DMA_C_BYTES_LO (c : Nat) : Nat := 0xa90028 + c * 0x80
def DMA_C_BYTES_HI (c : Nat) : Nat := 0xa9002c + c * 0x80
def DMA_C_DESC_CNT (c : Nat) : Nat := 0xa90030 + c * 0x80
def DMA_C_DB_ERR (c : Nat) : Nat := 0xa90034 + c * 0x80
def CLK_ID : Nat := 0x100000
def CLK_STAT : Nat := 0x100004
def CLK_FLAGS : Nat := 0x100010
def CLK_REF_LOST_CNT : Nat := 0x100020
def CLK_LOCK_LOST_CNT : Nat := 0x100024
def CLK_FAILOVER_CNT : Nat := 0x100028
def CLK_HOLDOVER_CNT : Nat := 0x10002c
def CLK_CHANGE_FAIL_CNT : Nat := 0x100030
def CLK_REF_FREQ : Nat := 0x100040
def CLK_CUR_CFG : Nat := 0x100044
def CLK_CUR_FRAC : Nat := 0x100048
def CLK_CUR_SEED : Nat := 0x10004c
def CLK_NEXT_CFG : Nat := 0x100050
def CLK_NEXT_FRAC : Nat := 0x100054
def CLK_NEXT_SEED : Nat := 0x100058
def CLK_CHANGE_AT_LO : Nat := 0x100060
def CLK_CHANGE_AT_HI : Nat := 0x100064
def CLK_CHANGE_CTL : Nat := 0x100068
def CLK_CHANGE_STAT : Nat := 0x10006c
def CLK_SWITCH_LO : Nat := 0x100070
def CLK_SWITCH_HI : Nat := 0x100074
def CLK_HOLD_LO : Nat := 0x100078
def CLK_HOLD_HI : Nat := 0x10007c
def CLK_TUNE_A : Nat := 0x100080
def CLK_TUNE_B : Nat := 0x100084
def CLK_PROBE : Nat := 0x100090
def CLK_PROBE_RESULT : Nat := 0x100094
def CLK_BAND_FACTORY : Nat := 0x100098
def CKO_CFG (o : Nat) : Nat := 0x100400 + o * 0x20
def CKO_DIV (o : Nat) : Nat := 0x100404 + o * 0x20
def CKO_DELAY (o : Nat) : Nat := 0x100408 + o * 0x20
def CKO_CTL (o : Nat) : Nat := 0x10040c + o * 0x20
def CKO_STAT (o : Nat) : Nat := 0x100410 + o * 0x20
def CKO_AT_LO (o : Nat) : Nat := 0x100418 + o * 0x20
def CKO_AT_HI (o : Nat) : Nat := 0x10041c + o * 0x20
def EVT_ID : Nat := 0xb00000
def EVT_TIME_LO : Nat := 0xb00008
def EVT_TIME_HI : Nat := 0xb0000c
def EVT_EPOCH : Nat := 0xb00010
def EVT_FLAGS : Nat := 0xb00014
def EVT_WRAP_CNT : Nat := 0xb00020
def EVT_DEAD_CNT : Nat := 0xb00024
def EVT_OVF_CNT : Nat := 0xb00028
def EVT_UNPAIRED_CNT : Nat := 0xb0002c
def EVT_ORDER_CNT : Nat := 0xb00030
def EVT_SET_LO : Nat := 0xb00040
def EVT_SET_HI : Nat := 0xb00044
def EVT_SET_EPOCH : Nat := 0xb00048
def EVT_SET_CTL : Nat := 0xb0004c
def EVT_SET_STAT : Nat := 0xb00050
def EVT_I_CFG (n : Nat) : Nat := 0xb01000 + n * 0x40
def EVT_I_THRESH (n : Nat) : Nat := 0xb01004 + n * 0x40
def EVT_I_OFS (n : Nat) : Nat := 0xb01008 + n * 0x40
def EVT_I_QUEUE (n : Nat) : Nat := 0xb0100c + n * 0x40
def EVT_I_FLUSH (n : Nat) : Nat := 0xb01010 + n * 0x40
def EVT_I_CTL (n : Nat) : Nat := 0xb01014 + n * 0x40
def EVT_I_STAT (n : Nat) : Nat := 0xb01018 + n * 0x40
def EVT_I_EDGES_LO (n : Nat) : Nat := 0xb01020 + n * 0x40
def EVT_I_EDGES_HI (n : Nat) : Nat := 0xb01024 + n * 0x40
def EVT_I_LAST_LO (n : Nat) : Nat := 0xb01028 + n * 0x40
def EVT_I_LAST_HI (n : Nat) : Nat := 0xb0102c + n * 0x40
def EVT_I_DEAD_CNT (n : Nat) : Nat := 0xb01030 + n * 0x40
def EVT_I_OVF_CNT (n : Nat) : Nat := 0xb01034 + n * 0x40
def EVT_S_CFG (s : Nat) : Nat := 0xb02000 + s * 0x80
def EVT_S_N (s : Nat) : Nat := 0xb02004 + s * 0x80
def EVT_S_WINDOW (s : Nat) : Nat := 0xb02008 + s * 0x80
def EVT_S_QUEUE (s : Nat) : Nat := 0xb0200c + s * 0x80
def EVT_S_AT_LO (s : Nat) : Nat := 0xb02010 + s * 0x80
def EVT_S_AT_HI (s : Nat) : Nat := 0xb02014 + s * 0x80
def EVT_S_CTL (s : Nat) : Nat := 0xb02018 + s * 0x80
def EVT_S_STAT (s : Nat) : Nat := 0xb0201c + s * 0x80
def EVT_S_MEAN_LO (s : Nat) : Nat := 0xb02020 + s * 0x80
def EVT_S_MEAN_HI (s : Nat) : Nat := 0xb02024 + s * 0x80
def EVT_S_STD_LO (s : Nat) : Nat := 0xb02028 + s * 0x80
def EVT_S_STD_HI (s : Nat) : Nat := 0xb0202c + s * 0x80
def EVT_S_MIN_LO (s : Nat) : Nat := 0xb02030 + s * 0x80
def EVT_S_MIN_HI (s : Nat) : Nat := 0xb02034 + s * 0x80
def EVT_S_MAX_LO (s : Nat) : Nat := 0xb02038 + s * 0x80
def EVT_S_MAX_HI (s : Nat) : Nat := 0xb0203c + s * 0x80
def EVT_S_BLOCKS (s : Nat) : Nat := 0xb02040 + s * 0x80
def MON_ID : Nat := 0xc00000
def MON_CFG : Nat := 0xc00004
def MON_FLAGS : Nat := 0xc00010
def MON_OVR_CNT : Nat := 0xc00020
def MON_INJ_MISS_CNT : Nat := 0xc00024
def MON_LATE_CNT : Nat := 0xc00028
def MON_SYNC_CNT : Nat := 0xc0002c
def MON_LAST_SYNC_LO : Nat := 0xc00030
def MON_LAST_SYNC_HI : Nat := 0xc00034
def MON_SHADOW_TOL (p : Nat) : Nat := 0xc00040 + p * 0x4
def MON_M_CFG (m : Nat) : Nat := 0xc01000 + m * 0x800
def MON_M_QUEUE (m : Nat) : Nat := 0xc01004 + m * 0x800
def MON_M_PERIOD (m : Nat) : Nat := 0xc01008 + m * 0x800
def MON_M_SEQ_LEN (m : Nat) : Nat := 0xc0100c + m * 0x800
def MON_M_AT_LO (m : Nat) : Nat := 0xc01010 + m * 0x800
def MON_M_AT_HI (m : Nat) : Nat := 0xc01014 + m * 0x800
def MON_M_CTL (m : Nat) : Nat := 0xc01018 + m * 0x800
def MON_M_STAT (m : Nat) : Nat := 0xc0101c + m * 0x800
def MON_M_INJ_SRC (m : Nat) : Nat := 0xc01020 + m * 0x800
def MON_M_PASSES (m : Nat) : Nat := 0xc01024 + m * 0x800
def MON_M_INJ_TRIG_LO (m : Nat) : Nat := 0xc01028 + m * 0x800
def MON_M_INJ_TRIG_HI (m : Nat) : Nat := 0xc0102c + m * 0x800
def MON_M_RESULT (m : Nat) (s : Nat) : Nat := 0xc01200 + m * 0x800 + s * 0x10
def MON_M_INFO (m : Nat) (s : Nat) : Nat := 0xc01204 + m * 0x800 + s * 0x10
def MON_M_STAMP_LO (m : Nat) (s : Nat) : Nat := 0xc01208 + m * 0x800 + s * 0x10
def MON_M_STAMP_HI (m : Nat) (s : Nat) : Nat := 0xc0120c + m * 0x800 + s * 0x10
def CAL_ID : Nat := 0xc80000
def CAL_REF_UV : Nat := 0xc80004
def CAL_FLAGS : Nat := 0xc80010
def CAL_REF_BAD_CNT : Nat := 0xc80020
def CAL_FAIL_CNT : Nat := 0xc80024
def CAL_SKIP_CNT : Nat := 0xc80028
def CAL_I_COUNT (k : Nat) : Nat := 0xc81000 + k * 0x20
def CAL_I_LAST_LO (k : Nat) : Nat := 0xc81008 + k * 0x20
def CAL_I_LAST_HI (k : Nat) : Nat := 0xc8100c + k * 0x20
def CAL_I_STAT (k : Nat) : Nat := 0xc81010 + k * 0x20
def CAL_I_SEL (k : Nat) : Nat := 0xc81014 + k * 0x20
def ROT_ID : Nat := 0xd00000
def ROT_CFG : Nat := 0xd00004
def ROT_FLAGS : Nat := 0xd00010
def ROT_SWAP_CNT : Nat := 0xd00020
def ROT_MISMATCH_CNT : Nat := 0xd00024
def ROT_WITHDRAW_CNT : Nat := 0xd00028
def ROT_EXHAUST_CNT : Nat := 0xd0002c
def ROT_ROLE_MISS : Nat := 0xd00030
def ROT_FORCED_CNT : Nat := 0xd00034
def ROT_RETEST_CNT : Nat := 0xd00038
def ROT_PAUSE_CNT : Nat := 0xd0003c
def ROT_CMD : Nat := 0xd00040
def ROT_CMD_STAT : Nat := 0xd00044
def ROT_K_CFG (k : Nat) : Nat := 0xd00100 + k * 0x20
def ROT_K_STAT (k : Nat) : Nat := 0xd00104 + k * 0x20
def ROT_K_SWAP_LO (k : Nat) : Nat := 0xd00108 + k * 0x20
def ROT_K_SWAP_HI (k : Nat) : Nat := 0xd0010c + k * 0x20
def ROT_U_STAT (u : Nat) : Nat := 0xd10000 + u * 0x10
def ROT_U_TESTS (u : Nat) : Nat := 0xd10004 + u * 0x10
def ROT_U_LAST_LO (u : Nat) : Nat := 0xd10008 + u * 0x10
def ROT_U_LAST_HI (u : Nat) : Nat := 0xd1000c + u * 0x10
def BST_ID : Nat := 0xd80000
def BST_FLAGS : Nat := 0xd80010
def BST_RUN_CNT : Nat := 0xd80020
def BST_FAIL_CNT : Nat := 0xd80024
def BST_COND_CNT : Nat := 0xd80028
def BST_CMD : Nat := 0xd80040
def BST_CMD_STAT : Nat := 0xd80044
def BST_SIG_LO : Nat := 0xd80048
def BST_SIG_HI : Nat := 0xd8004c
def BST_POST_FAIL : Nat := 0xd80050
def CAS_ID : Nat := 0xe00000
def CAS_CFG : Nat := 0xe00004
def CAS_STAT : Nat := 0xe00008
def CAS_EPOCH : Nat := 0xe0000c
def CAS_FLAGS : Nat := 0xe00010
def CAS_MSG_ERR_CNT : Nat := 0xe00020
def CAS_UNACKED_CNT : Nat := 0xe00024
def CAS_TX_DROP_CNT : Nat := 0xe00028
def CAS_STALE_CNT : Nat := 0xe0002c
def CAS_LOST_CNT : Nat := 0xe00030
def CAS_TIME_FAULT_CNT : Nat := 0xe00034
def CAS_RESET_LATE_CNT : Nat := 0xe00038
def CAS_JOIN_MISS_CNT : Nat := 0xe0003c
def CAS_TAKEOVER_CNT : Nat := 0xe00040
def CAS_MASTER_LOST_CNT : Nat := 0xe00044
def CAS_OFFSET_LO : Nat := 0xe00050
def CAS_OFFSET_HI : Nat := 0xe00054
def CAS_FWD : Nat := 0xe00058
def CAS_LEAD : Nat := 0xe0005c
def CAS_TIMEOUT : Nat := 0xe00060
def CAS_MARK_PERIOD : Nat := 0xe00064
def CAS_RECAL : Nat := 0xe00068
def CAS_CTL : Nat := 0xe00070
def CAS_CMD_STAT : Nat := 0xe00074
def CAS_AT_LO : Nat := 0xe00078
def CAS_AT_HI : Nat := 0xe0007c
def CAS_CMD_ARG : Nat := 0xe00080
def CAS_D_CFG (d : Nat) : Nat := 0xe01000 + d * 0x20
def CAS_D_ASYM (d : Nat) : Nat := 0xe01004 + d * 0x20
def CAS_D_STAT (d : Nat) : Nat := 0xe01008 + d * 0x20
def CAS_D_IMG_LO (d : Nat) : Nat := 0xe01010 + d * 0x20
def CAS_D_IMG_HI (d : Nat) : Nat := 0xe01014 + d * 0x20
def CAS_L_CFG (l : Nat) : Nat := 0xe02000 + l * 0x20
def CAS_L_TX (l : Nat) : Nat := 0xe02004 + l * 0x20
def CAS_L_RX (l : Nat) : Nat := 0xe02008 + l * 0x20
def CAS_L_STAT (l : Nat) : Nat := 0xe0200c + l * 0x20
def CAS_F_CFG (f : Nat) : Nat := 0xe03000 + f * 0x10
def CAS_RT_CFG (r : Nat) : Nat := 0xe03100 + r * 0x10
def CAS_RT_OFS_LO (r : Nat) : Nat := 0xe03108 + r * 0x10
def CAS_RT_OFS_HI (r : Nat) : Nat := 0xe0310c + r * 0x10
def CAS_J_CFG (j : Nat) : Nat := 0xe03600 + j * 0x10
def CAS_J_PARTS (j : Nat) : Nat := 0xe03604 + j * 0x10
def CAS_J_WAIT (j : Nat) : Nat := 0xe03608 + j * 0x10
def PNL_ID : Nat := 0xf00000
def PNL_CFG : Nat := 0xf00004
def PNL_CTL : Nat := 0xf00008
def PNL_STAT : Nat := 0xf0000c
def PNL_FLAGS : Nat := 0xf00010
def PNL_UNDERRUN_CNT : Nat := 0xf00020
def PNL_URGENT_CNT : Nat := 0xf00024
def PNL_LINK_LOST_CNT : Nat := 0xf00028
def PNL_HPD_CNT : Nat := 0xf0002c
def PNL_H_ACT_FP : Nat := 0xf00040
def PNL_H_SYNC_BP : Nat := 0xf00044
def PNL_V_ACT_FP : Nat := 0xf00048
def PNL_V_SYNC_BP : Nat := 0xf0004c
def PNL_PIX_M : Nat := 0xf00050
def PNL_PIX_N : Nat := 0xf00054
def PNL_BG : Nat := 0xf00058
def PNL_FILL : Nat := 0xf0005c
def PNL_WMARK : Nat := 0xf00060
def PNL_LEVEL : Nat := 0xf00064
def PNL_FRAME_LO : Nat := 0xf00068
def PNL_FRAME_HI : Nat := 0xf0006c
def PNL_FRAMES : Nat := 0xf00070
def PNL_DRIVE : Nat := 0xf00074
def PNL_AUX_CMD : Nat := 0xf00100
def PNL_AUX_STAT : Nat := 0xf00104
def PNL_L_CFG (l : Nat) : Nat := 0xf01000 + l * 0x40
def PNL_L_BASE_LO (l : Nat) : Nat := 0xf01008 + l * 0x40
def PNL_L_BASE_HI (l : Nat) : Nat := 0xf0100c + l * 0x40
def PNL_L_STRIDE (l : Nat) : Nat := 0xf01010 + l * 0x40
def PNL_L_POS (l : Nat) : Nat := 0xf01014 + l * 0x40
def PNL_L_SIZE (l : Nat) : Nat := 0xf01018 + l * 0x40
def PNL_L_CUR_LO (l : Nat) : Nat := 0xf01020 + l * 0x40
def PNL_L_CUR_HI (l : Nat) : Nat := 0xf01024 + l * 0x40
def LNK_EQ (e : Nat) (j : Nat) : Nat := 0x204000 + e * 0x10 + j * 0x4
def CHN_BANK_TAP (s : Nat) (b : Nat) (j : Nat) : Nat := 0x308000 + s * 0x800 + b * 0x400 + j * 0x4
def CHN_BANK_REF (s : Nat) (b : Nat) : Nat := 0x308200 + s * 0x800 + b * 0x400
def CHN_FIR_TAP (z : Nat) (j : Nat) : Nat := 0x30c000 + z * 0x400 + j * 0x4
def CHN_HB_VAL (z : Nat) (j : Nat) : Nat := 0x30c200 + z * 0x400 + j * 0x4
def SYS_FLASH_BUF (j : Nat) : Nat := 0x1000 + j * 0x4
def CMP_U_IN_DONE_LO (u : Nat) : Nat := 0x804058 + u * 0x80
def CMP_U_IN_DONE_HI (u : Nat) : Nat := 0x80405c + u * 0x80
def CMP_U_OUT_DONE_LO (u : Nat) : Nat := 0x804060 + u * 0x80
def CMP_U_OUT_DONE_HI (u : Nat) : Nat := 0x804064 + u * 0x80
def CMP_U_FRAMES (u : Nat) : Nat := 0x804068 + u * 0x80
def CMP_Z_DESC_W (z : Nat) (j : Nat) : Nat := 0x801000 + z * 0x80 + j * 0x4
def CMP_U_DESC_W (u : Nat) (j : Nat) : Nat := 0x804000 + u * 0x80 + j * 0x4
def MEM_LOG_ADDR_LO (i : Nat) : Nat := 0x901000 + i * 0x20
def MEM_LOG_ADDR_HI (i : Nat) : Nat := 0x901004 + i * 0x20
def MEM_LOG_TIME_LO (i : Nat) : Nat := 0x901008 + i * 0x20
def MEM_LOG_TIME_HI (i : Nat) : Nat := 0x90100c + i * 0x20
def MEM_LOG_INFO (i : Nat) : Nat := 0x901010 + i * 0x20
def CLK_BAND0 (e : Nat) : Nat := 0x100100 + e * 0x8
def CLK_BAND1 (e : Nat) : Nat := 0x100104 + e * 0x8
def MON_M_REG (m : Nat) (i : Nat) : Nat := 0xc01100 + m * 0x800 + i * 0x4
def MON_M_INJ (m : Nat) (j : Nat) : Nat := 0xc01180 + m * 0x800 + j * 0x4
def PNL_AUX_BUF (j : Nat) : Nat := 0xf00110 + j * 0x4
def CL_ID (k : Nat) : Nat := 0x1060000 + k * 0x80000
def CL_APERTURE (k : Nat) : Nat := 0x1060004 + k * 0x80000
def CL_FLAGS (k : Nat) : Nat := 0x1060010 + k * 0x80000
def CL_VACANT (k : Nat) : Nat := 0x1060014 + k * 0x80000
def CL_FAULT_CNT (k : Nat) : Nat := 0x1060020 + k * 0x80000
def CL_EV_LOST_CNT (k : Nat) : Nat := 0x1060024 + k * 0x80000
def CL_PORT_REFUSED_CNT (k : Nat) : Nat := 0x1060028 + k * 0x80000
def CL_VACANT_DROP_CNT (k : Nat) : Nat := 0x106002c + k * 0x80000
def CL_BANK_CONFLICT_CNT (k : Nat) : Nat := 0x1060030 + k * 0x80000
def CL_FAR_LAT (k : Nat) : Nat := 0x1060040 + k * 0x80000
def CL_FAR_REQ_CNT (k : Nat) : Nat := 0x1060044 + k * 0x80000
def CL_E_CTL (k : Nat) (e : Nat) : Nat := 0x1061000 + k * 0x80000 + e * 0x20
def CL_E_ENTRY (k : Nat) (e : Nat) : Nat := 0x1061004 + k * 0x80000 + e * 0x20
def CL_E_STAT (k : Nat) (e : Nat) : Nat := 0x1061008 + k * 0x80000 + e * 0x20
def CL_E_PC (k : Nat) (e : Nat) : Nat := 0x106100c + k * 0x80000 + e * 0x20
def CL_E_EVPEND (k : Nat) (e : Nat) : Nat := 0x1061010 + k * 0x80000 + e * 0x20
def CL_E_EVQ (k : Nat) (e : Nat) : Nat := 0x1061014 + k * 0x80000 + e * 0x20
def CL_E_BUSY_LO (k : Nat) (e : Nat) : Nat := 0x1061018 + k * 0x80000 + e * 0x20
def CL_E_BUSY_HI (k : Nat) (e : Nat) : Nat := 0x106101c + k * 0x80000 + e * 0x20
def MB_H2E_SLOT (k : Nat) (j : Nat) : Nat := 0x1070000 + k * 0x80000 + j * 0x4
def MB_E2H_SLOT (k : Nat) (j : Nat) : Nat := 0x1070800 + k * 0x80000 + j * 0x4
def MB_H2E_WR (k : Nat) : Nat := 0x1071000 + k * 0x80000
def MB_H2E_RD (k : Nat) : Nat := 0x1071004 + k * 0x80000
def MB_E2H_WR (k : Nat) : Nat := 0x1071008 + k * 0x80000
def MB_E2H_RD (k : Nat) : Nat := 0x107100c + k * 0x80000
def MB_CFG (k : Nat) : Nat := 0x1071010 + k * 0x80000
def MB_FLAGS (k : Nat) : Nat := 0x1071014 + k * 0x80000
def MB_ERR_CNT (k : Nat) : Nat := 0x1071018 + k * 0x80000
def MSIX_ADDR (v : Nat) : Nat := 0xa10000 + v * 0x10
def MSIX_UADDR (v : Nat) : Nat := 0xa10004 + v * 0x10
def MSIX_DATA (v : Nat) : Nat := 0xa10008 + v * 0x10
def MSIX_CTRL (v : Nat) : Nat := 0xa1000c + v * 0x10
def MSIX_PBA (i : Nat) : Nat := 0xa18000 + i * 0x4

end Reg

namespace F

def LNK_G_CFG_RATE (g : Nat) : FieldAt := ⟨Reg.LNK_G_CFG g, ⟨0, 16⟩⟩
def LNK_G_CFG_FRAMING (g : Nat) : FieldAt := ⟨Reg.LNK_G_CFG g, ⟨16, 1⟩⟩
def LNK_G_CFG_VALID (g : Nat) : FieldAt := ⟨Reg.LNK_G_CFG g, ⟨24, 1⟩⟩
def LNK_G_CFG_PLL_LOCK (g : Nat) : FieldAt := ⟨Reg.LNK_G_CFG g, ⟨25, 1⟩⟩
def LNK_TG_CFG_RATE (g : Nat) : FieldAt := ⟨Reg.LNK_TG_CFG g, ⟨0, 16⟩⟩
def LNK_TG_CFG_VALID (g : Nat) : FieldAt := ⟨Reg.LNK_TG_CFG g, ⟨24, 1⟩⟩
def LNK_TG_CFG_PLL_LOCK (g : Nat) : FieldAt := ⟨Reg.LNK_TG_CFG g, ⟨25, 1⟩⟩
def LNK_L_CFG_EN (i : Nat) : FieldAt := ⟨Reg.LNK_L_CFG i, ⟨0, 1⟩⟩
def LNK_L_CFG_POL_INV (i : Nat) : FieldAt := ⟨Reg.LNK_L_CFG i, ⟨1, 1⟩⟩
def LNK_L_STAT_CDR_LOCK (i : Nat) : FieldAt := ⟨Reg.LNK_L_STAT i, ⟨0, 1⟩⟩
def LNK_L_STAT_BLOCK_LOCK (i : Nat) : FieldAt := ⟨Reg.LNK_L_STAT i, ⟨1, 1⟩⟩
def LNK_L_STAT_ALIGNED (i : Nat) : FieldAt := ⟨Reg.LNK_L_STAT i, ⟨2, 1⟩⟩
def LNK_L_STAT_MAIN (i : Nat) : FieldAt := ⟨Reg.LNK_L_STAT i, ⟨3, 1⟩⟩
def LNK_L_STAT_SAMPLERS (i : Nat) : FieldAt := ⟨Reg.LNK_L_STAT i, ⟨4, 1⟩⟩
def LNK_L_STAT_SHADOW_STATE (i : Nat) : FieldAt := ⟨Reg.LNK_L_STAT i, ⟨5, 3⟩⟩
def LNK_L_STAT_EQ_DEFAULT (i : Nat) : FieldAt := ⟨Reg.LNK_L_STAT i, ⟨8, 1⟩⟩
def LNK_L_STAT_EQ_ENTRY (i : Nat) : FieldAt := ⟨Reg.LNK_L_STAT i, ⟨9, 6⟩⟩
def LNK_L_STAT_LANE_INDEX (i : Nat) : FieldAt := ⟨Reg.LNK_L_STAT i, ⟨16, 5⟩⟩
def LNK_L_STAT_TAG (i : Nat) : FieldAt := ⟨Reg.LNK_L_STAT i, ⟨21, 3⟩⟩
def LNK_L_STAT_PARITY_LANE (i : Nat) : FieldAt := ⟨Reg.LNK_L_STAT i, ⟨24, 1⟩⟩
def LNK_L_FLAGS_HDR_ERR (i : Nat) : FieldAt := ⟨Reg.LNK_L_FLAGS i, ⟨0, 1⟩⟩
def LNK_L_FLAGS_LOCK_LOST (i : Nat) : FieldAt := ⟨Reg.LNK_L_FLAGS i, ⟨1, 1⟩⟩
def LNK_L_FLAGS_ALIGN_LOST (i : Nat) : FieldAt := ⟨Reg.LNK_L_FLAGS i, ⟨2, 1⟩⟩
def LNK_L_FLAGS_SCB_ERR (i : Nat) : FieldAt := ⟨Reg.LNK_L_FLAGS i, ⟨3, 1⟩⟩
def LNK_L_FLAGS_CODE_ERR (i : Nat) : FieldAt := ⟨Reg.LNK_L_FLAGS i, ⟨4, 1⟩⟩
def LNK_L_FLAGS_CDR_LOST (i : Nat) : FieldAt := ⟨Reg.LNK_L_FLAGS i, ⟨5, 1⟩⟩
def LNK_L_FLAGS_WITHDRAWN (i : Nat) : FieldAt := ⟨Reg.LNK_L_FLAGS i, ⟨6, 1⟩⟩
def LNK_S_CFG_FORMAT (s : Nat) : FieldAt := ⟨Reg.LNK_S_CFG s, ⟨0, 2⟩⟩
def LNK_S_CFG_PARITY (s : Nat) : FieldAt := ⟨Reg.LNK_S_CFG s, ⟨2, 1⟩⟩
def LNK_S_CFG_TIMING (s : Nat) : FieldAt := ⟨Reg.LNK_S_CFG s, ⟨3, 1⟩⟩
def LNK_S_CFG_TAG_CHECK (s : Nat) : FieldAt := ⟨Reg.LNK_S_CFG s, ⟨4, 1⟩⟩
def LNK_S_CTL_START (s : Nat) : FieldAt := ⟨Reg.LNK_S_CTL s, ⟨0, 1⟩⟩
def LNK_S_CTL_STOP (s : Nat) : FieldAt := ⟨Reg.LNK_S_CTL s, ⟨1, 1⟩⟩
def LNK_S_CTL_RATE (s : Nat) : FieldAt := ⟨Reg.LNK_S_CTL s, ⟨2, 1⟩⟩
def LNK_S_STAT_STATE (s : Nat) : FieldAt := ⟨Reg.LNK_S_STAT s, ⟨0, 2⟩⟩
def LNK_S_STAT_PENDING (s : Nat) : FieldAt := ⟨Reg.LNK_S_STAT s, ⟨2, 1⟩⟩
def LNK_S_STAT_CODE (s : Nat) : FieldAt := ⟨Reg.LNK_S_STAT s, ⟨8, 8⟩⟩
def LNK_S_STAT_N_SEEN (s : Nat) : FieldAt := ⟨Reg.LNK_S_STAT s, ⟨16, 6⟩⟩
def LNK_S_STAT_PARITY_OK (s : Nat) : FieldAt := ⟨Reg.LNK_S_STAT s, ⟨22, 1⟩⟩
def LNK_S_STAT_REBUILD_LANE (s : Nat) : FieldAt := ⟨Reg.LNK_S_STAT s, ⟨24, 5⟩⟩
def LNK_S_FLAGS_LATE (s : Nat) : FieldAt := ⟨Reg.LNK_S_FLAGS s, ⟨0, 1⟩⟩
def LNK_S_FLAGS_EARLY (s : Nat) : FieldAt := ⟨Reg.LNK_S_FLAGS s, ⟨1, 1⟩⟩
def LNK_S_FLAGS_REBUILT (s : Nat) : FieldAt := ⟨Reg.LNK_S_FLAGS s, ⟨2, 1⟩⟩
def LNK_S_FLAGS_LOST (s : Nat) : FieldAt := ⟨Reg.LNK_S_FLAGS s, ⟨3, 1⟩⟩
def LNK_S_FLAGS_PARITY_MISMATCH (s : Nat) : FieldAt := ⟨Reg.LNK_S_FLAGS s, ⟨4, 1⟩⟩
def LNK_S_FLAGS_RESTART (s : Nat) : FieldAt := ⟨Reg.LNK_S_FLAGS s, ⟨5, 1⟩⟩
def LNK_S_FLAGS_INDEX_ERR (s : Nat) : FieldAt := ⟨Reg.LNK_S_FLAGS s, ⟨6, 1⟩⟩
def LNK_S_FLAGS_PARITY_DOWN (s : Nat) : FieldAt := ⟨Reg.LNK_S_FLAGS s, ⟨7, 1⟩⟩
def LNK_E_CFG_RUN (s : Nat) : FieldAt := ⟨Reg.LNK_E_CFG s, ⟨0, 1⟩⟩
def LNK_E_CFG_SOURCE (s : Nat) : FieldAt := ⟨Reg.LNK_E_CFG s, ⟨1, 1⟩⟩
def LNK_E_CFG_PARITY (s : Nat) : FieldAt := ⟨Reg.LNK_E_CFG s, ⟨2, 1⟩⟩
def LNK_E_CFG_TIMING (s : Nat) : FieldAt := ⟨Reg.LNK_E_CFG s, ⟨3, 1⟩⟩
def LNK_E_STAT_RUNNING (s : Nat) : FieldAt := ⟨Reg.LNK_E_STAT s, ⟨0, 1⟩⟩
def LNK_E_STAT_CODE (s : Nat) : FieldAt := ⟨Reg.LNK_E_STAT s, ⟨8, 8⟩⟩
def CHN_SYNC_CFG_SYNC_EN : FieldAt := ⟨Reg.CHN_SYNC_CFG, ⟨0, 1⟩⟩
def CHN_RESET_CTL_GO : FieldAt := ⟨Reg.CHN_RESET_CTL, ⟨0, 1⟩⟩
def CHN_RESET_CTL_PENDING : FieldAt := ⟨Reg.CHN_RESET_CTL, ⟨1, 1⟩⟩
def CHN_RESET_CTL_CODE : FieldAt := ⟨Reg.CHN_RESET_CTL, ⟨8, 8⟩⟩
def CHN_C_CFG_BYPASS (s : Nat) : FieldAt := ⟨Reg.CHN_C_CFG s, ⟨0, 1⟩⟩
def CHN_C_CTL_SWAP (s : Nat) : FieldAt := ⟨Reg.CHN_C_CTL s, ⟨0, 1⟩⟩
def CHN_C_STAT_ACTIVE (s : Nat) : FieldAt := ⟨Reg.CHN_C_STAT s, ⟨0, 1⟩⟩
def CHN_C_STAT_PENDING (s : Nat) : FieldAt := ⟨Reg.CHN_C_STAT s, ⟨1, 1⟩⟩
def CHN_C_STAT_CODE (s : Nat) : FieldAt := ⟨Reg.CHN_C_STAT s, ⟨8, 8⟩⟩
def CHN_C_FLAGS_SAT (s : Nat) : FieldAt := ⟨Reg.CHN_C_FLAGS s, ⟨0, 1⟩⟩
def CHN_Z_CFG_SOURCE (z : Nat) : FieldAt := ⟨Reg.CHN_Z_CFG z, ⟨0, 3⟩⟩
def CHN_Z_CFG_ORDER (z : Nat) : FieldAt := ⟨Reg.CHN_Z_CFG z, ⟨4, 3⟩⟩
def CHN_Z_CFG_HB_EN (z : Nat) : FieldAt := ⟨Reg.CHN_Z_CFG z, ⟨7, 1⟩⟩
def CHN_Z_CFG_COHERENT (z : Nat) : FieldAt := ⟨Reg.CHN_Z_CFG z, ⟨8, 1⟩⟩
def CHN_Z_CFG_SHIFT (z : Nat) : FieldAt := ⟨Reg.CHN_Z_CFG z, ⟨9, 3⟩⟩
def CHN_Z_PHASE_PHASE0 (z : Nat) : FieldAt := ⟨Reg.CHN_Z_PHASE z, ⟨0, 16⟩⟩
def CHN_Z_FIR_REF_REF (z : Nat) : FieldAt := ⟨Reg.CHN_Z_FIR_REF z, ⟨0, 8⟩⟩
def CHN_Z_CTL_START (z : Nat) : FieldAt := ⟨Reg.CHN_Z_CTL z, ⟨0, 1⟩⟩
def CHN_Z_CTL_STOP (z : Nat) : FieldAt := ⟨Reg.CHN_Z_CTL z, ⟨1, 1⟩⟩
def CHN_Z_CTL_TUNE (z : Nat) : FieldAt := ⟨Reg.CHN_Z_CTL z, ⟨2, 1⟩⟩
def CHN_Z_STAT_RUNNING (z : Nat) : FieldAt := ⟨Reg.CHN_Z_STAT z, ⟨0, 1⟩⟩
def CHN_Z_STAT_PENDING (z : Nat) : FieldAt := ⟨Reg.CHN_Z_STAT z, ⟨1, 1⟩⟩
def CHN_Z_STAT_SETTLED (z : Nat) : FieldAt := ⟨Reg.CHN_Z_STAT z, ⟨2, 1⟩⟩
def CHN_Z_STAT_CODE (z : Nat) : FieldAt := ⟨Reg.CHN_Z_STAT z, ⟨8, 8⟩⟩
def CHN_Z_FLAGS_SAT (z : Nat) : FieldAt := ⟨Reg.CHN_Z_FLAGS z, ⟨0, 1⟩⟩
def XF_LIVE_MASK : FieldAt := ⟨Reg.XF_LIVE, ⟨0, 16⟩⟩
def XF_LIVE_COUNT : FieldAt := ⟨Reg.XF_LIVE, ⟨16, 5⟩⟩
def XF_SCHED_CTL_GO : FieldAt := ⟨Reg.XF_SCHED_CTL, ⟨0, 1⟩⟩
def XF_SCHED_CTL_STOP : FieldAt := ⟨Reg.XF_SCHED_CTL, ⟨1, 1⟩⟩
def XF_SCHED_STAT_STATE : FieldAt := ⟨Reg.XF_SCHED_STAT, ⟨0, 2⟩⟩
def XF_SCHED_STAT_RUNNING : FieldAt := ⟨Reg.XF_SCHED_STAT, ⟨2, 1⟩⟩
def XF_SCHED_STAT_CODE : FieldAt := ⟨Reg.XF_SCHED_STAT, ⟨8, 8⟩⟩
def XF_SCHED_STAT_ENTRY : FieldAt := ⟨Reg.XF_SCHED_STAT, ⟨16, 16⟩⟩
def XF_POOL_LOAD_LOAD (p : Nat) : FieldAt := ⟨Reg.XF_POOL_LOAD p, ⟨0, 20⟩⟩
def XF_POOL_LOAD_LIVE (p : Nat) : FieldAt := ⟨Reg.XF_POOL_LOAD p, ⟨24, 5⟩⟩
def XF_FLAGS_DEGRADED : FieldAt := ⟨Reg.XF_FLAGS, ⟨0, 1⟩⟩
def XF_FLAGS_SKIP : FieldAt := ⟨Reg.XF_FLAGS, ⟨1, 1⟩⟩
def XF_FLAGS_LONG_DROP : FieldAt := ⟨Reg.XF_FLAGS, ⟨2, 1⟩⟩
def XF_FLAGS_CL_DROP : FieldAt := ⟨Reg.XF_FLAGS, ⟨3, 1⟩⟩
def XF_STAT_DEGRADED : FieldAt := ⟨Reg.XF_STAT, ⟨0, 1⟩⟩
def XF_STAT_HOLDOVER : FieldAt := ⟨Reg.XF_STAT, ⟨1, 1⟩⟩
def XF_T_STAT_HELD (t : Nat) : FieldAt := ⟨Reg.XF_T_STAT t, ⟨0, 1⟩⟩
def XF_T_STAT_POOL (t : Nat) : FieldAt := ⟨Reg.XF_T_STAT t, ⟨1, 2⟩⟩
def XF_T_STAT_IN_POOL (t : Nat) : FieldAt := ⟨Reg.XF_T_STAT t, ⟨3, 1⟩⟩
def XF_C_STAT_RUNNING (c : Nat) : FieldAt := ⟨Reg.XF_C_STAT c, ⟨0, 1⟩⟩
def XF_C_STAT_PENDING (c : Nat) : FieldAt := ⟨Reg.XF_C_STAT c, ⟨1, 1⟩⟩
def XF_C_STAT_LONG (c : Nat) : FieldAt := ⟨Reg.XF_C_STAT c, ⟨2, 1⟩⟩
def XF_C_STAT_CREDIT (c : Nat) : FieldAt := ⟨Reg.XF_C_STAT c, ⟨16, 13⟩⟩
def DET_CLR_CFG_CONTEXT : FieldAt := ⟨Reg.DET_CLR_CFG, ⟨0, 12⟩⟩
def DET_CLR_CFG_TRACES : FieldAt := ⟨Reg.DET_CLR_CFG, ⟨16, 4⟩⟩
def DET_CLR_CTL_GO : FieldAt := ⟨Reg.DET_CLR_CTL, ⟨0, 1⟩⟩
def DET_CLR_STAT_PENDING : FieldAt := ⟨Reg.DET_CLR_STAT, ⟨0, 1⟩⟩
def DET_CLR_STAT_CODE : FieldAt := ⟨Reg.DET_CLR_STAT, ⟨8, 8⟩⟩
def DET_FLAGS_EMPTY : FieldAt := ⟨Reg.DET_FLAGS, ⟨0, 1⟩⟩
def DET_FLAGS_PARTIAL : FieldAt := ⟨Reg.DET_FLAGS, ⟨1, 1⟩⟩
def DEN_CMD_CFG_PLANE : FieldAt := ⟨Reg.DEN_CMD_CFG, ⟨0, 4⟩⟩
def DEN_CMD_CFG_CLEAR : FieldAt := ⟨Reg.DEN_CMD_CFG, ⟨8, 1⟩⟩
def DEN_CMD_CTL_SNAP : FieldAt := ⟨Reg.DEN_CMD_CTL, ⟨0, 1⟩⟩
def DEN_CMD_CTL_CLEAR : FieldAt := ⟨Reg.DEN_CMD_CTL, ⟨1, 1⟩⟩
def DEN_CMD_STAT_PENDING : FieldAt := ⟨Reg.DEN_CMD_STAT, ⟨0, 1⟩⟩
def DEN_CMD_STAT_DRAINING : FieldAt := ⟨Reg.DEN_CMD_STAT, ⟨1, 1⟩⟩
def DEN_CMD_STAT_CODE : FieldAt := ⟨Reg.DEN_CMD_STAT, ⟨8, 8⟩⟩
def DEN_CMD_STAT_PLANE : FieldAt := ⟨Reg.DEN_CMD_STAT, ⟨16, 4⟩⟩
def DEN_FLAGS_SAT : FieldAt := ⟨Reg.DEN_FLAGS, ⟨0, 1⟩⟩
def DEN_FLAGS_MEM_DROP : FieldAt := ⟨Reg.DEN_FLAGS, ⟨1, 1⟩⟩
def DEN_FLAGS_DECAY_LATE : FieldAt := ⟨Reg.DEN_FLAGS, ⟨2, 1⟩⟩
def DEN_FLAGS_TILE_LOST : FieldAt := ⟨Reg.DEN_FLAGS, ⟨3, 1⟩⟩
def DEN_P_STAT_ACTIVE (p : Nat) : FieldAt := ⟨Reg.DEN_P_STAT p, ⟨0, 1⟩⟩
def DEN_P_STAT_KIND (p : Nat) : FieldAt := ⟨Reg.DEN_P_STAT p, ⟨1, 1⟩⟩
def DEN_P_STAT_PENDING (p : Nat) : FieldAt := ⟨Reg.DEN_P_STAT p, ⟨2, 1⟩⟩
def DEN_P_STAT_DRAINING (p : Nat) : FieldAt := ⟨Reg.DEN_P_STAT p, ⟨3, 1⟩⟩
def DEN_P_STAT_BANK (p : Nat) : FieldAt := ⟨Reg.DEN_P_STAT p, ⟨4, 1⟩⟩
def DEN_P_STAT_TILE_LOST (p : Nat) : FieldAt := ⟨Reg.DEN_P_STAT p, ⟨5, 1⟩⟩
def DEN_P_STAT_CONTEXT (p : Nat) : FieldAt := ⟨Reg.DEN_P_STAT p, ⟨16, 12⟩⟩
def DEN_P_STAT_ENTRY (p : Nat) : FieldAt := ⟨Reg.DEN_P_STAT p, ⟨28, 1⟩⟩
def TRG_FLAGS_COINCIDENT : FieldAt := ⟨Reg.TRG_FLAGS, ⟨0, 1⟩⟩
def TRG_FLAGS_SEQ_EXPIRED : FieldAt := ⟨Reg.TRG_FLAGS, ⟨1, 1⟩⟩
def TRG_FLAGS_RUN_BROKEN : FieldAt := ⟨Reg.TRG_FLAGS, ⟨2, 1⟩⟩
def TRG_FLAGS_MT_VIOL : FieldAt := ⟨Reg.TRG_FLAGS, ⟨3, 1⟩⟩
def TRG_FLAGS_HOLDOFF : FieldAt := ⟨Reg.TRG_FLAGS, ⟨4, 1⟩⟩
def TRG_SW_CFG_UNIT : FieldAt := ⟨Reg.TRG_SW_CFG, ⟨0, 6⟩⟩
def TRG_SW_CTL_FIRE : FieldAt := ⟨Reg.TRG_SW_CTL, ⟨0, 1⟩⟩
def TRG_SW_STAT_PENDING : FieldAt := ⟨Reg.TRG_SW_STAT, ⟨0, 1⟩⟩
def TRG_SW_STAT_CODE : FieldAt := ⟨Reg.TRG_SW_STAT, ⟨8, 8⟩⟩
def TRG_T_CFG_KIND (n : Nat) : FieldAt := ⟨Reg.TRG_T_CFG n, ⟨0, 4⟩⟩
def TRG_T_CFG_QUIET (n : Nat) : FieldAt := ⟨Reg.TRG_T_CFG n, ⟨4, 1⟩⟩
def TRG_T_CFG_REC_EN (n : Nat) : FieldAt := ⟨Reg.TRG_T_CFG n, ⟨5, 1⟩⟩
def TRG_T_CFG_DIR (n : Nat) : FieldAt := ⟨Reg.TRG_T_CFG n, ⟨6, 1⟩⟩
def TRG_T_CFG_STEPS (n : Nat) : FieldAt := ⟨Reg.TRG_T_CFG n, ⟨8, 3⟩⟩
def TRG_T_QUEUE_QUEUE (n : Nat) : FieldAt := ⟨Reg.TRG_T_QUEUE n, ⟨0, 12⟩⟩
def TRG_T_CTL_ARM (n : Nat) : FieldAt := ⟨Reg.TRG_T_CTL n, ⟨0, 1⟩⟩
def TRG_T_CTL_DISARM (n : Nat) : FieldAt := ⟨Reg.TRG_T_CTL n, ⟨1, 1⟩⟩
def TRG_T_STAT_STATE (n : Nat) : FieldAt := ⟨Reg.TRG_T_STAT n, ⟨0, 2⟩⟩
def TRG_T_STAT_BOUND (n : Nat) : FieldAt := ⟨Reg.TRG_T_STAT n, ⟨2, 1⟩⟩
def TRG_T_STAT_CODE (n : Nat) : FieldAt := ⟨Reg.TRG_T_STAT n, ⟨8, 8⟩⟩
def TRG_T_STAT_RUN (n : Nat) : FieldAt := ⟨Reg.TRG_T_STAT n, ⟨16, 16⟩⟩
def ACQ_FLAGS_REDUCED : FieldAt := ⟨Reg.ACQ_FLAGS, ⟨0, 1⟩⟩
def ACQ_FLAGS_TRUNCATED : FieldAt := ⟨Reg.ACQ_FLAGS, ⟨1, 1⟩⟩
def ACQ_FLAGS_IGNORED : FieldAt := ⟨Reg.ACQ_FLAGS, ⟨2, 1⟩⟩
def ACQ_FLAGS_FROZEN : FieldAt := ⟨Reg.ACQ_FLAGS, ⟨3, 1⟩⟩
def ACQ_B_CFG_TAP (b : Nat) : FieldAt := ⟨Reg.ACQ_B_CFG b, ⟨0, 2⟩⟩
def ACQ_B_CFG_SOURCE (b : Nat) : FieldAt := ⟨Reg.ACQ_B_CFG b, ⟨2, 5⟩⟩
def ACQ_B_CFG_MODE (b : Nat) : FieldAt := ⟨Reg.ACQ_B_CFG b, ⟨7, 1⟩⟩
def ACQ_B_CFG_WIDTH (b : Nat) : FieldAt := ⟨Reg.ACQ_B_CFG b, ⟨8, 1⟩⟩
def ACQ_B_CFG_REARM (b : Nat) : FieldAt := ⟨Reg.ACQ_B_CFG b, ⟨9, 1⟩⟩
def ACQ_B_CFG_MAXF (b : Nat) : FieldAt := ⟨Reg.ACQ_B_CFG b, ⟨10, 2⟩⟩
def ACQ_B_QUEUE_RQUEUE (b : Nat) : FieldAt := ⟨Reg.ACQ_B_QUEUE b, ⟨0, 12⟩⟩
def ACQ_B_QUEUE_DQUEUE (b : Nat) : FieldAt := ⟨Reg.ACQ_B_QUEUE b, ⟨16, 12⟩⟩
def ACQ_B_CTL_ARM (b : Nat) : FieldAt := ⟨Reg.ACQ_B_CTL b, ⟨0, 1⟩⟩
def ACQ_B_CTL_STOP (b : Nat) : FieldAt := ⟨Reg.ACQ_B_CTL b, ⟨1, 1⟩⟩
def ACQ_B_CTL_DISARM (b : Nat) : FieldAt := ⟨Reg.ACQ_B_CTL b, ⟨2, 1⟩⟩
def ACQ_B_STAT_STATE (b : Nat) : FieldAt := ⟨Reg.ACQ_B_STAT b, ⟨0, 3⟩⟩
def ACQ_B_STAT_FROZEN (b : Nat) : FieldAt := ⟨Reg.ACQ_B_STAT b, ⟨3, 1⟩⟩
def ACQ_B_STAT_FACTOR (b : Nat) : FieldAt := ⟨Reg.ACQ_B_STAT b, ⟨4, 2⟩⟩
def ACQ_B_STAT_CODE (b : Nat) : FieldAt := ⟨Reg.ACQ_B_STAT b, ⟨8, 8⟩⟩
def ACQ_B_STAT_TRIGGER (b : Nat) : FieldAt := ⟨Reg.ACQ_B_STAT b, ⟨16, 6⟩⟩
def ACQ_B_STAT_TRIGGERED (b : Nat) : FieldAt := ⟨Reg.ACQ_B_STAT b, ⟨22, 1⟩⟩
def SYS_STAT_STATE : FieldAt := ⟨Reg.SYS_STAT, ⟨0, 4⟩⟩
def SYS_STAT_FLASH_TRIED : FieldAt := ⟨Reg.SYS_STAT, ⟨4, 1⟩⟩
def SYS_STAT_REF_WAIT : FieldAt := ⟨Reg.SYS_STAT, ⟨5, 1⟩⟩
def SYS_POST_STAT_DONE : FieldAt := ⟨Reg.SYS_POST_STAT, ⟨0, 1⟩⟩
def SYS_POST_STAT_PASS : FieldAt := ⟨Reg.SYS_POST_STAT, ⟨1, 1⟩⟩
def SYS_POST_STAT_SKIPPED : FieldAt := ⟨Reg.SYS_POST_STAT, ⟨2, 1⟩⟩
def SYS_POST_STAT_WITHDRAWN : FieldAt := ⟨Reg.SYS_POST_STAT, ⟨8, 8⟩⟩
def SYS_FLAGS_BAD_ACCESS : FieldAt := ⟨Reg.SYS_FLAGS, ⟨0, 1⟩⟩
def SYS_FLAGS_RESTART : FieldAt := ⟨Reg.SYS_FLAGS, ⟨1, 1⟩⟩
def SYS_FLAGS_OVERLAY : FieldAt := ⟨Reg.SYS_FLAGS, ⟨2, 1⟩⟩
def SYS_FLAGS_SLEPT : FieldAt := ⟨Reg.SYS_FLAGS, ⟨3, 1⟩⟩
def SYS_FLAGS_IMG_FAIL : FieldAt := ⟨Reg.SYS_FLAGS, ⟨4, 1⟩⟩
def SYS_IMG_CTL_START : FieldAt := ⟨Reg.SYS_IMG_CTL, ⟨0, 1⟩⟩
def SYS_IMG_CTL_FLASH : FieldAt := ⟨Reg.SYS_IMG_CTL, ⟨1, 1⟩⟩
def SYS_IMG_CTL_RESTART : FieldAt := ⟨Reg.SYS_IMG_CTL, ⟨2, 1⟩⟩
def SYS_IMG_CTL_RESTART_LOAD : FieldAt := ⟨Reg.SYS_IMG_CTL, ⟨3, 1⟩⟩
def SYS_IMG_STAT_BUSY : FieldAt := ⟨Reg.SYS_IMG_STAT, ⟨0, 1⟩⟩
def SYS_IMG_STAT_CODE : FieldAt := ⟨Reg.SYS_IMG_STAT, ⟨8, 8⟩⟩
def SYS_IMG_STAT_SLOT : FieldAt := ⟨Reg.SYS_IMG_STAT, ⟨16, 2⟩⟩
def SYS_FLASH_CFG_DIV : FieldAt := ⟨Reg.SYS_FLASH_CFG, ⟨0, 4⟩⟩
def SYS_FLASH_CFG_DUMMY : FieldAt := ⟨Reg.SYS_FLASH_CFG, ⟨8, 5⟩⟩
def SYS_FLASH_CFG_PRESENT : FieldAt := ⟨Reg.SYS_FLASH_CFG, ⟨16, 1⟩⟩
def SYS_FLASH_CMD_OPCODE : FieldAt := ⟨Reg.SYS_FLASH_CMD, ⟨0, 8⟩⟩
def SYS_FLASH_CMD_ADDR_BYTES : FieldAt := ⟨Reg.SYS_FLASH_CMD, ⟨8, 3⟩⟩
def SYS_FLASH_CMD_DUMMY : FieldAt := ⟨Reg.SYS_FLASH_CMD, ⟨11, 5⟩⟩
def SYS_FLASH_CMD_DIR : FieldAt := ⟨Reg.SYS_FLASH_CMD, ⟨16, 1⟩⟩
def SYS_FLASH_CMD_QUAD : FieldAt := ⟨Reg.SYS_FLASH_CMD, ⟨17, 1⟩⟩
def SYS_FLASH_CMD_LENGTH : FieldAt := ⟨Reg.SYS_FLASH_CMD, ⟨18, 9⟩⟩
def SYS_FLASH_CMD_GO : FieldAt := ⟨Reg.SYS_FLASH_CMD, ⟨31, 1⟩⟩
def SYS_FLASH_STAT_BUSY : FieldAt := ⟨Reg.SYS_FLASH_STAT, ⟨0, 1⟩⟩
def SYS_FLASH_STAT_CODE : FieldAt := ⟨Reg.SYS_FLASH_STAT, ⟨8, 8⟩⟩
def SYS_OVL_CTL_GO : FieldAt := ⟨Reg.SYS_OVL_CTL, ⟨0, 1⟩⟩
def SYS_OVL_STAT_CODE : FieldAt := ⟨Reg.SYS_OVL_STAT, ⟨8, 8⟩⟩
def SYS_OVL_STAT_PENDING : FieldAt := ⟨Reg.SYS_OVL_STAT, ⟨0, 2⟩⟩
def SYS_OVL_STAT_NUMBER : FieldAt := ⟨Reg.SYS_OVL_STAT, ⟨16, 4⟩⟩
def SYS_MODE_OVERLAY : FieldAt := ⟨Reg.SYS_MODE, ⟨0, 5⟩⟩
def SYS_SLEEP_CFG_PIN_EN : FieldAt := ⟨Reg.SYS_SLEEP_CFG, ⟨0, 1⟩⟩
def SYS_SLEEP_CFG_HOST_EN : FieldAt := ⟨Reg.SYS_SLEEP_CFG, ⟨1, 1⟩⟩
def SYS_SLEEP_CFG_TIMER_EN : FieldAt := ⟨Reg.SYS_SLEEP_CFG, ⟨2, 1⟩⟩
def SYS_SLEEP_CTL_GO : FieldAt := ⟨Reg.SYS_SLEEP_CTL, ⟨0, 1⟩⟩
def SYS_SLEEP_STAT_PENDING : FieldAt := ⟨Reg.SYS_SLEEP_STAT, ⟨0, 1⟩⟩
def SYS_SLEEP_STAT_CODE : FieldAt := ⟨Reg.SYS_SLEEP_STAT, ⟨8, 8⟩⟩
def SYS_SLEEP_STAT_CAUSE : FieldAt := ⟨Reg.SYS_SLEEP_STAT, ⟨16, 3⟩⟩
def QUE_FLAGS_DROP : FieldAt := ⟨Reg.QUE_FLAGS, ⟨0, 1⟩⟩
def QUE_FLAGS_DISABLED_DROP : FieldAt := ⟨Reg.QUE_FLAGS, ⟨1, 1⟩⟩
def QUE_FLAGS_POISON : FieldAt := ⟨Reg.QUE_FLAGS, ⟨2, 1⟩⟩
def QUE_Q_CFG_ENGINE (q : Nat) : FieldAt := ⟨Reg.QUE_Q_CFG q, ⟨0, 9⟩⟩
def QUE_Q_CFG_HOST (q : Nat) : FieldAt := ⟨Reg.QUE_Q_CFG q, ⟨9, 1⟩⟩
def QUE_Q_CTL_ENABLE (q : Nat) : FieldAt := ⟨Reg.QUE_Q_CTL q, ⟨0, 1⟩⟩
def QUE_Q_CTL_DISABLE (q : Nat) : FieldAt := ⟨Reg.QUE_Q_CTL q, ⟨1, 1⟩⟩
def QUE_Q_STAT_ENABLED (q : Nat) : FieldAt := ⟨Reg.QUE_Q_STAT q, ⟨0, 1⟩⟩
def QUE_Q_STAT_CODE (q : Nat) : FieldAt := ⟨Reg.QUE_Q_STAT q, ⟨8, 8⟩⟩
def QUE_Q_IRQ_VEC (q : Nat) : FieldAt := ⟨Reg.QUE_Q_IRQ q, ⟨0, 11⟩⟩
def QUE_Q_IRQ_ARM (q : Nat) : FieldAt := ⟨Reg.QUE_Q_IRQ q, ⟨16, 1⟩⟩
def QUE_Q_RECORDS_RECORDS (q : Nat) : FieldAt := ⟨Reg.QUE_Q_RECORDS q, ⟨0, 25⟩⟩
def QUE_Q_USED_USED (q : Nat) : FieldAt := ⟨Reg.QUE_Q_USED q, ⟨0, 25⟩⟩
def QUE_Q_SEQ_SEQUENCE (q : Nat) : FieldAt := ⟨Reg.QUE_Q_SEQ q, ⟨0, 32⟩⟩
def CMP_FLAGS_STOP : FieldAt := ⟨Reg.CMP_FLAGS, ⟨0, 1⟩⟩
def CMP_FLAGS_FAIL : FieldAt := ⟨Reg.CMP_FLAGS, ⟨1, 1⟩⟩
def CMP_FLAGS_RAW : FieldAt := ⟨Reg.CMP_FLAGS, ⟨2, 1⟩⟩
def CMP_FLAGS_POISON : FieldAt := ⟨Reg.CMP_FLAGS, ⟨3, 1⟩⟩
def CMP_Z_CTL_GO (z : Nat) : FieldAt := ⟨Reg.CMP_Z_CTL z, ⟨0, 1⟩⟩
def CMP_Z_CTL_CONT (z : Nat) : FieldAt := ⟨Reg.CMP_Z_CTL z, ⟨1, 1⟩⟩
def CMP_Z_CTL_END (z : Nat) : FieldAt := ⟨Reg.CMP_Z_CTL z, ⟨2, 1⟩⟩
def CMP_Z_STAT_STATE (z : Nat) : FieldAt := ⟨Reg.CMP_Z_STAT z, ⟨0, 3⟩⟩
def CMP_Z_STAT_PENDING_EXT (z : Nat) : FieldAt := ⟨Reg.CMP_Z_STAT z, ⟨3, 1⟩⟩
def CMP_Z_STAT_CODE (z : Nat) : FieldAt := ⟨Reg.CMP_Z_STAT z, ⟨8, 8⟩⟩
def CMP_Z_STAT_LEADER (z : Nat) : FieldAt := ⟨Reg.CMP_Z_STAT z, ⟨16, 5⟩⟩
def CMP_U_CTL_GO (u : Nat) : FieldAt := ⟨Reg.CMP_U_CTL u, ⟨0, 1⟩⟩
def CMP_U_CTL_END (u : Nat) : FieldAt := ⟨Reg.CMP_U_CTL u, ⟨1, 1⟩⟩
def CMP_U_STAT_STATE (u : Nat) : FieldAt := ⟨Reg.CMP_U_STAT u, ⟨0, 3⟩⟩
def CMP_U_STAT_PENDING_EXT (u : Nat) : FieldAt := ⟨Reg.CMP_U_STAT u, ⟨3, 1⟩⟩
def CMP_U_STAT_CODE (u : Nat) : FieldAt := ⟨Reg.CMP_U_STAT u, ⟨8, 8⟩⟩
def CMP_U_STAT_LEADER (u : Nat) : FieldAt := ⟨Reg.CMP_U_STAT u, ⟨16, 5⟩⟩
def MEM_STAT_STATE : FieldAt := ⟨Reg.MEM_STAT, ⟨0, 2⟩⟩
def MEM_STAT_FAILED : FieldAt := ⟨Reg.MEM_STAT, ⟨2, 1⟩⟩
def MEM_STAT_SCRUB_ACTIVE : FieldAt := ⟨Reg.MEM_STAT, ⟨3, 1⟩⟩
def MEM_FLAGS_CE : FieldAt := ⟨Reg.MEM_FLAGS, ⟨0, 1⟩⟩
def MEM_FLAGS_UE : FieldAt := ⟨Reg.MEM_FLAGS, ⟨1, 1⟩⟩
def MEM_FLAGS_POISON_FULL : FieldAt := ⟨Reg.MEM_FLAGS, ⟨2, 1⟩⟩
def MEM_FLAGS_REPAIR_FAIL : FieldAt := ⟨Reg.MEM_FLAGS, ⟨3, 1⟩⟩
def MEM_FLAGS_LOG_LOST : FieldAt := ⟨Reg.MEM_FLAGS, ⟨4, 1⟩⟩
def MEM_SCRUB_CFG_PERIOD : FieldAt := ⟨Reg.MEM_SCRUB_CFG, ⟨0, 16⟩⟩
def MEM_SCRUB_CFG_EN : FieldAt := ⟨Reg.MEM_SCRUB_CFG, ⟨16, 1⟩⟩
def MEM_REPAIR_CFG_AUTO_SOFT : FieldAt := ⟨Reg.MEM_REPAIR_CFG, ⟨0, 1⟩⟩
def MEM_REPAIR_CFG_AUTO_HARD : FieldAt := ⟨Reg.MEM_REPAIR_CFG, ⟨1, 1⟩⟩
def MEM_REPAIR_CFG_CE_THRESH : FieldAt := ⟨Reg.MEM_REPAIR_CFG, ⟨8, 8⟩⟩
def MEM_REPAIR_CTL_SOFT : FieldAt := ⟨Reg.MEM_REPAIR_CTL, ⟨0, 1⟩⟩
def MEM_REPAIR_CTL_HARD : FieldAt := ⟨Reg.MEM_REPAIR_CTL, ⟨1, 1⟩⟩
def MEM_REPAIR_STAT_BUSY : FieldAt := ⟨Reg.MEM_REPAIR_STAT, ⟨0, 1⟩⟩
def MEM_REPAIR_STAT_CODE : FieldAt := ⟨Reg.MEM_REPAIR_STAT, ⟨8, 8⟩⟩
def MEM_REPAIR_STAT_PENDING : FieldAt := ⟨Reg.MEM_REPAIR_STAT, ⟨16, 7⟩⟩
def MEM_DEC_RESULT_PC : FieldAt := ⟨Reg.MEM_DEC_RESULT, ⟨0, 6⟩⟩
def MEM_DEC_RESULT_SID : FieldAt := ⟨Reg.MEM_DEC_RESULT, ⟨6, 2⟩⟩
def MEM_DEC_RESULT_BANK : FieldAt := ⟨Reg.MEM_DEC_RESULT, ⟨8, 4⟩⟩
def MEM_DEC_RESULT_ROW : FieldAt := ⟨Reg.MEM_DEC_RESULT, ⟨12, 14⟩⟩
def MEM_DEC_RESULT_COL : FieldAt := ⟨Reg.MEM_DEC_RESULT, ⟨26, 6⟩⟩
def MEM_IRQ_VEC : FieldAt := ⟨Reg.MEM_IRQ, ⟨0, 11⟩⟩
def MEM_IRQ_EN : FieldAt := ⟨Reg.MEM_IRQ, ⟨31, 1⟩⟩
def MEM_S_STAT_UP (s : Nat) : FieldAt := ⟨Reg.MEM_S_STAT s, ⟨0, 1⟩⟩
def MEM_S_STAT_SPARE (s : Nat) : FieldAt := ⟨Reg.MEM_S_STAT s, ⟨8, 12⟩⟩
def MEM_PC_STAT_REMAP (p : Nat) : FieldAt := ⟨Reg.MEM_PC_STAT p, ⟨0, 2⟩⟩
def MEM_PC_STAT_SOFT (p : Nat) : FieldAt := ⟨Reg.MEM_PC_STAT p, ⟨8, 8⟩⟩
def MEM_PC_STAT_HARD (p : Nat) : FieldAt := ⟨Reg.MEM_PC_STAT p, ⟨16, 8⟩⟩
def HIF_LINK_STAT_SPEED : FieldAt := ⟨Reg.HIF_LINK_STAT, ⟨0, 4⟩⟩
def HIF_LINK_STAT_WIDTH : FieldAt := ⟨Reg.HIF_LINK_STAT, ⟨4, 5⟩⟩
def HIF_LINK_STAT_FLIT : FieldAt := ⟨Reg.HIF_LINK_STAT, ⟨9, 1⟩⟩
def HIF_LINK_STAT_DL_UP : FieldAt := ⟨Reg.HIF_LINK_STAT, ⟨10, 1⟩⟩
def HIF_LINK_STAT_L1 : FieldAt := ⟨Reg.HIF_LINK_STAT, ⟨11, 1⟩⟩
def HIF_CFG_RO_EN : FieldAt := ⟨Reg.HIF_CFG, ⟨0, 1⟩⟩
def HIF_FLAGS_RETRAIN : FieldAt := ⟨Reg.HIF_FLAGS, ⟨0, 1⟩⟩
def HIF_FLAGS_COR : FieldAt := ⟨Reg.HIF_FLAGS, ⟨1, 1⟩⟩
def HIF_FLAGS_UNCOR : FieldAt := ⟨Reg.HIF_FLAGS, ⟨2, 1⟩⟩
def HIF_FLAGS_POISON_RX : FieldAt := ⟨Reg.HIF_FLAGS, ⟨3, 1⟩⟩
def HIF_FLAGS_CPL_TIMEOUT : FieldAt := ⟨Reg.HIF_FLAGS, ⟨4, 1⟩⟩
def DMA_FLAGS_ERROR : FieldAt := ⟨Reg.DMA_FLAGS, ⟨0, 1⟩⟩
def DMA_FLAGS_DOORBELL_ERR : FieldAt := ⟨Reg.DMA_FLAGS, ⟨1, 1⟩⟩
def DMA_FLAGS_POISON : FieldAt := ⟨Reg.DMA_FLAGS, ⟨2, 1⟩⟩
def DMA_RGN_CTL_INDEX : FieldAt := ⟨Reg.DMA_RGN_CTL, ⟨0, 8⟩⟩
def DMA_RGN_CTL_SET : FieldAt := ⟨Reg.DMA_RGN_CTL, ⟨8, 1⟩⟩
def DMA_RGN_CTL_CLEAR : FieldAt := ⟨Reg.DMA_RGN_CTL, ⟨9, 1⟩⟩
def DMA_RGN_STAT_BUSY : FieldAt := ⟨Reg.DMA_RGN_STAT, ⟨0, 1⟩⟩
def DMA_RGN_STAT_CODE : FieldAt := ⟨Reg.DMA_RGN_STAT, ⟨8, 8⟩⟩
def DMA_R_CFG_VALID (r : Nat) : FieldAt := ⟨Reg.DMA_R_CFG r, ⟨0, 1⟩⟩
def DMA_R_CFG_KIND (r : Nat) : FieldAt := ⟨Reg.DMA_R_CFG r, ⟨1, 2⟩⟩
def DMA_R_CFG_READ (r : Nat) : FieldAt := ⟨Reg.DMA_R_CFG r, ⟨3, 1⟩⟩
def DMA_R_CFG_WRITE (r : Nat) : FieldAt := ⟨Reg.DMA_R_CFG r, ⟨4, 1⟩⟩
def DMA_R_CFG_QUEUE (r : Nat) : FieldAt := ⟨Reg.DMA_R_CFG r, ⟨16, 12⟩⟩
def DMA_C_CFG_EN (c : Nat) : FieldAt := ⟨Reg.DMA_C_CFG c, ⟨0, 1⟩⟩
def DMA_C_CFG_PRI (c : Nat) : FieldAt := ⟨Reg.DMA_C_CFG c, ⟨2, 2⟩⟩
def DMA_C_CFG_VEC_EN (c : Nat) : FieldAt := ⟨Reg.DMA_C_CFG c, ⟨4, 1⟩⟩
def DMA_C_CFG_VEC (c : Nat) : FieldAt := ⟨Reg.DMA_C_CFG c, ⟨16, 11⟩⟩
def DMA_C_HEAD_HEAD (c : Nat) : FieldAt := ⟨Reg.DMA_C_HEAD c, ⟨0, 16⟩⟩
def DMA_C_CTL_RESUME (c : Nat) : FieldAt := ⟨Reg.DMA_C_CTL c, ⟨0, 1⟩⟩
def DMA_C_STAT_STATE (c : Nat) : FieldAt := ⟨Reg.DMA_C_STAT c, ⟨0, 2⟩⟩
def DMA_C_STAT_CODE (c : Nat) : FieldAt := ⟨Reg.DMA_C_STAT c, ⟨8, 8⟩⟩
def CLK_STAT_ACTIVE : FieldAt := ⟨Reg.CLK_STAT, ⟨0, 1⟩⟩
def CLK_STAT_A_LOCK : FieldAt := ⟨Reg.CLK_STAT, ⟨1, 1⟩⟩
def CLK_STAT_B_LOCK : FieldAt := ⟨Reg.CLK_STAT, ⟨2, 1⟩⟩
def CLK_STAT_REF_PRESENT : FieldAt := ⟨Reg.CLK_STAT, ⟨3, 1⟩⟩
def CLK_STAT_HOLDOVER : FieldAt := ⟨Reg.CLK_STAT, ⟨4, 1⟩⟩
def CLK_STAT_STANDBY_READY : FieldAt := ⟨Reg.CLK_STAT, ⟨5, 1⟩⟩
def CLK_STAT_REF_GUESS : FieldAt := ⟨Reg.CLK_STAT, ⟨6, 1⟩⟩
def CLK_STAT_A_ROT : FieldAt := ⟨Reg.CLK_STAT, ⟨8, 3⟩⟩
def CLK_STAT_B_ROT : FieldAt := ⟨Reg.CLK_STAT, ⟨11, 3⟩⟩
def CLK_FLAGS_REF_LOST : FieldAt := ⟨Reg.CLK_FLAGS, ⟨0, 1⟩⟩
def CLK_FLAGS_LOCK_LOST : FieldAt := ⟨Reg.CLK_FLAGS, ⟨1, 1⟩⟩
def CLK_FLAGS_FAILOVER : FieldAt := ⟨Reg.CLK_FLAGS, ⟨2, 1⟩⟩
def CLK_FLAGS_HOLDOVER : FieldAt := ⟨Reg.CLK_FLAGS, ⟨3, 1⟩⟩
def CLK_FLAGS_CHANGE_FAIL : FieldAt := ⟨Reg.CLK_FLAGS, ⟨4, 1⟩⟩
def CLK_CUR_CFG_PDIV : FieldAt := ⟨Reg.CLK_CUR_CFG, ⟨0, 4⟩⟩
def CLK_CUR_CFG_INT : FieldAt := ⟨Reg.CLK_CUR_CFG, ⟨16, 10⟩⟩
def CLK_NEXT_CFG_PDIV : FieldAt := ⟨Reg.CLK_NEXT_CFG, ⟨0, 4⟩⟩
def CLK_NEXT_CFG_INT : FieldAt := ⟨Reg.CLK_NEXT_CFG, ⟨16, 10⟩⟩
def CLK_NEXT_FRAC_FRAC : FieldAt := ⟨Reg.CLK_NEXT_FRAC, ⟨0, 32⟩⟩
def CLK_CHANGE_CTL_GO : FieldAt := ⟨Reg.CLK_CHANGE_CTL, ⟨0, 1⟩⟩
def CLK_CHANGE_STAT_STATE : FieldAt := ⟨Reg.CLK_CHANGE_STAT, ⟨0, 2⟩⟩
def CLK_CHANGE_STAT_CODE : FieldAt := ⟨Reg.CLK_CHANGE_STAT, ⟨8, 8⟩⟩
def CLK_TUNE_A_WORD : FieldAt := ⟨Reg.CLK_TUNE_A, ⟨0, 16⟩⟩
def CLK_TUNE_A_MARGIN : FieldAt := ⟨Reg.CLK_TUNE_A, ⟨16, 8⟩⟩
def CLK_TUNE_A_BAND : FieldAt := ⟨Reg.CLK_TUNE_A, ⟨24, 4⟩⟩
def CLK_TUNE_B_WORD : FieldAt := ⟨Reg.CLK_TUNE_B, ⟨0, 16⟩⟩
def CLK_TUNE_B_MARGIN : FieldAt := ⟨Reg.CLK_TUNE_B, ⟨16, 8⟩⟩
def CLK_TUNE_B_BAND : FieldAt := ⟨Reg.CLK_TUNE_B, ⟨24, 4⟩⟩
def CLK_PROBE_CODE : FieldAt := ⟨Reg.CLK_PROBE, ⟨0, 8⟩⟩
def CLK_PROBE_GO : FieldAt := ⟨Reg.CLK_PROBE, ⟨31, 1⟩⟩
def CLK_PROBE_RESULT_VALID : FieldAt := ⟨Reg.CLK_PROBE_RESULT, ⟨14, 1⟩⟩
def CLK_PROBE_RESULT_CODE : FieldAt := ⟨Reg.CLK_PROBE_RESULT, ⟨16, 8⟩⟩
def CLK_PROBE_RESULT_MHZ : FieldAt := ⟨Reg.CLK_PROBE_RESULT, ⟨0, 14⟩⟩
def CLK_BAND_FACTORY_CODE : FieldAt := ⟨Reg.CLK_BAND_FACTORY, ⟨0, 8⟩⟩
def CLK_BAND_FACTORY_MHZ : FieldAt := ⟨Reg.CLK_BAND_FACTORY, ⟨16, 14⟩⟩
def CKO_CFG_SRC (o : Nat) : FieldAt := ⟨Reg.CKO_CFG o, ⟨0, 1⟩⟩
def CKO_CFG_FORMAT (o : Nat) : FieldAt := ⟨Reg.CKO_CFG o, ⟨1, 2⟩⟩
def CKO_CFG_LEVEL (o : Nat) : FieldAt := ⟨Reg.CKO_CFG o, ⟨3, 3⟩⟩
def CKO_CFG_INV (o : Nat) : FieldAt := ⟨Reg.CKO_CFG o, ⟨6, 1⟩⟩
def CKO_CTL_START (o : Nat) : FieldAt := ⟨Reg.CKO_CTL o, ⟨0, 1⟩⟩
def CKO_CTL_STOP (o : Nat) : FieldAt := ⟨Reg.CKO_CTL o, ⟨1, 1⟩⟩
def CKO_STAT_RUNNING (o : Nat) : FieldAt := ⟨Reg.CKO_STAT o, ⟨0, 1⟩⟩
def CKO_STAT_PENDING (o : Nat) : FieldAt := ⟨Reg.CKO_STAT o, ⟨1, 1⟩⟩
def CKO_STAT_STALLED (o : Nat) : FieldAt := ⟨Reg.CKO_STAT o, ⟨2, 1⟩⟩
def CKO_STAT_CODE (o : Nat) : FieldAt := ⟨Reg.CKO_STAT o, ⟨8, 8⟩⟩
def EVT_FLAGS_TIME_WRAP : FieldAt := ⟨Reg.EVT_FLAGS, ⟨0, 1⟩⟩
def EVT_FLAGS_DEAD : FieldAt := ⟨Reg.EVT_FLAGS, ⟨1, 1⟩⟩
def EVT_FLAGS_OVF : FieldAt := ⟨Reg.EVT_FLAGS, ⟨2, 1⟩⟩
def EVT_FLAGS_UNPAIRED : FieldAt := ⟨Reg.EVT_FLAGS, ⟨3, 1⟩⟩
def EVT_FLAGS_ORDER : FieldAt := ⟨Reg.EVT_FLAGS, ⟨4, 1⟩⟩
def EVT_SET_CTL_GO : FieldAt := ⟨Reg.EVT_SET_CTL, ⟨0, 1⟩⟩
def EVT_SET_STAT_CODE : FieldAt := ⟨Reg.EVT_SET_STAT, ⟨8, 8⟩⟩
def EVT_I_CFG_SLOPE (n : Nat) : FieldAt := ⟨Reg.EVT_I_CFG n, ⟨0, 2⟩⟩
def EVT_I_CFG_SE (n : Nat) : FieldAt := ⟨Reg.EVT_I_CFG n, ⟨2, 1⟩⟩
def EVT_I_CFG_Q_EN (n : Nat) : FieldAt := ⟨Reg.EVT_I_CFG n, ⟨3, 1⟩⟩
def EVT_I_THRESH_CODE (n : Nat) : FieldAt := ⟨Reg.EVT_I_THRESH n, ⟨0, 12⟩⟩
def EVT_I_THRESH_HYST (n : Nat) : FieldAt := ⟨Reg.EVT_I_THRESH n, ⟨12, 3⟩⟩
def EVT_I_QUEUE_COUNT (n : Nat) : FieldAt := ⟨Reg.EVT_I_QUEUE n, ⟨16, 10⟩⟩
def EVT_I_QUEUE_QUEUE (n : Nat) : FieldAt := ⟨Reg.EVT_I_QUEUE n, ⟨0, 12⟩⟩
def EVT_I_CTL_ENABLE (n : Nat) : FieldAt := ⟨Reg.EVT_I_CTL n, ⟨0, 1⟩⟩
def EVT_I_CTL_DISABLE (n : Nat) : FieldAt := ⟨Reg.EVT_I_CTL n, ⟨1, 1⟩⟩
def EVT_I_STAT_ENABLED (n : Nat) : FieldAt := ⟨Reg.EVT_I_STAT n, ⟨0, 1⟩⟩
def EVT_I_STAT_BLANK (n : Nat) : FieldAt := ⟨Reg.EVT_I_STAT n, ⟨1, 1⟩⟩
def EVT_I_STAT_CAL (n : Nat) : FieldAt := ⟨Reg.EVT_I_STAT n, ⟨2, 1⟩⟩
def EVT_I_STAT_LINE (n : Nat) : FieldAt := ⟨Reg.EVT_I_STAT n, ⟨3, 1⟩⟩
def EVT_I_STAT_LINES (n : Nat) : FieldAt := ⟨Reg.EVT_I_STAT n, ⟨4, 1⟩⟩
def EVT_I_STAT_SHADOW_STATE (n : Nat) : FieldAt := ⟨Reg.EVT_I_STAT n, ⟨5, 3⟩⟩
def EVT_I_STAT_CODE (n : Nat) : FieldAt := ⟨Reg.EVT_I_STAT n, ⟨8, 8⟩⟩
def EVT_I_STAT_FIFO (n : Nat) : FieldAt := ⟨Reg.EVT_I_STAT n, ⟨16, 9⟩⟩
def EVT_S_CFG_START (s : Nat) : FieldAt := ⟨Reg.EVT_S_CFG s, ⟨0, 4⟩⟩
def EVT_S_CFG_STOP (s : Nat) : FieldAt := ⟨Reg.EVT_S_CFG s, ⟨4, 4⟩⟩
def EVT_S_CFG_PAIR (s : Nat) : FieldAt := ⟨Reg.EVT_S_CFG s, ⟨8, 2⟩⟩
def EVT_S_CFG_REPEAT (s : Nat) : FieldAt := ⟨Reg.EVT_S_CFG s, ⟨10, 1⟩⟩
def EVT_S_QUEUE_Q_EN (s : Nat) : FieldAt := ⟨Reg.EVT_S_QUEUE s, ⟨16, 1⟩⟩
def EVT_S_QUEUE_QUEUE (s : Nat) : FieldAt := ⟨Reg.EVT_S_QUEUE s, ⟨0, 12⟩⟩
def EVT_S_CTL_ARM (s : Nat) : FieldAt := ⟨Reg.EVT_S_CTL s, ⟨0, 1⟩⟩
def EVT_S_CTL_STOP (s : Nat) : FieldAt := ⟨Reg.EVT_S_CTL s, ⟨1, 1⟩⟩
def EVT_S_STAT_STATE (s : Nat) : FieldAt := ⟨Reg.EVT_S_STAT s, ⟨0, 2⟩⟩
def EVT_S_STAT_CODE (s : Nat) : FieldAt := ⟨Reg.EVT_S_STAT s, ⟨8, 8⟩⟩
def MON_CFG_MONSYNC_EN : FieldAt := ⟨Reg.MON_CFG, ⟨0, 1⟩⟩
def MON_FLAGS_OVERRANGE : FieldAt := ⟨Reg.MON_FLAGS, ⟨0, 1⟩⟩
def MON_FLAGS_INJ_MISS : FieldAt := ⟨Reg.MON_FLAGS, ⟨1, 1⟩⟩
def MON_FLAGS_LATE : FieldAt := ⟨Reg.MON_FLAGS, ⟨2, 1⟩⟩
def MON_FLAGS_SYNC : FieldAt := ⟨Reg.MON_FLAGS, ⟨3, 1⟩⟩
def MON_M_CFG_REPEAT (m : Nat) : FieldAt := ⟨Reg.MON_M_CFG m, ⟨0, 1⟩⟩
def MON_M_CFG_Q_EN (m : Nat) : FieldAt := ⟨Reg.MON_M_CFG m, ⟨1, 1⟩⟩
def MON_M_QUEUE_QUEUE (m : Nat) : FieldAt := ⟨Reg.MON_M_QUEUE m, ⟨0, 12⟩⟩
def MON_M_SEQ_LEN_SEQ_LEN (m : Nat) : FieldAt := ⟨Reg.MON_M_SEQ_LEN m, ⟨0, 6⟩⟩
def MON_M_SEQ_LEN_INJ_LEN (m : Nat) : FieldAt := ⟨Reg.MON_M_SEQ_LEN m, ⟨8, 3⟩⟩
def MON_M_CTL_START (m : Nat) : FieldAt := ⟨Reg.MON_M_CTL m, ⟨0, 1⟩⟩
def MON_M_CTL_STOP (m : Nat) : FieldAt := ⟨Reg.MON_M_CTL m, ⟨1, 1⟩⟩
def MON_M_CTL_ARM_INJ (m : Nat) : FieldAt := ⟨Reg.MON_M_CTL m, ⟨2, 1⟩⟩
def MON_M_CTL_DISARM_INJ (m : Nat) : FieldAt := ⟨Reg.MON_M_CTL m, ⟨3, 1⟩⟩
def MON_M_CTL_INJECT (m : Nat) : FieldAt := ⟨Reg.MON_M_CTL m, ⟨4, 1⟩⟩
def MON_M_STAT_STATE (m : Nat) : FieldAt := ⟨Reg.MON_M_STAT m, ⟨0, 2⟩⟩
def MON_M_STAT_INJ_ARMED (m : Nat) : FieldAt := ⟨Reg.MON_M_STAT m, ⟨2, 1⟩⟩
def MON_M_STAT_INJ_PENDING (m : Nat) : FieldAt := ⟨Reg.MON_M_STAT m, ⟨3, 1⟩⟩
def MON_M_STAT_INJ_ACTIVE (m : Nat) : FieldAt := ⟨Reg.MON_M_STAT m, ⟨4, 1⟩⟩
def MON_M_STAT_CODE (m : Nat) : FieldAt := ⟨Reg.MON_M_STAT m, ⟨8, 8⟩⟩
def MON_M_STAT_SLOT (m : Nat) : FieldAt := ⟨Reg.MON_M_STAT m, ⟨16, 6⟩⟩
def MON_M_INJ_SRC_TSRC (m : Nat) : FieldAt := ⟨Reg.MON_M_INJ_SRC m, ⟨0, 2⟩⟩
def MON_M_INJ_SRC_N (m : Nat) : FieldAt := ⟨Reg.MON_M_INJ_SRC m, ⟨8, 6⟩⟩
def MON_M_RESULT_RESULT (m : Nat) (s : Nat) : FieldAt := ⟨Reg.MON_M_RESULT m s, ⟨0, 32⟩⟩
def MON_M_INFO_VALID (m : Nat) (s : Nat) : FieldAt := ⟨Reg.MON_M_INFO m s, ⟨0, 1⟩⟩
def MON_M_INFO_OVERRANGE (m : Nat) (s : Nat) : FieldAt := ⟨Reg.MON_M_INFO m s, ⟨1, 1⟩⟩
def MON_M_INFO_HOLDOVER (m : Nat) (s : Nat) : FieldAt := ⟨Reg.MON_M_INFO m s, ⟨2, 1⟩⟩
def MON_M_INFO_UNTRACED (m : Nat) (s : Nat) : FieldAt := ⟨Reg.MON_M_INFO m s, ⟨3, 1⟩⟩
def MON_M_INFO_SWAP (m : Nat) (s : Nat) : FieldAt := ⟨Reg.MON_M_INFO m s, ⟨4, 1⟩⟩
def MON_M_INFO_COUNT (m : Nat) (s : Nat) : FieldAt := ⟨Reg.MON_M_INFO m s, ⟨16, 16⟩⟩
def CAL_FLAGS_REF_BAD : FieldAt := ⟨Reg.CAL_FLAGS, ⟨0, 1⟩⟩
def CAL_FLAGS_FAIL : FieldAt := ⟨Reg.CAL_FLAGS, ⟨1, 1⟩⟩
def CAL_FLAGS_SKIPPED : FieldAt := ⟨Reg.CAL_FLAGS, ⟨2, 1⟩⟩
def CAL_I_COUNT_CAL_COUNT (k : Nat) : FieldAt := ⟨Reg.CAL_I_COUNT k, ⟨0, 32⟩⟩
def CAL_I_STAT_VALID (k : Nat) : FieldAt := ⟨Reg.CAL_I_STAT k, ⟨0, 1⟩⟩
def CAL_I_STAT_UNTRACED (k : Nat) : FieldAt := ⟨Reg.CAL_I_STAT k, ⟨1, 1⟩⟩
def CAL_I_STAT_CODE (k : Nat) : FieldAt := ⟨Reg.CAL_I_STAT k, ⟨8, 8⟩⟩
def CAL_I_STAT_TEMP (k : Nat) : FieldAt := ⟨Reg.CAL_I_STAT k, ⟨16, 8⟩⟩
def ROT_CFG_EN : FieldAt := ⟨Reg.ROT_CFG, ⟨0, 1⟩⟩
def ROT_FLAGS_MISMATCH : FieldAt := ⟨Reg.ROT_FLAGS, ⟨0, 1⟩⟩
def ROT_FLAGS_WITHDRAWN : FieldAt := ⟨Reg.ROT_FLAGS, ⟨1, 1⟩⟩
def ROT_FLAGS_SPARES_EXHAUSTED : FieldAt := ⟨Reg.ROT_FLAGS, ⟨2, 1⟩⟩
def ROT_FLAGS_ROLE_MISS : FieldAt := ⟨Reg.ROT_FLAGS, ⟨3, 1⟩⟩
def ROT_FLAGS_FORCED : FieldAt := ⟨Reg.ROT_FLAGS, ⟨4, 1⟩⟩
def ROT_FLAGS_PAUSED : FieldAt := ⟨Reg.ROT_FLAGS, ⟨5, 1⟩⟩
def ROT_CMD_UNIT : FieldAt := ⟨Reg.ROT_CMD, ⟨0, 11⟩⟩
def ROT_CMD_EXPECT : FieldAt := ⟨Reg.ROT_CMD, ⟨12, 3⟩⟩
def ROT_CMD_OP : FieldAt := ⟨Reg.ROT_CMD, ⟨16, 2⟩⟩
def ROT_CMD_GO : FieldAt := ⟨Reg.ROT_CMD, ⟨31, 1⟩⟩
def ROT_CMD_STAT_BUSY : FieldAt := ⟨Reg.ROT_CMD_STAT, ⟨0, 1⟩⟩
def ROT_CMD_STAT_CODE : FieldAt := ⟨Reg.ROT_CMD_STAT, ⟨8, 8⟩⟩
def ROT_K_CFG_STEP (k : Nat) : FieldAt := ⟨Reg.ROT_K_CFG k, ⟨0, 16⟩⟩
def ROT_K_CFG_WINDOW (k : Nat) : FieldAt := ⟨Reg.ROT_K_CFG k, ⟨16, 12⟩⟩
def ROT_K_CFG_EN (k : Nat) : FieldAt := ⟨Reg.ROT_K_CFG k, ⟨31, 1⟩⟩
def ROT_K_STAT_WITHDRAWN (k : Nat) : FieldAt := ⟨Reg.ROT_K_STAT k, ⟨0, 10⟩⟩
def ROT_K_STAT_VACANT (k : Nat) : FieldAt := ⟨Reg.ROT_K_STAT k, ⟨10, 10⟩⟩
def ROT_K_STAT_EXHAUSTED (k : Nat) : FieldAt := ⟨Reg.ROT_K_STAT k, ⟨20, 6⟩⟩
def ROT_K_STAT_ACTIVE (k : Nat) : FieldAt := ⟨Reg.ROT_K_STAT k, ⟨26, 1⟩⟩
def ROT_K_STAT_PAUSED (k : Nat) : FieldAt := ⟨Reg.ROT_K_STAT k, ⟨27, 1⟩⟩
def ROT_U_STAT_STATE (u : Nat) : FieldAt := ⟨Reg.ROT_U_STAT u, ⟨0, 3⟩⟩
def ROT_U_STAT_SUSPECT (u : Nat) : FieldAt := ⟨Reg.ROT_U_STAT u, ⟨3, 1⟩⟩
def ROT_U_STAT_ROLE (u : Nat) : FieldAt := ⟨Reg.ROT_U_STAT u, ⟨8, 12⟩⟩
def ROT_U_STAT_CAUSE (u : Nat) : FieldAt := ⟨Reg.ROT_U_STAT u, ⟨20, 4⟩⟩
def ROT_U_TESTS_PASSED (u : Nat) : FieldAt := ⟨Reg.ROT_U_TESTS u, ⟨0, 16⟩⟩
def ROT_U_TESTS_FAILED (u : Nat) : FieldAt := ⟨Reg.ROT_U_TESTS u, ⟨16, 16⟩⟩
def BST_FLAGS_RUN : FieldAt := ⟨Reg.BST_FLAGS, ⟨0, 1⟩⟩
def BST_FLAGS_FAIL : FieldAt := ⟨Reg.BST_FLAGS, ⟨1, 1⟩⟩
def BST_FLAGS_CONDITIONS : FieldAt := ⟨Reg.BST_FLAGS, ⟨2, 1⟩⟩
def BST_CMD_UNIT : FieldAt := ⟨Reg.BST_CMD, ⟨0, 11⟩⟩
def BST_CMD_EXPECT : FieldAt := ⟨Reg.BST_CMD, ⟨12, 3⟩⟩
def BST_CMD_GO : FieldAt := ⟨Reg.BST_CMD, ⟨31, 1⟩⟩
def BST_CMD_STAT_BUSY : FieldAt := ⟨Reg.BST_CMD_STAT, ⟨0, 1⟩⟩
def BST_CMD_STAT_PASS : FieldAt := ⟨Reg.BST_CMD_STAT, ⟨1, 1⟩⟩
def BST_CMD_STAT_CODE : FieldAt := ⟨Reg.BST_CMD_STAT, ⟨8, 8⟩⟩
def CAS_CFG_IDENT : FieldAt := ⟨Reg.CAS_CFG, ⟨0, 8⟩⟩
def CAS_CFG_MASTER : FieldAt := ⟨Reg.CAS_CFG, ⟨8, 1⟩⟩
def CAS_CFG_ACCEPT : FieldAt := ⟨Reg.CAS_CFG, ⟨9, 1⟩⟩
def CAS_CFG_AUTO_TAKEOVER : FieldAt := ⟨Reg.CAS_CFG, ⟨10, 1⟩⟩
def CAS_CFG_TOPO : FieldAt := ⟨Reg.CAS_CFG, ⟨11, 1⟩⟩
def CAS_CFG_RET_CKO : FieldAt := ⟨Reg.CAS_CFG, ⟨16, 3⟩⟩
def CAS_STAT_ROLE : FieldAt := ⟨Reg.CAS_STAT, ⟨0, 2⟩⟩
def CAS_STAT_DEVICE : FieldAt := ⟨Reg.CAS_STAT, ⟨2, 4⟩⟩
def CAS_STAT_TIME_OK : FieldAt := ⟨Reg.CAS_STAT, ⟨6, 1⟩⟩
def CAS_STAT_SLEWING : FieldAt := ⟨Reg.CAS_STAT, ⟨7, 1⟩⟩
def CAS_FLAGS_MSG_ERR : FieldAt := ⟨Reg.CAS_FLAGS, ⟨0, 1⟩⟩
def CAS_FLAGS_UNACKED : FieldAt := ⟨Reg.CAS_FLAGS, ⟨1, 1⟩⟩
def CAS_FLAGS_TX_DROP : FieldAt := ⟨Reg.CAS_FLAGS, ⟨2, 1⟩⟩
def CAS_FLAGS_STALE : FieldAt := ⟨Reg.CAS_FLAGS, ⟨3, 1⟩⟩
def CAS_FLAGS_LOST : FieldAt := ⟨Reg.CAS_FLAGS, ⟨4, 1⟩⟩
def CAS_FLAGS_TIME_FAULT : FieldAt := ⟨Reg.CAS_FLAGS, ⟨5, 1⟩⟩
def CAS_FLAGS_RESET_LATE : FieldAt := ⟨Reg.CAS_FLAGS, ⟨6, 1⟩⟩
def CAS_FLAGS_JOIN_MISS : FieldAt := ⟨Reg.CAS_FLAGS, ⟨7, 1⟩⟩
def CAS_FLAGS_TAKEOVER : FieldAt := ⟨Reg.CAS_FLAGS, ⟨8, 1⟩⟩
def CAS_FLAGS_MASTER_LOST : FieldAt := ⟨Reg.CAS_FLAGS, ⟨9, 1⟩⟩
def CAS_CTL_FORM : FieldAt := ⟨Reg.CAS_CTL, ⟨0, 1⟩⟩
def CAS_CTL_CAL : FieldAt := ⟨Reg.CAS_CTL, ⟨1, 1⟩⟩
def CAS_CTL_RESET : FieldAt := ⟨Reg.CAS_CTL, ⟨2, 1⟩⟩
def CAS_CTL_TAKEOVER : FieldAt := ⟨Reg.CAS_CTL, ⟨3, 1⟩⟩
def CAS_CTL_LEAVE : FieldAt := ⟨Reg.CAS_CTL, ⟨4, 1⟩⟩
def CAS_CMD_STAT_BUSY : FieldAt := ⟨Reg.CAS_CMD_STAT, ⟨0, 1⟩⟩
def CAS_CMD_STAT_CODE : FieldAt := ⟨Reg.CAS_CMD_STAT, ⟨8, 8⟩⟩
def CAS_CMD_ARG_DEVICE : FieldAt := ⟨Reg.CAS_CMD_ARG, ⟨0, 4⟩⟩
def CAS_CMD_ARG_STANDBY : FieldAt := ⟨Reg.CAS_CMD_ARG, ⟨8, 8⟩⟩
def CAS_D_CFG_IDENT (d : Nat) : FieldAt := ⟨Reg.CAS_D_CFG d, ⟨0, 8⟩⟩
def CAS_D_CFG_ROLE (d : Nat) : FieldAt := ⟨Reg.CAS_D_CFG d, ⟨8, 2⟩⟩
def CAS_D_CFG_PRESENT (d : Nat) : FieldAt := ⟨Reg.CAS_D_CFG d, ⟨10, 1⟩⟩
def CAS_D_CFG_RET_EV (d : Nat) : FieldAt := ⟨Reg.CAS_D_CFG d, ⟨16, 4⟩⟩
def CAS_D_STAT_STATE (d : Nat) : FieldAt := ⟨Reg.CAS_D_STAT d, ⟨0, 3⟩⟩
def CAS_D_STAT_TIME_OK (d : Nat) : FieldAt := ⟨Reg.CAS_D_STAT d, ⟨3, 1⟩⟩
def CAS_L_CFG_RUN (l : Nat) : FieldAt := ⟨Reg.CAS_L_CFG l, ⟨0, 1⟩⟩
def CAS_L_CFG_PEER (l : Nat) : FieldAt := ⟨Reg.CAS_L_CFG l, ⟨1, 4⟩⟩
def CAS_L_STAT_UP (l : Nat) : FieldAt := ⟨Reg.CAS_L_STAT l, ⟨0, 1⟩⟩
def CAS_L_STAT_PARITY_OK (l : Nat) : FieldAt := ⟨Reg.CAS_L_STAT l, ⟨1, 1⟩⟩
def CAS_L_STAT_CODE (l : Nat) : FieldAt := ⟨Reg.CAS_L_STAT l, ⟨8, 8⟩⟩
def CAS_F_CFG_DDEV (f : Nat) : FieldAt := ⟨Reg.CAS_F_CFG f, ⟨12, 4⟩⟩
def CAS_F_CFG_DQUEUE (f : Nat) : FieldAt := ⟨Reg.CAS_F_CFG f, ⟨16, 12⟩⟩
def CAS_F_CFG_EN (f : Nat) : FieldAt := ⟨Reg.CAS_F_CFG f, ⟨31, 1⟩⟩
def CAS_F_CFG_SQUEUE (f : Nat) : FieldAt := ⟨Reg.CAS_F_CFG f, ⟨0, 12⟩⟩
def CAS_RT_CFG_SDEV (r : Nat) : FieldAt := ⟨Reg.CAS_RT_CFG r, ⟨0, 4⟩⟩
def CAS_RT_CFG_SUNIT (r : Nat) : FieldAt := ⟨Reg.CAS_RT_CFG r, ⟨4, 6⟩⟩
def CAS_RT_CFG_DUNIT (r : Nat) : FieldAt := ⟨Reg.CAS_RT_CFG r, ⟨16, 6⟩⟩
def CAS_RT_CFG_EN (r : Nat) : FieldAt := ⟨Reg.CAS_RT_CFG r, ⟨31, 1⟩⟩
def CAS_J_CFG_EN (j : Nat) : FieldAt := ⟨Reg.CAS_J_CFG j, ⟨31, 1⟩⟩
def CAS_J_CFG_CONTEXT (j : Nat) : FieldAt := ⟨Reg.CAS_J_CFG j, ⟨0, 12⟩⟩
def CAS_J_CFG_QUEUE (j : Nat) : FieldAt := ⟨Reg.CAS_J_CFG j, ⟨16, 12⟩⟩
def CAS_J_PARTS_PARTS (j : Nat) : FieldAt := ⟨Reg.CAS_J_PARTS j, ⟨0, 16⟩⟩
def CAS_J_WAIT_JOIN_WAIT (j : Nat) : FieldAt := ⟨Reg.CAS_J_WAIT j, ⟨0, 32⟩⟩
def PNL_CFG_EN : FieldAt := ⟨Reg.PNL_CFG, ⟨0, 1⟩⟩
def PNL_CFG_LANES : FieldAt := ⟨Reg.PNL_CFG, ⟨1, 2⟩⟩
def PNL_CFG_RATE : FieldAt := ⟨Reg.PNL_CFG, ⟨3, 2⟩⟩
def PNL_CFG_BPC : FieldAt := ⟨Reg.PNL_CFG, ⟨5, 1⟩⟩
def PNL_CFG_HSYNC_POL : FieldAt := ⟨Reg.PNL_CFG, ⟨6, 1⟩⟩
def PNL_CFG_VSYNC_POL : FieldAt := ⟨Reg.PNL_CFG, ⟨7, 1⟩⟩
def PNL_CTL_START : FieldAt := ⟨Reg.PNL_CTL, ⟨0, 1⟩⟩
def PNL_CTL_STOP : FieldAt := ⟨Reg.PNL_CTL, ⟨1, 1⟩⟩
def PNL_CTL_COMMIT : FieldAt := ⟨Reg.PNL_CTL, ⟨2, 1⟩⟩
def PNL_STAT_STATE : FieldAt := ⟨Reg.PNL_STAT, ⟨0, 2⟩⟩
def PNL_STAT_HPD : FieldAt := ⟨Reg.PNL_STAT, ⟨2, 1⟩⟩
def PNL_STAT_COMMIT_PENDING : FieldAt := ⟨Reg.PNL_STAT, ⟨3, 1⟩⟩
def PNL_STAT_CODE : FieldAt := ⟨Reg.PNL_STAT, ⟨8, 8⟩⟩
def PNL_STAT_SKIP : FieldAt := ⟨Reg.PNL_STAT, ⟨16, 4⟩⟩
def PNL_FLAGS_UNDERRUN : FieldAt := ⟨Reg.PNL_FLAGS, ⟨0, 1⟩⟩
def PNL_FLAGS_URGENT : FieldAt := ⟨Reg.PNL_FLAGS, ⟨1, 1⟩⟩
def PNL_FLAGS_LINK_LOST : FieldAt := ⟨Reg.PNL_FLAGS, ⟨2, 1⟩⟩
def PNL_FLAGS_HPD : FieldAt := ⟨Reg.PNL_FLAGS, ⟨3, 1⟩⟩
def PNL_H_ACT_FP_H_ACT : FieldAt := ⟨Reg.PNL_H_ACT_FP, ⟨0, 16⟩⟩
def PNL_H_ACT_FP_H_FP : FieldAt := ⟨Reg.PNL_H_ACT_FP, ⟨16, 16⟩⟩
def PNL_H_SYNC_BP_H_SYNC : FieldAt := ⟨Reg.PNL_H_SYNC_BP, ⟨0, 16⟩⟩
def PNL_H_SYNC_BP_H_BP : FieldAt := ⟨Reg.PNL_H_SYNC_BP, ⟨16, 16⟩⟩
def PNL_V_ACT_FP_V_ACT : FieldAt := ⟨Reg.PNL_V_ACT_FP, ⟨0, 16⟩⟩
def PNL_V_ACT_FP_V_FP : FieldAt := ⟨Reg.PNL_V_ACT_FP, ⟨16, 16⟩⟩
def PNL_V_SYNC_BP_V_SYNC : FieldAt := ⟨Reg.PNL_V_SYNC_BP, ⟨0, 16⟩⟩
def PNL_V_SYNC_BP_V_BP : FieldAt := ⟨Reg.PNL_V_SYNC_BP, ⟨16, 16⟩⟩
def PNL_AUX_CMD_REQ : FieldAt := ⟨Reg.PNL_AUX_CMD, ⟨0, 4⟩⟩
def PNL_AUX_CMD_ADDR : FieldAt := ⟨Reg.PNL_AUX_CMD, ⟨4, 20⟩⟩
def PNL_AUX_CMD_LENGTH : FieldAt := ⟨Reg.PNL_AUX_CMD, ⟨24, 5⟩⟩
def PNL_AUX_CMD_GO : FieldAt := ⟨Reg.PNL_AUX_CMD, ⟨31, 1⟩⟩
def PNL_AUX_STAT_BUSY : FieldAt := ⟨Reg.PNL_AUX_STAT, ⟨0, 1⟩⟩
def PNL_AUX_STAT_REPLY : FieldAt := ⟨Reg.PNL_AUX_STAT, ⟨1, 2⟩⟩
def PNL_AUX_STAT_CODE : FieldAt := ⟨Reg.PNL_AUX_STAT, ⟨8, 8⟩⟩
def PNL_AUX_STAT_BYTES : FieldAt := ⟨Reg.PNL_AUX_STAT, ⟨16, 5⟩⟩
def PNL_L_CFG_EN (l : Nat) : FieldAt := ⟨Reg.PNL_L_CFG l, ⟨0, 1⟩⟩
def PNL_L_CFG_FORMAT (l : Nat) : FieldAt := ⟨Reg.PNL_L_CFG l, ⟨1, 2⟩⟩
def PNL_L_CFG_OPAQUE (l : Nat) : FieldAt := ⟨Reg.PNL_L_CFG l, ⟨3, 1⟩⟩
def PNL_L_POS_X (l : Nat) : FieldAt := ⟨Reg.PNL_L_POS l, ⟨0, 12⟩⟩
def PNL_L_POS_Y (l : Nat) : FieldAt := ⟨Reg.PNL_L_POS l, ⟨16, 12⟩⟩
def PNL_L_SIZE_W (l : Nat) : FieldAt := ⟨Reg.PNL_L_SIZE l, ⟨0, 12⟩⟩
def PNL_L_SIZE_H (l : Nat) : FieldAt := ⟨Reg.PNL_L_SIZE l, ⟨16, 12⟩⟩
def CHN_BANK_TAP_TAP (s : Nat) (b : Nat) (j : Nat) : FieldAt := ⟨Reg.CHN_BANK_TAP s b j, ⟨0, 18⟩⟩
def CHN_BANK_REF_REF (s : Nat) (b : Nat) : FieldAt := ⟨Reg.CHN_BANK_REF s b, ⟨0, 7⟩⟩
def CHN_FIR_TAP_TAP (z : Nat) (j : Nat) : FieldAt := ⟨Reg.CHN_FIR_TAP z j, ⟨0, 18⟩⟩
def CHN_HB_VAL_VAL (z : Nat) (j : Nat) : FieldAt := ⟨Reg.CHN_HB_VAL z j, ⟨0, 18⟩⟩
def MEM_LOG_INFO_KIND (i : Nat) : FieldAt := ⟨Reg.MEM_LOG_INFO i, ⟨0, 2⟩⟩
def MEM_LOG_INFO_PORT (i : Nat) : FieldAt := ⟨Reg.MEM_LOG_INFO i, ⟨2, 6⟩⟩
def MEM_LOG_INFO_CODE (i : Nat) : FieldAt := ⟨Reg.MEM_LOG_INFO i, ⟨8, 8⟩⟩
def MEM_LOG_INFO_REPEAT (i : Nat) : FieldAt := ⟨Reg.MEM_LOG_INFO i, ⟨16, 16⟩⟩
def CLK_BAND0_F_MIN (e : Nat) : FieldAt := ⟨Reg.CLK_BAND0 e, ⟨0, 14⟩⟩
def CLK_BAND0_F_MAX (e : Nat) : FieldAt := ⟨Reg.CLK_BAND0 e, ⟨16, 14⟩⟩
def CLK_BAND0_VALID (e : Nat) : FieldAt := ⟨Reg.CLK_BAND0 e, ⟨31, 1⟩⟩
def CLK_BAND1_CODE (e : Nat) : FieldAt := ⟨Reg.CLK_BAND1 e, ⟨0, 8⟩⟩
def CL_APERTURE_SPACE (k : Nat) : FieldAt := ⟨Reg.CL_APERTURE k, ⟨0, 2⟩⟩
def CL_APERTURE_POS (k : Nat) : FieldAt := ⟨Reg.CL_APERTURE k, ⟨2, 3⟩⟩
def CL_FLAGS_FAULT (k : Nat) : FieldAt := ⟨Reg.CL_FLAGS k, ⟨0, 1⟩⟩
def CL_FLAGS_EV_LOST (k : Nat) : FieldAt := ⟨Reg.CL_FLAGS k, ⟨1, 1⟩⟩
def CL_FLAGS_PORT_REFUSED (k : Nat) : FieldAt := ⟨Reg.CL_FLAGS k, ⟨2, 1⟩⟩
def CL_FLAGS_VACANT_DROP (k : Nat) : FieldAt := ⟨Reg.CL_FLAGS k, ⟨3, 1⟩⟩
def CL_FLAGS_VACANT (k : Nat) : FieldAt := ⟨Reg.CL_FLAGS k, ⟨4, 1⟩⟩
def CL_E_CTL_START (k : Nat) (e : Nat) : FieldAt := ⟨Reg.CL_E_CTL k e, ⟨0, 1⟩⟩
def CL_E_CTL_STOP (k : Nat) (e : Nat) : FieldAt := ⟨Reg.CL_E_CTL k e, ⟨1, 1⟩⟩
def CL_E_ENTRY_ENTRY (k : Nat) (e : Nat) : FieldAt := ⟨Reg.CL_E_ENTRY k e, ⟨0, 16⟩⟩
def CL_E_STAT_STATE (k : Nat) (e : Nat) : FieldAt := ⟨Reg.CL_E_STAT k e, ⟨0, 3⟩⟩
def CL_E_STAT_CODE (k : Nat) (e : Nat) : FieldAt := ⟨Reg.CL_E_STAT k e, ⟨8, 8⟩⟩
def CL_E_STAT_CAUSE (k : Nat) (e : Nat) : FieldAt := ⟨Reg.CL_E_STAT k e, ⟨16, 4⟩⟩
def MB_CFG_TARGET (k : Nat) : FieldAt := ⟨Reg.MB_CFG k, ⟨0, 4⟩⟩
def MB_CFG_VEC (k : Nat) : FieldAt := ⟨Reg.MB_CFG k, ⟨16, 11⟩⟩
def MB_CFG_VEC_EN (k : Nat) : FieldAt := ⟨Reg.MB_CFG k, ⟨31, 1⟩⟩
def MB_FLAGS_OVERRUN (k : Nat) : FieldAt := ⟨Reg.MB_FLAGS k, ⟨0, 1⟩⟩
def MSIX_CTRL_MASK (v : Nat) : FieldAt := ⟨Reg.MSIX_CTRL v, ⟨0, 1⟩⟩

end F

/-- Rows of the SYS window, part 0. -/
def rows0_0 : List RegRow := [
  ⟨0x0, [], 0x0, 0x0, 0x0, 0x0, 0x51200001, 0⟩,
  ⟨0x4, [], 0x0, 0x0, 0x0, 0x0, 0x1, 0⟩,
  ⟨0x8, [], 0x0, 0x0, 0x0, 0x0, 0x0, 0⟩,
  ⟨0x10, [], 0x0, 0x1f, 0x0, 0x0, 0x0, 0⟩,
  ⟨0x20, [], 0x0, 0x0, 0x0, 0xffffffff, 0x0, 0⟩,
  ⟨0x24, [], 0x0, 0x0, 0x0, 0xffffffff, 0x0, 0⟩,
  ⟨0x28, [], 0x0, 0x0, 0x0, 0xffffffff, 0x0, 0⟩,
  ⟨0x2c, [], 0x0, 0x0, 0x0, 0xffffffff, 0x0, 0⟩,
  ⟨0x30, [], 0x0, 0x0, 0x0, 0xffffffff, 0x0, 0⟩,
  ⟨0x40, [], 0xffffffff, 0x0, 0x0, 0x0, 0xfe000000, 1⟩,
  ⟨0x44, [], 0xffff, 0x0, 0x0, 0x0, 0xb, 2⟩,
  ⟨0x48, [], 0x0, 0x0, 0xf, 0x0, 0x0, 0⟩,
  ⟨0x4c, [], 0x0, 0x0, 0x0, 0x0, 0x0, 0⟩,
  ⟨0x50, [], 0x0, 0x0, 0x0, 0x0, 0x0, 1⟩,
  ⟨0x54, [], 0x0, 0x0, 0x0, 0x0, 0x0, 2⟩,
  ⟨0x60, [], 0x1f0f, 0x0, 0x0, 0x0, 0xa03, 0⟩,
  ⟨0x64, [], 0x7ffffff, 0x0, 0x80000000, 0x0, 0x0, 0⟩,
  ⟨0x68, [], 0xffffffff, 0x0, 0x0, 0x0, 0x0, 0⟩,
  ⟨0x6c, [], 0x0, 0x0, 0x0, 0x0, 0x0, 0⟩,
  ⟨0x80, [], 0xf, 0x0, 0x0, 0x0, 0x0, 0⟩,
  ⟨0x88, [], 0xffffffff, 0x0, 0x0, 0x0, 0x0, 1⟩,
  ⟨0x8c, [], 0xffffffff, 0x0, 0x0, 0x0, 0x0, 2⟩,
  ⟨0x90, [], 0x0, 0x0, 0x1, 0x0, 0x0, 0⟩,
  ⟨0x94, [], 0x0, 0x0, 0x0, 0x0, 0x0, 0⟩,
  ⟨0x98, [], 0x0, 0x0, 0x0, 0x0, 0x1f, 0⟩,
  ⟨0xa0, [], 0x0, 0x0, 0x0, 0x0, 0x0, 1⟩,
  ⟨0xa4, [], 0x0, 0x0, 0x0, 0x0, 0x0, 2⟩,
  ⟨0xc0, [], 0x7, 0x0, 0x0, 0x0, 0x3, 0⟩,
  ⟨0xc8, [], 0xffffffff, 0x0, 0x0, 0x0, 0x0, 1⟩,
  ⟨0xcc, [], 0xffffffff, 0x0, 0x0, 0x0, 0x0, 2⟩]

/-- Rows of the SYS window, part 1. -/
def rows0_1 : List RegRow := [
  ⟨0xd0, [], 0xffffffff, 0x0, 0x0, 0x0, 0x0, 1⟩,
  ⟨0xd4, [], 0xffffffff, 0x0, 0x0, 0x0, 0x0, 2⟩,
  ⟨0xd8, [], 0x0, 0x0, 0x1, 0x0, 0x0, 0⟩,
  ⟨0xdc, [], 0x0, 0x0, 0x0, 0x0, 0x0, 0⟩,
  ⟨0xe0, [], 0x0, 0x0, 0x0, 0x0, 0x0, 1⟩,
  ⟨0xe4, [], 0x0, 0x0, 0x0, 0x0, 0x0, 2⟩,
  ⟨0xe8, [], 0xffffffff, 0x0, 0x0, 0x0, 0xf8000000, 1⟩,
  ⟨0xec, [], 0xffff, 0x0, 0x0, 0x0, 0xb, 2⟩,
  ⟨0x1000, [(0x4, 64)], 0xffffffff, 0x0, 0x0, 0x0, 0x0, 0⟩]

/-- The rows of the SYS window. -/
def rows0 : List RegRow := rows0_0 ++ rows0_1

/-- Rows of the CLK window, part 0. -/
def rows1_0 : List RegRow := [
  ⟨0x100000, [], 0x0, 0x0, 0x0, 0x0, 0x1, 0⟩,
  ⟨0x100004, [], 0x0, 0x0, 0x0, 0x0, 0x0, 0⟩,
  ⟨0x100010, [], 0x0, 0x1f, 0x0, 0x0, 0x0, 0⟩,
  ⟨0x100020, [], 0x0, 0x0, 0x0, 0xffffffff, 0x0, 0⟩,
  ⟨0x100024, [], 0x0, 0x0, 0x0, 0xffffffff, 0x0, 0⟩,
  ⟨0x100028, [], 0x0, 0x0, 0x0, 0xffffffff, 0x0, 0⟩,
  ⟨0x10002c, [], 0x0, 0x0, 0x0, 0xffffffff, 0x0, 0⟩,
  ⟨0x100030, [], 0x0, 0x0, 0x0, 0xffffffff, 0x0, 0⟩,
  ⟨0x100040, [], 0xffffffff, 0x0, 0x0, 0x0, 0x5f5e100, 0⟩,
  ⟨0x100044, [], 0x0, 0x0, 0x0, 0x0, 0x500001, 0⟩,
  ⟨0x100048, [], 0x0, 0x0, 0x0, 0x0, 0x0, 0⟩,
  ⟨0x10004c, [], 0x0, 0x0, 0x0, 0x0, 0x1, 0⟩,
  ⟨0x100050, [], 0x3ff000f, 0x0, 0x0, 0x0, 0x500001, 0⟩,
  ⟨0x100054, [], 0xffffffff, 0x0, 0x0, 0x0, 0x0, 0⟩,
  ⟨0x100058, [], 0xffffffff, 0x0, 0x0, 0x0, 0x1, 0⟩,
  ⟨0x100060, [], 0xffffffff, 0x0, 0x0, 0x0, 0x0, 1⟩,
  ⟨0x100064, [], 0xffffffff, 0x0, 0x0, 0x0, 0x0, 2⟩,
  ⟨0x100068, [], 0x0, 0x0, 0x1, 0x0, 0x0, 0⟩,
  ⟨0x10006c, [], 0x0, 0x0, 0x0, 0x0, 0x0, 0⟩,
  ⟨0x100070, [], 0x0, 0x0, 0x0, 0x0, 0x0, 1⟩,
  ⟨0x100074, [], 0x0, 0x0, 0x0, 0x0, 0x0, 2⟩,
  ⟨0x100078, [], 0x0, 0x0, 0x0, 0x0, 0x0, 1⟩,
  ⟨0x10007c, [], 0x0, 0x0, 0x0, 0x0, 0x0, 2⟩,
  ⟨0x100080, [], 0x0, 0x0, 0x0, 0x0, 0x0, 0⟩,
  ⟨0x100084, [], 0x0, 0x0, 0x0, 0x0, 0x0, 0⟩,
  ⟨0x100090, [], 0xff, 0x0, 0x80000000, 0x0, 0x0, 0⟩,
  ⟨0x100094, [], 0x0, 0x0, 0x0, 0x0, 0x0, 0⟩,
  ⟨0x100098, [], 0x0, 0x0, 0x0, 0x0, 0x0, 0⟩,
  ⟨0x100400, [(0x20, 8)], 0x7f, 0x0, 0x0, 0x0, 0x0, 0⟩,
  ⟨0x100404, [(0x20, 8)], 0x1fff, 0x0, 0x0, 0x0, 0x0, 0⟩]

/-- Rows of the CLK window, part 1. -/
def rows1_1 : List RegRow := [
  ⟨0x100408, [(0x20, 8)], 0x3ff, 0x0, 0x0, 0x0, 0x0, 0⟩,
  ⟨0x10040c, [(0x20, 8)], 0x0, 0x0, 0x3, 0x0, 0x0, 0⟩,
  ⟨0x100410, [(0x20, 8)], 0x0, 0x0, 0x0, 0x0, 0x0, 0⟩,
  ⟨0x100418, [(0x20, 8)], 0xffffffff, 0x0, 0x0, 0x0, 0x0, 1⟩,
  ⟨0x10041c, [(0x20, 8)], 0xffffffff, 0x0, 0x0, 0x0, 0x0, 2⟩,
  ⟨0x100100, [(0x8, 16)], 0xbfff3fff, 0x0, 0x0, 0x0, 0x0, 0⟩,
  ⟨0x100104, [(0x8, 16)], 0xff, 0x0, 0x0, 0x0, 0x0, 0⟩]

/-- The rows of the CLK window. -/
def rows1 : List RegRow := rows1_0 ++ rows1_1

/-- Rows of the LNK window, part 0. -/
def rows2_0 : List RegRow := [
  ⟨0x200000, [], 0x0, 0x0, 0x0, 0x0, 0x1, 0⟩,
  ⟨0x200004, [], 0x0, 0x0, 0x0, 0x0, 0x0, 0⟩,
  ⟨0x200008, [], 0x0, 0x0, 0x0, 0x0, 0x0, 0⟩,
  ⟨0x200100, [(0x10, 8)], 0x1ffff, 0x0, 0x0, 0x0, 0x0, 0⟩,
  ⟨0x200200, [(0x10, 6)], 0xffff, 0x0, 0x0, 0x0, 0x0, 0⟩,
  ⟨0x201000, [(0x40, 32)], 0x3, 0x0, 0x0, 0x0, 0x0, 0⟩,
  ⟨0x201004, [(0x40, 32)], 0x0, 0x0, 0x0, 0x0, 0x10, 0⟩,
  ⟨0x201008, [(0x40, 32)], 0x0, 0x7f, 0x0, 0x0, 0x0, 0⟩,
  ⟨0x201010, [(0x40, 32)], 0x0, 0x0, 0x0, 0xffffffff, 0x0, 0⟩,
  ⟨0x201014, [(0x40, 32)], 0x0, 0x0, 0x0, 0xffffffff, 0x0, 0⟩,
  ⟨0x201018, [(0x40, 32)], 0x0, 0x0, 0x0, 0xffffffff, 0x0, 0⟩,
  ⟨0x20101c, [(0x40, 32)], 0x0, 0x0, 0x0, 0xffffffff, 0x0, 0⟩,
  ⟨0x201020, [(0x40, 32)], 0x0, 0x0, 0x0, 0xffffffff, 0x0, 0⟩,
  ⟨0x201024, [(0x40, 32)], 0x0, 0x0, 0x0, 0xffffffff, 0x0, 0⟩,
  ⟨0x201028, [(0x40, 32)], 0x0, 0x0, 0x0, 0xffffffff, 0x0, 0⟩,
  ⟨0x202000, [(0x100, 8)], 0x1f, 0x0, 0x0, 0x0, 0x11, 0⟩,
  ⟨0x202004, [(0x100, 8)], 0xffffffff, 0x0, 0x0, 0x0, 0x0, 0⟩,
  ⟨0x202008, [(0x100, 8)], 0xffffffff, 0x0, 0x0, 0x0, 0x0, 0⟩,
  ⟨0x20200c, [(0x100, 8)], 0xffffffff, 0x0, 0x0, 0x0, 0x0, 0⟩,
  ⟨0x202010, [(0x100, 8)], 0xffffffff, 0x0, 0x0, 0x0, 0x0, 0⟩,
  ⟨0x202014, [(0x100, 8)], 0xffffffff, 0x0, 0x0, 0x0, 0x7d0, 0⟩,
  ⟨0x202018, [(0x100, 8)], 0xffffffff, 0x0, 0x0, 0x0, 0x0, 1⟩,
  ⟨0x20201c, [(0x100, 8)], 0xffffffff, 0x0, 0x0, 0x0, 0x0, 2⟩,
  ⟨0x202020, [(0x100, 8)], 0x0, 0x0, 0x7, 0x0, 0x0, 0⟩,
  ⟨0x202024, [(0x100, 8)], 0x0, 0x0, 0x0, 0x0, 0x0, 0⟩,
  ⟨0x202028, [(0x100, 8)], 0x0, 0xff, 0x0, 0x0, 0x0, 0⟩,
  ⟨0x202030, [(0x100, 8)], 0x0, 0x0, 0x0, 0x0, 0x0, 1⟩,
  ⟨0x202034, [(0x100, 8)], 0x0, 0x0, 0x0, 0x0, 0x0, 2⟩,
  ⟨0x202038, [(0x100, 8)], 0x0, 0x0, 0x0, 0x0, 0x0, 0⟩,
  ⟨0x202040, [(0x100, 8)], 0x0, 0x0, 0x0, 0xffffffff, 0x0, 0⟩]

/-- Rows of the LNK window, part 1. -/
def rows2_1 : List RegRow := [
  ⟨0x202044, [(0x100, 8)], 0x0, 0x0, 0x0, 0xffffffff, 0x0, 0⟩,
  ⟨0x202048, [(0x100, 8)], 0x0, 0x0, 0x0, 0xffffffff, 0x0, 0⟩,
  ⟨0x20204c, [(0x100, 8)], 0x0, 0x0, 0x0, 0xffffffff, 0x0, 0⟩,
  ⟨0x202050, [(0x100, 8)], 0x0, 0x0, 0x0, 0xffffffff, 0x0, 0⟩,
  ⟨0x202054, [(0x100, 8)], 0x0, 0x0, 0x0, 0xffffffff, 0x0, 0⟩,
  ⟨0x202058, [(0x100, 8)], 0x0, 0x0, 0x0, 0xffffffff, 0x0, 0⟩,
  ⟨0x20205c, [(0x100, 8)], 0x0, 0x0, 0x0, 0xffffffff, 0x0, 0⟩,
  ⟨0x202060, [(0x100, 8)], 0x0, 0x0, 0x0, 0x0, 0x0, 0⟩,
  ⟨0x202064, [(0x100, 8)], 0x0, 0x0, 0x0, 0x0, 0x0, 0⟩,
  ⟨0x203000, [(0x20, 8)], 0xf, 0x0, 0x0, 0x0, 0x0, 0⟩,
  ⟨0x203004, [(0x20, 8)], 0xffffff, 0x0, 0x0, 0x0, 0x0, 0⟩,
  ⟨0x203008, [(0x20, 8)], 0x0, 0x0, 0x0, 0x0, 0x0, 0⟩,
  ⟨0x204000, [(0x10, 64)], 0x7f, 0x0, 0x0, 0x0, 0x0, 0⟩,
  ⟨0x204004, [(0x10, 64)], 0xffffffff, 0x0, 0x0, 0x0, 0x0, 0⟩,
  ⟨0x204008, [(0x10, 64)], 0xffffff1f, 0x0, 0x0, 0x0, 0x0, 0⟩,
  ⟨0x20400c, [(0x10, 64)], 0xffffff, 0x0, 0x0, 0x0, 0x0, 0⟩]

/-- The rows of the LNK window. -/
def rows2 : List RegRow := rows2_0 ++ rows2_1

/-- Rows of the CHN window, part 0. -/
def rows3_0 : List RegRow := [
  ⟨0x300000, [], 0x0, 0x0, 0x0, 0x0, 0x1, 0⟩,
  ⟨0x300010, [], 0x1, 0x0, 0x0, 0x0, 0x0, 0⟩,
  ⟨0x300018, [], 0xffffffff, 0x0, 0x0, 0x0, 0x0, 1⟩,
  ⟨0x30001c, [], 0xffffffff, 0x0, 0x0, 0x0, 0x0, 2⟩,
  ⟨0x300020, [], 0x0, 0x0, 0x1, 0x0, 0x0, 0⟩,
  ⟨0x300028, [], 0x0, 0x0, 0x0, 0x0, 0x0, 1⟩,
  ⟨0x30002c, [], 0x0, 0x0, 0x0, 0x0, 0x0, 2⟩,
  ⟨0x300030, [], 0x0, 0x0, 0x0, 0xffffffff, 0x0, 0⟩,
  ⟨0x300034, [], 0x0, 0x0, 0x0, 0xffffffff, 0x0, 0⟩,
  ⟨0x301000, [(0x100, 8)], 0x1, 0x0, 0x0, 0x0, 0x1, 0⟩,
  ⟨0x301008, [(0x100, 8)], 0x0, 0x0, 0x1, 0x0, 0x0, 0⟩,
  ⟨0x30100c, [(0x100, 8)], 0x0, 0x0, 0x0, 0x0, 0x0, 0⟩,
  ⟨0x301010, [(0x100, 8)], 0xffffffff, 0x0, 0x0, 0x0, 0x0, 1⟩,
  ⟨0x301014, [(0x100, 8)], 0xffffffff, 0x0, 0x0, 0x0, 0x0, 2⟩,
  ⟨0x301018, [(0x100, 8)], 0x0, 0x1, 0x0, 0x0, 0x0, 0⟩,
  ⟨0x30101c, [(0x100, 8)], 0x0, 0x0, 0x0, 0xffffffff, 0x0, 0⟩,
  ⟨0x302000, [(0x100, 16)], 0xff7, 0x0, 0x0, 0x0, 0x40, 0⟩,
  ⟨0x302004, [(0x100, 16)], 0x1fff, 0x0, 0x0, 0x0, 0x0, 0⟩,
  ⟨0x302008, [(0x100, 16)], 0xffffffff, 0x0, 0x0, 0x0, 0x0, 1⟩,
  ⟨0x30200c, [(0x100, 16)], 0xffff, 0x0, 0x0, 0x0, 0x0, 2⟩,
  ⟨0x302010, [(0x100, 16)], 0xffff, 0x0, 0x0, 0x0, 0x0, 0⟩,
  ⟨0x302014, [(0x100, 16)], 0xff, 0x0, 0x0, 0x0, 0x7f, 0⟩,
  ⟨0x302018, [(0x100, 16)], 0x0, 0x0, 0x7, 0x0, 0x0, 0⟩,
  ⟨0x30201c, [(0x100, 16)], 0x0, 0x0, 0x0, 0x0, 0x0, 0⟩,
  ⟨0x302020, [(0x100, 16)], 0xffffffff, 0x0, 0x0, 0x0, 0x0, 1⟩,
  ⟨0x302024, [(0x100, 16)], 0xffffffff, 0x0, 0x0, 0x0, 0x0, 2⟩,
  ⟨0x302028, [(0x100, 16)], 0x0, 0x0, 0x0, 0x0, 0x0, 0⟩,
  ⟨0x30202c, [(0x100, 16)], 0x0, 0x0, 0x0, 0x0, 0x0, 0⟩,
  ⟨0x302030, [(0x100, 16)], 0x0, 0x0, 0x0, 0x0, 0x0, 0⟩,
  ⟨0x302038, [(0x100, 16)], 0x0, 0x1, 0x0, 0x0, 0x0, 0⟩]

/-- Rows of the CHN window, part 1. -/
def rows3_1 : List RegRow := [
  ⟨0x30203c, [(0x100, 16)], 0x0, 0x0, 0x0, 0xffffffff, 0x0, 0⟩,
  ⟨0x308000, [(0x800, 8), (0x400, 2), (0x4, 128)], 0x3ffff, 0x0, 0x0, 0x0, 0x0, 0⟩,
  ⟨0x308200, [(0x800, 8), (0x400, 2)], 0x7f, 0x0, 0x0, 0x0, 0x0, 0⟩,
  ⟨0x30c000, [(0x400, 16), (0x4, 128)], 0x3ffff, 0x0, 0x0, 0x0, 0x0, 0⟩,
  ⟨0x30c200, [(0x400, 16), (0x4, 16)], 0x3ffff, 0x0, 0x0, 0x0, 0x0, 0⟩]

/-- The rows of the CHN window. -/
def rows3 : List RegRow := rows3_0 ++ rows3_1

/-- Rows of the XF window, part 0. -/
def rows4_0 : List RegRow := [
  ⟨0x400000, [], 0x0, 0x0, 0x0, 0x0, 0x1, 0⟩,
  ⟨0x400004, [], 0x0, 0x0, 0x0, 0x0, 0x1f400, 0⟩,
  ⟨0x400008, [], 0x0, 0x0, 0x0, 0x0, 0x10ffff, 0⟩,
  ⟨0x400010, [], 0xffffffff, 0x0, 0x0, 0x0, 0x0, 1⟩,
  ⟨0x400014, [], 0xffff, 0x0, 0x0, 0x0, 0x0, 2⟩,
  ⟨0x400018, [], 0xffffffff, 0x0, 0x0, 0x0, 0x0, 0⟩,
  ⟨0x400020, [], 0xffffffff, 0x0, 0x0, 0x0, 0x0, 1⟩,
  ⟨0x400024, [], 0xffffffff, 0x0, 0x0, 0x0, 0x0, 2⟩,
  ⟨0x400028, [], 0x0, 0x0, 0x3, 0x0, 0x0, 0⟩,
  ⟨0x40002c, [], 0x0, 0x0, 0x0, 0x0, 0xffff0000, 0⟩,
  ⟨0x400030, [], 0x0, 0x0, 0x0, 0x0, 0x0, 0⟩,
  ⟨0x400034, [], 0x0, 0x0, 0x0, 0x0, 0x0, 0⟩,
  ⟨0x400038, [], 0x0, 0x0, 0x0, 0x0, 0x0, 0⟩,
  ⟨0x400040, [(0x4, 4)], 0x0, 0x0, 0x0, 0x0, 0x0, 0⟩,
  ⟨0x400050, [], 0x0, 0x0, 0x0, 0x0, 0x0, 1⟩,
  ⟨0x400054, [], 0x0, 0x0, 0x0, 0x0, 0x0, 2⟩,
  ⟨0x400060, [], 0x0, 0xf, 0x0, 0x0, 0x0, 0⟩,
  ⟨0x400064, [], 0x0, 0x0, 0x0, 0x0, 0x0, 0⟩,
  ⟨0x400070, [], 0x0, 0x0, 0x0, 0xffffffff, 0x0, 0⟩,
  ⟨0x400074, [], 0x0, 0x0, 0x0, 0xffffffff, 0x0, 0⟩,
  ⟨0x400078, [], 0x0, 0x0, 0x0, 0xffffffff, 0x0, 0⟩,
  ⟨0x40007c, [], 0x0, 0x0, 0x0, 0xffffffff, 0x0, 0⟩,
  ⟨0x400080, [], 0x0, 0x0, 0x0, 0x0, 0x0, 1⟩,
  ⟨0x400084, [], 0x0, 0x0, 0x0, 0x0, 0x0, 2⟩,
  ⟨0x400100, [(0x4, 16)], 0xffffffff, 0x0, 0x0, 0x0, 0x0, 0⟩,
  ⟨0x400200, [], 0x0, 0x0, 0x0, 0x0, 0x0, 0⟩,
  ⟨0x400400, [(0x10, 16)], 0x0, 0x0, 0x0, 0x0, 0x1, 0⟩,
  ⟨0x400404, [(0x10, 16)], 0x0, 0x0, 0x0, 0x0, 0x0, 0⟩,
  ⟨0x410000, [(0x10, 4096)], 0x0, 0x0, 0x0, 0x0, 0x0, 0⟩,
  ⟨0x410004, [(0x10, 4096)], 0x0, 0x0, 0x0, 0x0, 0x0, 1⟩]

/-- Rows of the XF window, part 1. -/
def rows4_1 : List RegRow := [
  ⟨0x410008, [(0x10, 4096)], 0x0, 0x0, 0x0, 0x0, 0x0, 2⟩,
  ⟨0x41000c, [(0x10, 4096)], 0x0, 0x0, 0x0, 0xffffffff, 0x0, 0⟩]

/-- The rows of the XF window. -/
def rows4 : List RegRow := rows4_0 ++ rows4_1

/-- Rows of the DET and DEN window, part 0. -/
def rows5_0 : List RegRow := [
  ⟨0x500000, [], 0x0, 0x0, 0x0, 0x0, 0x1, 0⟩,
  ⟨0x500004, [], 0x0, 0x0, 0x0, 0x0, 0x0, 0⟩,
  ⟨0x500010, [], 0xf0fff, 0x0, 0x0, 0x0, 0x0, 0⟩,
  ⟨0x500018, [], 0xffffffff, 0x0, 0x0, 0x0, 0x0, 1⟩,
  ⟨0x50001c, [], 0xffffffff, 0x0, 0x0, 0x0, 0x0, 2⟩,
  ⟨0x500020, [], 0x0, 0x0, 0x1, 0x0, 0x0, 0⟩,
  ⟨0x500024, [], 0x0, 0x0, 0x0, 0x0, 0x0, 0⟩,
  ⟨0x500030, [], 0x0, 0x3, 0x0, 0x0, 0x0, 0⟩,
  ⟨0x500040, [], 0x0, 0x0, 0x0, 0xffffffff, 0x0, 0⟩,
  ⟨0x500044, [], 0x0, 0x0, 0x0, 0xffffffff, 0x0, 0⟩,
  ⟨0x500048, [], 0x0, 0x0, 0x0, 0x0, 0x0, 1⟩,
  ⟨0x50004c, [], 0x0, 0x0, 0x0, 0x0, 0x0, 2⟩,
  ⟨0x510000, [(0x4, 4096)], 0x0, 0x0, 0x0, 0x0, 0x0, 0⟩,
  ⟨0x580000, [], 0x0, 0x0, 0x0, 0x0, 0x1, 0⟩,
  ⟨0x580004, [], 0x0, 0x0, 0x0, 0x0, 0x0, 0⟩,
  ⟨0x580008, [(0x4, 4)], 0x0, 0x0, 0x0, 0x0, 0x0, 0⟩,
  ⟨0x580020, [], 0x10f, 0x0, 0x0, 0x0, 0x0, 0⟩,
  ⟨0x580028, [], 0xffffffff, 0x0, 0x0, 0x0, 0x0, 1⟩,
  ⟨0x58002c, [], 0xffff, 0x0, 0x0, 0x0, 0x0, 2⟩,
  ⟨0x580030, [], 0xffffffff, 0x0, 0x0, 0x0, 0x0, 1⟩,
  ⟨0x580034, [], 0xffffffff, 0x0, 0x0, 0x0, 0x0, 2⟩,
  ⟨0x580038, [], 0x0, 0x0, 0x3, 0x0, 0x0, 0⟩,
  ⟨0x58003c, [], 0x0, 0x0, 0x0, 0x0, 0x0, 0⟩,
  ⟨0x580040, [], 0x0, 0xf, 0x0, 0x0, 0x0, 0⟩,
  ⟨0x580050, [], 0x0, 0x0, 0x0, 0xffffffff, 0x0, 0⟩,
  ⟨0x580054, [], 0x0, 0x0, 0x0, 0xffffffff, 0x0, 0⟩,
  ⟨0x580058, [], 0x0, 0x0, 0x0, 0xffffffff, 0x0, 0⟩,
  ⟨0x58005c, [], 0x0, 0x0, 0x0, 0xffffffff, 0x0, 0⟩,
  ⟨0x581000, [(0x20, 16)], 0x0, 0x0, 0x0, 0x0, 0x0, 0⟩,
  ⟨0x581008, [(0x20, 16)], 0x0, 0x0, 0x0, 0x0, 0x0, 1⟩]

/-- Rows of the DET and DEN window, part 1. -/
def rows5_1 : List RegRow := [
  ⟨0x58100c, [(0x20, 16)], 0x0, 0x0, 0x0, 0x0, 0x0, 2⟩,
  ⟨0x581010, [(0x20, 16)], 0x0, 0x0, 0x0, 0x0, 0x0, 1⟩,
  ⟨0x581014, [(0x20, 16)], 0x0, 0x0, 0x0, 0x0, 0x0, 2⟩,
  ⟨0x581018, [(0x20, 16)], 0x0, 0x0, 0x0, 0xffffffff, 0x0, 0⟩,
  ⟨0x58101c, [(0x20, 16)], 0x0, 0x0, 0x0, 0xffffffff, 0x0, 0⟩]

/-- The rows of the DET and DEN window. -/
def rows5 : List RegRow := rows5_0 ++ rows5_1

/-- Rows of the TRG and ACQ window, part 0. -/
def rows6_0 : List RegRow := [
  ⟨0x600000, [], 0x0, 0x0, 0x0, 0x0, 0x1, 0⟩,
  ⟨0x600004, [], 0x0, 0x0, 0x0, 0x0, 0x0, 0⟩,
  ⟨0x600010, [], 0x0, 0x1f, 0x0, 0x0, 0x0, 0⟩,
  ⟨0x600020, [], 0x0, 0x0, 0x0, 0xffffffff, 0x0, 0⟩,
  ⟨0x600024, [], 0x0, 0x0, 0x0, 0xffffffff, 0x0, 0⟩,
  ⟨0x600028, [], 0x0, 0x0, 0x0, 0xffffffff, 0x0, 0⟩,
  ⟨0x60002c, [], 0x0, 0x0, 0x0, 0xffffffff, 0x0, 0⟩,
  ⟨0x600030, [], 0x0, 0x0, 0x0, 0xffffffff, 0x0, 0⟩,
  ⟨0x600040, [], 0x3f, 0x0, 0x0, 0x0, 0x0, 0⟩,
  ⟨0x600048, [], 0xffffffff, 0x0, 0x0, 0x0, 0x0, 1⟩,
  ⟨0x60004c, [], 0xffffffff, 0x0, 0x0, 0x0, 0x0, 2⟩,
  ⟨0x600050, [], 0x0, 0x0, 0x1, 0x0, 0x0, 0⟩,
  ⟨0x600054, [], 0x0, 0x0, 0x0, 0x0, 0x0, 0⟩,
  ⟨0x600060, [], 0x0, 0x0, 0x0, 0x0, 0x0, 1⟩,
  ⟨0x600064, [], 0x0, 0x0, 0x0, 0x0, 0x0, 2⟩,
  ⟨0x601000, [(0x40, 64)], 0x77f, 0x0, 0x0, 0x0, 0x220, 0⟩,
  ⟨0x601004, [(0x40, 64)], 0xffffffff, 0x0, 0x0, 0x0, 0x0, 0⟩,
  ⟨0x601008, [(0x40, 64)], 0xffffffff, 0x0, 0x0, 0x0, 0x0, 0⟩,
  ⟨0x60100c, [(0x40, 64)], 0xffffffff, 0x0, 0x0, 0x0, 0x0, 0⟩,
  ⟨0x601010, [(0x40, 64)], 0xffffffff, 0x0, 0x0, 0x0, 0x0, 0⟩,
  ⟨0x601014, [(0x40, 64)], 0xffffffff, 0x0, 0x0, 0x0, 0x0, 0⟩,
  ⟨0x601018, [(0x40, 64)], 0xfff, 0x0, 0x0, 0x0, 0x0, 0⟩,
  ⟨0x60101c, [(0x40, 64)], 0x0, 0x0, 0x3, 0x0, 0x0, 0⟩,
  ⟨0x601020, [(0x40, 64)], 0x0, 0x0, 0x0, 0x0, 0x0, 0⟩,
  ⟨0x601028, [(0x40, 64)], 0xffffffff, 0x0, 0x0, 0x0, 0x0, 1⟩,
  ⟨0x60102c, [(0x40, 64)], 0xffffffff, 0x0, 0x0, 0x0, 0x0, 2⟩,
  ⟨0x601030, [(0x40, 64)], 0x0, 0x0, 0x0, 0x0, 0x0, 1⟩,
  ⟨0x601034, [(0x40, 64)], 0x0, 0x0, 0x0, 0x0, 0x0, 2⟩,
  ⟨0x601038, [(0x40, 64)], 0x0, 0x0, 0x0, 0xffffffff, 0x0, 0⟩,
  ⟨0x680000, [], 0x0, 0x0, 0x0, 0x0, 0x1, 0⟩]

/-- Rows of the TRG and ACQ window, part 1. -/
def rows6_1 : List RegRow := [
  ⟨0x680004, [], 0xffffffff, 0x0, 0x0, 0x0, 0x2710, 0⟩,
  ⟨0x680010, [], 0x0, 0xf, 0x0, 0x0, 0x0, 0⟩,
  ⟨0x680020, [], 0x0, 0x0, 0x0, 0xffffffff, 0x0, 0⟩,
  ⟨0x680024, [], 0x0, 0x0, 0x0, 0xffffffff, 0x0, 0⟩,
  ⟨0x680028, [], 0x0, 0x0, 0x0, 0xffffffff, 0x0, 0⟩,
  ⟨0x68002c, [], 0x0, 0x0, 0x0, 0xffffffff, 0x0, 0⟩,
  ⟨0x690000, [(0x80, 64)], 0xfff, 0x0, 0x0, 0x0, 0x0, 0⟩,
  ⟨0x690004, [(0x80, 64)], 0xfff0fff, 0x0, 0x0, 0x0, 0x0, 0⟩,
  ⟨0x690008, [(0x80, 64)], 0xffffffff, 0x0, 0x0, 0x0, 0x0, 1⟩,
  ⟨0x69000c, [(0x80, 64)], 0xffff, 0x0, 0x0, 0x0, 0x0, 2⟩,
  ⟨0x690010, [(0x80, 64)], 0xffffffff, 0x0, 0x0, 0x0, 0x0, 1⟩,
  ⟨0x690014, [(0x80, 64)], 0xffffffff, 0x0, 0x0, 0x0, 0x0, 2⟩,
  ⟨0x690018, [(0x80, 64)], 0xffffffff, 0x0, 0x0, 0x0, 0x0, 1⟩,
  ⟨0x69001c, [(0x80, 64)], 0xffffffff, 0x0, 0x0, 0x0, 0x0, 2⟩,
  ⟨0x690020, [(0x80, 64)], 0xffffffff, 0x0, 0x0, 0x0, 0x0, 1⟩,
  ⟨0x690024, [(0x80, 64)], 0xffffffff, 0x0, 0x0, 0x0, 0x0, 2⟩,
  ⟨0x690028, [(0x80, 64)], 0xffffffff, 0x0, 0x0, 0x0, 0x0, 1⟩,
  ⟨0x69002c, [(0x80, 64)], 0xffffffff, 0x0, 0x0, 0x0, 0x0, 2⟩,
  ⟨0x690030, [(0x80, 64)], 0xffffffff, 0x0, 0x0, 0x0, 0x0, 1⟩,
  ⟨0x690034, [(0x80, 64)], 0xffffffff, 0x0, 0x0, 0x0, 0x0, 2⟩,
  ⟨0x690038, [(0x80, 64)], 0x3ff, 0x0, 0x0, 0x0, 0x3ff, 0⟩,
  ⟨0x69003c, [(0x80, 64)], 0x0, 0x0, 0x7, 0x0, 0x0, 0⟩,
  ⟨0x690040, [(0x80, 64)], 0x0, 0x0, 0x0, 0x0, 0x0, 0⟩,
  ⟨0x690048, [(0x80, 64)], 0x0, 0x0, 0x0, 0x0, 0x0, 1⟩,
  ⟨0x69004c, [(0x80, 64)], 0x0, 0x0, 0x0, 0x0, 0x0, 2⟩,
  ⟨0x690050, [(0x80, 64)], 0x0, 0x0, 0x0, 0x0, 0x0, 1⟩,
  ⟨0x690054, [(0x80, 64)], 0x0, 0x0, 0x0, 0x0, 0x0, 2⟩,
  ⟨0x690058, [(0x80, 64)], 0x0, 0x0, 0x0, 0xffffffff, 0x0, 0⟩,
  ⟨0x69005c, [(0x80, 64)], 0x0, 0x0, 0x0, 0xffffffff, 0x0, 0⟩]

/-- The rows of the TRG and ACQ window. -/
def rows6 : List RegRow := rows6_0 ++ rows6_1

/-- Rows of the QUE window, part 0. -/
def rows7_0 : List RegRow := [
  ⟨0x700000, [], 0x0, 0x0, 0x0, 0x0, 0x1, 0⟩,
  ⟨0x700004, [], 0x0, 0x0, 0x0, 0x0, 0x0, 0⟩,
  ⟨0x700010, [], 0x0, 0x7, 0x0, 0x0, 0x0, 0⟩,
  ⟨0x700020, [], 0x0, 0x0, 0x0, 0xffffffff, 0x0, 0⟩,
  ⟨0x700024, [], 0x0, 0x0, 0x0, 0xffffffff, 0x0, 0⟩,
  ⟨0x700028, [], 0x0, 0x0, 0x0, 0xffffffff, 0x0, 0⟩,
  ⟨0x700040, [], 0x0, 0x0, 0x0, 0x0, 0x0, 0⟩,
  ⟨0x710000, [(0x40, 4096)], 0x3ff, 0x0, 0x0, 0x0, 0x0, 0⟩,
  ⟨0x710004, [(0x40, 4096)], 0x1ffffff, 0x0, 0x0, 0x0, 0x0, 0⟩,
  ⟨0x710008, [(0x40, 4096)], 0xffffffff, 0x0, 0x0, 0x0, 0x0, 1⟩,
  ⟨0x71000c, [(0x40, 4096)], 0xffff, 0x0, 0x0, 0x0, 0x0, 2⟩,
  ⟨0x710010, [(0x40, 4096)], 0x0, 0x0, 0x3, 0x0, 0x0, 0⟩,
  ⟨0x710014, [(0x40, 4096)], 0x0, 0x0, 0x0, 0x0, 0x0, 0⟩,
  ⟨0x710018, [(0x40, 4096)], 0x1ffffff, 0x0, 0x0, 0x0, 0x1, 0⟩,
  ⟨0x71001c, [(0x40, 4096)], 0x7ff, 0x0, 0x10000, 0x0, 0x0, 0⟩,
  ⟨0x710020, [(0x40, 4096)], 0x0, 0x0, 0x0, 0x0, 0x0, 0⟩,
  ⟨0x710024, [(0x40, 4096)], 0x0, 0x0, 0x0, 0x0, 0x0, 0⟩,
  ⟨0x710028, [(0x40, 4096)], 0x0, 0x0, 0x0, 0x0, 0x0, 0⟩,
  ⟨0x71002c, [(0x40, 4096)], 0x0, 0x0, 0x0, 0xffffffff, 0x0, 0⟩,
  ⟨0x710030, [(0x40, 4096)], 0x0, 0x0, 0x0, 0x0, 0x0, 1⟩,
  ⟨0x710034, [(0x40, 4096)], 0x0, 0x0, 0x0, 0x0, 0x0, 2⟩,
  ⟨0x710038, [(0x40, 4096)], 0x0, 0x0, 0x0, 0x1ffffff, 0x0, 0⟩]

/-- The rows of the QUE window. -/
def rows7 : List RegRow := rows7_0

/-- Rows of the CMP window, part 0. -/
def rows8_0 : List RegRow := [
  ⟨0x800000, [], 0x0, 0x0, 0x0, 0x0, 0x1, 0⟩,
  ⟨0x800004, [], 0x0, 0x0, 0x0, 0x0, 0x0, 0⟩,
  ⟨0x800008, [], 0x0, 0x0, 0x0, 0x0, 0x0, 0⟩,
  ⟨0x800010, [], 0x0, 0xf, 0x0, 0x0, 0x0, 0⟩,
  ⟨0x800020, [], 0x0, 0x0, 0x0, 0xffffffff, 0x0, 0⟩,
  ⟨0x800024, [], 0x0, 0x0, 0x0, 0xffffffff, 0x0, 0⟩,
  ⟨0x800028, [], 0x0, 0x0, 0x0, 0xffffffff, 0x0, 0⟩,
  ⟨0x80002c, [], 0x0, 0x0, 0x0, 0xffffffff, 0x0, 0⟩,
  ⟨0x800040, [], 0x0, 0x0, 0x0, 0x0, 0x0, 1⟩,
  ⟨0x800044, [], 0x0, 0x0, 0x0, 0x0, 0x0, 2⟩,
  ⟨0x800048, [], 0x0, 0x0, 0x0, 0x0, 0x0, 1⟩,
  ⟨0x80004c, [], 0x0, 0x0, 0x0, 0x0, 0x0, 2⟩,
  ⟨0x801040, [(0x80, 32)], 0x0, 0x0, 0x7, 0x0, 0x0, 0⟩,
  ⟨0x801044, [(0x80, 32)], 0x0, 0x0, 0x0, 0x0, 0x0, 0⟩,
  ⟨0x801048, [(0x80, 32)], 0xffffffff, 0x0, 0x0, 0x0, 0x0, 1⟩,
  ⟨0x80104c, [(0x80, 32)], 0xffff, 0x0, 0x0, 0x0, 0x0, 2⟩,
  ⟨0x801050, [(0x80, 32)], 0xffffffff, 0x0, 0x0, 0x0, 0x0, 0⟩,
  ⟨0x801058, [(0x80, 32)], 0x0, 0x0, 0x0, 0x0, 0x0, 1⟩,
  ⟨0x80105c, [(0x80, 32)], 0x0, 0x0, 0x0, 0x0, 0x0, 2⟩,
  ⟨0x801060, [(0x80, 32)], 0x0, 0x0, 0x0, 0x0, 0x0, 1⟩,
  ⟨0x801064, [(0x80, 32)], 0x0, 0x0, 0x0, 0x0, 0x0, 2⟩,
  ⟨0x801068, [(0x80, 32)], 0x0, 0x0, 0x0, 0x0, 0x0, 0⟩,
  ⟨0x804040, [(0x80, 8)], 0x0, 0x0, 0x3, 0x0, 0x0, 0⟩,
  ⟨0x804044, [(0x80, 8)], 0x0, 0x0, 0x0, 0x0, 0x0, 0⟩,
  ⟨0x804058, [(0x80, 8)], 0x0, 0x0, 0x0, 0x0, 0x0, 1⟩,
  ⟨0x80405c, [(0x80, 8)], 0x0, 0x0, 0x0, 0x0, 0x0, 2⟩,
  ⟨0x804060, [(0x80, 8)], 0x0, 0x0, 0x0, 0x0, 0x0, 1⟩,
  ⟨0x804064, [(0x80, 8)], 0x0, 0x0, 0x0, 0x0, 0x0, 2⟩,
  ⟨0x804068, [(0x80, 8)], 0x0, 0x0, 0x0, 0x0, 0x0, 0⟩,
  ⟨0x801000, [(0x80, 32), (0x4, 16)], 0xffffffff, 0x0, 0x0, 0x0, 0x0, 0⟩]

/-- Rows of the CMP window, part 1. -/
def rows8_1 : List RegRow := [
  ⟨0x804000, [(0x80, 8), (0x4, 16)], 0xffffffff, 0x0, 0x0, 0x0, 0x0, 0⟩]

/-- The rows of the CMP window. -/
def rows8 : List RegRow := rows8_0 ++ rows8_1

/-- Rows of the MEM window, part 0. -/
def rows9_0 : List RegRow := [
  ⟨0x900000, [], 0x0, 0x0, 0x0, 0x0, 0x1, 0⟩,
  ⟨0x900004, [], 0x0, 0x0, 0x0, 0x0, 0x0, 0⟩,
  ⟨0x900010, [], 0x0, 0x1f, 0x0, 0x0, 0x0, 0⟩,
  ⟨0x900020, [], 0x0, 0x0, 0x0, 0xffffffff, 0x0, 0⟩,
  ⟨0x900024, [], 0x0, 0x0, 0x0, 0xffffffff, 0x0, 0⟩,
  ⟨0x900028, [], 0x0, 0x0, 0x0, 0xffffffff, 0x0, 0⟩,
  ⟨0x90002c, [], 0x0, 0x0, 0x0, 0xffffffff, 0x0, 0⟩,
  ⟨0x900030, [], 0x0, 0x0, 0x0, 0xffffffff, 0x0, 0⟩,
  ⟨0x900034, [], 0x0, 0x0, 0x0, 0xffffffff, 0x0, 0⟩,
  ⟨0x900038, [], 0x0, 0x0, 0x0, 0xffffffff, 0x0, 0⟩,
  ⟨0x90003c, [], 0x0, 0x0, 0x0, 0xffffffff, 0x0, 0⟩,
  ⟨0x900040, [], 0xffff, 0x0, 0x0, 0x0, 0x7d0, 0⟩,
  ⟨0x900044, [], 0xffffffff, 0x0, 0x0, 0x0, 0x0, 0⟩,
  ⟨0x900048, [], 0xffffffff, 0x0, 0x0, 0x0, 0x0, 0⟩,
  ⟨0x90004c, [], 0x3fffff, 0x0, 0x0, 0x0, 0x0, 0⟩,
  ⟨0x900050, [], 0x1ffff, 0x0, 0x0, 0x0, 0x10018, 0⟩,
  ⟨0x900058, [], 0x0, 0x0, 0x0, 0x0, 0x0, 1⟩,
  ⟨0x90005c, [], 0x0, 0x0, 0x0, 0x0, 0x0, 2⟩,
  ⟨0x900060, [], 0xff03, 0x0, 0x0, 0x0, 0x1003, 0⟩,
  ⟨0x900068, [], 0xffffffff, 0x0, 0x0, 0x0, 0x0, 1⟩,
  ⟨0x90006c, [], 0xffff, 0x0, 0x0, 0x0, 0x0, 2⟩,
  ⟨0x900070, [], 0x0, 0x0, 0x3, 0x0, 0x0, 0⟩,
  ⟨0x900074, [], 0x0, 0x0, 0x0, 0x0, 0x0, 0⟩,
  ⟨0x900078, [], 0x0, 0x0, 0x0, 0x0, 0x0, 0⟩,
  ⟨0x900080, [], 0xffffffff, 0x0, 0x0, 0x0, 0x0, 1⟩,
  ⟨0x900084, [], 0xffffffff, 0x0, 0x0, 0x0, 0x0, 2⟩,
  ⟨0x900088, [], 0x0, 0x0, 0x0, 0x0, 0x0, 0⟩,
  ⟨0x90008c, [], 0x800007ff, 0x0, 0x0, 0x0, 0x0, 0⟩,
  ⟨0x900090, [], 0x0, 0x0, 0x0, 0x0, 0x0, 0⟩,
  ⟨0x900094, [], 0xffffffff, 0x0, 0x0, 0x0, 0x0, 0⟩]

/-- Rows of the MEM window, part 1. -/
def rows9_1 : List RegRow := [
  ⟨0x900100, [(0x4, 7)], 0x0, 0x0, 0x0, 0x0, 0x0, 0⟩,
  ⟨0x900120, [(0x4, 7)], 0x0, 0x0, 0x0, 0x0, 0x0, 0⟩,
  ⟨0x900200, [(0x10, 2)], 0x0, 0x0, 0x0, 0x0, 0x0, 0⟩,
  ⟨0x900400, [(0x4, 64)], 0x0, 0x0, 0x0, 0x0, 0x0, 0⟩,
  ⟨0x901000, [(0x20, 16)], 0x0, 0x0, 0x0, 0x0, 0x0, 1⟩,
  ⟨0x901004, [(0x20, 16)], 0x0, 0x0, 0x0, 0x0, 0x0, 2⟩,
  ⟨0x901008, [(0x20, 16)], 0x0, 0x0, 0x0, 0x0, 0x0, 1⟩,
  ⟨0x90100c, [(0x20, 16)], 0x0, 0x0, 0x0, 0x0, 0x0, 2⟩,
  ⟨0x901010, [(0x20, 16)], 0x0, 0x0, 0x0, 0x0, 0x0, 0⟩]

/-- The rows of the MEM window. -/
def rows9 : List RegRow := rows9_0 ++ rows9_1

/-- Rows of the HIF and DMA window, part 0. -/
def rows10_0 : List RegRow := [
  ⟨0xa00000, [], 0x0, 0x0, 0x0, 0x0, 0x1, 0⟩,
  ⟨0xa00004, [], 0x0, 0x0, 0x0, 0x0, 0x0, 0⟩,
  ⟨0xa00008, [], 0x1, 0x0, 0x0, 0x0, 0x1, 0⟩,
  ⟨0xa00010, [], 0x0, 0x1f, 0x0, 0x0, 0x0, 0⟩,
  ⟨0xa00020, [], 0x0, 0x0, 0x0, 0xffffffff, 0x0, 0⟩,
  ⟨0xa00024, [], 0x0, 0x0, 0x0, 0xffffffff, 0x0, 0⟩,
  ⟨0xa00028, [], 0x0, 0x0, 0x0, 0xffffffff, 0x0, 0⟩,
  ⟨0xa0002c, [], 0x0, 0x0, 0x0, 0xffffffff, 0x0, 0⟩,
  ⟨0xa00030, [], 0x0, 0x0, 0x0, 0xffffffff, 0x0, 0⟩,
  ⟨0xa00040, [], 0x0, 0x0, 0x0, 0x0, 0x0, 1⟩,
  ⟨0xa00044, [], 0x0, 0x0, 0x0, 0x0, 0x0, 2⟩,
  ⟨0xa00048, [], 0x0, 0x0, 0x0, 0x0, 0x0, 1⟩,
  ⟨0xa0004c, [], 0x0, 0x0, 0x0, 0x0, 0x0, 2⟩,
  ⟨0xa00050, [], 0x0, 0x0, 0x0, 0x0, 0x0, 0⟩,
  ⟨0xa80000, [], 0x0, 0x0, 0x0, 0x0, 0x1, 0⟩,
  ⟨0xa80010, [], 0x0, 0x7, 0x0, 0x0, 0x0, 0⟩,
  ⟨0xa80020, [], 0x0, 0x0, 0x0, 0xffffffff, 0x0, 0⟩,
  ⟨0xa80024, [], 0x0, 0x0, 0x0, 0xffffffff, 0x0, 0⟩,
  ⟨0xa80028, [], 0x0, 0x0, 0x0, 0xffffffff, 0x0, 0⟩,
  ⟨0xa80040, [], 0xff, 0x0, 0x300, 0x0, 0x0, 0⟩,
  ⟨0xa80044, [], 0x0, 0x0, 0x0, 0x0, 0x0, 0⟩,
  ⟨0xa81000, [(0x20, 256)], 0xfff001e, 0x0, 0x0, 0x0, 0x0, 0⟩,
  ⟨0xa81008, [(0x20, 256)], 0xffffffff, 0x0, 0x0, 0x0, 0x0, 1⟩,
  ⟨0xa8100c, [(0x20, 256)], 0xffffffff, 0x0, 0x0, 0x0, 0x0, 2⟩,
  ⟨0xa81010, [(0x20, 256)], 0xffffffff, 0x0, 0x0, 0x0, 0x0, 1⟩,
  ⟨0xa81014, [(0x20, 256)], 0xffffffff, 0x0, 0x0, 0x0, 0x0, 2⟩,
  ⟨0xa81018, [(0x20, 256)], 0xffffffff, 0x0, 0x0, 0x0, 0x0, 1⟩,
  ⟨0xa8101c, [(0x20, 256)], 0xffffffff, 0x0, 0x0, 0x0, 0x0, 2⟩,
  ⟨0xa90000, [(0x80, 64)], 0x7ff001d, 0x0, 0x0, 0x0, 0x0, 0⟩,
  ⟨0xa90008, [(0x80, 64)], 0xffffffff, 0x0, 0x0, 0x0, 0x0, 1⟩]

/-- Rows of the HIF and DMA window, part 1. -/
def rows10_1 : List RegRow := [
  ⟨0xa9000c, [(0x80, 64)], 0xffffffff, 0x0, 0x0, 0x0, 0x0, 2⟩,
  ⟨0xa90010, [(0x80, 64)], 0x1ffff, 0x0, 0x0, 0x0, 0x0, 0⟩,
  ⟨0xa90014, [(0x80, 64)], 0xffff, 0x0, 0x0, 0x0, 0x0, 0⟩,
  ⟨0xa90018, [(0x80, 64)], 0x0, 0x0, 0x0, 0x0, 0x0, 0⟩,
  ⟨0xa9001c, [(0x80, 64)], 0x0, 0x0, 0x1, 0x0, 0x0, 0⟩,
  ⟨0xa90020, [(0x80, 64)], 0x0, 0x0, 0x0, 0x0, 0x0, 0⟩,
  ⟨0xa90028, [(0x80, 64)], 0x0, 0x0, 0x0, 0x0, 0x0, 1⟩,
  ⟨0xa9002c, [(0x80, 64)], 0x0, 0x0, 0x0, 0x0, 0x0, 2⟩,
  ⟨0xa90030, [(0x80, 64)], 0x0, 0x0, 0x0, 0xffffffff, 0x0, 0⟩,
  ⟨0xa90034, [(0x80, 64)], 0x0, 0x0, 0x0, 0xffffffff, 0x0, 0⟩,
  ⟨0xa10000, [(0x10, 2048)], 0xfffffffc, 0x0, 0x0, 0x0, 0x0, 0⟩,
  ⟨0xa10004, [(0x10, 2048)], 0xffffffff, 0x0, 0x0, 0x0, 0x0, 0⟩,
  ⟨0xa10008, [(0x10, 2048)], 0xffffffff, 0x0, 0x0, 0x0, 0x0, 0⟩,
  ⟨0xa1000c, [(0x10, 2048)], 0x1, 0x0, 0x0, 0x0, 0x1, 0⟩,
  ⟨0xa18000, [(0x4, 64)], 0x0, 0x0, 0x0, 0x0, 0x0, 0⟩]

/-- The rows of the HIF and DMA window. -/
def rows10 : List RegRow := rows10_0 ++ rows10_1

/-- Rows of the EVT window, part 0. -/
def rows11_0 : List RegRow := [
  ⟨0xb00000, [], 0x0, 0x0, 0x0, 0x0, 0x1, 0⟩,
  ⟨0xb00008, [], 0x0, 0x0, 0x0, 0x0, 0x0, 1⟩,
  ⟨0xb0000c, [], 0x0, 0x0, 0x0, 0x0, 0x0, 2⟩,
  ⟨0xb00010, [], 0x0, 0x0, 0x0, 0x0, 0x0, 0⟩,
  ⟨0xb00014, [], 0x0, 0x1f, 0x0, 0x0, 0x0, 0⟩,
  ⟨0xb00020, [], 0x0, 0x0, 0x0, 0xffffffff, 0x0, 0⟩,
  ⟨0xb00024, [], 0x0, 0x0, 0x0, 0xffffffff, 0x0, 0⟩,
  ⟨0xb00028, [], 0x0, 0x0, 0x0, 0xffffffff, 0x0, 0⟩,
  ⟨0xb0002c, [], 0x0, 0x0, 0x0, 0xffffffff, 0x0, 0⟩,
  ⟨0xb00030, [], 0x0, 0x0, 0x0, 0xffffffff, 0x0, 0⟩,
  ⟨0xb00040, [], 0xffffffff, 0x0, 0x0, 0x0, 0x0, 1⟩,
  ⟨0xb00044, [], 0xffffffff, 0x0, 0x0, 0x0, 0x0, 2⟩,
  ⟨0xb00048, [], 0xffff, 0x0, 0x0, 0x0, 0x0, 0⟩,
  ⟨0xb0004c, [], 0x0, 0x0, 0x1, 0x0, 0x0, 0⟩,
  ⟨0xb00050, [], 0x0, 0x0, 0x0, 0x0, 0x0, 0⟩,
  ⟨0xb01000, [(0x40, 16)], 0xf, 0x0, 0x0, 0x0, 0x0, 0⟩,
  ⟨0xb01004, [(0x40, 16)], 0x7fff, 0x0, 0x0, 0x0, 0x320, 0⟩,
  ⟨0xb01008, [(0x40, 16)], 0xffffffff, 0x0, 0x0, 0x0, 0x0, 0⟩,
  ⟨0xb0100c, [(0x40, 16)], 0x3ff0fff, 0x0, 0x0, 0x0, 0xf80000, 0⟩,
  ⟨0xb01010, [(0x40, 16)], 0xffffffff, 0x0, 0x0, 0x0, 0x2710, 0⟩,
  ⟨0xb01014, [(0x40, 16)], 0x0, 0x0, 0x3, 0x0, 0x0, 0⟩,
  ⟨0xb01018, [(0x40, 16)], 0x0, 0x0, 0x0, 0x0, 0x10, 0⟩,
  ⟨0xb01020, [(0x40, 16)], 0x0, 0x0, 0x0, 0x0, 0x0, 1⟩,
  ⟨0xb01024, [(0x40, 16)], 0x0, 0x0, 0x0, 0x0, 0x0, 2⟩,
  ⟨0xb01028, [(0x40, 16)], 0x0, 0x0, 0x0, 0x0, 0x0, 1⟩,
  ⟨0xb0102c, [(0x40, 16)], 0x0, 0x0, 0x0, 0x0, 0x0, 2⟩,
  ⟨0xb01030, [(0x40, 16)], 0x0, 0x0, 0x0, 0xffffffff, 0x0, 0⟩,
  ⟨0xb01034, [(0x40, 16)], 0x0, 0x0, 0x0, 0xffffffff, 0x0, 0⟩,
  ⟨0xb02000, [(0x80, 8)], 0x7ff, 0x0, 0x0, 0x0, 0x0, 0⟩,
  ⟨0xb02004, [(0x80, 8)], 0x1ffffff, 0x0, 0x0, 0x0, 0x0, 0⟩]

/-- Rows of the EVT window, part 1. -/
def rows11_1 : List RegRow := [
  ⟨0xb02008, [(0x80, 8)], 0xffffffff, 0x0, 0x0, 0x0, 0x0, 0⟩,
  ⟨0xb0200c, [(0x80, 8)], 0x10fff, 0x0, 0x0, 0x0, 0x0, 0⟩,
  ⟨0xb02010, [(0x80, 8)], 0xffffffff, 0x0, 0x0, 0x0, 0x0, 1⟩,
  ⟨0xb02014, [(0x80, 8)], 0xffffffff, 0x0, 0x0, 0x0, 0x0, 2⟩,
  ⟨0xb02018, [(0x80, 8)], 0x0, 0x0, 0x3, 0x0, 0x0, 0⟩,
  ⟨0xb0201c, [(0x80, 8)], 0x0, 0x0, 0x0, 0x0, 0x0, 0⟩,
  ⟨0xb02020, [(0x80, 8)], 0x0, 0x0, 0x0, 0x0, 0x0, 1⟩,
  ⟨0xb02024, [(0x80, 8)], 0x0, 0x0, 0x0, 0x0, 0x0, 2⟩,
  ⟨0xb02028, [(0x80, 8)], 0x0, 0x0, 0x0, 0x0, 0x0, 1⟩,
  ⟨0xb0202c, [(0x80, 8)], 0x0, 0x0, 0x0, 0x0, 0x0, 2⟩,
  ⟨0xb02030, [(0x80, 8)], 0x0, 0x0, 0x0, 0x0, 0x0, 1⟩,
  ⟨0xb02034, [(0x80, 8)], 0x0, 0x0, 0x0, 0x0, 0x0, 2⟩,
  ⟨0xb02038, [(0x80, 8)], 0x0, 0x0, 0x0, 0x0, 0x0, 1⟩,
  ⟨0xb0203c, [(0x80, 8)], 0x0, 0x0, 0x0, 0x0, 0x0, 2⟩,
  ⟨0xb02040, [(0x80, 8)], 0x0, 0x0, 0x0, 0xffffffff, 0x0, 0⟩]

/-- The rows of the EVT window. -/
def rows11 : List RegRow := rows11_0 ++ rows11_1

/-- Rows of the MON and CAL window, part 0. -/
def rows12_0 : List RegRow := [
  ⟨0xc00000, [], 0x0, 0x0, 0x0, 0x0, 0x1, 0⟩,
  ⟨0xc00004, [], 0x1, 0x0, 0x0, 0x0, 0x0, 0⟩,
  ⟨0xc00010, [], 0x0, 0xf, 0x0, 0x0, 0x0, 0⟩,
  ⟨0xc00020, [], 0x0, 0x0, 0x0, 0xffffffff, 0x0, 0⟩,
  ⟨0xc00024, [], 0x0, 0x0, 0x0, 0xffffffff, 0x0, 0⟩,
  ⟨0xc00028, [], 0x0, 0x0, 0x0, 0xffffffff, 0x0, 0⟩,
  ⟨0xc0002c, [], 0x0, 0x0, 0x0, 0xffffffff, 0x0, 0⟩,
  ⟨0xc00030, [], 0x0, 0x0, 0x0, 0x0, 0x0, 1⟩,
  ⟨0xc00034, [], 0x0, 0x0, 0x0, 0x0, 0x0, 2⟩,
  ⟨0xc00040, [(0x4, 4)], 0xffffffff, 0x0, 0x0, 0x0, 0x20000, 0⟩,
  ⟨0xc01000, [(0x800, 8)], 0x3, 0x0, 0x0, 0x0, 0x0, 0⟩,
  ⟨0xc01004, [(0x800, 8)], 0xfff, 0x0, 0x0, 0x0, 0x0, 0⟩,
  ⟨0xc01008, [(0x800, 8)], 0xffffffff, 0x0, 0x0, 0x0, 0x0, 0⟩,
  ⟨0xc0100c, [(0x800, 8)], 0x73f, 0x0, 0x0, 0x0, 0x0, 0⟩,
  ⟨0xc01010, [(0x800, 8)], 0xffffffff, 0x0, 0x0, 0x0, 0x0, 1⟩,
  ⟨0xc01014, [(0x800, 8)], 0xffffffff, 0x0, 0x0, 0x0, 0x0, 2⟩,
  ⟨0xc01018, [(0x800, 8)], 0x0, 0x0, 0x1f, 0x0, 0x0, 0⟩,
  ⟨0xc0101c, [(0x800, 8)], 0x0, 0x0, 0x0, 0x0, 0x0, 0⟩,
  ⟨0xc01020, [(0x800, 8)], 0x3f03, 0x0, 0x0, 0x0, 0x0, 0⟩,
  ⟨0xc01024, [(0x800, 8)], 0x0, 0x0, 0x0, 0x0, 0x0, 0⟩,
  ⟨0xc01028, [(0x800, 8)], 0x0, 0x0, 0x0, 0x0, 0x0, 1⟩,
  ⟨0xc0102c, [(0x800, 8)], 0x0, 0x0, 0x0, 0x0, 0x0, 2⟩,
  ⟨0xc01200, [(0x800, 8), (0x10, 36)], 0x0, 0x0, 0x0, 0x0, 0x0, 0⟩,
  ⟨0xc01204, [(0x800, 8), (0x10, 36)], 0x0, 0x0, 0x0, 0x0, 0x0, 0⟩,
  ⟨0xc01208, [(0x800, 8), (0x10, 36)], 0x0, 0x0, 0x0, 0x0, 0x0, 1⟩,
  ⟨0xc0120c, [(0x800, 8), (0x10, 36)], 0x0, 0x0, 0x0, 0x0, 0x0, 2⟩,
  ⟨0xc80000, [], 0x0, 0x0, 0x0, 0x0, 0x1, 0⟩,
  ⟨0xc80004, [], 0xfffff, 0x0, 0x0, 0x0, 0x0, 0⟩,
  ⟨0xc80010, [], 0x0, 0x7, 0x0, 0x0, 0x0, 0⟩,
  ⟨0xc80020, [], 0x0, 0x0, 0x0, 0xffffffff, 0x0, 0⟩]

/-- Rows of the MON and CAL window, part 1. -/
def rows12_1 : List RegRow := [
  ⟨0xc80024, [], 0x0, 0x0, 0x0, 0xffffffff, 0x0, 0⟩,
  ⟨0xc80028, [], 0x0, 0x0, 0x0, 0xffffffff, 0x0, 0⟩,
  ⟨0xc81000, [(0x20, 64)], 0x0, 0x0, 0x0, 0x0, 0x0, 0⟩,
  ⟨0xc81008, [(0x20, 64)], 0x0, 0x0, 0x0, 0x0, 0x0, 1⟩,
  ⟨0xc8100c, [(0x20, 64)], 0x0, 0x0, 0x0, 0x0, 0x0, 2⟩,
  ⟨0xc81010, [(0x20, 64)], 0x0, 0x0, 0x0, 0x0, 0x0, 0⟩,
  ⟨0xc81014, [(0x20, 64)], 0x0, 0x0, 0x0, 0x0, 0x0, 0⟩,
  ⟨0xc01100, [(0x800, 8), (0x4, 32)], 0xffffffff, 0x0, 0x0, 0x0, 0x0, 0⟩,
  ⟨0xc01180, [(0x800, 8), (0x4, 4)], 0xffffffff, 0x0, 0x0, 0x0, 0x0, 0⟩]

/-- The rows of the MON and CAL window. -/
def rows12 : List RegRow := rows12_0 ++ rows12_1

/-- Rows of the ROT and BST window, part 0. -/
def rows13_0 : List RegRow := [
  ⟨0xd00000, [], 0x0, 0x0, 0x0, 0x0, 0x1, 0⟩,
  ⟨0xd00004, [], 0x1, 0x0, 0x0, 0x0, 0x1, 0⟩,
  ⟨0xd00010, [], 0x0, 0x3f, 0x0, 0x0, 0x0, 0⟩,
  ⟨0xd00020, [], 0x0, 0x0, 0x0, 0xffffffff, 0x0, 0⟩,
  ⟨0xd00024, [], 0x0, 0x0, 0x0, 0xffffffff, 0x0, 0⟩,
  ⟨0xd00028, [], 0x0, 0x0, 0x0, 0xffffffff, 0x0, 0⟩,
  ⟨0xd0002c, [], 0x0, 0x0, 0x0, 0xffffffff, 0x0, 0⟩,
  ⟨0xd00030, [], 0x0, 0x0, 0x0, 0xffffffff, 0x0, 0⟩,
  ⟨0xd00034, [], 0x0, 0x0, 0x0, 0xffffffff, 0x0, 0⟩,
  ⟨0xd00038, [], 0x0, 0x0, 0x0, 0xffffffff, 0x0, 0⟩,
  ⟨0xd0003c, [], 0x0, 0x0, 0x0, 0xffffffff, 0x0, 0⟩,
  ⟨0xd00040, [], 0x377ff, 0x0, 0x80000000, 0x0, 0x0, 0⟩,
  ⟨0xd00044, [], 0x0, 0x0, 0x0, 0x0, 0x0, 0⟩,
  ⟨0xd00100, [(0x20, 9)], 0x8fffffff, 0x0, 0x0, 0x0, 0x800a0258, 0⟩,
  ⟨0xd00104, [(0x20, 9)], 0x0, 0x0, 0x0, 0x0, 0x0, 0⟩,
  ⟨0xd00108, [(0x20, 9)], 0x0, 0x0, 0x0, 0x0, 0x0, 1⟩,
  ⟨0xd0010c, [(0x20, 9)], 0x0, 0x0, 0x0, 0x0, 0x0, 2⟩,
  ⟨0xd10000, [(0x10, 780)], 0x0, 0x0, 0x0, 0x0, 0xfff00, 0⟩,
  ⟨0xd10004, [(0x10, 780)], 0x0, 0x0, 0x0, 0x0, 0x0, 0⟩,
  ⟨0xd10008, [(0x10, 780)], 0x0, 0x0, 0x0, 0x0, 0x0, 1⟩,
  ⟨0xd1000c, [(0x10, 780)], 0x0, 0x0, 0x0, 0x0, 0x0, 2⟩,
  ⟨0xd80000, [], 0x0, 0x0, 0x0, 0x0, 0x1, 0⟩,
  ⟨0xd80010, [], 0x0, 0x7, 0x0, 0x0, 0x0, 0⟩,
  ⟨0xd80020, [], 0x0, 0x0, 0x0, 0xffffffff, 0x0, 0⟩,
  ⟨0xd80024, [], 0x0, 0x0, 0x0, 0xffffffff, 0x0, 0⟩,
  ⟨0xd80028, [], 0x0, 0x0, 0x0, 0xffffffff, 0x0, 0⟩,
  ⟨0xd80040, [], 0x77ff, 0x0, 0x80000000, 0x0, 0x0, 0⟩,
  ⟨0xd80044, [], 0x0, 0x0, 0x0, 0x0, 0x0, 0⟩,
  ⟨0xd80048, [], 0x0, 0x0, 0x0, 0x0, 0x0, 1⟩,
  ⟨0xd8004c, [], 0x0, 0x0, 0x0, 0x0, 0x0, 2⟩]

/-- Rows of the ROT and BST window, part 1. -/
def rows13_1 : List RegRow := [
  ⟨0xd80050, [], 0x0, 0x0, 0x0, 0x0, 0x0, 0⟩]

/-- The rows of the ROT and BST window. -/
def rows13 : List RegRow := rows13_0 ++ rows13_1

/-- Rows of the CAS window, part 0. -/
def rows14_0 : List RegRow := [
  ⟨0xe00000, [], 0x0, 0x0, 0x0, 0x0, 0x1, 0⟩,
  ⟨0xe00004, [], 0x70fff, 0x0, 0x0, 0x0, 0x0, 0⟩,
  ⟨0xe00008, [], 0x0, 0x0, 0x0, 0x0, 0x0, 0⟩,
  ⟨0xe0000c, [], 0x0, 0x0, 0x0, 0x0, 0x0, 0⟩,
  ⟨0xe00010, [], 0x0, 0x3ff, 0x0, 0x0, 0x0, 0⟩,
  ⟨0xe00020, [], 0x0, 0x0, 0x0, 0xffffffff, 0x0, 0⟩,
  ⟨0xe00024, [], 0x0, 0x0, 0x0, 0xffffffff, 0x0, 0⟩,
  ⟨0xe00028, [], 0x0, 0x0, 0x0, 0xffffffff, 0x0, 0⟩,
  ⟨0xe0002c, [], 0x0, 0x0, 0x0, 0xffffffff, 0x0, 0⟩,
  ⟨0xe00030, [], 0x0, 0x0, 0x0, 0xffffffff, 0x0, 0⟩,
  ⟨0xe00034, [], 0x0, 0x0, 0x0, 0xffffffff, 0x0, 0⟩,
  ⟨0xe00038, [], 0x0, 0x0, 0x0, 0xffffffff, 0x0, 0⟩,
  ⟨0xe0003c, [], 0x0, 0x0, 0x0, 0xffffffff, 0x0, 0⟩,
  ⟨0xe00040, [], 0x0, 0x0, 0x0, 0xffffffff, 0x0, 0⟩,
  ⟨0xe00044, [], 0x0, 0x0, 0x0, 0xffffffff, 0x0, 0⟩,
  ⟨0xe00050, [], 0x0, 0x0, 0x0, 0x0, 0x0, 1⟩,
  ⟨0xe00054, [], 0x0, 0x0, 0x0, 0x0, 0x0, 2⟩,
  ⟨0xe00058, [], 0x0, 0x0, 0x0, 0x0, 0x0, 0⟩,
  ⟨0xe0005c, [], 0xffffffff, 0x0, 0x0, 0x0, 0xc350, 0⟩,
  ⟨0xe00060, [], 0xffffffff, 0x0, 0x0, 0x0, 0xf4240, 0⟩,
  ⟨0xe00064, [], 0xfffff, 0x0, 0x0, 0x0, 0x3e8, 0⟩,
  ⟨0xe00068, [], 0xffff, 0x0, 0x0, 0x0, 0x258, 0⟩,
  ⟨0xe00070, [], 0x0, 0x0, 0x1f, 0x0, 0x0, 0⟩,
  ⟨0xe00074, [], 0x0, 0x0, 0x0, 0x0, 0x0, 0⟩,
  ⟨0xe00078, [], 0xffffffff, 0x0, 0x0, 0x0, 0x0, 1⟩,
  ⟨0xe0007c, [], 0xffffffff, 0x0, 0x0, 0x0, 0x0, 2⟩,
  ⟨0xe00080, [], 0xff0f, 0x0, 0x0, 0x0, 0x0, 0⟩,
  ⟨0xe01000, [(0x20, 16)], 0xf07ff, 0x0, 0x0, 0x0, 0x0, 0⟩,
  ⟨0xe01004, [(0x20, 16)], 0xffffffff, 0x0, 0x0, 0x0, 0x0, 0⟩,
  ⟨0xe01008, [(0x20, 16)], 0x0, 0x0, 0x0, 0x0, 0x0, 0⟩]

/-- Rows of the CAS window, part 1. -/
def rows14_1 : List RegRow := [
  ⟨0xe01010, [(0x20, 16)], 0xffffffff, 0x0, 0x0, 0x0, 0x0, 1⟩,
  ⟨0xe01014, [(0x20, 16)], 0xffffffff, 0x0, 0x0, 0x0, 0x0, 2⟩,
  ⟨0xe02000, [(0x20, 6)], 0x1f, 0x0, 0x0, 0x0, 0x0, 0⟩,
  ⟨0xe02004, [(0x20, 6)], 0xffffffff, 0x0, 0x0, 0x0, 0x0, 0⟩,
  ⟨0xe02008, [(0x20, 6)], 0xffffffff, 0x0, 0x0, 0x0, 0x0, 0⟩,
  ⟨0xe0200c, [(0x20, 6)], 0x0, 0x0, 0x0, 0x0, 0x0, 0⟩,
  ⟨0xe03000, [(0x10, 16)], 0x8fffffff, 0x0, 0x0, 0x0, 0x0, 0⟩,
  ⟨0xe03100, [(0x10, 64)], 0x803f03ff, 0x0, 0x0, 0x0, 0x0, 0⟩,
  ⟨0xe03108, [(0x10, 64)], 0xffffffff, 0x0, 0x0, 0x0, 0x0, 1⟩,
  ⟨0xe0310c, [(0x10, 64)], 0xffffffff, 0x0, 0x0, 0x0, 0x0, 2⟩,
  ⟨0xe03600, [(0x10, 16)], 0x8fff0fff, 0x0, 0x0, 0x0, 0x0, 0⟩,
  ⟨0xe03604, [(0x10, 16)], 0xffff, 0x0, 0x0, 0x0, 0x0, 0⟩,
  ⟨0xe03608, [(0x10, 16)], 0xffffffff, 0x0, 0x0, 0x0, 0x2710, 0⟩]

/-- The rows of the CAS window. -/
def rows14 : List RegRow := rows14_0 ++ rows14_1

/-- Rows of the PNL window, part 0. -/
def rows15_0 : List RegRow := [
  ⟨0xf00000, [], 0x0, 0x0, 0x0, 0x0, 0x1, 0⟩,
  ⟨0xf00004, [], 0xff, 0x0, 0x0, 0x0, 0x0, 0⟩,
  ⟨0xf00008, [], 0x0, 0x0, 0x7, 0x0, 0x0, 0⟩,
  ⟨0xf0000c, [], 0x0, 0x0, 0x0, 0x0, 0x0, 0⟩,
  ⟨0xf00010, [], 0x0, 0xf, 0x0, 0x0, 0x0, 0⟩,
  ⟨0xf00020, [], 0x0, 0x0, 0x0, 0xffffffff, 0x0, 0⟩,
  ⟨0xf00024, [], 0x0, 0x0, 0x0, 0xffffffff, 0x0, 0⟩,
  ⟨0xf00028, [], 0x0, 0x0, 0x0, 0xffffffff, 0x0, 0⟩,
  ⟨0xf0002c, [], 0x0, 0x0, 0x0, 0xffffffff, 0x0, 0⟩,
  ⟨0xf00040, [], 0xffffffff, 0x0, 0x0, 0x0, 0x0, 0⟩,
  ⟨0xf00044, [], 0xffffffff, 0x0, 0x0, 0x0, 0x0, 0⟩,
  ⟨0xf00048, [], 0xffffffff, 0x0, 0x0, 0x0, 0x0, 0⟩,
  ⟨0xf0004c, [], 0xffffffff, 0x0, 0x0, 0x0, 0x0, 0⟩,
  ⟨0xf00050, [], 0xffffff, 0x0, 0x0, 0x0, 0x0, 0⟩,
  ⟨0xf00054, [], 0xffffff, 0x0, 0x0, 0x0, 0x0, 0⟩,
  ⟨0xf00058, [], 0xffffff, 0x0, 0x0, 0x0, 0x0, 0⟩,
  ⟨0xf0005c, [], 0xffffff, 0x0, 0x0, 0x0, 0x0, 0⟩,
  ⟨0xf00060, [], 0x3fff, 0x0, 0x0, 0x0, 0xf00, 0⟩,
  ⟨0xf00064, [], 0x0, 0x0, 0x0, 0x0, 0x0, 0⟩,
  ⟨0xf00068, [], 0x0, 0x0, 0x0, 0x0, 0x0, 1⟩,
  ⟨0xf0006c, [], 0x0, 0x0, 0x0, 0x0, 0x0, 2⟩,
  ⟨0xf00070, [], 0x0, 0x0, 0x0, 0x0, 0x0, 0⟩,
  ⟨0xf00074, [], 0x0, 0x0, 0x0, 0x0, 0x0, 0⟩,
  ⟨0xf00100, [], 0x1fffffff, 0x0, 0x80000000, 0x0, 0x0, 0⟩,
  ⟨0xf00104, [], 0x0, 0x0, 0x0, 0x0, 0x0, 0⟩,
  ⟨0xf01000, [(0x40, 4)], 0xf, 0x0, 0x0, 0x0, 0x0, 0⟩,
  ⟨0xf01008, [(0x40, 4)], 0xffffffff, 0x0, 0x0, 0x0, 0x0, 1⟩,
  ⟨0xf0100c, [(0x40, 4)], 0xffff, 0x0, 0x0, 0x0, 0x0, 2⟩,
  ⟨0xf01010, [(0x40, 4)], 0xffff, 0x0, 0x0, 0x0, 0x0, 0⟩,
  ⟨0xf01014, [(0x40, 4)], 0xfff0fff, 0x0, 0x0, 0x0, 0x0, 0⟩]

/-- Rows of the PNL window, part 1. -/
def rows15_1 : List RegRow := [
  ⟨0xf01018, [(0x40, 4)], 0xfff0fff, 0x0, 0x0, 0x0, 0x0, 0⟩,
  ⟨0xf01020, [(0x40, 4)], 0x0, 0x0, 0x0, 0x0, 0x0, 1⟩,
  ⟨0xf01024, [(0x40, 4)], 0x0, 0x0, 0x0, 0x0, 0x0, 2⟩,
  ⟨0xf00110, [(0x4, 4)], 0xffffffff, 0x0, 0x0, 0x0, 0x0, 0⟩]

/-- The rows of the PNL window. -/
def rows15 : List RegRow := rows15_0 ++ rows15_1

/-- Rows of the cluster window, part 0. -/
def rows16_0 : List RegRow := [
  ⟨0x1060000, [(0x80000, 32)], 0x0, 0x0, 0x0, 0x0, 0x1, 0⟩,
  ⟨0x1060004, [(0x80000, 32)], 0x1f, 0x0, 0x0, 0x0, 0x0, 0⟩,
  ⟨0x1060010, [(0x80000, 32)], 0x0, 0x1f, 0x0, 0x0, 0x0, 0⟩,
  ⟨0x1060014, [(0x80000, 32)], 0x0, 0x0, 0x0, 0x0, 0x0, 0⟩,
  ⟨0x1060020, [(0x80000, 32)], 0x0, 0x0, 0x0, 0xffffffff, 0x0, 0⟩,
  ⟨0x1060024, [(0x80000, 32)], 0x0, 0x0, 0x0, 0xffffffff, 0x0, 0⟩,
  ⟨0x1060028, [(0x80000, 32)], 0x0, 0x0, 0x0, 0xffffffff, 0x0, 0⟩,
  ⟨0x106002c, [(0x80000, 32)], 0x0, 0x0, 0x0, 0xffffffff, 0x0, 0⟩,
  ⟨0x1060030, [(0x80000, 32)], 0x0, 0x0, 0x0, 0xffffffff, 0x0, 0⟩,
  ⟨0x1060040, [(0x80000, 32)], 0x0, 0x0, 0x0, 0x0, 0x0, 0⟩,
  ⟨0x1060044, [(0x80000, 32)], 0x0, 0x0, 0x0, 0xffffffff, 0x0, 0⟩,
  ⟨0x1061000, [(0x80000, 32), (0x20, 16)], 0x0, 0x0, 0x3, 0x0, 0x0, 0⟩,
  ⟨0x1061004, [(0x80000, 32), (0x20, 16)], 0xffff, 0x0, 0x0, 0x0, 0x0, 0⟩,
  ⟨0x1061008, [(0x80000, 32), (0x20, 16)], 0x0, 0x0, 0x0, 0x0, 0x0, 0⟩,
  ⟨0x106100c, [(0x80000, 32), (0x20, 16)], 0x0, 0x0, 0x0, 0x0, 0x0, 0⟩,
  ⟨0x1061010, [(0x80000, 32), (0x20, 16)], 0x0, 0x0, 0x0, 0x0, 0x0, 0⟩,
  ⟨0x1061014, [(0x80000, 32), (0x20, 16)], 0x0, 0x0, 0x0, 0x0, 0x0, 0⟩,
  ⟨0x1061018, [(0x80000, 32), (0x20, 16)], 0x0, 0x0, 0x0, 0x0, 0x0, 1⟩,
  ⟨0x106101c, [(0x80000, 32), (0x20, 16)], 0x0, 0x0, 0x0, 0x0, 0x0, 2⟩,
  ⟨0x1070000, [(0x80000, 32), (0x4, 512)], 0xffffffff, 0x0, 0x0, 0x0, 0x0, 0⟩,
  ⟨0x1070800, [(0x80000, 32), (0x4, 512)], 0x0, 0x0, 0x0, 0x0, 0x0, 0⟩,
  ⟨0x1071000, [(0x80000, 32)], 0x0, 0x0, 0x0, 0x0, 0x0, 0⟩,
  ⟨0x1071004, [(0x80000, 32)], 0x0, 0x0, 0x0, 0x0, 0x0, 0⟩,
  ⟨0x1071008, [(0x80000, 32)], 0x0, 0x0, 0x0, 0x0, 0x0, 0⟩,
  ⟨0x107100c, [(0x80000, 32)], 0x0, 0x0, 0x0, 0x0, 0x0, 0⟩,
  ⟨0x1071010, [(0x80000, 32)], 0x87ff000f, 0x0, 0x0, 0x0, 0x0, 0⟩,
  ⟨0x1071014, [(0x80000, 32)], 0x0, 0x1, 0x0, 0x0, 0x0, 0⟩,
  ⟨0x1071018, [(0x80000, 32)], 0x0, 0x0, 0x0, 0xffffffff, 0x0, 0⟩]

/-- The rows of the cluster window. -/
def rows16 : List RegRow := rows16_0

/-- The rows of one BAR0 unit window, or of the cluster windows (R46). -/
def windowRows (w : Nat) : List RegRow :=
  match w with
  | 0 => rows0
  | 1 => rows1
  | 2 => rows2
  | 3 => rows3
  | 4 => rows4
  | 5 => rows5
  | 6 => rows6
  | 7 => rows7
  | 8 => rows8
  | 9 => rows9
  | 10 => rows10
  | 11 => rows11
  | 12 => rows12
  | 13 => rows13
  | 14 => rows14
  | 15 => rows15
  | w + 16 => if w < 16 then rows16 else []

/-- Whether an offset from a row's first address is one of the row's registers. -/
def inDims : List (Nat × Nat) → Nat → Bool
  | [], off => decide (off = 0)
  | (st, n) :: ds, off =>
    if ds.isEmpty then decide (off % st = 0 ∧ off / st < n)
    else decide (off / st < n) && inDims ds (off % st)

/-- Whether a row holds the register at address `a`. -/
def RegRow.has (r : RegRow) (a : Nat) : Bool := decide (r.base ≤ a) && inDims r.dims (a - r.base)

/-- The row of the register at a BAR0 byte address; none at an unassigned offset (R4). -/
def regRow (a : Nat) : Option RegRow := (windowRows (a / 0x100000)).find? (fun r => r.has a)

/-- The default regular sequence of M0 after reset (R510): entry `i`. -/
def monDefault (i : Nat) : Nat := 0x10100 + 16 + i

/-- What a register reads as until it is first written or set: its Reset column (R5, R598), with the values that
differ from member to member of an array. -/
def regResetNat (a : Nat) : Nat :=
  match regRow a with
  | none => 0
  | some r =>
    if a = Reg.CLK_BAND0 0 then 7800 + 8200 * 2 ^ 16 + 2 ^ 31
    else if a = Reg.CLK_BAND1 0 then Config.factoryCode % 256
    else if a = Reg.CLK_BAND_FACTORY then Config.factoryCode % 256 + 8000 * 2 ^ 16
    else if a = Reg.MON_M_STAT 0 then 2
    else if a = Reg.MON_SHADOW_TOL 1 then 0x2000
    else if a = Reg.MON_SHADOW_TOL 2 then 0x800
    else if a = Reg.MON_SHADOW_TOL 3 then 0x400
    else if a = Reg.MON_M_CFG 0 then 1
    else if a = Reg.MON_M_SEQ_LEN 0 then 0x12
    else if r.base = Reg.CL_ID 0 then 1 + (a - r.base) / 0x80000 * 0x10000
    else if r.base = Reg.MON_M_REG 0 0 ∧ a < Reg.MON_M_REG 0 18 then monDefault ((a - r.base) / 4)
    else r.reset

/-- `regResetNat` as a word. -/
def regReset (a : Nat) : Word := BitVec.ofNat 32 (regResetNat a)

end Sys2Proof.Machine
end

