-- ==== Sys2Proof/Machine/Sparse.lean ====
section
/-! DEFINITION. Sparse maps from addresses or unit numbers to plain data, in one canonical form:
keys strictly rising, and no entry equal to what an unlisted key reads as. Device memory, the
registers and every numbered object of the device are held this way, so equal contents are equal
data. -/

namespace Sys2Proof.Machine

/-- A sparse map as a list of key and value pairs. -/
abbrev Sparse (α : Type) := List (Nat × α)

/-- The value at key `k`; an unlisted key `k` reads as `d k`. -/
def Sparse.get {α : Type} (d : Nat → α) : Sparse α → Nat → α
  | [], k => d k
  | (k', v) :: m, k => if k = k' then v else Sparse.get d m k

/-- Remove key `k`. -/
def Sparse.del {α : Type} : Sparse α → Nat → Sparse α
  | [], _ => []
  | (k', v) :: m, k => if k = k' then Sparse.del m k else (k', v) :: Sparse.del m k

/-- List `v` at key `k`, in key order. -/
def Sparse.ins {α : Type} : Sparse α → Nat → α → Sparse α
  | [], k, v => [(k, v)]
  | (k', v') :: m, k, v =>
    if k < k' then (k, v) :: (k', v') :: m
    else if k = k' then (k, v) :: m
    else (k', v') :: Sparse.ins m k v

/-- Write `v` at key `k`; writing what an unlisted key reads as removes the entry. -/
def Sparse.set {α : Type} [DecidableEq α] (d : Nat → α) (m : Sparse α) (k : Nat) (v : α) : Sparse α :=
  if v = d k then Sparse.del m k else Sparse.ins m k v

/-- Apply `f` to the value at key `k`. -/
def Sparse.upd {α : Type} [DecidableEq α] (d : Nat → α) (m : Sparse α) (k : Nat) (f : α → α) : Sparse α :=
  Sparse.set d m k (f (Sparse.get d m k))

/-- The canonical form: every key above `lo`, keys strictly rising, no entry at `k` equal to `d k`. -/
def Sparse.wfFrom {α : Type} [DecidableEq α] (d : Nat → α) : Option Nat → Sparse α → Bool
  | _, [] => true
  | lo, (k, v) :: m =>
    (match lo with | none => true | some l => decide (l < k)) && decide (v ≠ d k) &&
      Sparse.wfFrom d (some k) m

/-- The canonical form of a whole map. -/
def Sparse.wf {α : Type} [DecidableEq α] (d : Nat → α) (m : Sparse α) : Bool := Sparse.wfFrom d none m

/-- The keys a map lists. -/
def Sparse.keys {α : Type} (m : Sparse α) : List Nat := m.map Prod.fst

/-- Keep the listed entries that satisfy `p`; the others read as the default again. -/
def Sparse.keep {α : Type} (p : Nat → α → Bool) (m : Sparse α) : Sparse α :=
  m.filter (fun kv => p kv.1 kv.2)

end Sys2Proof.Machine
end

