-- ==== Sys2Proof/Machine/State.lean ====
section
/-! DEFINITION. The state of the AX5120 as plain data (State), everything the manual gives the device that is not a
register of the BAR0 map: the registers themselves are the map `regs`, keyed by byte address, and default to their
reset values (Machine/Regs.lean). State.reset is the machine right after reset. -/

namespace Sys2Proof.Machine

/-- A fault: the machine stops. -/
inductive Fault where
  /-- Raised by RAIL_OUT_OF_RANGE while both reset pins are high: R584 leaves the device's behaviour undefined
  until the next full reset. Safe: the model stops where the manual gives no behaviour. -/
  | railUndefined
  deriving DecidableEq, Repr

/-- A refusal: the model gives the command no meaning. -/
inductive Refusal where
  /-- Raised by an arm of `exec` whose command has no meaning yet. Safe: the model stops. -/
  | notModelled (mnemonic : String)
  deriving DecidableEq, Repr

/-- Who asked for an operation: the host through a register, the device itself, or an engine's command word
on one of its ports (R42). -/
inductive Origin where
  | host
  | device
  | port (e k : Nat)
  deriving DecidableEq, Repr

/-- A completion on its way to an engine's port (R42, R262): the status code and the stamp. -/
structure Completion where
  e : Nat
  k : Nat
  code : Nat
  stamp : Option Time
  deriving DecidableEq, Repr

/-- The kinds of boundary-bound requests (R31, R36, R37). -/
inductive BKind where
  | streamStart | streamStop | streamRate | corrSwap | chnStart | chnStop | chnTune
  | schedSwitch | schedStop | detClear | denSnap | denClear | trgArm | trgDisarm | statArm | statStop
  | ckoStart | ckoStop | monStart | decReset | acqArm | acqStop | acqFactor | sleep | overlay | exportStop | clkSwitch | role
  deriving DecidableEq, Repr

/-- A request awaiting its boundary: the object, the instant it names, the moment it was accepted, who asked,
and its operands (R31). -/
structure BReq where
  kind : BKind
  obj : Nat
  at' : Time
  acc : Time
  origin : Origin
  arg : List Nat
  deriving DecidableEq, Repr

/-- What the device has sent to the outside world, oldest first. -/
inductive Out where
  /-- An MSI-X message (R445, R446): its vector, address and data. -/
  | msix (vec addr data : Nat)
  /-- A posted write to host memory, with its Relaxed Ordering, No Snoop and EP marks. -/
  | hostWrite (addr : Nat) (data : List Byte) (relaxed noSnoop poisoned : Bool)
  /-- A read request to host memory. -/
  | hostReadReq (addr len : Nat) (noSnoop : Bool)
  /-- A cascade message on a link (R543): RETRY, type, EPOCH, SRC, DST and SEQ, and its content as numbers and bytes. -/
  | casMsg (link : Nat) (retry : Bool) (ty epoch src dst seq : Nat) (args : List Nat) (data : List Byte)
  /-- A 66-bit block of an export on a transmit lane (R62, R106): sync header (01 as 1, 10 as 2) and the 64 bits as sent. -/
  | laneBlock (lane hdr bits : Nat)
  /-- A flash command (R341): SYS_FLASH_CMD [26:0], the address and the data written. -/
  | flash (cmd addr : Nat) (data : List Byte)
  /-- A sink AUX request (R563). -/
  | aux (req addr len : Nat) (data : List Byte)
  /-- A pixel of the panel (R574). -/
  | pixel (x y rgb : Nat)
  /-- A panel training pattern or idle pattern, by number (R565, R566). -/
  | pattern (n : Nat)
  /-- An error reported through AER (R447), by its row of the table. -/
  | pcie (n : Nat)
  /-- The bytes an I2C read returned (R511). -/
  | i2c (data : List Byte)
  /-- A cascade mark or synchronising edge driven on a pin (R551, R553). -/
  | mark (t : Time)
  /-- The marks of a calibration: one per microsecond from an instant, so many (R552). -/
  | markTrain (t : Time) (n : Nat)
  /-- A panel frame sync: the commit point's stamp (R569). -/
  | vsync (t : Time)
  /-- A main stream attribute packet (R564), synchronous clock bit set: Mvid, Nvid, the eight timing fields, whether HSYNC and VSYNC are active high,
  and the bits of a component. -/
  | msa (m n : Nat) (timing : List Nat) (hHigh vHigh : Bool) (bpc : Nat)
  /-- A bit shifted out of the test access port (R592). -/
  | tdo (b : Bool)
  deriving DecidableEq, Repr

/-- A sample with the marks of R357 (FLAGS in bits 7:0, FLAGS_X in bits 15:8). -/
structure Smp where
  re : Int := 0
  im : Int := 0
  marks : Nat := 0
  deriving DecidableEq, Repr

/-- A block a lane has received and holds for slot assembly: its position in the marker period or frame, whether it is
valid (R74), whether it is IDLE, its payload, and for an SCB the link block index (R69). -/
structure RxBlk where
  pos : Nat
  valid : Bool
  idle : Bool
  payload : Nat
  deriving DecidableEq, Repr

/-- One receive lane (R59, R73, R79, R83, R88, R89): `seen` since a lane index was last received with the lane enabled, `rd` the running disparity
of 8b/10b (positive when true). CDR_LOCK, BLOCK_LOCK, ALIGNED, LANE_INDEX, TAG, MAIN and SAMPLERS live in LNK_L_STAT. -/
structure Lane where
  goodRun : Nat := 0
  hist : Nat := 0
  desc : Nat := 0
  pos : Nat := 0
  marker : Nat := 0
  pair : Option (Nat × Nat) := none
  miss : Nat := 0
  badScb : Nat := 0
  muted : Bool := false
  ctle : Nat := 0
  dfe : Nat := 0
  fifo : List RxBlk := []
  lchar : Nat := 0
  seen : Bool := false
  rd : Bool := false
  windows : Nat := 0
  exchange : Bool := false
  deriving DecidableEq, Repr

/-- The anchor of a stream (R92): T0 as the exact ratio `t0n / den` of units of 2^-16 ns, and g0. -/
structure Anchor where
  t0n : Int := 0
  den : Nat := 1
  g0 : Int := 0
  deriving DecidableEq, Repr

/-- What a stream buffer holds for one unit of the link's bit stream (R71): a 64-bit block, or a Larkspur byte;
`lost` of R76 and R84, `early` of R95, `marks` of R77. -/
structure RxUnit where
  payload : Nat := 0
  lost : Bool := false
  early : Bool := false
  marks : Nat := 0
  deriving DecidableEq, Repr

/-- One stream (R92 to R105, R601). STATE, PENDING and CODE live in LNK_S_STAT; the period in force in
LNK_S_PNUM_CUR and LNK_S_PDEN_CUR. -/
structure Stream where
  anchor : Anchor := {}
  units : Sparse RxUnit := []
  nextIdx : Option Nat := none
  slack : Nat := 0
  resync : Bool := false
  next : Int := 0
  acqGroups : Nat := 0
  acqSince : Time := 0
  acqEnd : Option Time := none
  awaitScb : Bool := false
  restart : Bool := false
  regained : Option Time := none
  parityDown : Bool := false
  refPoint : Int := 0
  refAt : Option Time := none
  replay : Option Nat := none
  replayEnd : Option Int := none
  deriving DecidableEq, Repr

/-- The export of a stream (R106): bits packed towards the next data blocks, the link block index of the next, the position of the next
block in the marker period and the period's marker count, the 58 bits each transmit lane's scrambler last sent, and the
edge at which a SYNCED export is to restart its index. -/
structure Export where
  bits : Nat := 0
  nbits : Nat := 0
  idx : Nat := 0
  pos : Nat := 0
  marker : Nat := 0
  scr : List Nat := []
  sync : Option Time := none
  deriving DecidableEq, Repr

/-- The corrector of a stream (R111, R112, R115): the last 64 input samples since the reference point, newest first, and
the boundaries of the swaps that some unreleased samples precede. ACTIVE lives in CHN_C_STAT. -/
structure Corr where
  line : List Smp := []
  swaps : List Time := []
  deriving DecidableEq, Repr

/-- A zoom channeliser (R116 to R123): the NCO phase of the next input and the word in force, the CIC integrators and
combs, the FIR and half-band lines (newest first), the start boundary until a sample at or after it has come, the first input
it took since its start or reference point, a stop boundary that some unreleased samples precede, the tunes whose boundaries
have passed but not their samples, the last input at which each mark was set, and the last CIC output whose FIR result
saturated. RUNNING and PENDING live in CHN_Z_STAT. -/
structure Chan where
  phase : Nat := 0
  ftw : Nat := 0
  integI : List Nat := []
  integQ : List Nat := []
  combI : List Nat := []
  combQ : List Nat := []
  firI : List Int := []
  firQ : List Int := []
  hbI : List Int := []
  hbQ : List Int := []
  startB : Option Time := none
  firstJ : Option Int := none
  stopB : Option Time := none
  tunes : List (Time × Nat) := []
  markJ : List (Nat × Int) := []
  satM : Option Int := none
  deriving DecidableEq, Repr

/-- The settings of a context that a frame uses from window to delivery (R29): its descriptor, its mask tables (R209), its
user window (R143) and its copy of the Kaiser parameter (R145). -/
structure CtxSet where
  desc : List Byte := []
  masks : List (List Nat) := []
  user : List Nat := []
  beta : Nat := 0
  deriving DecidableEq, Repr

/-- A sample in a fabric stream buffer: its index from the source's reference point, its stamp, and the sample (R152). -/
structure BufSmp where
  n : Int
  stamp : Int
  smp : Smp
  deriving DecidableEq, Repr

/-- A frame that is ready or in a pipe (R137, R165): its context, frame sequence and index, its stamp, its samples, the
settings in force at its boundary, when it became ready, its pool's mask, its logical pipe and when its last sample has
entered it, how many of its sub-transforms have entered pipes (R138), and whether it was skipped or dropped (R140, R167). -/
structure Frame where
  ctx : Nat
  sid : Nat
  k : Nat
  stamp : Int
  smps : List Smp
  set : CtxSet
  ready : Time
  mask : Nat
  pipe : Nat
  inAt : Time
  subs : Nat
  lost : Bool
  deriving DecidableEq, Repr

/-- A frame sequence of a context (R152, R153): source, size, hop and alignment, its start instant, the index of its first
sample once known, the next frame, the instant from which no more frames are formed, and its pool's mask. -/
structure FrameSeq where
  ctx : Nat
  sid : Nat
  src : Nat
  n : Nat
  hop : Nat
  align : Bool
  phase : Nat
  start : Time
  first : Option Int
  k : Nat
  fin : Option Time
  mask : Nat
  deriving DecidableEq, Repr

/-- What the fabric keeps of an active context: its stored masks, user window and Kaiser parameter, the settings of frames
before earlier boundaries, the cluster copies written (R171), and the frames skipped since its last delivered spectrum. -/
structure Ctx where
  masks : List (List Nat) := []
  user : List Nat := []
  beta : Nat := 0
  olds : List (Time × CtxSet) := []
  ringD : Nat := 0
  skipped : Nat := 0
  deriving DecidableEq, Repr

/-- A schedule (R160): its entries as context and pool, and its pool masks. -/
structure Sched where
  entries : List (Nat × Nat) := []
  masks : List Nat := []
  deriving DecidableEq, Repr

/-- The pending schedule with the window and mask stores filled for it (R162). -/
structure PendSched where
  sched : Sched
  sets : List (Nat × CtxSet)
  deriving DecidableEq, Repr

/-- A schedule load being checked (R162): region, instant and requester. -/
structure SchedLoad where
  base : Nat
  size : Nat
  at' : Time
  origin : Origin
  deriving DecidableEq, Repr

/-- A trace of a context (R179 to R186): the point accumulators, the frames combined since the last reset, the interval, the
frames combined in it, the first index of a cut interval's remainder, the last index and its stamp, the first stamp, the flags, the frames
skipped since the last record, the settings of the last frame seen, its index while the interval goes on, and the boundaries of the cuts that await the
frames before them. -/
structure Trace where
  acc : List Nat := []
  comb : Nat := 0
  m : Nat := 0
  n : Nat := 0
  from' : Option Nat := none
  last : Nat := 0
  lastStamp : Int := 0
  stamp : Int := 0
  marks : Nat := 0
  skipped : Nat := 0
  set : CtxSet := {}
  seen : Option Nat := none
  cuts : List Time := []
  deriving DecidableEq, Repr

/-- What a density plane counts between snapshots (R200, R202). -/
structure PlaneStat where
  frames : Nat := 0
  sat : Nat := 0
  drop : Nat := 0
  marks : Nat := 0
  gap : Bool := false
  deriving DecidableEq, Repr

/-- A snapshot or clear that has taken effect (R197 to R201): the entry and context that fed the plane, its drain bank, and whether the plane has been cleared
since, with the TILE_LOST it then had. -/
structure Snap where
  isSnap : Bool
  b : Time
  dest : Nat
  clear : Bool
  written : Bool
  origin : Origin
  entry : List Byte
  ctx : Nat
  bank : Nat
  gone : Bool
  lost : Bool
  deriving DecidableEq, Repr

/-- A density plane (R187 to R201): the entry that made it active, its pool mask, the tile counters, the decay start and the
steps taken, what it counts now and counted before the last bank switch, the snapshot or clear in progress, and the boundary that made it active. -/
structure Plane where
  ever : Bool := false
  entry : List Byte := []
  tiles : Nat := 0
  cells : Sparse Nat := []
  since : Time := 0
  steps : Nat := 0
  cur : PlaneStat := {}
  old : PlaneStat := {}
  snap : Option Snap := none
  act : Option Time := none
  deriving DecidableEq, Repr

/-- An arming of a trigger unit (R211 to R223): its arm boundary and whether it has examined anything since, the DISARM boundary of an arming that has ended,
the next frame index and frame sequence it expects, whether it is in HOLD, its run or exit count, the stamp of the run's first sample, the
stamps or firings counted since the arm boundary, the end of its hold-off, for a sequence its completion times, the steps whose next step was completed since, and the step firings that
wait, the settings that overlays replaced, and the overlay boundaries at which its counts restart. STATE and RUN as software sees them are in TRG_T_STAT. -/
structure TUnit where
  armB : Time := 0
  begun : Bool := false
  fin : Option Time := none
  expect : Option (Nat × Nat) := none
  hold : Bool := false
  run : Nat := 0
  runStamp : Int := 0
  count : Nat := 0
  quietTo : Option Time := none
  steps : Sparse (Option Time) := []
  used : List Nat := []
  inbox : List (Time × Nat) := []
  olds : List (Time × List Nat) := []
  restarts : List Time := []
  deriving DecidableEq, Repr

/-- A firing that awaits release (R205, R225, R230), with the settings of its unit. -/
structure Firing where
  unit : Nat
  t : Time
  cs : Nat
  marks : Nat
  index : Nat
  viol : Nat
  set : List Nat
  deriving DecidableEq, Repr

/-- A stored sample of a capture: the full-rate index of its last input sample, its stamp, its factor, its ring offset and
its marks (R233, R241, R242). -/
structure CapOut where
  j : Int
  stamp : Int
  f : Nat
  off : Nat
  marks : Nat
  deriving DecidableEq, Repr

/-- A capture buffer (R231 to R249): the settings it was armed with (the words of ACQ_B_CFG to ACQ_B_CHUNK and the bytes of a stored sample; none while it is
OFF), the arm boundary `b`, the stamps of the tap samples examined since (newest first, numbered from 0 at the first) and the tap's own number of the newest, the
stored samples still in the ring (newest first), what the span has lost to the ring's wrap (samples, segments, marks, the factor of the last), the first sample
not yet put into a DATA record and the samples pushed, the trigger, the span and its end, the records that wait (an END record is written when it is pushed and waits
as no bytes), the factor changes not yet passed, each with the factor before it (newest first), and the demand. STATE, FROZEN, FACTOR, TRIGGER and TRIGGERED live in
ACQ_B_STAT, the next ring offset in ACQ_B_WPOS. -/
structure Cap where
  regs : List Nat := []
  b : Time := 0
  tape : List Time := []
  raw : Int := 0
  outs : List CapOut := []
  goneN : Nat := 0
  goneSegs : Nat := 0
  goneMarks : Nat := 0
  goneF : Nat := 0
  cutJ : Int := 0
  sentN : Nat := 0
  trig : Option Time := none
  jt : Option Int := none
  pre : Nat := 0
  coinc : Nat := 0
  lastJ : Option Int := none
  stopAt : Option Time := none
  cause : Nat := 0
  ignored : Nat := 0
  freeze : Bool := false
  recs : List (Nat × List Byte) := []
  changes : List (Time × Nat) := []
  staging : Nat := 0
  lowSince : Option Time := none
  deriving DecidableEq, Repr

/-- One level of a block repeat (R312). -/
structure RepLevel where
  start : Nat
  fin : Nat
  count : Nat
  calls : Nat
  deriving DecidableEq, Repr

/-- One command port of an engine (R257, R262). -/
structure PortSt where
  outstanding : Bool := false
  done : Bool := false
  stamped : Bool := false
  code : Nat := 0
  stamp : Time := 0
  deriving DecidableEq, Repr

/-- A far load in flight (R322, R323): address, size in bytes, zero extension, destination. -/
structure FarLoad where
  addr : Nat
  size : Nat
  u : Bool
  dst : Nat
  seq : Nat
  pc : Nat := 0
  deriving DecidableEq, Repr

/-- A far store in flight (R269, R322). -/
structure FarStore where
  addr : Nat
  data : List Byte
  seq : Nat
  deriving DecidableEq, Repr

/-- A logical engine: the registers of R280, the command ports, the event queue and the far accesses in flight.
`state` and `cause` are coded as R270 and R271; `code` is the code of the last host START or STOP. -/
structure Engine where
  state : Nat := 0
  cause : Nat := 0
  code : Nat := 0
  pc : Nat := 0
  g : Sparse Word := []
  c : Sparse (Word × Word) := []
  a : Sparse (Int × Int) := []
  p : Sparse Word := []
  m : Sparse Word := []
  l : Sparse Word := []
  st : Nat := 0
  ev : Nat := 0
  stack : List Nat := []
  reps : List RepLevel := []
  ports : Sparse PortSt := []
  evq : List Nat := []
  evLost : Bool := false
  timer : Option Time := none
  timerExp : Bool := false
  fl : List FarLoad := []
  fs : List FarStore := []
  fseq : Nat := 0
  busy : Nat := 0
  deriving DecidableEq, Repr

/-- The self-test unit of a physical engine in TEST (R325): pattern generator and signature register, and the g registers of the unit that are
known; the others hold free values. -/
structure TestUnit where
  prpg : Nat := 0
  misr : Nat := 0
  g : Sparse (Option Word) := []
  deriving DecidableEq, Repr

/-- A unit command word between its UCMD and its unit's acceptance (R257, R261): engine, port, word, and the copy of its
parameter block. -/
structure Issued where
  e : Nat
  k : Nat
  word : Nat
  block : List Byte
  deriving DecidableEq, Repr


/-- A slot in a queue's on-chip storage (R355): its 64 bytes, and whether a refill found it poisoned (R368). -/
structure QSlot where
  data : List Byte
  poison : Bool
  deriving DecidableEq, Repr

/-- An accepted record that has not been released: its first slot, its slots, its SEQUENCE, and whether it is
complete (R361). -/
structure QRec where
  start : Nat
  slots : Nat
  seq : Nat
  done : Bool
  deriving DecidableEq, Repr

/-- One queue (R353 to R355): the four positions, the end of the reserved slots, the records accepted and not released
(oldest first), the slots held on chip (empty data: not held), the DROPPED mark for the next record, the host's
QW_VIEW, and when its newest record became complete. ENABLED lives in QUE_Q_STAT, the next SEQUENCE in QUE_Q_SEQ, the accepted count in QUE_Q_PUSHED. -/
structure Queue where
  w : Nat := 0
  rd : Nat := 0
  m : Nat := 0
  f : Nat := 0
  r : Nat := 0
  recs : List QRec := []
  slots : Sparse (Option QSlot) := []
  dropped : Bool := false
  view : Nat := 0
  arrive : Time := 0
  deriving DecidableEq, Repr


/-- A compression job, at its first compressor (R383 to R390): its descriptor, the input taken, the bytes not yet cut into frames, when the job
started, the frames in compression (FRAME_NO, original bytes, LAST), the finished frames that wait to be written with their original
lengths, the next FRAME_NO to cut and to write, the extent and the bytes used in it, the pending extent, the COMPRESSED records that wait,
how the input ended, and the state and code in which the job ends once its last record is pushed. IN_DONE, OUT_DONE, FRAMES and
the state live in the CMP_Z registers. -/
structure ZJob where
  desc : List Byte
  taken : Nat := 0
  opened : List Byte := []
  lastIn : Time := 0
  work : List (Nat × List Byte × Bool) := []
  held : List (Nat × List Byte × Nat) := []
  no : Nat := 0
  outNo : Nat := 0
  ext : Nat := 0
  extLen : Nat := 0
  used : Nat := 0
  pend : Option (Nat × Nat) := none
  recs : List (List Byte) := []
  inEnd : Bool := false
  trunc : Bool := false
  poison : Bool := false
  fin : Option (Nat × Nat) := none
  deriving DecidableEq, Repr

/-- A decompression job (R393 to R398): its descriptor, the source bytes consumed, whether a replay has released its last
sample, the COMPRESSED records that wait, and the state and code in which the job ends once its last record is pushed. -/
structure UJob where
  desc : List Byte
  pos : Nat := 0
  played : Bool := false
  recs : List (List Byte) := []
  fin : Option (Nat × Nat) := none
  deriving DecidableEq, Repr


/-- The memory controller (R401 to R420): codewords the stacks report uncorrectable that the poison table could not take, the
corrected errors counted by row (oldest entry first), the rows under soft and hard repair, the rows pending a hard repair, the soft repair in
progress with its requester and its host bit, and the range of a SCRUB command with the next codeword. Rows are numbered
by pseudo-channel, SID, bank and row. -/
structure MemCtl where
  hot : List Nat := []
  rowCe : List (Nat × Nat) := []
  soft : List Nat := []
  hard : List Nat := []
  pend : List Nat := []
  repair : Option (Nat × Origin) := none
  scrub : Option (Nat × Nat × Origin) := none
  deriving DecidableEq, Repr


/-- What one side of a descriptor maps to (R431): a device address, a host bus address, a queue, or no region. -/
inductive DTgt where
  | dev (a : Nat)
  | host (a : Nat)
  | queue (q : Nat)
  | unmapped
  deriving DecidableEq, Repr

/-- A descriptor in progress at a channel (R433 to R438): whether its fetch from host memory is still awaited, its bytes, what its
sides map to, its code, the host data received for each side, how far each side has been requested from the host, the bytes written, and what
R438 marks. -/
structure DmaJob where
  fetching : Bool := false
  desc : List Byte := []
  src : DTgt := .unmapped
  dst : DTgt := .unmapped
  code : Nat := 0
  gotS : List Byte := []
  gotD : List Byte := []
  askS : Nat := 0
  askD : Nat := 0
  wrote : Nat := 0
  poison : Bool := false
  hostErr : Bool := false
  deriving DecidableEq, Repr


/-- A rotation step (R523 to R527): its group, the spare and the unit it shadows, its phase (0 waiting for the boundary at which SHADOW
starts, 1 SHADOW, 2 SWAP, 3 a forced swap that waits for its boundary), when the phase or its window began, the mismatches, the agreeing
results of R512, and whether the unit is to be withdrawn on its swap. -/
structure RotStep where
  g : Nat
  s : Nat
  v : Nat
  phase : Nat
  since : Time
  misses : Nat := 0
  agree : Nat := 0
  withdraw : Bool := false
  deriving DecidableEq, Repr

/-- What the rotation keeps of a physical unit (R515, R520, R526, R527): failures of the TEST in progress, a TEST that waits for the group's next
step, the LIVE unit its last shadow disagreed with, when the unit was marked SUSPECT, and the calibration of an element that has
not entered service: selection, temperature, and whether it is untraced. -/
structure UnitTest where
  fails : Nat := 0
  again : Bool := false
  blame : Option Nat := none
  marked : Option Time := none
  fresh : Bool := false
  cap : Option Nat := none
  refUv : Nat := 0
  sel : Nat := 0
  temp : Nat := 0
  untraced : Bool := false
  deriving DecidableEq, Repr

/-- The rotation (R523 to R535): the step of each class, the groups whose step is deferred, the units, S0 of each class, the next
step instant of each group, the roles that are vacant, the LIVE units withdrawn without a spare with the request's time, the groups that have reported no spare, and the on-demand self-test with its
requester and failures. -/
structure Rot where
  steps : Sparse (Option RotStep) := []
  deferred : Sparse (List Nat) := []
  units : Sparse UnitTest := []
  s0 : Sparse Time := []
  next : Sparse (Option Time) := []
  vacant : List (Nat × Nat) := []
  vacate : List (Nat × Time) := []
  exhausted : List (Nat × Nat) := []
  bst : Option (Nat × Origin × Nat) := none
  deriving DecidableEq, Repr

/-- The fractional modulator of a root (R454): the values it runs (PDIV and INT word, FRAC, seed), the part of a PFD cycle since its last, the three
accumulators, the carries that the third-order noise shaping still needs, the dither LFSR, and the offset that the modulator adds to INT in this PFD cycle. -/
structure Mash where
  cfg : Nat := 0
  frac : Nat := 0
  seed : Nat := 0
  phase : Nat := 0
  a1 : Nat := 0
  a2 : Nat := 0
  a3 : Nat := 0
  c2 : Nat := 0
  c3 : Nat := 0
  c3' : Nat := 0
  lfsr : Nat := 0
  out : Int := 0
  deriving DecidableEq, Repr

/-- The clock root (R451, R454, R457, R463, R466, R470): the modulators of roots A and B, the reference frequency in force, the values of the change in progress (PDIV and INT word, FRAC,
seed, reference), its instant and who asked for it, whether a probe runs, the standby's relock failures in a row, the root
that is to end holdover with the time of its lock, and the boundary stamp of the last change. -/
structure Roots where
  modA : Mash := {}
  modB : Mash := {}
  ref : Nat := 100000000
  nCfg : Nat := 0
  nFrac : Nat := 0
  nSeed : Nat := 0
  nRef : Nat := 0
  changeAt : Time := 0
  origin : Option Origin := none
  probe : Bool := false
  fails : Nat := 0
  takeover : Option (Nat × Time) := none
  stamp : Time := 0
  deriving DecidableEq, Repr

/-- A clock output (R472, R473, R518): the boundary stamp of its start, and a calibration in progress with its requester. -/
structure Cko where
  start : Time := 0
  cal : Option Origin := none
  deriving DecidableEq, Repr


/-- A stamp of an event input on its way into a record (R484, R485): the stamp, its edge's index, its slope, the epoch, whether it was made in
holdover, and the input's dead-time and FIFO losses so far. -/
structure EvStamp where
  stamp : Time
  idx : Nat
  rising : Bool
  epoch : Nat
  hold : Bool
  dead : Nat
  ovf : Nat
  deriving DecidableEq, Repr

/-- An event input (R480 to R485): the stamp FIFO and when its last stamp drained, the open record, the losses since enable and at the first entry
of the last record, and when its blanking ends. ENABLED, BLANK, the edge count and the last stamp live in registers. -/
structure EvIn where
  fifo : List EvStamp := []
  drained : Time := 0
  opened : List EvStamp := []
  dead : Nat := 0
  ovf : Nat := 0
  recDead : Nat := 0
  recOvf : Nat := 0
  blankTo : Time := 0
  enabling : Option Origin := none
  deriving DecidableEq, Repr

/-- An edge as an interval statistics unit sees it: stamp, epoch, holdover. -/
structure StEdge where
  t : Time
  epoch : Nat
  hold : Bool
  deriving DecidableEq, Repr

/-- The block that an interval statistics unit accumulates (R489 to R493). -/
structure StBlock where
  n : Nat := 0
  sum : Int := 0
  sq : Int := 0
  lo : Int := 0
  hi : Int := 0
  neg : Nat := 0
  unpaired : Nat := 0
  lost : Nat := 0
  first : Option StEdge := none
  last : Time := 0
  order : Bool := false
  wrap : Bool := false
  hold : Bool := false
  deriving DecidableEq, Repr

/-- An interval statistics unit (R488): its arm boundary, the START and STOP edges that wait, oldest first, and its block. STATE lives in
EVT_S_STAT. -/
structure StatU where
  armB : Time := 0
  early : List (Nat × StEdge) := []
  starts : List StEdge := []
  stops : List StEdge := []
  blk : StBlock := {}
  deriving DecidableEq, Repr


/-- A decimation chain (R497): the integrators and the delays of the combs, in order, and the last 31 outputs of the CIC, newest first. -/
structure MonFilter where
  ints : List Int := []
  combs : List Int := []
  taps : List Int := []
  deriving DecidableEq, Repr

/-- A monitor converter (R501 to R509): whether a regular pass runs, its entry and the results that entry has given, the start boundary from which
pass instants count, the next pass's number from it, the pass's start instant, the items of the open regular record; the injected
sequence's trigger time, entry, results, sequences since ARM_INJ and items; a DISARM_INJ that waits; its last rotation swap while a conversion
that spans it may be in progress; and the decimation chains of its converter and of the one that shadows it. The
regular sequence's state and the injected flags live in MON_M_STAT, the completed passes in MON_M_PASSES. -/
structure Mon where
  active : Bool := false
  entry : Nat := 0
  given : Nat := 0
  startB : Time := 0
  passNo : Nat := 0
  passAt : Time := 0
  items : List (List Byte) := []
  begun : Time := 0
  trig : Time := 0
  injEntry : Nat := 0
  injGiven : Nat := 0
  injNo : Nat := 0
  injItems : List (List Byte) := []
  injBegun : Time := 0
  disarm : Option Origin := none
  swapAt : Option Time := none
  flt : MonFilter := {}
  shd : Option MonFilter := none
  deriving DecidableEq, Repr


/-- A control message that awaits its answer (R545): its SEQ, type, the epoch it was sent with, its destination and content, how often it has been sent
again and when last. -/
structure CasWait where
  seq : Nat
  ty : Nat
  epoch : Nat
  dst : Nat
  args : List Nat
  tries : Nat
  sent : Time
  deriving DecidableEq, Repr

/-- A cascade link (R543, R545): the next SEQ, the SEQs of the control messages taken, the control messages that await an answer, and the bytes
in the transmit buffer at an instant. -/
structure CasLink where
  seq : Nat := 0
  seen : List (Nat × Nat) := []
  wait : List CasWait := []
  used : Nat := 0
  usedAt : Time := 0
  deriving DecidableEq, Repr

/-- A row of the role table (R546): identity and role, 0 for a number without one. -/
structure CasRole where
  ident : Nat := 0
  role : Nat := 0
  deriving DecidableEq, Repr

/-- What is kept of another device (R549, R552, R556, R558): when its STATUS was heard and the state it named; the exchanges of a calibration in
progress, as the device's stamps and the master's, and their sums; and its last DECIDED. -/
structure CasDev where
  heard : Time := 0
  ready : Bool := false
  nT : Nat := 0
  sumT : Int := 0
  nU : Nat := 0
  sumU : Int := 0
  decided : Option Time := none
  deriving DecidableEq, Repr

/-- A part of a composite (R557): its device, its stamp, its flags and its bins. -/
structure CasPart where
  dev : Nat
  stamp : Int
  marks : Nat
  bins : List Byte
  deriving DecidableEq, Repr

/-- A composite that waits for parts (R557): its join, the frame index, the parts that have come, and when the master's own came. -/
structure CasComp where
  join : Nat
  index : Nat
  parts : List CasPart
  own : Option Time
  deriving DecidableEq, Repr

/-- A role change in progress on the master (R547): the requester, the action (0 FORM, 3 TAKEOVER, 4 LEAVE), the device of a takeover and the number its
standby leaves. -/
structure CasChange where
  origin : Origin
  act : Nat
  dev : Nat
  from' : Nat
  deriving DecidableEq, Repr

/-- The cascade unit (R542 to R560): the role table, the links and the other devices; the role change and the calibration in progress with the
calibration's start, its requester, whether it belongs to FORM and FORM's code; the mark of TIME that is awaited with its epoch; the marks announced
and not yet stamped, the last errors measured, the units left to slew; what was last sent or heard when; the composites that wait
and the frame indexes of each join that have left; and whether a stale epoch or a silent master has stopped the output. -/
structure Cas where
  table : Sparse CasRole := []
  links : Sparse CasLink := []
  devs : Sparse CasDev := []
  change : Option CasChange := none
  cal : Option Time := none
  calBy : Origin := .device
  calForm : Bool := false
  formCode : Nat := 0
  coarse : Option (Time × Nat) := none
  calNo : Nat := 0
  marks : List Time := []
  resets : List Time := []
  retAt : Time := 0
  takeovers : List Nat := []
  errs : List Int := []
  slew : Int := 0
  slewTick : Nat := 0
  markAt : Time := 0
  recalAt : Time := 0
  statusAt : Time := 0
  decidedAt : Time := 0
  heard : Time := 0
  comps : List CasComp := []
  left : Sparse (List Nat) := []
  stale : Bool := false
  deaf : Bool := false
  deriving DecidableEq, Repr



/-- The settings of a panel layer in force (R567, R569): PNL_L_CFG, STRIDE, POS, SIZE and the base address. -/
structure PLayer where
  cfg : Nat := 0
  stride : Nat := 0
  pos : Nat := 0
  size : Nat := 0
  base : Nat := 0
  deriving DecidableEq, Repr

/-- A commit request that awaits its commit point (R569, R571): its requester, and the layer of a FLIP. -/
structure PCommit where
  origin : Origin
  flip : Option Nat
  deriving DecidableEq, Repr

/-- The panel unit (R561 to R575): the layers in force, the START and STOP in progress, the training phase (0 none, 1 to 4 as R565 steps 1, 2 and the two
phases of 3, 5 idle until the commit point), whether the link is being retrained, the code of a stop, when the idle patterns before the main link
is disabled began, the commit requests, the next pixel, whether its line is being filled, and since when PNL_HPD is low. An AUX request: its
repeats, when it was sent or deferred, and whether it was deferred. -/
structure Panel where
  layers : Sparse PLayer := []
  start : Option Origin := none
  stops : List Origin := []
  phase : Nat := 0
  retrain : Bool := false
  stopCode : Nat := 0
  idle : Option Time := none
  commits : List PCommit := []
  x : Nat := 0
  y : Nat := 0
  fill : Bool := false
  hpdLow : Option Time := none
  auxTries : Nat := 0
  auxAt : Time := 0
  auxDefer : Bool := false
  deriving DecidableEq, Repr



/-- A patch record of an overlay (R328): KIND (1 CTX, 2 PROG, 3 REG), TARGET, DEST and data. -/
structure OvlRec where
  kind : Nat
  target : Nat
  dest : Nat
  data : List Byte
  deriving DecidableEq, Repr

/-- An overlay that is being read and checked (R334): number, instant and requester. -/
structure OvlReq where
  num : Nat
  at' : Time
  origin : Origin
  deriving DecidableEq, Repr

/-- An accepted overlay in its staging store (R335): its records, and the stores of the active contexts it patches, filled when it was
checked. -/
structure Ovl where
  num : Nat
  at' : Time
  acc : Time
  origin : Origin
  recs : List OvlRec
  sets : List (Nat × CtxSet)
  deriving DecidableEq, Repr

/-- What the device records at sleep entry for wake (R346): the requester, the wake sources, the timer instant, the lanes, streams,
channelisers, trigger units and captures, the schedule with its stores, and the planes. -/
structure SleepRec where
  origin : Origin
  sources : Nat
  wakeAt : Time
  lanes : List Nat := []
  streams : List Nat := []
  chans : List Nat := []
  units : List Nat := []
  caps : List Nat := []
  sched : PendSched := ⟨{}, []⟩
  planes : Sparse Plane := []
  deriving DecidableEq, Repr

/-- System control: reset pins held low (0 SYS_RESET_N, 1 PERST_N) and whether step 1 of R337 has met REFCLK; the flash slot being read, whether for
AUTOBOOT; the SLOT of an image being loaded and whether a host START or RESTART_LOAD asked; the flash command in progress; overlays; the sleep in
progress, whether its entry is done, the wake instant and the steps of the wake sequence taken (1 lanes, 2 streams); the I2C address straps sampled at power-up (R511, R583). -/
structure Sys where
  low : List Bool := [false, false]
  started : Bool := false
  flash : Option (Nat × Bool) := none
  slot : Nat := 0
  ask : Nat := 0
  cmd : Option Nat := none
  ovlReqs : List OvlReq := []
  ovls : List Ovl := []
  slp : Option SleepRec := none
  asleep : Bool := false
  wake : Option Time := none
  woken : Bool := false
  wakeStep : Nat := 0
  straps : Nat := 0
  deriving DecidableEq, Repr

/-- The states of the test access port (R592, IEEE 1149.1). -/
inductive TapState where
  | testLogicReset | runTestIdle
  | selectDr | captureDr | shiftDr | exit1Dr | pauseDr | exit2Dr | updateDr
  | selectIr | captureIr | shiftIr | exit1Ir | pauseIr | exit2Ir | updateIr
  deriving DecidableEq, Repr

/-- The test access port (R592): its state, the instruction in force, the instruction and data shift registers (least significant bit first) and
the boundary register's update stage. -/
structure Tap where
  state : TapState := .testLogicReset
  ir : Nat := 0
  irShift : List Bool := []
  drShift : List Bool := []
  boundary : List Bool := []
  deriving DecidableEq, Repr


/-- Everything the device holds. Registers are in `regs` (Machine/Regs.lean); numbered objects are sparse maps whose
unlisted members are in their reset state. -/
structure Device where
  -- registers and the register interface (R3 to R8)
  regs : Sparse Word := []
  loHeld : Sparse (Option Word) := []
  hiLatch : Sparse (Option Word) := []
  hostRead : Nat := 0
  hostReadEp : Bool := false
  outbox : List Out := []
  -- device time (R475, R459)
  time : Time := 0
  timeRem : Nat := 0
  -- free values drawn so far (the model's own counter)
  freeCount : Nat := 0
  -- the last event that an average latency register counts, by register (R599)
  latAt : Sparse (Option Time) := []
  -- the clusters whose memories have been accessed since CL_BANK_CONFLICT_CNT was last read (R253)
  bankUsed : List Nat := []
  -- requests and completions (R31, R42)
  breqs : List BReq := []
  completions : List Completion := []
  -- memories (R47, R251, R255)
  mem : List Host.Cell := []
  prog : List Host.Cell := []
  xmem : List Host.Cell := []
  ymem : List Host.Cell := []
  lmem : List Host.Cell := []
  ctx : List Host.Cell := []
  -- sample lanes and streams
  lanes : Sparse Lane := []
  lrefLost : Nat := 0
  streams : Sparse Stream := []
  exports : Sparse Export := []
  corrs : Sparse Corr := []
  chans : Sparse Chan := []
  -- SYNC_IN edges not yet sampled, and those on their way to a decimator reset: TCLK edges left (R134)
  syncIn : List Time := []
  syncLeft : List Nat := []
  -- transform fabric
  bufs : Sparse (List BufSmp) := []
  seqs : List FrameSeq := []
  sidNext : Nat := 1
  ctxs : Sparse Ctx := []
  ready : List Frame := []
  flight : List Frame := []
  pipeFree : Sparse (Option Time) := []
  run : Sched := {}
  pend : Option PendSched := none
  checking : Option SchedLoad := none
  -- traces, planes, triggers and captures
  traces : Sparse Trace := []
  planes : Sparse Plane := []
  violRecs : Sparse Nat := []
  units : Sparse TUnit := []
  firings : List Firing := []
  tapHist : Sparse (List Smp) := []
  caps : Sparse Cap := []
  -- engines
  engines : Sparse Engine := []
  tests : Sparse TestUnit := []
  issued : List Issued := []
  -- queues
  queues : Sparse Queue := []
  -- compressors and decompressors
  zjobs : Sparse (Option ZJob) := []
  ujobs : Sparse (Option UJob) := []
  -- memory controller: the poison table, by codeword (R409), and the rest
  poison : List Nat := []
  memc : MemCtl := {}
  -- DMA channels' descriptors in progress
  dmas : Sparse (Option DmaJob) := []
  -- the DMA regions installed: configuration, DMA address, size and target (R432)
  regions : Sparse (List Nat) := []
  -- rotation, roots and clock outputs; the last VDD_CORE result: in the range of R533, and when it was made
  rot : Rot := {}
  roots : Roots := {}
  ckos : Sparse Cko := []
  vdd : Option (Bool × Time) := none
  -- event inputs, statistics units, and a set of device time that awaits its TCLK edge (R479)
  evins : Sparse EvIn := []
  stats : Sparse StatU := []
  setReq : Option (Time × Nat × Origin) := none
  -- monitor converters, MONSYNC edges not yet sampled and those on their way to a reset: TCLK edges left (R507), and the I2C target's pointer and latched bytes (R511)
  mons : Sparse Mon := []
  monIn : List Time := []
  monSync : List Nat := []
  i2cPtr : Nat := 0
  i2cLatch : Option (Nat × List Byte) := none
  -- the cascade unit, and the anchor context of the image in force (R30)
  cas : Cas := {}
  anchorCtx : Option Nat := none
  -- the panel
  panel : Panel := {}
  -- system control and the test access port
  sys : Sys := {}
  tap : Tap := {}
  -- PCI Express: D3hot (R424), a link that is not in L0 (R448), the function's configuration fields (R422)
  d3hot : Bool := false
  linkDown : Bool := true
  cfg : Sparse Nat := []
  deriving DecidableEq, Repr

/-- The block: the device, and the commands that wait, first in, first out. -/
structure State where
  dev : Device := {}
  pending : List Instr := []
  deriving DecidableEq, Repr

/-- The machine right after reset. -/
def State.reset : State := {}

end Sys2Proof.Machine
end

