-- ==== Sys2Proof/Machine/Ops.lean ====
section
/-! DEFINITION. The named operations over the state that every chapter shares: registers, flags and counters (R3 to R12),
memories, requests and their completion (R31, R42, R45), and engine events (R263 to R265, R271, R278). -/

namespace Sys2Proof

/-- The 32-bit word at an offset of a command's parameter block (R261). -/
def UCmd.word (u : UCmd) (off : Nat) : Nat := Machine.ofBytesLE ((u.block.drop off).take 4)

/-- The 64-bit value at an offset of a command's parameter block. -/
def UCmd.dword (u : UCmd) (off : Nat) : Nat := Machine.ofBytesLE ((u.block.drop off).take 8)

/-- The port that issued a command word. -/
def UCmd.origin (u : UCmd) : Machine.Origin := .port u.e u.k

end Sys2Proof

namespace Sys2Proof.Machine

/-- Status codes (R13). -/
def cOK : Nat := 0x00
def cLENGTH : Nat := 0x01
def cOVERLAP : Nat := 0x02
def cALIGN : Nat := 0x03
def cREGION : Nat := 0x04
def cBUSY : Nat := 0x05
def cROLEMISS : Nat := 0x06
def cSTALE : Nat := 0x07
def cNOSPARE : Nat := 0x08
def cSCHEDULE : Nat := 0x09
def cCONDITIONS : Nat := 0x0A
def cOUTFULL : Nat := 0x0B
def cILLEGAL : Nat := 0x0C
def cDISTANCE : Nat := 0x0D
def cOVERRUN : Nat := 0x0E
def cCRC : Nat := 0x0F
def cTRUNC : Nat := 0x10
def cNOTARMED : Nat := 0x11
def cREFLOST : Nat := 0x12
def cUNSUP : Nat := 0x13

/-- Run a total operation of the device: the command's effect on everything but the queue of waiting commands. -/
def State.run (s : State) (f : Device → Device) : Host.Outcome State Fault Refusal :=
  .next { s with dev := f s.dev }

/-- The lowest-numbered code of the checks that fail; OK when none does (R15). -/
def firstCode : List (Bool × Nat) → Nat
  | [] => cOK
  | (b, c) :: cs =>
    let r := firstCode cs
    if b then (if r = cOK then c else min c r) else r

/-- Whether a range that starts inside device memory runs past its end (R19). -/
def pastEnd (a len : Nat) : Bool := decide (a < Config.memSize) && decide (Config.memSize < a + len)

/-- Whether an address lies at or above the end of device memory. -/
def aboveEnd (a : Nat) : Bool := decide (Config.memSize ≤ a)

/-! Registers. -/

/-- The value of the register at a BAR0 byte address. -/
def Device.rd (d : Device) (a : Nat) : Word := Sparse.get regReset d.regs a

/-- The value of a register as a number. -/
def Device.rdN (d : Device) (a : Nat) : Nat := (d.rd a).toNat

/-- Set the register at a BAR0 byte address. -/
def Device.wr (d : Device) (a : Nat) (v : Nat) : Device :=
  { d with regs := Sparse.set regReset d.regs a (BitVec.ofNat 32 v) }

/-- The value of a register field. -/
def Device.fld (d : Device) (x : FieldAt) : Nat := bitsOf (d.rdN x.addr) x.f.lo x.f.w

/-- Whether a one-bit field is set. -/
def Device.isSet (d : Device) (x : FieldAt) : Bool := decide (d.fld x = 1)

/-- Set a register field. -/
def Device.setFld (d : Device) (x : FieldAt) (v : Nat) : Device :=
  d.wr x.addr (setBits (d.rdN x.addr) x.f.lo x.f.w v)

/-- A 64-bit register pair, by the address of its low half (R7). -/
def Device.rd64 (d : Device) (lo : Nat) : Nat := d.rdN lo + d.rdN (lo + 4) * 2 ^ 32

/-- Set a 64-bit register pair. -/
def Device.wr64 (d : Device) (lo v : Nat) : Device := (d.wr lo (v % 2 ^ 32)).wr (lo + 4) (v / 2 ^ 32)

/-- A pair that holds a device time. -/
def Device.rdTime (d : Device) (lo : Nat) : Time := BitVec.ofNat 64 (d.rd64 lo)

/-- Set a pair that holds a device time. -/
def Device.wrTime (d : Device) (lo : Nat) (t : Time) : Device := d.wr64 lo t.toNat

/-- One event of a counter, which saturates (R11). -/
def Device.inc (d : Device) (a : Nat) : Device := d.wr a (min (d.rdN a + 1) 0xFFFFFFFF)

/-- `n` events of a counter. -/
def Device.incBy (d : Device) (a n : Nat) : Device := d.wr a (min (d.rdN a + n) 0xFFFFFFFF)

/-- Add to a 64-bit read-only total. -/
def Device.add64 (d : Device) (lo n : Nat) : Device := d.wr64 lo ((d.rd64 lo + n) % 2 ^ 64)

/-- An event with a flag and its companion counter (R10, R11). -/
def Device.flag (d : Device) (x : FieldAt) (cnt : Nat) : Device := (d.setFld x 1).inc cnt

/-- An access of wrong size, alignment or state (R6). -/
def Device.badAccess (d : Device) : Device := d.flag F.SYS_FLAGS_BAD_ACCESS Reg.SYS_BAD_ACCESS

/-- Send something to the outside world. -/
def Device.send (d : Device) (o : Out) : Device := { d with outbox := d.outbox ++ [o] }

/-- The fields of the function's configuration space that change what the device does, and what they hold before the
host writes them (R422, R449): 0 Memory Space, 1 Bus Master, 2 Relaxed Ordering, 3 Max Payload Size, 4 Max Read Request Size, 5 MSI-X
enable, 6 MSI-X function mask, 7 ASPM L1, 8 to 10 the addresses of BAR0, BAR2 and BAR4, 11 No Snoop. PRESUMED: the values of the PCI
Express specification, which the manual follows. -/
def cfgReset (f : Nat) : Nat := if f = 2 ∨ f = 11 then 1 else if f = 4 then 2 else 0

/-- A field of the configuration space. -/
def Device.cfgOf (d : Device) (f : Nat) : Nat := Sparse.get cfgReset d.cfg f

/-- Whether the function may issue requests: in D0 (R424), as a bus master. -/
def Device.canIssue (d : Device) : Bool := !d.d3hot && decide (d.cfgOf 1 = 1)

/-- Whether a vector's message may go out now. -/
def Device.vectorOpen (d : Device) (v : Nat) : Bool :=
  d.canIssue && decide (d.cfgOf 5 = 1) && decide (d.cfgOf 6 = 0) && !d.isSet (F.MSIX_CTRL_MASK v)

/-- An MSI-X vector falls due (R444, R446): a masked vector, or one due in D3hot (R424), sets its pending bit. -/
def Device.msix (d : Device) (v : Nat) : Device :=
  if !d.vectorOpen v then d.setFld ⟨Reg.MSIX_PBA (v / 32), ⟨v % 32, 1⟩⟩ 1
  else
    (d.send (.msix v (d.rdN (Reg.MSIX_ADDR v) + d.rdN (Reg.MSIX_UADDR v) * 2 ^ 32) (d.rdN (Reg.MSIX_DATA v)))).add64
      Reg.HIF_TX_BYTES_LO 4

/-- The messages that wait for the function, or for their mask, are sent (R424, R444). -/
def Device.msixPending (d : Device) : Device :=
  (List.range 64).foldl (fun d i =>
    let p := d.rdN (Reg.MSIX_PBA i)
    if p = 0 then d
    else (onesBelow p 32).foldl (fun d b =>
      if d.vectorOpen (32 * i + b) then (d.setFld ⟨Reg.MSIX_PBA i, ⟨b, 1⟩⟩ 0).msix (32 * i + b) else d) d) d

/-- Draw a free value: the machine's counter advances, and the value is opaque. -/
def Device.draw (d : Device) : Nat × Device :=
  (Config.free d.freeCount, { d with freeCount := d.freeCount + 1 })

/-- An event whose latency or bandwidth the register at `a` averages takes place now (R599). -/
def Device.timed (d : Device) (a : Nat) : Device := { d with latAt := Sparse.set (fun _ => none) d.latAt a (some d.time) }

/-- A class of the memory controller moves data now (R403, R599). -/
def Device.moved (d : Device) (k : Nat) : Device := d.timed (Reg.MEM_CLASS_BW k)

/-- A cluster's memories are accessed (R253): requests of this and other sides may have met in a bank since the last read of
CL_BANK_CONFLICT_CNT. -/
def Device.bankUse (d : Device) (k : Nat) : Device := if k ∈ d.bankUsed then d else { d with bankUsed := d.bankUsed ++ [k] }

/-! Memories. -/

/-- A byte of a memory; an unlisted byte is zero. -/
def memGet (m : List Host.Cell) (a : Nat) : Byte := Sparse.get (fun _ => (0 : Byte)) m a

/-- Write one byte of a memory. -/
def memSet (m : List Host.Cell) (a : Nat) (b : Byte) : List Host.Cell :=
  Sparse.set (fun _ => (0 : Byte)) m a b

/-- `n` bytes of a memory from address `a`. -/
def memBytes (m : List Host.Cell) (a : Nat) : Nat → List Byte
  | 0 => []
  | n + 1 => memGet m a :: memBytes m (a + 1) n

/-- A little-endian number of `n` bytes at address `a`. -/
def memLE (m : List Host.Cell) (a n : Nat) : Nat := ofBytesLE (memBytes m a n)

/-- Write bytes from address `a` upward. -/
def memWrite : List Host.Cell → Nat → List Byte → List Host.Cell
  | m, _, [] => m
  | m, a, b :: bs => memWrite (memSet m a b) (a + 1) bs

/-- Zero the bytes from `a`, `n` of them. -/
def memZero (m : List Host.Cell) (a n : Nat) : List Host.Cell :=
  Sparse.keep (fun k _ => !(decide (a ≤ k) && decide (k < a + n))) m

/-- A codeword that `n` bytes from `a` cover whole leaves the poison table (R409). -/
def Device.unpoison (d : Device) (a n : Nat) : Device :=
  let keep := fun w => !(decide (a ≤ 32 * w) && decide (32 * w + 32 ≤ a + n))
  { d with poison := d.poison.filter keep, memc := { d.memc with hot := d.memc.hot.filter keep } }

/-- Whether `n` bytes from `a` touch a poisoned codeword (R408, R409). -/
def Device.poisoned (d : Device) (a n : Nat) : Bool :=
  (d.poison ++ d.memc.hot).any (fun w => decide (a < 32 * w + 32) && decide (32 * w < a + n))

/-- A codeword enters the poison table, if it holds fewer than 256 (R409). -/
def Device.poisonAdd (d : Device) (w : Nat) : Device :=
  if w ∈ d.poison then d
  else if d.poison.length < 256 then { d with poison := d.poison ++ [w] }
  else
    { d with memc := { d.memc with hot := if w ∈ d.memc.hot then d.memc.hot else d.memc.hot ++ [w] } }.flag
      F.MEM_FLAGS_POISON_FULL Reg.MEM_POISON_FULL_CNT

/-- Write device memory. -/
def Device.store (d : Device) (a : Nat) (bs : List Byte) : Device :=
  { d with mem := memWrite d.mem a bs }.unpoison a bs.length

/-- Write device memory as part of a sequential run: the piece that ends a codeword completes a write that covers it whole. -/
def Device.storeRun (d : Device) (a : Nat) (bs : List Byte) : Device :=
  { d with mem := memWrite d.mem a bs }.unpoison (a / 32 * 32) (a % 32 + bs.length)

/-- Write device memory as a later piece of the range that starts at `from'`: a codeword is written whole once the range has covered it. -/
def Device.storeFrom (d : Device) (from' a : Nat) (bs : List Byte) : Device :=
  let lo := max from' (a / 32 * 32)
  { d with mem := memWrite d.mem a bs }.unpoison lo (a + bs.length - lo)

/-- Zero a range of device memory. -/
def Device.zero (d : Device) (a n : Nat) : Device := { d with mem := memZero d.mem a n }.unpoison a n

/-- A little-endian word of device memory. -/
def Device.mem32 (d : Device) (a : Nat) : Nat := memLE d.mem a 4

/-- A little-endian double word of device memory. -/
def Device.mem64 (d : Device) (a : Nat) : Nat := memLE d.mem a 8

/-- A field of a context descriptor's 32-bit word (R156). -/
def Device.cx (d : Device) (c off lo w : Nat) : Nat := bitsOf (memLE d.ctx (c * 0x400 + off) 4) lo w

/-- A 64-bit field of a context descriptor. -/
def Device.cx64 (d : Device) (c off : Nat) : Nat := memLE d.ctx (c * 0x400 + off) 8

/-- Write the RW fields of a register; its other bits keep their values (R3, R4). -/
def Device.wrRw (d : Device) (a v : Nat) : Device :=
  let m := match regRow a with | none => 0 | some r => r.rw
  d.wr a (Nat.lor (Nat.land v m) (d.rdN a - Nat.land (d.rdN a) m))

/-- Write registers from a parameter block: each pair is a register and the block offset of its word (R600). DESIGN CHOICE (log entry 120): a
_LO that the host holds for one of these pairs (R8) stays held. -/
def Device.wrBlock (d : Device) (u : UCmd) : List (Nat × Nat) → Device
  | [] => d
  | (a, off) :: rs => Device.wrBlock (d.wrRw a (u.word off)) u rs

/-! Numbered objects. -/

def Device.lane (d : Device) (i : Nat) : Lane := Sparse.get (fun _ => {}) d.lanes i
def Device.setLane (d : Device) (i : Nat) (x : Lane) : Device :=
  { d with lanes := Sparse.set (fun _ => {}) d.lanes i x }
def Device.stream (d : Device) (s : Nat) : Stream := Sparse.get (fun _ => {}) d.streams s
def Device.setStream (d : Device) (s : Nat) (x : Stream) : Device :=
  { d with streams := Sparse.set (fun _ => {}) d.streams s x }
def Device.expo (d : Device) (s : Nat) : Export := Sparse.get (fun _ => {}) d.exports s
def Device.setExpo (d : Device) (s : Nat) (x : Export) : Device :=
  { d with exports := Sparse.set (fun _ => {}) d.exports s x }
def Device.corr (d : Device) (s : Nat) : Corr := Sparse.get (fun _ => {}) d.corrs s
def Device.setCorr (d : Device) (s : Nat) (x : Corr) : Device :=
  { d with corrs := Sparse.set (fun _ => {}) d.corrs s x }
def Device.chan (d : Device) (z : Nat) : Chan := Sparse.get (fun _ => {}) d.chans z
def Device.setChan (d : Device) (z : Nat) (x : Chan) : Device :=
  { d with chans := Sparse.set (fun _ => {}) d.chans z x }
def Device.eng (d : Device) (e : Nat) : Engine := Sparse.get (fun _ => {}) d.engines e
def Device.setEng (d : Device) (e : Nat) (x : Engine) : Device :=
  { d with engines := Sparse.set (fun _ => {}) d.engines e x }
def Engine.port (x : Engine) (k : Nat) : PortSt := Sparse.get (fun _ => {}) x.ports k
def Engine.setPort (x : Engine) (k : Nat) (p : PortSt) : Engine :=
  { x with ports := Sparse.set (fun _ => {}) x.ports k p }

/-! Requests and completions. -/

/-- A unit returns a code for a command (R42): to an engine's port it travels as a completion; the host reads it in
the unit's registers. -/
def Device.complete (d : Device) (o : Origin) (code : Nat) (stamp : Option Time) : Device :=
  match o with
  | .port e k => { d with completions := d.completions ++ [⟨e, k, code, stamp⟩] }
  | _ => d

/-- The end of a request: its action bit clears (R3), its unit shows the code, and the requester gets it (R42). -/
def Device.finish (d : Device) (o : Origin) (ctl code : FieldAt) (c : Nat) (stamp : Option Time) : Device :=
  ((d.setFld ctl 0).setFld code c).complete o c stamp

/-- Set the action bit of a host request, which reads 1 until the request completes (R3); an engine's command sets none. -/
def Device.actBit (d : Device) (o : Origin) (ctl : FieldAt) : Device :=
  if o = .host then d.setFld ctl 1 else d

/-- Whether an object has a request of one of these kinds pending. -/
def Device.hasReq (d : Device) (ks : List BKind) (obj : Nat) : Bool :=
  d.breqs.any (fun r => decide (r.kind ∈ ks) && decide (r.obj = obj))

/-- Accept a boundary-bound request (R31). -/
def Device.request (d : Device) (k : BKind) (obj : Nat) (at' : Time) (o : Origin) (arg : List Nat) : Device :=
  { d with breqs := d.breqs ++ [⟨k, obj, at', d.time, o, arg⟩] }

/-- Whether a request takes effect at a boundary with stamp `b` (R31). -/
def BReq.due (r : BReq) (b : Time) : Bool := timeLE r.at' b && timeLT r.acc b

/-- The requests of a kind. -/
def Device.reqs (d : Device) (k : BKind) : List BReq := d.breqs.filter (fun r => decide (r.kind = k))

/-- Remove the requests of a kind on an object. -/
def Device.dropReq (d : Device) (k : BKind) (obj : Nat) : Device :=
  { d with breqs := d.breqs.filter (fun r => !(decide (r.kind = k) && decide (r.obj = obj))) }

/-! Engine events. -/

/-- An event queue entry (R264): number, A, B and C. -/
def evEntry (n a b c : Nat) : Nat := n % 256 + a % 4096 * 2 ^ 8 + b % 4096 * 2 ^ 20 + c % 2 ^ 32 * 2 ^ 32

/-- An event for a vacant engine is discarded and counted (R278). -/
def Device.vacantDrop (d : Device) (e : Nat) : Device :=
  d.flag (F.CL_FLAGS_VACANT_DROP (e / 16)) (Reg.CL_VACANT_DROP_CNT (e / 16))

/-- Queue an event entry at an engine (R264); at a full queue the entry is lost, at a vacant engine it is discarded
and counted (R278). -/
def Device.notify (d : Device) (e entry : Nat) : Device :=
  let x := d.eng e
  if x.state = 4 then d.vacantDrop e
  else if x.evq.length < 256 then d.setEng e { x with evq := x.evq ++ [entry] }
  else (d.setEng e { x with evLost := true }).flag (F.CL_FLAGS_EV_LOST (e / 16)) (Reg.CL_EV_LOST_CNT (e / 16))

/-- An ALARM entry to logical engine 0 (R263): engine, cause and PC. -/
def Device.alarm (d : Device) (e cause pc : Nat) : Device :=
  d.notify 0 (evEntry 21 e cause pc)

/-- Bytes of the local memories as a number: the memory of a vacant engine is lost (R278), and what it reads as is a free value. -/
def Device.localRead (d : Device) (p n : Nat) : Nat × Device :=
  if (d.eng (p / 0x4000)).state = 4 then (d.draw.1 % 2 ^ (8 * n), d.draw.2) else (memLE d.lmem p n, d)

/-- Write the local memories; what is written to the memory of a vacant engine goes nowhere (R278). -/
def Device.localWrite (d : Device) (p : Nat) (bs : List Byte) : Device :=
  if (d.eng (p / 0x4000)).state = 4 then d else { d with lmem := memWrite d.lmem p bs }

end Sys2Proof.Machine
end

