-- ==== Sys2Proof/Machine/Engines.lean ====
section
/-! DEFINITION. Engines and clusters (chapter "Analysis engines and clusters"): starting, stopping and faulting an engine
(R270 to R273), pending events (R263), the engine's data space and the far space (R255, R256, R267), completion slots
(R262), and mailboxes (R274 to R276). -/

namespace Sys2Proof.Machine

/-- An engine that counts as running for R48: any state except OFF and VACANT (R270). -/
def Engine.running (x : Engine) : Bool := decide (x.state ≠ 0) && decide (x.state ≠ 4)

/-- Whether any engine of cluster `k` is running (R48). -/
def Device.clusterRunning (d : Device) (k : Nat) : Bool :=
  (List.range 16).any (fun i => (d.eng (16 * k + i)).running)

/-- What START leaves of an engine (R272, R285): every register, port, timer and queue cleared, PC at the entry. -/
def Engine.started (x : Engine) (entry : Nat) : Engine :=
  { state := 1, pc := entry, code := x.code, busy := x.busy, fs := x.fs, fseq := x.fseq }

/-- The check of START (R272). -/
def Engine.startCode (x : Engine) : Nat :=
  firstCode [(decide (x.state = 1 ∨ x.state = 2), cBUSY), (decide (x.state = 4), cNOSPARE)]

/-- START of a logical engine at an entry (R272); the code it returns. -/
def Device.engStart (d : Device) (e entry : Nat) : Nat × Device :=
  let x := d.eng e
  let c := x.startCode
  if c = cOK then (c, d.setEng e (x.started entry)) else (c, d)

/-- What STOP and HALT leave of an engine (R272): OFF, its event queue cleared; its commands still complete. -/
def Engine.stopped (x : Engine) : Engine :=
  { x with state := 0, cause := 0, evq := [], evLost := false }

/-- STOP of a logical engine (R272). -/
def Device.engStop (d : Device) (e : Nat) : Nat × Device :=
  let x := d.eng e
  if x.state = 4 then (cNOSPARE, d) else if x.state = 0 then (cOK, d) else (cOK, d.setEng e x.stopped)

/-- The check of SIGNAL and TIMER (R272). -/
def Engine.signalCode (x : Engine) : Nat :=
  firstCode [(decide (x.state = 0 ∨ x.state = 3), cNOTARMED), (decide (x.state = 4), cNOSPARE)]

/-- An engine fault (R271): the engine stops with its PC at the instruction, and the lead engine gets an ALARM. -/
def Device.engFault (d : Device) (e cause : Nat) : Device :=
  let x := d.eng e
  ((d.setEng e { x with state := 3, cause := cause }).flag (F.CL_FLAGS_FAULT (e / 16))
    (Reg.CL_FAULT_CNT (e / 16))).alarm e cause x.pc

/-- Whether event `n` is pending at an engine (R263). -/
def Device.evPending (d : Device) (e n : Nat) : Bool :=
  let x := d.eng e
  if n < 16 then (x.port n).done
  else if n = 16 ∨ n = 17 ∨ n = 19 ∨ n = 21 then x.evq.any (fun w => decide (w % 256 = n))
  else if n = 18 then
    decide (d.rdN (Reg.MB_H2E_WR (e / 16)) ≠ d.rdN (Reg.MB_H2E_RD (e / 16))) &&
      decide (d.fld (F.MB_CFG_TARGET (e / 16)) = e % 16)
  else if n = 20 then x.timerExp
  else if n = 22 then x.evLost
  else false

/-- The pending events as the bits of CL_E_EVPEND (R263). -/
def Device.evMask (d : Device) (e : Nat) : Nat :=
  ((List.range 23).map (fun n => if d.evPending e n then 2 ^ n else 0)).sum

/-- Whether an event selected in ev is pending (R263, R266). -/
def Device.evSelected (d : Device) (e : Nat) : Bool :=
  (List.range 23).any (fun n => bitAt (d.eng e).ev n && d.evPending e n)

/-- A completion arrives in a port's slot (R262); at a vacant engine it is discarded and counted (R278). -/
def Device.deliverCompletion (d : Device) (c : Completion) : Device :=
  let x := d.eng c.e
  let p := x.port c.k
  if x.state = 4 then d.vacantDrop c.e
  else if p.outstanding then
    d.setEng c.e (x.setPort c.k { outstanding := false, done := true, stamped := c.stamp.isSome,
                                  code := c.code, stamp := c.stamp.getD 0 })
  else d

/-- The value a 32-bit load of a command port at +0x0 returns (R262). -/
def PortSt.word (p : PortSt) : Nat :=
  p.code % 256 + (if p.done then 0x100 else 0) + (if p.outstanding then 0x200 else 0) +
    (if p.stamped then 0x400 else 0)

/-! The engine's data space (R255). -/

/-- A place in an engine's data space. -/
inductive DLoc where
  | x (off : Nat)
  | y (off : Nat)
  | l (off : Nat)
  | port (k off : Nat)
  deriving DecidableEq, Repr

/-- The place an address names in the data space, for an access of `size` bytes; otherwise the fault cause of R271:
DATA_RANGE (3) or DATA_ALIGN (4). -/
def dataLoc (a size : Nat) : Except Nat DLoc :=
  let loc : Option DLoc :=
    if a < 0x80000 then some (.x a)
    else if 0x100000 ≤ a ∧ a < 0x180000 then some (.y (a - 0x100000))
    else if 0x200000 ≤ a ∧ a < 0x204000 then some (.l (a - 0x200000))
    else if 0x80000000 ≤ a ∧ a < 0x80000100 ∧ (a % 16 = 0 ∧ size ≤ 4 ∨ a % 16 = 8 ∧ size = 8) then
      some (.port ((a - 0x80000000) / 16) (a % 16))
    else none
  match loc with
  | none => .error 3
  | some w => if a % size = 0 then .ok w else .error 4

/-- Where an offset in the X or the Y memory of engine `e`'s cluster lies among the X or Y memories of all clusters (R255). -/
def clusterAt (e off : Nat) : Nat := e / 16 * 0x80000 + off

/-- Where an offset in engine `e`'s local memory lies among all local memories (R255). -/
def localAt (e off : Nat) : Nat := e * 0x4000 + off

/-- Bytes of a place of engine `e`'s data space; a command port gives R262's words. -/
def Device.dread (d : Device) (e : Nat) (w : DLoc) (size : Nat) : Nat :=
  match w with
  | .x off => memLE d.xmem (clusterAt e off) size
  | .y off => memLE d.ymem (clusterAt e off) size
  | .l off => memLE d.lmem (localAt e off) size
  | .port k off =>
    let p := (d.eng e).port k
    if off = 0 then p.word % 2 ^ (8 * size) else if p.stamped then p.stamp.toNat else 0

/-- An access of engine `e` to a place of X or Y memory takes part in its banks (R253). -/
def Device.bankTouch (d : Device) (e : Nat) (w : DLoc) : Device :=
  match w with
  | .x _ | .y _ => d.bankUse (e / 16)
  | _ => d

/-- What a load does besides reading: a load of a port at +0x0 that returns DONE clears it (R262); one of X or Y memory takes part in its banks
(R253). -/
def Device.dreadEffect (d : Device) (e : Nat) (w : DLoc) (size : Nat) : Device :=
  match w with
  | .port k off =>
    let x := d.eng e
    let p := x.port k
    if off = 0 ∧ 2 ≤ size ∧ p.done then d.setEng e (x.setPort k { p with done := false }) else d
  | .x _ | .y _ | .l _ => d.bankTouch e w

/-- Store bytes at a place of the data space; a command port takes no store (R256). -/
def Device.dwrite (d : Device) (e : Nat) (w : DLoc) (bs : List Byte) : Except Nat Device :=
  match w with
  | .x off => .ok (Device.bankTouch { d with xmem := memWrite d.xmem (clusterAt e off) bs } e w)
  | .y off => .ok (Device.bankTouch { d with ymem := memWrite d.ymem (clusterAt e off) bs } e w)
  | .l off => .ok { d with lmem := memWrite d.lmem (localAt e off) bs }
  | .port _ _ => .error 3

/-- The bytes left from a data address to the end of the memory that holds it (R260, R317, R318). -/
def roomFrom (a : Nat) : Nat :=
  if a < 0x80000 then 0x80000 - a
  else if 0x100000 ≤ a ∧ a < 0x180000 then 0x180000 - a
  else if 0x200000 ≤ a ∧ a < 0x204000 then 0x204000 - a
  else 0

/-! The far space (R267). -/

/-- A place in the far space. -/
inductive FLoc where
  | mem (a : Nat)
  | x (k off : Nat)
  | y (k off : Nat)
  | l (k off : Nat)
  | mbox (k off : Nat)
  | reg (k off : Nat)
  | ctx (off : Nat)
  deriving DecidableEq, Repr

/-- The place a far address names; otherwise FAR_RANGE (5) or FAR_ALIGN (6). -/
def farLoc (a size : Nat) : Except Nat FLoc :=
  let loc : Option FLoc :=
    if a < 0xC00000000 then some (.mem a)
    else if 0x100000000000 ≤ a ∧ a < 0x100020000000 then
      let k := (a - 0x100000000000) / 0x1000000
      let o := a % 0x1000000
      if o < 0x80000 then some (.x k o)
      else if 0x100000 ≤ o ∧ o < 0x180000 then some (.y k (o - 0x100000))
      else if 0x200000 ≤ o ∧ o < 0x240000 then some (.l k (o - 0x200000))
      else if 0x300000 ≤ o ∧ o < 0x310000 then some (.mbox k (o - 0x300000))
      else if 0x400000 ≤ o ∧ o < 0x410000 then some (.reg k (o - 0x400000))
      else none
    else if 0x200000000000 ≤ a ∧ a < 0x200000400000 then some (.ctx (a - 0x200000000000))
    else none
  match loc with
  | none => .error 5
  | some w => if a % size = 0 then .ok w else .error 6

/-! Mailboxes (R274 to R276). -/

/-- A mailbox write that breaks ownership or bounds (R275). -/
def Device.mbError (d : Device) (k : Nat) : Device := d.flag (F.MB_FLAGS_OVERRUN k) (Reg.MB_ERR_CNT k)

/-- The messages between two index values, modulo 2^16 (R275). -/
def mbCount (wr rd : Nat) : Nat := (wr + 0x10000 - rd) % 0x10000

/-- Whether a new WR keeps at most 32 messages (R275). -/
def mbWrOk (wr rd : Nat) : Bool := decide (mbCount wr rd ≤ 32)

/-- Whether a new RD stays at or before WR (R275): it may only advance over messages written. -/
def mbRdOk (wr old rd : Nat) : Bool := decide (mbCount rd old ≤ mbCount wr old)

end Sys2Proof.Machine
end

