-- ==== Sys2Proof/Machine/Flags.lean ====
section
/-! DEFINITION. The status register of an engine (R283): its fields, and the flag computations of the integer
instructions (R302 to R304). -/

namespace Sys2Proof.Machine

/-- Bit numbers of st (R283). -/
def stZ : Nat := 0
def stN : Nat := 1
def stC : Nat := 2
def stV : Nat := 3
def stQE : Nat := 4
def stQF : Nat := 5
def stQL : Nat := 6
def stQX : Nat := 7
def stPR : Nat := 8
def stEE : Nat := 9
def stAS : Nat := 10
def stRS : Nat := 11

/-- Write one bit of st. -/
def Engine.setSt (x : Engine) (bit : Nat) (b : Bool) : Engine :=
  { x with st := setBits x.st bit 1 (if b then 1 else 0) }

/-- Set a sticky bit of st when `b` holds. -/
def Engine.stick (x : Engine) (bit : Nat) (b : Bool) : Engine := if b then x.setSt bit true else x

/-- Z and N of a result (R302). -/
def Engine.flagsZN (x : Engine) (r : Word) : Engine :=
  (x.setSt stZ (decide (r = 0))).setSt stN r.msb

/-- C and V. -/
def Engine.flagsCV (x : Engine) (c v : Bool) : Engine := (x.setSt stC c).setSt stV v

/-- Carry out of an addition (R283). -/
def addCarry (a b : Word) : Bool := decide (2 ^ 32 ≤ a.toNat + b.toNat)

/-- Signed overflow of an addition. -/
def addOverflow (a b : Word) : Bool := saturates 32 (a.toInt + b.toInt)

/-- C of a subtraction: 1 when no borrow (R283). -/
def subCarry (a b : Word) : Bool := decide (b.toNat ≤ a.toNat)

/-- Signed overflow of a subtraction. -/
def subOverflow (a b : Word) : Bool := saturates 32 (a.toInt - b.toInt)

/-- The value st reads as: its RW fields, and the nesting depths RD and CD (R283). -/
def Engine.stWord (x : Engine) : Nat :=
  x.st % 0x1000 + x.reps.length % 8 * 2 ^ 16 + x.stack.length % 32 * 2 ^ 19

/-- A bit of st as it reads. -/
def Engine.stBit (x : Engine) (i : Nat) : Bool := bitAt x.stWord i

/-- A condition code (R309). -/
def Engine.cond (x : Engine) (c : Nat) : Bool :=
  let z := x.stBit stZ
  let n := x.stBit stN
  let cc := x.stBit stC
  let v := x.stBit stV
  match c with
  | 0 => true
  | 1 => z
  | 2 => !z
  | 3 => n != v
  | 4 => n == v
  | 5 => z || (n != v)
  | 6 => !z && (n == v)
  | 7 => !cc
  | 8 => cc
  | 9 => n
  | 10 => !n
  | 11 => v
  | 12 => !v
  | _ => false

end Sys2Proof.Machine
end

