-- ==== Sys2Proof/Machine/Numeric.lean ====
section
/-! DEFINITION. Exact and correctly rounded arithmetic: binary32 and binary64 (R149, R177, R304), square roots, sines and
cosines (R118, R142, R147), the Kaiser window's Bessel function (R141) and base-10 logarithms. Every function is
integer arithmetic with enough guard bits that the single rounding at the end is the correct one. -/

namespace Sys2Proof.Machine

/-- The integer square root of `n`, by bits: `fuel` bits from the top. -/
def isqrtGo : Nat → Nat → Nat → Nat
  | 0, _, r => r
  | fuel + 1, n, r =>
    let c := r + 2 ^ fuel
    isqrtGo fuel n (if c * c ≤ n then c else r)

/-- The integer square root of `n`. -/
def isqrt (n : Nat) : Nat := isqrtGo (n.log2 / 2 + 1) n 0

/-- A binary floating-point format: mantissa bits after the point, exponent bias. -/
structure FloatFmt where
  man : Nat
  bias : Nat
  deriving DecidableEq, Repr

/-- IEEE binary32. -/
def f32 : FloatFmt := ⟨23, 127⟩

/-- IEEE binary64. -/
def f64 : FloatFmt := ⟨52, 1023⟩

/-- The bit that carries the sign. -/
def FloatFmt.signBit (f : FloatFmt) : Nat := 2 ^ (f.man + (f.bias.log2 + 2))

/-- The encoding of infinity. -/
def FloatFmt.inf (f : FloatFmt) : Nat := (2 * f.bias + 1) * 2 ^ f.man

/-- The exponent of the ratio `n / d` (both positive): the largest `e` with `2^e ≤ n / d`. -/
def ratioExp (n d : Nat) : Int :=
  let e : Int := (n.log2 : Int) - (d.log2 : Int)
  if 0 ≤ e then (if d * 2 ^ e.toNat ≤ n then e else e - 1)
  else (if d ≤ n * 2 ^ (-e).toNat then e else e - 1)

/-- The encoding of the ratio `n / d` rounded once to nearest, ties to even; `neg` gives the sign. -/
def FloatFmt.ofRatio (f : FloatFmt) (neg : Bool) (n d : Nat) : Nat :=
  let s := if neg then f.signBit else 0
  if n = 0 then s else
    let e := max (ratioExp n d) (1 - (f.bias : Int))
    let sh : Int := (f.man : Int) - e
    let m := if 0 ≤ sh then roundHalfEven ((n * 2 ^ sh.toNat : Nat) : Int) (d : Nat)
             else roundHalfEven (n : Nat) ((d * 2 ^ (-sh).toNat : Nat) : Int)
    let enc := ((e + (f.bias : Int) - 1) * (2 ^ f.man : Nat) + m).toNat
    s + min enc f.inf

/-- The encoding of an exact integer ratio with a signed numerator. -/
def FloatFmt.ofInt (f : FloatFmt) (n : Int) (d : Nat) : Nat := f.ofRatio (decide (n < 0)) n.natAbs d

/-- Whether an encoding is a NaN. -/
def FloatFmt.isNaN (f : FloatFmt) (b : Nat) : Bool := decide (b % f.signBit > f.inf)

/-- Whether an encoding is an infinity. -/
def FloatFmt.isInf (f : FloatFmt) (b : Nat) : Bool := decide (b % f.signBit = f.inf)

/-- The finite value of an encoding as `m * 2^e`. -/
def FloatFmt.value (f : FloatFmt) (b : Nat) : Int × Int :=
  let mag := b % f.signBit
  let ex := mag / 2 ^ f.man
  let m := if ex = 0 then mag % 2 ^ f.man else mag % 2 ^ f.man + 2 ^ f.man
  let e : Int := (max ex 1 : Nat) - (f.bias : Int) - (f.man : Int)
  (if b / f.signBit % 2 = 1 then -(m : Int) else m, e)

/-- The finite value of an encoding as a ratio with a positive denominator. -/
def FloatFmt.ratio (f : FloatFmt) (b : Nat) : Int × Nat :=
  let (m, e) := f.value b
  if 0 ≤ e then (m * (2 ^ e.toNat : Nat), 1) else (m, 2 ^ (-e).toNat)

/-- The sum of two finite encodings, rounded once. -/
def FloatFmt.add (f : FloatFmt) (a b : Nat) : Nat :=
  let (n, d) := f.ratio a
  let (m, c) := f.ratio b
  f.ofInt (n * c + m * d) (d * c)

/-- The quotient of a finite encoding and a positive integer, rounded once. -/
def FloatFmt.divNat (f : FloatFmt) (a n : Nat) : Nat :=
  let (x, d) := f.ratio a
  f.ofInt x (d * n)

/-- Whether the finite value of `a` is below that of `b`. -/
def FloatFmt.lt (f : FloatFmt) (a b : Nat) : Bool :=
  let (n, d) := f.ratio a
  let (m, c) := f.ratio b
  decide (n * c < m * d)

/-- The finite value of an encoding, converted from one format to another with one rounding. -/
def FloatFmt.conv (f t : FloatFmt) (b : Nat) : Nat :=
  if f.isInf b then (if b / f.signBit % 2 = 1 then t.signBit + t.inf else t.inf)
  else let (n, d) := f.ratio b; t.ofInt n d

/-- The square root of the ratio `n / d`, rounded once: the root is taken with 160 guard bits and a sticky bit. -/
def FloatFmt.sqrtRatio (f : FloatFmt) (neg : Bool) (n d : Nat) : Nat :=
  let big := n * d * 2 ^ 320
  let r := isqrt big
  if r * r = big then f.ofRatio neg r (d * 2 ^ 160) else f.ofRatio neg (2 * r + 1) (2 * d * 2 ^ 160)

/-- Pi scaled by 2^120. -/
def piFix : Int := 4175892906503776358826876457663557747

/-- One in the fixed point of the trigonometric functions. -/
def oneFix : Int := 2 ^ 120

/-- The Taylor sum of a sine or cosine: `k` is the next odd or even index, `t` the current term. -/
def trigGo : Nat → Nat → Int → Int → Int → Int
  | 0, _, _, _, acc => acc
  | fuel + 1, k, x2, t, acc =>
    let t' := -(t * x2 / oneFix) / ((k * (k + 1) : Nat) : Int)
    trigGo fuel (k + 2) x2 t' (acc + t')

/-- The sine of `x`, fixed point, for x in [0, pi/2]. -/
def sinFix (x : Int) : Int := trigGo 32 2 (x * x / oneFix) x x

/-- The cosine of `x`, fixed point, for x in [0, pi/2]. -/
def cosFix (x : Int) : Int := trigGo 32 1 (x * x / oneFix) oneFix oneFix

/-- The sine and cosine of `2 pi num / den` in fixed point; exact at the quadrants. -/
def sinCos (num den : Nat) : Int × Int :=
  let num := num % den
  let q := 4 * num / den
  let r := 4 * num - q * den
  let x := piFix * (r : Int) / (2 * den : Nat)
  let s := if r = 0 then 0 else sinFix x
  let c := if r = 0 then oneFix else cosFix x
  match q with
  | 0 => (s, c)
  | 1 => (c, -s)
  | 2 => (-s, -c)
  | _ => (-c, s)

/-- The modified Bessel function I0 of an argument whose square over four is `z4` (scaled by 2^120). -/
def besselGo : Nat → Nat → Int → Int → Int → Int
  | 0, _, _, _, acc => acc
  | fuel + 1, k, z4, t, acc =>
    let t' := t * z4 / oneFix / ((k * k : Nat) : Int)
    besselGo fuel (k + 1) z4 t' (acc + t')

/-- I0 in fixed point, with `fuel` terms. -/
def besselI0 (fuel : Nat) (z4 : Int) : Int := besselGo fuel 1 z4 oneFix oneFix

/-- Fraction bits of log2 by repeated squaring: `m` in [1, 2) scaled by 2^62. -/
def log2Go : Nat → Nat → Nat → Nat
  | 0, _, acc => acc
  | fuel + 1, m, acc =>
    let m2 := m * m / 2 ^ 62
    if m2 ≥ 2 ^ 63 then log2Go fuel (m2 / 2) (2 * acc + 1) else log2Go fuel m2 (2 * acc)

/-- log2 of the positive ratio `n / d`, in units of 2^-40. -/
def log2Fix (n d : Nat) : Int :=
  let e := ratioExp n d
  let m := if 0 ≤ e then n * 2 ^ 62 / (d * 2 ^ e.toNat) else n * 2 ^ (62 + (-e).toNat) / d
  e * 2 ^ 40 + (log2Go 40 m 0 : Nat)

/-- 10 log10 of the positive ratio `n / d`, in units of 2^-40 dB: log2 times 3.01029995663981. -/
def tenLog10Fix (n d : Nat) : Int := log2Fix n d * 561672606 / 186583601

end Sys2Proof.Machine
end

