-- ==== Sys2Proof/WellFormed.lean ====
section
/-! DEFINITION. The well-formed commands: operands that name objects the device has, and Disoex fields that the encoding
admits (R288, R299 to R324). -/

namespace Sys2Proof

/-- An immediate that its form can carry (R298): imm16 or imm32. -/
def Imm.wf : Imm → Bool
  | .short n => decide (n < 2 ^ 16)
  | .long n => decide (n < 2 ^ 32)

/-- A move field that the second word admits (R300). -/
def Move.wf (m : Move) : Bool := decide (m.cn < 16) && decide (m.pn < 8) && decide (m.mode < 8)

/-- Whether an address mode updates its pointer (R293). -/
def modeUpdates (mode : Nat) : Bool := decide (mode ≠ 0) && decide (mode ≠ 7)

/-- Whether a move loads c register `c`. -/
def Move.loads (m : Move) (c : Nat) : Bool := !m.store && decide (m.cn = c)

/-- The moves of an instruction whose operation writes the c register `cd`, if any (R288, R300): each move admitted, no
c register written twice, no pointer updated twice. -/
def Moves.wf (mv : Moves) (cd : Option Nat) : Bool :=
  match mv with
  | none => true
  | some (x, y) =>
    (match x with | none => true | some m => m.wf && (match cd with | none => true | some c => !m.loads c)) &&
    (match y with | none => true | some m => m.wf && (match cd with | none => true | some c => !m.loads c)) &&
    (match x, y with
     | some a, some b =>
       !(!a.store && !b.store && decide (a.cn = b.cn)) &&
       !(modeUpdates a.mode && modeUpdates b.mode && decide (a.pn = b.pn))
     | _, _ => true)

/-- A register identifier that MOVR may read (R281). -/
def movrReadable (i : Nat) : Bool := decide (i < 0x3C) || (decide (0x40 ≤ i) && decide (i < 0x80))

/-- A register identifier that MOVR may write: lc and eid are read-only (R281). -/
def movrWritable (i : Nat) : Bool := movrReadable i && decide (i ≠ 0x3A) && decide (i ≠ 0x3B)

/-- A pass count source that REP admits (R311). -/
def RepSrc.wf : RepSrc → Bool
  | .imm n => decide (n < 2 ^ 12)
  | .long n => decide (n < 2 ^ 32)
  | .reg g => decide (g < 32)

/-- Three g registers. -/
def g3 (a b c : Nat) : Bool := decide (a < 32) && decide (b < 32) && decide (c < 32)

/-- The well-formed Disoex instructions, engine number apart; other commands answer true here. -/
def Instr.disoexOk : Instr → Bool
  | .add _ a b c | .sub _ a b c | .and _ a b c | .or _ a b c | .xor _ a b c | .shl _ a b c | .shr _ a b c
  | .sar _ a b c | .mul _ a b c | .mulh _ a b c | .mulhu _ a b c | .min _ a b c | .max _ a b c | .minu _ a b c
  | .maxu _ a b c => g3 a b c
  | .clz _ a b | .popc _ a b => g3 a b 0
  | .addi _ a b i | .andi _ a b i | .ori _ a b i | .xori _ a b i => g3 a b 0 && i.wf
  | .shli _ a b n | .shri _ a b n | .sari _ a b n => g3 a b n
  | .cmpi _ a i => g3 a 0 0 && i.wf
  | .ftoi _ a b x | .itof _ a b x => g3 a b 0 && decide (x < 64)
  | .movr _ a b => movrWritable a && movrReadable b
  | .ld _ g p m s _ => decide (g < 32) && decide (p < 8) && decide (m < 8) && decide (s < 3)
  | .st _ g p m s => decide (g < 32) && decide (p < 8) && decide (m < 8) && decide (s < 3)
  | .ldc _ c p m _ | .stc _ c p m _ => decide (c < 16) && decide (p < 8) && decide (m < 8)
  | .cmac _ a x y mv | .cmacc _ a x y mv | .cmsu _ a x y mv | .cmul _ a x y mv | .cmulc _ a x y mv =>
    decide (a < 8) && decide (x < 16) && decide (y < 16) && Moves.wf mv none
  | .cpow _ a x mv | .cpowa _ a x mv => decide (a < 8) && decide (x < 16) && Moves.wf mv none
  | .aclr _ a mv => decide (a < 8) && Moves.wf mv none
  | .cnop _ mv => Moves.wf mv none
  | .cmulr _ c a b mv | .cadd _ c a b mv | .csub _ c a b mv =>
    decide (c < 16) && decide (a < 16) && decide (b < 16) && Moves.wf mv (some c)
  | .cconj _ c a mv | .cmov _ c a mv => decide (c < 16) && decide (a < 16) && Moves.wf mv (some c)
  | .arndH _ c a h mv | .arndW _ c a h mv =>
    decide (c < 16) && decide (a < 8) && decide (h < 64) && Moves.wf mv (some c)
  | .cscl _ c a h mv => decide (c < 16) && decide (a < 16) && decide (h < 64) && Moves.wf mv (some c)
  | .aadd _ a b mv | .amov _ a b mv => decide (a < 8) && decide (b < 8) && Moves.wf mv none
  | .apeak _ a b g mv => decide (a < 8) && decide (b < 8) && decide (g < 32) && Moves.wf mv none
  | .cpeak _ a c g mv => decide (a < 8) && decide (c < 16) && decide (g < 32) && Moves.wf mv none
  | .br _ c o => decide (c < 13) && decide (o < 2 ^ 16)
  | .bbc _ b o | .bbs _ b o => decide (b < 32) && decide (o < 2 ^ 16)
  | .call _ o => decide (o < 2 ^ 16)
  | .callr _ g | .jmp _ g => decide (g < 32)
  | .ret _ => true
  | .brk _ c => decide (c < 13)
  | .rep _ s b => s.wf && decide (0 < b) && decide (b < 2 ^ 13)
  | .ucmd _ k g => decide (k < 16) && decide (g < 32) && decide (g % 2 = 0)
  | .qpush _ q n p | .qpop _ q n p => g3 q n 0 && decide (p < 8)
  | .qmark _ q | .qrew _ q | .qrel _ q => decide (q < 32)
  | .wait _ | .evack _ | .ffence _ | .nop _ | .halt _ | .sleep _ | .sync _ => true
  | .evget _ c => decide (c < 16)
  | .fld _ t g s u o =>
    decide (s < 4) && decide (t < if s = 3 then 16 else 32) && decide (g < 32) && decide (g % 2 = 0) &&
      decide (o < 2 ^ 12) && (!u || decide (s < 3))
  | .fst _ t g s o =>
    decide (s < 4) && decide (t < if s = 3 then 16 else 32) && decide (g < 32) && decide (g % 2 = 0) &&
      decide (o < 2 ^ 12)
  | .time _ g => decide (g < 32) && decide (g % 2 = 0)
  | .tprpg _ g _ | .tmisr _ g _ => decide (g < 31)
  | .tscan _ g _ => decide (g < 32)
  | _ => true

end Sys2Proof
end

