-- ==== Sys2Proof/Machine/Operands.lean ====
section
/-! DEFINITION. The operand forms of Disoex: registers (R280 to R284), immediates (R298, R303), address modes (R293 to
R295), data formats (R289 to R291, R301), and the moves of an extended instruction (R300). -/

namespace Sys2Proof

/-- An immediate, sign-extended (R303). -/
def Imm.sx : Imm → Word
  | .short n => BitVec.signExtend 32 (BitVec.ofNat 16 n)
  | .long n => BitVec.ofNat 32 n

/-- An immediate, zero-extended (R303). -/
def Imm.zx : Imm → Word
  | .short n => BitVec.ofNat 32 (n % 2 ^ 16)
  | .long n => BitVec.ofNat 32 n

/-- The words of an instruction with an immediate (R298). -/
def Imm.len : Imm → Nat
  | .short _ => 1
  | .long _ => 2

/-- The words of a complex instruction (R298). -/
def Moves.len (mv : Moves) : Nat := match mv with | none => 1 | some _ => 2

end Sys2Proof

namespace Sys2Proof.Machine

/-- g register: g0 reads as zero (R280). -/
def Engine.gr (x : Engine) (i : Nat) : Word := if i = 0 then 0 else Sparse.get (fun _ => (0 : Word)) x.g i

/-- Write a g register: writes to g0 are discarded (R280). -/
def Engine.setG (x : Engine) (i : Nat) (v : Word) : Engine :=
  if i = 0 then x else { x with g := Sparse.set (fun _ => (0 : Word)) x.g i v }

def Engine.cr (x : Engine) (i : Nat) : Word × Word := Sparse.get (fun _ => ((0 : Word), (0 : Word))) x.c i
def Engine.setC (x : Engine) (i : Nat) (v : Word × Word) : Engine :=
  { x with c := Sparse.set (fun _ => ((0 : Word), (0 : Word))) x.c i v }
def Engine.ar (x : Engine) (i : Nat) : Int × Int := Sparse.get (fun _ => ((0 : Int), (0 : Int))) x.a i
def Engine.setA (x : Engine) (i : Nat) (v : Int × Int) : Engine :=
  { x with a := Sparse.set (fun _ => ((0 : Int), (0 : Int))) x.a i v }
def Engine.pr (x : Engine) (i : Nat) : Word := Sparse.get (fun _ => (0 : Word)) x.p i
def Engine.setP (x : Engine) (i : Nat) (v : Word) : Engine :=
  { x with p := Sparse.set (fun _ => (0 : Word)) x.p i v }
def Engine.mr (x : Engine) (i : Nat) : Word := Sparse.get (fun _ => (0 : Word)) x.m i
def Engine.setM (x : Engine) (i : Nat) (v : Word) : Engine :=
  { x with m := Sparse.set (fun _ => (0 : Word)) x.m i v }
def Engine.lr (x : Engine) (i : Nat) : Word := Sparse.get (fun _ => (0 : Word)) x.l i
def Engine.setL (x : Engine) (i : Nat) (v : Word) : Engine :=
  { x with l := Sparse.set (fun _ => (0 : Word)) x.l i v }

/-- The 64-bit value of an even register pair {g(s+1), gs}. -/
def Engine.pair (x : Engine) (s : Nat) : Nat := (x.gr s).toNat + (x.gr (s + 1)).toNat * 2 ^ 32

/-! Address modes. -/

/-- The smallest `k` with `2^k ≥ l` (R294). -/
def ceilLog2 (l : Nat) : Nat := if l ≤ 1 then 0 else (l - 1).log2 + 1

/-- The circular update (R294). -/
def circular (p : Word) (l : Nat) (step : Int) : Word :=
  if l = 0 then BitVec.ofInt 32 (p.toNat + step)
  else
    let k := ceilLog2 l
    let base := p.toNat / 2 ^ k * 2 ^ k
    BitVec.ofNat 32 (base + (((p.toNat - base : Nat) + step) % (l : Int)).toNat)

/-- The low `w` bits of `n` reversed. -/
def revBits : Nat → Nat → Nat
  | 0, _ => 0
  | w + 1, n => (n % 2) * 2 ^ w + revBits w (n / 2)

/-- The bit-reversed update (R295). -/
def bitReversed (p m : Word) (l size : Nat) : Word :=
  let k := ceilLog2 l
  let s := if size = 8 then 3 else if size = 4 then 2 else if size = 2 then 1 else 0
  if k ≤ s then p
  else
    let w := k - s
    let f := bitsOf p.toNat s w
    let d := bitsOf m.toNat s w
    let f' := revBits w ((revBits w f + revBits w d) % 2 ^ w)
    BitVec.ofNat 32 (setBits p.toNat s w f')

/-- The address an access uses (R293). -/
def Engine.addr (x : Engine) (pn mode : Nat) : Nat :=
  if mode = 7 then (x.pr pn + x.mr pn).toNat else (x.pr pn).toNat

/-- The pointer after the access (R293). -/
def Engine.stepP (x : Engine) (pn mode size : Nat) : Word :=
  let p := x.pr pn
  match mode with
  | 1 => p + BitVec.ofNat 32 size
  | 2 => p - BitVec.ofNat 32 size
  | 3 => p + x.mr pn
  | 4 => circular p (x.lr pn).toNat size
  | 5 => circular p (x.lr pn).toNat (x.mr pn).toInt
  | 6 => bitReversed p (x.mr pn) (x.lr pn).toNat size
  | _ => p

/-! Data formats. -/

/-- The H view of a component (R289). -/
def hView (v : Word) : Int := v.toInt / 65536

/-- A word in H form (R291). -/
def hForm (h : Int) : Word := BitVec.ofInt 32 (h * 65536)

/-- A value times 2^k rounded half to even (R291). -/
def scaleRound (z k : Int) : Int :=
  if 0 ≤ k then z * (2 ^ k.toNat : Nat) else roundHalfEven z (2 ^ (-k).toNat : Nat)

/-- A 6-bit signed shift field. -/
def sh6 (n : Nat) : Int := signed 6 n

/-- The two words of a c register that the memory word `n` loads (R301). -/
def cLoad (wide : Bool) (n : Nat) : Word × Word :=
  if wide then (BitVec.ofNat 32 n, BitVec.ofNat 32 (n / 2 ^ 32))
  else (BitVec.ofNat 32 (n % 65536 * 65536), BitVec.ofNat 32 (n / 65536 % 65536 * 65536))

/-- The memory word that a c register stores (R301). -/
def cStore (wide : Bool) (v : Word × Word) : Nat :=
  if wide then v.1.toNat + v.2.toNat * 2 ^ 32 else v.1.toNat / 65536 + v.2.toNat / 65536 * 65536

/-- The size of a c access. -/
def cSize (wide : Bool) : Nat := if wide then 8 else 4

/-- The bytes of a size code (R305, R322). -/
def sizeBytes (size : Nat) : Nat := match size with | 0 => 1 | 1 => 2 | 2 => 4 | _ => 8

/-- A loaded value, sign- or zero-extended to 32 bits (R305). -/
def extendTo32 (n bytes : Nat) (u : Bool) : Word :=
  if u then BitVec.ofNat 32 n else BitVec.ofInt 32 (signed (8 * bytes) n)

/-! MOVR identifiers (R281, R282). -/

/-- The value a MOVR identifier reads; `e` is the engine's number. -/
def Engine.idRead (x : Engine) (e i : Nat) : Word :=
  if i < 0x20 then x.gr i
  else if i < 0x28 then x.pr (i - 0x20)
  else if i < 0x30 then x.mr (i - 0x28)
  else if i < 0x38 then x.lr (i - 0x30)
  else if i = 0x38 then BitVec.ofNat 32 x.stWord
  else if i = 0x39 then BitVec.ofNat 32 x.ev
  else if i = 0x3A then BitVec.ofNat 32 (match x.reps with | [] => 0 | r :: _ => r.count)
  else if i = 0x3B then BitVec.ofNat 32 e
  else if i < 0x50 then (x.cr (i - 0x40)).1
  else if i < 0x60 then (x.cr (i - 0x50)).2
  else if i < 0x68 then BitVec.ofInt 32 (x.ar (i - 0x60)).1
  else if i < 0x70 then BitVec.ofInt 32 ((x.ar (i - 0x68)).1 / 2 ^ 32)
  else if i < 0x78 then BitVec.ofInt 32 (x.ar (i - 0x70)).2
  else BitVec.ofInt 32 ((x.ar (i - 0x78)).2 / 2 ^ 32)

/-- Writing .l of an accumulator component: bits 47:32 become copies of bit 31 (R282). -/
def accLow (v : Word) : Int := v.toInt

/-- Writing .h of an accumulator component: bits 47:32 from the source's low half (R282). -/
def accHigh (a : Int) (v : Word) : Int := signed 16 v.toNat * 2 ^ 32 + a % 2 ^ 32

/-- What a MOVR identifier's write leaves of the engine. -/
def Engine.idWrite (x : Engine) (i : Nat) (v : Word) : Engine :=
  if i < 0x20 then x.setG i v
  else if i < 0x28 then x.setP (i - 0x20) v
  else if i < 0x30 then x.setM (i - 0x28) v
  else if i < 0x38 then x.setL (i - 0x30) v
  else if i = 0x38 then { x with st := v.toNat % 0x1000 }
  else if i = 0x39 then { x with ev := v.toNat % 2 ^ 23 }
  else if i < 0x40 then x
  else if i < 0x50 then x.setC (i - 0x40) (v, (x.cr (i - 0x40)).2)
  else if i < 0x60 then x.setC (i - 0x50) ((x.cr (i - 0x50)).1, v)
  else if i < 0x68 then x.setA (i - 0x60) (accLow v, (x.ar (i - 0x60)).2)
  else if i < 0x70 then x.setA (i - 0x68) (accHigh (x.ar (i - 0x68)).1 v, (x.ar (i - 0x68)).2)
  else if i < 0x78 then x.setA (i - 0x70) ((x.ar (i - 0x70)).1, accLow v)
  else x.setA (i - 0x78) ((x.ar (i - 0x78)).1, accHigh (x.ar (i - 0x78)).2 v)

end Sys2Proof.Machine
end

