-- ==== Sys2Proof/Machine/Disoex.lean ====
section
/-! DEFINITION. Issuing a Disoex instruction: stalls, faults, and retirement with branches, calls and block repeats (R271,
R286, R308 to R313, R323). -/

namespace Sys2Proof.Machine

/-- How an instruction moves the PC. -/
inductive Ctl where
  /-- To the next word, or back to the start of a block repeat. -/
  | seq
  /-- A taken branch or JMP to a target. -/
  | branch (t : Int)
  /-- A CALL or CALLR to a target. -/
  | call (t : Int)
  /-- RET. -/
  | ret
  /-- A BREAK that is taken. -/
  | brk
  /-- REP with passes to run: the new level. -/
  | loop (l : RepLevel)
  /-- REP with a pass count of 0: the last word of the skipped body. -/
  | skip (fin : Nat)
  /-- The PC stays: the engine waits in the instruction. -/
  | stay
  deriving DecidableEq, Repr

/-- The retirement of a body's end instruction at call depth `cd` (R312): the word to go back to, if any, and the
levels left. -/
def loopBack (w cd : Nat) : List RepLevel → Option Nat × List RepLevel
  | [] => (none, [])
  | r :: rs =>
    if r.fin = w ∧ r.calls = cd then
      if 1 < r.count then (some r.start, { r with count := r.count - 1 } :: rs) else loopBack w cd rs
    else (none, r :: rs)

/-- Whether word `w` ends the innermost active body at this call depth (R313). -/
def Engine.isEnd (x : Engine) (w : Nat) : Bool :=
  match x.reps with
  | [] => false
  | r :: _ => decide (r.fin = w) && decide (r.calls = x.stack.length)

/-- Whether a branch target leaves the innermost active body at the call depth of that body (R313). -/
def Engine.leavesBody (x : Engine) (t : Int) : Bool :=
  match x.reps with
  | [] => false
  | r :: _ => decide (r.calls = x.stack.length) && !(decide ((r.start : Int) ≤ t) && decide (t ≤ (r.fin : Int)))

/-- Whether a new body ends after the enclosing one at the same call depth (R313). -/
def Engine.overruns (x : Engine) (fin : Nat) : Bool :=
  match x.reps with
  | [] => false
  | r :: _ => decide (r.calls = x.stack.length) && decide (r.fin < fin)

/-- Whether the innermost level was started at this call depth (R313). -/
def Engine.levelHere (x : Engine) : Bool :=
  match x.reps with
  | [] => false
  | r :: _ => decide (r.calls = x.stack.length)

/-- Retire an instruction of `len` words (R308 to R313): the engine with its new PC, or the cause of a fault. -/
def Engine.retire (x : Engine) (len : Nat) : Ctl → Except Nat Engine
  | .seq =>
    let (o, rs) := loopBack (x.pc + len - 1) x.stack.length x.reps
    .ok { x with pc := o.getD (x.pc + len), reps := rs }
  | .branch t =>
    if t < 0 ∨ 0xFFFF < t then .error 2
    else if x.isEnd (x.pc + len - 1) || x.leavesBody t then .error 9
    else .ok { x with pc := t.toNat }
  | .call t =>
    if t < 0 ∨ 0xFFFF < t then .error 2
    else if 16 ≤ x.stack.length then .error 8
    else if x.isEnd (x.pc + len - 1) then .error 9
    else .ok { x with pc := t.toNat, stack := (x.pc + len) :: x.stack }
  | .ret =>
    match x.stack with
    | [] => .error 8
    | a :: rest => if x.levelHere then .error 9 else .ok { x with pc := a, stack := rest }
  | .brk =>
    match x.reps with
    | [] => .error 9
    | r :: rest =>
      if x.isEnd (x.pc + len - 1) then .error 9
      else .ok { x with pc := r.fin + 1, reps := rest }
  | .loop l =>
    if 4 ≤ x.reps.length || x.isEnd (x.pc + len - 1) || x.overruns l.fin then .error 9
    else .ok { x with pc := l.start, reps := l :: x.reps }
  | .skip fin =>
    if x.isEnd (x.pc + len - 1) || x.overruns fin then .error 9 else .ok { x with pc := fin + 1 }
  | .stay => .ok x

/-- Whether an instruction that reads or writes the registers of `touch` stalls for a far load (R287, R323): g registers
by number, c registers from 0x40. -/
def Engine.farStall (x : Engine) (touch : List Nat) : Bool :=
  touch.any (fun t => decide (t ≠ 0) && x.fl.any (fun l => decide (l.dst = t)))

/-- Issue the instruction `i` of `len` words on engine `e`. A stalled engine keeps its state; a fault leaves the
instruction without effect (R271). -/
def Device.issue (d : Device) (e : Nat) (i : Instr) (len : Nat) (touch : List Nat)
    (f : Device → Except Nat (Device × Ctl)) : Device :=
  let x := d.eng e
  if x.state ≠ 1 ∨ 512 ≤ e ∨ d.sys.asleep ∨ x.farStall touch then d
  else if 0x10000 < x.pc + len then d.engFault e 2
  else if !i.disoexOk then d.engFault e 1
  else if len = 2 && x.isEnd x.pc then d.engFault e 9
  else
    match f d with
    | .error c => d.engFault e c
    | .ok (d', ctl) =>
      match (d'.eng e).retire len ctl with
      | .error c => d.engFault e c
      | .ok x' => d'.setEng e x'

/-- Issue an instruction whose effect lies in the engine's registers alone. -/
def Device.issueReg (d : Device) (e : Nat) (i : Instr) (len : Nat) (touch : List Nat) (g : Engine → Engine) : Device :=
  d.issue e i len touch (fun d => .ok (d.setEng e (g (d.eng e)), .seq))

/-- Issue an instruction that only moves the PC. -/
def Device.issueCtl (d : Device) (e : Nat) (i : Instr) (len : Nat) (touch : List Nat) (c : Engine → Ctl) : Device :=
  d.issue e i len touch (fun d => .ok (d, c (d.eng e)))

end Sys2Proof.Machine
end

