-- ==== Sys2Proof/Machine/Commands.lean ====
section
/-! DEFINITION. Unit command words (R257 to R261): the table of classes and operations with their parameter blocks and the
objects they address, the port's check, and a unit's acceptance of a word. -/

namespace Sys2Proof.Machine

/-- For a class and an operation of R259: the bytes of its parameter block and the number of objects UNIT may name
(1: the operation addresses no object, and UNIT is zero). -/
def opRow (cls op : Nat) : Option (Nat × Nat) :=
  let l : List (Nat × Nat) :=
    match cls with
    | 0x00 => [(16, 1), (24, 1), (0, 1)]
    | 0x01 => [(24, 1), (8, 8)]
    | 0x02 => [(32, 8), (32, 8), (32, 8)]
    | 0x03 => [(8, 1), (8, 8), (40, 16), (8, 16), (16, 16)]
    | 0x04 => [(24, 1), (8, 1), (0, 4096)]
    | 0x05 => [(16, 1)]
    | 0x06 => [(24, 1), (24, 1)]
    | 0x07 => [(48, 64), (8, 64), (8, 64)]
    | 0x08 => [(60, 64), (8, 64), (0, 64)]
    | 0x09 => [(16, 4096), (0, 4096)]
    | 0x0A => [(64, 32), (16, 32), (0, 32), (64, 8), (0, 8)]
    | 0x0B => [(16, 1), (16, 1)]
    | 0x0C => [(20, 64), (0, 64), (0, 64)]
    | 0x0D => [(20, 16), (0, 16), (24, 8), (8, 8), (16, 1)]
    | 0x0E => [(8, 8), (0, 8), (0, 8), (0, 8), (0, 8)]
    | 0x0F => [(8, 1), (0, 8)]
    | 0x10 => [(0, 780), (0, 780)]
    | 0x11 => [(0, 780)]
    | 0x12 => [(0, 1), (0, 1), (8, 1), (0, 1), (0, 1)]
    | 0x13 => [(0, 1), (0, 1), (0, 1), (8, 4)]
    | 0x14 => [(0, 512), (0, 512), (0, 512), (8, 512)]
    | _ => []
  if op = 0 then none else l[op - 1]?

/-- The port's check of a command word (R260). -/
def wordCode (w : Nat) : Nat :=
  let pb := bitAt w 52
  let off := bitsOf w 32 19
  let misaligned := decide (off % 8 ≠ 0)
  match opRow (bitsOf w 58 6) (bitsOf w 53 5) with
  | none => firstCode [(misaligned, cALIGN), (true, cUNSUP)]
  | some (size, units) =>
    firstCode [(pb && decide (0x80000 < off + size), cLENGTH), (misaligned, cALIGN),
      (decide (bitsOf w 12 4 ≠ 0) || (pb != decide (size ≠ 0)) || decide (units ≤ bitsOf w 0 12), cUNSUP)]

/-- The parameter block that a word names, copied from the engine's X or Y memory (R261). -/
def Device.blockOf (d : Device) (e w : Nat) : List Byte :=
  match opRow (bitsOf w 58 6) (bitsOf w 53 5) with
  | none => []
  | some (size, _) =>
    memBytes (if bitAt w 51 then d.ymem else d.xmem) (clusterAt e (bitsOf w 32 19)) size

/-- Issue a checked word at a port (R257, R262): the port is outstanding, and the word is on its way to its unit. -/
def Device.send64 (d : Device) (e k w : Nat) (block : List Byte) : Device :=
  let x := d.eng e
  let d := d.setEng e (x.setPort k { outstanding := true, done := false, stamped := false, code := 0, stamp := 0 })
  { d with issued := d.issued ++ [⟨e, k, w, block⟩] }

/-- A UCMD word at port `k` of engine `e` (R257, R260, R315). -/
def Device.ucmdWord (d : Device) (e k w : Nat) (block : List Byte) : Device :=
  let x := d.eng e
  let p := x.port k
  if p.outstanding then
    (d.setEng e (x.setSt stPR true)).flag (F.CL_FLAGS_PORT_REFUSED (e / 16)) (Reg.CL_PORT_REFUSED_CNT (e / 16))
  else
    let d := d.setEng e (x.setSt stPR false)
    let c := wordCode w
    if c = cOK then d.send64 e k w block
    else
      d.setEng e ((d.eng e).setPort k { outstanding := false, done := true, stamped := false, code := c, stamp := 0 })

/-- Whether an issued word spells the operation `op` of class `cls` with a command's operands (R258, R259, R261). -/
def Issued.spells (i : Issued) (cls op : Nat) (u : UCmd) : Bool :=
  decide (bitsOf i.word 58 6 = cls) && decide (bitsOf i.word 53 5 = op) && decide (bitsOf i.word 0 12 = u.unit) &&
    decide (bitsOf i.word 16 16 = u.imm) && decide (i.block = u.block)

/-- Whether a word is the one at a command's port. -/
def Issued.at' (i : Issued) (u : UCmd) : Bool := decide (i.e = u.e) && decide (i.k = u.k)

/-- Whether the unit of class `cls` may take a command now: the oldest word on its way from the command's port spells the command, and the engine
has issued no earlier word to that unit that is still on its way (R43). DESIGN CHOICE (log entry 134): with no word of the port on its way and the
port free, the word is issued and taken at once. -/
def Device.takes (d : Device) (cls op : Nat) (u : UCmd) : Bool :=
  decide (u.e < 512) && decide (u.k < 16) &&
    match d.issued.find? (fun i => i.at' u) with
    | none => !((d.eng u.e).port u.k).outstanding
    | some i => i.spells cls op u &&
        (d.issued.takeWhile (fun j => !j.at' u)).all (fun j => !(decide (j.e = u.e) && decide (bitsOf j.word 58 6 = cls)))

/-- A unit accepts a word: it is no longer on its way, and its port is outstanding until the unit answers. -/
def Device.accept (d : Device) (u : UCmd) : Device :=
  if d.issued.any (fun i => i.at' u) then { d with issued := d.issued.eraseP (fun i => i.at' u) }
  else d.setEng u.e ((d.eng u.e).setPort u.k { outstanding := true, done := false, stamped := false, code := 0, stamp := 0 })

/-- A command word of class `cls` and operation `op` comes to its unit, which does `f` (R42, R258, R259); a UNIT that names no object is refused
(R260). A word that may not come now changes nothing. -/
def Device.unitCmd (d : Device) (cls op : Nat) (u : UCmd) (f : Device → Device) : Device :=
  if d.takes cls op u then
    match opRow cls op with
    | some (_, units) => if units ≤ u.unit then (d.accept u).complete u.origin cUNSUP none else f (d.accept u)
    | none => d
  else d

end Sys2Proof.Machine
end

