-- ==== Sys2Proof/Machine/Inflate.lean ====
section
/-! DEFINITION. Frames of compressed data (R380 to R382, R395): CRC-32C, the decoder of DEFLATE data with the faults of R395 in
stream order, and the frames that a compressor writes. -/

namespace Sys2Proof.Machine

/-! CRC-32C (R381). -/

/-- One bit of the reflected CRC. -/
def crcBits : Nat → Nat → Nat
  | 0, c => c
  | k + 1, c => if c % 2 = 1 then crcBits k (Nat.xor (c / 2) 0x82F63B78) else crcBits k (c / 2)

/-- The CRC register after some bytes. -/
def crcRun : List Byte → Nat → Nat
  | [], c => c
  | b :: bs, c => crcRun bs (crcBits 8 (Nat.xor c b.toNat))

/-- The CRC-32C of some bytes. -/
def crc32c (bs : List Byte) : Nat := Nat.xor (crcRun bs 0xFFFFFFFF) 0xFFFFFFFF

/-! DEFLATE data. Every step answers a fault code or a value with the bits that remain. -/

/-- The bits of some bytes, each byte from its least significant bit. -/
def bitsOfBytes (bs : List Byte) : List Bool := bs.flatMap (fun b => (List.range 8).map (fun i => bitAt b.toNat i))

/-- `n` bits as a number, least significant first. -/
def getBits : Nat → List Bool → Except Nat (Nat × List Bool)
  | 0, bs => .ok (0, bs)
  | _ + 1, [] => .error cTRUNC
  | n + 1, b :: bs =>
    match getBits n bs with
    | .error e => .error e
    | .ok (v, r) => .ok ((if b then 1 else 0) + 2 * v, r)

/-- A Huffman code as its counts by length and its symbols in code order. -/
structure Huff where
  counts : List Nat
  syms : List Nat
  deriving DecidableEq, Repr

/-- The canonical code of a list of lengths. -/
def huffOf (lens : List Nat) : Huff :=
  let z := (List.range lens.length).zip lens
  ⟨(List.range 15).map (fun l => (lens.filter (fun x => decide (x = l + 1))).length),
   (List.range 15).flatMap (fun l => (z.filter (fun x => decide (x.2 = l + 1))).map Prod.fst)⟩

/-- What the code space has left over: negative where it is over-subscribed. -/
def huffLeft (h : Huff) : Int := h.counts.foldl (fun l c => 2 * l - c) 1

/-- Decode one symbol: `code`, `first` and `index` walk the lengths. -/
def huffSym : List Nat → List Nat → Int → Int → Nat → List Bool → Except Nat (Nat × List Bool)
  | [], _, _, _, _, _ => .error cILLEGAL
  | _ :: _, _, _, _, _, [] => .error cTRUNC
  | c :: cs, syms, code, first, index, b :: bs =>
    let code := code + (if b then 1 else 0)
    if code - c < first then .ok (syms.getD (index + (code - first).toNat) 0, bs)
    else huffSym cs syms (2 * code) (2 * (first + c)) (index + c) bs

/-- Decode one symbol of a code. -/
def Huff.sym (h : Huff) (bs : List Bool) : Except Nat (Nat × List Bool) := huffSym h.counts h.syms 0 0 0 bs

def lenBase : List Nat :=
  [3, 4, 5, 6, 7, 8, 9, 10, 11, 13, 15, 17, 19, 23, 27, 31, 35, 43, 51, 59, 67, 83, 99, 115, 131, 163, 195, 227, 258]
def lenExtra : List Nat := [0, 0, 0, 0, 0, 0, 0, 0, 1, 1, 1, 1, 2, 2, 2, 2, 3, 3, 3, 3, 4, 4, 4, 4, 5, 5, 5, 5, 0]
def distBase : List Nat :=
  [1, 2, 3, 4, 5, 7, 9, 13, 17, 25, 33, 49, 65, 97, 129, 193, 257, 385, 513, 769, 1025, 1537, 2049, 3073, 4097, 6145, 8193, 12289,
   16385, 24577]
def distExtra : List Nat :=
  [0, 0, 0, 0, 1, 1, 2, 2, 3, 3, 4, 4, 5, 5, 6, 6, 7, 7, 8, 8, 9, 9, 10, 10, 11, 11, 12, 12, 13, 13]

/-- Copy `n` bytes from `dist` back in an output held newest first. -/
def copyBack : Nat → Nat → List Byte → List Byte
  | 0, _, out => out
  | n + 1, dist, out => copyBack n dist (out.getD (dist - 1) 0 :: out)

/-- The symbols of a compressed block (R395); `limit` is ORIG_LEN. -/
def inflateSyms (lit dist : Huff) (limit : Nat) : Nat → List Bool → List Byte → Except Nat (List Bool × List Byte)
  | 0, _, _ => .error cTRUNC
  | fuel + 1, bs, out =>
    match lit.sym bs with
    | .error e => .error e
    | .ok (s, bs) =>
      if s < 256 then
        if limit ≤ out.length then .error cOVERRUN else inflateSyms lit dist limit fuel bs (BitVec.ofNat 8 s :: out)
      else if s = 256 then .ok (bs, out)
      else if 285 < s then .error cILLEGAL
      else
        match getBits (lenExtra.getD (s - 257) 0) bs with
        | .error e => .error e
        | .ok (x, bs) =>
          let len := lenBase.getD (s - 257) 0 + x
          match dist.sym bs with
          | .error e => .error e
          | .ok (ds, bs) =>
            if 29 < ds then .error cILLEGAL
            else
              match getBits (distExtra.getD ds 0) bs with
              | .error e => .error e
              | .ok (y, bs) =>
                let back := distBase.getD ds 0 + y
                if out.length < back then .error cDISTANCE
                else if limit < out.length + len then .error cOVERRUN
                else inflateSyms lit dist limit fuel bs (copyBack len back out)

/-- Code lengths of a dynamic block (RFC 1951): `prev` is the last length. -/
def codeLens (cl : Huff) : Nat → Nat → List Bool → List Nat → Except Nat (List Bool × List Nat)
  | 0, _, _, _ => .error cTRUNC
  | fuel + 1, want, bs, acc =>
    if want ≤ acc.length then (if acc.length = want then .ok (bs, acc) else .error cILLEGAL)
    else
      match cl.sym bs with
      | .error e => .error e
      | .ok (s, bs) =>
        if s < 16 then codeLens cl fuel want bs (acc ++ [s])
        else
          let w := if s = 16 then 2 else if s = 17 then 3 else 7
          let base := if s = 18 then 11 else 3
          match getBits w bs with
          | .error e => .error e
          | .ok (x, bs) =>
            if s = 16 ∧ acc = [] then .error cILLEGAL
            else
              let v := if s = 16 then acc.getLastD 0 else 0
              if want < acc.length + base + x then .error cILLEGAL
              else codeLens cl fuel want bs (acc ++ List.replicate (base + x) v)

/-- The 3-bit lengths of the code-length code. -/
def clLens : Nat → List Bool → Except Nat (List Nat × List Bool)
  | 0, bs => .ok ([], bs)
  | n + 1, bs =>
    match getBits 3 bs with
    | .error e => .error e
    | .ok (v, bs) => match clLens n bs with
      | .error e => .error e
      | .ok (l, bs) => .ok (v :: l, bs)

/-- The order of the code-length code's lengths. -/
def clOrder : List Nat := [16, 17, 18, 0, 8, 7, 9, 6, 10, 5, 11, 4, 12, 3, 13, 2, 14, 1, 15]

/-- The codes of a dynamic block. -/
def dynamicCodes (bs : List Bool) : Except Nat (Huff × Huff × List Bool) := do
  let (hl, bs) ← getBits 5 bs
  let (hd, bs) ← getBits 5 bs
  let (hc, bs) ← getBits 4 bs
  let (l, bs) ← clLens (hc + 4) bs
  let lens := (List.range 19).map (fun s => match clOrder.findIdx? (fun x => decide (x = s)) with
    | none => 0
    | some i => l.getD i 0)
  let cl := huffOf lens
  if huffLeft cl ≠ 0 then .error cILLEGAL
  else
    let nl := hl + 257
    let nd := hd + 1
    let (bs, all) ← codeLens cl (bs.length + 1) (nl + nd) bs []
    let lit := huffOf (all.take nl)
    let dist := huffOf (all.drop nl)
    let one := decide (dist.syms.length ≤ 1) && decide (dist.counts.headD 0 = dist.syms.length)
    if huffLeft lit ≠ 0 then .error cILLEGAL
    else if huffLeft dist ≠ 0 ∧ !one then .error cILLEGAL
    else .ok (lit, dist, bs)

/-- The fixed codes. -/
def fixedLit : Huff :=
  huffOf (List.replicate 144 8 ++ List.replicate 112 9 ++ List.replicate 24 7 ++ List.replicate 8 8)
def fixedDist : Huff := huffOf (List.replicate 32 5)

/-- Bytes of a stored block. -/
def storedBytes (limit : Nat) : Nat → List Bool → List Byte → Except Nat (List Bool × List Byte)
  | 0, bs, out => .ok (bs, out)
  | n + 1, bs, out =>
    match getBits 8 bs with
    | .error e => .error e
    | .ok (v, bs) => if limit ≤ out.length then .error cOVERRUN else storedBytes limit n bs (BitVec.ofNat 8 v :: out)

/-- One block after its header bits. -/
def inflateBlock (ty limit : Nat) (bs : List Bool) (out : List Byte) : Except Nat (List Bool × List Byte) :=
  match ty with
  | 0 => do
    let bs := bs.drop (bs.length % 8)
    let (n, bs) ← getBits 16 bs
    let (m, bs) ← getBits 16 bs
    if n + m ≠ 65535 then .error cILLEGAL else storedBytes limit n bs out
  | 1 => inflateSyms fixedLit fixedDist limit (bs.length + 1) bs out
  | 2 => do
    let (lit, dist, bs) ← dynamicCodes bs
    inflateSyms lit dist limit (bs.length + 1) bs out
  | _ => .error cILLEGAL

/-- The blocks of a frame's data, up to and with the final one. -/
def inflateGo (limit : Nat) : Nat → List Bool → List Byte → Except Nat (List Bool × List Byte)
  | 0, _, _ => .error cTRUNC
  | fuel + 1, bs, out => do
    let (fin, bs) ← getBits 1 bs
    let (ty, bs) ← getBits 2 bs
    let (bs, out) ← inflateBlock ty limit bs out
    if fin = 1 then .ok (bs, out) else inflateGo limit fuel bs out

/-- Inflate DEFLATE data that holds `limit` original bytes (R395). -/
def inflate (data : List Byte) (limit : Nat) : Except Nat (List Byte) := do
  let bits := bitsOfBytes data
  let (bs, out) ← inflateGo limit (bits.length + 1) bits []
  if 8 ≤ bs.length ∨ bs.any id then .error cILLEGAL
  else if out.length < limit then .error cTRUNC
  else .ok out.reverse

/-- Check and decode the frame at the head of some bytes (R395): the bytes it takes and its original data. -/
def readFrame (bs : List Byte) : Except Nat (Nat × List Byte) :=
  let b (i : Nat) : Nat := (bs.getD i 0).toNat
  let comp := ofBytesLE ((bs.drop 8).take 4)
  let tail := bs.drop (16 + comp)
  let orig := ofBytesLE ((tail.drop 4).take 4)
  if bs.length < 16 then .error cTRUNC
  else if ofBytesLE (bs.take 4) ≠ 0x314B465A ∨ b 4 ≠ 1 ∨ 3 < b 5 ∨ b 7 ≠ 0 then .error cILLEGAL
  else if bs.length < comp + 24 then .error cTRUNC
  else if orig = 0 then .error cILLEGAL
  else if 65536 < orig then .error cOVERRUN
  else
    match inflate ((bs.drop 16).take comp) orig with
    | .error e => .error e
    | .ok out => if crc32c out = ofBytesLE (tail.take 4) then .ok (24 + comp, out) else .error cCRC

/-! Writing frames (R382). -/

/-- Stored blocks of 32,768 bytes. -/
def storedBlocks : Nat → List Byte → List Byte
  | 0, _ => []
  | fuel + 1, bs =>
    let a := bs.take 32768
    let r := bs.drop 32768
    BitVec.ofNat 8 (if r.isEmpty then 1 else 0) :: bytesLE 2 a.length ++ bytesLE 2 (65535 - a.length) ++ a ++
      (if r.isEmpty then [] else storedBlocks fuel r)

/-- The DEFLATE data of a frame: the dynamic-Huffman block (BTYPE 10) with BFINAL 1 that the part writes, which R382 leaves open but for its
limits, where it is shorter than the original and inflates to it; otherwise stored blocks. -/
def frameData (level : Nat) (orig : List Byte) : Bool × List Byte :=
  let z := Config.deflate level orig
  let good := decide (z.length < orig.length) && decide ((z.headD 0).toNat % 8 = 5) && (match inflate z orig.length with
    | .ok out => decide (out = orig)
    | .error _ => false)
  if good then (false, z) else (true, storedBlocks (orig.length / 32768 + 1) orig)

/-- A frame (R380 to R382), and whether its data is stored. -/
def frameOf (level no : Nat) (last : Bool) (orig : List Byte) : Bool × List Byte :=
  let d := frameData level orig
  (d.1, bytesLE 4 0x314B465A ++ bytesLE 1 1 ++ bytesLE 1 ((if d.1 then 1 else 0) + (if last then 2 else 0)) ++ bytesLE 1 level ++
    bytesLE 1 0 ++ bytesLE 4 d.2.length ++ bytesLE 4 no ++ d.2 ++ bytesLE 4 (crc32c orig) ++ bytesLE 4 orig.length)

end Sys2Proof.Machine
end

