-- ==== Sys2Proof/Machine/Queues.lean ====
section
/-! DEFINITION. Queues (chapter "Queues and records"): on-chip and home slots (R353 to R355), the header fields the queue
fills (R356), pushing (R361 to R364), completing (R361, R367), reading, marking, rewinding and releasing (R366), the
occupancy vector (R369), enabling and disabling (R373, R374), and the host window (R371, R372). -/

namespace Sys2Proof.Machine

def Device.queue (d : Device) (q : Nat) : Queue := Sparse.get (fun _ => {}) d.queues q
def Device.setQueue (d : Device) (q : Nat) (x : Queue) : Device :=
  { d with queues := Sparse.set (fun _ => {}) d.queues q x }

/-- Whether a queue is enabled (R373). -/
def Device.qOn (d : Device) (q : Nat) : Bool := d.isSet (F.QUE_Q_STAT_ENABLED q)

/-- The capacity of a queue in slots (R353). -/
def Device.qSlots (d : Device) (q : Nat) : Nat := d.rdN (Reg.QUE_Q_SLOTS q)

/-- The base of a queue's home region (R353). -/
def Device.qBase (d : Device) (q : Nat) : Nat := d.rd64 (Reg.QUE_Q_BASE_LO q)

/-- The home of the slot at absolute position `n` (R353). -/
def Device.qHome (d : Device) (q n : Nat) : Nat := d.qBase q + 64 * (n % d.qSlots q)

/-- The on-chip copy of a slot, if the head or the tail holds it. -/
def Queue.chip (x : Queue) (n : Nat) : Option QSlot := Sparse.get (fun _ => none) x.slots n

/-- Put a slot on chip, or take it off. -/
def Queue.setChip (x : Queue) (n : Nat) (v : Option QSlot) : Queue :=
  { x with slots := Sparse.set (fun _ => none) x.slots n v }

/-- The bytes of a slot: its on-chip copy, otherwise what its home holds (R355). -/
def Device.qSlot (d : Device) (q n : Nat) : List Byte :=
  match (d.queue q).chip n with
  | some s => s.data
  | none => memBytes d.mem (d.qHome q n) 64

/-- Whether a slot stays on chip (R355): in the head, the 16 slots from Rd, or in the tail, the 16 newest. -/
def Queue.keeps (x : Queue) (n : Nat) : Bool :=
  (decide (x.rd ≤ n) && decide (n < x.rd + 16)) || decide (x.r ≤ n + 16)

/-- Move out of on-chip storage every slot that must leave it (R355): an unreleased slot goes to its home. -/
def Device.qSettle (d : Device) (q : Nat) : Device :=
  let x := d.queue q
  x.slots.foldl (fun d kv =>
    let n := kv.1
    let y := d.queue q
    if x.f ≤ n ∧ x.keeps n then d
    else
      let d' := d.setQueue q (y.setChip n none)
      match kv.2 with
      | some s => if x.f ≤ n then (d'.store (d.qHome q n) s.data).moved 3 else d'
      | none => d') d

/-- Slots not reserved (R361, R363). -/
def Device.qFree (d : Device) (q : Nat) : Nat := d.qSlots q - ((d.queue q).r - (d.queue q).f)

/-- USED = W - F (R354). -/
def Queue.used (x : Queue) : Nat := x.w - x.f

/-- The complete records from Rd to W (R354). -/
def Queue.ready (x : Queue) : List QRec := x.recs.filter (fun r => r.done && decide (x.rd ≤ r.start))

/-- RECORDS (R354). -/
def Queue.records (x : Queue) : Nat := x.ready.length

/-- The next record to read. -/
def Queue.next (x : Queue) : Option QRec := x.ready.head?

/-- `l` with its element `i` replaced. -/
def putByte (l : List Byte) (i n : Nat) : List Byte := l.set i (BitVec.ofNat 8 n)

/-- Replace bytes of a list from index `i`. -/
def putBytes : List Byte → Nat → List Byte → List Byte
  | l, _, [] => l
  | l, i, b :: bs => putBytes (l.set i b) (i + 1) bs

/-- A list of bytes at its full length, zeros after the last. -/
def padTo (l : List Byte) (n : Nat) : List Byte := l ++ List.replicate (n - l.length) 0

/-- The header fields the queue fills (R356): DROPPED, ORIGIN and SEQUENCE. -/
def queueHeader (bs : List Byte) (dropped : Bool) (cls unit seq : Nat) : List Byte :=
  let x := (bs.getD 2 0).toNat
  putBytes (putBytes (putByte bs 2 (setBits x 7 1 (if dropped then 1 else 0))) 10 (bytesLE 2 (unit % 512 + cls % 64 * 512)))
    12 (bytesLE 4 seq)

/-- Slots of a record of `l` bytes (R352). -/
def slotsOf (l : Nat) : Nat := ceilDiv l 64

/-- Put the slots of a record on chip. -/
def putSlots : Queue → Nat → List Byte → Nat → Queue
  | x, _, _, 0 => x
  | x, n, bs, k + 1 => putSlots (x.setChip n (some ⟨bs.take 64, false⟩)) (n + 1) (bs.drop 64) k

/-- Accept a record of `s` slots (R356, R358, R361). -/
def Device.qAccept (d : Device) (q : Nat) (bs : List Byte) (s cls unit : Nat) : Device :=
  let x := d.queue q
  let seq := d.rdN (Reg.QUE_Q_SEQ q)
  let full := padTo (queueHeader (padTo bs 32) x.dropped cls unit seq) (64 * s)
  let y := putSlots x x.r full s
  (((d.setQueue q { y with r := x.r + s, recs := x.recs ++ [⟨x.r, s, seq, false⟩], dropped := false }).wr
    (Reg.QUE_Q_SEQ q) (seq + 1)).add64 (Reg.QUE_Q_PUSHED_LO q) 1).qSettle q

/-- Whether a waiting producer finds space for a record of `s` slots (R363, R364). -/
def Device.qRoom (d : Device) (q s : Nat) : Bool := d.qOn q && decide (s ≤ d.qFree q)

/-- A unit offers a record (R363, R364): accepted, or discarded and counted. -/
def Device.qOffer (d : Device) (q : Nat) (bs : List Byte) (cls unit : Nat) : Device :=
  let s := slotsOf bs.length
  if !d.qOn q then d.flag F.QUE_FLAGS_DISABLED_DROP Reg.QUE_DISABLED_DROP_CNT
  else if s ≤ d.qFree q then d.qAccept q bs s cls unit
  else
    ((d.setQueue q { d.queue q with dropped := true }).inc (Reg.QUE_Q_DROP q)).flag F.QUE_FLAGS_DROP Reg.QUE_DROP_CNT

/-- The check of an engine's push (R317, R363, R364): the code, and whether the queue refuses it. -/
def Device.qPushCode (d : Device) (q s : Nat) : Nat × Bool :=
  if d.qSlots q < s then (cLENGTH, true)
  else if !d.qOn q then (cNOTARMED, true)
  else if d.qFree q < s then (cOUTFULL, false)
  else (cOK, false)

/-- The vector of R369: sent as soon as RECORDS meets the threshold while ARM is set, which it clears. -/
def Device.qIrq (d : Device) (q : Nat) : Device :=
  if d.isSet (F.QUE_Q_IRQ_ARM q) && decide (d.rdN (Reg.QUE_Q_THRESH q) ≤ (d.queue q).records) then
    (d.setFld (F.QUE_Q_IRQ_ARM q) 0).msix (d.fld (F.QUE_Q_IRQ_VEC q))
  else d

/-- Mark the oldest incomplete record complete. -/
def markDone : List QRec → List QRec
  | [] => []
  | r :: rs => if r.done then r :: markDone rs else { r with done := true } :: rs

/-- The oldest incomplete record (R361). -/
def Queue.filling (x : Queue) : Option QRec := x.recs.find? (fun r => !r.done)

/-- The oldest reservation completes (R361): W advances, the consumer engine gets its notice (R367), the vector of R369
follows. -/
def Device.qComplete (d : Device) (q : Nat) : Device :=
  let x := d.queue q
  match x.filling with
  | none => d
  | some r =>
    let y := { x with recs := markDone x.recs, w := r.start + r.slots, arrive := d.time }
    let d := d.setQueue q y
    let d := d.wr (Reg.QUE_Q_PEAK q) (max (d.rdN (Reg.QUE_Q_PEAK q)) y.used)
    let d := if d.isSet (F.QUE_Q_CFG_HOST q) then d
      else d.notify (d.fld (F.QUE_Q_CFG_ENGINE q)) (evEntry 17 q 0 r.seq)
    d.qIrq q

/-- The bytes of a record from its slots. -/
def Device.qBytes (d : Device) (q n : Nat) : Nat → List Byte
  | 0 => []
  | k + 1 => d.qSlot q n ++ Device.qBytes d q (n + 1) k

/-- Whether a slot that is not on chip returns an uncorrectable error when it is refilled from its home (R368, R410). -/
def Device.qHomeBad (d : Device) (q n : Nat) : Bool := ((d.queue q).chip n).isNone && d.poisoned (d.qHome q n) 64

/-- Whether a refilled slot of the record is poisoned (R368). -/
def Device.qPoisoned (d : Device) (q : Nat) (r : QRec) : Bool :=
  (List.range r.slots).any (fun i =>
    (match (d.queue q).chip (r.start + i) with | some s => s.poison | none => false) || d.qHomeBad q (r.start + i))

/-- The slots of a read that are not on chip are refilled from their homes: errors count and set POISON (R355, R368). -/
def Device.qRefills (d : Device) (q : Nat) (ns : List Nat) : Device :=
  ns.foldl (fun d n =>
    if ((d.queue q).chip n).isSome then d
    else
      let d := (d.timed Reg.QUE_SPILL_LAT).moved 3
      if d.qHomeBad q n then d.flag F.QUE_FLAGS_POISON Reg.QUE_POISON_CNT else d) d

/-- The slots of a record. -/
def QRec.span (r : QRec) : List Nat := (List.range r.slots).map (fun i => r.start + i)

/-- The copy of a record that a reader gets, with POISONED set where R368 sets it. -/
def Device.qCopy (d : Device) (q : Nat) (r : QRec) : List Byte :=
  let bs := d.qBytes q r.start r.slots
  if d.qPoisoned q r then putByte bs 2 ((bs.getD 2 0).toNat ||| 0x40) else bs

/-- The idle record (R360). -/
def idleRecord : List Byte := 0x0F :: List.replicate 63 0

/-- Read past the next record (R366). -/
def Device.qAdvance (d : Device) (q : Nat) : Device :=
  let x := d.queue q
  match x.next with
  | none => d.setQueue q { x with view := 0 }
  | some r => (d.setQueue q { x with rd := r.start + r.slots, view := 0 }).qSettle q

/-- Save the read position (R366). -/
def Device.qMark (d : Device) (q : Nat) : Device :=
  let x := d.queue q
  d.setQueue q { x with m := x.rd }

/-- Return to the mark (R366). -/
def Device.qRewind (d : Device) (q : Nat) : Device :=
  let x := d.queue q
  ((d.setQueue q { x with rd := x.m, view := 0 }).qSettle q).qIrq q

/-- Release every slot before the read position (R366). -/
def Device.qRelease (d : Device) (q : Nat) : Device :=
  let x := d.queue q
  (d.setQueue q { x with f := x.rd, m := max x.m x.rd, recs := x.recs.filter (fun r => decide (x.rd ≤ r.start)) }).qSettle q

/-- Whether two enabled queues' regions would meet (R373). -/
def Device.qOverlaps (d : Device) (q base slots : Nat) : Bool :=
  (List.range 4096).any (fun p => decide (p ≠ q) && d.qOn p &&
    decide (base < d.qBase p + 64 * d.qSlots p) && decide (d.qBase p < base + 64 * slots))

/-- The check of ENABLE (R373). -/
def Device.qEnableCode (d : Device) (q : Nat) : Nat :=
  let sl := d.qSlots q
  let b := d.qBase q
  firstCode [
    (decide (sl = 0 ∨ 2 ^ 24 < sl) || pastEnd b (64 * sl), cLENGTH),
    (d.qOverlaps q b sl, cOVERLAP),
    (decide (b % 4096 ≠ 0 ∨ sl % 64 ≠ 0), cALIGN),
    (decide (Config.memSize ≤ b), cREGION),
    (d.qOn q, cBUSY),
    (!d.isSet (F.QUE_Q_CFG_HOST q) && decide (511 < d.fld (F.QUE_Q_CFG_ENGINE q)), cUNSUP)]

/-- ENABLE (R373): the code, and the queue enabled and empty where it is OK. -/
def Device.qEnable (d : Device) (q : Nat) : Nat × Device :=
  let c := d.qEnableCode q
  if c = cOK then
    (c, (((((d.setQueue q {}).setFld (F.QUE_Q_STAT_CODE q) c).setFld (F.QUE_Q_STAT_ENABLED q) 1).wr
      (Reg.QUE_Q_SEQ q) 0).wr64 (Reg.QUE_Q_PUSHED_LO q) 0).wr Reg.QUE_ENABLED (d.rdN Reg.QUE_ENABLED + 1))
  else (c, d.setFld (F.QUE_Q_STAT_CODE q) c)

/-- DISABLE (R374): records and reservations are dropped. -/
def Device.qDisable (d : Device) (q : Nat) : Device :=
  let d := d.setFld (F.QUE_Q_STAT_CODE q) cOK
  if d.qOn q then
    ((d.setQueue q {}).setFld (F.QUE_Q_STAT_ENABLED q) 0).wr Reg.QUE_ENABLED (d.rdN Reg.QUE_ENABLED - 1)
  else d

end Sys2Proof.Machine
end

