-- ==== Sys2Proof/Machine/Code8b10b.lean ====
section
/-! DEFINITION. The 8b/10b code of a Larkspur lane (R79). PRESUMED: the manual names the code and not its tables, which are those of the code's
published standard (log entry 121). A code word is written as it is sent, its first bit (a) as bit 9 and its last (j) as bit 0. -/

namespace Sys2Proof.Machine

/-- A character of a Larkspur lane as the decoder finds it (R79): /K/, /A/, /S/, a data byte, or invalid. -/
inductive LarkChar where
  | k
  | a
  | s
  | data (b : Nat)
  | invalid
  deriving DecidableEq, Repr

/-- The six bits abcdei of D.x, at negative and at positive running disparity. -/
def six : List (Nat × Nat) := [
  (0b100111, 0b011000), (0b011101, 0b100010), (0b101101, 0b010010), (0b110001, 0b110001),
  (0b110101, 0b001010), (0b101001, 0b101001), (0b011001, 0b011001), (0b111000, 0b000111),
  (0b111001, 0b000110), (0b100101, 0b100101), (0b010101, 0b010101), (0b110100, 0b110100),
  (0b001101, 0b001101), (0b101100, 0b101100), (0b011100, 0b011100), (0b010111, 0b101000),
  (0b011011, 0b100100), (0b100011, 0b100011), (0b010011, 0b010011), (0b110010, 0b110010),
  (0b001011, 0b001011), (0b101010, 0b101010), (0b011010, 0b011010), (0b111010, 0b000101),
  (0b110011, 0b001100), (0b100110, 0b100110), (0b010110, 0b010110), (0b110110, 0b001001),
  (0b001110, 0b001110), (0b101110, 0b010001), (0b011110, 0b100001), (0b101011, 0b010100)]

/-- The four bits fghj of D.x.y, at the running disparity after the six. -/
def four : List (Nat × Nat) := [
  (0b1011, 0b0100), (0b1001, 0b1001), (0b0101, 0b0101), (0b1100, 0b0011),
  (0b1101, 0b0010), (0b1010, 0b1010), (0b0110, 0b0110), (0b1110, 0b0001)]

/-- The ones of a code word or a part of one. -/
def onesOf : Nat → Nat → Nat
  | 0, _ => 0
  | w + 1, v => v % 2 + onesOf w (v / 2)

/-- The running disparity after `w` bits: positive after more ones than zeros, negative after fewer. -/
def disparity (rd : Bool) (w v : Nat) : Bool :=
  let n := 2 * onesOf w v
  if n = w then rd else decide (w < n)

/-- The code word of a data byte. -/
def encode8b10b (rd : Bool) (b : Nat) : Nat :=
  let x := b % 32
  let y := b / 32 % 8
  let pick (p : Nat × Nat) (r : Bool) : Nat := if r then p.2 else p.1
  let hi := pick (six.getD x (0, 0)) rd
  let r := disparity rd 6 hi
  let lo :=
    if y = 7 ∧ r = false ∧ x ∈ [17, 18, 20] then 0b0111
    else if y = 7 ∧ r = true ∧ x ∈ [11, 13, 14] then 0b1000
    else pick (four.getD y (0, 0)) r
  hi * 16 + lo

/-- K28.5, K28.3 and K28.0 at negative running disparity; at positive they are the complements. -/
def kWords : List (Nat × LarkChar) := [(0b0011111010, .k), (0b0011110011, .a), (0b0011110100, .s)]

/-- The character of a code word at a running disparity (R79): a word that is none there is a code violation or a disparity error. -/
def decode8b10b (rd : Bool) (code : Nat) : LarkChar :=
  match kWords.find? (fun w => decide ((if rd then 1023 - w.1 else w.1) = code)) with
  | some w => w.2
  | none =>
    match (List.range 256).find? (fun b => decide (encode8b10b rd b = code)) with
    | some b => .data b
    | none => .invalid

end Sys2Proof.Machine
end

