-- ==== Sys2Proof/Machine/Lanes.lean ====
section
/-! DEFINITION. Receive lanes and slot assembly (chapter "Sample lanes and stream ingest", R59 to R91, R97): native and
Larkspur reception on a lane, the sample slots of a link with parity reconstruction, and what enters a stream's buffer. -/

namespace Sys2Proof.Machine

/-! Streams and their links. -/

/-- STATE of a stream: 0 OFF, 1 ACQUIRE, 2 RUNNING. -/
def Device.sState (d : Device) (s : Nat) : Nat := d.fld (F.LNK_S_STAT_STATE s)

/-- The lanes of a stream's link. DESIGN CHOICE (log entry 122): a write of LNK_S_LANES takes effect at once, on a running stream too. -/
def Device.sLanes (d : Device) (s : Nat) : List Nat := onesBelow (d.rdN (Reg.LNK_S_LANES s)) 32

/-- N, the data lanes of a stream's link (R60). -/
def Device.sN (d : Device) (s : Nat) : Nat := (d.sLanes s).length - d.fld (F.LNK_S_CFG_PARITY s)

/-- The width of a sample format in bits (R71). -/
def fmtWidth (f : Nat) : Nat := match f with | 0 => 16 | 1 => 32 | 2 => 12 | _ => 24

/-- The width of a stream's samples. -/
def Device.sWidth (d : Device) (s : Nat) : Nat := fmtWidth (d.fld (F.LNK_S_CFG_FORMAT s))

/-- Whether a stream's link runs Larkspur framing: the framing of its lowest lane's group (R59). -/
def Device.sLark (d : Device) (s : Nat) : Bool :=
  match d.sLanes s with
  | [] => false
  | i :: _ => d.isSet (F.LNK_G_CFG_FRAMING (i / 4))

/-- The bits of one unit of a stream's bit stream: a block, or a Larkspur byte (R71, R81). -/
def Device.sUnit (d : Device) (s : Nat) : Nat := if d.sLark s || (d.stream s).replay.isSome then 8 else 64

/-- The stream that a lane's configuration compares with (R74): the one that is not OFF, else the lowest-numbered. -/
def Device.laneStream (d : Device) (i : Nat) : Option Nat :=
  let l := (List.range 8).filter (fun s => bitAt (d.rdN (Reg.LNK_S_LANES s)) i)
  match l.find? (fun s => decide (d.sState s ≠ 0)) with
  | some s => some s
  | none => l.head?

/-! Losses. -/

/-- Whether every data lane of a native link is without alignment (R98). A lane whose index is not known counts as a data lane. -/
def Device.allUnaligned (d : Device) (s : Nat) : Bool :=
  ((d.sLanes s).filter (fun i => !(d.isSet (F.LNK_S_CFG_PARITY s) && d.isSet (F.LNK_L_STAT_PARITY_LANE i)))).all
    (fun i => !d.isSet (F.LNK_L_STAT_ALIGNED i))

/-- A stream restarts (R98). -/
def Device.sRestart (d : Device) (s : Nat) : Device :=
  let x := d.stream s
  if d.sState s = 2 ∧ x.restart = false ∧ x.replay = none then
    (d.setStream s { x with restart := true, regained := none, nextIdx := none }).flag (F.LNK_S_FLAGS_RESTART s)
      (Reg.LNK_S_RESTART_CNT s)
  else d

/-- The restart of R98 where a lane of the stream has lost alignment. -/
def Device.restartCheck (d : Device) (i : Nat) : Device :=
  match d.laneStream i with
  | none => d
  | some s => if d.sLark s || d.allUnaligned s then d.sRestart s else d

/-- Whether a lane runs Larkspur framing. -/
def Device.laneLark (d : Device) (i : Nat) : Bool := d.isSet (F.LNK_G_CFG_FRAMING (i / 4))

/-- A stream that was about to take its new anchor has lost alignment again (R98). -/
def Device.unregain (d : Device) (i : Nat) : Device :=
  match d.laneStream i with
  | none => d
  | some s => d.setStream s { d.stream s with regained := none }

/-- A lane loses marker or frame alignment (R73, R84). In native framing both acquisitions restart. DEDUCED (log entry 123): the block lock that
restarts with the alignment counts no loss of lock. -/
def Device.loseAlign (d : Device) (i : Nat) : Device :=
  let d := d.setLane i { d.lane i with pair := none, miss := 0, muted := false, badScb := 0, lchar := 0, seen := false }
  let d := if d.laneLark i then d
    else (d.setLane i { d.lane i with goodRun := 0, hist := 0 }).setFld (F.LNK_L_STAT_BLOCK_LOCK i) 0
  let d := d.unregain i
  if d.isSet (F.LNK_L_STAT_ALIGNED i) then
    ((d.setFld (F.LNK_L_STAT_ALIGNED i) 0).flag (F.LNK_L_FLAGS_ALIGN_LOST i) (Reg.LNK_L_ALIGN_LOSS i)).restartCheck i
  else d

/-- A lane loses block lock or character alignment (R73, R84). -/
def Device.loseLock (d : Device) (i : Nat) : Device :=
  let d := d.setLane i { d.lane i with goodRun := 0, hist := 0 }
  let d := if d.isSet (F.LNK_L_STAT_BLOCK_LOCK i) then
      (d.setFld (F.LNK_L_STAT_BLOCK_LOCK i) 0).flag (F.LNK_L_FLAGS_LOCK_LOST i) (Reg.LNK_L_LOCK_LOSS i)
    else d
  d.loseAlign i

/-- Whether every data lane of a stream is aligned again (R98): in native framing one aligned lane for each of the indices 0 to N − 1. DEDUCED (log
entry 124): the parity lane is not needed, and does not stand in for a data lane. -/
def Device.allAligned (d : Device) (s : Nat) : Bool :=
  let up := (d.sLanes s).filter (fun i => d.isSet (F.LNK_L_STAT_ALIGNED i))
  if d.sLark s then decide (up.length = (d.sLanes s).length)
  else (List.range (d.sN s)).all (fun k => up.any (fun i => (d.lane i).seen && decide (d.fld (F.LNK_L_STAT_LANE_INDEX i) = k)))

/-- A restarting stream has regained its alignment when its data lanes have. -/
def Device.regainCheck (d : Device) (i : Nat) : Device :=
  match d.laneStream i with
  | none => d
  | some s =>
    if (d.stream s).restart && (d.stream s).regained.isNone && d.allAligned s then
      d.setStream s { d.stream s with regained := some d.time }
    else d

/-- A lane gains alignment (R73). -/
def Device.gainAlign (d : Device) (i : Nat) : Device :=
  (d.setFld (F.LNK_L_STAT_ALIGNED i) 1).setLane i { d.lane i with fifo := [], miss := 0, badScb := 0, muted := false }

/-! Native framing. -/

/-- Descramble `n` payload bits, first bit first, from the 58 earlier bits (R63): the payload and the new state. -/
def descramble : Nat → Nat → Nat → Nat × Nat
  | 0, st, _ => (0, st)
  | n + 1, st, raw =>
    let b := raw % 2
    let o := (b + (if bitAt st 38 then 1 else 0) + (if bitAt st 57 then 1 else 0)) % 2
    let r := descramble n ((st * 2 + b) % 2 ^ 58) (raw / 2)
    (o + 2 * r.1, r.2)

/-- Whether a control payload has the fixed bytes of ALIGN (R68). -/
def isAlign (hdr payload : Nat) : Bool :=
  decide (hdr = 2) && decide (payload % 256 = 0x78) && decide (bitsOf payload 40 24 = 0xC35A3C)

/-- The marker count of an ALIGN payload. -/
def markerOf (payload : Nat) : Nat := bitsOf payload 24 16

/-- Whether N, format and, where compared, the tag of an ALIGN or SCB payload match a stream's configuration (R74). -/
def Device.linkMatch (d : Device) (s payload : Nat) : Bool :=
  decide (bitsOf payload 16 6 = d.sN s % 32) && decide (bitsOf payload 22 2 = d.fld (F.LNK_S_CFG_FORMAT s)) &&
    (!d.isSet (F.LNK_S_CFG_TAG_CHECK s) || decide (bitsOf payload 13 3 = s))

/-- What a valid ALIGN or SCB shows in the lane's and the stream's status. -/
def Device.showLane (d : Device) (i payload : Nat) : Device :=
  let d := (d.setFld (F.LNK_L_STAT_LANE_INDEX i) (bitsOf payload 8 5)).setFld (F.LNK_L_STAT_TAG i) (bitsOf payload 13 3)
  let d := d.setFld (F.LNK_L_STAT_PARITY_LANE i) (if bitsOf payload 16 6 ≠ 0 ∧ bitsOf payload 8 5 = bitsOf payload 16 6 then 1 else 0)
  let d := d.setLane i { d.lane i with seen := true }
  match d.laneStream i with
  | none => d
  | some s => d.setFld (F.LNK_S_STAT_N_SEEN s) (bitsOf payload 16 6)

/-- An invalid header or type on a lane. -/
def Device.hdrErr (d : Device) (i : Nat) : Device := d.flag (F.LNK_L_FLAGS_HDR_ERR i) (Reg.LNK_L_HDR_ERR i)

/-- An ALIGN or SCB with fields that do not match (R74). -/
def Device.scbErr (d : Device) (i : Nat) : Device := d.flag (F.LNK_L_FLAGS_SCB_ERR i) (Reg.LNK_L_SCB_ERR i)

/-- Judge the block at the lane's position (R64, R74): whether it is valid, with the lane's flags. -/
def Device.judge (d : Device) (i pos hdr payload : Nat) (align : Bool) : Bool × Device :=
  let marker := decide (pos % 32 = 0)
  let typeOk :=
    if pos = 0 then align
    else if marker then decide (hdr = 2) && decide (payload % 256 = 0x4B)
    else decide (hdr = 1) || (decide (hdr = 2) && decide (payload % 256 = 0x1E))
  if !typeOk then (false, if hdr = 1 ∨ hdr = 2 then d.hdrErr i else d)
  else if marker then
    let ok := match d.laneStream i with | none => true | some s => d.linkMatch s payload
    if ok then (true, d.showLane i payload) else (false, d.scbErr i)
  else (true, d)

/-- A lane keeps a block for slot assembly, up to 256 of them. -/
def Device.keepBlock (d : Device) (i : Nat) (b : RxBlk) : Device :=
  if (d.laneStream i).isNone then d
  else
    let x := d.lane i
    d.setLane i { x with fifo := (if 256 ≤ x.fifo.length then x.fifo.drop 1 else x.fifo) ++ [b] }

/-- A block of an aligned lane (R73, R74). -/
def Device.alignedBlock (d : Device) (i hdr payload : Nat) (align : Bool) : Device :=
  let x := d.lane i
  let pos := (x.pos + 1) % 4096
  let d := d.setLane i { x with pos := pos }
  if pos = 0 ∧ align = false ∧ x.miss = 3 then d.loseAlign i
  else
    let x := d.lane i
    let x := if pos = 0 then
        (if align then
          (match x.pair with
           | some p => { x with miss := 0, marker := markerOf payload, pair := some (markerOf payload, 0),
                                muted := x.muted && !decide (markerOf payload = (p.1 + 1) % 65536) }
           | none => { x with miss := 0, marker := markerOf payload, pair := some (markerOf payload, 0) })
         else { x with miss := x.miss + 1, pair := none })
      else x
    let d := d.setLane i x
    let r := d.judge i pos hdr payload align
    let d := r.2
    let x := d.lane i
    let x := if pos % 32 = 0 ∧ pos ≠ 0 then
        (if r.1 then { x with badScb := 0 }
         else if x.badScb = 3 then { x with badScb := 0, muted := true, pair := none }
         else { x with badScb := x.badScb + 1 })
      else x
    (d.setLane i x).keepBlock i ⟨pos, r.1 && !x.muted, decide (hdr = 2) && decide (pos % 32 ≠ 0), payload⟩

/-- A block of a lane that seeks alignment: two ALIGN blocks 4,096 blocks apart with consecutive counts (R73). Each ALIGN received is compared with
the stream's configuration (R74). -/
def Device.seekAlign (d : Device) (i hdr payload : Nat) (align : Bool) : Device :=
  let x := d.lane i
  if align then
    let found := match x.pair with
      | some (mc, n) => decide (n = 4095) && decide (markerOf payload = (mc + 1) % 65536)
      | none => false
    let d := d.setLane i { x with pair := some (markerOf payload, 0) }
    if found then
      let d := (d.setLane i { d.lane i with pos := 0, marker := markerOf payload }).gainAlign i
      let r := d.judge i 0 hdr payload true
      (r.2.keepBlock i ⟨0, r.1, false, payload⟩).regainCheck i
    else (d.judge i 0 hdr payload true).2
  else
    match x.pair with
    | some (mc, n) => d.setLane i { x with pair := if n < 4095 then some (mc, n + 1) else none }
    | none => d

/-- A 66-bit block arrives on a native lane (R62, R63, R73, R74), as decoded with the lane's polarity. On an aligned lane the position tells which
block is ALIGN, and so does not advance the descrambler; on another its fixed bytes do. -/
def Device.rxBlock (d : Device) (i hdr raw : Nat) : Device :=
  let x := d.lane i
  let ok := decide (hdr = 1 ∨ hdr = 2)
  if !d.isSet (F.LNK_L_STAT_BLOCK_LOCK i) then
    let run := if ok then x.goodRun + 1 else 0
    let d := d.setLane i { x with goodRun := run, hist := 0, desc := (descramble 64 x.desc raw).2 }
    if run = 64 then d.setFld (F.LNK_L_STAT_BLOCK_LOCK i) 1 else d
  else
    let hist := (x.hist * 2 + (if ok then 0 else 1)) % 2 ^ 64
    let d := if ok then d else d.hdrErr i
    let align := isAlign hdr raw
    let plain := if d.isSet (F.LNK_L_STAT_ALIGNED i) then decide (x.pos = 4095) else align
    let r := if plain then (raw, x.desc) else descramble 64 x.desc raw
    let d := d.setLane i { x with hist := hist, desc := r.2 }
    if 16 ≤ popCount hist 64 then d.loseLock i
    else if d.isSet (F.LNK_L_STAT_ALIGNED i) then d.alignedBlock i hdr r.1 (plain && align)
    else d.seekAlign i hdr r.1 align

def execNativeBlockReceive (lane hdr payload : Nat) (s : State) : Host.Outcome State Fault Refusal :=
  s.run (fun d =>
    if lane < 32 ∧ d.isSet (F.LNK_L_CFG_EN lane) ∧ d.isSet (F.LNK_L_STAT_CDR_LOCK lane) ∧
        d.isSet (F.LNK_G_CFG_FRAMING (lane / 4)) = false then
      let inv := d.isSet (F.LNK_L_CFG_POL_INV lane)
      d.rxBlock lane (if inv then 3 - hdr % 4 else hdr % 4) (if inv then 2 ^ 64 - 1 - payload % 2 ^ 64 else payload % 2 ^ 64)
    else d)

/-! Larkspur framing. -/

/-- A character arrives on a Larkspur lane with character alignment (R80 to R84). DEDUCED (log entry 125): /K/ or /A/ within a frame of an aligned
lane, where the frame has a data character, shows that /A/ is missing at its place. -/
def Device.larkChar (d : Device) (i : Nat) (ch : LarkChar) : Device :=
  let x := d.lane i
  match ch with
  | .s => d
  | .k =>
    if d.isSet (F.LNK_L_STAT_ALIGNED i) then d.loseAlign i else d
  | .a =>
    if d.isSet (F.LNK_L_STAT_ALIGNED i) ∧ x.lchar ≠ 0 then d.loseAlign i
    else
      let d := if d.isSet (F.LNK_L_STAT_ALIGNED i) then d else (d.gainAlign i).regainCheck i
      d.setLane i { d.lane i with lchar := 1 }
  | .data b =>
    if !d.isSet (F.LNK_L_STAT_ALIGNED i) then d
    else if x.lchar = 0 then d.loseAlign i
    else
      let d := d.setLane i { x with lchar := (x.lchar + 1) % 256 }
      if x.lchar = 1 then
        let d := (d.setFld (F.LNK_L_STAT_LANE_INDEX i) (bitsOf b 0 5)).setFld (F.LNK_L_STAT_TAG i) (bitsOf b 5 3)
        let d := d.setLane i { d.lane i with seen := true }
        d.keepBlock i ⟨1, true, false, b % 256⟩
      else d.keepBlock i ⟨x.lchar, true, false, b % 256⟩
  | .invalid =>
    let d := d.flag (F.LNK_L_FLAGS_CODE_ERR i) (Reg.LNK_L_CODE_ERR i)
    if !d.isSet (F.LNK_L_STAT_ALIGNED i) then d
    else if x.lchar = 0 then d.loseAlign i
    else (d.setLane i { x with lchar := (x.lchar + 1) % 256 }).keepBlock i ⟨x.lchar, false, false, 0⟩

/-- The character of a code word on a lane (R79). Before character alignment the disparity is not known, and either will do (log entry 121). -/
def Device.larkDecode (d : Device) (i code : Nat) : LarkChar :=
  if d.isSet (F.LNK_L_STAT_BLOCK_LOCK i) then decode8b10b (d.lane i).rd code
  else
    match decode8b10b false code with
    | .invalid => decode8b10b true code
    | c => c

/-- A code word arrives on a Larkspur lane: it is decoded, the running disparity follows it, and /K/ gives character alignment (R79, R84). -/
def Device.larkCode (d : Device) (i code : Nat) : Device :=
  let ch := d.larkDecode i code
  let d := d.setLane i { d.lane i with rd := disparity (d.lane i).rd 10 code }
  if d.isSet (F.LNK_L_STAT_BLOCK_LOCK i) then d.larkChar i ch
  else if ch = .k then d.setFld (F.LNK_L_STAT_BLOCK_LOCK i) 1
  else if ch = .invalid then d.flag (F.LNK_L_FLAGS_CODE_ERR i) (Reg.LNK_L_CODE_ERR i)
  else d

def execLarkspurCharacterReceive (lane code : Nat) (skipAdj : Bool) (s : State) : Host.Outcome State Fault Refusal :=
  s.run (fun d =>
    if lane < 32 ∧ d.isSet (F.LNK_L_CFG_EN lane) ∧ d.isSet (F.LNK_L_STAT_CDR_LOCK lane) ∧ d.laneLark lane then
      let d := if skipAdj then d.inc (Reg.LNK_L_SKIP_ADJ lane) else d
      d.larkCode lane (if d.isSet (F.LNK_L_CFG_POL_INV lane) then 1023 - code % 1024 else code % 1024)
    else d)

/-! Clock recovery, PLLs, enabling a lane. -/

def execCdrLock (lane : Nat) (s : State) : Host.Outcome State Fault Refusal :=
  s.run (fun d =>
    if lane < 32 ∧ d.isSet (F.LNK_L_CFG_EN lane) then d.setFld (F.LNK_L_STAT_CDR_LOCK lane) 1 else d)

def execCdrLost (lane : Nat) (s : State) : Host.Outcome State Fault Refusal :=
  s.run (fun d =>
    if lane < 32 ∧ d.isSet (F.LNK_L_STAT_CDR_LOCK lane) then
      ((d.setFld (F.LNK_L_STAT_CDR_LOCK lane) 0).flag (F.LNK_L_FLAGS_CDR_LOST lane) (Reg.LNK_L_CDR_LOSS lane)).loseLock lane
    else d)

def execLanePllLock (tx : Bool) (grp : Nat) (s : State) : Host.Outcome State Fault Refusal :=
  s.run (fun d =>
    let ref := d.isSet F.CLK_STAT_REF_PRESENT
    if tx then (if grp < 6 ∧ ref ∧ d.isSet (F.LNK_TG_CFG_VALID grp) then d.setFld (F.LNK_TG_CFG_PLL_LOCK grp) 1 else d)
    else if grp < 8 ∧ (ref ∨ d.isSet (F.LNK_G_CFG_FRAMING grp)) ∧ d.isSet (F.LNK_G_CFG_VALID grp) then
      let d := d.setFld (F.LNK_G_CFG_PLL_LOCK grp) 1
      if d.isSet (F.LNK_G_CFG_FRAMING grp) then { d with lrefLost := setBits d.lrefLost grp 1 0 } else d
    else d)

/-- A lane group's PLL loses lock; a receive group whose LREFCLK is absent shows that too. What its lanes then lose, CDR_LOST rows tell. -/
def execLanePllLockLost (tx : Bool) (grp : Nat) (refAbsent : Bool) (s : State) : Host.Outcome State Fault Refusal :=
  s.run (fun d =>
    if tx then (if grp < 6 then d.setFld (F.LNK_TG_CFG_PLL_LOCK grp) 0 else d)
    else if grp < 8 then
      let d := d.setFld (F.LNK_G_CFG_PLL_LOCK grp) 0
      if refAbsent && d.isSet (F.LNK_G_CFG_FRAMING grp) then { d with lrefLost := setBits d.lrefLost grp 1 1 } else d
    else d)

/-- A byte of an equalisation entry (R87). -/
def Device.eqByte (d : Device) (e j : Nat) : Nat := bitsOf (d.rdN (Reg.LNK_EQ e (j / 4))) (8 * (j % 4)) 8

/-- Whether a valid entry covers a lane, or every lane, at a rate (R88). -/
def Device.eqMatch (d : Device) (e lane rate : Nat) (all : Bool) : Bool :=
  let b := d.eqByte e 0
  let lo := d.eqByte e 4 + 256 * d.eqByte e 5
  let hi := d.eqByte e 6 + 256 * d.eqByte e 7
  bitAt b 6 && decide (lo ≤ rate) && decide (rate ≤ hi) && (if all then bitAt b 5 else !bitAt b 5 && decide (b % 32 = lane))

/-- The equalisation entry a lane takes (R88). -/
def Device.eqEntry (d : Device) (lane rate : Nat) : Option Nat :=
  match (List.range 64).find? (fun e => d.eqMatch e lane rate false) with
  | some e => some e
  | none => (List.range 64).find? (fun e => d.eqMatch e lane rate true)

/-- The status bits that a lane keeps when it is disabled or enabled: the samplers' and rotation's. -/
def laneKeep (stat : Nat) : Nat := bitsOf stat 3 5 * 8

/-- Enable a lane with the settings of its equalisation entry (R88). -/
def Device.enableLane (d : Device) (i : Nat) (polInv : Bool) : Device :=
  let rate := d.fld (F.LNK_G_CFG_RATE (i / 4))
  let d := d.wr (Reg.LNK_L_CFG i) (1 + (if polInv then 2 else 0))
  let w := (d.lane i).windows
  let d := d.wr (Reg.LNK_L_STAT i) (laneKeep (d.rdN (Reg.LNK_L_STAT i)))
  match d.eqEntry i rate with
  | some e =>
    let dfe := (List.range 6).map (fun j => d.eqByte e (9 + j) * 2 ^ (8 * j))
    (d.setFld (F.LNK_L_STAT_EQ_ENTRY i) e).setLane i { ctle := d.eqByte e 8 % 32, dfe := dfe.sum, windows := w }
  | none => (d.setFld (F.LNK_L_STAT_EQ_DEFAULT i) 1).setLane i { windows := w }

def execLaneEnable (lane : Nat) (polInv : Bool) (s : State) : Host.Outcome State Fault Refusal :=
  s.run (fun d =>
    if lane < 32 then
      if d.isSet (F.LNK_L_CFG_EN lane) then d.setFld (F.LNK_L_CFG_POL_INV lane) (if polInv then 1 else 0)
      else if d.isSet (F.LNK_G_CFG_VALID (lane / 4)) then d.enableLane lane polInv
      else d.setFld (F.LNK_L_CFG_POL_INV lane) (if polInv then 1 else 0)
    else d)

/-- Disable a lane (R105): its blocks are invalid from now on. -/
def Device.disableLane (d : Device) (i : Nat) : Device :=
  let d := d.setFld (F.LNK_L_CFG_EN i) 0
  let d := d.setFld (F.LNK_L_STAT_CDR_LOCK i) 0
  (d.setLane i { d.lane i with fifo := [], seen := false }).loseLock i

def execLaneDisable (lane : Nat) (s : State) : Host.Outcome State Fault Refusal :=
  s.run (fun d => if lane < 32 ∧ d.isSet (F.LNK_L_CFG_EN lane) then d.disableLane lane else d)

/-! Shadow samplers. -/

/-- A shadow sampler's window ends (R89 to R91). -/
def Device.samplerWindow (d : Device) (i : Nat) (differ shadowBad mainBad : Bool) : Device :=
  let x := d.lane i
  if differ = false ∨ (shadowBad = false ∧ mainBad) then d.setLane i { x with windows := 0, exchange := true }
  else if x.windows = 7 then
    let d := (d.setLane i { x with windows := 0 }).setFld (F.LNK_L_STAT_SAMPLERS i) 0
    (d.setFld (F.LNK_L_FLAGS_WITHDRAWN i) 1)
  else d.setLane i { x with windows := x.windows + 1 }

/-- The exchange of samplers at a device boundary (R90): step 3 of R36. -/
def Device.samplerSwap (d : Device) (i : Nat) : Device :=
  let x := d.lane i
  if x.exchange then
    (d.setLane i { x with exchange := false }).setFld (F.LNK_L_STAT_MAIN i) (1 - d.fld (F.LNK_L_STAT_MAIN i))
  else d

/-! Slot assembly. -/

/-- Take a lane's block at position `p`, and drop the blocks before it. -/
def takeAt (p : Nat) : List RxBlk → Option RxBlk × List RxBlk
  | [] => (none, [])
  | b :: bs =>
    if b.pos = p then (some b, bs)
    else
      match takeAt p bs with
      | (some r, rest) => (some r, rest)
      | (none, _) => (none, b :: bs)

/-- The blocks of a stream's lanes at position `p`: lane, and its block where it has a valid one. -/
def Device.takeSlot (d : Device) (p : Nat) : List Nat → List (Nat × Option RxBlk) × Device
  | [] => ([], d)
  | i :: is =>
    let x := d.lane i
    let r := takeAt p x.fifo
    let d := d.setLane i { x with fifo := r.2 }
    let rest := Device.takeSlot d p is
    ((i, r.1.filter (fun b => b.valid)) :: rest.1, rest.2)

/-- The block of the data lane with index `k`, or of the parity lane (index N): of a lane that carries the index (R60). -/
def Device.atIndex (d : Device) (k : Nat) (bs : List (Nat × Option RxBlk)) : Option RxBlk :=
  match bs.find? (fun b => (d.lane b.1).seen && decide (d.fld (F.LNK_L_STAT_LANE_INDEX b.1) = k)) with
  | some b => b.2
  | none => none

/-- The first sample that begins at or after a bit position of the stream. -/
def firstSampleAt (w bit : Nat) : Nat := ceilDiv bit w

/-- The samples that begin in unit `idx` of `u` bits. -/
def samplesIn (w u idx : Nat) : Nat := firstSampleAt w ((idx + 1) * u) - firstSampleAt w (idx * u)

/-- Bytes held in a stream buffer (R95). -/
def Device.sLevel (d : Device) (s : Nat) : Nat :=
  ((d.stream s).units.filter (fun kv => !kv.2.early && !kv.2.lost)).length * (d.sUnit s / 8)

/-- The samples that a discarded unit takes from the stream (R95): those with bits in it, but not one that an earlier discarded unit has taken. -/
def Device.earlySamples (d : Device) (s idx : Nat) : Nat :=
  let w := d.sWidth s
  let u := d.sUnit s
  let g := idx * u / w
  let straddles := decide (g * w < idx * u)
  let counted := (List.range (idx - g * w / u)).any (fun j =>
    (Sparse.get (fun _ => {}) (d.stream s).units (g * w / u + j) : RxUnit).early)
  samplesIn w u idx + (if straddles && !counted then 1 else 0)

/-- A unit of the bit stream arrives (R94, R95): kept, discarded late, or discarded on a full buffer. -/
def Device.putUnit (d : Device) (s idx : Nat) (v : RxUnit) : Device :=
  let x := d.stream s
  let w := d.sWidth s
  let u := d.sUnit s
  if (((idx * u + u - 1) / w : Nat) : Int) < x.next ∧ x.awaitScb = false ∧ x.resync = false then d
  else if v.lost = false ∧ 0x100000 ≤ d.sLevel s then
    ((d.setStream s { x with units := Sparse.set (fun _ => {}) x.units idx { early := true } }).setFld
      (F.LNK_S_FLAGS_EARLY s) 1).incBy (Reg.LNK_S_EARLY_CNT s) (d.earlySamples s idx)
  else d.setStream s { x with units := Sparse.set (fun _ => {}) x.units idx v }

/-- The parity lane's state in a sample slot (R78). -/
def Device.parityState (d : Device) (s : Nat) (ok : Bool) : Device :=
  let x := d.stream s
  let d := d.setFld (F.LNK_S_STAT_PARITY_OK s) (if ok then 1 else 0)
  if ok then d.setStream s { x with parityDown := false }
  else if x.parityDown then d
  else (d.setStream s { x with parityDown := true }).flag (F.LNK_S_FLAGS_PARITY_DOWN s) (Reg.LNK_S_PDOWN_CNT s)

/-- The exclusive or of payloads. -/
def xorAll (l : List Nat) : Nat := l.foldl Nat.xor 0

/-- A block of a native link is lost (R76). -/
def Device.blockLost (d : Device) (s : Nat) : Device := d.flag (F.LNK_S_FLAGS_LOST s) (Reg.LNK_S_LOST_CNT s)

/-- Put the accepted, rebuilt or lost units of a slot in the buffer, data lane by data lane (R70, R76, R84). -/
def Device.putSlot (d : Device) (s idx : Nat) (rebuilt : Option (Nat × Nat)) : List (Nat × Option RxBlk) → Device
  | [] => d
  | (k, b) :: rest =>
    let d :=
      match b with
      | some v => d.putUnit s (idx + k) { payload := v.payload }
      | none =>
        match rebuilt with
        | some (_, v) =>
          ((d.putUnit s (idx + k) { payload := v, marks := 4 }).flag (F.LNK_S_FLAGS_REBUILT s)
            (Reg.LNK_S_REBUILT_CNT s)).setFld (F.LNK_S_STAT_REBUILD_LANE s) k
        | none =>
          d.putUnit s (idx + k) { lost := true }
    Device.putSlot d s idx rebuilt rest

/-- A sample slot of a native link (R76 to R78). A lost block counts whether the slot carried data or not. DEDUCED (log entry 126): a link without a
parity lane is processed as one whose parity block is invalid. -/
def Device.dataSlot (d : Device) (s : Nat) (bs : List (Nat × Option RxBlk)) : Device :=
  let n := d.sN s
  let lanes := (List.range n).map (fun k => (k, d.atIndex k bs))
  let par := if d.isSet (F.LNK_S_CFG_PARITY s) then d.atIndex n bs else none
  let d := if d.isSet (F.LNK_S_CFG_PARITY s) then d.parityState s par.isSome else d
  let good := lanes.filterMap (fun l => l.2)
  let bad := lanes.filter (fun l => l.2.isNone)
  let one := decide (bad.length = 1) && par.isSome
  let x := d.stream s
  match x.nextIdx with
  | none => d
  | some idx =>
    let d := if one then d else bad.foldl (fun d _ => d.blockLost s) d
    let isData : Option Bool :=
      match good, par with
      | b :: _, some p => some (if one then !p.idle else !b.idle)
      | b :: _, none => some (!b.idle)
      | [], some b => some (!b.idle)
      | [], none => none
    match isData with
    | none => d.setStream s { d.stream s with slack := x.slack + n }
    | some false => d
    | some true =>
      let payloads := good.map (fun b => b.payload)
      let d :=
        match bad, par with
        | [], some b =>
          if !b.idle && decide (xorAll payloads ≠ b.payload) then
            d.flag (F.LNK_S_FLAGS_PARITY_MISMATCH s) (Reg.LNK_S_PMIS_CNT s)
          else d
        | _, _ => d
      let rebuilt :=
        match bad, par with
        | [(k, _)], some b => some (k, Nat.xor b.payload (xorAll payloads))
        | _, _ => none
      let d := d.putSlot s idx rebuilt lanes
      d.setStream s { d.stream s with nextIdx := some (idx + n) }

/-- The index at or near `n` whose low 40 bits are `i`. -/
def unwrap40 (n i : Nat) : Nat :=
  let c := n / 2 ^ 40 * 2 ^ 40 + i % 2 ^ 40
  if c + 2 ^ 39 < n then c + 2 ^ 40 else if n + 2 ^ 39 < c ∧ 2 ^ 40 ≤ c then c - 2 ^ 40 else c

/-- Anchor a FREE stream at the first data after the first SCB (R93): sample numbers shift by the new g0. -/
def Stream.anchorAt (x : Stream) (g : Int) : Stream :=
  { x with anchor := { x.anchor with g0 := x.anchor.g0 + g }, next := x.next + g, refPoint := x.refPoint + g,
           awaitScb := false }

/-- An index or frame start arrives: the samples of an unanchored stream begin at unit `idx`. -/
def Device.anchorScb (d : Device) (s idx : Nat) : Device :=
  let x := d.stream s
  if x.awaitScb then
    d.setStream s { (x.anchorAt ((firstSampleAt (d.sWidth s) (idx * d.sUnit s) : Nat) : Int)) with
      units := x.units.filter (fun kv => decide (idx ≤ kv.1)) }
  else d

/-- A group with valid SCBs, or a frame, on every data lane counts towards acquisition (R101). DEDUCED (log entry 127): group 0, which has ALIGN in the
place of an SCB, does not come between groups 127 and 1; and a Larkspur frame counts when its start has been received. -/
def Device.acquireGroup (d : Device) (s : Nat) (all : Bool) : Device :=
  let x := d.stream s
  if d.sState s = 1 ∧ x.acqEnd.isNone then
    let n := if all then x.acqGroups + 1 else 0
    d.setStream s { x with acqGroups := n, acqEnd := if 2 ≤ n then some d.time else none }
  else d

/-- The units received since a synchronised transmitter restarted its index take their new numbers (R96): unit `j` of the
old count becomes `j + i - e`, and older units are discarded. -/
def Stream.renumber (x : Stream) (e i : Nat) : Stream :=
  { x with
    units := x.units.foldl (fun m kv => if e ≤ kv.1 + i then Sparse.set (fun _ => {}) m (kv.1 + i - e) kv.2 else m) []
    nextIdx := some i, slack := 0, resync := false }

/-- The index of the block that a SYNCED transmitter sends about now, by the samples since the last decimator reset (R70, R93). -/
def Device.syncIdx (d : Device) (s : Nat) : Nat :=
  let t := (d.time - d.rdTime Reg.CHN_LAST_RESET_LO).toNat
  t * d.rdN (Reg.LNK_S_PDEN_CUR s) / (65536 * d.rdN (Reg.LNK_S_PNUM_CUR s)) * d.sWidth s / d.sUnit s

/-- The SCB slot of a group (R70, R97). The first index of a SYNCED link is the one near its transmitter's count; that of a FREE link is any (R93). -/
def Device.scbSlot (d : Device) (s : Nat) (bs : List (Nat × Option RxBlk)) : Device :=
  let n := d.sN s
  let lanes := (List.range n).map (fun k => d.atIndex k bs)
  let d := d.acquireGroup s (lanes.all (fun b => b.isSome))
  match (bs.filterMap (fun b => b.2)).head? with
  | none => d
  | some b =>
    let i := bitsOf b.payload 24 40
    let x := d.stream s
    match x.nextIdx with
    | none =>
      let v := if d.isSet (F.LNK_S_CFG_TIMING s) then unwrap40 (d.syncIdx s) i else i
      (d.setStream s { x with nextIdx := some v, slack := 0, resync := false }).anchorScb s v
    | some e =>
      let v := unwrap40 e i
      let ok := decide (e ≤ v ∧ v ≤ e + x.slack)
      if x.resync && !ok then (d.setStream s (x.renumber e i)).anchorScb s i
      else
        let d := if ok then d else d.flag (F.LNK_S_FLAGS_INDEX_ERR s) (Reg.LNK_S_INDEX_ERR_CNT s)
        (d.setStream s { x with nextIdx := some v, slack := 0 }).anchorScb s v

/-- Marker counts that disagree with the rest of the link (R73): the lanes that lose alignment. -/
def disagreeing (bs : List (Nat × Option RxBlk)) : List Nat :=
  let cs := bs.filterMap (fun b => b.2.map (fun r => (b.1, markerOf r.payload)))
  (cs.filter (fun c => decide (1 < cs.length) && !(cs.any (fun e => decide (e.1 ≠ c.1) && decide (e.2 = c.2))))).map
    (fun c => c.1)

/-- A position of a Larkspur link's frame (R81): position 1 starts a frame, 2 to 255 carry sample bytes. -/
def Device.larkSlot (d : Device) (s p : Nat) (bs : List (Nat × Option RxBlk)) : Device :=
  let n := d.sN s
  let lanes := (List.range n).map (fun k => (k, d.atIndex k bs))
  if p = 1 then
    let d := d.acquireGroup s (lanes.all (fun b => b.2.isSome))
    let x := d.stream s
    match x.nextIdx with
    | none => (d.setStream s { x with nextIdx := some 0 }).anchorScb s 0
    | some i => d.anchorScb s i
  else if p = 0 ∨ 255 < p then d
  else
    match (d.stream s).nextIdx with
    | none => d
    | some idx =>
      let d := d.putSlot s idx none lanes
      d.setStream s { d.stream s with nextIdx := some (idx + n) }

/-- A slot of a link is assembled across its lanes (R76). -/
def Device.slot (d : Device) (s p : Nat) : Device :=
  let r := d.takeSlot p (d.sLanes s)
  let d := r.2
  if p = 0 ∧ !d.sLark s then (disagreeing r.1).foldl Device.loseAlign d
  else if d.sState s = 0 ∨ (d.stream s).replay.isSome then d
  else if d.sLark s then d.larkSlot s p r.1
  else if p % 32 = 0 then d.scbSlot s r.1
  else d.dataSlot s r.1

def execSampleSlot (s' p : Nat) (s : State) : Host.Outcome State Fault Refusal :=
  s.run (fun d => if s' < 8 ∧ p < 4096 then d.slot s' p else d)

end Sys2Proof.Machine
end

