-- ==== Sys2Proof/Machine/Streams.lean ====
section
/-! DEFINITION. Streams in device time (R92 to R105, R601): anchors, stamps and release times held exactly, the checks of
START, what START, STOP and RATE do at their boundary, and the sample that a stream releases. -/

namespace Sys2Proof.Machine

/-- The period in force of a stream, in units of 2^-16 ns as a ratio (R92, R601): numerator and denominator. -/
def Device.sPer (d : Device) (s : Nat) : Nat × Nat :=
  (d.rdN (Reg.LNK_S_PNUM_CUR s) * 65536, d.rdN (Reg.LNK_S_PDEN_CUR s))

/-- Whether the period in force gives release times (R103). -/
def Device.sTimed (d : Device) (s : Nat) : Bool := decide ((d.sPer s).1 ≠ 0) && decide ((d.sPer s).2 ≠ 0)

/-- HOLD in units of 2^-16 ns. -/
def Device.sHold (d : Device) (s : Nat) : Int := d.rdN (Reg.LNK_S_HOLD s) * 65536

/-- TOFS, signed, in units of 2^-16 ns. -/
def Device.sTofs (d : Device) (s : Nat) : Int := (d.rd (Reg.LNK_S_TOFS s)).toInt

/-- T0 + (g - g0) P exactly, as numerator and denominator (R92). -/
def Device.sPos (d : Device) (s : Nat) (g : Int) : Int × Nat :=
  let a := (d.stream s).anchor
  let p := d.sPer s
  (a.t0n * p.2 + (g - a.g0) * p.1 * a.den, a.den * p.2)

/-- The stamp of sample g (R92). -/
def Device.sStamp (d : Device) (s : Nat) (g : Int) : Int :=
  let r := d.sPos s g
  roundHalfEven (r.1 - d.sTofs s * r.2) r.2

/-- The first unit of device time at which sample g is released (R92). -/
def Device.sRelease (d : Device) (s : Nat) (g : Int) : Int :=
  let r := d.sPos s g
  Int.neg (Int.neg (r.1 + d.sHold s * r.2) / r.2)

/-- A device time as an integer near a reference (R477). -/
def nearTime (ref : Int) (t : Time) : Int := ref + (t - BitVec.ofInt 64 ref).toInt

/-- The first sample whose stamp is at or after an instant (R116): the estimate from the exact position, corrected for
the rounding of the stamp. -/
def Device.sFirstAt (d : Device) (s : Nat) (t : Time) : Int :=
  let x := d.stream s
  let ti := nearTime (d.sStamp s x.next) t
  let p := d.sPer s
  let a := x.anchor
  let num := ((2 * ti - 1 + 2 * d.sTofs s) * a.den - 2 * a.t0n) * p.2
  let den := 2 * a.den * p.1
  let g := a.g0 - (-num) / den
  if ti ≤ d.sStamp s g then g else g + 1

/-- The first sample whose release time is at or after an instant (R104). -/
def Device.sFirstRelease (d : Device) (s : Nat) (t : Time) : Int :=
  let x := d.stream s
  let ti := nearTime (d.sRelease s x.next) t
  let p := d.sPer s
  let a := x.anchor
  let num := ((ti - d.sHold s) * a.den - a.t0n) * p.2
  a.g0 - (-num) / (a.den * p.1 : Nat)

/-- LNK_S_ANCHOR shows T0 rounded to its unit (R104). -/
def Device.showAnchor (d : Device) (s : Nat) : Device :=
  let a := (d.stream s).anchor
  d.wr64 (Reg.LNK_S_ANCHOR_LO s) (wrap 64 (roundHalfEven a.t0n a.den))

/-! The checks of R100 and R61. -/

/-- A sum of fractions. -/
def fracSum (l : List (Nat × Nat)) : Nat × Nat := l.foldl (fun a b => (a.1 * b.2 + b.1 * a.2, a.2 * b.2)) (0, 1)

/-- A stream's declared rate in MS/s, and payload rate in Mbit/s, as ratios (R61). -/
def rateOf (pnum pden : Nat) : Nat × Nat := (1000 * pden, pnum)
def payloadOf (w pnum pden : Nat) : Nat × Nat := (1000 * pden * w, pnum)

/-- The rates of the streams that are not OFF, `s` with the period given. -/
def Device.ratesWith (d : Device) (s pnum pden : Nat) (f : Nat → Nat → Nat → Nat × Nat) : Nat × Nat :=
  fracSum (((List.range 8).filter (fun t => decide (t ≠ s) && decide (d.sState t ≠ 0) && d.sTimed t)).map
    (fun t => f (d.sWidth t) (d.rdN (Reg.LNK_S_PNUM_CUR t)) (d.rdN (Reg.LNK_S_PDEN_CUR t))) ++ [f (d.sWidth s) pnum pden])

/-- Whether a payload rate exceeds a link's capacity (R61): N lanes of a rate in Mbit/s. -/
def overCapacity (w pnum pden n rate : Nat) (lark : Bool) : Bool :=
  if lark then decide (n * rate * 8 * 254 * pnum < 1000 * pden * w * 2560)
  else decide (n * rate * 31 * pnum < 1000 * pden * w * 33)

/-- The capacity conditions of R100 for a period, with the lanes' rate. -/
def Device.capacityBad (d : Device) (s pnum pden n rate : Nat) (lark : Bool) : Bool :=
  let w := d.sWidth s
  decide (n = 0) || decide (pnum = 0) || decide (pden = 0) || overCapacity w pnum pden n rate lark ||
    (let r := d.ratesWith s pnum pden payloadOf; decide (960000 * r.2 < r.1)) ||
    (let r := d.ratesWith s pnum pden (fun _ a b => rateOf a b); decide (30000 * r.2 < r.1)) ||
    decide (0x100000 * 8 * pnum < d.rdN (Reg.LNK_S_HOLD s) * w * pden) || decide (d.rdN (Reg.LNK_S_HOLD s) < 500)

/-- The rate of the group of a stream's lowest lane. -/
def Device.sRate (d : Device) (s : Nat) : Nat :=
  match d.sLanes s with
  | [] => 0
  | i :: _ => d.fld (F.LNK_G_CFG_RATE (i / 4))

/-- Whether a receive lane belongs to another stream that is not OFF, or to a cascade link that runs (R59, R542). -/
def Device.rxTaken (d : Device) (s i : Nat) : Bool :=
  (List.range 8).any (fun t => decide (t ≠ s) && decide (d.sState t ≠ 0) && bitAt (d.rdN (Reg.LNK_S_LANES t)) i) ||
    (List.range 6).any (fun l => d.isSet (F.CAS_L_CFG_RUN l) && bitAt (d.rdN (Reg.CAS_L_RX l)) i)

/-- Whether the reference of a receive group is absent (R100). -/
def Device.refAbsent (d : Device) (g : Nat) : Bool :=
  if d.isSet (F.LNK_G_CFG_FRAMING g) then bitAt d.lrefLost g else !d.isSet F.CLK_STAT_REF_PRESENT

/-- The check of START (R100), for a stream that is not fed by a decompressor. -/
def Device.sStartCode (d : Device) (s : Nat) : Nat :=
  let ls := d.sLanes s
  let lark := d.sLark s
  let n := d.sN s
  firstCode [
    (d.capacityBad s (d.rdN (Reg.LNK_S_PNUM_CUR s)) (d.rdN (Reg.LNK_S_PDEN_CUR s)) n (d.sRate s) lark, cLENGTH),
    (decide (d.sState s ≠ 0) || ls.any (fun i => d.rxTaken s i), cBUSY),
    (ls.any (fun i => d.refAbsent (i / 4)), cREFLOST),
    (ls.any (fun i => !decide (d.isSet (F.LNK_G_CFG_FRAMING (i / 4)) = lark) ||
        decide (d.fld (F.LNK_G_CFG_RATE (i / 4)) ≠ d.sRate s)) ||
      (lark && (d.isSet (F.LNK_S_CFG_PARITY s) || d.isSet (F.LNK_S_CFG_TIMING s))), cUNSUP)]

/-- The outcome of a request that ends: CODE, the action bit, and the completion (R3, R42). -/
def Device.sFinish (d : Device) (s : Nat) (o : Origin) (ctl : FieldAt) (c : Nat) (stamp : Option Time) : Device :=
  d.finish o ctl (F.LNK_S_STAT_CODE s) c stamp

/-- Whether a stream has a request pending (R45). -/
def Device.sPending (d : Device) (s : Nat) : Bool := d.hasReq [.streamStart, .streamStop, .streamRate] s

/-- PENDING follows the requests of the stream. -/
def Device.showPending (d : Device) (s : Nat) : Device :=
  d.setFld (F.LNK_S_STAT_PENDING s) (if d.sPending s then 1 else 0)

/-- The stream enters ACQUIRE (R101). -/
def Device.sAcquire (d : Device) (s : Nat) : Device :=
  (d.setStream s { d.stream s with acqGroups := 0, acqSince := d.time, acqEnd := none, nextIdx := none, slack := 0,
                                   units := [], awaitScb := false, restart := false, regained := none,
                                   resync := false, parityDown := false }).setFld (F.LNK_S_STAT_STATE s) 1

/-- Samples that fall before the first release of a new anchor, HOLD earlier (R92, R96). -/
def Device.sLead (d : Device) (s : Nat) : Int :=
  let p := d.sPer s
  if p.1 = 0 then 0 else d.sHold s * p.2 / (p.1 : Int)

/-- Take a new anchor at T0 with sample 0 at it (R93, R96, R98); `wait`: its number comes with the next SCB. DEDUCED (log entry 128): a decimator reset
of a SYNCED stream that restarts ends the restart, since it gives the stream an anchor. -/
def Device.sAnchor (d : Device) (s : Nat) (t : Time) (wait : Bool) : Device :=
  let x := d.stream s
  (d.setStream s { x with anchor := { t0n := t.toNat, den := 1, g0 := 0 }, next := -(d.sLead s), awaitScb := wait,
                          restart := false, regained := none }).showAnchor s

/-- Set the reference point of a stream to its first sample stamped at or after an instant (R116), and clear the
corrector's delay line there (R111). While the period gives no release times no sample is stamped: the instant is kept for the first period that does. -/
def Device.sReference (d : Device) (s : Nat) (t : Time) : Device :=
  let d := d.setStream s { d.stream s with refPoint := if d.sTimed s then d.sFirstAt s t else (d.stream s).refPoint, refAt := some t }
  d.setCorr s { d.corr s with line := [] }

/-- A stream becomes RUNNING at a boundary (R93, R101). DESIGN CHOICE (log entry 128): before any decimator reset a SYNCED start has T0 = 0, the reset
value of CHN_LAST_RESET; and LNK_S_ANCHOR shows T0, which in SYNCED mode is not the boundary. -/
def Device.sStartAt (d : Device) (s : Nat) (b : Time) : Device :=
  let d := (d.setFld (F.LNK_S_STAT_STATE s) 2).setFld (F.LNK_S_STAT_PENDING s) 0
  let d := if (d.stream s).replay.isSome then d.sAnchor s b false
    else if d.isSet (F.LNK_S_CFG_TIMING s) then
      let d := d.sAnchor s (d.rdTime Reg.CHN_LAST_RESET_LO) false
      d.setStream s { d.stream s with next := d.sFirstRelease s b }
    else d.sAnchor s b true
  d.sReference s b

/-- A stream stops at a boundary (R102): it goes on as an idle anchor. -/
def Device.sStopAt (d : Device) (s : Nat) : Device :=
  let x := d.stream s
  (d.setFld (F.LNK_S_STAT_STATE s) 0).setStream s
    { x with units := [], nextIdx := none, awaitScb := false, restart := false, resync := false, replay := none,
             replayEnd := none }

/-- A rate change of a stream at a boundary (R104): stamps and release times stay continuous. -/
def Device.sRateAt (d : Device) (s : Nat) (b : Time) (pnum pden : Nat) : Device :=
  let x := d.stream s
  let d :=
    if d.sTimed s then
      let g := d.sFirstRelease s b
      let r := d.sPos s g
      d.setStream s { x with anchor := { t0n := r.1, den := r.2, g0 := g } }
    else d
  ((d.wr (Reg.LNK_S_PNUM_CUR s) pnum).wr (Reg.LNK_S_PDEN_CUR s) pden).showAnchor s

/-- Whether a restarting stream regained its alignment before a boundary (R98). -/
def Stream.back (x : Stream) (b : Time) : Bool := x.restart && (match x.regained with | none => false | some t => timeLT t b)

/-- A stream that regained its alignment takes a new FREE anchor at a boundary (R98). -/
def Device.sRejoin (d : Device) (s : Nat) (b : Time) : Device :=
  let x := d.stream s
  if d.sState s = 2 ∧ x.back b then (d.sAnchor s b true).sReference s b else d

/-- A decimator reset moves the anchor of a SYNCED stream to the reset (R96), and the reference point of every stream
(R116, R133). -/
def Device.sReset (d : Device) (s : Nat) (t : Time) : Device :=
  let d :=
    if d.sState s = 2 ∧ d.isSet (F.LNK_S_CFG_TIMING s) then
      let d := d.sAnchor s t false
      d.setStream s { d.stream s with resync := true }
    else d
  d.sReference s t

/-! Release. -/

/-- Bits `[lo, lo + w)` of a bit stream held in units of `u` bits. -/
def bitsFrom (units : Sparse RxUnit) (u lo : Nat) : Nat → Nat
  | 0 => 0
  | w + 1 =>
    let v := Sparse.get (fun _ => {}) units (lo / u)
    (if bitAt v.payload (lo % u) then 1 else 0) + 2 * bitsFrom units u (lo + 1) w

/-- The units that a sample overlaps. -/
def unitsOf (u w g : Nat) : List Nat := (List.range ((g * w + w - 1) / u - g * w / u + 1)).map (fun i => g * w / u + i)

/-- A sample from its bits in a format (R71, R72). -/
def sampleOf (fmt v : Nat) : Int × Int :=
  match fmt with
  | 0 => (signed 16 v, 0)
  | 1 => (signed 16 v, signed 16 (v / 2 ^ 16))
  | 2 => (signed 12 v * 16, 0)
  | _ => (signed 12 v * 16, signed 12 (v / 2 ^ 12) * 16)

/-- Whether the buffer lists a unit. -/
def hasUnit (units : Sparse RxUnit) (i : Nat) : Bool := units.any (fun kv => decide (kv.1 = i))

/-- The sample that a stream supplies at number `g`, and whether it was missing for want of reception (LATE). -/
def Device.sSample (d : Device) (s : Nat) (g : Int) : Smp × Bool :=
  let x := d.stream s
  let hold := if d.isSet F.CLK_STAT_HOLDOVER then 2 else 0
  let u := d.sUnit s
  let w := d.sWidth s
  if d.sState s ≠ 2 ∨ g < x.anchor.g0 ∨ g < 0 then (⟨0, 0, 0x40 + hold⟩, false)
  else if (match x.replayEnd with | none => false | some e => decide (e ≤ g)) then (⟨0, 0, 0x40 + hold⟩, false)
  else if x.restart ∨ x.awaitScb ∨ x.resync then (⟨0, 0, 0x40 + hold⟩, true)
  else
    let us := unitsOf u w g.toNat
    let vs := us.map (fun i => Sparse.get (fun _ => {}) x.units i)
    if vs.any (fun v => v.early) then (⟨0, 0, 0x40 + hold⟩, false)
    else if us.all (hasUnit x.units) && !vs.any (fun v => v.lost) then
      let z := sampleOf (d.fld (F.LNK_S_CFG_FORMAT s)) (bitsFrom x.units u (g.toNat * w) w)
      (⟨z.1, z.2, vs.foldl (fun m v => m ||| v.marks) hold⟩, false)
    else (⟨0, 0, 0x40 + hold⟩, true)

/-- The stream has released sample `g`: the buffer drops the units it used up. -/
def Device.sReleased (d : Device) (s : Nat) (g : Int) (late : Bool) : Device :=
  let x := d.stream s
  let done := ((g + 1).toNat * d.sWidth s) / d.sUnit s
  let d := d.setStream s { x with next := g + 1,
                                  units := if x.awaitScb || x.resync then x.units
                                    else x.units.filter (fun kv => decide (done ≤ kv.1)) }
  if late then d.flag (F.LNK_S_FLAGS_LATE s) (Reg.LNK_S_LATE_CNT s) else d

/-- Whether sample `g` of a stream may be released now (R92): its time has come, and it is the next. -/
def Device.sDue (d : Device) (s : Nat) (g : Int) : Bool :=
  let x := d.stream s
  d.sTimed s && timeLE (BitVec.ofInt 64 (d.sRelease s g)) d.time &&
    (if d.sState s = 2 then decide (g = x.next) else decide (x.next ≤ g))

def execAcquireTimeout (s' : Nat) (s : State) : Host.Outcome State Fault Refusal :=
  s.run (fun d =>
    let x := d.stream s'
    if s' < 8 ∧ d.sState s' = 1 ∧ x.acqEnd.isNone ∧ x.replay.isNone ∧ timeLE (x.acqSince + nsTime 1000000) d.time then
      let o := match (d.reqs .streamStart).find? (fun r => decide (r.obj = s')) with
        | some r => r.origin
        | none => .host
      let d := (d.dropReq .streamStart s').setFld (F.LNK_S_STAT_STATE s') 0
      (d.sFinish s' o (F.LNK_S_CTL_START s') cCONDITIONS none).showPending s'
    else d)

end Sys2Proof.Machine
end

