-- ==== Sys2Proof/Machine/Channelisers.lean ====
section
/-! DEFINITION. The stream correctors and zoom channelisers (chapter "Stream correction, zoom channelisers and
decimation", R108 to R133, R602): exact arithmetic with one rounding a stage, stamps, marks, and the requests START,
STOP, TUNE and SWAP with what they do at their boundary. -/

namespace Sys2Proof.Machine

/-- A sample that leaves the chain for its consumers: its source (0 to 7 a stream's corrector output, 8 + z channeliser
z), its number in that source, its stamp, and the sample (R131). -/
structure Emit where
  src : Nat
  n : Int
  stamp : Int
  smp : Smp
  deriving DecidableEq, Repr

/-! Correctors. -/

/-- A coefficient of `w` signed bits. -/
def Device.coef (d : Device) (a w : Nat) : Int := signed w (d.rdN a)

/-- The stamp of deframer sample `g` as a device time. -/
def Device.gStamp (d : Device) (s : Nat) (g : Int) : Time := BitVec.ofInt 64 (d.sStamp s g)

/-- The bank that computes sample `g` (R115): the active one, seen back through the swaps whose boundary the sample precedes. -/
def Device.cBank (d : Device) (s : Nat) (g : Int) : Nat :=
  (d.fld (F.CHN_C_STAT_ACTIVE s) + ((d.corr s).swaps.filter (fun b => timeLT (d.gStamp s g) b)).length) % 2

/-- REF of the corrector for sample `g`, in half-samples; 0 in bypass (R112, R113). -/
def Device.cRef (d : Device) (s : Nat) (g : Int) : Nat :=
  if d.isSet (F.CHN_C_CFG_BYPASS s) then 0 else d.fld (F.CHN_BANK_REF_REF s (d.cBank s g))

/-- The exact sum of the corrector's 64 complex taps, in units of 2^-31 (R111). -/
def Device.cSum (d : Device) (s b : Nat) : Nat → List Smp → Int × Int
  | _, [] => (0, 0)
  | k, x :: xs =>
    let hi := d.coef (Reg.CHN_BANK_TAP s b (2 * k)) 18
    let hq := d.coef (Reg.CHN_BANK_TAP s b (2 * k + 1)) 18
    let r := Device.cSum d s b (k + 1) xs
    (hi * x.re - hq * x.im + r.1, hi * x.im + hq * x.re + r.2)

/-- Saturated components of a complex value in `w` bits. -/
def satCount (w : Nat) (v : Int × Int) : Nat := (if saturates w v.1 then 1 else 0) + (if saturates w v.2 then 1 else 0)

/-- A complex value rounded from a scale and saturated to `w` bits. -/
def roundSat (w : Nat) (v : Int × Int) (den : Int) : (Int × Int) × Nat :=
  let r := (roundHalfEven v.1 den, roundHalfEven v.2 den)
  ((satTo w r.1, satTo w r.2), satCount w r)

/-- The corrector output for sample `g` (R109 to R113), with the marks of R132 and R602: a sample before the reference point is zero to the
filter and carries no mark; in bypass, which uses no delay line, it passes as it is. -/
def Device.correct (d : Device) (s : Nat) (g : Int) (x : Smp) : Smp × Device :=
  let c := d.corr s
  let rp := (d.stream s).refPoint
  let line := if g < rp then [] else (x :: c.line).take 64
  let d := d.setCorr s { line := line, swaps := c.swaps.filter (fun b => timeLT (d.gStamp s g) b) }
  if d.isSet (F.CHN_C_CFG_BYPASS s) then (⟨2 * x.re, 2 * x.im, x.marks⟩, d)
  else if g < rp then (⟨0, 0, 0⟩, d)
  else
    let r := roundSat 18 (d.cSum s (d.cBank s g) 0 line) (2 ^ 15)
    let marks := line.foldl (fun m y => m ||| y.marks) 0
    let marks := if g - rp < 63 then marks ||| 0x100 else marks
    let marks := if r.2 = 0 then marks else marks ||| 0x200
    let d := if r.2 = 0 then d else (d.setFld (F.CHN_C_FLAGS_SAT s) 1).incBy (Reg.CHN_C_SAT_CNT s) r.2
    (⟨r.1.1, r.1.2, marks⟩, d)

/-! Channelisers. -/

/-- R, K, whether the half-band is on, and D of a channeliser (R120, R122). -/
def Device.zR (d : Device) (z : Nat) : Nat := d.rdN (Reg.CHN_Z_RATIO z)
def Device.zK (d : Device) (z : Nat) : Nat := d.fld (F.CHN_Z_CFG_ORDER z)
def Device.zHb (d : Device) (z : Nat) : Bool := d.isSet (F.CHN_Z_CFG_HB_EN z)
def Device.zD (d : Device) (z : Nat) : Nat := d.zR z * (if d.zHb z then 2 else 1)

/-- The smallest `k` with `2^k ≥ n`. -/
def log2Up (n : Nat) : Nat := if n ≤ 1 then 0 else (n - 1).log2 + 1

/-- The width of the CIC registers (R120). -/
def cicWidth (k r : Nat) : Nat := min 80 (20 + k * log2Up r)

/-- The gain shift S (R120). -/
def cicShift (k r : Nat) : Nat := log2Up (r ^ k)

/-- The NCO's cosine and sine in units of 2^-17 for a 48-bit phase (R118). -/
def nco (phase : Nat) : Int × Int :=
  let th := (roundHalfEven phase (2 ^ 24)).toNat % 2 ^ 24
  let sc := sinCos th (2 ^ 24)
  (roundHalfEven (131071 * sc.2) (2 ^ 120), roundHalfEven (131071 * sc.1) (2 ^ 120))

/-- The mixer (R118): its output in units of 2^-17. -/
def mix (x : Smp) (phase : Nat) : Int × Int :=
  let cs := nco phase
  (roundHalfEven (x.re * cs.1 + x.im * cs.2) (2 ^ 16), roundHalfEven (x.im * cs.1 - x.re * cs.2) (2 ^ 16))

/-- Add an input to a chain of integrators, modulo 2^w; the last one's value. -/
def integrate (w : Nat) : Nat → List Nat → List Nat × Nat
  | v, [] => ([], v)
  | v, a :: as =>
    let a' := (a + v) % 2 ^ w
    let r := integrate w a' as
    (a' :: r.1, r.2)

/-- Pass a value through a chain of combs with a delay of one output, modulo 2^w. -/
def comb (w : Nat) : Nat → List Nat → List Nat × Nat
  | v, [] => ([], v)
  | v, a :: as =>
    let r := comb w ((v + 2 ^ w - a) % 2 ^ w) as
    (v :: r.1, r.2)

/-- A list of `k` zeros where the state is empty. -/
def fill (k : Nat) (l : List Nat) : List Nat := if l.length = k then l else List.replicate k 0

/-- The FIR of a channeliser over a line of CIC outputs, newest first (R121). -/
def Device.firSum (d : Device) (z : Nat) : Nat → List Int → Int
  | _, [] => 0
  | k, u :: us => d.coef (Reg.CHN_FIR_TAP z k) 18 * u + Device.firSum d z (k + 1) us

/-- The half-band over a line of 63 FIR outputs, newest first, in units of 2^-18 of its input (R122). -/
def Device.hbSum (d : Device) (z : Nat) (l : List Int) : Int :=
  l.getD 31 0 * 2 ^ 17 +
    ((List.range 16).map (fun i => d.coef (Reg.CHN_HB_VAL z i) 18 *
      (l.getD (31 - (2 * i + 1)) 0 + l.getD (31 + (2 * i + 1)) 0))).sum

/-- The span of an output in input samples (R132). -/
def Device.zSpan (d : Device) (z : Nat) : Nat :=
  d.zK z * (d.zR z - 1) + d.zR z * (127 + (if d.zHb z then 62 else 0)) + 1

/-- 2 tau, the group delay in half input samples (R131). -/
def Device.zTau2 (d : Device) (z : Nat) : Nat :=
  d.zK z * (d.zR z - 1) + d.zR z * d.fld (F.CHN_Z_FIR_REF_REF z) + (if d.zHb z then 62 * d.zR z else 0)

/-- Record the marks of input `j`, by bit. -/
def Chan.mark (x : Chan) (j : Int) (marks : Nat) : Chan :=
  let bits := onesBelow marks 16
  { x with markJ := (x.markJ.filter (fun m => !decide (m.1 ∈ bits))) ++ bits.map (fun b => (b, j)) }

/-- The marks of the inputs from `j0` on. -/
def Chan.marksFrom (x : Chan) (j0 : Int) : Nat :=
  ((x.markJ.filter (fun m => decide (j0 ≤ m.2))).map (fun m => 2 ^ m.1)).sum

/-- PHASE0 and a word as the phase of input `j` (R117, R119). -/
def Device.zPhase (d : Device) (z : Nat) (j : Int) (f : Nat) : Nat := wrap 48 (d.fld (F.CHN_Z_PHASE_PHASE0 z) * 2 ^ 32 + j * f)

/-- A channeliser before input `j`, stamped `at'`: the tunes whose boundary the sample has reached apply (R119), and the first input since the start or
the reference point takes its phase from `j` (R116, R117). -/
def Device.zTuned (d : Device) (z : Nat) (j : Int) (at' : Time) : Chan :=
  let x := d.chan z
  let x := (x.tunes.filter (fun t => timeLE t.1 at')).foldl (fun x t =>
    { x with ftw := t.2, phase := if d.isSet (F.CHN_Z_CFG_COHERENT z) then d.zPhase z j t.2 else x.phase })
    { x with tunes := x.tunes.filter (fun t => !timeLE t.1 at') }
  if x.firstJ.isNone then { x with firstJ := some j, startB := none, phase := d.zPhase z j x.ftw } else x

/-- One input sample of a running channeliser, stamped `at'`: the new state, an output if one falls due, and saturated components
(R117 to R123, R132, R602). -/
def Device.zInput (d : Device) (z : Nat) (j : Int) (at' : Time) (smp : Smp) : Chan × Option Smp × Nat :=
  let x := d.zTuned z j at'
  let r := d.zR z
  let k := d.zK z
  let w := cicWidth k r
  let mx := mix smp x.phase
  let ii := integrate w (wrap w mx.1) (fill k x.integI)
  let iq := integrate w (wrap w mx.2) (fill k x.integQ)
  let x := { x.mark j smp.marks with integI := ii.1, integQ := iq.1, phase := (x.phase + x.ftw) % 2 ^ 48 }
  if j % r ≠ r - 1 then (x, none, 0)
  else
    let m := j / r
    let ci := comb w ii.2 (fill k x.combI)
    let cq := comb w iq.2 (fill k x.combQ)
    let sh := cicShift k r
    let scale := fun (v : Nat) => roundHalfEven (signed w v * 16) (2 ^ sh)
    let fi := (scale ci.2 :: x.firI).take 128
    let fq := (scale cq.2 :: x.firQ).take 128
    let f := roundSat 24 (d.firSum z 0 fi, d.firSum z 0 fq) (2 ^ 16)
    let x := { x with combI := ci.1, combQ := cq.1, firI := fi, firQ := fq,
                      satM := if f.2 = 0 then x.satM else some m }
    let hi := (f.1.1 :: x.hbI).take 63
    let hq := (f.1.2 :: x.hbQ).take 63
    let hb := d.zHb z
    let x := if hb then { x with hbI := hi, hbQ := hq } else x
    if hb && decide (m % 2 = 0) then (x, none, f.2)
    else
      let y := if hb then roundSat 24 (d.hbSum z hi, d.hbSum z hq) (2 ^ 18) else (f.1, 0)
      let g : Int := 2 ^ (d.fld (F.CHN_Z_CFG_SHIFT z))
      let o := roundSat 18 (y.1.1 * g, y.1.2 * g) 32
      let j0 := j - d.zSpan z + 1
      let marks := x.marksFrom j0
      let marks := if j0 < x.firstJ.getD 0 then marks ||| 0x100 else marks
      let fir := match x.satM with | none => false | some sm => decide (m - (if hb then 62 else 0) ≤ sm)
      let own := decide (y.2 ≠ 0) || decide (o.2 ≠ 0) || fir
      (x, some ⟨o.1.1, o.1.2, if own then marks ||| 0x200 else marks⟩, f.2 + y.2 + o.2)

/-- The stamp of a channeliser output at input sample `j` (R131). -/
def Device.zStamp (d : Device) (s z : Nat) (g : Int) : Int :=
  let r := d.sPos s g
  let p := d.sPer s
  let half := (d.cRef s g + d.zTau2 z : Nat)
  roundHalfEven (2 * (r.1 - d.sTofs s * r.2) * p.2 - (half : Int) * p.1 * r.2) (2 * r.2 * p.2)

/-- The stamp of the corrector output for sample `g` (R131). -/
def Device.cStamp (d : Device) (s : Nat) (g : Int) : Int :=
  let r := d.sPos s g
  let p := d.sPer s
  roundHalfEven (2 * (r.1 - d.sTofs s * r.2) * p.2 - (d.cRef s g : Int) * p.1 * r.2) (2 * r.2 * p.2)

/-- Whether a channeliser takes an input stamped `at'`: it has started by it, and its stop boundary, if any, is later (R126, R127). -/
def Device.zOn (d : Device) (z : Nat) (at' : Time) : Bool :=
  let x := d.chan z
  (match x.startB with | none => true | some b => timeLE b at') &&
    (match x.stopB with | none => d.isSet (F.CHN_Z_STAT_RUNNING z) | some b => timeLT at' b)

/-- Channeliser `z` takes the corrector output for sample `g` of its stream (R116, R126, R127): what it emits. A stopped
channeliser emits substituted samples at its output positions; a sample before the reference point enters as zero (R602). -/
def Device.zTake (d : Device) (s z : Nat) (g : Int) (c : Smp) : List Emit × Device :=
  let x := d.chan z
  let at' := d.gStamp s g
  let j := g - (d.stream s).refPoint
  let dd := d.zD z
  let on := d.zOn z at'
  let d := match x.stopB with
    | some b => if timeLE b at' then d.setChan z { x with stopB := none } else d
    | none => d
  if dd = 0 then ([], d)
  else if on && decide (0 ≤ j) then
    let r := d.zInput z j at' c
    let d := d.setChan z r.1
    let d := if r.2.2 = 0 then d else (d.setFld (F.CHN_Z_FLAGS_SAT z) 1).incBy (Reg.CHN_Z_SAT_CNT z) r.2.2
    match r.2.1 with
    | none => ([], d)
    | some o =>
      ([⟨8 + z, j / dd, d.zStamp s z g, o⟩], d.setFld (F.CHN_Z_STAT_SETTLED z) (if bitAt o.marks 8 then 0 else 1))
  else if j % dd = dd - 1 then
    let hold := if d.isSet F.CLK_STAT_HOLDOVER then 2 else 0
    if on then ([⟨8 + z, j / dd, d.zStamp s z g, ⟨0, 0, 0x100⟩⟩], d.setFld (F.CHN_Z_STAT_SETTLED z) 0)
    else ([⟨8 + z, j / dd, d.zStamp s z g, ⟨0, 0, 0x40 + hold⟩⟩], d)
  else ([], d)

/-- The channelisers on a stream, in turn. -/
def Device.zTakeAll (d : Device) (s : Nat) (g : Int) (c : Smp) : List Nat → List Emit × Device
  | [] => ([], d)
  | z :: zs =>
    if d.fld (F.CHN_Z_CFG_SOURCE z) = s then
      let r := d.zTake s z g c
      let r' := Device.zTakeAll r.2 s g c zs
      (r.1 ++ r'.1, r'.2)
    else Device.zTakeAll d s g c zs

/-- Sample `g` of a stream passes the corrector and the channelisers: the corrector output, and everything emitted. -/
def Device.chain (d : Device) (s : Nat) (g : Int) (x : Smp) : Smp × List Emit × Device :=
  let c := d.correct s g x
  let st := c.2.cStamp s g
  let z := c.2.zTakeAll s g c.1 (List.range 16)
  (c.1, ⟨s, g - (c.2.stream s).refPoint, st, c.1⟩ :: z.1, z.2)

/-! Requests. -/

/-- Whether a channeliser is not OFF: it runs, or an accepted START awaits its boundary (R124, R125). -/
def Device.zBusy (d : Device) (z : Nat) : Bool := d.isSet (F.CHN_Z_STAT_RUNNING z) || d.hasReq [.chnStart] z

/-- The check of START (R125). -/
def Device.zStartCode (d : Device) (z : Nat) : Nat :=
  let s := d.fld (F.CHN_Z_CFG_SOURCE z)
  let r := d.zR z
  let k := d.zK z
  let pn := d.rdN (Reg.LNK_S_PNUM_CUR s)
  let pd := d.rdN (Reg.LNK_S_PDEN_CUR s)
  firstCode [
    (decide (r = 0 ∨ pn = 0 ∨ pd = 0), cLENGTH),
    (d.isSet (F.CHN_Z_STAT_RUNNING z) || d.hasReq [.chnStart, .chnStop, .chnTune] z, cBUSY),
    (decide (k < 3 ∨ 5 < k ∨ (1 ≤ r ∧ r ≤ 3) ∨ 4096 < r ∨ 254 < d.fld (F.CHN_Z_FIR_REF_REF z) ∨ r * pn < pd), cUNSUP)]

/-- PENDING of a channeliser follows its requests. -/
def Device.zShow (d : Device) (z : Nat) : Device :=
  d.setFld (F.CHN_Z_STAT_PENDING z) (if d.hasReq [.chnStart, .chnStop, .chnTune] z then 1 else 0)

/-- The end of a channeliser request. -/
def Device.zFinish (d : Device) (z : Nat) (o : Origin) (ctl : FieldAt) (c : Nat) (stamp : Option Time) : Device :=
  (d.finish o ctl (F.CHN_Z_STAT_CODE z) c stamp).zShow z

/-- FTW of a channeliser as its registers hold it (R119). -/
def Device.zFtw (d : Device) (z : Nat) : Nat := d.rd64 (Reg.CHN_Z_FTW_LO z) % 2 ^ 48

/-- START of a channeliser (R125, R126). -/
def Device.zStart (d : Device) (z : Nat) (o : Origin) : Device :=
  let c := d.zStartCode z
  if c = cOK then
    ((d.request .chnStart z (d.rdTime (Reg.CHN_Z_AT_LO z)) o []).actBit o (F.CHN_Z_CTL_START z)).zShow z
  else if d.hasReq [.chnStart] z then (d.setFld (F.CHN_Z_STAT_CODE z) c).complete o c none
  else d.zFinish z o (F.CHN_Z_CTL_START z) c none

/-- STOP of a channeliser (R127); on one that is OFF it has no effect. -/
def Device.zStop (d : Device) (z : Nat) (o : Origin) : Device :=
  if d.hasReq [.chnStart, .chnStop, .chnTune] z then (d.setFld (F.CHN_Z_STAT_CODE z) cBUSY).complete o cBUSY none
  else if !d.isSet (F.CHN_Z_STAT_RUNNING z) then d.zFinish z o (F.CHN_Z_CTL_STOP z) cOK none
  else ((d.request .chnStop z (d.rdTime (Reg.CHN_Z_AT_LO z)) o []).actBit o (F.CHN_Z_CTL_STOP z)).zShow z

/-- TUNE of a channeliser (R119); on one that is OFF it completes at once. -/
def Device.zTune (d : Device) (z : Nat) (o : Origin) : Device :=
  if d.hasReq [.chnStart, .chnStop, .chnTune] z then (d.setFld (F.CHN_Z_STAT_CODE z) cBUSY).complete o cBUSY none
  else if !d.isSet (F.CHN_Z_STAT_RUNNING z) then d.zFinish z o (F.CHN_Z_CTL_TUNE z) cOK none
  else
    ((d.request .chnTune z (d.rdTime (Reg.CHN_Z_AT_LO z)) o [d.zFtw z]).actBit o (F.CHN_Z_CTL_TUNE z)).zShow z

/-- CHN_Z_TAU2 of a channeliser that runs (R131). -/
def Device.zShowTau (d : Device) (z : Nat) : Device :=
  if d.isSet (F.CHN_Z_STAT_RUNNING z) then d.wr (Reg.CHN_Z_TAU2 z) (d.zTau2 z) else d

/-- The registers that START computes (R120, R131). -/
def Device.zShowGain (d : Device) (z : Nat) : Device :=
  let k := d.zK z
  let r := d.zR z
  let sh := cicShift k r
  ((d.wr (Reg.CHN_Z_GAIN z) (roundHalfEven (r ^ k * 2 ^ 24 : Nat) (2 ^ sh)).toNat).wr (Reg.CHN_Z_SHIFT z) sh).wr
    (Reg.CHN_Z_TAU2 z) (d.zTau2 z)

/-- A channeliser becomes RUNNING at a boundary (R126): its state is cleared, and its first input is the first stamped at or after it. -/
def Device.zStartAt (d : Device) (z : Nat) (b : Time) : Device :=
  ((d.setChan z { ftw := d.zFtw z, startB := some b }).zShowGain
    z).wr (Reg.CHN_Z_STAT z) (setBits (setBits (d.rdN (Reg.CHN_Z_STAT z)) 0 1 1) 2 1 0)

/-- A channeliser stops at a boundary (R127): inputs stamped before it still make their outputs. -/
def Device.zStopAt (d : Device) (z : Nat) (b : Time) : Device :=
  (d.setChan z { d.chan z with stopB := some b }).setFld (F.CHN_Z_STAT_RUNNING z) 0

/-- A tune at a boundary (R119): its word applies from the first input stamped at or after it. -/
def Device.zTuneAt (d : Device) (z : Nat) (b : Time) (f : Nat) : Device :=
  d.setChan z { d.chan z with tunes := (d.chan z).tunes ++ [(b, f)] }

/-- The inactive bank becomes active for the samples stamped at or after a boundary (R115). -/
def Device.cSwapAt (d : Device) (s : Nat) (b : Time) : Device :=
  (d.setCorr s { d.corr s with swaps := (d.corr s).swaps ++ [b] }).setFld (F.CHN_C_STAT_ACTIVE s)
    (1 - d.fld (F.CHN_C_STAT_ACTIVE s))

/-- SWAP of a corrector (R115). -/
def Device.cSwap (d : Device) (s : Nat) (o : Origin) : Device :=
  if d.hasReq [.corrSwap] s then (d.setFld (F.CHN_C_STAT_CODE s) cBUSY).complete o cBUSY none
  else if d.sState s = 0 then
    ((d.setCorr s { d.corr s with swaps := [] }).setFld (F.CHN_C_STAT_ACTIVE s)
      (1 - d.fld (F.CHN_C_STAT_ACTIVE s))).finish o (F.CHN_C_CTL_SWAP s) (F.CHN_C_STAT_CODE s) cOK none
  else
    ((d.request .corrSwap s (d.rdTime (Reg.CHN_C_AT_LO s)) o []).actBit o (F.CHN_C_CTL_SWAP s)).setFld
      (F.CHN_C_STAT_PENDING s) 1

/-- A new reference point, or a decimator reset, clears a channeliser: its inputs are numbered anew and its phases follow (R116, R117, R133). The start,
stop and tune boundaries that unreleased samples precede stay. -/
def Device.zReset (d : Device) (z : Nat) : Device :=
  let x := d.chan z
  d.setChan z { ftw := x.ftw, startB := x.startB, stopB := x.stopB, tunes := x.tunes }

/-- A stream has a new reference point: its channelisers number their inputs from it (R116). -/
def Device.zRenumber (d : Device) (s : Nat) : Device :=
  (List.range 16).foldl (fun d z => if d.fld (F.CHN_Z_CFG_SOURCE z) = s then d.zReset z else d) d

/-- A decimator reset (R32, R96, R133): step 1 of R36. -/
def Device.decReset (d : Device) (t : Time) : Device :=
  let d := (d.wrTime Reg.CHN_LAST_RESET_LO t).inc Reg.CHN_RESET_CNT
  let d := (List.range 8).foldl (fun d s => (d.setCorr s { d.corr s with line := [] }).sReset s t) d
  (List.range 16).foldl Device.zReset d

/-- RESET (R135): GO or the command. -/
def Device.resetGo (d : Device) (o : Origin) : Device :=
  if d.hasReq [.decReset] 0 then (d.setFld F.CHN_RESET_CTL_CODE cBUSY).complete o cBUSY none
  else
    ((d.request .decReset 0 (d.rdTime Reg.CHN_RESET_AT_LO) o []).actBit o F.CHN_RESET_CTL_GO).setFld
      F.CHN_RESET_CTL_PENDING 1

/-- Whether a commanded reset acts on the TCLK edge at `t` (R135). -/
def Device.resetDue (d : Device) (t : Time) : Bool := (d.reqs .decReset).any (fun r => r.due t)

/-- The end of a commanded reset: CHN_RESET_CTL and its requester, or for a cascade reset of this master CAS_CTL (R135, R554). -/
def Device.resetEnd (d : Device) (t : Time) (r : BReq) : Device :=
  match r.arg with
  | [] => (d.setFld F.CHN_RESET_CTL_PENDING 0).finish r.origin F.CHN_RESET_CTL_GO F.CHN_RESET_CTL_CODE cOK (some t)
  | [1] => (d.setFld F.CAS_CMD_STAT_BUSY 0).finish r.origin F.CAS_CTL_RESET F.CAS_CMD_STAT_CODE cOK (some t)
  | _ => d

/-- The commanded resets that acted on an edge complete with its stamp. -/
def Device.resetDone (d : Device) (t : Time) : Device :=
  let l := (d.reqs .decReset).filter (fun r => r.due t)
  l.foldl (fun d r => d.resetEnd t r) { d with breqs := d.breqs.filter (fun r => !(decide (r.kind = .decReset) && r.due t)) }

/-! Commands. -/

def execChnCCtlSwap (s' : Nat) (s : State) : Host.Outcome State Fault Refusal :=
  s.run (fun d => if s' < 8 then d.cSwap s' .host else d)

/-- Engine SWAP writes CHN_C_AT, then acts as the register request. -/
def execChnSwap (u : UCmd) (s : State) : Host.Outcome State Fault Refusal :=
  s.run (fun d => d.unitCmd 0x03 2 u fun d =>
    (d.wrBlock u [(Reg.CHN_C_AT_LO u.unit, 0), (Reg.CHN_C_AT_HI u.unit, 4)]).cSwap u.unit u.origin)

def execChnZCtlStart (z : Nat) (s : State) : Host.Outcome State Fault Refusal :=
  s.run (fun d => if z < 16 then d.zStart z .host else d)

def execChnZCtlStop (z : Nat) (s : State) : Host.Outcome State Fault Refusal :=
  s.run (fun d => if z < 16 then d.zStop z .host else d)

def execChnZCtlTune (z : Nat) (s : State) : Host.Outcome State Fault Refusal :=
  s.run (fun d => if z < 16 then d.zTune z .host else d)

/-- Engine START writes the channeliser's registers under R600: a channeliser that is not OFF takes none of them. -/
def execChnStart (u : UCmd) (s : State) : Host.Outcome State Fault Refusal :=
  s.run (fun d => d.unitCmd 0x03 3 u fun d =>
    let z := u.unit
    if d.zBusy z then d.complete u.origin cBUSY none
    else
      (d.wrBlock u [(Reg.CHN_Z_CFG z, 0), (Reg.CHN_Z_RATIO z, 4), (Reg.CHN_Z_FTW_LO z, 8), (Reg.CHN_Z_FTW_HI z, 12),
        (Reg.CHN_Z_PHASE z, 16), (Reg.CHN_Z_FIR_REF z, 20), (Reg.CHN_Z_AT_LO z, 32), (Reg.CHN_Z_AT_HI z, 36)]).zStart z
        u.origin)

def execChnStop (u : UCmd) (s : State) : Host.Outcome State Fault Refusal :=
  s.run (fun d => d.unitCmd 0x03 4 u fun d =>
    (d.wrBlock u [(Reg.CHN_Z_AT_LO u.unit, 0), (Reg.CHN_Z_AT_HI u.unit, 4)]).zStop u.unit u.origin)

def execChnTune (u : UCmd) (s : State) : Host.Outcome State Fault Refusal :=
  s.run (fun d => d.unitCmd 0x03 5 u fun d =>
    let z := u.unit
    (d.wrBlock u [(Reg.CHN_Z_FTW_LO z, 0), (Reg.CHN_Z_FTW_HI z, 4), (Reg.CHN_Z_AT_LO z, 8),
      (Reg.CHN_Z_AT_HI z, 12)]).zTune z u.origin)

def execChnResetCtlGo (s : State) : Host.Outcome State Fault Refusal := s.run (fun d => d.resetGo .host)

def execChnReset (u : UCmd) (s : State) : Host.Outcome State Fault Refusal :=
  s.run (fun d => d.unitCmd 0x03 1 u fun d =>
    (d.wrBlock u [(Reg.CHN_RESET_AT_LO, 0), (Reg.CHN_RESET_AT_HI, 4)]).resetGo u.origin)

/-- A rising edge on SYNC_IN is first sampled on a TCLK edge, with SYNC_EN set (R134): the reset acts 16 edges later. -/
def Device.syncEdge (d : Device) : Device := { d.inc Reg.CHN_SYNC_CNT with syncLeft := d.syncLeft ++ [16] }

/-- A rising edge reaches SYNC_IN at `t` (R134): it is first sampled on the first TCLK edge strictly after it, which may be the last one that passed. -/
def Device.syncAt (d : Device) (t : Time) : Device :=
  if timeLT t d.time then d.syncEdge else { d with syncIn := d.syncIn ++ [t] }

/-- The TCLK edge at the present time samples the SYNC_IN and MONSYNC edges before it (R134, R507). -/
def Device.syncSample (d : Device) : Device :=
  let was := d.syncIn.filter (fun t => timeLT t d.time)
  let mon := d.monIn.filter (fun t => timeLT t d.time)
  let d : Device := { d with syncIn := d.syncIn.filter (fun t => !timeLT t d.time), monIn := d.monIn.filter (fun t => !timeLT t d.time) }
  let d := if was.isEmpty || !d.isSet F.CHN_SYNC_CFG_SYNC_EN then d else d.syncEdge
  if mon.isEmpty || !d.isSet F.MON_CFG_MONSYNC_EN then d else { d with monSync := d.monSync ++ [16] }

end Sys2Proof.Machine
end

