-- ==== Sys2Proof/Machine/Rates.lean ====
section
/-! DEFINITION. Rates as exact rationals: the root frequency (R453), FCLK, the sample rates of streams and channelisers
(R164), and context descriptors as the units read them (R156, R157). -/

namespace Sys2Proof.Machine

/-- The root frequency that a set of CLK fields gives, in GHz (R453). -/
def rootOf (ref cfg frac : Nat) : ℚ :=
  (ref : ℚ) * ((bitsOf cfg 16 10 * 2 ^ 32 + frac : Nat) : ℚ) / ((bitsOf cfg 0 4 * 2 ^ 32 * 10 ^ 9 : Nat) : ℚ)

/-- The programmed frequency of the active root, in GHz. -/
def Device.fRoot (d : Device) : ℚ := rootOf d.roots.ref (d.rdN Reg.CLK_CUR_CFG) (d.rdN Reg.CLK_CUR_FRAC)

/-- The sample period of a stream in ns: the period in force (R92, R601). -/
def Device.sNs (d : Device) (s : Nat) : ℚ := (d.rdN (Reg.LNK_S_PNUM_CUR s) : ℚ) / (d.rdN (Reg.LNK_S_PDEN_CUR s) : ℚ)

/-- The stream at the head of a source (R24, R156). -/
def Device.srcStream (d : Device) (src : Nat) : Nat := if src < 8 then src else d.fld (F.CHN_Z_CFG_SOURCE (src - 8))

/-- The decimation of a source: 1 for a stream. -/
def Device.srcD (d : Device) (src : Nat) : Nat := if src < 8 then 1 else d.zD (src - 8)

/-- The sample period of a source in ns, given the periods of the streams. -/
def Device.srcNs (d : Device) (per : Nat → ℚ) (src : Nat) : ℚ := per (d.srcStream src) * (d.srcD src : ℚ)

/-- The least integer at or above a rational. -/
def ceilQ (q : ℚ) : Int := Int.neg ((Int.neg q.num) / q.den)

/-- A rational of nanoseconds in units of 2^-16 ns, rounded up. -/
def unitsUp (ns : ℚ) : Int := ceilQ (ns * 65536)

/-- A field of a descriptor's 32-bit word. -/
def dw (bs : List Byte) (off lo w : Nat) : Nat := bitsOf (ofBytesLE ((bs.drop off).take 4)) lo w

/-- A 48-bit address of a descriptor. -/
def dq (bs : List Byte) (off : Nat) : Nat := ofBytesLE ((bs.drop off).take 8) % 2 ^ 48

/-- The descriptor of a context in the context store (R46). -/
def Device.desc (d : Device) (c : Nat) : List Byte := memBytes d.ctx (c * 0x400) 0x400

/-! The fabric and delivery sections (R156, R157). -/

def cSource (b : List Byte) : Nat := dw b 0 0 5
def cLog (b : List Byte) : Nat := dw b 4 0 5
def cN (b : List Byte) : Nat := 2 ^ cLog b
def cLong (b : List Byte) : Bool := decide (16 < cLog b)
def cHop (b : List Byte) : Nat := dw b 8 0 25
def cWindow (b : List Byte) : Nat := dw b 0xC 0 4
def cKbeta (b : List Byte) : Nat := dw b 0xC 4 4
def cFormat (b : List Byte) : Nat := dw b 0x10 0 3
def cNorm (b : List Byte) : Nat := dw b 0x10 4 2
def cCentred (b : List Byte) : Bool := decide (dw b 0x10 6 1 = 1)
def cBinFirst (b : List Byte) : Nat := dw b 0x14 0 25
def cBinCount (b : List Byte) : Nat := dw b 0x18 0 26
def cAlign (b : List Byte) : Bool := decide (dw b 0x1C 0 1 = 1)
def cPhase (b : List Byte) : Nat := dw b 0x20 0 25
def cUserWin (b : List Byte) : Nat := dq b 0x28
def cWork (b : List Byte) : Nat := dq b 0x30
def cWorkSize (b : List Byte) : Nat := dw b 0x38 0 32
def cClEn (b : List Byte) : Bool := decide (dw b 0x300 0 1 = 1)
def cQEn (b : List Byte) : Bool := decide (dw b 0x300 1 1 = 1)
def cDecim (b : List Byte) : Nat := dw b 0x304 0 21
def cCl (b : List Byte) : Nat := dw b 0x308 0 5
def cClY (b : List Byte) : Bool := decide (dw b 0x308 8 1 = 1)
def cClBase (b : List Byte) : Nat := dw b 0x30C 0 19
def cClSlot (b : List Byte) : Nat := dw b 0x310 0 20
def cClCount (b : List Byte) : Nat := dw b 0x314 0 13
def cClEngines (b : List Byte) : Nat := dw b 0x318 0 16
def cQueue (b : List Byte) : Nat := dw b 0x31C 0 12

/-- Bytes of a delivered bin (R149). -/
def binBytes (fmt : Nat) : Nat := if fmt < 2 then 4 else 8

/-- The bin at a position (R151, R179). -/
def binAt (b : List Byte) (j : Nat) : Nat := if cCentred b then (j + cN b / 2) % cN b else j

/-! Trace entries (R178), density entries (R187) and mask entries (R207). -/

def trBase (t : Nat) : Nat := 0x80 + 0x40 * t
def trEn (b : List Byte) (t : Nat) : Bool := decide (dw b (trBase t) 0 1 = 1)
def trDet (b : List Byte) (t : Nat) : Nat := dw b (trBase t) 1 3
def trMode (b : List Byte) (t : Nat) : Nat := dw b (trBase t) 4 2
def trDb (b : List Byte) (t : Nat) : Bool := decide (dw b (trBase t) 6 1 = 1)
def trEvery (b : List Byte) (t : Nat) : Nat := dw b (trBase t + 4) 0 21
def trShift (b : List Byte) (t : Nat) : Nat := dw b (trBase t + 8) 0 5
def trFirst (b : List Byte) (t : Nat) : Nat := dw b (trBase t + 0xC) 0 25
def trPoints (b : List Byte) (t : Nat) : Nat := dw b (trBase t + 0x10) 0 15
def trBpp (b : List Byte) (t : Nat) : Nat := dw b (trBase t + 0x14) 0 17
def trQueue (b : List Byte) (t : Nat) : Nat := dw b (trBase t + 0x18) 0 12

/-- The bytes of a density entry. -/
def denEntry (b : List Byte) (j : Nat) : List Byte := (b.drop (0x280 + 0x40 * j)).take 0x40
def dePlane (e : List Byte) : Nat := dw e 0 0 4
def deEn (e : List Byte) : Bool := decide (dw e 0 4 1 = 1)
def deMem (e : List Byte) : Bool := decide (dw e 0 5 1 = 1)
def deClamp (e : List Byte) : Bool := decide (dw e 0 6 1 = 1)
def deFirst (e : List Byte) : Nat := dw e 4 0 25
def deCols (e : List Byte) : Nat := dw e 8 0 13
def deRows (e : List Byte) : Nat := dw e 0xC 0 11
def deBpc (e : List Byte) : Nat := dw e 0x10 0 17
def deCpb (e : List Byte) : Nat := dw e 0x14 0 4
def deTop (e : List Byte) : Nat := dw e 0x18 0 32
def deStep (e : List Byte) : Nat := dw e 0x1C 0 32
def deHalf (e : List Byte) : Nat := dw e 0x20 0 32
def deDecim (e : List Byte) : Nat := dw e 0x24 0 21
def deBase (e : List Byte) : Nat := dq e 0x28
def deQueue (e : List Byte) : Nat := dw e 0x30 0 12
def deQEn (e : List Byte) : Bool := decide (dw e 0x30 16 1 = 1)

/-- The bytes of a mask and trigger entry. -/
def mkEntry (b : List Byte) (t : Nat) : List Byte := (b.drop (0x180 + 0x40 * t)).take 0x40
def mkEn (e : List Byte) : Bool := decide (dw e 0 0 1 = 1)
def mkType (e : List Byte) : Nat := dw e 0 1 2
def mkUnit (e : List Byte) : Nat := dw e 0 8 6
def mkTest (e : List Byte) : Nat := dw e 0 16 2
def mkPlane (e : List Byte) : Nat := dw e 0 20 1
def mkTrace (e : List Byte) : Nat := dw e 0 24 2
def mkStop (e : List Byte) : Bool := decide (dw e 0 28 1 = 1)
def mkAll (e : List Byte) : Bool := decide (dw e 0 29 1 = 1)
def mkFirst (e : List Byte) : Nat := dw e 4 0 25
def mkPoints (e : List Byte) : Nat := dw e 8 0 17
def mkBpm (e : List Byte) : Nat := dw e 0xC 0 17
def mkMin (e : List Byte) : Nat := dw e 0x10 0 17
def mkEnter (e : List Byte) : Nat := dw e 0x14 0 16
def mkExit (e : List Byte) : Nat := dw e 0x14 16 16
def mkOffset (e : List Byte) : Nat := dw e 0x18 0 32
def mkQueue (e : List Byte) : Nat := dw e 0x1C 0 12
def mkCapture (e : List Byte) : Nat := dw e 0x1C 16 6
def mkAddr (e : List Byte) : Nat := dq e 0x20
def mkCol0 (e : List Byte) : Nat := dw e 0x28 0 12
def mkCol1 (e : List Byte) : Nat := dw e 0x28 16 12
def mkRow0 (e : List Byte) : Nat := dw e 0x2C 0 10
def mkRow1 (e : List Byte) : Nat := dw e 0x2C 16 10
def mkThresh (e : List Byte) : Nat := dw e 0x30 0 13

/-- The value of a binary32 as a rational. -/
def f32Q (b : Nat) : ℚ := let r := f32.ratio b; (r.1 : ℚ) / (r.2 : ℚ)

/-- The 32-byte record header as a producer fills it (R356): type, marks (FLAGS and FLAGS_X), length, context and stream, and
device time. -/
def recHead (ty marks len cs : Nat) (t : Int) : List Byte :=
  bytesLE 4 (ty + marks % 2 ^ 16 * 256) ++ bytesLE 4 len ++ bytesLE 4 cs ++ bytesLE 4 0 ++ bytesLE 8 (wrap 64 t) ++ bytesLE 8 0

/-- CTX_STREAM of a record (R356). -/
def ctxStream (c s : Nat) : Nat := c % 4096 + s % 8 * 4096

/-- A level in dB in units of 2^-40: the exact value within the 0.001 dB that R181 and R188 allow. -/
def dbOf (n m : Nat) : Int :=
  tenLog10Fix n m + max (-1099000000) (min 1099000000 (Config.dbError n m))

end Sys2Proof.Machine
end

