-- ==== Sys2Proof/Machine/Spectrum.lean ====
section
/-! DEFINITION. Windows and transforms (R141 to R151): window coefficients correctly rounded, the block floating-point input
scaling, the radix-2 stages, the four-step long transform, the scale factor g and the delivered forms, and POWER. -/

namespace Sys2Proof.Machine

/-! Windows. -/

/-- The cosine-sum coefficients of a window code, in units of 10^-9 (R141). -/
def winCoefs (code : Nat) : List Int :=
  match code with
  | 0 => [1000000000]
  | 1 => [500000000, 500000000]
  | 2 => [540000000, 460000000]
  | 3 => [358750000, 488290000, 141280000, 11680000]
  | 4 => [215578950, 416631580, 277263158, 83578947, 6947368]
  | _ => []

/-- The alternating cosine sum at x = n / N, times 10^9 and the fixed-point one. -/
def cosSum (n big : Nat) : Nat → List Int → Int
  | _, [] => 0
  | k, a :: as => (if k % 2 = 0 then a else -a) * (sinCos (k * n) big).2 + cosSum n big (k + 1) as

/-- The Kaiser coefficient of sample `n` of `big` for a finite parameter (R141, R142). -/
def kaiserCoef (beta n big : Nat) : Int :=
  if f32.isNaN beta || f32.isInf beta then Config.kaiserOpen beta n big
  else
    let b := f32.ratio beta
    let fuel := 2 * (b.1.natAbs / b.2) + 200
    let y2 : Int := (2 * n - big : Int) * (2 * n - big)
    let z (num den : Int) : Int := b.1 * b.1 * oneFix * num / (4 * (b.2 * b.2 : Nat) * den)
    roundHalfEven (besselI0 fuel (z ((big * big : Nat) - y2) (big * big : Nat)) * 65536) (besselI0 fuel (z 1 1))

/-- The window coefficient of sample `n` in units of 2^-16 (R141, R142). -/
def winCoef (s : CtxSet) (n : Nat) : Int :=
  let big := cN s.desc
  match cWindow s.desc with
  | 5 => kaiserCoef s.beta n big
  | 6 => signed 18 (s.user.getD n 0)
  | c => roundHalfEven (cosSum n big 0 (winCoefs c) * 65536) (oneFix * 1000000000)

/-- The window of a context. -/
def window (s : CtxSet) : List Int := (List.range (cN s.desc)).map (winCoef s)

/-- The sum that NORM uses, in units of 2^-16 or 2^-32 (R148). -/
def winSum (s : CtxSet) : Int :=
  match cNorm s.desc with
  | 1 => (window s).sum
  | 2 => ((window s).map (fun w => w * w)).sum
  | _ => 1

/-- g of R148: whether it is negative, and its square as a ratio. -/
def gScale (s : CtxSet) : Bool × Nat × Nat :=
  match cNorm s.desc with
  | 1 => (decide (winSum s < 0), 2 ^ 32, (winSum s).natAbs ^ 2)
  | 2 => (false, 2 ^ 32, (winSum s).natAbs)
  | _ => (false, 1, 1)

/-- g as binary32 (R170). -/
def gFloat (s : CtxSet) : Nat := let g := gScale s; f32.sqrtRatio g.1 g.2.1 g.2.2

/-! The transform. -/

/-- A complex integer. -/
abbrev Cx := Int × Int

/-- The twiddle W(t) for a transform of `n` points (R147). -/
def twiddle (t n : Nat) : Cx :=
  let sc := sinCos t n
  (roundHalfEven (sc.2 * 2 ^ 22) oneFix, roundHalfEven (Int.neg sc.1 * 2 ^ 22) oneFix)

/-- A product with a twiddle, rounded once. -/
def twMul (d w : Cx) : Cx :=
  (roundHalfEven (d.1 * w.1 - d.2 * w.2) (2 ^ 22), roundHalfEven (d.1 * w.2 + d.2 * w.1) (2 ^ 22))

/-- Half the sum or difference, rounded. -/
def halfC (a b : Cx) (sub : Bool) : Cx :=
  if sub then (roundHalfEven (a.1 - b.1) 2, roundHalfEven (a.2 - b.2) 2)
  else (roundHalfEven (a.1 + b.1) 2, roundHalfEven (a.2 + b.2) 2)

/-- The differences of a stage times their twiddles, from index `i`. -/
def diffs (n : Nat) : Nat → List Cx → List Cx → List Cx
  | i, a :: as, b :: bs => twMul (halfC a b true) (twiddle i n) :: diffs n (i + 1) as bs
  | _, _, _ => []

/-- Interleave two lists. -/
def weave : List Cx → List Cx → List Cx
  | a :: as, b :: bs => a :: b :: weave as bs
  | _, _ => []

/-- The radix-2 stages of a block of 2^n points, bins in natural order (R147): the even bins come from the sums and the odd
bins from the differences. -/
def stages : Nat → List Cx → List Cx
  | 0, v => v
  | n + 1, v =>
    let a := v.take (2 ^ n)
    let b := v.drop (2 ^ n)
    weave (stages n (List.zipWith (fun x y => halfC x y false) a b)) (stages n (diffs (2 ^ (n + 1)) 0 a b))

/-- The four steps of a long transform (R138, R147). -/
def fourStep (n : Nat) (v : List Cx) : List Cx :=
  let n1 := (n + 1) / 2
  let n2 := n / 2
  let a := v.toArray
  let cols := (List.range (2 ^ n2)).map (fun c =>
    let t := (stages n1 ((List.range (2 ^ n1)).map (fun r => a.getD (r * 2 ^ n2 + c) (0, 0)))).toArray
    ((List.range (2 ^ n1)).map (fun k => twMul (t.getD k (0, 0)) (twiddle (c * k % 2 ^ n) (2 ^ n)))).toArray)
  let ca := cols.toArray
  let rows := (List.range (2 ^ n1)).map (fun k1 =>
    (stages n2 ((List.range (2 ^ n2)).map (fun c => (ca.getD c #[]).getD k1 (0, 0)))).toArray)
  let ra := rows.toArray
  (List.range (2 ^ n)).map (fun k => (ra.getD (k % 2 ^ n1) #[]).getD (k / 2 ^ n1) (0, 0))

/-- The windowed samples, in units of 2^-32 (R146). -/
def windowed (s : CtxSet) (smps : List Smp) : List Cx :=
  List.zipWith (fun w (x : Smp) => (w * x.re, w * x.im)) (window s) smps

/-- The largest component of a list. -/
def largest (v : List Cx) : Nat := (v.map (fun z => max z.1.natAbs z.2.natAbs)).foldl max 0

/-- E0: the smallest integer from -40 to 2 for which every component of v x 2^(21 - E0) is below 2^22, with v in units of
2^-32 (R146): `m < 2^(33 + E0)`. -/
def inputExp (m : Nat) : Int :=
  if m = 0 then -40 else max (-40) ((m.log2 : Int) + 1 - 33)

/-- The mantissas of R146. -/
def mantissas (v : List Cx) (e0 : Int) : List Cx :=
  let r (z : Int) : Int := if 0 ≤ 11 + e0 then roundHalfEven z (2 ^ (11 + e0).toNat) else z * 2 ^ (Int.neg (11 + e0)).toNat
  v.map (fun z => (r z.1, r z.2))

/-- The 24-bit mantissas of every bin in natural order, and the frame exponent E (R147). -/
def spectrum (s : CtxSet) (smps : List Smp) : List Cx × Int :=
  let n := cLog s.desc
  let v := windowed s smps
  let e0 := inputExp (largest v)
  let m := mantissas v e0
  (if cLong s.desc then fourStep n m else stages n m, e0 + n)

/-- A ratio with a power of two. -/
def scale2 (n m : Nat) (e : Int) : Nat × Nat := if 0 ≤ e then (n * 2 ^ e.toNat, m) else (n, m * 2 ^ (Int.neg e).toNat)

/-- |M|^2. -/
def magSq (z : Cx) : Nat := z.1.natAbs ^ 2 + z.2.natAbs ^ 2

/-- POWER of a bin as binary32 (R149, R150). -/
def powerOf (s : CtxSet) (e : Int) (z : Cx) : Nat :=
  let g := gScale s
  let r := scale2 (magSq z * g.2.1) g.2.2 (2 * (e - 21))
  f32.ofRatio false r.1 r.2

/-- g times the square root of a square, as binary32. -/
def scaledRoot (s : CtxSet) (e : Int) (neg : Bool) (sq : Nat) : Nat :=
  let g := gScale s
  let r := scale2 (sq * g.2.1) g.2.2 (2 * (e - 21))
  if sq = 0 then 0 else f32.sqrtRatio (neg != g.1) r.1 r.2

/-- A delivered bin (R149). -/
def binForm (s : CtxSet) (e : Int) (z : Cx) : List Byte :=
  match cFormat s.desc with
  | 0 => bytesLE 4 (powerOf s e z)
  | 1 => bytesLE 4 (scaledRoot s e false (magSq z))
  | 2 => bytesLE 4 (scaledRoot s e (decide (z.1 < 0)) (z.1.natAbs ^ 2)) ++
      bytesLE 4 (scaledRoot s e (decide (z.2 < 0)) (z.2.natAbs ^ 2))
  | _ => bytesLE 4 (wrap 32 z.1) ++ bytesLE 4 (wrap 32 z.2)

/-- A spectrum record (R170). -/
def spectrumRecord (s : CtxSet) (c st : Nat) (k marks skipped : Nat) (stamp : Int) (spec : List Cx) (e : Int) : List Byte :=
  let b := s.desc
  let fmt := cFormat b
  let a := spec.toArray
  let marks := if skipped = 0 then marks else marks ||| 0x80
  recHead 0x10 marks (64 + cBinCount b * binBytes fmt) (ctxStream c st) stamp ++
    bytesLE 8 k ++
    bytesLE 4 (cLog b + (fmt + (if cCentred b then 64 else 0) + (if k = 0 then 128 else 0)) * 2 ^ 8 + cWindow b * 2 ^ 16) ++
    bytesLE 2 (if fmt = 3 then wrap 16 e else 0) ++ bytesLE 2 0 ++ bytesLE 4 (cBinFirst b) ++ bytesLE 4 (cBinCount b) ++
    bytesLE 4 (gFloat s) ++ bytesLE 4 skipped ++
    (List.range (cBinCount b)).flatMap (fun i => binForm s e (a.getD (binAt b (cBinFirst b + i)) (0, 0)))

end Sys2Proof.Machine
end

