-- ==== Sys2Proof/Machine/Schedule.lean ====
section
/-! DEFINITION. Schedules (R158 to R168): reading one, every check of a context's sections (R158, R203, R213), the admission
rule (R164, R39), and what the stores hold. A check that fails is a code with the entry it names (R15, R158). -/

namespace Sys2Proof.Machine

/-- The entry number that names no entry. -/
def noEntry : Nat := 0xFFFF

/-- The failures of a list of checks at an entry. -/
def failsAt (entry : Nat) (l : List (Bool × Nat)) : List (Nat × Nat) :=
  (l.filter (fun c => c.1)).map (fun c => (c.2, entry))

/-- The outcome of a list of failures: the lowest-numbered code, and the first entry that failed with it (R15, R158). -/
def pickCode (l : List (Nat × Nat)) : Nat × Nat :=
  l.foldl (fun (a : Nat × Nat) b => if a.1 = cOK ∨ b.1 < a.1 then b else a) (cOK, noEntry)

/-- The checks of R158 on a context: `f` says whether the source stream's period in force is usable. -/
def fabricChecks (b : List Byte) (periodBad : Bool) : List (Bool × Nat) :=
  let n := cN b
  let okN := decide (6 ≤ cLog b) && decide (cLog b ≤ 24)
  let user := decide (cWindow b = 6)
  let long := okN && cLong b
  let cl := cClEn b
  [(decide (cHop b = 0) || (okN && decide (n < cHop b)) || decide (cBinCount b = 0) ||
      (okN && decide (n < cBinFirst b + cBinCount b)) || decide (cDecim b = 0) ||
      (cl && (decide (cClSlot b < 64 + cBinCount b * binBytes (cFormat b)) || decide (cClCount b = 0) ||
        decide (0x80000 < cClBase b + cClSlot b * cClCount b))) ||
      periodBad || (long && decide (cWorkSize b < 32 * n)) || (okN && user && pastEnd (cUserWin b) (4 * n)), cLENGTH),
   ((user && decide (cUserWin b % 4 ≠ 0)) || (long && decide (cWork b % 4096 ≠ 0)) ||
      (cl && (decide (cClBase b % 64 ≠ 0) || decide (cClSlot b % 64 ≠ 0))), cALIGN),
   ((user && aboveEnd (cUserWin b)) || (long && aboveEnd (cWork b)), cREGION),
   (decide (23 < cSource b) || !okN || decide (6 < cWindow b) || decide (3 < cFormat b) || decide (cNorm b = 3) ||
      (long && decide (5 ≤ cWindow b)) || decide (2 ^ 20 < cDecim b), cUNSUP)]

/-- The checks of R203 on one trace entry. -/
def traceChecks (b : List Byte) (t : Nat) : List (Bool × Nat) :=
  let okN := decide (6 ≤ cLog b) && decide (cLog b ≤ 24)
  let det := trDet b t
  let mode := trMode b t
  if !trEn b t then [] else
  [(decide (trEvery b t = 0) || decide (trPoints b t = 0) || decide (trBpp b t = 0) ||
      (okN && decide (cN b < trFirst b t + trPoints b t * trBpp b t)), cLENGTH),
   (decide (4 < det) || decide (mode = 3) || (decide (mode = 1) && decide (det < 2)) || (decide (mode = 2) && decide (det = 2)) ||
      decide (20 < trShift b t) || decide (2 ^ 20 < trEvery b t) || decide (16384 < trPoints b t) ||
      decide (65536 < trBpp b t), cUNSUP)]

/-- The checks of R203 on one density entry. -/
def denChecks (b : List Byte) (j : Nat) : List (Bool × Nat) :=
  let okN := decide (6 ≤ cLog b) && decide (cLog b ≤ 24)
  let e := denEntry b j
  let cpb := deCpb e
  let okCpb := decide (cpb = 1) || decide (cpb = 2) || decide (cpb = 4) || decide (cpb = 8)
  let fin (v : Nat) : Bool := !f32.isNaN v && !f32.isInf v
  if !deEn e then [] else
  [(decide (deCols e = 0) || decide (deRows e = 0) || decide (deBpc e = 0) || decide (cpb = 0) || decide (deDecim e = 0) ||
      (okN && decide (cpb ≠ 0) && decide (cN b * cpb < deFirst e * cpb + deCols e * deBpc e)) ||
      (decide (cpb ≠ 0) && decide (deCols e % cpb ≠ 0)) ||
      (!deMem e && (decide (1024 < deCols e) || decide (256 < deRows e))) ||
      (deMem e && (decide (4096 < deCols e) || decide (1024 < deRows e) || pastEnd (deBase e) (4 * deCols e * deRows e))), cLENGTH),
   (deMem e && decide (deBase e % 4096 ≠ 0), cALIGN),
   (deMem e && aboveEnd (deBase e), cREGION),
   (!okCpb || (decide (1 < cpb) && decide (1 < deBpc e)) || !fin (deTop e) || !fin (deStep e) ||
      decide ((f32.value (deStep e)).1 ≤ 0) || (decide (1 ≤ deHalf e) && decide (deHalf e ≤ 999)) ||
      decide (2 ^ 20 < deDecim e) || decide (65536 < deBpc e), cUNSUP)]

/-- The KIND of a trigger unit (R204). -/
def Device.tKind (d : Device) (n : Nat) : Nat := d.fld (F.TRG_T_CFG_KIND n)

/-- The checks of R213 on one mask entry. DESIGN CHOICE (log entry 130): M_POINTS and BPM above 65,536 are refused (R18) with LENGTH, the code that the chapter
gives for other wrong values of these fields. -/
def maskChecks (b : List Byte) (kind : Nat → Nat) (t : Nat) : List (Bool × Nat) :=
  let okN := decide (6 ≤ cLog b) && decide (cLog b ≤ 24)
  let e := mkEntry b t
  let ty := mkType e
  let p := denEntry b (mkPlane e)
  let tr := mkTrace e
  let tab := decide (ty = 0) || decide (ty = 2)
  if !mkEn e then [] else
  [((tab && (decide (mkPoints e = 0) || decide (65536 < mkPoints e) || decide (mkMin e = 0) || decide (mkPoints e < mkMin e) ||
        pastEnd (mkAddr e) (4 * mkPoints e))) ||
      (decide (ty = 0) && (decide (mkBpm e = 0) || decide (65536 < mkBpm e) || (okN && decide (cN b < mkFirst e + mkPoints e * mkBpm e)))) ||
      (decide (ty < 2) && (decide (mkEnter e = 0) || decide (mkExit e = 0))) ||
      (decide (ty = 1) && (decide (mkThresh e = 0) || decide (mkCol1 e < mkCol0 e) || decide (deCols p ≤ mkCol1 e) ||
        decide (mkRow1 e < mkRow0 e) || decide (deRows p ≤ mkRow1 e) || decide (mkCol1 e - mkCol0 e + 1 < mkThresh e))) ||
      (decide (ty = 2) && decide (mkPoints e ≠ trPoints b tr)), cLENGTH),
   (tab && decide (mkAddr e % 4 ≠ 0), cALIGN),
   (tab && aboveEnd (mkAddr e), cREGION),
   ((decide (ty = 0) && decide (kind (mkUnit e) ≠ 0)) ||
      (decide (ty = 1) && (decide (kind (mkUnit e) ≠ 2) || !deEn p)) ||
      (decide (ty = 2) && !trEn b tr), cSCHEDULE),
   (decide (ty = 3) || (tab && (f32.isNaN (mkOffset e) || f32.isInf (mkOffset e))), cUNSUP)]

/-- The planes that a context's enabled entries name. -/
def planesOf (b : List Byte) : List Nat :=
  ((List.range 2).filter (fun j => deEn (denEntry b j))).map (fun j => dePlane (denEntry b j))

/-- The trigger units that a context's enabled entries name (ETYPE 0 and 1). -/
def unitsOfCtx (b : List Byte) : List Nat :=
  ((List.range 4).filter (fun t => mkEn (mkEntry b t) && decide (mkType (mkEntry b t) < 2))).map
    (fun t => mkUnit (mkEntry b t))

/-- The mask words of a context. -/
def maskWords (b : List Byte) : Nat :=
  ((List.range 4).map (fun t =>
    let e := mkEntry b t
    if mkEn e && decide (mkType e ≠ 1) && decide (mkType e ≠ 3) then mkPoints e else 0)).sum

/-- The trace points of a context. -/
def tracePoints (b : List Byte) : Nat := ((List.range 4).map (fun t => if trEn b t then trPoints b t else 0)).sum

/-- The tile counters of a context. -/
def tileCells (b : List Byte) : Nat :=
  ((List.range 2).map (fun j =>
    let e := denEntry b j
    if deEn e && !deMem e then deRows e * deCols e else 0)).sum

/-! Admission (R164). -/

/-- Whether a descriptor has a transform size and a source: where it has not, what uses N or the source's rate does not apply (R158). -/
def cSized (b : List Byte) : Bool := decide (6 ≤ cLog b) && decide (cLog b ≤ 24) && decide (cSource b < 24)

/-- The load of a context in GS/s: what it puts on the pipes, and its long-transform rate. -/
def ctxLoad (b : List Byte) (ns : ℚ) : ℚ × ℚ :=
  if ns = 0 ∨ cHop b = 0 ∨ !cSized b then (0, 0)
  else
    let x : ℚ := (cN b : ℚ) / (ns * (cHop b : ℚ))
    if cLong b then (2 * x, x) else (x, 0)

/-- The entries of a schedule as descriptor, sample period and pool. -/
def Device.loads (d : Device) (per : Nat → ℚ) (desc : Nat → List Byte) (sc : Sched) : List (Nat × ℚ × ℚ) :=
  sc.entries.map (fun e =>
    let b := desc e.1
    let x := ctxLoad b (d.srcNs per (cSource b))
    (e.2, x.1, x.2))

/-- The load of a pool. -/
def poolLoad (l : List (Nat × ℚ × ℚ)) (p : Nat) : ℚ := ((l.filter (fun x => decide (x.1 = p))).map (fun x => x.2.1)).sum

/-- The live pipes of a mask. -/
def livePipes (live mask : Nat) : List Nat := (List.range 16).filter (fun t => bitAt live t && bitAt mask t)

/-- The admission rule of R164 at an FCLK in GHz. -/
def admits (f : ℚ) (live : Nat) (masks : List Nat) (l : List (Nat × ℚ × ℚ)) : Bool :=
  let total : ℚ := (l.map (fun x => x.2.1)).sum
  let long : ℚ := (l.map (fun x => x.2.2)).sum
  decide (total ≤ 8 * f * ((livePipes live 0xFFFF).length : ℚ)) &&
    (List.range masks.length).all (fun p => decide (poolLoad l p ≤ 8 * f * ((livePipes live (masks.getD p 0)).length : ℚ))) &&
    decide (long ≤ 4)

/-- The memory update rate of R203, in G updates per second. -/
def updateRate (b : List Byte) (ns : ℚ) : ℚ :=
  ((List.range 2).map (fun j =>
    let e := denEntry b j
    if deEn e && deMem e && decide (cSource b < 24) && decide (ns ≠ 0) && decide (cHop b ≠ 0) && decide (deDecim e ≠ 0) then
      (deCols e : ℚ) / (ns * (cHop b : ℚ) * (deDecim e : ℚ)) +
        (if deHalf e = 0 then 0 else (deRows e * deCols e * 16 : Nat) / (((deHalf e : Nat) : ℚ) * 1000))
    else 0)).sum

/-- The frequencies of FCLK at which a schedule must pass (R466): the present one, and the new one of a CHANGE in progress. -/
def Device.fclks (d : Device) : List ℚ :=
  let st := d.fld F.CLK_CHANGE_STAT_STATE
  let f := d.fRoot / 8
  if st = 1 ∨ st = 2 then
    [f, rootOf d.roots.nRef d.roots.nCfg d.roots.nFrac / 8]
  else [f]

/-! The rates to come (R39). -/

/-- A change of a stream's period: the instant from which it takes effect, the stream, and the new period. -/
structure PerCh where
  at' : Time
  s : Nat
  pnum : Nat
  pden : Nat
  deriving DecidableEq, Repr

/-- The accepted rate changes of streams that await their boundaries. -/
def Device.perChanges (d : Device) : List PerCh :=
  (d.reqs .streamRate).map (fun r => ⟨timeMax r.at' r.acc, r.obj, r.arg.getD 0 0, r.arg.getD 1 0⟩)

/-- Put a change into a list in the order of the instants. -/
def insPer (c : PerCh) : List PerCh → List PerCh
  | [] => [c]
  | x :: xs => if timeLT c.at' x.at' then c :: x :: xs else x :: insPer c xs

/-- The periods after a change. -/
def PerCh.after (c : PerCh) (per : Nat → ℚ) : Nat → ℚ := fun t => if t = c.s then (c.pnum : ℚ) / (c.pden : ℚ) else per t

/-- The periods that hold at an instant and after each later change, from those before the first of a list of changes. -/
def persFrom (t : Time) : (Nat → ℚ) → List PerCh → List (Nat → ℚ)
  | per, [] => [per]
  | per, c :: cs =>
    let r := persFrom t (c.after per) cs
    if timeLE c.at' t then r else per :: r

/-- The periods that streams have at an instant, and from then on, with the accepted changes and some more (R39). -/
def Device.pers (d : Device) (more : List PerCh) (t : Time) : List (Nat → ℚ) :=
  persFrom t d.sNs (more.foldl (fun l c => insPer c l) (d.perChanges.foldl (fun l c => insPer c l) []))

/-- The instant of the pending schedule's switch request. -/
def Device.pendAt (d : Device) : Time :=
  match (d.reqs .schedSwitch).head? with
  | some r => timeMax r.at' r.acc
  | none => d.time

/-- Elements named a second time, each with the entry at which the second naming is found. -/
def repeats : List Nat → List (Nat × Nat) → List Nat
  | _, [] => []
  | seen, (e, x) :: l => if x ∈ seen then e :: repeats seen l else repeats (x :: seen) l

/-- The items that the entries of a schedule name, with the entry number. -/
def namedBy (l : List (Nat × List Nat)) : List (Nat × Nat) := l.flatMap (fun x => x.2.map (fun y => (x.1, y)))

/-- The checks of every context of a schedule and of the schedule as a whole (R158, R164, R203, R213), given its
descriptors and the periods that it will meet, first those at its start. -/
def Device.schedFails (d : Device) (pers : List (Nat → ℚ)) (fs : List ℚ) (desc : Nat → List Byte) (sc : Sched) : List (Nat × Nat) :=
  let es := (List.range sc.entries.length).zip sc.entries
  let bs := es.map (fun e => (e.1, desc e.2.1))
  let live := d.fld F.XF_LIVE_MASK
  let per := pers.headD d.sNs
  let cells (p : Nat) : Nat := ((sc.entries.filter (fun e => decide (e.2 = p))).map (fun e => tileCells (desc e.1))).sum
  let upd : ℚ := (bs.map (fun x => updateRate x.2 (d.srcNs per (cSource x.2)))).sum
  let one (x : Nat × List Byte) : List (Nat × Nat) :=
    failsAt x.1 (fabricChecks x.2 (decide (per (d.srcStream (cSource x.2)) = 0) && decide (cSource x.2 < 24)) ++
      (List.range 4).flatMap (traceChecks x.2) ++ (List.range 2).flatMap (denChecks x.2) ++
      (List.range 4).flatMap (maskChecks x.2 d.tKind))
  bs.flatMap one ++
    ((repeats [] (namedBy (bs.map (fun x => (x.1, planesOf x.2)))) ++
      repeats [] (namedBy (bs.map (fun x => (x.1, unitsOfCtx x.2))))).map (fun e => (cSCHEDULE, e))) ++
    failsAt noEntry [
      (decide (2 ^ 20 < (bs.map (fun x => tracePoints x.2)).sum), cSCHEDULE),
      ((List.range 4).any (fun p => decide (262144 < cells p)), cSCHEDULE),
      (decide (4 < upd), cSCHEDULE),
      (pers.any (fun p => fs.any (fun f => !admits f live sc.masks (d.loads p desc sc))), cSCHEDULE)]

/-! The stores (R143, R209). -/

/-- The window of a context as the store would hold it, read from device memory. -/
def Device.readSet (d : Device) (b : List Byte) : CtxSet where
  desc := b
  masks := (List.range 4).map (fun t =>
    let e := mkEntry b t
    if mkEn e && decide (mkType e ≠ 1) then (List.range (mkPoints e)).map (fun p => d.mem32 (mkAddr e + 4 * p)) else [])
  user := if cWindow b = 6 ∧ cLog b ≤ 24 then (List.range (cN b)).map (fun i => d.mem32 (cUserWin b + 4 * i)) else []
  beta := if cWindow b = 5 then d.rdN (Reg.XF_KAISER_BETA (cKbeta b)) else 0

/-- The settings of a context as the fabric holds them now. -/
def Device.ctxOf (d : Device) (c : Nat) : Ctx := Sparse.get (fun _ => {}) d.ctxs c
def Device.setCtx (d : Device) (c : Nat) (x : Ctx) : Device := { d with ctxs := Sparse.set (fun _ => {}) d.ctxs c x }
def Device.setOf (d : Device) (c : Nat) : CtxSet :=
  let x := d.ctxOf c
  ⟨d.desc c, x.masks, x.user, x.beta⟩

/-- The coefficients that two schedules' contexts need in the window store (R143): Kaiser pairs once, user windows once a
context. -/
def storeUse (l : List (Nat × List Byte)) : Nat :=
  let l := l.filter (fun x => cSized x.2 && !cLong x.2)
  let ks := ((l.filter (fun x => decide (cWindow x.2 = 5))).map (fun x => (cN x.2, cKbeta x.2))).dedup
  let us := (l.filter (fun x => decide (cWindow x.2 = 6))).dedup
  (ks.map (fun k => k.1)).sum + (us.map (fun x => cN x.2)).sum

/-- The contexts of a schedule with their descriptors. -/
def Device.ctxList (d : Device) (sc : Sched) : List (Nat × List Byte) := sc.entries.map (fun e => (e.1, d.desc e.1))

/-- The pending schedule, or the empty one. -/
def Device.pendSched (d : Device) : Sched := match d.pend with | none => {} | some p => p.sched

/-- Whether a context is in the running schedule. -/
def Device.inRun (d : Device) (c : Nat) : Bool := d.run.entries.any (fun e => decide (e.1 = c))

/-- Whether a context is active (R159). -/
def Device.active (d : Device) (c : Nat) : Bool := d.inRun c || d.pendSched.entries.any (fun e => decide (e.1 = c))

/-- The registers that show what the stores hold, from the running and pending schedules. -/
def Device.showStores (d : Device) : Device :=
  let r := d.ctxList d.run
  let p := d.ctxList d.pendSched
  let pts (l : List (Nat × List Byte)) : Nat := (l.map (fun x => tracePoints x.2)).sum
  let mw (l : List (Nat × List Byte)) : Nat := (l.map (fun x => maskWords x.2)).sum
  ((d.wr Reg.XF_WSTORE_USED (storeUse (r ++ p))).wr Reg.DET_STORE_USED (pts r + pts p)).wr Reg.TRG_MASK_USED (mw r + mw p)

/-- A schedule read from device memory (R160). -/
def Device.readSched (d : Device) (base : Nat) : Sched :=
  let pools := d.mem32 (base + 0xC)
  { entries := (List.range (d.mem32 (base + 8))).map (fun e =>
      let w := d.mem32 (base + 0x40 + 8 * e)
      (bitsOf w 0 12, bitsOf w 16 2)),
    masks := (List.range (min pools 4)).map (fun p => bitsOf (d.mem32 (base + 0x10 + 4 * p)) 0 16) }

/-- The failures of R161 in a schedule in device memory. -/
def Device.headerFails (d : Device) (base : Nat) : List (Nat × Nat) :=
  let n := d.mem32 (base + 8)
  let pools := d.mem32 (base + 0xC)
  let okN := decide (1 ≤ n) && decide (n ≤ 4096)
  let okP := decide (1 ≤ pools) && decide (pools ≤ 4)
  let masks := (List.range (min pools 4)).map (fun p => d.mem32 (base + 0x10 + 4 * p))
  let es := List.range (if okN then n else 0)
  let w0 (e : Nat) : Nat := d.mem32 (base + 0x40 + 8 * e)
  let meet := (List.range 4).any (fun i => (List.range i).any (fun j =>
    decide (Nat.land (masks.getD i 0) (masks.getD j 0) ≠ 0)))
  failsAt noEntry [(decide (d.mem32 base ≠ 0x48435358) || decide (d.mem32 (base + 4) ≠ 1) || !okN || !okP ||
      masks.any (fun m => decide (m = 0) || decide (65536 ≤ m)) || meet ||
      (memBytes d.mem (base + 0x20) 32).any (fun b => decide (b ≠ 0)), cSCHEDULE)] ++
    es.flatMap (fun e => failsAt e [(decide (bitsOf (w0 e) 12 4 ≠ 0) || decide (bitsOf (w0 e) 18 14 ≠ 0) ||
      decide (d.mem32 (base + 0x44 + 8 * e) ≠ 0) || decide (pools ≤ bitsOf (w0 e) 16 2), cSCHEDULE)]) ++
    (repeats [] (es.map (fun e => (e, bitsOf (w0 e) 0 12)))).map (fun e => (cSCHEDULE, e))

/-- The checks of R162 step 1 on the region. -/
def Device.regionFails (d : Device) (base size : Nat) : List (Nat × Nat) :=
  let n := d.mem32 (base + 8)
  failsAt noEntry [
    (decide (size = 0) || (decide (1 ≤ n) && decide (n ≤ 4096) && decide (size < 64 + 8 * n)) || pastEnd base size, cLENGTH),
    (decide (base % 64 ≠ 0), cALIGN), (aboveEnd base, cREGION)]

/-- Contexts whose window sum is zero under NORM 1 or 2 (R148). -/
def sumFails (l : List (Nat × CtxSet)) : List (Nat × Nat) :=
  l.flatMap (fun x => failsAt x.1 [(decide (cLog x.2.desc ≤ 24) && decide (winSum x.2 = 0), cUNSUP)])

/-- The whole check of a schedule load that takes effect at or after an instant (R162): the outcome, and the schedule with its stores filled. The
stores are filled only when the checks of step 2 have passed. -/
def Device.checkSched (d : Device) (base size : Nat) (at' : Time) : (Nat × Nat) × PendSched :=
  let r := pickCode (d.regionFails base size)
  if r.1 ≠ cOK then (r, ⟨{}, []⟩)
  else
    let h := d.headerFails base
    let n := d.mem32 (base + 8)
    if n = 0 ∨ 4096 < n then (pickCode h, ⟨{}, []⟩)
    else
      let sc := d.readSched base
      let fails := h ++ d.schedFails (d.pers [] (timeMax at' d.time)) d.fclks d.desc sc
      let sets := sc.entries.map (fun e => (e.1, d.readSet (d.desc e.1)))
      let store := storeUse (d.ctxList d.run ++ d.ctxList sc)
      let masks := ((d.ctxList d.run ++ d.ctxList sc).map (fun x => maskWords x.2)).sum
      let fails := fails ++ failsAt noEntry [(decide (2 ^ 19 < masks), cSCHEDULE)]
      let fails := if (pickCode fails).1 = cOK then
          failsAt noEntry [(decide (2 ^ 21 < store), cSCHEDULE)] ++ sumFails ((List.range sets.length).zip (sets.map Prod.snd))
        else fails
      (pickCode fails, ⟨sc, sets⟩)

/-- Whether the running schedule still passes R164 with a further change of rates that takes effect at or after an instant, and the pending one with the
rates it will meet (R39). -/
def Device.ratesAdmitted (d : Device) (more : List PerCh) (at' : Time) (f : ℚ) : Bool :=
  let live := d.fld F.XF_LIVE_MASK
  let ok (sc : Sched) (t : Time) : Bool :=
    sc.entries.isEmpty || (d.pers more t).all (fun per => admits f live sc.masks (d.loads per d.desc sc))
  ok d.run at' && ok d.pendSched (timeMax at' d.pendAt)

end Sys2Proof.Machine
end

