-- ==== Sys2Proof/Machine/Compress.lean ====
section
/-! DEFINITION. Compression and decompression jobs (R377 to R400): their checks, input, frames, extents, records, replays into
streams, and their ends. -/

namespace Sys2Proof.Machine

def Device.zjob (d : Device) (z : Nat) : Option ZJob := Sparse.get (fun _ => none) d.zjobs z
def Device.setZjob (d : Device) (z : Nat) (x : Option ZJob) : Device :=
  { d with zjobs := Sparse.set (fun _ => none) d.zjobs z x }
def Device.ujob (d : Device) (u : Nat) : Option UJob := Sparse.get (fun _ => none) d.ujobs u
def Device.setUjob (d : Device) (u : Nat) (x : Option UJob) : Device :=
  { d with ujobs := Sparse.set (fun _ => none) d.ujobs u x }

/-! The descriptor of a compression job (R383). -/

def zKind (b : List Byte) : Nat := dw b 0 0 2
def zLevel (b : List Byte) : Nat := dw b 0 4 4
def zGroup (b : List Byte) : Nat := dw b 0 8 6
def zNqEn (b : List Byte) : Bool := decide (dw b 0 16 1 = 1)
def zSrcQ (b : List Byte) : Nat := dw b 4 0 12
def zNq (b : List Byte) : Nat := dw b 4 16 12
def zSrc (b : List Byte) : Nat := dq b 8
def zSrcLen (b : List Byte) : Nat := ofBytesLE ((b.drop 0x10).take 5)
def zDst (b : List Byte) : Nat := dq b 0x18
def zDstLen (b : List Byte) : Nat := dw b 0x20 0 32
def zFlush (b : List Byte) : Nat := dw b 0x24 0 32
def zTag (b : List Byte) : Nat := dw b 0x28 0 32

/-- Whether a reserved field of a compression descriptor is not zero. -/
def zReserved (b : List Byte) : Bool :=
  decide (dw b 0 2 2 ≠ 0) || decide (dw b 0 14 2 ≠ 0) || decide (dw b 0 17 15 ≠ 0) || decide (dw b 4 12 4 ≠ 0) ||
    decide (dw b 4 28 4 ≠ 0) || decide (dw b 0xC 16 16 ≠ 0) || decide (dw b 0x14 8 24 ≠ 0) || decide (dw b 0x1C 16 16 ≠ 0) ||
    (b.drop 0x2C).any (fun x => decide (x ≠ 0))

/-- Whether two ranges share a byte. -/
def meets (a n b m : Nat) : Bool := decide (a < b + m) && decide (b < a + n)

def Device.zState (d : Device) (z : Nat) : Nat := d.fld (F.CMP_Z_STAT_STATE z)

/-- Whether a job runs or is stopped at a compressor. -/
def Device.zLive (d : Device) (z : Nat) : Bool := decide (d.zState z = 1) || decide (d.zState z = 2)

/-- Whether a compression job reads a queue (R384, R386). -/
def Device.zReads (d : Device) (q : Nat) : Bool :=
  (List.range 32).any (fun z => d.zLive z && (match d.zjob z with
    | none => false
    | some j => decide (zKind j.desc = 1) && decide (zSrcQ j.desc = q)))

/-- The check of a compression job (R384). -/
def Device.zCode (d : Device) (z : Nat) (b : List Byte) : Nat :=
  let k := zKind b
  let lv := zLevel b
  let g := zGroup b
  let grp := (List.range (min g 32)).map (fun i => z + i)
  firstCode [
    ((decide (k = 0) && (decide (zSrcLen b = 0) || pastEnd (zSrc b) (zSrcLen b))) || decide (zDstLen b = 0) ||
      (decide (lv = 0) && decide (zDstLen b < 65570)) || pastEnd (zDst b) (zDstLen b), cLENGTH),
    (decide (k = 0) && meets (zSrc b) (zSrcLen b) (zDst b) (zDstLen b), cOVERLAP),
    ((decide (k = 0) && aboveEnd (zSrc b)) || aboveEnd (zDst b), cREGION),
    (grp.any (fun i => decide (i < 32) && (d.zLive i || decide (d.zState i = 5))) || (decide (k = 1) && d.zReads (zSrcQ b)), cBUSY),
    ((decide (k = 1) && (!d.qOn (zSrcQ b) || !d.isSet (F.QUE_Q_CFG_HOST (zSrcQ b)))) || (zNqEn b && !d.qOn (zNq b)), cNOTARMED),
    (grp.any (fun i => decide (i < 32) && bitAt (d.rdN Reg.CMP_VACANT) i), cNOSPARE),
    (zReserved b || decide (1 < k) || decide (9 < lv) || decide (g = 0) || decide (32 < z + g) ||
      (decide (lv ≠ 0) && (decide (1 < g) || decide (k = 1))), cUNSUP)]

/-- CMP_Z_STAT of a compressor. -/
def Device.zSet (d : Device) (z st code : Nat) : Device :=
  (d.setFld (F.CMP_Z_STAT_STATE z) st).setFld (F.CMP_Z_STAT_CODE z) code

/-- Submit a job (R384). -/
def Device.zSubmit (d : Device) (z : Nat) (b : List Byte) : Nat × Device :=
  let c := d.zCode z b
  if c ≠ cOK then (c, d.setFld (F.CMP_Z_STAT_CODE z) c)
  else
    let j : ZJob := { desc := b, ext := zDst b, extLen := zDstLen b, lastIn := d.time }
    let d := ((((d.setZjob z (some j)).zSet z 1 cOK).wr64 (Reg.CMP_Z_IN_DONE_LO z) 0).wr64 (Reg.CMP_Z_OUT_DONE_LO z) 0).wr
      (Reg.CMP_Z_FRAMES z) 0
    let d := d.setFld (F.CMP_Z_STAT_PENDING_EXT z) 0
    (c, (List.range (zGroup b - 1)).foldl (fun d i =>
      (d.setFld (F.CMP_Z_STAT_STATE (z + 1 + i)) 5).setFld (F.CMP_Z_STAT_LEADER (z + 1 + i)) z) d)

/-! Records (R392). -/

/-- A COMPRESSED record. -/
def Device.cmpRecord (d : Device) (ev code kind tag cs marks inD outD frames used : Nat) : List Byte :=
  recHead 0x1B marks 64 cs d.time.toNat ++ bytesLE 1 ev ++ bytesLE 1 code ++ bytesLE 1 kind ++ bytesLE 1 0 ++ bytesLE 4 tag ++
    bytesLE 8 inD ++ bytesLE 8 outD ++ bytesLE 4 frames ++ bytesLE 4 used

/-- Push a record at once where its queue has space; otherwise it waits (R392). -/
def Device.cmpOffer (d : Device) (q origin : Nat) (waiting : List (List Byte)) (bs : List Byte) : List (List Byte) × Device :=
  if waiting.isEmpty && d.qRoom q (slotsOf bs.length) then ([], d.qAccept q bs (slotsOf bs.length) 0x0A origin)
  else (waiting ++ [bs], d)

/-- An event of a compression job. -/
def Device.zEvent (d : Device) (z : Nat) (j : ZJob) (ev code frames : Nat) : Device :=
  if !zNqEn j.desc then d.setZjob z (some j)
  else
    let marks := (if j.trunc ∧ ev = 3 then 0x20 else 0) ||| (if j.poison then 0x4000 else 0)
    let r := d.cmpOffer (zNq j.desc) z j.recs
      (d.cmpRecord ev code (if zLevel j.desc = 0 then 0 else 2) (zTag j.desc) 0 marks (d.rd64 (Reg.CMP_Z_IN_DONE_LO z))
        (d.rd64 (Reg.CMP_Z_OUT_DONE_LO z)) frames j.used)
    r.2.setZjob z (some { j with recs := r.1, poison := false })

/-- A job ends: its members are free (R384, R399); a vacant role stays VACANT. -/
def Device.zFree (d : Device) (z st code : Nat) (b : List Byte) : Device :=
  let d := (d.zSet z (if bitAt (d.rdN Reg.CMP_VACANT) z then 6 else st) code).setFld (F.CMP_Z_STAT_PENDING_EXT z) 0
  (List.range (zGroup b - 1)).foldl (fun d i =>
    if d.zState (z + 1 + i) = 5 then (d.setFld (F.CMP_Z_STAT_STATE (z + 1 + i)) 0).setFld (F.CMP_Z_STAT_LEADER (z + 1 + i)) 0
    else d) d

/-- A job is over: at once, or as soon as its waiting records are pushed (R392). -/
def Device.zOver (d : Device) (z st code : Nat) : Device :=
  match d.zjob z with
  | none => d
  | some j =>
    if j.recs.isEmpty then (d.zFree z st code j.desc).setZjob z none else d.setZjob z (some { j with fin := some (st, code) })

/-- A job fails, or a level job is ended (R389, R390, R399). -/
def Device.zFail (d : Device) (z : Nat) (j : ZJob) (ev code : Nat) : Device :=
  let level := decide (zLevel j.desc ≠ 0)
  let d := if level then d.zero j.ext (d.rd64 (Reg.CMP_Z_OUT_DONE_LO z)) else d
  let d := if level then d.wr64 (Reg.CMP_Z_OUT_DONE_LO z) 0 else d
  let d := if ev = 4 then d.flag F.CMP_FLAGS_FAIL Reg.CMP_FAIL_CNT else d
  let d := d.zEvent z { j with held := [], work := [], opened := [] } ev code (d.rdN (Reg.CMP_Z_FRAMES z))
  d.zOver z (if ev = 4 then 4 else 3) code

/-! Input (R385). -/

/-- A source read found an uncorrectable error (R391). -/
def Device.zBad (d : Device) (bad : Bool) (j : ZJob) : ZJob × Device :=
  if bad then ({ j with poison := true }, d.flag F.CMP_FLAGS_POISON Reg.CMP_POISON_CNT) else (j, d)

/-- Take whole records of a job's source queue until a frame's worth is open (R385). -/
def Device.zPullQ (d : Device) (q lim : Nat) : Nat → ZJob → ZJob × Device
  | 0, j => (j, d)
  | fuel + 1, j =>
    if 65536 ≤ j.opened.length ∨ j.inEnd then (j, d)
    else
      match (d.queue q).next with
      | none => (j, d)
      | some r =>
        let bs := d.qCopy q r
        let n := ofBytesLE ((bs.drop 4).take 4)
        let x := d.zBad (d.qPoisoned q r)
          { j with opened := j.opened ++ bs.take n, taken := j.taken + n, inEnd := decide (lim ≠ 0) && decide (lim ≤ j.taken + n) }
        Device.zPullQ (((x.2.qRefills q r.span).qAdvance q).qRelease q) q lim fuel x.1

/-- Take input for the open frame. -/
def Device.zPull (d : Device) (j : ZJob) : ZJob × Device :=
  if j.inEnd then (j, d)
  else if zKind j.desc = 0 then
    let a := zSrc j.desc + j.taken
    let n := min (65536 - j.opened.length) (zSrcLen j.desc - j.taken)
    (d.moved 4).zBad (d.poisoned a n)
      { j with opened := j.opened ++ memBytes d.mem a n, taken := j.taken + n, inEnd := decide (zSrcLen j.desc ≤ j.taken + n) }
  else if !d.qOn (zSrcQ j.desc) then ({ j with inEnd := true, trunc := true }, d)
  else d.zPullQ (zSrcQ j.desc) (zSrcLen j.desc) 65537 j

/-- Close the open frame: its compressor has all of its bytes (R385). -/
def ZJob.cut (j : ZJob) : ZJob :=
  let r := j.opened.drop 65536
  { j with opened := r, no := j.no + 1, work := j.work ++ [(j.no, j.opened.take 65536, j.inEnd && r.isEmpty)] }

/-- Close every frame of the bytes taken (R390). -/
def ZJob.cutAll : Nat → ZJob → ZJob
  | 0, j => j
  | fuel + 1, j => if j.opened.isEmpty then j else cutAll fuel j.cut

/-- Whether a compressor of the group is free to take the next frame: frame f belongs to compressor z + (f mod GROUP), which holds it until it is
written (R385, R387). -/
def ZJob.spare (j : ZJob) : Bool := decide (j.no < j.outNo + max 1 (zGroup j.desc))

/-- The free compressors of a job take input, and complete frames are closed. -/
def Device.zFill : Nat → Device → ZJob → ZJob × Device
  | 0, d, j => (j, d)
  | fuel + 1, d, j =>
    if !j.spare then (j, d)
    else
      let r := d.zPull j
      if 65536 ≤ r.1.opened.length ∨ (r.1.inEnd ∧ !r.1.opened.isEmpty) then Device.zFill fuel r.2 r.1.cut else r

/-- The `i`-th compressor of a job finishes its frame (R380, R382). -/
def Device.zDeflate (d : Device) (i : Nat) (j : ZJob) : ZJob × Device :=
  match j.work.find? (fun w => decide (w.1 % max 1 (zGroup j.desc) = i)) with
  | none => (j, d)
  | some w =>
    let f := frameOf (zLevel j.desc) w.1 w.2.2 w.2.1
    let d := d.add64 Reg.CMP_IN_LO w.2.1.length
    let d := if f.1 then d.flag F.CMP_FLAGS_RAW Reg.CMP_RAW_CNT else d
    ({ j with work := j.work.erase w, held := j.held ++ [(w.1, f.2, w.2.1.length)] }, d)

/-- Every compressor of a job finishes its frame. -/
def Device.zDeflateAll (d : Device) (j : ZJob) : ZJob × Device :=
  j.work.foldl (fun r w => r.2.zDeflate (w.1 % max 1 (zGroup j.desc)) r.1) (j, d)

/-! Output (R387, R389). -/

/-- A finished frame is written into the extent. -/
def Device.zPut (d : Device) (z : Nat) (j : ZJob) (f : Nat × List Byte × Nat) : ZJob × Device :=
  let d := (d.store (j.ext + j.used) f.2.1).moved 4
  let d := (d.add64 (Reg.CMP_Z_IN_DONE_LO z) f.2.2).add64 (Reg.CMP_Z_OUT_DONE_LO z) f.2.1.length
  let d := (d.wr (Reg.CMP_Z_FRAMES z) (d.rdN (Reg.CMP_Z_FRAMES z) + 1)).add64 Reg.CMP_OUT_LO f.2.1.length
  ({ j with used := j.used + f.2.1.length, held := j.held.erase f, outNo := j.outNo + 1 }, d)

/-- Write the finished frames in FRAME_NO order, switching extents, stopping or failing the job where they do not fit; a job with nothing
left is DONE. A job makes no progress while a record waits (R392). -/
def Device.zWrite (d : Device) (z : Nat) : Nat → ZJob → Device
  | 0, j => d.setZjob z (some j)
  | fuel + 1, j =>
    if !j.recs.isEmpty then d.setZjob z (some j)
    else
      match j.held.find? (fun f => decide (f.1 = j.outNo)) with
      | none =>
        if j.inEnd ∧ j.opened.isEmpty ∧ j.work.isEmpty then
          (d.zEvent z j 3 cOK (d.rdN (Reg.CMP_Z_FRAMES z))).zOver z 3 cOK
        else d.setZjob z (some j)
      | some f =>
        if j.used + f.2.1.length ≤ j.extLen then
          let r := d.zPut z j f
          Device.zWrite r.2 z fuel r.1
        else if zLevel j.desc ≠ 0 then d.zFail z j 4 cOUTFULL
        else
          match j.pend with
          | some p =>
            let d := (d.zEvent z j 1 cOK (d.rdN (Reg.CMP_Z_FRAMES z))).setFld (F.CMP_Z_STAT_PENDING_EXT z) 0
            let j := (d.zjob z).getD j
            Device.zWrite d z fuel { j with ext := p.1, extLen := p.2, used := 0, pend := none }
          | none =>
            ((d.flag F.CMP_FLAGS_STOP Reg.CMP_STOP_CNT).zEvent z j 2 cOUTFULL (d.rdN (Reg.CMP_Z_FRAMES z))).zSet z 2 cOUTFULL

/-- Fuel for a job's output: every finished frame may need one extent. -/
def zFuel (j : ZJob) : Nat := 2 * j.held.length + 4

/-- Compressor `z + i` of the job at `z` finishes its frame: free compressors take input, and the finished frames are written; a stopped job reads
and writes nothing (R387). -/
def Device.zRun (d : Device) (z i : Nat) (poison : Bool) : Device :=
  match d.zjob z with
  | none => d
  | some j =>
    if !j.recs.isEmpty then d
    else if d.zState z = 2 then
      let r := d.zDeflate i j
      r.2.setZjob z (some r.1)
    else if d.zState z ≠ 1 then d
    else
      let b := d.zBad poison j
      let r := Device.zFill 34 b.2 b.1
      let c := r.2.zDeflate i r.1
      c.2.zWrite z (zFuel c.1) c.1

/-- FLUSH_NS have passed since input arrived, in its queue or at the job (R385). -/
def Device.zIdle (d : Device) (j : ZJob) : Bool :=
  timeLE (j.lastIn + nsTime (zFlush j.desc)) d.time && timeLE ((d.queue (zSrcQ j.desc)).arrive + nsTime (zFlush j.desc)) d.time

/-- The flush of a QUEUE job: the records waiting in its queue are taken, and a short open frame is closed; its compressor then finishes it. -/
def Device.zFlushRun (d : Device) (z : Nat) (j : ZJob) : Device :=
  let r := Device.zFill 34 d j
  r.2.setZjob z (some (if r.1.spare && !r.1.opened.isEmpty then r.1.cut else r.1))

/-- The source queue of a job is disabled: its input has ended (R386). -/
def Device.sourceGone (d : Device) (q : Nat) : Device :=
  (List.range 32).foldl (fun d z =>
    match d.zjob z with
    | none => d
    | some j =>
      if d.zLive z ∧ zKind j.desc = 1 ∧ zSrcQ j.desc = q ∧ !j.inEnd then d.setZjob z (some { j with inEnd := true, trunc := true })
      else d) d

/-- CONT (R388). DEDUCED (log entry 137): the extent that a STOPPED job takes is its current extent at once, with no EXTENT record. -/
def Device.zCont (d : Device) (z addr len : Nat) : Nat × Device :=
  match d.zjob z with
  | some j =>
    let mem := decide (zKind j.desc = 0)
    let c := firstCode [
      (decide (len < 65570) || pastEnd addr len, cLENGTH),
      ((mem && meets (zSrc j.desc) (zSrcLen j.desc) addr len) || meets j.ext j.extLen addr len, cOVERLAP),
      (aboveEnd addr, cREGION),
      (j.pend.isSome, cBUSY),
      (!d.zLive z || decide (zLevel j.desc ≠ 0), cNOTARMED)]
    if c ≠ cOK then (c, d.setFld (F.CMP_Z_STAT_CODE z) c)
    else
      let d := d.setFld (F.CMP_Z_STAT_CODE z) cOK
      if d.zState z = 2 then
        let j := { j with ext := addr, extLen := len, used := 0 }
        (c, (d.zSet z 1 cOK).zWrite z (zFuel j) j)
      else (c, (d.setZjob z (some { j with pend := some (addr, len) })).setFld (F.CMP_Z_STAT_PENDING_EXT z) 1)
  | none =>
    let c := firstCode [(decide (len < 65570) || pastEnd addr len, cLENGTH), (aboveEnd addr, cREGION), (true, cNOTARMED)]
    (c, d.setFld (F.CMP_Z_STAT_CODE z) c)

/-- END of a compression job (R390). -/
def Device.zEnd (d : Device) (z : Nat) : Nat × Device :=
  match d.zjob z with
  | none => (cNOTARMED, d.setFld (F.CMP_Z_STAT_CODE z) cNOTARMED)
  | some j =>
    if !d.zLive z then (cNOTARMED, d.setFld (F.CMP_Z_STAT_CODE z) cNOTARMED)
    else if j.fin.isSome then (cOK, d)
    else if zLevel j.desc ≠ 0 then (cOK, d.zFail z j 5 cOK)
    else
      let r := (d.setFld (F.CMP_Z_STAT_CODE z) cOK).zDeflateAll (ZJob.cutAll (j.opened.length / 65536 + 1) { j with inEnd := true })
      if d.zState z = 2 then (cOK, r.2.setZjob z (some r.1)) else (cOK, r.2.zWrite z (zFuel r.1) r.1)

/-! Decompression (R393 to R398). -/

def uKind (b : List Byte) : Nat := dw b 0 0 2
def uStream (b : List Byte) : Nat := dw b 0 8 3
def uSrc (b : List Byte) : Nat := dq b 8
def uSrcLen (b : List Byte) : Nat := ofBytesLE ((b.drop 0x10).take 5)
def uDst (b : List Byte) : Nat := dq b 0x18
def uDstLen (b : List Byte) : Nat := ofBytesLE ((b.drop 0x20).take 5)
def uAt (b : List Byte) : Time := BitVec.ofNat 64 (ofBytesLE ((b.drop 0x30).take 8))

/-- Whether a reserved field of a decompression descriptor is not zero. -/
def uReserved (b : List Byte) : Bool :=
  decide (dw b 0 2 6 ≠ 0) || decide (dw b 0 11 5 ≠ 0) || decide (dw b 0 17 15 ≠ 0) || decide (dw b 4 0 16 ≠ 0) ||
    decide (dw b 4 28 4 ≠ 0) || decide (dw b 0xC 16 16 ≠ 0) || decide (dw b 0x14 8 24 ≠ 0) || decide (dw b 0x1C 16 16 ≠ 0) ||
    decide (dw b 0x24 8 24 ≠ 0) || decide (dw b 0x2C 0 32 ≠ 0) || (b.drop 0x38).any (fun x => decide (x ≠ 0))

def Device.uState (d : Device) (u : Nat) : Nat := d.fld (F.CMP_U_STAT_STATE u)

/-- The check of a decompression job (R394). -/
def Device.uCode (d : Device) (u : Nat) (b : List Byte) : Nat :=
  let k := uKind b
  let s := uStream b
  let pn := d.rdN (Reg.LNK_S_PNUM_CUR s)
  let pd := d.rdN (Reg.LNK_S_PDEN_CUR s)
  let pay := d.ratesWith s pn pd payloadOf
  let rate := d.ratesWith s pn pd (fun _ a b => rateOf a b)
  firstCode [
    (decide (uSrcLen b = 0) || pastEnd (uSrc b) (uSrcLen b) ||
      (decide (k = 0) && (decide (uDstLen b = 0) || pastEnd (uDst b) (uDstLen b))) ||
      (decide (k = 1) && (decide (pn = 0) || decide (pd = 0) || decide (32000 * pn < 1000 * pd * d.sWidth s) ||
        decide (960000 * pay.2 < pay.1) || decide (30000 * rate.2 < rate.1))), cLENGTH),
    (decide (k = 0) && meets (uSrc b) (uSrcLen b) (uDst b) (uDstLen b), cOVERLAP),
    (aboveEnd (uSrc b) || (decide (k = 0) && aboveEnd (uDst b)), cREGION),
    (decide (d.uState u = 1) || (decide (k = 1) && decide (d.sState s ≠ 0)), cBUSY),
    (bitAt (d.rdN Reg.CMP_U_VACANT) u, cNOSPARE),
    (uReserved b || decide (1 < k), cUNSUP)]

/-- Submit a decompression job (R394, R397). -/
def Device.uSubmit (d : Device) (u : Nat) (b : List Byte) : Nat × Device :=
  let c := d.uCode u b
  let d := d.setFld (F.CMP_U_STAT_CODE u) c
  if c ≠ cOK then (c, d)
  else
    let d := ((((d.setUjob u (some { desc := b })).setFld (F.CMP_U_STAT_STATE u) 1).wr64 (Reg.CMP_U_IN_DONE_LO u) 0).wr64
      (Reg.CMP_U_OUT_DONE_LO u) 0).wr (Reg.CMP_U_FRAMES u) 0
    if uKind b = 1 then
      let s := uStream b
      let d := d.sAcquire s
      let d := d.setStream s { d.stream s with replay := some u, replayEnd := none }
      (c, (d.request .streamStart s (uAt b) .device []).showPending s)
    else (c, d)

/-- An event of a decompression job (R392). -/
def Device.uEvent (d : Device) (u : Nat) (j : UJob) (ev code frames : Nat) : Device :=
  let b := j.desc
  if !zNqEn b then d.setUjob u (some j)
  else
    let replay := decide (uKind b = 1)
    let r := d.cmpOffer (zNq b) (32 + u) j.recs
      (d.cmpRecord ev code (1 + (if replay then 4 else 0)) (zTag b) (if replay then ctxStream 0 (uStream b) else 0) 0
        (d.rd64 (Reg.CMP_U_IN_DONE_LO u)) (d.rd64 (Reg.CMP_U_OUT_DONE_LO u)) frames 0)
    r.2.setUjob u (some { j with recs := r.1 })

/-- A job's unit shows its end; a vacant role stays VACANT. -/
def Device.uFree (d : Device) (u st code : Nat) : Device :=
  ((d.setFld (F.CMP_U_STAT_STATE u) (if bitAt (d.rdN Reg.CMP_U_VACANT) u then 6 else st)).setFld (F.CMP_U_STAT_CODE u) code).setUjob u none

/-- A job is over: at once, or as soon as its waiting records are pushed (R392). -/
def Device.uOver (d : Device) (u st code : Nat) : Device :=
  match d.ujob u with
  | none => d
  | some j => if j.recs.isEmpty then d.uFree u st code else d.setUjob u (some { j with fin := some (st, code) })

/-- A decompression job ends (R396, R398): DONE, FAILED or ENDED. -/
def Device.uFinish (d : Device) (u : Nat) (j : UJob) (ev code : Nat) : Device :=
  let frames := d.rdN (Reg.CMP_U_FRAMES u)
  let bad := decide (ev ≠ 3) && decide (uKind j.desc = 0)
  let d := if bad then
      (d.zero (uDst j.desc) (d.rd64 (Reg.CMP_U_OUT_DONE_LO u))).wr64 (Reg.CMP_U_OUT_DONE_LO u) 0
    else d
  let d := if ev = 4 then d.flag F.CMP_FLAGS_FAIL Reg.CMP_FAIL_CNT else d
  (d.uEvent u j ev code frames).uOver u (if ev = 4 then 4 else 3) code

/-- A replay's stream stops: at the next boundary where it runs, at once where it has not started (R398). -/
def Device.uStopStream (d : Device) (s : Nat) : Device :=
  let x := d.stream s
  if d.sState s = 2 then
    if d.hasReq [.streamStop] s then d
    else (d.request .streamStop s d.time .device []).showPending s
  else
    ((d.dropReq .streamStart s).setFld (F.LNK_S_STAT_STATE s) 0).setStream s { x with replay := none, replayEnd := none }
      |>.showPending s

/-- The samples of `n` bytes of a replay in its stream's format (R397). -/
def Device.replaySamples (d : Device) (s n : Nat) : Int := (8 * n / d.sWidth s : Nat)

/-- Put replayed bytes into a stream's buffer. -/
def putReplay : Sparse RxUnit → Nat → List Byte → Sparse RxUnit
  | us, _, [] => us
  | us, i, b :: bs => putReplay (Sparse.ins us i { payload := b.toNat, marks := 8 }) (i + 1) bs

/-- A decompressor finishes checking its next frame (R395 to R398). -/
def Device.uRun (d : Device) (u : Nat) : Device :=
  match d.ujob u with
  | none => d
  | some j =>
    let b := j.desc
    let left := uSrcLen b - j.pos
    if d.uState u ≠ 1 ∨ j.recs ≠ [] ∨ left = 0 then d
    else
      let s := uStream b
      let outD := d.rd64 (Reg.CMP_U_OUT_DONE_LO u)
      let fail (c : Nat) : Device :=
        let d := if uKind b = 1 then
            (d.setStream s { d.stream s with replayEnd := some (d.replaySamples s outD) }).uStopStream s else d
        d.uFinish u j 4 c
      match readFrame (memBytes d.mem (uSrc b + j.pos) left) with
      | .error c => fail c
      | .ok (n, out) =>
        if uKind b = 0 ∧ uDstLen b < outD + out.length then fail cOUTFULL
        else
          let d := (if uKind b = 0 then d.store (uDst b + outD) out
            else
              let x := d.stream s
              d.setStream s { x with units := putReplay x.units outD out, acqEnd := x.acqEnd <|> some d.time }).moved 4
          let d := (d.add64 (Reg.CMP_U_IN_DONE_LO u) n).add64 (Reg.CMP_U_OUT_DONE_LO u) out.length
          let d := d.wr (Reg.CMP_U_FRAMES u) (d.rdN (Reg.CMP_U_FRAMES u) + 1)
          let j := { j with pos := j.pos + n }
          let d := d.setUjob u (some j)
          if left ≤ n then
            if uKind b = 0 then d.uFinish u j 3 cOK
            else d.setStream s { d.stream s with replayEnd := some (d.replaySamples s (outD + out.length)) }
          else d

/-- A replay's last sample has been released: its stream stops at the next boundary (R398). -/
def Device.replayed (d : Device) (s : Nat) (g : Int) : Device :=
  let x := d.stream s
  match x.replay, x.replayEnd with
  | some u, some e =>
    if g + 1 = e then
      match d.ujob u with
      | none => d
      | some j => (d.setUjob u (some { j with played := true })).uStopStream s
    else d
  | _, _ => d

/-- Replays whose stream has stopped complete: DONE after their last sample, otherwise ENDED (R398). -/
def Device.replayCheck (d : Device) : Device :=
  (List.range 8).foldl (fun d u =>
    match d.ujob u with
    | none => d
    | some j =>
      if uKind j.desc = 1 ∧ d.uState u = 1 ∧ j.fin.isNone ∧ (d.stream (uStream j.desc)).replay ≠ some u then
        d.uFinish u j (if j.played then 3 else 5) cOK
      else d) d

/-- END of a decompression job (R396, R398). -/
def Device.uEnd (d : Device) (u : Nat) : Nat × Device :=
  match d.ujob u with
  | none => (cNOTARMED, d.setFld (F.CMP_U_STAT_CODE u) cNOTARMED)
  | some j =>
    if d.uState u ≠ 1 then (cNOTARMED, d.setFld (F.CMP_U_STAT_CODE u) cNOTARMED)
    else if j.fin.isSome then (cOK, d)
    else if uKind j.desc = 0 then (cOK, d.uFinish u j 5 cOK)
    else (cOK, (d.uStopStream (uStream j.desc)).replayCheck)

/-- A role becomes vacant while it runs a job (R399). -/
def Device.cmpVacant (d : Device) (isU : Bool) (i : Nat) : Device :=
  if isU then
    match d.ujob i with
    | none => d
    | some j =>
      if d.uState i ≠ 1 ∨ j.fin.isSome then d.setFld (F.CMP_U_STAT_STATE i) 6
      else
        let d := if uKind j.desc = 1 then d.uStopStream (uStream j.desc) else d
        (d.uFinish i j 4 cNOSPARE).setFld (F.CMP_U_STAT_STATE i) 6
  else
    let lead := if d.zState i = 5 then d.fld (F.CMP_Z_STAT_LEADER i) else i
    let d := match d.zjob lead with
      | none => d
      | some j => if d.zLive lead ∧ j.fin.isNone then d.zFail lead j 4 cNOSPARE else d
    d.setFld (F.CMP_Z_STAT_STATE i) 6

/-- A COMPRESSED record that waits is pushed when its queue has space, and the job goes on or ends (R392). -/
def Device.cmpPush (d : Device) (i : Nat) : Device :=
  if i < 32 then
    match d.zjob i with
    | none => d
    | some j =>
      match j.recs with
      | [] => d
      | r :: rs =>
        if d.qRoom (zNq j.desc) (slotsOf r.length) then
          let j := { j with recs := rs }
          let d := (d.qAccept (zNq j.desc) r (slotsOf r.length) 0x0A i).setZjob i (some j)
          match rs, j.fin with
          | [], some x => d.zOver i x.1 x.2
          | [], none => if d.zState i = 1 then d.zWrite i (zFuel j) j else d
          | _, _ => d
        else d
  else
    match d.ujob (i - 32) with
    | none => d
    | some j =>
      match j.recs with
      | [] => d
      | r :: rs =>
        if d.qRoom (zNq j.desc) (slotsOf r.length) then
          let d := (d.qAccept (zNq j.desc) r (slotsOf r.length) 0x0A i).setUjob (i - 32) (some { j with recs := rs })
          match rs, j.fin with
          | [], some x => d.uOver (i - 32) x.1 x.2
          | _, _ => d
        else d

/-! Commands. -/

/-- The 16 descriptor words of a unit's registers. -/
def Device.descWords (d : Device) (a : Nat) : List Byte := (List.range 16).flatMap (fun i => bytesLE 4 (d.rdN (a + 4 * i)))

def execCmpZCtlGo (z : Nat) (s : State) : Host.Outcome State Fault Refusal :=
  s.run (fun d => if z < 32 then (d.zSubmit z (d.descWords (Reg.CMP_Z_DESC_W z 0))).2 else d)

def execCmpZCtlCont (z : Nat) (s : State) : Host.Outcome State Fault Refusal :=
  s.run (fun d =>
    if z < 32 then (d.zCont z (d.rd64 (Reg.CMP_Z_CONT_ADDR_LO z)) (d.rdN (Reg.CMP_Z_CONT_LEN z))).2 else d)

def execCmpZCtlEnd (z : Nat) (s : State) : Host.Outcome State Fault Refusal :=
  s.run (fun d => if z < 32 then (d.zEnd z).2 else d)

def execCmpSubmit (u : UCmd) (s : State) : Host.Outcome State Fault Refusal :=
  s.run (fun d => d.unitCmd 0x0A 1 u fun d => let r := d.zSubmit u.unit u.block; r.2.complete u.origin r.1 none)

def execCmpCont (u : UCmd) (s : State) : Host.Outcome State Fault Refusal :=
  s.run (fun d => d.unitCmd 0x0A 2 u fun d => let r := d.zCont u.unit (u.dword 0) (u.word 8); r.2.complete u.origin r.1 none)

def execCmpEnd (u : UCmd) (s : State) : Host.Outcome State Fault Refusal :=
  s.run (fun d => d.unitCmd 0x0A 3 u fun d => let r := d.zEnd u.unit; r.2.complete u.origin r.1 none)

def execCmpUCtlGo (u' : Nat) (s : State) : Host.Outcome State Fault Refusal :=
  s.run (fun d => if u' < 8 then (d.uSubmit u' (d.descWords (Reg.CMP_U_DESC_W u' 0))).2 else d)

def execCmpUCtlEnd (u' : Nat) (s : State) : Host.Outcome State Fault Refusal :=
  s.run (fun d => if u' < 8 then (d.uEnd u').2 else d)

def execCmpDsubmit (u : UCmd) (s : State) : Host.Outcome State Fault Refusal :=
  s.run (fun d => d.unitCmd 0x0A 4 u fun d => let r := d.uSubmit u.unit u.block; r.2.complete u.origin r.1 none)

def execCmpDend (u : UCmd) (s : State) : Host.Outcome State Fault Refusal :=
  s.run (fun d => d.unitCmd 0x0A 5 u fun d => let r := d.uEnd u.unit; r.2.complete u.origin r.1 none)

/-- FLUSH_NS have passed without input while a frame is open (R385). -/
def execCompressFlushTimeout (z : Nat) (s : State) : Host.Outcome State Fault Refusal :=
  s.run (fun d =>
    match d.zjob z with
    | none => d
    | some j =>
      if z < 32 ∧ d.zState z = 1 ∧ j.recs.isEmpty ∧ zKind j.desc = 1 ∧ zFlush j.desc ≠ 0 ∧ d.zIdle j then d.zFlushRun z j else d)

/-- A compressor takes input and finishes a frame of its job, whose first compressor it is or names (R385, R387); `poison` says that a source read
was uncorrectable (R391). -/
def execCompressFrameDone (z : Nat) (poison : Bool) (s : State) : Host.Outcome State Fault Refusal :=
  s.run (fun d =>
    if 32 ≤ z then d
    else
      let lead := if d.zState z = 5 then d.fld (F.CMP_Z_STAT_LEADER z) else z
      d.zRun lead (z - lead) poison)

def execDecompressFrameDone (u' : Nat) (s : State) : Host.Outcome State Fault Refusal :=
  s.run (fun d => if u' < 8 then d.uRun u' else d)

def execCompressedRecordPush (i : Nat) (s : State) : Host.Outcome State Fault Refusal :=
  s.run (fun d => if i < 40 then d.cmpPush i else d)

end Sys2Proof.Machine
end

