-- ==== Sys2Proof/Machine/CascadeLinks.lean ====
section
/-! DEFINITION. Cascade messages as they leave (R543, R545, R549): the link toward a device, the transmit buffer, control messages; and the work
that the other chapters hand to the cascade: forwarded records (R555), trigger firings (R556) and spectrum parts (R557). -/

namespace Sys2Proof.Machine

def Device.casLink (d : Device) (l : Nat) : CasLink := Sparse.get (fun _ => {}) d.cas.links l
def Device.setCasLink (d : Device) (l : Nat) (x : CasLink) : Device :=
  { d with cas := { d.cas with links := Sparse.set (fun _ => {}) d.cas.links l x } }
def Device.casDev (d : Device) (n : Nat) : CasDev := Sparse.get (fun _ => {}) d.cas.devs n
def Device.setCasDev (d : Device) (n : Nat) (x : CasDev) : Device :=
  { d with cas := { d.cas with devs := Sparse.set (fun _ => {}) d.cas.devs n x } }
def Device.casRow (d : Device) (n : Nat) : CasRole := Sparse.get (fun _ => {}) d.cas.table n

/-- Roles of CAS_STAT (R546). -/
def caNone : Nat := 0
def caMaster : Nat := 1
def caMember : Nat := 2
def caStandby : Nat := 3

def Device.casRole (d : Device) : Nat := d.fld F.CAS_STAT_ROLE
def Device.casSelf (d : Device) : Nat := d.fld F.CAS_STAT_DEVICE
def Device.casEpoch (d : Device) : Nat := d.rdN Reg.CAS_EPOCH % 65536
def Device.isMaster (d : Device) : Bool := decide (d.casRole = caMaster)

/-- The device numbers of the role table other than this device's own. -/
def Device.casOthers (d : Device) : List Nat :=
  (List.range 16).filter (fun n => decide (n ≠ d.casSelf) && decide ((d.casRow n).role ≠ 0))

/-- A running link whose peer is a device. -/
def Device.linkOf (d : Device) (peer : Nat) : Option Nat :=
  (List.range 6).find? (fun l => d.isSet (F.CAS_L_CFG_RUN l) && decide (d.fld (F.CAS_L_CFG_PEER l) = peer))

/-- Whether the device works in the cascade: a STANDBY does none of its work (R546). -/
def Device.casWorks (d : Device) : Bool := decide (d.casRole = caMaster) || decide (d.casRole = caMember)

/-- The device numbers at the far ends of the running links. -/
def Device.casPeers (d : Device) : List Nat :=
  ((List.range 6).filter (fun l => d.isSet (F.CAS_L_CFG_RUN l))).map (fun l => d.fld (F.CAS_L_CFG_PEER l))

/-- The number a device goes by on its links. DEDUCED (log entry 87): without a role it has none in a star, and in a chain the one after its
lowest neighbour's. -/
def Device.casNum (d : Device) : Option Nat :=
  if d.casRole ≠ caNone then some d.casSelf
  else if d.isSet F.CAS_CFG_TOPO then d.casPeers.min?.map (· + 1)
  else none

/-- The link toward a device (R544): its own, or in a chain the neighbour's on its side, in a star the master's. -/
def Device.linkTo (d : Device) (dst : Nat) : Option Nat :=
  match d.linkOf dst with
  | some l => some l
  | none =>
    if d.isSet F.CAS_CFG_TOPO then
      let n := d.casNum.getD d.casSelf
      d.linkOf (if n < dst then n + 1 else n - 1)
    else d.linkOf 0

/-- Control messages (R545): ROLE, TIME, MARK and TRIGGER. -/
def casControl (ty : Nat) : Bool := decide (ty ∈ [1, 4, 5, 8])

/-- Bytes of a message on a link (R543). -/
def casSize (data : List Byte) : Nat := 16 + 8 * ceilDiv data.length 8

/-- The bytes that a link has sent since an instant: its data lanes at their group's rate, less the framing (R61, R543). -/
def Device.casDrained (d : Device) (l : Nat) : Nat :=
  let lanes := onesBelow (d.rdN (Reg.CAS_L_TX l)) 24
  let rate := match lanes with | [] => 0 | i :: _ => d.fld (F.LNK_TG_CFG_RATE (i / 4))
  let ns := (d.time - (d.casLink l).usedAt).toInt.toNat / 65536
  (lanes.length - 1) * rate * 31 * ns / (33 * 8000)

/-- A record or part enters a link's 256 KiB transmit buffer, or finds it full (R545). -/
def Device.casRoom (d : Device) (l n : Nat) : Bool × Device :=
  let used := (d.casLink l).used - d.casDrained l
  if used + n ≤ 262144 then (true, d.setCasLink l { d.casLink l with used := used + n, usedAt := d.time }) else (false, d)

/-- A message that is not sent (R545, R549). -/
def Device.casDrop (d : Device) : Device := d.flag F.CAS_FLAGS_TX_DROP Reg.CAS_TX_DROP_CNT

/-- Put a message on a link: it takes the next SEQ, and a control message awaits its answer. -/
def Device.casPut (d : Device) (l ty dst : Nat) (args : List Nat) (data : List Byte) : Device :=
  let x := d.casLink l
  let d := d.setCasLink l { x with seq := (x.seq + 1) % 2 ^ 32,
                                   wait := if casControl ty then x.wait ++ [⟨x.seq, ty, d.casEpoch, dst, args, 0, d.time⟩] else x.wait }
  d.send (.casMsg l false ty d.casEpoch d.casSelf dst x.seq args data)

/-- Send a message to a device over a link (R545, R548, R549). -/
def Device.casVia (d : Device) (link : Option Nat) (ty dst : Nat) (args : List Nat) (data : List Byte) : Device :=
  if d.cas.stale ∧ ty ≠ 6 then d
  else if d.cas.deaf ∧ dst = 0 then d.casDrop
  else
    match link with
    | none => d
    | some l =>
      if ty = 9 ∨ ty = 10 then
        let r := d.casRoom l (casSize data)
        if r.1 then r.2.casPut l ty dst args data else r.2.casDrop
      else d.casPut l ty dst args data

/-- Send a message to a device. -/
def Device.casSend (d : Device) (ty dst : Nat) (args : List Nat) (data : List Byte) : Device := d.casVia (d.linkTo dst) ty dst args data

/-- Send a message to each of a list of devices. -/
def Device.casSendAll (d : Device) (ty : Nat) (dsts args : List Nat) : Device :=
  dsts.foldl (fun d n => d.casSend ty n args []) d

/-! Forwarding (R555). -/

/-- Whether a running forwarding entry reads a queue. -/
def Device.forwards (d : Device) (q : Nat) : Bool :=
  (List.range 16).any (fun f => d.isSet (F.CAS_F_CFG_EN f) && decide (d.fld (F.CAS_F_CFG_SQUEUE f) = q))

/-- The bytes of a record in LENGTH (R352). -/
def recBytes (bs : List Byte) : List Byte := bs.take (ofBytesLE ((bs.drop 4).take 4))

/-- A forwarding entry sends the complete records of its queue and releases them. -/
def Device.forwardAll (d : Device) (q dst dq : Nat) : Nat → Device
  | 0 => d
  | fuel + 1 =>
    match (d.queue q).next with
    | none => d
    | some r =>
      Device.forwardAll ((((d.casSend 9 dst [dq] (recBytes (d.qCopy q r))).qRefills q r.span).qAdvance q).qRelease q) q dst dq fuel

/-- A record of a queue is complete: the forwarding entry that reads the queue takes it. -/
def Device.casForward (d : Device) (q : Nat) : Device :=
  if !d.casWorks then d
  else
    match (List.range 16).find? (fun f => d.isSet (F.CAS_F_CFG_EN f) && decide (d.fld (F.CAS_F_CFG_SQUEUE f) = q)) with
    | none => d
    | some f => d.forwardAll q (d.fld (F.CAS_F_CFG_DDEV f)) (d.fld (F.CAS_F_CFG_DQUEUE f)) (d.queue q).recs.length

/-! Triggers (R556). -/

/-- A group with trigger time `t` has been released: each of its units goes to the other devices. -/
def Device.casTriggers (d : Device) (t : Time) (us : List Nat) : Device :=
  if !d.casWorks then d else us.foldl (fun d n => d.casSendAll 8 d.casOthers [n, t.toNat]) d

/-! Calibration (R552). -/

/-- A microsecond in units of 2^-16 ns. -/
def usUnits : Nat := 65536000

/-- The master stamps an edge of a device's return clock (R552). -/
def Device.calEdge (d : Device) (n : Nat) (t : Time) : Device :=
  match d.cas.cal with
  | none => d
  | some t0 =>
    if timeLT t t0 then d
    else
      d.casOthers.foldl (fun d k =>
        let x := d.casDev k
        if d.fld (F.CAS_D_CFG_RET_EV k) = n ∧ x.nU < 4096 then
          d.setCasDev k { x with nU := x.nU + 1, sumU := x.sumU + (t - t0).toInt }
        else d) d

/-! Joins (R557). -/

/-- The parts of a composite by device number. -/
def CasComp.part (c : CasComp) (n : Nat) : Option CasPart := c.parts.find? (fun p => decide (p.dev = n))

/-- The bins of a missing part: 0x7FC0_0000 in every word. -/
def nanBins : Nat → List Byte
  | 0 => []
  | n + 1 => bytesLE 4 0x7FC00000 ++ nanBins n

/-- The COMPOSITE record (R557). -/
def Device.compRecord (d : Device) (c : CasComp) : List Byte :=
  let ctx := d.fld (F.CAS_J_CFG_CONTEXT c.join)
  let b := d.desc ctx
  let mask := d.rdN (Reg.CAS_J_PARTS c.join)
  let devs := onesBelow mask 16
  let miss := devs.filter (fun n => (c.part n).isNone)
  let bytes := cBinCount b * binBytes (cFormat b)
  let t := match c.part d.casSelf with | none => 0 | some p => p.stamp
  recHead 0x1C (c.parts.foldl (fun m p => m ||| p.marks) 0) (128 + devs.length * bytes) (ctxStream ctx (d.srcStream (cSource b))) t ++
    bytesLE 8 c.index ++ bytesLE 2 mask ++ bytesLE 2 ((miss.map (fun n => 2 ^ n)).sum) ++ bytesLE 4 (cBinCount b) ++
    bytesLE 1 (cFormat b) ++ List.replicate 15 (0 : Byte) ++
    (List.range 16).flatMap (fun n => match c.part n with
      | none => bytesLE 4 0
      | some p => bytesLE 4 (wrap 32 (p.stamp - t))) ++
    devs.flatMap (fun n => match c.part n with
      | none => nanBins (bytes / 4)
      | some p => p.bins)

/-- A missing or late part (R557). -/
def Device.joinMiss (d : Device) : Device := d.flag F.CAS_FLAGS_JOIN_MISS Reg.CAS_JOIN_MISS_CNT

/-- A composite leaves (R557): its missing parts are counted, and it goes to the join's queue. -/
def Device.compLeave (d : Device) (c : CasComp) : Device :=
  let miss := (onesBelow (d.rdN (Reg.CAS_J_PARTS c.join)) 16).filter (fun n => (c.part n).isNone)
  let d := miss.foldl (fun d _ => d.joinMiss) d
  let d := { d with cas := { d.cas with
    comps := d.cas.comps.filter (fun x => !(decide (x.join = c.join) && decide (x.index = c.index)))
    left := Sparse.set (fun _ => []) d.cas.left c.join (Sparse.get (fun _ => []) d.cas.left c.join ++ [c.index]) } }
  d.qOffer (d.fld (F.CAS_J_CFG_QUEUE c.join)) (d.compRecord c) 0x12 c.join

/-- Whether the composite of an index has left. -/
def Device.compGone (d : Device) (j k : Nat) : Bool := decide (k ∈ Sparse.get (fun _ => []) d.cas.left j)

/-- A part reaches the composite of its frame index (R557). -/
def Device.joinTake (d : Device) (j k : Nat) (p : CasPart) : Device :=
  if d.compGone j k then d.joinMiss
  else
    let old := d.cas.comps.find? (fun c => decide (c.join = j) && decide (c.index = k))
    let c := match old with | none => (⟨j, k, [], none⟩ : CasComp) | some c => c
    let c := { c with parts := c.parts.filter (fun x => decide (x.dev ≠ p.dev)) ++ [p], own := if p.dev = d.casSelf then some d.time else c.own }
    let d := { d with cas := { d.cas with
      comps := d.cas.comps.filter (fun x => !(decide (x.join = j) && decide (x.index = k))) ++ [c] } }
    if c.own.isSome && (onesBelow (d.rdN (Reg.CAS_J_PARTS j)) 16).all (fun n => (c.part n).isSome) then d.compLeave c else d

/-- A delivered spectrum is a part of every enabled join of its context that names this device (R557): on the master it goes to the composite,
elsewhere in a PART message. -/
def Device.joinOwn (d : Device) (c k : Nat) (stamp : Int) (marks : Nat) (bins : List Byte) : Device :=
  if !d.casWorks then d
  else
    (List.range 16).foldl (fun d j =>
      if d.isSet (F.CAS_J_CFG_EN j) ∧ d.fld (F.CAS_J_CFG_CONTEXT j) = c ∧ bitAt (d.rdN (Reg.CAS_J_PARTS j)) d.casSelf then
        if d.isMaster then
          let d := if k = 0 then { d with cas := { d.cas with left := Sparse.set (fun _ => []) d.cas.left j [] } } else d
          d.joinTake j k ⟨d.casSelf, stamp, marks, bins⟩
        else d.casSend 10 0 [c, k, wrap 64 stamp, marks] bins
      else d) d

end Sys2Proof.Machine
end

