-- ==== Sys2Proof/Machine/Fabric.lean ====
section
/-! DEFINITION. The transform fabric at work: frame sequences and the frames they form (R152 to R155), the dispatcher (R165,
R167, R140), delivery of spectra with credits (R170 to R172), and the schedule requests (R162, R163, R171). -/

namespace Sys2Proof.Machine

/-! Frame sequences. -/

/-- The trace of a context, keyed by context and trace number. -/
def Device.trace (d : Device) (c t : Nat) : Trace := Sparse.get (fun _ => {}) d.traces (c * 4 + t)
def Device.setTrace (d : Device) (c t : Nat) (x : Trace) : Device :=
  { d with traces := Sparse.set (fun _ => {}) d.traces (c * 4 + t) x }

/-- A trace of a context is to be cut short at an instant (R184). -/
def Device.traceMark (d : Device) (c t : Nat) (b : Time) : Device :=
  let x := d.trace c t
  if x = {} then d else d.setTrace c t { x with cuts := x.cuts ++ [b] }

/-- The pool mask of a context in a schedule (R160). -/
def Sched.maskOf (sc : Sched) (c : Nat) : Nat :=
  match sc.entries.find? (fun e => decide (e.1 = c)) with
  | none => 0
  | some e => sc.masks.getD e.2 0

/-- A context starts a new frame sequence at an instant (R153): its traces are cut short there (R184), its cluster copies count from the start of the ring with full
credits (R171). An earlier sequence forms no frame from that instant on. -/
def Device.seqStart (d : Device) (c : Nat) (b : Time) : Device :=
  let x := d.desc c
  let q : FrameSeq := { ctx := c, sid := d.sidNext, src := cSource x, n := cLog x, hop := cHop x, align := cAlign x, phase := cPhase x, start := b,
                        first := none, k := 0, fin := none, mask := d.run.maskOf c }
  let olds := d.seqs.map (fun p => if p.ctx = c ∧ p.fin = none then { p with fin := some b } else p)
  let d := { d with seqs := olds ++ [q], sidNext := d.sidNext + 1 }
  let d := (List.range 4).foldl (fun d t => d.traceMark c t b) d
  let d := d.setCtx c { d.ctxOf c with ringD := 0 }
  d.setFld (F.XF_C_STAT_CREDIT c) (if cClEn x then cClCount x else 0)

/-- A context's sequences form no frame whose boundary is at or after an instant (R163). -/
def Device.seqStop (d : Device) (c : Nat) (b : Time) : Device :=
  { d with seqs := d.seqs.map (fun p => if p.ctx = c ∧ p.fin = none then { p with fin := some b } else p) }

/-- A source restarts from a new reference point at an instant: its buffer is empty, its frames in formation are gone, and
every running context on it starts a new frame sequence (R153). -/
def Device.srcRestart (d : Device) (src : Nat) (b : Time) : Device :=
  let d := { d with bufs := Sparse.set (fun _ => []) d.bufs src [], seqs := d.seqs.filter (fun q => decide (q.src ≠ src)) }
  d.run.entries.foldl (fun d e => if cSource (d.desc e.1) = src then d.seqStart e.1 b else d) d

/-- The settings in force at a boundary stamp (R29, R33). -/
def Device.setAt (d : Device) (c : Nat) (stamp : Int) : CtxSet :=
  match (d.ctxOf c).olds.find? (fun o => timeLT (BitVec.ofInt 64 stamp) o.1) with
  | some o => o.2
  | none => d.setOf c

/-- The settings of a context change at a boundary: earlier frames keep the old ones. -/
def Device.keepOld (d : Device) (c : Nat) (b : Time) : Device :=
  let x := d.ctxOf c
  d.setCtx c { x with olds := x.olds ++ [(b, d.setOf c)] }

/-- A sequence takes a sample of its source: the sequence as it goes on, and the frame that the sample completes (R152). -/
def FrameSeq.take (q : FrameSeq) (buf : List BufSmp) (e : Emit) : Option FrameSeq × Option (Nat × Int × List Smp) :=
  let st := BitVec.ofInt 64 e.stamp
  let q := match q.first with
    | some _ => q
    | none =>
      if timeLE q.start st && (!q.align || decide (q.hop ≠ 0 ∧ e.n % q.hop = q.phase)) then { q with first := some e.n } else q
  let past (s : Int) : Bool := match q.fin with | none => false | some t => timeLE t (BitVec.ofInt 64 s)
  match q.first with
  | none => if past e.stamp then (none, none) else (some q, none)
  | some i0 =>
    let a := i0 + q.hop * q.k
    let n : Nat := 2 ^ q.n
    match buf.find? (fun x => decide (x.n = a)) with
    | none => (some q, none)
    | some x =>
      if past x.stamp then (none, none)
      else if e.n = a + n - 1 then
        (some { q with k := q.k + 1 }, some (q.k, x.stamp, ((buf.take n).map (fun y => y.smp)).reverse))
      else (some q, none)

/-- The sequences of a list take a sample: those that go on, and the frames formed, in ascending context number. -/
def Device.seqsTake (d : Device) (buf : List BufSmp) (e : Emit) : List FrameSeq → List FrameSeq × List Frame
  | [] => ([], [])
  | q :: qs =>
    let r := Device.seqsTake d buf e qs
    if q.src ≠ e.src then (q :: r.1, r.2)
    else
      let t := q.take buf e
      (t.1.toList ++ r.1, (match t.2 with
        | none => []
        | some f => [⟨q.ctx, q.sid, f.1, f.2.1, f.2.2, d.setAt q.ctx f.2.1, d.time, q.mask, 0, 0, 0, false⟩]) ++ r.2)

/-- Insert a frame that became ready (R165): by context number and frame index among those of the same cycle. -/
def insReady (f : Frame) : List Frame → List Frame
  | [] => [f]
  | g :: gs =>
    if g.ready = f.ready ∧ (f.ctx < g.ctx ∨ (f.ctx = g.ctx ∧ f.sid = g.sid ∧ f.k < g.k)) then f :: g :: gs
    else g :: insReady f gs

/-- A sample enters the fabric's buffer of its source, and the frames it completes become ready. -/
def Device.fabTake (d : Device) (e : Emit) : Device :=
  let buf := (⟨e.n, e.stamp, e.smp⟩ :: Sparse.get (fun _ => []) d.bufs e.src).take (2 ^ 24)
  let r := d.seqsTake buf e d.seqs
  { d with bufs := Sparse.set (fun _ => []) d.bufs e.src buf, seqs := r.1,
           ready := r.2.foldl (fun l f => insReady f l) d.ready }

/-! The dispatcher. -/

/-- When a pipe can take a frame that is ready at `t`. -/
def Device.pipeFrom (d : Device) (p : Nat) (t : Time) : Time :=
  match Sparse.get (fun _ => none) d.pipeFree p with
  | none => t
  | some f => timeMax f t

/-- The pipe that gets a frame (R165): the lowest-numbered free one, otherwise the first to become free. -/
def pickPipe (t : Time) : List (Nat × Time) → Option (Nat × Time)
  | [] => none
  | p :: ps =>
    match pickPipe t ps with
    | none => some p
    | some q => if timeLE p.2 q.2 then some p else some q

/-- The pipe of a mask that a transform ready at `t` gets, and when it enters. -/
def Device.dispatch (d : Device) (mask : Nat) (t : Time) : Option (Nat × Time) :=
  pickPipe t ((livePipes (d.fld F.XF_LIVE_MASK) mask).map (fun p => (p, d.pipeFrom p t)))

/-- The pipe time of `n` points (R136), in units of device time. -/
def Device.pipeTime (d : Device) (n : Nat) : Time := BitVec.ofInt 64 (unitsUp ((n : ℚ) / d.fRoot))

/-- Occupy a pipe until an instant. -/
def Device.occupy (d : Device) (p : Nat) (t : Time) : Device :=
  { d with pipeFree := Sparse.set (fun _ => none) (Sparse.keep (fun _ v =>
      match v with | none => false | some f => timeLT d.time f) d.pipeFree) p (some t) }

/-- N1 and N2 of a long transform of size 2^n (R138). -/
def longN1 (n : Nat) : Nat := 2 ^ ((n + 1) / 2)
def longN2 (n : Nat) : Nat := 2 ^ (n / 2)

/-- The points of sub-transform `i` of a long transform: N2 of N1 points, then N1 of N2 points (R138). -/
def subPoints (n i : Nat) : Nat := if i < longN2 n then longN1 n else longN2 n

/-- The buffer of a source holds 2^19 or 2^17 samples: how long a ready frame may wait (R165, R167). -/
def Device.maxWait (d : Device) (src n : Nat) : Int :=
  unitsUp (((((if src < 8 then 2 ^ 19 else 2 ^ 17 : Nat) - n : Nat) : ℚ)) * d.srcNs d.sNs src)

/-- A frame is skipped or dropped (R140, R167): counted, and remembered in its context's frame order. -/
def Device.loseFrame (d : Device) (f : Frame) (long : Bool) : Device :=
  let d := if long then d.flag F.XF_FLAGS_LONG_DROP Reg.XF_LONG_DROP_CNT else d.flag F.XF_FLAGS_SKIP Reg.XF_SKIP_CNT
  let d := d.inc (Reg.XF_C_SKIP f.ctx)
  { d with flight := d.flight ++ [{ f with lost := true, smps := [] }] }

/-- The work area of a context changes with a long transform (R138). UNVERIFIED (log entry 129): the spec does not say in what form, or in what part of
the area, the intermediate values lie there, so the bytes of the 32 N that a transform may use are free. -/
def Device.workUse (d : Device) (b : List Byte) : Device :=
  let r := d.draw
  (r.2.storeRun (cWork b) (bytesLE (32 * cN b) r.1)).moved 1

/-- The next sub-transform of a long transform at the head of the ready frames (R138, R165): it enters a free pipe and the frame goes behind those that
became ready meanwhile, or has entered the pipes whole; while no pipe is free it lets other frames pass. The second pass waits for the first. DEDUCED (log entry 129). -/
def Device.subReady (d : Device) (f : Frame) (fs : List Frame) : Device :=
  let l := cLog f.set.desc
  let t := if f.subs = longN2 l then f.inAt else f.ready
  match d.dispatch f.mask t with
  | none => { d with ready := fs }.loseFrame f false
  | some p =>
    if timeLT d.time p.2 then { d with ready := fs ++ [f] }
    else
      let e := p.2 + d.pipeTime (subPoints l f.subs)
      let g := { f with subs := f.subs + 1, ready := p.2, pipe := p.1, inAt := if f.subs = 0 then e else timeMax f.inAt e }
      let d := d.occupy p.1 e
      let d := if f.subs = 0 then d.workUse f.set.desc else d
      if g.subs = longN1 l + longN2 l then { d with ready := fs, flight := d.flight ++ [g] } else { d with ready := fs ++ [g] }

/-- The dispatcher takes the next ready frame; `drop` says that the memory traffic of a long transform whose first step has not finished has fallen behind
(R140). -/
def Device.frameReady (d : Device) (drop : Bool) : Device :=
  match d.ready with
  | [] => d
  | f :: fs =>
    let n := cN f.set.desc
    if cLong f.set.desc then
      if drop && decide (f.subs < longN2 (cLog f.set.desc)) then { d with ready := fs }.loseFrame f true else d.subReady f fs
    else
      let d := { d with ready := fs }
      match d.dispatch f.mask f.ready with
      | none => d.loseFrame f false
      | some p =>
        if d.maxWait (cSource f.set.desc) n < (p.2 - f.ready).toInt then d.loseFrame f false
        else
          let e := p.2 + d.pipeTime n
          let d := d.occupy p.1 e
          { d with flight := d.flight ++ [{ f with pipe := p.1, inAt := e }] }

/-! Delivery. -/

/-- The marks of a frame: those of its samples (R155). -/
def Frame.marks (f : Frame) : Nat := f.smps.foldl (fun m x => m ||| x.marks) 0

/-- Deliver a spectrum to the context's cluster ring (R171). -/
def Device.deliverCl (d : Device) (f : Frame) (bytes : List Byte) : Device :=
  let b := f.set.desc
  let x := d.ctxOf f.ctx
  let cr := d.fld (F.XF_C_STAT_CREDIT f.ctx)
  if cr = 0 then d.flag F.XF_FLAGS_CL_DROP Reg.XF_CL_DROP_CNT
  else
    let slot := x.ringD % cClCount b
    let a := cCl b * 0x80000 + cClBase b + cClSlot b * slot
    let d := if cClY b then { d with ymem := memWrite d.ymem a bytes } else { d with xmem := memWrite d.xmem a bytes }
    let d := d.bankUse (cCl b)
    let d := (d.setCtx f.ctx { x with ringD := x.ringD + 1 }).setFld (F.XF_C_STAT_CREDIT f.ctx) (cr - 1)
    (onesBelow (cClEngines b) 16).foldl (fun d i => d.notify (16 * cCl b + i) (evEntry 16 f.ctx slot f.k)) d

/-- Deliver the spectrum of a frame (R157, R170 to R172), and to the joins of its context (R557). -/
def Device.deliver (d : Device) (f : Frame) (spec : List Cx × Int) : Device :=
  let b := f.set.desc
  let x := d.ctxOf f.ctx
  if f.k % cDecim b ≠ 0 ∨ (!cClEn b && !cQEn b) then d
  else
    let bytes := spectrumRecord f.set f.ctx (d.srcStream (cSource b)) f.k f.marks x.skipped f.stamp spec.1 spec.2
    let d := d.setCtx f.ctx { x with skipped := 0 }
    let d := if cClEn b then d.deliverCl f bytes else d
    if cQEn b then (d.qOffer (cQueue b) bytes 0x04 0).joinOwn f.ctx f.k f.stamp f.marks (bytes.drop 64) else d

/-! Requests. -/

/-- A schedule request ends. -/
def Device.xfEnd (d : Device) (o : Origin) (ctl : FieldAt) (c entry : Nat) (stamp : Option Time) : Device :=
  (d.finish o ctl F.XF_SCHED_STAT_CODE c stamp).setFld F.XF_SCHED_STAT_ENTRY entry

/-- GO or LOAD (R162). -/
def Device.xfGo (d : Device) (base size : Nat) (t : Time) (o : Origin) : Device :=
  if d.fld F.XF_SCHED_STAT_STATE ≠ 0 then (d.setFld F.XF_SCHED_STAT_CODE cBUSY).complete o cBUSY none
  else
    { (d.setFld F.XF_SCHED_STAT_STATE 1).actBit o F.XF_SCHED_CTL_GO with checking := some ⟨base, size, t, o⟩ }

/-- STOP (R163): the empty schedule becomes pending. -/
def Device.xfStop (d : Device) (t : Time) (o : Origin) : Device :=
  if d.fld F.XF_SCHED_STAT_STATE ≠ 0 then (d.setFld F.XF_SCHED_STAT_CODE cBUSY).complete o cBUSY none
  else
    { ((d.setFld F.XF_SCHED_STAT_STATE 2).actBit o F.XF_SCHED_CTL_STOP).request .schedSwitch 0 t o [1] with
      pend := some ⟨{}, []⟩ }

/-- The schedule checked becomes pending (R162 step 4), or the load is refused. -/
def Device.schedChecked (d : Device) : Device :=
  match d.checking with
  | none => d
  | some l =>
    let r := d.checkSched l.base l.size l.at'
    let d := Device.moved { d with checking := none } 4
    if r.1.1 = cOK then
      let d := ((d.moved 1).setFld F.XF_SCHED_STAT_STATE 2).request .schedSwitch 0 l.at' l.origin [0]
      let d := { d with pend := some r.2 }
      (r.2.sched.entries.foldl (fun d e =>
        (d.setFld (F.XF_C_STAT_PENDING e.1) 1).setFld (F.XF_C_STAT_LONG e.1) (if cLong (d.desc e.1) then 1 else 0)) d).showStores
    else (d.setFld F.XF_SCHED_STAT_STATE 0).xfEnd l.origin F.XF_SCHED_CTL_GO r.1.1 r.1.2 none

/-- CREDIT (R171). -/
def Device.xfCredit (d : Device) (c n : Nat) : Nat × Device :=
  let cr := d.fld (F.XF_C_STAT_CREDIT c)
  let code := firstCode [
    (decide (n = 0) || (d.inRun c && cClEn (d.desc c) && decide (cClCount (d.desc c) < cr + n)), cLENGTH),
    (!d.inRun c || !cClEn (d.desc c), cNOTARMED)]
  (code, if code = cOK then d.setFld (F.XF_C_STAT_CREDIT c) (cr + n) else d)

/-! The condition of the fabric. -/

/-- Whether a pool's capacity lies below its load (R167). -/
def Device.overloaded (d : Device) : Bool :=
  let f : ℚ := d.fRoot / 8 * (if d.isSet F.CLK_STAT_HOLDOVER then 995 / 1000 else 1)
  let live := d.fld F.XF_LIVE_MASK
  let l := d.loads d.sNs d.desc d.run
  (List.range d.run.masks.length).any (fun p =>
    decide (8 * f * ((livePipes live (d.run.masks.getD p 0)).length : ℚ) < poolLoad l p))

/-- The fabric looks at its capacity again (R167). -/
def Device.recheck (d : Device) : Device :=
  let d := d.setFld F.XF_STAT_HOLDOVER (d.fld F.CLK_STAT_HOLDOVER)
  if d.overloaded && !d.isSet F.XF_STAT_DEGRADED then
    (d.setFld F.XF_STAT_DEGRADED 1).flag F.XF_FLAGS_DEGRADED Reg.XF_DEGRADED_CNT
  else d

/-- A load in MS/s, rounded up. -/
def inMs (q : ℚ) : Nat := (ceilQ (q * 1000)).toNat

/-- The registers of the running schedule (R164 and the XF registers). -/
def Device.showRun (d : Device) : Device :=
  let l := d.loads d.sNs d.desc d.run
  let live := d.fld F.XF_LIVE_MASK
  let d := ((d.wr Reg.XF_RUN_LOAD (inMs ((l.map (fun x => x.2.1)).sum))).wr Reg.XF_RUN_LONG
    (inMs ((l.map (fun x => x.2.2)).sum))).wr Reg.XF_RUN_ENTRIES d.run.entries.length
  let d := (List.range 4).foldl (fun d p =>
    (d.setFld (F.XF_POOL_LOAD_LOAD p) (inMs (poolLoad l p))).setFld (F.XF_POOL_LOAD_LIVE p)
      (livePipes live (d.run.masks.getD p 0)).length) d
  (List.range 16).foldl (fun d t =>
    match (List.range d.run.masks.length).find? (fun p => bitAt (d.run.masks.getD p 0) t) with
    | none => (d.setFld (F.XF_T_STAT_IN_POOL t) 0).setFld (F.XF_T_STAT_POOL t) 0
    | some p => (d.setFld (F.XF_T_STAT_IN_POOL t) 1).setFld (F.XF_T_STAT_POOL t) p) d

/-- The live pipes change (R166): XF_LIVE, XF_CAPACITY, XF_T_STAT.HELD and the capacity test follow. -/
def Device.setLive (d : Device) (mask : Nat) : Device :=
  let n := popCount mask 16
  let d := ((d.setFld F.XF_LIVE_MASK mask).setFld F.XF_LIVE_COUNT n).wr Reg.XF_CAPACITY (inMs (d.fRoot * (n : ℚ)))
  let d := (List.range 16).foldl (fun d t => d.setFld (F.XF_T_STAT_HELD t) (if bitAt mask t then 1 else 0)) d
  d.showRun.recheck

def execXfSchedCtlGo (s : State) : Host.Outcome State Fault Refusal :=
  s.run (fun d => d.xfGo (d.rd64 Reg.XF_SCHED_BASE_LO) (d.rdN Reg.XF_SCHED_SIZE) (d.rdTime Reg.XF_SCHED_AT_LO) .host)

def execXfSchedCtlStop (s : State) : Host.Outcome State Fault Refusal :=
  s.run (fun d => d.xfStop (d.rdTime Reg.XF_SCHED_AT_LO) .host)

/-- Engine LOAD: the block supplies base, size and instant (R162). -/
def execXfLoad (u : UCmd) (s : State) : Host.Outcome State Fault Refusal :=
  s.run (fun d => d.unitCmd 0x04 1 u fun d => d.xfGo (u.dword 0 % 2 ^ 48) (u.word 8) (BitVec.ofNat 64 (u.dword 16)) u.origin)

def execXfStop (u : UCmd) (s : State) : Host.Outcome State Fault Refusal :=
  s.run (fun d => d.unitCmd 0x04 2 u fun d => d.xfStop (BitVec.ofNat 64 (u.dword 0)) u.origin)

def execXfCredit (u : UCmd) (s : State) : Host.Outcome State Fault Refusal :=
  s.run (fun d => d.unitCmd 0x04 3 u fun d =>
    let r := d.xfCredit u.unit (u.imm % 4096)
    r.2.complete u.origin r.1 none)

def execScheduleChecked (s : State) : Host.Outcome State Fault Refusal := s.run Device.schedChecked

end Sys2Proof.Machine
end

