-- ==== Sys2Proof/Machine/Capture.lean ====
section
/-! DEFINITION. Capture buffers (R231 to R247, R249, R250): arming, storing tap samples at the factor in force, the span of a
trigger, rate reduction, freezing, and the records a capture pushes. -/

namespace Sys2Proof.Machine

def Device.cap (d : Device) (b : Nat) : Cap := Sparse.get (fun _ => {}) d.caps b
def Device.setCap (d : Device) (b : Nat) (x : Cap) : Device := { d with caps := Sparse.set (fun _ => {}) d.caps b x }

/-- The states of a capture (ACQ_B_STAT.STATE). -/
def acOff : Nat := 0
def acPending : Nat := 1
def acPre : Nat := 2
def acPost : Nat := 3
def acDrain : Nat := 4
def acDone : Nat := 5

def Device.acState (d : Device) (b : Nat) : Nat := d.fld (F.ACQ_B_STAT_STATE b)

/-- The tap of a capture as a number: 0 to 7 deframer outputs, 8 to 15 corrector outputs, 16 to 31 channelisers (R24). -/
def tapOf (tap src : Nat) : Nat := if tap = 0 then src else if tap = 1 then 8 + src else 16 + src

/-- The stream at the head of a tap. -/
def Device.tapStream (d : Device) (t : Nat) : Nat := if t < 8 then t else if t < 16 then t - 8 else d.srcStream (t - 8)

/-- The sample period of a tap in ns. -/
def Device.tapNs (d : Device) (t : Nat) : ℚ := d.srcNs d.sNs (if t < 8 then t else t - 8)

/-- The stamp of sample `n` of a tap, numbered from the reference point (R92, R131, R250). -/
def Device.tapStamp (d : Device) (t : Nat) (n : Int) : Int :=
  if t < 8 then d.sStamp t ((d.stream t).refPoint + n)
  else if t < 16 then d.cStamp (t - 8) ((d.stream (t - 8)).refPoint + n)
  else
    let z := t - 16
    let s := d.fld (F.CHN_Z_CFG_SOURCE z)
    d.zStamp s z ((d.stream s).refPoint + (n + 1) * d.zD z - 1)

/-- The first of a list of sample numbers whose stamp is at or after an instant. -/
def Device.firstOf (d : Device) (t : Nat) (at' : Time) : List Int → Int → Int
  | [], last => last
  | n :: ns, last =>
    if timeLE at' (BitVec.ofInt 64 (d.tapStamp t n)) then n else Device.firstOf d t at' ns last

/-- The first sample of a tap whose stamp is at or after an instant: the estimate from the period, corrected. -/
def Device.tapFirst (d : Device) (t : Nat) (at' : Time) : Int :=
  let s0 := d.tapStamp t 0
  let p := d.tapNs t * 65536
  if p = 0 then 0
  else
    let q : ℚ := ((nearTime s0 at' - s0 : Int) : ℚ) / p
    let e := q.num / q.den
    d.firstOf t at' [e - 2, e - 1, e, e + 1, e + 2] (e + 3)

/-! What is still to come from a tap or a context (R226). -/

/-- The earlier of two instants. -/
def timeMin (a b : Time) : Time := if timeLE a b then a else b

/-- The earliest of some instants. -/
def timeLeast : List Time → Option Time
  | [] => none
  | t :: ts => match timeLeast ts with
    | none => some t
    | some u => some (timeMin t u)

/-- The stamp of the next sample of a tap: the streams release in order, and what a sample makes downstream is examined with it. -/
def Device.tapNext (d : Device) (t : Nat) : Time :=
  let s := d.tapStream t
  let x := d.stream s
  let j := x.next - x.refPoint
  if t < 16 then BitVec.ofInt 64 (d.tapStamp t j)
  else BitVec.ofInt 64 (d.tapStamp t (j / max 1 (d.zD (t - 16) : Nat)))

/-- The stamp of the next frame that a frame sequence forms, if it forms one more. -/
def Device.seqNext (d : Device) (q : FrameSeq) : Option Time :=
  let t := match q.first with
    | some i0 => BitVec.ofInt 64 (d.tapStamp (8 + q.src) (i0 + (q.hop * q.k : Nat)))
    | none => timeMax q.start (d.tapNext (8 + q.src))
  match q.fin with
  | some f => if timeLE f t then none else some t
  | none => some t

/-- The stamp of the next frame of a context that its detectors have not examined. -/
def Device.ctxNext (d : Device) (c : Nat) : Option Time :=
  timeLeast (((d.ready ++ d.flight).filter (fun f => decide (f.ctx = c))).map (fun f => BitVec.ofInt 64 f.stamp) ++
    (d.seqs.filter (fun q => decide (q.ctx = c))).filterMap d.seqNext)

/-- Whether every frame of a context with a boundary before an instant has reached its detectors. -/
def Device.ctxDone (d : Device) (c : Nat) (b : Time) : Bool :=
  match d.ctxNext c with
  | none => true
  | some t => !timeLT t b

/-! Settings. -/

/-- The tap that ACQ_B_CFG names. -/
def cfgTap (w : Nat) : Nat := tapOf (bitsOf w 0 2) (bitsOf w 2 5)

/-- The settings in a buffer's registers: the 15 words from ACQ_B_CFG on, and the bytes of a stored sample (R231). -/
def Device.acLive (d : Device) (b : Nat) : List Nat :=
  let w := d.rdN (Reg.ACQ_B_CFG b)
  (List.range 15).map (fun i => d.rdN (Reg.ACQ_B_CFG b + 4 * i)) ++
    [if cfgTap w < 8 then (if d.fld (F.LNK_S_CFG_FORMAT (cfgTap w)) % 2 = 0 then 2 else 4) else if bitAt w 8 then 6 else 4]

/-- Word `i` of the settings a capture uses: those it was armed with (R238), the registers' while it has none. -/
def Device.acReg (d : Device) (b i : Nat) : Nat :=
  match (d.cap b).regs with
  | [] => (d.acLive b).getD i 0
  | l => l.getD i 0

/-- Two words of the settings as one value. -/
def Device.acReg64 (d : Device) (b i : Nat) : Nat := d.acReg b i + d.acReg b (i + 1) * 2 ^ 32

def Device.acStream (d : Device) (b : Nat) : Bool := bitAt (d.acReg b 0) 7
def Device.acTap (d : Device) (b : Nat) : Nat := cfgTap (d.acReg b 0)
def Device.acWide (d : Device) (b : Nat) : Bool := bitAt (d.acReg b 0) 8
def Device.acRearm (d : Device) (b : Nat) : Bool := bitAt (d.acReg b 0) 9
def Device.acRQueue (d : Device) (b : Nat) : Nat := bitsOf (d.acReg b 1) 0 12
def Device.acDQueue (d : Device) (b : Nat) : Nat := bitsOf (d.acReg b 1) 16 12
def Device.acBase (d : Device) (b : Nat) : Nat := d.acReg64 b 2
def Device.acSize (d : Device) (b : Nat) : Nat := d.acReg64 b 4
def Device.acBind (d : Device) (b : Nat) : Nat := d.acReg64 b 6
def Device.acPreN (d : Device) (b : Nat) : Nat := d.acReg64 b 8
def Device.acPostN (d : Device) (b : Nat) : Nat := d.acReg64 b 10
def Device.acChunkN (d : Device) (b : Nat) : Nat := d.acReg b 14
def Device.acBytes (d : Device) (b : Nat) : Nat := d.acReg b 15

/-- C of R231. -/
def Device.acCap (d : Device) (b : Nat) : Nat := d.acSize b / d.acBytes b

/-- The factor limit of MAXF, as a power of two (R240). -/
def Device.acMax (d : Device) (b : Nat) : Nat :=
  match bitsOf (d.acReg b 0) 10 2 with
  | 0 => 3
  | m => m - 1

/-! Arming and stopping. -/

/-- Whether another capture that is not OFF has an overlapping ring (R232). -/
def Device.acOverlap (d : Device) (b : Nat) : Bool :=
  (List.range 64).any (fun o => decide (o ≠ b) && decide (d.acState o ≠ acOff) &&
    decide (d.acBase b < d.acBase o + d.acSize o) && decide (d.acBase o < d.acBase b + d.acSize b))

/-- Whether a capture has a boundary-bound request of its own pending. -/
def Device.acPendingReq (d : Device) (b : Nat) : Bool := d.hasReq [.acqArm, .acqStop] b

/-- The check of ARM, of the settings in the buffer's registers (R232). -/
def Device.acArmCode (d : Device) (b : Nat) : Nat :=
  let d := d.setCap b { d.cap b with regs := [] }
  let tap := d.fld (F.ACQ_B_CFG_TAP b)
  let src := d.fld (F.ACQ_B_CFG_SOURCE b)
  let bad := decide (tap = 3) || decide ((if tap = 2 then 15 else 7) < src)
  let st := d.acState b
  let c := d.acCap b
  let pre := d.acPreN b
  let post := d.acPostN b
  firstCode [
    (decide (d.acSize b = 0) || pastEnd (d.acBase b) (d.acSize b) || decide (c < pre) ||
      (!d.acStream b && (decide (post = 0) || decide (c < post) || decide (c < pre + post))) || decide (d.acBind b = 0) ||
      (d.acStream b && decide (64 * d.acChunkN b < d.acBytes b)) ||
      (!bad && !d.sTimed (d.tapStream (d.acTap b))), cLENGTH),
    (d.acOverlap b, cOVERLAP),
    (decide (d.acBase b % 4096 ≠ 0) || decide (d.acSize b % 4096 ≠ 0), cALIGN),
    (aboveEnd (d.acBase b), cREGION),
    (!(decide (st = acOff) || decide (st = acDone)) || d.isSet (F.ACQ_B_STAT_FROZEN b) || d.acPendingReq b, cBUSY),
    (bad, cUNSUP)]

/-- The end of a capture request. -/
def Device.acFinish (d : Device) (b : Nat) (o : Origin) (ctl : FieldAt) (c : Nat) (stamp : Option Time) : Device :=
  d.finish o ctl (F.ACQ_B_STAT_CODE b) c stamp

/-- ARM (R232). -/
def Device.acArm (d : Device) (b : Nat) (o : Origin) : Device :=
  let c := d.acArmCode b
  if c = cOK then
    let d := d.setCap b { d.cap b with regs := d.acLive b }
    ((d.request .acqArm b (d.rdTime (Reg.ACQ_B_AT_LO b)) o [d.acState b]).actBit o (F.ACQ_B_CTL_ARM b)).setFld
      (F.ACQ_B_STAT_STATE b) acPending
  else if d.hasReq [.acqArm] b then (d.setFld (F.ACQ_B_STAT_CODE b) c).complete o c none
  else d.acFinish b o (F.ACQ_B_CTL_ARM b) c none

/-- STOP (R237). -/
def Device.acStop (d : Device) (b : Nat) (t : Time) (o : Origin) : Device :=
  let st := d.acState b
  let c := firstCode [(d.hasReq [.acqStop] b, cBUSY),
    (decide (st = acOff) || decide (st = acPending) || decide (st = acDone), cNOTARMED)]
  if c = cOK then (d.request .acqStop b t o []).actBit o (F.ACQ_B_CTL_STOP b)
  else if d.hasReq [.acqStop] b then (d.setFld (F.ACQ_B_STAT_CODE b) c).complete o c none
  else d.acFinish b o (F.ACQ_B_CTL_STOP b) c none

/-- Cancel a pending ARM: its requester gets NOT_ARMED. -/
def Device.acCancel (d : Device) (b : Nat) : Device :=
  match (d.reqs .acqArm).find? (fun r => decide (r.obj = b)) with
  | none => d
  | some r => ((d.dropReq .acqArm b).setFld (F.ACQ_B_CTL_ARM b) 0).complete r.origin cNOTARMED none

/-- DISARM (R239). -/
def Device.acDisarm (d : Device) (b : Nat) (o : Origin) : Device :=
  let st := d.acState b
  if st = acPre ∨ st = acPost ∨ st = acDrain then d.acFinish b o (F.ACQ_B_CTL_DISARM b) cBUSY none
  else
    let d := d.acCancel b
    (((d.setCap b { d.cap b with regs := [] }).setFld (F.ACQ_B_STAT_STATE b) acOff).setFld (F.ACQ_B_STAT_FROZEN b) 0).acFinish b o
      (F.ACQ_B_CTL_DISARM b) cOK none

/-- A capture becomes armed at a boundary (R233, R238). -/
def Device.acArmAt (d : Device) (b : Nat) (t : Time) : Device :=
  let x := d.cap b
  let d := d.setCap b { regs := if x.regs = [] then d.acLive b else x.regs, b := t, recs := x.recs, staging := x.staging }
  (d.wr (Reg.ACQ_B_STAT b) (setBits (setBits (setBits (setBits (d.rdN (Reg.ACQ_B_STAT b)) 0 3 acPre) 3 3 0) 16 7 0) 8 8 cOK)).wr64
    (Reg.ACQ_B_WPOS_LO b) 0

/-! Storing (R233, R241, R242). -/

/-- The coefficients of (1 + z + ... + z^(f-1))^4. -/
def boxPoly (f : Nat) : Nat → List Int
  | 0 => [1]
  | k + 1 =>
    let p := boxPoly f k
    (List.range (p.length + f - 1)).map (fun i => ((List.range f).map (fun j => if j ≤ i then p.getD (i - j) 0 else 0)).sum)

/-- The decimator's sum over the newest samples of a tap (R241). -/
def cicSum (f : Nat) (h : List Smp) : Int × Int :=
  let l := List.zip (boxPoly f 4) h
  ((l.map (fun x => x.1 * x.2.re)).sum, (l.map (fun x => x.1 * x.2.im)).sum)

/-- The stored form of a sample (R231, R241). -/
def Device.acForm (d : Device) (b f : Nat) (v : Int × Int) : List Byte :=
  let t := d.acTap b
  let g : Int := f ^ 4
  if t < 8 then
    let re := bytesLE 2 (wrap 16 (satTo 16 (roundHalfEven v.1 g)))
    if d.acBytes b = 2 then re else re ++ bytesLE 2 (wrap 16 (satTo 16 (roundHalfEven v.2 g)))
  else if d.acWide b then
    bytesLE 3 (wrap 24 (roundHalfEven v.1 g)) ++ bytesLE 3 (wrap 24 (roundHalfEven v.2 g))
  else
    bytesLE 2 (wrap 16 (satTo 16 (roundHalfEven v.1 (g * 4)))) ++ bytesLE 2 (wrap 16 (satTo 16 (roundHalfEven v.2 (g * 4))))

/-- The factor in force for a sample: that before the first change whose boundary it precedes (R242). -/
def Device.acFactor (d : Device) (b : Nat) (t : Time) : Nat :=
  match ((d.cap b).changes.filter (fun c => timeLT t c.1)).getLast? with
  | none => 2 ^ d.fld (F.ACQ_B_STAT_FACTOR b)
  | some c => c.2

/-- Whether a stored sample belongs to the span (R234, R242). -/
def Cap.spans (x : Cap) (o : CapOut) : Bool :=
  match x.jt with
  | none => false
  | some jt => decide (jt - x.pre ≤ o.j) && (match x.lastJ with | none => true | some l => decide (o.j ≤ l))

/-- The stored samples of the span that the ring still holds, oldest first. -/
def Cap.span (x : Cap) : List CapOut := (x.outs.filter x.spans).reverse

/-- The factor of a run of stored samples. -/
def outF (l : List CapOut) : Nat := match l.head? with | none => 1 | some o => o.f

/-- Runs of equal factor in a list of stored samples (R242). -/
def runsOf : List CapOut → List (List CapOut)
  | [] => []
  | o :: os =>
    match runsOf os with
    | [] => [[o]]
    | r :: rs => if (r.head?.map (fun p => p.f)) = some o.f then (o :: r) :: rs else [o] :: r :: rs

/-- The marks of stored samples, with REDUCED (R244). -/
def outMarks (l : List CapOut) : Nat :=
  l.foldl (fun m o => m ||| o.marks ||| (if o.f = 1 then 0 else 1)) 0

/-- Stored samples of the span, from its start (R240). -/
def Cap.spanN (x : Cap) : Nat := x.goneN + x.span.length

/-- Segments of the span, from its start: one for each run of equal factor (R242). -/
def Cap.segs (x : Cap) : Nat :=
  let rs := runsOf x.span
  x.goneSegs + rs.length - (if 0 < x.goneSegs ∧ (rs.head?.map outF) = some x.goneF then 1 else 0)

/-- A sample is stored; the oldest leaves the ring once it holds `c` samples, counted where it is of the span. -/
def Cap.put (x : Cap) (o : CapOut) (c : Nat) : Cap :=
  let gone := (o :: x.outs).drop c
  (gone.filter x.spans).foldl (fun x g =>
    { x with goneN := x.goneN + 1, goneSegs := if 0 < x.goneSegs ∧ x.goneF = g.f then x.goneSegs else x.goneSegs + 1,
             goneF := g.f, goneMarks := x.goneMarks ||| outMarks [g] }) { x with outs := (o :: x.outs).take c }

/-- Whether a list of stored samples holds the trigger sample's place: the first output at or after it (R245). -/
def Cap.isTrig (x : Cap) (l : List CapOut) : Bool :=
  match x.jt with
  | none => false
  | some jt => match x.span.find? (fun o => decide (jt ≤ o.j)) with
    | none => false
    | some o => decide (o ∈ l)

/-- FIRST_SOURCE of a list of stored samples. -/
def Cap.firstSource (x : Cap) (l : List CapOut) : Nat :=
  match l.head?, x.jt with
  | some o, some jt => wrap 64 (o.j - jt)
  | _, _ => 0

def outStamp (l : List CapOut) : Int := match l.head? with | none => 0 | some o => o.stamp
def outOff (l : List CapOut) : Nat := match l.head? with | none => 0 | some o => o.off

/-- A CAPTURE_SEG record (R245). -/
def Device.segRecord (d : Device) (b i : Nat) (l : List CapOut) (trunc : Bool) : List Byte :=
  let x := d.cap b
  recHead 0x14 (outMarks l ||| (if trunc then 0x20 else 0)) 64 (ctxStream 0 (d.tapStream (d.acTap b))) (outStamp l) ++
    bytesLE 8 (outOff l) ++ bytesLE 8 l.length ++ bytesLE 8 (x.firstSource l) ++ bytesLE 1 (outF l) ++ bytesLE 1 (d.acBytes b) ++
    bytesLE 2 i ++ bytesLE 1 b ++ bytesLE 1 (if x.isTrig l then 1 else 0) ++ bytesLE 2 0

/-- The stored bytes of a sample of a capture. -/
def Device.acStored (d : Device) (b : Nat) (o : CapOut) : List Byte := memBytes d.mem (d.acBase b + o.off) (d.acBytes b)

/-- A CAPTURE_DATA record (R246). -/
def Device.dataRecord (d : Device) (b : Nat) (l : List CapOut) (trunc : Bool) : List Byte :=
  let x := d.cap b
  let poison := l.any (fun o => d.poisoned (d.acBase b + o.off) (d.acBytes b))
  recHead 0x15 (outMarks l ||| (if trunc then 0x20 else 0) ||| (if poison then 0x4000 else 0)) (64 + l.length * d.acBytes b)
      (ctxStream 0 (d.tapStream (d.acTap b))) (outStamp l) ++
    bytesLE 8 (x.firstSource l) ++ bytesLE 4 l.length ++ bytesLE 1 (outF l) ++ bytesLE 1 (d.acBytes b) ++ bytesLE 1 b ++
    bytesLE 1 (if x.isTrig l then 1 else 0) ++ bytesLE 8 0 ++ bytesLE 8 0 ++ l.flatMap (d.acStored b)

/-- The stamp of the last sample of the span as stored; of the last stored sample for a capture that overran without a span (R243, R247). -/
def Cap.lastStamp (x : Cap) : Int :=
  match x.span.getLast? with
  | some o => o.stamp
  | none => if x.cause = 2 then outStamp x.outs else 0

/-- A CAPTURE_END record (R247). -/
def Device.endRecord (d : Device) (b trig : Nat) : List Byte :=
  let x := d.cap b
  let t := if trig = 0xFF then x.b else x.trig.getD 0
  recHead 0x16 (x.goneMarks ||| outMarks x.span ||| (if x.cause = 2 then 0x20 else 0)) 64 (ctxStream 0 (d.tapStream (d.acTap b)))
      t.toNat ++
    bytesLE 8 x.coinc ++ bytesLE 8 x.pre ++ bytesLE 8 (wrap 64 x.lastStamp) ++ bytesLE 1 trig ++ bytesLE 1 x.cause ++
    bytesLE 2 x.segs ++ bytesLE 1 b ++ bytesLE 1 0 ++ bytesLE 2 (min x.ignored 65535)

/-- TRIGGER of the END record: the unit of R229, or 0xFF for a capture ended by a violation or without a trigger. -/
def Device.acTrigger (d : Device) (b : Nat) : Nat :=
  if d.isSet (F.ACQ_B_STAT_TRIGGERED b) then d.fld (F.ACQ_B_STAT_TRIGGER b) else 0xFF

/-- A record waits for its queue (R244). -/
def Device.acQueueRec (d : Device) (b q : Nat) (bytes : List Byte) : Device :=
  let x := d.cap b
  d.setCap b { x with recs := x.recs ++ [(q, bytes)] }

/-- The last of the DATA records that wait carries TRUNCATED (R243). -/
def truncLast (l : List (Nat × List Byte)) : List (Nat × List Byte) :=
  match l.getLast? with
  | some (q, bs) => if (bs.getD 0 0).toNat = 0x15 then l.dropLast ++ [(q, bs.set 1 (bs.getD 1 0 ||| 0x20))] else l
  | none => l

/-- Cut DATA records from the span in STREAM mode (R244): a full chunk, or what is left of a run that has ended; `all` when
the span has ended. -/
def Device.acChunk (d : Device) (b : Nat) (all : Bool) : Nat → Device
  | 0 => d
  | fuel + 1 =>
    let x := d.cap b
    let left := x.span.filter (fun o => decide (x.cutJ ≤ o.j))
    let size := 64 * d.acChunkN b / d.acBytes b
    match runsOf left with
    | [] => if all && decide (x.cause = 2) then d.setCap b { x with recs := truncLast x.recs } else d
    | r :: rs =>
      let ended := all || !rs.isEmpty
      if size = 0 ∨ (r.length < size ∧ !ended) then d
      else
        let l := r.take size
        let d := (d.acQueueRec b (d.acDQueue b) (d.dataRecord b l false)).moved 0
        Device.acChunk (d.setCap b { d.cap b with cutJ := (l.getLast?.map (fun o => o.j + 1)).getD x.cutJ }) b all fuel

/-- Bytes stored in the ring but not pushed, in STREAM mode (R240). -/
def Device.acUnpushed (d : Device) (b : Nat) : Nat :=
  if d.acStream b then ((d.cap b).spanN - (d.cap b).sentN) * d.acBytes b else 0

/-- A capture is frozen (R249). -/
def Device.acFreeze (d : Device) (b : Nat) : Device :=
  (((d.dropReq .acqArm b).setFld (F.ACQ_B_STAT_FROZEN b) 1).setFld F.ACQ_FLAGS_FROZEN 1).inc Reg.ACQ_FROZEN_CNT

/-- A capture is DONE: it freezes if that is due, otherwise re-arms if it shall (R238, R249). -/
def Device.acDoneNow (d : Device) (b : Nat) : Device :=
  let d := d.setFld (F.ACQ_B_STAT_STATE b) acDone
  if (d.cap b).freeze then (d.setCap b { d.cap b with freeze := false }).acFreeze b
  else if d.acRearm b then d.request .acqArm b d.time .device [acDone]
  else d

/-- Put the SEG records of a span in its queue. -/
def Device.segRecords (d : Device) (b q : Nat) (trunc : Bool) : Nat → List (List CapOut) → Device
  | _, [] => d
  | i, l :: ls => Device.segRecords (d.acQueueRec b q (d.segRecord b i l (trunc && ls.isEmpty))) b q trunc (i + 1) ls

/-- The span has ended (R236). -/
def Device.acSpanDone (d : Device) (b : Nat) : Device :=
  let x := d.cap b
  let rq := d.acRQueue b
  if d.acStream b then
    let d := d.acChunk b true (x.span.length + 1)
    (d.acQueueRec b rq []).setFld (F.ACQ_B_STAT_STATE b) acDrain
  else
    let d := d.segRecords b rq (decide (x.cause = 2)) 0 (runsOf x.span)
    (d.acQueueRec b rq (d.endRecord b (d.acTrigger b))).acDoneNow b

/-- The capture overruns and ends with its last stored sample (R243). -/
def Device.acOverrun (d : Device) (b : Nat) : Device :=
  let x := d.cap b
  let last : Option Int := x.outs.head?.map (fun o => o.j)
  let jt := match x.jt with | some j => some j | none => last.map (fun j => j + 1)
  let d := d.setCap b { x with lastJ := last, jt := jt, cause := 2 }
  (d.flag F.ACQ_FLAGS_TRUNCATED Reg.ACQ_TRUNC_CNT).acSpanDone b

/-- A tap sample reaches an armed capture. -/
def Device.acTake (d : Device) (b t : Nat) (n stamp : Int) (smp : Smp) : Device :=
  let x := d.cap b
  let st := d.acState b
  let at' := BitVec.ofInt 64 stamp
  if d.acTap b ≠ t ∨ !(decide (st = acPre) || decide (st = acPost)) ∨ timeLT at' x.b then d
  else
    let j : Int := (x.tape.length : Nat)
    let f := d.acFactor b at'
    let x := { x with tape := at' :: x.tape, raw := n, changes := x.changes.filter (fun c => timeLT at' c.1) }
    let x := match x.stopAt with
      | none => x
      | some s => if timeLE s at' then
          { x with stopAt := none, cause := 1, lastJ := some (match x.lastJ with | none => j - 1 | some l => min l (j - 1)) } else x
    let past : Bool := match x.lastJ with | none => false | some l => decide (l < j)
    let d := d.setCap b x
    if past || decide (n % (f : Int) ≠ (f : Int) - 1) then d
    else
      let h := Sparse.get (fun _ => []) d.tapHist t
      let off := d.rd64 (Reg.ACQ_B_WPOS_LO b)
      let sz := d.acBytes b
      let dt := d.tapNs t * 65536 * (2 * (f - 1) : Nat)
      let o : CapOut := ⟨j, stamp - roundHalfEven dt.num dt.den, f, off,
        (h.take (4 * (f - 1) + 1)).foldl (fun m y => m ||| y.marks) smp.marks⟩
      let y := x.put o (d.acCap b)
      if 65535 < y.segs then d.acOverrun b else
      let d := (d.storeRun (d.acBase b + off) (d.acForm b f (cicSum f h))).moved 0
      let d := d.wr64 (Reg.ACQ_B_WPOS_LO b) (if d.acCap b * sz ≤ off + sz then 0 else off + sz)
      let d := d.setCap b y
      let d := if d.acStream b && decide (st = acPost) then d.acChunk b false (x.outs.length + 1) else d
      if d.acStream b && decide (d.fld (F.ACQ_B_STAT_FACTOR b) = d.acMax b) && decide (d.acCap b * sz ≤ d.acUnpushed b) then
        d.acOverrun b
      else d

/-- A sample of a tap reaches the capture writer (R24). -/
def Device.acTakeAll (d : Device) (t : Nat) (n stamp : Int) (smp : Smp) : Device :=
  let d := { d with tapHist := Sparse.set (fun _ => []) d.tapHist t ((smp :: Sparse.get (fun _ => []) d.tapHist t).take 29) }
  (List.range 64).foldl (fun d b => d.acTake b t n stamp smp) d

/-! Triggering. -/

/-- The first full-rate tap sample at or after an instant (R234), numbered from the first at or after the arm boundary: among those examined, or by its place
after them at the tap. -/
def Device.acFirst (d : Device) (b : Nat) (t : Time) : Int :=
  let x := d.cap b
  match x.tape.reverse.findIdx? (fun s => timeLE t s) with
  | some j => (j : Nat)
  | none =>
    let next := if x.tape = [] then d.tapFirst (d.acTap b) x.b else x.raw + 1
    (x.tape.length : Nat) + max 0 (d.tapFirst (d.acTap b) t - next)

/-- The span of a trigger time (R234). -/
def Device.acSpanFrom (d : Device) (b : Nat) (t : Time) : Device :=
  let x := d.cap b
  let jt := d.acFirst b t
  let pre := min (d.acPreN b) jt.toNat
  d.setCap b { x with trig := some t, jt := some jt, pre := pre,
                      lastJ := if d.acStream b && decide (d.acPostN b = 0) then none else some (jt + d.acPostN b - 1) }

/-- A group that would trigger a capture is ignored (R235). -/
def Device.acIgnore (d : Device) (b : Nat) : Device :=
  let d := (d.inc (Reg.ACQ_B_IGNORED_CNT b)).flag F.ACQ_FLAGS_IGNORED Reg.ACQ_IGNORED_CNT
  let st := d.acState b
  if st = acPost ∨ st = acDrain then d.setCap b { d.cap b with ignored := (d.cap b).ignored + 1 } else d

/-- A group of firings reaches a capture that binds one of its units (R229, R233 to R235). -/
def Device.acTrig (d : Device) (b unit mask : Nat) (t : Time) : Device :=
  let st := d.acState b
  if st = acPre then
    if timeLT t (d.cap b).b then d.acIgnore b
    else
      let d := d.acSpanFrom b t
      let d := d.setCap b { d.cap b with coinc := mask }
      let d := (d.wrTime (Reg.ACQ_B_TRIG_LO b) t).wr (Reg.ACQ_B_STAT b)
        (setBits (setBits (setBits (d.rdN (Reg.ACQ_B_STAT b)) 0 3 acPost) 16 6 unit) 22 1 1)
      if 65535 < (d.cap b).segs then d.acOverrun b
      else if d.acStream b then d.acChunk b false ((d.cap b).outs.length + 1) else d
  else if st = acPost ∨ st = acDrain ∨ st = acDone then d.acIgnore b
  else d

/-- A violating mask-test record acts on its capture (R249): whether it changed the capture. -/
def Device.acViolate (d : Device) (b : Nat) (t : Time) : Bool × Device :=
  let st := d.acState b
  let x := d.cap b
  let unb := d.acStream b && decide (d.acPostN b = 0)
  if st = acPre then
    let d := d.acSpanFrom b t
    let y := d.cap b
    let d := d.setCap b { y with cause := 3, freeze := true,
                                 lastJ := if unb then y.jt.map (fun j => j - 1) else y.lastJ }
    (true, (d.wrTime (Reg.ACQ_B_TRIG_LO b) t).setFld (F.ACQ_B_STAT_STATE b) acPost)
  else if st = acPost ∨ st = acDrain then
    if x.freeze then (false, d)
    else
      let cut := unb && x.lastJ.isNone
      let last := if cut then some (d.acFirst b t - 1) else x.lastJ
      (true, d.setCap b { x with freeze := true, cause := if cut then 3 else x.cause, lastJ := last })
  else if st = acDone ∧ !d.isSet (F.ACQ_B_STAT_FROZEN b) then (true, d.acFreeze b)
  else (false, d)

/-- STOP takes effect at a boundary (R237). -/
def Device.acStopAt (d : Device) (b : Nat) (t : Time) : Device :=
  let st := d.acState b
  if st = acPre then
    let d := d.setCap b { d.cap b with cause := 1, outs := [], trig := none, jt := none }
    let d := (d.acQueueRec b (d.acRQueue b) (d.endRecord b 0xFF)).setFld (F.ACQ_B_STAT_STATE b) acOff
    d.setCap b { d.cap b with regs := [] }
  else if st = acPost then d.setCap b { d.cap b with stopAt := some t }
  else d

/-! Rate reduction (R240). -/

/-- The factor of a capture changes by a step at a boundary. -/
def Device.acStep (d : Device) (b : Nat) (t : Time) (up : Bool) : Device :=
  let f := d.fld (F.ACQ_B_STAT_FACTOR b)
  let d := d.setCap b { d.cap b with changes := (t, 2 ^ f) :: (d.cap b).changes, lowSince := none }
  if up then
    ((d.setFld (F.ACQ_B_STAT_FACTOR b) (f + 1)).inc (Reg.ACQ_B_REDUCE_CNT b)).flag F.ACQ_FLAGS_REDUCED Reg.ACQ_REDUCE_CNT
  else d.setFld (F.ACQ_B_STAT_FACTOR b) (f - 1)

/-- The capture writer measures a capture's demand at a boundary, with the bytes in its staging buffer, and steps its factor
(R240, R243). -/
def Device.acDemand (d : Device) (b : Nat) (t : Time) (staging : Nat) : Device :=
  let st := d.acState b
  if !(decide (st = acPre) || decide (st = acPost)) then d
  else
    let ring := d.acCap b * d.acBytes b
    let un := d.acUnpushed b
    let f := d.fld (F.ACQ_B_STAT_FACTOR b)
    let low := decide (staging < 16384) && (!d.acStream b || decide (un * 4 < ring))
    let x := d.cap b
    let due := (d.reqs .acqFactor).any (fun r => decide (r.obj = b) && r.due t)
    let d := d.setCap b { x with staging := staging, lowSince := if low then x.lowSince <|> some t else none }
    if 65536 ≤ staging ∧ d.acMax b ≤ f then d.acOverrun b
    else if (49152 < staging ∨ (d.acStream b ∧ ring * 3 < un * 4)) ∧ f < d.acMax b then
      (d.dropReq .acqFactor b).acStep b t true
    else if due then (if 0 < f ∧ low then (d.dropReq .acqFactor b).acStep b t false else d.dropReq .acqFactor b)
    else d

/-! Commands. -/

def execAcqBCtlArm (b : Nat) (s : State) : Host.Outcome State Fault Refusal :=
  s.run (fun d => if b < 64 then d.acArm b .host else d)

def execAcqBCtlStop (b : Nat) (s : State) : Host.Outcome State Fault Refusal :=
  s.run (fun d => if b < 64 then d.acStop b (d.rdTime (Reg.ACQ_B_AT_LO b)) .host else d)

def execAcqBCtlDisarm (b : Nat) (s : State) : Host.Outcome State Fault Refusal :=
  s.run (fun d => if b < 64 then d.acDisarm b .host else d)

/-- Engine ARM writes ACQ_B_CFG to ACQ_B_CHUNK under R600: a buffer that is neither OFF nor DONE takes none of them. -/
def execAcqArm (u : UCmd) (s : State) : Host.Outcome State Fault Refusal :=
  s.run (fun d => d.unitCmd 0x08 1 u fun d =>
    let b := u.unit
    if d.acState b = acOff ∨ d.acState b = acDone then
      (d.wrBlock u ((List.range 15).map (fun i => (Reg.ACQ_B_CFG b + 4 * i, 4 * i)))).acArm b u.origin
    else d.complete u.origin cBUSY none)

def execAcqStop (u : UCmd) (s : State) : Host.Outcome State Fault Refusal :=
  s.run (fun d => d.unitCmd 0x08 2 u fun d => d.acStop u.unit (BitVec.ofNat 64 (u.dword 0)) u.origin)

def execAcqDisarm (u : UCmd) (s : State) : Host.Outcome State Fault Refusal :=
  s.run (fun d => d.unitCmd 0x08 3 u fun d => d.acDisarm u.unit u.origin)

/-- Staging has stayed low for ACQ_RETURN_HOLD: a lowering of the factor is requested (R240). -/
def execReturnHoldExpire (b : Nat) (s : State) : Host.Outcome State Fault Refusal :=
  s.run (fun d =>
    match (d.cap b).lowSince with
    | none => d
    | some t =>
      if b < 64 ∧ timeLE (t + nsTime (d.rdN Reg.ACQ_RETURN_HOLD)) d.time ∧ 0 < d.fld (F.ACQ_B_STAT_FACTOR b) ∧
          !d.hasReq [.acqFactor] b then
        d.request .acqFactor b d.time .device []
      else d)

/-- The last sample of the span has been stored (R236). -/
def execCaptureSpanEnd (b : Nat) (s : State) : Host.Outcome State Fault Refusal :=
  s.run (fun d =>
    let x := d.cap b
    match x.lastJ with
    | some l => if b < 64 ∧ d.acState b = acPost ∧ l < (x.tape.length : Nat) then d.acSpanDone b else d
    | none => d)

/-- A waiting capture record is pushed when its queue has space (R244). -/
def execCaptureRecordPush (b : Nat) (s : State) : Host.Outcome State Fault Refusal :=
  s.run (fun d =>
    let x := d.cap b
    match x.recs with
    | [] => d
    | r :: rs =>
      let bytes := if r.2 = [] then d.endRecord b (d.acTrigger b) else r.2
      if d.qRoom r.1 (slotsOf bytes.length) then
        let isData := decide ((bytes.getD 0 0).toNat = 0x15)
        let d := d.qAccept r.1 bytes (slotsOf bytes.length) 0x08 b
        let n := if isData then ofBytesLE ((bytes.drop 40).take 4) else 0
        let d := d.setCap b { x with recs := rs, sentN := x.sentN + n }
        if rs.isEmpty && decide (d.acState b = acDrain) then d.acDoneNow b else d
      else d)

end Sys2Proof.Machine
end

