-- ==== Sys2Proof/Machine/Triggers.lean ====
section
/-! DEFINITION. Trigger units (R204 to R223): levels and masks of frames, the run and hold counts of frame and LEVEL units,
EXTERNAL, TIMER, SOFTWARE and SEQUENCE units, arming, hold-off, and the coincidence groups that the collector forms (R227,
R228, R230). -/

namespace Sys2Proof.Machine

/-! The armings of unit `n` are held by key: `n` itself is the present one; `n` plus a multiple of 64 are armings that have ended and still examine what
precedes their DISARM boundary (R218). -/

def Device.tunit (d : Device) (k : Nat) : TUnit := Sparse.get (fun _ => {}) d.units k
def Device.setTunit (d : Device) (k : Nat) (x : TUnit) : Device := { d with units := Sparse.set (fun _ => {}) d.units k x }

/-- The armings of a unit. -/
def Device.tKeys (d : Device) (n : Nat) : List Nat := n :: (d.units.map (fun kv => kv.1)).filter (fun k => decide (k ≠ n) && decide (k % 64 = n))

/-- The armings of all units. -/
def Device.tAll (d : Device) : List Nat := (List.range 64).flatMap d.tKeys

/-- The settings in the registers of a unit: TRG_T_CFG, PARAM0 to PARAM3, HOLDOFF and QUEUE. -/
def Device.tRegs (d : Device) (n : Nat) : List Nat := (List.range 7).map (fun i => d.rdN (Reg.TRG_T_CFG n + 4 * i))

/-- The settings of an arming that apply at an instant (R221). -/
def Device.tSet (d : Device) (k : Nat) (t : Time) : List Nat :=
  match (d.tunit k).olds.find? (fun o => timeLT t o.1) with
  | some o => o.2
  | none => d.tRegs (k % 64)

/-- The settings of an arming at its end, or now. -/
def Device.tNow (d : Device) (k : Nat) : List Nat :=
  match (d.tunit k).olds.getLast? with
  | some o => if 64 ≤ k then o.2 else d.tRegs k
  | none => d.tRegs (k % 64)

def sKind (s : List Nat) : Nat := bitsOf (s.getD 0 0) 0 4
def sQuiet (s : List Nat) : Bool := bitAt (s.getD 0 0) 4
def sRec (s : List Nat) : Bool := bitAt (s.getD 0 0) 5
def sDir (s : List Nat) : Bool := bitAt (s.getD 0 0) 6
def sSteps (s : List Nat) : Nat := bitsOf (s.getD 0 0) 8 3
def sParam (s : List Nat) (i : Nat) : Nat := s.getD (i + 1) 0

/-- The step units of a sequence (R222). -/
def sStep (s : List Nat) (k : Nat) : Nat := bitsOf (sParam s 0) (8 * k) 6

def Device.tState (d : Device) (n : Nat) : Nat := d.fld (F.TRG_T_STAT_STATE n)

/-- Whether a unit is armed: READY or HOLD (R218). -/
def Device.tArmed (d : Device) (n : Nat) : Bool := decide (2 ≤ d.tState n)

/-- Whether an arming examines what is stamped `t`: from its arm boundary on, and before its DISARM boundary where that has come. -/
def Device.tTakes (d : Device) (k : Nat) (t : Time) : Bool :=
  let x := d.tunit k
  (x.begun || timeLE x.armB t) && (if k < 64 then d.tArmed k else match x.fin with | none => false | some f => timeLT t f)

/-- TRG_T_STAT shows a unit's state and count. -/
def Device.tShow (d : Device) (n : Nat) : Device :=
  let x := d.tunit n
  if n < 64 ∧ d.tArmed n then
    (d.setFld (F.TRG_T_STAT_STATE n) (if x.hold then 3 else 2)).setFld (F.TRG_T_STAT_RUN n) (min x.run 65535)
  else d

/-- An arming examines what is stamped `t`: overlay boundaries that it has reached restart its run, hold and prescale counts (R221), and a hold-off that has
passed is over. -/
def Device.tRestart (d : Device) (n : Nat) (t : Time) : Device :=
  let x := d.tunit n
  let due := x.restarts.any (fun b => timeLE b t)
  d.setTunit n { x with begun := true, run := if due then 0 else x.run, restarts := x.restarts.filter (fun b => !timeLE b t),
                        quietTo := x.quietTo.bind (fun q => if timeLT t q then some q else none) }

/-! Firing. -/

/-- A firing goes to the sequences that its unit steps (R222, R223). -/
def Device.tFeed (d : Device) (n : Nat) (t : Time) : Device :=
  d.tAll.foldl (fun d q =>
    let s := d.tSet q t
    if sKind s = 6 ∧ d.tTakes q t then
      (List.range (sSteps s)).foldl (fun d k =>
        if sStep s k = n then
          let x := d.tunit q
          d.setTunit q { x with inbox := x.inbox ++ [(t, k)] }
        else d) d
    else d) d

/-- A unit fires with a trigger time (R205, R219, R220), in one of its armings; its hold-off outlives them. -/
def Device.fire (d : Device) (k : Nat) (t : Time) (cs marks index viol : Nat) : Device :=
  let n := k % 64
  let x := d.tunit n
  let s := d.tSet k t
  let held := match x.quietTo with | none => false | some q => timeLT t q
  if held then d.flag F.TRG_FLAGS_HOLDOFF Reg.TRG_HOLDOFF_CNT
  else
    let ho := s.getD 5 0
    let d := d.setTunit n { x with quietTo := if ho = 0 then x.quietTo else some (t + nsTime ho) }
    let d := (d.wrTime (Reg.TRG_T_LAST_LO n) t).tFeed n t
    if sQuiet s then d.inc (Reg.TRG_T_FIRE_CNT n)
    else { d with firings := d.firings ++ [⟨n, t, cs, marks, index, viol, s⟩] }

/-! Levels of a frame (R188, R189, R208 to R210). -/

/-- The level of a POWER value in units of 2^-40 dB; none for minus infinity. -/
def levelOf (p : Nat) : Option Int :=
  let r := f32.ratio p
  if r.1 = 0 then none else some (dbOf r.1.toNat r.2)

/-- A level in dB. -/
def levelQ (l : Int) : ℚ := (l : ℚ) / ((2 ^ 40 : Nat) : ℚ)

/-- The largest of some levels. -/
def maxLevel : List (Option Int) → Option Int
  | [] => none
  | a :: as => match a, maxLevel as with
    | none, b => b
    | a, none => a
    | some x, some y => some (max x y)

/-- The level of a column of a density entry (R188), from the levels of bin positions. -/
def colLevel (e : List Byte) (lv : Nat → Option Int) (c : Nat) : Option ℚ :=
  let cpb := deCpb e
  if cpb ≤ 1 then
    (maxLevel ((List.range (deBpc e)).map (fun i => lv (deFirst e + c * deBpc e + i)))).map levelQ
  else
    let i := c / cpb
    let u := c % cpb
    let last := decide ((deCols e) / cpb ≤ i + 1)
    match lv (deFirst e + i), lv (deFirst e + (if last then i else i + 1)) with
    | some a, some b => some (levelQ a + ((u : Nat) : ℚ) / ((cpb : Nat) : ℚ) * (levelQ b - levelQ a))
    | _, _ => none

/-- The row that a column's level hits (R189). -/
def rowOf (e : List Byte) (l : Option ℚ) : Option Nat :=
  let rows := deRows e
  let clamp := deClamp e
  match l with
  | none => if clamp then some (rows - 1) else none
  | some x =>
    let q : ℚ := (f32Q (deTop e) - x) / f32Q (deStep e)
    let r := q.num / q.den
    if r < 0 then (if clamp then some 0 else none)
    else if (rows : Int) ≤ r then (if clamp then some (rows - 1) else none)
    else some r.toNat

/-- Whether a mask point's upper and lower limits are violated by some levels (R208, R209). -/
def violates (word offset : Nat) (ls : List (Option Int)) : Bool × Bool :=
  let up := bitsOf word 0 16
  let lo := bitsOf word 16 16
  let lim (v : Nat) : ℚ := ((signed 16 v : Int) : ℚ) / 256 + f32Q offset
  (decide (up ≠ 0x7FFF) && ls.any (fun l => match l with | none => false | some x => decide (lim up < levelQ x)),
   decide (lo ≠ 0x8000) && ls.any (fun l => match l with | none => true | some x => decide (levelQ x < lim lo)))

/-- The violations of a FREQMASK entry's points (R209). -/
def maskPoints (e : List Byte) (words : List Nat) (lv : Nat → Option Int) : List (Bool × Bool) :=
  (List.range (mkPoints e)).map (fun p =>
    violates (words.getD p 0) (mkOffset e) ((List.range (mkBpm e)).map (fun i => lv (mkFirst e + p * mkBpm e + i))))

/-- Whether a frame is in condition for a FREQMASK entry, and its violating points (R210). -/
def maskCond (e : List Byte) (pts : List (Bool × Bool)) : Bool × Nat :=
  let up := (pts.filter (fun v => v.1)).length
  let lo := (pts.filter (fun v => v.2)).length
  let any := (pts.filter (fun v => v.1 || v.2)).length
  match mkTest e with
  | 0 => (decide (mkMin e ≤ up), up)
  | 1 => (decide (mkMin e ≤ lo), lo)
  | 2 => (decide (mkMin e ≤ any), any)
  | _ => (decide (any = 0), any)

/-- Whether a frame is in condition for a DENSITY entry, and its columns in the region (R210). -/
def regionCond (e p : List Byte) (lv : Nat → Option Int) : Bool × Nat :=
  let n := ((List.range (mkCol1 e - mkCol0 e + 1)).filter (fun i =>
    match rowOf p (colLevel p lv (mkCol0 e + i)) with
    | none => false
    | some r => decide (mkRow0 e ≤ r) && decide (r ≤ mkRow1 e))).length
  (decide (mkThresh e ≤ n), n)

/-! Frame units (R211, R212). -/

/-- A break in frame index (R212). -/
def Device.tBreak (d : Device) (n : Nat) : Device :=
  let x := d.tunit n
  let d := if x.hold || decide (x.run ≠ 0) then d.flag F.TRG_FLAGS_RUN_BROKEN Reg.TRG_RUN_BROKEN_CNT else d
  (d.setTunit n { x with hold := false, run := 0 }).tShow n

/-- A frame reaches a unit: its condition, and what a firing would carry. -/
def Device.tFrame (d : Device) (n : Nat) (f : Frame) (e : List Byte) (cond : Bool) (viol cs : Nat) : Device :=
  let t := BitVec.ofInt 64 f.stamp
  if !d.tTakes n t then d
  else
    let d := d.tRestart n t
    let x := d.tunit n
    let d := match x.expect with
      | none => d
      | some p => if p = (f.sid, f.k) then d else d.tBreak n
    let x := { d.tunit n with expect := some (f.sid, f.k + 1) }
    if f.lost then (d.setTunit n x).tBreak n
    else if x.hold then
      let r := if cond then 0 else x.run + 1
      (d.setTunit n (if mkExit e ≤ r then { x with hold := false, run := 0 } else { x with run := r })).tShow n
    else if cond then
      let r := x.run + 1
      if mkEnter e ≤ r then
        ((d.setTunit n { x with hold := true, run := 0 }).tShow n).fire n t cs f.marks f.k (min viol 65535)
      else (d.setTunit n { x with run := r }).tShow n
    else (d.setTunit n { x with run := 0 }).tShow n

/-- A frame of a context reaches the units that its entries bind (R207, R210), as their settings are at its boundary; `lv` gives the level of a bin
position. -/
def Device.tFrameAll (d : Device) (f : Frame) (lv : Nat → Option Int) : Device :=
  let b := f.set.desc
  let cs := ctxStream f.ctx (d.srcStream (cSource b))
  (List.range 4).foldl (fun d i =>
    let e := mkEntry b i
    if mkEn e && decide (mkType e < 2) then
      let c := if f.lost then (false, 0)
        else if mkType e = 0 then maskCond e (maskPoints e (f.set.masks.getD i []) lv)
        else regionCond e (denEntry b (mkPlane e)) lv
      (d.tKeys (mkUnit e)).foldl (fun d k =>
        if sKind (d.tSet k (BitVec.ofInt 64 f.stamp)) = 2 * mkType e then d.tFrame k f e c.1 c.2 cs else d) d
    else d) d

/-! LEVEL, EXTERNAL, TIMER and SOFTWARE units (R214 to R217). -/

/-- A tap sample reaches a LEVEL unit (R214). -/
def Device.tLevel (d : Device) (n tap : Nat) (i stamp : Int) (smp : Smp) : Device :=
  let t := BitVec.ofInt 64 stamp
  let s := d.tSet n t
  let p0 := sParam s 0
  if sKind s ≠ 1 ∨ tapOf (bitsOf p0 0 2) (bitsOf p0 2 5) ≠ tap ∨ !d.tTakes n t then d
  else
    let d := d.tRestart n t
    let x := d.tunit n
    let m := smp.re.natAbs ^ 2 + smp.im.natAbs ^ 2
    let sc := if tap < 8 then 4 else 16
    let hi := sParam s 1 * sc
    let lo := sParam s 2 * sc
    let inC := if sDir s then decide (m ≤ lo) else decide (hi ≤ m)
    let outC := if sDir s then decide (hi < m) else decide (m < lo)
    let x := { x with expect := some (0, 0) }
    if x.hold then
      let r := if outC then x.run + 1 else 0
      (d.setTunit n (if bitsOf (sParam s 3) 0 16 ≤ r then { x with hold := false, run := 0 } else { x with run := r })).tShow n
    else if inC then
      let x := if x.run = 0 then { x with runStamp := stamp } else x
      let r := x.run + 1
      if bitsOf p0 16 16 ≤ r then
        ((d.setTunit n { x with hold := true, run := 0 }).tShow n).fire n (BitVec.ofInt 64 x.runStamp)
          (ctxStream 0 (d.tapStream tap)) smp.marks (wrap 64 (i + 1 - r)) 0
      else (d.setTunit n { x with run := r }).tShow n
    else (d.setTunit n { x with run := 0 }).tShow n

/-- A tap sample reaches the LEVEL units and the capture writer (R24, R214). -/
def Device.tapTake (d : Device) (tap : Nat) (i stamp : Int) (smp : Smp) : Device :=
  (d.tAll.foldl (fun d n => d.tLevel n tap i stamp smp) d).acTakeAll tap i stamp smp

/-- An event stamp reaches the EXTERNAL units on its input (R215). -/
def Device.tEvent (d : Device) (input : Nat) (t : Time) : Device :=
  d.tAll.foldl (fun d n =>
    let s := d.tSet n t
    if sKind s = 3 ∧ bitsOf (sParam s 0) 0 4 = input ∧ d.tTakes n t then
      let d := d.tRestart n t
      let x := d.tunit n
      let x := { x with count := x.count + 1, run := x.run + 1 }
      if bitsOf (sParam s 0) 16 16 ≤ x.run then (d.setTunit n { x with run := 0 }).fire n t 0 0 x.count 0
      else d.setTunit n x
    else d) d

/-- PERIOD of a TIMER unit. -/
def sPeriod (s : List Nat) : Nat := sParam s 0 + sParam s 1 * 2 ^ 32

/-- The next firing instant of a TIMER unit with some settings (R216). -/
def Device.tTimerNext (d : Device) (n : Nat) (s : List Nat) : Time := (d.tunit n).armB + BitVec.ofNat 64 ((d.tunit n).count * sPeriod s)

/-- A TIMER unit fires at its next instant; after its last firing it returns to IDLE (R216). -/
def Device.tTimerFire (d : Device) (n : Nat) (s : List Nat) : Device :=
  let x := d.tunit n
  let d := (d.setTunit n { x with count := x.count + 1 }).fire n (d.tTimerNext n s) 0 0 x.count 0
  if sParam s 2 = x.count + 1 then d.setFld (F.TRG_T_STAT_STATE n) 0 else d

/-- A TIMER unit's instant has come (R216). -/
def Device.tTimer (d : Device) (n : Nat) : Device :=
  let s := d.tRegs n
  if sKind s = 4 ∧ d.tArmed n ∧ timeLE (d.tTimerNext n s) d.time then d.tTimerFire n s else d

/-- A TIMER unit fires at the instants before a boundary that have not been issued yet (R218, R221). -/
def Device.tTimerRun (d : Device) (n : Nat) (s : List Nat) (b : Time) : Nat → Device
  | 0 => d
  | k + 1 =>
    if sKind s = 4 ∧ d.tArmed n ∧ timeLT (d.tTimerNext n s) b then Device.tTimerRun (d.tTimerFire n s) n s b k else d

/-- Issue every instant of a TIMER unit before a boundary. -/
def Device.tTimerTo (d : Device) (n : Nat) (s : List Nat) (b : Time) : Device :=
  if sKind s = 4 ∧ sPeriod s ≠ 0 then d.tTimerRun n s b ((b - (d.tunit n).armB).toNat / sPeriod s + 1 - (d.tunit n).count) else d

/-- Whether an enabled cascade route names a unit as its target (R556). -/
def Device.routed (d : Device) (n : Nat) : Bool :=
  (List.range 64).any (fun r => d.isSet (F.CAS_RT_CFG_EN r) && decide (d.fld (F.CAS_RT_CFG_DUNIT r) = n))

/-- FIRE of a SOFTWARE unit (R217, R556). -/
def Device.tSoft (d : Device) (n : Nat) (t : Time) : Nat × Device :=
  let c := firstCode [(!d.tArmed n, cNOTARMED), (decide (d.tKind n ≠ 5) || d.routed n, cUNSUP)]
  (c, if c = cOK then d.fire n (timeMax t d.time) 0 0 0 0 else d)

/-! Sequences (R223). -/

/-- The earliest of the step firings that wait: by trigger time, then by step. -/
def firstStep : List (Time × Nat) → Option (Time × Nat)
  | [] => none
  | a :: as =>
    match firstStep as with
    | none => some a
    | some b => if timeLT b.1 a.1 ∨ (b.1 = a.1 ∧ b.2 < a.2) then some b else some a

/-- The window of a step in units of device time (R222). -/
def sWindow (s : List Nat) (k : Nat) : Time := nsTime (sParam s k)

/-- A sequence takes one step firing (R223). -/
def Device.seqStep (d : Device) (q : Nat) (t : Time) (k : Nat) : Device :=
  let x := d.tunit q
  let s := d.tSet q t
  let c (i : Nat) : Option Time := Sparse.get (fun _ => none) x.steps i
  let hit := if k = 0 then true
    else match c (k - 1) with
      | none => false
      | some p => timeLT p t && timeLE t (p + sWindow s k)
  if !hit then d
  else if k + 1 = sSteps s then (d.setTunit q { x with steps := [], used := [] }).fire q t 0 0 0 0
  else
    let used := (if k = 0 then [] else [k - 1]) ++ x.used.filter (fun i => decide (i ≠ k))
    d.setTunit q { x with steps := Sparse.set (fun _ => none) x.steps k (some t), used := used }

/-- A step window has expired by the decided time (R223), and the next step was not completed since its own. -/
def Device.seqExpire (d : Device) (q : Nat) (dec : Time) : Device :=
  let s := d.tNow q
  (List.range (sSteps s - 1)).foldl (fun d i =>
    let x := d.tunit q
    match Sparse.get (fun _ => none) x.steps i with
    | none => d
    | some p =>
      if timeLT (p + sWindow s (i + 1)) dec && !decide (i ∈ x.used) then
        (d.setTunit q { x with steps := Sparse.set (fun _ => none) x.steps i none }).flag F.TRG_FLAGS_SEQ_EXPIRED
          Reg.TRG_SEQ_EXP_CNT
      else d) d

/-- A sequence takes the firings of its steps that are decided, in order. -/
def Device.seqRun (d : Device) (q : Nat) (dec : Time) : Nat → Device
  | 0 => d
  | fuel + 1 =>
    let x := d.tunit q
    match firstStep x.inbox with
    | none => d.seqExpire q dec
    | some f =>
      if timeLT f.1 dec then
        let d := d.seqExpire q f.1
        let y := d.tunit q
        Device.seqRun ((d.setTunit q { y with inbox := y.inbox.erase f }).seqStep q f.1 f.2) q dec fuel
      else d.seqExpire q dec

/-! Arming (R218). -/

/-- Whether the sequence rules are broken (R222). -/
def Device.seqBad (d : Device) (n : Nat) : Bool :=
  let s := d.tRegs n
  let k := sSteps s
  let us := (List.range k).map (sStep s)
  decide (k < 2) || decide (4 < k) || us.any (fun u => decide (u = n) || decide (d.tKind u = 6)) || !decide us.Nodup

/-- The check of ARM (R218). -/
def Device.tArmCode (d : Device) (n : Nat) : Nat :=
  let s := d.tRegs n
  let kind := sKind s
  let p0 := sParam s 0
  let tap := bitsOf p0 0 2
  let src := bitsOf p0 2 5
  let bad := decide (kind = 1) && (decide (tap = 3) || decide ((if tap = 2 then 15 else 7) < src))
  firstCode [
    ((decide (kind = 1) && (decide (bitsOf p0 16 16 = 0) || decide (bitsOf (sParam s 3) 0 16 = 0) ||
        (!bad && !d.sTimed (d.tapStream (tapOf tap src))))) ||
      (decide (kind = 3) && decide (bitsOf p0 16 16 = 0)) ||
      (decide (kind = 4) && decide (sParam s 0 + sParam s 1 * 2 ^ 32 = 0)) ||
      (decide (kind = 6) && (List.range (min (sSteps s) 4 - 1)).any (fun i => decide (sParam s (i + 1) = 0))), cLENGTH),
    (decide (d.tState n ≠ 0) || d.hasReq [.trgArm, .trgDisarm] n, cBUSY),
    (decide (6 < kind) || bad || (decide (kind = 6) && d.seqBad n), cUNSUP)]

/-- ARM (R218). -/
def Device.tArm (d : Device) (n : Nat) (o : Origin) : Device :=
  let c := d.tArmCode n
  if c = cOK then
    ((d.request .trgArm n (d.rdTime (Reg.TRG_T_AT_LO n)) o []).actBit o (F.TRG_T_CTL_ARM n)).setFld (F.TRG_T_STAT_STATE n) 1
  else if d.hasReq [.trgArm] n then (d.setFld (F.TRG_T_STAT_CODE n) c).complete o c none
  else d.finish o (F.TRG_T_CTL_ARM n) (F.TRG_T_STAT_CODE n) c none

/-- DISARM (R218); a second request on the unit is refused (R45). -/
def Device.tDisarm (d : Device) (n : Nat) (t : Time) (o : Origin) : Device :=
  if d.hasReq [.trgArm, .trgDisarm] n then (d.setFld (F.TRG_T_STAT_CODE n) cBUSY).complete o cBUSY none
  else (d.request .trgDisarm n t o []).actBit o (F.TRG_T_CTL_DISARM n)

/-- A unit becomes armed at a boundary; a hold-off of an earlier firing stays (R219). -/
def Device.tArmAt (d : Device) (n : Nat) (b : Time) : Device :=
  ((d.setTunit n { armB := b, quietTo := (d.tunit n).quietTo }).setFld (F.TRG_T_STAT_STATE n) 2).setFld (F.TRG_T_STAT_RUN n) 0

/-- A unit is disarmed at a boundary: its arming goes on, with its settings, for what precedes the boundary (R218). -/
def Device.tDisarmAt (d : Device) (n : Nat) (b : Time) : Device :=
  let s := d.tRegs n
  let d := d.tTimerTo n s b
  let x := d.tunit n
  let k := 64 + (d.tKeys n).foldl max n
  let d := if d.tArmed n then
      (d.setTunit k { x with fin := some b, olds := x.olds ++ [(b, s)] }).setTunit n { quietTo := x.quietTo }
    else d
  (d.setFld (F.TRG_T_STAT_STATE n) 0).setFld (F.TRG_T_STAT_RUN n) 0

/-- An overlay changes an armed TIMER unit's PERIOD at a boundary: from there on its instants are those of the new one (R216, R221). -/
def Device.tTimerPatch (d : Device) (n : Nat) (old : List Nat) (b : Time) : Device :=
  let s := d.tRegs n
  let p := sPeriod s
  if d.tArmed n ∧ sKind s = 4 ∧ p ≠ 0 ∧ (sKind old ≠ 4 ∨ sPeriod old ≠ p) then
    let x := d.tunit n
    let k := ((b - x.armB).toNat + p - 1) / p
    let d := d.setTunit n { x with count := k }
    if sParam s 2 ≠ 0 ∧ sParam s 2 ≤ k then d.setFld (F.TRG_T_STAT_STATE n) 0 else d
  else d

/-- BOUND follows the running schedule (R218). -/
def Device.showBound (d : Device) : Device :=
  let us := (d.ctxList d.run).flatMap (fun x => unitsOfCtx x.2)
  (List.range 64).foldl (fun d n => d.setFld (F.TRG_T_STAT_BOUND n) (if n ∈ us then 1 else 0)) d

/-! Groups (R227, R228, R230). -/

/-- The earliest trigger time of the firings that await release. -/
def Device.firstFiring (d : Device) : Option Time :=
  d.firings.foldl (fun a f => match a with
    | none => some f.t
    | some t => if timeLT f.t t then some f.t else a) none

/-- The firing of the lowest-numbered unit of a list. -/
def lowestUnit : List Firing → Option Firing
  | [] => none
  | f :: fs => match lowestUnit fs with
    | none => some f
    | some g => if g.unit < f.unit then some g else some f

/-- The mask of a group's units. -/
def groupMask (g : List Firing) : Nat := (((g.map (fun f => f.unit)).dedup).map (fun u => 2 ^ u)).sum

/-- The trigger record of a group (R230). -/
def Device.trigRecord (d : Device) (g : List Firing) (p : Firing) : List Byte :=
  recHead 0x13 (p.marks ||| (if 2 ≤ g.length then 0x10 else 0)) 64 p.cs p.t.toNat ++
    bytesLE 8 (groupMask g) ++ bytesLE 8 p.index ++ bytesLE 8 d.time.toNat ++ bytesLE 1 p.unit ++ bytesLE 1 (sKind p.set) ++
    bytesLE 2 p.viol ++ bytesLE 4 (d.rdN (Reg.TRG_T_FIRE_CNT p.unit))

/-- A group takes effect: counts, its record, and the captures it triggers (R227 to R229). -/
def Device.groupRelease (d : Device) (t : Time) (g : List Firing) : Device :=
  let d := { d with firings := d.firings.filter (fun f => decide (f.t ≠ t)) }
  let d := g.foldl (fun d f => d.inc (Reg.TRG_T_FIRE_CNT f.unit)) d
  let d := if 2 ≤ g.length then d.flag F.TRG_FLAGS_COINCIDENT Reg.TRG_COINC_CNT else d
  let d := match lowestUnit g, lowestUnit (g.filter (fun f => sRec f.set)) with
    | some p, some r => d.qOffer (bitsOf (r.set.getD 6 0) 0 12) (d.trigRecord g p) 0x07 p.unit
    | _, _ => d
  (List.range 64).foldl (fun d b =>
    match lowestUnit (g.filter (fun f => bitAt (d.acBind b) f.unit)) with
    | none => d
    | some f => d.acTrig b f.unit (groupMask g) t) d

/-! Commands. -/

def execTrgTCtlArm (n : Nat) (s : State) : Host.Outcome State Fault Refusal :=
  s.run (fun d => if n < 64 then d.tArm n .host else d)

def execTrgTCtlDisarm (n : Nat) (s : State) : Host.Outcome State Fault Refusal :=
  s.run (fun d => if n < 64 then d.tDisarm n (d.rdTime (Reg.TRG_T_AT_LO n)) .host else d)

/-- Engine ARM writes the unit's registers under R600: a unit that is not IDLE takes none of them. -/
def execTrgArm (u : UCmd) (s : State) : Host.Outcome State Fault Refusal :=
  s.run (fun d => d.unitCmd 0x07 1 u fun d =>
    let n := u.unit
    if d.tState n = 0 then
      (d.wrBlock u ((List.range 7).map (fun i => (Reg.TRG_T_CFG n + 4 * i, 4 * i)) ++
        [(Reg.TRG_T_AT_LO n, 0x28), (Reg.TRG_T_AT_HI n, 0x2C)])).tArm n u.origin
    else d.complete u.origin cBUSY none)

def execTrgDisarm (u : UCmd) (s : State) : Host.Outcome State Fault Refusal :=
  s.run (fun d => d.unitCmd 0x07 2 u fun d => d.tDisarm u.unit (BitVec.ofNat 64 (u.dword 0)) u.origin)

def execTrgFire (u : UCmd) (s : State) : Host.Outcome State Fault Refusal :=
  s.run (fun d => d.unitCmd 0x07 3 u fun d =>
    let r := d.tSoft u.unit (BitVec.ofNat 64 (u.dword 0))
    r.2.complete u.origin r.1 none)

def execTrgSwCtlFire (s : State) : Host.Outcome State Fault Refusal :=
  s.run (fun d =>
    let r := d.tSoft (d.fld F.TRG_SW_CFG_UNIT) (d.rdTime Reg.TRG_SW_AT_LO)
    r.2.finish .host F.TRG_SW_CTL_FIRE F.TRG_SW_STAT_CODE r.1 none)

def execTimerTriggerFire (n : Nat) (s : State) : Host.Outcome State Fault Refusal :=
  s.run (fun d => if n < 64 then d.tTimer n else d)

end Sys2Proof.Machine
end

