-- ==== Sys2Proof/Machine/Detectors.lean ====
section
/-! DEFINITION. Detector sets and the trace store (R173 to R186) and mask tests (R248, R249): point detectors, binary64
accumulation in ascending frame index, intervals, cut-short deliveries, clears and trace records. -/

namespace Sys2Proof.Machine

/-! Binary64 helpers (R181). -/

/-- A binary64 with its sign changed. -/
def f64Neg (a : Nat) : Nat := if a < f64.signBit then a + f64.signBit else a - f64.signBit

/-- The larger and the smaller of two finite values. -/
def f64Max (a b : Nat) : Nat := if f64.lt a b then b else a
def f64Min (a b : Nat) : Nat := if f64.lt b a then b else a

/-- The point detector (R179, R181): the values of a point's positions as binary64, in ascending position. -/
def pointValue (det : Nat) (vs : List Nat) : Nat :=
  match det with
  | 0 => vs.foldl f64Max (vs.headD 0)
  | 1 => vs.foldl f64Min (vs.headD 0)
  | 2 => vs.getD (vs.length / 2) 0
  | _ => f64.divNat (vs.foldl f64.add 0) vs.length

/-- One combination of a frame value (R179 to R181): `k` counts the frames combined, this one included. -/
def combine (det mode shift k a v : Nat) : Nat :=
  if mode = 1 then
    let diff := f64.add v (f64Neg a)
    f64.add a (f64.divNat diff (if k ≤ 2 ^ shift then k else 2 ^ shift))
  else if k = 1 then v
  else
    match det with
    | 0 => f64Max a v
    | 1 => f64Min a v
    | 2 => v
    | _ => f64.add a v

/-- The combined power that is delivered, as binary64 (R181). -/
def combined (det mode comb a : Nat) : Nat :=
  if mode ≠ 1 ∧ (det = 3 ∨ det = 4) then f64.divNat a comb else a

/-- The delivered quantity as a binary64 (R179): a power, or its square root for RMS. -/
def quantity (det mode comb a : Nat) : Nat :=
  let p := combined det mode comb a
  if det = 4 then (let r := f64.ratio p; f64.sqrtRatio false r.1.toNat r.2) else p

/-- A level in dB as binary32, within 0.001 dB of the exact value (R181): the rounding to binary32 must not take it further. -/
def dbWord (n m : Nat) : Nat :=
  let v := f32.ofInt (dbOf n m) (2 ^ 40)
  let r := f32.ratio v
  let e : ℚ := (r.1 : ℚ) / (r.2 : ℚ) - (tenLog10Fix n m : ℚ) / ((2 ^ 40 : Nat) : ℚ)
  if e ≤ 1 / 1000 ∧ -(1 / 1000) ≤ e then v else f32.ofInt (tenLog10Fix n m) (2 ^ 40)

/-- A delivered value (R181): linear, or in dB. The dB value of an RMS amplitude is that of its square. -/
def traceValue (db : Bool) (det mode comb a : Nat) : Nat :=
  let p := combined det mode comb a
  let r := f64.ratio p
  if db then (if r.1 = 0 then 0xFF800000 else dbWord r.1.toNat r.2)
  else f64.conv f32 (quantity det mode comb a)

/-- The frame values of a trace's points. -/
def framePoints (b : List Byte) (t : Nat) (pw : Nat → Nat) : List Nat :=
  (List.range (trPoints b t)).map (fun i =>
    pointValue (trDet b t) ((List.range (trBpp b t)).map (fun x =>
      f32.conv f64 (pw (binAt b (trFirst b t + i * trBpp b t + x))))))

/-! Mask tests. -/

/-- Compare a delivered record with the masks of its context (R248). -/
def Device.maskTest (d : Device) (c t : Nat) (s : CtxSet) (x : Trace) (fst marks : Nat) : Device :=
  (List.range 4).foldl (fun d i =>
    let e := mkEntry s.desc i
    if !(mkEn e && decide (mkType e = 2) && decide (mkTrace e = t)) then d
    else
      let words := s.masks.getD i []
      let pts := (List.range x.acc.length).map (fun p =>
        let r := f64.ratio (combined (trDet s.desc t) (trMode s.desc t) x.comb (x.acc.getD p 0))
        violates (words.getD p 0) (mkOffset e) [if r.1 = 0 then none else some (dbOf r.1.toNat r.2)])
      let n := (pts.filter (fun v => v.1 || v.2)).length
      let viol := decide (mkMin e ≤ n)
      let key := c * 4 + i
      let cnt := Sparse.get (fun _ => 0) d.violRecs key + (if viol then 1 else 0)
      let d := { d with violRecs := Sparse.set (fun _ => 0) d.violRecs key cnt }
      let d := if viol then d.flag F.TRG_FLAGS_MT_VIOL Reg.TRG_MT_VIOL_CNT else d
      let r := if viol && mkStop e then d.acViolate (mkCapture e) (BitVec.ofInt 64 x.lastStamp) else (false, d)
      if viol || mkAll e then
        r.2.qOffer (mkQueue e) (recHead 0x17 marks 64 (ctxStream c (d.srcStream (cSource s.desc))) x.stamp ++
          bytesLE 8 fst ++ bytesLE 8 x.last ++ bytesLE 4 n ++ bytesLE 4 cnt ++
          bytesLE 1 (t + (if viol then 4 else 0) + (if r.1 then 8 else 0)) ++ bytesLE 7 0) 0x07 0
      else r.2) d

/-! Delivery (R182 to R186). -/

/-- Deliver a trace's interval (R186), with the settings of its frames. -/
def Device.traceOut (d : Device) (c t : Nat) (partial' : Bool) : Device :=
  let x := d.trace c t
  let s := x.set
  let b := s.desc
  let det := trDet b t
  let mode := trMode b t
  let fst := x.from'.getD (x.m * trEvery b t)
  let marks := x.marks ||| (if x.skipped = 0 then 0 else 0x80)
  let bytes := recHead 0x11 marks (64 + 4 * x.acc.length) (ctxStream c (d.srcStream (cSource b))) x.stamp ++
    bytesLE 8 fst ++ bytesLE 8 x.last ++ bytesLE 4 x.comb ++ bytesLE 4 x.skipped ++ bytesLE 2 (trPoints b t) ++
    bytesLE 1 (t + (if partial' then 128 else 0)) ++ bytesLE 1 (det + mode * 16 + (if trDb b t then 64 else 0)) ++
    bytesLE 4 (trBpp b t) ++ x.acc.flatMap (fun a => bytesLE 4 (traceValue (trDb b t) det mode x.comb a))
  let d := (d.qOffer (trQueue b t) bytes 0x05 0).add64 Reg.DET_TRACE_CNT_LO 1
  let d := if partial' then d.flag F.DET_FLAGS_PARTIAL Reg.DET_PARTIAL_CNT else d
  let d := d.maskTest c t s x fst marks
  d.setTrace c t { x with skipped := 0, n := 0, from' := none, m := x.m + 1,
                          acc := if mode = 0 then [] else x.acc, comb := if mode = 0 then 0 else x.comb,
                          marks := if mode = 0 then 0 else x.marks }

/-- Intervals that end with no frame combined (R183): none of the frames from interval `m` to before `m'`. -/
def Device.traceEmpty (d : Device) (c t m' : Nat) : Device :=
  let x := d.trace c t
  let k := m' - x.m
  let d := if k = 0 then d else (d.setFld F.DET_FLAGS_EMPTY 1).incBy Reg.DET_EMPTY_CNT k
  d.setTrace c t { x with m := max x.m m', from' := if k = 0 then x.from' else none }

/-- Cut a trace short (R184): what it combined is delivered with PARTIAL, the intervals up to the last frame seen that held none are counted (R183), and
the accumulation starts afresh. -/
def Device.traceCut (d : Device) (c t : Nat) : Device :=
  let d := if (d.trace c t).n = 0 then d else d.traceOut c t true
  let d := match (d.trace c t).seen with
    | none => d
    | some k => d.traceEmpty c t (k / trEvery (d.trace c t).set.desc t + 1)
  d.setTrace c t { d.trace c t with acc := [], comb := 0, n := 0, marks := 0, from' := none, seen := none }

/-- A trace sees a frame (R182, R184): the first one after a cut begins the interval that holds it, at its own index. -/
def Device.traceSee (d : Device) (c t : Nat) (f : Frame) : Device :=
  let x := d.trace c t
  let every := trEvery f.set.desc t
  let x := if x.seen.isSome then x
    else { x with m := f.k / every, from' := if f.k % every = 0 then none else some f.k }
  d.setTrace c t { x with set := f.set, seen := some f.k }

/-- One frame of a context reaches one of its traces (R174, R182, R183): `pw` gives POWER by bin. -/
def Device.traceFrame (d : Device) (c t : Nat) (f : Frame) (pw : Nat → Nat) : Device :=
  let b := f.set.desc
  let every := trEvery b t
  let m := f.k / every
  let d := d.traceSee c t f
  let x := d.trace c t
  if f.lost then
    let d := d.setTrace c t { x with skipped := x.skipped + 1 }
    if x.n = 0 ∧ x.m = m ∧ f.k % every = every - 1 then d.traceEmpty c t (m + 1) else d
  else
    let d := if x.m < m then
        let d := if x.n = 0 then d else d.traceOut c t false
        d.traceEmpty c t m
      else d
    let x := d.trace c t
    let vs := framePoints b t pw
    let acc := if x.comb = 0 then vs.map (fun v => combine (trDet b t) (trMode b t) (trShift b t) 1 0 v)
      else List.zipWith (combine (trDet b t) (trMode b t) (trShift b t) (x.comb + 1)) x.acc vs
    let d := d.setTrace c t { x with acc := acc, comb := x.comb + 1, n := x.n + 1, last := f.k, lastStamp := f.stamp,
                                     stamp := if x.comb = 0 then f.stamp else x.stamp, marks := x.marks ||| f.marks }
    if f.k % every = every - 1 then d.traceOut c t false else d

/-- The cuts of a trace that satisfy a test take effect (R184). -/
def Device.traceCutsIf (d : Device) (c t : Nat) (due : Time → Bool) : Device :=
  let x := d.trace c t
  if x.cuts.any due then (d.setTrace c t { x with cuts := x.cuts.filter (fun b => !due b) }).traceCut c t else d

/-- A frame reaches the enabled traces of its context, after the cuts that precede its boundary. -/
def Device.tracesFrame (d : Device) (f : Frame) (pw : Nat → Nat) : Device :=
  let d := (List.range 4).foldl (fun d t => d.traceCutsIf f.ctx t (fun b => timeLE b (BitVec.ofInt 64 f.stamp))) d
  (List.range 4).foldl (fun d t => if trEn f.set.desc t then d.traceFrame f.ctx t f pw else d) d

/-- A context's last frames have been combined after it left the schedule: its traces are cut short (R184). -/
def Device.tracesEnd (d : Device) (c : Nat) : Device :=
  (List.range 4).foldl (fun d t => (d.traceCut c t).setTrace c t {}) d

/-- Whether a context has left the running schedule and nothing of it is still on its way to its detectors. -/
def Device.ctxIdle (d : Device) (c : Nat) : Bool := !d.inRun c && (d.ctxNext c).isNone

/-- Cuts whose earlier frames have all been combined take effect at once (R184), and the traces of contexts that have ended are delivered. -/
def Device.tracesSettle (d : Device) : Device :=
  d.traces.foldl (fun d kv =>
    let c := kv.1 / 4
    let d := d.traceCutsIf c (kv.1 % 4) (fun b => d.ctxDone c b)
    if d.ctxIdle c then (d.traceCut c (kv.1 % 4)).setTrace c (kv.1 % 4) {} else d) d

/-! Clears (R185). -/

/-- Whether an enabled trace is named by a mask. -/
def tracesNamed (b : List Byte) (mask : Nat) : Bool := (List.range 4).any (fun t => bitAt mask t && trEn b t)

/-- A trace clear request (R185). -/
def Device.detClear (d : Device) (c mask : Nat) (t : Time) (o : Origin) : Device :=
  let busy := (decide (o = .host) && d.isSet F.DET_CLR_STAT_PENDING) || d.hasReq [.detClear] c
  let code := firstCode [(busy, cBUSY), (!d.active c || !tracesNamed (d.desc c) mask, cNOTARMED)]
  let show' (d : Device) (k : Nat) : Device := if o = .host then d.setFld F.DET_CLR_STAT_CODE k else d
  if code = cOK then
    let d := d.request .detClear c t o [mask]
    if o = .host then (d.setFld F.DET_CLR_CTL_GO 1).setFld F.DET_CLR_STAT_PENDING 1 else d
  else if busy then (show' d code).complete o code none
  else (if o = .host then (show' d code).setFld F.DET_CLR_CTL_GO 0 else d).complete o code none

/-- A trace clear takes effect at a boundary; `overlaid` names the traces whose entries an overlay changed there. -/
def Device.detClearAt (d : Device) (r : BReq) (b : Time) (overlaid : List Nat) : Device :=
  let mask := r.arg.getD 0 0
  let hit := (List.range 4).any (fun t => bitAt mask t && decide (r.obj * 4 + t ∈ overlaid))
  let d := if hit then d
    else (List.range 4).foldl (fun d t =>
      if bitAt mask t then d.setTrace r.obj t { d.trace r.obj t with cuts := (d.trace r.obj t).cuts ++ [b] } else d) d
  let code := if hit then cBUSY else cOK
  let d := if r.origin = .host then
      ((d.setFld F.DET_CLR_STAT_PENDING 0).setFld F.DET_CLR_CTL_GO 0).setFld F.DET_CLR_STAT_CODE code
    else d
  d.complete r.origin code (some b)

def execDetClrCtlGo (s : State) : Host.Outcome State Fault Refusal :=
  s.run (fun d => d.detClear (d.fld F.DET_CLR_CFG_CONTEXT) (d.fld F.DET_CLR_CFG_TRACES) (d.rdTime Reg.DET_CLR_AT_LO) .host)

def execDetClear (u : UCmd) (s : State) : Host.Outcome State Fault Refusal :=
  s.run (fun d => d.unitCmd 0x05 1 u fun d =>
    d.detClear (bitsOf (u.word 0) 0 12) (bitsOf (u.word 0) 16 4) (BitVec.ofNat 64 (u.dword 8)) u.origin)

end Sys2Proof.Machine
end

