-- ==== Sys2Proof/Machine/Density.lean ====
section
/-! DEFINITION. Density planes (R187 to R202): hits and saturation in tiles and memory cells, decay sweeps, plane life,
snapshots and clears with the bank switch. -/

namespace Sys2Proof.Machine

def Device.plane (d : Device) (p : Nat) : Plane := Sparse.get (fun _ => {}) d.planes p
def Device.setPlane (d : Device) (p : Nat) (x : Plane) : Device := { d with planes := Sparse.set (fun _ => {}) d.planes p x }

/-- The key of a tile counter: logical pipe, bank, cell. -/
def tileKey (pipe bank cell : Nat) : Nat := (pipe * 2 + bank) * 2 ^ 18 + cell

/-- A tile counter of a plane. -/
def Plane.cell (x : Plane) (k : Nat) : Nat := Sparse.get (fun _ => 0) x.cells k
def Plane.setCell (x : Plane) (k v : Nat) : Plane := { x with cells := Sparse.set (fun _ => 0) x.cells k v }

/-- The counting bank of a tile plane. -/
def Device.denBank (d : Device) (p : Nat) : Nat := d.fld (F.DEN_P_STAT_BANK p)

/-- The snapshot or clear of a tile plane whose drain bank takes the hits of a frame stamped `t` (R198). -/
def Plane.draining (x : Plane) (t : Time) : Option Snap :=
  match x.snap with
  | none => none
  | some s => if !deMem s.entry && timeLT t s.b then some s else none

/-- One saturated increment is counted (R190). -/
def Device.denSat (d : Device) (p : Nat) : Device := (d.flag F.DEN_FLAGS_SAT Reg.DEN_SAT_CNT).inc (Reg.DEN_P_SAT p)

/-- What a plane counts changes, in the drain bank's share (`old`) or its own. -/
def Device.denStat (d : Device) (p : Nat) (old : Bool) (f : PlaneStat → PlaneStat) : Device :=
  let x := d.plane p
  d.setPlane p (if old then { x with old := f x.old } else { x with cur := f x.cur })

/-- Add a hit to a cell of a plane (R190): to a memory cell, or to the counter of a tile and bank. -/
def Device.denHit (d : Device) (p pipe bank cell : Nat) (old : Bool) : Device :=
  let x := d.plane p
  let full (d : Device) : Device := (d.denSat p).denStat p old (fun s => { s with sat := s.sat + 1 })
  if !old && deMem x.entry then
    let a := deBase x.entry + 4 * cell
    let v := d.mem32 a
    if v = 0xFFFFFFFF then full d else (d.store a (bytesLE 4 (v + 1))).moved 1
  else
    let k := tileKey pipe bank cell
    let v := x.cell k
    if v = 65535 then full d else d.setPlane p (x.setCell k (v + 1))

/-- A frame reaches a plane that its context feeds (R191, R192). A frame with a boundary before a tile snapshot's counts in the drain bank (R198). `drops`
says that a memory plane's updates of this frame are dropped, all of them: a frame's hits reach every column or none. -/
def Device.denFrame (d : Device) (p : Nat) (f : Frame) (e : List Byte) (lv : Nat → Option Int) (drops : Nat) : Device :=
  let x := d.plane p
  let t := BitVec.ofInt 64 f.stamp
  let old := (x.draining t).isSome
  let bank := match x.draining t with | some s => s.bank | none => d.denBank p
  if !old && x.act.any (fun b => timeLT t b) then d
  else if f.lost then d.denStat p old (fun s => { s with gap := true })
  else if deDecim e = 0 ∨ f.k % deDecim e ≠ 0 then d
  else
    let dr := if deMem e && decide (drops ≠ 0) then deCols e else 0
    let d := d.denStat p old (fun s => { s with frames := s.frames + 1, marks := s.marks ||| f.marks, drop := s.drop + dr })
    let d := if old then d else d.add64 (Reg.DEN_P_FRAMES_LO p) 1
    if dr ≠ 0 then ((d.setFld F.DEN_FLAGS_MEM_DROP 1).incBy Reg.DEN_MEM_DROP_CNT dr).incBy (Reg.DEN_P_DROP p) dr
    else
      (List.range (deCols e)).foldl (fun d c =>
        match rowOf e (colLevel e lv c) with
        | none => d
        | some r => d.denHit p f.pipe bank (r * deCols e + c) old) d

/-- A frame reaches the planes of its context's enabled entries. -/
def Device.planesFrame (d : Device) (f : Frame) (lv : Nat → Option Int) (drops : Nat) : Device :=
  (List.range 2).foldl (fun d j =>
    let e := denEntry f.set.desc j
    if deEn e then d.denFrame (dePlane e) f e lv drops else d) d

/-! Decay (R193, R194). -/

/-- The integer 16th root. -/
def root16 (n : Nat) : Nat := isqrt (isqrt (isqrt (isqrt n)))

/-- v x 2^(-m/16) rounded half to even. -/
def decayRound (v m : Nat) : Nat :=
  if m % 16 = 0 then (roundHalfEven v (2 ^ (m / 16) : Nat)).toNat
  else (root16 ((2 * v) ^ 16 / 2 ^ m) + 1) / 2

/-- One sweep of a cell with `m` merged steps: every non-zero count falls. -/
def decayCell (m v : Nat) : Nat :=
  let x := decayRound v m
  if 0 < v ∧ x = v then v - 1 else x

/-- Sweep the cells of a memory plane. -/
def Device.decayMem (d : Device) (base m : Nat) : Nat → Device
  | 0 => d
  | k + 1 =>
    let d := Device.decayMem d base m k
    d.store (base + 4 * k) (bytesLE 4 (decayCell m (d.mem32 (base + 4 * k))))

/-- A sweep of a plane (R193, R194): `m` pending steps are taken as one. -/
def Device.denDecay (d : Device) (p m : Nat) : Device :=
  let x := d.plane p
  let e := x.entry
  let h := deHalf e
  let due : Time := x.since + BitVec.ofNat 64 ((x.steps + m) * h * 4096000)
  if h = 0 ∨ m = 0 ∨ !d.isSet (F.DEN_P_STAT_ACTIVE p) ∨ !timeLE due d.time then d
  else
    let d := if deMem e then (d.decayMem (deBase e) m (deCols e * deRows e)).moved 1
      else d.setPlane p { x with cells := (x.cells.map (fun kv => (kv.1, decayCell m kv.2))).filter (fun kv => decide (kv.2 ≠ 0)) }
    let d := d.setPlane p { d.plane p with steps := x.steps + m }
    if 1 < m then (d.setFld F.DEN_FLAGS_DECAY_LATE 1).incBy Reg.DEN_DECAY_LATE_CNT (m - 1) else d

/-! Snapshots and clears (R197 to R202). -/

/-- Zero the cells of a plane. -/
def Device.denZero (d : Device) (p : Nat) (e : List Byte) : Device :=
  if deMem e then d.zero (deBase e) (4 * deCols e * deRows e)
  else d.setPlane p { d.plane p with cells := [] }

/-- The check of a snapshot or clear (R202). -/
def Device.denCode (d : Device) (p dest : Nat) (isSnap host : Bool) : Nat :=
  let x := d.plane p
  firstCode [
    (isSnap && x.ever && pastEnd dest (4 * deCols x.entry * deRows x.entry), cLENGTH),
    (isSnap && decide (dest % 4096 ≠ 0), cALIGN),
    (isSnap && aboveEnd dest, cREGION),
    (d.hasReq [.denSnap, .denClear] p || x.snap.isSome || (host && d.isSet F.DEN_CMD_STAT_PENDING), cBUSY),
    (!x.ever, cNOTARMED)]

/-- DEN_CMD_CTL and DEN_CMD_STAT show the host's requests: an action bit reads 1 until every request of its kind has completed, and PENDING and DRAINING
while one awaits its boundary, or writes or merges. -/
def Device.denShowHost (d : Device) : Device :=
  let waits (k : BKind) : Bool := (d.reqs k).any (fun r => decide (r.origin = .host))
  let runs (f : Snap → Bool) : Bool := (List.range 16).any (fun p => (d.plane p).snap.any (fun s => decide (s.origin = .host) && f s))
  let n (v : Bool) : Nat := if v then 1 else 0
  (((d.setFld F.DEN_CMD_CTL_SNAP (n (waits .denSnap || runs (fun s => s.isSnap && !s.written)))).setFld F.DEN_CMD_CTL_CLEAR
    (n (waits .denClear || runs (fun s => !s.isSnap && !s.written)))).setFld F.DEN_CMD_STAT_PENDING
    (n (waits .denSnap || waits .denClear))).setFld F.DEN_CMD_STAT_DRAINING (n (runs (fun _ => true)))

/-- A snapshot or clear request (R197, R201). -/
def Device.denReq (d : Device) (p dest : Nat) (clear isSnap : Bool) (t : Time) (o : Origin) : Device :=
  let host := decide (o = .host)
  let c := d.denCode p dest isSnap host
  let pend := host && d.isSet F.DEN_CMD_STAT_PENDING
  if c = cOK then
    let d := d.request (if isSnap then .denSnap else .denClear) p t o [dest, if clear then 1 else 0]
    let d := d.setFld (F.DEN_P_STAT_PENDING p) 1
    if host then d.denShowHost.setFld F.DEN_CMD_STAT_PLANE p else d
  else
    let d := if host then d.setFld F.DEN_CMD_STAT_CODE c else d
    let d := if host && !pend then d.setFld F.DEN_CMD_STAT_PLANE p else d
    d.complete o c none

/-- The end of a snapshot or clear of a plane for its requester; CODE shows the last request's. -/
def Device.denEnd (d : Device) (p : Nat) (o : Origin) (c : Nat) (b : Time) : Device :=
  let d := d.denShowHost
  let d := if o = .host ∧ d.fld F.DEN_CMD_STAT_PLANE = p then d.setFld F.DEN_CMD_STAT_CODE c else d
  d.complete o c (some b)

/-- A snapshot or clear takes effect at a boundary; `overlaid` says that an overlay cleared the plane there (R202). A tile plane switches banks, and what it
has counted so far goes with the drain bank. -/
def Device.denAt (d : Device) (r : BReq) (b : Time) (overlaid : Bool) : Device :=
  let p := r.obj
  let isSnap := decide (r.kind = .denSnap)
  let x := d.plane p
  let mem := deMem x.entry
  let d := d.setFld (F.DEN_P_STAT_PENDING p) 0
  if overlaid then d.denEnd p r.origin cBUSY b
  else
    let s : Snap := ⟨isSnap, b, r.arg.getD 0 0, decide (r.arg.getD 1 0 = 1) || !isSnap, !isSnap && !mem, r.origin, x.entry,
      d.fld (F.DEN_P_STAT_CONTEXT p), d.denBank p, false, false⟩
    let d := (d.wrTime (Reg.DEN_P_LAST_LO p) b).setFld (F.DEN_P_STAT_DRAINING p) 1
    let d := if mem then d else (d.setFld (F.DEN_P_STAT_BANK p) (1 - d.denBank p)).wr64 (Reg.DEN_P_FRAMES_LO p) 0
    let x := { x with since := if isSnap then x.since else b, steps := if isSnap then x.steps else 0, snap := some s }
    let d := d.setPlane p (if mem then x else { x with old := x.cur, cur := {} })
    if isSnap then d.denShowHost
    else
      let d := d.setFld (F.DEN_P_STAT_TILE_LOST p) 0
      if mem then d.denShowHost else d.denEnd p r.origin cOK b

/-- The value of a tile plane's drain bank at a cell: the sum over its tiles (R175, R198). -/
def Plane.drain (x : Plane) (bank cell : Nat) : Nat :=
  ((List.range 16).map (fun t => x.cell (tileKey t bank cell))).sum

/-- The SNAPSHOT record (R200, R202), from what was counted into the snapshot. -/
def Device.snapRecord (d : Device) (p : Nat) (k : PlaneStat) (s : Snap) : List Byte :=
  let e := s.entry
  recHead 0x12 (k.marks ||| (if k.gap then 0x80 else 0)) 64 (ctxStream s.ctx (d.srcStream (cSource (d.desc s.ctx)))) s.b.toNat ++
    bytesLE 8 s.dest ++
    bytesLE 2 (p + (if deMem e then 16 else 0) + (if s.clear then 32 else 0) +
      (if s.lost || (!s.gone && d.isSet (F.DEN_P_STAT_TILE_LOST p)) then 64 else 0)) ++
    bytesLE 2 (deCols e) ++ bytesLE 2 (deRows e) ++ bytesLE 2 0 ++ bytesLE 8 k.frames ++ bytesLE 4 k.sat ++ bytesLE 4 k.drop

/-- Copy the cells of a plane to a snapshot's destination (R197 to R199). -/
def Device.snapCopy (d : Device) (p : Nat) (s : Snap) : Nat → Device
  | 0 => d
  | k + 1 =>
    let d := Device.snapCopy d p s k
    if deMem s.entry then
      let a := deBase s.entry + 4 * k
      let bs := memBytes d.mem a 4
      let d := d.storeRun (s.dest + 4 * k) bs
      if s.clear then d.storeRun a (bytesLE 4 0) else d
    else d.storeRun (s.dest + 4 * k) (bytesLE 4 ((d.plane p).drain s.bank k))

/-- DRAINING clears on a plane. -/
def Device.denIdle (d : Device) (p : Nat) : Device :=
  let d := d.setPlane p { d.plane p with snap := none, old := {} }
  (d.setFld (F.DEN_P_STAT_DRAINING p) 0).denShowHost

/-- A snapshot has written DEST (R198 to R200). That of a tile plane waits for the frames with an earlier boundary; that of a memory plane holds every hit that
has landed by now (R199), and its counts begin afresh. -/
def Device.snapDone (d : Device) (p : Nat) : Device :=
  let x := d.plane p
  match x.snap with
  | none => d
  | some s =>
    let mem := deMem s.entry
    if !s.isSnap || s.written || (!mem && !d.ctxDone s.ctx s.b) then d
    else
      let d := (d.snapCopy p s (deCols s.entry * deRows s.entry)).moved 1
      let d := if deQEn s.entry then d.qOffer (deQueue s.entry) (d.snapRecord p (if mem then x.cur else x.old) s) 0x06 p else d
      let d := if s.clear && !s.gone then d.setFld (F.DEN_P_STAT_TILE_LOST p) 0 else d
      let d := if mem then ((d.setPlane p { d.plane p with cur := {} }).wr64 (Reg.DEN_P_FRAMES_LO p) 0).denIdle p
        else d.setPlane p { d.plane p with snap := some { s with written := true } }
      d.denEnd p s.origin cOK s.b

/-- Add a saturating tile count. -/
def satAdd (a b : Nat) : Nat := min (a + b) 65535

/-- A counter of the drain bank is added to the counting bank; what does not fit is counted (R190, R198). -/
def Device.mergeCell (d : Device) (p : Nat) (s : Snap) (kv : Nat × Nat) : Device :=
  let x := d.plane p
  let k := tileKey (kv.1 / 2 ^ 19) (1 - s.bank) (kv.1 % 2 ^ 18)
  let v := x.cell k
  let d := d.setPlane p (x.setCell k (satAdd v kv.2))
  let lost := v + kv.2 - 65535
  if lost = 0 then d
  else
    (((d.setFld F.DEN_FLAGS_SAT 1).incBy Reg.DEN_SAT_CNT lost).incBy (Reg.DEN_P_SAT p) lost).denStat p false
      (fun t => { t with sat := t.sat + lost })

/-- The drain bank is merged back or discarded, and zeroed (R198). -/
def Device.snapMerged (d : Device) (p : Nat) : Device :=
  let x := d.plane p
  match x.snap with
  | none => d
  | some s =>
    if deMem s.entry ∨ !s.written ∨ !d.ctxDone s.ctx s.b then d
    else
      let isOld (k : Nat) : Bool := decide (k / 2 ^ 18 % 2 = s.bank)
      let d := d.setPlane p { x with cells := x.cells.filter (fun kv => !isOld kv.1) }
      let d := if s.clear || s.gone then d
        else (x.cells.filter (fun kv => isOld kv.1)).foldl (fun d kv => d.mergeCell p s kv) d
      d.denIdle p

/-- A memory plane's clear has zeroed its cells (R201). -/
def Device.planeCleared (d : Device) (p : Nat) : Device :=
  match (d.plane p).snap with
  | none => d
  | some s =>
    if !deMem s.entry || s.isSnap then d
    else
      let d := (d.denZero p s.entry).moved 1
      (((d.setPlane p { d.plane p with cur := {} }).wr64 (Reg.DEN_P_FRAMES_LO p) 0).denIdle p).denEnd p s.origin cOK s.b

/-! Plane life (R195, R196). -/

/-- A plane becomes active at a boundary with an entry of a context, cleared to zero (R195). A snapshot or clear of a memory plane in progress ends first, as
R199 lets it; a tile plane's drain bank goes on draining, and is not merged back. -/
def Device.denActivate (d : Device) (p c j : Nat) (e : List Byte) (tiles : Nat) (b : Time) : Device :=
  let d := if (d.plane p).snap.any (fun s => deMem s.entry) then (d.snapDone p).planeCleared p else d
  let x := d.plane p
  let lost := d.isSet (F.DEN_P_STAT_TILE_LOST p)
  let snap := x.snap.map (fun s => if s.gone then s else { s with gone := true, lost := lost })
  let cells := match x.snap with
    | none => []
    | some s => x.cells.filter (fun kv => decide (kv.1 / 2 ^ 18 % 2 = s.bank))
  let d := d.setPlane p { ever := true, entry := e, tiles := tiles, since := b, act := some b, snap := snap, cells := cells,
                          old := if snap.isSome then x.old else {} }
  let d := if deMem e then d.denZero p e else d
  let keep := bitsOf (d.rdN (Reg.DEN_P_STAT p)) 2 3
  let d := d.wr (Reg.DEN_P_STAT p) (1 + (if deMem e then 2 else 0) + keep * 4 + c * 2 ^ 16 + j * 2 ^ 28)
  d.wr64 (Reg.DEN_P_FRAMES_LO p) 0

/-- The decay steps of a plane whose instants have passed at `b`, with a new half-life (R193): the steps fall at S + k x 62.5 x H. -/
def Plane.stepsAt (x : Plane) (h : Nat) (b : Time) : Nat :=
  if h = deHalf x.entry then x.steps else (b - x.since).toNat / (h * 4096000)

/-- The density settings whose change clears a plane (R195): PLANE, KIND, CLAMP, D_BIN_FIRST, COLS, ROWS, BPC, CPB, TOP, STEP. -/
def deShape (e : List Byte) : List Nat :=
  [dw e 0 0 4, dw e 0 5 1, dw e 0 6 1, deFirst e, deCols e, deRows e, deBpc e, deCpb e, deTop e, deStep e]

/-- The planes follow a change of the running schedule or of a descriptor at a boundary; `fed` says what context and entry fed
a plane before. -/
def Device.planesFollow (d : Device) (b : Time) : Device :=
  (List.range 16).foldl (fun d p =>
    let found := d.run.entries.flatMap (fun en => ((List.range 2).filter (fun j =>
      let e := denEntry (d.desc en.1) j
      deEn e && decide (dePlane e = p))).map (fun j => (en.1, j)))
    let was := d.isSet (F.DEN_P_STAT_ACTIVE p)
    let wasC := d.fld (F.DEN_P_STAT_CONTEXT p)
    let wasJ := d.fld (F.DEN_P_STAT_ENTRY p)
    match found with
    | [] => d.setFld (F.DEN_P_STAT_ACTIVE p) 0
    | (c, j) :: _ =>
      let e := denEntry (d.desc c) j
      let x := d.plane p
      if was && decide (wasC = c) && decide (wasJ = j) && decide (deShape x.entry = deShape e) then
        d.setPlane p { x with entry := e, tiles := d.run.maskOf c, steps := x.stepsAt (deHalf e) b }
      else d.denActivate p c j e (d.run.maskOf c) b) d

/-- A logical pipe goes vacant: its tile's counts are lost, in every tile plane that counted in it (R196). -/
def Device.denTileLost (d : Device) (t : Nat) : Device :=
  let hit := (List.range 16).filter (fun p =>
    let x := d.plane p
    x.ever && !deMem x.entry && bitAt x.tiles t)
  let d := d.flag F.DEN_FLAGS_TILE_LOST Reg.DEN_TILE_LOST_CNT
  hit.foldl (fun d p =>
    let x := d.plane p
    let d := d.setPlane p { x with cells := x.cells.filter (fun kv => decide (kv.1 / 2 ^ 19 ≠ t)) }
    d.setFld (F.DEN_P_STAT_TILE_LOST p) 1) d

/-! Commands. -/

def Device.denHost (d : Device) (isSnap : Bool) : Device :=
  d.denReq (d.fld F.DEN_CMD_CFG_PLANE) (d.rd64 Reg.DEN_SNAP_DEST_LO) (d.isSet F.DEN_CMD_CFG_CLEAR) isSnap
    (d.rdTime Reg.DEN_CMD_AT_LO) .host

def Device.denEng (d : Device) (u : UCmd) (isSnap : Bool) : Device :=
  d.denReq (bitsOf (u.word 0) 0 4) (u.dword 8 % 2 ^ 48) (bitAt (u.word 0) 8) isSnap (BitVec.ofNat 64 (u.dword 16))
    u.origin

def execDenCmdCtlSnap (s : State) : Host.Outcome State Fault Refusal := s.run (fun d => d.denHost true)
def execDenCmdCtlClear (s : State) : Host.Outcome State Fault Refusal := s.run (fun d => d.denHost false)
def execDenSnap (u : UCmd) (s : State) : Host.Outcome State Fault Refusal :=
  s.run (fun d => d.unitCmd 0x06 1 u fun d => d.denEng u true)
def execDenClear (u : UCmd) (s : State) : Host.Outcome State Fault Refusal :=
  s.run (fun d => d.unitCmd 0x06 2 u fun d => d.denEng u false)

def execSnapshotComplete (p : Nat) (s : State) : Host.Outcome State Fault Refusal :=
  s.run (fun d => if p < 16 then d.snapDone p else d)

def execSnapshotMerged (p : Nat) (s : State) : Host.Outcome State Fault Refusal :=
  s.run (fun d => if p < 16 then d.snapMerged p else d)

def execPlaneClearDone (p : Nat) (s : State) : Host.Outcome State Fault Refusal :=
  s.run (fun d => if p < 16 then d.planeCleared p else d)

def execDecayStep (p m : Nat) (s : State) : Host.Outcome State Fault Refusal :=
  s.run (fun d => if p < 16 then d.denDecay p m else d)

end Sys2Proof.Machine
end

