-- ==== Sys2Proof/Machine/Frames.lean ====
section
/-! DEFINITION. Where frames and samples meet their consumers: a frame that leaves its pipe feeds delivery, traces, trigger
units and planes in ascending frame index (R150, R174, R211); a sample passes the taps and the fabric's buffers; and a schedule
switch with everything that follows it (R163, R195). -/

namespace Sys2Proof.Machine

/-- After a context has left the running schedule and its last frame has been combined, its traces end (R184). -/
def Device.ctxEnd (d : Device) (c : Nat) : Device :=
  if d.ctxIdle c then (d.setCtx c { d.ctxOf c with olds := [] }).tracesEnd c else d

/-- A frame reaches its consumers; `drops` of a memory plane's updates are dropped (R192). -/
def Device.feed (d : Device) (f : Frame) (drops : Nat) : Device :=
  let d :=
    if f.lost then
      let x := d.ctxOf f.ctx
      let d := d.setCtx f.ctx { x with skipped := x.skipped + 1 }
      ((d.tracesFrame f (fun _ => 0)).tFrameAll f (fun _ => none)).planesFrame f (fun _ => none) 0
    else
      let sp := spectrum f.set f.smps
      let pw := (sp.1.map (powerOf f.set sp.2)).toArray
      let lv := pw.map levelOf
      let b := f.set.desc
      let d := (d.add64 Reg.XF_FRAME_CNT_LO 1).wr64 (Reg.XF_C_INDEX_LO f.ctx) f.k
      let d := d.deliver f sp
      let d := d.tracesFrame f (fun i => pw.getD i 0)
      let at' (j : Nat) : Option Int := (lv.getD (binAt b j) none)
      (d.tFrameAll f at').planesFrame f at' drops
  (d.ctxEnd f.ctx).tracesSettle

/-- Whether a frame precedes another of its context. -/
def Frame.before (f g : Frame) : Bool := decide (f.ctx = g.ctx) && (decide (f.sid < g.sid) || (decide (f.sid = g.sid) && decide (f.k < g.k)))

/-- The oldest frame of a context, once it is in flight: frames of a context are passed on in ascending order (R165). -/
def Device.oldest (d : Device) (c : Nat) : Option Frame :=
  d.flight.find? (fun f => decide (f.ctx = c) && !(d.flight ++ d.ready).any (fun g => g.before f))

/-- Skipped and dropped frames at the head of a context's order are passed on (R165, R212, R226). -/
def Device.flushLost (d : Device) (c : Nat) : Nat → Device
  | 0 => d
  | fuel + 1 =>
    match d.oldest c with
    | none => d
    | some f =>
      if f.lost then Device.flushLost ({ d with flight := d.flight.erase f }.feed f 0) c fuel else d

/-- The oldest frame of a context leaves its pipe (R137). -/
def Device.frameDone (d : Device) (c drops : Nat) : Device :=
  match d.oldest c with
  | none => d
  | some f =>
    if f.lost ∨ !timeLE f.inAt d.time then d
    else
      let d := { d with flight := d.flight.erase f }.feed f drops
      d.flushLost c (d.flight.length + 1)

/-- The dispatcher takes the next ready frame, and a frame that it loses is passed on in its context's order. -/
def Device.frameNext (d : Device) (drop : Bool) : Device :=
  match d.ready with
  | [] => d
  | f :: _ => let d := d.frameReady drop; d.flushLost f.ctx (d.flight.length + 1)

def execFrameReady (drop : Bool) (s : State) : Host.Outcome State Fault Refusal := s.run (fun d => d.frameNext drop)

/-- The samples that leave the chain reach the taps, the trigger units, the capture writer and the fabric (R24). -/
def Device.emitAll (d : Device) : List Emit → Device
  | [] => d
  | e :: es => Device.emitAll ((d.tapTake (8 + e.src) e.n e.stamp e.smp).fabTake e) es

/-- Sample `g` of a stream, with its deframer value, passes the deframer tap, the corrector and the channelisers. -/
def Device.passSample (d : Device) (s : Nat) (g : Int) (x : Smp) : Device :=
  let d := d.tapTake s (g - (d.stream s).refPoint) (d.sStamp s g) x
  let r := d.chain s g x
  (r.2.2.emitAll r.2.1).tracesSettle

/-- Every source of a stream restarts from a new reference point (R116, R153). -/
def Device.streamRestart (d : Device) (s : Nat) (b : Time) : Device :=
  let d := (d.zRenumber s).srcRestart s b
  (List.range 16).foldl (fun d z => if d.fld (F.CHN_Z_CFG_SOURCE z) = s then d.srcRestart (8 + z) b else d) d

/-! The schedule switch (R163). -/

/-- Detector and density registers of the running schedule. -/
def Device.showDetect (d : Device) : Device :=
  let l := d.ctxList d.run
  let d := (List.range 4).foldl (fun d p =>
    d.wr (Reg.DEN_TILE_USED p) (((d.run.entries.filter (fun e => decide (e.2 = p))).map (fun e => tileCells (d.desc e.1))).sum)) d
  let upd : ℚ := (l.map (fun x => updateRate x.2 (d.srcNs d.sNs (cSource x.2)))).sum
  let d := d.wr Reg.DEN_MEM_RATE (inMs upd)
  l.foldl (fun d x => d.wr (Reg.DET_C_STAT x.1) (((List.range 4).filter (trEn x.2)).map (fun t => 2 ^ t)).sum) d

/-- A context leaves the running schedule at a boundary. -/
def Device.ctxLeave (d : Device) (c : Nat) (b : Time) : Device :=
  ((((d.keepOld c b).seqStop c b).setFld (F.XF_C_STAT_RUNNING c) 0).wr (Reg.DET_C_STAT c) 0).ctxEnd c

/-- A context enters, or stays in, the running schedule at a boundary, with its stores. -/
def Device.ctxEnter (d : Device) (c : Nat) (s : CtxSet) (stays : Bool) (b : Time) : Device :=
  let d := ((d.setFld (F.XF_C_STAT_RUNNING c) 1).setFld (F.XF_C_STAT_PENDING c) 0).setFld (F.XF_C_STAT_LONG c)
    (if cLong s.desc then 1 else 0)
  let x := d.ctxOf c
  if stays then
    let d := if x.masks = s.masks then d else d.keepOld c b
    let d := d.setCtx c { d.ctxOf c with masks := s.masks }
    { d with seqs := d.seqs.map (fun q => if q.ctx = c then { q with mask := d.run.maskOf c } else q) }
  else
    let d := d.setCtx c { d.ctxOf c with masks := s.masks, user := s.user, beta := s.beta, skipped := 0 }
    let d := { d with violRecs := Sparse.keep (fun k _ => decide (k / 4 ≠ c)) d.violRecs }
    d.seqStart c b

/-- The running schedule becomes another one at a boundary (R163). -/
def Device.switchTo (d : Device) (p : PendSched) (b : Time) : Device :=
  let was := d.run
  let d := { d with run := p.sched }
  let d := was.entries.foldl (fun d e => if d.inRun e.1 then d else d.ctxLeave e.1 b) d
  let d := p.sets.foldl (fun d e => d.ctxEnter e.1 e.2 (was.entries.any (fun w => decide (w.1 = e.1))) b) d
  let d := (d.setFld F.XF_SCHED_STAT_RUNNING (if p.sched.entries.isEmpty then 0 else 1)).wrTime Reg.XF_SWITCH_LO b
  let d := (d.setFld F.XF_STAT_DEGRADED 0).showRun.recheck
  ((d.planesFollow b).showDetect.showBound).showStores

/-- The pending schedule takes effect at a boundary. -/
def Device.schedSwitchAt (d : Device) (r : BReq) (b : Time) : Device :=
  match d.pend with
  | none => d
  | some p =>
    let d := { d with pend := none }.switchTo p b
    let d := d.setFld F.XF_SCHED_STAT_STATE 0
    d.xfEnd r.origin (if r.arg = [1] then F.XF_SCHED_CTL_STOP else F.XF_SCHED_CTL_GO) cOK noEntry (some b)

end Sys2Proof.Machine
end

