-- ==== Sys2Proof/Machine/Rotation.lean ====
section
/-! DEFINITION. Spare rotation and self-test (chapter "Spare rotation, self-test and availability"): classes, groups and states of physical
units (R521, R522, R531), the rotation cycle (R523 to R530), commands on physical units (R532), logic self-test (R533 to R535), and the
entry of a calibrated element into service (R520). -/

namespace Sys2Proof.Machine

/-- First index, groups, units per group and roles per group of a class (R521, R531). -/
def rotClass (k : Nat) : Nat × Nat × Nat × Nat :=
  match k with
  | 0 => (0, 32, 17, 16)
  | 1 => (544, 1, 18, 16)
  | 2 => (562, 1, 68, 64)
  | 3 => (630, 1, 34, 32)
  | 4 => (664, 1, 9, 8)
  | 5 => (673, 1, 9, 8)
  | 6 => (682, 32, 2, 1)
  | 7 => (746, 16, 2, 1)
  | _ => (778, 1, 2, 1)

/-- The class of a physical unit (R531). -/
def unitClass (u : Nat) : Nat :=
  if u < 544 then 0 else if u < 562 then 1 else if u < 630 then 2 else if u < 664 then 3 else if u < 673 then 4
  else if u < 682 then 5 else if u < 746 then 6 else if u < 778 then 7 else 8

/-- The group of a physical unit in its class. -/
def unitGroup (u : Nat) : Nat :=
  let c := rotClass (unitClass u)
  (u - c.1) / c.2.2.1

/-- The physical units of a group. -/
def groupUnits (k g : Nat) : List Nat :=
  let c := rotClass k
  (List.range c.2.2.1).map (fun i => c.1 + g * c.2.2.1 + i)

def Device.puState (d : Device) (u : Nat) : Nat := d.fld (F.ROT_U_STAT_STATE u)
def Device.puRole (d : Device) (u : Nat) : Nat := d.fld (F.ROT_U_STAT_ROLE u)
def Device.unitTest (d : Device) (u : Nat) : UnitTest := Sparse.get (fun _ => {}) d.rot.units u
def Device.setUnitTest (d : Device) (u : Nat) (x : UnitTest) : Device :=
  { d with rot := { d.rot with units := Sparse.set (fun _ => {}) d.rot.units u x } }
def Device.rotStepOf (d : Device) (k : Nat) : Option RotStep := Sparse.get (fun _ => none) d.rot.steps k
def Device.setRotStep (d : Device) (k : Nat) (x : Option RotStep) : Device :=
  { d with rot := { d.rot with steps := Sparse.set (fun _ => none) d.rot.steps k x } }
def Device.rotDeferred (d : Device) (k : Nat) : List Nat := Sparse.get (fun _ => []) d.rot.deferred k
def Device.setDeferred (d : Device) (k : Nat) (l : List Nat) : Device :=
  { d with rot := { d.rot with deferred := Sparse.set (fun _ => []) d.rot.deferred k l } }

/-- The 3-bit state where another chapter shows it (R522): the other sampler of a lane, the other line of an input, a root. -/
def Device.mirrorState (d : Device) (u st : Nat) : Device :=
  match unitClass u with
  | 6 =>
    let l := (u - 682) / 2
    if d.fld (F.LNK_L_STAT_MAIN l) = u % 2 then d else d.setFld (F.LNK_L_STAT_SHADOW_STATE l) st
  | 7 =>
    let n := (u - 746) / 2
    if d.fld (F.EVT_I_STAT_LINE n) = u % 2 then d else d.setFld (F.EVT_I_STAT_SHADOW_STATE n) st
  | 8 => d.setFld (if u = 778 then F.CLK_STAT_A_ROT else F.CLK_STAT_B_ROT) st
  | _ => d

/-- Set a unit's state and role. -/
def Device.setUState (d : Device) (u st role : Nat) : Device :=
  let d : Device := if st = 3 then { d with tests := Sparse.set (fun _ => {}) d.tests u {} } else d
  ((d.setFld (F.ROT_U_STAT_STATE u) st).setFld (F.ROT_U_STAT_ROLE u) role).mirrorState u st

/-- Whether rotation of a class runs (R529). -/
def Device.rotOn (d : Device) (k : Nat) : Bool :=
  d.isSet F.ROT_CFG_EN && d.isSet (F.ROT_K_CFG_EN k) && d.isSet F.SYS_POST_STAT_DONE &&
    !decide (d.fld F.SYS_STAT_STATE ∈ [6, 7]) && !(decide (k = 8) && decide (d.fld F.CLK_CHANGE_STAT_STATE ≠ 0))

/-- All units of a class. -/
def classUnits (k : Nat) : List Nat :=
  let c := rotClass k
  (List.range (c.2.1 * c.2.2.1)).map (fun i => c.1 + i)

/-- ROT_K_STAT of a class. -/
def Device.rotShow (d : Device) (k : Nat) : Device :=
  let c := rotClass k
  let us := classUnits k
  let live := (us.filter (fun u => decide (d.puState u = 4))).length
  let d := d.setFld (F.ROT_K_STAT_WITHDRAWN k) (us.filter (fun u => decide (d.puState u = 5))).length
  let d := d.setFld (F.ROT_K_STAT_VACANT k) (c.2.1 * c.2.2.2 - live)
  let d := d.setFld (F.ROT_K_STAT_EXHAUSTED k) (d.rot.exhausted.filter (fun x => decide (x.1 = k))).length
  let d := d.setFld (F.ROT_K_STAT_ACTIVE k) (match d.rotStepOf k with | some s => (if s.phase ≠ 0 then 1 else 0) | none => 0)
  d.setFld (F.ROT_K_STAT_PAUSED k) (if d.rotOn k then 0 else 1)

/-- A group that has no unit in READY, SHADOW, SWAP or TEST has no spare (R528). -/
def Device.exhaust (d : Device) (k g : Nat) : Device :=
  if (groupUnits k g).any (fun u => decide (d.puState u < 4)) ∨ (k, g) ∈ d.rot.exhausted then d
  else
    Device.flag { d with rot := { d.rot with exhausted := d.rot.exhausted ++ [(k, g)] } } F.ROT_FLAGS_SPARES_EXHAUSTED
      Reg.ROT_EXHAUST_CNT

/-- A unit is withdrawn (R526, R532): CAUSE, and the group's spares. -/
def Device.withdrawUnit (d : Device) (u cause : Nat) : Device :=
  let k := unitClass u
  let d := ((d.setUState u 5 0xFFF).setFld (F.ROT_U_STAT_CAUSE u) cause).setFld (F.ROT_U_STAT_SUSPECT u) 0
  let d := (d.setUnitTest u {}).flag F.ROT_FLAGS_WITHDRAWN Reg.ROT_WITHDRAW_CNT
  let d := match k with
    | 6 => (d.setFld (F.LNK_L_STAT_SAMPLERS ((u - 682) / 2)) 0).setFld (F.LNK_L_FLAGS_WITHDRAWN ((u - 682) / 2)) 1
    | 7 => d.setFld (F.EVT_I_STAT_LINES ((u - 746) / 2)) 0
    | 8 => d.setFld F.CLK_STAT_STANDBY_READY 0
    | _ => d
  (d.exhaust k (unitGroup u)).rotShow k

/-- The conditions of logic self-test (R533): BCLK, and a recent VDD_CORE result in range. -/
def Device.bstCond (d : Device) : Bool :=
  decide ((76 : ℚ) / 10 ≤ d.fRoot) && decide (d.fRoot ≤ 8) &&
    (match d.vdd with
      | some (ok, t) => ok && timeLE (d.time - t) (nsTime 1000000000)
      | none => false)

/-- A unit enters TEST (R525); logic self-test that its conditions refuse waits for the group's next step (R526, R533). -/
def Device.enterTest (d : Device) (u : Nat) : Device :=
  let ok := decide (5 < unitClass u) || d.bstCond
  let d := ((d.setUState u 3 0xFFF).setFld (F.ROT_U_STAT_SUSPECT u) 0).setUnitTest u
    { d.unitTest u with fails := 0, again := !ok, marked := none, refUv := d.rdN Reg.CAL_REF_UV }
  if ok then d else d.flag F.BST_FLAGS_CONDITIONS Reg.BST_COND_CNT

/-- How long ago a unit's last TEST completed; an untested unit counts as the oldest (R524, R537). -/
def Device.testAge (d : Device) (u : Nat) : Nat :=
  if d.rdN (Reg.ROT_U_TESTS u) = 0 then 2 ^ 64 else (d.time - d.rdTime (Reg.ROT_U_LAST_LO u)).toNat

/-- The first unit of a list whose measure is the largest. -/
def eldest (f : Nat → Nat) : List Nat → Option Nat
  | [] => none
  | u :: us => match eldest f us with
    | none => some u
    | some w => if f u < f w then some w else some u

/-- The LIVE unit that a step shadows (R524). -/
def Device.liveChoice (d : Device) (k g : Nat) : Option Nat :=
  let live := (groupUnits k g).filter (fun u => decide (d.puState u = 4))
  match live.find? (fun u => d.isSet (F.ROT_U_STAT_SUSPECT u)) with
  | some u => some u
  | none => eldest d.testAge live

/-- The spare that a step takes: the lowest-numbered READY unit, not under an on-demand run (R524, R535); of the roots, the
standby that is READY (R462). -/
def Device.spareChoice (d : Device) (k g : Nat) : Option Nat :=
  if k = 8 then
    if d.isSet F.CLK_STAT_STANDBY_READY then some (779 - d.fld F.CLK_STAT_ACTIVE) else none
  else (groupUnits k g).find? (fun u => decide (d.puState u = 0) && !d.rot.bst.any (fun b => decide (b.1 = u)))

/-- Start a step of a group (R524): its code. -/
def Device.stepStart (d : Device) (k g : Nat) (v : Option Nat) (withdraw : Bool) : Nat × Device :=
  if k ≤ 5 ∧ !d.bstCond then (cCONDITIONS, d.flag F.ROT_FLAGS_PAUSED Reg.ROT_PAUSE_CNT)
  else
    match d.spareChoice k g, (match v with | some u => some u | none => d.liveChoice k g) with
    | some s, some v =>
      (cOK, (d.setRotStep k (some { g := g, s := s, v := v, phase := 0, since := d.time, withdraw := withdraw })).rotShow k)
    | _, _ => (cNOSPARE, d)

/-- A step has ended: the next deferred one of the class starts at once (R523); one that ends at once makes way for the one after it. -/
def Device.stepEnd (d : Device) (k : Nat) : Device :=
  ((d.rotDeferred k).foldl (fun d g =>
    if (d.rotStepOf k).isSome then d
    else ((d.setDeferred k ((d.rotDeferred k).filter (fun h => decide (h ≠ g)))).stepStart k g none false).2) (d.setRotStep k none)).rotShow k

/-- An output of the shadow differs (R524, R527). -/
def Device.shadowMiss (d : Device) (k : Nat) : Device :=
  match d.rotStepOf k with
  | none => d
  | some x =>
    if x.phase ≠ 1 then d
    else
      let d := d.flag F.ROT_FLAGS_MISMATCH Reg.ROT_MISMATCH_CNT
      if x.misses + 1 < 8 then d.setRotStep k (some { x with misses := x.misses + 1, since := d.time, agree := 0 })
      else
        let proved := match (d.unitTest x.v).marked with
          | some t => timeLE t (d.rdTime (Reg.ROT_U_LAST_LO x.s)) && decide (0 < d.fld (F.ROT_U_TESTS_PASSED x.s))
          | none => false
        if proved then
          (d.setUState x.s 2 (d.puRole x.v)).setRotStep k (some { x with phase := 3, since := d.time, misses := 8 })
        else
          ((d.enterTest x.s).setUnitTest x.s { (d.enterTest x.s).unitTest x.s with blame := some x.v }).stepEnd k

/-- The shadow window completes: the spare enters SWAP (R524). -/
def Device.shadowDone (d : Device) (k : Nat) : Device :=
  match d.rotStepOf k with
  | none => d
  | some x =>
    if x.phase = 1 then
      ((d.setUState x.s 2 (d.puRole x.v)).setRotStep k (some { x with phase := 2, since := d.time })).rotShow k
    else d

/-- Whether WINDOW has passed since the window began (R521). Converters count results instead (R512). A delay line also needs 64 edges that agree,
unless its input has carried fewer in 60 s. -/
def Device.windowOver (d : Device) (k : Nat) (x : RotStep) : Bool :=
  let past := fun (ns : Nat) => timeLE (nsTime ns) (d.time - x.since)
  let window := past (100000 * d.fld (F.ROT_K_CFG_WINDOW k))
  if k = 5 then decide (4 ≤ x.agree)
  else if k = 7 then if 64 ≤ x.agree then window else past 60000000000
  else window

/-- An edge of an event input reaches both delay lines: the one in SHADOW agrees unless a SHADOW_WINDOW_END says that it differs. -/
def Device.lineEdge (d : Device) (n : Nat) : Device :=
  match d.rotStepOf 7 with
  | some x => if x.g = n ∧ x.phase = 1 then d.setRotStep 7 (some { x with agree := x.agree + 1 }) else d
  | none => d

def execShadowWindowEnd (k : Nat) (differ : Bool) (s : State) : Host.Outcome State Fault Refusal :=
  s.run (fun d =>
    match d.rotStepOf k with
    | none => d
    | some x =>
      if differ then d.shadowMiss k
      else if k ≠ 6 ∧ d.windowOver k x then d.shadowDone k else d)

/-- A sampler window ends (R89): the lane group's step enters SWAP on an exchange, or its spare is withdrawn (R91). -/
def execSamplerWindowEnd (lane : Nat) (differ shadowBad mainBad : Bool) (s : State) :
    Host.Outcome State Fault Refusal :=
  s.run (fun d =>
    match d.rotStepOf 6 with
    | none => d
    | some x =>
      if x.g = lane ∧ x.phase = 1 ∧ d.isSet (F.LNK_L_STAT_SAMPLERS lane) then
        let d := d.samplerWindow lane differ shadowBad mainBad
        if (d.lane lane).exchange then d.shadowDone 6
        else if !d.isSet (F.LNK_L_STAT_SAMPLERS lane) then (d.withdrawUnit x.s 2).stepEnd 6
        else d
      else d)

/-- STEP of a class, in units of 2^-16 ns. -/
def Device.stepLength (d : Device) (k : Nat) : Nat := d.fld (F.ROT_K_CFG_STEP k) * 1000000000 * 65536

/-- A group's next step instant (R523): the first one is S0 + g × STEP / G. -/
def Device.stepInstant (d : Device) (k g : Nat) : Time :=
  (Sparse.get (fun _ => none) d.rot.next (64 * k + g)).getD
    (Sparse.get (fun _ => 0) d.rot.s0 k + BitVec.ofNat 64 (g * d.stepLength k / (rotClass k).2.1))

/-- The group's next step instant becomes the first of its grid after `t`. -/
def Device.stepAfter (d : Device) (k g : Nat) (t : Time) : Device :=
  let i := d.stepInstant k g
  let n := if timeLE i t then (t - i).toNat / max 1 (d.stepLength k) + 1 else 0
  { d with rot := { d.rot with next := Sparse.set (fun _ => none) d.rot.next (64 * k + g) (some (i + BitVec.ofNat 64 (n * d.stepLength k))) } }

/-- The step instants that have passed are not made up (R529). -/
def Device.stepsMissed (d : Device) (t : Time) : Device :=
  (List.range 9).foldl (fun d k => (List.range (rotClass k).2.1).foldl (fun d g => d.stepAfter k g t) d) d

/-- A unit that waits in TEST for its group's step instant runs again (R526); its conditions may refuse it again (R533). -/
def Device.testAgain (d : Device) (u : Nat) : Device :=
  if d.puState u ≠ 3 ∨ !(d.unitTest u).again then d
  else if 5 < unitClass u ∨ d.bstCond then d.setUnitTest u { d.unitTest u with again := false, refUv := d.rdN Reg.CAL_REF_UV }
  else d.flag F.BST_FLAGS_CONDITIONS Reg.BST_COND_CNT

/-- A step instant of a group: in a pause it passes without a step (R529). -/
def execRotationStep (k g : Nat) (s : State) : Host.Outcome State Fault Refusal :=
  s.run (fun d =>
    if k < 9 ∧ g < (rotClass k).2.1 ∧ timeLE (d.stepInstant k g) d.time then
      let d := d.stepAfter k g d.time
      if !d.rotOn k then d
      else
      let d := (groupUnits k g).foldl (fun d u => d.testAgain u) d
      if (d.rotStepOf k).isSome then
        if g ∈ d.rotDeferred k then d else d.setDeferred k (d.rotDeferred k ++ [g])
      else (d.stepStart k g none false).2
    else d)

/-! Calibration of elements (R514 to R520). -/

/-- The calibrated item of a unit and the role it takes (R514): a converter, an event input or a receive lane. -/
def calItem (u role : Nat) : Option Nat :=
  match unitClass u with
  | 5 => some role
  | 6 => some (24 + (u - 682) / 2)
  | 7 => some (8 + (u - 746) / 2)
  | _ => none

/-- A freshly calibrated element enters service (R520). -/
def Device.calService (d : Device) (item sel temp : Nat) (untraced : Bool) (at' : Time) : Device :=
  let d := (d.inc (Reg.CAL_I_COUNT item)).wrTime (Reg.CAL_I_LAST_LO item) at'
  let d := (d.setFld (F.CAL_I_STAT_VALID item) 1).setFld (F.CAL_I_STAT_UNTRACED item) (if untraced then 1 else 0)
  (d.setFld (F.CAL_I_STAT_TEMP item) (min temp 127)).wr (Reg.CAL_I_SEL item) (sel % 65536)

/-- The element of a unit enters the role it takes. -/
def Device.unitService (d : Device) (u role : Nat) : Device :=
  let x := d.unitTest u
  match calItem u role with
  | some i =>
    if x.fresh then
      let d := (d.calService i x.sel x.temp x.untraced (d.rdTime (Reg.ROT_U_LAST_LO u))).setUnitTest u { x with fresh := false }
      if unitClass u = 7 then d.setFld (F.EVT_I_STAT_CAL ((u - 746) / 2)) 1
      else if unitClass u = 5 then d.setFld (F.CAL_I_STAT_CODE i) cOK else d
    else d
  | none => d

/-- A calibration attempt is noted at its item; a converter in TEST has none until it takes a role. -/
def Device.calNote (d : Device) (u code : Nat) : Device :=
  match calItem u 0 with
  | some i => if unitClass u = 5 then d else d.setFld (F.CAL_I_STAT_CODE i) code
  | none => d

/-- How far a reading lies from a value in µV, in units of 2^-30 µV. -/
def refError (ref : Nat) (v : Int) : Nat := (v * 1000000 - (ref * 2 ^ 30 : Nat)).natAbs

/-- What a selection reads (R515). -/
def readAt (x : Readings) (sel : Nat) : Int :=
  match x.tried.find? (fun r => decide (r.1 = sel)) with
  | some r => r.2
  | none => 0

/-- The search of R515: each capacitor, the largest first, stays in unless the reading falls below CAL_REF_UV. -/
def calSearch (ref : Nat) (x : Readings) : Nat → Nat → Nat
  | 0, sel => sel
  | b + 1, sel => calSearch ref x b (if readAt x (sel + 2 ^ b) * 1000000 < (ref * 2 ^ 30 : Nat) then sel else sel + 2 ^ b)

/-- Of some selections, the first that reads nearest CAL_REF_UV. -/
def calNearest (ref : Nat) (x : Readings) (sel : Nat) : List Nat → Nat
  | [] => sel
  | s :: l => calNearest ref x (if refError ref (readAt x s) < refError ref (readAt x sel) then s else sel) l

/-- What the calibration of a converter in TEST comes to (R513, R515): none, a failure; OK with a selection; or CONDITIONS. DESIGN CHOICE (log
entry 139): of two selections that read equally near, the one that the search ended with. -/
def calConverter (ref factory : Nat) (x : Readings) : Option (Nat × Nat) :=
  if 5 * 2 ^ 30 < (x.ground * 1000000).natAbs then none
  else if ref = 0 then some (cOK, factory)
  else if 2 * (ref * 2 ^ 30) < 100 * refError ref x.factory then some (cCONDITIONS, 0)
  else
    let s := calSearch ref x 16 0
    let sel := calNearest ref x s ((if s = 0 then [] else [s - 1]) ++ (if s < 65535 then [s + 1] else []))
    if ref * 2 ^ 30 < 100000 * refError ref (readAt x sel) then none else some (cOK, sel)

/-- A unit in TEST passes (R526, R527). -/
def Device.testPass (d : Device) (u sel temp : Nat) : Device :=
  let x := d.unitTest u
  let untraced := decide (unitClass u = 5) && decide (x.refUv = 0)
  let root := decide (unitClass u = 8) && d.isSet (if u = 778 then F.CLK_STAT_A_LOCK else F.CLK_STAT_B_LOCK)
  let d := (d.setUState u (if root then 1 else 0) (if root then 0 else 0xFFF)).wrTime (Reg.ROT_U_LAST_LO u) d.time
  let d := d.setFld (F.ROT_U_TESTS_PASSED u) (min 65535 (d.fld (F.ROT_U_TESTS_PASSED u) + 1))
  let d := if x.fails = 1 then d.inc Reg.ROT_RETEST_CNT else d
  let d := if root then d.setFld F.CLK_STAT_STANDBY_READY 1 else d
  let d := match x.blame with
    | some v => if d.puState v = 4 then (d.setFld (F.ROT_U_STAT_SUSPECT v) 1).setUnitTest v { d.unitTest v with marked := some d.time } else d
    | none => d
  (d.setUnitTest u { fresh := (calItem u 0).isSome, cap := some sel, sel := sel, temp := temp, untraced := untraced }).rotShow (unitClass u)

/-- A unit in TEST fails (R526): it is tested once more, then withdrawn with CAUSE SELFTEST (1) or CALIBRATION (2). -/
def Device.testFail (d : Device) (u cause : Nat) : Device :=
  let x := d.unitTest u
  let d := d.setFld (F.ROT_U_TESTS_FAILED u) (min 65535 (d.fld (F.ROT_U_TESTS_FAILED u) + 1))
  let d := if cause = 2 ∧ unitClass u = 5 then d.flag F.CAL_FLAGS_FAIL Reg.CAL_FAIL_CNT else d
  if x.fails = 0 then d.setUnitTest u { x with fails := 1 } else d.withdrawUnit u cause

/-- Whether a class's TEST contains logic self-test. -/
def logicClass (k : Nat) : Bool := decide (k ≤ 5)

/-- A calibration fails: its item's CODE then is a value that the manual does not give. -/
def Device.calFail (d : Device) (u : Nat) : Device :=
  let r := d.draw
  (r.2.calNote u (1 + r.1 % 19)).testFail u 2

/-- A TEST meets a condition that is no failure: the unit runs again at its group's next step instant (R526). -/
def Device.testWait (d : Device) (u : Nat) : Device := d.setUnitTest u { d.unitTest u with again := true }

/-- The check of a root finds its control word outside the middle 80 % of its band (R467): it reselects its band and relocks. -/
def Device.rootRelock (d : Device) (u : Nat) : Device :=
  ((d.setUState u 0 0xFFF).setFld (if u = 778 then F.CLK_STAT_A_LOCK else F.CLK_STAT_B_LOCK) 0).rotShow 8

/-- The calibration of a unit in TEST (R515 to R517, R519); event inputs and lanes need REFCLK, and `ok` says whether theirs, or a root's check,
succeeds. -/
def Device.calibrate (d : Device) (u : Nat) (ok : Bool) (rd : Readings) : Device :=
  let k := unitClass u
  if k = 5 then
    match calConverter (d.unitTest u).refUv (Config.factoryWord u) rd with
    | none => d.testFail u 2
    | some (c, s) => if c = cOK then d.testPass u s rd.temp else (d.flag F.CAL_FLAGS_REF_BAD Reg.CAL_REF_BAD_CNT).testWait u
  else if (k = 6 ∨ k = 7) ∧ !d.isSet F.CLK_STAT_REF_PRESENT then
    ((d.calNote u cREFLOST).flag F.CAL_FLAGS_SKIPPED Reg.CAL_SKIP_CNT).testWait u
  else if ok then (d.calNote u cOK).testPass u rd.sel rd.temp
  else if k = 8 then d.rootRelock u
  else d.calFail u

/-- A TEST completes (R526, R534): logic self-test with a signature, then the calibration of the unit. -/
def execSelfTestDone (u sig : Nat) (ok : Bool) (rd : Readings) (s : State) : Host.Outcome State Fault Refusal :=
  s.run (fun d =>
    let k := unitClass u
    if 780 ≤ u ∨ d.puState u ≠ 3 ∨ (d.unitTest u).again ∨ d.fld F.SYS_STAT_STATE ∈ [6, 7] then d
    else if !logicClass k then d.calibrate u ok rd
    else
      let d := d.flag F.BST_FLAGS_RUN Reg.BST_RUN_CNT
      if sig % 2 ^ 64 ≠ Config.goldenSig k % 2 ^ 64 then (d.flag F.BST_FLAGS_FAIL Reg.BST_FAIL_CNT).testFail u 1
      else if k = 5 then d.calibrate u ok rd
      else d.testPass u 0 rd.temp)

/-! Vacant roles. -/

/-- A logical engine's role becomes vacant and its state is lost (R278); what its local memory then holds is free (log entry 146). -/
def Device.engVacant (d : Device) (e : Nat) : Device :=
  let x := d.eng e
  let r := d.draw
  let d : Device := { r.2 with lmem := memWrite d.lmem (localAt e 0) (bytesLE 0x4000 r.1) }
  let d := d.setEng e { state := 4, code := x.code, busy := x.busy, fs := x.fs, fseq := x.fseq }
  let d := (d.setFld ⟨Reg.CL_VACANT (e / 16), ⟨e % 16, 1⟩⟩ 1).setFld (F.CL_FLAGS_VACANT (e / 16)) 1
  d.alarm e 0 0

/-- A role becomes vacant: what its class chapter says (R166, R196, R278, R399). -/
def Device.roleVacant (d : Device) (k r : Nat) : Device :=
  let d : Device := { d with rot := { d.rot with vacant := d.rot.vacant ++ [(k, r)] } }
  match k with
  | 0 => d.engVacant r
  | 1 => (d.setLive (d.fld F.XF_LIVE_MASK - (if bitAt (d.fld F.XF_LIVE_MASK) r then 2 ^ r else 0))).denTileLost r
  | 3 => (d.setFld ⟨Reg.CMP_VACANT, ⟨r, 1⟩⟩ 1).cmpVacant false r
  | 4 => (d.setFld ⟨Reg.CMP_U_VACANT, ⟨r, 1⟩⟩ 1).cmpVacant true r
  | _ => d

/-- A READY unit takes a vacant role of its group: what the vacancy had changed in its class ends. -/
def Device.roleFilled (d : Device) (k r : Nat) : Device :=
  match k with
  | 0 => (d.setEng r { d.eng r with state := 0 }).setFld ⟨Reg.CL_VACANT (r / 16), ⟨r % 16, 1⟩⟩ 0
  | 1 => d.setLive (Nat.lor (d.fld F.XF_LIVE_MASK) (2 ^ r))
  | 3 => d.setFld ⟨Reg.CMP_VACANT, ⟨r, 1⟩⟩ 0
  | 4 => d.setFld ⟨Reg.CMP_U_VACANT, ⟨r, 1⟩⟩ 0
  | _ => d

/-- A vacant role is filled when its group has a READY unit that no step or run uses (R166). -/
def Device.refill (d : Device) (k r : Nat) : Device :=
  let used := fun u => d.rot.bst.any (fun b => decide (b.1 = u)) ||
    (match d.rotStepOf k with | some x => decide (x.s = u) | none => false)
  match (groupUnits k (r / (rotClass k).2.2.2)).find? (fun u => decide (d.puState u = 0) && !used u) with
  | none => d
  | some u =>
    let d : Device := { d with rot := { d.rot with vacant := d.rot.vacant.filter (fun x => decide (x ≠ (k, r))) } }
    (((d.setUState u 4 r).roleFilled k r).unitService u r).rotShow k

/-- The vacant roles that a READY unit can take are filled. -/
def Device.refillAll (d : Device) : Device := d.rot.vacant.foldl (fun d x => d.refill x.1 x.2) d

/-! Commands (R532, R535). -/

/-- A command found its unit in another state (R23, R532). -/
def Device.rotMiss (d : Device) : Device := d.flag F.ROT_FLAGS_ROLE_MISS Reg.ROT_ROLE_MISS

/-- A step of the class is in SHADOW or SWAP, or about to be. -/
def Device.rotBusy (d : Device) (k : Nat) : Bool := (d.rotStepOf k).isSome

/-- STEP (R532). In a pause no step starts (R529). DESIGN CHOICE (log entry 140): the code then is BUSY. -/
def Device.rotStepCmd (d : Device) (u expect : Nat) : Nat × Device :=
  if 780 ≤ u then (cUNSUP, d)
  else if d.puState u ≠ expect then (cROLEMISS, d.rotMiss)
  else
    let k := unitClass u
    let g := unitGroup u
    let c := firstCode [
      (d.rotBusy k || !d.rotOn k, cBUSY),
      ((d.spareChoice k g).isNone, cNOSPARE),
      (logicClass k && !d.bstCond, cCONDITIONS),
      (decide (expect = 2), cUNSUP)]
    if c = cOK then d.stepStart k g none false
    else if c = cCONDITIONS then (c, d.flag F.ROT_FLAGS_PAUSED Reg.ROT_PAUSE_CNT)
    else (c, d)

/-- Abandon what a unit that is not LIVE does: its SHADOW ends with its step. -/
def Device.abandon (d : Device) (u : Nat) : Device :=
  match d.rotStepOf (unitClass u) with
  | some x => if x.s = u then d.stepEnd (unitClass u) else d
  | none => d

/-- WITHDRAW (R532). -/
def Device.rotWithdrawCmd (d : Device) (u expect : Nat) : Nat × Device :=
  if 780 ≤ u then (cUNSUP, d)
  else if d.puState u ≠ expect then (cROLEMISS, d.rotMiss)
  else
    let k := unitClass u
    match expect with
    | 5 => (cOK, d)
    | 0 => (cOK, (d.withdrawUnit u 3).abandon u)
    | 1 => (cOK, (d.withdrawUnit u 3).abandon u)
    | 3 => (cOK, d.withdrawUnit u 3)
    | 4 =>
      let spare := (d.spareChoice k (unitGroup u)).isSome
      let c := firstCode [(d.rotBusy k || (spare && !d.rotOn k), cBUSY), (decide (k = 8) && !spare, cUNSUP)]
      if c ≠ cOK then (c, d)
      else if spare then d.stepStart k (unitGroup u) (some u) true
      else (cOK, { d with rot := { d.rot with vacate := d.rot.vacate ++ [(u, d.time)] } })
    | _ => (cUNSUP, d)

/-- ROT_CMD_STAT after a host command. -/
def Device.rotReply (r : Nat × Device) : Device := r.2.setFld F.ROT_CMD_STAT_CODE r.1

/-- The fields of ROT_CMD that the write of a command carries (R3, R532); an OP of 0 or 3 is a write that HOST_REGISTER_WRITE refuses. -/
def Device.rotWrote (d : Device) (u expect op : Nat) : Device :=
  ((d.setFld F.ROT_CMD_UNIT u).setFld F.ROT_CMD_EXPECT expect).setFld F.ROT_CMD_OP op

def execRotCmdStep (u expect : Nat) (s : State) : Host.Outcome State Fault Refusal :=
  s.run (fun d => Device.rotReply ((d.rotWrote u expect 1).rotStepCmd u expect))

def execRotCmdWithdraw (u expect : Nat) (s : State) : Host.Outcome State Fault Refusal :=
  s.run (fun d => Device.rotReply ((d.rotWrote u expect 2).rotWithdrawCmd u expect))

def execRotStep (u : UCmd) (s : State) : Host.Outcome State Fault Refusal :=
  s.run (fun d => d.unitCmd 0x10 1 u fun d =>
    let r := d.rotStepCmd u.unit (u.imm % 8)
    r.2.complete u.origin r.1 none)

def execRotWithdraw (u : UCmd) (s : State) : Host.Outcome State Fault Refusal :=
  s.run (fun d => d.unitCmd 0x10 2 u fun d =>
    let r := d.rotWithdrawCmd u.unit (u.imm % 8)
    r.2.complete u.origin r.1 none)

/-- On-demand self-test (R535): its code; an accepted run goes on. -/
def Device.bstStart (d : Device) (u expect : Nat) (o : Origin) : Nat × Device :=
  if 780 ≤ u then (cUNSUP, d)
  else if d.puState u ≠ expect then (cROLEMISS, d.rotMiss)
  else
    let c := firstCode [
      (d.rot.bst.isSome, cBUSY),
      (logicClass (unitClass u) && !d.bstCond, cCONDITIONS),
      (!logicClass (unitClass u) || !decide (expect = 0 ∨ expect = 5), cUNSUP)]
    if c = cOK then (c, Device.setFld { d with rot := { d.rot with bst := some (u, o, 0) } } F.BST_CMD_STAT_BUSY 1)
    else if c = cCONDITIONS then (c, d.flag F.BST_FLAGS_CONDITIONS Reg.BST_COND_CNT)
    else (c, d)

/-- The fields of BST_CMD that the write of a command carries (R3, R535). -/
def Device.bstWrote (d : Device) (u expect : Nat) : Device := (d.setFld F.BST_CMD_UNIT u).setFld F.BST_CMD_EXPECT expect

def execBstCmdGo (u expect : Nat) (s : State) : Host.Outcome State Fault Refusal :=
  s.run (fun d =>
    let r := (d.bstWrote u expect).bstStart u expect .host
    let d := r.2.setFld F.BST_CMD_STAT_CODE r.1
    if r.1 = cOK then d.setFld F.BST_CMD_GO 1 else d)

def execBstRun (u : UCmd) (s : State) : Host.Outcome State Fault Refusal :=
  s.run (fun d => d.unitCmd 0x11 1 u fun d =>
    let r := d.bstStart u.unit (u.imm % 8) u.origin
    if r.1 = cOK then r.2 else r.2.complete u.origin r.1 none)

/-- An on-demand run ends with a signature (R534, R535): a READY unit that fails runs once more, and is withdrawn when it fails
again. -/
def execBstRunDone (sig : Nat) (s : State) : Host.Outcome State Fault Refusal :=
  s.run (fun d =>
    match d.rot.bst with
    | none => d
    | some (u, o, fails) =>
      let pass := decide (sig % 2 ^ 64 = Config.goldenSig (unitClass u) % 2 ^ 64)
      let d := (d.wr64 Reg.BST_SIG_LO (sig % 2 ^ 64)).flag F.BST_FLAGS_RUN Reg.BST_RUN_CNT
      let d := if pass then d else d.flag F.BST_FLAGS_FAIL Reg.BST_FAIL_CNT
      if !pass ∧ d.puState u = 0 ∧ fails = 0 then { d with rot := { d.rot with bst := some (u, o, 1) } }
      else
        let d := { d with rot := { d.rot with bst := none } }
        let d := if !pass ∧ d.puState u = 0 then d.withdrawUnit u 1 else d
        let p := if pass then 1 else 0
        let d := ((d.setFld F.BST_CMD_STAT_BUSY 0).setFld F.BST_CMD_STAT_PASS p).setFld F.BST_CMD_STAT_CODE cOK
        match o with
        | .host => d.setFld F.BST_CMD_GO 0
        | _ => d.complete o cOK (some (BitVec.ofNat 64 p)))

/-- Rotation of a class pauses (R529): a unit in SHADOW or SWAP returns to READY, and no step waits. -/
def Device.rotPause (d : Device) (k : Nat) : Device :=
  let d := match d.rotStepOf k with
    | some x => if x.phase = 0 then d else d.setUState x.s (if k = 8 then 1 else 0) (if k = 8 then 0 else 0xFFF)
    | none => d
  ((d.setRotStep k none).setDeferred k []).rotShow k

/-- A write of ROT_CFG or ROT_K_CFG has changed what is enabled (R523, R529). -/
def Device.rotEnables (d0 d : Device) : Device :=
  (List.range 9).foldl (fun d k =>
    let on := fun (x : Device) => x.isSet F.ROT_CFG_EN && x.isSet (F.ROT_K_CFG_EN k)
    if on d0 == on d then d
    else if on d then
      Device.rotShow { d with rot := { d.rot with
        s0 := Sparse.set (fun _ => 0) d.rot.s0 k d.time, next := d.rot.next.filter (fun x => decide (x.1 / 64 ≠ k)) } } k
    else d.rotPause k) d

end Sys2Proof.Machine
end

