-- ==== Sys2Proof/Machine/Clocks.lean ====
section
/-! DEFINITION. Clock root, synthesis and clock outputs (chapter of that name): the reference (R450 to R452), root values and lock (R453 to R457),
switches, failover and changes (R460 to R466), holdover (R468 to R470), and the clock outputs (R471 to R474). -/

namespace Sys2Proof.Machine

/-- The active root and the standby: 0 A, 1 B. -/
def Device.activeRoot (d : Device) : Nat := d.fld F.CLK_STAT_ACTIVE
def Device.standby (d : Device) : Nat := 1 - d.activeRoot

/-- The lock bit of a root. -/
def lockBit (r : Nat) : FieldAt := if r = 0 then F.CLK_STAT_A_LOCK else F.CLK_STAT_B_LOCK

/-- The rotation unit of a root (R531). -/
def rootUnit (r : Nat) : Nat := 778 + r

/-- Whether a root is withdrawn. -/
def Device.rootGone (d : Device) (r : Nat) : Bool := decide (d.puState (rootUnit r) = 5)

/-- The standby is READY (R462): the SHADOW state of the root class. -/
def Device.standbyReady (d : Device) : Device :=
  (d.setUState (rootUnit d.standby) 1 0).setFld F.CLK_STAT_STANDBY_READY 1

/-- The standby is not READY. -/
def Device.standbyOut (d : Device) : Device :=
  let d := d.setFld F.CLK_STAT_STANDBY_READY 0
  if d.rootGone d.standby ∨ d.puState (rootUnit d.standby) = 3 then d else d.setUState (rootUnit d.standby) 0 0xFFF

/-- The switch moves to the other root (R460, R461): CLK_SWITCH records the device time. -/
def Device.rootSwitch (d : Device) (at' : Time) : Device :=
  let old := d.activeRoot
  let d := (d.setFld F.CLK_STAT_ACTIVE (1 - old)).wrTime Reg.CLK_SWITCH_LO at'
  let d := (d.setUState (rootUnit (1 - old)) 4 0).setFld F.CLK_STAT_STANDBY_READY 0
  if d.rootGone old then d else d.setUState (rootUnit old) 0 0xFFF

/-- A REFCLK-sourced output that runs. -/
def Device.ckoRef (d : Device) (o : Nat) : Bool := d.isSet (F.CKO_STAT_RUNNING o) && d.isSet (F.CKO_CFG_SRC o)

/-- The lane PLLs that take REFCLK lose lock: those of native receive groups and of all transmit groups (R452). -/
def Device.lanePllsLost (d : Device) : Device :=
  let d := (List.range 8).foldl (fun d g => if d.isSet (F.LNK_G_CFG_FRAMING g) then d else d.setFld (F.LNK_G_CFG_PLL_LOCK g) 0) d
  (List.range 6).foldl (fun d g => d.setFld (F.LNK_TG_CFG_PLL_LOCK g) 0) d

/-- REFCLK is absent (R452); in step 1 of R337 the device waits for it again (R338). -/
def execRefclkLost (s : State) : Host.Outcome State Fault Refusal :=
  s.run (fun d =>
    if d.isSet F.CLK_STAT_REF_PRESENT then
      let d := ((d.setFld F.CLK_STAT_REF_PRESENT 0).flag F.CLK_FLAGS_REF_LOST Reg.CLK_REF_LOST_CNT).lanePllsLost
      let d := if d.fld F.SYS_STAT_STATE = 1 ∧ !d.sys.started then
          ((d.setFld F.SYS_STAT_REF_WAIT 1).setFld F.CLK_STAT_A_LOCK 0).setFld F.CLK_STAT_B_LOCK 0 else d
      (List.range 8).foldl (fun d o => if d.ckoRef o then d.setFld (F.CKO_STAT_STALLED o) 1 else d) d
    else d)

def execRefclkPresent (s : State) : Host.Outcome State Fault Refusal :=
  s.run (fun d =>
    if d.isSet F.CLK_STAT_REF_PRESENT ∨ !d.sys.started then d
    else
      (List.range 8).foldl (fun d o => if d.ckoRef o then d.setFld (F.CKO_STAT_STALLED o) 0 else d)
        (d.setFld F.CLK_STAT_REF_PRESENT 1))

/-- Step 1 of R337 ends (R338): the active root carries the clocks, a locked standby is READY, and TCLK runs from here on. -/
def Device.stepOneEnd (d : Device) : Device :=
  let d := d.setUState (rootUnit d.activeRoot) 4 0
  let d := if d.isSet (lockBit d.standby) then d.standbyReady else d
  Device.rotShow { d with sys := { d.sys with started := true } } 8

/-- Whether step 1 of R337 waits for the roots to lock. -/
def Device.locking (d : Device) : Bool :=
  decide (d.fld F.SYS_STAT_STATE = 1) && !d.sys.started && d.isSet F.CLK_STAT_REF_PRESENT

/-- A root locks (R455). In holdover it will end holdover at the next boundary (R470); otherwise a standby at the active values
becomes READY (R462, R463). The lock of a retuned or settling root is the change's own event. -/
def execRootLock (r : Nat) (s : State) : Host.Outcome State Fault Refusal :=
  s.run (fun d =>
    if 1 < r ∨ d.rootGone r ∨ !d.isSet F.CLK_STAT_REF_PRESENT then d
    else
      let d := { d.setFld (lockBit r) 1 with roots := { d.roots with fails := if r = d.standby then 0 else d.roots.fails } }
      if d.locking then (if d.isSet (lockBit (1 - r)) then d.stepOneEnd else d)
      else if d.isSet F.CLK_STAT_HOLDOVER then
        if d.roots.takeover.isNone ∧ (r = d.standby ∨ d.rootGone d.standby) then
          { d with roots := { d.roots with takeover := some (r, d.time) } }
        else d
      else if r = d.standby ∧ d.fld F.CLK_CHANGE_STAT_STATE = 0 ∧ !d.roots.probe ∧ d.puState (rootUnit r) ≠ 3 then d.standbyReady
      else d)

/-- Holdover is entered (R468). -/
def Device.holdover (d : Device) : Device :=
  ((((d.setFld F.CLK_STAT_HOLDOVER 1).flag F.CLK_FLAGS_HOLDOVER Reg.CLK_HOLDOVER_CNT).wrTime Reg.CLK_HOLD_LO d.time)).recheck

/-- A rotation step of the roots cannot go on without its standby. -/
def Device.rootStepOff (d : Device) : Device :=
  if (d.rotStepOf 8).isSome then (d.setRotStep 8 none).rotShow 8 else d

/-- A root loses lock (R455): failover (R463), holdover (R464, R468), or a standby that is no longer READY; without REFCLK the standby has lost
lock too. -/
def execRootLockLost (r : Nat) (s : State) : Host.Outcome State Fault Refusal :=
  s.run (fun d =>
    if 1 < r ∨ !d.isSet (lockBit r) then d
    else
      let d := (d.setFld (lockBit r) 0).flag F.CLK_FLAGS_LOCK_LOST Reg.CLK_LOCK_LOST_CNT
      if r = d.activeRoot then
        if d.isSet F.CLK_STAT_HOLDOVER then d
        else if d.isSet F.CLK_STAT_STANDBY_READY && d.isSet F.CLK_STAT_REF_PRESENT then
          (d.rootStepOff.rootSwitch d.time).flag F.CLK_FLAGS_FAILOVER Reg.CLK_FAILOVER_CNT
        else d.rootStepOff.holdover
      else if d.rootGone r then d
      else
        let d := d.rootStepOff.standbyOut
        if d.roots.takeover.any (fun t => decide (t.1 = r)) then { d with roots := { d.roots with takeover := none } } else d)

/-- The standby fails to relock within 10 ms: the third time in a row it is withdrawn (R463). -/
def execRootRelockTimeout (r : Nat) (s : State) : Host.Outcome State Fault Refusal :=
  s.run (fun d =>
    if r = d.standby ∧ !d.isSet (lockBit r) ∧ !d.rootGone r then
      let n := d.roots.fails + 1
      if n < 3 then { d with roots := { d.roots with fails := n } }
      else Device.withdrawUnit { d with roots := { d.roots with fails := 0 } } (rootUnit r) 5
    else d)

/-! The fractional modulators (R454). -/

/-- The dither LFSR, polynomial x^32 + x^22 + x^2 + x + 1, after a PFD cycle. DESIGN CHOICE (log entry 133): Fibonacci form, shifted towards bit 31. -/
def lfsrStep (x : Nat) : Nat := (x * 2 + (bitsOf x 31 1 + bitsOf x 21 1 + bitsOf x 1 1 + bitsOf x 0 1) % 2) % 2 ^ 32

/-- The values that a modulator runs. -/
def Mash.values (m : Mash) : Nat × Nat × Nat := (m.cfg, m.frac, m.seed)

/-- The dither added to the modulator's input: one least significant bit where the LFSR says so; none with a seed of 0. -/
def Mash.dither (m : Mash) : Nat := if m.seed = 0 then 0 else m.lfsr % 2

/-- One PFD cycle of the third-order MASH modulator: three accumulators in a row, and the carries shaped as c1 + (1 - z) c2 + (1 - z)^2 c3. -/
def Mash.cycle (m : Mash) : Mash :=
  let s1 := m.a1 + m.frac + m.dither
  let s2 := m.a2 + s1 % 2 ^ 32
  let s3 := m.a3 + s2 % 2 ^ 32
  let c (s : Nat) : Nat := s / 2 ^ 32
  { m with a1 := s1 % 2 ^ 32, a2 := s2 % 2 ^ 32, a3 := s3 % 2 ^ 32, c2 := c s2, c3 := c s3, c3' := m.c3,
           lfsr := if m.seed = 0 then m.lfsr else lfsrStep m.lfsr,
           out := (c s1 : Int) + ((c s2 : Int) - m.c2) + ((c s3 : Int) - 2 * m.c3 + m.c3') }

/-- Some PFD cycles. -/
def Mash.cycles (m : Mash) : Nat → Mash
  | 0 => m
  | n + 1 => Mash.cycles m.cycle n

/-- The modulator after a TCLK edge: `num / den` PFD cycles pass between two edges, exactly. -/
def Mash.advance (m : Mash) (num den : Nat) : Mash :=
  let p := m.phase + num
  { m.cycles (p / den) with phase := p % den }

/-- The modulator of a root: 0 A, 1 B. -/
def Device.mash (d : Device) (r : Nat) : Mash := if r = 0 then d.roots.modA else d.roots.modB
def Device.setMash (d : Device) (r : Nat) (m : Mash) : Device :=
  { d with roots := if r = 0 then { d.roots with modA := m } else { d.roots with modB := m } }

/-- The values that a root runs: the standby has those of a CHANGE that it is retuned for (R466). -/
def Device.mashWant (d : Device) (r : Nat) : Nat × Nat × Nat :=
  if r ≠ d.activeRoot ∧ d.fld F.CLK_CHANGE_STAT_STATE ∈ [1, 2] then (d.roots.nCfg, d.roots.nFrac, d.roots.nSeed)
  else (d.rdN Reg.CLK_CUR_CFG, d.rdN Reg.CLK_CUR_FRAC, d.rdN Reg.CLK_CUR_SEED)

/-- A root takes the values it is to run: in step with the other root where that one runs the same, from cleared accumulators and the seed otherwise. -/
def Device.mashLoad (d : Device) (r : Nat) : Device :=
  let w := d.mashWant r
  if (d.mash r).values = w then d
  else
    let o := d.mash (1 - r)
    d.setMash r (if o.values = w then o else { cfg := w.1, frac := w.2.1, seed := w.2.2, lfsr := w.2.2 })

/-- The modulators go on by the PFD cycles of one TCLK period, 8 / f_root, while REFCLK is present. -/
def Device.pfdTick (d : Device) : Device :=
  let d := (d.mashLoad d.activeRoot).mashLoad d.standby
  if !d.isSet F.CLK_STAT_REF_PRESENT then d
  else
    let cfg := d.rdN Reg.CLK_CUR_CFG
    let num := 8 * 2 ^ 32 * bitsOf cfg 0 4
    let root := bitsOf cfg 16 10 * 2 ^ 32 + d.rdN Reg.CLK_CUR_FRAC
    let go (m : Mash) : Mash := m.advance num (bitsOf m.cfg 0 4 * root)
    (d.setMash 0 (go (d.mash 0))).setMash 1 (go (d.mash 1))

/-! Frequency changes (R465, R466). -/

/-- Whether the band table covers a frequency in GHz (R456). -/
def Device.bandCovers (d : Device) (f : ℚ) : Bool :=
  (List.range 16).any (fun e => d.isSet (F.CLK_BAND0_VALID e) && decide (((d.fld (F.CLK_BAND0_F_MIN e) : Nat) : ℚ) ≤ f * 1000) &&
    decide (f * 1000 ≤ ((d.fld (F.CLK_BAND0_F_MAX e) : Nat) : ℚ)))

/-- The highest frequency of an output format, in GHz (R471). -/
def ckoLimit (fmt : Nat) : ℚ := if fmt = 0 then 3 / 2 else if fmt = 1 then 2 else if fmt = 2 then 2 / 5 else 1 / 4

/-- Whether the values of an output lie within R471, for a source frequency in GHz. -/
def Device.ckoInRange (d : Device) (o : Nat) (src : ℚ) : Bool :=
  let n := bitsOf (d.rdN (Reg.CKO_DIV o)) 0 13
  let f : ℚ := src / (n : ℚ)
  decide (0 < n) && (if d.isSet (F.CKO_CFG_SRC o) then decide (n ≤ 250) else decide (4 ≤ n)) &&
    decide ((1 : ℚ) / 1000 ≤ f) && decide (f ≤ ckoLimit (d.fld (F.CKO_CFG_FORMAT o)))

/-- Whether root values lie within R453, and the frequency they give. -/
def rootLegal (ref cfg frac : Nat) : Bool :=
  let p := bitsOf cfg 0 4
  let i := bitsOf cfg 16 10
  let f := rootOf ref cfg frac
  decide (1 ≤ p) && decide (p ≤ 8) && decide (10000000 * p ≤ ref) && decide (ref ≤ 250000000 * p) && decide (16 ≤ i) &&
    decide ((36 : ℚ) / 5 ≤ f) && decide (f ≤ 8)

/-- The check of CHANGE (R465). -/
def Device.changeCode (d : Device) (cfg frac : Nat) : Nat :=
  let ref := d.rdN Reg.CLK_REF_FREQ
  let f := rootOf ref cfg frac
  let rotDue := match d.rotStepOf 8 with
    | some x => decide (2 ≤ x.phase)
    | none => false
  firstCode [
    (decide (d.fld F.CLK_CHANGE_STAT_STATE ≠ 0) || d.roots.probe || rotDue, cBUSY),
    (d.rootGone d.standby, cNOSPARE),
    (!d.ratesAdmitted [] d.time (f / 8), cSCHEDULE),
    (!d.isSet F.CLK_STAT_REF_PRESENT || d.isSet F.CLK_STAT_HOLDOVER, cREFLOST),
    (!rootLegal ref cfg frac || !d.bandCovers f ||
      (List.range 16).any (fun z => d.isSet (F.CHN_Z_STAT_RUNNING z) &&
        decide (f / 8 * (d.zR z : ℚ) * d.sNs (d.fld (F.CHN_Z_CFG_SOURCE z)) < 1)) ||
      (List.range 8).any (fun o => d.isSet (F.CKO_STAT_RUNNING o) && !d.isSet (F.CKO_CFG_SRC o) && !d.ckoInRange o f), cUNSUP)]

/-- A CHANGE request (R465, R466): its code; an accepted one retunes the standby. -/
def Device.changeReq (d : Device) (cfg frac seed : Nat) (at' : Time) (o : Origin) : Nat × Device :=
  let c := d.changeCode cfg frac
  let d := d.setFld F.CLK_CHANGE_STAT_CODE c
  if c ≠ cOK then (c, d)
  else
    let d := (d.rootStepOff.standbyOut.setFld F.CLK_CHANGE_STAT_STATE 1).setFld (lockBit d.standby) 0
    (c, Device.rotPause { d with roots := { d.roots with nCfg := cfg, nFrac := frac, nSeed := seed, nRef := d.rdN Reg.CLK_REF_FREQ, changeAt := at', origin := some o } } 8)

def execClkChangeCtlGo (s : State) : Host.Outcome State Fault Refusal :=
  s.run (fun d =>
    let r := d.changeReq (d.rdN Reg.CLK_NEXT_CFG) (d.rdN Reg.CLK_NEXT_FRAC) (d.rdN Reg.CLK_NEXT_SEED) (d.rdTime Reg.CLK_CHANGE_AT_LO) .host
    if r.1 = cOK then r.2.setFld F.CLK_CHANGE_CTL_GO 1 else r.2)

def execClkChange (u : UCmd) (s : State) : Host.Outcome State Fault Refusal :=
  s.run (fun d => d.unitCmd 0x01 1 u fun d =>
    let r := d.changeReq (u.word 0) (u.word 4) (u.word 8) (BitVec.ofNat 64 (u.dword 16)) u.origin
    if r.1 = cOK then r.2 else r.2.complete u.origin r.1 none)

/-- The end of a change (R466): its code and stamp. -/
def Device.changeEnd (d : Device) (c : Nat) (stamp : Option Time) : Device :=
  let o := d.roots.origin
  let d := { d with roots := { d.roots with origin := none } }
  let d := ((d.setFld F.CLK_CHANGE_STAT_STATE 0).setFld F.CLK_CHANGE_STAT_CODE c).rotShow 8
  match o with
  | some .host => d.setFld F.CLK_CHANGE_CTL_GO 0
  | some o => d.complete o c stamp
  | none => d

def execChangeRetuned (s : State) : Host.Outcome State Fault Refusal :=
  s.run (fun d =>
    if d.fld F.CLK_CHANGE_STAT_STATE = 1 then
      ((d.setFld F.CLK_CHANGE_STAT_STATE 2).setFld (lockBit d.standby) 1).request .clkSwitch 0 d.roots.changeAt .device []
    else d)

def execChangeLockTimeout (s : State) : Host.Outcome State Fault Refusal :=
  s.run (fun d =>
    if d.fld F.CLK_CHANGE_STAT_STATE = 1 then
      (d.flag F.CLK_FLAGS_CHANGE_FAIL Reg.CLK_CHANGE_FAIL_CNT).changeEnd cCONDITIONS none
    else d)

/-- The switch of a change at its boundary (R466 step 3, R459): the new values are in force. -/
def Device.changeSwitch (d : Device) (b : Time) : Device :=
  let d := d.rootSwitch b
  let d := ((d.wr Reg.CLK_CUR_CFG d.roots.nCfg).wr Reg.CLK_CUR_FRAC d.roots.nFrac).wr Reg.CLK_CUR_SEED d.roots.nSeed
  let d := { d with roots := { d.roots with ref := d.roots.nRef, stamp := b, takeover := none } }
  let d := ((d.setFld F.CLK_CHANGE_STAT_STATE 3).setFld (lockBit d.standby) 0).setFld F.CLK_STAT_HOLDOVER 0
  d.setLive (d.fld F.XF_LIVE_MASK)

def execChangeSettled (s : State) : Host.Outcome State Fault Refusal :=
  s.run (fun d =>
    if d.fld F.CLK_CHANGE_STAT_STATE = 3 then
      ((d.setFld (lockBit d.standby) 1).standbyReady).changeEnd cOK (some d.roots.stamp)
    else d)

/-- Holdover ends at a boundary after the relock (R470): by a switch to the standby, or by the frozen root's own loop. -/
def Device.holdoverEnd (d : Device) (b : Time) : Device :=
  match d.roots.takeover with
  | some (r, t) =>
    if timeLT t b then
      let d := { d with roots := { d.roots with takeover := none } }
      let d := if r = d.activeRoot then d else d.rootSwitch b
      (d.setFld F.CLK_STAT_HOLDOVER 0).recheck
    else d
  | none => d

/-! The probe (R457). DEDUCED (log entry 71): CODE of CLK_PROBE_RESULT is the completion code of R13. -/

def execClkProbeGo (code : Nat) (s : State) : Host.Outcome State Fault Refusal :=
  s.run (fun d =>
    let d := d.setFld F.CLK_PROBE_CODE code
    let c := firstCode [
      (!d.isSet F.CLK_STAT_STANDBY_READY || decide (d.fld F.CLK_CHANGE_STAT_STATE ≠ 0) || d.roots.probe, cBUSY),
      (!d.isSet F.CLK_STAT_REF_PRESENT, cREFLOST)]
    if c = cOK then
      let d := d.rootStepOff.standbyOut
      (Device.setFld { d with roots := { d.roots with probe := true } } F.CLK_PROBE_GO 1).setFld (lockBit d.standby) 0
    else d.setFld F.CLK_PROBE_RESULT_CODE c)

def execProbeDone (mhz : Nat) (s : State) : Host.Outcome State Fault Refusal :=
  s.run (fun d =>
    if d.roots.probe then
      let d := Device.setFld { d with roots := { d.roots with probe := false } } F.CLK_PROBE_GO 0
      ((d.setFld F.CLK_PROBE_RESULT_MHZ mhz).setFld F.CLK_PROBE_RESULT_VALID 1).setFld F.CLK_PROBE_RESULT_CODE cOK
    else d)

/-! Clock outputs (R471 to R474). -/

def Device.cko (d : Device) (o : Nat) : Cko := Sparse.get (fun _ => {}) d.ckos o
def Device.setCko (d : Device) (o : Nat) (x : Cko) : Device := { d with ckos := Sparse.set (fun _ => {}) d.ckos o x }

/-- The source frequency of an output, in GHz. -/
def Device.ckoSource (d : Device) (o : Nat) : ℚ :=
  if d.isSet (F.CKO_CFG_SRC o) then (d.roots.ref : ℚ) / 10 ^ 9 else d.fRoot

/-- The check of START (R472). -/
def Device.ckoCode (d : Device) (o : Nat) : Nat :=
  firstCode [
    (decide (bitsOf (d.rdN (Reg.CKO_DIV o)) 0 13 = 0), cLENGTH),
    (d.isSet (F.CKO_STAT_RUNNING o) || d.isSet (F.CKO_STAT_PENDING o), cBUSY),
    (d.isSet (F.CKO_CFG_SRC o) && !d.isSet F.CLK_STAT_REF_PRESENT, cREFLOST),
    (!d.ckoInRange o (d.ckoSource o), cUNSUP)]

/-- Schedule a start or a stop of an output (R472). -/
def Device.ckoReq (d : Device) (o : Nat) (start : Bool) (at' : Time) (og : Origin) : Device :=
  let c := if start then d.ckoCode o else if d.isSet (F.CKO_STAT_PENDING o) then cBUSY else cOK
  let d := d.setFld (F.CKO_STAT_CODE o) c
  if c ≠ cOK then d.complete og c none
  else
    let d := (d.request (if start then .ckoStart else .ckoStop) o at' og []).setFld (F.CKO_STAT_PENDING o) 1
    match og with
    | .host => d.setFld (if start then F.CKO_CTL_START o else F.CKO_CTL_STOP o) 1
    | _ => d

/-- A request of an output takes effect (R472, R473). -/
def Device.ckoApply (d : Device) (r : BReq) (b : Time) : Device :=
  let o := r.obj
  let start := decide (r.kind = .ckoStart)
  let d := (d.dropReq r.kind o).setFld (F.CKO_STAT_PENDING o) 0
  let d := (d.setFld (F.CKO_STAT_RUNNING o) (if start then 1 else 0)).setFld (F.CKO_STAT_STALLED o)
    (if start && d.isSet (F.CKO_CFG_SRC o) && !d.isSet F.CLK_STAT_REF_PRESENT then 1 else 0)
  let d := if start then d.setCko o { d.cko o with start := b } else d
  (d.setFld (if start then F.CKO_CTL_START o else F.CKO_CTL_STOP o) 0).complete r.origin cOK (some b)

/-- The device time of rising edge `k` of a root-sourced output, in units of 2^-16 ns (R473). -/
def Device.ckoEdge (d : Device) (o k : Nat) : ℚ :=
  ((d.cko o).start.toNat : ℚ) + 65536 * ((bitsOf (d.rdN (Reg.CKO_DELAY o)) 0 10 : ℚ) / 1000 +
    (k : ℚ) * (bitsOf (d.rdN (Reg.CKO_DIV o)) 0 13 : ℚ) / d.fRoot)

def execCkoCtlStart (o : Nat) (s : State) : Host.Outcome State Fault Refusal :=
  s.run (fun d => if o < 8 then d.ckoReq o true (d.rdTime (Reg.CKO_AT_LO o)) .host else d)

def execCkoCtlStop (o : Nat) (s : State) : Host.Outcome State Fault Refusal :=
  s.run (fun d => if o < 8 then d.ckoReq o false (d.rdTime (Reg.CKO_AT_LO o)) .host else d)

/-- OUTPUT of an engine with START in IMM [0] (R472). -/
def execClkOutputStart (u : UCmd) (s : State) : Host.Outcome State Fault Refusal :=
  s.run (fun d => if bitAt u.imm 0 then d.unitCmd 0x01 2 u fun d => d.ckoReq u.unit true (BitVec.ofNat 64 (u.dword 0)) u.origin else d)

/-- OUTPUT of an engine with STOP in IMM [1] (R472). DESIGN CHOICE (log entry 135): with both bits START alone acts, and with neither the word
completes with OK and has no effect. -/
def execClkOutputStop (u : UCmd) (s : State) : Host.Outcome State Fault Refusal :=
  s.run (fun d =>
    if bitAt u.imm 0 then d
    else d.unitCmd 0x01 2 u fun d =>
      if bitAt u.imm 1 then d.ckoReq u.unit false (BitVec.ofNat 64 (u.dword 0)) u.origin else d.complete u.origin cOK none)

end Sys2Proof.Machine
end

