-- ==== Sys2Proof/Machine/EventStats.lean ====
section
/-! DEFINITION. Interval statistics (R488 to R493): pairing, exact accumulation, blocks and their records. -/

namespace Sys2Proof.Machine

def Device.stat (d : Device) (t : Nat) : StatU := Sparse.get (fun _ => {}) d.stats t
def Device.setStat (d : Device) (t : Nat) (x : StatU) : Device := { d with stats := Sparse.set (fun _ => {}) d.stats t x }

def Device.stState (d : Device) (t : Nat) : Nat := d.fld (F.EVT_S_STAT_STATE t)
def Device.stPair (d : Device) (t : Nat) : Nat := d.fld (F.EVT_S_CFG_PAIR t)
def Device.stN (d : Device) (t : Nat) : Nat := bitsOf (d.rdN (Reg.EVT_S_N t)) 0 25

/-- The square root of `n / m` rounded to the nearest integer, ties to even. -/
def roundSqrt (n m : Nat) : Nat :=
  let r := isqrt (n / m)
  if (2 * r + 1) ^ 2 * m < 4 * n then r + 1
  else if (2 * r + 1) ^ 2 * m = 4 * n then r + r % 2
  else r

/-- MEAN of a block (R489). -/
def StBlock.mean (b : StBlock) : Int := if b.n = 0 then 0 else roundHalfEven b.sum b.n

/-- STD of a block (R489). -/
def StBlock.std (b : StBlock) : Nat :=
  if b.n < 2 then 0 else roundSqrt ((b.n : Int) * b.sq - b.sum * b.sum).toNat (b.n * (b.n - 1))

/-- The interval of a start and a stop, in units of 2^-16 ns (R477, R490). -/
def interval (a c : StEdge) : Int := (c.t - a.t).toInt

/-- A block takes an interval (R489, R490). -/
def StBlock.take (b : StBlock) (a c : StEdge) : StBlock :=
  let x := interval a c
  { b with
    n := b.n + 1, sum := b.sum + x, sq := b.sq + x * x
    lo := if b.n = 0 then x else min b.lo x
    hi := if b.n = 0 then x else max b.hi x
    neg := if x < 0 then b.neg + 1 else b.neg
    first := match b.first with
      | none => some (if 0 ≤ x then a else c)
      | some e => some e
    last := let m := if 0 ≤ x then c.t else a.t
      if b.n = 0 ∨ timeLT b.last m then m else b.last
    order := b.order || decide (x < -1024)
    wrap := b.wrap || decide (0 ≤ x ∧ c.t.toNat < a.t.toNat) || decide (x < 0 ∧ a.t.toNat < c.t.toNat)
    hold := b.hold || a.hold || c.hold }

/-- An INTERVAL_STATS record (R493). -/
def Device.statRecord (d : Device) (t : Nat) (b : StBlock) (trunc : Bool) : List Byte :=
  let e := b.first.getD ⟨0, 0, false⟩
  let cfg := d.rdN (Reg.EVT_S_CFG t)
  recHead 0x19 ((if b.hold then 2 else 0) + (if trunc then 0x20 else 0)) 128 0 e.t.toNat ++
    bytesLE 8 (wrap 64 b.mean) ++ bytesLE 8 b.std ++ bytesLE 8 (wrap 64 b.lo) ++ bytesLE 8 (wrap 64 b.hi) ++ bytesLE 4 b.n ++
    bytesLE 4 b.neg ++ bytesLE 4 b.unpaired ++ bytesLE 4 b.lost ++ bytesLE 8 b.last.toNat ++ bytesLE 2 e.epoch ++
    bytesLE 1 ((if b.order then 1 else 0) + (if b.wrap then 2 else 0)) ++ bytesLE 1 (bitsOf cfg 8 3) ++ bytesLE 1 (bitsOf cfg 0 4) ++
    bytesLE 1 (bitsOf cfg 4 4) ++ List.replicate 34 0

/-- A block ends (R492): its results, its record, and the next block. -/
def Device.stBlockEnd (d : Device) (t : Nat) (trunc : Bool) : Device :=
  let x := d.stat t
  let b := x.blk
  let d := ((d.wr64 (Reg.EVT_S_MEAN_LO t) (wrap 64 b.mean)).wr64 (Reg.EVT_S_STD_LO t) b.std).wr64 (Reg.EVT_S_MIN_LO t)
    (wrap 64 b.lo)
  let d := (d.wr64 (Reg.EVT_S_MAX_LO t) (wrap 64 b.hi)).inc (Reg.EVT_S_BLOCKS t)
  let d := if b.order then d.flag F.EVT_FLAGS_ORDER Reg.EVT_ORDER_CNT else d
  let d := if d.isSet (F.EVT_S_QUEUE_Q_EN t) then d.qOffer (d.fld (F.EVT_S_QUEUE_QUEUE t)) (d.statRecord t b trunc) 0x0D t else d
  if trunc ∨ !d.isSet (F.EVT_S_CFG_REPEAT t) then (d.setStat t {}).setFld (F.EVT_S_STAT_STATE t) 0
  else d.setStat t { x with blk := {} }

/-- An interval enters the block, which ends at its N-th (R492). -/
def Device.stTake (d : Device) (t : Nat) (a c : StEdge) : Device :=
  let x := d.stat t
  let b := x.blk.take a c
  let d := d.setStat t { x with blk := b }
  if d.stN t ≤ b.n then d.stBlockEnd t false else d

/-- An edge without a partner (R488). -/
def Device.stUnpaired (d : Device) (t : Nat) : Device :=
  let x := d.stat t
  (d.setStat t { x with blk := { x.blk with unpaired := x.blk.unpaired + 1 } }).flag F.EVT_FLAGS_UNPAIRED Reg.EVT_UNPAIRED_CNT

/-- ORDINAL: pair the oldest waiting edges (R488). -/
def Device.stOrdinal (d : Device) (t : Nat) : Nat → Device
  | 0 => d
  | fuel + 1 =>
    let x := d.stat t
    match x.starts, x.stops with
    | a :: as, c :: cs =>
      if d.stState t = 2 then Device.stOrdinal ((d.setStat t { x with starts := as, stops := cs }).stTake t a c) t fuel else d
    | _, _ => d

/-- The last 64 waiting edges of a side, and whether one was discarded. -/
def keep64 (l : List StEdge) : Bool × List StEdge := if 64 < l.length then (true, l.tail) else (false, l)

/-- LATEST: the START edge for a STOP edge (R488), from the starts, newest first. -/
def latestStart (window : Nat) (c : StEdge) (l : List StEdge) : Option StEdge :=
  match l.find? (fun a => decide ((a.t - c.t).toInt ≤ 1024)) with
  | some a => if (c.t - a.t).toInt ≤ ((window * 65536 : Nat) : Int) then some a else none
  | none => none

/-- LATEST: the START edges, oldest first, that a STOP edge at or after `c` may still partner. -/
def stillUsable (c : StEdge) : List StEdge → List StEdge
  | a :: b :: l => if (b.t - c.t).toInt ≤ 1024 then stillUsable c (b :: l) else a :: b :: l
  | l => l

/-- The earliest stamp that an edge of an input may still get (R482). -/
def Device.edgeFrom (d : Device) (n : Nat) : Time := d.time - BitVec.ofInt 64 (signed 32 (d.rdN (Reg.EVT_I_OFS n)))

/-- LATEST: resolve the STOP edges that no further START edge can partner, all those more than 1,024 units before `t0`. -/
def Device.stLatest (d : Device) (t : Nat) (t0 : Time) : Nat → Device
  | 0 => d
  | fuel + 1 =>
    let x := d.stat t
    match x.stops with
    | c :: cs =>
      if d.stState t = 2 ∧ 1024 < (t0 - c.t).toInt then
        let d := d.setStat t { x with stops := cs, starts := stillUsable c x.starts }
        let d := match latestStart (d.rdN (Reg.EVT_S_WINDOW t)) c x.starts.reverse with
          | some a => d.stTake t a c
          | none => d.stUnpaired t
        Device.stLatest d t t0 fuel
      else d
    | [] => d

/-- The running LATEST units resolve what device time has decided. -/
def Device.stLatestAll (d : Device) : Device :=
  d.stats.foldl (fun d kv =>
    if d.stPair kv.1 = 1 then d.stLatest kv.1 (d.edgeFrom (d.fld (F.EVT_S_CFG_START kv.1))) kv.2.stops.length else d) d

/-- An accepted edge of an input reaches a statistics unit (R484, R488). An edge stamped at or after the instant of a pending ARM, its offset
carrying it past the boundary, waits for the boundary. -/
def Device.stEdge (d : Device) (t n : Nat) (e : StEdge) : Device :=
  let isStart := decide (d.fld (F.EVT_S_CFG_START t) = n)
  let isStop := decide (d.fld (F.EVT_S_CFG_STOP t) = n)
  let x := d.stat t
  if !(isStart || isStop) then d
  else if (d.reqs .statArm).any (fun r => decide (r.obj = t) && timeLE r.at' e.t) then
    d.setStat t { x with early := x.early ++ [(n, e)] }
  else if d.stState t ≠ 2 ∨ timeLT e.t x.armB then d
  else
    match d.stPair t with
    | 0 =>
      let s := keep64 (if isStart then x.starts ++ [e] else x.starts)
      let p := keep64 (if isStop then x.stops ++ [e] else x.stops)
      let both := d.setStat t { x with starts := s.2, stops := p.2 }
      let d1 := if s.1 then both.stUnpaired t else both
      let d2 := if p.1 then d1.stUnpaired t else d1
      d2.stOrdinal t 2
    | 1 =>
      let x := { x with
        starts := if isStart then x.starts ++ [e] else x.starts
        stops := if isStop then x.stops ++ [e] else x.stops }
      (d.setStat t x).stLatest t (if isStart then e.t else d.edgeFrom (d.fld (F.EVT_S_CFG_START t))) (x.stops.length + 1)
    | _ =>
      match x.starts with
      | a :: _ => (d.setStat t { x with starts := [e] }).stTake t a e
      | [] => d.setStat t { x with starts := [e] }

/-- An edge lost in dead time on an input of a running unit (R488). -/
def Device.stLost (d : Device) (t n : Nat) : Device :=
  let x := d.stat t
  if d.stState t = 2 ∧ (d.fld (F.EVT_S_CFG_START t) = n ∨ d.fld (F.EVT_S_CFG_STOP t) = n) then
    d.setStat t { x with blk := { x.blk with lost := x.blk.lost + 1 } }
  else d

/-- The end of a unit's block at a boundary (R492). -/
def Device.stStopAt (d : Device) (t : Nat) (b : Time) : Device :=
  if d.stState t = 2 then
    let d := if d.stPair t = 1 then d.stLatest t (b + 2048) ((d.stat t).stops.length + 1) else d
    if d.stState t = 2 then d.stBlockEnd t true else d
  else d

/-- The check of ARM (R491). -/
def Device.stArmCode (d : Device) (t : Nat) : Nat :=
  let n := d.stN t
  let p := d.stPair t
  let a := d.fld (F.EVT_S_CFG_START t)
  let c := d.fld (F.EVT_S_CFG_STOP t)
  firstCode [
    (decide (n = 0) || (decide (p = 1) && decide (d.rdN (Reg.EVT_S_WINDOW t) = 0)), cLENGTH),
    (decide (d.stState t ≠ 0), cBUSY),
    (!d.isSet (F.EVT_I_STAT_ENABLED a) || !d.isSet (F.EVT_I_STAT_ENABLED c) ||
      (d.isSet (F.EVT_S_QUEUE_Q_EN t) && !d.qOn (d.fld (F.EVT_S_QUEUE_QUEUE t))), cNOTARMED),
    (decide (n = 1 ∨ 2 ^ 24 < n) || decide (p = 3) || (decide (p = 2) && decide (a ≠ c)), cUNSUP)]

/-- ARM (R491). -/
def Device.stArm (d : Device) (t : Nat) (o : Origin) : Device :=
  let c := d.stArmCode t
  let d := d.setFld (F.EVT_S_STAT_CODE t) c
  if c ≠ cOK then d.complete o c none
  else
    let d := (d.request .statArm t (d.rdTime (Reg.EVT_S_AT_LO t)) o []).setFld (F.EVT_S_STAT_STATE t) 1
    match o with
    | .host => d.setFld (F.EVT_S_CTL_ARM t) 1
    | _ => d

/-- STOP (R492). -/
def Device.stStop (d : Device) (t : Nat) (at' : Time) (o : Origin) : Device :=
  let c := if d.stState t = 0 then cNOTARMED else if d.hasReq [.statArm, .statStop] t then cBUSY else cOK
  let d := d.setFld (F.EVT_S_STAT_CODE t) c
  if c ≠ cOK then d.complete o c none
  else
    let d := d.request .statStop t at' o []
    match o with
    | .host => d.setFld (F.EVT_S_CTL_STOP t) 1
    | _ => d

/-- A request of a unit takes effect (R491, R492). -/
def Device.stApply (d : Device) (r : BReq) (b : Time) : Device :=
  let t := r.obj
  let d := d.dropReq r.kind t
  if r.kind = .statArm then
    let es := (d.stat t).early
    let d := (d.setStat t { armB := b }).setFld (F.EVT_S_STAT_STATE t) 2
    (es.foldl (fun d x => d.stEdge t x.1 x.2) d).finish r.origin (F.EVT_S_CTL_ARM t) (F.EVT_S_STAT_CODE t) cOK (some b)
  else (d.stStopAt t b).finish r.origin (F.EVT_S_CTL_STOP t) (F.EVT_S_STAT_CODE t) cOK (some b)

def execEvtSCtlArm (t : Nat) (s : State) : Host.Outcome State Fault Refusal :=
  s.run (fun d => if t < 8 then d.stArm t .host else d)

def execEvtSCtlStop (t : Nat) (s : State) : Host.Outcome State Fault Refusal :=
  s.run (fun d => if t < 8 then d.stStop t (d.rdTime (Reg.EVT_S_AT_LO t)) .host else d)

def execEvtArm (u : UCmd) (s : State) : Host.Outcome State Fault Refusal :=
  s.run (fun d => d.unitCmd 0x0D 3 u fun d =>
    let t := u.unit
    if d.stState t ≠ 0 then d.complete u.origin cBUSY none
    else
      (d.wrBlock u [(Reg.EVT_S_CFG t, 0), (Reg.EVT_S_N t, 4), (Reg.EVT_S_WINDOW t, 8), (Reg.EVT_S_QUEUE t, 12),
        (Reg.EVT_S_AT_LO t, 16), (Reg.EVT_S_AT_HI t, 20)]).stArm t u.origin)

def execEvtStop (u : UCmd) (s : State) : Host.Outcome State Fault Refusal :=
  s.run (fun d => d.unitCmd 0x0D 4 u fun d => d.stStop u.unit (BitVec.ofNat 64 (u.dword 0)) u.origin)

end Sys2Proof.Machine
end

