-- ==== Sys2Proof/Machine/Monitor.lean ====
section
/-! DEFINITION. Monitor converters and calibration (chapter of that name): results and their stamps (R494 to R500), sequences (R501 to R507), result
slots and MONITOR records (R508, R509), and the calibration commands (R513, R518 to R520). -/

namespace Sys2Proof.Machine

/-- A converter after reset: M0 runs its default sequence (R510). -/
def monReset (m : Nat) : Mon := { active := decide (m = 0) }

def Device.mon (d : Device) (m : Nat) : Mon := Sparse.get monReset d.mons m
def Device.setMon (d : Device) (m : Nat) (x : Mon) : Device := { d with mons := Sparse.set monReset d.mons m x }

def Device.monState (d : Device) (m : Nat) : Nat := d.fld (F.MON_M_STAT_STATE m)
def Device.monLen (d : Device) (m : Nat) : Nat := d.fld (F.MON_M_SEQ_LEN_SEQ_LEN m)
def Device.monInjLen (d : Device) (m : Nat) : Nat := d.fld (F.MON_M_SEQ_LEN_INJ_LEN m)

/-! Entry words (R501). -/

def enInput (w : Nat) : Nat := bitsOf w 0 7
def enPreset (w : Nat) : Nat := bitsOf w 8 2
def enCount (w : Nat) : Nat := bitsOf w 16 16
def enIsTemp (w : Nat) : Bool := decide (16 ≤ enInput w) && decide (enInput w < 24)
def enBad (w : Nat) : Bool := decide (34 < enInput w) || bitAt w 7 || decide (bitsOf w 10 6 ≠ 0)

/-- Order and decimation of a preset (R496). -/
def presetK (p : Nat) : Nat := if p = 0 then 3 else if p = 1 then 4 else 5
def presetD (p : Nat) : Nat := if p = 0 then 256 else if p = 1 then 4096 else if p = 2 then 65536 else 1048576

/-- The modulator period in ns (R494). -/
def Device.modPeriod (d : Device) : ℚ := 320 / d.fRoot

/-- T_conv of a preset in ns (R496). -/
def Device.convNs (d : Device) (p : Nat) : ℚ := (((presetK p + 31) * (presetD p / 2) : Nat) : ℚ) * d.modPeriod

/-- The delay of a result's stamp behind its completion, in ns (R498). -/
def Device.tauNs (d : Device) (p : Nat) : ℚ :=
  ((presetK p : ℚ) * ((presetD p / 2 : Nat) - 1 : ℚ) / 2 + 15 * ((presetD p / 2 : Nat) : ℚ)) * d.modPeriod

/-- `t` less a length in ns, rounded to 2^-16 ns by round half to even. -/
def backNs (t : Time) (ns : ℚ) : Time :=
  let q : ℚ := (t.toNat : ℚ) - ns * 65536
  BitVec.ofInt 64 (roundHalfEven q.num q.den)

/-- The stamp of a result completed now (R498): a temperature's is the mean of the stamps of its two conversions. -/
def Device.monStamp (d : Device) (w : Nat) : Time :=
  backNs d.time (d.tauNs (enPreset w) + (if enIsTemp w then d.convNs (enPreset w) / 2 else 0))

/-- When the conversion of a result completed now began. -/
def Device.convBegun (d : Device) (w : Nat) : Time :=
  backNs d.time (d.convNs (enPreset w) * (if enIsTemp w then 2 else 1))

/-- The range of an input in its result's unit (R494, R495, R500). -/
def monRange (w : Nat) : Option (Int × Int) :=
  let i := enInput w
  if enIsTemp w then none
  else if 24 ≤ i ∧ i ≤ 32 then some (0, 2126008812) else some (-966367642, 966367642)

/-- A value held to its input's range, and whether it lay outside (R500). -/
def monClamp (w : Nat) (v : Int) : Int × Bool :=
  match monRange w with
  | none => (v, false)
  | some (lo, hi) => if v < lo then (lo, true) else if hi < v then (hi, true) else (v, false)

/-! The decimation chain (R496, R497). The modulator's chopping leaves no term of its own: the chain averages it out. -/

/-- The integrators of a CIC at full width: each adds the output of the one before it. -/
def cicAdd : Nat → Int → List Int → List Int × Int
  | 0, x, _ => ([], x)
  | k + 1, x, l =>
    let r := cicAdd k (l.headD 0 + x) l.tail
    ((l.headD 0 + x) :: r.1, r.2)

/-- The combs of a CIC at full width: each subtracts the input it had one output before. -/
def cicSub : Nat → Int → List Int → List Int × Int
  | 0, x, _ => ([], x)
  | k + 1, x, l =>
    let r := cicSub k (x - l.headD 0) l.tail
    (x :: r.1, r.2)

/-- The CIC output of order `k` and ratio `r`, whose gain is r^k, rounded by round half to even. -/
def cicRound (k r : Nat) (v : Int) : Int := roundHalfEven (v * 2 ^ Config.cicBits) (r ^ k)

/-- Codes of the modulator run through the CIC of order `k` and ratio `r`; `i` of them have entered since its last output. -/
def MonFilter.feed (k r : Nat) : List Int → Nat → MonFilter → MonFilter
  | [], _, f => f
  | c :: cs, i, f =>
    let a := cicAdd k c f.ints
    if i + 1 = r then
      let b := cicSub k a.2 f.combs
      MonFilter.feed k r cs 0 ⟨a.1, b.1, (cicRound k r b.2 :: f.taps).take 31⟩
    else MonFilter.feed k r cs (i + 1) { f with ints := a.1 }

/-- The sum of the FIR, exact. -/
def MonFilter.fir (f : MonFilter) : Int := (((List.range 31).zip f.taps).map (fun x => Config.monTap x.1 * x.2)).sum

/-- The codes of one result run through a chain: the chain after it, and the FIR's sum; of a temperature the difference of two fresh conversions
(R495, R501). -/
def MonFilter.convert (f : MonFilter) (w : Nat) (codes : List Int) : MonFilter × Int :=
  let k := presetK (enPreset w)
  let r := presetD (enPreset w) / 2
  if enIsTemp w then
    let n := codes.length / 2
    ({}, (MonFilter.feed k r (codes.drop n) 0 {}).fir - (MonFilter.feed k r (codes.take n) 0 {}).fir)
  else
    let g := MonFilter.feed k r codes 0 f
    (g, g.fir)

/-- The natural logarithm of 8. -/
def lnEight : ℚ := 2079441541679835928251696364374529704226500403080765762362 / 10 ^ 57

/-- The RESULT of a FIR sum at a scale (R495), rounded once by round half to even: a rail's voltage through its 2:1 attenuator, or the
temperature of a voltage difference by T = ΔVBE × q / (k × ln 8). PRESUMED (log entry 139): q / k from the SI. -/
def monScaled (w : Nat) (scale : Nat) (y : Int) : Int :=
  let i := enInput w
  let q : ℚ := if enIsTemp w then
      (y.natAbs * scale : ℚ) / 2 ^ 94 * (16021766340 / 1380649) / lnEight * 65536 - 27315 * 65536 / 100
    else (y * scale : ℚ) / 2 ^ 64 * (if 24 ≤ i ∧ i ≤ 32 then 2 else 1)
  roundHalfEven q.num q.den

/-- The RESULT that a physical converter makes of a FIR sum, with the capacitors that it has in. -/
def Device.monValue (d : Device) (u w : Nat) (y : Int) : Int :=
  monScaled w (Config.monScale u ((d.unitTest u).cap.getD (Config.factoryWord u))) y

/-- The physical converter that holds a role. -/
def Device.monUnit (d : Device) (m : Nat) : Nat :=
  ((classUnits 5).find? (fun u => decide (d.puState u = 4) && decide (d.puRole u = m))).getD 673

/-- Whether results of a converter are untraced (R499, R513). -/
def Device.monUntraced (d : Device) (m : Nat) : Bool :=
  !d.isSet (F.CAL_I_STAT_VALID m) || d.isSet (F.CAL_I_STAT_UNTRACED m)

/-- A MONITOR record of items (R508). -/
def monRecord (m : Nat) (inj : Bool) (no : Nat) (trig begun : Time) (items : List (List Byte)) : List Byte :=
  let any (b : Nat) : Bool := items.any (fun x => bitAt (x.getD 3 0).toNat b)
  let t0 := ofBytesLE (((items.headD []).drop 8).take 8)
  recHead 0x1A ((if any 1 then 2 else 0) + (if any 0 then 0x200 else 0)) (64 + 16 * items.length) 0 t0 ++
    bytesLE 1 m ++ bytesLE 1 (if inj then 1 else 0) ++ bytesLE 2 items.length ++ bytesLE 4 no ++ bytesLE 8 trig.toNat ++
    bytesLE 8 begun.toNat ++ bytesLE 8 0 ++ items.flatten

/-- Close the open record of a converter's regular or injected items. -/
def Device.monClose (d : Device) (m : Nat) (inj : Bool) : Device :=
  let x := d.mon m
  let items := if inj then x.injItems else x.items
  let d := d.setMon m (if inj then { x with injItems := [] } else { x with items := [] })
  if items.isEmpty then d
  else d.qOffer (d.fld (F.MON_M_QUEUE_QUEUE m))
    (if inj then monRecord m true x.injNo x.trig x.injBegun items
     else monRecord m false (d.rdN (Reg.MON_M_PASSES m)) x.passAt x.begun items) 0x0E m

/-- Add a result to the open record, which closes at 60 items (R508). -/
def Device.monItem (d : Device) (m : Nat) (inj : Bool) (item : List Byte) (begun : Time) : Device :=
  if !d.isSet (F.MON_M_CFG_Q_EN m) then d
  else
    let x := d.mon m
    let x := if inj then
        { x with injItems := x.injItems ++ [item], injBegun := if x.injItems.isEmpty then begun else x.injBegun }
      else { x with items := x.items ++ [item], begun := if x.items.isEmpty then begun else x.begun }
    let d := d.setMon m x
    if 60 ≤ (if inj then x.injItems else x.items).length then d.monClose m inj else d

/-- Whether the converter in SHADOW or SWAP mirrors this one (R512). -/
def Device.monShadowed (d : Device) (m : Nat) : Bool :=
  match d.rotStepOf 5 with
  | some x => decide (x.phase ≠ 0) && decide (d.puRole x.v = m)
  | none => false

/-- A filter reset: the chains of the converter and of the one that mirrors it are clear (R505, R512), and SLOT shows the slot of the result in
progress. -/
def Device.monFresh (d : Device) (m : Nat) : Device :=
  let x := d.mon m
  (d.setMon m { x with flt := {}, shd := if d.monShadowed m then some {} else none }).setFld (F.MON_M_STAT_SLOT m)
    (if d.isSet (F.MON_M_STAT_INJ_ACTIVE m) then 32 + x.injEntry else x.entry)

/-- Start the injected entries (R505). -/
def Device.injStart (d : Device) (m : Nat) : Device :=
  let d := (d.setFld (F.MON_M_STAT_INJ_PENDING m) 0).setFld (F.MON_M_STAT_INJ_ACTIVE m) 1
  (d.setMon m { d.mon m with injEntry := 0, injGiven := 0 }).monFresh m

/-- A trigger of the injected sequence (R505, R506): whether it is taken. -/
def Device.injTrigger (d : Device) (m : Nat) (t : Time) : Bool × Device :=
  if d.isSet (F.MON_M_STAT_INJ_PENDING m) ∨ d.isSet (F.MON_M_STAT_INJ_ACTIVE m) then
    (false, d.flag F.MON_FLAGS_INJ_MISS Reg.MON_INJ_MISS_CNT)
  else
    let d := (d.setMon m { d.mon m with trig := t }).wrTime (Reg.MON_M_INJ_TRIG_LO m) t
    (true, if (d.mon m).active then d.setFld (F.MON_M_STAT_INJ_PENDING m) 1 else d.injStart m)

/-- Trigger every armed injected sequence with a source: 1 an event input, 2 a trigger unit (R504). -/
def Device.injSource (d : Device) (src n : Nat) (t : Time) : Device :=
  (List.range 8).foldl (fun d m =>
    if d.isSet (F.MON_M_STAT_INJ_ARMED m) ∧ d.fld (F.MON_M_INJ_SRC_TSRC m) = src ∧ d.fld (F.MON_M_INJ_SRC_N m) = n then
      (d.injTrigger m t).2
    else d) d

/-- A regular pass starts (R502). -/
def Device.passStart (d : Device) (m : Nat) (at' : Time) : Device :=
  (d.setMon m { d.mon m with active := true, entry := 0, given := 0, passAt := at' }).monFresh m

/-- The start instant of the next pass (R502). -/
def Device.passInstant (d : Device) (m : Nat) : Time :=
  (d.mon m).startB + nsTime ((d.mon m).passNo * d.rdN (Reg.MON_M_PERIOD m))

/-- A regular pass has ended (R502, R508). -/
def Device.passEnd (d : Device) (m : Nat) : Device :=
  let d := d.monClose m false
  let d := (d.setMon m { d.mon m with active := false, passNo := (d.mon m).passNo + 1 }).wr (Reg.MON_M_PASSES m)
    (d.rdN (Reg.MON_M_PASSES m) + 1)
  if !d.isSet (F.MON_M_CFG_REPEAT m) then d.setFld (F.MON_M_STAT_STATE m) 0
  else if d.rdN (Reg.MON_M_PERIOD m) = 0 then d.passStart m d.time
  else if timeLT (d.passInstant m) d.time then
    (d.flag F.MON_FLAGS_LATE Reg.MON_LATE_CNT).passStart m d.time
  else if d.passInstant m = d.time then d.passStart m d.time
  else d

/-- An injected sequence has ended (R505, R508). -/
def Device.injEnd (d : Device) (m : Nat) : Device :=
  let d := (d.monClose m true).setFld (F.MON_M_STAT_INJ_ACTIVE m) 0
  let x := d.mon m
  let d := d.setMon m { x with injNo := x.injNo + 1, disarm := none }
  let d := match x.disarm with
    | some o => ((d.setFld (F.MON_M_STAT_INJ_ARMED m) 0).setFld (F.MON_M_CTL_DISARM_INJ m) 0).complete o cOK none
    | none => d
  d.monFresh m

/-- A result of the entry word `w` reaches its slot and its record (R495, R500, R508, R509). -/
def Device.monStore (d : Device) (m slot w : Nat) (v : Int) (inj : Bool) : Device :=
  let c := monClamp w v
  let begun := d.convBegun w
  let hold := d.isSet F.CLK_STAT_HOLDOVER
  let swap := match (d.mon m).swapAt with
    | some t => timeLE begun t
    | none => false
  let fl := (if c.2 then 1 else 0) + (if hold then 2 else 0) + (if d.monUntraced m then 4 else 0) + (if swap then 8 else 0)
  let n := d.fld (F.MON_M_INFO_COUNT m slot)
  let t := d.monStamp w
  let d := ((d.wr (Reg.MON_M_RESULT m slot) (wrap 32 c.1)).wr (Reg.MON_M_INFO m slot) (1 + 2 * fl + (n + 1) % 65536 * 65536)).wrTime
    (Reg.MON_M_STAMP_LO m slot) t
  let d := if c.2 then d.flag F.MON_FLAGS_OVERRANGE Reg.MON_OVR_CNT else d
  let d := if swap then d else d.setMon m { d.mon m with swapAt := none }
  let d := if enInput w = 24 then
      { d with vdd := some (decide (88 * 2 ^ 30 ≤ 100 * c.1) && decide (100 * c.1 ≤ 93 * 2 ^ 30), d.time) }
    else d
  d.monItem m inj (bytesLE 1 slot ++ bytesLE 1 (enInput w) ++ bytesLE 1 (enPreset w) ++ bytesLE 1 fl ++
    bytesLE 4 (wrap 32 c.1) ++ bytesLE 8 t.toNat) begun

/-- Whether two results agree (R512): within MON_SHADOW_TOL of the preset and 40 ppm of the live one, temperatures within 0.25 °C. -/
def Device.monAgrees (d : Device) (w : Nat) (v v' : Int) : Bool :=
  let x := (monClamp w v).1
  let e := (x - (monClamp w v').1).natAbs
  if enIsTemp w then decide (e ≤ 16384)
  else decide (e * 1000000 ≤ d.rdN (Reg.MON_SHADOW_TOL (enPreset w)) * 1000000 + 40 * x.natAbs)

/-- The rotation's comparison of a result with the converter in SHADOW (R512); none where that has no result. -/
def Device.monShadow (d : Device) (m : Nat) (differ : Option Bool) : Device :=
  match d.rotStepOf 5, differ with
  | some x, some differ =>
    if x.phase = 1 ∧ d.puRole x.v = m then
      if differ then d.shadowMiss 5 else d.setRotStep 5 (some { x with agree := x.agree + 1 })
    else d
  | _, _ => d

/-- The entry word of the conversion in progress. -/
def Device.monWord (d : Device) (m : Nat) : Option Nat :=
  let x := d.mon m
  if d.isSet (F.MON_M_STAT_INJ_ACTIVE m) then some (d.rdN (Reg.MON_M_INJ m x.injEntry))
  else if x.active then some (d.rdN (Reg.MON_M_REG m x.entry)) else none

/-- A result of the sequence in progress (R498, R501, R505) takes its place: `v` is the result in its unit, `differ` whether the converter in SHADOW
disagrees with it (R512). -/
def Device.monTake (d : Device) (m : Nat) (v : Int) (differ : Option Bool) : Device :=
  let x := d.mon m
  if d.isSet (F.MON_M_STAT_INJ_ACTIVE m) then
    let w := d.rdN (Reg.MON_M_INJ m x.injEntry)
    let d := (d.monStore m (32 + x.injEntry) w v true).monShadow m differ
    let x := d.mon m
    if x.injGiven + 1 < enCount w then d.setMon m { x with injGiven := x.injGiven + 1 }
    else if x.injEntry + 1 < d.monInjLen m then (d.setMon m { x with injEntry := x.injEntry + 1, injGiven := 0 }).monFresh m
    else d.injEnd m
  else if x.active then
    let w := d.rdN (Reg.MON_M_REG m x.entry)
    let d := (d.monStore m x.entry w v false).monShadow m differ
    let x := d.mon m
    let d :=
      if x.given + 1 < enCount w then d.setMon m { x with given := x.given + 1 }
      else if x.entry + 1 < d.monLen m then (d.setMon m { x with entry := x.entry + 1, given := 0 }).monFresh m
      else d.passEnd m
    if d.isSet (F.MON_M_STAT_INJ_PENDING m) then d.injStart m else d
  else d

/-- How many modulator periods a result of an entry takes (R496, R501): T_conv after a filter reset, then D; a temperature takes two fresh
conversions. -/
def Device.monNeed (d : Device) (m w : Nat) : Nat :=
  let r := presetD (enPreset w) / 2
  let n := (presetK (enPreset w) + 31) * r
  if enIsTemp w then 2 * n else if (d.mon m).flt.taps.isEmpty then n else 2 * r

/-- A result completes (R497): `codes` are the modulator's outputs since the filter reset or the result before it, `shadow` those of the converter
that mirrors this one. -/
def Device.monResult (d : Device) (m : Nat) (codes shadow : List Int) : Device :=
  match d.monWord m with
  | none => d
  | some w =>
    let x := d.mon m
    if codes.length ≠ d.monNeed m w ∨ (x.shd.isSome ∧ shadow.length ≠ d.monNeed m w) then d
    else
      let a := x.flt.convert w codes
      let v := d.monValue (d.monUnit m) w a.2
      let fresh : Option MonFilter := if enIsTemp w ∧ d.monShadowed m then some {} else none
      match x.shd, d.rotStepOf 5 with
      | some f, some r =>
        let b := f.convert w shadow
        (d.setMon m { x with flt := a.1, shd := some b.1 }).monTake m v (some (!d.monAgrees w v (d.monValue r.s w b.2)))
      | _, _ => (d.setMon m { x with flt := a.1, shd := fresh }).monTake m v none

def execMonResult (m : Nat) (codes shadow : List Int) (s : State) : Host.Outcome State Fault Refusal :=
  s.run (fun d => if m < 8 then d.monResult m codes shadow else d)

def execMonPassStart (m : Nat) (s : State) : Host.Outcome State Fault Refusal :=
  s.run (fun d =>
    if m < 8 ∧ d.monState m = 2 ∧ !(d.mon m).active ∧ timeLE (d.passInstant m) d.time then d.passStart m (d.passInstant m)
    else d)

/-! Requests (R503 to R505). -/

/-- The check of START (R503). -/
def Device.monStartCode (d : Device) (m : Nat) : Nat :=
  let n := d.monLen m
  let used := (List.range (min n 32)).map (fun i => d.rdN (Reg.MON_M_REG m i))
  firstCode [
    (decide (n = 0 ∨ 32 < n) || used.any (fun w => decide (enCount w = 0)), cLENGTH),
    (decide (d.monState m ≠ 0), cBUSY),
    (d.isSet (F.MON_M_CFG_Q_EN m) && !d.qOn (d.fld (F.MON_M_QUEUE_QUEUE m)), cNOTARMED),
    (used.any enBad, cUNSUP)]

/-- START (R503). -/
def Device.monStart (d : Device) (m : Nat) (at' : Time) (o : Origin) : Device :=
  let c := d.monStartCode m
  let d := d.setFld (F.MON_M_STAT_CODE m) c
  if c ≠ cOK then d.complete o c none
  else
    let d := (d.request .monStart m at' o []).setFld (F.MON_M_STAT_STATE m) 1
    match o with
    | .host => d.setFld (F.MON_M_CTL_START m) 1
    | _ => d

/-- The start boundary of a regular sequence (R503). -/
def Device.monStartAt (d : Device) (r : BReq) (b : Time) : Device :=
  let m := r.obj
  let d := ((d.dropReq .monStart m).setFld (F.MON_M_STAT_STATE m) 2).wr (Reg.MON_M_PASSES m) 0
  let d := (d.setMon m { d.mon m with startB := b, passNo := 0 }).passStart m b
  d.finish r.origin (F.MON_M_CTL_START m) (F.MON_M_STAT_CODE m) cOK (some b)

/-- STOP (R503): at once; a start that awaits its boundary is cancelled. -/
def Device.monStop (d : Device) (m : Nat) (o : Origin) : Device :=
  let d := match d.breqs.find? (fun r => decide (r.kind = .monStart) && decide (r.obj = m)) with
    | some r => (d.dropReq .monStart m).finish r.origin (F.MON_M_CTL_START m) (F.MON_M_STAT_CODE m) cNOTARMED none
    | none => d
  let d := (d.monClose m false).setFld (F.MON_M_STAT_STATE m) 0
  let d := d.setMon m { d.mon m with active := false }
  let d := if d.isSet (F.MON_M_STAT_INJ_PENDING m) then d.injStart m else d
  (d.setFld (F.MON_M_STAT_CODE m) cOK).complete o cOK none

/-- The check of ARM_INJ (R504). -/
def Device.armInjCode (d : Device) (m : Nat) : Nat :=
  let n := d.monInjLen m
  let used := (List.range (min n 4)).map (fun i => d.rdN (Reg.MON_M_INJ m i))
  let src := d.fld (F.MON_M_INJ_SRC_TSRC m)
  let k := d.fld (F.MON_M_INJ_SRC_N m)
  firstCode [
    (decide (n = 0 ∨ 4 < n) || used.any (fun w => decide (enCount w = 0)), cLENGTH),
    (d.isSet (F.MON_M_STAT_INJ_ARMED m), cBUSY),
    ((decide (src = 1) && decide (k < 16) && !d.isSet (F.EVT_I_STAT_ENABLED k)) ||
      (d.isSet (F.MON_M_CFG_Q_EN m) && !d.qOn (d.fld (F.MON_M_QUEUE_QUEUE m))), cNOTARMED),
    (decide (src = 3) || (decide (src = 1) && decide (16 ≤ k)) || used.any enBad, cUNSUP)]

def Device.armInj (d : Device) (m : Nat) (o : Origin) : Device :=
  let c := d.armInjCode m
  let d := if c = cOK then (d.setFld (F.MON_M_STAT_INJ_ARMED m) 1).setMon m { d.mon m with injNo := 0, injItems := [] } else d
  (d.setFld (F.MON_M_STAT_CODE m) c).complete o c none

def Device.disarmInj (d : Device) (m : Nat) (o : Origin) : Device :=
  if d.isSet (F.MON_M_STAT_INJ_PENDING m) ∨ d.isSet (F.MON_M_STAT_INJ_ACTIVE m) then
    if (d.mon m).disarm.isSome then (d.setFld (F.MON_M_STAT_CODE m) cBUSY).complete o cBUSY none
    else
      let d := (d.setMon m { d.mon m with disarm := some o }).setFld (F.MON_M_STAT_CODE m) cOK
      match o with
      | .host => d.setFld (F.MON_M_CTL_DISARM_INJ m) 1
      | _ => d
  else ((d.setFld (F.MON_M_STAT_INJ_ARMED m) 0).setFld (F.MON_M_STAT_CODE m) cOK).complete o cOK none

/-- INJECT (R504 to R506). -/
def Device.inject (d : Device) (m : Nat) (o : Origin) : Device :=
  if !d.isSet (F.MON_M_STAT_INJ_ARMED m) then (d.setFld (F.MON_M_STAT_CODE m) cNOTARMED).complete o cNOTARMED none
  else
    let r := d.injTrigger m d.time
    let c := if r.1 then cOK else cBUSY
    (r.2.setFld (F.MON_M_STAT_CODE m) c).complete o c none

def execMonMCtlStart (m : Nat) (s : State) : Host.Outcome State Fault Refusal :=
  s.run (fun d => if m < 8 then d.monStart m (d.rdTime (Reg.MON_M_AT_LO m)) .host else d)

def execMonMCtlStop (m : Nat) (s : State) : Host.Outcome State Fault Refusal :=
  s.run (fun d => if m < 8 then d.monStop m .host else d)

def execMonMCtlArmInj (m : Nat) (s : State) : Host.Outcome State Fault Refusal :=
  s.run (fun d => if m < 8 then d.armInj m .host else d)

def execMonMCtlDisarmInj (m : Nat) (s : State) : Host.Outcome State Fault Refusal :=
  s.run (fun d => if m < 8 then d.disarmInj m .host else d)

def execMonMCtlInject (m : Nat) (s : State) : Host.Outcome State Fault Refusal :=
  s.run (fun d => if m < 8 then d.inject m .host else d)

def execMonStart (u : UCmd) (s : State) : Host.Outcome State Fault Refusal :=
  s.run (fun d => d.unitCmd 0x0E 1 u fun d => d.monStart u.unit (BitVec.ofNat 64 (u.dword 0)) u.origin)

def execMonStop (u : UCmd) (s : State) : Host.Outcome State Fault Refusal :=
  s.run (fun d => d.unitCmd 0x0E 2 u fun d => d.monStop u.unit u.origin)

def execMonArmInj (u : UCmd) (s : State) : Host.Outcome State Fault Refusal :=
  s.run (fun d => d.unitCmd 0x0E 3 u fun d => d.armInj u.unit u.origin)

def execMonDisarmInj (u : UCmd) (s : State) : Host.Outcome State Fault Refusal :=
  s.run (fun d => d.unitCmd 0x0E 4 u fun d => d.disarmInj u.unit u.origin)

def execMonInject (u : UCmd) (s : State) : Host.Outcome State Fault Refusal :=
  s.run (fun d => d.unitCmd 0x0E 5 u fun d => d.inject u.unit u.origin)

/-! MONSYNC (R507). -/

def execMonsyncEdge (t : Time) (s : State) : Host.Outcome State Fault Refusal :=
  s.run (fun d =>
    if !d.isSet F.MON_CFG_MONSYNC_EN then d
    else if timeLT t d.time then { d with monSync := d.monSync ++ [16] }
    else { d with monIn := d.monIn ++ [t] })

/-- A converter's decimator resets (R507). -/
def Device.monSyncOne (d : Device) (t : Time) (m : Nat) : Device :=
  let d := if d.monState m = 2 then
      (d.setMon m { d.mon m with startB := t, passNo := 0 }).passStart m t
    else d
  if d.isSet (F.MON_M_STAT_INJ_ACTIVE m) ∨ d.isSet (F.MON_M_STAT_INJ_PENDING m) then d.injStart m else d

def execMonDecimatorReset (t : Time) (s : State) : Host.Outcome State Fault Refusal :=
  s.run (fun d =>
    if 0 ∈ d.monSync then
      let d := { d with monSync := d.monSync.filter (fun n => decide (n ≠ 0)) }
      let d := (d.flag F.MON_FLAGS_SYNC Reg.MON_SYNC_CNT).wrTime Reg.MON_LAST_SYNC_LO t
      (List.range 8).foldl (fun d m => d.monSyncOne t m) d
    else d)

/-! Calibration commands (R513, R518, R519). -/

/-- Whether CAL_REF_UV takes a value (R513). -/
def refUvOk (v : Nat) : Bool := decide (v = 0) || (decide (500000 ≤ v) && decide (v ≤ 900000))

def execCalSetref (u : UCmd) (s : State) : Host.Outcome State Fault Refusal :=
  s.run (fun d => d.unitCmd 0x0F 1 u fun d =>
    let v := bitsOf (u.word 0) 0 20
    if refUvOk v then (d.wr Reg.CAL_REF_UV v).complete u.origin cOK none else d.complete u.origin cLENGTH none)

/-- A calibration that lacks REFCLK is refused (R519). -/
def Device.calSkip (d : Device) (item : Nat) : Device :=
  (d.setFld (F.CAL_I_STAT_CODE item) cREFLOST).flag F.CAL_FLAGS_SKIPPED Reg.CAL_SKIP_CNT

def execCalOutcal (u : UCmd) (s : State) : Host.Outcome State Fault Refusal :=
  s.run (fun d => d.unitCmd 0x0F 2 u fun d =>
    let o := u.unit
    let c := firstCode [
      (d.isSet (F.CKO_STAT_RUNNING o) || d.isSet (F.CKO_STAT_PENDING o) || (d.cko o).cal.isSome, cBUSY),
      (!d.isSet F.CLK_STAT_REF_PRESENT, cREFLOST)]
    if c = cOK then d.setCko o { d.cko o with cal := some u.origin }
    else (if c = cREFLOST then d.calSkip (56 + o) else d).complete u.origin c none)

/-- The cell selection of a stopped output completes (R518, R520): for a command, after a write of CKO_DELAY, or once per rotation step
interval. -/
def execOutputCalDone (o sel temp : Nat) (s : State) : Host.Outcome State Fault Refusal :=
  s.run (fun d =>
    if 8 ≤ o ∨ d.isSet (F.CKO_STAT_RUNNING o) ∨ d.fld F.SYS_STAT_STATE ∈ [6, 7] ∨ (d.isSet (F.CKO_STAT_PENDING o) ∧ (d.cko o).cal.isNone) then d
    else
      let og := (d.cko o).cal
      let d := d.setCko o { d.cko o with cal := none }
      if d.isSet F.CLK_STAT_REF_PRESENT then
        let d := (d.calService (56 + o) sel temp false d.time).setFld (F.CAL_I_STAT_CODE (56 + o)) cOK
        match og with
        | some g => d.complete g cOK none
        | none => d
      else
        let d := d.calSkip (56 + o)
        match og with
        | some g => d.complete g cREFLOST none
        | none => d)

end Sys2Proof.Machine
end

