-- ==== Sys2Proof/Machine/EventInputs.lean ====
section
/-! DEFINITION. Device time sets and event inputs (R479 to R487): thresholds and blanking, stamps, dead time, the stamp FIFO, and EVENT_STAMPS
records. -/

namespace Sys2Proof.Machine

def Device.evin (d : Device) (n : Nat) : EvIn := Sparse.get (fun _ => {}) d.evins n
def Device.setEvin (d : Device) (n : Nat) (x : EvIn) : Device := { d with evins := Sparse.set (fun _ => {}) d.evins n x }

/-- Whether a state register's units are all at rest. -/
def Device.allZero (d : Device) (n : Nat) (f : Nat → FieldAt) : Bool := (List.range n).all (fun i => decide (d.fld (f i) = 0))

/-- Whether something of R479 runs that a set of device time would disturb, the cascade aside. -/
def Device.setBlocked (d : Device) : Bool :=
  !d.allZero 8 F.LNK_S_STAT_STATE || !d.allZero 16 F.CHN_Z_STAT_RUNNING || !(d.reqs .chnStart).isEmpty ||
    !d.allZero 8 F.CKO_STAT_RUNNING || !(d.reqs .ckoStart).isEmpty ||
    !d.allZero 8 F.EVT_S_STAT_STATE || !d.run.entries.isEmpty || d.pend.isSome || d.checking.isSome ||
    !d.allZero 64 F.TRG_T_STAT_STATE || (List.range 64).any (fun b => !decide (d.fld (F.ACQ_B_STAT_STATE b) ∈ [0, 5])) ||
    decide (d.fld F.SYS_OVL_STAT_PENDING ≠ 0) || decide (d.fld F.CLK_CHANGE_STAT_STATE ≠ 0) || !(d.reqs .decReset).isEmpty ||
    !d.syncIn.isEmpty || !d.syncLeft.isEmpty || d.isSet F.SYS_SLEEP_STAT_PENDING || d.setReq.isSome

/-- Whether a set of device time is refused (R479). -/
def Device.setBusy (d : Device) : Bool := d.setBlocked || decide (d.casRole ≠ caNone)

/-- Request a set (R479): device time loads on the next TCLK edge. -/
def Device.timeSet (d : Device) (t : Time) (epoch : Nat) (o : Origin) : Device :=
  let c := if d.setBusy then cBUSY else cOK
  let d := d.setFld F.EVT_SET_STAT_CODE c
  if c ≠ cOK then d.complete o c none
  else
    let d := { d with setReq := some (t, epoch % 65536, o) }
    match o with
    | .host => d.setFld F.EVT_SET_CTL_GO 1
    | _ => d

/-- A set acts on its TCLK edge (R479). -/
def Device.setNow (d : Device) : Device :=
  match d.setReq with
  | none => d
  | some (t, e, o) =>
    ((Device.wr { d with time := t, timeRem := 0, setReq := none } Reg.EVT_EPOCH e).setFld F.EVT_SET_CTL_GO 0).complete o cOK none

def execEvtSetCtlGo (s : State) : Host.Outcome State Fault Refusal :=
  s.run (fun d => d.timeSet (d.rdTime Reg.EVT_SET_LO) (d.rdN Reg.EVT_SET_EPOCH) .host)

def execEvtSet (u : UCmd) (s : State) : Host.Outcome State Fault Refusal :=
  s.run (fun d => d.unitCmd 0x0D 5 u fun d => d.timeSet (BitVec.ofNat 64 (u.dword 0)) (u.word 8) u.origin)

/-! Records (R485). -/

/-- An entry of an EVENT_STAMPS record: with BOTH, the stamp rounded to 2^-15 ns and the slope in bit 0. -/
def stampEntry (both : Bool) (e : EvStamp) : List Byte :=
  if both then bytesLE 8 (wrap 64 (2 * roundHalfEven e.stamp.toNat 2 + (if e.rising then 1 else 0))) else bytesLE 8 e.stamp.toNat

/-- Whether entries span a coarse wrap. -/
def spansWrap : List EvStamp → Bool
  | a :: b :: l => decide (b.stamp.toNat < a.stamp.toNat) || spansWrap (b :: l)
  | _ => false

/-- An EVENT_STAMPS record of entries (R485). -/
def Device.stampRecord (d : Device) (n : Nat) (e : EvStamp) (l : List EvStamp) : List Byte :=
  let x := d.evin n
  let both := decide (d.fld (F.EVT_I_CFG_SLOPE n) = 2)
  recHead 0x18 (if l.any (fun s => s.hold) then 2 else 0) (64 + 8 * l.length) 0 e.stamp.toNat ++ bytesLE 8 e.idx ++
    bytesLE 2 e.epoch ++ bytesLE 2 l.length ++ bytesLE 4 (e.dead - x.recDead) ++ bytesLE 4 (e.ovf - x.recOvf) ++
    bytesLE 1 ((if both then 1 else 0) + (if spansWrap l then 2 else 0)) ++ List.replicate 11 0 ++ l.flatMap (stampEntry both)

/-- Close the open record of an input (R485). -/
def Device.evClose (d : Device) (n : Nat) : Device :=
  let x := d.evin n
  match x.opened with
  | [] => d
  | e :: _ =>
    let bs := d.stampRecord n e x.opened
    (d.setEvin n { x with opened := [], recDead := e.dead, recOvf := e.ovf }).qOffer (d.fld (F.EVT_I_QUEUE_QUEUE n)) bs 0x0D n

/-- FIFO: the stamps in an input's FIFO. -/
def Device.evShow (d : Device) (n : Nat) : Device := d.setFld (F.EVT_I_STAT_FIFO n) (d.evin n).fifo.length

/-- Move up to `k` stamps from the FIFO into records. -/
def Device.evMove (d : Device) (n : Nat) : Nat → Device
  | 0 => d
  | k + 1 =>
    let x := d.evin n
    match x.fifo with
    | [] => d
    | e :: es =>
      let d := d.setEvin n { x with fifo := es, opened := x.opened ++ [e] }
      let d := if d.fld (F.EVT_I_QUEUE_COUNT n) ≤ x.opened.length + 1 then d.evClose n else d
      Device.evMove d n k

/-- The FIFO drains one stamp every 10 ns (R484): up to time `t`. -/
def Device.evDrain (d : Device) (n : Nat) (t : Time) : Device :=
  let x := d.evin n
  if x.fifo.isEmpty then d
  else
    let k := (t - x.drained).toInt.toNat / 655360
    ((d.setEvin n { x with drained := x.drained + BitVec.ofNat 64 (655360 * k) }).evMove n k).evShow n

/-- Every input's FIFO drains up to the present. -/
def Device.evDrainAll (d : Device) : Device := d.evins.foldl (fun d kv => d.evDrain kv.1 d.time) d

/-! Edges (R482 to R484). -/

/-- Whether an input takes an edge of a direction (R480). -/
def Device.slopeTakes (d : Device) (n : Nat) (rising : Bool) : Bool :=
  match d.fld (F.EVT_I_CFG_SLOPE n) with
  | 0 => rising
  | 1 => !rising
  | _ => true

/-- The stamp of a crossing at device time `num / den`, in units of 2^-16 ns (R482); within a lengthened root period that device time is the one
corrected as R461 states. -/
def Device.edgeStamp (d : Device) (n num den : Nat) : Time :=
  let den := max 1 den
  BitVec.ofInt 64 (roundHalfEven ((num : Int) - signed 32 (d.rdN (Reg.EVT_I_OFS n)) * (den : Int)) den)

/-- Whether an edge falls in the dead time of 1.25 ns (R483); within 10 ps of the limit the device may do either. -/
def Device.inDead (d : Device) (n : Nat) (t : Time) : Bool × Device :=
  if d.rd64 (Reg.EVT_I_EDGES_LO n) = 0 then (false, d)
  else
    let x := (t - d.rdTime (Reg.EVT_I_LAST_LO n)).toInt
    if (x - 81920).natAbs ≤ 655 then let r := d.draw; (decide (r.1 % 2 = 1), r.2)
    else (decide (x < 81920), d)

/-- The epoch at a stamp (R478): EVT_EPOCH is that of the present. -/
def Device.epochAt (d : Device) (t : Time) : Nat :=
  let e := d.rdN Reg.EVT_EPOCH
  if timeLE d.time t then if t.toNat < d.time.toNat then (e + 1) % 65536 else e
  else if d.time.toNat < t.toNat then (e + 65535) % 65536 else e

/-- A stamp enters the FIFO, or is lost to the queue (R484). -/
def Device.evPush (d : Device) (n : Nat) (t : Time) (idx : Nat) (rising : Bool) : Device :=
  let d := d.evDrain n d.time
  let x := d.evin n
  if x.fifo.length < 256 then
    let e : EvStamp := ⟨t, idx, rising, d.epochAt t, d.isSet F.CLK_STAT_HOLDOVER, x.dead, x.ovf⟩
    (d.setEvin n { x with fifo := x.fifo ++ [e], drained := if x.fifo.isEmpty then d.time else x.drained }).evShow n
  else
    ((d.setEvin n { x with ovf := x.ovf + 1 }).inc (Reg.EVT_I_OVF_CNT n)).flag F.EVT_FLAGS_OVF Reg.EVT_OVF_CNT

/-- An accepted edge goes to the trigger units, the statistics units, the counts, injected sequences and the FIFO (R484). -/
def Device.edgeTake (d : Device) (n : Nat) (t : Time) (rising : Bool) : Device :=
  let idx := d.rd64 (Reg.EVT_I_EDGES_LO n)
  let d := (d.add64 (Reg.EVT_I_EDGES_LO n) 1).wrTime (Reg.EVT_I_LAST_LO n) t
  let d := d.tEvent n t
  let e : StEdge := ⟨t, d.epochAt t, d.isSet F.CLK_STAT_HOLDOVER⟩
  let d := (List.range 8).foldl (fun d u => d.stEdge u n e) d
  let d := d.injSource 1 n t
  if d.isSet (F.EVT_I_CFG_Q_EN n) then d.evPush n t idx rising else d

/-- An edge lost in dead time (R483). -/
def Device.edgeLost (d : Device) (n : Nat) : Device :=
  let d := (d.setEvin n { d.evin n with dead := (d.evin n).dead + 1 }).inc (Reg.EVT_I_DEAD_CNT n)
  (List.range 8).foldl (fun d u => d.stLost u n) (d.flag F.EVT_FLAGS_DEAD Reg.EVT_DEAD_CNT)

/-- A threshold crossing (R482): its device time is `num / den` units of 2^-16 ns. -/
def Device.edge (d : Device) (n num den : Nat) (rising : Bool) : Device :=
  if 16 ≤ n ∨ !d.isSet (F.EVT_I_STAT_ENABLED n) ∨ d.isSet (F.EVT_I_STAT_BLANK n) ∨ !d.slopeTakes n rising ∨
      d.fld F.SYS_STAT_STATE ∈ [6, 7] then d
  else
    let t := d.edgeStamp n num den
    let r := d.inDead n t
    if r.1 then r.2.edgeLost n else ((r.2.edgeTake n t rising).calEdge n t).lineEdge n

def execEventEdge (n num den : Nat) (rising : Bool) (s : State) : Host.Outcome State Fault Refusal :=
  s.run (fun d => d.edge n num den rising)

def execStampFlushTimeout (n : Nat) (s : State) : Host.Outcome State Fault Refusal :=
  s.run (fun d =>
    let d := d.evDrain n d.time
    let f := d.rdN (Reg.EVT_I_FLUSH n)
    match (d.evin n).opened with
    | e :: _ => if f ≠ 0 ∧ timeLE (nsTime f) (d.time - e.stamp) then d.evClose n else d
    | [] => d)

/-! Thresholds (R480, R481). -/

/-- A threshold takes a value and blanks the input for 10 µs. -/
def Device.blank (d : Device) (n : Nat) : Device :=
  (d.setEvin n { d.evin n with blankTo := d.time + nsTime 10000 }).setFld (F.EVT_I_STAT_BLANK n) 1

def Device.threshold (d : Device) (n val : Nat) : Device :=
  if 3600 < bitsOf val 0 12 then d.badAccess else (d.wrRw (Reg.EVT_I_THRESH n) val).blank n

def execThresholdWrite (n val : Nat) (s : State) : Host.Outcome State Fault Refusal :=
  s.run (fun d => if n < 16 then d.threshold n val else d)

def execBlankEnd (n : Nat) (s : State) : Host.Outcome State Fault Refusal :=
  s.run (fun d => if timeLE (d.evin n).blankTo d.time then d.setFld (F.EVT_I_STAT_BLANK n) 0 else d)

/-! ENABLE and DISABLE (R486). -/

/-- The check of ENABLE. -/
def Device.evCode (d : Device) (n : Nat) : Nat :=
  let q := d.isSet (F.EVT_I_CFG_Q_EN n)
  let c := d.fld (F.EVT_I_QUEUE_COUNT n)
  firstCode [
    (q && decide (c = 0), cLENGTH),
    (d.isSet (F.EVT_I_STAT_ENABLED n) || (d.evin n).enabling.isSome, cBUSY),
    (q && !d.qOn (d.fld (F.EVT_I_QUEUE_QUEUE n)), cNOTARMED),
    (decide (d.fld (F.EVT_I_CFG_SLOPE n) = 3) || decide (1016 < c), cUNSUP)]

/-- ENABLE: an accepted one waits for the next TCLK edge. -/
def Device.evEnable (d : Device) (n : Nat) (o : Origin) : Device :=
  let c := d.evCode n
  let d := d.setFld (F.EVT_I_STAT_CODE n) c
  if c = cOK then (d.setEvin n { d.evin n with enabling := some o }).actBit o (F.EVT_I_CTL_ENABLE n) else d.complete o c none

/-- An accepted ENABLE takes effect: the edges count from 0, and a blanking period begins. -/
def Device.evOn (d : Device) (n : Nat) (o : Origin) : Device :=
  ((((d.setEvin n {}).setFld (F.EVT_I_STAT_ENABLED n) 1).wr64 (Reg.EVT_I_EDGES_LO n) 0).blank n).finish o (F.EVT_I_CTL_ENABLE n)
    (F.EVT_I_STAT_CODE n) cOK none

/-- The ENABLEs that wait take effect on a TCLK edge. -/
def Device.evOnAll (d : Device) : Device :=
  d.evins.foldl (fun d kv => match kv.2.enabling with
    | some o => d.evOn kv.1 o
    | none => d) d

/-- Every stamp of an input goes into records, and the open record is pushed. -/
def Device.evFlush (d : Device) (n : Nat) : Device :=
  ((d.evMove n (d.evin n).fifo.length).evClose n).evShow n

/-- DISABLE acts at once: the stamps of the FIFO go into records, and the open one is pushed. DEDUCED (log entry 138): an ENABLE that still waits
takes effect first, so that no edge after the DISABLE is stamped. -/
def Device.evDisable (d : Device) (n : Nat) (o : Origin) : Device :=
  let d := match (d.evin n).enabling with
    | some w => d.evOn n w
    | none => d
  let d := if d.isSet (F.EVT_I_STAT_ENABLED n) then (d.evFlush n).setFld (F.EVT_I_STAT_ENABLED n) 0 else d
  (d.setFld (F.EVT_I_STAT_CODE n) cOK).complete o cOK none

def execEvtICtlEnable (n : Nat) (s : State) : Host.Outcome State Fault Refusal :=
  s.run (fun d => if n < 16 then d.evEnable n .host else d)

def execEvtICtlDisable (n : Nat) (s : State) : Host.Outcome State Fault Refusal :=
  s.run (fun d => if n < 16 then d.evDisable n .host else d)

def execEvtEnable (u : UCmd) (s : State) : Host.Outcome State Fault Refusal :=
  s.run (fun d => d.unitCmd 0x0D 1 u fun d =>
    let n := u.unit
    if d.isSet (F.EVT_I_STAT_ENABLED n) ∨ (d.evin n).enabling.isSome then d.complete u.origin cBUSY none
    else
      ((d.threshold n (u.word 4)).wrBlock u [(Reg.EVT_I_CFG n, 0), (Reg.EVT_I_OFS n, 8), (Reg.EVT_I_QUEUE n, 12),
        (Reg.EVT_I_FLUSH n, 16)]).evEnable n u.origin)

def execEvtDisable (u : UCmd) (s : State) : Host.Outcome State Fault Refusal :=
  s.run (fun d => d.unitCmd 0x0D 2 u fun d => d.evDisable u.unit u.origin)

end Sys2Proof.Machine
end

