-- ==== Sys2Proof/Machine/LineCode.lean ====
section
/-! DEFINITION. The native transmitter of an export (R62 to R71, R75, R93, R106): sync headers, the marker period with its ALIGN
and SCB blocks, IDLE slots, the parity lane and the scramblers, down to the 66-bit blocks of each transmit lane. -/

namespace Sys2Proof.Machine

/-- Scramble `n` payload bits, first bit first, from the 58 bits sent before (R63): the bits sent and the new state. -/
def scramble : Nat → Nat → Nat → Nat × Nat
  | 0, st, _ => (0, st)
  | n + 1, st, payload =>
    let o := (payload % 2 + (if bitAt st 38 then 1 else 0) + (if bitAt st 57 then 1 else 0)) % 2
    let r := scramble n ((st * 2 + o) % 2 ^ 58) (payload / 2)
    (o + 2 * r.1, r.2)

/-- The lanes of an export in ascending TXL number, the parity lane among them (R106). -/
def Device.eAll (d : Device) (s : Nat) : List Nat := onesBelow (d.rdN (Reg.LNK_E_LANES s)) 24

/-- The lanes of an export: its data lanes, the parity lane left out (R106). -/
def Device.eLanes (d : Device) (s : Nat) : List Nat :=
  if d.isSet (F.LNK_E_CFG_PARITY s) then (d.eAll s).dropLast else d.eAll s

/-- The format an export sends: C16 from the corrector, else the stream's own (R106). -/
def Device.eFormat (d : Device) (s : Nat) : Nat :=
  if d.isSet (F.LNK_E_CFG_SOURCE s) then 1 else d.fld (F.LNK_S_CFG_FORMAT s)

/-- Bytes 1 and 2 of ALIGN and SCB, in their place in the payload (R68, R69). -/
def Device.eTag (d : Device) (s j : Nat) : Nat :=
  (j + s * 2 ^ 5) * 2 ^ 8 + ((d.eLanes s).length % 32 + d.eFormat s * 2 ^ 6) * 2 ^ 16

/-- The ALIGN payload of lane index `j` (R68). -/
def Device.eAlign (d : Device) (s j : Nat) : Nat := 0x78 + d.eTag s j + (d.expo s).marker * 2 ^ 24 + 0xC35A3C * 2 ^ 40

/-- The SCB payload of lane index `j` (R69): the index is that of the next data block. -/
def Device.eScb (d : Device) (s j : Nat) : Nat := 0x4B + d.eTag s j + (d.expo s).idx * 2 ^ 24

/-- Send one payload on a lane, scrambled unless it is ALIGN (R62, R63): header 01 is 1, header 10 is 2. -/
def Device.eSend (d : Device) (s hdr : Nat) (align : Bool) (lane payload : Nat) : Device :=
  let x := d.expo s
  let r := if align then (payload, x.scr.getD lane 0) else scramble 64 (x.scr.getD lane 0) payload
  (d.send (.laneBlock lane hdr r.1)).setExpo s { x with scr := x.scr.set lane r.2 }

/-- One block on every lane at the next position of the marker period (R65, R66). -/
def Device.eRow (d : Device) (s hdr : Nat) (align : Bool) (payloads : List Nat) : Device :=
  let d := ((d.eAll s).zip payloads).foldl (fun d x => d.eSend s hdr align x.1 x.2) d
  let x := d.expo s
  d.setExpo s (if x.pos = 4095 then { x with pos := 0, marker := (x.marker + 1) % 2 ^ 16 } else { x with pos := x.pos + 1 })

/-- ALIGN or SCB, where the next position asks for one (R65). -/
def Device.eMarker (d : Device) (s : Nat) : Device :=
  let p := (d.expo s).pos
  let idx := List.range (d.eAll s).length
  if p = 0 then d.eRow s 2 true (idx.map (d.eAlign s))
  else if p % 32 = 0 then d.eRow s 2 false (idx.map (d.eScb s))
  else d

/-- A data block on every data lane in the next sample slot, with their XOR on the parity lane (R67, R75). -/
def Device.eData (d : Device) (s : Nat) (words : List Nat) : Device :=
  (d.eMarker s).eRow s 1 false (if d.isSet (F.LNK_E_CFG_PARITY s) then words ++ [xorAll words] else words)

/-- IDLE on every lane in the next `n` sample slots (R67, R75). -/
def Device.eIdle (d : Device) (s : Nat) : Nat → Device
  | 0 => d
  | n + 1 => Device.eIdle ((d.eMarker s).eRow s 2 false ((d.eAll s).map (fun _ => 0x1E))) s n

/-- The transmitter at the start of its link (R70): index 0 at the start of a marker period. The marker count and the scramblers start
anywhere. -/
def Device.eStart (d : Device) (s : Nat) : Device :=
  let m := d.draw
  let c := m.2.draw
  c.2.setExpo s { marker := m.1 % 2 ^ 16, scr := (List.range 24).map (fun j => c.1 / 2 ^ (58 * j) % 2 ^ 58) }

/-- The slots of a group that are left, and none where the next block opens one: IDLE to the group's end. -/
def groupRest (pos : Nat) : Nat := (32 - pos % 32) % 32

/-- Send a row of data blocks once every data lane has one (R67, R70, R71), after any number of IDLE slots. -/
def Device.eBlocks (d : Device) (s : Nat) : Device :=
  let n := (d.eLanes s).length
  let x := d.expo s
  if n = 0 ∨ x.nbits < 64 * n then d
  else
    let k := d.draw
    let d := k.2.eIdle s k.1
    let d := d.eData s ((List.range n).map (fun j => x.bits / 2 ^ (64 * j) % 2 ^ 64))
    d.setExpo s { d.expo s with bits := x.bits / 2 ^ (64 * n), nbits := x.nbits - 64 * n, idx := (x.idx + n) % 2 ^ 40 }

/-- The index restart of a SYNCED export (R70, R93) with the first sample taken at or after the edge, whose stamp is `t`: the link idles to
the end of the group, so that one SCB serves one numbering. -/
def Device.eRestart (d : Device) (s : Nat) (t : Time) : Device :=
  match (d.expo s).sync with
  | none => d
  | some b =>
    if timeLE b t then
      let d := d.eIdle s (groupRest (d.expo s).pos)
      d.setExpo s { d.expo s with bits := 0, nbits := 0, idx := 0, sync := none }
    else d

/-- A sample with stamp `t` passes an export (R106, R71): `x` from the deframer, `c` from the corrector. -/
def Device.eTake (d : Device) (s : Nat) (t : Time) (x c : Smp) : Device :=
  if !d.isSet (F.LNK_E_STAT_RUNNING s) then d
  else
    let d := d.eRestart s t
    let c16 (v : Int) : Nat := wrap 16 (satTo 16 (roundHalfEven v 4))
    let w := if d.isSet (F.LNK_E_CFG_SOURCE s) then 32 else d.sWidth s
    let v := if d.isSet (F.LNK_E_CFG_SOURCE s) then c16 c.re + c16 c.im * 2 ^ 16
      else match d.fld (F.LNK_S_CFG_FORMAT s) with
        | 0 => wrap 16 x.re
        | 1 => wrap 16 x.re + wrap 16 x.im * 2 ^ 16
        | 2 => wrap 12 (x.re / 16)
        | _ => wrap 12 (x.re / 16) + wrap 12 (x.im / 16) * 2 ^ 12
    let e := d.expo s
    (d.setExpo s { e with bits := e.bits + v * 2 ^ e.nbits, nbits := e.nbits + w }).eBlocks s

/-- At a decimator reset a SYNCED export is to restart its link block index (R93, R106). -/
def Device.eReset (d : Device) (s : Nat) (b : Time) : Device :=
  if d.isSet (F.LNK_E_CFG_TIMING s) then d.setExpo s { d.expo s with sync := some b } else d

end Sys2Proof.Machine
end

