-- ==== Sys2Proof/Machine/StreamOps.lean ====
section
/-! DEFINITION. Stream requests (R100 to R104, R601), stream exports (R106, R107), and the release of a sample into the chain
(R92, R94, R103). -/

namespace Sys2Proof.Machine

/-- Whether a source takes its samples from a stream. -/
def Device.fromStream (d : Device) (src s : Nat) : Bool := decide (d.srcStream src = s)

/-- Whether a stream has a consumer (R103). -/
def Device.hasConsumer (d : Device) (s : Nat) : Bool :=
  (d.run.entries ++ d.pendSched.entries).any (fun e => d.fromStream (cSource (d.desc e.1)) s) ||
  (List.range 16).any (fun z => decide (d.fld (F.CHN_Z_CFG_SOURCE z) = s) &&
    (d.isSet (F.CHN_Z_STAT_RUNNING z) || d.hasReq [.chnStart] z)) ||
  (List.range 64).any (fun n =>
    let p := d.rdN (Reg.TRG_T_CFG n + 4)
    decide (d.tKind n = 1) && decide (d.tState n ≠ 0) && decide (d.tapStream (tapOf (bitsOf p 0 2) (bitsOf p 2 5)) = s)) ||
  (List.range 64).any (fun b => decide (d.acState b ≠ acOff) && decide (d.tapStream (d.acTap b) = s))

/-- The idle anchor of a stream has a new period: the next sample is the first whose release time has not passed (R92, R103), and the reference point is the
first sample of the anchor as it is now that is stamped at or after its instant (R116). -/
def Device.rePeriod (d : Device) (s : Nat) : Device :=
  if d.sTimed s then
    let d := d.setStream s { d.stream s with next := (d.stream s).anchor.g0 }
    let d := d.setStream s { d.stream s with next := d.sFirstRelease s d.time }
    match (d.stream s).refAt with
    | none => d
    | some t => (d.sReference s t).zRenumber s
  else d

/-- A write to LNK_S_PNUM or LNK_S_PDEN (`num`, `den`: which were written) applies at once to the idle anchor of a stream that is OFF and has no
consumer; at any other time it is held, and a value held stays held when the other is written (R103, R104, R601). -/
def Device.applyPeriod (d : Device) (s : Nat) (num den : Bool) : Device :=
  if d.sState s = 0 ∧ !d.hasConsumer s then
    let d := if num then d.wr (Reg.LNK_S_PNUM_CUR s) (d.rdN (Reg.LNK_S_PNUM s)) else d
    (if den then d.wr (Reg.LNK_S_PDEN_CUR s) (d.rdN (Reg.LNK_S_PDEN s)) else d).rePeriod s
  else d

/-- START of a stream (R100, R101). -/
def Device.sStart (d : Device) (s : Nat) (o : Origin) : Device :=
  let c := firstCode [(decide (d.sStartCode s ≠ cOK), d.sStartCode s), (d.sPending s, cBUSY)]
  if c = cOK then
    (((d.sAcquire s).request .streamStart s (d.rdTime (Reg.LNK_S_AT_LO s)) o []).actBit o (F.LNK_S_CTL_START s)).showPending s
  else if d.hasReq [.streamStart] s then (d.setFld (F.LNK_S_STAT_CODE s) c).complete o c none
  else d.sFinish s o (F.LNK_S_CTL_START s) c none

/-- A START in progress is abandoned: it completes with BUSY (R102). -/
def Device.sAbandon (d : Device) (s : Nat) : Device :=
  match (d.reqs .streamStart).find? (fun r => decide (r.obj = s)) with
  | none => d
  | some r =>
    let d := (d.dropReq .streamStart s).setFld (F.LNK_S_STAT_STATE s) 0
    let d := d.setStream s { d.stream s with replay := none, replayEnd := none }
    (d.sFinish s r.origin (F.LNK_S_CTL_START s) cBUSY none).showPending s

/-- STOP of a stream (R102). -/
def Device.sStop (d : Device) (s : Nat) (o : Origin) : Device :=
  match d.sState s with
  | 0 => d.sFinish s o (F.LNK_S_CTL_STOP s) cOK none
  | 1 => ((d.sAbandon s).setFld (F.LNK_S_STAT_STATE s) 0).sFinish s o (F.LNK_S_CTL_STOP s) cOK none
  | _ =>
    if d.sPending s then (d.setFld (F.LNK_S_STAT_CODE s) cBUSY).complete o cBUSY none
    else ((d.request .streamStop s (d.rdTime (Reg.LNK_S_AT_LO s)) o []).actBit o (F.LNK_S_CTL_STOP s)).showPending s

/-- Whether a new period of a stream breaks the admission of R164 at any FCLK in question, at its instant or with a change that follows (R39). -/
def Device.rateRefused (d : Device) (s pnum pden : Nat) : Bool :=
  let t := timeMax (d.rdTime (Reg.LNK_S_AT_LO s)) d.time
  !d.fclks.all (fun f => d.ratesAdmitted [⟨t, s, pnum, pden⟩] t f)

/-- Whether a new period takes the CIC output rate of a running channeliser above 1 GS/s (R128). -/
def Device.cicTooFast (d : Device) (s pnum pden : Nat) : Bool :=
  (List.range 16).any (fun z => d.isSet (F.CHN_Z_STAT_RUNNING z) && decide (d.fld (F.CHN_Z_CFG_SOURCE z) = s) &&
    decide (d.zR z * pnum < pden))

/-- The check of RATE (R103, R104, R128). -/
def Device.sRateCode (d : Device) (s : Nat) : Nat :=
  let pn := d.rdN (Reg.LNK_S_PNUM s)
  let pd := d.rdN (Reg.LNK_S_PDEN s)
  let st := d.sState s
  firstCode [
    ((decide (st = 0) && (decide (pn = 0) || decide (pd = 0))) ||
      (decide (st = 2) && d.capacityBad s pn pd (d.sN s) (d.sRate s) (d.sLark s)), cLENGTH),
    (decide (st = 1) || d.sPending s, cBUSY),
    (d.rateRefused s pn pd, cSCHEDULE),
    (d.cicTooFast s pn pd, cUNSUP)]

/-- RATE of a stream (R103, R104). On an OFF stream without a consumer it completes at once, and values still held apply (R601). -/
def Device.sRateReq (d : Device) (s : Nat) (o : Origin) : Device :=
  if d.sState s = 0 ∧ !d.hasConsumer s ∧ !d.sPending s then (d.applyPeriod s true true).sFinish s o (F.LNK_S_CTL_RATE s) cOK none
  else
    let c := d.sRateCode s
    if c = cOK then
      ((d.request .streamRate s (d.rdTime (Reg.LNK_S_AT_LO s)) o
        [d.rdN (Reg.LNK_S_PNUM s), d.rdN (Reg.LNK_S_PDEN s)]).actBit o (F.LNK_S_CTL_RATE s)).showPending s
    else if d.hasReq [.streamRate] s then (d.setFld (F.LNK_S_STAT_CODE s) c).complete o c none
    else d.sFinish s o (F.LNK_S_CTL_RATE s) c none

/-! At a boundary. -/

/-- Whether a stream's START is due: acquisition has ended by the boundary (R101, R397). -/
def Device.sStartDue (d : Device) (r : BReq) (b : Time) : Bool :=
  r.due b && (match (d.stream r.obj).acqEnd with | none => false | some t => timeLE t b)

/-- A stream becomes RUNNING (R101), and its consumers number from its new reference point (R103). -/
def Device.streamStartAt (d : Device) (r : BReq) (b : Time) : Device :=
  let s := r.obj
  let d := (d.dropReq .streamStart s).sStartAt s b
  ((d.sFinish s r.origin (F.LNK_S_CTL_START s) cOK (some b)).showPending s).streamRestart s b

/-- A STOP takes effect. -/
def Device.streamStopAt (d : Device) (r : BReq) (b : Time) : Device :=
  let s := r.obj
  ((((d.dropReq .streamStop s).sStopAt s).sFinish s r.origin (F.LNK_S_CTL_STOP s) cOK (some b)).showPending s).replayCheck

/-- A RATE takes effect; a stream stopped at the same boundary takes it as a rate change of its idle anchor. -/
def Device.streamRateAt (d : Device) (r : BReq) (b : Time) : Device :=
  let s := r.obj
  let d := (d.dropReq .streamRate s).sRateAt s b (r.arg.getD 0 0) (r.arg.getD 1 0)
  (((d.sFinish s r.origin (F.LNK_S_CTL_RATE s) cOK (some b)).showPending s).showRun).recheck

/-- A stream that regained its alignment takes its new anchor (R98). -/
def Device.streamRejoinAt (d : Device) (s : Nat) (b : Time) : Device :=
  let x := d.stream s
  if d.sState s = 2 ∧ x.back b then (d.sRejoin s b).streamRestart s b else d

/-! Exports. -/

/-- Whether a transmit lane is used by another export, a running cascade link or the panel (R107, R542). -/
def Device.txTaken (d : Device) (s i : Nat) : Bool :=
  (List.range 8).any (fun t => decide (t ≠ s) && d.isSet (F.LNK_E_STAT_RUNNING t) && bitAt (d.rdN (Reg.LNK_E_LANES t)) i) ||
  (List.range 6).any (fun l => d.isSet (F.CAS_L_CFG_RUN l) && bitAt (d.rdN (Reg.CAS_L_TX l)) i) ||
  (decide (20 ≤ i) && d.isSet F.PNL_CFG_EN)

/-- The check of an export (R107). -/
def Device.eCode (d : Device) (s : Nat) : Nat :=
  let all := onesBelow (d.rdN (Reg.LNK_E_LANES s)) 24
  let n := (d.eLanes s).length
  let rate := match all with | [] => 0 | i :: _ => d.fld (F.LNK_TG_CFG_RATE (i / 4))
  let pn := d.rdN (Reg.LNK_S_PNUM_CUR s)
  let pd := d.rdN (Reg.LNK_S_PDEN_CUR s)
  let w := if d.isSet (F.LNK_E_CFG_SOURCE s) then 32 else d.sWidth s
  firstCode [
    (d.capacityBad s pn pd n rate false || overCapacity w pn pd n rate false, cLENGTH),
    (all.any (fun i => d.txTaken s i), cBUSY),
    (!d.isSet F.CLK_STAT_REF_PRESENT, cREFLOST),
    (all.any (fun i => decide (d.fld (F.LNK_TG_CFG_RATE (i / 4)) ≠ rate)), cUNSUP)]

/-- A write of LNK_E_CFG (R107): RUN set checks and starts the export, RUN cleared stops it at the next boundary. -/
def Device.eRun (d : Device) (s v : Nat) : Device :=
  if d.isSet (F.LNK_E_STAT_RUNNING s) then
    if bitAt v 0 then d
    else if d.hasReq [.exportStop] s then d
    else (d.setFld (F.LNK_E_CFG_RUN s) 0).request .exportStop s d.time .host []
  else
    let d := d.wr (Reg.LNK_E_CFG s) (v % 16)
    if !bitAt v 0 then d
    else
      let c := d.eCode s
      let d := d.setFld (F.LNK_E_STAT_CODE s) c
      if c = cOK then (d.setFld (F.LNK_E_STAT_RUNNING s) 1).eStart s else d.setFld (F.LNK_E_CFG_RUN s) 0

/-! Release. -/

/-- Sample `g` of a stream is released (R92, R94, R103). -/
def Device.releaseSample (d : Device) (s : Nat) (g : Int) : Device :=
  if d.sDue s g then
    let x := d.sSample s g
    let x' : Smp := if (d.stream s).replay.isSome ∧ d.sState s = 2 then { x.1 with marks := x.1.marks ||| 8 } else x.1
    let c := (d.chain s g x').1
    (((d.passSample s g x').eTake s (BitVec.ofInt 64 (d.sStamp s g)) x' c).sReleased s g x.2).replayed s g
  else d

def execLnkSCtlStart (s' : Nat) (s : State) : Host.Outcome State Fault Refusal :=
  s.run (fun d => if s' < 8 then d.sStart s' .host else d)

def execLnkSCtlStop (s' : Nat) (s : State) : Host.Outcome State Fault Refusal :=
  s.run (fun d => if s' < 8 then (d.sStop s' .host).replayCheck else d)

def execLnkSCtlRate (s' : Nat) (s : State) : Host.Outcome State Fault Refusal :=
  s.run (fun d => if s' < 8 then d.sRateReq s' .host else d)

/-- Engine START writes LNK_S_CFG to LNK_S_AT under R600: a stream that is not OFF takes none of them. -/
def execLnkStart (u : UCmd) (s : State) : Host.Outcome State Fault Refusal :=
  s.run (fun d => d.unitCmd 0x02 1 u fun d =>
    let t := u.unit
    if d.sState t = 0 then
      ((d.wrBlock u ((List.range 8).map (fun i => (Reg.LNK_S_CFG t + 4 * i, 4 * i)))).applyPeriod t true true).sStart t u.origin
    else d.complete u.origin cBUSY none)

def execLnkStop (u : UCmd) (s : State) : Host.Outcome State Fault Refusal :=
  s.run (fun d => d.unitCmd 0x02 2 u fun d =>
    ((d.wrBlock u [(Reg.LNK_S_AT_LO u.unit, 0x18), (Reg.LNK_S_AT_HI u.unit, 0x1C)]).sStop u.unit
      u.origin).replayCheck)

def execLnkRate (u : UCmd) (s : State) : Host.Outcome State Fault Refusal :=
  s.run (fun d => d.unitCmd 0x02 3 u fun d =>
    ((d.wrBlock u [(Reg.LNK_S_PNUM u.unit, 8), (Reg.LNK_S_PDEN u.unit, 12), (Reg.LNK_S_AT_LO u.unit, 0x18),
      (Reg.LNK_S_AT_HI u.unit, 0x1C)]).applyPeriod u.unit true true).sRateReq u.unit u.origin)

def execExportRun (s' val : Nat) (s : State) : Host.Outcome State Fault Refusal :=
  s.run (fun d => if s' < 8 then d.eRun s' val else d)

def execSampleRelease (s' : Nat) (g : Int) (s : State) : Host.Outcome State Fault Refusal :=
  s.run (fun d => if s' < 8 then d.releaseSample s' g else d)

end Sys2Proof.Machine
end

