-- ==== Sys2Proof/Machine/Cascade.lean ====
section
/-! DEFINITION. The cascade (R542 to R560): messages received, roles and the role epoch, common time, the work across devices, takeover, and the commands. -/

namespace Sys2Proof.Machine

/-! Boundaries to come (R30). -/

/-- The first multiple of 1,024 ns at or after an instant. -/
def next1024 (t : Time) : Time := BitVec.ofNat 64 ((t.toNat + (2 ^ 26 - 1)) / 2 ^ 26 * 2 ^ 26)

/-- The first frame boundary of a frame sequence at or after an instant (R152). -/
def Device.frameBoundary (d : Device) (q : FrameSeq) (t : Time) : Option Time :=
  match q.first with
  | none => none
  | some n0 =>
    let k := ceilDiv (d.tapFirst (8 + q.src) t - n0).toNat (max 1 q.hop)
    some (BitVec.ofInt 64 (d.tapStamp (8 + q.src) (n0 + (k * q.hop : Nat))))

/-- Whether an instant precedes the first frame boundary of a frame sequence. -/
def Device.beforeFirst (d : Device) (q : FrameSeq) (t : Time) : Bool :=
  match q.first with
  | none => true
  | some n0 => timeLT t (BitVec.ofInt 64 (d.tapStamp (8 + q.src) n0))

/-- The first device boundary at or after an instant, as the running anchor context stands (R30). -/
def Device.boundaryFrom (d : Device) (t : Time) : Time :=
  match d.anchorCtx with
  | none => next1024 t
  | some c =>
    if !d.inRun c then next1024 t
    else
      match (d.seqs.filter (fun q => decide (q.ctx = c) && q.fin.isNone)).getLast? with
      | none => next1024 t
      | some q => if d.beforeFirst q (next1024 t) then next1024 t else (d.frameBoundary q t).getD (next1024 t)

/-- The earliest instant a role change or a cascade reset may name: CAS_LEAD from now (R547, R554). -/
def Device.casLead (d : Device) : Time := d.time + nsTime (d.rdN Reg.CAS_LEAD)

/-! Requests. -/

/-- The action bit of a cascade request in CAS_CTL. -/
def casAct (a : Nat) : FieldAt := ⟨Reg.CAS_CTL, ⟨a, 1⟩⟩

/-- A request ends (R42). -/
def Device.casEnd (d : Device) (o : Origin) (a c : Nat) (stamp : Option Time) : Device :=
  match o with
  | .device => d.setFld F.CAS_CMD_STAT_CODE c
  | _ => (d.setFld F.CAS_CMD_STAT_BUSY 0).finish o (casAct a) F.CAS_CMD_STAT_CODE c stamp

/-- A request begins. -/
def Device.casBegin (d : Device) (o : Origin) (a : Nat) : Device :=
  match o with
  | .device => d
  | _ => (d.setFld F.CAS_CMD_STAT_BUSY 1).actBit o (casAct a)

/-- A request that is refused; BUSY leaves the request in progress alone. -/
def Device.casRefuse (d : Device) (o : Origin) (a c : Nat) : Device :=
  if c = cBUSY then (d.setFld F.CAS_CMD_STAT_CODE c).complete o c none else d.casEnd o a c none

/-- Whether a cascade request is in progress. -/
def Device.casBusy (d : Device) : Bool :=
  d.cas.change.isSome || d.cas.cal.isSome || d.isSet F.CAS_CMD_STAT_BUSY

/-! Roles (R546, R547). -/

/-- The role table that FORM makes: this device as device 0, and the devices of CAS_D_CFG.PRESENT. -/
def Device.formTable (d : Device) : Sparse CasRole :=
  (List.range 16).foldl (fun t n =>
    let r : CasRole :=
      if n = 0 then ⟨d.fld F.CAS_CFG_IDENT, caMaster⟩
      else if d.isSet (F.CAS_D_CFG_PRESENT n) ∧ d.fld (F.CAS_D_CFG_ROLE n) ∈ [1, 2] then
        ⟨d.fld (F.CAS_D_CFG_IDENT n), d.fld (F.CAS_D_CFG_ROLE n) + 1⟩
      else {}
    Sparse.set (fun _ => {}) t n r) []

/-- A role table as numbers: device, identity and role of each row. -/
def tableArgs (t : Sparse CasRole) : List Nat := t.flatMap (fun kv => [kv.1, kv.2.ident, kv.2.role])

/-- A role table from numbers. -/
def tableOf : List Nat → Sparse CasRole
  | n :: i :: r :: l => Sparse.set (fun _ => {}) (tableOf l) (n % 16) ⟨i % 256, r % 4⟩
  | _ => []

/-- The master announces a new table with the next epoch, for the first device boundary at or after the later of the instant asked for and now +
CAS_LEAD (R547). -/
def Device.roleStart (d : Device) (t : Sparse CasRole) (at' : Option Time) (x : CasChange) : Device :=
  let e := (d.casEpoch + 1) % 65536
  let b := d.boundaryFrom (match at' with | some i => timeMax i d.casLead | none => d.casLead)
  let to' := (List.range 16).filter (fun n => decide (n ≠ 0) &&
    (decide ((d.casRow n).role ≠ 0) || decide ((Sparse.get (fun _ => {}) t n).role ≠ 0)))
  let d := d.casSendAll 1 to' ([e, b.toNat] ++ tableArgs t)
  let d := { d with cas := { d.cas with change := some x, formCode := 0 } }
  (d.request .role 0 b .device (e :: tableArgs t)).casBegin x.origin x.act

/-- What the master shows of the devices after a role change (R551, R558, R560). -/
def Device.showDevs (d : Device) (x : CasChange) : Device :=
  (List.range 16).foldl (fun d n =>
    let there := decide ((d.casRow n).role ≠ 0)
    if x.act = 0 then (d.setFld (F.CAS_D_STAT_STATE n) (if there then 1 else 0)).setFld (F.CAS_D_STAT_TIME_OK n) 0
    else if !there && decide (d.fld (F.CAS_D_STAT_STATE n) ≠ 4) then
      (d.setFld (F.CAS_D_STAT_STATE n) 0).setFld (F.CAS_D_STAT_TIME_OK n) 0
    else d) d

/-- The sums of a calibration start from zero (R552). -/
def Device.calClear (d : Device) : Device :=
  (List.range 16).foldl (fun d n => d.setCasDev n { d.casDev n with nT := 0, sumT := 0, nU := 0, sumU := 0 }) d

/-- FORM after its role boundary (R551): the mark of coarse time, and the calibration from the first multiple of 1,024 ns after it. -/
def Device.coarseStart (d : Device) (b : Time) : Device :=
  let tm := next1024 (b + nsTime (d.rdN Reg.CAS_LEAD))
  let d := d.casSendAll 4 d.casOthers [tm.toNat, d.rdN Reg.EVT_EPOCH]
  let d := (d.send (.mark tm)).send (.markTrain (tm + nsTime 1024) 4096)
  { d with cas := { d.cas with cal := some (tm + nsTime 1024), calForm := true,
                               calBy := match d.cas.change with | some x => x.origin | none => .device
                               change := none } }.calClear

/-- A device applies a role table at a boundary (R547). -/
def Device.roleApply (d : Device) (r : BReq) (b : Time) : Device :=
  let t := tableOf (r.arg.drop 1)
  let me := t.find? (fun kv => decide (kv.2.ident = d.fld F.CAS_CFG_IDENT))
  let d := { d with breqs := d.breqs.erase r
                    cas := { d.cas with table := t, stale := false, deaf := false, heard := b, statusAt := b, decidedAt := b
                                        devs := [] } }
  let d := t.foldl (fun d (n, _) => d.setCasDev n { heard := b }) d
  let d := d.wr Reg.CAS_EPOCH (r.arg.getD 0 0 % 65536)
  let d := match me with
    | some (n, v) => (d.setFld F.CAS_STAT_ROLE v.role).setFld F.CAS_STAT_DEVICE n
    | none => ((d.setFld F.CAS_STAT_ROLE caNone).setFld F.CAS_STAT_DEVICE 0).setFld F.CAS_STAT_TIME_OK 0
  match d.cas.change with
  | none => d
  | some x =>
    let d :=
      if x.act = 3 then
        let d := ((d.setFld (F.CAS_D_STAT_STATE x.dev) 2).setFld (F.CAS_D_STAT_TIME_OK x.dev)
          (d.fld (F.CAS_D_STAT_TIME_OK x.from'))).setFld (F.CAS_D_STAT_STATE x.from') 4
        d.flag F.CAS_FLAGS_TAKEOVER Reg.CAS_TAKEOVER_CNT
      else d
    let d := d.showDevs x
    if x.act = 0 then d.coarseStart b
    else Device.casEnd { d with cas := { d.cas with change := none } } x.origin x.act cOK (some b)

/-! Commands (R551 to R560). -/

/-- The instant that a request for a role change names (R547). DEDUCED (log entry 141): a host's is CAS_AT; an engine's names none. -/
def Device.casAt (d : Device) (o : Origin) : Option Time := if o = .host then some (d.rdTime Reg.CAS_AT_LO) else none

/-- FORM. -/
def Device.casFormReq (d : Device) (o : Origin) : Device :=
  let c := firstCode [(d.casBusy, cBUSY), (!d.isSet F.CAS_CFG_MASTER, cNOTARMED), (d.isSet F.CHN_SYNC_CFG_SYNC_EN, cUNSUP)]
  if c ≠ cOK then d.casRefuse o 0 c else d.roleStart d.formTable (d.casAt o) ⟨o, 0, 0, 0⟩

/-- Calibration on a running cascade (R552). -/
def Device.calStart (d : Device) (o : Origin) : Device :=
  let t0 := next1024 d.casLead
  let d := d.send (.markTrain t0 4096)
  Device.casBegin { d with cas := { d.cas with
    cal := some t0, calForm := false, calBy := o, formCode := 0, recalAt := d.time } }.calClear o 1

/-- CAL. -/
def Device.casCalReq (d : Device) (o : Origin) : Device :=
  let c := firstCode [(d.casBusy, cBUSY), (!d.isMaster, cNOTARMED)]
  if c ≠ cOK then d.casRefuse o 1 c else d.calStart o

/-- RESET (R554). -/
def Device.casResetReq (d : Device) (t : Time) (o : Origin) : Device :=
  let c := firstCode [(d.casBusy || d.hasReq [.decReset] 0, cBUSY), (!d.isMaster, cNOTARMED)]
  if c ≠ cOK then d.casRefuse o 2 c
  else
    let tr := d.boundaryFrom (timeMax t d.casLead)
    (((d.casSendAll 5 d.casOthers [tr.toNat, 1]).send (.mark tr)).request .decReset 0 tr o [1]).casBegin o 2

/-- The STANDBY that a takeover uses: the lowest identity among the READY ones, or the one named (R558). -/
def Device.casStandby (d : Device) (named : Nat) : Option Nat :=
  let l := d.casOthers.filter (fun n => decide ((d.casRow n).role = caStandby) && (d.casDev n).ready &&
    decide (d.fld (F.CAS_D_STAT_STATE n) = 2) && (decide (named = 0xFF) || decide ((d.casRow n).ident = named)))
  l.foldl (fun a n => match a with
    | none => some n
    | some m => if (d.casRow n).ident < (d.casRow m).ident then some n else some m) none

/-- TAKEOVER (R558). -/
def Device.casTakeReq (d : Device) (dv named : Nat) (o : Origin) : Device :=
  let c := firstCode [(d.casBusy, cBUSY), ((d.casStandby named).isNone, cNOSPARE), (!d.isMaster, cNOTARMED),
    (decide (dv = 0) || d.isSet F.CHN_SYNC_CFG_SYNC_EN, cUNSUP)]
  match d.casStandby named with
  | none => d.casRefuse o 3 c
  | some n =>
    if c ≠ cOK then d.casRefuse o 3 c
    else
      let t := Sparse.set (fun _ => {}) d.cas.table n {}
      d.roleStart (Sparse.set (fun _ => {}) t dv ⟨(d.casRow n).ident, caMember⟩) (d.casAt o) ⟨o, 3, dv, n⟩

/-- LEAVE (R560): on the master a new table without the device; elsewhere this device leaves at once. -/
def Device.casLeaveReq (d : Device) (dv : Nat) (o : Origin) : Device :=
  if d.isMaster then
    let c := firstCode [(d.casBusy, cBUSY), (d.isSet F.CHN_SYNC_CFG_SYNC_EN, cUNSUP)]
    if c ≠ cOK then d.casRefuse o 4 c else d.roleStart (Sparse.set (fun _ => {}) d.cas.table dv {}) (d.casAt o) ⟨o, 4, dv, 0⟩
  else
    let d := (((d.dropReq .role 0).setFld F.CAS_STAT_ROLE caNone).setFld F.CAS_STAT_TIME_OK 0).setFld F.CAS_STAT_SLEWING 0
    Device.casEnd { d with cas := { d.cas with slew := 0, marks := [], resets := [], errs := [], coarse := none } } o 4 cOK none

def execCasCtlForm (s : State) : Host.Outcome State Fault Refusal := s.run (fun d => d.casFormReq .host)
def execCasCtlCal (s : State) : Host.Outcome State Fault Refusal := s.run (fun d => d.casCalReq .host)
def execCasCtlReset (s : State) : Host.Outcome State Fault Refusal :=
  s.run (fun d => d.casResetReq (d.rdTime Reg.CAS_AT_LO) .host)
def execCasCtlTakeover (s : State) : Host.Outcome State Fault Refusal :=
  s.run (fun d => d.casTakeReq (d.fld F.CAS_CMD_ARG_DEVICE) (d.fld F.CAS_CMD_ARG_STANDBY) .host)
def execCasCtlLeave (s : State) : Host.Outcome State Fault Refusal :=
  s.run (fun d => d.casLeaveReq (d.fld F.CAS_CMD_ARG_DEVICE) .host)

def execCasForm (u : UCmd) (s : State) : Host.Outcome State Fault Refusal :=
  s.run (fun d => d.unitCmd 0x12 1 u fun d => d.casFormReq u.origin)
def execCasCal (u : UCmd) (s : State) : Host.Outcome State Fault Refusal :=
  s.run (fun d => d.unitCmd 0x12 2 u fun d => d.casCalReq u.origin)
def execCasReset (u : UCmd) (s : State) : Host.Outcome State Fault Refusal :=
  s.run (fun d => d.unitCmd 0x12 3 u fun d => d.casResetReq (BitVec.ofNat 64 (u.dword 0)) u.origin)
def execCasTakeover (u : UCmd) (s : State) : Host.Outcome State Fault Refusal :=
  s.run (fun d => d.unitCmd 0x12 4 u fun d => d.casTakeReq (bitsOf u.imm 0 4) (bitsOf u.imm 8 8) u.origin)
def execCasLeave (u : UCmd) (s : State) : Host.Outcome State Fault Refusal :=
  s.run (fun d => d.unitCmd 0x12 5 u fun d => d.casLeaveReq (bitsOf u.imm 0 4) u.origin)

/-! Messages received (R544, R545, R548). -/

/-- Answer a control message on the link it came on: ACK, or NAK with a code (R545). -/
def Device.casAnswer (d : Device) (m : CasMsg) (c : Nat) : Device :=
  if c = cOK then d.casVia (some m.link) 2 m.src [m.seq] [] else d.casVia (some m.link) 3 m.src [m.seq, c] []

/-- A message for another device goes on unchanged (R544); a record or part needs room in the link's transmit buffer (R545). -/
def Device.casRelay (d : Device) (m : CasMsg) (ty : Nat) (args : List Nat) (data : List Byte) : Device :=
  let ls := if m.dst = 0xFF then (List.range 6).filter (fun l => d.isSet (F.CAS_L_CFG_RUN l) && decide (l ≠ m.link))
    else (d.linkTo m.dst).toList
  ls.foldl (fun d l =>
    let r := if ty = 9 ∨ ty = 10 then d.casRoom l (casSize data) else (true, d)
    if r.1 then r.2.send (.casMsg l m.retry ty m.epoch m.src m.dst m.seq args data) else r.2.casDrop) d

/-- Whether an epoch is older than another (R477, R548). -/
def epochOlder (a b : Nat) : Bool := decide (0 < signed 16 (b + 65536 - a))

/-- A message arrives (R544, R545, R548): checked, passed on, compared with the epoch, taken once, answered. `f` is what its type does, with
the code a control message is answered with. -/
def Device.casIn (d : Device) (m : CasMsg) (ty : Nat) (args : List Nat) (data : List Byte) (anyEpoch : Bool)
    (f : Device → Nat × Device) : Device :=
  if !m.good then d.flag F.CAS_FLAGS_MSG_ERR Reg.CAS_MSG_ERR_CNT
  else
    let mine := decide (m.dst = 0xFF) || d.casNum.all (fun n => decide (m.dst = n))
    let d := if m.dst = 0xFF ∨ !mine then d.casRelay m ty args data else d
    if !mine then d
    else if !anyEpoch && decide (m.epoch ≠ d.casEpoch) then
      let d := d.flag F.CAS_FLAGS_STALE Reg.CAS_STALE_CNT
      if casControl ty then d.casAnswer m cSTALE else d
    else if !casControl ty then (f d).2
    else if m.retry ∧ (m.src, m.seq) ∈ (d.casLink m.link).seen then d.casAnswer m cOK
    else
      let r := f d
      let d := r.2.casAnswer m r.1
      if r.1 = cOK then d.setCasLink m.link { d.casLink m.link with seen := (d.casLink m.link).seen ++ [(m.src, m.seq)] } else d

def execRoleMessage (m : CasMsg) (epoch : Nat) (b : Time) (table : List (Nat × Nat × Nat)) (s : State) :
    Host.Outcome State Fault Refusal :=
  let args := table.flatMap (fun r => [r.1, r.2.1, r.2.2])
  s.run (fun d => d.casIn m 1 ([epoch, b.toNat] ++ args) [] true (fun d =>
    if m.src ≠ 0 ∨ !d.isSet F.CAS_CFG_ACCEPT ∨ d.isSet F.CHN_SYNC_CFG_SYNC_EN then (cUNSUP, d)
    else (cOK, Device.request { d with cas := { d.cas with stale := false, deaf := false, heard := d.time } } .role 0 b .device
      (epoch % 65536 :: args))))

/-- Remove an answered control message from the link it went out on. -/
def Device.casAnswered (d : Device) (m : CasMsg) (seq : Nat) : Device :=
  let x := d.casLink m.link
  d.setCasLink m.link { x with wait := x.wait.filter (fun w => decide (w.seq ≠ seq)) }

def execAckMessage (m : CasMsg) (seq : Nat) (s : State) : Host.Outcome State Fault Refusal :=
  s.run (fun d => d.casIn m 2 [seq] [] false (fun d => (cOK, d.casAnswered m seq)))

/-- A NAK (R548, R551): FORM takes the code of a device that refused its role or its time. -/
def execNakMessage (m : CasMsg) (seq code : Nat) (s : State) : Host.Outcome State Fault Refusal :=
  s.run (fun d => d.casIn m 3 [seq, code] [] (decide (code = cSTALE)) (fun d =>
    let form := (d.casLink m.link).wait.any (fun w => decide (w.seq = seq) && decide (w.ty ∈ [1, 4])) && d.casBusy
    let d := d.casAnswered m seq
    let d := if form then
        { d with cas := { d.cas with formCode := if d.cas.formCode = 0 then code else Nat.min d.cas.formCode code } } else d
    if code = cSTALE ∧ epochOlder d.casEpoch m.epoch then
      (cOK, Device.setFld { d with cas := { d.cas with stale := true } } F.CAS_STAT_ROLE caNone)
    else (cOK, d)))

/-- TIME (R551): the coarse mark to come, where R479 allows a set. -/
def execTimeMessage (m : CasMsg) (t : Time) (epoch : Nat) (s : State) : Host.Outcome State Fault Refusal :=
  s.run (fun d => d.casIn m 4 [t.toNat, epoch] [] false (fun d =>
    if d.setBlocked then (cBUSY, d) else (cOK, { d with cas := { d.cas with coarse := some (t, epoch % 65536) } })))

/-- MARK (R553, R554): a mark to come, or a cascade reset. -/
def execMarkMessage (m : CasMsg) (t : Time) (reset : Bool) (s : State) : Host.Outcome State Fault Refusal :=
  s.run (fun d => d.casIn m 5 [t.toNat, if reset then 1 else 0] [] false (fun d =>
    let d := if m.src = 0 then { d with cas := { d.cas with heard := d.time } } else d
    if !reset then (cOK, { d with cas := { d.cas with marks := d.cas.marks ++ [t] } })
    else
      let late := timeLT t d.time
      let d := Device.request { d with cas := { d.cas with resets := d.cas.resets ++ [t] } } .decReset 0 t .device [2]
      (cOK, if late then d.flag F.CAS_FLAGS_RESET_LATE Reg.CAS_RESET_LATE_CNT else d)))

def execStatusMessage (m : CasMsg) (ready timeOk : Bool) (s : State) : Host.Outcome State Fault Refusal :=
  s.run (fun d => d.casIn m 6 [if ready then 1 else 0, if timeOk then 1 else 0] [] false (fun d =>
    let d := if m.src = 0 then { d with cas := { d.cas with heard := d.time } } else d
    let d := d.setCasDev m.src { d.casDev m.src with heard := d.time, ready := ready }
    (cOK, if d.isMaster then d.setFld (F.CAS_D_STAT_TIME_OK (m.src % 16)) (if timeOk then 1 else 0) else d)))

def execDecidedMessage (m : CasMsg) (t : Time) (s : State) : Host.Outcome State Fault Refusal :=
  s.run (fun d => d.casIn m 7 [t.toNat] [] false (fun d =>
    (cOK, d.setCasDev m.src { d.casDev m.src with decided := some t })))

/-- The offset of a route (R556). -/
def Device.rtOfs (d : Device) (r : Nat) : Time := d.rdTime (Reg.CAS_RT_OFS_LO r)

/-- A route target fires at an instant: the arming that has ended but still takes it, or the present one (R218, R556). -/
def Device.rtFire (d : Device) (n : Nat) (t : Time) : Device :=
  match (d.tKeys n).find? (fun k => decide (64 ≤ k) && decide (sKind (d.tSet k t) = 5) && d.tTakes k t) with
  | some k => d.fire k t 0 0 0 0
  | none => if d.tKind n = 5 ∧ d.tArmed n then d.fire n t 0 0 0 0 else d

/-- TRIGGER (R556): every armed route target of the unit fires. -/
def execTriggerMessage (m : CasMsg) (unit : Nat) (t : Time) (s : State) : Host.Outcome State Fault Refusal :=
  s.run (fun d => d.casIn m 8 [unit, t.toNat] [] false (fun d =>
    (cOK, (List.range 64).foldl (fun d r =>
      let n := d.fld (F.CAS_RT_CFG_DUNIT r)
      if d.casWorks ∧ d.isSet (F.CAS_RT_CFG_EN r) ∧ d.fld (F.CAS_RT_CFG_SDEV r) = m.src ∧ d.fld (F.CAS_RT_CFG_SUNIT r) = unit then
        d.rtFire n (t + d.rtOfs r)
      else d) d)))

def execRecordMessage (m : CasMsg) (q : Nat) (data : List Byte) (s : State) : Host.Outcome State Fault Refusal :=
  s.run (fun d => d.casIn m 9 [q] data false (fun d => (cOK, if d.casWorks then d.qOffer (q % 4096) data 0x12 m.src else d)))

def execPartMessage (m : CasMsg) (c index : Nat) (stamp : Int) (marks : Nat) (bins : List Byte) (s : State) :
    Host.Outcome State Fault Refusal :=
  s.run (fun d => d.casIn m 10 [c, index, wrap 64 stamp, marks] bins false (fun d =>
    (cOK, if !d.isMaster then d
      else (List.range 16).foldl (fun d j =>
        if d.isSet (F.CAS_J_CFG_EN j) ∧ d.fld (F.CAS_J_CFG_CONTEXT j) = c ∧ bitAt (d.rdN (Reg.CAS_J_PARTS j)) m.src then
          d.joinTake j index ⟨m.src, stamp, marks, bins⟩
        else d) d)))

/-- CALDATA (R552): exchange `i` of a device: its stamp of the mark, and its edge of the return clock. -/
def execCaldataMessage (m : CasMsg) (i : Nat) (t u : Time) (s : State) : Host.Outcome State Fault Refusal :=
  s.run (fun d => d.casIn m 11 [i, t.toNat, u.toNat] [] false (fun d =>
    match d.cas.cal with
    | none => (cOK, d)
    | some t0 =>
      let x := d.casDev m.src
      if x.nT < 4096 ∧ d.isMaster then
        (cOK, d.setCasDev m.src { x with nT := x.nT + 1, sumT := x.sumT + (t - (t0 + BitVec.ofNat 64 (i * usUnits))).toInt
                                         sumU := x.sumU - (u - t0).toInt })
      else (cOK, d)))

/-! Timers (R545, R549, R552, R553, R556, R557). -/

/-- No answer within 10 µs: the message goes out again, up to 8 times; after the eighth it counts as unanswered (R545). -/
def execControlRetryTimeout (l seq : Nat) (s : State) : Host.Outcome State Fault Refusal :=
  s.run (fun d =>
    let x := d.casLink l
    match x.wait.find? (fun w => decide (w.seq = seq)) with
    | none => d
    | some w =>
      if timeLT d.time (w.sent + nsTime 10000) ∨ d.cas.stale then d
      else if d.cas.deaf ∧ w.dst = 0 then
        (d.setCasLink l { x with wait := x.wait.filter (fun v => decide (v.seq ≠ seq)) }).casDrop
      else if w.tries < 8 then
        (d.setCasLink l { x with wait := x.wait.map (fun v => if v.seq = seq then { v with tries := v.tries + 1, sent := d.time } else v) }).send
          (.casMsg l true w.ty w.epoch d.casSelf w.dst w.seq w.args [])
      else
        (d.setCasLink l { x with wait := x.wait.filter (fun v => decide (v.seq ≠ seq)) }).flag F.CAS_FLAGS_UNACKED
          Reg.CAS_UNACKED_CNT)

/-- STATUS every 100 µs from a device that is not the master (R549): whether it is READY, and TIME_OK. -/
def execStatusSend (s : State) : Host.Outcome State Fault Refusal :=
  s.run (fun d =>
    if (d.casRole ∈ [caMember, caStandby] ∨ d.cas.stale) ∧ timeLE (d.cas.statusAt + nsTime 100000) d.time then
      Device.casSend { d with cas := { d.cas with statusAt := d.time } } 6 0
        [if d.fld F.SYS_STAT_STATE = 3 then 1 else 0, d.fld F.CAS_STAT_TIME_OK] []
    else d)

/-- DECIDED every 1 µs (R556): the collector's decided-through time, to the other devices. -/
def execDecidedSend (s : State) : Host.Outcome State Fault Refusal :=
  s.run (fun d =>
    if d.casRole ∈ [caMaster, caMember] ∧ timeLE (d.cas.decidedAt + nsTime 1000) d.time then
      Device.casSendAll { d with cas := { d.cas with decidedAt := d.time } } 7 d.casOthers [d.rd64 Reg.TRG_DECIDED_LO]
    else d)

def Device.casTimeout (d : Device) : Time := nsTime (d.rdN Reg.CAS_TIMEOUT)

/-- The master hears no STATUS from a device: LOST, and with AUTO_TAKEOVER a takeover (R549, R558). -/
def execDeviceLostTimeout (dv : Nat) (s : State) : Host.Outcome State Fault Refusal :=
  s.run (fun d =>
    if d.isMaster ∧ dv ∈ d.casOthers ∧ d.fld (F.CAS_D_STAT_STATE dv) ∈ [1, 2] ∧
        timeLE ((d.casDev dv).heard + d.casTimeout) d.time then
      let d := (((d.setFld (F.CAS_D_STAT_STATE dv) 3).setFld (F.CAS_D_STAT_TIME_OK dv) 0).flag F.CAS_FLAGS_LOST Reg.CAS_LOST_CNT)
      if d.isSet F.CAS_CFG_AUTO_TAKEOVER ∧ (d.casRow dv).role = caMember then
        if d.casBusy then { d with cas := { d.cas with takeovers := d.cas.takeovers ++ [dv] } } else d.casTakeReq dv 0xFF .device
      else d
    else d)

/-- A takeover that waits for a cascade request in progress begins when that has ended (R558). -/
def Device.casWaiting (d : Device) : Device :=
  match d.cas.takeovers with
  | [] => d
  | dv :: l => if d.casBusy then d else Device.casTakeReq { d with cas := { d.cas with takeovers := l } } dv 0xFF .device

/-- A device hears nothing from the master (R549). -/
def execMasterLostTimeout (s : State) : Host.Outcome State Fault Refusal :=
  s.run (fun d =>
    if d.casRole ∈ [caMember, caStandby] ∧ !d.cas.deaf ∧ timeLE (d.cas.heard + d.casTimeout) d.time then
      let d := (d.flag F.CAS_FLAGS_MASTER_LOST Reg.CAS_MASTER_LOST_CNT).setFld F.CAS_STAT_TIME_OK 0
      Device.setFld { d with cas := { d.cas with deaf := true, slew := 0, marks := [], errs := [] } } F.CAS_STAT_SLEWING 0
    else d)

/-- The time error reached 1 ns (R553). -/
def Device.timeFault (d : Device) : Device :=
  (d.flag F.CAS_FLAGS_TIME_FAULT Reg.CAS_TIME_FAULT_CNT).setFld F.CAS_STAT_TIME_OK 0

/-- A device slews by an error that it has measured, or reports it (R552, R553). -/
def Device.slewBy (d : Device) (theta : Int) : Device :=
  if 65536 ≤ theta.natAbs then Device.setFld { d.timeFault with cas := { d.cas with slew := 0 } } F.CAS_STAT_SLEWING 0
  else Device.setFld { d with cas := { d.cas with slew := theta } } F.CAS_STAT_SLEWING (if theta = 0 then 0 else 1)

/-- The last measured error (CAS_OFFSET). -/
def Device.showTheta (d : Device) (theta : Int) : Device := d.wr64 Reg.CAS_OFFSET_LO (wrap 64 theta)

/-- The sum of the return delays of 4,096 exchanges: which edge of the return clock an arrival is, is known only up to its period. -/
def retSum (x : Int) : Int := (x + 2048 * (usUnits : Int)) % (4096 * (usUnits : Int)) - 2048 * (usUnits : Int)

/-- θ and fwd of a device from the sums of 4,096 exchanges (R552). DEDUCED (log entry 141): the mean return delay less the offset lies within half
a period of the return clock. -/
def Device.calResult (d : Device) (n : Nat) : Int × Int :=
  let x := { d.casDev n with sumU := retSum (d.casDev n).sumU }
  let asym := (d.rd (Reg.CAS_D_ASYM n)).toInt
  (roundHalfEven (x.sumT - x.sumU - 4096 * asym) 8192, roundHalfEven (x.sumT + x.sumU + 4096 * asym) 8192)

/-- Calibration has made its exchanges (R551, R552). The master computes each device's θ and fwd and sends them; another device takes the
θ and fwd that the master sent. -/
def execCascadeCalDone (theta fwd : Int) (s : State) : Host.Outcome State Fault Refusal :=
  s.run (fun d =>
    if d.isMaster then
      match d.cas.cal with
      | none => d
      | some t0 =>
        if timeLT d.time (t0 + BitVec.ofNat 64 (4096 * usUnits)) then d
        else
          let d := d.casOthers.foldl (fun d n =>
            let x := d.casDev n
            if x.nT = 4096 ∧ x.nU = 4096 ∧ d.fld (F.CAS_D_STAT_STATE n) ∈ [1, 2] then
              let r := d.calResult n
              ((d.casSend 11 n [wrap 64 r.1, wrap 32 r.2] []).setFld (F.CAS_D_STAT_STATE n) 2).setFld (F.CAS_D_STAT_TIME_OK n)
                (if d.cas.calForm ∨ r.1.natAbs < 65536 then 1 else 0)
            else d) d
          let o := d.cas.calBy
          let a := if d.cas.calForm then 0 else 1
          let c := d.cas.formCode
          let d := { d with cas := { d.cas with cal := none, calForm := false, recalAt := d.time, markAt := d.time } }
          let d := (d.setFld F.CAS_STAT_TIME_OK 1).setFld (F.CAS_D_STAT_TIME_OK 0) 1
          (d.setFld (F.CAS_D_STAT_STATE 0) 2).casEnd o a c none
    else if d.casRole ∈ [caMember, caStandby] then
      let d := (d.wr Reg.CAS_FWD (wrap 32 fwd)).showTheta theta
      if d.cas.calForm then
        Device.setFld { d with time := d.time - BitVec.ofInt 64 theta, cas := { d.cas with calForm := false } } F.CAS_STAT_TIME_OK 1
      else if 65536 ≤ theta.natAbs then d.timeFault
      else (d.slewBy theta).setFld F.CAS_STAT_TIME_OK 1
    else d)

/-- The master repeats calibration every CAS_RECAL seconds (R552). -/
def execRecalTimer (s : State) : Host.Outcome State Fault Refusal :=
  s.run (fun d =>
    let n := d.fld ⟨Reg.CAS_RECAL, ⟨0, 16⟩⟩
    if d.isMaster ∧ n ≠ 0 ∧ !d.casBusy ∧ timeLE (d.cas.recalAt + nsTime (n * 10 ^ 9)) d.time then d.calStart .device else d)

/-- The master announces and drives a mark every CAS_MARK_PERIOD (R553). -/
def execMarkTimer (s : State) : Host.Outcome State Fault Refusal :=
  s.run (fun d =>
    let p := d.fld ⟨Reg.CAS_MARK_PERIOD, ⟨0, 20⟩⟩
    if d.isMaster ∧ d.isSet F.CAS_STAT_TIME_OK ∧ d.cas.cal.isNone ∧ timeLE (d.cas.markAt + nsTime (p * 1000)) d.time then
      let t := d.casLead
      let d := { d with cas := { d.cas with markAt := d.time } }
      (d.casSendAll 5 d.casOthers [t.toNat, 0]).send (.mark t)
    else d)

/-- A slewing device adds or removes one unit of 2^-16 ns every 64 TCLK cycles (R553). -/
def execSlewStep (s : State) : Host.Outcome State Fault Refusal :=
  s.run (fun d =>
    if d.isSet F.CAS_STAT_SLEWING ∧ 64 ≤ d.cas.slewTick then
      let up := decide (d.cas.slew < 0)
      let r := if up then d.cas.slew + 1 else d.cas.slew - 1
      let d := { d with time := if up then d.time + 1 else d.time - 1, cas := { d.cas with slew := r, slewTick := 0 } }
      if r = 0 then d.setFld F.CAS_STAT_SLEWING 0 else d
    else d)

/-- JOIN_WAIT after the master's own part: the oldest composite of a join leaves without its missing parts (R557). -/
def execJoinWaitTimeout (j : Nat) (s : State) : Host.Outcome State Fault Refusal :=
  s.run (fun d =>
    let w := nsTime (d.rdN (Reg.CAS_J_WAIT j))
    match d.cas.comps.find? (fun c => decide (c.join = j) && (match c.own with | none => false | some t => timeLE (t + w) d.time)) with
    | none => d
    | some c => d.compLeave c)

/-! SYNC_IN in a cascade (R551 to R553). -/

/-- The edge of the return clock at or before an instant (R473, R552). DEDUCED (log entry 141): an output that does not already run from the root is run
by the cascade unit, at 1 MHz from the coarse mark. -/
def Device.retEdge (d : Device) (t : Time) : Time :=
  let o := d.fld F.CAS_CFG_RET_CKO
  let own := d.isSet (F.CKO_STAT_RUNNING o) && !d.isSet (F.CKO_CFG_SRC o)
  let p : ℚ := (if own then (bitsOf (d.rdN (Reg.CKO_DIV o)) 0 13 : ℚ) else ((d.fRoot * 1000 + 1 / 2).floor : ℚ)) / d.fRoot * 65536
  let s : ℚ := if own then d.ckoEdge o 0
    else (d.cas.retAt.toNat : ℚ) + 65536 * ((bitsOf (d.rdN (Reg.CKO_DELAY o)) 0 10 : ℚ) / 1000)
  let x : ℚ := ((t.toNat : ℚ) - s) / p
  let e := s + ((x.num / x.den).toNat : ℚ) * p
  BitVec.ofInt 64 (roundHalfEven e.num e.den)

/-- A mark announced for an instant has been stamped at `t` (R553): after 64 of them their mean error disciplines the time. -/
def Device.markSeen (d : Device) (t mark : Time) : Device :=
  let e := (t - mark).toInt - (d.rdN Reg.CAS_FWD : Int)
  let l := (d.cas.errs ++ [e]).drop (d.cas.errs.length - 63)
  let d := { d with cas := { d.cas with errs := l } }
  if l.length < 64 then d
  else
    let theta := roundHalfEven l.sum 64
    (d.showTheta theta).slewBy theta

/-- A mark of a calibration: its stamp and the return clock's edge go to the master (R552). -/
def Device.casCalMark (d : Device) (t : Time) : Device :=
  Device.casSend { d with cas := { d.cas with calNo := (d.cas.calNo + 1) % 4096 } } 11 0
    [d.cas.calNo, t.toNat, (d.retEdge t).toNat] []

/-- The coarse mark (R551): its edge gets the time that TIME named. -/
def Device.coarseMark (d : Device) (t tm : Time) (e : Nat) : Device :=
  Device.wr { d with time := d.time + (tm - t), cas := { d.cas with
    coarse := none, calForm := true, calNo := 0, errs := [], marks := [], resets := [], retAt := tm } } Reg.EVT_EPOCH e

/-- Whether an edge stamped at `t` may be the mark announced for `m`: it comes no more than 1,024 ns before it. -/
def markBy (t m : Time) : Bool := timeLE (m - nsTime 1024) t

/-- A SYNC_IN edge of a device in a cascade: the coarse mark; the mark of a reset, which its announcement has made due; the latest announced mark it may
be; or a mark of a calibration. -/
def Device.casEdge (d : Device) (t : Time) : Device :=
  match d.cas.coarse with
  | some (tm, e) => d.coarseMark t tm e
  | none =>
    match d.cas.resets.find? (fun m => markBy t m && timeLE t (m + nsTime 1024)), (d.cas.marks.filter (markBy t)).getLast? with
    | some r, _ => { d with cas := { d.cas with resets := d.cas.resets.erase r } }
    | none, some m =>
      let d := { d with cas := { d.cas with marks := d.cas.marks.filter (fun x => !markBy t x) } }
      if d.cas.deaf then d else d.markSeen t m
    | none, none => d.casCalMark t

/-- A rising edge on SYNC_IN (R134, R551): with SYNC_EN a decimator reset to come, in a cascade a mark. -/
def execSyncInEdge (t : Time) (s : State) : Host.Outcome State Fault Refusal :=
  s.run (fun d =>
    if d.isSet F.CHN_SYNC_CFG_SYNC_EN then d.syncAt t
    else if d.casRole ∈ [caMember, caStandby] then d.casEdge t
    else d)

/-! Links (R542). -/

/-- The check of a link's RUN (R542). -/
def Device.linkCode (d : Device) (l : Nat) : Nat :=
  let tx := onesBelow (d.rdN (Reg.CAS_L_TX l)) 24
  let rx := onesBelow (d.rdN (Reg.CAS_L_RX l)) 32
  firstCode [
    (tx.any (fun i => d.txTaken 8 i) || rx.any (fun i => d.rxTaken 8 i), cBUSY),
    (decide (tx.length < 2) || decide (rx.length < 2) ||
      !decide ((tx.map (fun i => d.fld (F.LNK_TG_CFG_RATE (i / 4)))).dedup.length = 1) ||
      !decide ((rx.map (fun i => d.fld (F.LNK_G_CFG_RATE (i / 4)))).dedup.length = 1) ||
      rx.any (fun i => d.isSet (F.LNK_G_CFG_FRAMING (i / 4))), cUNSUP)]

/-- A write to CAS_L_CFG that sets RUN (R542, R543). -/
def execCasLinkRun (l peer : Nat) (s : State) : Host.Outcome State Fault Refusal :=
  s.run (fun d =>
    if 6 ≤ l then d
    else if d.isSet (F.CAS_L_CFG_RUN l) then d.setFld (F.CAS_L_CFG_PEER l) peer
    else
      let c := d.linkCode l
      let d := (d.setFld (F.CAS_L_CFG_PEER l) peer).setFld (F.CAS_L_STAT_CODE l) c
      if c = cOK then (d.setCasLink l {}).setFld (F.CAS_L_CFG_RUN l) 1 else d)

end Sys2Proof.Machine
end

