-- ==== Sys2Proof/Machine/Dma.lean ====
section
/-! DEFINITION. The host interface and DMA (chapter "Host interface and DMA"): regions (R431, R432), descriptors and
their checks (R433, R434), the operations (R435 to R438), channels and doorbells (R439 to R444), the link, its errors and the function's
power states and configuration space (R422, R424, R447, R448). -/

namespace Sys2Proof.Machine

def Device.dma (d : Device) (c : Nat) : Option DmaJob := Sparse.get (fun _ => none) d.dmas c
def Device.setDma (d : Device) (c : Nat) (x : Option DmaJob) : Device :=
  { d with dmas := Sparse.set (fun _ => none) d.dmas c x }

/-! Regions. -/

def Device.rgnValid (d : Device) (r : Nat) : Bool := d.isSet (F.DMA_R_CFG_VALID r)

/-- The registers of an entry: DMA_R_CFG, DBASE, SIZE and TBASE. -/
def Device.rgnRegs (d : Device) (r : Nat) : List Nat :=
  [d.rdN (Reg.DMA_R_CFG r), d.rd64 (Reg.DMA_R_DBASE_LO r), d.rd64 (Reg.DMA_R_SIZE_LO r), d.rd64 (Reg.DMA_R_TBASE_LO r)]

/-- The region that SET installed (R432): a later write of its registers does not change it. -/
def Device.rgnSet (d : Device) (r : Nat) : List Nat := Sparse.get (fun _ => []) d.regions r

def rgCfg (g : List Nat) (lo w : Nat) : Nat := bitsOf (g.getD 0 0) lo w
def rgBase (g : List Nat) : Nat := g.getD 1 0
def rgSize (g : List Nat) : Nat := g.getD 2 0
def rgTgt (g : List Nat) : Nat := g.getD 3 0

def Device.rgnBase (d : Device) (r : Nat) : Nat := rgBase (d.rgnSet r)
def Device.rgnSize (d : Device) (r : Nat) : Nat := rgSize (d.rgnSet r)
def Device.rgnTgt (d : Device) (r : Nat) : Nat := rgTgt (d.rgnSet r)
def Device.rgnKind (d : Device) (r : Nat) : Nat := rgCfg (d.rgnSet r) 1 2

/-- The region that holds a DMA address (R431). -/
def Device.rgnOf (d : Device) (a : Nat) : Option Nat :=
  (List.range 256).find? (fun r => d.rgnValid r && decide (d.rgnBase r ≤ a) && decide (a < d.rgnBase r + d.rgnSize r))

/-- What a DMA address maps to (R431). -/
def Device.rgnMap (d : Device) (a : Nat) : DTgt :=
  match d.rgnOf a with
  | none => .unmapped
  | some r =>
    let t := d.rgnTgt r + (a - d.rgnBase r)
    if d.rgnKind r = 0 then .dev t else if d.rgnKind r = 1 then .host t else .queue (rgCfg (d.rgnSet r) 16 12)

/-- Whether `n` bytes from `a` run past the region that holds `a`. -/
def Device.rgnPast (d : Device) (a n : Nat) : Bool :=
  match d.rgnOf a with
  | none => false
  | some r => decide (d.rgnBase r + d.rgnSize r < a + n)

/-- Whether the region of `a` gives a right. -/
def Device.rgnRight (d : Device) (a : Nat) (write : Bool) : Bool :=
  match d.rgnOf a with
  | none => false
  | some r => decide (rgCfg (d.rgnSet r) (if write then 4 else 3) 1 = 1)

/-! Descriptor fields (R433). -/

def dsCtl (b : List Byte) (lo w : Nat) : Nat := dw b 0 lo w

/-- Eight bytes of a descriptor: DMA addresses are 64 bits wide (R431, R433). -/
def dl (b : List Byte) (off : Nat) : Nat := ofBytesLE ((b.drop off).take 8)

def dsOp (b : List Byte) : Nat := dsCtl b 0 4
def dsSrcFix (b : List Byte) : Bool := decide (dsCtl b 4 1 = 1)
def dsDstFix (b : List Byte) : Bool := decide (dsCtl b 5 1 = 1)
def dsWidth (b : List Byte) : Nat := 2 ^ dsCtl b 6 2
def dsLen (b : List Byte) : Nat := dw b 4 0 32
def dsSrc (b : List Byte) : Nat := dl b 8
def dsDst (b : List Byte) : Nat := dl b 0x10
def dsPlen (b : List Byte) : Nat := dw b 0x20 0 4
def dsTag (b : List Byte) : Nat := dw b 0x24 0 32

/-- The reserved parts of a descriptor that are not zero. -/
def dsReserved (b : List Byte) : Bool :=
  decide (dw b 0 13 19 ≠ 0) || decide (dw b 0x20 4 28 ≠ 0) || decide (dl b 0x28 ≠ 0) ||
    (decide (dsOp b = 2) && decide (dsSrc b ≠ 0)) || (decide (dsOp b ≠ 2) && (decide (dl b 0x18 ≠ 0) || decide (dsPlen b ≠ 0)))

/-- The byte range that a side covers. -/
def sideLen (fix : Bool) (b : List Byte) : Nat := if fix then dsWidth b else dsLen b

/-- Whether two sides map to the same target and share a byte (R434). -/
def sharesByte (x y : DTgt) (n m : Nat) : Bool :=
  match x, y with
  | .dev a, .dev c => decide (a < c + m) && decide (c < a + n)
  | .host a, .host c => decide (a < c + m) && decide (c < a + n)
  | _, _ => false

/-- Whether a target is a queue. -/
def DTgt.isQueue : DTgt → Bool
  | .queue _ => true
  | _ => false

/-- Whether a target is host memory. -/
def DTgt.isHost : DTgt → Bool
  | .host _ => true
  | _ => false

/-- Whether the queue of a source cannot be read (R434). -/
def Device.queueClosed (d : Device) (t : DTgt) : Bool :=
  match t with
  | .queue q => !d.qOn q || !d.isSet (F.QUE_Q_CFG_HOST q) || d.zReads q
  | _ => false

/-- The check of a descriptor (R434). -/
def Device.dsCode (d : Device) (b : List Byte) : Nat :=
  let op := dsOp b
  let hasSrc := decide (op ≠ 2)
  let src := d.rgnMap (dsSrc b)
  let dst := d.rgnMap (dsDst b)
  let fixed := (hasSrc && dsSrcFix b) || dsDstFix b
  firstCode [
    (decide (dsLen b = 0) || (hasSrc && d.rgnPast (dsSrc b) (sideLen (dsSrcFix b) b)) ||
      d.rgnPast (dsDst b) (sideLen (dsDstFix b) b) || (fixed && decide (dsLen b % dsWidth b ≠ 0)) ||
      (decide (op = 2) && decide (dsPlen b = 0)), cLENGTH),
    ((decide (op = 1) || decide (op = 3)) && sharesByte src dst (sideLen (dsSrcFix b) b) (sideLen (dsDstFix b) b), cOVERLAP),
    ((hasSrc && dsSrcFix b && decide (dsSrc b % dsWidth b ≠ 0)) || (dsDstFix b && decide (dsDst b % dsWidth b ≠ 0)), cALIGN),
    ((hasSrc && !d.rgnRight (dsSrc b) false) || !d.rgnRight (dsDst b) (decide (op ≠ 3)) || dst.isQueue ||
      (hasSrc && src.isQueue && (dsSrcFix b || decide (op ≠ 1))), cREGION),
    (hasSrc && d.queueClosed src, cNOTARMED),
    (decide (op = 0 ∨ 3 < op) || dsReserved b || decide (8 < dsPlen b), cUNSUP)]

/-! Moving data. -/

/-- A write to host memory. -/
def Device.toHost (d : Device) (a : Nat) (bs : List Byte) (ro ns ep : Bool) : Device :=
  (d.send (.hostWrite a bs ro ns ep)).add64 Reg.HIF_TX_BYTES_LO bs.length

/-- The largest write that starts at `a` (R436): aligned to 64 bytes after the head, at most the payload size, and within its
4 KiB page. -/
def tlpSize (mps a left : Nat) : Nat :=
  let lim := min mps (4096 - a % 4096)
  if left ≤ lim then left else lim - (a + lim) % 64

/-- Data writes to host memory, cut into requests (R436); `ep o n` says whether bytes `o` to `o + n - 1` are poisoned (R438). -/
def Device.hostData (d : Device) (ro ns : Bool) (ep : Nat → Nat → Bool) : Nat → Nat → Nat → List Byte → Device
  | 0, _, _, _ => d
  | fuel + 1, o, a, bs =>
    if bs.isEmpty then d
    else
      let n := tlpSize (128 * 2 ^ d.cfgOf 3) a bs.length
      Device.hostData (d.toHost a (bs.take n) ro ns (ep o (min n bs.length))) ro ns ep fuel (o + n) (a + n) (bs.drop n)

/-- Successive accesses of a fixed side (R435, R436). -/
def Device.fixedData (d : Device) (t : DTgt) (w : Nat) (ro ns : Bool) (ep : Nat → Nat → Bool) : Nat → Nat → List Byte → Device
  | 0, _, _ => d
  | fuel + 1, o, bs =>
    if bs.isEmpty then d
    else
      let d := match t with
        | .dev a =>
          let d := (d.store a (bs.take w)).moved 4
          if ep o w then d.poisonAdd (a / 32) else d
        | .host a => d.toHost a (bs.take w) ro ns (ep o w)
        | _ => d
      Device.fixedData d t w ro ns ep fuel (o + w) (bs.drop w)

/-- Whether data writes carry Relaxed Ordering (R429). -/
def Device.relaxed (d : Device) : Bool := d.isSet F.HIF_CFG_RO_EN && decide (d.cfgOf 2 = 1)

/-- Write the destination bytes from offset `off` of a descriptor (R435, R436); `ep o n` says whether bytes `o` to `o + n - 1` of them are
poisoned: their codewords in device memory enter the poison table (R438). -/
def Device.dsPut (d : Device) (j : DmaJob) (off : Nat) (bs : List Byte) (ep : Nat → Nat → Bool) : Device :=
  let ns := decide (dsCtl j.desc 9 1 = 1)
  if dsDstFix j.desc then d.fixedData j.dst (dsWidth j.desc) d.relaxed ns ep bs.length 0 bs
  else
    match j.dst with
    | .dev a =>
      let s := a + off
      let e := s + bs.length
      let d := (if j.poison then d.store s bs else d.storeFrom a s bs).moved 4
      (List.range ((e + 31) / 32 - s / 32)).foldl (fun d i =>
        let w := s / 32 + i
        let lo := max s (32 * w)
        if ep (lo - s) (min e (32 * w + 32) - lo) then d.poisonAdd w else d) d
    | .host a => d.hostData d.relaxed ns ep bs.length 0 (a + off) bs
    | _ => d

/-- The byte at offset `i` of a device-memory side. -/
def sideAt (fix : Bool) (w a i : Nat) : Nat := if fix then a + i % w else a + i

/-- Bytes `off` to `off + n - 1` of a side in device memory. -/
def Device.sideBytes (d : Device) (fix : Bool) (w a off n : Nat) : List Byte :=
  (List.range n).map (fun i => memGet d.mem (sideAt fix w a (off + i)))

/-- A FILL's destination bytes from offset `off` (R435). -/
def fillBytes (b : List Byte) (off n : Nat) : List Byte :=
  (List.range n).map (fun i => b.getD (0x18 + (off + i) % max 1 (dsPlen b)) 0)

/-- Move the bytes of a COPY or FILL, as far as `upto`, whose source needs nothing from the host (R435, R438). -/
def Device.dsMove (d : Device) (c : Nat) (j : DmaJob) (upto : Nat) : DmaJob × Device :=
  let n := min upto (dsLen j.desc) - j.wrote
  if dsOp j.desc = 2 then
    ({ j with wrote := j.wrote + n }, (d.dsPut j j.wrote (fillBytes j.desc j.wrote n) (fun _ _ => false)).add64 (Reg.DMA_C_BYTES_LO c) n)
  else
    match j.src with
    | .dev a =>
      let fix := dsSrcFix j.desc
      let w := dsWidth j.desc
      let ep (o k : Nat) : Bool := if fix then d.poisoned a w else d.poisoned (a + j.wrote + o) k
      ({ j with wrote := j.wrote + n, poison := j.poison || (decide (0 < n) && ep 0 n) },
        ((d.dsPut j j.wrote (d.sideBytes fix w a j.wrote n) ep).moved 4).add64 (Reg.DMA_C_BYTES_LO c) n)
    | _ => (j, d)

/-- Take whole records of a queue while the next one fits (R437): the destination bytes written, and whether it stopped
short. -/
def Device.dsRecords (d : Device) (c q : Nat) (j : DmaJob) : Nat → DmaJob × Bool × Device
  | 0 => (j, false, d)
  | fuel + 1 =>
    let left := dsLen j.desc - j.wrote
    if left = 0 then (j, false, d)
    else
      match (d.queue q).next with
      | none => (j, true, d)
      | some r =>
        if left < 64 * r.slots then (j, true, d)
        else
          let bs := d.qCopy q r
          let d := (((d.dsPut j j.wrote bs (fun _ _ => false)).qRefills q r.span).qAdvance q).add64 (Reg.DMA_C_BYTES_LO c) bs.length
          Device.dsRecords d c q { j with wrote := j.wrote + bs.length } fuel

/-- The data of a side of a COMPARE. -/
def Device.cmpSide (d : Device) (t : DTgt) (got : List Byte) (fix : Bool) (b : List Byte) : List Byte :=
  match t with
  | .dev a => d.sideBytes fix (dsWidth b) a 0 (dsLen b)
  | _ => got

/-- The offset of the first difference (R435). -/
def firstDiff : List Byte → List Byte → Option Nat
  | x :: xs, y :: ys => if x = y then (firstDiff xs ys).map (· + 1) else some 0
  | _, _ => none

/-- The address of ring entry `n` of a channel (R439). -/
def Device.ringAt (d : Device) (c n : Nat) : Nat :=
  d.rd64 (Reg.DMA_C_RING_LO c) + 64 * (n % max 1 (bitsOf (d.rdN (Reg.DMA_C_RING_SIZE c)) 0 17))

/-- HEAD and TAIL of a channel. -/
def Device.dmaHead (d : Device) (c : Nat) : Nat := d.fld ⟨Reg.DMA_C_HEAD c, ⟨0, 16⟩⟩
def Device.dmaTail (d : Device) (c : Nat) : Nat := d.fld ⟨Reg.DMA_C_TAIL c, ⟨0, 16⟩⟩

/-- Whether a channel is enabled. -/
def Device.dmaOn (d : Device) (c : Nat) : Bool := d.isSet (F.DMA_C_CFG_EN c)

/-- What a COMPARE finds (R435): the offset of the first difference, or none. -/
def Device.dsCompare (d : Device) (j : DmaJob) : Option Nat :=
  firstDiff (d.cmpSide j.src j.gotS (dsSrcFix j.desc) j.desc) (d.cmpSide j.dst j.gotD (dsDstFix j.desc) j.desc)

/-- Whether all data that the host must supply has arrived: for a COMPARE, as far as the first difference, and every byte asked for. -/
def Device.supplied (d : Device) (j : DmaJob) : Bool :=
  let n := dsLen j.desc
  if j.code ≠ cOK ∨ j.hostErr then true
  else if dsOp j.desc = 1 then !j.src.isHost || decide (j.wrote = n)
  else if dsOp j.desc = 3 then
    decide (j.askS ≤ j.gotS.length) && decide (j.askD ≤ j.gotD.length) &&
      ((d.dsCompare j).isSome || ((!j.src.isHost || decide (n ≤ j.gotS.length)) && (!j.dst.isHost || decide (n ≤ j.gotD.length))))
  else true

/-- Whether a COMPARE read poisoned data in device memory (R438), which it reads as far as the first difference. -/
def Device.cmpPoison (d : Device) (j : DmaJob) : Bool :=
  let n := match d.dsCompare j with | some k => k + 1 | none => dsLen j.desc
  let side := fun (t : DTgt) fix => match t with
    | .dev a => d.poisoned a (if fix then min n (dsWidth j.desc) else n)
    | _ => false
  side j.src (dsSrcFix j.desc) || side j.dst (dsDstFix j.desc)

/-- The write-back of a descriptor (R428, R433), never with Relaxed Ordering (R429). -/
def Device.writeBack (d : Device) (c : Nat) (j : DmaJob) (code : Nat) (mism qshort : Bool) (result : Nat) : Device :=
  let fl := 1 + (if mism then 2 else 0) + (if j.poison then 4 else 0) + (if j.hostErr then 8 else 0) + (if qshort then 16 else 0)
  let bs := bytesLE 1 code ++ bytesLE 1 fl ++ bytesLE 2 0 ++ bytesLE 4 (dsTag j.desc) ++ bytesLE 8 result
  match d.rgnMap (d.ringAt c (d.dmaHead c)) with
  | .dev a => (d.store (a + 0x30) bs).moved 4
  | .host a => d.toHost (a + 0x30) bs false false false
  | _ => d

/-- A descriptor completes (R428, R441): the rest of its data, its write-back, its vector, and HEAD. -/
def Device.dsFinish (d : Device) (c : Nat) (j : DmaJob) : Device :=
  let good := decide (j.code = cOK) && !j.hostErr
  let op := dsOp j.desc
  let r : DmaJob × Bool × Option Nat × Device :=
    if !good then (j, false, none, d)
    else
      match op, j.src with
      | 3, _ => ({ j with poison := j.poison || d.cmpPoison j }, false, d.dsCompare j, if j.src.isHost && j.dst.isHost then d else d.moved 4)
      | 1, .queue q =>
        let x := d.dsRecords c q j (dsLen j.desc)
        (x.1, x.2.1, none, if dsCtl j.desc 12 1 = 1 then x.2.2.qRelease q else x.2.2)
      | _, _ =>
        let x := d.dsMove c j (dsLen j.desc)
        (x.1, false, none, x.2)
  let j := r.1
  let d := r.2.2.2
  let code := if j.hostErr then cREGION else j.code
  let result := if j.code ≠ cOK then 0 else if op = 3 ∧ !j.hostErr then r.2.2.1.getD (dsLen j.desc) else j.wrote
  let d := d.writeBack c j code r.2.2.1.isSome r.2.1 result
  let d := if dsCtl j.desc 10 1 = 1 ∧ d.isSet (F.DMA_C_CFG_VEC_EN c) then d.msix (d.fld (F.DMA_C_CFG_VEC c)) else d
  let d := if j.poison then d.flag F.DMA_FLAGS_POISON Reg.DMA_POISON_CNT else d
  let d := (((d.setDma c none).wr (Reg.DMA_C_HEAD c) ((d.dmaHead c + 1) % 65536)).inc (Reg.DMA_C_DESC_CNT c))
  if code = cOK then d.setFld (F.DMA_C_STAT_STATE c) (if d.dmaHead c = d.dmaTail c then 1 else 2)
  else ((d.setFld (F.DMA_C_STAT_STATE c) 3).setFld (F.DMA_C_STAT_CODE c) code).flag F.DMA_FLAGS_ERROR Reg.DMA_ERR_CNT

/-- Whether DMA may use the link (R424, R448). -/
def Device.linkOpen (d : Device) : Bool := d.canIssue && !d.linkDown

/-! Reads of host memory: requests of at most the Max Read Request Size, at most 256 outstanding for a channel and 1,024 for all (R422, R443). -/

/-- The Max Read Request Size that the host has programmed. -/
def Device.mrrs (d : Device) : Nat := min 4096 (128 * 2 ^ d.cfgOf 4)

/-- The bytes of the request that starts at offset `off` of a side: a fixed side asks for one access at a time. -/
def askSize (fix : Bool) (w a off n m : Nat) : Nat := if fix then w else min (n - off) (m - (a + off) % m)

/-- The requests of a side that are outstanding: `asked` bytes were asked for, and `got` have arrived. -/
def sideOut (fix : Bool) (w a asked got m : Nat) : Nat :=
  if asked ≤ got then 0
  else if fix then asked / w - got / w
  else (a + asked - 1) / m + 1 - (a + got) / m

/-- The requests of a channel that are outstanding. -/
def Device.dmaOut (d : Device) (c : Nat) : Nat :=
  match d.dma c with
  | none => 0
  | some j =>
    let w := dsWidth j.desc
    let side (t : DTgt) (fix : Bool) (asked got : Nat) : Nat :=
      match t with
      | .host a => sideOut fix w a asked got d.mrrs
      | _ => 0
    if j.fetching then 1
    else side j.src (dsSrcFix j.desc) j.askS (if dsOp j.desc = 3 then j.gotS.length else j.wrote) +
      (if dsOp j.desc = 3 then side j.dst (dsDstFix j.desc) j.askD j.gotD.length else 0)

/-- The requests of all channels that are outstanding. -/
def Device.dmaOutAll (d : Device) : Nat := ((List.range 64).map d.dmaOut).sum

/-- The next request that a channel may issue: for the side asked less far. -/
def Device.dsAskOne (d : Device) (c : Nat) (j : DmaJob) : Option Device :=
  let n := dsLen j.desc
  let w := dsWidth j.desc
  let wantS := j.src.isHost && decide (j.askS < n)
  let wantD := decide (dsOp j.desc = 3) && j.dst.isHost && decide (j.askD < n)
  if wantS && (!wantD || decide (j.askS ≤ j.askD)) then
    match j.src with
    | .host a =>
      let k := askSize (dsSrcFix j.desc) w a j.askS n d.mrrs
      some ((d.setDma c (some { j with askS := j.askS + k })).send
        (.hostReadReq (if dsSrcFix j.desc then a else a + j.askS) k (decide (dsCtl j.desc 8 1 = 1))))
    | _ => none
  else if wantD then
    match j.dst with
    | .host a =>
      let k := askSize (dsDstFix j.desc) w a j.askD n d.mrrs
      some ((d.setDma c (some { j with askD := j.askD + k })).send
        (.hostReadReq (if dsDstFix j.desc then a else a + j.askD) k (decide (dsCtl j.desc 9 1 = 1))))
    | _ => none
  else none

/-- Issue the host reads of a descriptor as far as the limits allow (R424, R443); a COMPARE stops at the first difference (R435). -/
def Device.dsAsk (c : Nat) : Nat → Device → Device
  | 0, d => d
  | fuel + 1, d =>
    match d.dma c with
    | none => d
    | some j =>
      if j.fetching ∨ j.code ≠ cOK ∨ j.hostErr ∨ !d.linkOpen ∨ 256 ≤ d.dmaOut c ∨ 1024 ≤ d.dmaOutAll ∨
          (dsOp j.desc = 3 ∧ (d.dsCompare j).isSome) then d
      else
        match d.dsAskOne c j with
        | none => d
        | some d => Device.dsAsk c fuel d

/-- The channels go on issuing their reads: the link has come back, or requests have been answered. -/
def Device.dmaGo (d : Device) : Device := (List.range 64).foldl (fun d c => Device.dsAsk c 256 d) d

/-- A descriptor has been fetched: it is checked, and its host reads are issued (R434, R435). -/
def Device.dsStart (d : Device) (c : Nat) (b : List Byte) (poison : Bool) : Device :=
  let code := d.dsCode b
  let src := if dsOp b = 2 then .unmapped else d.rgnMap (dsSrc b)
  let j : DmaJob := { desc := b, src := src, dst := d.rgnMap (dsDst b), code := code, poison := poison }
  Device.dsAsk c 256 ((d.setDma c (some j)).setFld (F.DMA_C_STAT_STATE c) 2)

/-- Whether a channel can fetch now: enabled, not halted, a pending descriptor (R427), and none in progress. -/
def Device.dmaReady (d : Device) (c : Nat) : Bool :=
  d.dmaOn c && decide (d.fld (F.DMA_C_STAT_STATE c) ≠ 3) && decide (d.dmaHead c ≠ d.dmaTail c) && (d.dma c).isNone

/-- Whether a channel can fetch its next descriptor now, from device memory or over the link. -/
def Device.dmaServes (d : Device) (c : Nat) : Bool :=
  d.dmaReady c && (match d.rgnMap (d.ringAt c (d.dmaHead c)) with
    | .dev _ => true
    | .host _ => d.linkOpen && decide (d.dmaOutAll < 1024)
    | _ => false)

/-- Whether a channel of higher priority is served first (R443). -/
def Device.dmaOutranked (d : Device) (c : Nat) : Bool :=
  (List.range 64).any (fun x => d.dmaServes x && decide (d.fld (F.DMA_C_CFG_PRI c) < d.fld (F.DMA_C_CFG_PRI x)))

def execDescriptorFetch (c : Nat) (s : State) : Host.Outcome State Fault Refusal :=
  s.run (fun d =>
    if !d.dmaServes c || d.dmaOutranked c then d
    else
      match d.rgnMap (d.ringAt c (d.dmaHead c)) with
      | .dev a => (d.moved 4).dsStart c (memBytes d.mem a 64) false
      | .host a => ((d.setDma c (some { fetching := true })).setFld (F.DMA_C_STAT_STATE c) 2).send (.hostReadReq a 64 false)
      | _ => d)

/-- Whether the end of a descriptor needs the link: data or a write-back for the host (R424, R448). -/
def Device.dsNeedsLink (d : Device) (c : Nat) (j : DmaJob) : Bool :=
  (decide (j.code = cOK) && decide (dsOp j.desc ≠ 3) && j.dst.isHost) ||
    (match d.rgnMap (d.ringAt c (d.dmaHead c)) with | .host _ => true | _ => false)

def execDescriptorComplete (c : Nat) (s : State) : Host.Outcome State Fault Refusal :=
  s.run (fun d =>
    match d.dma c with
    | none => d
    | some j =>
      if !j.fetching && d.supplied j && (d.linkOpen || !d.dsNeedsLink c j) then (d.dsFinish c j).dmaGo else Device.dsAsk c 256 d)

/-- A host read of a channel fails (R438): the descriptor will complete with REGION and HOST_ERR. -/
def Device.hostFail (d : Device) (c : Nat) : Device :=
  match d.dma c with
  | none => d
  | some j => d.setDma c (some { j with fetching := false, hostErr := true })

/-- Data of a host read arrives: status 0 good, 1 poisoned, otherwise in error (R438). -/
def Device.hostData' (d : Device) (c : Nat) (dstSide : Bool) (status : Nat) (data : List Byte) : Device :=
  match d.dma c with
  | none => d
  | some j =>
    if j.hostErr then d
    else if 2 ≤ status then d.hostFail c
    else if j.fetching then d.dsStart c (padTo (data.take 64) 64) (decide (status = 1))
    else
      let n := dsLen j.desc
      let p := j.poison || decide (status = 1)
      if dsOp j.desc = 3 then
        if dstSide then d.setDma c (some { j with gotD := (j.gotD ++ data).take n, poison := p })
        else d.setDma c (some { j with gotS := (j.gotS ++ data).take n, poison := p })
      else if j.src.isHost && !dstSide then
        let bs := data.take (n - j.wrote)
        ((d.dsPut j j.wrote bs (fun _ _ => decide (status = 1))).add64 (Reg.DMA_C_BYTES_LO c) bs.length).setDma c
          (some { j with wrote := j.wrote + bs.length, poison := p })
      else d

def execHostReadCompletion (c : Nat) (dstSide : Bool) (status : Nat) (data : List Byte) (s : State) :
    Host.Outcome State Fault Refusal :=
  s.run (fun d =>
    (((d.timed Reg.HIF_RD_LAT).add64 Reg.HIF_RX_BYTES_LO data.length).hostData' c dstSide status data).dmaGo)

def execCompletionTimeout (c : Nat) (s : State) : Host.Outcome State Fault Refusal :=
  s.run (fun d =>
    if (d.dma c).isSome then
      ((d.flag F.HIF_FLAGS_CPL_TIMEOUT Reg.HIF_CPL_TIMEOUT_CNT).send (.pcie 3)).hostFail c
    else d)

/-! Regions. -/

/-- Whether a descriptor in progress, or an enabled channel's ring, lies in a region (R432). -/
def Device.rgnUsed (d : Device) (r : Nat) : Bool :=
  let lo := d.rgnBase r
  let hi := lo + d.rgnSize r
  let meets := fun a n => decide (a < hi) && decide (lo < a + n)
  d.rgnValid r && (List.range 64).any (fun c =>
    (d.dmaOn c && meets (d.rd64 (Reg.DMA_C_RING_LO c)) (64 * bitsOf (d.rdN (Reg.DMA_C_RING_SIZE c)) 0 17)) ||
      (match d.dma c with
        | some j => !j.fetching && ((decide (dsOp j.desc ≠ 2) && meets (dsSrc j.desc) (sideLen (dsSrcFix j.desc) j.desc)) ||
            meets (dsDst j.desc) (sideLen (dsDstFix j.desc) j.desc))
        | none => false))

/-- The check of SET (R432). -/
def Device.rgnCode (d : Device) (r : Nat) : Nat :=
  let g := d.rgnRegs r
  let lo := rgBase g
  let n := rgSize g
  let k := rgCfg g 1 2
  firstCode [
    (decide (n = 0) || (decide (k = 0) && pastEnd (rgTgt g) n) || decide (2 ^ 64 < lo + n), cLENGTH),
    ((List.range 256).any (fun i => decide (i ≠ r) && d.rgnValid i && decide (d.rgnBase i < lo + n) &&
      decide (lo < d.rgnBase i + d.rgnSize i)), cOVERLAP),
    (decide (lo % 4096 ≠ 0 ∨ n % 4096 ≠ 0 ∨ rgTgt g % 4096 ≠ 0), cALIGN),
    (decide (k = 0) && aboveEnd (rgTgt g), cREGION),
    (d.rgnUsed r, cBUSY),
    (decide (k = 3) || (decide (k = 2) && decide (rgCfg g 4 1 = 1)) ||
      (decide (rgCfg g 3 1 = 0) && decide (rgCfg g 4 1 = 0)), cUNSUP)]

def execDmaRgnCtlSet (r : Nat) (s : State) : Host.Outcome State Fault Refusal :=
  s.run (fun d =>
    let r := r % 256
    let c := d.rgnCode r
    let d := (d.setFld F.DMA_RGN_CTL_INDEX r).setFld F.DMA_RGN_STAT_CODE c
    if c = cOK then
      let d : Device := { d with regions := Sparse.set (fun _ => []) d.regions r (d.rgnRegs r) }
      d.setFld (F.DMA_R_CFG_VALID r) 1
    else d)

def execDmaRgnCtlClear (r : Nat) (s : State) : Host.Outcome State Fault Refusal :=
  s.run (fun d =>
    let r := r % 256
    let c := if d.rgnUsed r then cBUSY else cOK
    let d := (d.setFld F.DMA_RGN_CTL_INDEX r).setFld F.DMA_RGN_STAT_CODE c
    if c = cOK then
      let d : Device := { d with regions := Sparse.set (fun _ => []) d.regions r [] }
      d.setFld (F.DMA_R_CFG_VALID r) 0
    else d)

/-! Channels. -/

/-- Whether `n` is a power of two. -/
def powerOfTwo (n : Nat) : Bool := decide (n = 2 ^ n.log2)

/-- The check of an enable (R439). -/
def Device.dmaCode (d : Device) (c : Nat) : Nat :=
  let ring := d.rd64 (Reg.DMA_C_RING_LO c)
  let n := bitsOf (d.rdN (Reg.DMA_C_RING_SIZE c)) 0 17
  firstCode [
    (decide (n = 0 ∨ 32768 < n) || d.rgnPast ring (64 * n), cLENGTH),
    (decide (ring % 64 ≠ 0), cALIGN),
    (!d.rgnRight ring false || !d.rgnRight ring true || (d.rgnMap ring).isQueue, cREGION),
    (d.dmaOn c, cBUSY),
    (!powerOfTwo n, cUNSUP)]

/-- Enable a channel (R439). -/
def Device.dmaEnable (d : Device) (c : Nat) : Nat × Device :=
  let code := d.dmaCode c
  let d := d.setFld (F.DMA_C_STAT_CODE c) code
  if code ≠ cOK then (code, d)
  else
    (code, ((((((d.setDma c none).setFld (F.DMA_C_CFG_EN c) 1).setFld (F.DMA_C_STAT_STATE c) 1).wr (Reg.DMA_C_HEAD c) 0).wr
      (Reg.DMA_C_TAIL c) 0).wr64 (Reg.DMA_C_BYTES_LO c) 0).wr (Reg.DMA_C_DESC_CNT c) 0)

/-- Drop a channel at once (R442): `moved` bytes of the descriptor in progress have been written; HEAD, BYTES and DESC_CNT are
undefined until the next enable. -/
def Device.dmaDrop (d : Device) (c moved : Nat) : Device :=
  if !d.dmaOn c then d
  else
    let d := match d.dma c with
      | some j => if !j.fetching ∧ j.code = cOK ∧ (dsOp j.desc = 1 ∨ dsOp j.desc = 2) then (d.dsMove c j moved).2 else d
      | none => d
    let d := ((d.setDma c none).setFld (F.DMA_C_CFG_EN c) 0).setFld (F.DMA_C_STAT_STATE c) 0
    let h := d.draw
    let b := h.2.draw
    let n := b.2.draw
    ((n.2.wr (Reg.DMA_C_HEAD c) (h.1 % 65536)).wr64 (Reg.DMA_C_BYTES_LO c) (b.1 % 2 ^ 64)).wr (Reg.DMA_C_DESC_CNT c) n.1

/-- The fields of DMA_C_CFG besides EN. -/
def Device.dmaCfg (d : Device) (c val : Nat) : Device :=
  ((d.setFld (F.DMA_C_CFG_PRI c) (bitsOf val 2 2)).setFld (F.DMA_C_CFG_VEC_EN c) (bitsOf val 4 1)).setFld (F.DMA_C_CFG_VEC c)
    (bitsOf val 16 11)

def execDmaCCfgEnable (c val : Nat) (s : State) : Host.Outcome State Fault Refusal :=
  s.run (fun d => if 64 ≤ c then d else ((d.dmaCfg c val).dmaEnable c).2)

def execDmaCCfgDisable (c val moved : Nat) (s : State) : Host.Outcome State Fault Refusal :=
  s.run (fun d => if 64 ≤ c then d else (d.dmaCfg c val).dmaDrop c moved)

/-- A doorbell (R440): whether it is accepted. -/
def Device.doorbell (d : Device) (c val : Nat) : Bool × Device :=
  let dist := fun t => (t + 65536 - d.dmaHead c) % 65536
  let t := val % 65536
  if dist t ≤ bitsOf (d.rdN (Reg.DMA_C_RING_SIZE c)) 0 17 ∧ dist (d.dmaTail c) ≤ dist t then
    let d := d.wr (Reg.DMA_C_TAIL c) t
    (true, if d.fld (F.DMA_C_STAT_STATE c) = 1 ∧ d.dmaHead c ≠ t then d.setFld (F.DMA_C_STAT_STATE c) 2 else d)
  else (false, (d.inc (Reg.DMA_C_DB_ERR c)).flag F.DMA_FLAGS_DOORBELL_ERR Reg.DMA_DB_ERR_CNT)

def execDmaCTailWrite (c val : Nat) (s : State) : Host.Outcome State Fault Refusal :=
  s.run (fun d => if 64 ≤ c then d else if d.dmaOn c then (d.doorbell c val).2 else d.badAccess)

def execDmaCCtlResume (c : Nat) (s : State) : Host.Outcome State Fault Refusal :=
  s.run (fun d =>
    if c < 64 ∧ d.fld (F.DMA_C_STAT_STATE c) = 3 then
      d.setFld (F.DMA_C_STAT_STATE c) (if d.dmaHead c = d.dmaTail c then 1 else 2)
    else d)

def execDmaEnable (u : UCmd) (s : State) : Host.Outcome State Fault Refusal :=
  s.run (fun d => d.unitCmd 0x0C 1 u fun d =>
    if d.dmaOn u.unit then d.complete u.origin cBUSY none
    else
      let c := u.unit
      let d := (d.dmaCfg c (u.word 0)).wrBlock u
        [(Reg.DMA_C_RING_LO c, 8), (Reg.DMA_C_RING_HI c, 12), (Reg.DMA_C_RING_SIZE c, 16)]
      Device.complete (d.dmaEnable c).2 u.origin (d.dmaEnable c).1 none)

def execDmaDisable (u : UCmd) (moved : Nat) (s : State) : Host.Outcome State Fault Refusal :=
  s.run (fun d => d.unitCmd 0x0C 2 u fun d => (d.dmaDrop u.unit moved).complete u.origin cOK none)

def execDmaDoorbell (u : UCmd) (s : State) : Host.Outcome State Fault Refusal :=
  s.run (fun d => d.unitCmd 0x0C 3 u fun d =>
    if !d.dmaOn u.unit then d.badAccess.complete u.origin cNOTARMED none
    else
      let r := d.doorbell u.unit u.imm
      r.2.complete u.origin (if r.1 then cOK else cLENGTH) none)

/-! The link. -/

def execLinkRetrain (s : State) : Host.Outcome State Fault Refusal :=
  s.run (fun d =>
    if d.linkDown then d
    else Device.flag { d with linkDown := true } F.HIF_FLAGS_RETRAIN Reg.HIF_RETRAIN_CNT)

def execPcieLinkTrained (speed width : Nat) (flit : Bool) (s : State) : Host.Outcome State Fault Refusal :=
  s.run (fun d =>
    if speed = 0 ∨ 6 < speed ∨ width ∉ [1, 4, 8, 16] then d
    else Device.dmaGo <|
    ((((Device.setFld { d with linkDown := false } F.HIF_LINK_STAT_SPEED speed).setFld F.HIF_LINK_STAT_WIDTH width).setFld
      F.HIF_LINK_STAT_FLIT (if flit then 1 else 0)).setFld F.HIF_LINK_STAT_DL_UP 1).setFld F.HIF_LINK_STAT_L1 0)

/-- Whether BAR2 answers (R339, R351): in READY, LOADING and RUNNING. -/
def Device.awake (d : Device) : Bool := decide (d.fld F.SYS_STAT_STATE ∈ [3, 4, 5])

/-- An error of the link (R447), by the row of its table: 0 correctable, 1 a poisoned write to BAR0 or BAR4, which is discarded, 2 a
poisoned write to BAR2, whose codewords enter the poison table, otherwise uncorrectable. A completion timeout is its own row. -/
def execTlpError (kind off : Nat) (data : List Byte) (s : State) : Host.Outcome State Fault Refusal :=
  s.run (fun d =>
    let d := d.send (.pcie kind)
    if kind = 0 then d.flag F.HIF_FLAGS_COR Reg.HIF_COR_CNT
    else if kind = 1 then (d.add64 Reg.HIF_RX_BYTES_LO data.length).flag F.HIF_FLAGS_POISON_RX Reg.HIF_POISON_RX_CNT
    else if kind = 2 then
      let d := (d.add64 Reg.HIF_RX_BYTES_LO data.length).flag F.HIF_FLAGS_POISON_RX Reg.HIF_POISON_RX_CNT
      if !d.awake then d.badAccess
      else
        let inside := min data.length (Config.memSize - off)
        let d := (List.range ((off + inside + 31) / 32 - off / 32)).foldl (fun d i => d.poisonAdd (off / 32 + i))
          ((d.store off (data.take inside)).moved 4)
        if inside = data.length then d else d.badAccess
    else d.flag F.HIF_FLAGS_UNCOR Reg.HIF_UNCOR_CNT)

def execPowerStateChange (d3 : Bool) (s : State) : Host.Outcome State Fault Refusal :=
  s.run (fun d => let d' := { d with d3hot := d3 }; if d3 then d' else d'.msixPending.dmaGo)

def execConfigurationRequest (f val : Nat) (s : State) : Host.Outcome State Fault Refusal :=
  s.run (fun d => if f ≤ 11 then Device.msixPending { d with cfg := Sparse.set cfgReset d.cfg f val } else d)

end Sys2Proof.Machine
end

