-- ==== Sys2Proof/Machine/ControlOps.lean ====
section
/-! DEFINITION. The control instructions of Disoex: branches, calls and block repeats (R308 to R313), UCMD (R315), queue
instructions (R316 to R319), events (R320), far memory at issue (R322, R323), and the system group (R321, R324, R325). -/

namespace Sys2Proof.Machine

/-- The target of a 16-bit signed word offset from the branch (R308). -/
def Engine.target (x : Engine) (off : Nat) : Int := (x.pc : Int) + signed 16 off

def execBr (e cond off : Nat) (s : State) : Host.Outcome State Fault Refusal :=
  s.run (fun d => d.issueCtl e (.br e cond off) 1 [] (fun x => if x.cond cond then .branch (x.target off) else .seq))

def execBbc (e bit off : Nat) (s : State) : Host.Outcome State Fault Refusal :=
  s.run (fun d => d.issueCtl e (.bbc e bit off) 1 [] (fun x =>
    if x.stBit bit then .seq else .branch (x.target off)))

def execBbs (e bit off : Nat) (s : State) : Host.Outcome State Fault Refusal :=
  s.run (fun d => d.issueCtl e (.bbs e bit off) 1 [] (fun x =>
    if x.stBit bit then .branch (x.target off) else .seq))

def execCall (e off : Nat) (s : State) : Host.Outcome State Fault Refusal :=
  s.run (fun d => d.issueCtl e (.call e off) 1 [] (fun x => .call (x.target off)))

def execCallr (e gs : Nat) (s : State) : Host.Outcome State Fault Refusal :=
  s.run (fun d => d.issueCtl e (.callr e gs) 1 [gs] (fun x => .call (x.gr gs).toNat))

def execJmp (e gs : Nat) (s : State) : Host.Outcome State Fault Refusal :=
  s.run (fun d => d.issueCtl e (.jmp e gs) 1 [gs] (fun x => .branch (x.gr gs).toNat))

def execRet (e : Nat) (s : State) : Host.Outcome State Fault Refusal :=
  s.run (fun d => d.issueCtl e (.ret e) 1 [] (fun _ => .ret))

def execBrk (e cond : Nat) (s : State) : Host.Outcome State Fault Refusal :=
  s.run (fun d => d.issueCtl e (.brk e cond) 1 [] (fun x => if x.cond cond then .brk else .seq))

/-- The pass count of REP (R311). -/
def RepSrc.count (x : Engine) : RepSrc → Nat
  | .imm n => n
  | .long n => n
  | .reg gs => (x.gr gs).toNat

/-- The words of REP (R298). -/
def RepSrc.len : RepSrc → Nat
  | .long _ => 2
  | _ => 1

/-- The g registers REP reads. -/
def RepSrc.touch : RepSrc → List Nat
  | .reg gs => [gs]
  | _ => []

def execRep (e : Nat) (src : RepSrc) (body : Nat) (s : State) : Host.Outcome State Fault Refusal :=
  s.run (fun d => d.issueCtl e (.rep e src body) (RepSrc.len src) (RepSrc.touch src) (fun x =>
    let n := RepSrc.count x src
    let start := x.pc + RepSrc.len src
    if n = 0 then .skip (start + body - 1) else .loop ⟨start, start + body - 1, n, x.stack.length⟩))

/-! Unit commands. -/

def execUcmd (e k gs : Nat) (s : State) : Host.Outcome State Fault Refusal :=
  s.run (fun d => d.issue e (.ucmd e k gs) 1 [gs, gs + 1] (fun d =>
    let w := (d.eng e).pair gs
    let block := d.blockOf e w
    .ok ((if block.isEmpty then d else d.bankUse (e / 16)).ucmdWord e k w block, .seq)))

def execCommandCompletion (e k : Nat) (s : State) : Host.Outcome State Fault Refusal :=
  s.run (fun d =>
    match d.completions.find? (fun c => decide (c.e = e) && decide (c.k = k)) with
    | none => d
    | some c => Device.deliverCompletion { d with completions := d.completions.erase c } c)

/-! Queue instructions. -/

/-- The queue that a port address names (R316). -/
def queueOf (a : Nat) : Option Nat :=
  if 0x40000000 ≤ a ∧ (a - 0x40000000) % 0x1000 = 0 ∧ (a - 0x40000000) / 0x1000 < 4096 then
    some ((a - 0x40000000) / 0x1000)
  else none

/-- The queue and the record address of a queue instruction (R316); `copies`: it reads or writes the record (R318). -/
def Engine.queueArgs (x : Engine) (gq pn : Nat) (copies : Bool) : Except Nat (Nat × Nat) :=
  match queueOf (x.gr gq).toNat with
  | none => .error 3
  | some q =>
    let a := (x.pr pn).toNat
    if copies && decide (roomFrom a = 0) then .error 3 else if a % 64 ≠ 0 then .error 4 else .ok (q, a)

/-- Bytes of the engine's data memories from a data address. -/
def Device.dataBytes (d : Device) (e a n : Nat) : List Byte :=
  if a < 0x80000 then memBytes d.xmem (clusterAt e a) n
  else if a < 0x180000 then memBytes d.ymem (clusterAt e (a - 0x100000)) n
  else memBytes d.lmem (localAt e (a - 0x200000)) n

/-- Write bytes to the engine's data memories. -/
def Device.putData (d : Device) (e a : Nat) (bs : List Byte) : Device :=
  if a < 0x80000 then Device.bankUse { d with xmem := memWrite d.xmem (clusterAt e a) bs } (e / 16)
  else if a < 0x180000 then Device.bankUse { d with ymem := memWrite d.ymem (clusterAt e (a - 0x100000)) bs } (e / 16)
  else { d with lmem := memWrite d.lmem (localAt e (a - 0x200000)) bs }

def execQpush (e gq gn pn : Nat) (s : State) : Host.Outcome State Fault Refusal :=
  s.run (fun d => d.issue e (.qpush e gq gn pn) 1 [gq, gn] (fun d =>
    let x := d.eng e
    match x.queueArgs gq pn true with
    | .error c => .error c
    | .ok (q, a) =>
      let l := ofBytesLE (d.dataBytes e (a + 4) 4)
      let n := slotsOf l
      let r : Nat × Bool := if l < 32 ∨ roomFrom a < 64 * n then (cLENGTH, false) else d.qPushCode q n
      let d := d.bankUse (e / 16)
      let d := if r.1 = cOK then d.qAccept q (d.dataBytes e a (64 * n)) n 0x14 e else d
      .ok (d.setEng e ((((d.eng e).setSt stQF (decide (r.1 ≠ cOK))).setSt stQX r.2).setG gn (BitVec.ofNat 32 r.1)), .seq)))

/-- Whether engine `e` is the consumer of a queue (R365). -/
def Device.qConsumer (d : Device) (q e : Nat) : Bool :=
  !d.isSet (F.QUE_Q_CFG_HOST q) && decide (d.fld (F.QUE_Q_CFG_ENGINE q) = e)

/-- The st bits a QPOP leaves (R318, R319). -/
def Engine.popBits (x : Engine) (qe ql qx : Bool) : Engine := ((x.setSt stQE qe).setSt stQL ql).setSt stQX qx

def execQpop (e gq gn pn : Nat) (s : State) : Host.Outcome State Fault Refusal :=
  s.run (fun d => d.issue e (.qpop e gq gn pn) 1 [gq, gn] (fun d =>
    let x := d.eng e
    match x.queueArgs gq pn (decide (x.gr gn ≠ 0)) with
    | .error c => .error c
    | .ok (q, a) =>
      let lim := (x.gr gn).toNat
      if roomFrom a < 64 * lim then .error 3
      else if !d.qConsumer q e then .ok (d.setEng e (x.popBits false false true), .seq)
      else
        match (d.queue q).next with
        | none =>
          let d := if 1 ≤ lim then d.putData e a idleRecord else d
          .ok (d.setEng e (((d.eng e).popBits true false false).setG gn 1), .seq)
        | some r =>
          if r.slots ≤ lim then
            let d := ((d.putData e a (d.qCopy q r)).qRefills q r.span).qAdvance q
            .ok (d.setEng e (((d.eng e).popBits false false false).setG gn (BitVec.ofNat 32 r.slots)), .seq)
          else .ok (d.setEng e ((x.popBits false true false).setG gn (BitVec.ofNat 32 r.slots)), .seq)))

/-- QMARK, QREW and QREL: a position operation by the consumer, otherwise QX (R319). -/
def Device.queuePosition (d : Device) (e : Nat) (i : Instr) (gq : Nat) (f : Device → Nat → Device) : Device :=
  d.issue e i 1 [gq] (fun d =>
    match queueOf ((d.eng e).gr gq).toNat with
    | none => .error 3
    | some q =>
      if d.qConsumer q e then
        let d := f d q
        .ok (d.setEng e ((d.eng e).setSt stQX false), .seq)
      else .ok (d.setEng e ((d.eng e).setSt stQX true), .seq))

def execQmark (e gq : Nat) (s : State) : Host.Outcome State Fault Refusal :=
  s.run (fun d => d.queuePosition e (.qmark e gq) gq Device.qMark)

def execQrew (e gq : Nat) (s : State) : Host.Outcome State Fault Refusal :=
  s.run (fun d => d.queuePosition e (.qrew e gq) gq Device.qRewind)

def execQrel (e gq : Nat) (s : State) : Host.Outcome State Fault Refusal :=
  s.run (fun d => d.queuePosition e (.qrel e gq) gq Device.qRelease)

/-! Events. -/

def execWait (e : Nat) (s : State) : Host.Outcome State Fault Refusal :=
  s.run (fun d => d.issue e (.wait e) 1 [] (fun d =>
    if (d.eng e).ev = 0 then .error 1
    else if d.evSelected e then .ok (d, .seq)
    else .ok (d.setEng e { d.eng e with state := 2 }, .stay)))

def execWaitResume (e : Nat) (s : State) : Host.Outcome State Fault Refusal :=
  s.run (fun d =>
    let x := d.eng e
    if x.state = 2 ∧ !d.sys.asleep ∧ d.evSelected e then
      match Engine.retire { x with state := 1 } 1 .seq with
      | .ok x' => d.setEng e x'
      | .error c => d.engFault e c
    else d)

def execEvget (e cd : Nat) (s : State) : Host.Outcome State Fault Refusal :=
  s.run (fun d => d.issueReg e (.evget e cd) 1 [0x40 + cd] (fun x =>
    match x.evq with
    | [] => ({ x with evLost := false }.setC cd (0, 0)).setSt stEE true
    | w :: rest =>
      ({ x with evLost := false, evq := rest }.setC cd (BitVec.ofNat 32 w, BitVec.ofNat 32 (w / 2 ^ 32))).setSt stEE false))

def execEvack (e : Nat) (s : State) : Host.Outcome State Fault Refusal :=
  s.run (fun d => d.issueReg e (.evack e) 1 [] (fun x => { x with timerExp := false }))

/-! Far memory at issue. -/

/-- The far address of FLD and FST (R322). -/
def Engine.farAddr (x : Engine) (gs off : Nat) : Nat :=
  wrap 48 (((x.gr gs).toNat + (x.gr (gs + 1)).toNat % 2 ^ 16 * 2 ^ 32 : Nat) + signed 12 off)

/-- The interlock name of a far transfer's register. -/
def farReg (t size : Nat) : Nat := if size = 3 then 0x40 + t else t

def execFld (e dst gs size : Nat) (u : Bool) (off : Nat) (s : State) : Host.Outcome State Fault Refusal :=
  s.run (fun d => if 8 ≤ (d.eng e).fl.length then d
    else d.issue e (.fld e dst gs size u off) 1 [farReg dst size, gs, gs + 1] (fun d =>
      let x := d.eng e
      let a := x.farAddr gs off
      match farLoc a (sizeBytes size) with
      | .error c => .error c
      | .ok _ =>
        let d := d.inc (Reg.CL_FAR_REQ_CNT (e / 16))
        .ok (d.setEng e { x with fl := x.fl ++ [⟨a, sizeBytes size, u, farReg dst size, x.fseq, x.pc⟩], fseq := x.fseq + 1 },
          .seq)))

def execFst (e src gs size off : Nat) (s : State) : Host.Outcome State Fault Refusal :=
  s.run (fun d => if 16 ≤ (d.eng e).fs.length then d
    else d.issue e (.fst e src gs size off) 1 [farReg src size, gs, gs + 1] (fun d =>
      let x := d.eng e
      let a := x.farAddr gs off
      let v := if size = 3 then (x.cr src).1.toNat + (x.cr src).2.toNat * 2 ^ 32 else (x.gr src).toNat
      match farLoc a (sizeBytes size) with
      | .error c => .error c
      | .ok _ =>
        let d := d.inc (Reg.CL_FAR_REQ_CNT (e / 16))
        .ok (d.setEng e { x with fs := x.fs ++ [⟨a, bytesLE (sizeBytes size) v, x.fseq⟩], fseq := x.fseq + 1 }, .seq)))

def execFfence (e : Nat) (s : State) : Host.Outcome State Fault Refusal :=
  s.run (fun d => if (d.eng e).fs ≠ [] then d else d.issueCtl e (.ffence e) 1 [] (fun _ => .seq))

/-! The system group. -/

def execNop (e : Nat) (s : State) : Host.Outcome State Fault Refusal :=
  s.run (fun d => d.issueCtl e (.nop e) 1 [] (fun _ => .seq))

def execHalt (e : Nat) (s : State) : Host.Outcome State Fault Refusal :=
  s.run (fun d => d.issue e (.halt e) 1 [] (fun d => .ok ((d.engStop e).2, .stay)))

/-- The SYS sleep registers as the parameter block of SLEEP (R324, R345). -/
def Device.sleepBlock (d : Device) : List Byte :=
  [Reg.SYS_SLEEP_CFG, Reg.SYS_SLEEP_CFG + 4, Reg.SYS_SLEEP_CFG + 8, Reg.SYS_SLEEP_CFG + 12, Reg.SYS_SLEEP_CFG + 16,
    Reg.SYS_SLEEP_CFG + 20].flatMap (fun a => bytesLE 4 (d.rdN a))

def execSleep (e : Nat) (s : State) : Host.Outcome State Fault Refusal :=
  s.run (fun d => d.issue e (.sleep e) 1 [] (fun d =>
    if e ≠ 0 then .error 1
    else
      .ok (d.ucmdWord 0 15 0x0050000000000000 d.sleepBlock, .seq)))

def execSync (e : Nat) (s : State) : Host.Outcome State Fault Refusal :=
  s.run (fun d => d.issueCtl e (.sync e) 1 [] (fun _ => .seq))

def execTime (e gd : Nat) (s : State) : Host.Outcome State Fault Refusal :=
  s.run (fun d => d.issue e (.time e gd) 1 [gd, gd + 1] (fun d =>
    .ok (d.setEng e (((d.eng e).setG gd (BitVec.ofNat 32 d.time.toNat)).setG (gd + 1)
      (BitVec.ofNat 32 (d.time.toNat / 2 ^ 32))), .seq)))

/-! Test-only instructions (R325). -/

/-- The self-test unit of a physical engine. -/
def Device.testUnit (d : Device) (p : Nat) : TestUnit := Sparse.get (fun _ => {}) d.tests p
def Device.setTestUnit (d : Device) (p : Nat) (x : TestUnit) : Device :=
  { d with tests := Sparse.set (fun _ => {}) d.tests p x }

/-- Whether the self-test controller has a physical engine in test (R325): in TEST, in an on-demand run, or in POST. -/
def Device.inTest (d : Device) (p : Nat) : Bool :=
  decide (p < 544) && (decide (d.fld (F.ROT_U_STAT_STATE p) = 3) || d.rot.bst.any (fun r => decide (r.1 = p)) ||
    decide (d.fld F.SYS_STAT_STATE = 1))

/-- A g register of a physical engine in test: what it holds at the start of the test is a free value (log entry 136). -/
def Device.testG (d : Device) (p i : Nat) : Word × Device :=
  let u := d.testUnit p
  if i = 0 then (0, d)
  else
    match Sparse.get (fun _ => none) u.g i with
    | some v => (v, d)
    | none =>
      let v := BitVec.ofNat 32 d.draw.1
      (v, d.draw.2.setTestUnit p { u with g := Sparse.set (fun _ => none) u.g i (some v) })

/-- A test-only instruction: the physical engine `phys` executes it in test, on its own registers; a logical engine, or a physical one that is not
in test, faults with TEST_ONLY (10). -/
def Device.testOnly (d : Device) (e : Nat) (i : Instr) (touch : List Nat) (phys : Option Nat)
    (f : Device → Nat → Device) : Device :=
  match phys with
  | none => d.issue e i 1 touch (fun _ => .error 10)
  | some p => if d.inTest p && i.disoexOk then f d p else d.issue e i 1 touch (fun _ => .error 10)

def execTprpg (e gs : Nat) (phys : Option Nat) (s : State) : Host.Outcome State Fault Refusal :=
  s.run (fun d => d.testOnly e (.tprpg e gs phys) [gs, gs + 1] phys (fun d p =>
    let lo := d.testG p gs
    let hi := lo.2.testG p (gs + 1)
    hi.2.setTestUnit p { hi.2.testUnit p with prpg := lo.1.toNat + hi.1.toNat * 2 ^ 32 }))

def execTscan (e gs : Nat) (phys : Option Nat) (s : State) : Host.Outcome State Fault Refusal :=
  s.run (fun d => d.testOnly e (.tscan e gs phys) [gs] phys (fun d p =>
    let n := d.testG p gs
    let u := n.2.testUnit p
    n.2.setTestUnit p { u with misr := Config.scanSignature u.prpg u.misr n.1.toNat }))

def execTmisr (e gd : Nat) (phys : Option Nat) (s : State) : Host.Outcome State Fault Refusal :=
  s.run (fun d => d.testOnly e (.tmisr e gd phys) [gd, gd + 1] phys (fun d p =>
    let u := d.testUnit p
    let put (g : Sparse (Option Word)) (i v : Nat) := if i = 0 then g else Sparse.set (fun _ => none) g i (some (BitVec.ofNat 32 v))
    d.setTestUnit p { u with g := put (put u.g gd u.misr) (gd + 1) (u.misr / 2 ^ 32) }))

end Sys2Proof.Machine
end

