-- ==== Sys2Proof/Machine/EngineOps.lean ====
section
/-! DEFINITION. The ENG commands and their host requests (R272, R273), engine timers, mailbox index writes (R274 to R276),
and the two encoding faults of instruction fetch (R299, R308). -/

namespace Sys2Proof.Machine

/-- A unit answers a command with a code at once. -/
def Device.reply (r : Nat × Device) (u : UCmd) : Device := r.2.complete u.origin r.1 none

def execEngStart (u : UCmd) (s : State) : Host.Outcome State Fault Refusal :=
  s.run (fun d => d.unitCmd 0x14 1 u fun d => Device.reply (d.engStart u.unit (u.imm % 65536)) u)

def execEngStop (u : UCmd) (s : State) : Host.Outcome State Fault Refusal :=
  s.run (fun d => d.unitCmd 0x14 2 u fun d => Device.reply (d.engStop u.unit) u)

def execEngSignal (u : UCmd) (s : State) : Host.Outcome State Fault Refusal :=
  s.run (fun d => d.unitCmd 0x14 3 u fun d =>
    let c := (d.eng u.unit).signalCode
    (if c = cOK then d.notify u.unit (evEntry 19 u.e 0 (u.imm % 65536)) else d).complete u.origin c none)

def execEngTimer (u : UCmd) (s : State) : Host.Outcome State Fault Refusal :=
  s.run (fun d => d.unitCmd 0x14 4 u fun d =>
    let x := d.eng u.unit
    let c := x.signalCode
    (if c = cOK then d.setEng u.unit { x with timer := some (BitVec.ofNat 64 (u.dword 0)) } else d).complete u.origin c none)

def execEngineTimerExpire (e : Nat) (s : State) : Host.Outcome State Fault Refusal :=
  s.run (fun d =>
    let x := d.eng e
    match x.timer with
    | none => d
    | some t => if timeLE t d.time then d.setEng e { x with timer := none, timerExp := true } else d)

def execClECtlStart (e : Nat) (s : State) : Host.Outcome State Fault Refusal :=
  s.run (fun d =>
    if 512 ≤ e then d
    else
      let r := d.engStart e (d.fld ⟨Reg.CL_E_ENTRY (e / 16) (e % 16), ⟨0, 16⟩⟩)
      r.2.setEng e { r.2.eng e with code := r.1 })

def execClECtlStop (e : Nat) (s : State) : Host.Outcome State Fault Refusal :=
  s.run (fun d =>
    if 512 ≤ e then d
    else
      let r := d.engStop e
      r.2.setEng e { r.2.eng e with code := r.1 })

/-! Mailboxes. -/

/-- A write of MB_H2E_WR by the host (R275, R276); the mail for a vacant engine is counted (R278). -/
def Device.h2eWr (d : Device) (k val : Nat) : Device :=
  if mbWrOk (val % 65536) (d.rdN (Reg.MB_H2E_RD k)) then
    let e := 16 * k + d.fld (F.MB_CFG_TARGET k)
    let d := if (d.eng e).state = 4 ∧ d.rdN (Reg.MB_H2E_WR k) ≠ val % 65536 then d.vacantDrop e else d
    d.wr (Reg.MB_H2E_WR k) (val % 65536)
  else d.mbError k

/-- A write of MB_H2E_RD by an engine. -/
def Device.h2eRd (d : Device) (k val : Nat) : Device :=
  if mbRdOk (d.rdN (Reg.MB_H2E_WR k)) (d.rdN (Reg.MB_H2E_RD k)) (val % 65536) then
    d.wr (Reg.MB_H2E_RD k) (val % 65536)
  else d.mbError k

/-- A write of MB_E2H_WR by an engine, with the vector of R276. -/
def Device.e2hWr (d : Device) (k val : Nat) : Device :=
  let old := d.rdN (Reg.MB_E2H_WR k)
  let rd := d.rdN (Reg.MB_E2H_RD k)
  if mbWrOk (val % 65536) rd then
    let d' := d.wr (Reg.MB_E2H_WR k) (val % 65536)
    if old = rd ∧ val % 65536 ≠ old ∧ d.isSet (F.MB_CFG_VEC_EN k) then d'.msix (d.fld (F.MB_CFG_VEC k)) else d'
  else d.mbError k

/-- A write of MB_E2H_RD by the host. -/
def Device.e2hRd (d : Device) (k val : Nat) : Device :=
  if mbRdOk (d.rdN (Reg.MB_E2H_WR k)) (d.rdN (Reg.MB_E2H_RD k)) (val % 65536) then
    d.wr (Reg.MB_E2H_RD k) (val % 65536)
  else d.mbError k

/-- A write of an index field at offset `off` from 0x1000 of the mailbox block, by the side `byHost` (R274, R275). -/
def Device.mbIndex (d : Device) (k off val : Nat) (byHost : Bool) : Device :=
  match off, byHost with
  | 0, true => d.h2eWr k val
  | 4, false => d.h2eRd k val
  | 8, false => d.e2hWr k val
  | 12, true => d.e2hRd k val
  | _, _ => d.mbError k

def execMbH2eWrWrite (k val : Nat) (byHost : Bool) (s : State) : Host.Outcome State Fault Refusal :=
  s.run (fun d => d.mbIndex k 0 val byHost)

def execMbH2eRdWrite (k val : Nat) (byHost : Bool) (s : State) : Host.Outcome State Fault Refusal :=
  s.run (fun d => d.mbIndex k 4 val byHost)

/-- The far address of MB_E2H_WR of cluster `k` (R267, R274). -/
def farE2hWr (k : Nat) : Nat := 0x100000000000 + k % 32 * 0x1000000 + 0x301008

/-- A write of MB_E2H_WR by engine `e`: it takes effect after every earlier far store of that engine (R276), until then it is a far store in
flight. -/
def execMbE2hWrWrite (k val : Nat) (byHost : Bool) (e : Nat) (s : State) : Host.Outcome State Fault Refusal :=
  s.run (fun d =>
    let x := d.eng e
    if !byHost && decide (x.fs ≠ []) then
      if 16 ≤ x.fs.length then d
      else d.setEng e { x with fs := x.fs ++ [⟨farE2hWr k, bytesLE 4 (val % 2 ^ 32), x.fseq⟩], fseq := x.fseq + 1 }
    else d.mbIndex k 8 val byHost)

def execMbE2hRdWrite (k val : Nat) (byHost : Bool) (s : State) : Host.Outcome State Fault Refusal :=
  s.run (fun d => d.mbIndex k 12 val byHost)

end Sys2Proof.Machine
end

