-- ==== Sys2Proof/Machine/Memory.lean ====
section
/-! DEFINITION. The in-package memory (chapter "In-package memory"): address mapping (R401), priority promotion (R404), error
correction, the poison table and the error log (R408 to R411), patrol scrub (R412), and row repair (R413 to R417). -/

namespace Sys2Proof.Machine

/-- The mapping of R401: pseudo-channel, column, bank, row and SID of a device address. -/
def memMap (a : Nat) : Nat × Nat × Nat × Nat × Nat :=
  let pc := bitsOf a 8 6 ^^^ bitsOf a 14 6 ^^^ bitsOf a 20 6 ^^^ bitsOf a 26 6 ^^^ bitsOf a 32 4
  let off := a / 2 ^ 14 * 256 + a % 256
  (pc, bitsOf off 0 10, bitsOf off 10 4, bitsOf off 14 14, bitsOf off 28 2)

/-- MEM_DEC_RESULT for an address (R401). -/
def memDecode (a : Nat) : Nat :=
  if Config.memSize ≤ a then 0xFFFFFFFF
  else
    let (pc, col, bank, row, sid) := memMap a
    pc + sid * 2 ^ 6 + bank * 2 ^ 8 + row * 2 ^ 12 + col / 32 * 2 ^ 26

/-- The number of the row that holds an address. -/
def memRow (a : Nat) : Nat :=
  let (pc, _, bank, row, sid) := memMap a
  ((pc * 4 + sid) * 16 + bank) * 2 ^ 14 + row

/-- The bank of a row. -/
def rowBank (r : Nat) : Nat := r / 2 ^ 14

/-- The pseudo-channel of a row. -/
def rowPc (r : Nat) : Nat := r / 2 ^ 20

/-- The service class of a port (R403). -/
def portClass (p : Nat) : Nat :=
  if p = 0 then 0 else if p < 4 then 1 else if p < 36 then 2 else if p = 36 then 3 else if p < 41 then 4 else if p = 41 then 5 else 6

/-- Whether panel fetch has effective class C0 because its line buffer is below the watermark (R405, R573). -/
def Device.urgent (d : Device) : Bool :=
  let w := d.fld ⟨Reg.PNL_WMARK, ⟨0, 14⟩⟩
  decide (w ≠ 0) && decide (d.fld ⟨Reg.PNL_LEVEL, ⟨0, 14⟩⟩ < w)

/-- The steps by which a request of some age in ns was promoted (R404); panel fetch below its watermark is in C0 whatever its age (R405). -/
def Device.promote (d : Device) (port age : Nat) : Device :=
  let lim := bitsOf (d.rdN Reg.MEM_AGE_LIMIT) 0 16
  if lim = 0 ∨ (port = 41 ∧ d.urgent) then d else d.incBy Reg.MEM_PROMOTE_CNT (min (portClass port) (age / lim))

/-- An entry of the error log, or a further error counted in the newest (R411). -/
def Device.memLog (d : Device) (a kind port code : Nat) : Device :=
  let w := d.rdN Reg.MEM_LOG_WR
  let i := (w + 15) % 16
  if w ≠ 0 ∧ d.rd64 (Reg.MEM_LOG_ADDR_LO i) = a ∧ d.fld (F.MEM_LOG_INFO_KIND i) = kind then
    d.setFld (F.MEM_LOG_INFO_REPEAT i) (min 65535 (d.fld (F.MEM_LOG_INFO_REPEAT i) + 1))
  else
    let d := if 16 ≤ (w + 2 ^ 32 - d.rdN Reg.MEM_LOG_RD) % 2 ^ 32 then d.flag F.MEM_FLAGS_LOG_LOST Reg.MEM_LOG_LOST_CNT else d
    let j := w % 16
    (((d.wr64 (Reg.MEM_LOG_ADDR_LO j) a).wrTime (Reg.MEM_LOG_TIME_LO j) d.time).wr (Reg.MEM_LOG_INFO j)
      (kind + port * 2 ^ 2 + code * 2 ^ 8)).wr Reg.MEM_LOG_WR (w + 1)

/-- The spare rows of a bank in use: a row under both kinds of repair uses one (R415). -/
def Device.sparesUsed (d : Device) (bank : Nat) : Nat :=
  ((d.memc.soft ++ d.memc.hard).dedup.filter (fun r => decide (rowBank r = bank))).length

/-- A soft repair is in progress (R416). -/
def Device.repairBusy (d : Device) : Bool := d.memc.repair.isSome

/-- Whether a row has uncorrectable codewords that the poison table cannot take (R416). -/
def Device.rowStuck (d : Device) (r : Nat) : Bool :=
  decide (256 < d.poison.length + (d.memc.hot.filter (fun w => decide (memRow (32 * w) = r))).length)

/-- The check of a repair (R416). -/
def Device.repairCode (d : Device) (a : Nat) (soft hard : Bool) : Nat :=
  let r := memRow a
  firstCode [
    (decide (Config.memSize ≤ a), cREGION),
    (d.repairBusy || (hard && decide (64 ≤ d.memc.pend.length) && !decide (r ∈ d.memc.pend)), cBUSY),
    ((decide (2 ≤ d.sparesUsed (rowBank r)) && !decide (r ∈ d.memc.soft ∧ hard = true)) || d.rowStuck r, cNOSPARE),
    (soft == hard, cUNSUP)]

/-- A soft repair starts (R414). -/
def Device.softStart (d : Device) (a : Nat) (o : Origin) : Device :=
  Device.setFld { d with memc := { d.memc with repair := some (memRow a, o) } } F.MEM_REPAIR_STAT_BUSY 1

/-- A row enters the list of pending hard repairs (R415). -/
def Device.hardPend (d : Device) (a : Nat) : Device :=
  let r := memRow a
  let p := if r ∈ d.memc.pend then d.memc.pend else d.memc.pend ++ [r]
  Device.setFld { d with memc := { d.memc with pend := p } } F.MEM_REPAIR_STAT_PENDING p.length

/-- An automatic repair was refused (R416). -/
def Device.repairRefused (d : Device) (a port c : Nat) : Device :=
  (d.flag F.MEM_FLAGS_REPAIR_FAIL Reg.MEM_REPAIR_FAIL_CNT).memLog a 2 port c

/-- The automatic repairs of a candidate (R416), each checked against the state before them. -/
def Device.autoRepair (d : Device) (a port : Nat) : Device :=
  let cs := d.repairCode a true false
  let ch := d.repairCode a false true
  let d :=
    if d.isSet F.MEM_REPAIR_CFG_AUTO_SOFT then
      if cs = cOK then d.softStart a .device else d.repairRefused a port cs
    else d
  if d.isSet F.MEM_REPAIR_CFG_AUTO_HARD then
    if ch = cOK then d.hardPend a else d.repairRefused a port ch
  else d

/-- A corrected error of a row: the count after it, and the table (R413). -/
def countCe (t : List (Nat × Nat)) (r : Nat) : Nat × List (Nat × Nat) :=
  match t.find? (fun x => decide (x.1 = r)) with
  | some x => (x.2 + 1, t.map (fun y => if y.1 = r then (r, y.2 + 1) else y))
  | none =>
    let t := if t.length < 256 then t
      else
        let low := t.foldl (fun m x => min m x.2) (t.headD (0, 0)).2
        match t.find? (fun x => decide (x.2 = low)) with
        | some x => t.erase x
        | none => t
    (1, t ++ [(r, 1)])

/-- A read of the codeword at `a` through `port` returns with the stack's result: 0 clean, 1 corrected, 2 uncorrectable
(R408 to R411, R413, R416). This is the controller's part of a read; what the requester does with the data is its own command. -/
def Device.memRead (d : Device) (a port kind age : Nat) : Device :=
  let a := a / 32 * 32
  let w := a / 32
  let d := ((d.promote port age).timed (Reg.MEM_CLASS_LAT (portClass port))).moved (portClass port)
  let d :=
    if kind = 1 then
      let r := countCe d.memc.rowCe (memRow a)
      let th := d.fld F.MEM_REPAIR_CFG_CE_THRESH
      let d := { d with memc := { d.memc with rowCe := r.2, hot := d.memc.hot.filter (fun x => decide (x ≠ w)) } }
      let d := (d.flag F.MEM_FLAGS_CE Reg.MEM_CE_CNT).memLog a 0 port 0
      if th ≠ 0 ∧ r.1 = th then d.autoRepair a port else d
    else if kind = 2 then
      let first := !d.isSet F.MEM_FLAGS_UE
      let d := ((d.flag F.MEM_FLAGS_UE Reg.MEM_UE_CNT).poisonAdd w).memLog a 1 port 0
      let d := if first && d.isSet F.MEM_IRQ_EN then d.msix (d.fld F.MEM_IRQ_VEC) else d
      d.autoRepair a port
    else { d with memc := { d.memc with hot := d.memc.hot.filter (fun x => decide (x ≠ w)) } }
  if port ≤ 2 ∧ d.poisoned a 32 then
    (if kind = 2 then d else d.memLog a 1 port 0).inc Reg.MEM_POISON_READ_CNT
  else d

/-- Whether the stacks serve requests. -/
def Device.memReady (d : Device) : Bool := decide (d.fld F.MEM_STAT_STATE = 2)

def execMemReadComplete (addr port kind age : Nat) (s : State) : Host.Outcome State Fault Refusal :=
  s.run (fun d => if d.memReady ∧ addr < Config.memSize ∧ port ≤ 42 then d.memRead addr port kind age else d)

/-- The next codeword of a SCRUB command, or of the patrol (R412). -/
def Device.scrubNext (d : Device) (kind age : Nat) : Device :=
  match d.memc.scrub with
  | some (a, e, o) =>
    let d := d.memRead a 42 kind age
    if a + 32 < e then { d with memc := { d.memc with scrub := some (a + 32, e, o) } }
    else Device.complete { d with memc := { d.memc with scrub := none } } o cOK none
  | none =>
    if d.isSet F.MEM_SCRUB_CFG_EN then
      let p := d.rd64 Reg.MEM_SCRUB_POS_LO
      let d := if p = 0 then { d with memc := { d.memc with rowCe := [] } } else d
      (d.memRead p 42 kind age).wr64 Reg.MEM_SCRUB_POS_LO (if p + 32 < Config.memSize then p + 32 else 0)
    else d

def execScrubRead (kind age : Nat) (s : State) : Host.Outcome State Fault Refusal :=
  s.run (fun d => if d.memReady then d.scrubNext kind age else d)

/-- The timing update of R419 takes the pseudo-channel for 100 ns: the model has no memory timing, and R404 promotes it like
any request. -/
def execPhyTrackingUpdate (p age : Nat) (s : State) : Host.Outcome State Fault Refusal :=
  s.run (fun d => if d.memReady ∧ p < 64 then d.promote 42 age else d)

/-- A repair request (R414 to R416): its code, and the repair started or listed. -/
def Device.repairReq (d : Device) (a : Nat) (soft hard : Bool) (o : Origin) : Nat × Device :=
  let c := d.repairCode a soft hard
  let d := d.setFld F.MEM_REPAIR_STAT_CODE c
  if c ≠ cOK then (c, d) else (c, if soft then d.softStart a o else d.hardPend a)

/-- The address of MEM_REPAIR_ADDR. -/
def Device.repairAddr (d : Device) : Nat := d.rd64 Reg.MEM_REPAIR_ADDR_LO

def execMemRepairCtlSoft (hardToo : Bool) (s : State) : Host.Outcome State Fault Refusal :=
  s.run (fun d =>
    let r := d.repairReq d.repairAddr true hardToo .host
    if r.1 = cOK then r.2.setFld F.MEM_REPAIR_CTL_SOFT 1 else r.2)

def execMemRepairCtlHard (softToo : Bool) (s : State) : Host.Outcome State Fault Refusal :=
  s.run (fun d => (d.repairReq d.repairAddr softToo true .host).2)

def execMemRepair (u : UCmd) (s : State) : Host.Outcome State Fault Refusal :=
  s.run (fun d => d.unitCmd 0x0B 1 u fun d =>
    let soft := bitAt (u.word 8) 0
    let r := d.repairReq (u.dword 0) soft (bitAt (u.word 8) 1) u.origin
    if r.1 = cOK ∧ soft then r.2 else r.2.complete u.origin r.1 none)

def execMemScrub (u : UCmd) (s : State) : Host.Outcome State Fault Refusal :=
  s.run (fun d => d.unitCmd 0x0B 2 u fun d =>
    let a := u.dword 0
    let n := u.word 8
    let c := firstCode [
      (decide (n = 0) || pastEnd a n, cLENGTH),
      (decide (a % 32 ≠ 0 ∨ n % 32 ≠ 0), cALIGN),
      (decide (Config.memSize ≤ a), cREGION),
      (d.memc.scrub.isSome, cBUSY)]
    if c = cOK then { d with memc := { d.memc with scrub := some (a, a + n, u.origin) } }
    else d.complete u.origin c none)

/-- The spare rows left in the stack of a row are shown (R413 to R415). -/
def Device.showSpares (d : Device) : Device :=
  let used := (d.memc.soft ++ d.memc.hard).dedup
  let n := fun st => (used.filter (fun r => decide (rowPc r / 32 = st))).length
  (d.setFld (F.MEM_S_STAT_SPARE 0) (3072 - n 0)).setFld (F.MEM_S_STAT_SPARE 1) (3072 - n 1)

/-- The uncorrectable codewords of a row enter the poison table as far as it has room. -/
def Device.rowPoison (d : Device) (r : Nat) : Device :=
  let ws := d.memc.hot.filter (fun w => decide (memRow (32 * w) = r))
  let take := ws.take (256 - d.poison.length)
  { d with poison := d.poison ++ take, memc := { d.memc with hot := d.memc.hot.filter (fun w => !decide (w ∈ take)) } }

def execSoftRepairDone (s : State) : Host.Outcome State Fault Refusal :=
  s.run (fun d =>
    match d.memc.repair with
    | none => d
    | some (r, o) =>
      let p := rowPc r
      let d := d.rowPoison r
      let d := { d with memc := { d.memc with repair := none, soft := if r ∈ d.memc.soft then d.memc.soft else d.memc.soft ++ [r] } }
      let d := (d.setFld F.MEM_REPAIR_STAT_BUSY 0).inc Reg.MEM_REPAIR_CNT
      let d := (d.setFld (F.MEM_PC_STAT_SOFT p) (min 255 (d.fld (F.MEM_PC_STAT_SOFT p) + 1))).showSpares
      match o with
      | .host => d.setFld F.MEM_REPAIR_CTL_SOFT 0
      | .port _ _ => d.complete o cOK none
      | .device => d)

/-- Training (R415, R417, R419): memory is cleared, soft repairs are gone, the pending hard repairs are made where a spare is
left, and the lanes remapped are recorded, one count for each pseudo-channel. -/
def Device.memTrain (d : Device) (remaps : List Nat) : Device :=
  let pend := d.memc.pend
  let d := { d with mem := [], poison := [], memc := { d.memc with hot := [], rowCe := [], soft := [], repair := none, scrub := none, pend := [] } }
  let d := pend.foldl (fun d r =>
    if r ∈ d.memc.hard ∨ 2 ≤ d.sparesUsed (rowBank r) then d
    else Device.inc { d with memc := { d.memc with hard := d.memc.hard ++ [r] } } Reg.MEM_REPAIR_CNT) d
  let d := (List.range 64).foldl (fun d p =>
    (d.setFld (F.MEM_PC_STAT_REMAP p) (min 2 (remaps.getD p 0))).setFld (F.MEM_PC_STAT_HARD p)
      (min 255 (d.memc.hard.filter (fun r => decide (rowPc r = p))).length)) d
  let ok := (List.range 64).all (fun p => decide (remaps.getD p 0 ≤ 2))
  let up := fun st => (List.range 32).all (fun p => decide (remaps.getD (st * 32 + p) 0 ≤ 2))
  let d := ((d.setFld (F.MEM_S_STAT_UP 0) (if up 0 then 1 else 0)).setFld (F.MEM_S_STAT_UP 1) (if up 1 then 1 else 0)).setFld
    F.MEM_REPAIR_STAT_PENDING 0
  if ok then d.showSpares.setFld F.MEM_STAT_STATE 2 else (d.setFld F.MEM_STAT_FAILED 1).setFld F.MEM_STAT_STATE 0

end Sys2Proof.Machine
end

