-- ==== Sys2Proof/Machine/Panel.lean ====
section
/-! DEFINITION. Panel scan-out (R561 to R575): the checks, START and link training, STOP, commit points and FLIP, composition and the pixels sent, AUX, and hot
plug. -/

namespace Sys2Proof.Machine

def Device.pLayer (d : Device) (l : Nat) : PLayer := Sparse.get (fun _ => {}) d.panel.layers l

/-- STATE of the panel: 0 OFF, 1 TRAINING, 2 RUNNING. -/
def Device.pState (d : Device) : Nat := d.fld F.PNL_STAT_STATE

/-- The pending set of a layer (R569). -/
def Device.pPend (d : Device) (l : Nat) : PLayer :=
  ⟨d.rdN (Reg.PNL_L_CFG l), d.rdN (Reg.PNL_L_STRIDE l), d.rdN (Reg.PNL_L_POS l), d.rdN (Reg.PNL_L_SIZE l), d.rd64 (Reg.PNL_L_BASE_LO l)⟩

def PLayer.en (x : PLayer) : Bool := bitAt x.cfg 0
def PLayer.fmt (x : PLayer) : Nat := bitsOf x.cfg 1 2
def PLayer.px (x : PLayer) : Nat := bitsOf x.pos 0 12
def PLayer.py (x : PLayer) : Nat := bitsOf x.pos 16 12
def PLayer.w (x : PLayer) : Nat := bitsOf x.size 0 12
def PLayer.h (x : PLayer) : Nat := bitsOf x.size 16 12
def PLayer.bpp (x : PLayer) : Nat := if x.fmt = 0 then 2 else if x.fmt = 1 then 3 else 4

/-- R567: a layer without alpha. -/
def PLayer.opaque' (x : PLayer) : Bool := decide (x.fmt < 2) || bitAt x.cfg 3

/-! Checks (R565, R570). -/

/-- The layer checks of R565 on one layer; its format is looked at whether it is enabled or not. -/
def PLayer.checks (x : PLayer) : List (Bool × Nat) :=
  if !x.en then [(decide (x.fmt = 3), cUNSUP)]
  else [
    (decide (x.w = 0) || decide (x.h = 0) || pastEnd x.base (x.stride * (x.h - 1) + x.w * x.bpp), cLENGTH),
    (decide (x.base % 64 ≠ 0) || decide (x.stride % 64 ≠ 0), cALIGN),
    (decide (Config.memSize ≤ x.base), cREGION),
    (decide (x.fmt = 3), cUNSUP)]

/-- The layer checks on the pending set. -/
def Device.layerChecks (d : Device) : List (Bool × Nat) := (List.range 4).flatMap (fun l => (d.pPend l).checks)

def Device.hAct (d : Device) : Nat := d.fld F.PNL_H_ACT_FP_H_ACT
def Device.vAct (d : Device) : Nat := d.fld F.PNL_V_ACT_FP_V_ACT

/-- The link rate in units of 10 Mbit/s, and the lanes, of PNL_CFG (R561). -/
def Device.pRate (d : Device) : Nat := match d.fld F.PNL_CFG_RATE with | 0 => 162 | 1 => 270 | 2 => 540 | _ => 810
def Device.pLanes (d : Device) : Nat := 2 ^ d.fld F.PNL_CFG_LANES

/-- The bits of a component (R561). -/
def Device.pBpc (d : Device) : Nat := if d.isSet F.PNL_CFG_BPC then 6 else 8

/-- f_pix exceeds 600 MHz or the link's payload (R564). -/
def Device.tooFast (d : Device) : Bool :=
  let m := d.rdN Reg.PNL_PIX_M
  let n := d.rdN Reg.PNL_PIX_N
  decide (600 * n < d.pRate * m) || decide (d.pLanes * d.pRate * 8 * n < d.pRate * m * 3 * d.pBpc)

/-- The timing fields that may not be 0. -/
def Device.timingFields (d : Device) : List Nat :=
  [Reg.PNL_H_ACT_FP, Reg.PNL_H_SYNC_BP, Reg.PNL_V_ACT_FP, Reg.PNL_V_SYNC_BP].flatMap
    (fun a => [bitsOf (d.rdN a) 0 16, bitsOf (d.rdN a) 16 16])

/-- The register checks of START (R565). -/
def Device.pStartCode (d : Device) : Nat :=
  firstCode (d.layerChecks ++ [
    (d.timingFields.any (fun n => decide (n = 0)) || decide (3840 < d.hAct) || decide (2160 < d.vAct) ||
      decide (d.rdN Reg.PNL_PIX_M = 0) || decide (d.rdN Reg.PNL_PIX_N = 0), cLENGTH),
    (!d.isSet F.PNL_CFG_EN || decide (d.pState ≠ 0), cBUSY),
    (!d.isSet F.PNL_STAT_HPD, cCONDITIONS),
    (decide (d.fld F.PNL_CFG_LANES = 3) || d.tooFast, cUNSUP)])

/-! Requests. -/

/-- A request ends: its action bit, CODE, and the completion. -/
def Device.pEnd (d : Device) (o : Origin) (a c : Nat) (stamp : Option Time) : Device :=
  d.finish o ⟨Reg.PNL_CTL, ⟨a, 1⟩⟩ F.PNL_STAT_CODE c stamp

/-- What a training phase sends (R565): reads of the sink's capabilities, the link's settings, and the training patterns. -/
def Device.phaseSend (d : Device) (ph : Nat) : Device :=
  match ph with
  | 1 => d.send (.aux 9 0 16 [])
  | 2 => ((d.send (.aux 8 0x100 1 (bytesLE 1 (d.pRate / 27)))).send (.aux 8 0x101 1 (bytesLE 1 (0x80 + d.pLanes)))).send
      (.aux 8 0x107 1 (bytesLE 1 0))
  | 3 => d.send (.pattern 1)
  | 4 => d.send (.pattern (if d.fld F.PNL_CFG_RATE = 3 then 4 else if d.fld F.PNL_CFG_RATE = 2 then 3 else 2))
  | _ => d.send (.pattern 0)

/-- START (R565). -/
def Device.pStart (d : Device) (o : Origin) : Device :=
  let c := d.pStartCode
  if c ≠ cOK then (if c = cBUSY && d.panel.start.isSome then (d.setFld F.PNL_STAT_CODE c).complete o c none else d.pEnd o 0 c none)
  else
    let d := ((d.setFld F.PNL_STAT_STATE 1).actBit o F.PNL_CTL_START).wr Reg.PNL_FRAMES 0
    Device.phaseSend { d with panel := { d.panel with start := some o, phase := 1, retrain := false, idle := none, stopCode := 0 } } 1

/-- STOP (R566): at the next commit point; a panel that is OFF is stopped. -/
def Device.pStop (d : Device) (o : Origin) : Device :=
  if d.pState = 0 then d.pEnd o 1 cOK none
  else Device.actBit { d with panel := { d.panel with stops := d.panel.stops ++ [o] } } o F.PNL_CTL_STOP

/-- The state OFF: the requests that waited for it complete, and commit requests with NOT_ARMED (R566, R570). -/
def Device.pOff (d : Device) (c : Nat) : Device :=
  let p := d.panel
  let d := Device.setFld { d with panel := { p with stops := [], commits := [], phase := 0, retrain := false, idle := none,
                                                          start := none, stopCode := 0 } } F.PNL_STAT_STATE 0
  let d := d.setFld F.PNL_STAT_COMMIT_PENDING 0
  let d := p.commits.foldl (fun d r => d.pEnd r.origin 2 cNOTARMED none) d
  let d := p.stops.foldl (fun d o => d.pEnd o 1 cOK none) d
  d.setFld F.PNL_STAT_CODE c

/-- The main link begins the idle patterns that end scan-out (R566). -/
def Device.pIdle (d : Device) (t : Time) (c : Nat) : Device :=
  Device.send { d with panel := { d.panel with idle := some t, stopCode := c } } (.pattern 0)

/-- Scan-out stops as STOP does, with CODE CONDITIONS (R575). -/
def Device.pFail (d : Device) : Device :=
  { d with panel := { d.panel with stops := d.panel.stops ++ [.device], stopCode := cCONDITIONS, phase := 0, retrain := false } }

/-- Scan-out stops without waiting for a commit point, at the entry boundary of SLEEP (R566). -/
def Device.pHalt (d : Device) (t : Time) (c : Nat) : Device :=
  match d.pState with
  | 0 => d
  | 1 =>
    let o := d.panel.start.getD .device
    (d.pOff cCONDITIONS).pEnd o 0 cCONDITIONS none
  | _ => if d.panel.idle.isSome then d else d.pIdle t c

/-- A commit request (R569, R570). -/
def Device.pCommit (d : Device) (o : Origin) (flip : Option Nat) : Device :=
  let c := firstCode (d.layerChecks ++ [(decide (d.pState = 0), cNOTARMED)])
  if c ≠ cOK then d.pEnd o 2 c none
  else
    let d : Device := { d with panel := { d.panel with commits := d.panel.commits ++ [⟨o, flip⟩] } }
    (d.setFld F.PNL_STAT_COMMIT_PENDING 1).actBit o F.PNL_CTL_COMMIT

/-- FLIP (R571): a refused FLIP leaves the pending base as it was. -/
def Device.pFlip (d : Device) (l base : Nat) (o : Origin) : Device :=
  if d.panel.commits.any (fun r => decide (r.flip = some l)) then (d.setFld F.PNL_STAT_CODE cBUSY).complete o cBUSY none
  else
    let e := (d.wrRw (Reg.PNL_L_BASE_LO l) (base % 2 ^ 32)).wrRw (Reg.PNL_L_BASE_HI l) (base / 2 ^ 32)
    let c := firstCode (e.layerChecks ++ [(decide (d.pState = 0), cNOTARMED)])
    if c ≠ cOK then (d.setFld F.PNL_STAT_CODE c).complete o c none else e.pCommit o (some l)

/-- An overlay has patched the base of a layer: a pending FLIP of it completes with BUSY (R571). -/
def Device.flipOverlaid (d : Device) (l : Nat) : Device :=
  match d.panel.commits.find? (fun r => decide (r.flip = some l)) with
  | none => d
  | some r => Device.complete { d with panel := { d.panel with commits := d.panel.commits.erase r } } r.origin cBUSY none

def execPnlCtlStart (s : State) : Host.Outcome State Fault Refusal := s.run (fun d => d.pStart .host)
def execPnlCtlStop (s : State) : Host.Outcome State Fault Refusal := s.run (fun d => d.pStop .host)
def execPnlCtlCommit (s : State) : Host.Outcome State Fault Refusal := s.run (fun d => d.pCommit .host none)
def execPnlStart (u : UCmd) (s : State) : Host.Outcome State Fault Refusal :=
  s.run (fun d => d.unitCmd 0x13 1 u fun d => d.pStart u.origin)
def execPnlStop (u : UCmd) (s : State) : Host.Outcome State Fault Refusal :=
  s.run (fun d => d.unitCmd 0x13 2 u fun d => d.pStop u.origin)
def execPnlCommit (u : UCmd) (s : State) : Host.Outcome State Fault Refusal :=
  s.run (fun d => d.unitCmd 0x13 3 u fun d => d.pCommit u.origin none)
def execPnlFlip (u : UCmd) (s : State) : Host.Outcome State Fault Refusal :=
  s.run (fun d => d.unitCmd 0x13 4 u fun d => d.pFlip u.unit (u.dword 0) u.origin)

/-! Training (R565, R575). -/

/-- A training phase ends. `lacks`: the sink's capabilities lack the selected rate or lane count; `drive`: the levels that the sink asked for. -/
def Device.trained (d : Device) (ok lacks : Bool) (drive : Nat) : Device :=
  let p := d.panel
  if p.phase = 0 ∨ p.phase = 5 then d
  else
    let d := if 3 ≤ p.phase then d.setFld ⟨Reg.PNL_DRIVE, ⟨0, 16⟩⟩ drive else d
    if p.retrain then
      if !ok then d.pFail
      else if p.phase = 3 then Device.phaseSend { d with panel := { d.panel with phase := 4 } } 4
      else Device.phaseSend { d with panel := { d.panel with phase := 0, retrain := false } } 5
    else
      let c := firstCode [(!ok, cCONDITIONS), (lacks && decide (p.phase = 1), cUNSUP)]
      if c ≠ cOK then (d.pOff c).pEnd (p.start.getD .device) 0 c none
      else Device.phaseSend { d with panel := { d.panel with phase := p.phase + 1 } } (p.phase + 1)

def execTrainingStepDone (ok lacks : Bool) (drive : Nat) (s : State) : Host.Outcome State Fault Refusal :=
  s.run (fun d => d.trained ok lacks drive)

/-! Commit points (R565, R566, R569, R571, R572). -/

/-- The visible rectangle of a layer: left, top, right, bottom. -/
def Device.visible (d : Device) (x : PLayer) : Nat × Nat × Nat × Nat :=
  (x.px, x.py, Nat.min d.hAct (x.px + x.w), Nat.min d.vAct (x.py + x.h))

def emptyRect (r : Nat × Nat × Nat × Nat) : Bool := decide (r.2.2.1 ≤ r.1) || decide (r.2.2.2 ≤ r.2.1)

def within (a b : Nat × Nat × Nat × Nat) : Bool :=
  decide (b.1 ≤ a.1) && decide (b.2.1 ≤ a.2.1) && decide (a.2.2.1 ≤ b.2.2.1) && decide (a.2.2.2 ≤ b.2.2.2)

/-- Whether a layer is not fetched in a frame (R572). -/
def Device.unfetched (d : Device) (l : Nat) : Bool :=
  let x := d.pLayer l
  let r := d.visible x
  !x.en || emptyRect r ||
    (List.range 4).any (fun k => decide (l < k) && (d.pLayer k).en && (d.pLayer k).opaque' && within r (d.visible (d.pLayer k)))

/-- The layers take the pending set (R569). -/
def Device.takeLayers (d : Device) : Device :=
  (List.range 4).foldl (fun d l =>
    let x := d.pPend l
    Device.wr64 { d with panel := { d.panel with layers := Sparse.set (fun _ => {}) d.panel.layers l x } } (Reg.PNL_L_CUR_LO l) x.base) d

/-- The main stream attribute packet of a frame (R564). -/
def Device.msa (d : Device) : Out :=
  .msa (d.rdN Reg.PNL_PIX_M) (d.rdN Reg.PNL_PIX_N) d.timingFields (d.isSet F.PNL_CFG_HSYNC_POL) (d.isSet F.PNL_CFG_VSYNC_POL) d.pBpc

/-- A new frame begins (R569, R572): its sync and attributes go out, and the layers not fetched are decided. -/
def Device.frameStart (d : Device) (t : Time) : Device :=
  let d := { d with panel := { d.panel with x := 0, y := 0, fill := false } }
  (((d.wrTime Reg.PNL_FRAME_LO t).send (.vsync t)).send d.msa).setFld F.PNL_STAT_SKIP
    (((List.range 4).filter (fun l => d.unfetched l)).map (fun l => 2 ^ l)).sum

/-- The commit requests complete at a commit point (R570). -/
def Device.commitAll (d : Device) (t : Time) : Device :=
  let l := d.panel.commits
  let d := if l.isEmpty then d else d.takeLayers
  let d := Device.setFld { d with panel := { d.panel with commits := [] } } F.PNL_STAT_COMMIT_PENDING 0
  l.foldl (fun d r => d.pEnd r.origin 2 cOK (some t)) d

/-- A commit point. -/
def Device.commitPoint (d : Device) (t : Time) : Device :=
  let p := d.panel
  if p.idle.isSome then d
  else if d.pState = 1 ∧ p.phase = 5 then
    let d := ((d.takeLayers.commitAll t).setFld F.PNL_STAT_STATE 2).pEnd (p.start.getD .device) 0 cOK (some t)
    let d := Device.frameStart { d with panel := { d.panel with start := none, phase := 0 } } t
    if p.stops.isEmpty then d else d.pIdle t p.stopCode
  else if d.pState = 2 then
    let d := (d.commitAll t).wr Reg.PNL_FRAMES ((d.rdN Reg.PNL_FRAMES + 1) % 2 ^ 32)
    let d := d.frameStart t
    if p.stops.isEmpty then d else d.pIdle t p.stopCode
  else d

def execCommitPoint (t : Time) (s : State) : Host.Outcome State Fault Refusal := s.run (fun d => d.commitPoint t)

/-- After 1 ms of idle patterns the main link is disabled (R566). -/
def execPanelStopDone (s : State) : Host.Outcome State Fault Refusal :=
  s.run (fun d =>
    match d.panel.idle with
    | none => d
    | some t => if timeLE (t + nsTime 1000000) d.time then d.pOff d.panel.stopCode else d)

/-! Pixels (R567, R568, R573, R574). -/

/-- The components R, G, B and alpha of a layer's pixel (R567). -/
def PLayer.colour (x : PLayer) (v : Nat) : (Nat × Nat × Nat) × Nat :=
  if x.fmt = 0 then
    let b := bitsOf v 0 5
    let g := bitsOf v 5 6
    let r := bitsOf v 11 5
    ((r * 8 + r / 4, g * 4 + g / 16, b * 8 + b / 4), 255)
  else ((bitsOf v 16 8, bitsOf v 8 8, bitsOf v 0 8), if x.opaque' then 255 else bitsOf v 24 8)

/-- One component over another (R568). -/
def blend (a u c : Nat) : Nat := (roundHalfEven ((a * u + (255 - a) * c : Nat) : Int) 255).toNat

/-- A layer over a pixel. -/
def Device.applyLayer (d : Device) (x y : Nat) (c : Nat × Nat × Nat) (l : Nat) : Nat × Nat × Nat :=
  let p := d.pLayer l
  let r := d.visible p
  if p.en && decide (r.1 ≤ x) && decide (x < r.2.2.1) && decide (r.2.1 ≤ y) && decide (y < r.2.2.2) then
    let v := memLE d.mem (p.base + (y - p.py) * p.stride + (x - p.px) * p.bpp) p.bpp
    let k := p.colour v
    (blend k.2 k.1.1 c.1, blend k.2 k.1.2.1 c.2.1, blend k.2 k.1.2.2 c.2.2)
  else c

/-- R, G and B of a colour register. -/
def rgbOf (v : Nat) : Nat × Nat × Nat := (bitsOf v 16 8, bitsOf v 8 8, bitsOf v 0 8)

/-- The composited pixel at a place of the active area (R568). -/
def Device.pixelAt (d : Device) (x y : Nat) : Nat × Nat × Nat :=
  (List.range 4).foldl (fun c l => d.applyLayer x y c l) (rgbOf (d.rdN Reg.PNL_BG))

/-- A component as it is sent (R568). -/
def Device.sent (d : Device) (c : Nat) : Nat :=
  if d.isSet F.PNL_CFG_BPC then Nat.min 63 (roundHalfEven (c : Int) 4).toNat else c

/-- A change into promotion is counted (R573). -/
def Device.urgentFrom (d : Device) (before : Bool) : Device :=
  if !before && d.urgent then d.flag F.PNL_FLAGS_URGENT Reg.PNL_URGENT_CNT else d

/-- The level of the line buffer changes. -/
def Device.setLevel (d : Device) (n : Nat) : Device := (d.setFld ⟨Reg.PNL_LEVEL, ⟨0, 14⟩⟩ n).urgentFrom d.urgent

/-- The next pixel of the active area. -/
def Device.nextPixel (d : Device) (fill : Bool) : Device :=
  let p := d.panel
  if p.x + 1 < d.hAct then { d with panel := { p with x := p.x + 1, fill := fill } }
  else { d with panel := { p with x := 0, y := p.y + 1, fill := false } }

/-- A pixel is due, with `level` pixels in the line buffer (R568, R574). -/
def Device.pixelDue (d : Device) (level : Nat) : Device :=
  let p := d.panel
  if d.pState ≠ 2 ∨ p.idle.isSome ∨ d.vAct ≤ p.y then d
  else
    let d := d.setLevel level
    let fill := p.fill || decide (level = 0)
    let d := if fill && !p.fill then d.flag F.PNL_FLAGS_UNDERRUN Reg.PNL_UNDERRUN_CNT else d
    let c := if fill then rgbOf (d.rdN Reg.PNL_FILL) else d.pixelAt p.x p.y
    let d := if fill then d else (d.setLevel (level - 1)).moved 5
    let d := if p.retrain then d else d.send (.pixel p.x p.y (d.sent c.2.2 + d.sent c.2.1 * 256 + d.sent c.1 * 65536))
    d.nextPixel fill

def execPixelDue (level : Nat) (s : State) : Host.Outcome State Fault Refusal := s.run (fun d => d.pixelDue level)

/-! AUX (R563). -/

/-- Whether a request reads from the sink. -/
def auxReads (req : Nat) : Bool := bitAt req 0

/-- The AUX request that PNL_AUX_CMD holds goes out. -/
def Device.auxSend (d : Device) : Device :=
  let req := d.fld F.PNL_AUX_CMD_REQ
  let n := d.fld F.PNL_AUX_CMD_LENGTH
  let buf := (List.range 4).flatMap (fun j => bytesLE 4 (d.rdN (Reg.PNL_AUX_BUF j)))
  Device.send { d with panel := { d.panel with auxAt := d.time, auxDefer := false } }
    (.aux req (d.fld F.PNL_AUX_CMD_ADDR) n (if auxReads req then [] else buf.take n))

/-- The request ends with a reply. -/
def Device.auxEnd (d : Device) (reply bytes : Nat) : Device :=
  (((d.setFld F.PNL_AUX_STAT_BUSY 0).setFld F.PNL_AUX_STAT_REPLY reply).setFld F.PNL_AUX_STAT_BYTES bytes).setFld F.PNL_AUX_CMD_GO 0

/-- A write to PNL_AUX_CMD that sets GO. -/
def execPnlAuxCmdGo (cmd : Nat) (s : State) : Host.Outcome State Fault Refusal :=
  s.run (fun d =>
    let n := bitsOf cmd 24 5
    let c := firstCode [(decide (n = 0) || decide (16 < n), cLENGTH), (d.isSet F.PNL_AUX_STAT_BUSY || decide (d.pState = 1), cBUSY)]
    let d := d.setFld F.PNL_AUX_STAT_CODE c
    if c ≠ cOK then d
    else
      let d := ((d.wrRw Reg.PNL_AUX_CMD cmd).setFld F.PNL_AUX_STAT_BUSY 1).setFld F.PNL_AUX_CMD_GO 1
      Device.auxSend { d with panel := { d.panel with auxTries := 0 } })

/-- Bytes into PNL_AUX_BUF. -/
def Device.auxStore (d : Device) (bs : List Byte) : Device :=
  (List.range 4).foldl (fun d j =>
    let old := bytesLE 4 (d.rdN (Reg.PNL_AUX_BUF j))
    d.wr (Reg.PNL_AUX_BUF j) (ofBytesLE (putBytes old 0 ((bs.drop (4 * j)).take 4)))) d

/-- The sink replies: 0 ACK, 1 NACK, 2 DEFER. -/
def execAuxReply (reply : Nat) (data : List Byte) (s : State) : Host.Outcome State Fault Refusal :=
  s.run (fun d =>
    let n := d.fld F.PNL_AUX_CMD_LENGTH
    if !d.isSet F.PNL_AUX_STAT_BUSY ∨ d.panel.auxDefer then d
    else if reply = 0 then
      if auxReads (d.fld F.PNL_AUX_CMD_REQ) then (d.auxStore (data.take n)).auxEnd 0 (data.take n).length else d.auxEnd 0 n
    else if reply = 1 then d.auxEnd 1 0
    else if d.panel.auxTries < 7 then { d with panel := { d.panel with auxDefer := true, auxAt := d.time } }
    else d.auxEnd 2 0)

/-- 400 µs have passed since the request went out or was deferred. -/
def execAuxTimeout (s : State) : Host.Outcome State Fault Refusal :=
  s.run (fun d =>
    if d.isSet F.PNL_AUX_STAT_BUSY ∧ timeLE (d.panel.auxAt + nsTime 400000) d.time then
      if d.panel.auxTries < 7 then Device.auxSend { d with panel := { d.panel with auxTries := d.panel.auxTries + 1 } }
      else d.auxEnd 3 0
    else d)

/-! Hot plug (R575). -/

/-- The link is retrained: the sink's status showed a lane that lost it. -/
def Device.pRetrain (d : Device) : Device :=
  Device.phaseSend ({ d with panel := { d.panel with retrain := true, phase := 3 } }.flag F.PNL_FLAGS_LINK_LOST Reg.PNL_LINK_LOST_CNT) 3

/-- PNL_HPD changes; `lost`: what the sink's status reads show after a short pulse. -/
def execHpdChange (level lost : Bool) (s : State) : Host.Outcome State Fault Refusal :=
  s.run (fun d =>
    if d.isSet F.PNL_STAT_HPD = level then d
    else
      let low := d.panel.hpdLow
      let d := (d.setFld F.PNL_STAT_HPD (if level then 1 else 0)).flag F.PNL_FLAGS_HPD Reg.PNL_HPD_CNT
      let d := { d with panel := { d.panel with hpdLow := if level then none else some d.time } }
      match level, low with
      | true, some t =>
        let n := (d.time - t).toInt
        if d.pState = 2 ∧ (nsTime 250000).toInt ≤ n ∧ n ≤ (nsTime 2000000).toInt then
          let d := d.send (.aux 9 0x202 4 [])
          if lost && !d.panel.retrain && d.panel.idle.isNone then d.pRetrain else d
        else d
      | _, _ => d)

def execHpdLowTimeout (s : State) : Host.Outcome State Fault Refusal :=
  s.run (fun d =>
    match d.panel.hpdLow with
    | none => d
    | some t =>
      if d.pState = 2 ∧ d.panel.idle.isNone ∧ d.panel.stopCode = 0 ∧ timeLT (t + nsTime 2000000) d.time then
        d.pFail
      else d)

/-- A warm restart stops scan-out and returns every PNL register to its reset value; the level of PNL_HPD stays (R566). -/
def Device.pReset (d : Device) : Device :=
  let hpd := d.fld F.PNL_STAT_HPD
  let low := d.panel.hpdLow
  Device.setFld { d with panel := { hpdLow := low }, regs := Sparse.keep (fun a _ => !(decide (0xF00000 ≤ a) && decide (a < 0x1000000))) d.regs }
    F.PNL_STAT_HPD hpd

end Sys2Proof.Machine
end

