-- ==== Sys2Proof/Machine/QueueOps.lean ====
section
/-! DEFINITION. The commands of the queues: completion and refill (R361, R368), the host window's operations (R366, R371), the
vector (R369), ENABLE and DISABLE (R373, R374). -/

namespace Sys2Proof.Machine

/-- Whether a write to a queue's window is carried out (R371, R386, R555). -/
def Device.qwOpen (d : Device) (q : Nat) : Bool := decide (q < 4096) && d.qOn q && d.isSet (F.QUE_Q_CFG_HOST q) && !d.zReads q && !d.forwards q

/-- A host operation on a queue's window: discarded, and counted, where the window takes no write. -/
def Device.qwDo (d : Device) (q : Nat) (f : Device → Device) : Device := if d.qwOpen q then f d else d.badAccess

def execRecordComplete (q : Nat) (s : State) : Host.Outcome State Fault Refusal := s.run (fun d => (d.qComplete q).casForward q)

/-- A refill of slot `n` of a queue arrives from its home (R355, R368). -/
def execSlotRefill (q n : Nat) (unc : Bool) (s : State) : Host.Outcome State Fault Refusal :=
  s.run (fun d =>
    let x := d.queue q
    if d.qOn q ∧ x.rd ≤ n ∧ n < x.rd + 16 ∧ n < x.r ∧ (x.chip n).isNone then
      let bad := unc || d.qHomeBad q n
      let d := ((d.timed Reg.QUE_SPILL_LAT).moved 3).setQueue q (x.setChip n (some ⟨memBytes d.mem (d.qHome q n) 64, bad⟩))
      if bad then d.flag F.QUE_FLAGS_POISON Reg.QUE_POISON_CNT else d
    else d)

/-- A write to QW_CTL: the operations of its bits, in ascending order (R371, R372). -/
def Device.qwCtl (d : Device) (q v : Nat) : Device :=
  d.qwDo q (fun d =>
    let d := if bitAt v 0 then d.qAdvance q else d
    let d := if bitAt v 1 then d.qMark q else d
    let d := if bitAt v 2 then d.qRewind q else d
    if bitAt v 3 then d.qRelease q else d)

def execQwCtlAdvance (q : Nat) (s : State) : Host.Outcome State Fault Refusal :=
  s.run (fun d => d.qwDo q (fun d => d.qAdvance q))

def execQwCtlMark (q : Nat) (s : State) : Host.Outcome State Fault Refusal := s.run (fun d => d.qwDo q (fun d => d.qMark q))

def execQwCtlRewind (q : Nat) (s : State) : Host.Outcome State Fault Refusal :=
  s.run (fun d => d.qwDo q (fun d => d.qRewind q))

def execQwCtlRelease (q : Nat) (s : State) : Host.Outcome State Fault Refusal :=
  s.run (fun d => d.qwDo q (fun d => d.qRelease q))

/-- A write to QUE_Q_IRQ with ARM set, with its vector (R369). -/
def execQueQIrqArm (q vec : Nat) (s : State) : Host.Outcome State Fault Refusal :=
  s.run (fun d =>
    if q < 4096 then ((d.setFld (F.QUE_Q_IRQ_VEC q) vec).setFld (F.QUE_Q_IRQ_ARM q) 1).qIrq q else d)

def execQueQCtlEnable (q : Nat) (s : State) : Host.Outcome State Fault Refusal :=
  s.run (fun d => if q < 4096 then (d.qEnable q).2 else d)

def execQueQCtlDisable (q : Nat) (s : State) : Host.Outcome State Fault Refusal :=
  s.run (fun d => if q < 4096 then (d.qDisable q).sourceGone q else d)

/-- Engine ENABLE: an enabled queue takes no register and answers BUSY. -/
def execQueEnable (u : UCmd) (s : State) : Host.Outcome State Fault Refusal :=
  s.run (fun d => d.unitCmd 0x09 1 u fun d =>
    let q := u.unit
    if d.qOn q then d.complete u.origin cBUSY none
    else
      let r := (d.wrBlock u [(Reg.QUE_Q_CFG q, 0), (Reg.QUE_Q_SLOTS q, 4), (Reg.QUE_Q_BASE_LO q, 8), (Reg.QUE_Q_BASE_HI q, 12)]).qEnable q
      r.2.complete u.origin r.1 none)

def execQueDisable (u : UCmd) (s : State) : Host.Outcome State Fault Refusal :=
  s.run (fun d => d.unitCmd 0x09 2 u fun d => ((d.qDisable u.unit).sourceGone u.unit).complete u.origin cOK none)

end Sys2Proof.Machine
end

