-- ==== Sys2Proof/Machine/Access.lean ====
section
/-! DEFINITION. The register interface (R3 to R12, R46 to R52): the windows that respond (R339, R351), the values that registers read, the
writes that a unit discards, what a write brings with it, and the host's accesses to BAR0, BAR2 and BAR4. -/

namespace Sys2Proof.Machine

/-- Whether the BAR0 window of an address responds (R339, R340, R351). -/
def Device.windowOpen (d : Device) (a : Nat) : Bool :=
  let st := d.fld F.SYS_STAT_STATE
  if st ∈ [1, 2, 8] then decide (a / 0x100000 ∈ [0, 12])
  else if st ∈ [6, 7] then decide (a / 0x100000 ∈ [0, 1, 2, 9, 10, 12, 13])
  else true

/-- Whether BAR2 and BAR4 respond (R339, R351). -/
def Device.memoryOpen (d : Device) : Bool := !decide (d.fld F.SYS_STAT_STATE ∈ [1, 2, 6, 7, 8])

/-- What a BAR0 offset names (R46, R47): a register, program memory, the data aperture, the context store, or the reserved range. -/
inductive BLoc where
  | reg
  | prog (k off : Nat)
  | data (k off : Nat)
  | ctx (off : Nat)
  | rsv
  deriving DecidableEq, Repr

def bar0Loc (a : Nat) : BLoc :=
  if a < 0x1000000 then .reg
  else if a < 0x2000000 then
    let k := (a - 0x1000000) / 0x80000
    let o := a % 0x80000
    if o < 0x40000 then .prog k o else if o < 0x60000 then .data k (o - 0x40000) else .reg
  else if a < 0x2400000 then .ctx (a - 0x2000000)
  else .rsv

/-- The element and offset of an address in an array of `n` blocks. -/
def blockAt (a base stride n : Nat) : Option (Nat × Nat) :=
  if base ≤ a ∧ a < base + stride * n then some ((a - base) / stride, (a - base) % stride) else none

/-! Reading. -/

/-- The registers whose value is a measurement over time, or of an analogue quantity, that the model does not compute, by the bits that they
hold: XF_T_BUSY, QUE_SPILL_LAT, MEM_CLASS_BW, MEM_CLASS_LAT, HIF_RD_LAT, CL_FAR_LAT, CL_BANK_CONFLICT_CNT, CLK_TUNE. They read as
free values, unless nothing that they measure has taken place. -/
def measuredBits (a : Nat) : Nat :=
  if a = Reg.QUE_SPILL_LAT ∨ a = Reg.HIF_RD_LAT ∨ (blockAt a 0x900100 0x40 1).isSome then 16
  else if a = Reg.CLK_TUNE_A ∨ a = Reg.CLK_TUNE_B then 28
  else if (blockAt a 0x400400 0x10 16).any (fun x => decide (x.2 = 4)) then 17
  else
    match blockAt a 0x1000000 0x80000 32 with
    | some (_, o) =>
      if o = 0x60040 then 16 else if o = 0x60030 then 32 else 0
    | none => 0

def measured (a : Nat) : Bool := decide (measuredBits a ≠ 0)

/-- The registers of R599: an average latency or bandwidth over the last 1 ms. -/
def latency (a : Nat) : Bool :=
  decide (a = Reg.QUE_SPILL_LAT ∨ a = Reg.HIF_RD_LAT) || (blockAt a 0x900100 4 7).any (fun x => decide (x.2 = 0)) ||
    (blockAt a 0x900120 4 7).any (fun x => decide (x.2 = 0)) || (blockAt a 0x1000000 0x80000 32).any (fun x => decide (x.2 = 0x60040))

/-- Whether an instant lies 1 ms or more in the past, or never was. -/
def Device.longPast (d : Device) (x : Option Time) : Bool :=
  match x with
  | none => true
  | some t => timeLE (t + nsTime 1000000) d.time

/-- A measurement reads zero when the last 1 ms held nothing of what it averages (R599): no event of a latency or bandwidth, no sample in a pipe
(XF_T_BUSY), no access to the cluster's memories since a read of CL_BANK_CONFLICT_CNT (R253). -/
def Device.quiet (d : Device) (a : Nat) : Bool :=
  if latency a then d.longPast (Sparse.get (fun _ => none) d.latAt a)
  else
    match blockAt a 0x400400 0x10 16, blockAt a 0x1000000 0x80000 32 with
    | some (t, 4), _ => d.longPast (Sparse.get (fun _ => none) d.pipeFree t)
    | _, some (k, 0x60030) => !decide (k ∈ d.bankUsed)
    | _, _ => false

/-- The sums of R61 over the streams that are not OFF, rounded up. -/
def Device.linkSum (d : Device) (f : Nat → Nat → Nat → Nat × Nat) : Nat :=
  let r := fracSum (((List.range 8).filter (fun t => decide (d.sState t ≠ 0) && d.sTimed t)).map
    (fun t => f (d.sWidth t) (d.rdN (Reg.LNK_S_PNUM_CUR t)) (d.rdN (Reg.LNK_S_PDEN_CUR t))))
  ceilDiv r.1 r.2

/-- Whether every lane of a mask is aligned. -/
def Device.rxUp (d : Device) (mask : Nat) : Bool :=
  let l := onesBelow mask 32
  !l.isEmpty && l.all (fun i => d.isSet (F.LNK_L_STAT_ALIGNED i))

/-- The word that a per-engine register reads (R280). -/
def Device.engReg (d : Device) (e off : Nat) : Option Nat :=
  let x := d.eng e
  match off with
  | 0x08 => some (x.state + x.code % 256 * 2 ^ 8 + x.cause * 2 ^ 16)
  | 0x0C => some (x.pc % 65536)
  | 0x10 => some (d.evMask e)
  | 0x14 => some x.evq.length
  | 0x18 => some (x.busy / 5 % 2 ^ 32)
  | 0x1C => some (x.busy / 5 / 2 ^ 32 % 2 ^ 32)
  | _ => none

/-- The value that a register shows: the registers that the device computes when they are read, and otherwise the value it holds. -/
def Device.view (d : Device) (a : Nat) : Nat :=
  match a / 0x100000 with
  | 2 =>
    if a = Reg.LNK_SUM_PAYLOAD then d.linkSum payloadOf % 2 ^ 20
    else if a = Reg.LNK_SUM_RATE then d.linkSum (fun _ p q => rateOf p q) % 2 ^ 16
    else match blockAt a 0x202038 0x100 8 with
      | some (s, 0) => d.sLevel s
      | _ => d.rdN a
  | 7 =>
    match blockAt a 0x710000 0x40 4096 with
    | some (q, 0x20) => (d.queue q).records
    | some (q, 0x24) => (d.queue q).used
    | _ => d.rdN a
  | 9 =>
    if a = Reg.MEM_DEC_RESULT then memDecode (d.rd64 Reg.MEM_DEC_ADDR_LO)
    else if a = Reg.MEM_POISON_USED then d.poison.length
    else if a = Reg.MEM_STAT then
      setBits (d.rdN a) F.MEM_STAT_SCRUB_ACTIVE.f.lo 1
        (if d.memReady && (d.memc.scrub.isSome || d.isSet F.MEM_SCRUB_CFG_EN) then 1 else 0)
    else d.rdN a
  | 11 =>
    if a = Reg.EVT_TIME_LO then d.time.toNat % 2 ^ 32
    else if a = Reg.EVT_TIME_HI then d.time.toNat / 2 ^ 32
    else d.rdN a
  | 14 =>
    match blockAt a 0xe02000 0x20 6 with
    | some (l, 0x0C) =>
      let m := d.rdN (Reg.CAS_L_RX l)
      let top := m.log2
      let run := d.isSet (F.CAS_L_CFG_RUN l)
      setBits (d.rdN a) 0 2 ((if run && d.rxUp (m - 2 ^ top) then 1 else 0) + (if run && d.isSet (F.LNK_L_STAT_ALIGNED top) then 2 else 0))
    | _ => d.rdN a
  | _ =>
    match blockAt a 0x1000000 0x80000 32 with
    | some (k, o) =>
      match blockAt o 0x61000 0x20 16 with
      | some (i, f) => (d.engReg (16 * k + i) f).getD (d.rdN a)
      | none => d.rdN a
    | none => d.rdN a

/-- A register's value as a read finds it; a measured one is a free value, unless R599 makes it zero. What CL_BANK_CONFLICT_CNT holds already
is the event of R12. -/
def Device.peek (d : Device) (a : Nat) : Nat × Device :=
  let held := if measuredBits a = 32 then d.rdN a else 0
  if !measured a then (d.view a, d)
  else if d.quiet a then (held, d)
  else (min (held + d.draw.1 % 2 ^ measuredBits a) (2 ^ measuredBits a - 1), d.draw.2)

/-- Remember what a later read of a register returns (R7). -/
def Device.latch (d : Device) (a v : Nat) : Device :=
  { d with hiLatch := Sparse.set (fun _ => none) d.hiLatch a (some (BitVec.ofNat 32 v)) }

/-- The registers that a read of a register latches: the high half of a pair (R7); INFO and stamp of a result slot (R508). -/
def latchedBy (a : Nat) : List Nat :=
  match blockAt a 0xc01000 0x800 8 with
  | some (_, o) => if (0x200 ≤ o ∧ o < 0x440) then (if o % 16 = 0 then [a + 4, a + 8, a + 12] else []) else
      (match regRow a with | some r => if r.half = 1 then [a + 4] else [] | none => [])
  | none => match regRow a with | some r => if r.half = 1 then [a + 4] else [] | none => []

/-- An RC register after a read (R3, R12): cleared, or one when an event falls in the cycle of the read; QUE_Q_PEAK restarts at USED. -/
def Device.rcAfter (d : Device) (a : Nat) (event : Bool) : Device :=
  match regRow a with
  | none => d
  | some r =>
    if r.rc = 0 then d
    else
      match blockAt a 0x710000 0x40 4096, blockAt a 0x1000000 0x80000 32 with
      | some (q, 0x38), _ => d.wr a (d.queue q).used
      | _, some (k, 0x60030) => Device.wr { d with bankUsed := d.bankUsed.filter (fun c => decide (c ≠ k)) } a (if event then 1 else 0)
      | _, _ => d.wr a (d.rdN a - Nat.land (d.rdN a) r.rc + (if event then 1 else 0))

/-- A 32-bit read of a register (R3, R7, R12). -/
def Device.regRead (d : Device) (a : Nat) (event : Bool) : Nat × Device :=
  let kept : Option Word := Sparse.get (fun _ => none) d.hiLatch a
  let r := match kept with
    | some v => (v.toNat, d)
    | none => d.peek a
  let d := (latchedBy a).foldl (fun (d : Device) b => let p := d.peek b; p.2.latch b p.1) r.2
  (r.1, d.rcAfter a event)

/-- A 64-bit read of a pair (R6, R7): both halves at once; a later read of _HI returns this one's. -/
def Device.pairRead (d : Device) (lo : Nat) : Nat × Device :=
  let l := d.peek lo
  let h := l.2.peek (lo + 4)
  (l.1 + h.1 * 2 ^ 32, (h.2.latch (lo + 4) h.1))

/-- The place in X, Y or local memory that the data aperture of a cluster shows (R47): the space and its byte address. -/
def Device.apertureAt (d : Device) (k off : Nat) : Option (Nat × Nat) :=
  let sp := d.fld (F.CL_APERTURE_SPACE k)
  let pos := d.fld (F.CL_APERTURE_POS k)
  if sp < 2 ∧ pos < 4 then some (sp, k * 0x80000 + pos * 0x20000 + off)
  else if sp = 2 ∧ pos < 2 then some (2, k * 0x40000 + pos * 0x20000 + off)
  else none

/-- All ones of an access of `len` bytes. -/
def allOnes (len : Nat) : Nat := 2 ^ (8 * len) - 1

/-- Whether a BAR0 access has a legal size and alignment (R6). -/
def bar0Fits (a len : Nat) : Bool :=
  (decide (len = 4) && decide (a % 4 = 0)) ||
    (decide (len = 8) && decide (a % 8 = 0) && decide (bar0Loc a = .reg) &&
      (match regRow a with | some r => decide (r.half = 1) | none => false))

/-- A host read through BAR0. -/
def Device.bar0Read (d : Device) (a len : Nat) (event : Bool) : Nat × Device :=
  if !bar0Fits a len ∨ !d.windowOpen a then (allOnes len, d.badAccess)
  else
    match bar0Loc a with
    | .rsv => (0, d)
    | .ctx off => (memLE d.ctx off 4, d)
    | .prog k off => (memLE d.prog (k * 0x40000 + off) 4, d)
    | .data k off =>
      match d.apertureAt k off with
      | some (0, p) => (memLE d.xmem p 4, d.bankUse k)
      | some (1, p) => (memLE d.ymem p 4, d.bankUse k)
      | some (_, p) => d.localRead p 4
      | none => (allOnes len, d.badAccess)
    | .reg =>
      if len = 8 then d.pairRead a else d.regRead a event

/-- Bytes of the data view of a queue's window (R372), from byte `off` of the view. -/
def Device.viewBytes (d : Device) (q off n : Nat) : List Byte :=
  let x := d.queue q
  let bs := match x.next with
    | some r => d.qCopy q r
    | none => idleRecord
  let from' := (if x.next.isSome then 64 * x.view else 0) + off
  (List.range n).map (fun i => bs.getD (from' + i) 0)

/-- The refills of a read of the data view (R368): the slots of the record that it covers. -/
def Device.viewRefills (d : Device) (q off n : Nat) : Device :=
  match (d.queue q).next with
  | none => d
  | some r =>
    let i := (d.queue q).view + off / 64
    d.qRefills q (((List.range ((off % 64 + n + 63) / 64)).map (fun k => r.start + i + k)).filter (fun m => decide (m < r.start + r.slots)))

/-- A host read through BAR4 (R371, R372). -/
def Device.bar4Read (d : Device) (q off len : Nat) : Nat × Device :=
  let x := d.queue q
  if !d.memoryOpen then (allOnes len, d.badAccess)
  else if 0x800 ≤ off then
    if len ∈ [4, 8, 16, 32, 64] ∧ off % len = 0 then (ofBytesLE (d.viewBytes q (off - 0x800) len), d.viewRefills q (off - 0x800) len) else (allOnes len, d.badAccess)
  else if len ≠ 4 ∨ off % 4 ≠ 0 then (allOnes len, d.badAccess)
  else
    match off with
    | 0x000 => (x.records, d)
    | 0x004 => (x.used, d)
    | 0x008 => ((match x.next with | some r => r.slots | none => 0), d)
    | 0x00C => ((match x.next with | some r => r.seq | none => 0), d)
    | 0x014 => (x.view, d)
    | _ => (0, d)

/-- What the host has read. -/
def Device.readDone (r : Nat × Device) (len : Nat) : Device :=
  Device.add64 { r.2 with hostRead := r.1, hostReadEp := false } Reg.HIF_TX_BYTES_LO len

/-! Writes that a unit discards. -/

/-- Whether a root uses an entry of the band table (R456): the lowest valid one that covers the frequency in force, or of a change in progress. -/
def Device.bandUsed (d : Device) (e : Nat) : Bool :=
  let covers (i : Nat) (f : ℚ) : Bool := d.isSet (F.CLK_BAND0_VALID i) && decide (((d.fld (F.CLK_BAND0_F_MIN i) : Nat) : ℚ) ≤ f * 1000) &&
    decide (f * 1000 ≤ ((d.fld (F.CLK_BAND0_F_MAX i) : Nat) : ℚ))
  d.fclks.any (fun f => decide ((List.range 16).find? (fun i => covers i (f * 8)) = some e))

/-- Whether a Kaiser parameter is used by the running or the pending schedule (R145). -/
def Device.betaUsed (d : Device) (i : Nat) : Bool :=
  (d.ctxList d.run ++ d.ctxList d.pendSched).any (fun x => decide (cWindow x.2 = 5) && decide (cKbeta x.2 = i))

/-- Whether the unit discards a write of `v` to the register at `a` in its present state, and counts it. -/
def Device.locked (d : Device) (a v : Nat) : Bool :=
  let st := d.fld F.SYS_STAT_STATE
  match a / 0x100000 with
  | 0 => (decide (a / 8 = Reg.SYS_IMG_BASE_LO / 8) && decide (st ∈ [4, 5, 6, 7])) ||
      (decide (a / 8 = Reg.SYS_SAVE_BASE_LO / 8) && decide (st ∈ [6, 7]))
  | 1 => (blockAt a 0x100100 8 16).any (fun x => d.bandUsed x.1) ||
      (blockAt a 0x100400 0x20 8).any (fun x => decide (x.2 < 0xC) &&
        (d.isSet (F.CKO_STAT_RUNNING x.1) || d.hasReq [.ckoStart, .ckoStop] x.1))
  | 2 => (blockAt a 0x200100 0x10 8).any (fun x => decide (x.2 = 0) &&
        (List.range 4).any (fun i => d.isSet (F.LNK_L_CFG_EN (4 * x.1 + i)))) ||
      (blockAt a 0x202000 0x100 8).any (fun x => decide (x.2 = 0) && decide (d.sState x.1 ≠ 0))
  | 3 => (blockAt a 0x301000 0x100 8).any (fun x => decide (x.2 = 0) && decide (d.sState x.1 ≠ 0)) ||
      (blockAt a 0x302000 0x100 16).any (fun x => decide (x.2 ∈ [0, 4, 0x10, 0x14]) && d.zBusy x.1) ||
      (blockAt a 0x308000 0x800 8).any (fun x => decide (d.fld (F.CHN_C_STAT_ACTIVE x.1) = x.2 / 0x400) || d.hasReq [.corrSwap] x.1) ||
      (blockAt a 0x30c000 0x400 16).any (fun x => d.zBusy x.1)
  | 4 => (blockAt a 0x400100 4 64).any (fun x => d.betaUsed x.1)
  | 6 => (blockAt a 0x601000 0x40 64).any (fun x => decide (x.2 < 0x1C) && decide (d.tState x.1 ≠ 0)) ||
      (blockAt a 0x690000 0x80 64).any (fun x => (decide (x.2 < 0x30) || decide (x.2 = 0x38)) &&
        !decide (d.acState x.1 ∈ [acOff, acDone]))
  | 7 => (blockAt a 0x710000 0x40 4096).any (fun x => decide (x.2 < 0x10) && d.qOn x.1)
  | 8 => (blockAt a 0x801000 0x80 32).any (fun x => decide (x.2 < 0x40) && decide (d.zState x.1 ∈ [1, 2, 5])) ||
      (blockAt a 0x804000 0x80 8).any (fun x => decide (x.2 < 0x40) && decide (d.uState x.1 ∈ [1, 2, 5]))
  | 9 => decide (a = Reg.MEM_SCRUB_CFG) && decide (bitsOf v 0 16 = 0)
  | 10 => (blockAt a 0xa90000 0x80 64).any (fun x => decide (8 ≤ x.2) && decide (x.2 < 0x14) && d.dmaOn x.1) ||
      (blockAt a 0xa81000 0x20 256).any (fun x => d.rgnValid x.1)
  | 11 => (blockAt a 0xb01000 0x40 16).any (fun x => decide (x.2 ∈ [0, 0xC, 0x10]) && d.isSet (F.EVT_I_STAT_ENABLED x.1)) ||
      (blockAt a 0xb02000 0x80 8).any (fun x => decide (x.2 < 0x10) && decide (d.stState x.1 ≠ 0))
  | 12 => (blockAt a 0xc01000 0x800 8).any (fun x =>
        ((decide (x.2 < 0x10) || (decide (0x100 ≤ x.2) && decide (x.2 < 0x180))) && decide (d.fld (F.MON_M_STAT_STATE x.1) ≠ 0)) ||
        ((decide (x.2 = 0x20) || (decide (0x180 ≤ x.2) && decide (x.2 < 0x190))) && d.isSet (F.MON_M_STAT_INJ_ARMED x.1))) ||
      (decide (a = Reg.CAL_REF_UV) && !refUvOk (bitsOf v 0 20))
  | 13 => (blockAt a 0xd00100 0x20 9).any (fun x => decide (x.2 = 0) && (decide (bitsOf v 0 16 = 0) || decide (bitsOf v 16 12 = 0)))
  | 14 => (decide (d.casRole ≠ caNone) && (decide (a = Reg.CAS_CFG) || (blockAt a 0xe01000 0x20 16).any (fun x => decide (x.2 = 0)) ||
        (blockAt a 0xe02000 0x20 6).any (fun x => decide (x.2 ∈ [4, 8])))) ||
      (decide (a = Reg.CAS_MARK_PERIOD) && decide (bitsOf v 0 20 = 0))
  | 15 => (decide (d.pState ≠ 0) && (decide (a = Reg.PNL_CFG) || (blockAt a 0xf00040 0x18 1).isSome ||
        (blockAt a 0xf01000 0x40 4).any (fun x => decide (x.2 ∈ [0, 0x10, 0x14, 0x18])))) ||
      (decide (a = Reg.PNL_WMARK) && decide (15360 < v))
  | _ => false

/-- Writes that are refused with a code of their own: a forwarding entry that may not run (R555), and PNL_CFG.EN over lanes in use (R562). -/
def Device.refusedWrite (d : Device) (a v : Nat) : Option Device :=
  match blockAt a 0xe03000 0x10 16 with
  | some (f, 0) =>
    let q := bitsOf v 0 12
    if bitAt v 31 ∧ !d.isSet (F.CAS_F_CFG_EN f) ∧ (!d.qOn q ∨ !d.isSet (F.QUE_Q_CFG_HOST q) ∨ d.zReads q) then
      some (d.setFld F.CAS_CMD_STAT_CODE cNOTARMED)
    else none
  | _ =>
    if a = Reg.PNL_CFG ∧ bitAt v 0 ∧ !d.isSet F.PNL_CFG_EN ∧
        (List.range 4).any (fun i => (List.range 8).any (fun s => d.isSet (F.LNK_E_STAT_RUNNING s) && bitAt (d.rdN (Reg.LNK_E_LANES s)) (20 + i)) ||
          (List.range 6).any (fun l => d.isSet (F.CAS_L_CFG_RUN l) && bitAt (d.rdN (Reg.CAS_L_TX l)) (20 + i))) then
      some (d.setFld F.PNL_STAT_CODE cBUSY)
    else none

/-! What a write does. -/

/-- The RW bits of a register that have a row of their own in the table of operations: writes of those fields are those rows. -/
def ownRows (a v : Nat) : Nat :=
  if (blockAt a 0x201000 0x40 32).any (fun x => decide (x.2 = 0)) then 1
  else if (blockAt a 0x203000 0x20 8).any (fun x => decide (x.2 = 0)) then 1
  else if (blockAt a 0xa90000 0x80 64).any (fun x => decide (x.2 = 0)) then 1
  else if (blockAt a 0xa90000 0x80 64).any (fun x => decide (x.2 = 0x14)) then 0xFFFFFFFF
  else if (blockAt a 0xb01000 0x40 16).any (fun x => decide (x.2 = 4)) then 0xFFFFFFFF
  else if (blockAt a 0xe02000 0x20 6).any (fun x => decide (x.2 = 0)) then (if bitAt v 0 then 0xFFFFFFFF else 0)
  else if (blockAt a 0x710000 0x40 4096).any (fun x => decide (x.2 = 0x1C)) then (if bitAt v 16 then 0xFFFFFFFF else 0)
  else if (blockAt a 0x1000000 0x80000 32).any (fun x => decide (0x71000 ≤ x.2) && decide (x.2 < 0x71010)) then 0xFFFFFFFF
  else 0

/-- VALID of a lane group (R61): a legal rate for its framing. Transmit groups run 1.0 to 32.0 Gbit/s. -/
def rateValid (tx lark : Bool) (rate : Nat) : Bool :=
  if tx then decide (1000 ≤ rate) && decide (rate ≤ 32000)
  else if lark then decide (3125 ≤ rate) && decide (rate ≤ 12500) && decide (rate * 4 % 625 = 0)
  else decide (8000 ≤ rate) && decide (rate ≤ 32000)

/-- A lane group after a write of its configuration: VALID, and a PLL that must lock again where the rate or the framing has changed. -/
def Device.groupWritten (d0 d : Device) (a : Nat) (tx : Bool) : Device :=
  let v := d.rdN a
  let same := decide (bitsOf v 0 17 = bitsOf (d0.rdN a) 0 17)
  let ok := rateValid tx (bitAt v 16) (bitsOf v 0 16)
  d.wr a (setBits (setBits v 24 1 (if ok then 1 else 0)) 25 1 (if same then bitsOf v 25 1 else 0))

/-- What follows a write of `v` that has been carried out; `d0` is the device before it. -/
def Device.written (d0 d : Device) (a v : Nat) : Device :=
  match a / 0x100000 with
  | 1 =>
    match blockAt a 0x100400 0x20 8 with
    | some (o, 8) => d.setCko o { d.cko o with cal := some .device }
    | _ => d
  | 2 =>
    match blockAt a 0x200100 0x10 8, blockAt a 0x200200 0x10 6, blockAt a 0x202000 0x100 8 with
    | some (_, 0), _, _ => d0.groupWritten d a false
    | _, some (_, 0), _ => d0.groupWritten d a true
    | _, _, some (s, o) => if o = 8 ∨ o = 12 then d.applyPeriod s (decide (o = 8)) (decide (o = 12)) else d
    | _, _, _ => d
  | 7 =>
    match blockAt a 0x710000 0x40 4096 with
    | some (q, 0x18) => d.qIrq q
    | _ => d
  | 10 => if (blockAt a 0xa10000 0x10 2048).any (fun x => decide (x.2 = 0xC)) then d.msixPending else d
  | 13 =>
    if a = Reg.ROT_CMD then
      (if bitAt v 31 ∧ bitsOf v 16 2 ∉ [1, 2] then d.setFld F.ROT_CMD_STAT_CODE cUNSUP else d)
    else if a < 0xd80000 then d0.rotEnables d else d
  | 14 =>
    match blockAt a 0xe03000 0x10 16 with
    | some (f, 0) => d.casForward (d.fld (F.CAS_F_CFG_SQUEUE f))
    | _ => d
  | 15 => if a = Reg.PNL_WMARK then d.urgentFrom d0.urgent else d
  | _ => d

/-- The flag registers of R10 and R11: the address of member 0, the distance and number of members, and the companion counters of member 0 in
the order of the flags' bits (0: the flag has none). -/
def flagRows : List (Nat × Nat × Nat × List Nat) := [
  (0x10, 4, 1, [0x20, 0x24, 0x28, 0x2c, 0x30]),
  (0x100010, 4, 1, [0x100020, 0x100024, 0x100028, 0x10002c, 0x100030]),
  (0x201008, 0x40, 32, [0x201010, 0x201014, 0x201018, 0x20101c, 0x201020, 0x201024, 0]),
  (0x202028, 0x100, 8, [0x202040, 0x202044, 0x202048, 0x20204c, 0x202050, 0x202054, 0x202058, 0x20205c]),
  (0x301018, 0x100, 8, [0x30101c]),
  (0x302038, 0x100, 16, [0x30203c]),
  (0x400060, 4, 1, [0x400070, 0x400074, 0x400078, 0x40007c]),
  (0x500030, 4, 1, [0x500040, 0x500044]),
  (0x580040, 4, 1, [0x580050, 0x580054, 0x580058, 0x58005c]),
  (0x600010, 4, 1, [0x600020, 0x600024, 0x600028, 0x60002c, 0x600030]),
  (0x680010, 4, 1, [0x680020, 0x680024, 0x680028, 0x68002c]),
  (0x700010, 4, 1, [0x700020, 0x700024, 0x700028]),
  (0x800010, 4, 1, [0x800020, 0x800024, 0x800028, 0x80002c]),
  (0x900010, 4, 1, [0x900020, 0x900024, 0x900038, 0x90003c, 0x900034]),
  (0xa00010, 4, 1, [0xa00020, 0xa00024, 0xa00028, 0xa0002c, 0xa00030]),
  (0xa80010, 4, 1, [0xa80020, 0xa80024, 0xa80028]),
  (0xb00014, 4, 1, [0xb00020, 0xb00024, 0xb00028, 0xb0002c, 0xb00030]),
  (0xc00010, 4, 1, [0xc00020, 0xc00024, 0xc00028, 0xc0002c]),
  (0xc80010, 4, 1, [0xc80020, 0xc80024, 0xc80028]),
  (0xd00010, 4, 1, [0xd00024, 0xd00028, 0xd0002c, 0xd00030, 0xd00034, 0xd0003c]),
  (0xd80010, 4, 1, [0xd80020, 0xd80024, 0xd80028]),
  (0xe00010, 4, 1, [0xe00020, 0xe00024, 0xe00028, 0xe0002c, 0xe00030, 0xe00034, 0xe00038, 0xe0003c, 0xe00040, 0xe00044]),
  (0xf00010, 4, 1, [0xf00020, 0xf00024, 0xf00028, 0xf0002c]),
  (0x1060010, 0x80000, 32, [0x1060020, 0x1060024, 0x1060028, 0x106002c, 0]),
  (0x1071014, 0x80000, 32, [0x1071018])]

/-- Hardware sets flags of the register at `a` in this cycle (R10, R11): each is set, and its companion counter counts. -/
def Device.hwFlags (d : Device) (a hw : Nat) : Device :=
  match flagRows.find? (fun r => (blockAt a r.1 r.2.1 r.2.2.1).any (fun x => decide (x.2 = 0))) with
  | none => d
  | some (base, _, _, cnts) =>
    (List.range cnts.length).foldl (fun d b =>
      if !bitAt hw b then d
      else
        let d := d.setFld ⟨a, ⟨b, 1⟩⟩ 1
        let c := cnts.getD b 0
        if c = 0 then d else d.inc (c + (a - base))) d

/-- Write the RW fields of a register but those of `mask`, and clear the W1C flags written 1; then hardware's flags of the same cycle are set
(R3, R4, R10). -/
def Device.putReg (d : Device) (a v mask hwSet : Nat) : Device :=
  match regRow a with
  | none => d
  | some r =>
    let old := d.rdN a
    let rw := r.rw - Nat.land r.rw mask
    let clr := Nat.land old (Nat.land v r.w1c)
    (d.wr a (Nat.lor (Nat.land v rw) (old - Nat.land old rw) - clr)).hwFlags a (Nat.land hwSet r.w1c)

/-- A write of a whole register that is no half of a pair. -/
def Device.regWrite (d : Device) (a v hwSet : Nat) : Device :=
  if d.locked a v then d.badAccess
  else
    match d.refusedWrite a v with
    | some d' => d'
    | none => d.written (d.putReg a v (ownRows a v) hwSet) a v

/-- A write of _LO is held (R8). -/
def Device.holdLo (d : Device) (a v : Nat) : Device :=
  if d.locked a v then d.badAccess
  else { d with loHeld := Sparse.set (fun _ => none) d.loHeld a (some (BitVec.ofNat 32 v)) }

/-- A write of both halves of a pair in one cycle, which is a write of _LO and of _HI: it leaves no _LO held (R8). DESIGN CHOICE (log entry 19): a
write that a lock discards has no effect at all, so that a held _LO stays held. -/
def Device.pairWrite (d : Device) (lo v : Nat) : Device :=
  if d.locked lo v then d.badAccess
  else
    let d' : Device := { d with loHeld := Sparse.set (fun _ => none) d.loHeld lo none }
    d'.written ((d'.wrRw lo (v % 2 ^ 32)).wrRw (lo + 4) (v / 2 ^ 32 % 2 ^ 32)) lo v

/-- A write of _HI applies the held _LO value with it (R8); with none held the low half keeps its value. DESIGN CHOICE (log entry 19): a write of _HI
that a lock discards leaves the _LO held. -/
def Device.applyHi (d : Device) (a v : Nat) : Device :=
  let lo := a - 4
  if d.locked a v then d.badAccess
  else
    let held : Option Word := Sparse.get (fun _ => none) d.loHeld lo
    let low := match held with | some w => w.toNat | none => d.rdN lo
    d.pairWrite lo (low + v % 2 ^ 32 * 2 ^ 32)

/-- The half that a register is of a writable pair: 1 low, 2 high, 0 none. -/
def pairHalf (a : Nat) : Nat :=
  match regRow a with
  | some r => if decide (r.rw = 0) && (match regRow (if r.half = 1 then a + 4 else a - 4) with | some x => decide (x.rw = 0) | none => true) then 0 else r.half
  | none => 0

/-- A 32-bit write of a register, pair halves included. -/
def Device.regStore (d : Device) (a v hwSet : Nat) : Device :=
  match pairHalf a with
  | 1 => d.holdLo a v
  | 2 => d.applyHi a v
  | _ => d.regWrite a v hwSet

/-- A write to a context descriptor (R49). -/
def Device.ctxWrite (d : Device) (off : Nat) (data : List Byte) : Device :=
  if d.active (off / 0x400) then d.badAccess else { d with ctx := memWrite d.ctx off data }

/-- A host write of 32 bits, or of a pair, through BAR0. -/
def Device.bar0Write (d : Device) (a len v hwSet : Nat) : Device :=
  if !bar0Fits a len ∨ !d.windowOpen a then d.badAccess
  else
    match bar0Loc a with
    | .rsv => d
    | .ctx off => d.ctxWrite off (bytesLE 4 v)
    | .prog k off => if d.clusterRunning k then d.badAccess else { d with prog := memWrite d.prog (k * 0x40000 + off) (bytesLE 4 v) }
    | .data k off =>
      match d.apertureAt k off with
      | some (0, p) => Device.bankUse { d with xmem := memWrite d.xmem p (bytesLE 4 v) } k
      | some (1, p) => Device.bankUse { d with ymem := memWrite d.ymem p (bytesLE 4 v) } k
      | some (_, p) => d.localWrite p (bytesLE 4 v)
      | none => d.badAccess
    | .reg => if len = 8 then (if pairHalf a = 1 then d.pairWrite a v else d) else d.regStore a v hwSet

/-- A host write through BAR4 to a register of a queue's window (R371): QW_CTL with every operation that it sets, and QW_VIEW. -/
def Device.bar4Write (d : Device) (q off len v : Nat) : Device :=
  if !d.memoryOpen ∨ 0x800 ≤ off ∨ len ≠ 4 ∨ off % 4 ≠ 0 then d.badAccess
  else if !d.qOn q ∨ !d.isSet (F.QUE_Q_CFG_HOST q) then d.badAccess
  else if off = 0x010 then d.qwCtl q v
  else if off = 0x014 then d.setQueue q { d.queue q with view := v % 2 ^ 25 }
  else d

/-! The rows. An address at or above 2^32 names BAR4 (R52), at the offset left. -/

/-- The bytes of a write count as received. -/
def Device.received (d : Device) (len : Nat) : Device := d.add64 Reg.HIF_RX_BYTES_LO len

def execHostRegisterWrite (addr len val hwSet : Nat) (s : State) : Host.Outcome State Fault Refusal :=
  s.run (fun d =>
    let d := d.received len
    if addr < 2 ^ 32 then d.bar0Write addr len val hwSet
    else d.bar4Write ((addr - 2 ^ 32) / 0x1000 % 4096) (addr % 0x1000) len val)

def execLoWriteHold (addr val : Nat) (s : State) : Host.Outcome State Fault Refusal :=
  s.run (fun d =>
    let d := d.received 4
    if !bar0Fits addr 4 ∨ !d.windowOpen addr then d.badAccess
    else if pairHalf addr = 1 then d.holdLo addr val else d)

def execHiWriteApply (addr val : Nat) (s : State) : Host.Outcome State Fault Refusal :=
  s.run (fun d =>
    let d := d.received 4
    if !bar0Fits addr 4 ∨ !d.windowOpen addr then d.badAccess
    else if pairHalf addr = 2 then d.applyHi addr val else d)

/-- A host read through BAR0 or BAR4: of _LO, with what it latches, of _HI, and of any other register or memory. -/
def execLoReadLatch (addr len : Nat) (s : State) : Host.Outcome State Fault Refusal :=
  s.run (fun d => Device.readDone
    (if addr < 2 ^ 32 then d.bar0Read addr len false
      else d.bar4Read ((addr - 2 ^ 32) / 0x1000 % 4096) (addr % 0x1000) len) len)

/-- A host read of a counter; `event`: an event falls in the cycle of the read (R12). -/
def execCounterRead (addr : Nat) (event : Bool) (s : State) : Host.Outcome State Fault Refusal :=
  s.run (fun d => Device.readDone (d.bar0Read addr 4 event) 4)

/-- A host read through BAR2 (R51, R410): bytes at or above 48 GiB read as all ones. -/
def execBar2Read (off len : Nat) (s : State) : Host.Outcome State Fault Refusal :=
  s.run (fun d =>
    let d := d.add64 Reg.HIF_TX_BYTES_LO len
    if !d.memoryOpen then { d.badAccess with hostRead := allOnes len, hostReadEp := false }
    else
      let inside := min len (Config.memSize - off)
      let v := memLE d.mem off inside + allOnes (len - inside) * 2 ^ (8 * inside)
      let d := if inside = len then d.moved 4 else (d.moved 4).badAccess
      { d with hostRead := v, hostReadEp := d.poisoned off inside })

/-- A host write through BAR2 (R51). -/
def execBar2Write (off : Nat) (data : List Byte) (s : State) : Host.Outcome State Fault Refusal :=
  s.run (fun d =>
    let d := d.received data.length
    if !d.memoryOpen then d.badAccess
    else
      let inside := min data.length (Config.memSize - off)
      let d := (d.store off (data.take inside)).moved 4
      if inside = data.length then d else d.badAccess)

/-- A write to a context descriptor (R49), from the host or from an engine. -/
def execContextWrite (c off : Nat) (data : List Byte) (s : State) : Host.Outcome State Fault Refusal :=
  s.run (fun d => if c < 4096 ∧ off + data.length ≤ 0x400 then d.ctxWrite (c * 0x400 + off) data else d)

end Sys2Proof.Machine
end

