-- ==== Sys2Proof/Machine/Actions.lean ====
section
/-! DEFINITION. A register write with everything it starts: the RW fields (Access), and the fields and action bits that have rows of their own in
the table of operations. It serves the writes that are not host commands: the REG pairs of an image (R332) and an engine's far
stores to its cluster's registers (R267). -/

namespace Sys2Proof.Machine

/-- The effect of a row on the device. -/
def Device.via (d : Device) (f : State → Host.Outcome State Fault Refusal) : Device :=
  match f { dev := d, pending := [] } with
  | .next s => s.dev
  | _ => d

/-- Carry out the rows of a control register's action bits, lowest first. -/
def Device.bits (d : Device) (v : Nat) : List (Nat × (State → Host.Outcome State Fault Refusal)) → Device
  | [] => d
  | (b, f) :: fs => Device.bits (if bitAt v b then d.via f else d) v fs

/-- The rows of a control register's action bits, by its address. -/
def actionRows (a v : Nat) : List (Nat × (State → Host.Outcome State Fault Refusal)) :=
  if a = Reg.CLK_CHANGE_CTL then [(0, execClkChangeCtlGo)]
  else if a = Reg.CLK_PROBE then [(31, execClkProbeGo (bitsOf v 0 8))]
  else if a = Reg.CHN_RESET_CTL then [(0, execChnResetCtlGo)]
  else if a = Reg.XF_SCHED_CTL then [(0, execXfSchedCtlGo), (1, execXfSchedCtlStop)]
  else if a = Reg.DET_CLR_CTL then [(0, execDetClrCtlGo)]
  else if a = Reg.DEN_CMD_CTL then [(0, execDenCmdCtlSnap), (1, execDenCmdCtlClear)]
  else if a = Reg.TRG_SW_CTL then [(0, execTrgSwCtlFire)]
  else if a = Reg.MEM_REPAIR_CTL then
    (if bitAt v 0 then [(0, execMemRepairCtlSoft (bitAt v 1))] else []) ++ [(1, execMemRepairCtlHard (bitAt v 0))]
  else if a = Reg.DMA_RGN_CTL then
    [(8, execDmaRgnCtlSet (bitsOf v 0 8)), (9, execDmaRgnCtlClear (bitsOf v 0 8))]
  else if a = Reg.EVT_SET_CTL then [(0, execEvtSetCtlGo)]
  else if a = Reg.ROT_CMD then
    if bitsOf v 16 2 = 1 then [(31, execRotCmdStep (bitsOf v 0 11) (bitsOf v 12 3))]
    else if bitsOf v 16 2 = 2 then [(31, execRotCmdWithdraw (bitsOf v 0 11) (bitsOf v 12 3))]
    else []
  else if a = Reg.BST_CMD then [(31, execBstCmdGo (bitsOf v 0 11) (bitsOf v 12 3))]
  else if a = Reg.CAS_CTL then
    [(0, execCasCtlForm), (1, execCasCtlCal), (2, execCasCtlReset), (3, execCasCtlTakeover), (4, execCasCtlLeave)]
  else if a = Reg.PNL_CTL then [(0, execPnlCtlStart), (1, execPnlCtlStop), (2, execPnlCtlCommit)]
  else if a = Reg.PNL_AUX_CMD then [(31, execPnlAuxCmdGo (v % 2 ^ 31))]
  else
    match a / 0x100000 with
    | 1 =>
      match blockAt a 0x100400 0x20 8 with
      | some (o, 0x0C) => [(0, execCkoCtlStart o), (1, execCkoCtlStop o)]
      | _ => []
    | 2 =>
      match blockAt a 0x202000 0x100 8 with
      | some (t, o) =>
        if Reg.LNK_S_CTL t = 0x202000 + 0x100 * t + o then [(0, execLnkSCtlStart t), (1, execLnkSCtlStop t), (2, execLnkSCtlRate t)] else []
      | none => []
    | 3 =>
      match blockAt a 0x301000 0x100 8, blockAt a 0x302000 0x100 16 with
      | some (t, 0x08), _ => [(0, execChnCCtlSwap t)]
      | _, some (z, 0x18) => [(0, execChnZCtlStart z), (1, execChnZCtlStop z), (2, execChnZCtlTune z)]
      | _, _ => []
    | 6 =>
      match blockAt a 0x601000 0x40 64, blockAt a 0x690000 0x80 64 with
      | some (n, 0x1C), _ => [(0, execTrgTCtlArm n), (1, execTrgTCtlDisarm n)]
      | _, some (b, 0x3C) => [(0, execAcqBCtlArm b), (1, execAcqBCtlStop b), (2, execAcqBCtlDisarm b)]
      | _, _ => []
    | 7 =>
      match blockAt a 0x710000 0x40 4096 with
      | some (q, 0x10) => [(0, execQueQCtlEnable q), (1, execQueQCtlDisable q)]
      | some (q, 0x1C) => [(16, execQueQIrqArm q (bitsOf v 0 11))]
      | _ => []
    | 8 =>
      match blockAt a 0x801000 0x80 32, blockAt a 0x804000 0x80 8 with
      | some (z, 0x40), _ => [(0, execCmpZCtlGo z), (1, execCmpZCtlCont z), (2, execCmpZCtlEnd z)]
      | _, some (u, 0x40) => [(0, execCmpUCtlGo u), (1, execCmpUCtlEnd u)]
      | _, _ => []
    | 10 =>
      match blockAt a 0xa90000 0x80 64 with
      | some (c, 0x1C) => [(0, execDmaCCtlResume c)]
      | _ => []
    | 11 =>
      match blockAt a 0xb01000 0x40 16, blockAt a 0xb02000 0x80 8 with
      | some (n, 0x14), _ => [(0, execEvtICtlEnable n), (1, execEvtICtlDisable n)]
      | _, some (t, 0x18) => [(0, execEvtSCtlArm t), (1, execEvtSCtlStop t)]
      | _, _ => []
    | 12 =>
      match blockAt a 0xc01000 0x800 8 with
      | some (m, 0x18) =>
        [(0, execMonMCtlStart m), (1, execMonMCtlStop m), (2, execMonMCtlArmInj m), (3, execMonMCtlDisarmInj m), (4, execMonMCtlInject m)]
      | _ => []
    | _ =>
      match blockAt a 0x1000000 0x80000 32 with
      | some (k, o) =>
        match blockAt o 0x61000 0x20 16 with
        | some (i, 0) => [(0, execClECtlStart (16 * k + i)), (1, execClECtlStop (16 * k + i))]
        | _ => []
      | none => []

/-- A field that is a row of its own, written with the rest of its register; `byHost`: the side that writes a mailbox index. -/
def Device.ownField (d : Device) (a v : Nat) (byHost : Bool) : Device :=
  match a / 0x100000 with
  | 2 =>
    match blockAt a 0x201000 0x40 32, blockAt a 0x203000 0x20 8 with
    | some (l, 0), _ => if bitAt v 0 then d.via (execLaneEnable l (bitAt v 1)) else d.via (execLaneDisable l)
    | _, some (t, 0) => d.via (execExportRun t v)
    | _, _ => d
  | 10 =>
    match blockAt a 0xa90000 0x80 64 with
    | some (c, 0) => if bitAt v 0 then d.via (execDmaCCfgEnable c v) else d.via (execDmaCCfgDisable c v 0)
    | some (c, 0x14) => d.via (execDmaCTailWrite c v)
    | _ => d
  | 11 =>
    match blockAt a 0xb01000 0x40 16 with
    | some (n, 4) => d.via (execThresholdWrite n v)
    | _ => d
  | 14 =>
    match blockAt a 0xe02000 0x20 6 with
    | some (l, 0) => if bitAt v 0 then d.via (execCasLinkRun l (bitsOf v 8 4)) else d
    | _ => d
  | _ =>
    match blockAt a 0x1000000 0x80000 32 with
    | some (k, o) => if 0x71000 ≤ o ∧ o < 0x71010 then d.mbIndex k (o - 0x71000) (v % 65536) byHost else d
    | none => d

/-- A 32-bit register write with everything it starts. -/
def Device.busWrite (d : Device) (a v : Nat) (byHost : Bool) : Device :=
  ((d.regStore a v 0).ownField a v byHost).bits v (actionRows a v)

end Sys2Proof.Machine
end

