-- ==== Sys2Proof/Machine/Encoding.lean ====
section
/-! DEFINITION. The instruction words of Disoex (R297 to R324): the words of an instruction, the instruction that words spell, and the faults of an
engine whose words spell none or lie past the end of program memory (R271, R299, R308). -/

namespace Sys2Proof.Machine

/-- The second word's half for one move (R300). -/
def moveWord : Option Move → Nat
  | none => 0
  | some m => 0x8000 + (if m.store then 0x4000 else 0) + (if m.wide then 0x2000 else 0) + m.cn * 2 ^ 9 + m.pn * 2 ^ 6 + m.mode * 2 ^ 3

/-- The move that a half of the second word spells (R300). -/
def moveOf (h : Nat) : Option Move :=
  if bitAt h 15 then some ⟨bitAt h 14, bitAt h 13, bitsOf h 9 4, bitsOf h 6 3, bitsOf h 3 3⟩ else none

/-- The words of an instruction: the first, and the second of the extended form (R298). -/
abbrev Words := Nat × Option Nat

/-- One word. -/
def word1 (op rest : Nat) : Option Words := some (op * 2 ^ 26 + rest, none)

/-- The words of an immediate form: `rest` holds the other fields (R298, R303). -/
def immWords (op rest : Nat) : Imm → Option Words
  | .short n => some (op * 2 ^ 26 + rest + n, none)
  | .long n => some (2 ^ 31 + op * 2 ^ 26 + rest, some n)

/-- The words of a complex instruction (R298, R306, R307). -/
def cxWords (op rest : Nat) : Moves → Option Words
  | none => some (op * 2 ^ 26 + rest, none)
  | some (x, y) => some (2 ^ 31 + op * 2 ^ 26 + rest, some (moveWord x * 2 ^ 16 + moveWord y))

/-- The register form of the integer ALU (R302). -/
def aluWord (fn a b c : Nat) : Option Words := word1 0x01 (a * 2 ^ 21 + b * 2 ^ 16 + c * 2 ^ 11 + fn)

/-- Group A (R306). -/
def groupA (sub a x y : Nat) (mv : Moves) : Option Words := cxWords 0x10 (sub * 2 ^ 23 + a * 2 ^ 20 + x * 2 ^ 16 + y * 2 ^ 12) mv

/-- Group B with c registers and accumulators (R307). -/
def groupB (sub cd cs ct ad as : Nat) (mv : Moves) : Option Words :=
  cxWords 0x11 (sub * 2 ^ 22 + cd * 2 ^ 18 + cs * 2 ^ 14 + ct * 2 ^ 10 + ad * 2 ^ 7 + as * 2 ^ 4) mv

/-- Group B with a scale (R307). -/
def groupBsh (sub cd cs sh as : Nat) (mv : Moves) : Option Words :=
  cxWords 0x11 (sub * 2 ^ 22 + cd * 2 ^ 18 + cs * 2 ^ 14 + sh * 2 ^ 8 + as * 2 ^ 4) mv

/-- Group B with a general register (R307). -/
def groupBgi (sub gi ct ad as : Nat) (mv : Moves) : Option Words :=
  cxWords 0x11 (sub * 2 ^ 22 + gi * 2 ^ 17 + ct * 2 ^ 10 + ad * 2 ^ 7 + as * 2 ^ 4) mv

/-- A bit as a number. -/
def bitN (b : Bool) : Nat := if b then 1 else 0

/-- The words of a Disoex instruction; other commands have none. -/
def encode : Instr → Option Words
  | .nop _ => word1 0x00 0
  | .halt _ => word1 0x00 (0x01 * 2 ^ 20)
  | .sleep _ => word1 0x00 (0x02 * 2 ^ 20)
  | .sync _ => word1 0x00 (0x03 * 2 ^ 20)
  | .time _ g => word1 0x00 (0x04 * 2 ^ 20 + g * 2 ^ 15)
  | .tprpg _ g _ => word1 0x00 (0x30 * 2 ^ 20 + g * 2 ^ 15)
  | .tscan _ g _ => word1 0x00 (0x31 * 2 ^ 20 + g * 2 ^ 15)
  | .tmisr _ g _ => word1 0x00 (0x32 * 2 ^ 20 + g * 2 ^ 15)
  | .add _ a b c => aluWord 0x00 a b c
  | .sub _ a b c => aluWord 0x01 a b c
  | .and _ a b c => aluWord 0x02 a b c
  | .or _ a b c => aluWord 0x03 a b c
  | .xor _ a b c => aluWord 0x04 a b c
  | .shl _ a b c => aluWord 0x05 a b c
  | .shr _ a b c => aluWord 0x06 a b c
  | .sar _ a b c => aluWord 0x07 a b c
  | .mul _ a b c => aluWord 0x08 a b c
  | .mulh _ a b c => aluWord 0x09 a b c
  | .mulhu _ a b c => aluWord 0x0A a b c
  | .min _ a b c => aluWord 0x0B a b c
  | .max _ a b c => aluWord 0x0C a b c
  | .minu _ a b c => aluWord 0x0D a b c
  | .maxu _ a b c => aluWord 0x0E a b c
  | .clz _ a b => aluWord 0x0F a b 0
  | .popc _ a b => aluWord 0x10 a b 0
  | .addi _ a b i => immWords 0x02 (a * 2 ^ 21 + b * 2 ^ 16) i
  | .andi _ a b i => immWords 0x03 (a * 2 ^ 21 + b * 2 ^ 16) i
  | .ori _ a b i => immWords 0x04 (a * 2 ^ 21 + b * 2 ^ 16) i
  | .xori _ a b i => immWords 0x05 (a * 2 ^ 21 + b * 2 ^ 16) i
  | .shli _ a b n => word1 0x06 (a * 2 ^ 21 + b * 2 ^ 16 + n)
  | .shri _ a b n => word1 0x06 (a * 2 ^ 21 + b * 2 ^ 16 + 1 * 2 ^ 14 + n)
  | .sari _ a b n => word1 0x06 (a * 2 ^ 21 + b * 2 ^ 16 + 2 * 2 ^ 14 + n)
  | .cmpi _ b i => immWords 0x07 (b * 2 ^ 16) i
  | .movr _ a b => word1 0x08 (a * 2 ^ 19 + b * 2 ^ 12)
  | .ld _ g p m s u => word1 0x09 (g * 2 ^ 21 + p * 2 ^ 18 + m * 2 ^ 15 + s * 2 ^ 13 + bitN u * 2 ^ 12)
  | .st _ g p m s => word1 0x0A (g * 2 ^ 21 + p * 2 ^ 18 + m * 2 ^ 15 + s * 2 ^ 13)
  | .ldc _ c p m w => word1 0x0B (c * 2 ^ 21 + p * 2 ^ 18 + m * 2 ^ 15 + bitN w * 2 ^ 14)
  | .stc _ c p m w => word1 0x0B (1 * 2 ^ 25 + c * 2 ^ 21 + p * 2 ^ 18 + m * 2 ^ 15 + bitN w * 2 ^ 14)
  | .br _ c o => word1 0x0C (c * 2 ^ 22 + o)
  | .bbc _ b o => word1 0x0D (b * 2 ^ 20 + o)
  | .bbs _ b o => word1 0x0D (1 * 2 ^ 25 + b * 2 ^ 20 + o)
  | .call _ o => word1 0x0E o
  | .callr _ g => word1 0x0E (1 * 2 ^ 23 + g * 2 ^ 16)
  | .jmp _ g => word1 0x0E (2 * 2 ^ 23 + g * 2 ^ 16)
  | .ret _ => word1 0x0E (3 * 2 ^ 23)
  | .brk _ c => word1 0x0E (4 * 2 ^ 23 + c * 2 ^ 19)
  | .rep _ (.imm n) b => word1 0x0F (b * 2 ^ 12 + n)
  | .rep _ (.long n) b => some (2 ^ 31 + 0x0F * 2 ^ 26 + b * 2 ^ 12, some n)
  | .rep _ (.reg g) b => word1 0x0F (1 * 2 ^ 25 + b * 2 ^ 12 + g)
  | .cmac _ a x y mv => groupA 0 a x y mv
  | .cmacc _ a x y mv => groupA 1 a x y mv
  | .cmsu _ a x y mv => groupA 2 a x y mv
  | .cmul _ a x y mv => groupA 3 a x y mv
  | .cmulc _ a x y mv => groupA 4 a x y mv
  | .cpow _ a x mv => groupA 5 a x 0 mv
  | .cpowa _ a x mv => groupA 6 a x 0 mv
  | .aclr _ a mv => groupA 7 a 0 0 mv
  | .cnop _ mv => groupB 0 0 0 0 0 0 mv
  | .cmulr _ c s t mv => groupB 1 c s t 0 0 mv
  | .cadd _ c s t mv => groupB 2 c s t 0 0 mv
  | .csub _ c s t mv => groupB 3 c s t 0 0 mv
  | .cconj _ c s mv => groupB 4 c s 0 0 0 mv
  | .cmov _ c s mv => groupB 5 c s 0 0 0 mv
  | .arndH _ c a h mv => groupBsh 6 c 0 h a mv
  | .arndW _ c a h mv => groupBsh 7 c 0 h a mv
  | .cscl _ c s h mv => groupBsh 8 c s h 0 mv
  | .aadd _ a b mv => groupB 9 0 0 0 a b mv
  | .amov _ a b mv => groupB 10 0 0 0 a b mv
  | .apeak _ a b g mv => groupBgi 11 g 0 a b mv
  | .cpeak _ a c g mv => groupBgi 12 g c a 0 mv
  | .ucmd _ k g => word1 0x12 (k * 2 ^ 22 + g * 2 ^ 17)
  | .qpush _ q n p => word1 0x13 (0 * 2 ^ 23 + q * 2 ^ 18 + n * 2 ^ 13 + p * 2 ^ 10)
  | .qpop _ q n p => word1 0x13 (1 * 2 ^ 23 + q * 2 ^ 18 + n * 2 ^ 13 + p * 2 ^ 10)
  | .qmark _ q => word1 0x13 (2 * 2 ^ 23 + q * 2 ^ 18)
  | .qrew _ q => word1 0x13 (3 * 2 ^ 23 + q * 2 ^ 18)
  | .qrel _ q => word1 0x13 (4 * 2 ^ 23 + q * 2 ^ 18)
  | .wait _ => word1 0x14 0
  | .evget _ c => word1 0x14 (1 * 2 ^ 23 + c * 2 ^ 19)
  | .evack _ => word1 0x14 (2 * 2 ^ 23)
  | .fld _ t g s u o => word1 0x15 (t * 2 ^ 21 + g * 2 ^ 16 + s * 2 ^ 14 + bitN u * 2 ^ 13 + o)
  | .fst _ t g s o => word1 0x16 (t * 2 ^ 19 + g * 2 ^ 14 + s * 2 ^ 12 + o)
  | .ffence _ => word1 0x16 (1 * 2 ^ 24)
  | .ftoi _ a b x => word1 0x17 (a * 2 ^ 21 + b * 2 ^ 16 + x * 2 ^ 9)
  | .itof _ a b x => word1 0x17 (a * 2 ^ 21 + b * 2 ^ 16 + 1 * 2 ^ 15 + x * 2 ^ 9)
  | _ => none

/-- The register form of the integer ALU, by FN (R302). -/
def aluOf (e w : Nat) : Option Instr :=
  let a := bitsOf w 21 5
  let b := bitsOf w 16 5
  let c := bitsOf w 11 5
  match bitsOf w 0 6 with
  | 0x00 => some (.add e a b c)
  | 0x01 => some (.sub e a b c)
  | 0x02 => some (.and e a b c)
  | 0x03 => some (.or e a b c)
  | 0x04 => some (.xor e a b c)
  | 0x05 => some (.shl e a b c)
  | 0x06 => some (.shr e a b c)
  | 0x07 => some (.sar e a b c)
  | 0x08 => some (.mul e a b c)
  | 0x09 => some (.mulh e a b c)
  | 0x0A => some (.mulhu e a b c)
  | 0x0B => some (.min e a b c)
  | 0x0C => some (.max e a b c)
  | 0x0D => some (.minu e a b c)
  | 0x0E => some (.maxu e a b c)
  | 0x0F => some (.clz e a b)
  | 0x10 => some (.popc e a b)
  | _ => none

/-- The system group, by FN (R324). -/
def systemOf (e w : Nat) : Option Instr :=
  let g := bitsOf w 15 5
  match bitsOf w 20 6 with
  | 0x00 => some (.nop e)
  | 0x01 => some (.halt e)
  | 0x02 => some (.sleep e)
  | 0x03 => some (.sync e)
  | 0x04 => some (.time e g)
  | 0x30 => some (.tprpg e g none)
  | 0x31 => some (.tscan e g none)
  | 0x32 => some (.tmisr e g none)
  | _ => none

/-- Group A, by SUB (R306). -/
def groupAOf (e w : Nat) (mv : Moves) : Option Instr :=
  let a := bitsOf w 20 3
  let x := bitsOf w 16 4
  let y := bitsOf w 12 4
  match bitsOf w 23 3 with
  | 0 => some (.cmac e a x y mv)
  | 1 => some (.cmacc e a x y mv)
  | 2 => some (.cmsu e a x y mv)
  | 3 => some (.cmul e a x y mv)
  | 4 => some (.cmulc e a x y mv)
  | 5 => some (.cpow e a x mv)
  | 6 => some (.cpowa e a x mv)
  | _ => some (.aclr e a mv)

/-- Group B, by SUB (R307). -/
def groupBOf (e w : Nat) (mv : Moves) : Option Instr :=
  let cd := bitsOf w 18 4
  let cs := bitsOf w 14 4
  let ct := bitsOf w 10 4
  let ad := bitsOf w 7 3
  let as := bitsOf w 4 3
  let sh := bitsOf w 8 6
  let gi := bitsOf w 17 5
  match bitsOf w 22 4 with
  | 0 => some (.cnop e mv)
  | 1 => some (.cmulr e cd cs ct mv)
  | 2 => some (.cadd e cd cs ct mv)
  | 3 => some (.csub e cd cs ct mv)
  | 4 => some (.cconj e cd cs mv)
  | 5 => some (.cmov e cd cs mv)
  | 6 => some (.arndH e cd as sh mv)
  | 7 => some (.arndW e cd as sh mv)
  | 8 => some (.cscl e cd cs sh mv)
  | 9 => some (.aadd e ad as mv)
  | 10 => some (.amov e ad as mv)
  | 11 => some (.apeak e ad as gi mv)
  | 12 => some (.cpeak e ad ct gi mv)
  | _ => none

/-- Calls, jumps and BREAK, by SUB (R308). -/
def callOf (e w : Nat) : Option Instr :=
  match bitsOf w 23 3 with
  | 0 => some (.call e (bitsOf w 0 16))
  | 1 => some (.callr e (bitsOf w 16 5))
  | 2 => some (.jmp e (bitsOf w 16 5))
  | 3 => some (.ret e)
  | 4 => some (.brk e (bitsOf w 19 4))
  | _ => none

/-- The queue instructions, by SUB (R316). -/
def queueInstr (e w : Nat) : Option Instr :=
  let q := bitsOf w 18 5
  let n := bitsOf w 13 5
  let p := bitsOf w 10 3
  match bitsOf w 23 3 with
  | 0 => some (.qpush e q n p)
  | 1 => some (.qpop e q n p)
  | 2 => some (.qmark e q)
  | 3 => some (.qrew e q)
  | 4 => some (.qrel e q)
  | _ => none

/-- The event instructions, by SUB (R320). -/
def eventOf (e w : Nat) : Option Instr :=
  match bitsOf w 23 3 with
  | 0 => some (.wait e)
  | 1 => some (.evget e (bitsOf w 19 4))
  | 2 => some (.evack e)
  | _ => none

/-- The shift immediates, by kind (R303). -/
def shiftOf (e w : Nat) : Option Instr :=
  let a := bitsOf w 21 5
  let b := bitsOf w 16 5
  let n := bitsOf w 0 5
  match bitsOf w 14 2 with
  | 0 => some (.shli e a b n)
  | 1 => some (.shri e a b n)
  | 2 => some (.sari e a b n)
  | _ => none

/-- REP (R311). -/
def repOf (e w : Nat) (ext : Option Nat) : Option Instr :=
  let b := bitsOf w 12 13
  match ext with
  | some n => some (.rep e (.long n) b)
  | none => if bitAt w 25 then some (.rep e (.reg (bitsOf w 0 5)) b) else some (.rep e (.imm (bitsOf w 0 12)) b)

/-- The instruction that the fields of the words name, before their reserved bits are examined: by major opcode (R297). -/
def fieldsOf (e w : Nat) (ext : Option Nat) : Option Instr :=
  let a := bitsOf w 21 5
  let b := bitsOf w 16 5
  let i : Imm := match ext with | some n => .long n | none => .short (bitsOf w 0 16)
  let mv : Moves := ext.map (fun n => (moveOf (n / 2 ^ 16 % 2 ^ 16), moveOf (n % 2 ^ 16)))
  match bitsOf w 26 5 with
  | 0x00 => systemOf e w
  | 0x01 => aluOf e w
  | 0x02 => some (.addi e a b i)
  | 0x03 => some (.andi e a b i)
  | 0x04 => some (.ori e a b i)
  | 0x05 => some (.xori e a b i)
  | 0x06 => shiftOf e w
  | 0x07 => some (.cmpi e b i)
  | 0x08 => some (.movr e (bitsOf w 19 7) (bitsOf w 12 7))
  | 0x09 => some (.ld e a (bitsOf w 18 3) (bitsOf w 15 3) (bitsOf w 13 2) (bitAt w 12))
  | 0x0A => some (.st e a (bitsOf w 18 3) (bitsOf w 15 3) (bitsOf w 13 2))
  | 0x0B =>
    let c := bitsOf w 21 4
    let p := bitsOf w 18 3
    let m := bitsOf w 15 3
    if bitAt w 25 then some (.stc e c p m (bitAt w 14)) else some (.ldc e c p m (bitAt w 14))
  | 0x0C => some (.br e (bitsOf w 22 4) (bitsOf w 0 16))
  | 0x0D => if bitAt w 25 then some (.bbs e (bitsOf w 20 5) (bitsOf w 0 16)) else some (.bbc e (bitsOf w 20 5) (bitsOf w 0 16))
  | 0x0E => callOf e w
  | 0x0F => repOf e w ext
  | 0x10 => groupAOf e w mv
  | 0x11 => groupBOf e w mv
  | 0x12 => some (.ucmd e (bitsOf w 22 4) (bitsOf w 17 5))
  | 0x13 => queueInstr e w
  | 0x14 => eventOf e w
  | 0x15 => some (.fld e a b (bitsOf w 14 2) (bitAt w 13) (bitsOf w 0 12))
  | 0x16 =>
    match bitsOf w 24 2 with
    | 0 => some (.fst e (bitsOf w 19 5) (bitsOf w 14 5) (bitsOf w 12 2) (bitsOf w 0 12))
    | 1 => some (.ffence e)
    | _ => none
  | 0x17 => if bitAt w 15 then some (.itof e a b (bitsOf w 9 6)) else some (.ftoi e a b (bitsOf w 9 6))
  | _ => none

/-- The instruction that words spell on engine `e`: the one that their fields name, if it is well-formed and its own words are these; the
reserved and unused bits of a legal encoding are zero (R299). -/
def decodeWords (e w : Nat) (ext : Option Nat) : Option Instr :=
  match fieldsOf e w ext with
  | none => none
  | some i => if i.disoexOk ∧ encode i = some (w, ext) then some i else none

/-- Whether the first word asks for a second (R297). -/
def extended (w : Nat) : Bool := bitAt w 31

/-- The opcodes that have an extended form (R298). -/
def extendable (w : Nat) : Bool := decide (bitsOf w 26 5 ∈ [0x02, 0x03, 0x04, 0x05, 0x07, 0x0F, 0x10, 0x11])

/-- The word at a program memory address of an engine's cluster (R254). -/
def Device.progWord (d : Device) (e pc : Nat) : Nat := memLE d.prog (e / 16 * 0x40000 + 4 * pc) 4

/-- Whether fetching at an engine's pc runs past program memory (R308): past word 0xFFFF, or the second word of an instruction there. -/
def Device.fetchPast (d : Device) (e : Nat) : Bool :=
  let pc := (d.eng e).pc
  let w := d.progWord e pc
  decide (0xFFFF < pc) || (decide (pc = 0xFFFF) && extended w && extendable w)

/-- The instruction at an engine's pc. -/
def Device.fetched (d : Device) (e : Nat) : Option Instr :=
  let pc := (d.eng e).pc
  let w := d.progWord e pc
  if d.fetchPast e then none
  else decodeWords e w (if extended w then some (d.progWord e (pc + 1)) else none)

/-- Whether an engine may issue now. -/
def Device.issues (d : Device) (e : Nat) : Bool := decide (e < 512) && decide ((d.eng e).state = 1) && !d.sys.asleep

def execIllegalEncoding (e : Nat) (s : State) : Host.Outcome State Fault Refusal :=
  s.run (fun d => if d.issues e && !d.fetchPast e && (d.fetched e).isNone then d.engFault e 1 else d)

def execFetchRange (e : Nat) (s : State) : Host.Outcome State Fault Refusal :=
  s.run (fun d => if d.issues e && d.fetchPast e then d.engFault e 2 else d)

end Sys2Proof.Machine
end

