-- ==== Sys2Proof/Machine/Release.lean ====
section
/-! DEFINITION. The end of a frame's pipe (R137), and the trigger collector: the decided-through times of the units (R226), sequences (R223) and
the release of coincidence groups (R225, R227 to R229). -/

namespace Sys2Proof.Machine

/-- A frame leaves its pipe (R137); `differ`: the outputs of a shadow pipe differ from those of the pipe (R524). -/
def execPipeFrameDone (c drops : Nat) (differ : Bool) (s : State) : Host.Outcome State Fault Refusal :=
  s.run (fun d =>
    let d := d.frameDone c drops
    if differ then d.shadowMiss 1 else d)

/-! Decided-through times (R226). -/

/-- The arm boundary of a unit in PENDING: the first device boundary after acceptance and at or after its instant (R31). -/
def Device.armBoundary (d : Device) (n : Nat) : Time :=
  match (d.reqs .trgArm).find? (fun r => decide (r.obj = n)) with
  | some r => d.boundaryFrom (timeMax r.at' (r.acc + 1))
  | none => d.time

/-- The stamps of the frames still to be examined whose settings bind a unit: those formed, and the next of each sequence. -/
def Device.boundNext (d : Device) (n : Nat) : List Time :=
  ((d.ready ++ d.flight).filter (fun f => decide (n ∈ unitsOfCtx f.set.desc))).map (fun f => BitVec.ofInt 64 f.stamp) ++
    d.seqs.filterMap (fun q => (d.seqNext q).bind (fun t =>
      if n ∈ unitsOfCtx (d.setAt q.ctx t.toInt).desc then some t else none))

/-- The decided-through time of an arming that is not a sequence's (R226, R556): an arming that has ended is decided once it reaches its DISARM boundary. -/
def Device.decidedOf (d : Device) (k : Nat) : Time :=
  let x := d.tunit k
  let n := k % 64
  let s := d.tNow k
  if k < 64 ∧ d.tState k = 1 then d.armBoundary k
  else
    let t := match sKind s with
      | 0 | 2 => (timeLeast (d.boundNext n)).getD d.time
      | 1 => d.tapNext (tapOf (bitsOf (sParam s 0) 0 2) (bitsOf (sParam s 0) 2 5))
      | 3 => d.time - nsTime 2000
      | 4 => if k < 64 then timeMin d.time (d.tTimerNext k s) else d.time
      | 5 =>
        let rs := (List.range 64).filter (fun r => d.isSet (F.CAS_RT_CFG_EN r) && decide (d.fld (F.CAS_RT_CFG_DUNIT r) = n))
        (timeLeast (rs.map (fun r => match (d.casDev (d.fld (F.CAS_RT_CFG_SDEV r))).decided with
          | some u => u + d.rtOfs r
          | none => x.armB))).getD d.time
      | _ => d.time
    match x.fin with
    | some f => if timeLE f t then d.time else t
    | none => if d.tArmed n then t else d.time

/-- The earliest decided-through time among the armings of a unit. -/
def Device.decidedUnit (d : Device) (n : Nat) : Time := (timeLeast ((d.tKeys n).map d.decidedOf)).getD d.time

/-- The decided-through time of an arming: of a sequence, the earliest among its steps. -/
def Device.decided (d : Device) (k : Nat) : Time :=
  let s := d.tNow k
  if sKind s = 6 ∧ ¬(k < 64 ∧ d.tState k = 1) then
    let t := (timeLeast ((List.range (sSteps s)).map (fun i => d.decidedUnit (sStep s i)))).getD d.time
    match (d.tunit k).fin with
    | some f => if timeLE f t then d.time else t
    | none => if d.tArmed (k % 64) then t else d.time
  else d.decidedOf k

/-- Whether an arming that has ended still examines what precedes its DISARM boundary. -/
def Device.tOpen (d : Device) (k : Nat) : Bool :=
  match (d.tunit k).fin with
  | none => false
  | some f => timeLT (d.decided k) f

/-- Whether the collector waits for an arming: it is armed, or awaits its arm boundary, or still examines what precedes its DISARM boundary; and it is not QUIET
(R220, R225). -/
def Device.tWaited (d : Device) (k : Nat) : Bool := (if k < 64 then decide (1 ≤ d.tState k) else d.tOpen k) && !sQuiet (d.tNow k)

/-- The collector's decided-through time (R225). -/
def Device.collected (d : Device) : Time := (timeLeast ((d.tAll.filter d.tWaited).map d.decided)).getD d.time

/-- The sequences of some armings take the firings of their steps that are decided (R223). -/
def Device.seqsRun (d : Device) (ks : List Nat) : Device :=
  ks.foldl (fun d k =>
    if sKind (d.tNow k) = 6 ∧ (64 ≤ k ∨ d.tArmed k) then d.seqRun k (d.decided k) ((d.tunit k).inbox.length + 1) else d) d

/-- Armings that have ended and examined everything before their DISARM boundary are forgotten. -/
def Device.tPurge (d : Device) : Device :=
  { d with units := Sparse.keep (fun k _ => decide (k < 64) || d.tOpen k) d.units }

/-- TRG_DECIDED shows the collector's decided-through time (R225). -/
def Device.showDecided (d : Device) : Device := d.wrTime Reg.TRG_DECIDED_LO d.collected

/-- Release the earliest group of firings that is decided: the captures, its record, the injected sequences and the other devices of a
cascade (R225, R504, R556). -/
def Device.releaseOne (d : Device) : Device :=
  match d.firstFiring with
  | none => d
  | some t =>
    if timeLT t d.collected then
      let g := d.firings.filter (fun f => decide (f.t = t))
      let us := (g.map (fun f => f.unit)).dedup
      (us.foldl (fun d n => d.injSource 2 n t) (d.groupRelease t g)).casTriggers t us
    else d

def execTriggerRelease (s : State) : Host.Outcome State Fault Refusal :=
  s.run (fun d => (d.seqsRun d.tAll).showDecided.releaseOne.tPurge)

/-- A sequence's decided time passes a step window (R223). -/
def execSeqExpired (n : Nat) (s : State) : Host.Outcome State Fault Refusal :=
  s.run (fun d => if n < 64 then d.seqsRun (d.tKeys n) else d)

end Sys2Proof.Machine
end

