-- ==== Sys2Proof/Machine/Restart.lean ====
section
/-! DEFINITION. What a warm restart and the start of an image return to reset, and what they preserve (R343, R344), and the Function Level Reset
(R449). -/

namespace Sys2Proof.Machine

/-- All bits of a register. -/
def allBits : Nat := 0xFFFFFFFF

/-- The bits of a BAR0 register that a warm restart preserves (R344). -/
def keepMask (a : Nat) : Nat :=
  match a / 0x100000 with
  | 0 =>
    if (0x20 ≤ a ∧ a ≤ 0x30) ∨ a = Reg.SYS_IMG_BASE_LO ∨ a = Reg.SYS_IMG_BASE_HI ∨ a = Reg.SYS_FLASH_CFG ∨
      a = Reg.SYS_SAVE_BASE_LO ∨ a = Reg.SYS_SAVE_BASE_HI then allBits
    else if a = Reg.SYS_STAT then 0xF else 0
  | 1 =>
    if a = Reg.CLK_STAT ∨ (Reg.CLK_REF_FREQ ≤ a ∧ a ≤ Reg.CLK_CUR_SEED) ∨ (Reg.CLK_SWITCH_LO ≤ a ∧ a ≤ Reg.CLK_TUNE_B) ∨
      a = Reg.CLK_BAND_FACTORY ∨ (0x100100 ≤ a ∧ a < 0x100180) ∨ (0x100400 ≤ a ∧ a < 0x100500) then allBits else 0
  | 2 =>
    if (0x200100 ≤ a ∧ a < 0x200260) ∨ (blockAt a 0x201000 0x40 32).any (fun x => decide (x.2 ≤ 4)) ∨ (0x204000 ≤ a ∧ a < 0x204400) then allBits
    else 0
  | 3 =>
    if 0x308000 ≤ a ∧ a < 0x30c000 then allBits
    else if (blockAt a 0x301000 0x100 8).any (fun x => decide (x.2 = 0xC)) then 2 ^ (F.CHN_C_STAT_ACTIVE 0).f.lo else 0
  | 4 =>
    if a = Reg.XF_CAPACITY ∨ a = Reg.XF_LIVE then allBits
    else if (blockAt a 0x400400 0x10 16).any (fun x => decide (x.2 = 0)) then 2 ^ (F.XF_T_STAT_HELD 0).f.lo else 0
  | 8 => if a = Reg.CMP_VACANT ∨ a = Reg.CMP_U_VACANT then allBits else 0
  | 9 =>
    if a = Reg.MEM_STAT ∨ (Reg.MEM_CE_CNT ≤ a ∧ a ≤ Reg.MEM_REPAIR_FAIL_CNT) ∨ a = Reg.MEM_REPAIR_STAT ∨ (0x900200 ≤ a ∧ a < 0x900220) ∨
      (0x900400 ≤ a ∧ a < 0x900500) then allBits else 0
  | 10 => if a = Reg.HIF_LINK_STAT ∨ (0xa10000 ≤ a ∧ a < 0xa18100) then allBits else 0
  | 11 =>
    if a = Reg.EVT_EPOCH then allBits
    else match blockAt a 0xb01000 0x40 16 with
      | some (_, 0) => 3
      | some (_, 4) => allBits
      | some (n, 0x18) =>
        [F.EVT_I_STAT_CAL n, F.EVT_I_STAT_LINE n, F.EVT_I_STAT_LINES n, F.EVT_I_STAT_SHADOW_STATE n].foldl
          (fun m x => Nat.lor m ((2 ^ x.f.w - 1) * 2 ^ x.f.lo)) 0
      | _ => 0
  | 12 => if (0xc00040 ≤ a ∧ a < 0xc00050) ∨ (0xc01000 ≤ a ∧ a < 0xc05000) ∨ 0xc81000 ≤ a then allBits else 0
  | 13 =>
    if (Reg.ROT_SWAP_CNT ≤ a ∧ a ≤ Reg.ROT_PAUSE_CNT) ∨ ((blockAt a 0xd00100 0x20 9).any (fun x => decide (x.2 ≠ 0))) ∨
      (0xd10000 ≤ a ∧ a < 0xd80000) ∨ (Reg.BST_RUN_CNT ≤ a ∧ a ≤ Reg.BST_COND_CNT) then allBits else 0
  | 14 =>
    if a = Reg.CAS_CFG ∨ a = Reg.CAS_STAT ∨ a = Reg.CAS_EPOCH ∨ a = Reg.CAS_FWD ∨ a = Reg.CAS_OFFSET_LO ∨ a = Reg.CAS_OFFSET_HI ∨
      (blockAt a 0xe01000 0x20 16).any (fun x => decide (x.2 < 0x10)) ∨ (0xe02000 ≤ a ∧ a < 0xe020c0) then allBits else 0
  | 15 => if a = Reg.PNL_STAT then 2 ^ F.PNL_STAT_HPD.f.lo else 0
  | _ => if (blockAt a 0x1000000 0x80000 32).any (fun x => decide (x.2 = 0x60014)) then allBits else 0

/-- A register map with the bits of `keep` kept and the others at their reset values. -/
def resetRegs (keep : Nat → Nat) (m : Sparse Word) : Sparse Word :=
  m.filterMap (fun kv =>
    let r := (regReset kv.1).toNat
    let mask := keep kv.1
    let v := BitVec.ofNat 32 (Nat.lor (Nat.land kv.2.toNat mask) (Nat.land r (allBits - mask)))
    if v = regReset kv.1 then none else some (kv.1, v))

/-- A TEST in progress runs again from its first run (R529). -/
def Device.testsAgain (d : Device) : Device :=
  (List.range 780).foldl (fun d u => if d.puState u = 3 then d.setUnitTest u { d.unitTest u with fails := 0 } else d) d

/-- Everything returns to its reset state but what R344 preserves; `keep`: the bits that registers keep. -/
def Device.unitsReset (d : Device) (keep : Nat → Nat) : Device :=
  let d := Device.testsAgain ((List.range 9).foldl (fun d k => d.rotPause k) d)
  let d : Device :=
    { regs := resetRegs keep d.regs, outbox := d.outbox, hostRead := d.hostRead, hostReadEp := d.hostReadEp,
      time := d.time, timeRem := d.timeRem, freeCount := d.freeCount,
      breqs := d.breqs.filter (fun r => decide (r.kind ∈ [.ckoStart, .ckoStop, .role, .monStart])),
      mem := d.mem, lanes := d.lanes, lrefLost := d.lrefLost,
      engines := d.engines.filterMap (fun x => if x.2.state = 4 then some (x.1, { state := 4 }) else none),
      poison := d.poison, memc := { d.memc with scrub := none }, rot := { d.rot with bst := none },
      roots := { d.roots with origin := none, probe := false }, ckos := d.ckos, vdd := d.vdd, mons := d.mons, monIn := d.monIn, monSync := d.monSync,
      i2cPtr := d.i2cPtr, i2cLatch := d.i2cLatch,
      cas := { d.cas with change := none, cal := none, calForm := false, coarse := none, comps := [] },
      panel := { hpdLow := d.panel.hpdLow }, sys := { low := d.sys.low, started := d.sys.started, straps := d.sys.straps },
      tap := d.tap, d3hot := d.d3hot, linkDown := d.linkDown, cfg := d.cfg }
  ((List.range 9).foldl (fun d k => d.rotShow k) d).recheck

/-- Whether a warm restart can act: POST and training have ended (R337, R340). -/
def Device.canRestart (d : Device) : Bool := decide (d.fld F.SYS_STAT_STATE ∈ [3, 4, 5, 6, 7])

/-- A warm restart to READY (R343). -/
def Device.warmRestart (d : Device) : Device :=
  let d := ((d.unitsReset keepMask).setFld F.SYS_STAT_STATE 3).flag F.SYS_FLAGS_RESTART Reg.SYS_RESTART_CNT
  if d.fld F.MEM_STAT_STATE = 3 then d.setFld F.MEM_STAT_STATE 2 else d

/-- A warm restart that a host or a Function Level Reset asks for. -/
def Device.restartReq (d : Device) : Device :=
  if d.canRestart then d.warmRestart else d.setFld F.SYS_IMG_STAT_CODE cBUSY

def execSysImgCtlRestart (s : State) : Host.Outcome State Fault Refusal := s.run Device.restartReq

/-- A Function Level Reset (R449): the configuration space with the MSI-X table, and a warm restart. -/
def execFunctionLevelReset (s : State) : Host.Outcome State Fault Refusal :=
  s.run (fun d =>
    let d : Device := { d with cfg := [], d3hot := false,
                               regs := resetRegs (fun a => if 0xa10000 ≤ a ∧ a < 0xa18100 then 0 else allBits) d.regs }
    if d.canRestart then d.warmRestart else d)

end Sys2Proof.Machine
end

