-- ==== Sys2Proof/Machine/Images.lean ====
section
/-! DEFINITION. Program images (R326 to R332), the flash they are read from (R341), and warm restart with an image start (R343). -/

namespace Sys2Proof.Machine

/-! The image format. -/

/-- A word of the image at `base`. -/
def Device.imgWord (d : Device) (base off : Nat) : Nat := d.mem32 (base + off)

def Device.imgSize (d : Device) (base : Nat) : Nat := d.imgWord base 0x08
def Device.sectCount (d : Device) (base : Nat) : Nat := d.imgWord base 0x18
def Device.ovlCount (d : Device) (base : Nat) : Nat := d.imgWord base 0x20

/-- The largest image, 32 MiB (R326). -/
def imgMax : Nat := 0x2000000

/-- A section table entry (R327). -/
structure Sect where
  ty : Nat
  tgt : Nat
  high : Nat
  off : Nat
  len : Nat
  dest : Nat
  deriving DecidableEq, Repr

/-- The sections of an image, in table order; none where the table does not lie in the image. -/
def Device.sects (d : Device) (base : Nat) : List Sect :=
  let n := d.sectCount base
  let t := d.imgWord base 0x1C
  if imgMax < d.imgSize base ∨ d.imgSize base < t + 16 * n then []
  else (List.range n).map (fun i =>
    let w := fun k => d.imgWord base (t + 16 * i + 4 * k)
    { ty := bitsOf (w 0) 0 8, tgt := bitsOf (w 0) 8 12, high := bitsOf (w 0) 20 12, off := w 1, len := w 2, dest := w 3 })

/-- Where a section goes, in bytes of its target. -/
def Sect.start (x : Sect) : Nat := if x.ty = 6 then x.dest * 64 else if x.ty = 4 then x.tgt * 1024 else x.dest

/-- The end of the target of a PROG, XMEM, YMEM or CTX section (R327). -/
def Sect.pastTarget (x : Sect) : Bool :=
  (decide (x.ty = 1) && decide (0x40000 < x.dest + x.len)) ||
    ((decide (x.ty = 2) || decide (x.ty = 3)) && decide (0x80000 < x.dest + x.len)) ||
    (decide (x.ty = 4) && decide (4096 * 1024 < x.tgt * 1024 + x.len))

/-- The multiple that a section's DEST and LENGTH keep (R327). -/
def Sect.unit (x : Sect) : Nat := if x.ty = 1 then 4 else if x.ty = 4 then 1024 else if x.ty = 2 ∨ x.ty = 3 ∨ x.ty = 5 then 8 else 1

/-- Whether two sections overlap (R331): of one TYPE and TARGET, or both DEV, in the same bytes. A REG section has no place of its own. -/
def Sect.overlaps (x y : Sect) : Bool :=
  decide (x.ty = y.ty) && (decide (x.tgt = y.tgt) || decide (x.ty = 6)) && decide (x.ty ≠ 5) && meets x.start x.len y.start y.len

/-- The checks of one section (R331). -/
def sectChecks (base size : Nat) (x : Sect) : List (Bool × Nat) :=
  [(decide (x.len = 0), cLENGTH), (decide (size < x.off + x.len), cLENGTH), (x.pastTarget, cLENGTH),
   (decide (x.ty = 6) && pastEnd x.start x.len, cLENGTH),
   (decide (x.ty = 6) && meets x.start x.len base size, cOVERLAP),
   (decide (x.off % 64 ≠ 0), cALIGN), (decide (x.len % x.unit ≠ 0), cALIGN),
   (decide (x.ty ∈ [1, 2, 3]) && decide (x.dest % x.unit ≠ 0), cALIGN),
   (decide (x.ty = 6) && aboveEnd x.start, cREGION),
   (decide (x.high ≠ 0), cUNSUP), (decide (x.ty = 0) || decide (6 < x.ty), cUNSUP),
   (decide (x.ty ∈ [1, 2, 3]) && decide (31 < x.tgt), cUNSUP), (decide (x.ty = 5 ∨ x.ty = 6) && decide (x.tgt ≠ 0), cUNSUP),
   (decide (x.ty = 4 ∨ x.ty = 5) && decide (x.dest ≠ 0), cUNSUP)]

/-- Whether a section overlaps a later one. -/
def sectsOverlap : List Sect → Bool
  | [] => false
  | x :: xs => xs.any (fun y => x.overlaps y) || sectsOverlap xs

/-- A number of bytes padded to a multiple of 8. -/
def pad8 (n : Nat) : Nat := (n + 7) / 8 * 8

/-- The offsets of the patch records of an overlay of `len` bytes at `a`, and whether one runs past its end (R328). -/
def Device.ovlHeads (d : Device) (a len : Nat) : Nat → Nat → List Nat × Bool
  | 0, _ => ([], false)
  | fuel + 1, pos =>
    if len ≤ pos then ([], false)
    else if len < pos + 16 then ([], true)
    else
      let n := d.mem32 (a + pos + 8)
      if len < pos + 16 + n then ([pos], true)
      else
        let r := d.ovlHeads a len fuel (pos + 16 + pad8 n)
        (pos :: r.1, r.2)

/-- The checks of the form of a patch record (R328). -/
def Device.recChecks (d : Device) (a : Nat) : List (Bool × Nat) :=
  let w := d.mem32 a
  let kind := bitsOf w 0 8
  let tgt := bitsOf w 8 12
  let n := d.mem32 (a + 8)
  [(decide (n = 0), cLENGTH), (decide (n % 4 ≠ 0), cALIGN), (decide (kind = 0) || decide (3 < kind), cUNSUP),
   (decide (bitsOf w 20 12 ≠ 0), cUNSUP), (decide (d.mem32 (a + 12) ≠ 0), cUNSUP),
   (decide (kind = 2) && decide (31 < tgt), cUNSUP), (decide (kind = 3) && decide (tgt ≠ 0), cUNSUP)]

/-- The overlay table's entry for an overlay: the overlay's address and its LENGTH. -/
def Device.ovlEntry (d : Device) (base i : Nat) : Nat × Nat :=
  let e := base + d.imgWord base 0x24 + 16 * i
  (base + d.mem32 e, d.mem32 (e + 4))

/-- The checks of the form of an overlay (R331). -/
def Device.ovlChecks (d : Device) (base i : Nat) : List (Bool × Nat) :=
  let e := base + d.imgWord base 0x24 + 16 * i
  let x := d.ovlEntry base i
  let inside := decide (x.1 + x.2 ≤ base + d.imgSize base) && decide (16 ≤ x.2) && decide (x.2 ≤ 65536)
  let h := if inside then d.ovlHeads x.1 x.2 (x.2 / 16 + 1) 0 else ([], true)
  [(h.2, cLENGTH), (decide (d.mem32 e % 8 ≠ 0), cALIGN), (decide (d.mem64 (e + 8) ≠ 0), cUNSUP)] ++
    h.1.flatMap (fun p => d.recChecks (x.1 + p))

/-- The bytes that the CRC of an image covers (R326). -/
def Device.crcBytes (d : Device) (base : Nat) : List Byte :=
  memBytes d.mem base 0x3C ++ [0, 0, 0, 0] ++ memBytes d.mem (base + 0x40) (d.imgSize base - 0x40)

/-- The checks of the contents of an image that starts inside device memory (R331). -/
def Device.contentChecks (d : Device) (base : Nat) : List (Bool × Nat) :=
  let size := d.imgSize base
  let ns := d.sectCount base
  let st := d.imgWord base 0x1C
  let no := d.ovlCount base
  let ot := d.imgWord base 0x24
  let sizeBad := decide (size = 0) || decide (imgMax < size) || pastEnd base size
  let tableIn := decide (size ≤ imgMax) && decide (ot + 16 * no ≤ size)
  [(sizeBad, cLENGTH), (decide (size < st + 16 * ns), cLENGTH), (decide (size < ot + 16 * no), cLENGTH),
   (sectsOverlap (d.sects base), cOVERLAP),
   (decide (size % 64 ≠ 0), cALIGN), (decide (st % 64 ≠ 0), cALIGN), (decide (ot % 64 ≠ 0), cALIGN),
   (!sizeBad && decide (crc32c (d.crcBytes base) ≠ d.imgWord base 0x3C), cCRC),
   (decide (d.imgWord base 0 ≠ 0x474D4958), cUNSUP), (decide (d.imgWord base 4 ≠ 1), cUNSUP),
   (decide (1 < d.imgWord base 0x0C), cUNSUP), (decide (4095 < d.imgWord base 0x10), cUNSUP),
   (decide (65535 < d.imgWord base 0x14), cUNSUP), (decide (ns = 0) || decide (4096 < ns), cUNSUP), (decide (16 < no), cUNSUP),
   (decide (no = 0) && decide (ot ≠ 0), cUNSUP),
   (decide (d.imgWord base 0x30 ≠ 0) || decide (d.imgWord base 0x34 ≠ 0) || decide (d.imgWord base 0x38 ≠ 0), cUNSUP)] ++
    (d.sects base).flatMap (sectChecks base size) ++
    (if tableIn then (List.range no).flatMap (fun i => d.ovlChecks base i) else [])

/-- The address of the image, SYS_IMG_BASE. -/
def Device.imgBase (d : Device) : Nat := d.rd64 Reg.SYS_IMG_BASE_LO

/-- The code of a start of the image at SYS_IMG_BASE (R331). -/
def Device.imgCode (d : Device) (busy : Bool) : Nat :=
  let base := d.imgBase
  firstCode ([(decide (base % 4096 ≠ 0), cALIGN), (aboveEnd base, cREGION), (busy, cBUSY)] ++
    (if base < Config.memSize then d.contentChecks base else []))

/-! Starting an image. -/

/-- An action bit of SYS_IMG_CTL, by its number. -/
def imgAct (a : Nat) : FieldAt := ⟨Reg.SYS_IMG_CTL, ⟨a, 1⟩⟩

/-- The action bit of the host's request, if there is one: 0 START, 1 FLASH, 3 RESTART_LOAD; 4 none. -/
def Device.imgBit (d : Device) (a v : Nat) : Device := if a < 4 then d.setFld (imgAct a) v else d

/-- A start that has passed its checks enters LOADING: every engine OFF, every unit in its reset state but what a warm restart preserves. -/
def Device.imgStart (d : Device) (slot ask : Nat) : Device :=
  let d := d.unitsReset keepMask
  let d : Device := { d with sys := { d.sys with slot := slot, ask := ask } }
  ((d.setFld F.SYS_STAT_STATE 4).setFld F.SYS_IMG_STAT_BUSY 1).imgBit ask 1

/-- A start that has failed its checks. -/
def Device.imgFail (d : Device) (c : Nat) : Device :=
  (d.setFld F.SYS_IMG_STAT_CODE c).flag F.SYS_FLAGS_IMG_FAIL Reg.SYS_IMG_FAIL_CNT

/-- Whether the device is not free to start an image: not READY, or already at work on one. -/
def Device.imgBusy (d : Device) : Bool := decide (d.fld F.SYS_STAT_STATE ≠ 3) || d.sys.flash.isSome

/-- START of the image at SYS_IMG_BASE (R331, R332). -/
def Device.imgTry (d : Device) (ask : Nat) : Device :=
  let c := d.imgCode d.imgBusy
  if c = cOK then d.imgStart 0 ask else d.imgFail c

def execSysImgCtlStart (s : State) : Host.Outcome State Fault Refusal := s.run (fun d => d.imgTry 0)

def execSysImgCtlRestartLoad (s : State) : Host.Outcome State Fault Refusal :=
  s.run (fun d => if d.canRestart then d.warmRestart.imgTry 3 else d.restartReq)

/-- The SYS RESTART command: the engine that issues it stops with the rest. -/
def execSysRestart (u : UCmd) (s : State) : Host.Outcome State Fault Refusal :=
  s.run (fun d => d.unitCmd 0x00 3 u fun d =>
    if !d.canRestart then d.complete u.origin cBUSY none
    else if bitAt u.imm 0 then d.warmRestart.imgTry 4 else d.warmRestart)

/-! Loading (R332). -/

/-- A REG pair: any BAR0 register outside the SYS window, the cluster windows and the context store (R327). -/
def Device.regPair (d : Device) (a v : Nat) : Device :=
  if a < 0x100000 ∨ 0x1000000 ≤ a ∨ a % 4 ≠ 0 then d.badAccess else d.busWrite a v true

/-- The REG pairs of a section, in list order. -/
def Device.regPairs (d : Device) (a n : Nat) : Device :=
  (List.range n).foldl (fun d i => d.regPair (d.mem32 (a + 8 * i)) (d.mem32 (a + 8 * i + 4))) d

/-- Apply a section. -/
def Device.sectApply (d : Device) (base : Nat) (x : Sect) : Device :=
  let bs := memBytes d.mem (base + x.off) x.len
  let d := d.moved 4
  match x.ty with
  | 1 => { d with prog := memWrite d.prog (x.tgt * 0x40000 + x.dest) bs }
  | 2 => { d with xmem := memWrite d.xmem (x.tgt * 0x80000 + x.dest) bs }
  | 3 => { d with ymem := memWrite d.ymem (x.tgt * 0x80000 + x.dest) bs }
  | 4 => { d with ctx := memWrite d.ctx (x.tgt * 0x400) bs }
  | 5 => d.regPairs (base + x.off) (x.len / 8)
  | 6 => (d.store x.start bs).moved 4
  | _ => d

def execImageLoaded (s : State) : Host.Outcome State Fault Refusal :=
  s.run (fun d =>
    if d.fld F.SYS_STAT_STATE ≠ 4 then d
    else
      let base := d.imgBase
      let d := (d.sects base).foldl (fun d x => d.sectApply base x) d
      let d : Device := { d with anchorCtx := some (d.imgWord base 0x10 % 4096) }
      let d := ((d.wr Reg.SYS_MODE 0x1F).wr64 Reg.SYS_MODE_AT_LO 0).wr64 Reg.SYS_IMG_ID_LO (d.mem64 (base + 0x28))
      let d := ((d.setFld F.SYS_IMG_STAT_SLOT d.sys.slot).setFld F.SYS_IMG_STAT_BUSY 0).setFld F.SYS_IMG_STAT_CODE cOK
      let d := (d.imgBit d.sys.ask 0).setFld F.SYS_STAT_STATE 5
      (d.engStart 0 (d.imgWord base 0x14 % 65536)).2)

/-! Flash (R341). -/

/-- The device begins to read slot A. -/
def Device.flashBoot (d : Device) (auto : Bool) : Device :=
  Device.setFld { d with sys := { d.sys with flash := some (0, auto) } } F.SYS_IMG_STAT_BUSY 1

def execSysImgCtlFlash (s : State) : Host.Outcome State Fault Refusal :=
  s.run (fun d =>
    if d.imgBusy then d.imgFail cBUSY
    else if d.isSet F.SYS_FLASH_CFG_PRESENT then (d.flashBoot false).setFld F.SYS_IMG_CTL_FLASH 1
    else d)

/-- The slot that was read has not started: slot B, where the flash holds it, or no image. -/
def Device.flashNext (d : Device) (slot : Nat) (auto big : Bool) : Device :=
  if slot = 0 ∧ big then { d with sys := { d.sys with flash := some (1, auto) } }
  else (Device.setFld { d with sys := { d.sys with flash := none } } F.SYS_IMG_STAT_BUSY 0).setFld F.SYS_IMG_CTL_FLASH 0

/-- The bytes of a slot, as `n` bytes. -/
def flashBytes (data : List Byte) (n : Nat) : List Byte := (List.range n).map (fun i => data.getD i 0xFF)

/-- The bytes of a slot's image that go into device memory: SIZE, the header at least, 32 MiB at most. -/
def flashSize (data : List Byte) : Nat := max 64 (min imgMax (ofBytesLE (flashBytes (data.drop 8) 4)))

/-- Whether a slot's image would run past the end of device memory (R331): none of it is stored then. -/
def Device.flashPast (d : Device) (data : List Byte) : Bool :=
  decide (d.imgBase < Config.memSize) && decide (Config.memSize < d.imgBase + flashSize data)

/-- The image that a slot holds goes into device memory at SYS_IMG_BASE. -/
def Device.flashStore (d : Device) (data : List Byte) : Device :=
  if Config.memSize < d.imgBase + flashSize data then d else (d.store d.imgBase (flashBytes data (flashSize data))).moved 4

/-- `data`: what the flash holds from the slot on; `big`: it holds more than 32 MiB. -/
def execFlashImageRead (data : List Byte) (big : Bool) (s : State) : Host.Outcome State Fault Refusal :=
  s.run (fun d =>
    match d.sys.flash with
    | none => d
    | some (slot, auto) =>
      if auto ∧ !bitAt (ofBytesLE (flashBytes (data.drop 12) 4)) 0 then d.flashNext slot auto big
      else
        let d := d.flashStore data
        let c := if d.flashPast data then cLENGTH else d.imgCode false
        if c = cOK then d.imgStart (slot + 1) (if auto then 4 else 1)
        else (d.imgFail c).flashNext slot auto big)

/-- A command for the flash: `cmd` is the value written to SYS_FLASH_CMD. -/
def execSysFlashCmdGo (cmd : Nat) (s : State) : Host.Outcome State Fault Refusal :=
  s.run (fun d =>
    let len := bitsOf cmd 18 9
    let ab := bitsOf cmd 8 3
    let busy := d.sys.flash.isSome || d.sys.cmd.isSome
    let c := firstCode [(decide (256 < len), cLENGTH), (busy, cBUSY), (decide (ab ∉ [0, 3, 4]), cUNSUP)]
    let d := d.wrRw Reg.SYS_FLASH_CMD cmd
    let d := d.setFld F.SYS_FLASH_STAT_CODE c
    if c ≠ cOK then d
    else
      let data := if bitAt cmd 16 then (List.range len).map (fun j => BitVec.ofNat 8 (d.rdN (Reg.SYS_FLASH_BUF (j / 4)) / 2 ^ (8 * (j % 4)))) else []
      let d : Device := { d with sys := { d.sys with cmd := some (cmd % 2 ^ 27) } }
      ((d.setFld F.SYS_FLASH_CMD_GO 1).setFld F.SYS_FLASH_STAT_BUSY 1).send
        (.flash (cmd % 2 ^ 27) (if ab = 0 then 0 else d.rdN Reg.SYS_FLASH_ADDR % 2 ^ (8 * ab)) data))

/-- `data`: what the flash has sent. -/
def execFlashCmdDone (data : List Byte) (s : State) : Host.Outcome State Fault Refusal :=
  s.run (fun d =>
    match d.sys.cmd with
    | none => d
    | some cmd =>
      let n := if bitAt cmd 16 then 0 else bitsOf cmd 18 9
      let d := (List.range n).foldl (fun d j => d.setFld ⟨Reg.SYS_FLASH_BUF (j / 4), ⟨8 * (j % 4), 8⟩⟩ (data.getD j 0xFF).toNat) d
      let d : Device := { d with sys := { d.sys with cmd := none } }
      ((d.setFld F.SYS_FLASH_CMD_GO 0).setFld F.SYS_FLASH_STAT_BUSY 0).setFld F.SYS_FLASH_STAT_CODE cOK)

end Sys2Proof.Machine
end

