-- ==== Sys2Proof/Machine/Overlay.lean ====
section
/-! DEFINITION. Overlays (R33, R34, R328 to R330, R334 to R336): the request, its checks and staging, and what an overlay changes at its boundary. -/

namespace Sys2Proof.Machine

/-- The patch records of overlay `i` of the running image. -/
def Device.ovlRead (d : Device) (i : Nat) : List OvlRec :=
  let x := d.ovlEntry d.imgBase i
  (d.ovlHeads x.1 x.2 (x.2 / 16 + 1) 0).1.map (fun p =>
    let w := d.mem32 (x.1 + p)
    { kind := bitsOf w 0 8, target := bitsOf w 8 12, dest := d.mem32 (x.1 + p + 4),
      data := memBytes d.mem (x.1 + p + 16) (d.mem32 (x.1 + p + 8)) })

/-- The registers that a REG record writes, with their values. -/
def OvlRec.writes (r : OvlRec) : List (Nat × Nat) :=
  if r.kind = 3 then (List.range (r.data.length / 4)).map (fun i => (r.dest + 4 * i, ofBytesLE ((r.data.drop (4 * i)).take 4))) else []

/-- The registers that some records write, with their values. -/
def regPatches (rs : List OvlRec) : List (Nat × Nat) := rs.flatMap OvlRec.writes

/-- The contexts that some records patch. -/
def ctxPatched (rs : List OvlRec) : List Nat := ((rs.filter (fun r => decide (r.kind = 1))).map OvlRec.target).dedup

/-- The unit that a register an overlay may write belongs to (R329): 0 corrector, 1 channeliser, 2 trigger unit, 3 panel layer. -/
def ovlUnit (a : Nat) : Option (Nat × Nat) :=
  match blockAt a 0x301000 0x100 8, blockAt a 0x302000 0x100 16, blockAt a 0x30c000 0x400 16, blockAt a 0x601000 0x40 64, blockAt a 0xf01000 0x40 4 with
  | some (s, o), _, _, _, _ => if o = 0 then some (0, s) else none
  | _, some (z, o), _, _, _ => if o ∈ [0, 4, 0x10, 0x14] then some (1, z) else none
  | _, _, some (z, _), _, _ => if (regRow a).any (fun r => decide (r.rw ≠ 0)) then some (1, z) else none
  | _, _, _, some (n, o), _ => if o < 0x1C ∧ o % 4 = 0 then some (2, n) else none
  | _, _, _, _, some (l, o) => if o ∈ [0, 8, 0xC, 0x10, 0x14, 0x18] then some (3, l) else none
  | _, _, _, _, _ => none

/-- The units of one kind that some records patch. -/
def unitsPatched (rs : List OvlRec) (k : Nat) : List Nat :=
  ((regPatches rs).filterMap (fun w => match ovlUnit w.1 with | some (k', i) => if k' = k then some i else none | none => none)).dedup

/-- The checks of the targets of a record (R334). -/
def ovlRecChecks (r : OvlRec) : List (Bool × Nat) :=
  let e := r.dest + r.data.length
  [(decide (r.kind = 1) && decide (0x400 < e), cLENGTH), (decide (r.kind = 2) && decide (0x40000 < e), cLENGTH),
   (decide (r.kind = 3) && decide (r.dest < 0x1000000) && decide ((r.dest / 0x100000 + 1) * 0x100000 < e), cLENGTH),
   (decide (r.dest % 4 ≠ 0) || decide (r.data.length % 4 ≠ 0), cALIGN),
   (r.writes.any (fun w => (ovlUnit w.1).isNone), cREGION)]

/-- Patch the context store with the CTX records. -/
def ctxPatch (m : List Host.Cell) (rs : List OvlRec) : List Host.Cell :=
  rs.foldl (fun m r => if r.kind = 1 then memWrite m (r.target * 0x400 + r.dest) r.data else m) m

/-- Patch the registers with the REG records. -/
def Device.regsPatch (d : Device) (rs : List OvlRec) : Device := (regPatches rs).foldl (fun d w => d.wrRw w.1 w.2) d

/-- The device with the contexts and the registers patched and nothing else changed. -/
def Device.patched (d : Device) (rs : List OvlRec) : Device := Device.regsPatch { d with ctx := ctxPatch d.ctx rs } rs

/-- The stores of the contexts that some records patch, as the stores would hold them (R143, R209). -/
def Device.patchedSets (d : Device) (rs : List OvlRec) : List (Nat × CtxSet) :=
  (ctxPatched rs).map (fun c => (c, (d.patched rs).readSet ((d.patched rs).desc c)))

/-- Whether some records patch a byte of a part of a context's descriptor. -/
def touches (rs : List OvlRec) (c lo len : Nat) : Bool :=
  rs.any (fun r => decide (r.kind = 1) && decide (r.target = c) && meets r.dest r.data.length lo len)

/-- The stores of a context after an overlay: what the overlay's records patch comes from its staged copies, the rest stays (R330). -/
def mergeSet (rs : List OvlRec) (c : Nat) (desc : List Byte) (cur new : CtxSet) : CtxSet where
  desc := desc
  masks := (List.range 4).map (fun t => (if touches rs c (0x180 + 0x40 * t) 0x40 then new.masks else cur.masks).getD t [])
  user := if touches rs c 4 4 || touches rs c 0xC 4 || touches rs c 0x28 8 then new.user else cur.user
  beta := if touches rs c 0xC 4 then new.beta else cur.beta

/-- Whether some records patch a context of a schedule. -/
def Sched.patchedBy (sc : Sched) (rs : List OvlRec) : Bool := sc.entries.any (fun e => decide (e.1 ∈ ctxPatched rs))

/-- The window sums of the patched contexts of a schedule (R148). -/
def Device.patchedSums (p : Device) (rs : List OvlRec) (sc : Sched) : List (Nat × Nat) :=
  let es := (List.range sc.entries.length).zip sc.entries
  sumFails ((es.filter (fun e => decide (e.2.1 ∈ ctxPatched rs))).map (fun e => (e.1, p.readSet (p.desc e.2.1))))

/-- The checks of the running and the pending schedule as patched (R148, R159, R203, R213): the code and the schedule entry it names. -/
def Device.ovlSched (d : Device) (rs : List OvlRec) : Nat × Nat :=
  let p := d.patched rs
  let all := p.ctxList p.run ++ p.ctxList p.pendSched
  let part (sc : Sched) (t : Time) : List (Nat × Nat) :=
    if sc.patchedBy rs then p.schedFails (p.pers [] t) p.fclks p.desc sc else []
  if !(d.run.patchedBy rs || d.pendSched.patchedBy rs) then (cOK, noEntry)
  else
    let fails := part p.run p.time ++ part p.pendSched (timeMax p.time p.pendAt) ++ failsAt noEntry
      [(decide (2 ^ 19 < (all.map (fun x => maskWords x.2)).sum), cSCHEDULE)]
    pickCode (if (pickCode fails).1 = cOK then
        failsAt noEntry [(decide (2 ^ 21 < storeUse all), cSCHEDULE)] ++ p.patchedSums rs p.run ++ p.patchedSums rs p.pendSched
      else fails)

/-- The code of a START of a channeliser, but for BUSY (R125, R130). -/
def Device.zSettings (d : Device) (z : Nat) : Nat :=
  Device.zStartCode { d.setFld (F.CHN_Z_STAT_RUNNING z) 0 with breqs := [] } z

/-- The boundary that an instant resolves to for a request accepted at `acc` (R31). -/
def Device.ovlResolve (d : Device) (t acc : Time) : Time := d.boundaryFrom (timeMax t (timeMax acc d.time + 1))

/-- Whether another overlay is due at the boundary that a request accepted now resolves to (R34). -/
def Device.ovlMeets (d : Device) (t : Time) : Bool :=
  d.sys.ovls.any (fun o => decide (d.ovlResolve o.at' o.acc = d.ovlResolve t d.time))

/-- The device as the overlays that resolve to an earlier boundary will leave it (R335). -/
def Device.ovlBase (d : Device) (t : Time) : Device :=
  (d.sys.ovls.filter (fun o => timeLT (d.ovlResolve o.at' o.acc) (d.ovlResolve t d.time))).foldl (fun d o => d.patched o.recs) d

/-- The code of an overlay request (R334), from its records. The effect of the records that fit their targets is checked on the state that the overlay will
meet (DEDUCED, log entry 131). -/
def Device.ovlCode (d : Device) (r : OvlReq) (rs : List OvlRec) : Nat :=
  let x := d.ovlEntry d.imgBase r.num
  let fit := rs.filter (fun q => decide (firstCode (ovlRecChecks q) = cOK))
  let m := d.ovlBase r.at'
  let p := m.patched fit
  firstCode (((d.ovlHeads x.1 x.2 (x.2 / 16 + 1) 0).2, cLENGTH) :: rs.flatMap ovlRecChecks ++
    [(decide (2 ≤ d.sys.ovls.length) || d.ovlMeets r.at', cBUSY), (decide (d.fld F.SYS_STAT_STATE ≠ 5), cNOTARMED),
     (rs.any (fun q => decide (q.kind = 0) || decide (3 < q.kind)), cUNSUP),
     (decide ((m.ovlSched fit).1 ≠ cOK), (m.ovlSched fit).1)] ++
    (unitsPatched fit 1).map (fun z => (decide (p.zSettings z ≠ cOK), p.zSettings z)) ++
    (if unitsPatched fit 3 = [] then [] else p.layerChecks))

/-- An accepted overlay is staged: its stores are filled from the state it will meet, and those of the other one that is pending, where this one comes before
it (R335; DEDUCED, log entry 131). -/
def Device.ovlStage (d : Device) (r : OvlReq) (rs : List OvlRec) : Device :=
  let o : Ovl := ⟨r.num, r.at', d.time, r.origin, rs, (d.ovlBase r.at').patchedSets rs⟩
  let later := d.sys.ovls.map (fun q =>
    if timeLT (d.ovlResolve r.at' d.time) (d.ovlResolve q.at' q.acc) && (ctxPatched q.recs).any (fun c => decide (c ∈ ctxPatched rs)) then
      { q with sets := (d.patched rs).patchedSets q.recs }
    else q)
  Device.moved { d with sys := { d.sys with ovls := later ++ [o] } } 4

/-! The request. -/

/-- An overlay request waits for its overlay to be read. -/
def Device.ovlAsk (d : Device) (n : Nat) (t : Time) (o : Origin) : Device :=
  { d with sys := { d.sys with ovlReqs := d.sys.ovlReqs ++ [⟨n, t, o⟩] } }

def execSysOvlCtlGo (s : State) : Host.Outcome State Fault Refusal :=
  s.run (fun d =>
    if d.sys.ovlReqs.any (fun r => decide (r.origin = .host)) then d.setFld F.SYS_OVL_STAT_CODE cBUSY
    else (d.ovlAsk (d.rdN Reg.SYS_OVL_CFG % 16) (d.rdTime Reg.SYS_OVL_AT_LO) .host).setFld F.SYS_OVL_CTL_GO 1)

def execSysOverlay (u : UCmd) (s : State) : Host.Outcome State Fault Refusal :=
  s.run (fun d => d.unitCmd 0x00 1 u fun d => d.ovlAsk (u.word 0 % 16) (BitVec.ofNat 64 (u.dword 8)) u.origin)

/-- A request has been accepted or refused: SYS_OVL_STAT shows it, and a host's GO reads 0. -/
def Device.ovlAnswer (d : Device) (r : OvlReq) (c : Nat) : Device :=
  let d := ((d.setFld F.SYS_OVL_STAT_CODE c).setFld F.SYS_OVL_STAT_NUMBER r.num).setFld F.SYS_OVL_STAT_PENDING d.sys.ovls.length
  if r.origin = .host then d.setFld F.SYS_OVL_CTL_GO 0 else d

/-- The oldest request has been read and checked. -/
def execOverlayStaged (s : State) : Host.Outcome State Fault Refusal :=
  s.run (fun d =>
    match d.sys.ovlReqs with
    | [] => d
    | r :: rest =>
      let d : Device := { d with sys := { d.sys with ovlReqs := rest } }
      let known := decide (r.num < d.ovlCount d.imgBase) && decide (d.fld F.SYS_STAT_STATE = 5)
      let rs := if known then d.ovlRead r.num else []
      let c := if known then d.ovlCode r rs
        else firstCode [(decide (2 ≤ d.sys.ovls.length) || d.ovlMeets r.at', cBUSY), (decide (d.fld F.SYS_STAT_STATE ≠ 5), cNOTARMED),
          (decide (d.ovlCount d.imgBase ≤ r.num), cUNSUP)]
      let d := if known && (d.run.patchedBy rs || d.pendSched.patchedBy rs) then
          let e := (d.ovlBase r.at').ovlSched rs
          (d.setFld F.XF_SCHED_STAT_CODE e.1).setFld F.XF_SCHED_STAT_ENTRY e.2
        else d
      if c ≠ cOK then (d.ovlAnswer r c).complete r.origin c none
      else (d.ovlStage r rs).ovlAnswer r cOK)

/-! An overlay at its boundary. -/

/-- Whether an accepted overlay takes effect at a boundary (R31). -/
def Ovl.due (o : Ovl) (b : Time) : Bool := timeLE o.at' b && timeLT o.acc b

/-- The running contexts that an overlay patches, with their settings before it. -/
def Device.ovlOld (d : Device) (rs : List OvlRec) : List (Nat × CtxSet) :=
  ((ctxPatched rs).filter (fun c => d.inRun c)).map (fun c => (c, d.setOf c))

/-- A trace entry of a descriptor. -/
def trEntry (b : List Byte) (t : Nat) : List Byte := (b.drop (trBase t)).take 0x40

/-- The traces whose entry an overlay changes (R184), by context × 4 + trace. -/
def Device.ovlCuts (d : Device) (olds : List (Nat × CtxSet)) : List Nat :=
  olds.flatMap (fun x => ((List.range 4).filter (fun t => decide (trEntry x.2.desc t ≠ trEntry (d.desc x.1) t))).map (fun t => x.1 * 4 + t))

/-- The trigger units whose settings, or whose binding entry, an overlay changes (R221); `d0` is the device before it. -/
def Device.ovlUnits (d0 d : Device) (olds : List (Nat × CtxSet)) : List Nat :=
  (List.range 64).filter (fun n => decide (d0.tRegs n ≠ d.tRegs n) ||
    olds.any (fun x => (List.range 4).any (fun t =>
      let e := mkEntry x.2.desc t
      let e' := mkEntry (d.desc x.1) t
      decide (e ≠ e') && ((mkEn e && decide (mkUnit e = n)) || (mkEn e' && decide (mkUnit e' = n))))))

/-- A trigger unit's settings change at a boundary. -/
def Device.unitPatched (d : Device) (n : Nat) (old : List Nat) (b : Time) : Device :=
  let x := d.tunit n
  ((d.setTunit n { x with olds := x.olds ++ [(b, old)], restarts := x.restarts ++ [b] }).tTimerTo n old b).tTimerPatch n old b

/-- The stores that an overlay fills for a context, running or pending. -/
def Device.ovlStore (d : Device) (rs : List OvlRec) (c : Nat) (s : CtxSet) : Device :=
  let d := if d.inRun c then
      let n := mergeSet rs c (d.desc c) (d.setOf c) s
      d.setCtx c { d.ctxOf c with masks := n.masks, user := n.user, beta := n.beta }
    else d
  { d with pend := d.pend.map (fun p =>
      { p with sets := p.sets.map (fun e => if e.1 = c then (c, mergeSet rs c (d.desc c) e.2 s) else e) }) }

/-- A running context after its descriptor was patched: a new frame sequence where SOURCE, LOG2N or HOP changed (R153). -/
def Device.ovlContext (d : Device) (x : Nat × CtxSet) (b : Time) : Device :=
  let n := d.desc x.1
  let d := d.setFld (F.XF_C_STAT_LONG x.1) (if cLong n then 1 else 0)
  if cSource n ≠ cSource x.2.desc ∨ cLog n ≠ cLog x.2.desc ∨ cHop n ≠ cHop x.2.desc then d.seqStart x.1 b else d

/-- A channeliser after its settings were patched: it restarts where SOURCE, ORDER, RATIO or HB_EN of a running one changed (R130). -/
def Device.ovlChan (d0 d : Device) (z : Nat) (b : Time) : Device :=
  let shape (x : Device) : List Nat := [x.fld (F.CHN_Z_CFG_SOURCE z), x.zK z, x.zR z, x.fld (F.CHN_Z_CFG_HB_EN z)]
  if d.isSet (F.CHN_Z_STAT_RUNNING z) ∧ shape d0 ≠ shape d then (d.zStartAt z b).srcRestart (8 + z) b else d.zShowTau z

/-- The requests due on a corrector or channeliser that an overlay patches complete with BUSY (R129). -/
def Device.ovlBusy (d : Device) (rs : List OvlRec) (b : Time) : Device :=
  let hit (r : BReq) : Bool := r.due b &&
    ((decide (r.kind ∈ [.chnStart, .chnStop, .chnTune]) && decide (r.obj ∈ unitsPatched rs 1)) ||
      (decide (r.kind = .corrSwap) && decide (r.obj ∈ unitsPatched rs 0)))
  let l := d.breqs.filter hit
  l.foldl (fun d r =>
    match r.kind with
    | .chnStart => d.zFinish r.obj r.origin (F.CHN_Z_CTL_START r.obj) cBUSY (some b)
    | .chnStop => d.zFinish r.obj r.origin (F.CHN_Z_CTL_STOP r.obj) cBUSY (some b)
    | .chnTune => d.zFinish r.obj r.origin (F.CHN_Z_CTL_TUNE r.obj) cBUSY (some b)
    | _ => (d.setFld (F.CHN_C_STAT_PENDING r.obj) 0).finish r.origin (F.CHN_C_CTL_SWAP r.obj) (F.CHN_C_STAT_CODE r.obj) cBUSY (some b))
    { d with breqs := d.breqs.filter (fun r => !hit r) }

/-- The PROG records of an overlay (R336). -/
def progPatch (m : List Host.Cell) (rs : List OvlRec) : List Host.Cell :=
  rs.foldl (fun m r => if r.kind = 2 then memWrite m (r.target * 0x40000 + r.dest) r.data else m) m

/-- The panel layers after an overlay wrote some of their registers: a pending FLIP whose base it patched gives way, and the overlay is a commit
request (R569, R571). -/
def Device.ovlPanel (d : Device) (rs : List OvlRec) : Device :=
  if unitsPatched rs 3 = [] then d
  else
    let based := (List.range 4).filter (fun l => (regPatches rs).any (fun w => decide (w.1 = Reg.PNL_L_BASE_LO l) || decide (w.1 = Reg.PNL_L_BASE_HI l)))
    let d := based.foldl (fun d l => d.flipOverlaid l) d
    if d.pState = 0 then d else d.pCommit .device none

/-- An overlay's patches at a boundary, with the traces it cuts and the planes it clears. -/
def Device.ovlPatch (d0 : Device) (o : Ovl) (b : Time) : Device × List Nat × List Nat :=
  let rs := o.recs
  let olds := d0.ovlOld rs
  let d := olds.foldl (fun d x => d.keepOld x.1 b) d0
  let d := Device.regsPatch { d with ctx := ctxPatch d.ctx rs, prog := progPatch d.prog rs } rs
  let cuts := d.ovlCuts olds
  let d := cuts.foldl (fun d x => d.traceMark (x / 4) (x % 4) b) d
  let us := d0.ovlUnits d olds
  let d := us.foldl (fun d n => d.unitPatched n (d0.tRegs n) b) d
  let d := o.sets.foldl (fun d x => d.ovlStore rs x.1 x.2) d
  let d := olds.foldl (fun d x => d.ovlContext x b) d
  let d := (unitsPatched rs 1).foldl (fun d z => d0.ovlChan d z b) d
  let d := (d.ovlBusy rs b).planesFollow b
  let cleared := (List.range 16).filter (fun p => decide ((d.plane p).act = some b) && decide (d.plane p ≠ d0.plane p))
  let d := (d.ovlPanel rs).showRun.recheck
  ((d.showDetect.showBound).showStores, cuts, cleared)

/-- An overlay applies: its patches, the mode, and the completion. -/
def Device.ovlApply (d : Device) (o : Ovl) (b : Time) : Device × List Nat × List Nat :=
  let r := Device.ovlPatch { d with sys := { d.sys with ovls := d.sys.ovls.erase o } } o b
  let d := (r.1.flag F.SYS_FLAGS_OVERLAY Reg.SYS_OVL_CNT).setFld F.SYS_MODE_OVERLAY o.num
  let d := (d.wrTime Reg.SYS_MODE_AT_LO b).setFld F.SYS_OVL_STAT_PENDING d.sys.ovls.length
  (d.complete o.origin cOK (some b), r.2)

/-- An overlay that falls due at a boundary that has one already is refused (R34). -/
def Device.ovlTurnAway (d : Device) (o : Ovl) (b : Time) : Device :=
  let d : Device := { d with sys := { d.sys with ovls := d.sys.ovls.erase o } }
  ((d.setFld F.SYS_OVL_STAT_CODE cBUSY).setFld F.SYS_OVL_STAT_PENDING d.sys.ovls.length).complete o.origin cBUSY (some b)

/-- Sub-step 2a of R37: the overlay that is due at a boundary; with it the traces it cuts and the planes it clears. -/
def Device.overlayAt (d : Device) (b : Time) : Device × List Nat × List Nat :=
  match d.sys.ovls.filter (fun o => o.due b) with
  | [] => (d, [], [])
  | o :: more =>
    if d.fld F.SYS_STAT_STATE ≠ 5 then (d, [], [])
    else
      let d := more.foldl (fun d x => d.ovlTurnAway x b) d
      d.ovlApply o b

end Sys2Proof.Machine
end

