-- ==== Sys2Proof/Machine/Sleep.lean ====
section
/-! DEFINITION. Sleep (R345 to R351): the request, the entry boundary, the end of entry, the wake sources and the resume instant. -/

namespace Sys2Proof.Machine

/-- The size of the sleep save region (R348). -/
def saveSize : Nat := 0x4000000

/-- The address of the sleep save region, SYS_SAVE_BASE. -/
def Device.saveBase (d : Device) : Nat := d.rd64 Reg.SYS_SAVE_BASE_LO

/-- The times from the wake instant at which the lanes are enabled (R350 gives 3.5 to 4.0 ms: DESIGN CHOICE, log entry 132), at which the streams enter ACQUIRE, and
before which the device does not resume. -/
def wakeLanes : Time := nsTime 3500000
def wakeAcquire : Time := nsTime 4000000
def wakeResume : Time := nsTime 6000000

/-- The resume instant of a wake (R350). -/
def resumeAt (w : Time) : Time := next1024 (w + wakeResume)

/-! The request (R345). -/

/-- What keeps the device from sleeping with BUSY (R345). -/
def Device.sleepBusy (d : Device) : Bool :=
  d.hasReq [.sleep] 0 || d.sys.slp.isSome || !d.sys.ovls.isEmpty || !d.sys.ovlReqs.isEmpty || d.pend.isSome || d.checking.isSome ||
    (List.range 64).any (fun b => decide (d.acState b = acPost ∨ d.acState b = acDrain)) ||
    (List.range 64).any (fun c => d.dmaOn c) || (List.range 32).any (fun z => d.zLive z) ||
    (List.range 8).any (fun u => decide (d.uState u = 1 ∨ d.uState u = 2))

/-- The code of a sleep request with the enables of SYS_SLEEP_CFG. -/
def Device.sleepCode (d : Device) (cfg : Nat) : Nat :=
  let a := d.saveBase
  firstCode [(pastEnd a saveSize, cLENGTH), (decide (d.fld F.SYS_STAT_STATE = 5) && meets a saveSize d.imgBase (d.imgSize d.imgBase), cOVERLAP), (decide (a % 4096 ≠ 0), cALIGN),
    (aboveEnd a, cREGION), (d.sleepBusy, cBUSY), (decide (d.fld F.SYS_STAT_STATE ≠ 5), cNOTARMED), (decide (cfg % 8 = 0), cUNSUP)]

/-- The end of a sleep request. -/
def Device.sleepFinish (d : Device) (o : Origin) (c : Nat) (stamp : Option Time) : Device :=
  let d := if o = .host then d.setFld F.SYS_SLEEP_CTL_GO 0 else d
  ((d.setFld F.SYS_SLEEP_STAT_PENDING 0).setFld F.SYS_SLEEP_STAT_CODE c).complete o c stamp

/-- A sleep request: the enables, the entry instant and the timer's wake instant. -/
def Device.sleepReq (d : Device) (cfg : Nat) (at' wake : Time) (o : Origin) : Device :=
  let c := d.sleepCode cfg
  if c = cOK then
    ((d.request .sleep 0 at' o [cfg % 8, wake.toNat]).setFld F.SYS_SLEEP_STAT_PENDING 1).actBit o F.SYS_SLEEP_CTL_GO
  else if d.isSet F.SYS_SLEEP_STAT_PENDING then (d.setFld F.SYS_SLEEP_STAT_CODE c).complete o c none
  else d.sleepFinish o c none

def execSysSleepCtlGo (s : State) : Host.Outcome State Fault Refusal :=
  s.run (fun d => d.sleepReq (d.rdN Reg.SYS_SLEEP_CFG) (d.rdTime Reg.SYS_SLEEP_AT_LO) (d.rdTime Reg.SYS_WAKE_AT_LO) .host)

def execSysSleep (u : UCmd) (s : State) : Host.Outcome State Fault Refusal :=
  s.run (fun d => d.unitCmd 0x00 2 u fun d => d.sleepReq (u.word 0) (BitVec.ofNat 64 (u.dword 8)) (BitVec.ofNat 64 (u.dword 16)) u.origin)

/-! Entry (R346). -/

/-- What the device records at the entry boundary (R346). -/
def Device.sleepRec (d : Device) (r : BReq) : SleepRec where
  origin := r.origin
  sources := r.arg.getD 0 0
  wakeAt := BitVec.ofNat 64 (r.arg.getD 1 0)
  lanes := (List.range 32).filter (fun i => d.isSet (F.LNK_L_CFG_EN i))
  streams := (List.range 8).filter (fun s => decide (d.sState s = 2))
  chans := (List.range 16).filter (fun z => d.isSet (F.CHN_Z_STAT_RUNNING z))
  units := (List.range 64).filter (fun n => d.tArmed n)
  caps := (List.range 64).filter (fun b => decide (d.acState b = acPre))
  sched := ⟨d.run, d.run.entries.map (fun e => (e.1, d.setOf e.1))⟩
  planes := ((List.range 16).filter (fun p => d.isSet (F.DEN_P_STAT_ACTIVE p) && deMem (d.plane p).entry)).map (fun p => (p, d.plane p))

/-- Rotation pauses for sleep, and a TEST in progress is abandoned (R529). -/
def Device.sleepRotation (d : Device) : Device :=
  let d := (List.range 9).foldl (fun d k => d.rotPause k) d
  let d := (List.range 780).foldl (fun d u => if d.puState u = 3 then d.setUnitTest u { d.unitTest u with fails := 0, again := true } else d) d
  (List.range 9).foldl (fun d k => d.rotShow k) d

/-- Sub-step 2g of R37: a sleep request takes effect at its entry boundary. -/
def Device.sleepAt (d : Device) (r : BReq) (b : Time) : Device :=
  let x := d.sleepRec r
  let d : Device := { d.dropReq .sleep 0 with sys := { d.sys with slp := some x, asleep := false, wake := none, woken := false } }
  let d := x.streams.foldl (fun d s => d.sStopAt s) d
  let d := x.chans.foldl (fun d z => d.zStopAt z b) d
  let d := d.switchTo ⟨{}, []⟩ b
  let d := x.units.foldl (fun d n => d.tDisarmAt n b) d
  let d := x.caps.foldl (fun d c => d.acStopAt c b) d
  let d := (List.range 8).foldl (fun d t => d.stStopAt t b) d
  let d := d.evins.foldl (fun d kv => d.evFlush kv.1) d
  let d := (d.setFld F.SYS_STAT_STATE 6).setFld F.SYS_SLEEP_STAT_CAUSE 0
  d.sleepRotation.pHalt b cOK

/-- Every queue writes the slots it holds on chip to their homes (R376). -/
def Device.queuesHome (d : Device) : Device :=
  d.queues.foldl (fun d x => x.2.slots.foldl (fun d kv =>
    match kv.2 with
    | some s => (d.store (d.qHome x.1 kv.1) s.data).moved 3
    | none => d) d) d

/-- The engine state, the cluster memories and the context store go into the save region (R348). -/
def Device.saveAll (d : Device) : Device :=
  let r := d.draw
  (r.2.store r.2.saveBase ((List.range saveSize).map (Config.saveByte r.1))).moved 4

/-- Tile density counts are lost at entry (R347), but for those of a snapshot whose records are still being made. -/
def Device.tilesLost (d : Device) : Device :=
  (List.range 16).foldl (fun d p =>
    let x := d.plane p
    d.setPlane p { x with cells := match x.snap with
      | none => []
      | some s => x.cells.filter (fun kv => decide (kv.1 / 2 ^ 18 % 2 = s.bank)) }) d

/-- Whether every frame with a boundary before the entry boundary has been delivered (R346): none forms, waits or is in a pipe. -/
def Device.framesGone (d : Device) : Bool :=
  d.ready.isEmpty && d.flight.isEmpty && d.seqs.all (fun q => (d.seqNext q).isNone)

def execSleepEntryDone (s : State) : Host.Outcome State Fault Refusal :=
  s.run (fun d =>
    match d.sys.slp with
    | none => d
    | some x =>
      if d.fld F.SYS_STAT_STATE ≠ 6 ∨ d.sys.asleep ∨ !d.framesGone then d
      else
        let d := d.queuesHome.saveAll.tilesLost
        let d := x.lanes.foldl (fun d i => d.disableLane i) d
        let d := (d.setFld F.HIF_LINK_STAT_L1 (d.cfgOf 7)).setFld F.MEM_STAT_STATE 3
        { d with sys := { d.sys with asleep := true, wake := if d.sys.woken then some d.time else none } })

/-! Wake (R349, R350). -/

/-- A wake cause: 0 PIN, 1 HOST, 2 TIMER. A cause during entry wakes the device at the end of entry. -/
def Device.wakeCause (d : Device) (i : Nat) : Device :=
  match d.sys.slp with
  | none => d
  | some x =>
    if !bitAt x.sources i ∨ d.fld F.SYS_STAT_STATE ∉ [6, 7] then d
    else
      let d := d.setFld ⟨Reg.SYS_SLEEP_STAT, ⟨F.SYS_SLEEP_STAT_CAUSE.f.lo + i, 1⟩⟩ 1
      if !d.sys.asleep then { d with sys := { d.sys with woken := true } }
      else { d with sys := { d.sys with wake := some (d.sys.wake.getD d.time) } }

def execWakePin (s : State) : Host.Outcome State Fault Refusal := s.run (fun d => d.wakeCause 0)

def execWakeHostAccess (s : State) : Host.Outcome State Fault Refusal := s.run (fun d => d.wakeCause 1)

def execWakeTimer (s : State) : Host.Outcome State Fault Refusal :=
  s.run (fun d => if (d.sys.slp.map (fun x => timeLE x.wakeAt d.time)).getD false then d.wakeCause 2 else d)

/-- The wake instant: WAKING. -/
def execWakeStart (s : State) : Host.Outcome State Fault Refusal :=
  s.run (fun d =>
    match d.sys.slp, d.sys.wake with
    | some _, some _ =>
      if d.fld F.SYS_STAT_STATE ≠ 6 ∨ !d.sys.asleep then d
      else
        let d := (d.setFld F.SYS_STAT_STATE 7).setFld F.HIF_LINK_STAT_L1 0
        { d with sys := { d.sys with wakeStep := 0 } }
    | _, _ => d)

/-- Memory leaves self-refresh (R420). -/
def Device.memWake (d : Device) : Device := if d.fld F.MEM_STAT_STATE = 3 then d.setFld F.MEM_STAT_STATE 2 else d

/-- The wake sequence (R350): memory leaves self-refresh in the first 0.5 ms, the lanes recorded at E are enabled, and 4.0 ms after the wake instant the streams recorded at E enter ACQUIRE. -/
def Device.wakeTick (d : Device) : Device :=
  match d.sys.slp, d.sys.wake with
  | some x, some w =>
    if d.fld F.SYS_STAT_STATE ≠ 7 then d
    else
      let d := if timeLE (w + nsTime 500000) d.time then d.memWake else d
      let d := if d.sys.wakeStep = 0 ∧ timeLE (w + wakeLanes) d.time then
          x.lanes.foldl (fun d i => d.enableLane i (d.isSet (F.LNK_L_CFG_POL_INV i))) { d with sys := { d.sys with wakeStep := 1 } }
        else d
      if d.sys.wakeStep = 1 ∧ timeLE (w + wakeAcquire) d.time then
        x.streams.foldl (fun d t => Device.setStream (d.sAcquire t) t { (d.sAcquire t).stream t with acqSince := w + wakeAcquire })
          { d with sys := { d.sys with wakeStep := 2 } }
      else d
  | _, _ => d

/-- A stream at the resume instant: it becomes RUNNING where it has acquired in time, and is OFF with CONDITIONS otherwise. -/
def Device.resumeStream (d : Device) (w r : Time) (t : Nat) : Device :=
  if d.sState t ≠ 1 then d
  else
    match (d.stream t).acqEnd with
    | some e =>
      if timeLE e (w + wakeAcquire + nsTime 1000000) then ((d.sStartAt t r).setFld (F.LNK_S_STAT_CODE t) cOK).streamRestart t r
      else (d.setFld (F.LNK_S_STAT_STATE t) 0).setFld (F.LNK_S_STAT_CODE t) cCONDITIONS
    | none => (d.setFld (F.LNK_S_STAT_STATE t) 0).setFld (F.LNK_S_STAT_CODE t) cCONDITIONS

/-- Memory planes go on with the cells they held at entry, and their decay counts from the resume instant (R350). -/
def Device.resumePlanes (d : Device) (x : SleepRec) (r : Time) : Device :=
  let d := x.planes.foldl (fun d p => d.setFld (F.DEN_P_STAT_ACTIVE p.1) 1) d
  let d := d.switchTo ⟨x.sched.sched, x.sched.sets.map (fun e => (e.1, d.readSet (d.desc e.1)))⟩ r
  x.planes.foldl (fun d p => if d.isSet (F.DEN_P_STAT_ACTIVE p.1) then d.setPlane p.1 { d.plane p.1 with since := r, steps := 0 } else d) d

/-- TIMER instants that passed during sleep leave TIMER pending (R351). -/
def Device.resumeTimers (d : Device) (r : Time) : Device :=
  (Sparse.keys d.engines).foldl (fun d e =>
    let x := d.eng e
    match x.timer with
    | some t => if timeLE t r then d.setEng e { x with timer := none, timerExp := true } else d
    | none => d) d

def execResumeInstant (s : State) : Host.Outcome State Fault Refusal :=
  s.run (fun d =>
    match d.sys.slp, d.sys.wake with
    | some x, some w =>
      let r := resumeAt w
      if d.fld F.SYS_STAT_STATE ≠ 7 ∨ !timeLE r d.time then d
      else
        let d : Device := { d with sys := { d.sys with slp := none, asleep := false, wake := none, woken := false } }
        let d := (d.setFld F.SYS_STAT_STATE 5).memWake
        let d := x.streams.foldl (fun d t => d.resumeStream w r t) d
        let d := x.chans.foldl (fun d z => (d.zStartAt z r).srcRestart (8 + z) r) d
        let d := d.resumePlanes x r
        let d := x.units.foldl (fun d n => d.tArmAt n r) d
        let d := x.caps.foldl (fun d c => d.acArmAt c r) d
        let d := (List.range 9).foldl (fun d k => d.rotShow k) ((d.resumeTimers r).stepsMissed r)
        let d := (d.wrTime Reg.SYS_RESUME_LO r).flag F.SYS_FLAGS_SLEPT Reg.SYS_SLEEP_CNT
        d.sleepFinish x.origin cOK (some r)
    | _, _ => d)

end Sys2Proof.Machine
end

