-- ==== Sys2Proof/Machine/Startup.lean ====
section
/-! DEFINITION. From reset to READY (R337 to R340, R450, R536 to R538, R419, R585): the reset pins, the reference, power-on self-test and
memory training. -/

namespace Sys2Proof.Machine

/-! The reset pins. -/

/-- A full reset: every unit in its reset state. Rows repaired hard, and those that await training, belong to the stacks (R415); the I2C straps
are sampled at reset release and do not change (R511); what has left the device stays sent. -/
def Device.fullReset (d : Device) : Device :=
  { outbox := d.outbox, hostRead := d.hostRead, hostReadEp := d.hostReadEp, freeCount := d.freeCount,
    memc := { hard := d.memc.hard, pend := d.memc.pend }, panel := { hpdLow := d.panel.hpdLow },
    sys := { low := d.sys.low, straps := d.sys.straps } }

/-- Whether a reset pin is low. -/
def Device.pinLow (d : Device) : Bool := d.sys.low.any id

/-- The place of a pin in `Sys.low`. -/
def pinOf (perst : Bool) : Nat := if perst then 1 else 0

def Device.setPin (d : Device) (perst low : Bool) : Device :=
  { d with sys := { d.sys with low := d.sys.low.set (pinOf perst) low } }

/-- A low level on a reset pin of a width in ns; `full`: a width that R585 leaves open causes a reset. -/
def execResetAssert (perst : Bool) (ns : Nat) (full : Bool) (s : State) : Host.Outcome State Fault Refusal :=
  s.run (fun d => if 10000 ≤ ns ∨ (100 ≤ ns ∧ full) then (d.setPin perst true).fullReset else d)

/-- A reset pin rises: with the later one the sequence of R337 starts, and step 1 waits for REFCLK. -/
def execResetRelease (perst : Bool) (s : State) : Host.Outcome State Fault Refusal :=
  s.run (fun d =>
    if !d.sys.low.getD (pinOf perst) false then d
    else
      let d := d.setPin perst false
      if d.pinLow then d else (d.setFld F.SYS_STAT_STATE 1).setFld F.SYS_STAT_REF_WAIT 1)

/-! The reference (R338, R450). -/

/-- The frequencies that R450 lists, in Hz. -/
def refList : List Nat :=
  [10000000, 19200000, 25000000, 50000000, 61440000, 100000000, 122880000, 125000000, 153600000, 156250000, 200000000, 245760000, 250000000]

/-- How far apart two numbers are. -/
def apart (a b : Nat) : Nat := (a - b) + (b - a)

/-- The nearest of some frequencies. -/
def nearestRef (hz : Nat) : List Nat → Option Nat
  | [] => none
  | f :: fs =>
    match nearestRef hz fs with
    | none => some f
    | some g => if apart f hz ≤ apart g hz then some f else some g

/-- The frequency that the device takes REFCLK to be, from its measurement, and whether it is a guess (R450); none when it cannot be placed. -/
def refFreq (hz : Nat) : Option (Nat × Bool) :=
  match nearestRef hz (refList.filter (fun f => decide (apart f hz * 100 ≤ hz))) with
  | some f => some (f, false)
  | none => if 10000000 ≤ hz ∧ hz ≤ 250000000 then some ((hz + 500) / 1000 * 1000, true) else none

/-- The values that program a root for 8.000 GHz from a reference (R450, R453): PDIV 1, INT, FRAC. -/
def rootFor (ref : Nat) : Nat × Nat := (1 + 8000000000 / ref * 2 ^ 16, 8000000000 % ref * 2 ^ 32 / ref)

/-- REFCLK has been present for 1 ms: `hz` is its measurement, `lockA` and `lockB` the roots that lock. -/
def execRefclkReady (hz : Nat) (lockA lockB : Bool) (s : State) : Host.Outcome State Fault Refusal :=
  s.run (fun d =>
    if d.fld F.SYS_STAT_STATE ≠ 1 ∨ d.sys.started ∨ d.pinLow ∨ d.isSet F.CLK_STAT_REF_PRESENT then d
    else
      match refFreq hz with
      | none => d.setFld F.SYS_STAT_REF_WAIT 1
      | some (f, guess) =>
        let d := ((d.setFld F.SYS_STAT_REF_WAIT 0).setFld F.CLK_STAT_REF_PRESENT 1).setFld F.CLK_STAT_REF_GUESS (if guess then 1 else 0)
        let d := ((d.wr Reg.CLK_REF_FREQ f).wr Reg.CLK_CUR_CFG (rootFor f).1).wr Reg.CLK_CUR_FRAC (rootFor f).2
        let d : Device := { d with roots := { d.roots with ref := f } }
        let d := (d.setFld F.CLK_STAT_A_LOCK (if lockA then 1 else 0)).setFld F.CLK_STAT_B_LOCK (if lockB then 1 else 0)
        if lockA ∧ lockB then d.stepOneEnd else d)

/-- 10 ms after one root has locked the other has not, and is withdrawn with CAUSE LOCK; or neither has, and the start has failed. -/
def execRootLockTimeout (s : State) : Host.Outcome State Fault Refusal :=
  s.run (fun d =>
    if !d.locking then d
    else
      let a := d.isSet F.CLK_STAT_A_LOCK
      let b := d.isSet F.CLK_STAT_B_LOCK
      if !a ∧ !b then d.setFld F.SYS_STAT_STATE 8
      else
        let d := (d.setFld F.CLK_STAT_ACTIVE (if a then 0 else 1)).stepOneEnd
        d.withdrawUnit (rootUnit d.standby) 5)

/-! Power-on self-test (R536 to R538). -/

/-- The role of the n-th unit in service of a group. -/
def roleNo (k g n : Nat) : Nat := g * (rotClass k).2.2.2 + n

/-- POST's outcome for one unit. -/
def Device.postUnit (d : Device) (u : Nat) (failed : Bool) : Device :=
  let d := d.flag F.BST_FLAGS_RUN Reg.BST_RUN_CNT
  if failed then ((d.flag F.BST_FLAGS_FAIL Reg.BST_FAIL_CNT).setFld (F.ROT_U_TESTS_FAILED u) 1).withdrawUnit u 4
  else (d.setFld (F.ROT_U_TESTS_PASSED u) 1).wrTime (Reg.ROT_U_LAST_LO u) d.time

/-- The units of a group take its roles in ascending physical order, and the roles left over are vacant. -/
def Device.postGroup (d : Device) (k g : Nat) : Device :=
  let n := (rotClass k).2.2.2
  let us := (groupUnits k g).filter (fun u => decide (d.puState u ≠ 5))
  let d := ((List.range (min n us.length)).zip us).foldl (fun d x => d.setUState x.2 4 (roleNo k g x.1)) d
  ((List.range n).filter (fun i => decide (us.length ≤ i))).foldl (fun d i => d.roleVacant k (roleNo k g i)) d

/-- The maps are built: every class in ascending physical order. -/
def Device.buildMaps (d : Device) : Device :=
  let d := (List.range 8).foldl (fun d k => (List.range (rotClass k).2.1).foldl (fun d g => d.postGroup k g) d) d
  let live := (List.range 16).filter (fun t => (groupUnits 1 0).any (fun u => decide (d.puState u = 4) && decide (d.puRole u = t)))
  let d := d.setLive ((live.map (fun t => 2 ^ t)).sum)
  (List.range 9).foldl (fun d k => d.rotShow k) d

/-- Roles of classes 0 to 5 that no unit holds. -/
def Device.rolesVacant (d : Device) : Nat := ((List.range 6).map (fun k => d.fld (F.ROT_K_STAT_VACANT k))).sum

/-- POST ends: `failed` are the units of classes 0 to 5 that fail, `fixed` the windows whose fixed logic fails, `vddOk` whether its own
measurement of VDD_CORE lies in the range of R533. -/
def execPostDone (failed : List Nat) (fixed : Nat) (vddOk : Bool) (s : State) : Host.Outcome State Fault Refusal :=
  s.run (fun d =>
    if d.fld F.SYS_STAT_STATE ≠ 1 ∨ !d.sys.started then d
    else
      let run := vddOk && decide ((76 : ℚ) / 10 ≤ d.fRoot) && decide (d.fRoot ≤ 8)
      let d := if run then (List.range 682).foldl (fun d u => d.postUnit u (decide (u ∈ failed))) d
        else (d.flag F.BST_FLAGS_CONDITIONS Reg.BST_COND_CNT).setFld F.SYS_POST_STAT_SKIPPED 1
      let d := (d.buildMaps).setFld F.SYS_POST_STAT_DONE 1
      let d := d.wr Reg.BST_POST_FAIL (if run then fixed % 65536 else 0)
      let d := d.setFld F.SYS_POST_STAT_WITHDRAWN (min 255 ((List.range 682).filter (fun u => decide (d.puState u = 5))).length)
      let d := d.setFld F.SYS_POST_STAT_PASS (if run ∧ fixed % 65536 = 0 ∧ d.rolesVacant = 0 then 1 else 0)
      let d := (List.range 9).foldl (fun d k => d.rotShow k) d
      if (groupUnits 0 0).all (fun u => decide (d.puState u = 5)) then d.setFld F.SYS_STAT_STATE 8
      else (d.setFld F.SYS_STAT_STATE 2).setFld F.MEM_STAT_STATE 1)

/-- Memory training ends (R419): `remaps` are the failing lanes of each pseudo-channel, `flash` whether a flash answers. -/
def execTrainingDone (remaps : List Nat) (flash : Bool) (s : State) : Host.Outcome State Fault Refusal :=
  s.run (fun d =>
    if d.fld F.SYS_STAT_STATE ≠ 2 then d
    else
      let d := d.memTrain remaps
      if d.isSet F.MEM_STAT_FAILED then d.setFld F.SYS_STAT_STATE 8
      else
        let d := (d.setFld F.SYS_STAT_STATE 3).setFld F.SYS_FLASH_CFG_PRESENT (if flash then 1 else 0)
        if flash then (d.setFld F.SYS_STAT_FLASH_TRIED 1).flashBoot true else d)

end Sys2Proof.Machine
end

