-- ==== Sys2Proof/Machine/Electrical.lean ====
section
/-! DEFINITION. Supplies, and the test access port (R583, R584, R592; IEEE 1149.1). -/

namespace Sys2Proof.Machine

/-- What survives without power: rows repaired hard (R415). -/
def Device.unpowered (d : Device) : Device :=
  { outbox := d.outbox, hostRead := d.hostRead, hostReadEp := d.hostReadEp, freeCount := d.freeCount, memc := { hard := d.memc.hard },
    sys := { low := d.sys.low } }

/-- The rails have risen with both reset pins low (R583); the address straps are sampled (R591). -/
def execPowerUp (straps : Nat) (s : State) : Host.Outcome State Fault Refusal :=
  s.run (fun d => { d.unpowered with sys := { low := [true, true], straps := straps % 4 } })

/-- A rail leaves its operating range (R584): with both reset pins high the manual gives the device no behaviour until the next full reset. -/
def execRailOutOfRange (s : State) : Host.Outcome State Fault Refusal :=
  if s.dev.pinLow then s.run Device.unpowered else .fault .railUndefined

/-! The test access port. -/

/-- The state after a rising edge of TCK (IEEE 1149.1). -/
def TapState.after (t : TapState) (tms : Bool) : TapState :=
  match t, tms with
  | .testLogicReset, true => .testLogicReset
  | .testLogicReset, false => .runTestIdle
  | .runTestIdle, true => .selectDr
  | .runTestIdle, false => .runTestIdle
  | .selectDr, true => .selectIr
  | .selectDr, false => .captureDr
  | .captureDr, true => .exit1Dr
  | .captureDr, false => .shiftDr
  | .shiftDr, true => .exit1Dr
  | .shiftDr, false => .shiftDr
  | .exit1Dr, true => .updateDr
  | .exit1Dr, false => .pauseDr
  | .pauseDr, true => .exit2Dr
  | .pauseDr, false => .pauseDr
  | .exit2Dr, true => .updateDr
  | .exit2Dr, false => .shiftDr
  | .updateDr, true => .selectDr
  | .updateDr, false => .runTestIdle
  | .selectIr, true => .testLogicReset
  | .selectIr, false => .captureIr
  | .captureIr, true => .exit1Ir
  | .captureIr, false => .shiftIr
  | .shiftIr, true => .exit1Ir
  | .shiftIr, false => .shiftIr
  | .exit1Ir, true => .updateIr
  | .exit1Ir, false => .pauseIr
  | .pauseIr, true => .exit2Ir
  | .pauseIr, false => .pauseIr
  | .exit2Ir, true => .updateIr
  | .exit2Ir, false => .shiftIr
  | .updateIr, true => .selectDr
  | .updateIr, false => .runTestIdle

/-- The bits of a number, least significant first. -/
def lsbFirst (n w : Nat) : List Bool := (List.range w).map (fun i => bitAt n i)

/-- The number that bits spell, least significant first. -/
def ofBits : List Bool → Nat
  | [] => 0
  | b :: bs => (if b then 1 else 0) + 2 * ofBits bs

/-- IDCODE (R592): version 0x1, part 0x5120. -/
def idCode : Nat := 1 * 2 ^ 28 + 0x5120 * 2 ^ 12 + Config.idLow % 2 ^ 12

/-- Whether an instruction selects the boundary register. -/
def boundaryCode (ir : Nat) : Bool := (List.range 5).any (fun i => decide (0 < i) && decide (ir = Config.tapCode i % 256))

/-- Capture-DR: what the selected data register takes. -/
def Device.tapCapture (d : Device) : Device :=
  let t := d.tap
  if t.ir = Config.tapCode 0 % 256 then { d with tap := { t with drShift := lsbFirst idCode 32 } }
  else if boundaryCode t.ir then
    let r := d.draw
    { r.2 with tap := { t with drShift := (List.range Config.boundaryLength).map (Config.boundaryCell r.1) } }
  else { d with tap := { t with drShift := [false] } }

/-- A rising edge of TCK. -/
def Device.tapRise (d : Device) (tms tdi : Bool) : Device :=
  let t := d.tap
  let d := match t.state with
    | .captureDr => d.tapCapture
    | .shiftDr => { d with tap := { t with drShift := t.drShift.tail ++ [tdi] } }
    | .captureIr => { d with tap := { t with irShift := lsbFirst 1 8 } }
    | .shiftIr => { d with tap := { t with irShift := t.irShift.tail ++ [tdi] } }
    | _ => d
  { d with tap := { d.tap with state := t.state.after tms } }

/-- A falling edge of TCK. -/
def Device.tapFall (d : Device) : Device :=
  let t := d.tap
  match t.state with
  | .shiftDr => d.send (.tdo (t.drShift.headD false))
  | .shiftIr => d.send (.tdo (t.irShift.headD false))
  | .updateDr => if boundaryCode t.ir then { d with tap := { t with boundary := t.drShift } } else d
  | .updateIr => { d with tap := { t with ir := ofBits t.irShift } }
  | .testLogicReset => { d with tap := { t with ir := Config.tapCode 0 % 256 } }
  | _ => d

/-- An edge of TCK; `trst`: TRST_N is low, which keeps the port in Test-Logic-Reset. -/
def execTestAccessPortClock (tms tdi trst rising : Bool) (s : State) : Host.Outcome State Fault Refusal :=
  s.run (fun d =>
    if trst then { d with tap := { d.tap with state := .testLogicReset, ir := Config.tapCode 0 % 256 } }
    else if rising then d.tapRise tms tdi else d.tapFall)

end Sys2Proof.Machine
end

