-- ==== Sys2Proof/Machine/Boundary.lean ====
section
/-! DEFINITION. Device time, device boundaries and decimator resets (R30 to R38, R133, R459, R478, R525, R527): everything that takes effect at a
boundary, in the order of R36 and R37. -/

namespace Sys2Proof.Machine

/-! Device time. -/

/-- The increment of device time per TCLK edge, 8 / f_root ns (R459), in units of 2^-16 ns, as numerator and denominator. -/
def Device.tick (d : Device) : Nat × Nat :=
  let cfg := d.rdN Reg.CLK_CUR_CFG
  (8 * 65536 * bitsOf cfg 0 4 * 2 ^ 32 * 10 ^ 9, d.roots.ref * (bitsOf cfg 16 10 * 2 ^ 32 + d.rdN Reg.CLK_CUR_FRAC))

/-- Engines that run spend 8/5 ECLK cycles in a TCLK period (CL_E_BUSY). -/
def Device.engBusy (d : Device) : Device :=
  if d.sys.asleep then d
  else { d with engines := d.engines.map (fun x => if x.2.state = 1 then (x.1, { x.2 with busy := x.2.busy + 8 }) else x) }

/-- A TCLK edge: device time goes on by its exact increment, the residue carried, or takes the value of a set (R479); what follows device time follows. -/
def Device.tclk (d : Device) : Device :=
  let d := match d.setReq with
    | some _ => d.setNow
    | none =>
      let t := d.tick
      let n := t.1 + d.timeRem
      { d with time := d.time + BitVec.ofNat 64 (n / t.2), timeRem := n % t.2 }
  let d := Device.syncSample { d with syncLeft := d.syncLeft.map (· - 1), monSync := d.monSync.map (· - 1) }
  let d : Device := if d.isSet F.CAS_STAT_SLEWING then { d with cas := { d.cas with slewTick := d.cas.slewTick + 1 } } else d
  (d.evOnAll.evDrainAll.stLatestAll.wakeTick.pfdTick.engBusy.casWaiting).showDecided

def execTclkTick (s : State) : Host.Outcome State Fault Refusal :=
  s.run (fun d => if d.sys.started ∧ !d.pinLow then d.tclk else d)

/-- The coarse count has passed from 2^48 - 1 to 0 (R478). -/
def execTimeWrap (s : State) : Host.Outcome State Fault Refusal :=
  s.run (fun d => (d.wr Reg.EVT_EPOCH ((d.rdN Reg.EVT_EPOCH + 1) % 65536)).flag F.EVT_FLAGS_TIME_WRAP Reg.EVT_WRAP_CNT)

/-! The requests of step 2. -/

/-- Apply the requests of some kinds that are due at a boundary, in the order of their acceptance. -/
def Device.takeDue (d : Device) (p : Device → BReq → Bool) (f : Device → BReq → Device) : Device :=
  (d.breqs.filter (p d)).foldl (fun d r => if r ∈ d.breqs then f { d with breqs := d.breqs.erase r } r else d) d

/-- Whether a request is of one of some kinds and due. -/
def dueOf (ks : List BKind) (b : Time) (r : BReq) : Bool := decide (r.kind ∈ ks) && r.due b

/-- A request of sub-step 2b: streams, correctors and channelisers. -/
def Device.chainReq (d : Device) (r : BReq) (b : Time) : Device :=
  let z := r.obj
  match r.kind with
  | .streamStart => d.streamStartAt r b
  | .streamStop => d.streamStopAt r b
  | .corrSwap =>
    ((d.cSwapAt z b).setFld (F.CHN_C_STAT_PENDING z) 0).finish r.origin (F.CHN_C_CTL_SWAP z) (F.CHN_C_STAT_CODE z) cOK (some b)
  | .chnStart => ((d.zStartAt z b).zFinish z r.origin (F.CHN_Z_CTL_START z) cOK (some b)).srcRestart (8 + z) b
  | .chnStop => (d.zStopAt z b).zFinish z r.origin (F.CHN_Z_CTL_STOP z) cOK (some b)
  | .chnTune => (d.zTuneAt z b (r.arg.getD 0 0)).zFinish z r.origin (F.CHN_Z_CTL_TUNE z) cOK (some b)
  | _ => d

/-- Sub-step 2b. A START also waits until its stream has acquired (R101). -/
def Device.chainAt (d : Device) (b : Time) : Device :=
  let d := d.takeDue (fun d r => if r.kind = .streamStart then d.sStartDue r b
    else dueOf [.streamStop, .corrSwap, .chnStart, .chnStop, .chnTune] b r) (fun d r => d.chainReq r b)
  (List.range 8).foldl (fun d s => d.streamRejoinAt s b) d

/-- Sub-steps 2c and 2d: the schedule switch, trace clears, and density snapshots and clears. -/
def Device.fabricAt (d : Device) (b : Time) (cuts planes : List Nat) : Device :=
  let d := d.takeDue (fun _ r => dueOf [.schedSwitch] b r) (fun d r => d.schedSwitchAt r b)
  let d := (d.takeDue (fun _ r => dueOf [.detClear] b r) (fun d r => d.detClearAt r b cuts)).tracesSettle
  d.takeDue (fun _ r => dueOf [.denSnap, .denClear] b r) (fun d r => d.denAt r b (decide (r.obj ∈ planes)))

/-- A request of sub-step 2e: trigger units, statistics units, clock outputs and monitor converters. -/
def Device.unitReq (d : Device) (r : BReq) (b : Time) : Device :=
  let n := r.obj
  match r.kind with
  | .trgArm => (d.tArmAt n b).finish r.origin (F.TRG_T_CTL_ARM n) (F.TRG_T_STAT_CODE n) cOK (some b)
  | .trgDisarm => (d.tDisarmAt n b).finish r.origin (F.TRG_T_CTL_DISARM n) (F.TRG_T_STAT_CODE n) cOK (some b)
  | .statArm => d.stApply r b
  | .statStop => d.stApply r b
  | .ckoStart => d.ckoApply r b
  | .ckoStop => d.ckoApply r b
  | .monStart => d.monStartAt r b
  | _ => d

/-- Sub-step 2e for some kinds; a clock output starts only when its calibration has ended (R472, R518). -/
def Device.unitsAt (d : Device) (b : Time) (ks : List BKind) : Device :=
  d.takeDue (fun d r => dueOf ks b r && !(decide (r.kind = .ckoStart) && (d.cko r.obj).cal.isSome)) (fun d r => d.unitReq r b)

/-- A request of sub-step 2f: captures. -/
def Device.capReq (d : Device) (r : BReq) (b : Time) : Device :=
  let n := r.obj
  if r.kind = .acqArm then (d.acArmAt n b).acFinish n r.origin (F.ACQ_B_CTL_ARM n) cOK (some b)
  else (d.acStopAt n b).acFinish n r.origin (F.ACQ_B_CTL_STOP n) cOK (some b)

/-- Step 2 of R36, in the order of R37. -/
def Device.stepTwo (d : Device) (b : Time) : Device :=
  let o := d.overlayAt b
  let d := (o.1.chainAt b).fabricAt b o.2.1 o.2.2
  let d := d.unitsAt b [.trgArm, .trgDisarm, .statArm, .statStop, .ckoStart, .ckoStop, .monStart]
  let d := d.takeDue (fun _ r => dueOf [.acqArm, .acqStop] b r) (fun d r => d.capReq r b)
  d.takeDue (fun _ r => dueOf [.sleep] b r) (fun d r => d.sleepAt r b)

/-! Step 3: rotation swaps and the role table. -/

/-- What a class does besides the maps when a unit takes a role; a converter's results come from its own chain from then on (R509). -/
def Device.swapClass (d : Device) (k s role : Nat) (b : Time) : Device :=
  match k with
  | 5 => d.setMon role { d.mon role with swapAt := some b, flt := (d.mon role).shd.getD {}, shd := none }
  | 6 => d.samplerSwap role
  | 7 => d.setFld (F.EVT_I_STAT_LINE role) (s % 2)
  | 8 => d.rootSwitch b
  | _ => d

/-- A unit takes its role at a boundary (R525, R527), and the retired unit enters TEST, or is withdrawn. -/
def Device.swapAt (d : Device) (k : Nat) (x : RotStep) (b : Time) : Device :=
  let role := d.puRole x.v
  let d := if x.phase = 3 then
      let r := d.draw
      let a := if k = 0 then (role, (d.eng role).pc) else (r.1 % 4096, r.1 / 4096 % 2 ^ 32)
      let d := if k = 0 then d else r.2
      (d.flag F.ROT_FLAGS_FORCED Reg.ROT_FORCED_CNT).alarm a.1 11 a.2
    else d
  let d := (d.swapClass k x.s role b).setUState x.s 4 role
  let d := (d.inc Reg.ROT_SWAP_CNT).wrTime (Reg.ROT_K_SWAP_LO k) b
  let d := if x.withdraw then d.withdrawUnit x.v 3 else d.enterTest x.v
  (d.unitService x.s role).stepEnd k

/-- The step of a class at a boundary: SHADOW starts (R524), or the swap is made. -/
def Device.stepAt (d : Device) (k : Nat) (b : Time) : Device :=
  match d.rotStepOf k with
  | none => d
  | some x =>
    if !timeLT x.since b then d
    else if x.phase = 0 then
      let d := if k = 5 then d.setMon (d.puRole x.v) { d.mon (d.puRole x.v) with shd := none } else d
      ((d.setUState x.s 1 (d.puRole x.v)).setRotStep k (some { x with phase := 1, since := b })).rotShow k
    else if x.phase = 1 then d
    else d.swapAt k x b

/-- Roles whose LIVE unit is withdrawn without a spare become vacant (R532). -/
def Device.vacateAt (d : Device) (b : Time) : Device :=
  let due := d.rot.vacate.filter (fun x => timeLT x.2 b)
  due.foldl (fun d x =>
    let role := d.puRole x.1
    if d.puState x.1 = 4 then (d.withdrawUnit x.1 3).roleVacant (unitClass x.1) role else d)
    { d with rot := { d.rot with vacate := d.rot.vacate.filter (fun x => !timeLT x.2 b) } }

/-- The enabled forwarding entries send what waits in their queues (R555). -/
def Device.forwardsAll (d : Device) : Device :=
  (List.range 16).foldl (fun d f => if d.isSet (F.CAS_F_CFG_EN f) then d.casForward (d.fld (F.CAS_F_CFG_SQUEUE f)) else d) d

/-- A role table applies; a device that comes to work in the cascade forwards the records that wait, and a standby that takes a member's number starts
that member's image (R547, R555, R558). -/
def Device.rolesAt (d : Device) (b : Time) : Device :=
  let was := d.casRole
  let d := d.takeDue (fun _ r => dueOf [.role] b r) (fun d r => d.roleApply r b)
  let d := if was ∈ [caMaster, caMember] then d else d.forwardsAll
  if was = caStandby ∧ d.casRole = caMember then
    let base := d.rd64 (Reg.CAS_D_IMG_LO d.casSelf)
    let d := if d.fld F.SYS_STAT_STATE = 3 then d.wr64 Reg.SYS_IMG_BASE_LO base else d
    d.imgTry 4
  else d

/-- Step 3 of R36. -/
def Device.stepThree (d : Device) (b : Time) : Device :=
  (((List.range 9).foldl (fun d k => d.stepAt k b) d).refillAll.vacateAt b).rolesAt b

/-! Step 4: rate changes. -/

/-- The change of the root (R466): the residue of device time keeps its length under the new increment. -/
def Device.rootChange (d : Device) (b : Time) : Device :=
  if d.fld F.CLK_CHANGE_STAT_STATE ≠ 2 then d
  else
    let was := d.tick.2
    let d := d.changeSwitch b
    if was = 0 then d else { d with timeRem := d.timeRem * d.tick.2 / was }

/-- The clock part of step 4: a change of the root, and the end of holdover. -/
def Device.clocksAt (d : Device) (b : Time) : Device :=
  (d.takeDue (fun _ r => dueOf [.clkSwitch] b r) (fun d _ => d.rootChange b)).holdoverEnd b

/-- Step 4 of R36: stream rates, the root, the factors of captures, and the exports that end (R106). `staging` are the bytes in captures' staging
buffers. -/
def Device.stepFour (d : Device) (b : Time) (staging : List (Nat × Nat)) : Device :=
  let d := d.takeDue (fun _ r => dueOf [.streamRate] b r) (fun d r => d.streamRateAt r b)
  let d := d.clocksAt b
  let d := (List.range 64).foldl (fun d c =>
    d.acDemand c b (match staging.find? (fun x => decide (x.1 = c)) with | some x => x.2 | none => (d.cap c).staging)) d
  d.takeDue (fun _ r => dueOf [.exportStop] b r) (fun d r => d.setFld (F.LNK_E_STAT_RUNNING r.obj) 0)

/-! A boundary. -/

/-- Step 1 of R36: a decimator reset (R32, R133) on the TCLK edge at `b`. -/
def Device.stepOne (d : Device) (b : Time) : Device :=
  let d := Device.decReset { d with syncLeft := d.syncLeft.filter (fun n => decide (n ≠ 0)) } b
  let d := (List.range 8).foldl (fun d s => (if d.sTimed s then d.streamRestart s b else d).eReset s b) d
  d.resetDone b

/-- While the core sleeps (R346, R350), only the clocks, a decimator reset and the monitor converters act at a boundary. -/
def Device.gated (d : Device) : Bool := decide (d.fld F.SYS_STAT_STATE ∈ [6, 7])

/-- A device boundary with stamp `b`. -/
def Device.boundaryAt (d : Device) (b : Time) (reset : Bool) (staging : List (Nat × Nat)) : Device :=
  if d.gated then
    ((if reset then d.stepOne b else d).unitsAt b [.ckoStart, .ckoStop, .monStart]).clocksAt b
  else (((if reset then d.stepOne b else d).stepTwo b).stepThree b).stepFour b staging

/-- Whether an instant that device time has reached is a device boundary (R30). -/
def Device.isBoundary (d : Device) (b : Time) : Bool := timeLE b d.time && decide (d.boundaryFrom b = b)

def execDeviceBoundary (b : Time) (staging : List (Nat × Nat)) (s : State) : Host.Outcome State Fault Refusal :=
  s.run (fun d => if d.isBoundary b then d.boundaryAt b (decide (b = d.time) && d.resetDue b) staging else d)

/-- A decimator reset acts on the TCLK edge at `t`, a commanded one or one that SYNC_IN asked for 16 edges before (R134, R135). -/
def execDecimatorReset (t : Time) (s : State) : Host.Outcome State Fault Refusal :=
  s.run (fun d => if t = d.time ∧ (d.resetDue t ∨ 0 ∈ d.syncLeft) then d.boundaryAt t true [] else d)

end Sys2Proof.Machine
end

