-- ==== Sys2Proof/Machine/ComplexOps.lean ====
section
/-! DEFINITION. The complex instructions of Disoex, groups A and B, with the data moves their second word carries
(R288 to R291, R296, R300, R301, R306, R307). -/

namespace Sys2Proof.Machine

/-- The place of a move on its bus (R296): the X bus reaches X and local memory, the Y bus Y and local memory. -/
def moveLoc (onX : Bool) (a size : Nat) : Except Nat DLoc :=
  match dataLoc a size with
  | .ok (.x o) => if onX then .ok (.x o) else .error 3
  | .ok (.y o) => if onX then .error 3 else .ok (.y o)
  | .ok (.l o) => .ok (.l o)
  | .ok (.port _ _) => .error 3
  | .error c => .error c

/-- The place one move uses, if there is a move. -/
def Engine.movePlace (x : Engine) (onX : Bool) : Option Move → Except Nat (Option (Move × DLoc))
  | none => .ok none
  | some m =>
    match moveLoc onX (x.addr m.pn m.mode) (cSize m.wide) with
    | .ok w => .ok (some (m, w))
    | .error c => .error c

/-- What a move writes into the engine: its pointer, where its mode updates it, and the c register of a load, from the state
`d0` before the instruction (R288, R293). -/
def Device.moveReg (d0 d : Device) (e : Nat) : Option (Move × DLoc) → Device
  | none => d
  | some (m, w) =>
    let x := d.eng e
    let x := if modeUpdates m.mode then x.setP m.pn ((d0.eng e).stepP m.pn m.mode (cSize m.wide)) else x
    d.setEng e (if m.store then x else x.setC m.cn (cLoad m.wide (d0.dread e w (cSize m.wide))))

/-- What a move does to memory: a store writes the value its c register held before the instruction (R288). -/
def Device.moveMem (d0 d : Device) (e : Nat) : Option (Move × DLoc) → Except Nat Device
  | none => .ok d
  | some (m, w) =>
    if m.store then d.dwrite e w (bytesLE (cSize m.wide) (cStore m.wide ((d0.eng e).cr m.cn))) else .ok (d.bankTouch e w)

/-- The c registers that the moves name, as far-load interlock names (R323). -/
def Moves.touch (mv : Moves) : List Nat :=
  match mv with
  | none => []
  | some (x, y) => x.toList.map (fun m => 0x40 + m.cn) ++ y.toList.map (fun m => 0x40 + m.cn)

/-- The operation and its moves: every source is read before anything is written (R288). -/
def Device.withMoves (d : Device) (e : Nat) (mv : Moves) (f : Engine → Engine) : Except Nat (Device × Ctl) :=
  let x := d.eng e
  let ms := mv.getD (none, none)
  match x.movePlace true ms.1, x.movePlace false ms.2 with
  | .error c, _ => .error c
  | .ok _, .error c => .error c
  | .ok a, .ok b =>
    let d1 := Device.moveReg d (Device.moveReg d (d.setEng e (f x)) e a) e b
    match Device.moveMem d d1 e a with
    | .error c => .error c
    | .ok d2 =>
      match Device.moveMem d d2 e b with
      | .error c => .error c
      | .ok d3 => .ok (d3, .seq)

/-- Issue a complex instruction whose operation is `f` on the engine's registers. -/
def Device.complex (d : Device) (e : Nat) (i : Instr) (mv : Moves) (touch : List Nat) (f : Engine → Engine) : Device :=
  d.issue e i mv.len (touch ++ Moves.touch mv) (fun d => d.withMoves e mv f)

/-! Complex arithmetic. -/

/-- The H views of a c register (R289). -/
def Engine.hv (x : Engine) (c : Nat) : Int × Int := (hView (x.cr c).1, hView (x.cr c).2)

/-- The exact complex product (R306). -/
def cprod (a b : Int × Int) : Int × Int := (a.1 * b.1 - a.2 * b.2, a.1 * b.2 + a.2 * b.1)

/-- The conjugate. -/
def cconj (a : Int × Int) : Int × Int := (a.1, -a.2)

/-- Write an accumulator, each component saturated to 48 bits, setting AS on a saturation (R290). -/
def Engine.accum (x : Engine) (ad : Nat) (v : Int × Int) : Engine :=
  (x.setA ad (satTo 48 v.1, satTo 48 v.2)).stick stAS (saturates 48 v.1 || saturates 48 v.2)

/-- Write a c register from two integers that saturate to 32 bits, setting RS on a saturation (R291). -/
def Engine.putW (x : Engine) (cd : Nat) (v : Int × Int) : Engine :=
  (x.setC cd (BitVec.ofInt 32 (satTo 32 v.1), BitVec.ofInt 32 (satTo 32 v.2))).stick stRS
    (saturates 32 v.1 || saturates 32 v.2)

/-- Write a c register in H form from two integers in units of 2^-15, saturated to 16 bits (R291). -/
def Engine.putH (x : Engine) (cd : Nat) (v : Int × Int) : Engine :=
  (x.setC cd (hForm (satTo 16 v.1), hForm (satTo 16 v.2))).stick stRS (saturates 16 v.1 || saturates 16 v.2)

/-- Sum and difference of complex integers. -/
def cplus (a b : Int × Int) : Int × Int := (a.1 + b.1, a.2 + b.2)
def cminus (a b : Int × Int) : Int × Int := (a.1 - b.1, a.2 - b.2)

/-- The W views of a c register (R289). -/
def Engine.wv (x : Engine) (c : Nat) : Int × Int := ((x.cr c).1.toInt, (x.cr c).2.toInt)

/-- A power, |x|^2 (R306). -/
def cpower (a : Int × Int) : Int := a.1 * a.1 + a.2 * a.2

/-! Group A (R306). -/

def execCmac (e ad cx cy : Nat) (mv : Moves) (s : State) : Host.Outcome State Fault Refusal :=
  s.run (fun d => d.complex e (.cmac e ad cx cy mv) mv [0x40 + cx, 0x40 + cy] (fun x =>
    x.accum ad (cplus (x.ar ad) (cprod (x.hv cx) (x.hv cy)))))

def execCmacc (e ad cx cy : Nat) (mv : Moves) (s : State) : Host.Outcome State Fault Refusal :=
  s.run (fun d => d.complex e (.cmacc e ad cx cy mv) mv [0x40 + cx, 0x40 + cy] (fun x =>
    x.accum ad (cplus (x.ar ad) (cprod (x.hv cx) (cconj (x.hv cy))))))

def execCmsu (e ad cx cy : Nat) (mv : Moves) (s : State) : Host.Outcome State Fault Refusal :=
  s.run (fun d => d.complex e (.cmsu e ad cx cy mv) mv [0x40 + cx, 0x40 + cy] (fun x =>
    x.accum ad (cminus (x.ar ad) (cprod (x.hv cx) (x.hv cy)))))

def execCmul (e ad cx cy : Nat) (mv : Moves) (s : State) : Host.Outcome State Fault Refusal :=
  s.run (fun d => d.complex e (.cmul e ad cx cy mv) mv [0x40 + cx, 0x40 + cy] (fun x =>
    x.setA ad (cprod (x.hv cx) (x.hv cy))))

def execCmulc (e ad cx cy : Nat) (mv : Moves) (s : State) : Host.Outcome State Fault Refusal :=
  s.run (fun d => d.complex e (.cmulc e ad cx cy mv) mv [0x40 + cx, 0x40 + cy] (fun x =>
    x.setA ad (cprod (x.hv cx) (cconj (x.hv cy)))))

def execCpow (e ad cx : Nat) (mv : Moves) (s : State) : Host.Outcome State Fault Refusal :=
  s.run (fun d => d.complex e (.cpow e ad cx mv) mv [0x40 + cx] (fun x => x.setA ad (cpower (x.hv cx), 0)))

def execCpowa (e ad cx : Nat) (mv : Moves) (s : State) : Host.Outcome State Fault Refusal :=
  s.run (fun d => d.complex e (.cpowa e ad cx mv) mv [0x40 + cx] (fun x =>
    x.accum ad ((x.ar ad).1 + cpower (x.hv cx), (x.ar ad).2)))

def execAclr (e ad : Nat) (mv : Moves) (s : State) : Host.Outcome State Fault Refusal :=
  s.run (fun d => d.complex e (.aclr e ad mv) mv [] (fun x => x.setA ad (0, 0)))

/-! Group B (R307). -/

def execCnop (e : Nat) (mv : Moves) (s : State) : Host.Outcome State Fault Refusal :=
  s.run (fun d => d.complex e (.cnop e mv) mv [] (fun x => x))

def execCmulr (e cd cs ct : Nat) (mv : Moves) (s : State) : Host.Outcome State Fault Refusal :=
  s.run (fun d => d.complex e (.cmulr e cd cs ct mv) mv [0x40 + cd, 0x40 + cs, 0x40 + ct] (fun x =>
    let p := cprod (x.hv cs) (x.hv ct)
    x.putH cd (scaleRound p.1 (-15), scaleRound p.2 (-15))))

def execCadd (e cd cs ct : Nat) (mv : Moves) (s : State) : Host.Outcome State Fault Refusal :=
  s.run (fun d => d.complex e (.cadd e cd cs ct mv) mv [0x40 + cd, 0x40 + cs, 0x40 + ct] (fun x =>
    x.putW cd (cplus (x.wv cs) (x.wv ct))))

def execCsub (e cd cs ct : Nat) (mv : Moves) (s : State) : Host.Outcome State Fault Refusal :=
  s.run (fun d => d.complex e (.csub e cd cs ct mv) mv [0x40 + cd, 0x40 + cs, 0x40 + ct] (fun x =>
    x.putW cd (cminus (x.wv cs) (x.wv ct))))

def execCconj (e cd cs : Nat) (mv : Moves) (s : State) : Host.Outcome State Fault Refusal :=
  s.run (fun d => d.complex e (.cconj e cd cs mv) mv [0x40 + cd, 0x40 + cs] (fun x => x.putW cd (cconj (x.wv cs))))

def execCmov (e cd cs : Nat) (mv : Moves) (s : State) : Host.Outcome State Fault Refusal :=
  s.run (fun d => d.complex e (.cmov e cd cs mv) mv [0x40 + cd, 0x40 + cs] (fun x => x.setC cd (x.cr cs)))

def execArndH (e cd as sh : Nat) (mv : Moves) (s : State) : Host.Outcome State Fault Refusal :=
  s.run (fun d => d.complex e (.arndH e cd as sh mv) mv [0x40 + cd] (fun x =>
    x.putH cd (scaleRound (x.ar as).1 (sh6 sh - 15), scaleRound (x.ar as).2 (sh6 sh - 15))))

def execArndW (e cd as sh : Nat) (mv : Moves) (s : State) : Host.Outcome State Fault Refusal :=
  s.run (fun d => d.complex e (.arndW e cd as sh mv) mv [0x40 + cd] (fun x =>
    x.putW cd (scaleRound (x.ar as).1 (sh6 sh + 1), scaleRound (x.ar as).2 (sh6 sh + 1))))

def execCscl (e cd cs sh : Nat) (mv : Moves) (s : State) : Host.Outcome State Fault Refusal :=
  s.run (fun d => d.complex e (.cscl e cd cs sh mv) mv [0x40 + cd, 0x40 + cs] (fun x =>
    x.putW cd (scaleRound (x.wv cs).1 (sh6 sh), scaleRound (x.wv cs).2 (sh6 sh))))

def execAadd (e ad as : Nat) (mv : Moves) (s : State) : Host.Outcome State Fault Refusal :=
  s.run (fun d => d.complex e (.aadd e ad as mv) mv [] (fun x => x.accum ad (cplus (x.ar ad) (x.ar as))))

def execAmov (e ad as : Nat) (mv : Moves) (s : State) : Host.Outcome State Fault Refusal :=
  s.run (fun d => d.complex e (.amov e ad as mv) mv [] (fun x => x.setA ad (x.ar as)))

def execApeak (e ad as gi : Nat) (mv : Moves) (s : State) : Host.Outcome State Fault Refusal :=
  s.run (fun d => d.complex e (.apeak e ad as gi mv) mv [gi] (fun x =>
    let i := x.gr gi
    let y := if (x.ar ad).1 < (x.ar as).1 then x.setA ad ((x.ar as).1, i.toInt) else x
    y.setG gi (i + 1)))

/-- One comparison of CPEAK: the larger value and its index. -/
def peakStep (best : Int × Int) (v : Int) (idx : Word) : Int × Int := if best.1 < v then (v, idx.toInt) else best

def execCpeak (e ad ct gi : Nat) (mv : Moves) (s : State) : Host.Outcome State Fault Refusal :=
  s.run (fun d => d.complex e (.cpeak e ad ct gi mv) mv [gi, 0x40 + ct] (fun x =>
    let t := x.gr gi
    let v := x.wv ct
    (x.setA ad (peakStep (peakStep (x.ar ad) v.1 t) v.2 (t + 1))).setG gi (t + 2)))

end Sys2Proof.Machine
end

