-- ==== Sys2Proof/Machine/FarOps.lean ====
section
/-! DEFINITION. Far accesses as they take effect (R267 to R269, R276, R323): the data of a far load arrives, and a far store becomes visible. -/

namespace Sys2Proof.Machine

/-- The address in BAR0 of a place in a cluster's mailboxes or registers. -/
def farReg0 (k : Nat) (mbox : Bool) (off : Nat) : Nat := 0x1000000 + 0x80000 * k + (if mbox then 0x70000 else 0x60000) + off

/-- Whether a register is the low half of a pair. -/
def lowHalf (a : Nat) : Bool := match regRow a with | some r => decide (r.half = 1) | none => false

/-- Bytes of the mailbox slots, which are kept as 32-bit words. -/
def Device.slotRead (d : Device) (a : Nat) : Nat → List Byte
  | 0 => []
  | n + 1 => BitVec.ofNat 8 (bitsOf (d.rdN (a / 4 * 4)) (8 * (a % 4)) 8) :: d.slotRead (a + 1) n

/-- Store bytes in the mailbox slots. -/
def Device.slotWrite (d : Device) (a : Nat) : List Byte → Device
  | [] => d
  | b :: bs => Device.slotWrite (d.wr (a / 4 * 4) (setBits (d.rdN (a / 4 * 4)) (8 * (a % 4)) 8 b.toNat)) (a + 1) bs

/-- The value a far load finds, with what reading does (R3, R6). -/
def Device.farRead (d : Device) (w : FLoc) (size : Nat) : Nat × Device :=
  let reg (a : Nat) : Nat × Device :=
    if size = 4 then d.regRead a false
    else if size = 8 ∧ a % 8 = 0 ∧ lowHalf a then
      d.pairRead a
    else (allOnes size, d.badAccess)
  match w with
  | .mem a => (memLE d.mem a size, d.moved 2)
  | .x k o => (memLE d.xmem (k * 0x80000 + o) size, d.bankUse k)
  | .y k o => (memLE d.ymem (k * 0x80000 + o) size, d.bankUse k)
  | .l k o => d.localRead (k * 0x40000 + o) size
  | .mbox k o => if o < 0x1000 then (ofBytesLE (d.slotRead (farReg0 k true o) size), d) else reg (farReg0 k true o)
  | .reg k o => reg (farReg0 k false o)
  | .ctx o => (memLE d.ctx o size, d)

/-- A far store takes effect. -/
def Device.farWrite (d : Device) (w : FLoc) (bs : List Byte) : Device :=
  let reg (a : Nat) : Device :=
    if bs.length = 4 then d.busWrite a (ofBytesLE bs) false
    else if bs.length = 8 ∧ a % 8 = 0 ∧ pairHalf a = 1 then d.pairWrite a (ofBytesLE bs)
    else d.badAccess
  match w with
  | .mem a => (d.store a bs).moved 2
  | .x k o => Device.bankUse { d with xmem := memWrite d.xmem (k * 0x80000 + o) bs } k
  | .y k o => Device.bankUse { d with ymem := memWrite d.ymem (k * 0x80000 + o) bs } k
  | .l k o => d.localWrite (k * 0x40000 + o) bs
  | .mbox k o => if o < 0x1000 then d.slotWrite (farReg0 k true o) bs else reg (farReg0 k true o)
  | .reg k o => reg (farReg0 k false o)
  | .ctx o => d.ctxWrite o bs

/-- Whether an earlier far access of the engine to any of these bytes is still in flight (R269). -/
def Engine.farEarlier (x : Engine) (a n seq : Nat) : Bool :=
  x.fl.any (fun l => decide (l.seq < seq) && decide (a < l.addr + l.size) && decide (l.addr < a + n)) ||
    x.fs.any (fun f => decide (f.seq < seq) && decide (a < f.addr + f.data.length) && decide (f.addr < a + n))

/-- The destination of a far load takes its value (R322): a c register for D, otherwise a g register, extended. -/
def Engine.farPut (x : Engine) (l : FarLoad) (v : Nat) : Engine :=
  if l.size = 8 then x.setC (l.dst - 0x40) (BitVec.ofNat 32 v, BitVec.ofNat 32 (v / 2 ^ 32))
  else x.setG l.dst (extendTo32 v l.size l.u)

/-- The data of the `i`-th far load in flight arrives (R268, R323): an uncorrectable error faults the engine, its PC at the far load (R271), and leaves the register. -/
def execFarLoadArrival (e i : Nat) (s : State) : Host.Outcome State Fault Refusal :=
  s.run (fun d =>
    let x := d.eng e
    match x.fl[i]? with
    | none => d
    | some l =>
      if d.sys.asleep ∨ x.farEarlier l.addr l.size l.seq then d
      else
        match farLoc l.addr l.size with
        | .error _ => d
        | .ok w =>
          let r := d.farRead w l.size
          let r := (r.1, r.2.timed (Reg.CL_FAR_LAT (e / 16)))
          let y := r.2.eng e
          let y : Engine := { y with fl := y.fl.eraseIdx i }
          let bad := match w with | .mem a => d.poisoned a l.size | _ => false
          if bad then (if y.running && decide (y.state ≠ 3) then (r.2.setEng e { y with pc := l.pc }).engFault e 7 else r.2.setEng e y)
          else r.2.setEng e (y.farPut l r.1))

/-- The `i`-th far store in flight becomes visible (R269); a write of MB_E2H_WR waits for every earlier far store (R276). -/
def execFarStoreVisible (e i : Nat) (s : State) : Host.Outcome State Fault Refusal :=
  s.run (fun d =>
    let x := d.eng e
    match x.fs[i]? with
    | none => d
    | some f =>
      if d.sys.asleep ∨ x.farEarlier f.addr f.data.length f.seq then d
      else
        match farLoc f.addr f.data.length with
        | .error _ => d
        | .ok w =>
          let index := match w with | .mbox _ o => decide (o = 0x1008) | _ => false
          if index && x.fs.any (fun g => decide (g.seq < f.seq)) then d
          else Device.farWrite (d.setEng e { x with fs := x.fs.eraseIdx i }) w f.data)

end Sys2Proof.Machine
end

