-- ==== Sys2Proof/Machine/I2c.lean ====
section
/-! DEFINITION. The I2C target (R511): its pointer, and reads of the MON registers, SYS_ID and SYS_STAT. -/

namespace Sys2Proof.Machine

/-- The BAR0 address that an I2C pointer reads, if any. -/
def i2cAddr (p : Nat) : Option Nat :=
  if p < 0x8000 then some (0xC00000 + p / 4 * 4)
  else if 0x8000 ≤ p ∧ p < 0x8008 then some (p / 4 * 4 - 0x8000) else none

/-- The bytes that the first byte read at a pointer latches: its word, or both words of a pair. The read is a register read (R3): an RC
counter starts again. -/
def Device.i2cWord (d : Device) (p : Nat) : (Nat × List Byte) × Device :=
  let pair := fun (q a : Nat) =>
    let l := d.regRead a false
    let h := l.2.regRead (a + 4) false
    ((q, bytesLE 4 l.1 ++ bytesLE 4 h.1), h.2)
  match i2cAddr p with
  | none => ((p / 4 * 4, bytesLE 4 0), d)
  | some a =>
    match regRow a with
    | some r =>
      if r.half = 1 then pair (p / 4 * 4) a
      else if r.half = 2 then pair (p / 4 * 4 - 4) (a - 4)
      else let x := d.regRead a false; ((p / 4 * 4, bytesLE 4 x.1), x.2)
    | none => ((p / 4 * 4, bytesLE 4 0), d)

/-- Read `n` bytes from the pointer onward (R511). -/
def Device.i2cBytes (d : Device) : Nat → List Byte × Device
  | 0 => ([], d)
  | n + 1 =>
    let p := d.i2cPtr
    let l := match d.i2cLatch with
      | some (b, bs) => if b ≤ p ∧ p < b + bs.length then ((b, bs), d) else d.i2cWord p
      | none => d.i2cWord p
    let r := Device.i2cBytes { l.2 with i2cPtr := (p + 1) % 65536, i2cLatch := some l.1 } n
    (l.1.2.getD (p - l.1.1) 0 :: r.1, r.2)

def execI2cPointerWrite (p : Nat) (s : State) : Host.Outcome State Fault Refusal :=
  s.run (fun d => { d with i2cPtr := p % 65536, i2cLatch := none })

def execI2cRead (n : Nat) (s : State) : Host.Outcome State Fault Refusal :=
  s.run (fun d => let r := d.i2cBytes n; r.2.send (.i2c r.1))

end Sys2Proof.Machine
end

