-- ==== Sys2Proof/Machine/IntegerOps.lean ====
section
/-! DEFINITION. The integer instructions, register moves, loads and stores of Disoex (R301 to R305). -/

namespace Sys2Proof.Machine

/-- Write a result and set Z and N (R302). -/
def Engine.alu (x : Engine) (gd : Nat) (r : Word) : Engine := (x.flagsZN r).setG gd r

/-- Write a result and set Z, N, C and V (R302). -/
def Engine.aluCV (x : Engine) (gd : Nat) (r : Word) (c v : Bool) : Engine :=
  ((x.flagsZN r).flagsCV c v).setG gd r

/-- Issue a register-form instruction of R302 that sets Z and N. -/
def Device.alu3 (d : Device) (e : Nat) (i : Instr) (gd gs gt : Nat) (f : Word → Word → Word) : Device :=
  d.issueReg e i 1 [gd, gs, gt] (fun x => x.alu gd (f (x.gr gs) (x.gr gt)))

/-- Issue an immediate form of R303 that sets Z and N, with the zero-extended immediate. -/
def Device.aluImm (d : Device) (e : Nat) (i : Instr) (gd gs : Nat) (imm : Imm) (f : Word → Word → Word) : Device :=
  d.issueReg e i imm.len [gd, gs] (fun x => x.alu gd (f (x.gr gs) imm.zx))

/-- Shifts by gt[5:0] (R302). -/
def shlW (a b : Word) : Word := a <<< (b.toNat % 64)
def shrW (a b : Word) : Word := a >>> (b.toNat % 64)
def sarW (a b : Word) : Word := BitVec.sshiftRight a (b.toNat % 64)

/-- High words of products (R302). -/
def mulhW (a b : Word) : Word := BitVec.ofInt 32 (a.toInt * b.toInt / 2 ^ 32)
def mulhuW (a b : Word) : Word := BitVec.ofNat 32 (a.toNat * b.toNat / 2 ^ 32)

/-- Minima and maxima (R302). -/
def minW (a b : Word) : Word := if a.toInt ≤ b.toInt then a else b
def maxW (a b : Word) : Word := if a.toInt ≤ b.toInt then b else a
def minuW (a b : Word) : Word := if a.toNat ≤ b.toNat then a else b
def maxuW (a b : Word) : Word := if a.toNat ≤ b.toNat then b else a

/-- Leading zeros of a word (R302). -/
def clzW (a : Word) : Word := if a = 0 then 32 else BitVec.ofNat 32 (31 - a.toNat.log2)

/-- One bits of a word (R302). -/
def popcW (a : Word) : Word := BitVec.ofNat 32 (popCount a.toNat 32)

def execAdd (e gd gs gt : Nat) (s : State) : Host.Outcome State Fault Refusal :=
  s.run (fun d => d.issueReg e (.add e gd gs gt) 1 [gd, gs, gt] (fun x =>
    x.aluCV gd (x.gr gs + x.gr gt) (addCarry (x.gr gs) (x.gr gt)) (addOverflow (x.gr gs) (x.gr gt))))

def execSub (e gd gs gt : Nat) (s : State) : Host.Outcome State Fault Refusal :=
  s.run (fun d => d.issueReg e (.sub e gd gs gt) 1 [gd, gs, gt] (fun x =>
    x.aluCV gd (x.gr gs - x.gr gt) (subCarry (x.gr gs) (x.gr gt)) (subOverflow (x.gr gs) (x.gr gt))))

def execAnd (e gd gs gt : Nat) (s : State) : Host.Outcome State Fault Refusal :=
  s.run (fun d => d.alu3 e (.and e gd gs gt) gd gs gt (fun a b => a &&& b))

def execOr (e gd gs gt : Nat) (s : State) : Host.Outcome State Fault Refusal :=
  s.run (fun d => d.alu3 e (.or e gd gs gt) gd gs gt (fun a b => a ||| b))

def execXor (e gd gs gt : Nat) (s : State) : Host.Outcome State Fault Refusal :=
  s.run (fun d => d.alu3 e (.xor e gd gs gt) gd gs gt (fun a b => a ^^^ b))

def execShl (e gd gs gt : Nat) (s : State) : Host.Outcome State Fault Refusal :=
  s.run (fun d => d.alu3 e (.shl e gd gs gt) gd gs gt shlW)

def execShr (e gd gs gt : Nat) (s : State) : Host.Outcome State Fault Refusal :=
  s.run (fun d => d.alu3 e (.shr e gd gs gt) gd gs gt shrW)

def execSar (e gd gs gt : Nat) (s : State) : Host.Outcome State Fault Refusal :=
  s.run (fun d => d.alu3 e (.sar e gd gs gt) gd gs gt sarW)

def execMul (e gd gs gt : Nat) (s : State) : Host.Outcome State Fault Refusal :=
  s.run (fun d => d.alu3 e (.mul e gd gs gt) gd gs gt (fun a b => a * b))

def execMulh (e gd gs gt : Nat) (s : State) : Host.Outcome State Fault Refusal :=
  s.run (fun d => d.alu3 e (.mulh e gd gs gt) gd gs gt mulhW)

def execMulhu (e gd gs gt : Nat) (s : State) : Host.Outcome State Fault Refusal :=
  s.run (fun d => d.alu3 e (.mulhu e gd gs gt) gd gs gt mulhuW)

def execMin (e gd gs gt : Nat) (s : State) : Host.Outcome State Fault Refusal :=
  s.run (fun d => d.alu3 e (.min e gd gs gt) gd gs gt minW)

def execMax (e gd gs gt : Nat) (s : State) : Host.Outcome State Fault Refusal :=
  s.run (fun d => d.alu3 e (.max e gd gs gt) gd gs gt maxW)

def execMinu (e gd gs gt : Nat) (s : State) : Host.Outcome State Fault Refusal :=
  s.run (fun d => d.alu3 e (.minu e gd gs gt) gd gs gt minuW)

def execMaxu (e gd gs gt : Nat) (s : State) : Host.Outcome State Fault Refusal :=
  s.run (fun d => d.alu3 e (.maxu e gd gs gt) gd gs gt maxuW)

def execClz (e gd gs : Nat) (s : State) : Host.Outcome State Fault Refusal :=
  s.run (fun d => d.issueReg e (.clz e gd gs) 1 [gd, gs] (fun x => x.alu gd (clzW (x.gr gs))))

def execPopc (e gd gs : Nat) (s : State) : Host.Outcome State Fault Refusal :=
  s.run (fun d => d.issueReg e (.popc e gd gs) 1 [gd, gs] (fun x => x.alu gd (popcW (x.gr gs))))

def execAddi (e gd gs : Nat) (imm : Imm) (s : State) : Host.Outcome State Fault Refusal :=
  s.run (fun d => d.issueReg e (.addi e gd gs imm) imm.len [gd, gs] (fun x =>
    x.aluCV gd (x.gr gs + imm.sx) (addCarry (x.gr gs) imm.sx) (addOverflow (x.gr gs) imm.sx)))

def execAndi (e gd gs : Nat) (imm : Imm) (s : State) : Host.Outcome State Fault Refusal :=
  s.run (fun d => d.aluImm e (.andi e gd gs imm) gd gs imm (fun a b => a &&& b))

def execOri (e gd gs : Nat) (imm : Imm) (s : State) : Host.Outcome State Fault Refusal :=
  s.run (fun d => d.aluImm e (.ori e gd gs imm) gd gs imm (fun a b => a ||| b))

def execXori (e gd gs : Nat) (imm : Imm) (s : State) : Host.Outcome State Fault Refusal :=
  s.run (fun d => d.aluImm e (.xori e gd gs imm) gd gs imm (fun a b => a ^^^ b))

def execShli (e gd gs n : Nat) (s : State) : Host.Outcome State Fault Refusal :=
  s.run (fun d => d.issueReg e (.shli e gd gs n) 1 [gd, gs] (fun x => x.alu gd (x.gr gs <<< n)))

def execShri (e gd gs n : Nat) (s : State) : Host.Outcome State Fault Refusal :=
  s.run (fun d => d.issueReg e (.shri e gd gs n) 1 [gd, gs] (fun x => x.alu gd (x.gr gs >>> n)))

def execSari (e gd gs n : Nat) (s : State) : Host.Outcome State Fault Refusal :=
  s.run (fun d => d.issueReg e (.sari e gd gs n) 1 [gd, gs] (fun x => x.alu gd (BitVec.sshiftRight (x.gr gs) n)))

def execCmpi (e gs : Nat) (imm : Imm) (s : State) : Host.Outcome State Fault Refusal :=
  s.run (fun d => d.issueReg e (.cmpi e gs imm) imm.len [gs] (fun x =>
    (x.flagsZN (x.gr gs - imm.sx)).flagsCV (subCarry (x.gr gs) imm.sx) (subOverflow (x.gr gs) imm.sx)))

/-- The integer of a binary32 value times 2^k, and whether it saturated or was a NaN (R304). -/
def ftoiW (f : Word) (k : Int) : Word × Bool :=
  let b := f.toNat
  if f32.isNaN b then (0, true)
  else if f32.isInf b then
    (BitVec.ofInt 32 (if f.msb then -(2 ^ 31 : Nat) else (2 ^ 31 : Nat) - 1), true)
  else
    let (m, ex) := f32.value b
    let z := scaleRound m (ex + k)
    (BitVec.ofInt 32 (satTo 32 z), saturates 32 z)

/-- The binary32 of an integer times 2^-k (R304). -/
def itofW (a : Word) (k : Int) : Word :=
  let z := a.toInt
  BitVec.ofNat 32 (if 0 ≤ k then f32.ofInt z (2 ^ k.toNat) else f32.ofInt (z * (2 ^ (-k).toNat : Nat)) 1)

def execFtoi (e gd gs ex : Nat) (s : State) : Host.Outcome State Fault Refusal :=
  s.run (fun d => d.issueReg e (.ftoi e gd gs ex) 1 [gd, gs] (fun x =>
    let r := ftoiW (x.gr gs) (sh6 ex)
    ((x.flagsZN r.1).setSt stV r.2).setG gd r.1))

def execItof (e gd gs ex : Nat) (s : State) : Host.Outcome State Fault Refusal :=
  s.run (fun d => d.issueReg e (.itof e gd gs ex) 1 [gd, gs] (fun x => x.alu gd (itofW (x.gr gs) (sh6 ex))))

/-- The far-load interlock name of a MOVR identifier: g and c registers are those a far load writes. -/
def idTouch (i : Nat) : Nat :=
  if i < 0x20 then i else if 0x40 ≤ i ∧ i < 0x50 then i else if 0x50 ≤ i ∧ i < 0x60 then i - 0x10 else 0

def execMovr (e rd rs : Nat) (s : State) : Host.Outcome State Fault Refusal :=
  s.run (fun d => d.issueReg e (.movr e rd rs) 1 [idTouch rd, idTouch rs] (fun x => x.idWrite rd (x.idRead e rs)))

def execLd (e gd pn mode size : Nat) (u : Bool) (s : State) : Host.Outcome State Fault Refusal :=
  s.run (fun d => d.issue e (.ld e gd pn mode size u) 1 [gd] (fun d =>
    let x := d.eng e
    let n := sizeBytes size
    match dataLoc (x.addr pn mode) n with
    | .error c => .error c
    | .ok w =>
      let v := d.dread e w n
      let d := d.dreadEffect e w n
      let x' := d.eng e
      .ok (d.setEng e ((x'.setP pn (x.stepP pn mode n)).setG gd (extendTo32 v n u)), .seq)))

def execSt (e gs pn mode size : Nat) (s : State) : Host.Outcome State Fault Refusal :=
  s.run (fun d => d.issue e (.st e gs pn mode size) 1 [gs] (fun d =>
    let x := d.eng e
    let n := sizeBytes size
    match dataLoc (x.addr pn mode) n with
    | .error c => .error c
    | .ok w =>
      match d.dwrite e w (bytesLE n (x.gr gs).toNat) with
      | .error c => .error c
      | .ok d => .ok (d.setEng e ((d.eng e).setP pn (x.stepP pn mode n)), .seq)))

def execLdc (e cn pn mode : Nat) (wide : Bool) (s : State) : Host.Outcome State Fault Refusal :=
  s.run (fun d => d.issue e (.ldc e cn pn mode wide) 1 [0x40 + cn] (fun d =>
    let x := d.eng e
    let n := cSize wide
    match dataLoc (x.addr pn mode) n with
    | .error c => .error c
    | .ok w =>
      let v := d.dread e w n
      let d := d.dreadEffect e w n
      .ok (d.setEng e (((d.eng e).setP pn (x.stepP pn mode n)).setC cn (cLoad wide v)), .seq)))

def execStc (e cn pn mode : Nat) (wide : Bool) (s : State) : Host.Outcome State Fault Refusal :=
  s.run (fun d => d.issue e (.stc e cn pn mode wide) 1 [0x40 + cn] (fun d =>
    let x := d.eng e
    let n := cSize wide
    match dataLoc (x.addr pn mode) n with
    | .error c => .error c
    | .ok w =>
      match d.dwrite e w (bytesLE n (cStore wide (x.cr cn))) with
      | .error c => .error c
      | .ok d => .ok (d.setEng e ((d.eng e).setP pn (x.stepP pn mode n)), .seq)))

end Sys2Proof.Machine
end

