-- ==== Sys2Proof/Machine/Dispatch.lean ====
section
/-!
DEFINITION. The meaning of every command: one arm for each row of spec/opcode_table.json.
-/

namespace Sys2Proof.Machine

open Sys2Proof

/-- What a command does to the block, the waiting commands apart. -/
def exec (i : Instr) (s : State) : Host.Outcome State Fault Refusal :=
  match i with
  | .hostRegisterWrite addr len val hwSet => Sys2Proof.Machine.execHostRegisterWrite addr len val hwSet s
  | .loWriteHold addr val => Sys2Proof.Machine.execLoWriteHold addr val s
  | .hiWriteApply addr val => Sys2Proof.Machine.execHiWriteApply addr val s
  | .loReadLatch addr len => Sys2Proof.Machine.execLoReadLatch addr len s
  | .counterRead addr event => Sys2Proof.Machine.execCounterRead addr event s
  | .bar2Read off len => Sys2Proof.Machine.execBar2Read off len s
  | .bar2Write off data => Sys2Proof.Machine.execBar2Write off data s
  | .contextWrite c off data => Sys2Proof.Machine.execContextWrite c off data s
  | .deviceBoundary b staging => Sys2Proof.Machine.execDeviceBoundary b staging s
  | .tclkTick => Sys2Proof.Machine.execTclkTick s
  | .timeWrap => Sys2Proof.Machine.execTimeWrap s
  | .nativeBlockReceive lane hdr payload => Sys2Proof.Machine.execNativeBlockReceive lane hdr payload s
  | .sampleSlot s' p => Sys2Proof.Machine.execSampleSlot s' p s
  | .larkspurCharacterReceive lane code skipAdj => Sys2Proof.Machine.execLarkspurCharacterReceive lane code skipAdj s
  | .cdrLock lane => Sys2Proof.Machine.execCdrLock lane s
  | .cdrLost lane => Sys2Proof.Machine.execCdrLost lane s
  | .lanePllLock tx grp => Sys2Proof.Machine.execLanePllLock tx grp s
  | .laneEnable lane polInv => Sys2Proof.Machine.execLaneEnable lane polInv s
  | .laneDisable lane => Sys2Proof.Machine.execLaneDisable lane s
  | .sampleRelease s' g => Sys2Proof.Machine.execSampleRelease s' g s
  | .acquireTimeout s' => Sys2Proof.Machine.execAcquireTimeout s' s
  | .samplerWindowEnd lane differ shadowBad mainBad => Sys2Proof.Machine.execSamplerWindowEnd lane differ shadowBad mainBad s
  | .lnkSCtlStart s' => Sys2Proof.Machine.execLnkSCtlStart s' s
  | .lnkSCtlStop s' => Sys2Proof.Machine.execLnkSCtlStop s' s
  | .lnkSCtlRate s' => Sys2Proof.Machine.execLnkSCtlRate s' s
  | .lnkStart u => Sys2Proof.Machine.execLnkStart u s
  | .lnkStop u => Sys2Proof.Machine.execLnkStop u s
  | .lnkRate u => Sys2Proof.Machine.execLnkRate u s
  | .exportRun s' val => Sys2Proof.Machine.execExportRun s' val s
  | .chnCCtlSwap s' => Sys2Proof.Machine.execChnCCtlSwap s' s
  | .chnSwap u => Sys2Proof.Machine.execChnSwap u s
  | .chnZCtlStart z => Sys2Proof.Machine.execChnZCtlStart z s
  | .chnZCtlStop z => Sys2Proof.Machine.execChnZCtlStop z s
  | .chnZCtlTune z => Sys2Proof.Machine.execChnZCtlTune z s
  | .chnStart u => Sys2Proof.Machine.execChnStart u s
  | .chnStop u => Sys2Proof.Machine.execChnStop u s
  | .chnTune u => Sys2Proof.Machine.execChnTune u s
  | .chnResetCtlGo => Sys2Proof.Machine.execChnResetCtlGo s
  | .chnReset u => Sys2Proof.Machine.execChnReset u s
  | .syncInEdge t => Sys2Proof.Machine.execSyncInEdge t s
  | .decimatorReset t => Sys2Proof.Machine.execDecimatorReset t s
  | .ucmd e k gs => Sys2Proof.Machine.execUcmd e k gs s
  | .commandCompletion e k => Sys2Proof.Machine.execCommandCompletion e k s
  | .engStart u => Sys2Proof.Machine.execEngStart u s
  | .engStop u => Sys2Proof.Machine.execEngStop u s
  | .engSignal u => Sys2Proof.Machine.execEngSignal u s
  | .engTimer u => Sys2Proof.Machine.execEngTimer u s
  | .engineTimerExpire e => Sys2Proof.Machine.execEngineTimerExpire e s
  | .clECtlStart e => Sys2Proof.Machine.execClECtlStart e s
  | .clECtlStop e => Sys2Proof.Machine.execClECtlStop e s
  | .mbH2eWrWrite k val byHost => Sys2Proof.Machine.execMbH2eWrWrite k val byHost s
  | .mbH2eRdWrite k val byHost => Sys2Proof.Machine.execMbH2eRdWrite k val byHost s
  | .mbE2hWrWrite k val byHost e => Sys2Proof.Machine.execMbE2hWrWrite k val byHost e s
  | .mbE2hRdWrite k val byHost => Sys2Proof.Machine.execMbE2hRdWrite k val byHost s
  | .add e gd gs gt => Sys2Proof.Machine.execAdd e gd gs gt s
  | .sub e gd gs gt => Sys2Proof.Machine.execSub e gd gs gt s
  | .and e gd gs gt => Sys2Proof.Machine.execAnd e gd gs gt s
  | .or e gd gs gt => Sys2Proof.Machine.execOr e gd gs gt s
  | .xor e gd gs gt => Sys2Proof.Machine.execXor e gd gs gt s
  | .shl e gd gs gt => Sys2Proof.Machine.execShl e gd gs gt s
  | .shr e gd gs gt => Sys2Proof.Machine.execShr e gd gs gt s
  | .sar e gd gs gt => Sys2Proof.Machine.execSar e gd gs gt s
  | .mul e gd gs gt => Sys2Proof.Machine.execMul e gd gs gt s
  | .mulh e gd gs gt => Sys2Proof.Machine.execMulh e gd gs gt s
  | .mulhu e gd gs gt => Sys2Proof.Machine.execMulhu e gd gs gt s
  | .min e gd gs gt => Sys2Proof.Machine.execMin e gd gs gt s
  | .max e gd gs gt => Sys2Proof.Machine.execMax e gd gs gt s
  | .minu e gd gs gt => Sys2Proof.Machine.execMinu e gd gs gt s
  | .maxu e gd gs gt => Sys2Proof.Machine.execMaxu e gd gs gt s
  | .clz e gd gs => Sys2Proof.Machine.execClz e gd gs s
  | .popc e gd gs => Sys2Proof.Machine.execPopc e gd gs s
  | .addi e gd gs imm => Sys2Proof.Machine.execAddi e gd gs imm s
  | .andi e gd gs imm => Sys2Proof.Machine.execAndi e gd gs imm s
  | .ori e gd gs imm => Sys2Proof.Machine.execOri e gd gs imm s
  | .xori e gd gs imm => Sys2Proof.Machine.execXori e gd gs imm s
  | .shli e gd gs n => Sys2Proof.Machine.execShli e gd gs n s
  | .shri e gd gs n => Sys2Proof.Machine.execShri e gd gs n s
  | .sari e gd gs n => Sys2Proof.Machine.execSari e gd gs n s
  | .cmpi e gs imm => Sys2Proof.Machine.execCmpi e gs imm s
  | .ftoi e gd gs ex => Sys2Proof.Machine.execFtoi e gd gs ex s
  | .itof e gd gs ex => Sys2Proof.Machine.execItof e gd gs ex s
  | .movr e rd rs => Sys2Proof.Machine.execMovr e rd rs s
  | .ld e gd pn mode size u => Sys2Proof.Machine.execLd e gd pn mode size u s
  | .st e gs pn mode size => Sys2Proof.Machine.execSt e gs pn mode size s
  | .ldc e cn pn mode wide => Sys2Proof.Machine.execLdc e cn pn mode wide s
  | .stc e cn pn mode wide => Sys2Proof.Machine.execStc e cn pn mode wide s
  | .cmac e ad cx cy mv => Sys2Proof.Machine.execCmac e ad cx cy mv s
  | .cmacc e ad cx cy mv => Sys2Proof.Machine.execCmacc e ad cx cy mv s
  | .cmsu e ad cx cy mv => Sys2Proof.Machine.execCmsu e ad cx cy mv s
  | .cmul e ad cx cy mv => Sys2Proof.Machine.execCmul e ad cx cy mv s
  | .cmulc e ad cx cy mv => Sys2Proof.Machine.execCmulc e ad cx cy mv s
  | .cpow e ad cx mv => Sys2Proof.Machine.execCpow e ad cx mv s
  | .cpowa e ad cx mv => Sys2Proof.Machine.execCpowa e ad cx mv s
  | .aclr e ad mv => Sys2Proof.Machine.execAclr e ad mv s
  | .cnop e mv => Sys2Proof.Machine.execCnop e mv s
  | .cmulr e cd cs ct mv => Sys2Proof.Machine.execCmulr e cd cs ct mv s
  | .cadd e cd cs ct mv => Sys2Proof.Machine.execCadd e cd cs ct mv s
  | .csub e cd cs ct mv => Sys2Proof.Machine.execCsub e cd cs ct mv s
  | .cconj e cd cs mv => Sys2Proof.Machine.execCconj e cd cs mv s
  | .cmov e cd cs mv => Sys2Proof.Machine.execCmov e cd cs mv s
  | .arndH e cd as sh mv => Sys2Proof.Machine.execArndH e cd as sh mv s
  | .arndW e cd as sh mv => Sys2Proof.Machine.execArndW e cd as sh mv s
  | .cscl e cd cs sh mv => Sys2Proof.Machine.execCscl e cd cs sh mv s
  | .aadd e ad as mv => Sys2Proof.Machine.execAadd e ad as mv s
  | .amov e ad as mv => Sys2Proof.Machine.execAmov e ad as mv s
  | .apeak e ad as gi mv => Sys2Proof.Machine.execApeak e ad as gi mv s
  | .cpeak e ad ct gi mv => Sys2Proof.Machine.execCpeak e ad ct gi mv s
  | .br e cond off => Sys2Proof.Machine.execBr e cond off s
  | .bbc e bit off => Sys2Proof.Machine.execBbc e bit off s
  | .bbs e bit off => Sys2Proof.Machine.execBbs e bit off s
  | .call e off => Sys2Proof.Machine.execCall e off s
  | .callr e gs => Sys2Proof.Machine.execCallr e gs s
  | .jmp e gs => Sys2Proof.Machine.execJmp e gs s
  | .ret e => Sys2Proof.Machine.execRet e s
  | .brk e cond => Sys2Proof.Machine.execBrk e cond s
  | .rep e src body => Sys2Proof.Machine.execRep e src body s
  | .qpush e gq gn pn => Sys2Proof.Machine.execQpush e gq gn pn s
  | .qpop e gq gn pn => Sys2Proof.Machine.execQpop e gq gn pn s
  | .qmark e gq => Sys2Proof.Machine.execQmark e gq s
  | .qrew e gq => Sys2Proof.Machine.execQrew e gq s
  | .qrel e gq => Sys2Proof.Machine.execQrel e gq s
  | .wait e => Sys2Proof.Machine.execWait e s
  | .waitResume e => Sys2Proof.Machine.execWaitResume e s
  | .evget e cd => Sys2Proof.Machine.execEvget e cd s
  | .evack e => Sys2Proof.Machine.execEvack e s
  | .fld e dst gs size u off => Sys2Proof.Machine.execFld e dst gs size u off s
  | .farLoadArrival e i' => Sys2Proof.Machine.execFarLoadArrival e i' s
  | .fst e src gs size off => Sys2Proof.Machine.execFst e src gs size off s
  | .ffence e => Sys2Proof.Machine.execFfence e s
  | .nop e => Sys2Proof.Machine.execNop e s
  | .halt e => Sys2Proof.Machine.execHalt e s
  | .sleep e => Sys2Proof.Machine.execSleep e s
  | .sync e => Sys2Proof.Machine.execSync e s
  | .time e gd => Sys2Proof.Machine.execTime e gd s
  | .tprpg e gs phys => Sys2Proof.Machine.execTprpg e gs phys s
  | .tscan e gs phys => Sys2Proof.Machine.execTscan e gs phys s
  | .tmisr e gd phys => Sys2Proof.Machine.execTmisr e gd phys s
  | .illegalEncoding e => Sys2Proof.Machine.execIllegalEncoding e s
  | .fetchRange e => Sys2Proof.Machine.execFetchRange e s
  | .farStoreVisible e i' => Sys2Proof.Machine.execFarStoreVisible e i' s
  | .lanePllLockLost tx grp refAbsent => Sys2Proof.Machine.execLanePllLockLost tx grp refAbsent s
  | .frameReady drop => Sys2Proof.Machine.execFrameReady drop s
  | .pipeFrameDone c drops differ => Sys2Proof.Machine.execPipeFrameDone c drops differ s
  | .xfSchedCtlGo => Sys2Proof.Machine.execXfSchedCtlGo s
  | .xfSchedCtlStop => Sys2Proof.Machine.execXfSchedCtlStop s
  | .xfLoad u => Sys2Proof.Machine.execXfLoad u s
  | .xfStop u => Sys2Proof.Machine.execXfStop u s
  | .xfCredit u => Sys2Proof.Machine.execXfCredit u s
  | .scheduleChecked => Sys2Proof.Machine.execScheduleChecked s
  | .detClrCtlGo => Sys2Proof.Machine.execDetClrCtlGo s
  | .detClear u => Sys2Proof.Machine.execDetClear u s
  | .denCmdCtlSnap => Sys2Proof.Machine.execDenCmdCtlSnap s
  | .denCmdCtlClear => Sys2Proof.Machine.execDenCmdCtlClear s
  | .denSnap u => Sys2Proof.Machine.execDenSnap u s
  | .denClear u => Sys2Proof.Machine.execDenClear u s
  | .snapshotComplete p => Sys2Proof.Machine.execSnapshotComplete p s
  | .snapshotMerged p => Sys2Proof.Machine.execSnapshotMerged p s
  | .decayStep p m => Sys2Proof.Machine.execDecayStep p m s
  | .trgTCtlArm n => Sys2Proof.Machine.execTrgTCtlArm n s
  | .trgTCtlDisarm n => Sys2Proof.Machine.execTrgTCtlDisarm n s
  | .trgArm u => Sys2Proof.Machine.execTrgArm u s
  | .trgDisarm u => Sys2Proof.Machine.execTrgDisarm u s
  | .trgFire u => Sys2Proof.Machine.execTrgFire u s
  | .trgSwCtlFire => Sys2Proof.Machine.execTrgSwCtlFire s
  | .timerTriggerFire n => Sys2Proof.Machine.execTimerTriggerFire n s
  | .seqExpired n => Sys2Proof.Machine.execSeqExpired n s
  | .triggerRelease => Sys2Proof.Machine.execTriggerRelease s
  | .acqBCtlArm b => Sys2Proof.Machine.execAcqBCtlArm b s
  | .acqBCtlStop b => Sys2Proof.Machine.execAcqBCtlStop b s
  | .acqBCtlDisarm b => Sys2Proof.Machine.execAcqBCtlDisarm b s
  | .acqArm u => Sys2Proof.Machine.execAcqArm u s
  | .acqStop u => Sys2Proof.Machine.execAcqStop u s
  | .acqDisarm u => Sys2Proof.Machine.execAcqDisarm u s
  | .returnHoldExpire b => Sys2Proof.Machine.execReturnHoldExpire b s
  | .captureSpanEnd b => Sys2Proof.Machine.execCaptureSpanEnd b s
  | .captureRecordPush b => Sys2Proof.Machine.execCaptureRecordPush b s
  | .recordComplete q => Sys2Proof.Machine.execRecordComplete q s
  | .slotRefill q n unc => Sys2Proof.Machine.execSlotRefill q n unc s
  | .qwCtlAdvance q => Sys2Proof.Machine.execQwCtlAdvance q s
  | .qwCtlMark q => Sys2Proof.Machine.execQwCtlMark q s
  | .qwCtlRewind q => Sys2Proof.Machine.execQwCtlRewind q s
  | .qwCtlRelease q => Sys2Proof.Machine.execQwCtlRelease q s
  | .queQIrqArm q vec => Sys2Proof.Machine.execQueQIrqArm q vec s
  | .queQCtlEnable q => Sys2Proof.Machine.execQueQCtlEnable q s
  | .queQCtlDisable q => Sys2Proof.Machine.execQueQCtlDisable q s
  | .queEnable u => Sys2Proof.Machine.execQueEnable u s
  | .queDisable u => Sys2Proof.Machine.execQueDisable u s
  | .planeClearDone p => Sys2Proof.Machine.execPlaneClearDone p s
  | .cmpZCtlGo z => Sys2Proof.Machine.execCmpZCtlGo z s
  | .cmpZCtlCont z => Sys2Proof.Machine.execCmpZCtlCont z s
  | .cmpZCtlEnd z => Sys2Proof.Machine.execCmpZCtlEnd z s
  | .cmpSubmit u => Sys2Proof.Machine.execCmpSubmit u s
  | .cmpCont u => Sys2Proof.Machine.execCmpCont u s
  | .cmpEnd u => Sys2Proof.Machine.execCmpEnd u s
  | .cmpUCtlGo u' => Sys2Proof.Machine.execCmpUCtlGo u' s
  | .cmpUCtlEnd u' => Sys2Proof.Machine.execCmpUCtlEnd u' s
  | .cmpDsubmit u => Sys2Proof.Machine.execCmpDsubmit u s
  | .cmpDend u => Sys2Proof.Machine.execCmpDend u s
  | .compressFlushTimeout z => Sys2Proof.Machine.execCompressFlushTimeout z s
  | .compressFrameDone z poison => Sys2Proof.Machine.execCompressFrameDone z poison s
  | .decompressFrameDone u' => Sys2Proof.Machine.execDecompressFrameDone u' s
  | .compressedRecordPush i' => Sys2Proof.Machine.execCompressedRecordPush i' s
  | .memReadComplete addr port kind age => Sys2Proof.Machine.execMemReadComplete addr port kind age s
  | .scrubRead kind age => Sys2Proof.Machine.execScrubRead kind age s
  | .phyTrackingUpdate p age => Sys2Proof.Machine.execPhyTrackingUpdate p age s
  | .memRepairCtlSoft hardToo => Sys2Proof.Machine.execMemRepairCtlSoft hardToo s
  | .memRepairCtlHard softToo => Sys2Proof.Machine.execMemRepairCtlHard softToo s
  | .memRepair u => Sys2Proof.Machine.execMemRepair u s
  | .memScrub u => Sys2Proof.Machine.execMemScrub u s
  | .softRepairDone => Sys2Proof.Machine.execSoftRepairDone s
  | .dmaRgnCtlSet r => Sys2Proof.Machine.execDmaRgnCtlSet r s
  | .dmaRgnCtlClear r => Sys2Proof.Machine.execDmaRgnCtlClear r s
  | .dmaCCfgEnable c val => Sys2Proof.Machine.execDmaCCfgEnable c val s
  | .dmaCCfgDisable c val moved => Sys2Proof.Machine.execDmaCCfgDisable c val moved s
  | .dmaCTailWrite c val => Sys2Proof.Machine.execDmaCTailWrite c val s
  | .dmaCCtlResume c => Sys2Proof.Machine.execDmaCCtlResume c s
  | .dmaEnable u => Sys2Proof.Machine.execDmaEnable u s
  | .dmaDisable u moved => Sys2Proof.Machine.execDmaDisable u moved s
  | .dmaDoorbell u => Sys2Proof.Machine.execDmaDoorbell u s
  | .descriptorFetch c => Sys2Proof.Machine.execDescriptorFetch c s
  | .descriptorComplete c => Sys2Proof.Machine.execDescriptorComplete c s
  | .hostReadCompletion c dstSide status data => Sys2Proof.Machine.execHostReadCompletion c dstSide status data s
  | .completionTimeout c => Sys2Proof.Machine.execCompletionTimeout c s
  | .linkRetrain => Sys2Proof.Machine.execLinkRetrain s
  | .tlpError kind off data => Sys2Proof.Machine.execTlpError kind off data s
  | .powerStateChange d3 => Sys2Proof.Machine.execPowerStateChange d3 s
  | .pcieLinkTrained speed width flit => Sys2Proof.Machine.execPcieLinkTrained speed width flit s
  | .configurationRequest f val => Sys2Proof.Machine.execConfigurationRequest f val s
  | .rotationStep k g => Sys2Proof.Machine.execRotationStep k g s
  | .shadowWindowEnd k differ => Sys2Proof.Machine.execShadowWindowEnd k differ s
  | .selfTestDone u sig ok rd => Sys2Proof.Machine.execSelfTestDone u sig ok rd s
  | .rotCmdStep u expect => Sys2Proof.Machine.execRotCmdStep u expect s
  | .rotCmdWithdraw u expect => Sys2Proof.Machine.execRotCmdWithdraw u expect s
  | .rotStep u => Sys2Proof.Machine.execRotStep u s
  | .rotWithdraw u => Sys2Proof.Machine.execRotWithdraw u s
  | .bstCmdGo u expect => Sys2Proof.Machine.execBstCmdGo u expect s
  | .bstRun u => Sys2Proof.Machine.execBstRun u s
  | .bstRunDone sig => Sys2Proof.Machine.execBstRunDone sig s
  | .refclkLost => Sys2Proof.Machine.execRefclkLost s
  | .refclkPresent => Sys2Proof.Machine.execRefclkPresent s
  | .rootLock r => Sys2Proof.Machine.execRootLock r s
  | .rootLockLost r => Sys2Proof.Machine.execRootLockLost r s
  | .rootRelockTimeout r => Sys2Proof.Machine.execRootRelockTimeout r s
  | .clkChangeCtlGo => Sys2Proof.Machine.execClkChangeCtlGo s
  | .clkChange u => Sys2Proof.Machine.execClkChange u s
  | .changeRetuned => Sys2Proof.Machine.execChangeRetuned s
  | .changeLockTimeout => Sys2Proof.Machine.execChangeLockTimeout s
  | .changeSettled => Sys2Proof.Machine.execChangeSettled s
  | .clkProbeGo code => Sys2Proof.Machine.execClkProbeGo code s
  | .probeDone mhz => Sys2Proof.Machine.execProbeDone mhz s
  | .ckoCtlStart o => Sys2Proof.Machine.execCkoCtlStart o s
  | .ckoCtlStop o => Sys2Proof.Machine.execCkoCtlStop o s
  | .clkOutputStart u => Sys2Proof.Machine.execClkOutputStart u s
  | .clkOutputStop u => Sys2Proof.Machine.execClkOutputStop u s
  | .evtSetCtlGo => Sys2Proof.Machine.execEvtSetCtlGo s
  | .evtSet u => Sys2Proof.Machine.execEvtSet u s
  | .eventEdge n num den rising => Sys2Proof.Machine.execEventEdge n num den rising s
  | .stampFlushTimeout n => Sys2Proof.Machine.execStampFlushTimeout n s
  | .thresholdWrite n val => Sys2Proof.Machine.execThresholdWrite n val s
  | .blankEnd n => Sys2Proof.Machine.execBlankEnd n s
  | .evtICtlEnable n => Sys2Proof.Machine.execEvtICtlEnable n s
  | .evtICtlDisable n => Sys2Proof.Machine.execEvtICtlDisable n s
  | .evtEnable u => Sys2Proof.Machine.execEvtEnable u s
  | .evtDisable u => Sys2Proof.Machine.execEvtDisable u s
  | .evtSCtlArm t => Sys2Proof.Machine.execEvtSCtlArm t s
  | .evtSCtlStop t => Sys2Proof.Machine.execEvtSCtlStop t s
  | .evtArm u => Sys2Proof.Machine.execEvtArm u s
  | .evtStop u => Sys2Proof.Machine.execEvtStop u s
  | .monMCtlStart m => Sys2Proof.Machine.execMonMCtlStart m s
  | .monMCtlStop m => Sys2Proof.Machine.execMonMCtlStop m s
  | .monMCtlArmInj m => Sys2Proof.Machine.execMonMCtlArmInj m s
  | .monMCtlDisarmInj m => Sys2Proof.Machine.execMonMCtlDisarmInj m s
  | .monMCtlInject m => Sys2Proof.Machine.execMonMCtlInject m s
  | .monStart u => Sys2Proof.Machine.execMonStart u s
  | .monStop u => Sys2Proof.Machine.execMonStop u s
  | .monArmInj u => Sys2Proof.Machine.execMonArmInj u s
  | .monDisarmInj u => Sys2Proof.Machine.execMonDisarmInj u s
  | .monInject u => Sys2Proof.Machine.execMonInject u s
  | .monResult m codes shadow => Sys2Proof.Machine.execMonResult m codes shadow s
  | .monPassStart m => Sys2Proof.Machine.execMonPassStart m s
  | .monsyncEdge t => Sys2Proof.Machine.execMonsyncEdge t s
  | .monDecimatorReset t => Sys2Proof.Machine.execMonDecimatorReset t s
  | .i2cPointerWrite p => Sys2Proof.Machine.execI2cPointerWrite p s
  | .i2cRead n => Sys2Proof.Machine.execI2cRead n s
  | .calSetref u => Sys2Proof.Machine.execCalSetref u s
  | .calOutcal u => Sys2Proof.Machine.execCalOutcal u s
  | .outputCalDone o sel temp => Sys2Proof.Machine.execOutputCalDone o sel temp s
  | .roleMessage m epoch b table => Sys2Proof.Machine.execRoleMessage m epoch b table s
  | .ackMessage m seq => Sys2Proof.Machine.execAckMessage m seq s
  | .nakMessage m seq code => Sys2Proof.Machine.execNakMessage m seq code s
  | .timeMessage m t epoch => Sys2Proof.Machine.execTimeMessage m t epoch s
  | .markMessage m t reset => Sys2Proof.Machine.execMarkMessage m t reset s
  | .statusMessage m ready timeOk => Sys2Proof.Machine.execStatusMessage m ready timeOk s
  | .decidedMessage m t => Sys2Proof.Machine.execDecidedMessage m t s
  | .triggerMessage m unit t => Sys2Proof.Machine.execTriggerMessage m unit t s
  | .recordMessage m q data => Sys2Proof.Machine.execRecordMessage m q data s
  | .partMessage m c index stamp marks bins => Sys2Proof.Machine.execPartMessage m c index stamp marks bins s
  | .caldataMessage m i' t u => Sys2Proof.Machine.execCaldataMessage m i' t u s
  | .controlRetryTimeout l seq => Sys2Proof.Machine.execControlRetryTimeout l seq s
  | .statusSend => Sys2Proof.Machine.execStatusSend s
  | .decidedSend => Sys2Proof.Machine.execDecidedSend s
  | .deviceLostTimeout dv => Sys2Proof.Machine.execDeviceLostTimeout dv s
  | .masterLostTimeout => Sys2Proof.Machine.execMasterLostTimeout s
  | .casCtlForm => Sys2Proof.Machine.execCasCtlForm s
  | .casCtlCal => Sys2Proof.Machine.execCasCtlCal s
  | .casCtlReset => Sys2Proof.Machine.execCasCtlReset s
  | .casCtlTakeover => Sys2Proof.Machine.execCasCtlTakeover s
  | .casCtlLeave => Sys2Proof.Machine.execCasCtlLeave s
  | .casForm u => Sys2Proof.Machine.execCasForm u s
  | .casCal u => Sys2Proof.Machine.execCasCal u s
  | .casReset u => Sys2Proof.Machine.execCasReset u s
  | .casTakeover u => Sys2Proof.Machine.execCasTakeover u s
  | .casLeave u => Sys2Proof.Machine.execCasLeave u s
  | .cascadeCalDone theta fwd => Sys2Proof.Machine.execCascadeCalDone theta fwd s
  | .recalTimer => Sys2Proof.Machine.execRecalTimer s
  | .markTimer => Sys2Proof.Machine.execMarkTimer s
  | .slewStep => Sys2Proof.Machine.execSlewStep s
  | .joinWaitTimeout j => Sys2Proof.Machine.execJoinWaitTimeout j s
  | .casLinkRun l peer => Sys2Proof.Machine.execCasLinkRun l peer s
  | .pnlCtlStart => Sys2Proof.Machine.execPnlCtlStart s
  | .pnlCtlStop => Sys2Proof.Machine.execPnlCtlStop s
  | .pnlCtlCommit => Sys2Proof.Machine.execPnlCtlCommit s
  | .pnlStart u => Sys2Proof.Machine.execPnlStart u s
  | .pnlStop u => Sys2Proof.Machine.execPnlStop u s
  | .pnlCommit u => Sys2Proof.Machine.execPnlCommit u s
  | .pnlFlip u => Sys2Proof.Machine.execPnlFlip u s
  | .trainingStepDone ok lacks drive => Sys2Proof.Machine.execTrainingStepDone ok lacks drive s
  | .commitPoint t => Sys2Proof.Machine.execCommitPoint t s
  | .pixelDue level => Sys2Proof.Machine.execPixelDue level s
  | .panelStopDone => Sys2Proof.Machine.execPanelStopDone s
  | .pnlAuxCmdGo cmd => Sys2Proof.Machine.execPnlAuxCmdGo cmd s
  | .auxReply reply data => Sys2Proof.Machine.execAuxReply reply data s
  | .auxTimeout => Sys2Proof.Machine.execAuxTimeout s
  | .hpdChange level lost => Sys2Proof.Machine.execHpdChange level lost s
  | .hpdLowTimeout => Sys2Proof.Machine.execHpdLowTimeout s
  | .sysImgCtlStart => Sys2Proof.Machine.execSysImgCtlStart s
  | .sysImgCtlFlash => Sys2Proof.Machine.execSysImgCtlFlash s
  | .sysImgCtlRestart => Sys2Proof.Machine.execSysImgCtlRestart s
  | .sysImgCtlRestartLoad => Sys2Proof.Machine.execSysImgCtlRestartLoad s
  | .sysRestart u => Sys2Proof.Machine.execSysRestart u s
  | .imageLoaded => Sys2Proof.Machine.execImageLoaded s
  | .flashImageRead data big => Sys2Proof.Machine.execFlashImageRead data big s
  | .sysOvlCtlGo => Sys2Proof.Machine.execSysOvlCtlGo s
  | .sysOverlay u => Sys2Proof.Machine.execSysOverlay u s
  | .overlayStaged => Sys2Proof.Machine.execOverlayStaged s
  | .sysSleepCtlGo => Sys2Proof.Machine.execSysSleepCtlGo s
  | .sysSleep u => Sys2Proof.Machine.execSysSleep u s
  | .sleepEntryDone => Sys2Proof.Machine.execSleepEntryDone s
  | .wakePin => Sys2Proof.Machine.execWakePin s
  | .wakeHostAccess => Sys2Proof.Machine.execWakeHostAccess s
  | .wakeTimer => Sys2Proof.Machine.execWakeTimer s
  | .wakeStart => Sys2Proof.Machine.execWakeStart s
  | .resumeInstant => Sys2Proof.Machine.execResumeInstant s
  | .resetAssert perst ns full => Sys2Proof.Machine.execResetAssert perst ns full s
  | .resetRelease perst => Sys2Proof.Machine.execResetRelease perst s
  | .refclkReady hz lockA lockB => Sys2Proof.Machine.execRefclkReady hz lockA lockB s
  | .rootLockTimeout => Sys2Proof.Machine.execRootLockTimeout s
  | .postDone failed fixed vddOk => Sys2Proof.Machine.execPostDone failed fixed vddOk s
  | .trainingDone remaps flash => Sys2Proof.Machine.execTrainingDone remaps flash s
  | .sysFlashCmdGo cmd => Sys2Proof.Machine.execSysFlashCmdGo cmd s
  | .flashCmdDone data => Sys2Proof.Machine.execFlashCmdDone data s
  | .functionLevelReset => Sys2Proof.Machine.execFunctionLevelReset s
  | .railOutOfRange => Sys2Proof.Machine.execRailOutOfRange s
  | .powerUp straps => Sys2Proof.Machine.execPowerUp straps s
  | .testAccessPortClock tms tdi trst rising => Sys2Proof.Machine.execTestAccessPortClock tms tdi trst rising s

end Sys2Proof.Machine
end

