-- ==== Sys2Proof/Machine/Step.lean ====
section
/-!
DEFINITION. One step of the block: the command at the front of the queue is carried out.
-/

namespace Sys2Proof.Machine

open Sys2Proof

/-- One step takes the command at the front of the queue and carries it out on the state that
keeps the rest of the queue. With no command waiting the block idles (DESIGN CHOICE: the passing
of time is the command TCLK_TICK, a row of the table). -/
def step (s : State) : Host.Outcome State Fault Refusal :=
  match s.pending with
  | [] => .next s
  | c :: rest => exec c { s with pending := rest }

/-- The state with the command that a word spells put in front of the queue. -/
def State.withFetchWord (s : State) (nbits w : Nat) : State :=
  match decodeTableWord nbits w with
  | none => s
  | some c => { s with pending := c :: s.pending }

end Sys2Proof.Machine
end

