-- ==== Sys2Proof/Safety.lean ====
section
/-!
DEFINITION. The terms in which claims speak of a command: that it completes, what it does and what it leaves alone.
-/

namespace Sys2Proof.Machine

open Sys2Proof

/-- Command `i` completes at `s`, and what it does to the device is `f`; the waiting commands stay. -/
def Gives (i : Instr) (s : State) (f : Device → Device) : Prop :=
  exec i s = .next { s with dev := f s.dev }

/-- Command `i` completes at `s` in a state whose device satisfies `P`; the waiting commands stay. -/
def Reaches (i : Instr) (s : State) (P : Device → Prop) : Prop :=
  ∃ t, exec i s = .next t ∧ t.pending = s.pending ∧ P t.dev

/-- Engine `e` issues instruction `i` of `len` words now: it is running and the device is not asleep (R270, R346), no far
load in flight holds one of the registers `touch` (R323), the words end inside program memory (R308), the encoding is
legal (R299), and the first of two words does not end an active block repeat (R313). -/
abbrev Device.issuesNow (d : Device) (e : Nat) (i : Instr) (len : Nat) (touch : List Nat) : Prop :=
  (d.eng e).state = 1 ∧ e < 512 ∧ d.sys.asleep = false ∧ (d.eng e).farStall touch = false ∧
    (d.eng e).pc + len ≤ 0x10000 ∧ i.disoexOk = true ∧ ¬(len = 2 ∧ (d.eng e).isEnd (d.eng e).pc = true)

/-- The word that follows an instruction of `len` words in sequence, and the repeat levels left (R312). -/
def Engine.advance (x : Engine) (len : Nat) : Nat × List RepLevel :=
  let r := loopBack (x.pc + len - 1) x.stack.length x.reps
  (r.1.getD (x.pc + len), r.2)

/-- The engine after an instruction of `len` words that changes no register besides its own sequencing. -/
def Engine.next (x : Engine) (len : Nat) : Engine :=
  { x with pc := (x.advance len).1, reps := (x.advance len).2 }

/-- Engine `e` becomes `y`, and every other engine and everything else of the device is as it was. -/
def OnlyEngine (d d' : Device) (e : Nat) (y : Engine) : Prop :=
  d'.eng e = y ∧ (∀ j, j ≠ e → d'.eng j = d.eng j) ∧ d' = { d with engines := d'.engines }

/-- The data memories, by number: X, Y and local memory (R255). -/
def Device.dataMem (d : Device) (k : Nat) : List Host.Cell := if k = 0 then d.xmem else if k = 1 then d.ymem else d.lmem

/-- The data memory that holds a place of engine `e`'s data space, and the address in it; a command port is in none (R255). -/
def DLoc.home (e : Nat) : DLoc → Option (Nat × Nat)
  | .x o => some (0, clusterAt e o)
  | .y o => some (1, clusterAt e o)
  | .l o => some (2, localAt e o)
  | .port _ _ => none

/-- Between `d` and `d'`, the bytes of the data memories change only where the places of `ws` get their bytes; where two
places meet the later one counts. -/
def StoresOnly (d d' : Device) (e : Nat) (ws : List (DLoc × List Byte)) : Prop :=
  ∀ k a, k < 3 → memGet (d'.dataMem k) a =
    ws.foldl (fun v p =>
      match p.1.home e with
      | some (k', b) => if k' = k ∧ b ≤ a ∧ a < b + p.2.length then p.2.getD (a - b) 0 else v
      | none => v) (memGet (d.dataMem k) a)

/-- Engine `e` becomes `y` and `ws` is stored in its data space; every other engine and everything else of the device is as it
was, but that the accesses to X and Y memory take part in their banks (R253). -/
def OnlyEngineAndData (d d' : Device) (e : Nat) (y : Engine) (ws : List (DLoc × List Byte)) : Prop :=
  d'.eng e = y ∧ (∀ j, j ≠ e → d'.eng j = d.eng j) ∧ StoresOnly d d' e ws ∧
    d' = { d with engines := d'.engines, xmem := d'.xmem, ymem := d'.ymem, lmem := d'.lmem, bankUsed := d'.bankUsed }

/-- What an integer instruction leaves (R302, R303): the result `r` in gd, Z and N of it, C and V where given, and
everything else of the device as it was. -/
def IntegerResult (d d' : Device) (e len gd : Nat) (r : Word) (cv : Option (Bool × Bool)) : Prop :=
  let x := d.eng e
  ∃ y : Engine, OnlyEngine d d' e y ∧
    y = { x with g := y.g, st := y.st, pc := (x.advance len).1, reps := (x.advance len).2 } ∧
    (∀ j, y.gr j = if j = gd ∧ j ≠ 0 then r else x.gr j) ∧
    y.stBit stZ = decide (r = 0) ∧ y.stBit stN = r.msb ∧
    (match cv with
     | none => y.stBit stC = x.stBit stC ∧ y.stBit stV = x.stBit stV
     | some (c, v) => y.stBit stC = c ∧ y.stBit stV = v) ∧
    (∀ b, 4 ≤ b → b < 12 → y.stBit b = x.stBit b)

/-- The value that a move loads into c register `c`, if it loads that register (R300, R301). -/
def Device.moveLoad (d : Device) (e c : Nat) (p : Option (Move × DLoc)) : Option (Word × Word) :=
  match p with
  | some (m, w) => if m.store = false ∧ m.cn = c then some (cLoad m.wide (d.dread e w (cSize m.wide))) else none
  | none => none

/-- The value that a move gives pointer `n`, if it updates that pointer (R293, R300). -/
def Device.moveStep (d : Device) (e n : Nat) (p : Option (Move × DLoc)) : Option Word :=
  match p with
  | some (m, _) =>
    if modeUpdates m.mode = true ∧ m.pn = n then some ((d.eng e).stepP m.pn m.mode (cSize m.wide)) else none
  | none => none

/-- The store of a move: its place and the bytes its c register held before the instruction (R288, R301). -/
def Device.moveStore (d : Device) (e : Nat) (p : Option (Move × DLoc)) : List (DLoc × List Byte) :=
  match p with
  | some (m, w) => if m.store then [(w, bytesLE (cSize m.wide) (cStore m.wide ((d.eng e).cr m.cn)))] else []
  | none => []

/-- What a complex instruction with the moves `mv` leaves (R288, R300, R301, R306, R307): accumulators as `acc`, c registers
as `c` except those that a move loads, g registers as `g`, the sticky bits AS and RS raised by `sat`, the pointers that
moves update, the bytes that moves store, and everything else of the device as it was. -/
def ComplexResult (d d' : Device) (e : Nat) (mv : Moves) (acc : Nat → Int × Int) (c : Nat → Word × Word) (g : Nat → Word)
    (satA satC : Bool) : Prop :=
  let x := d.eng e
  let len := Moves.len mv
  ∃ (a b : Option (Move × DLoc)) (y : Engine),
    x.movePlace true (mv.getD (none, none)).1 = .ok a ∧ x.movePlace false (mv.getD (none, none)).2 = .ok b ∧
    OnlyEngineAndData d d' e y (d.moveStore e a ++ d.moveStore e b) ∧
    y = { x with g := y.g, c := y.c, a := y.a, p := y.p, st := y.st, pc := (x.advance len).1, reps := (x.advance len).2 } ∧
    (∀ j, y.ar j = acc j) ∧ (∀ j, y.gr j = g j) ∧
    (∀ j, y.cr j = ((d.moveLoad e j b).or (d.moveLoad e j a)).getD (c j)) ∧
    (∀ n, y.pr n = ((d.moveStep e n b).or (d.moveStep e n a)).getD (x.pr n)) ∧
    y.stBit stAS = (x.stBit stAS || satA) ∧ y.stBit stRS = (x.stBit stRS || satC) ∧
    (∀ i, i < 10 → y.stBit i = x.stBit i)

/-- Engine `e` issues a complex instruction now, and each of its moves names a place that its bus reaches (R296). -/
def Device.complexNow (d : Device) (e : Nat) (i : Instr) (mv : Moves) (touch : List Nat) : Prop :=
  d.issuesNow e i (Moves.len mv) (touch ++ Moves.touch mv) ∧
    (∃ a, (d.eng e).movePlace true (mv.getD (none, none)).1 = .ok a) ∧
    (∃ b, (d.eng e).movePlace false (mv.getD (none, none)).2 = .ok b)

/-- A command word of class `cls` and operation `op` comes to its unit now, spelling the operands of `u`, and UNIT names one of the `n` objects that
the operation addresses (R43, R258 to R261). -/
abbrev Device.comes (d : Device) (cls op n : Nat) (u : UCmd) : Prop := d.takes cls op u = true ∧ u.unit < n

/-- What an engine fault leaves (R271): the engine FAULTED with its cause and its pc at the instruction, the cluster's fault
flag and counter, and an ALARM entry for the lead engine. -/
def Faults (i : Instr) (s : State) (e cause : Nat) : Prop := Gives i s (fun d => d.engFault e cause)

/-- The bounds of an engine: call stack (R310), repeat levels (R312), event queue (R264), far accesses in flight (R323), and
accumulators of 48 bits (R290). -/
def Engine.Bounded (x : Engine) : Prop :=
  x.stack.length ≤ 16 ∧ x.reps.length ≤ 4 ∧ x.evq.length ≤ 256 ∧ x.fl.length ≤ 8 ∧ x.fs.length ≤ 16 ∧
    ∀ j, -(2 ^ 47) ≤ (x.ar j).1 ∧ (x.ar j).1 < 2 ^ 47 ∧ -(2 ^ 47) ≤ (x.ar j).2 ∧ (x.ar j).2 < 2 ^ 47

end Sys2Proof.Machine
end

