-- ==== Sys2Proof/Certificates/Slice0/Obligations.lean ====
section
/-!
DEFINITION. The statements about the block, by chapter of the manual.
-/

open Sys2Proof Sys2Proof.Machine

/-- A step carries out the command at the front of the queue on the state that keeps the rest. -/
def Obligations.StepRunsFrontCommand : Prop :=
  ∀ (c : Instr) (rest : List Instr) (s : State),
    step { s with pending := c :: rest } = exec c { s with pending := rest }

/-- Every command completes and leaves the waiting commands, except RAIL_OUT_OF_RANGE with both reset pins high. -/
def Obligations.OnlyUndefinedRailStops : Prop :=
  ∀ (i : Instr) (s : State),
    (∃ t, exec i s = .next t ∧ t.pending = s.pending) ∨
      (i = .railOutOfRange ∧ s.dev.pinLow = false ∧ exec i s = .fault .railUndefined)

/-- Decode of encode is the identity on the well-formed Disoex instructions. A test-only instruction's words do not name the
physical engine that a self-test runs on, so they decode to the form without one. -/
def Obligations.DisoexDecodeOfEncode : Prop :=
  ∀ (i : Instr) (w : Nat) (ext : Option Nat), i.disoexOk = true → encode i = some (w, ext) →
    (∀ e g p, i ≠ .tprpg e g (some p)) → (∀ e g p, i ≠ .tscan e g (some p)) → (∀ e g p, i ≠ .tmisr e g (some p)) →
    ∃ e, decodeWords e w ext = some i

/-- Words written out in the manual, and the two words that R299 names. -/
def Obligations.DisoexWords : Prop :=
  ∀ e : Nat,
    decodeWords e 0x3C00404F none = some (.rep e (.imm 79) 4) ∧
    decodeWords e 0xC4480400 (some 0x80088320) =
      some (.cmulr e 2 0 1 (some (some ⟨false, false, 0, 0, 1⟩, some ⟨false, false, 1, 4, 4⟩))) ∧
    decodeWords e 0x46CA0110 none = some (.apeak e 2 1 5 none) ∧
    decodeWords e 0x42920000 none = some (.cpow e 1 2 none) ∧
    decodeWords e 0 none = some (.nop e) ∧
    decodeWords e 0xFFFFFFFF (some 0xFFFFFFFF) = none

/-- R302, R303: results and flags, and their frame. -/
def Obligations.IntegerForms : Prop :=
  (∀ (s : State) (e gd gs gt : Nat),
      let x := s.dev.eng e
      let a := x.gr gs
      let b := x.gr gt
      let n := b.toNat % 64
      let rows : List (Instr × Word × Option (Bool × Bool)) :=
        [(.add e gd gs gt, a + b,
            some (decide (2 ^ 32 ≤ a.toNat + b.toNat), decide (a.msb = b.msb ∧ (a + b).msb ≠ a.msb))),
         (.sub e gd gs gt, a - b, some (decide (b.toNat ≤ a.toNat), decide (a.msb ≠ b.msb ∧ (a - b).msb ≠ a.msb))),
         (.and e gd gs gt, a &&& b, none), (.or e gd gs gt, a ||| b, none), (.xor e gd gs gt, a ^^^ b, none),
         (.shl e gd gs gt, if n < 32 then a <<< n else 0, none),
         (.shr e gd gs gt, if n < 32 then a >>> n else 0, none),
         (.sar e gd gs gt, if n < 32 then a.sshiftRight n else if a.msb then -1 else 0, none),
         (.mul e gd gs gt, BitVec.ofNat 32 (a.toNat * b.toNat), none),
         (.mulh e gd gs gt, ((a.signExtend 64 * b.signExtend 64) >>> 32).setWidth 32, none),
         (.mulhu e gd gs gt, ((a.setWidth 64 * b.setWidth 64) >>> 32).setWidth 32, none),
         (.min e gd gs gt, if a.sle b then a else b, none), (.max e gd gs gt, if a.sle b then b else a, none),
         (.minu e gd gs gt, if a ≤ b then a else b, none), (.maxu e gd gs gt, if a ≤ b then b else a, none)]
      (∀ row ∈ rows, s.dev.issuesNow e row.1 1 [gd, gs, gt] →
        Reaches row.1 s (fun d' => IntegerResult s.dev d' e 1 gd row.2.1 row.2.2)) ∧
      (s.dev.issuesNow e (.clz e gd gs) 1 [gd, gs] →
        ∃ r : Word, (a = 0 → r = 32) ∧ (a ≠ 0 → r.toNat ≤ 31 ∧ 2 ^ (31 - r.toNat) ≤ a.toNat ∧ a.toNat < 2 ^ (32 - r.toNat)) ∧
          Reaches (.clz e gd gs) s (fun d' => IntegerResult s.dev d' e 1 gd r none)) ∧
      (s.dev.issuesNow e (.popc e gd gs) 1 [gd, gs] →
        Reaches (.popc e gd gs) s (fun d' =>
          IntegerResult s.dev d' e 1 gd (BitVec.ofNat 32 ((List.range 32).filter (fun i => a.getLsbD i)).length) none))) ∧
  (∀ (s : State) (e gd gs n : Nat) (imm : Imm),
      let a := (s.dev.eng e).gr gs
      let sx := match imm with | .short v => (BitVec.ofNat 16 v).signExtend 32 | .long v => BitVec.ofNat 32 v
      let zx := match imm with | .short v => (BitVec.ofNat 16 v).setWidth 32 | .long v => BitVec.ofNat 32 v
      let len := match imm with | .short _ => 1 | .long _ => 2
      let subFlags := some (decide (sx.toNat ≤ a.toNat), decide (a.msb ≠ sx.msb ∧ (a - sx).msb ≠ a.msb))
      let rows : List (Instr × Word × Option (Bool × Bool)) :=
        [(.addi e gd gs imm, a + sx,
            some (decide (2 ^ 32 ≤ a.toNat + sx.toNat), decide (a.msb = sx.msb ∧ (a + sx).msb ≠ a.msb))),
         (.andi e gd gs imm, a &&& zx, none), (.ori e gd gs imm, a ||| zx, none), (.xori e gd gs imm, a ^^^ zx, none)]
      let shifts : List (Instr × Word) :=
        [(.shli e gd gs n, a <<< n), (.shri e gd gs n, a >>> n), (.sari e gd gs n, a.sshiftRight n)]
      (∀ row ∈ rows, s.dev.issuesNow e row.1 len [gd, gs] →
        Reaches row.1 s (fun d' => IntegerResult s.dev d' e len gd row.2.1 row.2.2)) ∧
      (∀ row ∈ shifts, s.dev.issuesNow e row.1 1 [gd, gs] →
        Reaches row.1 s (fun d' => IntegerResult s.dev d' e 1 gd row.2 none)) ∧
      (s.dev.issuesNow e (.cmpi e gs imm) len [gs] →
        Reaches (.cmpi e gs imm) s (fun d' => ∃ y : Engine, OnlyEngine s.dev d' e y ∧
          y = { (s.dev.eng e).next len with st := y.st } ∧
          y.stBit stZ = decide (a - sx = 0) ∧ y.stBit stN = (a - sx).msb ∧
          some (y.stBit stC, y.stBit stV) = subFlags ∧
          ∀ b, 4 ≤ b → b < 12 → y.stBit b = (s.dev.eng e).stBit b)))

/-- R304. The value of a finite binary32 is the integer significand times a power of two. R281, R282: MOVR. -/
def Obligations.ConversionsAndMovr : Prop :=
  (∀ (s : State) (e gd gs ex : Nat),
    let x := s.dev.eng e
    let f := (x.gr gs).toNat
    let k : Int := if ex < 32 then ex else (ex : Int) - 64
    let clamp := fun z : Int => max (-(2 ^ 31)) (min (2 ^ 31 - 1) z)
    let mag := f % 2 ^ 31
    let expo := mag / 2 ^ 23
    let man : Int := (mag % 2 ^ 23 + if expo = 0 then 0 else 2 ^ 23 : Nat)
    let num : Int := if 2 ^ 31 ≤ f then -man else man
    let z := scaleRound num ((max expo 1 : Nat) - 150 + k)
    (s.dev.issuesNow e (.ftoi e gd gs ex) 1 [gd, gs] →
      (0xFF * 2 ^ 23 < mag →
        Reaches (.ftoi e gd gs ex) s (fun d' => IntegerResult s.dev d' e 1 gd 0 (some (x.stBit stC, true)))) ∧
      (mag = 0xFF * 2 ^ 23 →
        Reaches (.ftoi e gd gs ex) s (fun d' => IntegerResult s.dev d' e 1 gd
          (if 2 ^ 31 ≤ f then 0x80000000 else 0x7FFFFFFF) (some (x.stBit stC, true)))) ∧
      (mag < 0xFF * 2 ^ 23 →
        Reaches (.ftoi e gd gs ex) s (fun d' => IntegerResult s.dev d' e 1 gd (BitVec.ofInt 32 (clamp z))
          (some (x.stBit stC, decide (clamp z ≠ z)))))) ∧
    (s.dev.issuesNow e (.itof e gd gs ex) 1 [gd, gs] →
      Reaches (.itof e gd gs ex) s (fun d' => IntegerResult s.dev d' e 1 gd
        (BitVec.ofNat 32 (if 0 ≤ k then f32.ofInt (x.gr gs).toInt (2 ^ k.toNat)
          else f32.ofInt ((x.gr gs).toInt * (2 ^ (-k).toNat : Nat)) 1)) none))) ∧
  (∀ (s : State) (e rd rs : Nat),
    let x := s.dev.eng e
    let v := x.idRead e rs
    let isL := (0x60 ≤ rd ∧ rd < 0x68) ∨ (0x70 ≤ rd ∧ rd < 0x78)
    let isH := (0x68 ≤ rd ∧ rd < 0x70) ∨ (0x78 ≤ rd ∧ rd < 0x80)
    s.dev.issuesNow e (.movr e rd rs) 1 [idTouch rd, idTouch rs] →
    Reaches (.movr e rd rs) s (fun d' => ∃ y : Engine, OnlyEngine s.dev d' e y ∧
      y = { x.next 1 with g := y.g, c := y.c, a := y.a, p := y.p, m := y.m, l := y.l, st := y.st, ev := y.ev } ∧
      (rd < 0x38 → rd ≠ 0 → y.idRead e rd = v) ∧ y.gr 0 = 0 ∧
      (rd = 0x38 → ∀ b, b < 12 → y.stBit b = v.getLsbD b) ∧ (rd ≠ 0x38 → y.st = x.st) ∧
      y.ev = (if rd = 0x39 then v.toNat % 2 ^ 23 else x.ev) ∧
      (0x40 ≤ rd → rd < 0x60 → y.idRead e rd = v) ∧
      (isL → y.idRead e rd = v ∧ y.idRead e (rd + 8) = if v.msb then -1 else 0) ∧
      (isH → y.idRead e rd = (v.setWidth 16).signExtend 32 ∧ y.idRead e (rd - 8) = x.idRead e (rd - 8)) ∧
      (∀ j, j < 0x80 → j ≠ rd → j ≠ 0x38 → j ≠ 0x3A → ¬(0x3C ≤ j ∧ j < 0x40) → ¬(isL ∧ j = rd + 8) → y.idRead e j = x.idRead e j)))

/-- R301, R305: LD and LDC. -/
def Obligations.LoadsReadData : Prop :=
  ∀ (s : State) (e r pn mode size : Nat) (u wide : Bool) (w : DLoc),
    let x := s.dev.eng e
    let n := sizeBytes size
    let v := s.dev.dread e w n
    let c := if wide then 8 else 4
    let z := s.dev.dread e w c
    (s.dev.issuesNow e (.ld e r pn mode size u) 1 [r] → dataLoc (x.addr pn mode) n = .ok w →
      Reaches (.ld e r pn mode size u) s (fun d' => ∃ y : Engine, OnlyEngine (s.dev.dreadEffect e w n) d' e y ∧
        y = { x.next 1 with g := y.g, p := y.p, ports := ((s.dev.dreadEffect e w n).eng e).ports } ∧
        (∀ j, y.gr j = if j = r ∧ j ≠ 0 then extendTo32 v n u else x.gr j) ∧
        (∀ j, y.pr j = if j = pn then x.stepP pn mode n else x.pr j))) ∧
    (s.dev.issuesNow e (.ldc e r pn mode wide) 1 [0x40 + r] → dataLoc (x.addr pn mode) c = .ok w →
      Reaches (.ldc e r pn mode wide) s (fun d' => ∃ y : Engine, OnlyEngine (s.dev.dreadEffect e w c) d' e y ∧
        y = { x.next 1 with c := y.c, p := y.p, ports := ((s.dev.dreadEffect e w c).eng e).ports } ∧
        (∀ j, y.cr j = if j = r then
            (if wide then (BitVec.ofNat 32 z, BitVec.ofNat 32 (z / 2 ^ 32))
             else (BitVec.ofNat 32 (z % 65536 * 65536), BitVec.ofNat 32 (z / 65536 % 65536 * 65536)))
          else x.cr j) ∧
        (∀ j, y.pr j = if j = pn then x.stepP pn mode c else x.pr j)))

/-- R301, R305: ST and STC. -/
def Obligations.StoresWriteData : Prop :=
  ∀ (s : State) (e r pn mode size : Nat) (wide : Bool) (w : DLoc),
    let x := s.dev.eng e
    let n := sizeBytes size
    let c := if wide then 8 else 4
    let z := if wide then (x.cr r).1.toNat + (x.cr r).2.toNat * 2 ^ 32
      else (x.cr r).1.toNat / 65536 + (x.cr r).2.toNat / 65536 * 65536
    (s.dev.issuesNow e (.st e r pn mode size) 1 [r] → dataLoc (x.addr pn mode) n = .ok w → (w.home e).isSome = true →
      Reaches (.st e r pn mode size) s (fun d' => ∃ y : Engine,
        OnlyEngineAndData s.dev d' e y [(w, bytesLE n (x.gr r).toNat)] ∧ y = { x.next 1 with p := y.p } ∧
        (∀ j, y.pr j = if j = pn then x.stepP pn mode n else x.pr j))) ∧
    (s.dev.issuesNow e (.st e r pn mode size) 1 [r] → dataLoc (x.addr pn mode) n = .ok w → w.home e = none →
      Faults (.st e r pn mode size) s e 3) ∧
    (s.dev.issuesNow e (.stc e r pn mode wide) 1 [0x40 + r] → dataLoc (x.addr pn mode) c = .ok w →
      (w.home e).isSome = true →
      Reaches (.stc e r pn mode wide) s (fun d' => ∃ y : Engine,
        OnlyEngineAndData s.dev d' e y [(w, bytesLE c z)] ∧ y = { x.next 1 with p := y.p } ∧
        (∀ j, y.pr j = if j = pn then x.stepP pn mode c else x.pr j))) ∧
    (s.dev.issuesNow e (.stc e r pn mode wide) 1 [0x40 + r] → dataLoc (x.addr pn mode) c = .ok w → w.home e = none →
      Faults (.stc e r pn mode wide) s e 3)

/-- R306. CPOWA saturates both components; a component that is in range, as every write leaves it, stays as it was. -/
def Obligations.ComplexGroupA : Prop :=
  ∀ (s : State) (e ad cx cy : Nat) (mv : Moves),
    let x := s.dev.eng e
    let h := fun v : Word => v.toInt / 65536
    let xr := h (x.cr cx).1
    let xi := h (x.cr cx).2
    let yr := h (x.cr cy).1
    let yi := h (x.cr cy).2
    let ar := (x.ar ad).1
    let ai := (x.ar ad).2
    let clamp := fun z : Int => max (-(2 ^ 47)) (min (2 ^ 47 - 1) z)
    let two := [0x40 + cx, 0x40 + cy]
    let rows : List (Instr × List Nat × Bool × (Int × Int)) :=
      [(.cmac e ad cx cy mv, two, true, (ar + (xr * yr - xi * yi), ai + (xr * yi + xi * yr))),
       (.cmacc e ad cx cy mv, two, true, (ar + (xr * yr + xi * yi), ai + (xi * yr - xr * yi))),
       (.cmsu e ad cx cy mv, two, true, (ar - (xr * yr - xi * yi), ai - (xr * yi + xi * yr))),
       (.cmul e ad cx cy mv, two, false, (xr * yr - xi * yi, xr * yi + xi * yr)),
       (.cmulc e ad cx cy mv, two, false, (xr * yr + xi * yi, xi * yr - xr * yi)),
       (.cpow e ad cx mv, [0x40 + cx], false, (xr * xr + xi * xi, 0)),
       (.cpowa e ad cx mv, [0x40 + cx], true, (ar + (xr * xr + xi * xi), ai)),
       (.aclr e ad mv, [], false, (0, 0))]
    ∀ row ∈ rows, s.dev.complexNow e row.1 mv row.2.1 →
      let v := row.2.2.2
      let r := if row.2.2.1 then (clamp v.1, clamp v.2) else v
      Reaches row.1 s (fun d' =>
        ComplexResult s.dev d' e mv (fun j => if j = ad then r else x.ar j) x.cr x.gr (decide (r ≠ v)) false)

/-- R307, the rows that write a c register, and CNOP. -/
def Obligations.ComplexGroupBRegisters : Prop :=
  ∀ (s : State) (e cd cs ct as sh : Nat) (mv : Moves),
    let x := s.dev.eng e
    let h := fun v : Word => v.toInt / 65536
    let a := x.cr cs
    let b := x.cr ct
    let acc := x.ar as
    let k : Int := if sh < 32 then sh else (sh : Int) - 64
    let c32 := fun z : Int => max (-(2 ^ 31)) (min (2 ^ 31 - 1) z)
    let c16 := fun z : Int => max (-(2 ^ 15)) (min (2 ^ 15 - 1) z)
    let pr := scaleRound (h a.1 * h b.1 - h a.2 * h b.2) (-15)
    let pi := scaleRound (h a.1 * h b.2 + h a.2 * h b.1) (-15)
    let three := [0x40 + cd, 0x40 + cs, 0x40 + ct]
    let pair := [0x40 + cd, 0x40 + cs]
    let wide : List (Instr × List Nat × (Int × Int)) :=
      [(.cadd e cd cs ct mv, three, (a.1.toInt + b.1.toInt, a.2.toInt + b.2.toInt)),
       (.csub e cd cs ct mv, three, (a.1.toInt - b.1.toInt, a.2.toInt - b.2.toInt)),
       (.cconj e cd cs mv, pair, (a.1.toInt, -a.2.toInt)),
       (.arndW e cd as sh mv, [0x40 + cd], (scaleRound acc.1 (k + 1), scaleRound acc.2 (k + 1))),
       (.cscl e cd cs sh mv, pair, (scaleRound a.1.toInt k, scaleRound a.2.toInt k))]
    let half : List (Instr × List Nat × (Int × Int)) :=
      [(.cmulr e cd cs ct mv, three, (pr, pi)),
       (.arndH e cd as sh mv, [0x40 + cd], (scaleRound acc.1 (k - 15), scaleRound acc.2 (k - 15)))]
    sh < 64 →
    (∀ row ∈ wide, s.dev.complexNow e row.1 mv row.2.1 →
      let v := row.2.2
      let r := (c32 v.1, c32 v.2)
      Reaches row.1 s (fun d' => ComplexResult s.dev d' e mv x.ar
        (fun j => if j = cd then (BitVec.ofInt 32 r.1, BitVec.ofInt 32 r.2) else x.cr j) x.gr false (decide (r ≠ v)))) ∧
    (∀ row ∈ half, s.dev.complexNow e row.1 mv row.2.1 →
      let v := row.2.2
      let r := (c16 v.1, c16 v.2)
      Reaches row.1 s (fun d' => ComplexResult s.dev d' e mv x.ar
        (fun j => if j = cd then (BitVec.ofInt 32 (r.1 * 65536), BitVec.ofInt 32 (r.2 * 65536)) else x.cr j) x.gr false
        (decide (r ≠ v)))) ∧
    (s.dev.complexNow e (.cmov e cd cs mv) mv pair →
      Reaches (.cmov e cd cs mv) s (fun d' =>
        ComplexResult s.dev d' e mv x.ar (fun j => if j = cd then a else x.cr j) x.gr false false)) ∧
    (s.dev.complexNow e (.cnop e mv) mv [] →
      Reaches (.cnop e mv) s (fun d' => ComplexResult s.dev d' e mv x.ar x.cr x.gr false false))

/-- R307, the rows that write accumulators. -/
def Obligations.ComplexGroupBAccumulators : Prop :=
  ∀ (s : State) (e ad as ct gi : Nat) (mv : Moves),
    let x := s.dev.eng e
    let a := x.ar ad
    let b := x.ar as
    let c := x.cr ct
    let t := x.gr gi
    let clamp := fun z : Int => max (-(2 ^ 47)) (min (2 ^ 47 - 1) z)
    let sum := (a.1 + b.1, a.2 + b.2)
    let sat := (clamp sum.1, clamp sum.2)
    let one := if a.1 < c.1.toInt then (c.1.toInt, t.toInt) else a
    let two := if one.1 < c.2.toInt then (c.2.toInt, (t + 1).toInt) else one
    (s.dev.complexNow e (.aadd e ad as mv) mv [] →
      Reaches (.aadd e ad as mv) s (fun d' => ComplexResult s.dev d' e mv
        (fun j => if j = ad then sat else x.ar j) x.cr x.gr (decide (sat ≠ sum)) false)) ∧
    (s.dev.complexNow e (.amov e ad as mv) mv [] →
      Reaches (.amov e ad as mv) s (fun d' => ComplexResult s.dev d' e mv
        (fun j => if j = ad then b else x.ar j) x.cr x.gr false false)) ∧
    (s.dev.complexNow e (.apeak e ad as gi mv) mv [gi] →
      Reaches (.apeak e ad as gi mv) s (fun d' => ComplexResult s.dev d' e mv
        (fun j => if j = ad ∧ a.1 < b.1 then (b.1, t.toInt) else x.ar j) x.cr
        (fun j => if j = gi ∧ j ≠ 0 then t + 1 else x.gr j) false false)) ∧
    (s.dev.complexNow e (.cpeak e ad ct gi mv) mv [gi, 0x40 + ct] →
      Reaches (.cpeak e ad ct gi mv) s (fun d' => ComplexResult s.dev d' e mv
        (fun j => if j = ad then two else x.ar j) x.cr
        (fun j => if j = gi ∧ j ≠ 0 then t + 2 else x.gr j) false false))

/-- R308, R309, R313. R308, R310, R313. -/
def Obligations.ControlTransfers : Prop :=
  (∀ (s : State) (e cond off bit gs : Nat),
    let x := s.dev.eng e
    let z := x.stBit 0
    let n := x.stBit 1
    let c := x.stBit 2
    let v := x.stBit 3
    let conds := [true, z, !z, n != v, n == v, z || (n != v), !z && (n == v), !c, c, n, !n, v, !v]
    let t : Int := x.pc + (BitVec.ofNat 16 off).toInt
    let rows : List (Instr × List Nat × Bool × Int) :=
      [(.br e cond off, [], conds.getD cond false, t), (.bbc e bit off, [], !x.stBit bit, t),
       (.bbs e bit off, [], x.stBit bit, t), (.jmp e gs, [gs], true, (x.gr gs).toNat)]
    ∀ row ∈ rows, s.dev.issuesNow e row.1 1 row.2.1 →
      let taken := row.2.2.1
      let dest := row.2.2.2
      (taken = false → Reaches row.1 s (fun d' => OnlyEngine s.dev d' e (x.next 1))) ∧
      (taken = true → 0 ≤ dest → dest ≤ 0xFFFF → x.isEnd x.pc = false → x.leavesBody dest = false →
        Reaches row.1 s (fun d' => OnlyEngine s.dev d' e { x with pc := dest.toNat })) ∧
      (taken = true → (dest < 0 ∨ 0xFFFF < dest) → Faults row.1 s e 2) ∧
      (taken = true → 0 ≤ dest → dest ≤ 0xFFFF → (x.isEnd x.pc = true ∨ x.leavesBody dest = true) → Faults row.1 s e 9)) ∧
  (∀ (s : State) (e off gs : Nat),
    let x := s.dev.eng e
    let rows : List (Instr × List Nat × Int) :=
      [(.call e off, [], x.pc + (BitVec.ofNat 16 off).toInt), (.callr e gs, [gs], (x.gr gs).toNat)]
    (∀ row ∈ rows, s.dev.issuesNow e row.1 1 row.2.1 →
      let dest := row.2.2
      (0 ≤ dest → dest ≤ 0xFFFF → x.stack.length < 16 → x.isEnd x.pc = false →
        Reaches row.1 s (fun d' => OnlyEngine s.dev d' e { x with pc := dest.toNat, stack := (x.pc + 1) :: x.stack })) ∧
      ((dest < 0 ∨ 0xFFFF < dest) → Faults row.1 s e 2) ∧
      (0 ≤ dest → dest ≤ 0xFFFF → 16 ≤ x.stack.length → Faults row.1 s e 8)) ∧
    (s.dev.issuesNow e (.ret e) 1 [] →
      (∀ a rest, x.stack = a :: rest → x.levelHere = false →
        Reaches (.ret e) s (fun d' => OnlyEngine s.dev d' e { x with pc := a, stack := rest })) ∧
      (x.stack = [] → Faults (.ret e) s e 8) ∧
      (x.stack ≠ [] → x.levelHere = true → Faults (.ret e) s e 9)))

/-- R311 to R313. -/
def Obligations.BlockRepeats : Prop :=
  ∀ (s : State) (e body cond : Nat) (src : RepSrc),
    let x := s.dev.eng e
    let n := match src with | .imm n => n | .long n => n | .reg g => (x.gr g).toNat
    let len := match src with | .long _ => 2 | _ => 1
    let touch := match src with | .reg g => [g] | _ => []
    let start := x.pc + len
    let fin := start + body - 1
    (s.dev.issuesNow e (.rep e src body) len touch → x.isEnd (x.pc + len - 1) = false → x.overruns fin = false →
      (0 < n → x.reps.length < 4 →
        Reaches (.rep e src body) s (fun d' =>
          OnlyEngine s.dev d' e { x with pc := start, reps := ⟨start, fin, n, x.stack.length⟩ :: x.reps })) ∧
      (n = 0 → Reaches (.rep e src body) s (fun d' => OnlyEngine s.dev d' e { x with pc := fin + 1 })) ∧
      (0 < n → 4 ≤ x.reps.length → Faults (.rep e src body) s e 9)) ∧
    (s.dev.issuesNow e (.rep e src body) len touch → (x.isEnd (x.pc + len - 1) = true ∨ x.overruns fin = true) →
      Faults (.rep e src body) s e 9) ∧
    (s.dev.issuesNow e (.brk e cond) 1 [] →
      (x.cond cond = false → Reaches (.brk e cond) s (fun d' => OnlyEngine s.dev d' e (x.next 1))) ∧
      (∀ r rest, x.cond cond = true → x.reps = r :: rest → x.isEnd x.pc = false →
        Reaches (.brk e cond) s (fun d' => OnlyEngine s.dev d' e { x with pc := r.fin + 1, reps := rest })) ∧
      (x.cond cond = true → (x.reps = [] ∨ x.isEnd x.pc = true) → Faults (.brk e cond) s e 9))

/-- R257, R260 to R262, R315. -/
def Obligations.CommandPorts : Prop :=
  (∀ (s : State) (u : UCmd) (m : Nat),
    let rows : List (Instr × Nat × Nat × Nat) := [
      (.sysOverlay u, 0x00, 1, 1), (.sysSleep u, 0x00, 2, 1), (.sysRestart u, 0x00, 3, 1),
      (.clkChange u, 0x01, 1, 1),
      (.lnkStart u, 0x02, 1, 8), (.lnkStop u, 0x02, 2, 8), (.lnkRate u, 0x02, 3, 8),
      (.chnReset u, 0x03, 1, 1), (.chnSwap u, 0x03, 2, 8), (.chnStart u, 0x03, 3, 16), (.chnStop u, 0x03, 4, 16), (.chnTune u, 0x03, 5, 16),
      (.xfLoad u, 0x04, 1, 1), (.xfStop u, 0x04, 2, 1), (.xfCredit u, 0x04, 3, 4096),
      (.detClear u, 0x05, 1, 1),
      (.denSnap u, 0x06, 1, 1), (.denClear u, 0x06, 2, 1),
      (.trgArm u, 0x07, 1, 64), (.trgDisarm u, 0x07, 2, 64), (.trgFire u, 0x07, 3, 64),
      (.acqArm u, 0x08, 1, 64), (.acqStop u, 0x08, 2, 64), (.acqDisarm u, 0x08, 3, 64),
      (.queEnable u, 0x09, 1, 4096), (.queDisable u, 0x09, 2, 4096),
      (.cmpSubmit u, 0x0A, 1, 32), (.cmpCont u, 0x0A, 2, 32), (.cmpEnd u, 0x0A, 3, 32), (.cmpDsubmit u, 0x0A, 4, 8), (.cmpDend u, 0x0A, 5, 8),
      (.memRepair u, 0x0B, 1, 1), (.memScrub u, 0x0B, 2, 1),
      (.dmaEnable u, 0x0C, 1, 64), (.dmaDisable u m, 0x0C, 2, 64), (.dmaDoorbell u, 0x0C, 3, 64),
      (.evtEnable u, 0x0D, 1, 16), (.evtDisable u, 0x0D, 2, 16), (.evtArm u, 0x0D, 3, 8), (.evtStop u, 0x0D, 4, 8), (.evtSet u, 0x0D, 5, 1),
      (.monStart u, 0x0E, 1, 8), (.monStop u, 0x0E, 2, 8), (.monArmInj u, 0x0E, 3, 8), (.monDisarmInj u, 0x0E, 4, 8), (.monInject u, 0x0E, 5, 8),
      (.calSetref u, 0x0F, 1, 1), (.calOutcal u, 0x0F, 2, 8),
      (.rotStep u, 0x10, 1, 780), (.rotWithdraw u, 0x10, 2, 780),
      (.bstRun u, 0x11, 1, 780),
      (.casForm u, 0x12, 1, 1), (.casCal u, 0x12, 2, 1), (.casReset u, 0x12, 3, 1), (.casTakeover u, 0x12, 4, 1), (.casLeave u, 0x12, 5, 1),
      (.pnlStart u, 0x13, 1, 1), (.pnlStop u, 0x13, 2, 1), (.pnlCommit u, 0x13, 3, 1), (.pnlFlip u, 0x13, 4, 4),
      (.engStart u, 0x14, 1, 512), (.engStop u, 0x14, 2, 512), (.engSignal u, 0x14, 3, 512), (.engTimer u, 0x14, 4, 512)]
    (∀ row ∈ rows, (s.dev.takes row.2.1 row.2.2.1 u = false → Gives row.1 s id) ∧
      (s.dev.takes row.2.1 row.2.2.1 u = true → row.2.2.2 ≤ u.unit →
        Gives row.1 s (fun d => (d.accept u).complete u.origin cUNSUP none))) ∧
    (s.dev.takes 0x01 2 u = false → Gives (.clkOutputStart u) s id ∧ Gives (.clkOutputStop u) s id) ∧
    (s.dev.takes 0x01 2 u = true → 8 ≤ u.unit →
      Gives (if bitAt u.imm 0 then .clkOutputStart u else .clkOutputStop u) s (fun d => (d.accept u).complete u.origin cUNSUP none))) ∧
  ∀ (s : State) (e k gs : Nat),
    let x := s.dev.eng e
    let w := x.pair gs
    let d := if (s.dev.blockOf e w).isEmpty then s.dev else s.dev.bankUse (e / 16)
    let keeps := fun y : Engine => ∀ j, j ≠ k → y.port j = x.port j
    let onlyPR := fun (y : Engine) (b : Bool) => y.stBit stPR = b ∧ ∀ j, j < 12 → j ≠ stPR → y.stBit j = x.stBit j
    (s.dev.issuesNow e (.ucmd e k gs) 1 [gs, gs + 1] →
      ((x.port k).outstanding = true →
        Reaches (.ucmd e k gs) s (fun d' => ∃ y : Engine,
          OnlyEngine (d.flag (F.CL_FLAGS_PORT_REFUSED (e / 16)) (Reg.CL_PORT_REFUSED_CNT (e / 16))) d' e y ∧
          y = { x.next 1 with st := y.st } ∧ onlyPR y true)) ∧
      ((x.port k).outstanding = false → wordCode w = cOK →
        Reaches (.ucmd e k gs) s (fun d' => ∃ y : Engine,
          OnlyEngine { d with issued := d.issued ++ [⟨e, k, w, s.dev.blockOf e w⟩] } d' e y ∧
          y = { x.next 1 with st := y.st, ports := y.ports } ∧ onlyPR y false ∧ keeps y ∧
          y.port k = { outstanding := true, done := false, stamped := false, code := 0, stamp := 0 })) ∧
      ((x.port k).outstanding = false → wordCode w ≠ cOK →
        Reaches (.ucmd e k gs) s (fun d' => ∃ y : Engine, OnlyEngine d d' e y ∧
          y = { x.next 1 with st := y.st, ports := y.ports } ∧ onlyPR y false ∧ keeps y ∧
          y.port k = { outstanding := false, done := true, stamped := false, code := wordCode w, stamp := 0 }))) ∧
    (∀ c : Completion, s.dev.completions.find? (fun c => decide (c.e = e) && decide (c.k = k)) = some c →
      (x.port k).outstanding = true →
      Reaches (.commandCompletion e k) s (fun d' => ∃ y : Engine,
        OnlyEngine { s.dev with completions := s.dev.completions.erase c } d' e y ∧ y = { x with ports := y.ports } ∧ keeps y ∧
        y.port k = { outstanding := false, done := true, stamped := c.stamp.isSome, code := c.code, stamp := c.stamp.getD 0 }))

/-- R316 to R319. R316, R319, R366. -/
def Obligations.QueueInstructions : Prop :=
  (∀ (s : State) (e gq gn pn : Nat),
    let x := s.dev.eng e
    let lim := (x.gr gn).toNat
    let popped := fun (d d' : Device) (v : Option Nat) (qe ql qx : Bool) => ∃ y : Engine,
      OnlyEngine d d' e y ∧ y = { x.next 1 with g := y.g, st := y.st } ∧
      (∀ j, y.gr j = match v with | some n => (if j = gn ∧ j ≠ 0 then BitVec.ofNat 32 n else x.gr j) | none => x.gr j) ∧
      y.stBit stQE = qe ∧ y.stBit stQL = ql ∧ y.stBit stQX = qx ∧
      (∀ j, j < 12 → j ≠ stQE → j ≠ stQL → j ≠ stQX → y.stBit j = x.stBit j)
    (s.dev.issuesNow e (.qpush e gq gn pn) 1 [gq, gn] →
      (∀ q a, queueOf (x.gr gq).toNat = some q → a = (x.pr pn).toNat → 0 < roomFrom a → a % 64 = 0 →
        let l := ofBytesLE (s.dev.dataBytes e (a + 4) 4)
        let n := slotsOf l
        let r : Nat × Bool :=
          if l < 32 ∨ roomFrom a < 64 * n then (0x01, false)
          else if s.dev.rdN (Reg.QUE_Q_SLOTS q) < n then (0x01, true)
          else if s.dev.isSet (F.QUE_Q_STAT_ENABLED q) = false then (0x11, true)
          else if s.dev.qFree q < n then (0x0B, false)
          else (0x00, false)
        let d := s.dev.bankUse (e / 16)
        Reaches (.qpush e gq gn pn) s (fun d' => ∃ y : Engine,
          OnlyEngine (if r.1 = 0 then d.qAccept q (s.dev.dataBytes e a (64 * n)) n 0x14 e else d) d' e y ∧
          y = { x.next 1 with g := y.g, st := y.st } ∧
          (∀ j, y.gr j = if j = gn ∧ j ≠ 0 then BitVec.ofNat 32 r.1 else x.gr j) ∧
          y.stBit stQF = decide (r.1 ≠ 0) ∧ y.stBit stQX = r.2 ∧
          (∀ j, j < 12 → j ≠ stQF → j ≠ stQX → y.stBit j = x.stBit j))) ∧
      (queueOf (x.gr gq).toNat = none ∨ roomFrom (x.pr pn).toNat = 0 → Faults (.qpush e gq gn pn) s e 3) ∧
      (∀ q, queueOf (x.gr gq).toNat = some q → 0 < roomFrom (x.pr pn).toNat → (x.pr pn).toNat % 64 ≠ 0 →
        Faults (.qpush e gq gn pn) s e 4)) ∧
    (s.dev.issuesNow e (.qpop e gq gn pn) 1 [gq, gn] →
      (∀ q a, queueOf (x.gr gq).toNat = some q → a = (x.pr pn).toNat → (0 < lim → 0 < roomFrom a) → a % 64 = 0 →
        (roomFrom a < 64 * lim → Faults (.qpop e gq gn pn) s e 3) ∧
        (64 * lim ≤ roomFrom a → s.dev.qConsumer q e = false →
          Reaches (.qpop e gq gn pn) s (fun d' => popped s.dev d' none false false true)) ∧
        (64 * lim ≤ roomFrom a → s.dev.qConsumer q e = true → (s.dev.queue q).next = none →
          Reaches (.qpop e gq gn pn) s (fun d' =>
            popped (if 1 ≤ lim then s.dev.putData e a (0x0F :: List.replicate 63 0) else s.dev) d' (some 1) true false false)) ∧
        (∀ r : QRec, 64 * lim ≤ roomFrom a → s.dev.qConsumer q e = true → (s.dev.queue q).next = some r →
          (r.slots ≤ lim → Reaches (.qpop e gq gn pn) s (fun d' =>
            popped (((s.dev.putData e a (s.dev.qCopy q r)).qRefills q r.span).qAdvance q) d' (some r.slots) false false false)) ∧
          (lim < r.slots → Reaches (.qpop e gq gn pn) s (fun d' =>
            popped s.dev d' (some r.slots) false true false)))) ∧
      (queueOf (x.gr gq).toNat = none ∨ (0 < lim ∧ roomFrom (x.pr pn).toNat = 0) → Faults (.qpop e gq gn pn) s e 3) ∧
      (∀ q, queueOf (x.gr gq).toNat = some q → (0 < lim → 0 < roomFrom (x.pr pn).toNat) → (x.pr pn).toNat % 64 ≠ 0 →
        Faults (.qpop e gq gn pn) s e 4))) ∧
  (∀ (s : State) (e gq q : Nat),
    let x := s.dev.eng e
    let rows : List (Instr × (Device → Nat → Device)) :=
      [(.qmark e gq, Device.qMark), (.qrew e gq, Device.qRewind), (.qrel e gq, Device.qRelease)]
    ∀ row ∈ rows, s.dev.issuesNow e row.1 1 [gq] →
      (queueOf (x.gr gq).toNat = some q →
        Reaches row.1 s (fun d' => ∃ y : Engine,
          OnlyEngine (if s.dev.qConsumer q e then row.2 s.dev q else s.dev) d' e y ∧ y = { x.next 1 with st := y.st } ∧
          y.stBit stQX = !s.dev.qConsumer q e ∧ (∀ j, j < 12 → j ≠ stQX → y.stBit j = x.stBit j))) ∧
      (queueOf (x.gr gq).toNat = none → Faults row.1 s e 3))

/-- R264, R266, R320. -/
def Obligations.EventsAndWaiting : Prop :=
  ∀ (s : State) (e cd : Nat),
    let x := s.dev.eng e
    (s.dev.issuesNow e (.wait e) 1 [] →
      (x.ev ≠ 0 → s.dev.evSelected e = true → Reaches (.wait e) s (fun d' => OnlyEngine s.dev d' e (x.next 1))) ∧
      (x.ev ≠ 0 → s.dev.evSelected e = false → Reaches (.wait e) s (fun d' => OnlyEngine s.dev d' e { x with state := 2 })) ∧
      (x.ev = 0 → Faults (.wait e) s e 1)) ∧
    (x.state = 2 → s.dev.sys.asleep = false → s.dev.evSelected e = true →
      Reaches (.waitResume e) s (fun d' => OnlyEngine s.dev d' e { x.next 1 with state := 1 })) ∧
    (s.dev.issuesNow e (.evget e cd) 1 [0x40 + cd] →
      Reaches (.evget e cd) s (fun d' => ∃ y : Engine, OnlyEngine s.dev d' e y ∧
        y = { x.next 1 with c := y.c, st := y.st, evq := x.evq.tail, evLost := false } ∧
        (∀ j, y.cr j = if j = cd then
            (match x.evq with | [] => (0, 0) | w :: _ => (BitVec.ofNat 32 w, BitVec.ofNat 32 (w / 2 ^ 32)))
          else x.cr j) ∧
        y.stBit stEE = x.evq.isEmpty ∧ (∀ j, j < 12 → j ≠ stEE → y.stBit j = x.stBit j))) ∧
    (s.dev.issuesNow e (.evack e) 1 [] →
      Reaches (.evack e) s (fun d' => OnlyEngine s.dev d' e { x.next 1 with timerExp := false }))

/-- R267 to R269, R322, R323. -/
def Obligations.FarMemory : Prop :=
  ∀ (s : State) (e t gs size off i : Nat) (u : Bool),
    let x := s.dev.eng e
    let n := sizeBytes size
    let a := (BitVec.ofInt 48 (((x.gr gs).toNat + (x.gr (gs + 1)).toNat % 2 ^ 16 * 2 ^ 32 : Nat) + (BitVec.ofNat 12 off).toInt)).toNat
    let reg := if size = 3 then 0x40 + t else t
    let v := if size = 3 then (x.cr t).1.toNat + (x.cr t).2.toNat * 2 ^ 32 else (x.gr t).toNat
    let counted := s.dev.inc (Reg.CL_FAR_REQ_CNT (e / 16))
    let lat := Reg.CL_FAR_LAT (e / 16)
    (8 ≤ x.fl.length → Gives (.fld e t gs size u off) s id) ∧
    (x.fl.length < 8 → s.dev.issuesNow e (.fld e t gs size u off) 1 [reg, gs, gs + 1] →
      (∀ w, farLoc a n = .ok w → Reaches (.fld e t gs size u off) s (fun d' => OnlyEngine counted d' e
        { x.next 1 with fl := x.fl ++ [⟨a, n, u, reg, x.fseq, x.pc⟩], fseq := x.fseq + 1 })) ∧
      (∀ c, farLoc a n = .error c → Faults (.fld e t gs size u off) s e c)) ∧
    (16 ≤ x.fs.length → Gives (.fst e t gs size off) s id) ∧
    (x.fs.length < 16 → s.dev.issuesNow e (.fst e t gs size off) 1 [reg, gs, gs + 1] →
      (∀ w, farLoc a n = .ok w → Reaches (.fst e t gs size off) s (fun d' => OnlyEngine counted d' e
        { x.next 1 with fs := x.fs ++ [⟨a, bytesLE n v, x.fseq⟩], fseq := x.fseq + 1 })) ∧
      (∀ c, farLoc a n = .error c → Faults (.fst e t gs size off) s e c)) ∧
    (x.fs ≠ [] → Gives (.ffence e) s id) ∧
    (x.fs = [] → s.dev.issuesNow e (.ffence e) 1 [] → Reaches (.ffence e) s (fun d' => OnlyEngine s.dev d' e (x.next 1))) ∧
    (∀ l b, x.fl[i]? = some l → s.dev.sys.asleep = false → x.farEarlier l.addr l.size l.seq = false →
      farLoc l.addr l.size = .ok (.mem b) →
      (s.dev.poisoned b l.size = false → Reaches (.farLoadArrival e i) s (fun d' => ∃ y : Engine, OnlyEngine ((s.dev.moved 2).timed lat) d' e y ∧
        y = { x with fl := x.fl.eraseIdx i, g := y.g, c := y.c } ∧
        (l.size = 8 → y.g = x.g ∧ ∀ j, y.cr j = if j = l.dst - 0x40 then
          (BitVec.ofNat 32 (memLE s.dev.mem b 8), BitVec.ofNat 32 (memLE s.dev.mem b 8 / 2 ^ 32)) else x.cr j) ∧
        (l.size ≠ 8 → y.c = x.c ∧ ∀ j, y.gr j = if j = l.dst ∧ j ≠ 0 then
          extendTo32 (memLE s.dev.mem b l.size) l.size l.u else x.gr j))) ∧
      (s.dev.poisoned b l.size = true → (x.state = 1 ∨ x.state = 2) → Gives (.farLoadArrival e i) s (fun d =>
        (((d.moved 2).timed lat).setEng e { x with fl := x.fl.eraseIdx i, pc := l.pc }).engFault e 7))) ∧
    (∀ f b, x.fs[i]? = some f → s.dev.sys.asleep = false → x.farEarlier f.addr f.data.length f.seq = false →
      farLoc f.addr f.data.length = .ok (.mem b) →
      Reaches (.farStoreVisible e i) s (fun d' =>
        OnlyEngine ((s.dev.store b f.data).moved 2) d' e { x with fs := x.fs.eraseIdx i }))

/-- R321, R324. -/
def Obligations.SystemGroup : Prop :=
  ∀ (s : State) (e gd : Nat),
    let x := s.dev.eng e
    let p := x.port 15
    (s.dev.issuesNow e (.nop e) 1 [] → Reaches (.nop e) s (fun d' => OnlyEngine s.dev d' e (x.next 1))) ∧
    (s.dev.issuesNow e (.sync e) 1 [] → Reaches (.sync e) s (fun d' => OnlyEngine s.dev d' e (x.next 1))) ∧
    (s.dev.issuesNow e (.halt e) 1 [] → Reaches (.halt e) s (fun d' => OnlyEngine s.dev d' e
      { x with state := 0, cause := 0, evq := [], evLost := false })) ∧
    (s.dev.issuesNow e (.time e gd) 1 [gd, gd + 1] → Reaches (.time e gd) s (fun d' => ∃ y : Engine,
      OnlyEngine s.dev d' e y ∧ y = { x.next 1 with g := y.g } ∧
      ∀ j, y.gr j = if j = gd + 1 then s.dev.time.extractLsb' 32 32 else if j = gd ∧ j ≠ 0 then s.dev.time.setWidth 32
        else x.gr j)) ∧
    (s.dev.issuesNow e (.sleep e) 1 [] →
      (e ≠ 0 → Faults (.sleep e) s e 1) ∧
      (e = 0 → p.outstanding = true → Reaches (.sleep e) s (fun d' => ∃ y : Engine,
        OnlyEngine (s.dev.flag (F.CL_FLAGS_PORT_REFUSED 0) (Reg.CL_PORT_REFUSED_CNT 0)) d' e y ∧
        y = { x.next 1 with st := y.st } ∧ y.stBit stPR = true ∧ (∀ j, j < 12 → j ≠ stPR → y.stBit j = x.stBit j))) ∧
      (e = 0 → p.outstanding = false → Reaches (.sleep e) s (fun d' => ∃ y : Engine,
        OnlyEngine { s.dev with issued := s.dev.issued ++ [⟨0, 15, 0x0050000000000000, s.dev.sleepBlock⟩] } d' e y ∧
        y = { x.next 1 with st := y.st, ports := y.ports } ∧ y.stBit stPR = false ∧
        (∀ j, j < 12 → j ≠ stPR → y.stBit j = x.stBit j) ∧ (∀ j, j ≠ 15 → y.port j = x.port j) ∧
        y.port 15 = { outstanding := true, done := false, stamped := false, code := 0, stamp := 0 })))

/-- R271, R299, R308. R324, R325. The signature of a scan is a free value of Config. -/
def Obligations.RefusedInstructions : Prop :=
  (∀ (s : State) (e : Nat),
    let x := s.dev.eng e
    let fault := fun c : Nat => ((s.dev.setEng e { x with state := 3, cause := c }).flag (F.CL_FLAGS_FAULT (e / 16))
      (Reg.CL_FAULT_CNT (e / 16))).alarm e c x.pc
    (s.dev.issues e = true → s.dev.fetchPast e = false → s.dev.fetched e = none →
      Gives (.illegalEncoding e) s (fun _ => fault 1)) ∧
    (s.dev.issues e = true → s.dev.fetchPast e = true → Gives (.fetchRange e) s (fun _ => fault 2)) ∧
    (∀ c, e ≠ 0 → (s.dev.eng 0).state ≠ 4 → (s.dev.eng 0).evq.length < 256 →
      ((fault c).eng 0).evq = (s.dev.eng 0).evq ++ [evEntry 21 e c x.pc] ∧
      ((fault c).eng e).state = 3 ∧ ((fault c).eng e).cause = c ∧ ((fault c).eng e).pc = x.pc ∧ (fault c).mem = s.dev.mem)) ∧
  (∀ (s : State) (e g p : Nat),
    let t := s.dev.testUnit p
    let held := fun (u : TestUnit) (j : Nat) => if j = 0 then some (0 : Word) else Sparse.get (fun _ => none) u.g j
    let only := fun d' : Device => d' = { s.dev with tests := d'.tests, freeCount := d'.freeCount } ∧
      (∀ q, q ≠ p → d'.testUnit q = s.dev.testUnit q) ∧ ∀ j v, held t j = some v → held (d'.testUnit p) j = some v
    let reads := fun (j : Nat) (v : Word) => ∀ w, held t j = some w → v = w
    (p < 544 → s.dev.fld (F.ROT_U_STAT_STATE p) = 3 → s.dev.inTest p = true) ∧
    (s.dev.issuesNow e (.tprpg e g none) 1 [g, g + 1] → Faults (.tprpg e g none) s e 10) ∧
    (s.dev.issuesNow e (.tscan e g none) 1 [g] → Faults (.tscan e g none) s e 10) ∧
    (s.dev.issuesNow e (.tmisr e g none) 1 [g, g + 1] → Faults (.tmisr e g none) s e 10) ∧
    (s.dev.inTest p = false →
      (s.dev.issuesNow e (.tprpg e g (some p)) 1 [g, g + 1] → Faults (.tprpg e g (some p)) s e 10) ∧
      (s.dev.issuesNow e (.tscan e g (some p)) 1 [g] → Faults (.tscan e g (some p)) s e 10) ∧
      (s.dev.issuesNow e (.tmisr e g (some p)) 1 [g, g + 1] → Faults (.tmisr e g (some p)) s e 10)) ∧
    (s.dev.inTest p = true →
      (Instr.disoexOk (.tprpg e g (some p)) = true → Reaches (.tprpg e g (some p)) s (fun d' => only d' ∧
        ∃ lo hi : Word, reads g lo ∧ reads (g + 1) hi ∧ (d'.testUnit p).misr = t.misr ∧
          (d'.testUnit p).prpg = lo.toNat + hi.toNat * 2 ^ 32)) ∧
      (Instr.disoexOk (.tscan e g (some p)) = true → Reaches (.tscan e g (some p)) s (fun d' => only d' ∧
        ∃ n : Word, reads g n ∧ (d'.testUnit p).prpg = t.prpg ∧
          (d'.testUnit p).misr = Config.scanSignature t.prpg t.misr n.toNat)) ∧
      (Instr.disoexOk (.tmisr e g (some p)) = true → Reaches (.tmisr e g (some p)) s (fun d' =>
        d' = { s.dev with tests := d'.tests } ∧ (∀ q, q ≠ p → d'.testUnit q = s.dev.testUnit q) ∧
        (d'.testUnit p).prpg = t.prpg ∧ (d'.testUnit p).misr = t.misr ∧
        ∀ j, j ≠ 0 → held (d'.testUnit p) j = if j = g + 1 then some (BitVec.ofNat 32 (t.misr / 2 ^ 32))
          else if j = g then some (BitVec.ofNat 32 t.misr) else held t j))))

/-- The engines' bounds are an invariant of the Disoex instructions. -/
def Obligations.EngineBoundsKept : Prop :=
  ∀ (i : Instr) (rest : List Instr) (s t : State), (encode i).isSome = true → s.pending = i :: rest →
    (∀ e, (s.dev.eng e).Bounded) → step s = .next t → ∀ e, (t.dev.eng e).Bounded

/-- R3, R4, R6, R10. -/
def Obligations.RegisterWrites : Prop :=
  ∀ (s : State) (a len v hw : Nat) (r : RegRow),
    let d := s.dev.received len
    let d4 := s.dev.received 4
    let reach := bar0Fits a 4 = true ∧ d4.windowOpen a = true ∧ bar0Loc a = .reg
    (reach → regRow a = some r → pairHalf a = 0 → d4.locked a v = false → d4.refusedWrite a v = none →
      Reaches (.hostRegisterWrite a 4 v hw) s (fun d' => ∃ x, d' = d4.written ((d4.wr a x).hwFlags a (Nat.land hw r.w1c)) a v ∧
        ∀ b, b < 32 → bitAt x b =
          if bitAt r.rw b ∧ ¬bitAt (ownRows a v) b then bitAt v b
          else bitAt (d4.rdN a) b && !(bitAt r.w1c b && bitAt v b))) ∧
    (∀ row ∈ flagRows, ∀ m, m < row.2.2.1 → a = row.1 + m * row.2.1 → ∀ b, b < row.2.2.2.length → bitAt hw b = true →
      bitAt ((d.hwFlags a hw).rdN a) b = true) ∧
    (reach → pairHalf a = 0 → d4.locked a v = true → Gives (.hostRegisterWrite a 4 v hw) s (fun _ => d4.badAccess)) ∧
    (reach → pairHalf a = 1 → d4.locked a v = true → Gives (.loWriteHold a v) s (fun _ => d4.badAccess)) ∧
    (reach → pairHalf a = 2 → d4.locked a v = true → Gives (.hiWriteApply a v) s (fun _ => d4.badAccess)) ∧
    (a < 2 ^ 32 → bar0Fits a len = false ∨ d.windowOpen a = false →
      Gives (.hostRegisterWrite a len v hw) s (fun _ => d.badAccess)) ∧
    (bar0Fits a 4 = false ∨ d4.windowOpen a = false →
      Gives (.loWriteHold a v) s (fun _ => d4.badAccess) ∧ Gives (.hiWriteApply a v) s (fun _ => d4.badAccess)) ∧
    (len ≠ 4 → len ≠ 8 → bar0Fits a len = false) ∧ (a % 4 ≠ 0 → bar0Fits a 4 = false)

/-- R3, R6, R7, R12. -/
def Obligations.RegisterReads : Prop :=
  ∀ (s : State) (a len : Nat) (event : Bool) (r : RegRow),
    let d := s.dev
    let kept : Option Word := Sparse.get (fun _ => none) d.hiLatch a
    let got := fun (x : Device) (v n : Nat) => { x with hostRead := v, hostReadEp := false }.add64 Reg.HIF_TX_BYTES_LO n
    let reach := bar0Fits a 4 = true ∧ d.windowOpen a = true ∧ bar0Loc a = .reg ∧ regRow a = some r
    (reach → r.rc = 0 → latchedBy a = [] →
      (∀ w, kept = some w → Gives (.loReadLatch a 4) s (fun d => got d w.toNat 4)) ∧
      (kept = none → measured a = false → Gives (.loReadLatch a 4) s (fun d => got d (d.view a) 4)) ∧
      (kept = none → measured a = true → measuredBits a ≠ 32 → d.quiet a = false → Gives (.loReadLatch a 4) s (fun d =>
        got { d with freeCount := d.freeCount + 1 } (Config.free d.freeCount % 2 ^ measuredBits a) 4)) ∧
      (kept = none → measured a = true → measuredBits a ≠ 32 → d.quiet a = true → Gives (.loReadLatch a 4) s (fun d => got d 0 4)) ∧
      (latency a = true → (∀ t, Sparse.get (fun _ => none) d.latAt a = some t → timeLE (t + nsTime 1000000) d.time = true) →
        d.quiet a = true)) ∧
    (reach → r.rc = 0 → latchedBy a = [a + 4] → kept = none → measured a = false → measured (a + 4) = false →
      Gives (.loReadLatch a 4) s (fun d => got
        { d with hiLatch := Sparse.set (fun _ => none) d.hiLatch (a + 4) (some (BitVec.ofNat 32 (d.view (a + 4)))) } (d.view a) 4)) ∧
    (bar0Fits a 8 = true → d.windowOpen a = true → measured a = false → measured (a + 4) = false →
      Gives (.loReadLatch a 8) s (fun d => got
        { d with hiLatch := Sparse.set (fun _ => none) d.hiLatch (a + 4) (some (BitVec.ofNat 32 (d.view (a + 4)))) }
        (d.view a + d.view (a + 4) * 2 ^ 32) 8)) ∧
    (∀ k, k < 32 → a = Reg.CL_BANK_CONFLICT_CNT k → d.windowOpen a = true → kept = none →
      Reaches (.counterRead a event) s (fun d' => ∃ v, d.rdN a ≤ v ∧
        d' = got (Device.wr { d with freeCount := d'.freeCount, bankUsed := d.bankUsed.filter (fun c => decide (c ≠ k)) } a
          (if event then 1 else 0)) v 4 ∧ (k ∉ d.bankUsed → v = d.rdN a ∧ d'.freeCount = d.freeCount))) ∧
    (reach → r.rc = 0xFFFFFFFF → blockAt a 0x710000 0x40 4096 = none → latchedBy a = [] → kept = none → measured a = false →
      Gives (.counterRead a event) s (fun d => got (d.wr a (if event then 1 else 0)) (d.view a) 4)) ∧
    (a < 2 ^ 32 → bar0Fits a len = false ∨ d.windowOpen a = false →
      Gives (.loReadLatch a len) s (fun d => got d.badAccess (2 ^ (8 * len) - 1) len)) ∧
    (bar0Fits a 4 = false ∨ d.windowOpen a = false →
      Gives (.counterRead a event) s (fun d => got d.badAccess 0xFFFFFFFF 4))

/-- R49, R51, R409. -/
def Obligations.MemoryWindows : Prop :=
  ∀ (s : State) (a len c off : Nat) (data : List Byte),
    let d := s.dev
    let n := data.length
    (d.memoryOpen = true → a + n ≤ Config.memSize →
      Reaches (.bar2Write a data) s (fun d' =>
        d' = { (d.received n).moved 4 with
          mem := d'.mem, poison := d'.poison, memc := { (d.received n).memc with hot := d'.memc.hot } } ∧
        (∀ k, memGet d'.mem k = if a ≤ k ∧ k < a + n then data.getD (k - a) 0 else memGet d.mem k) ∧
        (∀ w, (w ∈ d'.poison ↔ w ∈ d.poison ∧ ¬(a ≤ 32 * w ∧ 32 * w + 32 ≤ a + n)) ∧
          (w ∈ d'.memc.hot ↔ w ∈ d.memc.hot ∧ ¬(a ≤ 32 * w ∧ 32 * w + 32 ≤ a + n))))) ∧
    (d.memoryOpen = true → Config.memSize ≤ a → data ≠ [] →
      Reaches (.bar2Write a data) s (fun d' => d' = ((d.received n).moved 4).badAccess)) ∧
    (d.memoryOpen = false → Reaches (.bar2Write a data) s (fun d' => d' = (d.received n).badAccess)) ∧
    (d.memoryOpen = true → a + len ≤ Config.memSize → Gives (.bar2Read a len) s (fun d =>
      { (d.add64 Reg.HIF_TX_BYTES_LO len).moved 4 with hostRead := memLE d.mem a len, hostReadEp := d.poisoned a len })) ∧
    (d.memoryOpen = true → Config.memSize ≤ a → 0 < len → Reaches (.bar2Read a len) s (fun d' =>
      d'.hostRead = 2 ^ (8 * len) - 1 ∧ d' =
        { ((d.add64 Reg.HIF_TX_BYTES_LO len).moved 4).badAccess with hostRead := d'.hostRead, hostReadEp := d'.hostReadEp })) ∧
    (c < 4096 → off + n ≤ 0x400 → 0 < n →
      (d.active c = false → Reaches (.contextWrite c off data) s (fun d' => d' = { d with ctx := d'.ctx } ∧
        ∀ k, memGet d'.ctx k = if c * 0x400 + off ≤ k ∧ k < c * 0x400 + off + n then data.getD (k - (c * 0x400 + off)) 0
          else memGet d.ctx k)) ∧
      (d.active c = true → Gives (.contextWrite c off data) s Device.badAccess))

/-- R134, R459, R476, R478, R479. -/
def Obligations.DeviceTime : Prop :=
  ∀ (s : State) (t : Time),
    let d := s.dev
    let inc := d.tick
    let near := fun l : List Nat => l.map (fun n => n - 1)
    let slewed := fun x : Device => if x.isSet F.CAS_STAT_SLEWING then { x with cas := { x.cas with slewTick := x.cas.slewTick + 1 } } else x
    let edge := fun x : Device =>
      ((slewed x.syncSample).evOnAll.evDrainAll.stLatestAll.wakeTick.pfdTick.engBusy.casWaiting).showDecided
    let mayBe := fun m : Time => timeLE (m - nsTime 1024) t
    let gone := fun ms : List Time => ms.filter (fun m => !mayBe m)
    let reset? := d.cas.resets.find? (fun m => mayBe m && timeLE t (m + nsTime 1024))
    (d.sys.started = true → d.pinLow = false → d.setReq = none → 0 < inc.2 → ∃ n r, n * inc.2 + r = inc.1 + d.timeRem ∧ r < inc.2 ∧
      Gives .tclkTick s (fun d => edge { d with
        time := d.time + BitVec.ofNat 64 n, timeRem := r, syncLeft := near d.syncLeft, monSync := near d.monSync })) ∧
    (∀ v e o, d.sys.started = true → d.pinLow = false → d.setReq = some (v, e, o) →
      Reaches .tclkTick s (fun d' => ∃ x : Device, d' = edge x ∧ x.time = v ∧ x.timeRem = 0 ∧ x.setReq = none ∧ x.syncLeft = near d.syncLeft ∧
        x.rdN Reg.EVT_EPOCH = e % 2 ^ 32 ∧ x.isSet F.EVT_SET_CTL_GO = false ∧
        x.completions = d.completions ++ (match o with | .port y k => [⟨y, k, cOK, none⟩] | _ => []))) ∧
    (d.sys.started = false ∨ d.pinLow = true → Gives .tclkTick s id) ∧
    (∀ x : Device, x.isSet F.CHN_SYNC_CFG_SYNC_EN = true → x.monIn = [] →
      ((∀ e ∈ x.syncIn, timeLT e x.time = false) → x.syncSample = x) ∧
      (x.syncIn ≠ [] → (∀ e ∈ x.syncIn, timeLT e x.time = true) →
        x.syncSample = { x.inc Reg.CHN_SYNC_CNT with syncIn := [], syncLeft := x.syncLeft ++ [16] })) ∧
    (∀ (x : Device) (e : Nat), x.sys.asleep = false →
      x.engBusy.eng e = if (x.eng e).state = 1 then { x.eng e with busy := (x.eng e).busy + 8 } else x.eng e) ∧
    (Reaches .timeWrap s (fun d' => d' = { d with regs := d'.regs } ∧
      d'.rdN Reg.EVT_EPOCH = (d.rdN Reg.EVT_EPOCH + 1) % 2 ^ 16 ∧ d'.isSet F.EVT_FLAGS_TIME_WRAP = true ∧
      d'.rdN Reg.EVT_WRAP_CNT = min (d.rdN Reg.EVT_WRAP_CNT + 1) 0xFFFFFFFF ∧
      ∀ a, a ≠ Reg.EVT_EPOCH → a ≠ Reg.EVT_FLAGS → a ≠ Reg.EVT_WRAP_CNT → d'.rd a = d.rd a)) ∧
    (d.isSet F.CHN_SYNC_CFG_SYNC_EN = true →
      (timeLT t d.time = true → Gives (.syncInEdge t) s (fun d => { d.inc Reg.CHN_SYNC_CNT with syncLeft := d.syncLeft ++ [16] })) ∧
      (timeLT t d.time = false → Gives (.syncInEdge t) s (fun d => { d with syncIn := d.syncIn ++ [t] }))) ∧
    (d.isSet F.CHN_SYNC_CFG_SYNC_EN = false → d.casRole ≠ caMember → d.casRole ≠ caStandby → Gives (.syncInEdge t) s id) ∧
    (d.isSet F.CHN_SYNC_CFG_SYNC_EN = false → d.casRole = caMember ∨ d.casRole = caStandby →
      (∀ tm e, d.cas.coarse = some (tm, e) → Reaches (.syncInEdge t) s (fun d' =>
        d'.time = d.time + (tm - t) ∧ d'.rdN Reg.EVT_EPOCH = e % 2 ^ 32 ∧ d'.cas.coarse = none ∧
        d' = { d with regs := d'.regs, time := d'.time, cas := d'.cas })) ∧
      (∀ m, d.cas.coarse = none → reset? = some m → Gives (.syncInEdge t) s (fun d =>
        { d with cas := { d.cas with resets := d.cas.resets.erase m } })) ∧
      (∀ m, d.cas.coarse = none → reset? = none → (d.cas.marks.filter mayBe).getLast? = some m →
        (d.cas.deaf = true → Gives (.syncInEdge t) s (fun d => { d with cas := { d.cas with marks := gone d.cas.marks } })) ∧
        (d.cas.deaf = false → d.cas.errs.length < 63 → Gives (.syncInEdge t) s (fun d => { d with cas := { d.cas with
          marks := gone d.cas.marks, errs := d.cas.errs ++ [(t - m).toInt - (d.rdN Reg.CAS_FWD : Int)] } }))) ∧
      (d.cas.coarse = none → reset? = none → d.cas.marks.filter mayBe = [] → Gives (.syncInEdge t) s (fun d => d.casCalMark t)))

/-- R30, R32, R36, R133, R135. -/
def Obligations.DeviceBoundaries : Prop :=
  ∀ (s : State) (b : Time) (staging : List (Nat × Nat)),
    let d := s.dev
    let steps := fun (x : Device) (l : List (Nat × Nat)) => (((x.stepTwo b).stepThree b).stepFour b l)
    let clocks := fun x : Device => (x.unitsAt b [.ckoStart, .ckoStop, .monStart]).clocksAt b
    let asked := d.reqs .decReset
    (d.isBoundary b = false → Gives (.deviceBoundary b staging) s id) ∧
    (d.isBoundary b = true → d.gated = false → b = d.time → d.resetDue b = true →
      Gives (.deviceBoundary b staging) s (fun d => steps (d.stepOne b) staging)) ∧
    (d.isBoundary b = true → d.gated = false → b ≠ d.time ∨ asked.any (fun r => r.due b) = false →
      Gives (.deviceBoundary b staging) s (fun d => steps d staging)) ∧
    (d.isBoundary b = true → d.gated = true → b = d.time → d.resetDue b = true →
      Gives (.deviceBoundary b staging) s (fun d => clocks (d.stepOne b))) ∧
    (d.isBoundary b = true → d.gated = true → b ≠ d.time ∨ asked.any (fun r => r.due b) = false →
      Gives (.deviceBoundary b staging) s clocks) ∧
    (b ≠ d.time ∨ (asked.any (fun r => r.due b) = false ∧ 0 ∉ d.syncLeft) → Gives (.decimatorReset b) s id) ∧
    (b = d.time → asked.any (fun r => r.due b) = true ∨ 0 ∈ d.syncLeft → d.gated = false →
      Gives (.decimatorReset b) s (fun d => steps (d.stepOne b) [])) ∧
    (b = d.time → asked.any (fun r => r.due b) = true ∨ 0 ∈ d.syncLeft → d.gated = true →
      Gives (.decimatorReset b) s (fun d => clocks (d.stepOne b))) ∧
    (∀ z, z < 16 → ((d.decReset b).chan z) =
      { ftw := (d.chan z).ftw, startB := (d.chan z).startB, stopB := (d.chan z).stopB, tunes := (d.chan z).tunes }) ∧
    (∀ z, z < 16 → ∀ (j : Int) (f : Nat),
      d.zPhase z j f = (((d.fld (F.CHN_Z_PHASE_PHASE0 z) * 2 ^ 32 : Nat) + j * f) % (2 ^ 48 : Int)).toNat) ∧
    (∀ c, c < 8 → (d.decReset b).corr c = { d.corr c with line := [] }) ∧ (d.decReset b).rdTime Reg.CHN_LAST_RESET_LO = b

/-- R62, R63, R73, R74, R79, R80, R84. -/
def Obligations.LaneReception : Prop :=
  ∀ (s : State) (i hdr' raw' code b : Nat) (adj : Bool),
    let d := s.dev
    let x := d.lane i
    let inv := d.isSet (F.LNK_L_CFG_POL_INV i)
    let hdr := if inv then 3 - hdr' else hdr'
    let raw := if inv then 2 ^ 64 - 1 - raw' else raw'
    let good := hdr = 1 ∨ hdr = 2
    let takes := i < 32 ∧ d.isSet (F.LNK_L_CFG_EN i) = true ∧ d.isSet (F.LNK_L_STAT_CDR_LOCK i) = true
    let native := takes ∧ d.isSet (F.LNK_G_CFG_FRAMING (i / 4)) = false ∧ hdr' < 4 ∧ raw' < 2 ^ 64
    let lark := takes ∧ d.isSet (F.LNK_G_CFG_FRAMING (i / 4)) = true ∧ code < 1024
    let locked := d.isSet (F.LNK_L_STAT_BLOCK_LOCK i)
    let aligned := d.isSet (F.LNK_L_STAT_ALIGNED i)
    let pos := (x.pos + 1) % 4096
    let hist := (x.hist * 2 + (if good then 0 else 1)) % 2 ^ 64
    let sd := (descramble 64 x.desc raw).2
    let bad := d.flag (F.LNK_L_FLAGS_HDR_ERR i) (Reg.LNK_L_HDR_ERR i)
    let block := Instr.nativeBlockReceive i hdr' raw'
    let word := Instr.larkspurCharacterReceive i code adj
    let ch := d.larkDecode i (if inv then 1023 - code else code)
    let rd := disparity x.rd 10 (if inv then 1023 - code else code)
    let base := (if adj then d.inc (Reg.LNK_L_SKIP_ADJ i) else d).setLane i { x with rd := rd }
    (¬takes → Gives block s id ∧ Gives word s id) ∧
    (native → Gives word s id) ∧ (lark → Gives block s id) ∧
    (native → locked = false → good → x.goodRun < 63 →
      Gives block s (fun d => d.setLane i { x with goodRun := x.goodRun + 1, hist := 0, desc := sd })) ∧
    (native → locked = false → good → x.goodRun = 63 → Gives block s (fun d =>
      (d.setLane i { x with goodRun := 64, hist := 0, desc := sd }).setFld (F.LNK_L_STAT_BLOCK_LOCK i) 1)) ∧
    (native → locked = false → ¬good →
      Gives block s (fun d => d.setLane i { x with goodRun := 0, hist := 0, desc := sd })) ∧
    (native → locked = true → aligned = false → good → isAlign hdr raw = false → x.pair = none → popCount hist 64 < 16 →
      Gives block s (fun d => d.setLane i { x with hist := hist, desc := sd })) ∧
    (native → locked = true → ¬good → popCount hist 64 < 16 → aligned = false → x.pair = none →
      Gives block s (fun _ => bad.setLane i { x with hist := hist, desc := sd })) ∧
    (native → locked = true → ¬good → 16 ≤ popCount hist 64 → Gives block s (fun _ =>
      (bad.setLane i { x with hist := hist, desc := if aligned = true ∧ x.pos = 4095 then x.desc else sd }).loseLock i)) ∧
    (native → locked = true → aligned = false → isAlign hdr raw = true → popCount hist 64 < 16 →
      (∀ mc n, x.pair = some (mc, n) → ¬(n = 4095 ∧ markerOf raw = (mc + 1) % 65536)) →
      Gives block s (fun d => (((d.setLane i { x with hist := hist, desc := x.desc }).setLane i
        { x with hist := hist, pair := some (markerOf raw, 0) }).judge i 0 hdr raw true).2)) ∧
    (∀ mc, native → locked = true → aligned = false → isAlign hdr raw = true → popCount hist 64 < 16 →
      x.pair = some (mc, 4095) → markerOf raw = (mc + 1) % 65536 →
      Reaches block s (fun d' => d'.isSet (F.LNK_L_STAT_ALIGNED i) = true ∧ (d'.lane i).pos = 0)) ∧
    (native → locked = true → aligned = true → hdr = 1 → pos % 32 ≠ 0 → popCount hist 64 < 16 → x.muted = false →
      Reaches block s (fun d' => ∃ y : Device, d' = y.keepBlock i ⟨pos, true, false, (descramble 64 x.desc raw).1⟩ ∧
        y = { d with lanes := y.lanes } ∧ y.lane i = { x with hist := hist, desc := sd, pos := pos } ∧
        ∀ j, j ≠ i → y.lane j = d.lane j)) ∧
    (lark → locked = false → (ch = .k → Gives word s (fun _ => base.setFld (F.LNK_L_STAT_BLOCK_LOCK i) 1)) ∧
      (ch = .invalid → Gives word s (fun _ => base.flag (F.LNK_L_FLAGS_CODE_ERR i) (Reg.LNK_L_CODE_ERR i))) ∧
      (ch ≠ .k → ch ≠ .invalid → Gives word s (fun _ => base))) ∧
    (lark → locked = true → (ch = .s → Gives word s (fun _ => base)) ∧
      (aligned = true → 2 ≤ x.lchar → ch = .data b → Gives word s (fun _ =>
        (base.setLane i { x with rd := rd, lchar := (x.lchar + 1) % 256 }).keepBlock i ⟨x.lchar, true, false, b % 256⟩)) ∧
      (aligned = true → x.lchar ≠ 0 → ch = .invalid → Gives word s (fun _ =>
        ((base.flag (F.LNK_L_FLAGS_CODE_ERR i) (Reg.LNK_L_CODE_ERR i)).setLane i
          { x with rd := rd, lchar := (x.lchar + 1) % 256 }).keepBlock i ⟨x.lchar, false, false, 0⟩))) ∧
    (decode8b10b false 0x0FA = .k ∧ decode8b10b true 0x305 = .k ∧ decode8b10b false 0x0F3 = .a ∧
      decode8b10b true 0x30C = .a ∧ decode8b10b false 0x0F4 = .s ∧ decode8b10b true 0x30B = .s)

/-- R61, R86 to R89, R91, R105. -/
def Obligations.LaneControl : Prop :=
  ∀ (s : State) (i g e : Nat) (pol absent bad mainBad differ : Bool) (x : RotStep),
    let d := s.dev
    let rate := d.fld (F.LNK_G_CFG_RATE (i / 4))
    let on := d.isSet (F.LNK_L_CFG_EN i)
    let ref := d.isSet F.CLK_STAT_REF_PRESENT
    let kept := (d.wr (Reg.LNK_L_CFG i) (1 + (if pol then 2 else 0))).wr (Reg.LNK_L_STAT i) (laneKeep (d.rdN (Reg.LNK_L_STAT i)))
    let taken := fun e : Nat => (kept.setFld (F.LNK_L_STAT_EQ_ENTRY i) e).setLane i
      { ctle := d.eqByte e 8 % 32
        dfe := ((List.range 6).map (fun j => d.eqByte e (9 + j) * 2 ^ (8 * j))).sum, windows := (d.lane i).windows }
    let before := fun (n : Nat) (all : Bool) => ∀ j, j < n → d.eqMatch j i rate all = false
    (i < 32 → on = true → Gives (.cdrLock i) s (fun d => d.setFld (F.LNK_L_STAT_CDR_LOCK i) 1)) ∧
    (on = false → Gives (.cdrLock i) s id) ∧
    (i < 32 → d.isSet (F.LNK_L_STAT_CDR_LOCK i) = true → Gives (.cdrLost i) s (fun d =>
      ((d.setFld (F.LNK_L_STAT_CDR_LOCK i) 0).flag (F.LNK_L_FLAGS_CDR_LOST i) (Reg.LNK_L_CDR_LOSS i)).loseLock i)) ∧
    (g < 6 → (ref = true → d.isSet (F.LNK_TG_CFG_VALID g) = true →
        Gives (.lanePllLock true g) s (fun d => d.setFld (F.LNK_TG_CFG_PLL_LOCK g) 1)) ∧
      Gives (.lanePllLockLost true g absent) s (fun d => d.setFld (F.LNK_TG_CFG_PLL_LOCK g) 0)) ∧
    (g < 8 → (ref = true ∨ d.isSet (F.LNK_G_CFG_FRAMING g) = true → d.isSet (F.LNK_G_CFG_VALID g) = true → Reaches (.lanePllLock false g) s (fun d' =>
        d' = { d.setFld (F.LNK_G_CFG_PLL_LOCK g) 1 with lrefLost := d'.lrefLost } ∧
        (d.isSet (F.LNK_G_CFG_FRAMING g) = true → bitAt d'.lrefLost g = false))) ∧
      Reaches (.lanePllLockLost false g absent) s (fun d' =>
        d' = { d.setFld (F.LNK_G_CFG_PLL_LOCK g) 0 with lrefLost := d'.lrefLost } ∧
        (absent = true → d.isSet (F.LNK_G_CFG_FRAMING g) = true → bitAt d'.lrefLost g = true))) ∧
    (i < 32 → on = false → d.isSet (F.LNK_G_CFG_VALID (i / 4)) = true →
      (e < 64 → before e false → d.eqMatch e i rate false = true → Gives (.laneEnable i pol) s (fun _ => taken e)) ∧
      (e < 64 → before 64 false → before e true → d.eqMatch e i rate true = true → Gives (.laneEnable i pol) s (fun _ => taken e)) ∧
      (before 64 false → before 64 true → Gives (.laneEnable i pol) s (fun _ =>
        (kept.setFld (F.LNK_L_STAT_EQ_DEFAULT i) 1).setLane i { windows := (d.lane i).windows }))) ∧
    (i < 32 → on = true ∨ d.isSet (F.LNK_G_CFG_VALID (i / 4)) = false →
      Gives (.laneEnable i pol) s (fun d => d.setFld (F.LNK_L_CFG_POL_INV i) (if pol then 1 else 0))) ∧
    (i < 32 → on = true → Gives (.laneDisable i) s (fun d =>
      (((d.setFld (F.LNK_L_CFG_EN i) 0).setFld (F.LNK_L_STAT_CDR_LOCK i) 0).setLane i
        { d.lane i with fifo := [], seen := false }).loseLock i)) ∧
    (d.rotStepOf 6 = none → Gives (.samplerWindowEnd i differ bad mainBad) s id) ∧
    (d.rotStepOf 6 = some x → x.g = i → x.phase = 1 → d.isSet (F.LNK_L_STAT_SAMPLERS i) = true → (d.lane i).exchange = false →
      (differ = false ∨ (bad = false ∧ mainBad = true) → Gives (.samplerWindowEnd i differ bad mainBad) s (fun d =>
        (d.setLane i { d.lane i with windows := 0, exchange := true }).shadowDone 6)) ∧
      (differ = true → bad = true ∨ mainBad = false → (d.lane i).windows < 7 →
        Gives (.samplerWindowEnd i differ bad mainBad) s (fun d =>
          d.setLane i { d.lane i with windows := (d.lane i).windows + 1 })) ∧
      (differ = true → bad = true ∨ mainBad = false → (d.lane i).windows = 7 →
        Gives (.samplerWindowEnd i differ bad mainBad) s (fun d =>
          ((((d.setLane i { d.lane i with windows := 0 }).setFld (F.LNK_L_STAT_SAMPLERS i) 0).setFld
            (F.LNK_L_FLAGS_WITHDRAWN i) 1).withdrawUnit x.s 2).stepEnd 6)))

/-- R73, R76, R77, R92, R94, R101, R106. -/
def Obligations.SlotsAndReleases : Prop :=
  ∀ (s : State) (t p k idx : Nat) (g : Int) (par : RxBlk) (r : BReq),
    let d := s.dev
    let bs := (d.takeSlot p (d.sLanes t)).1
    let d1 := (d.takeSlot p (d.sLanes t)).2
    let n := d1.sN t
    let lanes := (List.range n).map (fun k => (k, d1.atIndex k bs))
    let pays := (lanes.filterMap (fun l => l.2)).map (fun b => b.payload)
    let dataSlot := t < 8 ∧ p < 4096 ∧ p % 32 ≠ 0 ∧ d1.sState t ≠ 0 ∧ (d1.stream t).replay = none ∧ d1.sLark t = false ∧
      (d1.stream t).nextIdx = some idx
    let goneOn := fun x : Device => x.setStream t { x.stream t with nextIdx := some (idx + n) }
    let st := fun x : Device => x.stream t
    (t < 8 → p < 4096 → p ≠ 0 ∨ d1.sLark t = true → d1.sState t = 0 → Gives (.sampleSlot t p) s (fun _ => d1)) ∧
    (dataSlot → d1.isSet (F.LNK_S_CFG_PARITY t) = false → 0 < n → (∀ l ∈ lanes, ∃ b, l.2 = some b ∧ b.idle = false) →
      Gives (.sampleSlot t p) s (fun _ => goneOn (d1.putSlot t idx none lanes))) ∧
    (dataSlot → d1.isSet (F.LNK_S_CFG_PARITY t) = false → 0 < n → (∀ l ∈ lanes, ∃ b, l.2 = some b ∧ b.idle = true) →
      Gives (.sampleSlot t p) s (fun _ => d1)) ∧
    (dataSlot → d1.isSet (F.LNK_S_CFG_PARITY t) = true → d1.atIndex n bs = some par → par.idle = false → k < n → 1 < n →
      (∀ l ∈ lanes, (l.1 = k → l.2 = none) ∧ (l.1 ≠ k → ∃ b, l.2 = some b ∧ b.idle = false)) →
      Gives (.sampleSlot t p) s (fun _ => goneOn
        ((d1.parityState t true).putSlot t idx (some (k, Nat.xor par.payload (xorAll pays))) lanes))) ∧
    (t < 8 → p = 0 → d1.sLark t = false →
      Gives (.sampleSlot t p) s (fun _ => (disagreeing bs).foldl Device.loseAlign d1)) ∧
    (t < 8 → d.sDue t g = true → d.sState t = 2 → (st d).replay = none → Reaches (.sampleRelease t g) s (fun d' =>
      ∃ y, d' = (y.sReleased t g (d.sSample t g).2).replayed t g ∧
        y = (d.passSample t g (d.sSample t g).1).eTake t (BitVec.ofInt 64 (d.sStamp t g)) (d.sSample t g).1 (d.chain t g (d.sSample t g).1).1)) ∧
    (d.sDue t g = false → Gives (.sampleRelease t g) s id) ∧
    (∀ x : Device, (st (x.sReleased t g false)).next = g + 1) ∧
    (t < 8 → d.sState t = 1 → (st d).acqEnd = none → (st d).replay = none →
      timeLE ((st d).acqSince + nsTime 1000000) d.time = true → (d.reqs .streamStart).find? (fun q => decide (q.obj = t)) = some r →
      Gives (.acquireTimeout t) s (fun d => (((d.dropReq .streamStart t).setFld (F.LNK_S_STAT_STATE t) 0).finish r.origin
        (F.LNK_S_CTL_START t) (F.LNK_S_STAT_CODE t) cCONDITIONS none).showPending t)) ∧
    (t < 8 → d.sState t = 1 → (st d).acqEnd = none → timeLE ((st d).acqSince + nsTime 1000000) d.time = false →
      Gives (.acquireTimeout t) s id)

/-- R100 to R104, R107, R600. -/
def Obligations.StreamRequests : Prop :=
  ∀ (s : State) (n v : Nat) (u : UCmd),
    let host := s.dev
    let taken := s.dev.accept u
    let dStart := (taken.wrBlock u ((List.range 8).map (fun i => (Reg.LNK_S_CFG u.unit + 4 * i, 4 * i)))).applyPeriod u.unit true true
    let dStop := taken.wrBlock u [(Reg.LNK_S_AT_LO u.unit, 0x18), (Reg.LNK_S_AT_HI u.unit, 0x1C)]
    let dRate := (taken.wrBlock u [(Reg.LNK_S_PNUM u.unit, 8), (Reg.LNK_S_PDEN u.unit, 12), (Reg.LNK_S_AT_LO u.unit, 0x18),
      (Reg.LNK_S_AT_HI u.unit, 0x1C)]).applyPeriod u.unit true true
    let start := fun (i : Instr) (d : Device) (t : Nat) (o : Origin) =>
      (d.sStartCode t = cOK → d.sPending t = false → Gives i s (fun _ =>
        ((((d.sAcquire t).request .streamStart t (d.rdTime (Reg.LNK_S_AT_LO t)) o []).actBit o (F.LNK_S_CTL_START t)).setFld
          (F.LNK_S_STAT_PENDING t) 1))) ∧
      (d.sStartCode t ≠ cOK → d.sPending t = false → Gives i s (fun _ =>
        d.finish o (F.LNK_S_CTL_START t) (F.LNK_S_STAT_CODE t) (d.sStartCode t) none)) ∧
      (d.hasReq [.streamStart] t = true → Gives i s (fun _ =>
        (d.setFld (F.LNK_S_STAT_CODE t) (firstCode [(decide (d.sStartCode t ≠ cOK), d.sStartCode t), (true, cBUSY)])).complete o
          (firstCode [(decide (d.sStartCode t ≠ cOK), d.sStartCode t), (true, cBUSY)]) none))
    let stop := fun (i : Instr) (d : Device) (t : Nat) (o : Origin) =>
      (d.sState t = 0 → Gives i s (fun _ =>
        (d.finish o (F.LNK_S_CTL_STOP t) (F.LNK_S_STAT_CODE t) cOK none).replayCheck)) ∧
      (d.sState t = 1 → Gives i s (fun _ => (((d.sAbandon t).setFld (F.LNK_S_STAT_STATE t) 0).finish o
        (F.LNK_S_CTL_STOP t) (F.LNK_S_STAT_CODE t) cOK none).replayCheck)) ∧
      (d.sState t = 2 → d.sPending t = true → Gives i s (fun _ =>
        ((d.setFld (F.LNK_S_STAT_CODE t) cBUSY).complete o cBUSY none).replayCheck)) ∧
      (d.sState t = 2 → d.sPending t = false → Gives i s (fun _ =>
        (((d.request .streamStop t (d.rdTime (Reg.LNK_S_AT_LO t)) o []).actBit o (F.LNK_S_CTL_STOP t)).setFld
          (F.LNK_S_STAT_PENDING t) 1).replayCheck))
    let rate := fun (i : Instr) (d : Device) (t : Nat) (o : Origin) =>
      let idle := d.sState t = 0 ∧ d.hasConsumer t = false ∧ d.sPending t = false
      (idle → Gives i s (fun _ => (d.applyPeriod t true true).finish o (F.LNK_S_CTL_RATE t) (F.LNK_S_STAT_CODE t) cOK none)) ∧
      (¬idle → d.sRateCode t = cOK → Gives i s (fun _ =>
        (((d.request .streamRate t (d.rdTime (Reg.LNK_S_AT_LO t)) o
          [d.rdN (Reg.LNK_S_PNUM t), d.rdN (Reg.LNK_S_PDEN t)]).actBit o (F.LNK_S_CTL_RATE t)).setFld (F.LNK_S_STAT_PENDING t) 1))) ∧
      (¬idle → d.sRateCode t ≠ cOK → d.hasReq [.streamRate] t = false → Gives i s (fun _ =>
        d.finish o (F.LNK_S_CTL_RATE t) (F.LNK_S_STAT_CODE t) (d.sRateCode t) none))
    (n < 8 → start (.lnkSCtlStart n) host n .host ∧ stop (.lnkSCtlStop n) host n .host ∧ rate (.lnkSCtlRate n) host n .host) ∧
    (host.comes 2 1 8 u → taken.sState u.unit = 0 → start (.lnkStart u) dStart u.unit u.origin) ∧
    (host.comes 2 1 8 u → taken.sState u.unit ≠ 0 → Gives (.lnkStart u) s (fun _ => taken.complete u.origin cBUSY none)) ∧
    (host.comes 2 2 8 u → stop (.lnkStop u) dStop u.unit u.origin) ∧ (host.comes 2 3 8 u → rate (.lnkRate u) dRate u.unit u.origin) ∧
    (n < 8 → host.isSet (F.LNK_E_STAT_RUNNING n) = false → bitAt v 0 = true →
      let d := host.wr (Reg.LNK_E_CFG n) (v % 16)
      (d.eCode n = cOK → Gives (.exportRun n v) s (fun _ =>
        ((d.setFld (F.LNK_E_STAT_CODE n) cOK).setFld (F.LNK_E_STAT_RUNNING n) 1).eStart n)) ∧
      (d.eCode n ≠ cOK → Gives (.exportRun n v) s (fun _ =>
        (d.setFld (F.LNK_E_STAT_CODE n) (d.eCode n)).setFld (F.LNK_E_CFG_RUN n) 0))) ∧
    (n < 8 → host.isSet (F.LNK_E_STAT_RUNNING n) = true → bitAt v 0 = false → host.hasReq [.exportStop] n = false →
      Gives (.exportRun n v) s (fun d => (d.setFld (F.LNK_E_CFG_RUN n) 0).request .exportStop n d.time .host []))

/-- R115, R119, R125, R127, R135. -/
def Obligations.ChanneliserRequests : Prop :=
  ∀ (s : State) (n : Nat) (u : UCmd),
    let host := s.dev
    let z := u.unit
    let taken := s.dev.accept u
    let busy := fun (d : Device) (z : Nat) => d.hasReq [.chnStart, .chnStop, .chnTune] z
    let runs := fun (d : Device) (z : Nat) => d.isSet (F.CHN_Z_STAT_RUNNING z)
    let asked := fun (d : Device) (z : Nat) (k : BKind) (arg : List Nat) (ctl : FieldAt) (o : Origin) =>
      ((d.request k z (d.rdTime (Reg.CHN_Z_AT_LO z)) o arg).actBit o ctl).setFld (F.CHN_Z_STAT_PENDING z) 1
    let refused := fun (i : Instr) (d : Device) (z : Nat) (o : Origin) (c : Nat) => Gives i s (fun _ =>
      if d.hasReq [.chnStart] z then (d.setFld (F.CHN_Z_STAT_CODE z) c).complete o c none
      else d.zFinish z o (F.CHN_Z_CTL_START z) c none)
    let start := fun (i : Instr) (d : Device) (z : Nat) (o : Origin) =>
      let pn := d.rdN (Reg.LNK_S_PNUM_CUR (d.fld (F.CHN_Z_CFG_SOURCE z)))
      let pd := d.rdN (Reg.LNK_S_PDEN_CUR (d.fld (F.CHN_Z_CFG_SOURCE z)))
      let r := d.rdN (Reg.CHN_Z_RATIO z)
      let k := d.fld (F.CHN_Z_CFG_ORDER z)
      let ratioOk := 4 ≤ r ∧ r ≤ 4096 ∧ 3 ≤ k ∧ k ≤ 5 ∧ d.fld (F.CHN_Z_FIR_REF_REF z) ≤ 254 ∧ pd ≤ r * pn
      (0 < pn → 0 < pd → ratioOk → runs d z = false → busy d z = false →
        Gives i s (fun _ => asked d z .chnStart [] (F.CHN_Z_CTL_START z) o)) ∧
      (pn = 0 ∨ pd = 0 ∨ r = 0 → refused i d z o cLENGTH) ∧
      (0 < pn → 0 < pd → 0 < r → runs d z = true ∨ busy d z = true → refused i d z o cBUSY) ∧
      (0 < pn → 0 < pd → 0 < r → ¬ratioOk → runs d z = false → busy d z = false → refused i d z o cUNSUP)
    let later := fun (i : Instr) (d : Device) (z : Nat) (o : Origin) (k : BKind) (arg : List Nat) (ctl : FieldAt) =>
      (busy d z = true → Gives i s (fun _ => (d.setFld (F.CHN_Z_STAT_CODE z) cBUSY).complete o cBUSY none)) ∧
      (busy d z = false → runs d z = false → Gives i s (fun _ => d.zFinish z o ctl cOK none)) ∧
      (busy d z = false → runs d z = true → Gives i s (fun _ => asked d z k arg ctl o))
    let swap := fun (i : Instr) (d : Device) (t : Nat) (o : Origin) =>
      (d.hasReq [.corrSwap] t = true → Gives i s (fun _ => (d.setFld (F.CHN_C_STAT_CODE t) cBUSY).complete o cBUSY none)) ∧
      (d.hasReq [.corrSwap] t = false → d.sState t = 0 → Gives i s (fun _ =>
        ((d.setCorr t { d.corr t with swaps := [] }).setFld (F.CHN_C_STAT_ACTIVE t) (1 - d.fld (F.CHN_C_STAT_ACTIVE t))).finish o
          (F.CHN_C_CTL_SWAP t) (F.CHN_C_STAT_CODE t) cOK none)) ∧
      (d.hasReq [.corrSwap] t = false → d.sState t ≠ 0 → Gives i s (fun _ =>
        ((d.request .corrSwap t (d.rdTime (Reg.CHN_C_AT_LO t)) o []).actBit o (F.CHN_C_CTL_SWAP t)).setFld (F.CHN_C_STAT_PENDING t) 1))
    let go := fun (i : Instr) (d : Device) (o : Origin) =>
      (d.hasReq [.decReset] 0 = true → Gives i s (fun _ => (d.setFld F.CHN_RESET_CTL_CODE cBUSY).complete o cBUSY none)) ∧
      (d.hasReq [.decReset] 0 = false → Gives i s (fun _ =>
        ((d.request .decReset 0 (d.rdTime Reg.CHN_RESET_AT_LO) o []).actBit o F.CHN_RESET_CTL_GO).setFld F.CHN_RESET_CTL_PENDING 1))
    let dSwap := taken.wrBlock u [(Reg.CHN_C_AT_LO z, 0), (Reg.CHN_C_AT_HI z, 4)]
    let dStart := taken.wrBlock u [(Reg.CHN_Z_CFG z, 0), (Reg.CHN_Z_RATIO z, 4), (Reg.CHN_Z_FTW_LO z, 8), (Reg.CHN_Z_FTW_HI z, 12),
      (Reg.CHN_Z_PHASE z, 16), (Reg.CHN_Z_FIR_REF z, 20), (Reg.CHN_Z_AT_LO z, 32), (Reg.CHN_Z_AT_HI z, 36)]
    let dStop := taken.wrBlock u [(Reg.CHN_Z_AT_LO z, 0), (Reg.CHN_Z_AT_HI z, 4)]
    let dTune := taken.wrBlock u [(Reg.CHN_Z_FTW_LO z, 0), (Reg.CHN_Z_FTW_HI z, 4), (Reg.CHN_Z_AT_LO z, 8), (Reg.CHN_Z_AT_HI z, 12)]
    let dReset := taken.wrBlock u [(Reg.CHN_RESET_AT_LO, 0), (Reg.CHN_RESET_AT_HI, 4)]
    let word := fun (d : Device) (z : Nat) => d.rd64 (Reg.CHN_Z_FTW_LO z) % 2 ^ 48
    (n < 8 → swap (.chnCCtlSwap n) host n .host) ∧ (s.dev.comes 3 2 8 u → swap (.chnSwap u) dSwap z u.origin) ∧
    (n < 16 → start (.chnZCtlStart n) host n .host ∧ later (.chnZCtlStop n) host n .host .chnStop [] (F.CHN_Z_CTL_STOP n) ∧
      later (.chnZCtlTune n) host n .host .chnTune [word host n] (F.CHN_Z_CTL_TUNE n)) ∧
    (s.dev.comes 3 3 16 u → taken.zBusy z = false → start (.chnStart u) dStart z u.origin) ∧
    (s.dev.comes 3 3 16 u → taken.zBusy z = true → Gives (.chnStart u) s (fun _ => taken.complete u.origin cBUSY none)) ∧
    (s.dev.comes 3 4 16 u → later (.chnStop u) dStop z u.origin .chnStop [] (F.CHN_Z_CTL_STOP z)) ∧
    (s.dev.comes 3 5 16 u → later (.chnTune u) dTune z u.origin .chnTune [word dTune z] (F.CHN_Z_CTL_TUNE z)) ∧
    go .chnResetCtlGo host .host ∧ (s.dev.comes 3 1 1 u → go (.chnReset u) dReset u.origin)

/-- R162, R163, R171. -/
def Obligations.ScheduleRequests : Prop :=
  ∀ (s : State) (u : UCmd) (l : SchedLoad),
    let d := s.dev
    let taken := d.accept u
    let cur := fun d : Device => d.fld F.XF_SCHED_STAT_STATE
    let busy := fun (i : Instr) (d : Device) (o : Origin) =>
      Gives i s (fun _ => (d.setFld F.XF_SCHED_STAT_CODE cBUSY).complete o cBUSY none)
    let go := fun (i : Instr) (d : Device) (base size : Nat) (t : Time) (o : Origin) =>
      (cur d ≠ 0 → busy i d o) ∧
      (cur d = 0 → Gives i s (fun _ =>
        { (d.setFld F.XF_SCHED_STAT_STATE 1).actBit o F.XF_SCHED_CTL_GO with checking := some ⟨base, size, t, o⟩ }))
    let stop := fun (i : Instr) (d : Device) (t : Time) (o : Origin) =>
      (cur d ≠ 0 → busy i d o) ∧
      (cur d = 0 → Gives i s (fun _ =>
        { ((d.setFld F.XF_SCHED_STAT_STATE 2).actBit o F.XF_SCHED_CTL_STOP).request .schedSwitch 0 t o [1] with pend := some ⟨{}, []⟩ }))
    let idle := Device.moved { d with checking := none } 4
    let r := d.checkSched l.base l.size l.at'
    let c := u.unit
    let n := u.imm % 4096
    let cr := taken.fld (F.XF_C_STAT_CREDIT c)
    let credits := d.comes 4 3 4096 u
    let runs := taken.inRun c = true ∧ cClEn (taken.desc c) = true
    go .xfSchedCtlGo d (d.rd64 Reg.XF_SCHED_BASE_LO) (d.rdN Reg.XF_SCHED_SIZE) (d.rdTime Reg.XF_SCHED_AT_LO) .host ∧
    (d.comes 4 1 1 u → go (.xfLoad u) taken (u.dword 0 % 2 ^ 48) (u.word 8) (BitVec.ofNat 64 (u.dword 16)) u.origin) ∧
    stop .xfSchedCtlStop d (d.rdTime Reg.XF_SCHED_AT_LO) .host ∧
    (d.comes 4 2 1 u → stop (.xfStop u) taken (BitVec.ofNat 64 (u.dword 0)) u.origin) ∧
    (d.checking = none → Gives .scheduleChecked s id) ∧
    (d.checking = some l → r.1.1 ≠ cOK → Gives .scheduleChecked s (fun _ =>
      (((idle.setFld F.XF_SCHED_STAT_STATE 0).finish l.origin F.XF_SCHED_CTL_GO F.XF_SCHED_STAT_CODE r.1.1 none).setFld
        F.XF_SCHED_STAT_ENTRY r.1.2))) ∧
    (d.checking = some l → r.1.1 = cOK → Reaches .scheduleChecked s (fun d' =>
      d' = { idle.moved 1 with regs := d'.regs, breqs := d.breqs ++ [⟨.schedSwitch, 0, l.at', d.time, l.origin, [0]⟩], pend := some r.2 })) ∧
    (credits → runs → 0 < n → cr + n ≤ cClCount (taken.desc c) → Gives (.xfCredit u) s (fun _ =>
      (taken.setFld (F.XF_C_STAT_CREDIT c) (cr + n)).complete u.origin cOK none)) ∧
    (credits → n = 0 ∨ (runs ∧ cClCount (taken.desc c) < cr + n) → Gives (.xfCredit u) s (fun _ => taken.complete u.origin cLENGTH none)) ∧
    (credits → ¬runs → 0 < n → Gives (.xfCredit u) s (fun _ => taken.complete u.origin cNOTARMED none))

/-- R136 to R138, R140, R165, R167. -/
def Obligations.FramesThroughPipes : Prop :=
  ∀ (s : State) (f : Frame) (fs : List Frame) (drop differ : Bool) (p : Nat × Time) (c drops : Nat),
    let d := s.dev
    let d0 : Device := { d with ready := fs }
    let long := cLong f.set.desc
    let n := cN f.set.desc
    let l := cLog f.set.desc
    let e := p.2 + d.pipeTime n
    let late := d.maxWait (cSource f.set.desc) n < (p.2 - f.ready).toInt
    let on := fun x : Device => x.flushLost f.ctx (x.flight.length + 1)
    let lose := fun (flag : FieldAt) (cnt : Nat) =>
      on { (d0.flag flag cnt).inc (Reg.XF_C_SKIP f.ctx) with flight := d.flight ++ [{ f with lost := true, smps := [] }] }
    let skipped := lose F.XF_FLAGS_SKIP Reg.XF_SKIP_CNT
    let subN := if f.subs < longN2 l then longN1 l else longN2 l
    let subT := if f.subs = longN2 l then f.inAt else f.ready
    let subE := p.2 + d.pipeTime subN
    let g : Frame := { f with subs := f.subs + 1, ready := p.2, pipe := p.1, inAt := if f.subs = 0 then subE else timeMax f.inAt subE }
    let entered : Device := if f.subs = 0 then (d0.occupy p.1 subE).workUse f.set.desc else d0.occupy p.1 subE
    let goes := drop = false ∨ longN2 l ≤ f.subs
    (d.ready = [] → Gives (.frameReady drop) s id) ∧
    (d.ready = f :: fs → long = false → d.dispatch f.mask f.ready = some p → ¬late → Gives (.frameReady drop) s (fun _ =>
      on { d0.occupy p.1 e with flight := d.flight ++ [{ f with pipe := p.1, inAt := e }] })) ∧
    (d.ready = f :: fs → long = false → d.dispatch f.mask f.ready = some p → late → Gives (.frameReady drop) s (fun _ => skipped)) ∧
    (d.ready = f :: fs → long = false → d.dispatch f.mask f.ready = none → Gives (.frameReady drop) s (fun _ => skipped)) ∧
    (d.ready = f :: fs → long = true → f.subs < longN2 l → Gives (.frameReady true) s (fun _ =>
      lose F.XF_FLAGS_LONG_DROP Reg.XF_LONG_DROP_CNT)) ∧
    (d.ready = f :: fs → long = true → goes → d.dispatch f.mask subT = none → Gives (.frameReady drop) s (fun _ => skipped)) ∧
    (d.ready = f :: fs → long = true → goes → d.dispatch f.mask subT = some p → timeLT d.time p.2 = true →
      Gives (.frameReady drop) s (fun _ => on { d with ready := fs ++ [f] })) ∧
    (d.ready = f :: fs → long = true → goes → d.dispatch f.mask subT = some p → timeLT d.time p.2 = false →
      Reaches (.frameReady drop) s (fun d' => ∃ x : Device, d' = on x ∧
        x = (if f.subs + 1 = longN1 l + longN2 l then { entered with ready := fs, flight := d.flight ++ [g] }
          else { entered with ready := fs ++ [g] }) ∧
        x = { d with ready := x.ready, flight := x.flight, pipeFree := (d0.occupy p.1 subE).pipeFree, mem := x.mem, poison := x.poison,
                     freeCount := x.freeCount, latAt := x.latAt })) ∧
    (∀ t (l : List (Nat × Time)) q, pickPipe t l = some q → q ∈ l) ∧
    (d.oldest c = none → Gives (.pipeFrameDone c drops false) s id) ∧
    (d.oldest c = some f → f.lost = true ∨ timeLE f.inAt d.time = false → Gives (.pipeFrameDone c drops false) s id) ∧
    (d.oldest c = some f → f.lost = false → timeLE f.inAt d.time = true → Reaches (.pipeFrameDone c drops differ) s (fun d' =>
      ∃ x : Device, x = Device.feed { d with flight := d.flight.erase f } f drops ∧
        d' = (if differ then (x.flushLost c (x.flight.length + 1)).shadowMiss 1 else x.flushLost c (x.flight.length + 1))))

/-- R185, R193, R194, R197 to R202. -/
def Obligations.TraceAndDensityCommands : Prop :=
  ∀ (s : State) (u : UCmd) (p m : Nat) (sn : Snap),
    let d := s.dev
    let taken := d.accept u
    let detOk := fun (i : Instr) (d : Device) (c mask : Nat) (t : Time) (o : Origin) (pend : Bool) =>
      let busy := pend || d.hasReq [.detClear] c
      let good := d.active c = true ∧ tracesNamed (d.desc c) mask = true
      (busy = false → good → Gives i s (fun _ =>
        let x := d.request .detClear c t o [mask]
        if o = .host then (x.setFld F.DET_CLR_CTL_GO 1).setFld F.DET_CLR_STAT_PENDING 1 else x)) ∧
      (busy = true → Gives i s (fun _ => (if o = .host then d.setFld F.DET_CLR_STAT_CODE cBUSY else d).complete o cBUSY none)) ∧
      (busy = false → ¬good → Gives i s (fun _ =>
        (if o = .host then (d.setFld F.DET_CLR_STAT_CODE cNOTARMED).setFld F.DET_CLR_CTL_GO 0 else d).complete o cNOTARMED none))
    let den := fun (i : Instr) (d : Device) (p dest clear : Nat) (isSnap : Bool) (t : Time) (o : Origin) =>
      let x := d.plane p
      let cells := 4 * deCols x.entry * deRows x.entry
      let pend := decide (o = .host) && d.isSet F.DEN_CMD_STAT_PENDING
      let busy := d.hasReq [.denSnap, .denClear] p = true ∨ x.snap.isSome = true ∨ pend = true
      let code := firstCode [(isSnap && x.ever && decide (dest < Config.memSize ∧ Config.memSize < dest + cells), 0x01),
        (isSnap && decide (dest % 4096 ≠ 0), 0x03), (isSnap && decide (Config.memSize ≤ dest), 0x04), (decide busy, 0x05),
        (!x.ever, 0x11)]
      (code = 0 → Gives i s (fun _ =>
        let y := (d.request (if isSnap then .denSnap else .denClear) p t o [dest, clear]).setFld (F.DEN_P_STAT_PENDING p) 1
        if o = .host then y.denShowHost.setFld F.DEN_CMD_STAT_PLANE p else y)) ∧
      (code ≠ 0 → o ≠ .host → Gives i s (fun _ => d.complete o code none)) ∧
      (code ≠ 0 → o = .host → pend = false → Gives i s (fun _ =>
        (d.setFld F.DEN_CMD_STAT_CODE code).setFld F.DEN_CMD_STAT_PLANE p)) ∧
      (code ≠ 0 → o = .host → pend = true → Gives i s (fun _ => d.setFld F.DEN_CMD_STAT_CODE code))
    let denHost := fun (i : Instr) (isSnap : Bool) =>
      den i d (d.fld F.DEN_CMD_CFG_PLANE) (d.rd64 Reg.DEN_SNAP_DEST_LO) (if d.isSet F.DEN_CMD_CFG_CLEAR then 1 else 0) isSnap
        (d.rdTime Reg.DEN_CMD_AT_LO) .host
    let denEng := fun (i : Instr) (isSnap : Bool) =>
      den i taken (bitsOf (u.word 0) 0 4) (u.dword 8 % 2 ^ 48) (if bitAt (u.word 0) 8 then 1 else 0) isSnap
        (BitVec.ofNat 64 (u.dword 16)) u.origin
    let x := d.plane p
    let e := x.entry
    let copied := (d.snapCopy p sn (deCols sn.entry * deRows sn.entry)).moved 1
    let sent := fun k : PlaneStat => if deQEn sn.entry then copied.qOffer (deQueue sn.entry) (copied.snapRecord p k sn) 0x06 p else copied
    let fresh := fun k : PlaneStat => if sn.clear && !sn.gone then (sent k).setFld (F.DEN_P_STAT_TILE_LOST p) 0 else sent k
    let emptied := fun y : Device => ((y.setPlane p { y.plane p with cur := {} }).wr64 (Reg.DEN_P_FRAMES_LO p) 0).denIdle p
    let through := d.ctxDone sn.ctx sn.b = true
    let isOld := fun k : Nat => decide (k / 2 ^ 18 % 2 = sn.bank)
    let kept := d.setPlane p { x with cells := x.cells.filter (fun kv => !isOld kv.1) }
    detOk .detClrCtlGo d (d.fld F.DET_CLR_CFG_CONTEXT) (d.fld F.DET_CLR_CFG_TRACES) (d.rdTime Reg.DET_CLR_AT_LO) .host
      (d.isSet F.DET_CLR_STAT_PENDING) ∧
    (d.comes 5 1 1 u →
      detOk (.detClear u) taken (bitsOf (u.word 0) 0 12) (bitsOf (u.word 0) 16 4) (BitVec.ofNat 64 (u.dword 8)) u.origin false) ∧
    denHost .denCmdCtlSnap true ∧ denHost .denCmdCtlClear false ∧ (d.comes 6 1 1 u → denEng (.denSnap u) true) ∧
    (d.comes 6 2 1 u → denEng (.denClear u) false) ∧
    (x.snap = none ∨ 16 ≤ p → Gives (.snapshotComplete p) s id ∧ Gives (.snapshotMerged p) s id ∧ Gives (.planeClearDone p) s id) ∧
    (p < 16 → x.snap = some sn → sn.isSnap = true → sn.written = false →
      (deMem sn.entry = true → Gives (.snapshotComplete p) s (fun _ => (emptied (fresh x.cur)).denEnd p sn.origin cOK sn.b)) ∧
      (deMem sn.entry = false → through → Reaches (.snapshotComplete p) s (fun d' =>
        ∃ y : Device, y = fresh x.old ∧
          d' = (y.setPlane p { y.plane p with snap := some { sn with written := true } }).denEnd p sn.origin cOK sn.b))) ∧
    (p < 16 → x.snap = some sn → deMem sn.entry = false → sn.isSnap = false ∨ sn.written = true ∨ ¬through →
      Gives (.snapshotComplete p) s id) ∧
    (p < 16 → x.snap = some sn → deMem sn.entry = false → sn.written = true → through →
      (sn.clear = true ∨ sn.gone = true → Gives (.snapshotMerged p) s (fun _ => kept.denIdle p)) ∧
      (sn.clear = false → sn.gone = false → Gives (.snapshotMerged p) s (fun _ =>
        ((x.cells.filter (fun kv => isOld kv.1)).foldl (fun d kv => d.mergeCell p sn kv) kept).denIdle p))) ∧
    (∀ kv : Nat × Nat, p < 16 → let key := tileKey (kv.1 / 2 ^ 19) (1 - sn.bank) (kv.1 % 2 ^ 18)
      ((d.mergeCell p sn kv).plane p).cell key = min (x.cell key + kv.2) 65535 ∧
      (∀ k, k ≠ key → ((d.mergeCell p sn kv).plane p).cell k = x.cell k)) ∧
    (p < 16 → x.snap = some sn → deMem sn.entry = true → sn.isSnap = false → Gives (.planeClearDone p) s (fun d =>
      (emptied ((d.zero (deBase sn.entry) (4 * deCols sn.entry * deRows sn.entry)).moved 1)).denEnd p sn.origin cOK sn.b)) ∧
    (p < 16 → deMem e = false → 0 < deHalf e → 0 < m → d.isSet (F.DEN_P_STAT_ACTIVE p) = true →
      timeLE (x.since + BitVec.ofNat 64 ((x.steps + m) * deHalf e * 4096000)) d.time = true →
      Reaches (.decayStep p m) s (fun d' =>
        d'.plane p = { x with
          steps := x.steps + m, cells := (x.cells.map (fun kv => (kv.1, decayCell m kv.2))).filter (fun kv => decide (kv.2 ≠ 0)) } ∧
        (∀ q, q ≠ p → d'.plane q = d.plane q) ∧
        d'.rdN Reg.DEN_DECAY_LATE_CNT = min (d.rdN Reg.DEN_DECAY_LATE_CNT + (m - 1)) 0xFFFFFFFF ∧
        d' = { d with planes := d'.planes, regs := d'.regs })) ∧
    (p < 16 → deMem e = true → 0 < deHalf e → 0 < m → d.isSet (F.DEN_P_STAT_ACTIVE p) = true →
      timeLE (x.since + BitVec.ofNat 64 ((x.steps + m) * deHalf e * 4096000)) d.time = true →
      Reaches (.decayStep p m) s (fun d' => d'.plane p = { x with steps := x.steps + m } ∧
        (∀ k, k < deCols e * deRows e → d'.mem32 (deBase e + 4 * k) = decayCell m (d.mem32 (deBase e + 4 * k))) ∧
        (∀ a, a < deBase e ∨ deBase e + 4 * (deCols e * deRows e) ≤ a → memGet d'.mem a = memGet d.mem a))) ∧
    (p < 16 → 0 < deHalf e → timeLE (x.since + BitVec.ofNat 64 ((x.steps + m) * deHalf e * 4096000)) d.time = false →
      Gives (.decayStep p m) s id)

/-- R216 to R218, R223, R225. -/
def Obligations.TriggerCommands : Prop :=
  ∀ (s : State) (n : Nat) (u : UCmd) (t : Time),
    let host := s.dev
    let m := u.unit
    let taken := s.dev.accept u
    let arm := fun (i : Instr) (d : Device) (n : Nat) (o : Origin) =>
      (d.tArmCode n = cOK → Gives i s (fun _ =>
        ((d.request .trgArm n (d.rdTime (Reg.TRG_T_AT_LO n)) o []).actBit o (F.TRG_T_CTL_ARM n)).setFld (F.TRG_T_STAT_STATE n) 1)) ∧
      (d.tArmCode n ≠ cOK → d.hasReq [.trgArm] n = false → Gives i s (fun _ =>
        d.finish o (F.TRG_T_CTL_ARM n) (F.TRG_T_STAT_CODE n) (d.tArmCode n) none)) ∧
      (d.tState n ≠ 0 ∨ d.hasReq [.trgArm, .trgDisarm] n = true → d.tArmCode n ≠ cOK ∧ d.tArmCode n ≤ cBUSY)
    let disarm := fun (i : Instr) (d : Device) (n : Nat) (t : Time) (o : Origin) =>
      (d.hasReq [.trgArm, .trgDisarm] n = false → Gives i s (fun _ =>
        (d.request .trgDisarm n t o []).actBit o (F.TRG_T_CTL_DISARM n))) ∧
      (d.hasReq [.trgArm, .trgDisarm] n = true → Gives i s (fun _ => (d.setFld (F.TRG_T_STAT_CODE n) cBUSY).complete o cBUSY none))
    let soft := fun (i : Instr) (d : Device) (n : Nat) (t : Time) (fin : Device → Nat → Device) =>
      (2 ≤ d.tState n → d.tKind n = 5 → d.routed n = false → Gives i s (fun _ => fin (d.fire n (timeMax t d.time) 0 0 0 0) cOK)) ∧
      (d.tState n < 2 → Gives i s (fun _ => fin d cNOTARMED)) ∧
      (2 ≤ d.tState n → d.tKind n ≠ 5 ∨ d.routed n = true → Gives i s (fun _ => fin d cUNSUP))
    let regs := (List.range 7).map (fun i => (Reg.TRG_T_CFG m + 4 * i, 4 * i)) ++ [(Reg.TRG_T_AT_LO m, 0x28), (Reg.TRG_T_AT_HI m, 0x2C)]
    let d := s.dev
    let x := d.tunit n
    let next := x.armB + BitVec.ofNat 64 (x.count * (sParam (d.tRegs n) 0 + sParam (d.tRegs n) 1 * 2 ^ 32))
    let fired := (d.setTunit n { x with count := x.count + 1 }).fire n next 0 0 x.count 0
    let e := d.seqsRun d.tAll
    let shown := e.wrTime Reg.TRG_DECIDED_LO e.collected
    (n < 64 → arm (.trgTCtlArm n) host n .host ∧ disarm (.trgTCtlDisarm n) host n (host.rdTime (Reg.TRG_T_AT_LO n)) .host) ∧
    (d.comes 7 1 64 u → taken.tState m = 0 → arm (.trgArm u) (taken.wrBlock u regs) m u.origin) ∧
    (d.comes 7 1 64 u → taken.tState m ≠ 0 → Gives (.trgArm u) s (fun _ => taken.complete u.origin cBUSY none)) ∧
    (d.comes 7 2 64 u → disarm (.trgDisarm u) taken m (BitVec.ofNat 64 (u.dword 0)) u.origin) ∧
    (d.comes 7 3 64 u → soft (.trgFire u) taken m (BitVec.ofNat 64 (u.dword 0)) (fun d c => d.complete u.origin c none)) ∧
    soft .trgSwCtlFire host (host.fld F.TRG_SW_CFG_UNIT) (host.rdTime Reg.TRG_SW_AT_LO)
      (fun d c => (d.setFld F.TRG_SW_CTL_FIRE 0).setFld F.TRG_SW_STAT_CODE c) ∧
    (n < 64 → sKind (d.tRegs n) = 4 → 2 ≤ d.tState n → timeLE next d.time = true →
      Gives (.timerTriggerFire n) s (fun _ =>
        if sParam (d.tRegs n) 2 = x.count + 1 then fired.setFld (F.TRG_T_STAT_STATE n) 0 else fired)) ∧
    (sKind (d.tRegs n) ≠ 4 ∨ d.tState n < 2 ∨ timeLE next d.time = false → Gives (.timerTriggerFire n) s id) ∧
    (shown.firings = [] → Gives .triggerRelease s (fun _ => shown.tPurge)) ∧
    (shown.firstFiring = some t → timeLT t shown.collected = false → Gives .triggerRelease s (fun _ => shown.tPurge)) ∧
    (shown.firstFiring = some t → timeLT t shown.collected = true → Reaches .triggerRelease s (fun d' =>
      let g := shown.firings.filter (fun f => decide (f.t = t))
      let us := (g.map (fun f => f.unit)).dedup
      d' = ((us.foldl (fun d k => d.injSource 2 k t) (shown.groupRelease t g)).casTriggers t us).tPurge)) ∧
    (n < 64 → d.tKeys n = [n] → sKind (d.tNow n) = 6 → 2 ≤ d.tState n → x.inbox = [] →
      Gives (.seqExpired n) s (fun d => d.seqExpire n (d.decided n))) ∧
    (n < 64 → d.tKeys n = [n] → sKind (d.tNow n) = 6 → 2 ≤ d.tState n → x.inbox = [] → sSteps (d.tNow n) = 2 →
      ∀ p, Sparse.get (fun _ => none) x.steps 0 = some p →
      (timeLT (p + sWindow (d.tNow n) 1) (d.decided n) = true → 0 ∉ x.used → Gives (.seqExpired n) s (fun d =>
        (d.setTunit n { x with steps := Sparse.set (fun _ => none) x.steps 0 none }).flag F.TRG_FLAGS_SEQ_EXPIRED
          Reg.TRG_SEQ_EXP_CNT)) ∧
      (timeLT (p + sWindow (d.tNow n) 1) (d.decided n) = false → Gives (.seqExpired n) s id)) ∧
    (n < 64 → d.tKeys n = [n] → sKind (d.tNow n) ≠ 6 ∨ d.tState n < 2 → Gives (.seqExpired n) s id)

/-- R232, R236, R237, R239, R240, R244. -/
def Obligations.CaptureCommands : Prop :=
  ∀ (s : State) (n : Nat) (u : UCmd) (t : Time) (l : Int) (q : Nat) (bytes : List Byte) (rs : List (Nat × List Byte)),
    let host := s.dev
    let m := u.unit
    let taken := s.dev.accept u
    let arm := fun (i : Instr) (d : Device) (n : Nat) (o : Origin) =>
      (d.acArmCode n = cOK → Gives i s (fun _ =>
        (((d.setCap n { d.cap n with regs := d.acLive n }).request .acqArm n (d.rdTime (Reg.ACQ_B_AT_LO n)) o [d.acState n]).actBit o
          (F.ACQ_B_CTL_ARM n)).setFld
          (F.ACQ_B_STAT_STATE n) 1)) ∧
      (d.acArmCode n ≠ cOK → d.hasReq [.acqArm] n = false → Gives i s (fun _ =>
        d.finish o (F.ACQ_B_CTL_ARM n) (F.ACQ_B_STAT_CODE n) (d.acArmCode n) none)) ∧
      (d.rd64 (Reg.ACQ_B_SIZE_LO n) = 0 ∨ d.rd64 (Reg.ACQ_B_BIND_LO n) = 0 → d.acArmCode n = cLENGTH) ∧
      (d.rd64 (Reg.ACQ_B_BASE_LO n) % 4096 ≠ 0 → d.acArmCode n ≠ cOK ∧ d.acArmCode n ≤ cALIGN)
    let stop := fun (i : Instr) (d : Device) (n : Nat) (t : Time) (o : Origin) =>
      let asked := d.hasReq [.acqStop] n
      (asked = false → d.acState n = 2 ∨ d.acState n = 3 ∨ d.acState n = 4 → Gives i s (fun _ =>
        (d.request .acqStop n t o []).actBit o (F.ACQ_B_CTL_STOP n))) ∧
      (asked = false → d.acState n = 0 ∨ d.acState n = 1 ∨ d.acState n = 5 → Gives i s (fun _ =>
        d.finish o (F.ACQ_B_CTL_STOP n) (F.ACQ_B_STAT_CODE n) cNOTARMED none)) ∧
      (asked = true → Gives i s (fun _ => (d.setFld (F.ACQ_B_STAT_CODE n) cBUSY).complete o cBUSY none))
    let off := fun (d : Device) (n : Nat) (o : Origin) =>
      (((d.setCap n { d.cap n with regs := [] }).setFld (F.ACQ_B_STAT_STATE n) 0).setFld (F.ACQ_B_STAT_FROZEN n) 0).finish o
        (F.ACQ_B_CTL_DISARM n) (F.ACQ_B_STAT_CODE n) cOK none
    let disarm := fun (i : Instr) (d : Device) (n : Nat) (o : Origin) =>
      (d.acState n = 2 ∨ d.acState n = 3 ∨ d.acState n = 4 → Gives i s (fun _ =>
        d.finish o (F.ACQ_B_CTL_DISARM n) (F.ACQ_B_STAT_CODE n) cBUSY none)) ∧
      (d.acState n = 0 ∨ d.acState n = 5 → d.hasReq [.acqArm] n = false → Gives i s (fun _ =>
        off d n o)) ∧
      (∀ r, d.acState n = 1 → (d.reqs .acqArm).find? (fun r => decide (r.obj = n)) = some r → Gives i s (fun _ =>
        off (((d.dropReq .acqArm n).setFld (F.ACQ_B_CTL_ARM n) 0).complete r.origin cNOTARMED none) n o))
    let d := s.dev
    let x := d.cap n
    let out := if bytes = [] then d.endRecord n (d.acTrigger n) else bytes
    let data := if (out.getD 0 0).toNat = 0x15 then ofBytesLE ((out.drop 40).take 4) else 0
    let pushed := (d.qAccept q out (slotsOf out.length) 0x08 n).setCap n { x with recs := rs, sentN := x.sentN + data }
    (n < 64 → arm (.acqBCtlArm n) host n .host ∧ stop (.acqBCtlStop n) host n (host.rdTime (Reg.ACQ_B_AT_LO n)) .host ∧
      disarm (.acqBCtlDisarm n) host n .host) ∧
    (d.comes 8 1 64 u → taken.acState m = 0 ∨ taken.acState m = 5 →
      arm (.acqArm u) (taken.wrBlock u ((List.range 15).map (fun i => (Reg.ACQ_B_CFG m + 4 * i, 4 * i)))) m u.origin) ∧
    (d.comes 8 1 64 u → taken.acState m ≠ 0 → taken.acState m ≠ 5 → Gives (.acqArm u) s (fun _ => taken.complete u.origin cBUSY none)) ∧
    (d.comes 8 2 64 u → stop (.acqStop u) taken m (BitVec.ofNat 64 (u.dword 0)) u.origin) ∧
    (d.comes 8 3 64 u → disarm (.acqDisarm u) taken m u.origin) ∧
    (n < 64 → x.lowSince = some t → timeLE (t + nsTime (d.rdN Reg.ACQ_RETURN_HOLD)) d.time = true →
      0 < d.fld (F.ACQ_B_STAT_FACTOR n) → d.hasReq [.acqFactor] n = false →
      Gives (.returnHoldExpire n) s (fun d => d.request .acqFactor n d.time .device [])) ∧
    (x.lowSince = none ∨ d.fld (F.ACQ_B_STAT_FACTOR n) = 0 → Gives (.returnHoldExpire n) s id) ∧
    (n < 64 → x.lastJ = some l → d.acState n = 3 → l < (x.tape.length : Nat) →
      (d.acStream n = false → Gives (.captureSpanEnd n) s (fun d =>
        let y := d.segRecords n (d.acRQueue n) (decide (x.cause = 2)) 0 (runsOf x.span)
        (y.acQueueRec n (d.acRQueue n) (y.endRecord n (y.acTrigger n))).acDoneNow n)) ∧
      (d.acStream n = true → Gives (.captureSpanEnd n) s (fun d =>
        ((d.acChunk n true (x.span.length + 1)).acQueueRec n (d.acRQueue n) []).setFld (F.ACQ_B_STAT_STATE n) 4))) ∧
    (x.lastJ = none → Gives (.captureSpanEnd n) s id) ∧
    (x.lastJ = some l → d.acState n ≠ 3 ∨ (x.tape.length : Nat) ≤ l → Gives (.captureSpanEnd n) s id) ∧
    (x.recs = [] → Gives (.captureRecordPush n) s id) ∧
    (x.recs = (q, bytes) :: rs → d.qRoom q (slotsOf out.length) = true →
      (rs ≠ [] ∨ d.acState n ≠ 4 → Gives (.captureRecordPush n) s (fun _ => pushed)) ∧
      (rs = [] → d.acState n = 4 → Gives (.captureRecordPush n) s (fun _ => pushed.acDoneNow n))) ∧
    (x.recs = (q, bytes) :: rs → d.qRoom q (slotsOf out.length) = false → Gives (.captureRecordPush n) s id)

/-- R272 to R276. -/
def Obligations.EngineCommands : Prop :=
  ∀ (s : State) (u : UCmd) (e k v : Nat) (t : Time),
    let d := s.dev
    let taken := d.accept u
    let n := u.unit
    let x := taken.eng n
    let done := fun (i : Instr) (y : Device) (c : Nat) => Gives i s (fun _ => y.complete u.origin c none)
    let runs := fun y : Engine => y.state = 1 ∨ y.state = 2
    let fresh := fun (y : Engine) (entry code : Nat) =>
      ({ state := 1, pc := entry, code := code, busy := y.busy, fs := y.fs, fseq := y.fseq } : Engine)
    let off := fun (y : Engine) (code : Nat) => { y with state := 0, cause := 0, evq := [], evLost := false, code := code }
    let y := d.eng e
    let entry := d.rdN (Reg.CL_E_ENTRY (e / 16) (e % 16)) % 65536
    let w := v % 65536
    let count := fun a b : Nat => (a + 65536 - b) % 65536
    let hw := d.rdN (Reg.MB_H2E_WR k)
    let hr := d.rdN (Reg.MB_H2E_RD k)
    let ew := d.rdN (Reg.MB_E2H_WR k)
    let er := d.rdN (Reg.MB_E2H_RD k)
    let bad := fun i : Instr => Gives i s (fun d => d.flag (F.MB_FLAGS_OVERRUN k) (Reg.MB_ERR_CNT k))
    (512 ≤ n → (d.takes 0x14 1 u = true → done (.engStart u) taken cUNSUP) ∧ (d.takes 0x14 2 u = true → done (.engStop u) taken cUNSUP) ∧
      (d.takes 0x14 3 u = true → done (.engSignal u) taken cUNSUP) ∧ (d.takes 0x14 4 u = true → done (.engTimer u) taken cUNSUP)) ∧
    (d.comes 0x14 1 512 u → (x.state = 0 ∨ x.state = 3 → done (.engStart u) (taken.setEng n (fresh x (u.imm % 65536) x.code)) cOK) ∧
      (runs x → done (.engStart u) taken cBUSY) ∧ (x.state = 4 → done (.engStart u) taken cNOSPARE)) ∧
    (d.comes 0x14 2 512 u → (runs x ∨ x.state = 3 → done (.engStop u) (taken.setEng n (off x x.code)) cOK) ∧
      (x.state = 0 → done (.engStop u) taken cOK) ∧ (x.state = 4 → done (.engStop u) taken cNOSPARE)) ∧
    (d.comes 0x14 3 512 u →
      (runs x → x.evq.length < 256 →
        done (.engSignal u) (taken.setEng n { x with evq := x.evq ++ [evEntry 19 u.e 0 (u.imm % 65536)] }) cOK) ∧
      (x.state = 0 ∨ x.state = 3 → done (.engSignal u) taken cNOTARMED) ∧ (x.state = 4 → done (.engSignal u) taken cNOSPARE)) ∧
    (d.comes 0x14 4 512 u →
      (runs x → done (.engTimer u) (taken.setEng n { x with timer := some (BitVec.ofNat 64 (u.dword 0)) }) cOK) ∧
      (x.state = 0 ∨ x.state = 3 → done (.engTimer u) taken cNOTARMED) ∧ (x.state = 4 → done (.engTimer u) taken cNOSPARE)) ∧
    (e < 512 → (y.state = 0 ∨ y.state = 3 → Reaches (.clECtlStart e) s (fun d' => OnlyEngine d d' e (fresh y entry 0))) ∧
      (runs y → Reaches (.clECtlStart e) s (fun d' => OnlyEngine d d' e { y with code := cBUSY }) ∧
        Reaches (.clECtlStop e) s (fun d' => OnlyEngine d d' e (off y 0))) ∧
      (y.state = 0 → Reaches (.clECtlStop e) s (fun d' => OnlyEngine d d' e { y with code := cOK })) ∧
      (y.state = 4 → Reaches (.clECtlStart e) s (fun d' => OnlyEngine d d' e { y with code := cNOSPARE }) ∧
        Reaches (.clECtlStop e) s (fun d' => OnlyEngine d d' e { y with code := cNOSPARE }))) ∧
    (y.timer = some t → timeLE t d.time = true → Gives (.engineTimerExpire e) s (fun d =>
      d.setEng e { y with timer := none, timerExp := true })) ∧
    (y.timer = none ∨ (y.timer = some t ∧ timeLE t d.time = false) → Gives (.engineTimerExpire e) s id) ∧
    (count w hr ≤ 32 → (d.eng (16 * k + d.fld (F.MB_CFG_TARGET k))).state ≠ 4 ∨ hw = w →
      Gives (.mbH2eWrWrite k v true) s (fun d => d.wr (Reg.MB_H2E_WR k) w)) ∧
    (count w hr ≤ 32 → (d.eng (16 * k + d.fld (F.MB_CFG_TARGET k))).state = 4 → hw ≠ w →
      Gives (.mbH2eWrWrite k v true) s (fun d =>
        (d.vacantDrop (16 * k + d.fld (F.MB_CFG_TARGET k))).wr (Reg.MB_H2E_WR k) w)) ∧ (32 < count w hr → bad (.mbH2eWrWrite k v true)) ∧
    (count w hr ≤ count hw hr → Gives (.mbH2eRdWrite k v false) s (fun d => d.wr (Reg.MB_H2E_RD k) w)) ∧
    (count hw hr < count w hr → bad (.mbH2eRdWrite k v false)) ∧
    (y.fs = [] → count w er ≤ 32 → ew ≠ er ∨ w = ew ∨ d.isSet (F.MB_CFG_VEC_EN k) = false →
      Gives (.mbE2hWrWrite k v false e) s (fun d => d.wr (Reg.MB_E2H_WR k) w)) ∧
    (y.fs = [] → count w er ≤ 32 → ew = er → w ≠ ew → d.isSet (F.MB_CFG_VEC_EN k) = true →
      Gives (.mbE2hWrWrite k v false e) s (fun d => (d.wr (Reg.MB_E2H_WR k) w).msix (d.fld (F.MB_CFG_VEC k)))) ∧
    (y.fs ≠ [] → y.fs.length < 16 → Reaches (.mbE2hWrWrite k v false e) s (fun d' => OnlyEngine d d' e
      { y with fs := y.fs ++ [⟨farE2hWr k, bytesLE 4 (v % 2 ^ 32), y.fseq⟩], fseq := y.fseq + 1 })) ∧
    (count w er ≤ count ew er → Gives (.mbE2hRdWrite k v true) s (fun d => d.wr (Reg.MB_E2H_RD k) w)) ∧
    (count ew er < count w er → bad (.mbE2hRdWrite k v true)) ∧
    bad (.mbH2eWrWrite k v false) ∧ bad (.mbH2eRdWrite k v true) ∧ bad (.mbE2hWrWrite k v true e) ∧ bad (.mbE2hRdWrite k v false)

/-- R331, R332, R341, R343. -/
def Obligations.ImagesAndFlash : Prop :=
  ∀ (s : State) (u : UCmd) (data : List Byte) (big auto : Bool) (slot cmd : Nat),
    let d := s.dev
    let taken := d.accept u
    let live := fun d : Device => 3 ≤ d.fld F.SYS_STAT_STATE ∧ d.fld F.SYS_STAT_STATE ≤ 7
    let busy := fun d : Device => decide (d.fld F.SYS_STAT_STATE ≠ 3) || d.sys.flash.isSome
    let failed := fun (d : Device) (c : Nat) => (d.setFld F.SYS_IMG_STAT_CODE c).flag F.SYS_FLAGS_IMG_FAIL Reg.SYS_IMG_FAIL_CNT
    let loading := fun (d : Device) (slot ask : Nat) (y : Device) => ∃ x : Device,
      x = d.unitsReset keepMask ∧ ∃ z : Device,
      z = (Device.setFld { x with sys := { x.sys with slot := slot, ask := ask } } F.SYS_STAT_STATE 4).setFld F.SYS_IMG_STAT_BUSY 1 ∧
      y = if ask < 4 then z.setFld ⟨Reg.SYS_IMG_CTL, ⟨ask, 1⟩⟩ 1 else z
    let warm := fun d : Device =>
      let y := ((d.unitsReset keepMask).setFld F.SYS_STAT_STATE 3).flag F.SYS_FLAGS_RESTART Reg.SYS_RESTART_CNT
      if y.fld F.MEM_STAT_STATE = 3 then y.setFld F.MEM_STAT_STATE 2 else y
    let tries := fun (i : Instr) (d : Device) (ask : Nat) =>
      (d.imgCode (busy d) = cOK → Reaches i s (loading d 0 ask)) ∧
      (d.imgCode (busy d) ≠ cOK → Gives i s (fun _ => failed d (d.imgCode (busy d))))
    let base := d.imgBase
    let put : Device := (d.sects base).foldl (fun d x => d.sectApply base x) d
    let free : Device := { d with sys := { d.sys with flash := none } }
    let read := d.flashStore data
    let readCode := if d.flashPast data then cLENGTH else read.imgCode false
    let bad := failed read readCode
    let want := auto = true ∧ bitAt (ofBytesLE (flashBytes (data.drop 12) 4)) 0 = false
    let len := bitsOf cmd 18 9
    let ab := bitsOf cmd 8 3
    let cmdCode := firstCode [(decide (256 < len), cLENGTH), (d.sys.flash.isSome || d.sys.cmd.isSome, cBUSY), (decide (ab ∉ [0, 3, 4]), cUNSUP)]
    let written := (d.wrRw Reg.SYS_FLASH_CMD cmd).setFld F.SYS_FLASH_STAT_CODE cmdCode
    tries .sysImgCtlStart d 0 ∧
    (d.imgBase % 4096 ≠ 0 → d.imgCode (busy d) ≠ cOK) ∧ (Config.memSize ≤ d.imgBase → d.imgCode (busy d) ≠ cOK) ∧
    (live d → Gives .sysImgCtlRestart s warm ∧ tries .sysImgCtlRestartLoad (warm d) 3) ∧
    (¬live d → Gives .sysImgCtlRestart s (fun d => d.setFld F.SYS_IMG_STAT_CODE cBUSY) ∧
      Gives .sysImgCtlRestartLoad s (fun d => d.setFld F.SYS_IMG_STAT_CODE cBUSY) ∧
      (d.comes 0 3 1 u → Gives (.sysRestart u) s (fun _ => taken.complete u.origin cBUSY none))) ∧
    (d.comes 0 3 1 u → live d → bitAt u.imm 0 = false → Gives (.sysRestart u) s (fun _ => warm taken)) ∧
    (d.comes 0 3 1 u → live d → bitAt u.imm 0 = true → tries (.sysRestart u) (warm taken) 4) ∧
    (d.fld F.SYS_STAT_STATE ≠ 4 → Gives .imageLoaded s id) ∧
    (d.fld F.SYS_STAT_STATE = 4 → Reaches .imageLoaded s (fun d' => ∃ y : Device,
      y.fld F.SYS_STAT_STATE = 5 ∧ y.anchorCtx = some (put.imgWord base 0x10 % 4096) ∧
      y = { put with regs := y.regs, anchorCtx := y.anchorCtx } ∧ d' = (y.engStart 0 (y.imgWord base 0x14 % 65536)).2)) ∧
    (busy d = true → Gives .sysImgCtlFlash s (fun d => failed d cBUSY)) ∧
    (busy d = false → d.isSet F.SYS_FLASH_CFG_PRESENT = true → Gives .sysImgCtlFlash s (fun d =>
      (Device.setFld { d with sys := { d.sys with flash := some (0, false) } } F.SYS_IMG_STAT_BUSY 1).setFld F.SYS_IMG_CTL_FLASH 1)) ∧
    (d.sys.flash = none → Gives (.flashImageRead data big) s id) ∧
    (d.sys.flash = some (slot, auto) → ¬want → readCode = cOK →
      Reaches (.flashImageRead data big) s (loading read (slot + 1) (if auto then 4 else 1))) ∧
    (d.sys.flash = some (slot, auto) → want → slot = 0 → big = true →
      Gives (.flashImageRead data big) s (fun d => { d with sys := { d.sys with flash := some (1, auto) } })) ∧
    (d.sys.flash = some (slot, auto) → want → slot ≠ 0 ∨ big = false → Gives (.flashImageRead data big) s (fun _ =>
      (free.setFld F.SYS_IMG_STAT_BUSY 0).setFld F.SYS_IMG_CTL_FLASH 0)) ∧
    (d.sys.flash = some (slot, auto) → ¬want → readCode ≠ cOK → slot = 0 → big = true →
      Gives (.flashImageRead data big) s (fun _ => { bad with sys := { bad.sys with flash := some (1, auto) } })) ∧
    (d.sys.flash = some (slot, auto) → ¬want → readCode ≠ cOK → slot ≠ 0 ∨ big = false → Gives (.flashImageRead data big) s (fun _ =>
      (Device.setFld { bad with sys := { bad.sys with flash := none } } F.SYS_IMG_STAT_BUSY 0).setFld F.SYS_IMG_CTL_FLASH 0)) ∧
    (cmdCode ≠ cOK → Gives (.sysFlashCmdGo cmd) s (fun _ => written)) ∧
    (cmdCode = cOK → Reaches (.sysFlashCmdGo cmd) s (fun d' => d'.sys = { d.sys with cmd := some (cmd % 2 ^ 27) } ∧
      d'.isSet F.SYS_FLASH_CMD_GO = true ∧ d'.isSet F.SYS_FLASH_STAT_BUSY = true ∧
      (∃ a bs, d'.outbox = d.outbox ++ [.flash (cmd % 2 ^ 27) a bs]) ∧
      d' = { d with regs := d'.regs, sys := d'.sys, outbox := d'.outbox })) ∧
    (d.sys.cmd = none → Gives (.flashCmdDone data) s id) ∧
    (d.sys.cmd = some cmd → Reaches (.flashCmdDone data) s (fun d' => d'.sys = { d.sys with cmd := none } ∧
      (bitAt cmd 16 = false → len ≤ 256 → ∀ j, j < len →
        bitsOf (d'.rdN (Reg.SYS_FLASH_BUF (j / 4))) (8 * (j % 4)) 8 = (data.getD j 0xFF).toNat) ∧
      d'.isSet F.SYS_FLASH_CMD_GO = false ∧ d'.isSet F.SYS_FLASH_STAT_BUSY = false ∧ d' = { d with regs := d'.regs, sys := d'.sys }))

/-- R334, R335, R345 to R350. -/
def Obligations.OverlaysAndSleep : Prop :=
  ∀ (s : State) (u : UCmd) (r : OvlReq) (rest : List OvlReq) (x : SleepRec) (w : Time),
    let d := s.dev
    let taken := d.accept u
    let cur := d.fld F.SYS_STAT_STATE
    let ask := fun (d : Device) (n : Nat) (t : Time) (o : Origin) =>
      ({ d with sys := { d.sys with ovlReqs := d.sys.ovlReqs ++ [⟨n, t, o⟩] } } : Device)
    let sleep := fun (i : Instr) (d : Device) (cfg : Nat) (t wake : Time) (o : Origin) =>
      (d.sleepCode cfg = cOK → Gives i s (fun _ =>
        ((d.request .sleep 0 t o [cfg % 8, wake.toNat]).setFld F.SYS_SLEEP_STAT_PENDING 1).actBit o F.SYS_SLEEP_CTL_GO)) ∧
      (d.sleepCode cfg ≠ cOK → d.isSet F.SYS_SLEEP_STAT_PENDING = true → Gives i s (fun _ =>
        (d.setFld F.SYS_SLEEP_STAT_CODE (d.sleepCode cfg)).complete o (d.sleepCode cfg) none)) ∧
      (d.sleepCode cfg ≠ cOK → d.isSet F.SYS_SLEEP_STAT_PENDING = false → Gives i s (fun _ => d.sleepFinish o (d.sleepCode cfg) none))
    let due : Device := { d with sys := { d.sys with ovlReqs := rest } }
    let known := r.num < due.ovlCount due.imgBase ∧ cur = 5
    let rs := due.ovlRead r.num
    let code := due.ovlCode r rs
    let sums := (due.ovlBase r.at').ovlSched rs
    let shown := if due.run.patchedBy rs || due.pendSched.patchedBy rs then
        (due.setFld F.XF_SCHED_STAT_CODE sums.1).setFld F.XF_SCHED_STAT_ENTRY sums.2
      else due
    let early := firstCode [(decide (2 ≤ due.sys.ovls.length) || due.ovlMeets r.at', cBUSY), (decide (cur ≠ 5), cNOTARMED),
      (decide (due.ovlCount due.imgBase ≤ r.num), cUNSUP)]
    let asked := fun o : Ovl => (o.num, o.at', o.acc, o.origin, o.recs)
    let woke := fun k : Nat => d.setFld ⟨Reg.SYS_SLEEP_STAT, ⟨F.SYS_SLEEP_STAT_CAUSE.f.lo + k, 1⟩⟩ 1
    let causes := fun (i : Instr) (k : Nat) =>
      (bitAt x.sources k = true → cur = 6 ∨ cur = 7 → d.sys.asleep = false → Gives i s (fun _ =>
        { woke k with sys := { d.sys with woken := true } })) ∧
      (bitAt x.sources k = true → cur = 6 ∨ cur = 7 → d.sys.asleep = true → Gives i s (fun _ =>
        { woke k with sys := { d.sys with wake := some (d.sys.wake.getD d.time) } })) ∧
      (bitAt x.sources k = false ∨ (cur ≠ 6 ∧ cur ≠ 7) → Gives i s id)
    let waking := ((d.setFld F.SYS_STAT_STATE 7).setFld F.HIF_LINK_STAT_L1 0)
    let at' := fun ns : Nat => timeLE (w + nsTime ns) d.time
    let home := x.lanes.foldl (fun d i => d.disableLane i) d.queuesHome.saveAll.tilesLost
    let entered := (home.setFld F.HIF_LINK_STAT_L1 (home.cfgOf 7)).setFld F.MEM_STAT_STATE 3
    let memory := if d.fld F.MEM_STAT_STATE = 3 then d.setFld F.MEM_STAT_STATE 2 else d
    let enabled := x.lanes.foldl (fun d i => d.enableLane i (d.isSet (F.LNK_L_CFG_POL_INV i))) { memory with sys := { d.sys with wakeStep := 1 } }
    let acquiring := x.streams.foldl (fun d t => Device.setStream (d.sAcquire t) t
      { (d.sAcquire t).stream t with acqSince := w + nsTime 4000000 }) { memory with sys := { d.sys with wakeStep := 2 } }
    (d.sys.ovlReqs.any (fun r => decide (r.origin = .host)) = true → Gives .sysOvlCtlGo s (fun d => d.setFld F.SYS_OVL_STAT_CODE cBUSY)) ∧
    (d.sys.ovlReqs.any (fun r => decide (r.origin = .host)) = false → Gives .sysOvlCtlGo s (fun d =>
      (ask d (d.rdN Reg.SYS_OVL_CFG % 16) (d.rdTime Reg.SYS_OVL_AT_LO) .host).setFld F.SYS_OVL_CTL_GO 1)) ∧
    (d.comes 0 1 1 u → Reaches (.sysOverlay u) s (fun d' => d' = { taken with sys := d'.sys } ∧ d'.sys = { d.sys with
      ovlReqs := d.sys.ovlReqs ++ [⟨u.word 0 % 16, BitVec.ofNat 64 (u.dword 8), u.origin⟩] })) ∧
    (d.sys.ovlReqs = [] → Gives .overlayStaged s id) ∧
    (d.sys.ovlReqs = r :: rest → known → code = cOK → Reaches .overlayStaged s (fun d' => ∃ y : Device,
      (∃ l, y.sys.ovls = l ++ [⟨r.num, r.at', d.time, r.origin, rs, (shown.ovlBase r.at').patchedSets rs⟩] ∧
        l.map asked = d.sys.ovls.map asked) ∧ y.sys = { d.sys with ovls := y.sys.ovls, ovlReqs := rest } ∧
      y = { shown with sys := y.sys, latAt := y.latAt } ∧ d' = y.ovlAnswer r cOK)) ∧
    (d.sys.ovlReqs = r :: rest → known → code ≠ cOK → Gives .overlayStaged s (fun _ =>
      (shown.ovlAnswer r code).complete r.origin code none)) ∧
    (d.sys.ovlReqs = r :: rest → ¬known → early ≠ cOK ∧ Gives .overlayStaged s (fun _ =>
      (due.ovlAnswer r early).complete r.origin early none)) ∧
    sleep .sysSleepCtlGo d (d.rdN Reg.SYS_SLEEP_CFG) (d.rdTime Reg.SYS_SLEEP_AT_LO) (d.rdTime Reg.SYS_WAKE_AT_LO) .host ∧
    (d.comes 0 2 1 u → sleep (.sysSleep u) taken (u.word 0) (BitVec.ofNat 64 (u.dword 8)) (BitVec.ofNat 64 (u.dword 16)) u.origin) ∧
    (d.sys.slp = none → Gives .sleepEntryDone s id ∧ Gives .wakePin s id ∧ Gives .wakeHostAccess s id ∧ Gives .wakeTimer s id ∧
      Gives .wakeStart s id ∧ Gives .resumeInstant s id) ∧
    (d.sys.slp = some x →
      (cur ≠ 6 ∨ d.ready ≠ [] ∨ d.flight ≠ [] ∨ (∃ q ∈ d.seqs, (d.seqNext q).isSome = true) → Gives .sleepEntryDone s id) ∧
      (cur = 6 → d.sys.asleep = false → d.ready = [] → d.flight = [] → (∀ q ∈ d.seqs, d.seqNext q = none) →
        Gives .sleepEntryDone s (fun _ =>
          { entered with sys := { entered.sys with asleep := true, wake := if entered.sys.woken then some entered.time else none } })) ∧
      causes .wakePin 0 ∧ causes .wakeHostAccess 1 ∧ (timeLE x.wakeAt d.time = true → causes .wakeTimer 2) ∧
      (timeLE x.wakeAt d.time = false → Gives .wakeTimer s id) ∧
      (d.sys.wake = some w → cur = 6 → d.sys.asleep = true → Gives .wakeStart s (fun _ =>
        { waking with sys := { d.sys with wakeStep := 0 } })) ∧
      (d.sys.wake = some w → cur = 7 →
        (d.sys.wakeStep = 0 → at' 500000 = true → at' 3500000 = true → at' 4000000 = false → d.wakeTick = enabled) ∧
        (d.sys.wakeStep = 1 → at' 500000 = true → at' 4000000 = true → d.wakeTick = acquiring) ∧
        (at' 500000 = false → at' 3500000 = false → at' 4000000 = false → d.wakeTick = d)) ∧
      (d.sys.wake = some w → cur ≠ 6 → Gives .wakeStart s id) ∧
      (d.sys.wake = some w → cur ≠ 7 ∨ timeLE (resumeAt w) d.time = false → Gives .resumeInstant s id) ∧
      (d.sys.wake = some w → cur = 7 → timeLE (resumeAt w) d.time = true → Reaches .resumeInstant s (fun d' => ∃ y : Device,
        d' = ((y.wrTime Reg.SYS_RESUME_LO (resumeAt w)).flag F.SYS_FLAGS_SLEPT Reg.SYS_SLEEP_CNT).sleepFinish x.origin cOK
          (some (resumeAt w)) ∧ d'.rdTime Reg.SYS_RESUME_LO = resumeAt w ∧ d'.isSet F.SYS_FLAGS_SLEPT = true)))

/-- R337, R338, R419, R449, R583 to R585, R592. -/
def Obligations.PowerResetAndStart : Prop :=
  ∀ (s : State) (straps ns hz fixed f : Nat) (perst full lockA lockB flash vdd tms tdi rising guess : Bool) (failed remaps : List Nat),
    let d := s.dev
    let cur := d.fld F.SYS_STAT_STATE
    let bare : Device := { outbox := d.outbox, hostRead := d.hostRead, hostReadEp := d.hostReadEp, freeCount := d.freeCount,
                           memc := { hard := d.memc.hard }, sys := { low := d.sys.low } }
    let pin := pinOf perst
    let low := d.sys.low.set pin true
    let up := d.setPin perst false
    let trained := d.memTrain remaps
    let flr : Device := { d with cfg := [], d3hot := false,
                                 regs := resetRegs (fun a => if 0xa10000 ≤ a ∧ a < 0xa18100 then 0 else allBits) d.regs }
    let t := d.tap
    Reaches (.powerUp straps) s (fun d' => d' = { bare with sys := d'.sys } ∧ d'.sys = { low := [true, true], straps := straps % 4 }) ∧
    (d.pinLow = true → Gives .railOutOfRange s (fun _ => bare)) ∧
    (10000 ≤ ns ∨ (100 ≤ ns ∧ full = true) → Gives (.resetAssert perst ns full) s (fun d =>
      { outbox := d.outbox, hostRead := d.hostRead, hostReadEp := d.hostReadEp, freeCount := d.freeCount,
        memc := { hard := d.memc.hard, pend := d.memc.pend }, panel := { hpdLow := d.panel.hpdLow },
        sys := { low := low, straps := d.sys.straps } })) ∧
    (ns < 100 ∨ (ns < 10000 ∧ full = false) → Gives (.resetAssert perst ns full) s id) ∧
    (d.sys.low.getD pin false = false → Gives (.resetRelease perst) s id) ∧
    (d.sys.low.getD pin false = true → (d.sys.low.set pin false).any id = true → Gives (.resetRelease perst) s (fun _ => up)) ∧
    (d.sys.low.getD pin false = true → (d.sys.low.set pin false).any id = false → Gives (.resetRelease perst) s (fun _ =>
      (up.setFld F.SYS_STAT_STATE 1).setFld F.SYS_STAT_REF_WAIT 1)) ∧
    (cur = 1 → d.sys.started = false → d.pinLow = false → d.isSet F.CLK_STAT_REF_PRESENT = false →
      (refFreq hz = none → Gives (.refclkReady hz lockA lockB) s (fun d => d.setFld F.SYS_STAT_REF_WAIT 1)) ∧
      (refFreq hz = some (f, guess) → f < 2 ^ 32 → (lockA && lockB) = false → Reaches (.refclkReady hz lockA lockB) s (fun d' =>
        d'.roots = { d.roots with ref := f } ∧ d'.rdN Reg.CLK_REF_FREQ = f ∧ d'.isSet F.CLK_STAT_REF_PRESENT = true ∧
        d'.isSet F.CLK_STAT_A_LOCK = lockA ∧ d'.isSet F.CLK_STAT_B_LOCK = lockB ∧ d'.isSet F.CLK_STAT_REF_GUESS = guess ∧
        d' = { d with regs := d'.regs, roots := d'.roots })) ∧
      (refFreq hz = some (f, guess) → lockA = true → lockB = true → Reaches (.refclkReady hz lockA lockB) s (fun d' =>
        ∃ y : Device, d' = y.stepOneEnd ∧ y = { d with regs := y.regs, roots := { d.roots with ref := f } }))) ∧
    (cur ≠ 1 ∨ d.sys.started = true ∨ d.pinLow = true → Gives (.refclkReady hz lockA lockB) s id) ∧
    (d.locking = false → Gives .rootLockTimeout s id) ∧
    (d.locking = true → d.isSet F.CLK_STAT_A_LOCK = false → d.isSet F.CLK_STAT_B_LOCK = false →
      Gives .rootLockTimeout s (fun d => d.setFld F.SYS_STAT_STATE 8)) ∧
    (d.locking = true → d.isSet F.CLK_STAT_A_LOCK ≠ d.isSet F.CLK_STAT_B_LOCK → Reaches .rootLockTimeout s (fun d' =>
      ∃ y : Device, y = (d.setFld F.CLK_STAT_ACTIVE (if d.isSet F.CLK_STAT_A_LOCK then 0 else 1)).stepOneEnd ∧
        d' = y.withdrawUnit (rootUnit y.standby) 5)) ∧
    (cur ≠ 1 ∨ d.sys.started = false → Gives (.postDone failed fixed vdd) s id) ∧
    (cur = 1 → d.sys.started = true → Reaches (.postDone failed fixed vdd) s (fun d' =>
      d'.fld F.SYS_STAT_STATE = if (groupUnits 0 0).all (fun u => decide (d'.puState u = 5)) then 8 else 2)) ∧
    (cur ≠ 2 → Gives (.trainingDone remaps flash) s id) ∧
    (cur = 2 → trained.isSet F.MEM_STAT_FAILED = true → Gives (.trainingDone remaps flash) s (fun _ => trained.setFld F.SYS_STAT_STATE 8)) ∧
    (cur = 2 → trained.isSet F.MEM_STAT_FAILED = false → Gives (.trainingDone remaps flash) s (fun _ =>
      let y := (trained.setFld F.SYS_STAT_STATE 3).setFld F.SYS_FLASH_CFG_PRESENT (if flash then 1 else 0)
      if flash then (y.setFld F.SYS_STAT_FLASH_TRIED 1).flashBoot true else y)) ∧
    (flr.canRestart = true → Gives .functionLevelReset s (fun _ => flr.warmRestart)) ∧
    (flr.canRestart = false → Gives .functionLevelReset s (fun _ => flr)) ∧
    Gives (.testAccessPortClock tms tdi true rising) s (fun d => { d with tap := { t with state := .testLogicReset, ir := Config.tapCode 0 % 256 } }) ∧
    (t.state ≠ .captureDr → t.state ≠ .captureIr → t.state ≠ .shiftDr → t.state ≠ .shiftIr →
      Gives (.testAccessPortClock tms tdi false true) s (fun d => { d with tap := { t with state := t.state.after tms } })) ∧
    (t.state = .shiftDr → Gives (.testAccessPortClock tms tdi false true) s (fun d =>
      { d with tap := { t with drShift := t.drShift.tail ++ [tdi], state := if tms then .exit1Dr else .shiftDr } })) ∧
    (t.state = .shiftDr → Gives (.testAccessPortClock tms tdi false false) s (fun d => d.send (.tdo (t.drShift.headD false)))) ∧
    (t.state = .updateIr → Gives (.testAccessPortClock tms tdi false false) s (fun d =>
      { d with tap := { t with ir := ofBits t.irShift } })) ∧
    ((((((t.state.after true).after true).after true).after true).after true) = .testLogicReset)

/-- R361, R366 to R369, R371, R373, R374. -/
def Obligations.QueueCommands : Prop :=
  ∀ (s : State) (u : UCmd) (q n vec : Nat) (unc : Bool) (r : QRec),
    let d := s.dev
    let x := d.queue q
    let taken := d.accept u
    let y : Queue := { x with recs := markDone x.recs, w := r.start + r.slots, arrive := d.time }
    let wrote := (d.setQueue q y).wr (Reg.QUE_Q_PEAK q) (max (d.rdN (Reg.QUE_Q_PEAK q)) (y.w - y.f))
    let due := d.qOn q = true ∧ x.rd ≤ n ∧ n < x.rd + 16 ∧ n < x.r ∧ x.chip n = none
    let bad := unc || d.qHomeBad q n
    let got := ((d.timed Reg.QUE_SPILL_LAT).moved 3).setQueue q (x.setChip n (some ⟨memBytes d.mem (d.qHome q n) 64, bad⟩))
    let isOpen := q < 4096 ∧ d.qOn q = true ∧ d.isSet (F.QUE_Q_CFG_HOST q) = true ∧ d.zReads q = false ∧ d.forwards q = false
    let armed := (d.setFld (F.QUE_Q_IRQ_VEC q) vec).setFld (F.QUE_Q_IRQ_ARM q) 1
    let code := fun (d : Device) (q : Nat) =>
      let sl := d.rdN (Reg.QUE_Q_SLOTS q)
      let b := d.rd64 (Reg.QUE_Q_BASE_LO q)
      firstCode [(decide (sl = 0 ∨ 2 ^ 24 < sl) || pastEnd b (64 * sl), 0x01), (d.qOverlaps q b sl, 0x02),
        (decide (b % 4096 ≠ 0 ∨ sl % 64 ≠ 0), 0x03), (decide (Config.memSize ≤ b), 0x04), (d.qOn q, 0x05),
        (!d.isSet (F.QUE_Q_CFG_HOST q) && decide (511 < d.fld (F.QUE_Q_CFG_ENGINE q)), 0x13)]
    let enabled := fun (d : Device) (q : Nat) =>
      ((((d.setQueue q {}).setFld (F.QUE_Q_STAT_CODE q) 0).setFld (F.QUE_Q_STAT_ENABLED q) 1).wr (Reg.QUE_Q_SEQ q) 0).wr64
        (Reg.QUE_Q_PUSHED_LO q) 0
    let regs := taken.wrBlock u [(Reg.QUE_Q_CFG u.unit, 0), (Reg.QUE_Q_SLOTS u.unit, 4), (Reg.QUE_Q_BASE_LO u.unit, 8),
      (Reg.QUE_Q_BASE_HI u.unit, 12)]
    let opens := d.comes 9 1 4096 u
    let shuts := d.comes 9 2 4096 u
    let ended := fun (q : Nat) (d' : Device) => ∀ z, z < 32 → d'.zjob z = (d.zjob z).map (fun j =>
      if d.zLive z ∧ zKind j.desc = 1 ∧ zSrcQ j.desc = q ∧ j.inEnd = false then { j with inEnd := true, trunc := true } else j)
    let off := fun (q : Nat) (d' : Device) => d'.queue q = {} ∧ d'.qOn q = false ∧ (∀ p, p ≠ q → d'.queue p = d.queue p) ∧ ended q d'
    (x.filling = none → d.casRole = caNone → Gives (.recordComplete q) s id) ∧
    (x.filling = some r → d.casRole = caNone → d.isSet (F.QUE_Q_CFG_HOST q) = true →
      Gives (.recordComplete q) s (fun _ => wrote.qIrq q)) ∧
    (x.filling = some r → d.isSet (F.QUE_Q_CFG_HOST q) = false → Gives (.recordComplete q) s (fun _ =>
      ((wrote.notify (d.fld (F.QUE_Q_CFG_ENGINE q)) (evEntry 17 q 0 r.seq)).qIrq q).casForward q)) ∧
    (due → Gives (.slotRefill q n unc) s (fun _ => if bad then got.flag F.QUE_FLAGS_POISON Reg.QUE_POISON_CNT else got)) ∧
    (¬due → Gives (.slotRefill q n unc) s id) ∧
    (isOpen → (x.next = some r → Gives (.qwCtlAdvance q) s (fun d =>
        (d.setQueue q { x with rd := r.start + r.slots, view := 0 }).qSettle q)) ∧
      (x.next = none → Gives (.qwCtlAdvance q) s (fun d => d.setQueue q { x with view := 0 })) ∧
      Gives (.qwCtlMark q) s (fun d => d.setQueue q { x with m := x.rd }) ∧
      Gives (.qwCtlRewind q) s (fun d => ((d.setQueue q { x with rd := x.m, view := 0 }).qSettle q).qIrq q) ∧
      Gives (.qwCtlRelease q) s (fun d =>
        (d.setQueue q { x with f := x.rd, m := max x.m x.rd, recs := x.recs.filter (fun r => decide (x.rd ≤ r.start)) }).qSettle q)) ∧
    (¬isOpen → Gives (.qwCtlAdvance q) s Device.badAccess ∧ Gives (.qwCtlMark q) s Device.badAccess ∧
      Gives (.qwCtlRewind q) s Device.badAccess ∧ Gives (.qwCtlRelease q) s Device.badAccess) ∧
    (q < 4096 → d.rdN (Reg.QUE_Q_THRESH q) ≤ x.records → vec < 2 ^ 11 → Reaches (.queQIrqArm q vec) s (fun d' =>
      d' = (armed.setFld (F.QUE_Q_IRQ_ARM q) 0).msix (armed.fld (F.QUE_Q_IRQ_VEC q)))) ∧
    (q < 4096 → x.records < d.rdN (Reg.QUE_Q_THRESH q) → Gives (.queQIrqArm q vec) s (fun _ => armed)) ∧
    (q < 4096 → code d q = 0 → Gives (.queQCtlEnable q) s (fun d =>
      (enabled d q).wr Reg.QUE_ENABLED ((enabled d q).rdN Reg.QUE_ENABLED + 1))) ∧
    (q < 4096 → code d q ≠ 0 → Gives (.queQCtlEnable q) s (fun d => d.setFld (F.QUE_Q_STAT_CODE q) (code d q))) ∧
    (opens → taken.qOn u.unit = true → Gives (.queEnable u) s (fun _ => taken.complete u.origin cBUSY none)) ∧
    (opens → taken.qOn u.unit = false → code regs u.unit = 0 → Gives (.queEnable u) s (fun _ =>
      ((enabled regs u.unit).wr Reg.QUE_ENABLED ((enabled regs u.unit).rdN Reg.QUE_ENABLED + 1)).complete u.origin cOK none)) ∧
    (opens → taken.qOn u.unit = false → code regs u.unit ≠ 0 → Gives (.queEnable u) s (fun _ =>
      (regs.setFld (F.QUE_Q_STAT_CODE u.unit) (code regs u.unit)).complete u.origin (code regs u.unit) none)) ∧
    (q < 4096 → d.qOn q = true → Reaches (.queQCtlDisable q) s (fun d' => off q d' ∧
      d' = { d with queues := d'.queues, regs := d'.regs, zjobs := d'.zjobs })) ∧
    (q < 4096 → d.qOn q = false → Reaches (.queQCtlDisable q) s (fun d' => ended q d' ∧
      d' = { d.setFld (F.QUE_Q_STAT_CODE q) cOK with zjobs := d'.zjobs })) ∧
    (shuts → taken.qOn u.unit = true → Reaches (.queDisable u) s (fun d' => off u.unit d' ∧
      d'.completions = d.completions ++ [⟨u.e, u.k, cOK, none⟩] ∧
      d' = { taken with queues := d'.queues, regs := d'.regs, zjobs := d'.zjobs, completions := d'.completions })) ∧
    (shuts → taken.qOn u.unit = false → Reaches (.queDisable u) s (fun d' => ended u.unit d' ∧
      d' = { (taken.setFld (F.QUE_Q_STAT_CODE u.unit) cOK).complete u.origin cOK none with zjobs := d'.zjobs }))

/-- R384, R385, R387, R388, R390, R392, R394 to R396. -/
def Obligations.CompressionCommands : Prop :=
  ∀ (s : State) (u : UCmd) (z v : Nat) (poison : Bool) (j : ZJob) (k : UJob) (r : List Byte) (rs : List (List Byte)),
    let d := s.dev
    let taken := d.accept u
    let n := u.unit
    let asHost := fun x : Nat × Device => x.2
    let asEng := fun x : Nat × Device => x.2.complete u.origin x.1 none
    let submit := fun (i : Instr) (d : Device) (z : Nat) (b : List Byte) (fin : Nat × Device → Device) =>
      (d.zCode z b ≠ cOK → Gives i s (fun _ => fin (d.zCode z b, d.setFld (F.CMP_Z_STAT_CODE z) (d.zCode z b)))) ∧
      (d.zCode z b = cOK → Gives i s (fun _ => fin (cOK, (List.range (zGroup b - 1)).foldl (fun d k =>
          (d.setFld (F.CMP_Z_STAT_STATE (z + 1 + k)) 5).setFld (F.CMP_Z_STAT_LEADER (z + 1 + k)) z)
        (((((((d.setZjob z (some { desc := b, ext := zDst b, extLen := zDstLen b, lastIn := d.time })).setFld (F.CMP_Z_STAT_STATE z)
          1).setFld (F.CMP_Z_STAT_CODE z) cOK).wr64 (Reg.CMP_Z_IN_DONE_LO z) 0).wr64 (Reg.CMP_Z_OUT_DONE_LO z) 0).wr
          (Reg.CMP_Z_FRAMES z) 0).setFld (F.CMP_Z_STAT_PENDING_EXT z) 0))))
    let cont := fun (i : Instr) (d : Device) (z addr len : Nat) (fin : Nat × Device → Device) =>
      let none' := firstCode [(decide (len < 65570) || pastEnd addr len, 0x01), (aboveEnd addr, 0x04), (true, 0x11)]
      let bad := len < 65570 ∨ (addr < Config.memSize ∧ Config.memSize < addr + len)
      let meets' := (zKind j.desc = 0 ∧ meets (zSrc j.desc) (zSrcLen j.desc) addr len = true) ∨ meets j.ext j.extLen addr len = true
      (d.zjob z = none → Gives i s (fun _ => fin (none', d.setFld (F.CMP_Z_STAT_CODE z) none'))) ∧
      (d.zjob z = some j → bad → Gives i s (fun _ => fin (cLENGTH, d.setFld (F.CMP_Z_STAT_CODE z) cLENGTH))) ∧
      (d.zjob z = some j → ¬bad → addr < Config.memSize → ¬meets' → j.pend = none → zLevel j.desc = 0 →
        (d.zState z = 1 → Gives i s (fun _ => fin (cOK, ((d.setFld (F.CMP_Z_STAT_CODE z) cOK).setZjob z
          (some { j with pend := some (addr, len) })).setFld (F.CMP_Z_STAT_PENDING_EXT z) 1))) ∧
        (d.zState z = 2 → Gives i s (fun _ => fin (cOK, (((d.setFld (F.CMP_Z_STAT_CODE z) cOK).setFld (F.CMP_Z_STAT_STATE z) 1).setFld
          (F.CMP_Z_STAT_CODE z) cOK).zWrite z (2 * j.held.length + 4) { j with ext := addr, extLen := len, used := 0 })))) ∧
      (d.zjob z = some j → ¬bad → meets' → Gives i s (fun _ => fin (cOVERLAP, d.setFld (F.CMP_Z_STAT_CODE z) cOVERLAP))) ∧
      (d.zjob z = some j → ¬bad → addr < Config.memSize → ¬meets' → j.pend ≠ none →
        Gives i s (fun _ => fin (cBUSY, d.setFld (F.CMP_Z_STAT_CODE z) cBUSY))) ∧
      (d.zjob z = some j → ¬bad → addr < Config.memSize → ¬meets' → j.pend = none → zLevel j.desc ≠ 0 →
        Gives i s (fun _ => fin (cNOTARMED, d.setFld (F.CMP_Z_STAT_CODE z) cNOTARMED)))
    let ends := fun (i : Instr) (d : Device) (z : Nat) (fin : Nat × Device → Device) =>
      (d.zjob z = none ∨ d.zLive z = false → Gives i s (fun _ => fin (cNOTARMED, d.setFld (F.CMP_Z_STAT_CODE z) cNOTARMED))) ∧
      let cut := (d.setFld (F.CMP_Z_STAT_CODE z) cOK).zDeflateAll (ZJob.cutAll (j.opened.length / 65536 + 1) { j with inEnd := true })
      (d.zjob z = some j → d.zState z = 1 ∨ d.zState z = 2 → j.fin ≠ none → Gives i s (fun _ => fin (cOK, d))) ∧
      (d.zjob z = some j → d.zState z = 1 ∨ d.zState z = 2 → j.fin = none → zLevel j.desc ≠ 0 →
        Gives i s (fun _ => fin (cOK, d.zFail z j 5 cOK))) ∧
      (d.zjob z = some j → d.zState z = 2 → j.fin = none → zLevel j.desc = 0 → Gives i s (fun _ =>
        fin (cOK, cut.2.setZjob z (some cut.1)))) ∧
      (d.zjob z = some j → d.zState z = 1 → j.fin = none → zLevel j.desc = 0 → Gives i s (fun _ =>
        fin (cOK, cut.2.zWrite z (2 * cut.1.held.length + 4) cut.1))) ∧ (cut.1.opened = [] ∧ cut.1.inEnd = true ∧ cut.1.work = [])
    let usub := fun (i : Instr) (d : Device) (v : Nat) (b : List Byte) (fin : Nat × Device → Device) =>
      let shown := d.setFld (F.CMP_U_STAT_CODE v) (d.uCode v b)
      (d.uCode v b ≠ cOK → Gives i s (fun _ => fin (d.uCode v b, shown))) ∧
      (d.uCode v b = cOK → uKind b = 0 → Gives i s (fun _ => fin (cOK,
        ((((shown.setUjob v (some { desc := b })).setFld (F.CMP_U_STAT_STATE v) 1).wr64 (Reg.CMP_U_IN_DONE_LO v) 0).wr64
          (Reg.CMP_U_OUT_DONE_LO v) 0).wr (Reg.CMP_U_FRAMES v) 0))) ∧
      (d.uCode v b = cOK → uKind b = 1 → Gives i s (fun _ => fin (cOK,
        let t := uStream b
        let y := (((((shown.setUjob v (some { desc := b })).setFld (F.CMP_U_STAT_STATE v) 1).wr64 (Reg.CMP_U_IN_DONE_LO v) 0).wr64
          (Reg.CMP_U_OUT_DONE_LO v) 0).wr (Reg.CMP_U_FRAMES v) 0).sAcquire t
        ((y.setStream t { y.stream t with replay := some v, replayEnd := none }).request .streamStart t (uAt b) .device []).showPending t)))
    let uends := fun (i : Instr) (d : Device) (v : Nat) (fin : Nat × Device → Device) =>
      (d.ujob v = none ∨ d.uState v ≠ 1 → Gives i s (fun _ => fin (cNOTARMED, d.setFld (F.CMP_U_STAT_CODE v) cNOTARMED))) ∧
      (d.ujob v = some k → d.uState v = 1 → k.fin ≠ none → Gives i s (fun _ => fin (cOK, d))) ∧
      (d.ujob v = some k → d.uState v = 1 → k.fin = none → uKind k.desc = 0 → Gives i s (fun _ => fin (cOK, d.uFinish v k 5 cOK))) ∧
      (d.ujob v = some k → d.uState v = 1 → k.fin = none → uKind k.desc ≠ 0 → Gives i s (fun _ =>
        fin (cOK, (d.uStopStream (uStream k.desc)).replayCheck)))
    (z < 32 → submit (.cmpZCtlGo z) d z (d.descWords (Reg.CMP_Z_DESC_W z 0)) asHost ∧
      cont (.cmpZCtlCont z) d z (d.rd64 (Reg.CMP_Z_CONT_ADDR_LO z)) (d.rdN (Reg.CMP_Z_CONT_LEN z)) asHost ∧ ends (.cmpZCtlEnd z) d z asHost) ∧
    (d.comes 0x0A 1 32 u → submit (.cmpSubmit u) taken n u.block asEng) ∧
    (d.comes 0x0A 2 32 u → cont (.cmpCont u) taken n (u.dword 0) (u.word 8) asEng) ∧
    (d.comes 0x0A 3 32 u → ends (.cmpEnd u) taken n asEng) ∧
    (v < 8 → usub (.cmpUCtlGo v) d v (d.descWords (Reg.CMP_U_DESC_W v 0)) asHost ∧ uends (.cmpUCtlEnd v) d v asHost) ∧
    (d.comes 0x0A 4 8 u → usub (.cmpDsubmit u) taken n u.block asEng) ∧ (d.comes 0x0A 5 8 u → uends (.cmpDend u) taken n asEng) ∧
    (z < 32 → d.zState z ≠ 5 → d.zjob z = none ∨ (d.zjob z = some j ∧ ((d.zState z ≠ 1 ∧ d.zState z ≠ 2) ∨ j.recs ≠ [])) →
      Gives (.compressFrameDone z poison) s id) ∧
    (d.zjob z = none ∨ (d.zjob z = some j ∧ (d.zState z ≠ 1 ∨ j.recs ≠ [])) → Gives (.compressFlushTimeout z) s id) ∧
    (∀ lead, z < 32 → (d.zState z = 5 ∧ lead = d.fld (F.CMP_Z_STAT_LEADER z)) ∨ (d.zState z ≠ 5 ∧ lead = z) →
      d.zjob lead = some j → j.recs = [] →
      (d.zState lead = 1 → Gives (.compressFrameDone z poison) s (fun _ =>
        let b := d.zBad poison j
        let f := Device.zFill 34 b.2 b.1
        let c := f.2.zDeflate (z - lead) f.1
        c.2.zWrite lead (2 * c.1.held.length + 4) c.1)) ∧
      (d.zState lead = 2 → Gives (.compressFrameDone z poison) s (fun _ =>
        (d.zDeflate (z - lead) j).2.setZjob lead (some (d.zDeflate (z - lead) j).1)))) ∧
    (∀ w m, j.work.find? (fun w => decide (w.1 % max 1 (zGroup j.desc) = m)) = some w →
      (d.zDeflate m j).1 = { j with work := j.work.erase w,
                                    held := j.held ++ [(w.1, (frameOf (zLevel j.desc) w.1 w.2.2 w.2.1).2, w.2.1.length)] } ∧
      (d.zDeflate m j).2 = (let y := d.add64 Reg.CMP_IN_LO w.2.1.length
        if (frameOf (zLevel j.desc) w.1 w.2.2 w.2.1).1 then y.flag F.CMP_FLAGS_RAW Reg.CMP_RAW_CNT else y)) ∧
    (z < 32 → d.zjob z = some j → d.zState z = 1 → j.recs = [] → zKind j.desc = 1 → zFlush j.desc ≠ 0 →
      (timeLE (j.lastIn + nsTime (zFlush j.desc)) d.time = true →
        timeLE ((d.queue (zSrcQ j.desc)).arrive + nsTime (zFlush j.desc)) d.time = true →
        Gives (.compressFlushTimeout z) s (fun _ =>
          let f := Device.zFill 34 d j
          f.2.setZjob z (some (if f.1.spare && !f.1.opened.isEmpty then f.1.cut else f.1)))) ∧
      (timeLE (j.lastIn + nsTime (zFlush j.desc)) d.time = false ∨
        timeLE ((d.queue (zSrcQ j.desc)).arrive + nsTime (zFlush j.desc)) d.time = false →
        Gives (.compressFlushTimeout z) s id)) ∧
    (d.ujob v = none ∨ (d.ujob v = some k ∧ (d.uState v ≠ 1 ∨ k.recs ≠ [] ∨ uSrcLen k.desc ≤ k.pos)) →
      Gives (.decompressFrameDone v) s id) ∧
    (∀ m out, v < 8 → d.ujob v = some k → d.uState v = 1 → k.recs = [] → k.pos < uSrcLen k.desc → uKind k.desc = 0 →
      readFrame (memBytes d.mem (uSrc k.desc + k.pos) (uSrcLen k.desc - k.pos)) = .ok (m, out) → m < uSrcLen k.desc - k.pos →
      d.rd64 (Reg.CMP_U_OUT_DONE_LO v) + out.length ≤ uDstLen k.desc →
      Reaches (.decompressFrameDone v) s (fun d' => d'.ujob v = some { k with pos := k.pos + m } ∧
        d'.mem = memWrite d.mem (uDst k.desc + d.rd64 (Reg.CMP_U_OUT_DONE_LO v)) out ∧
        d' = { d with mem := d'.mem, poison := d'.poison, latAt := d'.latAt, regs := d'.regs, ujobs := d'.ujobs })) ∧
    (z < 32 → d.zjob z = some j → j.recs = r :: rs →
      let left := { j with recs := rs }
      let pushed := (d.qAccept (zNq j.desc) r (slotsOf r.length) 0x0A z).setZjob z (some left)
      (d.qRoom (zNq j.desc) (slotsOf r.length) = true →
        (rs ≠ [] → Gives (.compressedRecordPush z) s (fun _ => pushed)) ∧
        (∀ e, rs = [] → j.fin = some e → Gives (.compressedRecordPush z) s (fun _ => pushed.zOver z e.1 e.2)) ∧
        (rs = [] → j.fin = none → pushed.zState z = 1 →
          Gives (.compressedRecordPush z) s (fun _ => pushed.zWrite z (2 * j.held.length + 4) left)) ∧
        (rs = [] → j.fin = none → pushed.zState z ≠ 1 → Gives (.compressedRecordPush z) s (fun _ => pushed))) ∧
      (d.qRoom (zNq j.desc) (slotsOf r.length) = false → Gives (.compressedRecordPush z) s id)) ∧
    (v < 8 → d.ujob v = some k → k.recs = r :: rs →
      let pushed := (d.qAccept (zNq k.desc) r (slotsOf r.length) 0x0A (32 + v)).setUjob v (some { k with recs := rs })
      (d.qRoom (zNq k.desc) (slotsOf r.length) = true →
        (rs ≠ [] ∨ k.fin = none → Gives (.compressedRecordPush (32 + v)) s (fun _ => pushed)) ∧
        (∀ e, rs = [] → k.fin = some e → Gives (.compressedRecordPush (32 + v)) s (fun _ => pushed.uOver v e.1 e.2))) ∧
      (d.qRoom (zNq k.desc) (slotsOf r.length) = false → Gives (.compressedRecordPush (32 + v)) s id))

/-- R404, R408, R409, R411 to R416, R419. -/
def Obligations.MemoryCommands : Prop :=
  ∀ (s : State) (u : UCmd) (a port age kind p : Nat),
    let d := s.dev
    let taken := d.accept u
    let w := a / 32
    let serves := d.fld F.MEM_STAT_STATE = 2
    let read := fun (port : Nat) => ((d.promote port age).timed (Reg.MEM_CLASS_LAT (portClass port))).moved (portClass port)
    let clean := fun (d : Device) (w : Nat) => ({ d with memc := { d.memc with hot := d.memc.hot.filter (fun x => decide (x ≠ w)) } } : Device)
    (serves → a < Config.memSize → port ≤ 42 → ∀ q, q = clean (read port) w →
      (3 ≤ port ∨ q.poisoned (32 * w) 32 = false → Gives (.memReadComplete a port 0 age) s (fun _ => q)) ∧
      (port ≤ 2 → q.poisoned (32 * w) 32 = true → Gives (.memReadComplete a port 0 age) s (fun _ =>
        (q.memLog (32 * w) 1 port 0).inc Reg.MEM_POISON_READ_CNT))) ∧
    (serves → a < Config.memSize → 3 ≤ port → port ≤ 42 → ∀ q r, q = read port → r = countCe q.memc.rowCe (memRow (32 * w)) →
      ∀ c, c = (({ clean q w with memc := { (clean q w).memc with rowCe := r.2 } } : Device).flag F.MEM_FLAGS_CE
        Reg.MEM_CE_CNT).memLog (32 * w) 0 port 0 →
      (q.fld F.MEM_REPAIR_CFG_CE_THRESH = 0 ∨ r.1 ≠ q.fld F.MEM_REPAIR_CFG_CE_THRESH →
        Gives (.memReadComplete a port 1 age) s (fun _ => c)) ∧
      (q.fld F.MEM_REPAIR_CFG_CE_THRESH ≠ 0 → r.1 = q.fld F.MEM_REPAIR_CFG_CE_THRESH →
        Gives (.memReadComplete a port 1 age) s (fun _ => c.autoRepair (32 * w) port))) ∧
    (serves → a < Config.memSize → 3 ≤ port → port ≤ 42 → (read port).isSet F.MEM_FLAGS_UE = true →
      Gives (.memReadComplete a port 2 age) s (fun _ =>
        (((((read port).flag F.MEM_FLAGS_UE Reg.MEM_UE_CNT).poisonAdd w).memLog (32 * w) 1 port 0).autoRepair (32 * w) port))) ∧
    (¬serves ∨ Config.memSize ≤ a ∨ 42 < port → Gives (.memReadComplete a port kind age) s id) ∧
    (serves → d.memc.scrub = none → d.isSet F.MEM_SCRUB_CFG_EN = false → Gives (.scrubRead kind age) s id) ∧
    (serves → d.memc.scrub = none → d.isSet F.MEM_SCRUB_CFG_EN = true → d.rd64 Reg.MEM_SCRUB_POS_LO = a → a ≠ 0 →
      (a + 32 < Config.memSize → Gives (.scrubRead kind age) s (fun d => (d.memRead a 42 kind age).wr64 Reg.MEM_SCRUB_POS_LO (a + 32))) ∧
      (Config.memSize ≤ a + 32 → Gives (.scrubRead kind age) s (fun d => (d.memRead a 42 kind age).wr64 Reg.MEM_SCRUB_POS_LO 0))) ∧
    (serves → d.memc.scrub = none → d.isSet F.MEM_SCRUB_CFG_EN = true → d.rd64 Reg.MEM_SCRUB_POS_LO = 0 →
      Gives (.scrubRead kind age) s (fun d =>
        (Device.memRead { d with memc := { d.memc with rowCe := [] } } 0 42 kind age).wr64 Reg.MEM_SCRUB_POS_LO 32)) ∧
    (∀ e o, serves → d.memc.scrub = some (a, e, o) →
      (a + 32 < e → Reaches (.scrubRead kind age) s (fun d' => d'.memc.scrub = some (a + 32, e, o) ∧
        ∀ x, x = d.memRead a 42 kind age → d' = { x with memc := d'.memc } ∧ d'.memc = { x.memc with scrub := some (a + 32, e, o) })) ∧
      (e ≤ a + 32 → Reaches (.scrubRead kind age) s (fun d' => d'.memc.scrub = none ∧
        ∀ x, x = d.memRead a 42 kind age →
          d' = ({ x with memc := { x.memc with scrub := none } } : Device).complete o cOK none))) ∧
    (¬serves → Gives (.scrubRead kind age) s id ∧ Gives (.phyTrackingUpdate p age) s id) ∧
    (serves → p < 64 → Gives (.phyTrackingUpdate p age) s (fun d => d.promote 42 age)) ∧
    (∀ soft hard, let at' := d.rd64 Reg.MEM_REPAIR_ADDR_LO
      let c := d.repairCode at' soft hard
      (soft = true → c ≠ cOK → Gives (.memRepairCtlSoft hard) s (fun d => d.setFld F.MEM_REPAIR_STAT_CODE c)) ∧
      (soft = true → c = cOK → Reaches (.memRepairCtlSoft hard) s (fun d' => d'.memc.repair = some (memRow at', .host) ∧
        d'.fld F.MEM_REPAIR_STAT_BUSY = 1 ∧ d'.fld F.MEM_REPAIR_CTL_SOFT = 1 ∧ d'.fld F.MEM_REPAIR_STAT_CODE = cOK ∧
        d' = { d with regs := d'.regs, memc := d'.memc })) ∧
      (hard = true → c ≠ cOK → Gives (.memRepairCtlHard soft) s (fun d => d.setFld F.MEM_REPAIR_STAT_CODE c)) ∧
      (hard = true → c = cOK → soft = false → memRow at' ∉ d.memc.pend →
        Reaches (.memRepairCtlHard soft) s (fun d' => d'.memc.pend = d.memc.pend ++ [memRow at'] ∧
          d'.fld F.MEM_REPAIR_STAT_PENDING = (d.memc.pend.length + 1) % 128 ∧ d'.fld F.MEM_REPAIR_STAT_CODE = cOK ∧
          d' = { d with regs := d'.regs, memc := d'.memc }))) ∧
    (∀ c, c = taken.repairCode (u.dword 0) (bitAt (u.word 8) 0) (bitAt (u.word 8) 1) → d.comes 0x0B 1 1 u →
      (c ≠ cOK → Gives (.memRepair u) s (fun _ => (taken.setFld F.MEM_REPAIR_STAT_CODE c).complete u.origin c none)) ∧
      (c = cOK → bitAt (u.word 8) 0 = true → Gives (.memRepair u) s (fun _ =>
        (taken.setFld F.MEM_REPAIR_STAT_CODE cOK).softStart (u.dword 0) u.origin)) ∧
      (c = cOK → bitAt (u.word 8) 0 = false → Gives (.memRepair u) s (fun _ =>
        ((taken.setFld F.MEM_REPAIR_STAT_CODE cOK).hardPend (u.dword 0)).complete u.origin cOK none))) ∧
    (∀ x n, d.comes 0x0B 2 1 u → u.dword 0 = x → u.word 8 = n →
      (n ≠ 0 → x + n ≤ Config.memSize → x % 32 = 0 → n % 32 = 0 → d.memc.scrub = none →
        Reaches (.memScrub u) s (fun d' => d'.memc.scrub = some (x, x + n, u.origin) ∧ d' = { taken with memc := d'.memc } ∧
          d'.memc = { d.memc with scrub := d'.memc.scrub })) ∧
      (n = 0 → x % 32 = 0 → x < Config.memSize → Gives (.memScrub u) s (fun _ => taken.complete u.origin cLENGTH none)) ∧
      (n ≠ 0 → x + n ≤ Config.memSize → x % 32 ≠ 0 ∨ n % 32 ≠ 0 → Gives (.memScrub u) s (fun _ => taken.complete u.origin cALIGN none)) ∧
      (n ≠ 0 → n % 32 = 0 → x % 32 = 0 → Config.memSize ≤ x → Gives (.memScrub u) s (fun _ => taken.complete u.origin cREGION none)) ∧
      (n ≠ 0 → x + n ≤ Config.memSize → x % 32 = 0 → n % 32 = 0 → d.memc.scrub.isSome = true →
        Gives (.memScrub u) s (fun _ => taken.complete u.origin cBUSY none))) ∧
    (d.memc.repair = none → Gives .softRepairDone s id) ∧
    (∀ r o, r < 2 ^ 26 → d.memc.repair = some (r, o) → r ∉ d.memc.soft →
      Reaches .softRepairDone s (fun d' => d'.memc.repair = none ∧ d'.memc.soft = d.memc.soft ++ [r] ∧
        d'.fld F.MEM_REPAIR_STAT_BUSY = 0 ∧ d'.rdN Reg.MEM_REPAIR_CNT = min (d.rdN Reg.MEM_REPAIR_CNT + 1) 0xFFFFFFFF ∧
        (o = .host → d'.fld F.MEM_REPAIR_CTL_SOFT = 0) ∧
        d'.poison = (d.rowPoison r).poison ∧
        d'.completions = d.completions ++ (match o with | .port e k => [⟨e, k, cOK, none⟩] | _ => []) ∧
        d' = { d with regs := d'.regs, memc := d'.memc, poison := d'.poison, completions := d'.completions }))

/-- R432, R439 to R442. -/
def Obligations.DmaChannelCommands : Prop :=
  ∀ (s : State) (u : UCmd) (r c v moved : Nat),
    let d := s.dev
    let taken := d.accept u
    let n := u.unit
    let shown := fun r code => (d.setFld F.DMA_RGN_CTL_INDEX r).setFld F.DMA_RGN_STAT_CODE code
    let ahead := fun (d : Device) c t => (t + 65536 - d.dmaHead c) % 65536
    let good := fun (d : Device) c t => ahead d c (t % 65536) ≤ bitsOf (d.rdN (Reg.DMA_C_RING_SIZE c)) 0 17 ∧
      ahead d c (d.dmaTail c) ≤ ahead d c (t % 65536)
    let wrong := fun (d : Device) c => (d.inc (Reg.DMA_C_DB_ERR c)).flag F.DMA_FLAGS_DOORBELL_ERR Reg.DMA_DB_ERR_CNT
    let enabled := fun (i : Instr) (d : Device) c fin => ∀ code, code = d.dmaCode c →
      (code ≠ cOK → Gives i s (fun _ => fin (d.setFld (F.DMA_C_STAT_CODE c) code) code)) ∧
      (code = cOK → Gives i s (fun _ => fin ((((((((d.setFld (F.DMA_C_STAT_CODE c) cOK).setDma c none).setFld (F.DMA_C_CFG_EN c) 1).setFld
        (F.DMA_C_STAT_STATE c) 1).wr (Reg.DMA_C_HEAD c) 0).wr (Reg.DMA_C_TAIL c) 0).wr64 (Reg.DMA_C_BYTES_LO c) 0).wr
          (Reg.DMA_C_DESC_CNT c) 0) cOK))
    let part := fun (d : Device) c => match d.dma c with
      | some j => if j.fetching = false ∧ j.code = cOK ∧ (dsOp j.desc = 1 ∨ dsOp j.desc = 2) then (d.dsMove c j moved).2 else d
      | none => d
    let rang := fun (d : Device) c t =>
      let y := d.wr (Reg.DMA_C_TAIL c) (t % 65536)
      if y.fld (F.DMA_C_STAT_STATE c) = 1 ∧ y.dmaHead c ≠ t % 65536 then y.setFld (F.DMA_C_STAT_STATE c) 2 else y
    let dropped := fun (i : Instr) (d : Device) c (o : List Completion) =>
      (d.dmaOn c = false → Reaches i s (fun d' => d' = { d with completions := d.completions ++ o })) ∧
      (d.dmaOn c = true → Reaches i s (fun d' => ∃ y : Device, y = part d c ∧ d'.dma c = none ∧ d'.dmaOn c = false ∧
        d'.fld (F.DMA_C_STAT_STATE c) = 0 ∧ (∀ k, k ≠ c → d'.dma k = y.dma k) ∧ d'.freeCount = y.freeCount + 3 ∧
        d'.dmaHead c = Config.free y.freeCount % 65536 ∧ d'.rd64 (Reg.DMA_C_BYTES_LO c) = Config.free (y.freeCount + 1) % 2 ^ 64 ∧
        d'.rdN (Reg.DMA_C_DESC_CNT c) = Config.free (y.freeCount + 2) % 2 ^ 32 ∧
        d' = { y with regs := d'.regs, dmas := d'.dmas, freeCount := d'.freeCount, completions := y.completions ++ o }))
    (∀ code, r < 256 → code = d.rgnCode r →
      (code ≠ cOK → Gives (.dmaRgnCtlSet r) s (fun _ => shown r code)) ∧
      (code = cOK → Reaches (.dmaRgnCtlSet r) s (fun d' => d'.rgnValid r = true ∧ d'.rgnSet r = d.rgnRegs r ∧
        (∀ k, k ≠ r → d'.rgnSet k = d.rgnSet k) ∧
        d' = ({ shown r cOK with regions := d'.regions } : Device).setFld (F.DMA_R_CFG_VALID r) 1))) ∧
    (r < 256 → (d.rgnUsed r = true → Gives (.dmaRgnCtlClear r) s (fun _ => shown r cBUSY)) ∧
      (d.rgnUsed r = false → Reaches (.dmaRgnCtlClear r) s (fun d' => d'.rgnValid r = false ∧ d'.rgnSet r = [] ∧
        (∀ k, k ≠ r → d'.rgnSet k = d.rgnSet k) ∧
        d' = ({ shown r cOK with regions := d'.regions } : Device).setFld (F.DMA_R_CFG_VALID r) 0))) ∧
    (c < 64 → enabled (.dmaCCfgEnable c v) (d.dmaCfg c v) c (fun x _ => x) ∧ dropped (.dmaCCfgDisable c v moved) (d.dmaCfg c v) c []) ∧
    (d.comes 0x0C 1 64 u → taken.dmaOn n = true → Gives (.dmaEnable u) s (fun _ => taken.complete u.origin cBUSY none)) ∧
    (d.comes 0x0C 1 64 u → taken.dmaOn n = false → enabled (.dmaEnable u) ((taken.dmaCfg n (u.word 0)).wrBlock u
      [(Reg.DMA_C_RING_LO n, 8), (Reg.DMA_C_RING_HI n, 12), (Reg.DMA_C_RING_SIZE n, 16)]) n (fun x code => x.complete u.origin code none)) ∧
    (d.comes 0x0C 2 64 u → dropped (.dmaDisable u moved) taken n [⟨u.e, u.k, cOK, none⟩]) ∧
    (c < 64 →
      (d.dmaOn c = false → Gives (.dmaCTailWrite c v) s Device.badAccess) ∧
      (d.dmaOn c = true → good d c v → Gives (.dmaCTailWrite c v) s (fun d => rang d c v)) ∧
      (d.dmaOn c = true → ¬good d c v → Gives (.dmaCTailWrite c v) s (fun d => wrong d c)) ∧
      (d.fld (F.DMA_C_STAT_STATE c) = 3 → d.dmaHead c = d.dmaTail c →
        Gives (.dmaCCtlResume c) s (fun d => d.setFld (F.DMA_C_STAT_STATE c) 1)) ∧
      (d.fld (F.DMA_C_STAT_STATE c) = 3 → d.dmaHead c ≠ d.dmaTail c →
        Gives (.dmaCCtlResume c) s (fun d => d.setFld (F.DMA_C_STAT_STATE c) 2)) ∧
      (d.fld (F.DMA_C_STAT_STATE c) ≠ 3 → Gives (.dmaCCtlResume c) s id)) ∧
    (d.comes 0x0C 3 64 u →
      (taken.dmaOn n = false → Gives (.dmaDoorbell u) s (fun _ => taken.badAccess.complete u.origin cNOTARMED none)) ∧
      (taken.dmaOn n = true → good taken n u.imm →
        Gives (.dmaDoorbell u) s (fun _ => (rang taken n u.imm).complete u.origin cOK none)) ∧
      (taken.dmaOn n = true → ¬good taken n u.imm →
        Gives (.dmaDoorbell u) s (fun _ => (wrong taken n).complete u.origin cLENGTH none)))

/-- R424, R427 to R429, R433 to R435, R438, R441, R447, R448. -/
def Obligations.DescriptorsAndLink : Prop :=
  ∀ (s : State) (c a b n f v speed width kind off status : Nat) (j : DmaJob) (side flit : Bool) (data : List Byte),
    let d := s.dev
    let ring := d.rgnMap (d.ringAt c (d.dmaHead c))
    let backBytes := fun (j : DmaJob) code fl result => bytesLE 1 code ++ bytesLE 1 fl ++ bytesLE 2 0 ++ bytesLE 4 (dsTag j.desc) ++
      bytesLE 8 result
    let outranked := ∃ k, k < 64 ∧ d.dmaServes k = true ∧ d.fld (F.DMA_C_CFG_PRI c) < d.fld (F.DMA_C_CFG_PRI k)
    let marked := j.poison || decide (status = 1)
    let after := fun (d : Device) => (((d.setDma c none).wr (Reg.DMA_C_HEAD c) ((d.dmaHead c + 1) % 65536)).inc (Reg.DMA_C_DESC_CNT c))
    (d.dmaReady c = false → Gives (.descriptorFetch c) s id) ∧
    (outranked → Gives (.descriptorFetch c) s id) ∧
    (d.dmaReady c = true → ¬outranked → ring = .dev a →
      Gives (.descriptorFetch c) s (fun d => (d.moved 4).dsStart c (memBytes d.mem a 64) false)) ∧
    (d.dmaReady c = true → ¬outranked → ring = .host a → d.linkOpen = true → d.dmaOutAll < 1024 → Reaches (.descriptorFetch c) s (fun d' =>
      d'.dma c = some { fetching := true } ∧ d'.outbox = d.outbox ++ [.hostReadReq a 64 false] ∧ d'.fld (F.DMA_C_STAT_STATE c) = 2 ∧
      d' = { d with dmas := d'.dmas, outbox := d'.outbox, regs := d'.regs })) ∧
    (ring = .host a → d.linkOpen = false ∨ 1024 ≤ d.dmaOutAll → Gives (.descriptorFetch c) s id) ∧
    (d.dma c = none → Gives (.descriptorComplete c) s id) ∧
    (d.dma c = some j → j.fetching = true → Gives (.descriptorComplete c) s id) ∧
    (d.dma c = some j → d.supplied j = false → Gives (.descriptorComplete c) s (fun d => Device.dsAsk c 256 d)) ∧
    -- A descriptor that its checks refuse (R434, R441).
    (c < 64 → d.dma c = some j → j.fetching = false → j.code ≠ cOK → j.hostErr = false → j.poison = false → dsCtl j.desc 10 1 = 0 →
      ring = .dev a → Gives (.descriptorComplete c) s (fun d =>
        ((((after ((d.store (a + 0x30) (backBytes j j.code 1 0)).moved 4)).setFld (F.DMA_C_STAT_STATE c) 3).setFld (F.DMA_C_STAT_CODE c)
          j.code).flag F.DMA_FLAGS_ERROR Reg.DMA_ERR_CNT).dmaGo)) ∧
    -- A FILL of device memory (R435).
    (c < 64 → d.dma c = some j → j.fetching = false → j.code = cOK → j.hostErr = false → j.poison = false → j.wrote = 0 →
      dsCtl j.desc 10 1 = 0 → dsOp j.desc = 2 → dsDstFix j.desc = false → j.dst = .dev b → dsLen j.desc = n → n ≠ 0 → ring = .dev a →
      Reaches (.descriptorComplete c) s (fun d' => ∀ x y : Device,
        x = ((d.storeFrom b b ((List.range n).map (fun i => j.desc.getD (0x18 + i % max 1 (dsPlen j.desc)) 0))).moved 4).add64
          (Reg.DMA_C_BYTES_LO c) n →
        y = after ((x.store (a + 0x30) (backBytes j cOK 1 n)).moved 4) →
        d' = (y.setFld (F.DMA_C_STAT_STATE c) (if y.dmaHead c = y.dmaTail c then 1 else 2)).dmaGo)) ∧
    -- A COPY within device memory, out of no poisoned codeword (R435), of the bytes of one codeword.
    (c < 64 → d.dma c = some j → j.fetching = false → j.code = cOK → j.hostErr = false → j.poison = false → j.wrote = 0 →
      dsCtl j.desc 10 1 = 0 → dsOp j.desc = 1 → dsSrcFix j.desc = false → dsDstFix j.desc = false → j.src = .dev f → j.dst = .dev b →
      dsLen j.desc = n → n ≠ 0 → f % 32 + n ≤ 32 → d.poisoned f n = false → ring = .dev a →
      Reaches (.descriptorComplete c) s (fun d' => ∀ x y : Device,
        x = (((d.storeFrom b b ((List.range n).map (fun i => memGet d.mem (f + i)))).moved 4).moved 4).add64 (Reg.DMA_C_BYTES_LO c) n →
        y = after ((x.store (a + 0x30) (backBytes j cOK 1 n)).moved 4) →
        d' = (y.setFld (F.DMA_C_STAT_STATE c) (if y.dmaHead c = y.dmaTail c then 1 else 2)).dmaGo)) ∧
    -- Answers of the host (R438).
    (Reaches (.hostReadCompletion c side status data) s (fun d' => ∃ x : Device,
      x = (d.timed Reg.HIF_RD_LAT).add64 Reg.HIF_RX_BYTES_LO data.length ∧
      (d.dma c = none ∨ (d.dma c = some j ∧ j.hostErr = true) → d' = x.dmaGo) ∧
      (d.dma c = some j → j.hostErr = false →
        (2 ≤ status → d' = (x.setDma c (some { j with fetching := false, hostErr := true })).dmaGo) ∧
        (status < 2 → j.fetching = true → 64 ≤ data.length → d' = (x.dsStart c (data.take 64) (decide (status = 1))).dmaGo) ∧
        (status < 2 → j.fetching = false → dsOp j.desc = 3 → side = true →
          d' = (x.setDma c (some { j with gotD := (j.gotD ++ data).take (dsLen j.desc), poison := marked })).dmaGo) ∧
        (status < 2 → j.fetching = false → dsOp j.desc = 3 → side = false →
          d' = (x.setDma c (some { j with gotS := (j.gotS ++ data).take (dsLen j.desc), poison := marked })).dmaGo) ∧
        (status = 0 → j.fetching = false → j.poison = false → dsOp j.desc = 1 → side = false → j.src = .host f → j.dst = .dev b →
          dsDstFix j.desc = false → j.wrote + data.length ≤ dsLen j.desc →
          d' = ((((x.storeFrom b (b + j.wrote) data).moved 4).add64 (Reg.DMA_C_BYTES_LO c) data.length).setDma c
            (some { j with wrote := j.wrote + data.length })).dmaGo)))) ∧
    (d.dma c = none → Gives (.completionTimeout c) s id) ∧
    (d.dma c = some j → Gives (.completionTimeout c) s (fun d =>
      ((d.flag F.HIF_FLAGS_CPL_TIMEOUT Reg.HIF_CPL_TIMEOUT_CNT).send (.pcie 3)).setDma c
        (some { j with fetching := false, hostErr := true }))) ∧
    -- The link, the power states and the configuration space.
    (d.linkDown = true → Gives .linkRetrain s id) ∧
    (d.linkDown = false → Reaches .linkRetrain s (fun d' => d'.linkDown = true ∧ d'.fld F.HIF_FLAGS_RETRAIN = 1 ∧
      d'.rdN Reg.HIF_RETRAIN_CNT = min (d.rdN Reg.HIF_RETRAIN_CNT + 1) 0xFFFFFFFF ∧
      d' = { d with linkDown := true, regs := d'.regs })) ∧
    (1 ≤ speed → speed ≤ 6 → width ∈ [1, 4, 8, 16] → Reaches (.pcieLinkTrained speed width flit) s (fun d' => ∃ x : Device, d' = x.dmaGo ∧
      x.fld F.HIF_LINK_STAT_DL_UP = 1 ∧ x.fld F.HIF_LINK_STAT_SPEED = speed ∧ x.fld F.HIF_LINK_STAT_WIDTH = width ∧
      x.fld F.HIF_LINK_STAT_L1 = 0 ∧ (x.fld F.HIF_LINK_STAT_FLIT = if flit then 1 else 0) ∧
      x = { d with linkDown := false, regs := x.regs })) ∧
    (speed = 0 ∨ 6 < speed ∨ width ∉ [1, 4, 8, 16] → Gives (.pcieLinkTrained speed width flit) s id) ∧
    (Gives (.tlpError 0 off data) s (fun d => (d.send (.pcie 0)).flag F.HIF_FLAGS_COR Reg.HIF_COR_CNT)) ∧
    (Gives (.tlpError 1 off data) s (fun d =>
      ((d.send (.pcie 1)).add64 Reg.HIF_RX_BYTES_LO data.length).flag F.HIF_FLAGS_POISON_RX Reg.HIF_POISON_RX_CNT)) ∧
    (3 ≤ kind → Gives (.tlpError kind off data) s (fun d => (d.send (.pcie kind)).flag F.HIF_FLAGS_UNCOR Reg.HIF_UNCOR_CNT)) ∧
    (∀ x : Device, x = ((d.send (.pcie 2)).add64 Reg.HIF_RX_BYTES_LO data.length).flag F.HIF_FLAGS_POISON_RX Reg.HIF_POISON_RX_CNT →
      (d.fld F.SYS_STAT_STATE ∉ [3, 4, 5] → Gives (.tlpError 2 off data) s (fun _ => x.badAccess)) ∧
      (d.fld F.SYS_STAT_STATE ∈ [3, 4, 5] → off + data.length ≤ Config.memSize → off % 32 + data.length ≤ 32 → data ≠ [] →
        Gives (.tlpError 2 off data) s (fun _ => ((x.store off data).moved 4).poisonAdd (off / 32)))) ∧
    (Gives (.powerStateChange true) s (fun d => { d with d3hot := true })) ∧
    (Gives (.powerStateChange false) s (fun d => ({ d with d3hot := false } : Device).msixPending.dmaGo)) ∧
    (11 < f → Gives (.configurationRequest f v) s id) ∧
    (f ≤ 11 → Gives (.configurationRequest f v) s (fun d => ({ d with cfg := Sparse.set cfgReset d.cfg f v } : Device).msixPending))

/-- R452, R455, R457, R462 to R466, R468, R470. -/
def Obligations.RootCommands : Prop :=
  ∀ (s : State) (u : UCmd) (r code mhz : Nat),
    let d := s.dev
    let taken := d.accept u
    let present := d.isSet F.CLK_STAT_REF_PRESENT
    let gone := d.puState (778 + r) = 5
    let chg := d.fld F.CLK_CHANGE_STAT_STATE
    let bit := fun r => if r = 0 then F.CLK_STAT_A_LOCK else F.CLK_STAT_B_LOCK
    let other := 1 - d.fld F.CLK_STAT_ACTIVE
    let stall := fun v (d : Device) =>
      (List.range 8).foldl (fun d o => if d.ckoRef o then d.setFld (F.CKO_STAT_STALLED o) v else d) d
    let lost := (d.setFld (bit r) 0).flag F.CLK_FLAGS_LOCK_LOST Reg.CLK_LOCK_LOST_CNT
    let go := fun (i : Instr) (d : Device) cfg frac seed (at' : Time) o (fin : Nat → Device → Device) => ∀ c, c = d.changeCode cfg frac →
      (c ≠ cOK → Gives i s (fun _ => fin c (d.setFld F.CLK_CHANGE_STAT_CODE c))) ∧
      (c = cOK → d.rotStepOf 8 = none → Reaches i s (fun d' => ∃ y : Device, d' = fin cOK y ∧
        y.roots = { d.roots with nCfg := cfg, nFrac := frac, nSeed := seed, nRef := d.rdN Reg.CLK_REF_FREQ, changeAt := at', origin := some o } ∧
        y.fld F.CLK_CHANGE_STAT_STATE = 1 ∧ y.fld F.CLK_CHANGE_STAT_CODE = cOK ∧ y.isSet F.CLK_STAT_STANDBY_READY = false ∧
        y = { d with regs := y.regs, rot := y.rot, roots := y.roots }))
    (present = false → Gives .refclkLost s id) ∧
    (present = true → Gives .refclkLost s (fun d =>
      let y := ((d.setFld F.CLK_STAT_REF_PRESENT 0).flag F.CLK_FLAGS_REF_LOST Reg.CLK_REF_LOST_CNT).lanePllsLost
      stall 1 (if d.fld F.SYS_STAT_STATE = 1 ∧ d.sys.started = false then
        ((y.setFld F.SYS_STAT_REF_WAIT 1).setFld F.CLK_STAT_A_LOCK 0).setFld F.CLK_STAT_B_LOCK 0 else y))) ∧
    (present = true ∨ d.sys.started = false → Gives .refclkPresent s id) ∧
    (present = false → d.sys.started = true → Gives .refclkPresent s (fun d =>
      stall 0 (d.setFld F.CLK_STAT_REF_PRESENT 1))) ∧
    (1 < r ∨ gone ∨ present = false → Gives (.rootLock r) s id) ∧
    (r < 2 → ¬gone → present = true → d.sys.started = true →
      (d.isSet F.CLK_STAT_HOLDOVER = false → r = other → chg = 0 → d.roots.probe = false → d.puState (778 + r) ≠ 3 →
        Gives (.rootLock r) s (fun d =>
          (({ d.setFld (bit r) 1 with roots := { d.roots with fails := 0 } } : Device).setUState (778 + r) 1 0).setFld
            F.CLK_STAT_STANDBY_READY 1)) ∧
      (d.isSet F.CLK_STAT_HOLDOVER = true → r = other → d.roots.takeover = none → Gives (.rootLock r) s (fun d =>
        { d.setFld (bit r) 1 with roots := { d.roots with fails := 0, takeover := some (r, d.time) } }))) ∧
    (1 < r ∨ d.isSet (bit r) = false → Gives (.rootLockLost r) s id) ∧
    (r < 2 → d.isSet (bit r) = true → d.rotStepOf 8 = none →
      (r ≠ other → d.isSet F.CLK_STAT_HOLDOVER = true → Gives (.rootLockLost r) s (fun _ => lost)) ∧
      (r ≠ other → d.isSet F.CLK_STAT_HOLDOVER = false → d.isSet F.CLK_STAT_STANDBY_READY = true → present = true →
        Gives (.rootLockLost r) s (fun d => (lost.rootSwitch d.time).flag F.CLK_FLAGS_FAILOVER Reg.CLK_FAILOVER_CNT)) ∧
      (r ≠ other → d.isSet F.CLK_STAT_HOLDOVER = false → d.isSet F.CLK_STAT_STANDBY_READY = false ∨ present = false →
        Gives (.rootLockLost r) s (fun d =>
          (((lost.setFld F.CLK_STAT_HOLDOVER 1).flag F.CLK_FLAGS_HOLDOVER Reg.CLK_HOLDOVER_CNT).wrTime Reg.CLK_HOLD_LO d.time).recheck)) ∧
      (r = other → gone → Gives (.rootLockLost r) s (fun _ => lost)) ∧
      (r = other → ¬gone → d.roots.takeover = none → Gives (.rootLockLost r) s (fun _ => lost.standbyOut))) ∧
    (r ≠ other ∨ d.isSet (bit r) = true ∨ gone → Gives (.rootRelockTimeout r) s id) ∧
    (r = other → d.isSet (bit r) = false → ¬gone →
      (d.roots.fails < 2 → Gives (.rootRelockTimeout r) s (fun d => { d with roots := { d.roots with fails := d.roots.fails + 1 } })) ∧
      (2 ≤ d.roots.fails → Gives (.rootRelockTimeout r) s (fun d =>
        ({ d with roots := { d.roots with fails := 0 } } : Device).withdrawUnit (778 + r) 5))) ∧
    go .clkChangeCtlGo d (d.rdN Reg.CLK_NEXT_CFG) (d.rdN Reg.CLK_NEXT_FRAC) (d.rdN Reg.CLK_NEXT_SEED) (d.rdTime Reg.CLK_CHANGE_AT_LO) .host
      (fun c x => if c = cOK then x.setFld F.CLK_CHANGE_CTL_GO 1 else x) ∧
    (d.comes 1 1 1 u → go (.clkChange u) taken (u.word 0) (u.word 4) (u.word 8) (BitVec.ofNat 64 (u.dword 16)) u.origin
      (fun c x => if c = cOK then x else x.complete u.origin c none)) ∧
    (chg ≠ 1 → Gives .changeRetuned s id ∧ Gives .changeLockTimeout s id) ∧
    (chg = 1 → Gives .changeRetuned s (fun d =>
      ((d.setFld F.CLK_CHANGE_STAT_STATE 2).setFld (bit other) 1).request .clkSwitch 0 d.roots.changeAt .device [])) ∧
    (chg = 1 → ∀ x : Device, x = d.flag F.CLK_FLAGS_CHANGE_FAIL Reg.CLK_CHANGE_FAIL_CNT →
      Gives .changeLockTimeout s (fun _ => x.changeEnd cCONDITIONS none)) ∧
    (chg ≠ 3 → Gives .changeSettled s id) ∧
    (∀ e k, chg = 3 → d.roots.origin = some (.port e k) → Reaches .changeSettled s (fun d' =>
      d'.fld F.CLK_CHANGE_STAT_STATE = 0 ∧ d'.fld F.CLK_CHANGE_STAT_CODE = cOK ∧ d'.isSet F.CLK_STAT_STANDBY_READY = true ∧
      d'.isSet (bit other) = true ∧ d'.roots = { d.roots with origin := none } ∧
      d'.completions = d.completions ++ [⟨e, k, cOK, some d.roots.stamp⟩] ∧
      d' = { d with regs := d'.regs, rot := d'.rot, roots := d'.roots, completions := d'.completions })) ∧
    (∀ x : Device, x = d.setFld F.CLK_PROBE_CODE code →
      (d.isSet F.CLK_STAT_STANDBY_READY = false ∨ chg ≠ 0 ∨ d.roots.probe = true →
        Gives (.clkProbeGo code) s (fun _ => x.setFld F.CLK_PROBE_RESULT_CODE cBUSY)) ∧
      (d.isSet F.CLK_STAT_STANDBY_READY = true → chg = 0 → d.roots.probe = false → present = false →
        Gives (.clkProbeGo code) s (fun _ => x.setFld F.CLK_PROBE_RESULT_CODE cREFLOST)) ∧
      (d.isSet F.CLK_STAT_STANDBY_READY = true → chg = 0 → d.roots.probe = false → present = true → d.rotStepOf 8 = none →
        Gives (.clkProbeGo code) s (fun _ => ((({ x.standbyOut with roots := { d.roots with probe := true } } : Device).setFld
          F.CLK_PROBE_GO 1).setFld (bit other) 0)))) ∧
    (d.roots.probe = false → Gives (.probeDone mhz) s id) ∧
    (d.roots.probe = true → Reaches (.probeDone mhz) s (fun d' => d'.roots = { d.roots with probe := false } ∧
      d'.fld F.CLK_PROBE_GO = 0 ∧ d'.fld F.CLK_PROBE_RESULT_VALID = 1 ∧ d'.fld F.CLK_PROBE_RESULT_CODE = cOK ∧
      (mhz < 2 ^ F.CLK_PROBE_RESULT_MHZ.f.w → d'.fld F.CLK_PROBE_RESULT_MHZ = mhz) ∧ d' = { d with roots := d'.roots, regs := d'.regs })) ∧
    -- The fractional modulators (R454).
    (∀ m : Mash, m.a1 < 2 ^ 32 → m.a2 < 2 ^ 32 → m.a3 < 2 ^ 32 → m.frac < 2 ^ 32 → ∃ c1 c2 c3 : Nat,
      m.cycle.a1 + 2 ^ 32 * c1 = m.a1 + m.frac + (if m.seed = 0 then 0 else m.lfsr % 2) ∧
      m.cycle.a2 + 2 ^ 32 * c2 = m.a2 + m.cycle.a1 ∧ m.cycle.a3 + 2 ^ 32 * c3 = m.a3 + m.cycle.a2 ∧
      m.cycle.a1 < 2 ^ 32 ∧ m.cycle.a2 < 2 ^ 32 ∧ m.cycle.a3 < 2 ^ 32 ∧ m.cycle.c2 = c2 ∧ m.cycle.c3 = c3 ∧ m.cycle.c3' = m.c3 ∧
      m.cycle.out = (c1 : Int) + ((c2 : Int) - m.c2) + ((c3 : Int) - 2 * m.c3 + m.c3') ∧
      (m.cycle.lfsr = if m.seed = 0 then m.lfsr else lfsrStep m.lfsr)) ∧
    (r < 2 → (d.mash r).values ≠ d.mashWant r → (d.mash (1 - r)).values ≠ d.mashWant r →
      (d.mashLoad r).mash r = { cfg := (d.mashWant r).1, frac := (d.mashWant r).2.1, seed := (d.mashWant r).2.2, lfsr := (d.mashWant r).2.2 }) ∧
    (d.mash 0 = d.mash 1 → d.mashWant 0 = d.mashWant 1 → d.pfdTick.mash 0 = d.pfdTick.mash 1)

/-- R472. R513, R518 to R520. -/
def Obligations.ClockOutputsAndCalibration : Prop :=
  (∀ (s : State) (u : UCmd) (o : Nat),
    let d := s.dev
    let taken := d.accept u
    let asked := fun (i : Instr) (d : Device) o (at' : Time) g k code (ctl : Device → Device) =>
      (code ≠ cOK → Gives i s (fun _ => (d.setFld (F.CKO_STAT_CODE o) code).complete g code none)) ∧
      (code = cOK → Gives i s (fun _ => ctl (((d.setFld (F.CKO_STAT_CODE o) cOK).request k o at' g []).setFld (F.CKO_STAT_PENDING o) 1)))
    let stopCode := fun (d : Device) o => if d.isSet (F.CKO_STAT_PENDING o) then cBUSY else cOK
    (o < 8 → asked (.ckoCtlStart o) d o (d.rdTime (Reg.CKO_AT_LO o)) .host .ckoStart (d.ckoCode o) (fun x => x.setFld (F.CKO_CTL_START o) 1) ∧
      asked (.ckoCtlStop o) d o (d.rdTime (Reg.CKO_AT_LO o)) .host .ckoStop (stopCode d o) (fun x => x.setFld (F.CKO_CTL_STOP o) 1)) ∧
    (d.comes 1 2 8 u → bitAt u.imm 0 = true →
      asked (.clkOutputStart u) taken u.unit (BitVec.ofNat 64 (u.dword 0)) u.origin .ckoStart (taken.ckoCode u.unit) id) ∧
    (d.comes 1 2 8 u → bitAt u.imm 0 = false →
      (bitAt u.imm 1 = true →
        asked (.clkOutputStop u) taken u.unit (BitVec.ofNat 64 (u.dword 0)) u.origin .ckoStop (stopCode taken u.unit) id) ∧
      (bitAt u.imm 1 = false → Gives (.clkOutputStop u) s (fun _ => taken.complete u.origin cOK none))) ∧
    (∀ o, d.fld (F.CKO_STAT_RUNNING o) = 1 → bitsOf (d.rdN (Reg.CKO_DIV o)) 0 13 ≠ 0 → d.ckoCode o = cBUSY)) ∧
  (∀ (s : State) (u : UCmd) (o sel temp : Nat),
    let d := s.dev
    let taken := d.accept u
    let n := u.unit
    let uv := u.word 0 % 2 ^ 20
    let ref := d.isSet F.CLK_STAT_REF_PRESENT
    let skipped := fun (d : Device) o => (d.setFld (F.CAL_I_STAT_CODE (56 + o)) cREFLOST).flag F.CAL_FLAGS_SKIPPED Reg.CAL_SKIP_CNT
    let idle := fun o => d.isSet (F.CKO_STAT_RUNNING o) = false ∧ d.isSet (F.CKO_STAT_PENDING o) = false
    (d.comes 0x0F 1 1 u → uv = 0 ∨ (500000 ≤ uv ∧ uv ≤ 900000) → Gives (.calSetref u) s (fun _ => (taken.wr Reg.CAL_REF_UV uv).complete u.origin cOK none)) ∧
    (d.comes 0x0F 1 1 u → (0 < uv ∧ uv < 500000) ∨ 900000 < uv → Gives (.calSetref u) s (fun _ => taken.complete u.origin cLENGTH none)) ∧
    (d.comes 0x0F 2 8 u →
      (¬idle n ∨ (d.cko n).cal.isSome = true → Gives (.calOutcal u) s (fun _ => taken.complete u.origin cBUSY none)) ∧
      (idle n → (d.cko n).cal = none → ref = false → Gives (.calOutcal u) s (fun _ => (skipped taken n).complete u.origin cREFLOST none)) ∧
      (idle n → (d.cko n).cal = none → ref = true → Gives (.calOutcal u) s (fun _ =>
        taken.setCko n { d.cko n with cal := some u.origin }))) ∧
    (8 ≤ o ∨ d.isSet (F.CKO_STAT_RUNNING o) = true ∨ d.fld F.SYS_STAT_STATE = 6 ∨ d.fld F.SYS_STAT_STATE = 7 → Gives (.outputCalDone o sel temp) s id) ∧
    (∀ e k, o < 8 → d.fld F.SYS_STAT_STATE ∉ [6, 7] → d.isSet (F.CKO_STAT_RUNNING o) = false → (d.cko o).cal = some (.port e k) →
      (ref = false → Gives (.outputCalDone o sel temp) s (fun d =>
        (skipped (d.setCko o { d.cko o with cal := none }) o).complete (.port e k) cREFLOST none)) ∧
      (ref = true → Reaches (.outputCalDone o sel temp) s (fun d' => (d'.cko o).cal = none ∧
        d'.rdN (Reg.CAL_I_COUNT (56 + o)) = min (d.rdN (Reg.CAL_I_COUNT (56 + o)) + 1) 0xFFFFFFFF ∧
        d'.rdTime (Reg.CAL_I_LAST_LO (56 + o)) = d.time ∧ d'.fld (F.CAL_I_STAT_VALID (56 + o)) = 1 ∧
        d'.fld (F.CAL_I_STAT_CODE (56 + o)) = cOK ∧ d'.rdN (Reg.CAL_I_SEL (56 + o)) = sel % 65536 ∧
        d'.completions = d.completions ++ [⟨e, k, cOK, none⟩] ∧
        d' = { d with regs := d'.regs, ckos := d'.ckos, completions := d'.completions }))))

/-- R479. R491, R492. -/
def Obligations.TimeSetsAndStatistics : Prop :=
  (∀ (s : State) (u : UCmd),
    let d := s.dev
    let taken := d.accept u
    let sets := fun (i : Instr) (d : Device) (t : Time) epoch o (fin : Device → Device) =>
      (d.setBusy = true → Gives i s (fun _ => (d.setFld F.EVT_SET_STAT_CODE cBUSY).complete o cBUSY none)) ∧
      (d.setBusy = false → Gives i s (fun _ =>
        fin { d.setFld F.EVT_SET_STAT_CODE cOK with setReq := some (t, epoch % 65536, o) }))
    sets .evtSetCtlGo d (d.rdTime Reg.EVT_SET_LO) (d.rdN Reg.EVT_SET_EPOCH) .host (fun x => x.setFld F.EVT_SET_CTL_GO 1) ∧
    (d.comes 0x0D 5 1 u → sets (.evtSet u) taken (BitVec.ofNat 64 (u.dword 0)) (u.word 8) u.origin id) ∧
    (∀ t e o, d.sys.started = true → d.pinLow = false → d.setReq = some (t, e, o) → d.syncLeft = [] → d.monSync = [] → d.syncIn = [] →
      d.monIn = [] → d.isSet F.CAS_STAT_SLEWING = false → e < 65536 →
      Reaches .tclkTick s (fun d' => ∃ x : Device, x.rdN Reg.EVT_EPOCH = e ∧ x.fld F.EVT_SET_CTL_GO = 0 ∧
        x.completions = d.completions ++ (match o with | .port en k => [⟨en, k, cOK, none⟩] | _ => []) ∧
        x = { d with regs := x.regs, time := t, timeRem := 0, setReq := none, completions := x.completions } ∧
        d' = (x.evOnAll.evDrainAll.stLatestAll.wakeTick.pfdTick.engBusy.casWaiting).showDecided)) ∧
    (∀ n, n < 8 → d.fld (F.LNK_S_STAT_STATE n) ≠ 0 → d.setBusy = true) ∧ (d.syncIn ≠ [] ∨ d.syncLeft ≠ [] ∨ d.casRole ≠ 0 → d.setBusy = true)) ∧
  (∀ (s : State) (u : UCmd) (t : Nat),
    let d := s.dev
    let taken := d.accept u
    let n := u.unit
    let asked := fun (i : Instr) (d : Device) t o k (at' : Time) code (fin : Device → Device) =>
      (code ≠ cOK → Gives i s (fun _ => (d.setFld (F.EVT_S_STAT_CODE t) code).complete o code none)) ∧
      (code = cOK → Gives i s (fun _ => fin ((d.setFld (F.EVT_S_STAT_CODE t) cOK).request k t at' o [])))
    let stopCode := fun (d : Device) t => if d.fld (F.EVT_S_STAT_STATE t) = 0 then cNOTARMED
      else if d.hasReq [.statArm, .statStop] t then cBUSY else cOK
    let armed := (taken.wrBlock u [(Reg.EVT_S_CFG n, 0), (Reg.EVT_S_N n, 4), (Reg.EVT_S_WINDOW n, 8), (Reg.EVT_S_QUEUE n, 12),
      (Reg.EVT_S_AT_LO n, 16), (Reg.EVT_S_AT_HI n, 20)])
    (t < 8 →
      asked (.evtSCtlArm t) d t .host .statArm (d.rdTime (Reg.EVT_S_AT_LO t)) (d.stArmCode t) (fun x =>
        (x.setFld (F.EVT_S_STAT_STATE t) 1).setFld (F.EVT_S_CTL_ARM t) 1) ∧
      asked (.evtSCtlStop t) d t .host .statStop (d.rdTime (Reg.EVT_S_AT_LO t)) (stopCode d t) (fun x => x.setFld (F.EVT_S_CTL_STOP t) 1)) ∧
    (d.comes 0x0D 3 8 u →
      (taken.fld (F.EVT_S_STAT_STATE n) ≠ 0 → Gives (.evtArm u) s (fun _ => taken.complete u.origin cBUSY none)) ∧
      (taken.fld (F.EVT_S_STAT_STATE n) = 0 → asked (.evtArm u) armed n u.origin .statArm (armed.rdTime (Reg.EVT_S_AT_LO n))
        (armed.stArmCode n) (fun x => x.setFld (F.EVT_S_STAT_STATE n) 1))) ∧
    (d.comes 0x0D 4 8 u → asked (.evtStop u) taken n u.origin .statStop (BitVec.ofNat 64 (u.dword 0)) (stopCode taken n) id) ∧
    (d.takes 0x0D 3 u = true → 8 ≤ n → Gives (.evtArm u) s (fun _ => taken.complete u.origin cUNSUP none)) ∧
    (d.takes 0x0D 4 u = true → 8 ≤ n → Gives (.evtStop u) s (fun _ => taken.complete u.origin cUNSUP none)))

/-- R480 to R486. -/
def Obligations.EventInputCommands : Prop :=
  ∀ (s : State) (u : UCmd) (n num den v : Nat) (rising : Bool),
    let d := s.dev
    let taken := d.accept u
    let m := u.unit
    let takes := n < 16 ∧ d.isSet (F.EVT_I_STAT_ENABLED n) = true ∧ d.isSet (F.EVT_I_STAT_BLANK n) = false ∧
      (d.fld (F.EVT_I_CFG_SLOPE n) = 0 → rising = true) ∧ (d.fld (F.EVT_I_CFG_SLOPE n) = 1 → rising = false) ∧
      d.fld F.SYS_STAT_STATE ∉ [6, 7]
    let t := d.edgeStamp n num den
    let since := (t - d.rdTime (Reg.EVT_I_LAST_LO n)).toInt
    let blanked := fun (d : Device) n => (d.setEvin n { d.evin n with blankTo := d.time + nsTime 10000 }).setFld (F.EVT_I_STAT_BLANK n) 1
    let thr := fun (d : Device) n v => blanked (d.wrRw (Reg.EVT_I_THRESH n) v) n
    let enables := fun (i : Instr) (d : Device) n o (fin : Device → Device) => ∀ c, c = d.evCode n →
      (c ≠ cOK → Gives i s (fun _ => (d.setFld (F.EVT_I_STAT_CODE n) c).complete o c none)) ∧
      (c = cOK → Gives i s (fun _ => fin ((d.setFld (F.EVT_I_STAT_CODE n) cOK).setEvin n { d.evin n with enabling := some o })))
    let isOn := fun d : Device => d.isSet (F.EVT_I_STAT_ENABLED m) || (d.evin m).enabling.isSome
    let disables := fun (i : Instr) (d : Device) n o =>
      let y := match (d.evin n).enabling with | some w => d.evOn n w | none => d
      (y.isSet (F.EVT_I_STAT_ENABLED n) = false → Gives i s (fun _ => (y.setFld (F.EVT_I_STAT_CODE n) cOK).complete o cOK none)) ∧
      (y.isSet (F.EVT_I_STAT_ENABLED n) = true → Gives i s (fun _ =>
        (((y.evFlush n).setFld (F.EVT_I_STAT_ENABLED n) 0).setFld (F.EVT_I_STAT_CODE n) cOK).complete o cOK none))
    (¬takes → Gives (.eventEdge n num den rising) s id) ∧
    (takes → d.rd64 (Reg.EVT_I_EDGES_LO n) ≠ 0 → since < 81265 → Gives (.eventEdge n num den rising) s (fun d =>
      (List.range 8).foldl (fun d k => d.stLost k n) (((d.setEvin n { d.evin n with dead := (d.evin n).dead + 1 }).inc
        (Reg.EVT_I_DEAD_CNT n)).flag F.EVT_FLAGS_DEAD Reg.EVT_DEAD_CNT))) ∧
    (takes → d.rd64 (Reg.EVT_I_EDGES_LO n) = 0 ∨ 82575 < since → Gives (.eventEdge n num den rising) s (fun d =>
      ((d.edgeTake n t rising).calEdge n t).lineEdge n)) ∧
    (takes → d.rd64 (Reg.EVT_I_EDGES_LO n) ≠ 0 → 81265 ≤ since → since ≤ 82575 → Reaches (.eventEdge n num den rising) s (fun d' =>
      d' = d.draw.2.edgeLost n ∨ d' = ((d.draw.2.edgeTake n t rising).calEdge n t).lineEdge n)) ∧
    (den ≠ 0 → d.rdN (Reg.EVT_I_OFS n) = 0 → num % den = 0 → t = BitVec.ofNat 64 (num / den)) ∧
    (n < 16 → 3600 < v % 4096 → Gives (.thresholdWrite n v) s Device.badAccess) ∧
    (n < 16 → v % 4096 ≤ 3600 → Gives (.thresholdWrite n v) s (fun d => thr d n v)) ∧
    (timeLE (d.evin n).blankTo d.time = true → Gives (.blankEnd n) s (fun d => d.setFld (F.EVT_I_STAT_BLANK n) 0)) ∧
    (timeLE (d.evin n).blankTo d.time = false → Gives (.blankEnd n) s id) ∧
    ((d.evDrain n d.time = d) → (d.evin n).opened = [] → Gives (.stampFlushTimeout n) s id) ∧
    (∀ e es, (d.evDrain n d.time = d) → (d.evin n).opened = e :: es →
      (d.rdN (Reg.EVT_I_FLUSH n) ≠ 0 → timeLE (nsTime (d.rdN (Reg.EVT_I_FLUSH n))) (d.time - e.stamp) = true →
        Gives (.stampFlushTimeout n) s (fun d => (d.setEvin n { d.evin n with opened := [], recDead := e.dead, recOvf := e.ovf }).qOffer
          (d.fld (F.EVT_I_QUEUE_QUEUE n)) (d.stampRecord n e (e :: es)) 0x0D n)) ∧
      (d.rdN (Reg.EVT_I_FLUSH n) = 0 → Gives (.stampFlushTimeout n) s id)) ∧
    (n < 16 → enables (.evtICtlEnable n) d n .host (fun x => x.setFld (F.EVT_I_CTL_ENABLE n) 1) ∧ disables (.evtICtlDisable n) d n .host) ∧
    (d.comes 0x0D 2 16 u → disables (.evtDisable u) taken m u.origin) ∧
    (d.comes 0x0D 1 16 u → isOn taken = true → Gives (.evtEnable u) s (fun _ => taken.complete u.origin cBUSY none)) ∧
    (d.comes 0x0D 1 16 u → isOn taken = false →
      enables (.evtEnable u) ((if u.word 4 % 4096 ≤ 3600 then thr taken m (u.word 4) else taken.badAccess).wrBlock u [(Reg.EVT_I_CFG m, 0), (Reg.EVT_I_OFS m, 8), (Reg.EVT_I_QUEUE m, 12),
        (Reg.EVT_I_FLUSH m, 16)]) m u.origin id) ∧
    (d.takes 0x0D 1 u = true → 16 ≤ m → Gives (.evtEnable u) s (fun _ => taken.complete u.origin cUNSUP none)) ∧
    (d.takes 0x0D 2 u = true → 16 ≤ m → Gives (.evtDisable u) s (fun _ => taken.complete u.origin cUNSUP none)) ∧
    (∀ x : Device, ((∀ kv ∈ x.evins, kv.2.enabling = none) → x.evOnAll = x) ∧
      (∀ y o, x.evins = [(n, y)] → y.enabling = some o → x.evOnAll = ((((blanked (((x.setEvin n {}).setFld (F.EVT_I_STAT_ENABLED n) 1).wr64
        (Reg.EVT_I_EDGES_LO n) 0) n).setFld (F.EVT_I_CTL_ENABLE n) 0).setFld (F.EVT_I_STAT_CODE n) cOK).complete o cOK none)))

/-- R503 to R506. -/
def Obligations.MonitorRequests : Prop :=
  ∀ (s : State) (u : UCmd) (m : Nat),
    let d := s.dev
    let taken := d.accept u
    let n := u.unit
    let shown := fun (d : Device) m code o => (d.setFld (F.MON_M_STAT_CODE m) code).complete o code none
    let start := fun (i : Instr) (d : Device) m (at' : Time) o (fin : Device → Device) =>
      (d.monStartCode m ≠ cOK → Gives i s (fun _ => shown d m (d.monStartCode m) o)) ∧
      (d.monStartCode m = cOK → Gives i s (fun _ =>
        fin (((d.setFld (F.MON_M_STAT_CODE m) cOK).request .monStart m at' o []).setFld (F.MON_M_STAT_STATE m) 1)))
    let stop := fun (i : Instr) (d : Device) m o =>
      let e := match d.breqs.find? (fun r => decide (r.kind = .monStart) && decide (r.obj = m)) with
        | some r => (d.dropReq .monStart m).finish r.origin (F.MON_M_CTL_START m) (F.MON_M_STAT_CODE m) cNOTARMED none
        | none => d
      let y := (e.monClose m false).setFld (F.MON_M_STAT_STATE m) 0
      let z := y.setMon m { y.mon m with active := false }
      Gives i s (fun _ => shown (if d.isSet (F.MON_M_STAT_INJ_PENDING m) then z.injStart m else z) m cOK o)
    let arm := fun (i : Instr) (d : Device) m o =>
      (d.armInjCode m ≠ cOK → Gives i s (fun _ => shown d m (d.armInjCode m) o)) ∧
      (d.armInjCode m = cOK → Gives i s (fun _ =>
        shown ((d.setFld (F.MON_M_STAT_INJ_ARMED m) 1).setMon m { d.mon m with injNo := 0, injItems := [] }) m cOK o))
    let inProgress := fun (d : Device) m =>
      d.isSet (F.MON_M_STAT_INJ_PENDING m) = true ∨ d.isSet (F.MON_M_STAT_INJ_ACTIVE m) = true
    let disarm := fun (i : Instr) (d : Device) m o (fin : Device → Device) =>
      (¬inProgress d m → Gives i s (fun _ => shown (d.setFld (F.MON_M_STAT_INJ_ARMED m) 0) m cOK o)) ∧
      (inProgress d m → (d.mon m).disarm = none → Gives i s (fun _ =>
        fin ((d.setMon m { d.mon m with disarm := some o }).setFld (F.MON_M_STAT_CODE m) cOK))) ∧
      (inProgress d m → (d.mon m).disarm ≠ none → Gives i s (fun _ => shown d m cBUSY o))
    let inject := fun (i : Instr) (d : Device) m o =>
      (d.isSet (F.MON_M_STAT_INJ_ARMED m) = false → Gives i s (fun _ => shown d m cNOTARMED o)) ∧
      (d.isSet (F.MON_M_STAT_INJ_ARMED m) = true → inProgress d m →
        Gives i s (fun _ => shown (d.flag F.MON_FLAGS_INJ_MISS Reg.MON_INJ_MISS_CNT) m cBUSY o)) ∧
      (d.isSet (F.MON_M_STAT_INJ_ARMED m) = true → ¬inProgress d m → ∀ x : Device,
        x = (d.setMon m { d.mon m with trig := d.time }).wrTime (Reg.MON_M_INJ_TRIG_LO m) d.time →
        ((d.mon m).active = true → Gives i s (fun _ => shown (x.setFld (F.MON_M_STAT_INJ_PENDING m) 1) m cOK o)) ∧
        ((d.mon m).active = false → Gives i s (fun _ => shown (x.injStart m) m cOK o)))
    (m < 8 → start (.monMCtlStart m) d m (d.rdTime (Reg.MON_M_AT_LO m)) .host (fun x => x.setFld (F.MON_M_CTL_START m) 1) ∧
      stop (.monMCtlStop m) d m .host ∧ arm (.monMCtlArmInj m) d m .host ∧
      disarm (.monMCtlDisarmInj m) d m .host (fun x => x.setFld (F.MON_M_CTL_DISARM_INJ m) 1) ∧ inject (.monMCtlInject m) d m .host) ∧
    (d.comes 0x0E 1 8 u → start (.monStart u) taken n (BitVec.ofNat 64 (u.dword 0)) u.origin id) ∧
    (d.comes 0x0E 2 8 u → stop (.monStop u) taken n u.origin) ∧ (d.comes 0x0E 3 8 u → arm (.monArmInj u) taken n u.origin) ∧
    (d.comes 0x0E 4 8 u → disarm (.monDisarmInj u) taken n u.origin id) ∧ (d.comes 0x0E 5 8 u → inject (.monInject u) taken n u.origin)

/-- R497, R498, R500 to R502, R505, R507 to R509, R511. -/
def Obligations.MonitorResults : Prop :=
  ∀ (s : State) (m p n : Nat) (codes shadow : List Int) (t : Time),
    let d := s.dev
    let x := d.mon m
    let inj := d.isSet (F.MON_M_STAT_INJ_ACTIVE m)
    let chain := fun w => x.flt.convert w codes
    let value := fun w => d.monValue (d.monUnit m) w (chain w).2
    let swapped := fun w => (match x.swapAt with | some b => timeLE (d.convBegun w) b | none => false)
    let flags := fun w => (if (monClamp w (value w)).2 then 1 else 0) + (if d.isSet F.CLK_STAT_HOLDOVER then 2 else 0) +
      (if d.monUntraced m then 4 else 0) + (if swapped w then 8 else 0)
    let item := fun slot w => bytesLE 1 slot ++ bytesLE 1 (enInput w) ++ bytesLE 1 (enPreset w) ++ bytesLE 1 (flags w) ++
      bytesLE 4 (wrap 32 (monClamp w (value w)).1) ++ bytesLE 8 (d.monStamp w).toNat
    let stored := fun slot w i =>
      let v := monClamp w (value w)
      let c := d.fld (F.MON_M_INFO_COUNT m slot)
      let d := d.setMon m { x with flt := (chain w).1, shd := none }
      let y := ((d.wr (Reg.MON_M_RESULT m slot) (wrap 32 v.1)).wr (Reg.MON_M_INFO m slot)
        (1 + 2 * flags w + (c + 1) % 65536 * 65536)).wrTime (Reg.MON_M_STAMP_LO m slot) (d.monStamp w)
      let y := if v.2 then y.flag F.MON_FLAGS_OVERRANGE Reg.MON_OVR_CNT else y
      let y := if swapped w then y else y.setMon m { y.mon m with swapAt := none }
      let y : Device := if enInput w = 24 then
        { y with vdd := some (decide (88 * 2 ^ 30 ≤ 100 * v.1) && decide (100 * v.1 ≤ 93 * 2 ^ 30), d.time) } else y
      y.monItem m i (item slot w) (d.convBegun w)
    let fresh := fun (y : Device) (slot : Nat) => (y.setMon m { y.mon m with flt := {}, shd := none }).setFld (F.MON_M_STAT_SLOT m) slot
    let plain := x.shd = none ∧ d.rotStepOf 5 = none
    (8 ≤ m ∨ (inj = false ∧ x.active = false) → Gives (.monResult m codes shadow) s id) ∧
    (∀ w, m < 8 → d.monWord m = some w → codes.length ≠ d.monNeed m w → Gives (.monResult m codes shadow) s id) ∧
    (∀ w, m < 8 → plain → inj = false → x.active = true → d.isSet (F.MON_M_STAT_INJ_PENDING m) = false → x.entry < 32 →
      d.rdN (Reg.MON_M_REG m x.entry) = w → codes.length = d.monNeed m w → ∀ y : Device, y = stored x.entry w false →
      (x.given + 1 < enCount w → Gives (.monResult m codes shadow) s (fun _ => y.setMon m { y.mon m with given := x.given + 1 })) ∧
      (enCount w ≤ x.given + 1 → x.entry + 1 < d.fld (F.MON_M_SEQ_LEN_SEQ_LEN m) → Gives (.monResult m codes shadow) s (fun _ =>
        fresh (y.setMon m { y.mon m with entry := x.entry + 1, given := 0 }) (x.entry + 1))) ∧
      (enCount w ≤ x.given + 1 → d.fld (F.MON_M_SEQ_LEN_SEQ_LEN m) ≤ x.entry + 1 → Gives (.monResult m codes shadow) s (fun _ =>
        y.passEnd m))) ∧
    (∀ w, m < 8 → plain → inj = true → x.injEntry < 4 → d.rdN (Reg.MON_M_INJ m x.injEntry) = w → codes.length = d.monNeed m w →
      ∀ y : Device, y = stored (32 + x.injEntry) w true →
      (x.injGiven + 1 < enCount w → Gives (.monResult m codes shadow) s (fun _ =>
        y.setMon m { y.mon m with injGiven := x.injGiven + 1 })) ∧
      (enCount w ≤ x.injGiven + 1 → x.injEntry + 1 < d.fld (F.MON_M_SEQ_LEN_INJ_LEN m) → Gives (.monResult m codes shadow) s (fun _ =>
        fresh (y.setMon m { y.mon m with injEntry := x.injEntry + 1, injGiven := 0 }) (33 + x.injEntry))) ∧
      (enCount w ≤ x.injGiven + 1 → d.fld (F.MON_M_SEQ_LEN_INJ_LEN m) ≤ x.injEntry + 1 → Gives (.monResult m codes shadow) s (fun _ =>
        y.injEnd m))) ∧
    (∀ (y : Device) (bs : List Byte),
      (y.isSet (F.MON_M_CFG_Q_EN m) = false → y.monItem m false bs t = y) ∧
      (y.isSet (F.MON_M_CFG_Q_EN m) = true → 0 < (y.mon m).items.length → (y.mon m).items.length < 59 →
        y.monItem m false bs t = y.setMon m { y.mon m with items := (y.mon m).items ++ [bs] })) ∧
    (∀ w v, enInput w ≤ 15 → -966367642 ≤ v → v ≤ 966367642 → monClamp w v = (v, false)) ∧
    (∀ w v, enInput w ≤ 15 → 966367642 < v → monClamp w v = (966367642, true)) ∧
    (∀ (w scale : Nat) (y : Int), enInput w ≤ 15 → 2 * (monScaled w scale y * 2 ^ 64 - y * scale).natAbs ≤ 2 ^ 64) ∧
    (m < 8 → d.fld (F.MON_M_STAT_STATE m) = 2 → x.active = false → ∀ b, b = x.startB + nsTime (x.passNo * d.rdN (Reg.MON_M_PERIOD m)) →
      (timeLE b d.time = true → d.rotStepOf 5 = none → Reaches (.monPassStart m) s (fun d' =>
        d'.mon m = { x with active := true, entry := 0, given := 0, passAt := b, flt := {}, shd := none } ∧
        (∀ k, k ≠ m → d'.mon k = d.mon k) ∧
        d' = Device.setFld { d with mons := d'.mons } (F.MON_M_STAT_SLOT m) (if inj then 32 + x.injEntry else 0))) ∧
      (timeLE b d.time = false → Gives (.monPassStart m) s id)) ∧
    (8 ≤ m ∨ d.fld (F.MON_M_STAT_STATE m) ≠ 2 ∨ x.active = true → Gives (.monPassStart m) s id) ∧
    (d.isSet F.MON_CFG_MONSYNC_EN = true →
      (timeLT t d.time = true → Gives (.monsyncEdge t) s (fun d => { d with monSync := d.monSync ++ [16] })) ∧
      (timeLT t d.time = false → Gives (.monsyncEdge t) s (fun d => { d with monIn := d.monIn ++ [t] }))) ∧
    (d.isSet F.MON_CFG_MONSYNC_EN = false → Gives (.monsyncEdge t) s id) ∧
    (∀ y : Device, y.isSet F.MON_CFG_MONSYNC_EN = true → y.syncIn = [] → y.monIn ≠ [] → (∀ e ∈ y.monIn, timeLT e y.time = true) →
      y.syncSample = { y with monIn := [], monSync := y.monSync ++ [16] }) ∧
    (0 ∉ d.monSync → Gives (.monDecimatorReset t) s id) ∧
    (0 ∈ d.monSync → (∀ k, k < 8 → d.fld (F.MON_M_STAT_STATE k) ≠ 2 ∧ d.isSet (F.MON_M_STAT_INJ_ACTIVE k) = false ∧
        d.isSet (F.MON_M_STAT_INJ_PENDING k) = false) →
      Gives (.monDecimatorReset t) s (fun d => (({ d with monSync := d.monSync.filter (fun n => decide (n ≠ 0)) } : Device).flag
        F.MON_FLAGS_SYNC Reg.MON_SYNC_CNT).wrTime Reg.MON_LAST_SYNC_LO t)) ∧
    Gives (.i2cPointerWrite p) s (fun d => { d with i2cPtr := p % 65536, i2cLatch := none }) ∧
    Reaches (.i2cRead n) s (fun d' => ∃ bs, bs.length = n ∧ d'.outbox = d.outbox ++ [.i2c bs] ∧
      (d.i2cPtr < 65536 → d'.i2cPtr = (d.i2cPtr + n) % 65536) ∧
      (d.i2cPtr = 0x8000 → d.i2cLatch = none → n = 4 → Sparse.get (fun _ => none) d.hiLatch Reg.SYS_ID = none →
        bs = bytesLE 4 (d.rdN Reg.SYS_ID)) ∧
      (d.i2cPtr = Reg.MON_SYNC_CNT - 0xC00000 → d.i2cLatch = none → n = 4 → Sparse.get (fun _ => none) d.hiLatch Reg.MON_SYNC_CNT = none →
        bs = bytesLE 4 (d.rdN Reg.MON_SYNC_CNT) ∧ d'.rdN Reg.MON_SYNC_CNT = 0) ∧
      d' = { d with outbox := d'.outbox, i2cPtr := d'.i2cPtr, i2cLatch := d'.i2cLatch, regs := d'.regs, hiLatch := d'.hiLatch,
                    freeCount := d'.freeCount })

/-- R513, R515, R519, R521, R523, R524, R526, R527, R529. -/
def Obligations.RotationEvents : Prop :=
  ∀ (s : State) (k g p sig : Nat) (ok differ : Bool) (rd : Readings) (x : RotStep),
    let d := s.dev
    let t := d.unitTest p
    let c := unitClass p
    let e := d.stepAfter k g d.time
    let due := k < 9 ∧ g < (rotClass k).2.1 ∧ timeLE (d.stepInstant k g) d.time = true
    let retested := (∀ q ∈ groupUnits k g, ¬(d.puState q = 3 ∧ (d.unitTest q).again = true))
    let idle := 780 ≤ p ∨ d.puState p ≠ 3 ∨ t.again = true ∨ d.fld F.SYS_STAT_STATE ∈ [6, 7]
    let good := sig % 2 ^ 64 = Config.goldenSig c % 2 ^ 64
    let y := if c ≤ 5 then d.flag F.BST_FLAGS_RUN Reg.BST_RUN_CNT else d
    let done := fun (f : Device → Device) => Gives (.selfTestDone p sig ok rd) s (fun _ => f y)
    let fails := fun (cause : Nat) (d : Device) =>
      let z := d.setFld (F.ROT_U_TESTS_FAILED p) (min 65535 (d.fld (F.ROT_U_TESTS_FAILED p) + 1))
      let z := if cause = 2 ∧ c = 5 then z.flag F.CAL_FLAGS_FAIL Reg.CAL_FAIL_CNT else z
      if t.fails = 0 then z.setUnitTest p { t with fails := 1 } else z.withdrawUnit p cause
    let waits := fun (d : Device) => d.setUnitTest p { t with again := true }
    let noted := fun (code : Nat) (d : Device) =>
      if c = 6 then d.setFld (F.CAL_I_STAT_CODE (24 + (p - 682) / 2)) code
      else if c = 7 then d.setFld (F.CAL_I_STAT_CODE (8 + (p - 746) / 2)) code else d
    let ref := t.refUv
    let verdict := calConverter ref (Config.factoryWord p) rd
    (k < 9 → g < (rotClass k).2.1 → (Sparse.get (fun _ => none) d.rot.next (64 * k + g) : Option Time) = none →
      d.stepInstant k g = Sparse.get (fun _ => 0) d.rot.s0 k +
        BitVec.ofNat 64 (g * (d.fld (F.ROT_K_CFG_STEP k) * 65536000000000) / (rotClass k).2.1)) ∧
    (due → d.fld (F.ROT_K_CFG_STEP k) ≠ 0 → timeLE (e.stepInstant k g) d.time = false ∧
      (∃ n : Nat, e.stepInstant k g = d.stepInstant k g + BitVec.ofNat 64 (n * (d.fld (F.ROT_K_CFG_STEP k) * 65536000000000))) ∧
      e = { d with rot := { d.rot with next := e.rot.next } }) ∧
    (¬due → Gives (.rotationStep k g) s id) ∧
    (due → d.rotOn k = false → Gives (.rotationStep k g) s (fun _ => e)) ∧
    (due → d.rotOn k = true → retested →
      (d.rotStepOf k = none → Gives (.rotationStep k g) s (fun _ => (e.stepStart k g none false).2)) ∧
      (d.rotStepOf k ≠ none → g ∈ d.rotDeferred k → Gives (.rotationStep k g) s (fun _ => e)) ∧
      (d.rotStepOf k ≠ none → g ∉ d.rotDeferred k → Gives (.rotationStep k g) s (fun _ => e.setDeferred k (d.rotDeferred k ++ [g])))) ∧
    (d.puState p = 3 → t.again = true → 5 < c ∨ d.bstCond = true →
      d.testAgain p = d.setUnitTest p { t with again := false, refUv := d.rdN Reg.CAL_REF_UV }) ∧
    (k ≤ 5 → d.bstCond = false → d.stepStart k g none false =
      (cCONDITIONS, (d.setFld F.ROT_FLAGS_PAUSED 1).inc Reg.ROT_PAUSE_CNT)) ∧
    (∀ a b, d.spareChoice k g = some a → d.liveChoice k g = some b → k ≤ 5 → d.bstCond = true →
      (d.stepStart k g none false).1 = cOK ∧
      (d.stepStart k g none false).2.rotStepOf k = some { g := g, s := a, v := b, phase := 0, since := d.time, withdraw := false }) ∧
    (d.rotStepOf k = none → Gives (.shadowWindowEnd k differ) s id) ∧
    (d.rotStepOf k = some x → x.phase = 1 →
      (differ = false → k ≠ 6 → d.windowOver k x = true → Reaches (.shadowWindowEnd k differ) s (fun d' =>
        d'.rotStepOf k = some { x with phase := 2, since := d.time } ∧ d' = { d with regs := d'.regs, rot := d'.rot })) ∧
      (differ = false → k = 6 ∨ d.windowOver k x = false → Gives (.shadowWindowEnd k differ) s id) ∧
      (differ = true → x.misses < 7 → Gives (.shadowWindowEnd k differ) s (fun d =>
        (d.flag F.ROT_FLAGS_MISMATCH Reg.ROT_MISMATCH_CNT).setRotStep k
          (some { x with misses := x.misses + 1, since := d.time, agree := 0 })))) ∧
    (d.rotStepOf k = some x → x.phase ≠ 1 → Gives (.shadowWindowEnd k differ) s id) ∧
    (idle → Gives (.selfTestDone p sig ok rd) s id) ∧
    (¬idle → c ≤ 5 → ¬good → done (fun z => fails 1 (z.flag F.BST_FLAGS_FAIL Reg.BST_FAIL_CNT))) ∧
    (¬idle → c ≤ 4 → good → done (fun z => z.testPass p 0 rd.temp)) ∧
    (¬idle → c = 5 → good →
      (verdict = none → done (fails 2)) ∧
      (∀ w, verdict = some (cOK, w) → done (fun z => z.testPass p w rd.temp)) ∧
      (∀ w, verdict = some (cCONDITIONS, w) → done (fun z => waits (z.flag F.CAL_FLAGS_REF_BAD Reg.CAL_REF_BAD_CNT)))) ∧
    (¬idle → c = 6 ∨ c = 7 →
      (d.isSet F.CLK_STAT_REF_PRESENT = false → done (fun z => waits ((noted cREFLOST z).flag F.CAL_FLAGS_SKIPPED Reg.CAL_SKIP_CNT))) ∧
      (d.isSet F.CLK_STAT_REF_PRESENT = true → ok = true → done (fun z => (noted cOK z).testPass p rd.sel rd.temp)) ∧
      (d.isSet F.CLK_STAT_REF_PRESENT = true → ok = false → Reaches (.selfTestDone p sig ok rd) s (fun d' => ∃ code, code ≠ cOK ∧
        d' = fails 2 (noted code d.draw.2)))) ∧
    (¬idle → c = 8 → (ok = true → done (fun z => z.testPass p rd.sel rd.temp)) ∧
      (ok = false → done (fun z =>
        ((z.setUState p 0 0xFFF).setFld (if p = 778 then F.CLK_STAT_A_LOCK else F.CLK_STAT_B_LOCK) 0).rotShow 8))) ∧
    (p < 778 → d.puState p = 3 → t.blame = none → ∀ w temp z, z = d.testPass p w temp → z.puState p = 0 ∧
      z.rdTime (Reg.ROT_U_LAST_LO p) = d.time ∧ z.fld (F.ROT_U_TESTS_PASSED p) = min 65535 (d.fld (F.ROT_U_TESTS_PASSED p) + 1) ∧
      (t.fails = 1 → z.rdN Reg.ROT_RETEST_CNT = min (d.rdN Reg.ROT_RETEST_CNT + 1) 0xFFFFFFFF) ∧
      z = { d with regs := z.regs, rot := z.rot }) ∧
    (∀ f w, (5 * 2 ^ 30 < (rd.ground * 1000000).natAbs → calConverter ref f rd = none) ∧
      ((rd.ground * 1000000).natAbs ≤ 5 * 2 ^ 30 → ref = 0 → calConverter ref f rd = some (cOK, f)) ∧
      (calConverter ref f rd = some (cOK, w) → ref ≠ 0 → (rd.ground * 1000000).natAbs ≤ 5 * 2 ^ 30 ∧
        100 * refError ref rd.factory ≤ 2 * (ref * 2 ^ 30) ∧ 100000 * refError ref (readAt rd w) ≤ ref * 2 ^ 30))

/-- R532, R534, R535. -/
def Obligations.PhysicalUnitCommands : Prop :=
  ∀ (s : State) (u : UCmd) (p x sig fails : Nat) (o : Origin),
    let d := s.dev
    let taken := d.accept u
    let asHost := fun (c : Nat) (y : Device) => y.setFld F.ROT_CMD_STAT_CODE c
    let wrote := fun (op : Nat) => ((d.setFld F.ROT_CMD_UNIT p).setFld F.ROT_CMD_EXPECT x).setFld F.ROT_CMD_OP op
    let asEng := fun (c : Nat) (y : Device) => y.complete u.origin c none
    let miss := fun (d : Device) => d.flag F.ROT_FLAGS_ROLE_MISS Reg.ROT_ROLE_MISS
    let refused := fun (i : Instr) (d : Device) p x (fin : Nat → Device → Device) =>
      (780 ≤ p → Gives i s (fun _ => fin cUNSUP d)) ∧
      (p < 780 → d.puState p ≠ x → Gives i s (fun _ => fin cROLEMISS (miss d)))
    let steps := fun (i : Instr) (d : Device) p x (fin : Nat → Device → Device) => p < 780 → d.puState p = x →
      let k := unitClass p
      let g := unitGroup p
      let cond := decide (k ≤ 5) && !d.bstCond
      let held := d.rotStepOf k ≠ none ∨ d.rotOn k = false
      (held → Gives i s (fun _ => fin cBUSY d)) ∧
      (¬held → d.spareChoice k g = none → Gives i s (fun _ => fin cNOSPARE d)) ∧
      (¬held → d.spareChoice k g ≠ none → cond = true →
        Gives i s (fun _ => fin cCONDITIONS (d.flag F.ROT_FLAGS_PAUSED Reg.ROT_PAUSE_CNT))) ∧
      (¬held → d.spareChoice k g ≠ none → cond = false → x = 2 → Gives i s (fun _ => fin cUNSUP d)) ∧
      (∀ a b, ¬held → d.spareChoice k g = some a → cond = false → x ≠ 2 → d.liveChoice k g = some b →
        Gives i s (fun _ => fin cOK ((d.setRotStep k
          (some { g := g, s := a, v := b, phase := 0, since := d.time, withdraw := false })).rotShow k)))
    let withdraws := fun (i : Instr) (d : Device) p x (fin : Nat → Device → Device) => p < 780 → d.puState p = x →
      let k := unitClass p
      let g := unitGroup p
      (x = 5 → Gives i s (fun _ => fin cOK d)) ∧ (x = 3 → Gives i s (fun _ => fin cOK (d.withdrawUnit p 3))) ∧
      (x < 2 → d.rotStepOf k = none → Gives i s (fun _ => fin cOK (d.withdrawUnit p 3))) ∧
      (x = 4 → d.rotStepOf k ≠ none ∨ (d.spareChoice k g ≠ none ∧ d.rotOn k = false) → Gives i s (fun _ => fin cBUSY d)) ∧
      (x = 2 → Gives i s (fun _ => fin cUNSUP d)) ∧
      (∀ z, x < 2 → d.rotStepOf k = some z → z.s = p → Gives i s (fun _ => fin cOK ((d.withdrawUnit p 3).stepEnd k))) ∧
      (x = 4 → d.rotStepOf k = none → d.spareChoice k g = none → k ≠ 8 → Gives i s (fun _ =>
        fin cOK { d with rot := { d.rot with vacate := d.rot.vacate ++ [(p, d.time)] } })) ∧
      (x = 4 → d.rotStepOf k = none → d.spareChoice k g = none → k = 8 → Gives i s (fun _ => fin cUNSUP d)) ∧
      (∀ a, x = 4 → d.rotStepOf k = none → d.spareChoice k g = some a → d.rotOn k = true → 5 < k ∨ d.bstCond = true → Gives i s (fun _ =>
        fin cOK ((d.setRotStep k (some { g := g, s := a, v := p, phase := 0, since := d.time, withdraw := true })).rotShow k)))
    let selfTests := fun (i : Instr) (d : Device) p x o (fin : Nat → Device → Device) =>
      refused i d p x fin ∧ (p < 780 → d.puState p = x →
        (d.rot.bst ≠ none → Gives i s (fun _ => fin cBUSY d)) ∧
        (d.rot.bst = none → unitClass p ≤ 5 → d.bstCond = false → x = 0 ∨ x = 5 → Gives i s (fun _ =>
          fin cCONDITIONS (d.flag F.BST_FLAGS_CONDITIONS Reg.BST_COND_CNT))) ∧
        (d.rot.bst = none → 5 < unitClass p → Gives i s (fun _ => fin cUNSUP d)) ∧
        (d.rot.bst = none → unitClass p ≤ 5 → d.bstCond = true → x = 0 ∨ x = 5 → Gives i s (fun _ =>
          fin cOK (({ d with rot := { d.rot with bst := some (p, o, 0) } } : Device).setFld F.BST_CMD_STAT_BUSY 1))))
    let v := u.imm % 8
    let past := fun (i : Instr) (op : Nat) (cls : Nat) =>
      d.takes cls op u = true → 780 ≤ u.unit → Gives i s (fun _ => taken.complete u.origin cUNSUP none)
    refused (.rotCmdStep p x) (wrote 1) p x asHost ∧ refused (.rotCmdWithdraw p x) (wrote 2) p x asHost ∧
    (d.comes 0x10 1 780 u → refused (.rotStep u) taken u.unit v asEng ∧ steps (.rotStep u) taken u.unit v asEng) ∧
    (d.comes 0x10 2 780 u → refused (.rotWithdraw u) taken u.unit v asEng ∧ withdraws (.rotWithdraw u) taken u.unit v asEng) ∧
    past (.rotStep u) 1 0x10 ∧ past (.rotWithdraw u) 2 0x10 ∧ past (.bstRun u) 1 0x11 ∧
    steps (.rotCmdStep p x) (wrote 1) p x asHost ∧ withdraws (.rotCmdWithdraw p x) (wrote 2) p x asHost ∧
    selfTests (.bstCmdGo p x) ((d.setFld F.BST_CMD_UNIT p).setFld F.BST_CMD_EXPECT x) p x .host (fun c y =>
      if c = cOK then (y.setFld F.BST_CMD_STAT_CODE c).setFld F.BST_CMD_GO 1 else y.setFld F.BST_CMD_STAT_CODE c) ∧
    (d.comes 0x11 1 780 u → selfTests (.bstRun u) taken u.unit v u.origin (fun c y => if c = cOK then y else y.complete u.origin c none)) ∧
    (d.rot.bst = none → Gives (.bstRunDone sig) s id) ∧
    (∀ ok, p < 780 → d.rot.bst = some (p, o, fails) → ok = decide (sig % 2 ^ 64 = Config.goldenSig (unitClass p) % 2 ^ 64) →
      (ok = false → d.puState p = 0 → fails = 0 → Reaches (.bstRunDone sig) s (fun d' =>
        d'.rot = { d.rot with bst := some (p, o, 1) } ∧ d'.rd64 Reg.BST_SIG_LO = sig % 2 ^ 64 ∧
        d'.rdN Reg.BST_FAIL_CNT = min (d.rdN Reg.BST_FAIL_CNT + 1) 0xFFFFFFFF ∧ d' = { d with regs := d'.regs, rot := d'.rot })) ∧
      (ok = true ∨ d.puState p = 5 → Reaches (.bstRunDone sig) s (fun d' => d'.rot = { d.rot with bst := none } ∧
        d'.rd64 Reg.BST_SIG_LO = sig % 2 ^ 64 ∧ (d'.fld F.BST_CMD_STAT_PASS = if ok then 1 else 0) ∧
        d'.fld F.BST_CMD_STAT_BUSY = 0 ∧ d'.fld F.BST_CMD_STAT_CODE = cOK ∧
        (o = .host → d'.fld F.BST_CMD_GO = 0) ∧
        d'.completions = d.completions ++ (match o with
          | .port e k => [⟨e, k, cOK, some (if ok then 1 else 0)⟩]
          | _ => []) ∧
        d' = { d with regs := d'.regs, rot := d'.rot, completions := d'.completions })) ∧
      (ok = false → d.puState p = 0 → fails ≠ 0 → Reaches (.bstRunDone sig) s (fun d' => d'.puState p = 5 ∧
        d'.rot.bst = none ∧ d'.fld F.BST_CMD_STAT_PASS = 0 ∧ d'.fld F.BST_CMD_STAT_CODE = cOK)))

/-- R544, R545, R547 to R549, R551 to R557. -/
def Obligations.CascadeMessages : Prop :=
  ∀ (s : State) (m : CasMsg) (ep seq code unit c index marks j q : Nat) (t x : Time) (stamp : Int) (r ok : Bool)
      (table : List (Nat × Nat × Nat)) (data : List Byte),
    let d := s.dev
    let cells := table.flatMap (fun r => [r.1, r.2.1, r.2.2])
    let controls : List (Instr × Nat × List Nat) :=
      [(.roleMessage m ep t table, 1, [ep, t.toNat] ++ cells), (.timeMessage m t ep, 4, [t.toNat, ep]),
       (.markMessage m t r, 5, [t.toNat, if r then 1 else 0]), (.triggerMessage m unit t, 8, [unit, t.toNat])]
    let others : List (Instr × Nat × List Nat × List Byte) :=
      [(.ackMessage m seq, 2, [seq], []), (.nakMessage m seq code, 3, [seq, code], []),
       (.statusMessage m r ok, 6, [if r then 1 else 0, if ok then 1 else 0], []), (.decidedMessage m t, 7, [t.toNat], []),
       (.recordMessage m q data, 9, [q], data), (.partMessage m c index stamp marks data, 10, [c, index, wrap 64 stamp, marks], data),
       (.caldataMessage m index t x, 11, [index, t.toNat, x.toNat], [])]
    let rows := controls.map (fun z => (z.1, z.2.1, z.2.2, ([] : List Byte))) ++ others
    let here := m.good = true ∧ ((m.dst ≠ 0xFF ∧ ∀ n, d.casNum = some n → m.dst = n) ∨
      (m.dst = 0xFF ∧ ∀ l, l < 6 → l ≠ m.link → d.isSet (F.CAS_L_CFG_RUN l) = false))
    let now := m.epoch = d.casEpoch
    let new := m.retry = false ∨ (m.src, m.seq) ∉ (d.casLink m.link).seen
    let acked := fun (y : Device) => y.casVia (some m.link) 2 m.src [m.seq] []
    let taken := fun (y : Device) =>
      let z := acked y
      z.setCasLink m.link { z.casLink m.link with seen := (z.casLink m.link).seen ++ [(m.src, m.seq)] }
    let answered := fun (d : Device) =>
      d.setCasLink m.link { d.casLink m.link with wait := (d.casLink m.link).wait.filter (fun w => decide (w.seq ≠ seq)) }
    let asks := (d.casLink m.link).wait.any (fun w => decide (w.seq = seq) && decide (w.ty ∈ [1, 4])) && d.casBusy
    let denied := fun (d : Device) => if asks then
      ({ answered d with cas := { (answered d).cas with formCode := if d.cas.formCode = 0 then code else min d.cas.formCode code } } : Device)
      else answered d
    let full := fun (d : Device) l n => 262144 < (d.casLink l).used - d.casDrained l + n
    let from0 := fun (y : Device) => if m.src = 0 then ({ y with cas := { y.cas with heard := d.time } } : Device) else y
    let joins := fun (d : Device) j => d.isSet (F.CAS_J_CFG_EN j) = true ∧ d.fld (F.CAS_J_CFG_CONTEXT j) = c ∧
      bitAt (d.rdN (Reg.CAS_J_PARTS j)) m.src = true
    (∀ row ∈ rows, m.good = false → Gives row.1 s (fun d => d.flag F.CAS_FLAGS_MSG_ERR Reg.CAS_MSG_ERR_CNT)) ∧
    (∀ row ∈ rows, ∀ l n, m.good = true → m.dst ≠ 0xFF → d.casNum = some n → m.dst ≠ n → d.linkTo m.dst = some l → ∀ out : Out,
      out = .casMsg l m.retry row.2.1 m.epoch m.src m.dst m.seq row.2.2.1 row.2.2.2 →
      (row.2.1 ∉ [9, 10] → Gives row.1 s (fun d => d.send out)) ∧
      (∀ n, row.2.1 ∈ [9, 10] → n = casSize row.2.2.2 →
        (full d l n → Gives row.1 s (fun d => d.flag F.CAS_FLAGS_TX_DROP Reg.CAS_TX_DROP_CNT)) ∧
        (¬full d l n → Gives row.1 s (fun d => (d.setCasLink l { d.casLink l with
          used := (d.casLink l).used - d.casDrained l + n, usedAt := d.time }).send out)))) ∧
    (∀ row ∈ controls, here → ¬now → row.2.1 ≠ 1 → Gives row.1 s (fun d =>
      (d.flag F.CAS_FLAGS_STALE Reg.CAS_STALE_CNT).casVia (some m.link) 3 m.src [m.seq, cSTALE] [])) ∧
    (∀ row ∈ others, here → ¬now → code ≠ cSTALE → Gives row.1 s (fun d => d.flag F.CAS_FLAGS_STALE Reg.CAS_STALE_CNT)) ∧
    (∀ row ∈ controls, here → now → ¬new → Gives row.1 s acked) ∧
    (here → new →
      (m.src ≠ 0 ∨ d.isSet F.CAS_CFG_ACCEPT = false ∨ d.isSet F.CHN_SYNC_CFG_SYNC_EN = true →
        Gives (.roleMessage m ep t table) s (fun d => d.casVia (some m.link) 3 m.src [m.seq, cUNSUP] [])) ∧
      (m.src = 0 → d.isSet F.CAS_CFG_ACCEPT = true → d.isSet F.CHN_SYNC_CFG_SYNC_EN = false →
        Gives (.roleMessage m ep t table) s (fun d =>
          taken (({ d with cas := { d.cas with stale := false, deaf := false, heard := d.time } } : Device).request .role 0 t .device
            (ep % 65536 :: cells))))) ∧
    (here → now → new →
      (d.setBlocked = true → Gives (.timeMessage m t ep) s (fun d => d.casVia (some m.link) 3 m.src [m.seq, cBUSY] [])) ∧
      (d.setBlocked = false → Gives (.timeMessage m t ep) s (fun d =>
        taken { d with cas := { d.cas with coarse := some (t, ep % 65536) } })) ∧
      (r = false → Gives (.markMessage m t r) s (fun d =>
        taken { from0 d with cas := { (from0 d).cas with marks := d.cas.marks ++ [t] } })) ∧
      (r = true → timeLT t d.time = false → Gives (.markMessage m t r) s (fun d =>
        taken (({ from0 d with cas := { (from0 d).cas with resets := d.cas.resets ++ [t] } } : Device).request .decReset 0 t .device [2]))) ∧
      (r = true → timeLT t d.time = true → Gives (.markMessage m t r) s (fun d =>
        taken ((({ from0 d with cas := { (from0 d).cas with resets := d.cas.resets ++ [t] } } : Device).request .decReset 0 t .device [2]).flag
          F.CAS_FLAGS_RESET_LATE Reg.CAS_RESET_LATE_CNT))) ∧
      (d.casRole ∉ [1, 2] ∨ (∀ n, n < 64 → ¬(d.isSet (F.CAS_RT_CFG_EN n) = true ∧ d.fld (F.CAS_RT_CFG_SDEV n) = m.src ∧ d.fld (F.CAS_RT_CFG_SUNIT n) = unit)) →
        Gives (.triggerMessage m unit t) s taken) ∧
      (∀ n, d.casRole = 1 ∨ d.casRole = 2 → n < 64 → d.isSet (F.CAS_RT_CFG_EN n) = true → d.fld (F.CAS_RT_CFG_SDEV n) = m.src → d.fld (F.CAS_RT_CFG_SUNIT n) = unit →
        (∀ k ∈ d.tKeys (d.fld (F.CAS_RT_CFG_DUNIT n)), k < 64) → d.tKind (d.fld (F.CAS_RT_CFG_DUNIT n)) = 5 → d.tArmed (d.fld (F.CAS_RT_CFG_DUNIT n)) = true →
        (∀ k, k < 64 → k ≠ n → d.isSet (F.CAS_RT_CFG_EN k) = false) →
        Gives (.triggerMessage m unit t) s (fun d =>
          taken (d.fire (d.fld (F.CAS_RT_CFG_DUNIT n)) (t + d.rdTime (Reg.CAS_RT_OFS_LO n)) 0 0 0 0)))) ∧
    (here → now → Gives (.ackMessage m seq) s answered) ∧
    (here → now → code ≠ cSTALE → Gives (.nakMessage m seq code) s denied) ∧
    (here → code = cSTALE → d.casEpoch = ep →
      (m.epoch = (ep + 1) % 65536 → Gives (.nakMessage m seq code) s (fun d =>
        ({ denied d with cas := { (denied d).cas with stale := true } } : Device).setFld F.CAS_STAT_ROLE 0)) ∧
      (m.epoch = ep → Gives (.nakMessage m seq code) s denied)) ∧
    (here → now →
      (d.casRole ≠ 1 → Gives (.statusMessage m r ok) s (fun d =>
        (from0 d).setCasDev m.src { d.casDev m.src with heard := d.time, ready := r })) ∧
      (d.casRole = 1 → m.src < 16 → Gives (.statusMessage m r ok) s (fun d =>
        ((from0 d).setCasDev m.src { d.casDev m.src with heard := d.time, ready := r }).setFld (F.CAS_D_STAT_TIME_OK m.src)
          (if ok then 1 else 0))) ∧
      Gives (.decidedMessage m t) s (fun d => d.setCasDev m.src { d.casDev m.src with decided := some t }) ∧
      (d.casRole = 1 ∨ d.casRole = 2 → q < 4096 → Gives (.recordMessage m q data) s (fun d => d.qOffer q data 0x12 m.src)) ∧
      (d.casRole ∉ [1, 2] → Gives (.recordMessage m q data) s id) ∧
      (d.casRole ≠ 1 ∨ (∀ k, k < 16 → ¬joins d k) → Gives (.partMessage m c index stamp marks data) s id) ∧
      (d.casRole = 1 → j < 16 → joins d j → (∀ k, k < 16 → k ≠ j → ¬joins d k) → (d.compGone j index = true) →
        Gives (.partMessage m c index stamp marks data) s (fun d => d.flag F.CAS_FLAGS_JOIN_MISS Reg.CAS_JOIN_MISS_CNT)) ∧
      (d.casRole = 1 → j < 16 → joins d j → (∀ k, k < 16 → k ≠ j → ¬joins d k) →
        Gives (.partMessage m c index stamp marks data) s (fun d => d.joinTake j index ⟨m.src, stamp, marks, data⟩)) ∧
      (d.cas.cal = none → Gives (.caldataMessage m index t x) s id) ∧
      (∀ t0, d.cas.cal = some t0 → d.casRole = 1 → (d.casDev m.src).nT < 4096 → Gives (.caldataMessage m index t x) s (fun d =>
        let v := d.casDev m.src
        d.setCasDev m.src { v with
          nT := v.nT + 1
          sumT := v.sumT + (t - (t0 + BitVec.ofNat 64 (index * 65536000))).toInt
          sumU := v.sumU - (x - t0).toInt })))

/-- R542, R547, R551, R552, R554, R558, R560. -/
def Obligations.CascadeCommands : Prop :=
  ∀ (s : State) (u : UCmd) (l peer : Nat),
    let d := s.dev
    let taken := d.accept u
    let act := fun a => (⟨Reg.CAS_CTL, ⟨a, 1⟩⟩ : FieldAt)
    let busy := fun (d : Device) => d.cas.change ≠ none ∨ d.cas.cal ≠ none ∨ d.isSet F.CAS_CMD_STAT_BUSY = true
    let master := fun (d : Device) => d.casRole = 1
    let sync := fun (d : Device) => d.isSet F.CHN_SYNC_CFG_SYNC_EN = true
    let shown := fun (d : Device) c o => (d.setFld F.CAS_CMD_STAT_CODE c).complete o c none
    let ended := fun (d : Device) a c (o : Origin) => ((((d.setFld F.CAS_CMD_STAT_BUSY 0).setFld (act a) 0).setFld F.CAS_CMD_STAT_CODE c).complete o c none)
    let began := fun (d : Device) a (o : Origin) =>
      if o = .host then (d.setFld F.CAS_CMD_STAT_BUSY 1).setFld (act a) 1 else d.setFld F.CAS_CMD_STAT_BUSY 1
    let from' := fun (d : Device) (o : Origin) =>
      let lead := d.time + nsTime (d.rdN Reg.CAS_LEAD)
      d.boundaryFrom (if o = .host then timeMax (d.rdTime Reg.CAS_AT_LO) lead else lead)
    let announced := fun (d d' : Device) (o : Origin) (t : Sparse CasRole) =>
      d'.breqs = d.breqs ++ [⟨.role, 0, from' d o, d.time, .device, (d.casEpoch + 1) % 65536 :: tableArgs t⟩]
    let form := fun (i : Instr) (d : Device) (o : Origin) =>
      (busy d → Gives i s (fun _ => shown d cBUSY o)) ∧
      (¬busy d → d.isSet F.CAS_CFG_MASTER = false → Gives i s (fun _ => ended d 0 cNOTARMED o)) ∧
      (¬busy d → d.isSet F.CAS_CFG_MASTER = true → sync d → Gives i s (fun _ => ended d 0 cUNSUP o)) ∧
      (¬busy d → d.isSet F.CAS_CFG_MASTER = true → ¬sync d → ∀ e b us, e = (d.casEpoch + 1) % 65536 →
        b = from' d o →
        us = (List.range 16).filter (fun k => decide (k ≠ 0) &&
          (decide ((d.casRow k).role ≠ 0) || decide ((Sparse.get (fun _ => {}) d.formTable k).role ≠ 0))) →
        ∀ y : Device, y = us.foldl (fun d k => d.casSend 1 k ([e, b.toNat] ++ tableArgs d.formTable) []) d →
          Reaches i s (fun d' => d'.cas.change = some ⟨o, 0, 0, 0⟩ ∧ d'.fld F.CAS_CMD_STAT_BUSY = 1 ∧
            (o = .host → d'.fld (act 0) = 1) ∧
            announced d d' o d.formTable ∧ d'.outbox = y.outbox ∧ d'.time = d.time ∧
            d'.mem = d.mem))
    let cal := fun (i : Instr) (d : Device) (o : Origin) =>
      (busy d → Gives i s (fun _ => shown d cBUSY o)) ∧
      (¬busy d → ¬master d → Gives i s (fun _ => ended d 1 cNOTARMED o)) ∧
      (¬busy d → master d → ∀ t0, t0 = next1024 (d.time + nsTime (d.rdN Reg.CAS_LEAD)) → Reaches i s (fun d' =>
        d'.cas.cal = some t0 ∧ d'.cas.calForm = false ∧ d'.cas.calBy = o ∧ d'.outbox = d.outbox ++ [.markTrain t0 4096] ∧
        d'.fld F.CAS_CMD_STAT_BUSY = 1 ∧
        (∀ n, n < 16 → (d'.casDev n).nT = 0 ∧ (d'.casDev n).nU = 0 ∧ (d'.casDev n).sumT = 0 ∧ (d'.casDev n).sumU = 0) ∧
        d' = { d with regs := d'.regs, cas := d'.cas, outbox := d'.outbox }))
    let reset := fun (i : Instr) (d : Device) (t : Time) (o : Origin) => ∀ w, w = (busy d ∨ d.hasReq [.decReset] 0 = true) →
      (w → Gives i s (fun _ => shown d cBUSY o)) ∧ (¬w → ¬master d → Gives i s (fun _ => ended d 2 cNOTARMED o)) ∧
      (¬w → master d → ∀ tr, tr = d.boundaryFrom (timeMax t (d.time + nsTime (d.rdN Reg.CAS_LEAD))) →
        ∀ y : Device, y = d.casOthers.foldl (fun d k => d.casSend 5 k [tr.toNat, 1] []) d →
          Gives i s (fun _ => began ((y.send (.mark tr)).request .decReset 0 tr o [1]) 2 o))
    let take := fun (i : Instr) (d : Device) dv named (o : Origin) =>
      (busy d → Gives i s (fun _ => shown d cBUSY o)) ∧
      (¬busy d → d.casStandby named = none → Gives i s (fun _ => ended d 3 cNOSPARE o)) ∧
      (¬busy d → d.casStandby named ≠ none → ¬master d → Gives i s (fun _ => ended d 3 cNOTARMED o)) ∧
      (¬busy d → d.casStandby named ≠ none → master d → dv = 0 ∨ sync d → Gives i s (fun _ => ended d 3 cUNSUP o)) ∧
      (∀ n, ¬busy d → d.casStandby named = some n → master d → dv ≠ 0 → ¬sync d → Reaches i s (fun d' =>
        d'.cas.change = some ⟨o, 3, dv, n⟩ ∧
        announced d d' o (Sparse.set (fun _ => {}) (Sparse.set (fun _ => {}) d.cas.table n {}) dv ⟨(d.casRow n).ident, 2⟩) ∧ d'.fld F.CAS_CMD_STAT_BUSY = 1 ∧ (o = .host → d'.fld (act 3) = 1)))
    let leave := fun (i : Instr) (d : Device) dv (o : Origin) =>
      (¬master d → Reaches i s (fun d' => d'.casRole = 0 ∧ d'.fld F.CAS_STAT_TIME_OK = 0 ∧ d'.fld F.CAS_CMD_STAT_CODE = cOK ∧
        d'.fld F.CAS_STAT_SLEWING = 0 ∧
        d'.cas = { d.cas with slew := 0, marks := [], resets := [], errs := [], coarse := none } ∧
        d' = (({ d.dropReq .role 0 with regs := d'.regs, cas := d'.cas } : Device).complete o cOK none))) ∧
      (master d → busy d → Gives i s (fun _ => shown d cBUSY o)) ∧
      (master d → ¬busy d → sync d → Gives i s (fun _ => ended d 4 cUNSUP o)) ∧
      (master d → ¬busy d → ¬sync d → Reaches i s (fun d' => d'.cas.change = some ⟨o, 4, dv, 0⟩ ∧
        announced d d' o (Sparse.set (fun _ => {}) d.cas.table dv {}) ∧ d'.fld F.CAS_CMD_STAT_BUSY = 1 ∧
        (o = .host → d'.fld (act 4) = 1)))
    form .casCtlForm d .host ∧ cal .casCtlCal d .host ∧ reset .casCtlReset d (d.rdTime Reg.CAS_AT_LO) .host ∧
    take .casCtlTakeover d (d.fld F.CAS_CMD_ARG_DEVICE) (d.fld F.CAS_CMD_ARG_STANDBY) .host ∧
    leave .casCtlLeave d (d.fld F.CAS_CMD_ARG_DEVICE) .host ∧
    (d.comes 0x12 1 1 u → form (.casForm u) taken u.origin) ∧ (d.comes 0x12 2 1 u → cal (.casCal u) taken u.origin) ∧
    (d.comes 0x12 3 1 u → reset (.casReset u) taken (BitVec.ofNat 64 (u.dword 0)) u.origin) ∧
    (d.comes 0x12 4 1 u → take (.casTakeover u) taken (u.imm % 16) (u.imm / 256 % 256) u.origin) ∧
    (d.comes 0x12 5 1 u → leave (.casLeave u) taken (u.imm % 16) u.origin) ∧
    (6 ≤ l → Gives (.casLinkRun l peer) s id) ∧
    (l < 6 → d.isSet (F.CAS_L_CFG_RUN l) = true → Gives (.casLinkRun l peer) s (fun d => d.setFld (F.CAS_L_CFG_PEER l) peer)) ∧
    (l < 6 → d.isSet (F.CAS_L_CFG_RUN l) = false → ∀ c, c = d.linkCode l → ∀ x : Device,
      x = (d.setFld (F.CAS_L_CFG_PEER l) peer).setFld (F.CAS_L_STAT_CODE l) c →
      (c ≠ cOK → Gives (.casLinkRun l peer) s (fun _ => x)) ∧
      (c = cOK → Gives (.casLinkRun l peer) s (fun _ => (x.setCasLink l {}).setFld (F.CAS_L_CFG_RUN l) 1)))

/-- R545, R549, R552, R553, R556, R557. -/
def Obligations.CascadeTimers : Prop :=
  ∀ (s : State) (l seq dv j : Nat) (theta fwd : Int) (w : CasWait),
    let d := s.dev
    let x := d.casLink l
    let master := d.casRole = 1
    let member := d.casRole = 2 ∨ d.casRole = 3
    let due := fun (t : Time) ns => timeLE (t + nsTime ns) d.time
    let fault := fun (d : Device) => (d.flag F.CAS_FLAGS_TIME_FAULT Reg.CAS_TIME_FAULT_CNT).setFld F.CAS_STAT_TIME_OK 0
    let told := fun (d : Device) => (d.wr Reg.CAS_FWD (wrap 32 fwd)).wr64 Reg.CAS_OFFSET_LO (wrap 64 theta)
    ((∀ v ∈ x.wait, v.seq ≠ seq) → Gives (.controlRetryTimeout l seq) s id) ∧
    (x.wait.find? (fun v => decide (v.seq = seq)) = some w →
      (timeLT d.time (w.sent + nsTime 10000) = true ∨ d.cas.stale = true → Gives (.controlRetryTimeout l seq) s id) ∧
      (timeLT d.time (w.sent + nsTime 10000) = false → d.cas.stale = false → d.cas.deaf = true → w.dst = 0 →
        Gives (.controlRetryTimeout l seq) s (fun d =>
          (d.setCasLink l { x with wait := x.wait.filter (fun v => decide (v.seq ≠ seq)) }).flag F.CAS_FLAGS_TX_DROP Reg.CAS_TX_DROP_CNT)) ∧
      (timeLT d.time (w.sent + nsTime 10000) = false → d.cas.stale = false → d.cas.deaf = false ∨ w.dst ≠ 0 → w.tries < 8 → Gives (.controlRetryTimeout l seq) s (fun d =>
        (d.setCasLink l { x with wait := x.wait.map (fun v => if v.seq = seq then { v with tries := v.tries + 1, sent := d.time } else v) }).send
          (.casMsg l true w.ty w.epoch d.casSelf w.dst w.seq w.args []))) ∧
      (timeLT d.time (w.sent + nsTime 10000) = false → d.cas.stale = false → d.cas.deaf = false ∨ w.dst ≠ 0 → 8 ≤ w.tries → Gives (.controlRetryTimeout l seq) s (fun d =>
        (d.setCasLink l { x with wait := x.wait.filter (fun v => decide (v.seq ≠ seq)) }).flag F.CAS_FLAGS_UNACKED Reg.CAS_UNACKED_CNT))) ∧
    (member → due d.cas.statusAt 100000 = true → Gives .statusSend s (fun d =>
      ({ d with cas := { d.cas with statusAt := d.time } } : Device).casSend 6 0
        [if d.fld F.SYS_STAT_STATE = 3 then 1 else 0, d.fld F.CAS_STAT_TIME_OK] [])) ∧
    ((¬member ∧ d.cas.stale = false) ∨ due d.cas.statusAt 100000 = false → Gives .statusSend s id) ∧
    (master ∨ d.casRole = 2 → due d.cas.decidedAt 1000 = true → Gives .decidedSend s (fun d =>
      d.casOthers.foldl (fun (y : Device) n => y.casSend 7 n [d.rd64 Reg.TRG_DECIDED_LO] [])
        { d with cas := { d.cas with decidedAt := d.time } })) ∧
    ((¬master ∧ d.casRole ≠ 2) ∨ due d.cas.decidedAt 1000 = false → Gives .decidedSend s id) ∧
    (master → dv ∈ d.casOthers → d.fld (F.CAS_D_STAT_STATE dv) = 1 ∨ d.fld (F.CAS_D_STAT_STATE dv) = 2 →
      due (d.casDev dv).heard (d.rdN Reg.CAS_TIMEOUT) = true →
      ∀ y : Device, y = ((d.setFld (F.CAS_D_STAT_STATE dv) 3).setFld (F.CAS_D_STAT_TIME_OK dv) 0).flag F.CAS_FLAGS_LOST Reg.CAS_LOST_CNT →
      (d.isSet F.CAS_CFG_AUTO_TAKEOVER = false ∨ (d.casRow dv).role ≠ 2 → Gives (.deviceLostTimeout dv) s (fun _ => y)) ∧
      (d.isSet F.CAS_CFG_AUTO_TAKEOVER = true → (d.casRow dv).role = 2 →
        (d.casBusy = true → Gives (.deviceLostTimeout dv) s (fun _ => { y with cas := { y.cas with takeovers := d.cas.takeovers ++ [dv] } })) ∧
        (d.casBusy = false → Gives (.deviceLostTimeout dv) s (fun _ => y.casTakeReq dv 0xFF .device)))) ∧
    (∀ y : Device, (y.cas.takeovers = [] → y.casWaiting = y) ∧ (∀ n ns, y.cas.takeovers = n :: ns →
      (y.casBusy = true → y.casWaiting = y) ∧
      (y.casBusy = false → y.casWaiting = ({ y with cas := { y.cas with takeovers := ns } } : Device).casTakeReq n 0xFF .device))) ∧
    (¬master ∨ dv ∉ d.casOthers ∨ due (d.casDev dv).heard (d.rdN Reg.CAS_TIMEOUT) = false → Gives (.deviceLostTimeout dv) s id) ∧
    (member → d.cas.deaf = false → due d.cas.heard (d.rdN Reg.CAS_TIMEOUT) = true → Gives .masterLostTimeout s (fun d =>
      (({ (d.flag F.CAS_FLAGS_MASTER_LOST Reg.CAS_MASTER_LOST_CNT).setFld F.CAS_STAT_TIME_OK 0 with
        cas := { d.cas with deaf := true, slew := 0, marks := [], errs := [] } } : Device).setFld F.CAS_STAT_SLEWING 0))) ∧
    (¬member ∨ d.cas.deaf = true ∨ due d.cas.heard (d.rdN Reg.CAS_TIMEOUT) = false → Gives .masterLostTimeout s id) ∧
    (master → d.cas.cal = none → Gives (.cascadeCalDone theta fwd) s id) ∧
    (∀ t0, master → d.cas.cal = some t0 → timeLT d.time (t0 + BitVec.ofNat 64 (4096 * 65536000)) = true →
      Gives (.cascadeCalDone theta fwd) s id) ∧
    (∀ t0 e k, master → d.cas.cal = some t0 → timeLT d.time (t0 + BitVec.ofNat 64 (4096 * 65536000)) = false → d.casOthers = [] →
      d.cas.calBy = .port e k → Reaches (.cascadeCalDone theta fwd) s (fun d' =>
        d'.cas = { d.cas with cal := none, calForm := false, recalAt := d.time, markAt := d.time } ∧
        d'.fld F.CAS_STAT_TIME_OK = 1 ∧ d'.fld (F.CAS_D_STAT_STATE 0) = 2 ∧ d'.fld F.CAS_CMD_STAT_BUSY = 0 ∧
        d'.fld F.CAS_CMD_STAT_CODE = d.cas.formCode % 256 ∧
        d'.completions = d.completions ++ [⟨e, k, d.cas.formCode, none⟩] ∧
        d' = { d with regs := d'.regs, cas := d'.cas, completions := d'.completions })) ∧
    (¬master → ¬member → Gives (.cascadeCalDone theta fwd) s id) ∧
    (member →
      (d.cas.calForm = true → Gives (.cascadeCalDone theta fwd) s (fun d =>
        ({ told d with time := d.time - BitVec.ofInt 64 theta, cas := { d.cas with calForm := false } } : Device).setFld F.CAS_STAT_TIME_OK 1)) ∧
      (d.cas.calForm = false → 65536 ≤ theta.natAbs → Gives (.cascadeCalDone theta fwd) s (fun d => fault (told d))) ∧
      (d.cas.calForm = false → theta.natAbs < 65536 → Gives (.cascadeCalDone theta fwd) s (fun d =>
        (({ told d with cas := { d.cas with slew := theta } } : Device).setFld F.CAS_STAT_SLEWING
          (if theta = 0 then 0 else 1)).setFld F.CAS_STAT_TIME_OK 1))) ∧
    (∀ n, n = d.rdN Reg.CAS_RECAL % 65536 →
      (master → n ≠ 0 → d.casBusy = false → due d.cas.recalAt (n * 10 ^ 9) = true → Reaches .recalTimer s (fun d' =>
        d'.cas.cal = some (next1024 (d.time + nsTime (d.rdN Reg.CAS_LEAD))) ∧ d'.cas.calBy = .device ∧ d'.cas.recalAt = d.time ∧
        d' = { d with cas := d'.cas, outbox := d'.outbox })) ∧
      (¬master ∨ n = 0 ∨ d.casBusy = true ∨ due d.cas.recalAt (n * 10 ^ 9) = false → Gives .recalTimer s id)) ∧
    (∀ p, p = d.rdN Reg.CAS_MARK_PERIOD % 2 ^ 20 →
      (master → d.isSet F.CAS_STAT_TIME_OK = true → d.cas.cal = none → due d.cas.markAt (p * 1000) = true → Gives .markTimer s (fun d =>
        (d.casOthers.foldl (fun (y : Device) n => y.casSend 5 n [(d.time + nsTime (d.rdN Reg.CAS_LEAD)).toNat, 0] [])
          { d with cas := { d.cas with markAt := d.time } }).send (.mark (d.time + nsTime (d.rdN Reg.CAS_LEAD))))) ∧
      (¬master ∨ d.isSet F.CAS_STAT_TIME_OK = false ∨ d.cas.cal ≠ none ∨ due d.cas.markAt (p * 1000) = false →
        Gives .markTimer s id)) ∧
    (d.isSet F.CAS_STAT_SLEWING = false ∨ d.cas.slewTick < 64 → Gives .slewStep s id) ∧
    (d.isSet F.CAS_STAT_SLEWING = true → 64 ≤ d.cas.slewTick →
      (d.cas.slew < -1 → Gives .slewStep s (fun d =>
        { d with time := d.time + 1, cas := { d.cas with slew := d.cas.slew + 1, slewTick := 0 } })) ∧
      (1 < d.cas.slew → Gives .slewStep s (fun d =>
        { d with time := d.time - 1, cas := { d.cas with slew := d.cas.slew - 1, slewTick := 0 } })) ∧
      (d.cas.slew = 1 → Gives .slewStep s (fun d =>
        ({ d with time := d.time - 1, cas := { d.cas with slew := 0, slewTick := 0 } } : Device).setFld F.CAS_STAT_SLEWING 0))) ∧
    ((∀ c ∈ d.cas.comps, c.join ≠ j) → Gives (.joinWaitTimeout j) s id) ∧
    (∀ c cs t, d.cas.comps = c :: cs → c.join = j → c.own = some t → due t (d.rdN (Reg.CAS_J_WAIT j)) = true →
      Gives (.joinWaitTimeout j) s (fun d => d.compLeave c))

/-- R563, R565 to R571, R574, R575. -/
def Obligations.PanelCommands : Prop :=
  ∀ (s : State) (u : UCmd) (t : Time) (drive level cmd : Nat) (ok lacks lost : Bool) (data : List Byte),
    let d := s.dev
    let taken := d.accept u
    let p := d.panel
    let state := d.fld F.PNL_STAT_STATE
    let shown := fun (d : Device) c (o : Origin) => (d.setFld F.PNL_STAT_CODE c).complete o c none
    let ended := fun (d : Device) a c (o : Origin) => shown (d.setFld ⟨Reg.PNL_CTL, ⟨a, 1⟩⟩ 0) c o
    let answers := fun (l : List (Origin × Nat)) => l.filterMap (fun x => match x.1 with
      | .port e k => some (⟨e, k, x.2, none⟩ : Completion)
      | _ => none)
    let stamped := fun (l : List Origin) => l.filterMap (fun x => match x with
      | .port e k => some (⟨e, k, cOK, some t⟩ : Completion)
      | _ => none)
    let starts := fun (i : Instr) (d : Device) (o : Origin) =>
      (d.pStartCode ≠ cOK → d.panel.start = none → Gives i s (fun _ => ended d 0 d.pStartCode o)) ∧
      (d.pStartCode = cBUSY → d.panel.start ≠ none → Gives i s (fun _ => shown d cBUSY o)) ∧
      (d.pStartCode = cOK → Reaches i s (fun d' => d'.fld F.PNL_STAT_STATE = 1 ∧ d'.rdN Reg.PNL_FRAMES = 0 ∧
        (o = .host → d'.fld F.PNL_CTL_START = 1) ∧ d'.outbox = d.outbox ++ [.aux 9 0 16 []] ∧
        d'.panel = { d.panel with start := some o, phase := 1, retrain := false, idle := none, stopCode := 0 } ∧
        d' = { d with regs := d'.regs, panel := d'.panel, outbox := d'.outbox }))
    let stops := fun (i : Instr) (d : Device) (o : Origin) =>
      (d.fld F.PNL_STAT_STATE = 0 → Gives i s (fun _ => ended d 1 cOK o)) ∧
      (d.fld F.PNL_STAT_STATE ≠ 0 → ∀ y : Device, y = { d with panel := { d.panel with stops := d.panel.stops ++ [o] } } →
        Gives i s (fun _ => if o = .host then y.setFld F.PNL_CTL_STOP 1 else y))
    let commits := fun (i : Instr) (d : Device) (o : Origin) => ∀ c, c = firstCode (d.layerChecks ++ [(decide (d.fld F.PNL_STAT_STATE = 0), cNOTARMED)]) →
      (c ≠ cOK → Gives i s (fun _ => ended d 2 c o)) ∧
      (c = cOK → ∀ y : Device, y = ({ d with panel := { d.panel with commits := d.panel.commits ++ [⟨o, none⟩] } } : Device).setFld
          F.PNL_STAT_COMMIT_PENDING 1 → Gives i s (fun _ => if o = .host then y.setFld F.PNL_CTL_COMMIT 1 else y))
    let aux := fun (d : Device) (q n : Nat) => (((d.setFld F.PNL_AUX_STAT_BUSY 0).setFld F.PNL_AUX_STAT_REPLY q).setFld F.PNL_AUX_STAT_BYTES
      n).setFld F.PNL_AUX_CMD_GO 0
    let msa := Out.msa (d.rdN Reg.PNL_PIX_M) (d.rdN Reg.PNL_PIX_N) d.timingFields (d.isSet F.PNL_CFG_HSYNC_POL) (d.isSet F.PNL_CFG_VSYNC_POL)
      (if d.isSet F.PNL_CFG_BPC then 6 else 8)
    starts .pnlCtlStart d .host ∧ stops .pnlCtlStop d .host ∧ commits .pnlCtlCommit d .host ∧
    (d.comes 0x13 1 1 u → starts (.pnlStart u) taken u.origin) ∧ (d.comes 0x13 2 1 u → stops (.pnlStop u) taken u.origin) ∧
    (d.comes 0x13 3 1 u → commits (.pnlCommit u) taken u.origin) ∧
    ((∀ l, l < 4 → bitAt (d.rdN (Reg.PNL_L_CFG l)) 0 = false ∧ bitsOf (d.rdN (Reg.PNL_L_CFG l)) 1 2 ≠ 3) → firstCode d.layerChecks = cOK) ∧
    (∀ l, l < 4 → bitsOf (d.rdN (Reg.PNL_L_CFG l)) 1 2 = 3 → firstCode d.layerChecks ≠ cOK) ∧
    -- FLIP (R571).
    (∀ l, l = u.unit → d.comes 0x13 4 4 u → ∀ e : Device,
      e = (taken.wrRw (Reg.PNL_L_BASE_LO l) (u.dword 0 % 2 ^ 32)).wrRw (Reg.PNL_L_BASE_HI l) (u.dword 0 / 2 ^ 32) →
      ((∃ r ∈ p.commits, r.flip = some l) → Gives (.pnlFlip u) s (fun _ => shown taken cBUSY u.origin)) ∧
      ((∀ r ∈ p.commits, r.flip ≠ some l) → ∀ c, c = firstCode (e.layerChecks ++ [(decide (state = 0), cNOTARMED)]) →
        (c ≠ cOK → Gives (.pnlFlip u) s (fun _ => shown taken c u.origin)) ∧
        (c = cOK → Gives (.pnlFlip u) s (fun _ =>
          ({ e with panel := { p with commits := p.commits ++ [⟨u.origin, some l⟩] } } : Device).setFld F.PNL_STAT_COMMIT_PENDING 1)))) ∧
    -- Training (R565, R575).
    (p.phase = 0 ∨ p.phase = 5 → Gives (.trainingStepDone ok lacks drive) s id) ∧
    (p.retrain = false → p.phase = 1 → ok = true → lacks = false → Reaches (.trainingStepDone ok lacks drive) s (fun d' =>
      d'.panel = { p with phase := 2 } ∧ d'.outbox.length = d.outbox.length + 3 ∧ d' = { d with panel := d'.panel, outbox := d'.outbox })) ∧
    (p.retrain = false → p.phase = 4 → ok = true → lacks = false → Reaches (.trainingStepDone ok lacks drive) s (fun d' =>
      d'.panel = { p with phase := 5 } ∧ d'.outbox = d.outbox ++ [.pattern 0] ∧ d'.fld ⟨Reg.PNL_DRIVE, ⟨0, 16⟩⟩ = drive % 65536 ∧
      d' = { d with panel := d'.panel, outbox := d'.outbox, regs := d'.regs })) ∧
    (∀ o c, p.retrain = false → p.phase = 1 → p.start = some o → p.commits = [] → p.stops = [] →
      c = (if ok then cUNSUP else cCONDITIONS) → ok = false ∨ lacks = true → Reaches (.trainingStepDone ok lacks drive) s (fun d' =>
        d'.fld F.PNL_STAT_STATE = 0 ∧ d'.fld F.PNL_STAT_CODE = c ∧ d'.panel = { p with phase := 0, idle := none, start := none, stopCode := 0 } ∧
        d'.completions = d.completions ++ answers [(o, c)] ∧
        d' = { d with regs := d'.regs, panel := d'.panel, completions := d'.completions })) ∧
    -- Commit points (R569, R570, R566).
    (p.idle ≠ none ∨ state = 0 → Gives (.commitPoint t) s id) ∧
    (state = 2 → p.idle = none → Reaches (.commitPoint t) s (fun d' =>
      d'.rdN Reg.PNL_FRAMES = (d.rdN Reg.PNL_FRAMES + 1) % 2 ^ 32 ∧ d'.rdTime Reg.PNL_FRAME_LO = t ∧ d'.fld F.PNL_STAT_COMMIT_PENDING = 0 ∧
      d'.completions = d.completions ++ stamped (p.commits.map (fun r => r.origin)) ∧
      d'.outbox = d.outbox ++ (if p.stops = [] then [.vsync t, msa] else [.vsync t, msa, .pattern 0]) ∧
      d'.panel = { p with layers := d'.panel.layers, commits := [], x := 0, y := 0, fill := false,
                          idle := if p.stops = [] then none else some t } ∧
      (p.commits = [] → d'.panel.layers = p.layers) ∧
      (p.commits ≠ [] → ∀ l, l < 4 → d'.pLayer l = d.pPend l ∧ (d.rd64 (Reg.PNL_L_BASE_LO l) < 2 ^ 64 →
        d'.rd64 (Reg.PNL_L_CUR_LO l) = d.rd64 (Reg.PNL_L_BASE_LO l))) ∧
      d' = { d with regs := d'.regs, panel := d'.panel, outbox := d'.outbox, completions := d'.completions })) ∧
    (∀ o, state = 1 → p.phase = 5 → p.idle = none → p.start = some o → p.stops = [] → Reaches (.commitPoint t) s (fun d' =>
      d'.fld F.PNL_STAT_STATE = 2 ∧ (∀ l, l < 4 → d'.pLayer l = d.pPend l) ∧ d'.panel.start = none ∧ d'.panel.phase = 0 ∧
      d'.completions = d.completions ++ stamped (p.commits.map (fun r => r.origin) ++ [o]) ∧
      d' = { d with regs := d'.regs, panel := d'.panel, outbox := d'.outbox, completions := d'.completions })) ∧
    -- Pixels (R568, R574).
    (state ≠ 2 ∨ p.idle ≠ none ∨ d.vAct ≤ p.y → Gives (.pixelDue level) s id) ∧
    (∀ v, state = 2 → p.idle = none → p.y < d.vAct → p.retrain = false → d.isSet F.PNL_CFG_BPC = false → level < 2 ^ 14 →
      ((p.fill = true ∨ level = 0) ∧ v = d.rdN Reg.PNL_FILL % 2 ^ 24) ∨
        (p.fill = false ∧ 0 < level ∧ (∀ l, l < 4 → (d.pLayer l).en = false) ∧ v = d.rdN Reg.PNL_BG % 2 ^ 24) ∨
        (p.fill = false ∧ 0 < level ∧ (∀ l, 0 < l → l < 4 → (d.pLayer l).en = false) ∧ (d.pLayer 0).en = true ∧ (d.pLayer 0).fmt = 2 ∧
          bitAt (d.pLayer 0).cfg 3 = true ∧ (d.pLayer 0).px ≤ p.x ∧ p.x < (d.pLayer 0).px + (d.pLayer 0).w ∧ p.x < d.hAct ∧
          (d.pLayer 0).py ≤ p.y ∧ p.y < (d.pLayer 0).py + (d.pLayer 0).h ∧
          v = memLE d.mem ((d.pLayer 0).base + (p.y - (d.pLayer 0).py) * (d.pLayer 0).stride + (p.x - (d.pLayer 0).px) * 4) 4 % 2 ^ 24) →
      Reaches (.pixelDue level) s (fun d' => d'.outbox = d.outbox ++ [.pixel p.x p.y v] ∧
        (p.x + 1 < d.hAct → d'.panel = { p with x := p.x + 1, fill := p.fill || decide (level = 0) }) ∧
        (d.hAct ≤ p.x + 1 → d'.panel = { p with x := 0, y := p.y + 1, fill := false }) ∧
        (p.fill = false → level = 0 → d'.fld F.PNL_FLAGS_UNDERRUN = 1 ∧
          d'.rdN Reg.PNL_UNDERRUN_CNT = min (d.rdN Reg.PNL_UNDERRUN_CNT + 1) 0xFFFFFFFF) ∧
        (p.fill = true ∨ level = 0 → d'.latAt = d.latAt) ∧
        d' = { d with outbox := d'.outbox, panel := d'.panel, regs := d'.regs, latAt := d'.latAt })) ∧
    -- The end of scan-out (R566).
    (p.idle = none → Gives .panelStopDone s id) ∧
    (∀ b, p.idle = some b → timeLE (b + nsTime 1000000) d.time = false → Gives .panelStopDone s id) ∧
    (∀ b, p.idle = some b → timeLE (b + nsTime 1000000) d.time = true → Reaches .panelStopDone s (fun d' =>
      d'.fld F.PNL_STAT_STATE = 0 ∧ d'.fld F.PNL_STAT_CODE = p.stopCode % 256 ∧
      d'.completions = d.completions ++ answers (p.commits.map (fun r => (r.origin, cNOTARMED)) ++ p.stops.map (fun o => (o, cOK))) ∧
      d'.panel = { p with stops := [], commits := [], phase := 0, retrain := false, idle := none, start := none, stopCode := 0 } ∧
      d' = { d with regs := d'.regs, panel := d'.panel, completions := d'.completions })) ∧
    -- AUX (R563).
    (cmd / 2 ^ 24 % 32 = 0 ∨ 16 < cmd / 2 ^ 24 % 32 → Gives (.pnlAuxCmdGo cmd) s (fun d => d.setFld F.PNL_AUX_STAT_CODE cLENGTH)) ∧
    (0 < cmd / 2 ^ 24 % 32 → cmd / 2 ^ 24 % 32 ≤ 16 →
      (d.isSet F.PNL_AUX_STAT_BUSY = true ∨ state = 1 → Gives (.pnlAuxCmdGo cmd) s (fun d => d.setFld F.PNL_AUX_STAT_CODE cBUSY)) ∧
      (d.isSet F.PNL_AUX_STAT_BUSY = false → state ≠ 1 → ∀ y : Device, y = (d.setFld F.PNL_AUX_STAT_CODE cOK).wrRw Reg.PNL_AUX_CMD cmd →
        Gives (.pnlAuxCmdGo cmd) s (fun _ => ({ (y.setFld F.PNL_AUX_STAT_BUSY 1).setFld F.PNL_AUX_CMD_GO 1 with
          panel := { p with auxTries := 0, auxAt := d.time, auxDefer := false } } : Device).send
            (.aux (y.fld F.PNL_AUX_CMD_REQ) (y.fld F.PNL_AUX_CMD_ADDR) (y.fld F.PNL_AUX_CMD_LENGTH)
              (if bitAt (y.fld F.PNL_AUX_CMD_REQ) 0 then []
                else ((List.range 4).flatMap (fun j => bytesLE 4 (d.rdN (Reg.PNL_AUX_BUF j)))).take (y.fld F.PNL_AUX_CMD_LENGTH)))))) ∧
    (∀ q, d.isSet F.PNL_AUX_STAT_BUSY = false ∨ p.auxDefer = true → Gives (.auxReply q data) s id) ∧
    (d.isSet F.PNL_AUX_STAT_BUSY = true → p.auxDefer = false →
      (bitAt (d.fld F.PNL_AUX_CMD_REQ) 0 = false → Gives (.auxReply 0 data) s (fun d => aux d 0 (d.fld F.PNL_AUX_CMD_LENGTH))) ∧
      (bitAt (d.fld F.PNL_AUX_CMD_REQ) 0 = true → Gives (.auxReply 0 data) s (fun d =>
        aux (d.auxStore (data.take (d.fld F.PNL_AUX_CMD_LENGTH))) 0 (data.take (d.fld F.PNL_AUX_CMD_LENGTH)).length)) ∧
      Gives (.auxReply 1 data) s (fun d => aux d 1 0) ∧
      (p.auxTries < 7 → Gives (.auxReply 2 data) s (fun d => { d with panel := { p with auxDefer := true, auxAt := d.time } })) ∧
      (7 ≤ p.auxTries → Gives (.auxReply 2 data) s (fun d => aux d 2 0))) ∧
    (d.isSet F.PNL_AUX_STAT_BUSY = false ∨ timeLE (p.auxAt + nsTime 400000) d.time = false → Gives .auxTimeout s id) ∧
    (d.isSet F.PNL_AUX_STAT_BUSY = true → timeLE (p.auxAt + nsTime 400000) d.time = true →
      (7 ≤ p.auxTries → Gives .auxTimeout s (fun d => aux d 3 0)) ∧
      (p.auxTries < 7 → bitAt (d.fld F.PNL_AUX_CMD_REQ) 0 = true → Gives .auxTimeout s (fun d =>
        ({ d with panel := { p with auxTries := p.auxTries + 1, auxAt := d.time, auxDefer := false } } : Device).send
          (.aux (d.fld F.PNL_AUX_CMD_REQ) (d.fld F.PNL_AUX_CMD_ADDR) (d.fld F.PNL_AUX_CMD_LENGTH) [])))) ∧
    -- Hot plug (R575).
    (∀ up, d.isSet F.PNL_STAT_HPD = up → Gives (.hpdChange up lost) s id) ∧
    (d.isSet F.PNL_STAT_HPD = true → Gives (.hpdChange false lost) s (fun d =>
      { (d.setFld F.PNL_STAT_HPD 0).flag F.PNL_FLAGS_HPD Reg.PNL_HPD_CNT with panel := { p with hpdLow := some d.time } })) ∧
    (d.isSet F.PNL_STAT_HPD = false → ∀ y : Device, y = { (d.setFld F.PNL_STAT_HPD 1).flag F.PNL_FLAGS_HPD Reg.PNL_HPD_CNT with
        panel := { p with hpdLow := none } } →
      (p.hpdLow = none ∨ state ≠ 2 → Gives (.hpdChange true lost) s (fun _ => y)) ∧
      (∀ b, p.hpdLow = some b → state = 2 → 250000 * 65536 ≤ (d.time - b).toInt → (d.time - b).toInt ≤ 2000000 * 65536 →
        (lost = false → Gives (.hpdChange true lost) s (fun _ => y.send (.aux 9 0x202 4 []))) ∧
        (lost = true → p.retrain = false → p.idle = none → Reaches (.hpdChange true lost) s (fun d' =>
          d'.panel = { p with hpdLow := none, retrain := true, phase := 3 } ∧ d'.fld F.PNL_FLAGS_LINK_LOST = 1 ∧
          d'.outbox = d.outbox ++ [.aux 9 0x202 4 [], .pattern 1] ∧ d' = { d with panel := d'.panel, regs := d'.regs, outbox := d'.outbox })))) ∧
    (p.hpdLow = none ∨ state ≠ 2 → Gives .hpdLowTimeout s id) ∧
    (∀ b, p.hpdLow = some b → state = 2 → p.idle = none → p.stopCode = 0 →
      (timeLT (b + nsTime 2000000) d.time = false → Gives .hpdLowTimeout s id) ∧
      (timeLT (b + nsTime 2000000) d.time = true → Gives .hpdLowTimeout s (fun d =>
        { d with panel := { p with stops := p.stops ++ [.device], stopCode := cCONDITIONS, phase := 0, retrain := false } })))

/-- R12. -/
def Obligations.EventDuringCounterRead : Prop :=
  ∀ (s : State) (a : Nat) (event : Bool) (r : RegRow),
    let d := s.dev
    bar0Fits a 4 = true → d.windowOpen a = true → bar0Loc a = .reg → regRow a = some r → r.rc = 0xFFFFFFFF →
      (∀ q, a ≠ Reg.QUE_Q_PEAK q) → (Sparse.get (fun _ => none) d.hiLatch a : Option Word) = none →
      Reaches (.counterRead a event) s (fun d' =>
        (measured a = false → d'.hostRead = d.view a) ∧ (d'.rdN a = if event then 1 else 0) ∧
        (∀ b, b ≠ a → b ≠ Reg.HIF_TX_BYTES_LO → b ≠ Reg.HIF_TX_BYTES_HI → d'.rd b = d.rd b) ∧
        d' = { d with regs := d'.regs, hiLatch := d'.hiLatch, hostRead := d'.hostRead, hostReadEp := false, freeCount := d'.freeCount,
                      bankUsed := d'.bankUsed })

/-- R8. -/
def Obligations.WritablePairs : Prop :=
  ∀ (s : State) (a v w : Nat) (r q : RegRow),
    let d := s.dev.received 4
    let reach := fun b => bar0Fits b 4 = true ∧ d.windowOpen b = true
    let keep := fun (d : Device) (x : Option Word) => { d with loHeld := Sparse.set (fun _ => none) d.loHeld a x }
    let held : Option Word := Sparse.get (fun _ => none) d.loHeld a
    let holds := fun (x old mask new : Nat) => ∀ b, b < 32 → bitAt x b = if bitAt mask b then bitAt new b else bitAt old b
    let applies := fun (low : Nat) => Reaches (.hiWriteApply (a + 4) w) s (fun d' => ∃ x y,
      d' = (keep d none).written (((keep d none).wr a x).wr (a + 4) y) a (low + w * 2 ^ 32) ∧
      holds x (d.rdN a) r.rw low ∧ holds y (d.rdN (a + 4)) q.rw w)
    pairHalf a = 1 → pairHalf (a + 4) = 2 → regRow a = some r → regRow (a + 4) = some q → v < 2 ^ 32 → w < 2 ^ 32 →
      (reach a → d.locked a v = false → Gives (.loWriteHold a v) s (fun _ => keep d (some (BitVec.ofNat 32 v)))) ∧
      (reach (a + 4) → d.locked (a + 4) w = false →
        (∀ low, held = some low → (keep d none).locked a (low.toNat + w * 2 ^ 32) = false → applies low.toNat) ∧
        (held = none → (keep d none).locked a (d.rdN a + w * 2 ^ 32) = false → applies (d.rdN a)))

/-- R50: the reserved range lies above the context store (R46). -/
def Obligations.ReservedRange : Prop :=
  ∀ (s : State) (a v hw : Nat), 0x2400000 ≤ a → a < 0x4000000 → a % 4 = 0 → s.dev.windowOpen a = true →
    Reaches (.loReadLatch a 4) s (fun d' => d'.hostRead = 0 ∧
      d' = { s.dev.add64 Reg.HIF_TX_BYTES_LO 4 with hostRead := 0, hostReadEp := false }) ∧
    Gives (.hostRegisterWrite a 4 v hw) s (fun d => d.add64 Reg.HIF_RX_BYTES_LO 4)

/-- Reset (R5). Memory, which training clears before anything reads it (R419), reads zero at once: the model's choice (log entry 3). -/
def Obligations.ResetState : Prop :=
  let s := State.reset
  let d := s.dev
  s.pending = [] ∧ d.time = 0 ∧ (∀ a, memGet d.mem a = 0) ∧
  (∀ e, (d.eng e).Bounded ∧ (d.eng e).evq = []) ∧ (∀ q, d.queue q = {}) ∧
  (∀ n, n < 8 → d.fld (F.LNK_S_STAT_STATE n) = 0) ∧ (∀ z, z < 16 → d.fld (F.CHN_Z_STAT_RUNNING z) = 0) ∧
  (∀ n, n < 64 → d.fld (F.TRG_T_STAT_STATE n) = 0 ∧ d.fld (F.ACQ_B_STAT_STATE n) = 0 ∧ d.fld (F.DMA_C_CFG_EN n) = 0) ∧
  (∀ p ∈ [(Reg.CLK_ID, 1), (Reg.LNK_ID, 1), (Reg.CHN_ID, 1), (Reg.XF_ID, 1), (Reg.DET_ID, 1), (Reg.DEN_ID, 1), (Reg.TRG_ID, 1),
      (Reg.ACQ_ID, 1), (Reg.QUE_ID, 1), (Reg.CMP_ID, 1), (Reg.MEM_ID, 1), (Reg.HIF_ID, 1), (Reg.DMA_ID, 1), (Reg.EVT_ID, 1),
      (Reg.MON_ID, 1), (Reg.CAL_ID, 1), (Reg.ROT_ID, 1), (Reg.BST_ID, 1), (Reg.CAS_ID, 1), (Reg.PNL_ID, 1)],
    d.rdN p.1 = p.2) ∧
  d.rdN Reg.SYS_ID % 2 ^ 16 = 1 ∧ d.rd64 Reg.SYS_SAVE_BASE_LO = 0xBF8000000 ∧ d.rdN (Reg.LNK_S_HOLD 0) = 2000
end

