-- ==== Sys2Proof/Laws/Sparse.lean ====
section
/-! SUPPORT. Laws of sparse maps: reading after writing, and the canonical form that every operation keeps. -/

namespace Sys2Proof.Machine

variable {α : Type}

/-- A lower bound on the keys, weakened. -/
theorem Sparse.wfFrom_none [DecidableEq α] (d : Nat → α) (lo : Option Nat) (m : Sparse α)
    (h : Sparse.wfFrom d lo m = true) : Sparse.wfFrom d none m = true := by
  cases m with
  | nil => rfl
  | cons kv m => obtain ⟨k, v⟩ := kv; simp [Sparse.wfFrom] at h ⊢; exact ⟨h.1.2, h.2⟩

/-- A map whose keys lie above `hi` has its keys above any smaller bound. -/
theorem Sparse.wfFrom_lower [DecidableEq α] (d : Nat → α) (lo hi : Nat) (h : lo ≤ hi) (m : Sparse α)
    (w : Sparse.wfFrom d (some hi) m = true) : Sparse.wfFrom d (some lo) m = true := by
  cases m with
  | nil => rfl
  | cons kv m => obtain ⟨k, v⟩ := kv; simp [Sparse.wfFrom] at w ⊢; exact ⟨⟨by omega, w.1.2⟩, w.2⟩

/-- Below its lowest key a map reads as its default. -/
theorem Sparse.get_below [DecidableEq α] (d : Nat → α) (lo : Nat) (m : Sparse α)
    (w : Sparse.wfFrom d (some lo) m = true) (k : Nat) (hk : k ≤ lo) : Sparse.get d m k = d k := by
  induction m generalizing lo with
  | nil => rfl
  | cons kv m ih =>
    obtain ⟨k', v⟩ := kv
    simp [Sparse.wfFrom] at w
    have : k ≠ k' := by omega
    simp only [Sparse.get, this, if_false]
    exact ih k' w.2 (by omega)

/-- Reading the key just listed. -/
theorem Sparse.get_ins_same (d : Nat → α) (m : Sparse α) (k : Nat) (v : α) :
    Sparse.get d (Sparse.ins m k v) k = v := by
  induction m with
  | nil => simp [Sparse.ins, Sparse.get]
  | cons kv m ih =>
    obtain ⟨k', v'⟩ := kv
    simp only [Sparse.ins]
    split
    · simp [Sparse.get]
    · split
      · simp [Sparse.get]
      · rename_i h1 h2; simp [Sparse.get, h2, ih]

/-- Listing one key leaves the others. -/
theorem Sparse.get_ins_other (d : Nat → α) (m : Sparse α) (k j : Nat) (v : α) (h : j ≠ k) :
    Sparse.get d (Sparse.ins m k v) j = Sparse.get d m j := by
  induction m with
  | nil => simp [Sparse.ins, Sparse.get, h]
  | cons kv m ih =>
    obtain ⟨k', v'⟩ := kv
    simp only [Sparse.ins]
    split
    · simp [Sparse.get, h]
    · split
      · rename_i h1 h2; subst h2; simp [Sparse.get, h]
      · simp only [Sparse.get, ih]

/-- A deleted key reads as the default. -/
theorem Sparse.get_del_same (d : Nat → α) (m : Sparse α) (k : Nat) : Sparse.get d (Sparse.del m k) k = d k := by
  induction m with
  | nil => rfl
  | cons kv m ih =>
    obtain ⟨k', v'⟩ := kv
    simp only [Sparse.del]
    split
    · exact ih
    · rename_i h; simp [Sparse.get, h, ih]

/-- Deleting one key leaves the others. -/
theorem Sparse.get_del_other (d : Nat → α) (m : Sparse α) (k j : Nat) (h : j ≠ k) :
    Sparse.get d (Sparse.del m k) j = Sparse.get d m j := by
  induction m with
  | nil => rfl
  | cons kv m ih =>
    obtain ⟨k', v'⟩ := kv
    simp only [Sparse.del]
    split
    · rename_i h'; subst h'; simp [Sparse.get, h, ih]
    · simp only [Sparse.get, ih]

/-- Reading what was just written. -/
@[simp] theorem Sparse.get_set_same [DecidableEq α] (d : Nat → α) (m : Sparse α) (k : Nat) (v : α) :
    Sparse.get d (Sparse.set d m k v) k = v := by
  unfold Sparse.set
  split
  · rename_i h; rw [Sparse.get_del_same, h]
  · exact Sparse.get_ins_same d m k v

/-- A write leaves every other key. -/
theorem Sparse.get_set_other [DecidableEq α] (d : Nat → α) (m : Sparse α) (k j : Nat) (v : α) (h : j ≠ k) :
    Sparse.get d (Sparse.set d m k v) j = Sparse.get d m j := by
  unfold Sparse.set
  split
  · exact Sparse.get_del_other d m k j h
  · exact Sparse.get_ins_other d m k j v h

/-- Reading after a write, at any key. -/
theorem Sparse.get_set [DecidableEq α] (d : Nat → α) (m : Sparse α) (k j : Nat) (v : α) :
    Sparse.get d (Sparse.set d m k v) j = if j = k then v else Sparse.get d m j := by
  split
  · rename_i h; subst h; exact Sparse.get_set_same d m _ v
  · rename_i h; exact Sparse.get_set_other d m k j v h

/-- Listing a value that is not the default keeps the canonical form. -/
theorem Sparse.wfFrom_ins [DecidableEq α] (d : Nat → α) (k : Nat) (v : α) (hv : v ≠ d k) (lo : Option Nat)
    (m : Sparse α) (hlo : ∀ l, lo = some l → l < k) (w : Sparse.wfFrom d lo m = true) :
    Sparse.wfFrom d lo (Sparse.ins m k v) = true := by
  induction m generalizing lo with
  | nil => cases lo <;> simp [Sparse.ins, Sparse.wfFrom, hv]; exact hlo _ rfl
  | cons kv m ih =>
    obtain ⟨k', v'⟩ := kv
    simp only [Sparse.ins]
    split
    · rename_i h
      have h1 := w
      simp only [Sparse.wfFrom, Bool.and_eq_true, decide_eq_true_eq] at w ⊢
      refine ⟨⟨?_, hv⟩, ⟨h, w.1.2⟩, w.2⟩
      cases lo with
      | none => rfl
      | some l => simpa using hlo l rfl
    · split
      · rename_i h1 h2
        subst h2
        simp only [Sparse.wfFrom, Bool.and_eq_true, decide_eq_true_eq] at w ⊢
        exact ⟨⟨w.1.1, hv⟩, w.2⟩
      · rename_i h1 h2
        simp only [Sparse.wfFrom, Bool.and_eq_true, decide_eq_true_eq] at w ⊢
        refine ⟨w.1, ih (some k') ?_ w.2⟩
        intro l hl; cases hl; omega

/-- Deleting a key keeps the canonical form. -/
theorem Sparse.wfFrom_del [DecidableEq α] (d : Nat → α) (k : Nat) (lo : Option Nat) (m : Sparse α)
    (w : Sparse.wfFrom d lo m = true) : Sparse.wfFrom d lo (Sparse.del m k) = true := by
  induction m generalizing lo with
  | nil => exact w
  | cons kv m ih =>
    obtain ⟨k', v'⟩ := kv
    simp only [Sparse.del]
    simp only [Sparse.wfFrom, Bool.and_eq_true, decide_eq_true_eq] at w
    split
    · apply ih
      cases lo with
      | none => exact Sparse.wfFrom_none d _ m w.2
      | some l =>
        have hl : l < k' := by simpa using w.1.1
        exact Sparse.wfFrom_lower d l k' (by omega) m w.2
    · simp only [Sparse.wfFrom, Bool.and_eq_true, decide_eq_true_eq]
      exact ⟨w.1, ih (some k') w.2⟩

/-- Every write keeps the canonical form. -/
theorem Sparse.wf_set [DecidableEq α] (d : Nat → α) (m : Sparse α) (k : Nat) (v : α) (w : Sparse.wf d m = true) :
    Sparse.wf d (Sparse.set d m k v) = true := by
  unfold Sparse.set
  split
  · exact Sparse.wfFrom_del d k none m w
  · rename_i h; exact Sparse.wfFrom_ins d k v h none m (by simp) w

/-- Every update keeps the canonical form. -/
theorem Sparse.wf_upd [DecidableEq α] (d : Nat → α) (m : Sparse α) (k : Nat) (f : α → α) (w : Sparse.wf d m = true) :
    Sparse.wf d (Sparse.upd d m k f) = true := Sparse.wf_set d m k _ w

/-- Keeping some of the entries keeps the canonical form. -/
theorem Sparse.wfFrom_keep [DecidableEq α] (d : Nat → α) (p : Nat → α → Bool) (lo : Option Nat) (m : Sparse α)
    (w : Sparse.wfFrom d lo m = true) : Sparse.wfFrom d lo (Sparse.keep p m) = true := by
  induction m generalizing lo with
  | nil => exact w
  | cons kv m ih =>
    obtain ⟨k', v'⟩ := kv
    have hw := w
    simp only [Sparse.wfFrom, Bool.and_eq_true, decide_eq_true_eq] at w
    by_cases hp : p k' v' = true
    · have : Sparse.keep p ((k', v') :: m) = (k', v') :: Sparse.keep p m := by simp [Sparse.keep, hp]
      rw [this]
      simp only [Sparse.wfFrom, Bool.and_eq_true, decide_eq_true_eq]
      exact ⟨w.1, ih (some k') w.2⟩
    · have : Sparse.keep p ((k', v') :: m) = Sparse.keep p m := by simp [Sparse.keep, hp]
      rw [this]
      apply ih
      cases lo with
      | none => exact Sparse.wfFrom_none d _ m w.2
      | some l => exact Sparse.wfFrom_lower d l k' (by have : l < k' := by simpa using w.1.1
                                                       omega) m w.2

/-- Keeping entries by their key alone: the keys that stay read as before, the others as the default. -/
theorem Sparse.get_keep (d : Nat → α) (p : Nat → Bool) (m : Sparse α) (k : Nat) :
    Sparse.get d (Sparse.keep (fun k _ => p k) m) k = if p k then Sparse.get d m k else d k := by
  induction m with
  | nil => simp [Sparse.keep, Sparse.get]
  | cons kv m ih =>
    obtain ⟨k', v'⟩ := kv
    by_cases hp : p k' = true
    · have : Sparse.keep (fun k _ => p k) ((k', v') :: m) = (k', v') :: Sparse.keep (fun k _ => p k) m := by
        simp [Sparse.keep, hp]
      rw [this]
      simp only [Sparse.get, ih]
      split
      · rename_i h; subst h; simp [hp]
      · rfl
    · have : Sparse.keep (fun k _ => p k) ((k', v') :: m) = Sparse.keep (fun k _ => p k) m := by simp [Sparse.keep, hp]
      rw [this, ih]
      by_cases h : k = k'
      · subst h; simp [hp]
      · simp [Sparse.get, h]

end Sys2Proof.Machine
end

