-- ==== Sys2Proof/Laws/State.lean ====
section
/-! SUPPORT. What the basic updates of the device leave alone: one lemma per field and update, all true by definition, so
that no proof unfolds a record update. -/

namespace Sys2Proof.Machine

/-! `Device.wr`. -/

@[simp] theorem Device.wr_loHeld (d : Device) (a v : Nat) : (d.wr a v).loHeld = d.loHeld := rfl
@[simp] theorem Device.wr_hiLatch (d : Device) (a v : Nat) : (d.wr a v).hiLatch = d.hiLatch := rfl
@[simp] theorem Device.wr_hostRead (d : Device) (a v : Nat) : (d.wr a v).hostRead = d.hostRead := rfl
@[simp] theorem Device.wr_hostReadEp (d : Device) (a v : Nat) : (d.wr a v).hostReadEp = d.hostReadEp := rfl
@[simp] theorem Device.wr_outbox (d : Device) (a v : Nat) : (d.wr a v).outbox = d.outbox := rfl
@[simp] theorem Device.wr_time (d : Device) (a v : Nat) : (d.wr a v).time = d.time := rfl
@[simp] theorem Device.wr_timeRem (d : Device) (a v : Nat) : (d.wr a v).timeRem = d.timeRem := rfl
@[simp] theorem Device.wr_freeCount (d : Device) (a v : Nat) : (d.wr a v).freeCount = d.freeCount := rfl
@[simp] theorem Device.wr_latAt (d : Device) (a v : Nat) : (d.wr a v).latAt = d.latAt := rfl
@[simp] theorem Device.wr_bankUsed (d : Device) (a v : Nat) : (d.wr a v).bankUsed = d.bankUsed := rfl
@[simp] theorem Device.wr_breqs (d : Device) (a v : Nat) : (d.wr a v).breqs = d.breqs := rfl
@[simp] theorem Device.wr_completions (d : Device) (a v : Nat) : (d.wr a v).completions = d.completions := rfl
@[simp] theorem Device.wr_mem (d : Device) (a v : Nat) : (d.wr a v).mem = d.mem := rfl
@[simp] theorem Device.wr_prog (d : Device) (a v : Nat) : (d.wr a v).prog = d.prog := rfl
@[simp] theorem Device.wr_xmem (d : Device) (a v : Nat) : (d.wr a v).xmem = d.xmem := rfl
@[simp] theorem Device.wr_ymem (d : Device) (a v : Nat) : (d.wr a v).ymem = d.ymem := rfl
@[simp] theorem Device.wr_lmem (d : Device) (a v : Nat) : (d.wr a v).lmem = d.lmem := rfl
@[simp] theorem Device.wr_ctx (d : Device) (a v : Nat) : (d.wr a v).ctx = d.ctx := rfl
@[simp] theorem Device.wr_lanes (d : Device) (a v : Nat) : (d.wr a v).lanes = d.lanes := rfl
@[simp] theorem Device.wr_lrefLost (d : Device) (a v : Nat) : (d.wr a v).lrefLost = d.lrefLost := rfl
@[simp] theorem Device.wr_streams (d : Device) (a v : Nat) : (d.wr a v).streams = d.streams := rfl
@[simp] theorem Device.wr_exports (d : Device) (a v : Nat) : (d.wr a v).exports = d.exports := rfl
@[simp] theorem Device.wr_corrs (d : Device) (a v : Nat) : (d.wr a v).corrs = d.corrs := rfl
@[simp] theorem Device.wr_chans (d : Device) (a v : Nat) : (d.wr a v).chans = d.chans := rfl
@[simp] theorem Device.wr_syncIn (d : Device) (a v : Nat) : (d.wr a v).syncIn = d.syncIn := rfl
@[simp] theorem Device.wr_syncLeft (d : Device) (a v : Nat) : (d.wr a v).syncLeft = d.syncLeft := rfl
@[simp] theorem Device.wr_bufs (d : Device) (a v : Nat) : (d.wr a v).bufs = d.bufs := rfl
@[simp] theorem Device.wr_seqs (d : Device) (a v : Nat) : (d.wr a v).seqs = d.seqs := rfl
@[simp] theorem Device.wr_sidNext (d : Device) (a v : Nat) : (d.wr a v).sidNext = d.sidNext := rfl
@[simp] theorem Device.wr_ctxs (d : Device) (a v : Nat) : (d.wr a v).ctxs = d.ctxs := rfl
@[simp] theorem Device.wr_ready (d : Device) (a v : Nat) : (d.wr a v).ready = d.ready := rfl
@[simp] theorem Device.wr_flight (d : Device) (a v : Nat) : (d.wr a v).flight = d.flight := rfl
@[simp] theorem Device.wr_pipeFree (d : Device) (a v : Nat) : (d.wr a v).pipeFree = d.pipeFree := rfl
@[simp] theorem Device.wr_run (d : Device) (a v : Nat) : (d.wr a v).run = d.run := rfl
@[simp] theorem Device.wr_pend (d : Device) (a v : Nat) : (d.wr a v).pend = d.pend := rfl
@[simp] theorem Device.wr_checking (d : Device) (a v : Nat) : (d.wr a v).checking = d.checking := rfl
@[simp] theorem Device.wr_traces (d : Device) (a v : Nat) : (d.wr a v).traces = d.traces := rfl
@[simp] theorem Device.wr_planes (d : Device) (a v : Nat) : (d.wr a v).planes = d.planes := rfl
@[simp] theorem Device.wr_violRecs (d : Device) (a v : Nat) : (d.wr a v).violRecs = d.violRecs := rfl
@[simp] theorem Device.wr_units (d : Device) (a v : Nat) : (d.wr a v).units = d.units := rfl
@[simp] theorem Device.wr_firings (d : Device) (a v : Nat) : (d.wr a v).firings = d.firings := rfl
@[simp] theorem Device.wr_tapHist (d : Device) (a v : Nat) : (d.wr a v).tapHist = d.tapHist := rfl
@[simp] theorem Device.wr_caps (d : Device) (a v : Nat) : (d.wr a v).caps = d.caps := rfl
@[simp] theorem Device.wr_engines (d : Device) (a v : Nat) : (d.wr a v).engines = d.engines := rfl
@[simp] theorem Device.wr_tests (d : Device) (a v : Nat) : (d.wr a v).tests = d.tests := rfl
@[simp] theorem Device.wr_issued (d : Device) (a v : Nat) : (d.wr a v).issued = d.issued := rfl
@[simp] theorem Device.wr_queues (d : Device) (a v : Nat) : (d.wr a v).queues = d.queues := rfl
@[simp] theorem Device.wr_zjobs (d : Device) (a v : Nat) : (d.wr a v).zjobs = d.zjobs := rfl
@[simp] theorem Device.wr_ujobs (d : Device) (a v : Nat) : (d.wr a v).ujobs = d.ujobs := rfl
@[simp] theorem Device.wr_poison (d : Device) (a v : Nat) : (d.wr a v).poison = d.poison := rfl
@[simp] theorem Device.wr_memc (d : Device) (a v : Nat) : (d.wr a v).memc = d.memc := rfl
@[simp] theorem Device.wr_dmas (d : Device) (a v : Nat) : (d.wr a v).dmas = d.dmas := rfl
@[simp] theorem Device.wr_regions (d : Device) (a v : Nat) : (d.wr a v).regions = d.regions := rfl
@[simp] theorem Device.wr_rot (d : Device) (a v : Nat) : (d.wr a v).rot = d.rot := rfl
@[simp] theorem Device.wr_roots (d : Device) (a v : Nat) : (d.wr a v).roots = d.roots := rfl
@[simp] theorem Device.wr_ckos (d : Device) (a v : Nat) : (d.wr a v).ckos = d.ckos := rfl
@[simp] theorem Device.wr_vdd (d : Device) (a v : Nat) : (d.wr a v).vdd = d.vdd := rfl
@[simp] theorem Device.wr_evins (d : Device) (a v : Nat) : (d.wr a v).evins = d.evins := rfl
@[simp] theorem Device.wr_stats (d : Device) (a v : Nat) : (d.wr a v).stats = d.stats := rfl
@[simp] theorem Device.wr_setReq (d : Device) (a v : Nat) : (d.wr a v).setReq = d.setReq := rfl
@[simp] theorem Device.wr_mons (d : Device) (a v : Nat) : (d.wr a v).mons = d.mons := rfl
@[simp] theorem Device.wr_monIn (d : Device) (a v : Nat) : (d.wr a v).monIn = d.monIn := rfl
@[simp] theorem Device.wr_monSync (d : Device) (a v : Nat) : (d.wr a v).monSync = d.monSync := rfl
@[simp] theorem Device.wr_i2cPtr (d : Device) (a v : Nat) : (d.wr a v).i2cPtr = d.i2cPtr := rfl
@[simp] theorem Device.wr_i2cLatch (d : Device) (a v : Nat) : (d.wr a v).i2cLatch = d.i2cLatch := rfl
@[simp] theorem Device.wr_cas (d : Device) (a v : Nat) : (d.wr a v).cas = d.cas := rfl
@[simp] theorem Device.wr_anchorCtx (d : Device) (a v : Nat) : (d.wr a v).anchorCtx = d.anchorCtx := rfl
@[simp] theorem Device.wr_panel (d : Device) (a v : Nat) : (d.wr a v).panel = d.panel := rfl
@[simp] theorem Device.wr_sys (d : Device) (a v : Nat) : (d.wr a v).sys = d.sys := rfl
@[simp] theorem Device.wr_tap (d : Device) (a v : Nat) : (d.wr a v).tap = d.tap := rfl
@[simp] theorem Device.wr_d3hot (d : Device) (a v : Nat) : (d.wr a v).d3hot = d.d3hot := rfl
@[simp] theorem Device.wr_linkDown (d : Device) (a v : Nat) : (d.wr a v).linkDown = d.linkDown := rfl
@[simp] theorem Device.wr_cfg (d : Device) (a v : Nat) : (d.wr a v).cfg = d.cfg := rfl

/-! `Device.setFld`. -/

@[simp] theorem Device.setFld_loHeld (d : Device) (x : FieldAt) (v : Nat) : (d.setFld x v).loHeld = d.loHeld := rfl
@[simp] theorem Device.setFld_hiLatch (d : Device) (x : FieldAt) (v : Nat) : (d.setFld x v).hiLatch = d.hiLatch := rfl
@[simp] theorem Device.setFld_hostRead (d : Device) (x : FieldAt) (v : Nat) : (d.setFld x v).hostRead = d.hostRead := rfl
@[simp] theorem Device.setFld_hostReadEp (d : Device) (x : FieldAt) (v : Nat) : (d.setFld x v).hostReadEp = d.hostReadEp := rfl
@[simp] theorem Device.setFld_outbox (d : Device) (x : FieldAt) (v : Nat) : (d.setFld x v).outbox = d.outbox := rfl
@[simp] theorem Device.setFld_time (d : Device) (x : FieldAt) (v : Nat) : (d.setFld x v).time = d.time := rfl
@[simp] theorem Device.setFld_timeRem (d : Device) (x : FieldAt) (v : Nat) : (d.setFld x v).timeRem = d.timeRem := rfl
@[simp] theorem Device.setFld_freeCount (d : Device) (x : FieldAt) (v : Nat) : (d.setFld x v).freeCount = d.freeCount := rfl
@[simp] theorem Device.setFld_latAt (d : Device) (x : FieldAt) (v : Nat) : (d.setFld x v).latAt = d.latAt := rfl
@[simp] theorem Device.setFld_bankUsed (d : Device) (x : FieldAt) (v : Nat) : (d.setFld x v).bankUsed = d.bankUsed := rfl
@[simp] theorem Device.setFld_breqs (d : Device) (x : FieldAt) (v : Nat) : (d.setFld x v).breqs = d.breqs := rfl
@[simp] theorem Device.setFld_completions (d : Device) (x : FieldAt) (v : Nat) : (d.setFld x v).completions = d.completions := rfl
@[simp] theorem Device.setFld_mem (d : Device) (x : FieldAt) (v : Nat) : (d.setFld x v).mem = d.mem := rfl
@[simp] theorem Device.setFld_prog (d : Device) (x : FieldAt) (v : Nat) : (d.setFld x v).prog = d.prog := rfl
@[simp] theorem Device.setFld_xmem (d : Device) (x : FieldAt) (v : Nat) : (d.setFld x v).xmem = d.xmem := rfl
@[simp] theorem Device.setFld_ymem (d : Device) (x : FieldAt) (v : Nat) : (d.setFld x v).ymem = d.ymem := rfl
@[simp] theorem Device.setFld_lmem (d : Device) (x : FieldAt) (v : Nat) : (d.setFld x v).lmem = d.lmem := rfl
@[simp] theorem Device.setFld_ctx (d : Device) (x : FieldAt) (v : Nat) : (d.setFld x v).ctx = d.ctx := rfl
@[simp] theorem Device.setFld_lanes (d : Device) (x : FieldAt) (v : Nat) : (d.setFld x v).lanes = d.lanes := rfl
@[simp] theorem Device.setFld_lrefLost (d : Device) (x : FieldAt) (v : Nat) : (d.setFld x v).lrefLost = d.lrefLost := rfl
@[simp] theorem Device.setFld_streams (d : Device) (x : FieldAt) (v : Nat) : (d.setFld x v).streams = d.streams := rfl
@[simp] theorem Device.setFld_exports (d : Device) (x : FieldAt) (v : Nat) : (d.setFld x v).exports = d.exports := rfl
@[simp] theorem Device.setFld_corrs (d : Device) (x : FieldAt) (v : Nat) : (d.setFld x v).corrs = d.corrs := rfl
@[simp] theorem Device.setFld_chans (d : Device) (x : FieldAt) (v : Nat) : (d.setFld x v).chans = d.chans := rfl
@[simp] theorem Device.setFld_syncIn (d : Device) (x : FieldAt) (v : Nat) : (d.setFld x v).syncIn = d.syncIn := rfl
@[simp] theorem Device.setFld_syncLeft (d : Device) (x : FieldAt) (v : Nat) : (d.setFld x v).syncLeft = d.syncLeft := rfl
@[simp] theorem Device.setFld_bufs (d : Device) (x : FieldAt) (v : Nat) : (d.setFld x v).bufs = d.bufs := rfl
@[simp] theorem Device.setFld_seqs (d : Device) (x : FieldAt) (v : Nat) : (d.setFld x v).seqs = d.seqs := rfl
@[simp] theorem Device.setFld_sidNext (d : Device) (x : FieldAt) (v : Nat) : (d.setFld x v).sidNext = d.sidNext := rfl
@[simp] theorem Device.setFld_ctxs (d : Device) (x : FieldAt) (v : Nat) : (d.setFld x v).ctxs = d.ctxs := rfl
@[simp] theorem Device.setFld_ready (d : Device) (x : FieldAt) (v : Nat) : (d.setFld x v).ready = d.ready := rfl
@[simp] theorem Device.setFld_flight (d : Device) (x : FieldAt) (v : Nat) : (d.setFld x v).flight = d.flight := rfl
@[simp] theorem Device.setFld_pipeFree (d : Device) (x : FieldAt) (v : Nat) : (d.setFld x v).pipeFree = d.pipeFree := rfl
@[simp] theorem Device.setFld_run (d : Device) (x : FieldAt) (v : Nat) : (d.setFld x v).run = d.run := rfl
@[simp] theorem Device.setFld_pend (d : Device) (x : FieldAt) (v : Nat) : (d.setFld x v).pend = d.pend := rfl
@[simp] theorem Device.setFld_checking (d : Device) (x : FieldAt) (v : Nat) : (d.setFld x v).checking = d.checking := rfl
@[simp] theorem Device.setFld_traces (d : Device) (x : FieldAt) (v : Nat) : (d.setFld x v).traces = d.traces := rfl
@[simp] theorem Device.setFld_planes (d : Device) (x : FieldAt) (v : Nat) : (d.setFld x v).planes = d.planes := rfl
@[simp] theorem Device.setFld_violRecs (d : Device) (x : FieldAt) (v : Nat) : (d.setFld x v).violRecs = d.violRecs := rfl
@[simp] theorem Device.setFld_units (d : Device) (x : FieldAt) (v : Nat) : (d.setFld x v).units = d.units := rfl
@[simp] theorem Device.setFld_firings (d : Device) (x : FieldAt) (v : Nat) : (d.setFld x v).firings = d.firings := rfl
@[simp] theorem Device.setFld_tapHist (d : Device) (x : FieldAt) (v : Nat) : (d.setFld x v).tapHist = d.tapHist := rfl
@[simp] theorem Device.setFld_caps (d : Device) (x : FieldAt) (v : Nat) : (d.setFld x v).caps = d.caps := rfl
@[simp] theorem Device.setFld_engines (d : Device) (x : FieldAt) (v : Nat) : (d.setFld x v).engines = d.engines := rfl
@[simp] theorem Device.setFld_tests (d : Device) (x : FieldAt) (v : Nat) : (d.setFld x v).tests = d.tests := rfl
@[simp] theorem Device.setFld_issued (d : Device) (x : FieldAt) (v : Nat) : (d.setFld x v).issued = d.issued := rfl
@[simp] theorem Device.setFld_queues (d : Device) (x : FieldAt) (v : Nat) : (d.setFld x v).queues = d.queues := rfl
@[simp] theorem Device.setFld_zjobs (d : Device) (x : FieldAt) (v : Nat) : (d.setFld x v).zjobs = d.zjobs := rfl
@[simp] theorem Device.setFld_ujobs (d : Device) (x : FieldAt) (v : Nat) : (d.setFld x v).ujobs = d.ujobs := rfl
@[simp] theorem Device.setFld_poison (d : Device) (x : FieldAt) (v : Nat) : (d.setFld x v).poison = d.poison := rfl
@[simp] theorem Device.setFld_memc (d : Device) (x : FieldAt) (v : Nat) : (d.setFld x v).memc = d.memc := rfl
@[simp] theorem Device.setFld_dmas (d : Device) (x : FieldAt) (v : Nat) : (d.setFld x v).dmas = d.dmas := rfl
@[simp] theorem Device.setFld_regions (d : Device) (x : FieldAt) (v : Nat) : (d.setFld x v).regions = d.regions := rfl
@[simp] theorem Device.setFld_rot (d : Device) (x : FieldAt) (v : Nat) : (d.setFld x v).rot = d.rot := rfl
@[simp] theorem Device.setFld_roots (d : Device) (x : FieldAt) (v : Nat) : (d.setFld x v).roots = d.roots := rfl
@[simp] theorem Device.setFld_ckos (d : Device) (x : FieldAt) (v : Nat) : (d.setFld x v).ckos = d.ckos := rfl
@[simp] theorem Device.setFld_vdd (d : Device) (x : FieldAt) (v : Nat) : (d.setFld x v).vdd = d.vdd := rfl
@[simp] theorem Device.setFld_evins (d : Device) (x : FieldAt) (v : Nat) : (d.setFld x v).evins = d.evins := rfl
@[simp] theorem Device.setFld_stats (d : Device) (x : FieldAt) (v : Nat) : (d.setFld x v).stats = d.stats := rfl
@[simp] theorem Device.setFld_setReq (d : Device) (x : FieldAt) (v : Nat) : (d.setFld x v).setReq = d.setReq := rfl
@[simp] theorem Device.setFld_mons (d : Device) (x : FieldAt) (v : Nat) : (d.setFld x v).mons = d.mons := rfl
@[simp] theorem Device.setFld_monIn (d : Device) (x : FieldAt) (v : Nat) : (d.setFld x v).monIn = d.monIn := rfl
@[simp] theorem Device.setFld_monSync (d : Device) (x : FieldAt) (v : Nat) : (d.setFld x v).monSync = d.monSync := rfl
@[simp] theorem Device.setFld_i2cPtr (d : Device) (x : FieldAt) (v : Nat) : (d.setFld x v).i2cPtr = d.i2cPtr := rfl
@[simp] theorem Device.setFld_i2cLatch (d : Device) (x : FieldAt) (v : Nat) : (d.setFld x v).i2cLatch = d.i2cLatch := rfl
@[simp] theorem Device.setFld_cas (d : Device) (x : FieldAt) (v : Nat) : (d.setFld x v).cas = d.cas := rfl
@[simp] theorem Device.setFld_anchorCtx (d : Device) (x : FieldAt) (v : Nat) : (d.setFld x v).anchorCtx = d.anchorCtx := rfl
@[simp] theorem Device.setFld_panel (d : Device) (x : FieldAt) (v : Nat) : (d.setFld x v).panel = d.panel := rfl
@[simp] theorem Device.setFld_sys (d : Device) (x : FieldAt) (v : Nat) : (d.setFld x v).sys = d.sys := rfl
@[simp] theorem Device.setFld_tap (d : Device) (x : FieldAt) (v : Nat) : (d.setFld x v).tap = d.tap := rfl
@[simp] theorem Device.setFld_d3hot (d : Device) (x : FieldAt) (v : Nat) : (d.setFld x v).d3hot = d.d3hot := rfl
@[simp] theorem Device.setFld_linkDown (d : Device) (x : FieldAt) (v : Nat) : (d.setFld x v).linkDown = d.linkDown := rfl
@[simp] theorem Device.setFld_cfg (d : Device) (x : FieldAt) (v : Nat) : (d.setFld x v).cfg = d.cfg := rfl

/-! `Device.inc`. -/

@[simp] theorem Device.inc_loHeld (d : Device) (a : Nat) : (d.inc a).loHeld = d.loHeld := rfl
@[simp] theorem Device.inc_hiLatch (d : Device) (a : Nat) : (d.inc a).hiLatch = d.hiLatch := rfl
@[simp] theorem Device.inc_hostRead (d : Device) (a : Nat) : (d.inc a).hostRead = d.hostRead := rfl
@[simp] theorem Device.inc_hostReadEp (d : Device) (a : Nat) : (d.inc a).hostReadEp = d.hostReadEp := rfl
@[simp] theorem Device.inc_outbox (d : Device) (a : Nat) : (d.inc a).outbox = d.outbox := rfl
@[simp] theorem Device.inc_time (d : Device) (a : Nat) : (d.inc a).time = d.time := rfl
@[simp] theorem Device.inc_timeRem (d : Device) (a : Nat) : (d.inc a).timeRem = d.timeRem := rfl
@[simp] theorem Device.inc_freeCount (d : Device) (a : Nat) : (d.inc a).freeCount = d.freeCount := rfl
@[simp] theorem Device.inc_latAt (d : Device) (a : Nat) : (d.inc a).latAt = d.latAt := rfl
@[simp] theorem Device.inc_bankUsed (d : Device) (a : Nat) : (d.inc a).bankUsed = d.bankUsed := rfl
@[simp] theorem Device.inc_breqs (d : Device) (a : Nat) : (d.inc a).breqs = d.breqs := rfl
@[simp] theorem Device.inc_completions (d : Device) (a : Nat) : (d.inc a).completions = d.completions := rfl
@[simp] theorem Device.inc_mem (d : Device) (a : Nat) : (d.inc a).mem = d.mem := rfl
@[simp] theorem Device.inc_prog (d : Device) (a : Nat) : (d.inc a).prog = d.prog := rfl
@[simp] theorem Device.inc_xmem (d : Device) (a : Nat) : (d.inc a).xmem = d.xmem := rfl
@[simp] theorem Device.inc_ymem (d : Device) (a : Nat) : (d.inc a).ymem = d.ymem := rfl
@[simp] theorem Device.inc_lmem (d : Device) (a : Nat) : (d.inc a).lmem = d.lmem := rfl
@[simp] theorem Device.inc_ctx (d : Device) (a : Nat) : (d.inc a).ctx = d.ctx := rfl
@[simp] theorem Device.inc_lanes (d : Device) (a : Nat) : (d.inc a).lanes = d.lanes := rfl
@[simp] theorem Device.inc_lrefLost (d : Device) (a : Nat) : (d.inc a).lrefLost = d.lrefLost := rfl
@[simp] theorem Device.inc_streams (d : Device) (a : Nat) : (d.inc a).streams = d.streams := rfl
@[simp] theorem Device.inc_exports (d : Device) (a : Nat) : (d.inc a).exports = d.exports := rfl
@[simp] theorem Device.inc_corrs (d : Device) (a : Nat) : (d.inc a).corrs = d.corrs := rfl
@[simp] theorem Device.inc_chans (d : Device) (a : Nat) : (d.inc a).chans = d.chans := rfl
@[simp] theorem Device.inc_syncIn (d : Device) (a : Nat) : (d.inc a).syncIn = d.syncIn := rfl
@[simp] theorem Device.inc_syncLeft (d : Device) (a : Nat) : (d.inc a).syncLeft = d.syncLeft := rfl
@[simp] theorem Device.inc_bufs (d : Device) (a : Nat) : (d.inc a).bufs = d.bufs := rfl
@[simp] theorem Device.inc_seqs (d : Device) (a : Nat) : (d.inc a).seqs = d.seqs := rfl
@[simp] theorem Device.inc_sidNext (d : Device) (a : Nat) : (d.inc a).sidNext = d.sidNext := rfl
@[simp] theorem Device.inc_ctxs (d : Device) (a : Nat) : (d.inc a).ctxs = d.ctxs := rfl
@[simp] theorem Device.inc_ready (d : Device) (a : Nat) : (d.inc a).ready = d.ready := rfl
@[simp] theorem Device.inc_flight (d : Device) (a : Nat) : (d.inc a).flight = d.flight := rfl
@[simp] theorem Device.inc_pipeFree (d : Device) (a : Nat) : (d.inc a).pipeFree = d.pipeFree := rfl
@[simp] theorem Device.inc_run (d : Device) (a : Nat) : (d.inc a).run = d.run := rfl
@[simp] theorem Device.inc_pend (d : Device) (a : Nat) : (d.inc a).pend = d.pend := rfl
@[simp] theorem Device.inc_checking (d : Device) (a : Nat) : (d.inc a).checking = d.checking := rfl
@[simp] theorem Device.inc_traces (d : Device) (a : Nat) : (d.inc a).traces = d.traces := rfl
@[simp] theorem Device.inc_planes (d : Device) (a : Nat) : (d.inc a).planes = d.planes := rfl
@[simp] theorem Device.inc_violRecs (d : Device) (a : Nat) : (d.inc a).violRecs = d.violRecs := rfl
@[simp] theorem Device.inc_units (d : Device) (a : Nat) : (d.inc a).units = d.units := rfl
@[simp] theorem Device.inc_firings (d : Device) (a : Nat) : (d.inc a).firings = d.firings := rfl
@[simp] theorem Device.inc_tapHist (d : Device) (a : Nat) : (d.inc a).tapHist = d.tapHist := rfl
@[simp] theorem Device.inc_caps (d : Device) (a : Nat) : (d.inc a).caps = d.caps := rfl
@[simp] theorem Device.inc_engines (d : Device) (a : Nat) : (d.inc a).engines = d.engines := rfl
@[simp] theorem Device.inc_tests (d : Device) (a : Nat) : (d.inc a).tests = d.tests := rfl
@[simp] theorem Device.inc_issued (d : Device) (a : Nat) : (d.inc a).issued = d.issued := rfl
@[simp] theorem Device.inc_queues (d : Device) (a : Nat) : (d.inc a).queues = d.queues := rfl
@[simp] theorem Device.inc_zjobs (d : Device) (a : Nat) : (d.inc a).zjobs = d.zjobs := rfl
@[simp] theorem Device.inc_ujobs (d : Device) (a : Nat) : (d.inc a).ujobs = d.ujobs := rfl
@[simp] theorem Device.inc_poison (d : Device) (a : Nat) : (d.inc a).poison = d.poison := rfl
@[simp] theorem Device.inc_memc (d : Device) (a : Nat) : (d.inc a).memc = d.memc := rfl
@[simp] theorem Device.inc_dmas (d : Device) (a : Nat) : (d.inc a).dmas = d.dmas := rfl
@[simp] theorem Device.inc_regions (d : Device) (a : Nat) : (d.inc a).regions = d.regions := rfl
@[simp] theorem Device.inc_rot (d : Device) (a : Nat) : (d.inc a).rot = d.rot := rfl
@[simp] theorem Device.inc_roots (d : Device) (a : Nat) : (d.inc a).roots = d.roots := rfl
@[simp] theorem Device.inc_ckos (d : Device) (a : Nat) : (d.inc a).ckos = d.ckos := rfl
@[simp] theorem Device.inc_vdd (d : Device) (a : Nat) : (d.inc a).vdd = d.vdd := rfl
@[simp] theorem Device.inc_evins (d : Device) (a : Nat) : (d.inc a).evins = d.evins := rfl
@[simp] theorem Device.inc_stats (d : Device) (a : Nat) : (d.inc a).stats = d.stats := rfl
@[simp] theorem Device.inc_setReq (d : Device) (a : Nat) : (d.inc a).setReq = d.setReq := rfl
@[simp] theorem Device.inc_mons (d : Device) (a : Nat) : (d.inc a).mons = d.mons := rfl
@[simp] theorem Device.inc_monIn (d : Device) (a : Nat) : (d.inc a).monIn = d.monIn := rfl
@[simp] theorem Device.inc_monSync (d : Device) (a : Nat) : (d.inc a).monSync = d.monSync := rfl
@[simp] theorem Device.inc_i2cPtr (d : Device) (a : Nat) : (d.inc a).i2cPtr = d.i2cPtr := rfl
@[simp] theorem Device.inc_i2cLatch (d : Device) (a : Nat) : (d.inc a).i2cLatch = d.i2cLatch := rfl
@[simp] theorem Device.inc_cas (d : Device) (a : Nat) : (d.inc a).cas = d.cas := rfl
@[simp] theorem Device.inc_anchorCtx (d : Device) (a : Nat) : (d.inc a).anchorCtx = d.anchorCtx := rfl
@[simp] theorem Device.inc_panel (d : Device) (a : Nat) : (d.inc a).panel = d.panel := rfl
@[simp] theorem Device.inc_sys (d : Device) (a : Nat) : (d.inc a).sys = d.sys := rfl
@[simp] theorem Device.inc_tap (d : Device) (a : Nat) : (d.inc a).tap = d.tap := rfl
@[simp] theorem Device.inc_d3hot (d : Device) (a : Nat) : (d.inc a).d3hot = d.d3hot := rfl
@[simp] theorem Device.inc_linkDown (d : Device) (a : Nat) : (d.inc a).linkDown = d.linkDown := rfl
@[simp] theorem Device.inc_cfg (d : Device) (a : Nat) : (d.inc a).cfg = d.cfg := rfl

/-! `Device.flag`. -/

@[simp] theorem Device.flag_loHeld (d : Device) (x : FieldAt) (c : Nat) : (d.flag x c).loHeld = d.loHeld := rfl
@[simp] theorem Device.flag_hiLatch (d : Device) (x : FieldAt) (c : Nat) : (d.flag x c).hiLatch = d.hiLatch := rfl
@[simp] theorem Device.flag_hostRead (d : Device) (x : FieldAt) (c : Nat) : (d.flag x c).hostRead = d.hostRead := rfl
@[simp] theorem Device.flag_hostReadEp (d : Device) (x : FieldAt) (c : Nat) : (d.flag x c).hostReadEp = d.hostReadEp := rfl
@[simp] theorem Device.flag_outbox (d : Device) (x : FieldAt) (c : Nat) : (d.flag x c).outbox = d.outbox := rfl
@[simp] theorem Device.flag_time (d : Device) (x : FieldAt) (c : Nat) : (d.flag x c).time = d.time := rfl
@[simp] theorem Device.flag_timeRem (d : Device) (x : FieldAt) (c : Nat) : (d.flag x c).timeRem = d.timeRem := rfl
@[simp] theorem Device.flag_freeCount (d : Device) (x : FieldAt) (c : Nat) : (d.flag x c).freeCount = d.freeCount := rfl
@[simp] theorem Device.flag_latAt (d : Device) (x : FieldAt) (c : Nat) : (d.flag x c).latAt = d.latAt := rfl
@[simp] theorem Device.flag_bankUsed (d : Device) (x : FieldAt) (c : Nat) : (d.flag x c).bankUsed = d.bankUsed := rfl
@[simp] theorem Device.flag_breqs (d : Device) (x : FieldAt) (c : Nat) : (d.flag x c).breqs = d.breqs := rfl
@[simp] theorem Device.flag_completions (d : Device) (x : FieldAt) (c : Nat) : (d.flag x c).completions = d.completions := rfl
@[simp] theorem Device.flag_mem (d : Device) (x : FieldAt) (c : Nat) : (d.flag x c).mem = d.mem := rfl
@[simp] theorem Device.flag_prog (d : Device) (x : FieldAt) (c : Nat) : (d.flag x c).prog = d.prog := rfl
@[simp] theorem Device.flag_xmem (d : Device) (x : FieldAt) (c : Nat) : (d.flag x c).xmem = d.xmem := rfl
@[simp] theorem Device.flag_ymem (d : Device) (x : FieldAt) (c : Nat) : (d.flag x c).ymem = d.ymem := rfl
@[simp] theorem Device.flag_lmem (d : Device) (x : FieldAt) (c : Nat) : (d.flag x c).lmem = d.lmem := rfl
@[simp] theorem Device.flag_ctx (d : Device) (x : FieldAt) (c : Nat) : (d.flag x c).ctx = d.ctx := rfl
@[simp] theorem Device.flag_lanes (d : Device) (x : FieldAt) (c : Nat) : (d.flag x c).lanes = d.lanes := rfl
@[simp] theorem Device.flag_lrefLost (d : Device) (x : FieldAt) (c : Nat) : (d.flag x c).lrefLost = d.lrefLost := rfl
@[simp] theorem Device.flag_streams (d : Device) (x : FieldAt) (c : Nat) : (d.flag x c).streams = d.streams := rfl
@[simp] theorem Device.flag_exports (d : Device) (x : FieldAt) (c : Nat) : (d.flag x c).exports = d.exports := rfl
@[simp] theorem Device.flag_corrs (d : Device) (x : FieldAt) (c : Nat) : (d.flag x c).corrs = d.corrs := rfl
@[simp] theorem Device.flag_chans (d : Device) (x : FieldAt) (c : Nat) : (d.flag x c).chans = d.chans := rfl
@[simp] theorem Device.flag_syncIn (d : Device) (x : FieldAt) (c : Nat) : (d.flag x c).syncIn = d.syncIn := rfl
@[simp] theorem Device.flag_syncLeft (d : Device) (x : FieldAt) (c : Nat) : (d.flag x c).syncLeft = d.syncLeft := rfl
@[simp] theorem Device.flag_bufs (d : Device) (x : FieldAt) (c : Nat) : (d.flag x c).bufs = d.bufs := rfl
@[simp] theorem Device.flag_seqs (d : Device) (x : FieldAt) (c : Nat) : (d.flag x c).seqs = d.seqs := rfl
@[simp] theorem Device.flag_sidNext (d : Device) (x : FieldAt) (c : Nat) : (d.flag x c).sidNext = d.sidNext := rfl
@[simp] theorem Device.flag_ctxs (d : Device) (x : FieldAt) (c : Nat) : (d.flag x c).ctxs = d.ctxs := rfl
@[simp] theorem Device.flag_ready (d : Device) (x : FieldAt) (c : Nat) : (d.flag x c).ready = d.ready := rfl
@[simp] theorem Device.flag_flight (d : Device) (x : FieldAt) (c : Nat) : (d.flag x c).flight = d.flight := rfl
@[simp] theorem Device.flag_pipeFree (d : Device) (x : FieldAt) (c : Nat) : (d.flag x c).pipeFree = d.pipeFree := rfl
@[simp] theorem Device.flag_run (d : Device) (x : FieldAt) (c : Nat) : (d.flag x c).run = d.run := rfl
@[simp] theorem Device.flag_pend (d : Device) (x : FieldAt) (c : Nat) : (d.flag x c).pend = d.pend := rfl
@[simp] theorem Device.flag_checking (d : Device) (x : FieldAt) (c : Nat) : (d.flag x c).checking = d.checking := rfl
@[simp] theorem Device.flag_traces (d : Device) (x : FieldAt) (c : Nat) : (d.flag x c).traces = d.traces := rfl
@[simp] theorem Device.flag_planes (d : Device) (x : FieldAt) (c : Nat) : (d.flag x c).planes = d.planes := rfl
@[simp] theorem Device.flag_violRecs (d : Device) (x : FieldAt) (c : Nat) : (d.flag x c).violRecs = d.violRecs := rfl
@[simp] theorem Device.flag_units (d : Device) (x : FieldAt) (c : Nat) : (d.flag x c).units = d.units := rfl
@[simp] theorem Device.flag_firings (d : Device) (x : FieldAt) (c : Nat) : (d.flag x c).firings = d.firings := rfl
@[simp] theorem Device.flag_tapHist (d : Device) (x : FieldAt) (c : Nat) : (d.flag x c).tapHist = d.tapHist := rfl
@[simp] theorem Device.flag_caps (d : Device) (x : FieldAt) (c : Nat) : (d.flag x c).caps = d.caps := rfl
@[simp] theorem Device.flag_engines (d : Device) (x : FieldAt) (c : Nat) : (d.flag x c).engines = d.engines := rfl
@[simp] theorem Device.flag_tests (d : Device) (x : FieldAt) (c : Nat) : (d.flag x c).tests = d.tests := rfl
@[simp] theorem Device.flag_issued (d : Device) (x : FieldAt) (c : Nat) : (d.flag x c).issued = d.issued := rfl
@[simp] theorem Device.flag_queues (d : Device) (x : FieldAt) (c : Nat) : (d.flag x c).queues = d.queues := rfl
@[simp] theorem Device.flag_zjobs (d : Device) (x : FieldAt) (c : Nat) : (d.flag x c).zjobs = d.zjobs := rfl
@[simp] theorem Device.flag_ujobs (d : Device) (x : FieldAt) (c : Nat) : (d.flag x c).ujobs = d.ujobs := rfl
@[simp] theorem Device.flag_poison (d : Device) (x : FieldAt) (c : Nat) : (d.flag x c).poison = d.poison := rfl
@[simp] theorem Device.flag_memc (d : Device) (x : FieldAt) (c : Nat) : (d.flag x c).memc = d.memc := rfl
@[simp] theorem Device.flag_dmas (d : Device) (x : FieldAt) (c : Nat) : (d.flag x c).dmas = d.dmas := rfl
@[simp] theorem Device.flag_regions (d : Device) (x : FieldAt) (c : Nat) : (d.flag x c).regions = d.regions := rfl
@[simp] theorem Device.flag_rot (d : Device) (x : FieldAt) (c : Nat) : (d.flag x c).rot = d.rot := rfl
@[simp] theorem Device.flag_roots (d : Device) (x : FieldAt) (c : Nat) : (d.flag x c).roots = d.roots := rfl
@[simp] theorem Device.flag_ckos (d : Device) (x : FieldAt) (c : Nat) : (d.flag x c).ckos = d.ckos := rfl
@[simp] theorem Device.flag_vdd (d : Device) (x : FieldAt) (c : Nat) : (d.flag x c).vdd = d.vdd := rfl
@[simp] theorem Device.flag_evins (d : Device) (x : FieldAt) (c : Nat) : (d.flag x c).evins = d.evins := rfl
@[simp] theorem Device.flag_stats (d : Device) (x : FieldAt) (c : Nat) : (d.flag x c).stats = d.stats := rfl
@[simp] theorem Device.flag_setReq (d : Device) (x : FieldAt) (c : Nat) : (d.flag x c).setReq = d.setReq := rfl
@[simp] theorem Device.flag_mons (d : Device) (x : FieldAt) (c : Nat) : (d.flag x c).mons = d.mons := rfl
@[simp] theorem Device.flag_monIn (d : Device) (x : FieldAt) (c : Nat) : (d.flag x c).monIn = d.monIn := rfl
@[simp] theorem Device.flag_monSync (d : Device) (x : FieldAt) (c : Nat) : (d.flag x c).monSync = d.monSync := rfl
@[simp] theorem Device.flag_i2cPtr (d : Device) (x : FieldAt) (c : Nat) : (d.flag x c).i2cPtr = d.i2cPtr := rfl
@[simp] theorem Device.flag_i2cLatch (d : Device) (x : FieldAt) (c : Nat) : (d.flag x c).i2cLatch = d.i2cLatch := rfl
@[simp] theorem Device.flag_cas (d : Device) (x : FieldAt) (c : Nat) : (d.flag x c).cas = d.cas := rfl
@[simp] theorem Device.flag_anchorCtx (d : Device) (x : FieldAt) (c : Nat) : (d.flag x c).anchorCtx = d.anchorCtx := rfl
@[simp] theorem Device.flag_panel (d : Device) (x : FieldAt) (c : Nat) : (d.flag x c).panel = d.panel := rfl
@[simp] theorem Device.flag_sys (d : Device) (x : FieldAt) (c : Nat) : (d.flag x c).sys = d.sys := rfl
@[simp] theorem Device.flag_tap (d : Device) (x : FieldAt) (c : Nat) : (d.flag x c).tap = d.tap := rfl
@[simp] theorem Device.flag_d3hot (d : Device) (x : FieldAt) (c : Nat) : (d.flag x c).d3hot = d.d3hot := rfl
@[simp] theorem Device.flag_linkDown (d : Device) (x : FieldAt) (c : Nat) : (d.flag x c).linkDown = d.linkDown := rfl
@[simp] theorem Device.flag_cfg (d : Device) (x : FieldAt) (c : Nat) : (d.flag x c).cfg = d.cfg := rfl

/-! `Device.wr64`. -/

@[simp] theorem Device.wr64_loHeld (d : Device) (a v : Nat) : (d.wr64 a v).loHeld = d.loHeld := rfl
@[simp] theorem Device.wr64_hiLatch (d : Device) (a v : Nat) : (d.wr64 a v).hiLatch = d.hiLatch := rfl
@[simp] theorem Device.wr64_hostRead (d : Device) (a v : Nat) : (d.wr64 a v).hostRead = d.hostRead := rfl
@[simp] theorem Device.wr64_hostReadEp (d : Device) (a v : Nat) : (d.wr64 a v).hostReadEp = d.hostReadEp := rfl
@[simp] theorem Device.wr64_outbox (d : Device) (a v : Nat) : (d.wr64 a v).outbox = d.outbox := rfl
@[simp] theorem Device.wr64_time (d : Device) (a v : Nat) : (d.wr64 a v).time = d.time := rfl
@[simp] theorem Device.wr64_timeRem (d : Device) (a v : Nat) : (d.wr64 a v).timeRem = d.timeRem := rfl
@[simp] theorem Device.wr64_freeCount (d : Device) (a v : Nat) : (d.wr64 a v).freeCount = d.freeCount := rfl
@[simp] theorem Device.wr64_latAt (d : Device) (a v : Nat) : (d.wr64 a v).latAt = d.latAt := rfl
@[simp] theorem Device.wr64_bankUsed (d : Device) (a v : Nat) : (d.wr64 a v).bankUsed = d.bankUsed := rfl
@[simp] theorem Device.wr64_breqs (d : Device) (a v : Nat) : (d.wr64 a v).breqs = d.breqs := rfl
@[simp] theorem Device.wr64_completions (d : Device) (a v : Nat) : (d.wr64 a v).completions = d.completions := rfl
@[simp] theorem Device.wr64_mem (d : Device) (a v : Nat) : (d.wr64 a v).mem = d.mem := rfl
@[simp] theorem Device.wr64_prog (d : Device) (a v : Nat) : (d.wr64 a v).prog = d.prog := rfl
@[simp] theorem Device.wr64_xmem (d : Device) (a v : Nat) : (d.wr64 a v).xmem = d.xmem := rfl
@[simp] theorem Device.wr64_ymem (d : Device) (a v : Nat) : (d.wr64 a v).ymem = d.ymem := rfl
@[simp] theorem Device.wr64_lmem (d : Device) (a v : Nat) : (d.wr64 a v).lmem = d.lmem := rfl
@[simp] theorem Device.wr64_ctx (d : Device) (a v : Nat) : (d.wr64 a v).ctx = d.ctx := rfl
@[simp] theorem Device.wr64_lanes (d : Device) (a v : Nat) : (d.wr64 a v).lanes = d.lanes := rfl
@[simp] theorem Device.wr64_lrefLost (d : Device) (a v : Nat) : (d.wr64 a v).lrefLost = d.lrefLost := rfl
@[simp] theorem Device.wr64_streams (d : Device) (a v : Nat) : (d.wr64 a v).streams = d.streams := rfl
@[simp] theorem Device.wr64_exports (d : Device) (a v : Nat) : (d.wr64 a v).exports = d.exports := rfl
@[simp] theorem Device.wr64_corrs (d : Device) (a v : Nat) : (d.wr64 a v).corrs = d.corrs := rfl
@[simp] theorem Device.wr64_chans (d : Device) (a v : Nat) : (d.wr64 a v).chans = d.chans := rfl
@[simp] theorem Device.wr64_syncIn (d : Device) (a v : Nat) : (d.wr64 a v).syncIn = d.syncIn := rfl
@[simp] theorem Device.wr64_syncLeft (d : Device) (a v : Nat) : (d.wr64 a v).syncLeft = d.syncLeft := rfl
@[simp] theorem Device.wr64_bufs (d : Device) (a v : Nat) : (d.wr64 a v).bufs = d.bufs := rfl
@[simp] theorem Device.wr64_seqs (d : Device) (a v : Nat) : (d.wr64 a v).seqs = d.seqs := rfl
@[simp] theorem Device.wr64_sidNext (d : Device) (a v : Nat) : (d.wr64 a v).sidNext = d.sidNext := rfl
@[simp] theorem Device.wr64_ctxs (d : Device) (a v : Nat) : (d.wr64 a v).ctxs = d.ctxs := rfl
@[simp] theorem Device.wr64_ready (d : Device) (a v : Nat) : (d.wr64 a v).ready = d.ready := rfl
@[simp] theorem Device.wr64_flight (d : Device) (a v : Nat) : (d.wr64 a v).flight = d.flight := rfl
@[simp] theorem Device.wr64_pipeFree (d : Device) (a v : Nat) : (d.wr64 a v).pipeFree = d.pipeFree := rfl
@[simp] theorem Device.wr64_run (d : Device) (a v : Nat) : (d.wr64 a v).run = d.run := rfl
@[simp] theorem Device.wr64_pend (d : Device) (a v : Nat) : (d.wr64 a v).pend = d.pend := rfl
@[simp] theorem Device.wr64_checking (d : Device) (a v : Nat) : (d.wr64 a v).checking = d.checking := rfl
@[simp] theorem Device.wr64_traces (d : Device) (a v : Nat) : (d.wr64 a v).traces = d.traces := rfl
@[simp] theorem Device.wr64_planes (d : Device) (a v : Nat) : (d.wr64 a v).planes = d.planes := rfl
@[simp] theorem Device.wr64_violRecs (d : Device) (a v : Nat) : (d.wr64 a v).violRecs = d.violRecs := rfl
@[simp] theorem Device.wr64_units (d : Device) (a v : Nat) : (d.wr64 a v).units = d.units := rfl
@[simp] theorem Device.wr64_firings (d : Device) (a v : Nat) : (d.wr64 a v).firings = d.firings := rfl
@[simp] theorem Device.wr64_tapHist (d : Device) (a v : Nat) : (d.wr64 a v).tapHist = d.tapHist := rfl
@[simp] theorem Device.wr64_caps (d : Device) (a v : Nat) : (d.wr64 a v).caps = d.caps := rfl
@[simp] theorem Device.wr64_engines (d : Device) (a v : Nat) : (d.wr64 a v).engines = d.engines := rfl
@[simp] theorem Device.wr64_tests (d : Device) (a v : Nat) : (d.wr64 a v).tests = d.tests := rfl
@[simp] theorem Device.wr64_issued (d : Device) (a v : Nat) : (d.wr64 a v).issued = d.issued := rfl
@[simp] theorem Device.wr64_queues (d : Device) (a v : Nat) : (d.wr64 a v).queues = d.queues := rfl
@[simp] theorem Device.wr64_zjobs (d : Device) (a v : Nat) : (d.wr64 a v).zjobs = d.zjobs := rfl
@[simp] theorem Device.wr64_ujobs (d : Device) (a v : Nat) : (d.wr64 a v).ujobs = d.ujobs := rfl
@[simp] theorem Device.wr64_poison (d : Device) (a v : Nat) : (d.wr64 a v).poison = d.poison := rfl
@[simp] theorem Device.wr64_memc (d : Device) (a v : Nat) : (d.wr64 a v).memc = d.memc := rfl
@[simp] theorem Device.wr64_dmas (d : Device) (a v : Nat) : (d.wr64 a v).dmas = d.dmas := rfl
@[simp] theorem Device.wr64_regions (d : Device) (a v : Nat) : (d.wr64 a v).regions = d.regions := rfl
@[simp] theorem Device.wr64_rot (d : Device) (a v : Nat) : (d.wr64 a v).rot = d.rot := rfl
@[simp] theorem Device.wr64_roots (d : Device) (a v : Nat) : (d.wr64 a v).roots = d.roots := rfl
@[simp] theorem Device.wr64_ckos (d : Device) (a v : Nat) : (d.wr64 a v).ckos = d.ckos := rfl
@[simp] theorem Device.wr64_vdd (d : Device) (a v : Nat) : (d.wr64 a v).vdd = d.vdd := rfl
@[simp] theorem Device.wr64_evins (d : Device) (a v : Nat) : (d.wr64 a v).evins = d.evins := rfl
@[simp] theorem Device.wr64_stats (d : Device) (a v : Nat) : (d.wr64 a v).stats = d.stats := rfl
@[simp] theorem Device.wr64_setReq (d : Device) (a v : Nat) : (d.wr64 a v).setReq = d.setReq := rfl
@[simp] theorem Device.wr64_mons (d : Device) (a v : Nat) : (d.wr64 a v).mons = d.mons := rfl
@[simp] theorem Device.wr64_monIn (d : Device) (a v : Nat) : (d.wr64 a v).monIn = d.monIn := rfl
@[simp] theorem Device.wr64_monSync (d : Device) (a v : Nat) : (d.wr64 a v).monSync = d.monSync := rfl
@[simp] theorem Device.wr64_i2cPtr (d : Device) (a v : Nat) : (d.wr64 a v).i2cPtr = d.i2cPtr := rfl
@[simp] theorem Device.wr64_i2cLatch (d : Device) (a v : Nat) : (d.wr64 a v).i2cLatch = d.i2cLatch := rfl
@[simp] theorem Device.wr64_cas (d : Device) (a v : Nat) : (d.wr64 a v).cas = d.cas := rfl
@[simp] theorem Device.wr64_anchorCtx (d : Device) (a v : Nat) : (d.wr64 a v).anchorCtx = d.anchorCtx := rfl
@[simp] theorem Device.wr64_panel (d : Device) (a v : Nat) : (d.wr64 a v).panel = d.panel := rfl
@[simp] theorem Device.wr64_sys (d : Device) (a v : Nat) : (d.wr64 a v).sys = d.sys := rfl
@[simp] theorem Device.wr64_tap (d : Device) (a v : Nat) : (d.wr64 a v).tap = d.tap := rfl
@[simp] theorem Device.wr64_d3hot (d : Device) (a v : Nat) : (d.wr64 a v).d3hot = d.d3hot := rfl
@[simp] theorem Device.wr64_linkDown (d : Device) (a v : Nat) : (d.wr64 a v).linkDown = d.linkDown := rfl
@[simp] theorem Device.wr64_cfg (d : Device) (a v : Nat) : (d.wr64 a v).cfg = d.cfg := rfl

/-! `Device.setEng`. -/

@[simp] theorem Device.setEng_regs (d : Device) (e : Nat) (x : Engine) : (d.setEng e x).regs = d.regs := rfl
@[simp] theorem Device.setEng_loHeld (d : Device) (e : Nat) (x : Engine) : (d.setEng e x).loHeld = d.loHeld := rfl
@[simp] theorem Device.setEng_hiLatch (d : Device) (e : Nat) (x : Engine) : (d.setEng e x).hiLatch = d.hiLatch := rfl
@[simp] theorem Device.setEng_hostRead (d : Device) (e : Nat) (x : Engine) : (d.setEng e x).hostRead = d.hostRead := rfl
@[simp] theorem Device.setEng_hostReadEp (d : Device) (e : Nat) (x : Engine) : (d.setEng e x).hostReadEp = d.hostReadEp := rfl
@[simp] theorem Device.setEng_outbox (d : Device) (e : Nat) (x : Engine) : (d.setEng e x).outbox = d.outbox := rfl
@[simp] theorem Device.setEng_time (d : Device) (e : Nat) (x : Engine) : (d.setEng e x).time = d.time := rfl
@[simp] theorem Device.setEng_timeRem (d : Device) (e : Nat) (x : Engine) : (d.setEng e x).timeRem = d.timeRem := rfl
@[simp] theorem Device.setEng_freeCount (d : Device) (e : Nat) (x : Engine) : (d.setEng e x).freeCount = d.freeCount := rfl
@[simp] theorem Device.setEng_latAt (d : Device) (e : Nat) (x : Engine) : (d.setEng e x).latAt = d.latAt := rfl
@[simp] theorem Device.setEng_bankUsed (d : Device) (e : Nat) (x : Engine) : (d.setEng e x).bankUsed = d.bankUsed := rfl
@[simp] theorem Device.setEng_breqs (d : Device) (e : Nat) (x : Engine) : (d.setEng e x).breqs = d.breqs := rfl
@[simp] theorem Device.setEng_completions (d : Device) (e : Nat) (x : Engine) : (d.setEng e x).completions = d.completions := rfl
@[simp] theorem Device.setEng_mem (d : Device) (e : Nat) (x : Engine) : (d.setEng e x).mem = d.mem := rfl
@[simp] theorem Device.setEng_prog (d : Device) (e : Nat) (x : Engine) : (d.setEng e x).prog = d.prog := rfl
@[simp] theorem Device.setEng_xmem (d : Device) (e : Nat) (x : Engine) : (d.setEng e x).xmem = d.xmem := rfl
@[simp] theorem Device.setEng_ymem (d : Device) (e : Nat) (x : Engine) : (d.setEng e x).ymem = d.ymem := rfl
@[simp] theorem Device.setEng_lmem (d : Device) (e : Nat) (x : Engine) : (d.setEng e x).lmem = d.lmem := rfl
@[simp] theorem Device.setEng_ctx (d : Device) (e : Nat) (x : Engine) : (d.setEng e x).ctx = d.ctx := rfl
@[simp] theorem Device.setEng_lanes (d : Device) (e : Nat) (x : Engine) : (d.setEng e x).lanes = d.lanes := rfl
@[simp] theorem Device.setEng_lrefLost (d : Device) (e : Nat) (x : Engine) : (d.setEng e x).lrefLost = d.lrefLost := rfl
@[simp] theorem Device.setEng_streams (d : Device) (e : Nat) (x : Engine) : (d.setEng e x).streams = d.streams := rfl
@[simp] theorem Device.setEng_exports (d : Device) (e : Nat) (x : Engine) : (d.setEng e x).exports = d.exports := rfl
@[simp] theorem Device.setEng_corrs (d : Device) (e : Nat) (x : Engine) : (d.setEng e x).corrs = d.corrs := rfl
@[simp] theorem Device.setEng_chans (d : Device) (e : Nat) (x : Engine) : (d.setEng e x).chans = d.chans := rfl
@[simp] theorem Device.setEng_syncIn (d : Device) (e : Nat) (x : Engine) : (d.setEng e x).syncIn = d.syncIn := rfl
@[simp] theorem Device.setEng_syncLeft (d : Device) (e : Nat) (x : Engine) : (d.setEng e x).syncLeft = d.syncLeft := rfl
@[simp] theorem Device.setEng_bufs (d : Device) (e : Nat) (x : Engine) : (d.setEng e x).bufs = d.bufs := rfl
@[simp] theorem Device.setEng_seqs (d : Device) (e : Nat) (x : Engine) : (d.setEng e x).seqs = d.seqs := rfl
@[simp] theorem Device.setEng_sidNext (d : Device) (e : Nat) (x : Engine) : (d.setEng e x).sidNext = d.sidNext := rfl
@[simp] theorem Device.setEng_ctxs (d : Device) (e : Nat) (x : Engine) : (d.setEng e x).ctxs = d.ctxs := rfl
@[simp] theorem Device.setEng_ready (d : Device) (e : Nat) (x : Engine) : (d.setEng e x).ready = d.ready := rfl
@[simp] theorem Device.setEng_flight (d : Device) (e : Nat) (x : Engine) : (d.setEng e x).flight = d.flight := rfl
@[simp] theorem Device.setEng_pipeFree (d : Device) (e : Nat) (x : Engine) : (d.setEng e x).pipeFree = d.pipeFree := rfl
@[simp] theorem Device.setEng_run (d : Device) (e : Nat) (x : Engine) : (d.setEng e x).run = d.run := rfl
@[simp] theorem Device.setEng_pend (d : Device) (e : Nat) (x : Engine) : (d.setEng e x).pend = d.pend := rfl
@[simp] theorem Device.setEng_checking (d : Device) (e : Nat) (x : Engine) : (d.setEng e x).checking = d.checking := rfl
@[simp] theorem Device.setEng_traces (d : Device) (e : Nat) (x : Engine) : (d.setEng e x).traces = d.traces := rfl
@[simp] theorem Device.setEng_planes (d : Device) (e : Nat) (x : Engine) : (d.setEng e x).planes = d.planes := rfl
@[simp] theorem Device.setEng_violRecs (d : Device) (e : Nat) (x : Engine) : (d.setEng e x).violRecs = d.violRecs := rfl
@[simp] theorem Device.setEng_units (d : Device) (e : Nat) (x : Engine) : (d.setEng e x).units = d.units := rfl
@[simp] theorem Device.setEng_firings (d : Device) (e : Nat) (x : Engine) : (d.setEng e x).firings = d.firings := rfl
@[simp] theorem Device.setEng_tapHist (d : Device) (e : Nat) (x : Engine) : (d.setEng e x).tapHist = d.tapHist := rfl
@[simp] theorem Device.setEng_caps (d : Device) (e : Nat) (x : Engine) : (d.setEng e x).caps = d.caps := rfl
@[simp] theorem Device.setEng_tests (d : Device) (e : Nat) (x : Engine) : (d.setEng e x).tests = d.tests := rfl
@[simp] theorem Device.setEng_issued (d : Device) (e : Nat) (x : Engine) : (d.setEng e x).issued = d.issued := rfl
@[simp] theorem Device.setEng_queues (d : Device) (e : Nat) (x : Engine) : (d.setEng e x).queues = d.queues := rfl
@[simp] theorem Device.setEng_zjobs (d : Device) (e : Nat) (x : Engine) : (d.setEng e x).zjobs = d.zjobs := rfl
@[simp] theorem Device.setEng_ujobs (d : Device) (e : Nat) (x : Engine) : (d.setEng e x).ujobs = d.ujobs := rfl
@[simp] theorem Device.setEng_poison (d : Device) (e : Nat) (x : Engine) : (d.setEng e x).poison = d.poison := rfl
@[simp] theorem Device.setEng_memc (d : Device) (e : Nat) (x : Engine) : (d.setEng e x).memc = d.memc := rfl
@[simp] theorem Device.setEng_dmas (d : Device) (e : Nat) (x : Engine) : (d.setEng e x).dmas = d.dmas := rfl
@[simp] theorem Device.setEng_regions (d : Device) (e : Nat) (x : Engine) : (d.setEng e x).regions = d.regions := rfl
@[simp] theorem Device.setEng_rot (d : Device) (e : Nat) (x : Engine) : (d.setEng e x).rot = d.rot := rfl
@[simp] theorem Device.setEng_roots (d : Device) (e : Nat) (x : Engine) : (d.setEng e x).roots = d.roots := rfl
@[simp] theorem Device.setEng_ckos (d : Device) (e : Nat) (x : Engine) : (d.setEng e x).ckos = d.ckos := rfl
@[simp] theorem Device.setEng_vdd (d : Device) (e : Nat) (x : Engine) : (d.setEng e x).vdd = d.vdd := rfl
@[simp] theorem Device.setEng_evins (d : Device) (e : Nat) (x : Engine) : (d.setEng e x).evins = d.evins := rfl
@[simp] theorem Device.setEng_stats (d : Device) (e : Nat) (x : Engine) : (d.setEng e x).stats = d.stats := rfl
@[simp] theorem Device.setEng_setReq (d : Device) (e : Nat) (x : Engine) : (d.setEng e x).setReq = d.setReq := rfl
@[simp] theorem Device.setEng_mons (d : Device) (e : Nat) (x : Engine) : (d.setEng e x).mons = d.mons := rfl
@[simp] theorem Device.setEng_monIn (d : Device) (e : Nat) (x : Engine) : (d.setEng e x).monIn = d.monIn := rfl
@[simp] theorem Device.setEng_monSync (d : Device) (e : Nat) (x : Engine) : (d.setEng e x).monSync = d.monSync := rfl
@[simp] theorem Device.setEng_i2cPtr (d : Device) (e : Nat) (x : Engine) : (d.setEng e x).i2cPtr = d.i2cPtr := rfl
@[simp] theorem Device.setEng_i2cLatch (d : Device) (e : Nat) (x : Engine) : (d.setEng e x).i2cLatch = d.i2cLatch := rfl
@[simp] theorem Device.setEng_cas (d : Device) (e : Nat) (x : Engine) : (d.setEng e x).cas = d.cas := rfl
@[simp] theorem Device.setEng_anchorCtx (d : Device) (e : Nat) (x : Engine) : (d.setEng e x).anchorCtx = d.anchorCtx := rfl
@[simp] theorem Device.setEng_panel (d : Device) (e : Nat) (x : Engine) : (d.setEng e x).panel = d.panel := rfl
@[simp] theorem Device.setEng_sys (d : Device) (e : Nat) (x : Engine) : (d.setEng e x).sys = d.sys := rfl
@[simp] theorem Device.setEng_tap (d : Device) (e : Nat) (x : Engine) : (d.setEng e x).tap = d.tap := rfl
@[simp] theorem Device.setEng_d3hot (d : Device) (e : Nat) (x : Engine) : (d.setEng e x).d3hot = d.d3hot := rfl
@[simp] theorem Device.setEng_linkDown (d : Device) (e : Nat) (x : Engine) : (d.setEng e x).linkDown = d.linkDown := rfl
@[simp] theorem Device.setEng_cfg (d : Device) (e : Nat) (x : Engine) : (d.setEng e x).cfg = d.cfg := rfl

/-! `Device.send`. -/

@[simp] theorem Device.send_regs (d : Device) (o : Out) : (d.send o).regs = d.regs := rfl
@[simp] theorem Device.send_loHeld (d : Device) (o : Out) : (d.send o).loHeld = d.loHeld := rfl
@[simp] theorem Device.send_hiLatch (d : Device) (o : Out) : (d.send o).hiLatch = d.hiLatch := rfl
@[simp] theorem Device.send_hostRead (d : Device) (o : Out) : (d.send o).hostRead = d.hostRead := rfl
@[simp] theorem Device.send_hostReadEp (d : Device) (o : Out) : (d.send o).hostReadEp = d.hostReadEp := rfl
@[simp] theorem Device.send_time (d : Device) (o : Out) : (d.send o).time = d.time := rfl
@[simp] theorem Device.send_timeRem (d : Device) (o : Out) : (d.send o).timeRem = d.timeRem := rfl
@[simp] theorem Device.send_freeCount (d : Device) (o : Out) : (d.send o).freeCount = d.freeCount := rfl
@[simp] theorem Device.send_latAt (d : Device) (o : Out) : (d.send o).latAt = d.latAt := rfl
@[simp] theorem Device.send_bankUsed (d : Device) (o : Out) : (d.send o).bankUsed = d.bankUsed := rfl
@[simp] theorem Device.send_breqs (d : Device) (o : Out) : (d.send o).breqs = d.breqs := rfl
@[simp] theorem Device.send_completions (d : Device) (o : Out) : (d.send o).completions = d.completions := rfl
@[simp] theorem Device.send_mem (d : Device) (o : Out) : (d.send o).mem = d.mem := rfl
@[simp] theorem Device.send_prog (d : Device) (o : Out) : (d.send o).prog = d.prog := rfl
@[simp] theorem Device.send_xmem (d : Device) (o : Out) : (d.send o).xmem = d.xmem := rfl
@[simp] theorem Device.send_ymem (d : Device) (o : Out) : (d.send o).ymem = d.ymem := rfl
@[simp] theorem Device.send_lmem (d : Device) (o : Out) : (d.send o).lmem = d.lmem := rfl
@[simp] theorem Device.send_ctx (d : Device) (o : Out) : (d.send o).ctx = d.ctx := rfl
@[simp] theorem Device.send_lanes (d : Device) (o : Out) : (d.send o).lanes = d.lanes := rfl
@[simp] theorem Device.send_lrefLost (d : Device) (o : Out) : (d.send o).lrefLost = d.lrefLost := rfl
@[simp] theorem Device.send_streams (d : Device) (o : Out) : (d.send o).streams = d.streams := rfl
@[simp] theorem Device.send_exports (d : Device) (o : Out) : (d.send o).exports = d.exports := rfl
@[simp] theorem Device.send_corrs (d : Device) (o : Out) : (d.send o).corrs = d.corrs := rfl
@[simp] theorem Device.send_chans (d : Device) (o : Out) : (d.send o).chans = d.chans := rfl
@[simp] theorem Device.send_syncIn (d : Device) (o : Out) : (d.send o).syncIn = d.syncIn := rfl
@[simp] theorem Device.send_syncLeft (d : Device) (o : Out) : (d.send o).syncLeft = d.syncLeft := rfl
@[simp] theorem Device.send_bufs (d : Device) (o : Out) : (d.send o).bufs = d.bufs := rfl
@[simp] theorem Device.send_seqs (d : Device) (o : Out) : (d.send o).seqs = d.seqs := rfl
@[simp] theorem Device.send_sidNext (d : Device) (o : Out) : (d.send o).sidNext = d.sidNext := rfl
@[simp] theorem Device.send_ctxs (d : Device) (o : Out) : (d.send o).ctxs = d.ctxs := rfl
@[simp] theorem Device.send_ready (d : Device) (o : Out) : (d.send o).ready = d.ready := rfl
@[simp] theorem Device.send_flight (d : Device) (o : Out) : (d.send o).flight = d.flight := rfl
@[simp] theorem Device.send_pipeFree (d : Device) (o : Out) : (d.send o).pipeFree = d.pipeFree := rfl
@[simp] theorem Device.send_run (d : Device) (o : Out) : (d.send o).run = d.run := rfl
@[simp] theorem Device.send_pend (d : Device) (o : Out) : (d.send o).pend = d.pend := rfl
@[simp] theorem Device.send_checking (d : Device) (o : Out) : (d.send o).checking = d.checking := rfl
@[simp] theorem Device.send_traces (d : Device) (o : Out) : (d.send o).traces = d.traces := rfl
@[simp] theorem Device.send_planes (d : Device) (o : Out) : (d.send o).planes = d.planes := rfl
@[simp] theorem Device.send_violRecs (d : Device) (o : Out) : (d.send o).violRecs = d.violRecs := rfl
@[simp] theorem Device.send_units (d : Device) (o : Out) : (d.send o).units = d.units := rfl
@[simp] theorem Device.send_firings (d : Device) (o : Out) : (d.send o).firings = d.firings := rfl
@[simp] theorem Device.send_tapHist (d : Device) (o : Out) : (d.send o).tapHist = d.tapHist := rfl
@[simp] theorem Device.send_caps (d : Device) (o : Out) : (d.send o).caps = d.caps := rfl
@[simp] theorem Device.send_engines (d : Device) (o : Out) : (d.send o).engines = d.engines := rfl
@[simp] theorem Device.send_tests (d : Device) (o : Out) : (d.send o).tests = d.tests := rfl
@[simp] theorem Device.send_issued (d : Device) (o : Out) : (d.send o).issued = d.issued := rfl
@[simp] theorem Device.send_queues (d : Device) (o : Out) : (d.send o).queues = d.queues := rfl
@[simp] theorem Device.send_zjobs (d : Device) (o : Out) : (d.send o).zjobs = d.zjobs := rfl
@[simp] theorem Device.send_ujobs (d : Device) (o : Out) : (d.send o).ujobs = d.ujobs := rfl
@[simp] theorem Device.send_poison (d : Device) (o : Out) : (d.send o).poison = d.poison := rfl
@[simp] theorem Device.send_memc (d : Device) (o : Out) : (d.send o).memc = d.memc := rfl
@[simp] theorem Device.send_dmas (d : Device) (o : Out) : (d.send o).dmas = d.dmas := rfl
@[simp] theorem Device.send_regions (d : Device) (o : Out) : (d.send o).regions = d.regions := rfl
@[simp] theorem Device.send_rot (d : Device) (o : Out) : (d.send o).rot = d.rot := rfl
@[simp] theorem Device.send_roots (d : Device) (o : Out) : (d.send o).roots = d.roots := rfl
@[simp] theorem Device.send_ckos (d : Device) (o : Out) : (d.send o).ckos = d.ckos := rfl
@[simp] theorem Device.send_vdd (d : Device) (o : Out) : (d.send o).vdd = d.vdd := rfl
@[simp] theorem Device.send_evins (d : Device) (o : Out) : (d.send o).evins = d.evins := rfl
@[simp] theorem Device.send_stats (d : Device) (o : Out) : (d.send o).stats = d.stats := rfl
@[simp] theorem Device.send_setReq (d : Device) (o : Out) : (d.send o).setReq = d.setReq := rfl
@[simp] theorem Device.send_mons (d : Device) (o : Out) : (d.send o).mons = d.mons := rfl
@[simp] theorem Device.send_monIn (d : Device) (o : Out) : (d.send o).monIn = d.monIn := rfl
@[simp] theorem Device.send_monSync (d : Device) (o : Out) : (d.send o).monSync = d.monSync := rfl
@[simp] theorem Device.send_i2cPtr (d : Device) (o : Out) : (d.send o).i2cPtr = d.i2cPtr := rfl
@[simp] theorem Device.send_i2cLatch (d : Device) (o : Out) : (d.send o).i2cLatch = d.i2cLatch := rfl
@[simp] theorem Device.send_cas (d : Device) (o : Out) : (d.send o).cas = d.cas := rfl
@[simp] theorem Device.send_anchorCtx (d : Device) (o : Out) : (d.send o).anchorCtx = d.anchorCtx := rfl
@[simp] theorem Device.send_panel (d : Device) (o : Out) : (d.send o).panel = d.panel := rfl
@[simp] theorem Device.send_sys (d : Device) (o : Out) : (d.send o).sys = d.sys := rfl
@[simp] theorem Device.send_tap (d : Device) (o : Out) : (d.send o).tap = d.tap := rfl
@[simp] theorem Device.send_d3hot (d : Device) (o : Out) : (d.send o).d3hot = d.d3hot := rfl
@[simp] theorem Device.send_linkDown (d : Device) (o : Out) : (d.send o).linkDown = d.linkDown := rfl
@[simp] theorem Device.send_cfg (d : Device) (o : Out) : (d.send o).cfg = d.cfg := rfl

/-! `Device.request`. -/

@[simp] theorem Device.request_regs (d : Device) (k : BKind) (j : Nat) (t : Time) (o : Origin) (l : List Nat) : (d.request k j t o l).regs = d.regs := rfl
@[simp] theorem Device.request_loHeld (d : Device) (k : BKind) (j : Nat) (t : Time) (o : Origin) (l : List Nat) : (d.request k j t o l).loHeld = d.loHeld := rfl
@[simp] theorem Device.request_hiLatch (d : Device) (k : BKind) (j : Nat) (t : Time) (o : Origin) (l : List Nat) : (d.request k j t o l).hiLatch = d.hiLatch := rfl
@[simp] theorem Device.request_hostRead (d : Device) (k : BKind) (j : Nat) (t : Time) (o : Origin) (l : List Nat) : (d.request k j t o l).hostRead = d.hostRead := rfl
@[simp] theorem Device.request_hostReadEp (d : Device) (k : BKind) (j : Nat) (t : Time) (o : Origin) (l : List Nat) : (d.request k j t o l).hostReadEp = d.hostReadEp := rfl
@[simp] theorem Device.request_outbox (d : Device) (k : BKind) (j : Nat) (t : Time) (o : Origin) (l : List Nat) : (d.request k j t o l).outbox = d.outbox := rfl
@[simp] theorem Device.request_time (d : Device) (k : BKind) (j : Nat) (t : Time) (o : Origin) (l : List Nat) : (d.request k j t o l).time = d.time := rfl
@[simp] theorem Device.request_timeRem (d : Device) (k : BKind) (j : Nat) (t : Time) (o : Origin) (l : List Nat) : (d.request k j t o l).timeRem = d.timeRem := rfl
@[simp] theorem Device.request_freeCount (d : Device) (k : BKind) (j : Nat) (t : Time) (o : Origin) (l : List Nat) : (d.request k j t o l).freeCount = d.freeCount := rfl
@[simp] theorem Device.request_latAt (d : Device) (k : BKind) (j : Nat) (t : Time) (o : Origin) (l : List Nat) : (d.request k j t o l).latAt = d.latAt := rfl
@[simp] theorem Device.request_bankUsed (d : Device) (k : BKind) (j : Nat) (t : Time) (o : Origin) (l : List Nat) : (d.request k j t o l).bankUsed = d.bankUsed := rfl
@[simp] theorem Device.request_completions (d : Device) (k : BKind) (j : Nat) (t : Time) (o : Origin) (l : List Nat) : (d.request k j t o l).completions = d.completions := rfl
@[simp] theorem Device.request_mem (d : Device) (k : BKind) (j : Nat) (t : Time) (o : Origin) (l : List Nat) : (d.request k j t o l).mem = d.mem := rfl
@[simp] theorem Device.request_prog (d : Device) (k : BKind) (j : Nat) (t : Time) (o : Origin) (l : List Nat) : (d.request k j t o l).prog = d.prog := rfl
@[simp] theorem Device.request_xmem (d : Device) (k : BKind) (j : Nat) (t : Time) (o : Origin) (l : List Nat) : (d.request k j t o l).xmem = d.xmem := rfl
@[simp] theorem Device.request_ymem (d : Device) (k : BKind) (j : Nat) (t : Time) (o : Origin) (l : List Nat) : (d.request k j t o l).ymem = d.ymem := rfl
@[simp] theorem Device.request_lmem (d : Device) (k : BKind) (j : Nat) (t : Time) (o : Origin) (l : List Nat) : (d.request k j t o l).lmem = d.lmem := rfl
@[simp] theorem Device.request_ctx (d : Device) (k : BKind) (j : Nat) (t : Time) (o : Origin) (l : List Nat) : (d.request k j t o l).ctx = d.ctx := rfl
@[simp] theorem Device.request_lanes (d : Device) (k : BKind) (j : Nat) (t : Time) (o : Origin) (l : List Nat) : (d.request k j t o l).lanes = d.lanes := rfl
@[simp] theorem Device.request_lrefLost (d : Device) (k : BKind) (j : Nat) (t : Time) (o : Origin) (l : List Nat) : (d.request k j t o l).lrefLost = d.lrefLost := rfl
@[simp] theorem Device.request_streams (d : Device) (k : BKind) (j : Nat) (t : Time) (o : Origin) (l : List Nat) : (d.request k j t o l).streams = d.streams := rfl
@[simp] theorem Device.request_exports (d : Device) (k : BKind) (j : Nat) (t : Time) (o : Origin) (l : List Nat) : (d.request k j t o l).exports = d.exports := rfl
@[simp] theorem Device.request_corrs (d : Device) (k : BKind) (j : Nat) (t : Time) (o : Origin) (l : List Nat) : (d.request k j t o l).corrs = d.corrs := rfl
@[simp] theorem Device.request_chans (d : Device) (k : BKind) (j : Nat) (t : Time) (o : Origin) (l : List Nat) : (d.request k j t o l).chans = d.chans := rfl
@[simp] theorem Device.request_syncIn (d : Device) (k : BKind) (j : Nat) (t : Time) (o : Origin) (l : List Nat) : (d.request k j t o l).syncIn = d.syncIn := rfl
@[simp] theorem Device.request_syncLeft (d : Device) (k : BKind) (j : Nat) (t : Time) (o : Origin) (l : List Nat) : (d.request k j t o l).syncLeft = d.syncLeft := rfl
@[simp] theorem Device.request_bufs (d : Device) (k : BKind) (j : Nat) (t : Time) (o : Origin) (l : List Nat) : (d.request k j t o l).bufs = d.bufs := rfl
@[simp] theorem Device.request_seqs (d : Device) (k : BKind) (j : Nat) (t : Time) (o : Origin) (l : List Nat) : (d.request k j t o l).seqs = d.seqs := rfl
@[simp] theorem Device.request_sidNext (d : Device) (k : BKind) (j : Nat) (t : Time) (o : Origin) (l : List Nat) : (d.request k j t o l).sidNext = d.sidNext := rfl
@[simp] theorem Device.request_ctxs (d : Device) (k : BKind) (j : Nat) (t : Time) (o : Origin) (l : List Nat) : (d.request k j t o l).ctxs = d.ctxs := rfl
@[simp] theorem Device.request_ready (d : Device) (k : BKind) (j : Nat) (t : Time) (o : Origin) (l : List Nat) : (d.request k j t o l).ready = d.ready := rfl
@[simp] theorem Device.request_flight (d : Device) (k : BKind) (j : Nat) (t : Time) (o : Origin) (l : List Nat) : (d.request k j t o l).flight = d.flight := rfl
@[simp] theorem Device.request_pipeFree (d : Device) (k : BKind) (j : Nat) (t : Time) (o : Origin) (l : List Nat) : (d.request k j t o l).pipeFree = d.pipeFree := rfl
@[simp] theorem Device.request_run (d : Device) (k : BKind) (j : Nat) (t : Time) (o : Origin) (l : List Nat) : (d.request k j t o l).run = d.run := rfl
@[simp] theorem Device.request_pend (d : Device) (k : BKind) (j : Nat) (t : Time) (o : Origin) (l : List Nat) : (d.request k j t o l).pend = d.pend := rfl
@[simp] theorem Device.request_checking (d : Device) (k : BKind) (j : Nat) (t : Time) (o : Origin) (l : List Nat) : (d.request k j t o l).checking = d.checking := rfl
@[simp] theorem Device.request_traces (d : Device) (k : BKind) (j : Nat) (t : Time) (o : Origin) (l : List Nat) : (d.request k j t o l).traces = d.traces := rfl
@[simp] theorem Device.request_planes (d : Device) (k : BKind) (j : Nat) (t : Time) (o : Origin) (l : List Nat) : (d.request k j t o l).planes = d.planes := rfl
@[simp] theorem Device.request_violRecs (d : Device) (k : BKind) (j : Nat) (t : Time) (o : Origin) (l : List Nat) : (d.request k j t o l).violRecs = d.violRecs := rfl
@[simp] theorem Device.request_units (d : Device) (k : BKind) (j : Nat) (t : Time) (o : Origin) (l : List Nat) : (d.request k j t o l).units = d.units := rfl
@[simp] theorem Device.request_firings (d : Device) (k : BKind) (j : Nat) (t : Time) (o : Origin) (l : List Nat) : (d.request k j t o l).firings = d.firings := rfl
@[simp] theorem Device.request_tapHist (d : Device) (k : BKind) (j : Nat) (t : Time) (o : Origin) (l : List Nat) : (d.request k j t o l).tapHist = d.tapHist := rfl
@[simp] theorem Device.request_caps (d : Device) (k : BKind) (j : Nat) (t : Time) (o : Origin) (l : List Nat) : (d.request k j t o l).caps = d.caps := rfl
@[simp] theorem Device.request_engines (d : Device) (k : BKind) (j : Nat) (t : Time) (o : Origin) (l : List Nat) : (d.request k j t o l).engines = d.engines := rfl
@[simp] theorem Device.request_tests (d : Device) (k : BKind) (j : Nat) (t : Time) (o : Origin) (l : List Nat) : (d.request k j t o l).tests = d.tests := rfl
@[simp] theorem Device.request_issued (d : Device) (k : BKind) (j : Nat) (t : Time) (o : Origin) (l : List Nat) : (d.request k j t o l).issued = d.issued := rfl
@[simp] theorem Device.request_queues (d : Device) (k : BKind) (j : Nat) (t : Time) (o : Origin) (l : List Nat) : (d.request k j t o l).queues = d.queues := rfl
@[simp] theorem Device.request_zjobs (d : Device) (k : BKind) (j : Nat) (t : Time) (o : Origin) (l : List Nat) : (d.request k j t o l).zjobs = d.zjobs := rfl
@[simp] theorem Device.request_ujobs (d : Device) (k : BKind) (j : Nat) (t : Time) (o : Origin) (l : List Nat) : (d.request k j t o l).ujobs = d.ujobs := rfl
@[simp] theorem Device.request_poison (d : Device) (k : BKind) (j : Nat) (t : Time) (o : Origin) (l : List Nat) : (d.request k j t o l).poison = d.poison := rfl
@[simp] theorem Device.request_memc (d : Device) (k : BKind) (j : Nat) (t : Time) (o : Origin) (l : List Nat) : (d.request k j t o l).memc = d.memc := rfl
@[simp] theorem Device.request_dmas (d : Device) (k : BKind) (j : Nat) (t : Time) (o : Origin) (l : List Nat) : (d.request k j t o l).dmas = d.dmas := rfl
@[simp] theorem Device.request_regions (d : Device) (k : BKind) (j : Nat) (t : Time) (o : Origin) (l : List Nat) : (d.request k j t o l).regions = d.regions := rfl
@[simp] theorem Device.request_rot (d : Device) (k : BKind) (j : Nat) (t : Time) (o : Origin) (l : List Nat) : (d.request k j t o l).rot = d.rot := rfl
@[simp] theorem Device.request_roots (d : Device) (k : BKind) (j : Nat) (t : Time) (o : Origin) (l : List Nat) : (d.request k j t o l).roots = d.roots := rfl
@[simp] theorem Device.request_ckos (d : Device) (k : BKind) (j : Nat) (t : Time) (o : Origin) (l : List Nat) : (d.request k j t o l).ckos = d.ckos := rfl
@[simp] theorem Device.request_vdd (d : Device) (k : BKind) (j : Nat) (t : Time) (o : Origin) (l : List Nat) : (d.request k j t o l).vdd = d.vdd := rfl
@[simp] theorem Device.request_evins (d : Device) (k : BKind) (j : Nat) (t : Time) (o : Origin) (l : List Nat) : (d.request k j t o l).evins = d.evins := rfl
@[simp] theorem Device.request_stats (d : Device) (k : BKind) (j : Nat) (t : Time) (o : Origin) (l : List Nat) : (d.request k j t o l).stats = d.stats := rfl
@[simp] theorem Device.request_setReq (d : Device) (k : BKind) (j : Nat) (t : Time) (o : Origin) (l : List Nat) : (d.request k j t o l).setReq = d.setReq := rfl
@[simp] theorem Device.request_mons (d : Device) (k : BKind) (j : Nat) (t : Time) (o : Origin) (l : List Nat) : (d.request k j t o l).mons = d.mons := rfl
@[simp] theorem Device.request_monIn (d : Device) (k : BKind) (j : Nat) (t : Time) (o : Origin) (l : List Nat) : (d.request k j t o l).monIn = d.monIn := rfl
@[simp] theorem Device.request_monSync (d : Device) (k : BKind) (j : Nat) (t : Time) (o : Origin) (l : List Nat) : (d.request k j t o l).monSync = d.monSync := rfl
@[simp] theorem Device.request_i2cPtr (d : Device) (k : BKind) (j : Nat) (t : Time) (o : Origin) (l : List Nat) : (d.request k j t o l).i2cPtr = d.i2cPtr := rfl
@[simp] theorem Device.request_i2cLatch (d : Device) (k : BKind) (j : Nat) (t : Time) (o : Origin) (l : List Nat) : (d.request k j t o l).i2cLatch = d.i2cLatch := rfl
@[simp] theorem Device.request_cas (d : Device) (k : BKind) (j : Nat) (t : Time) (o : Origin) (l : List Nat) : (d.request k j t o l).cas = d.cas := rfl
@[simp] theorem Device.request_anchorCtx (d : Device) (k : BKind) (j : Nat) (t : Time) (o : Origin) (l : List Nat) : (d.request k j t o l).anchorCtx = d.anchorCtx := rfl
@[simp] theorem Device.request_panel (d : Device) (k : BKind) (j : Nat) (t : Time) (o : Origin) (l : List Nat) : (d.request k j t o l).panel = d.panel := rfl
@[simp] theorem Device.request_sys (d : Device) (k : BKind) (j : Nat) (t : Time) (o : Origin) (l : List Nat) : (d.request k j t o l).sys = d.sys := rfl
@[simp] theorem Device.request_tap (d : Device) (k : BKind) (j : Nat) (t : Time) (o : Origin) (l : List Nat) : (d.request k j t o l).tap = d.tap := rfl
@[simp] theorem Device.request_d3hot (d : Device) (k : BKind) (j : Nat) (t : Time) (o : Origin) (l : List Nat) : (d.request k j t o l).d3hot = d.d3hot := rfl
@[simp] theorem Device.request_linkDown (d : Device) (k : BKind) (j : Nat) (t : Time) (o : Origin) (l : List Nat) : (d.request k j t o l).linkDown = d.linkDown := rfl
@[simp] theorem Device.request_cfg (d : Device) (k : BKind) (j : Nat) (t : Time) (o : Origin) (l : List Nat) : (d.request k j t o l).cfg = d.cfg := rfl

/-! The block. -/

@[simp] theorem State.dev_dev (s : State) (d : Device) : ({ s with dev := d } : State).dev = d := rfl
@[simp] theorem State.dev_pending (s : State) (d : Device) : ({ s with dev := d } : State).pending = s.pending := rfl
@[simp] theorem State.pending_dev (s : State) (l : List Instr) : ({ s with pending := l } : State).dev = s.dev := rfl

/-- Every total operation completes, and leaves the waiting commands. -/
theorem State.run_eq (s : State) (f : Device → Device) : s.run f = .next { s with dev := f s.dev } := rfl

end Sys2Proof.Machine
end

