-- ==== Sys2Proof/Laws/Ops.lean ====
section
/-! SUPPORT. Laws of the named operations: a register, a field, a byte of memory and a numbered object read after a write,
what a write leaves alone, and the canonical form of the registers and of memory. -/

namespace Sys2Proof.Machine

/-! Bit fields. -/

theorem pack_lt (r q a b : Nat) (hr : r < a) (hq : q < b) : r + q * a < a * b := by
  have h : (q + 1) * a ≤ b * a := Nat.mul_le_mul_right _ hq
  rw [Nat.add_mul, Nat.mul_comm b a] at h
  omega

theorem setBits_decomp (n lo w v : Nat) :
    setBits n lo w v = n % 2 ^ lo + (v % 2 ^ w) * 2 ^ lo + n / 2 ^ (lo + w) * 2 ^ (lo + w) := by
  unfold setBits bitsOf
  have h1 := Nat.div_add_mod n (2 ^ lo)
  have h2 := Nat.div_add_mod (n / 2 ^ lo) (2 ^ w)
  have h3 : n / 2 ^ lo / 2 ^ w = n / 2 ^ (lo + w) := by rw [Nat.div_div_eq_div_mul, pow_add]
  rw [h3] at h2
  have h4 : n / 2 ^ (lo + w) * 2 ^ (lo + w) = 2 ^ lo * (2 ^ w * (n / 2 ^ (lo + w))) := by rw [pow_add]; ring
  have h5 : n = 2 ^ lo * (2 ^ w * (n / 2 ^ (lo + w))) + 2 ^ lo * (n / 2 ^ lo % 2 ^ w) + n % 2 ^ lo := by
    rw [← Nat.mul_add, h2, h1]
  rw [h4]
  have h6 : n / 2 ^ lo % 2 ^ w * 2 ^ lo = 2 ^ lo * (n / 2 ^ lo % 2 ^ w) := Nat.mul_comm _ _
  omega

/-- A field reads as the value just set, cut to its width. -/
theorem bitsOf_setBits_same (n lo w v : Nat) : bitsOf (setBits n lo w v) lo w = v % 2 ^ w := by
  rw [setBits_decomp, bitsOf, pow_add]
  have : n % 2 ^ lo + v % 2 ^ w * 2 ^ lo + n / (2 ^ lo * 2 ^ w) * (2 ^ lo * 2 ^ w)
      = n % 2 ^ lo + (v % 2 ^ w + n / (2 ^ lo * 2 ^ w) * 2 ^ w) * 2 ^ lo := by ring
  rw [this, Nat.add_mul_div_right _ _ (by positivity), Nat.div_eq_of_lt (Nat.mod_lt _ (by positivity)), Nat.zero_add,
    Nat.add_mul_mod_self_right, Nat.mod_mod]

/-- A field above the one just set keeps its value. -/
theorem bitsOf_setBits_above (n lo w v lo' w' : Nat) (h : lo + w ≤ lo') :
    bitsOf (setBits n lo w v) lo' w' = bitsOf n lo' w' := by
  rw [setBits_decomp, bitsOf, bitsOf]
  congr 1
  obtain ⟨k, rfl⟩ := Nat.exists_eq_add_of_le h
  have hlt : n % 2 ^ lo + v % 2 ^ w * 2 ^ lo < 2 ^ (lo + w) := by
    rw [pow_add]; exact pack_lt _ _ _ _ (Nat.mod_lt _ (by positivity)) (Nat.mod_lt _ (by positivity))
  rw [pow_add _ (lo + w) k, ← Nat.div_div_eq_div_mul, ← Nat.div_div_eq_div_mul, Nat.add_mul_div_right _ _ (by positivity),
    Nat.div_eq_of_lt hlt, Nat.zero_add]

/-- A field below the one just set keeps its value. -/
theorem bitsOf_setBits_below (n lo w v lo' w' : Nat) (h : lo' + w' ≤ lo) :
    bitsOf (setBits n lo w v) lo' w' = bitsOf n lo' w' := by
  rw [setBits_decomp]
  obtain ⟨k, rfl⟩ := Nat.exists_eq_add_of_le h
  have e : n % 2 ^ (lo' + w' + k) + v % 2 ^ w * 2 ^ (lo' + w' + k) + n / 2 ^ (lo' + w' + k + w) * 2 ^ (lo' + w' + k + w)
      = n % 2 ^ (lo' + w' + k) + 2 ^ lo' * (2 ^ w' * (2 ^ k * (v % 2 ^ w) + n / 2 ^ (lo' + w' + k + w) * 2 ^ k * 2 ^ w)) := by
    simp only [pow_add]; ring
  rw [e, bitsOf, bitsOf, Nat.add_mul_div_left _ _ (by positivity), Nat.add_mul_mod_self_left]
  have f := Nat.div_add_mod n (2 ^ (lo' + w' + k))
  conv_rhs => rw [← f]
  have g : 2 ^ (lo' + w' + k) * (n / 2 ^ (lo' + w' + k)) = 2 ^ lo' * (2 ^ w' * (2 ^ k * (n / 2 ^ (lo' + w' + k)))) := by
    simp only [pow_add]; ring
  rw [g, Nat.add_comm (2 ^ lo' * _) _, Nat.add_mul_div_left _ _ (by positivity), Nat.add_mul_mod_self_left]

/-- A field stays within the bits that hold it. -/
theorem setBits_lt (n lo w v k : Nat) (h : n < 2 ^ k) (hk : lo + w ≤ k) : setBits n lo w v < 2 ^ k := by
  rw [setBits_decomp]
  obtain ⟨j, rfl⟩ := Nat.exists_eq_add_of_le hk
  have a := Nat.mod_lt n (show 0 < 2 ^ lo by positivity)
  have b := Nat.mod_lt v (show 0 < 2 ^ w by positivity)
  have c : n / 2 ^ (lo + w) < 2 ^ j := by
    rw [Nat.div_lt_iff_lt_mul (by positivity)]; rw [pow_add] at h; linarith [Nat.mul_comm (2 ^ (lo + w)) (2 ^ j)]
  have l : n % 2 ^ lo + v % 2 ^ w * 2 ^ lo + 1 ≤ 2 ^ (lo + w) := by rw [pow_add]; exact pack_lt _ _ _ _ a b
  have m : (n / 2 ^ (lo + w) + 1) * 2 ^ (lo + w) ≤ 2 ^ j * 2 ^ (lo + w) := Nat.mul_le_mul_right _ c
  rw [pow_add _ (lo + w) j, Nat.mul_comm (2 ^ (lo + w))]
  rw [Nat.add_mul] at m
  omega

/-! Registers. -/

/-- A register reads as what was just written, cut to 32 bits. -/
theorem Device.rdN_wr (d : Device) (a v : Nat) : (d.wr a v).rdN a = v % 2 ^ 32 := by
  simp [Device.rdN, Device.rd, Device.wr]

/-- A write leaves every other register. -/
theorem Device.rdN_wr_other (d : Device) (a b v : Nat) (h : b ≠ a) : (d.wr a v).rdN b = d.rdN b := by
  simp [Device.rdN, Device.rd, Device.wr, Sparse.get_set_other _ _ _ _ _ h]

theorem Device.rdN_lt (d : Device) (a : Nat) : d.rdN a < 2 ^ 32 := (d.rd a).isLt

/-- A field reads as what it was just set to, cut to its width. -/
theorem Device.fld_setFld (d : Device) (x : FieldAt) (v : Nat) (h : x.f.lo + x.f.w ≤ 32) :
    (d.setFld x v).fld x = v % 2 ^ x.f.w := by
  rw [Device.fld, Device.setFld, Device.rdN_wr, Nat.mod_eq_of_lt (setBits_lt _ _ _ _ _ (d.rdN_lt _) h),
    bitsOf_setBits_same]

/-- Setting a field leaves the fields of other registers. -/
theorem Device.fld_setFld_other (d : Device) (x y : FieldAt) (v : Nat) (h : y.addr ≠ x.addr) :
    (d.setFld x v).fld y = d.fld y := by
  rw [Device.fld, Device.setFld, Device.rdN_wr_other _ _ _ _ h, Device.fld]

/-- Setting a field leaves the disjoint fields of its own register. -/
theorem Device.fld_setFld_disjoint (d : Device) (x y : FieldAt) (v : Nat) (hx : x.f.lo + x.f.w ≤ 32)
    (h : x.f.lo + x.f.w ≤ y.f.lo ∨ y.f.lo + y.f.w ≤ x.f.lo) : (d.setFld x v).fld y = d.fld y := by
  by_cases e : y.addr = x.addr
  · rw [Device.fld, Device.setFld, e, Device.rdN_wr, Nat.mod_eq_of_lt (setBits_lt _ _ _ _ _ (d.rdN_lt _) hx), Device.fld, e]
    rcases h with h | h
    · exact bitsOf_setBits_above _ _ _ _ _ _ h
    · exact bitsOf_setBits_below _ _ _ _ _ _ h
  · exact Device.fld_setFld_other d x y v e

/-- Every register write keeps the registers' canonical form. -/
theorem Device.wr_wf (d : Device) (a v : Nat) (h : Sparse.wf regReset d.regs = true) :
    Sparse.wf regReset (d.wr a v).regs = true := Sparse.wf_set _ _ _ _ h

/-- Setting a field keeps the registers' canonical form. -/
theorem Device.setFld_wf (d : Device) (x : FieldAt) (v : Nat) (h : Sparse.wf regReset d.regs = true) :
    Sparse.wf regReset (d.setFld x v).regs = true := Sparse.wf_set _ _ _ _ h

/-- A counter counts one event, up to all ones (R11). -/
theorem Device.rdN_inc (d : Device) (a : Nat) : (d.inc a).rdN a = min (d.rdN a + 1) 0xFFFFFFFF := by
  rw [Device.inc, Device.rdN_wr]; omega

/-! Memory. -/

/-- The canonical form of a memory: addresses strictly rising, no listed zero. -/
abbrev Memory.wf (m : List Host.Cell) : Bool := Sparse.wf (fun _ => (0 : Byte)) m

/-- A byte reads as what was just written. -/
theorem memGet_memSet_same (m : List Host.Cell) (a : Nat) (b : Byte) : memGet (memSet m a b) a = b :=
  Sparse.get_set_same _ _ _ _

/-- Writing a byte leaves every other byte. -/
theorem memGet_memSet_other (m : List Host.Cell) (a c : Nat) (b : Byte) (h : c ≠ a) :
    memGet (memSet m a b) c = memGet m c := Sparse.get_set_other _ _ _ _ _ h

/-- Writing a byte keeps the canonical form. -/
theorem memSet_wf (m : List Host.Cell) (a : Nat) (b : Byte) (h : Memory.wf m = true) : Memory.wf (memSet m a b) = true :=
  Sparse.wf_set _ _ _ _ h

/-- Writing bytes keeps the canonical form. -/
theorem memWrite_wf (bs : List Byte) (m : List Host.Cell) (a : Nat) (h : Memory.wf m = true) :
    Memory.wf (memWrite m a bs) = true := by
  induction bs generalizing m a with
  | nil => exact h
  | cons b bs ih => exact ih _ _ (memSet_wf m a b h)

/-- Zeroing a range keeps the canonical form. -/
theorem memZero_wf (m : List Host.Cell) (a n : Nat) (h : Memory.wf m = true) : Memory.wf (memZero m a n) = true :=
  Sparse.wfFrom_keep _ _ _ _ h

/-- Writing bytes leaves every byte outside them. -/
theorem memGet_memWrite_other (bs : List Byte) (m : List Host.Cell) (a c : Nat) (h : c < a ∨ a + bs.length ≤ c) :
    memGet (memWrite m a bs) c = memGet m c := by
  induction bs generalizing m a with
  | nil => rfl
  | cons b bs ih =>
    simp only [List.length_cons] at h
    rw [memWrite, ih _ _ (by omega), memGet_memSet_other _ _ _ _ (by omega)]

/-- Writing bytes puts each at its address. -/
theorem memGet_memWrite (bs : List Byte) (m : List Host.Cell) (a i : Nat) (h : i < bs.length) :
    memGet (memWrite m a bs) (a + i) = bs[i] := by
  induction bs generalizing m a i with
  | nil => simp at h
  | cons b bs ih =>
    cases i with
    | zero => simp only [memWrite, Nat.add_zero]; rw [memGet_memWrite_other _ _ _ _ (by omega), memGet_memSet_same]; rfl
    | succ i =>
      have := ih (memSet m a b) (a + 1) i (by simpa using h)
      rw [memWrite, show a + (i + 1) = a + 1 + i by omega, this]; rfl

/-- A zeroed range reads as zero, and every byte outside it as before. -/
theorem memGet_memZero (m : List Host.Cell) (a n c : Nat) :
    memGet (memZero m a n) c = if a ≤ c ∧ c < a + n then 0 else memGet m c := by
  unfold memGet memZero
  rw [Sparse.get_keep (fun _ => (0 : Byte)) (fun k => !(decide (a ≤ k) && decide (k < a + n))) m c]
  by_cases h : a ≤ c ∧ c < a + n
  · simp [h]
  · rw [if_neg h, if_pos]; simp only [Bool.not_eq_true', Bool.and_eq_false_iff, decide_eq_false_iff_not]; omega

/-- A store to device memory keeps its canonical form. -/
theorem Device.store_wf (d : Device) (a : Nat) (bs : List Byte) (h : Memory.wf d.mem = true) :
    Memory.wf (d.store a bs).mem = true := memWrite_wf bs _ _ h

/-- Zeroing device memory keeps its canonical form. -/
theorem Device.zero_wf (d : Device) (a n : Nat) (h : Memory.wf d.mem = true) : Memory.wf (d.zero a n).mem = true :=
  memZero_wf _ _ _ h

/-! Engines. -/

@[simp] theorem Device.eng_setEng (d : Device) (e : Nat) (x : Engine) : (d.setEng e x).eng e = x := by
  simp [Device.eng, Device.setEng]

/-- Writing one engine leaves the others. -/
theorem Device.eng_setEng_other (d : Device) (e j : Nat) (x : Engine) (h : j ≠ e) : (d.setEng e x).eng j = d.eng j :=
  Sparse.get_set_other _ _ _ _ _ h

/-- g0 reads as zero (R280). -/
@[simp] theorem Engine.gr_zero (x : Engine) : x.gr 0 = 0 := by simp [Engine.gr]

/-- A g register other than g0 reads as what was just written. -/
theorem Engine.gr_setG (x : Engine) (i : Nat) (v : Word) (h : i ≠ 0) : (x.setG i v).gr i = v := by
  simp [Engine.gr, Engine.setG, h]

/-- A write to g0 is discarded (R280). -/
@[simp] theorem Engine.setG_zero (x : Engine) (v : Word) : x.setG 0 v = x := by simp [Engine.setG]

/-- Writing one g register leaves the others. -/
theorem Engine.gr_setG_other (x : Engine) (i j : Nat) (v : Word) (h : j ≠ i) : (x.setG i v).gr j = x.gr j := by
  unfold Engine.gr Engine.setG
  split
  · rfl
  · split
    · rfl
    · exact Sparse.get_set_other _ _ _ _ _ h

@[simp] theorem Engine.cr_setC (x : Engine) (i : Nat) (v : Word × Word) : (x.setC i v).cr i = v := by
  simp [Engine.cr, Engine.setC]
@[simp] theorem Engine.ar_setA (x : Engine) (i : Nat) (v : Int × Int) : (x.setA i v).ar i = v := by
  simp [Engine.ar, Engine.setA]
@[simp] theorem Engine.pr_setP (x : Engine) (i : Nat) (v : Word) : (x.setP i v).pr i = v := by
  simp [Engine.pr, Engine.setP]

end Sys2Proof.Machine
end

