-- ==== Sys2Proof/Laws/Disoex.lean ====
section
/-! SUPPORT. Laws of issuing and retiring a Disoex instruction, of the status bits, and of writing one engine: what each
can do, said once. -/

namespace Sys2Proof.Machine

/-! Issue. -/

/-- An instruction that issues and whose effect and retirement succeed leaves the effect with the retired engine. -/
theorem Device.issue_ok {d d' : Device} {e : Nat} {i : Instr} {len : Nat} {touch : List Nat} {ctl : Ctl} {x' : Engine}
    {f : Device → Except Nat (Device × Ctl)} (h : d.issuesNow e i len touch) (hf : f d = .ok (d', ctl))
    (hr : (d'.eng e).retire len ctl = .ok x') : d.issue e i len touch f = d'.setEng e x' := by
  obtain ⟨h1, h2, h3, h4, h5, h6, h7⟩ := h
  have a : ¬((d.eng e).state ≠ 1 ∨ 512 ≤ e ∨ d.sys.asleep = true ∨ (d.eng e).farStall touch = true) := by
    simp [h1, h3, h4]; omega
  have b : ¬ 0x10000 < (d.eng e).pc + len := by omega
  have c : ¬ ((decide (len = 2) && (d.eng e).isEnd (d.eng e).pc) = true) := by simpa using h7
  simp only [Device.issue, if_neg a, if_neg b, h6, Bool.not_true, Bool.false_eq_true, if_false, if_neg c, hf, hr]

/-- An instruction that issues and whose effect fails faults its engine. -/
theorem Device.issue_fault {d : Device} {e : Nat} {i : Instr} {len : Nat} {touch : List Nat} {c : Nat}
    {f : Device → Except Nat (Device × Ctl)} (h : d.issuesNow e i len touch) (hf : f d = .error c) :
    d.issue e i len touch f = d.engFault e c := by
  obtain ⟨h1, h2, h3, h4, h5, h6, h7⟩ := h
  have a : ¬((d.eng e).state ≠ 1 ∨ 512 ≤ e ∨ d.sys.asleep = true ∨ (d.eng e).farStall touch = true) := by
    simp [h1, h3, h4]; omega
  have b : ¬ 0x10000 < (d.eng e).pc + len := by omega
  have c' : ¬ ((decide (len = 2) && (d.eng e).isEnd (d.eng e).pc) = true) := by simpa using h7
  simp only [Device.issue, if_neg a, if_neg b, h6, Bool.not_true, Bool.false_eq_true, if_false, if_neg c', hf]

/-- An instruction that issues and whose retirement fails faults its engine, its effect undone. -/
theorem Device.issue_retire_fault {d d' : Device} {e : Nat} {i : Instr} {len : Nat} {touch : List Nat} {ctl : Ctl} {c : Nat}
    {f : Device → Except Nat (Device × Ctl)} (h : d.issuesNow e i len touch) (hf : f d = .ok (d', ctl))
    (hr : (d'.eng e).retire len ctl = .error c) : d.issue e i len touch f = d.engFault e c := by
  obtain ⟨h1, h2, h3, h4, h5, h6, h7⟩ := h
  have a : ¬((d.eng e).state ≠ 1 ∨ 512 ≤ e ∨ d.sys.asleep = true ∨ (d.eng e).farStall touch = true) := by
    simp [h1, h3, h4]; omega
  have b : ¬ 0x10000 < (d.eng e).pc + len := by omega
  have c' : ¬ ((decide (len = 2) && (d.eng e).isEnd (d.eng e).pc) = true) := by simpa using h7
  simp only [Device.issue, if_neg a, if_neg b, h6, Bool.not_true, Bool.false_eq_true, if_false, if_neg c', hf, hr]

/-- What issuing can do: nothing while the engine cannot issue, a fault of the engine, or the effect with the retired engine. -/
theorem Device.issue_cases (d : Device) (e : Nat) (i : Instr) (len : Nat) (touch : List Nat)
    (f : Device → Except Nat (Device × Ctl)) :
    d.issue e i len touch f = d ∨ (∃ c, d.issue e i len touch f = d.engFault e c) ∨
      ∃ d' ctl x', d.issuesNow e i len touch ∧ f d = .ok (d', ctl) ∧ (d'.eng e).retire len ctl = .ok x' ∧
        d.issue e i len touch f = d'.setEng e x' := by
  by_cases h : d.issuesNow e i len touch
  · cases hf : f d with
    | error c => exact .inr (.inl ⟨c, Device.issue_fault h hf⟩)
    | ok p =>
      obtain ⟨d', ctl⟩ := p
      cases hr : (d'.eng e).retire len ctl with
      | error c => exact .inr (.inl ⟨c, Device.issue_retire_fault h hf hr⟩)
      | ok x' => exact .inr (.inr ⟨d', ctl, x', h, hf ▸ rfl, hr, Device.issue_ok h hf hr⟩)
  · unfold Device.issue
    simp only
    split
    · exact .inl rfl
    · rename_i h1
      split
      · exact .inr (.inl ⟨2, rfl⟩)
      · rename_i h2
        split
        · exact .inr (.inl ⟨1, rfl⟩)
        · rename_i h3
          split
          · exact .inr (.inl ⟨9, rfl⟩)
          · rename_i h4
            refine absurd ⟨?_, ?_, ?_, ?_, ?_, ?_, ?_⟩ h
            · by_contra g; exact h1 (.inl g)
            · by_contra g; exact h1 (.inr (.inl (by omega)))
            · by_contra g; exact h1 (.inr (.inr (.inl (by simpa using g))))
            · by_contra g; exact h1 (.inr (.inr (.inr (by simpa using g))))
            · omega
            · simpa using h3
            · simpa using h4

/-- Retiring in sequence moves the pc on and counts the repeats. -/
theorem Engine.retire_seq (x : Engine) (len : Nat) : x.retire len .seq = .ok (x.next len) := rfl

/-! Writing one engine. -/

/-- Writing engine `e` twice leaves what the second write put. -/
theorem OnlyEngine.setEng_setEng (d : Device) (e : Nat) (x y : Engine) : OnlyEngine d ((d.setEng e x).setEng e y) e y := by
  refine ⟨by simp, fun j h => ?_, rfl⟩
  rw [Device.eng_setEng_other _ _ _ _ h, Device.eng_setEng_other _ _ _ _ h]

/-- Writing engine `e` once. -/
theorem OnlyEngine.setEng (d : Device) (e : Nat) (y : Engine) : OnlyEngine d (d.setEng e y) e y :=
  ⟨by simp, fun _ h => Device.eng_setEng_other _ _ _ _ h, rfl⟩

/-- An instruction whose effect lies in the engine's registers: only its engine changes. -/
theorem Device.issueReg_ok {d : Device} {e : Nat} {i : Instr} {len : Nat} {touch : List Nat} {g : Engine → Engine}
    (h : d.issuesNow e i len touch) : OnlyEngine d (d.issueReg e i len touch g) e ((g (d.eng e)).next len) := by
  unfold Device.issueReg
  rw [Device.issue_ok h rfl (by rw [Device.eng_setEng]; exact Engine.retire_seq _ _)]
  exact OnlyEngine.setEng_setEng _ _ _ _

/-- A control instruction whose move of the pc succeeds: only its engine changes. -/
theorem Device.issueCtl_ok {d : Device} {e : Nat} {i : Instr} {len : Nat} {touch : List Nat} {c : Engine → Ctl} {x' : Engine}
    (h : d.issuesNow e i len touch) (hr : (d.eng e).retire len (c (d.eng e)) = .ok x') :
    OnlyEngine d (d.issueCtl e i len touch c) e x' := by
  unfold Device.issueCtl
  rw [Device.issue_ok h rfl hr]
  exact OnlyEngine.setEng _ _ _

/-- A control instruction whose move of the pc fails: its engine faults. -/
theorem Device.issueCtl_fault {d : Device} {e : Nat} {i : Instr} {len : Nat} {touch : List Nat} {c : Engine → Ctl} {n : Nat}
    (h : d.issuesNow e i len touch) (hr : (d.eng e).retire len (c (d.eng e)) = .error n) :
    d.issueCtl e i len touch c = d.engFault e n := by
  unfold Device.issueCtl
  exact Device.issue_retire_fault h rfl hr

/-! Status bits. -/

/-- A bit below the depth fields reads as st holds it. -/
theorem Engine.stBit_low (x : Engine) (i : Nat) (h : i < 12) : x.stBit i = bitAt x.st i := by
  unfold Engine.stBit Engine.stWord bitAt
  have h2 : 2 ^ 12 = 2 ^ i * 2 ^ (12 - i) := by rw [← pow_add]; congr 1; omega
  have e1 : x.st % 0x1000 + x.reps.length % 8 * 2 ^ 16 + x.stack.length % 32 * 2 ^ 19
      = x.st % 2 ^ 12 + 2 ^ 12 * (x.reps.length % 8 * 2 ^ 4 + x.stack.length % 32 * 2 ^ 7) := by
    omega
  rw [e1]
  have key : ∀ k, (x.st % 2 ^ 12 + 2 ^ 12 * k) / 2 ^ i % 2 = x.st / 2 ^ i % 2 := by
    intro k
    rw [h2, Nat.mul_assoc, Nat.add_mul_div_left _ _ (by positivity), ← h2]
    have h3 : 2 ^ (12 - i) * k = 2 * (2 ^ (11 - i) * k) := by
      rw [← Nat.mul_assoc, ← pow_succ']; congr 2; omega
    rw [h3, Nat.add_mul_mod_self_left]
    have := Nat.mod_mul_right_div_self x.st (2 ^ i) (2 ^ (12 - i))
    rw [← h2] at this
    rw [this]
    have h4 : 2 ^ (12 - i) = 2 * 2 ^ (11 - i) := by rw [← pow_succ']; congr 1; omega
    rw [h4, Nat.mod_mul_right_mod]
  rw [key]

/-- One bit of a number after a bit of it is written. -/
theorem bitAt_setBits (n i j v : Nat) : bitAt (setBits n i 1 v) j = if j = i then decide (v % 2 = 1) else bitAt n j := by
  have hb : ∀ n k, bitAt n k = decide (bitsOf n k 1 = 1) := fun n k => rfl
  simp only [hb]
  by_cases h : j = i
  · subst h; simp only [bitsOf_setBits_same, pow_one, if_true]
  · rw [if_neg h]
    rcases Nat.lt_or_gt_of_ne h with h | h
    · simp only [bitsOf_setBits_below n i 1 v j 1 (by omega)]
    · simp only [bitsOf_setBits_above n i 1 v j 1 (by omega)]

/-- A status bit reads as just written. -/
theorem Engine.stBit_setSt (x : Engine) (i j : Nat) (b : Bool) (hj : j < 12) :
    (x.setSt i b).stBit j = if j = i then b else x.stBit j := by
  rw [Engine.stBit_low _ _ hj, Engine.stBit_low _ _ hj]
  show bitAt (setBits x.st i 1 (if b then 1 else 0)) j = _
  rw [bitAt_setBits]
  cases b <;> simp

/-! Integer results. -/

/-- A g register after a write, at any register (R280). -/
theorem Engine.gr_setG_eq (x : Engine) (i j : Nat) (v : Word) :
    (x.setG i v).gr j = if j = i ∧ j ≠ 0 then v else x.gr j := by
  by_cases hj : j = i
  · subst hj
    by_cases h0 : j = 0
    · subst h0; simp
    · rw [Engine.gr_setG _ _ _ h0]; simp [h0]
  · rw [Engine.gr_setG_other _ _ _ _ hj]; simp [hj]

/-- Status bits do not depend on the g registers. -/
@[simp] theorem Engine.stBit_setG (x : Engine) (i j : Nat) (v : Word) : (x.setG i v).stBit j = x.stBit j := by
  unfold Engine.setG; split <;> rfl

/-- Moving on in sequence leaves the status bits below the depths. -/
theorem Engine.stBit_next (x : Engine) (len j : Nat) (h : j < 12) : (x.next len).stBit j = x.stBit j := by
  rw [Engine.stBit_low _ _ h, Engine.stBit_low _ _ h]; rfl

/-- Writing a g register changes the g registers alone. -/
theorem Engine.setG_eq (x : Engine) (i : Nat) (v : Word) : x.setG i v = { x with g := (x.setG i v).g } := by
  unfold Engine.setG; split <;> rfl

/-- The bits of st after Z and N are written. -/
theorem Engine.stBit_flagsZN (x : Engine) (r : Word) (j : Nat) (h : j < 12) :
    (x.flagsZN r).stBit j = if j = 1 then r.msb else if j = 0 then decide (r = 0) else x.stBit j := by
  unfold Engine.flagsZN
  rw [Engine.stBit_setSt _ _ _ _ h, Engine.stBit_setSt _ _ _ _ h]; rfl

/-- The bits of st after C and V are written. -/
theorem Engine.stBit_flagsCV (x : Engine) (c v : Bool) (j : Nat) (h : j < 12) :
    (x.flagsCV c v).stBit j = if j = 3 then v else if j = 2 then c else x.stBit j := by
  unfold Engine.flagsCV
  rw [Engine.stBit_setSt _ _ _ _ h, Engine.stBit_setSt _ _ _ _ h]; rfl

/-- Two changes of st in a row change st alone. -/
theorem Engine.onlySt_trans {x y z : Engine} (h1 : y = { x with st := y.st }) (h2 : z = { y with st := z.st }) :
    z = { x with st := z.st } := h2.trans (by rw [h1])

theorem Engine.flagsZN_eq (x : Engine) (r : Word) : x.flagsZN r = { x with st := (x.flagsZN r).st } :=
  Engine.onlySt_trans (y := x.setSt stZ (decide (r = 0))) rfl rfl

theorem Engine.flagsCV_eq (x : Engine) (c v : Bool) : x.flagsCV c v = { x with st := (x.flagsCV c v).st } :=
  Engine.onlySt_trans (y := x.setSt stC c) rfl rfl

/-- The parts of an engine that an integer result with Z and N changes. -/
theorem Engine.alu_eq (x : Engine) (gd : Nat) (r : Word) :
    x.alu gd r = { x with g := (x.setG gd r).g, st := (x.flagsZN r).st } := by
  unfold Engine.alu
  rw [Engine.flagsZN_eq]
  unfold Engine.setG
  split <;> rfl

/-- The parts of an engine that an integer result with all four flags changes. -/
theorem Engine.aluCV_eq (x : Engine) (gd : Nat) (r : Word) (c v : Bool) :
    x.aluCV gd r c v = { x with g := (x.setG gd r).g, st := ((x.flagsZN r).flagsCV c v).st } := by
  unfold Engine.aluCV
  rw [Engine.onlySt_trans (Engine.flagsZN_eq x r) (Engine.flagsCV_eq _ c v)]
  unfold Engine.setG
  split <;> rfl

/-- Moving on after a change of the g registers and st. -/
theorem Engine.next_gst (x : Engine) (g : Sparse Word) (st len : Nat) :
    Engine.next { x with g := g, st := st } len =
      { x with g := g, st := st, pc := (x.advance len).1, reps := (x.advance len).2 } := rfl

/-- An integer instruction that issues and writes one result with Z and N. -/
theorem IntegerResult.of_alu {d : Device} {e : Nat} {i : Instr} {len : Nat} {touch : List Nat} {gd : Nat} {r : Word}
    {g : Engine → Engine} (h : d.issuesNow e i len touch) (hg : g (d.eng e) = (d.eng e).alu gd r) :
    IntegerResult d (d.issueReg e i len touch g) e len gd r none := by
  have hy := Device.issueReg_ok (g := g) h
  rw [hg, Engine.alu_eq] at hy
  have hb : ∀ j, j < 12 → (Engine.next { d.eng e with g := ((d.eng e).setG gd r).g, st := ((d.eng e).flagsZN r).st } len).stBit j =
      if j = 1 then r.msb else if j = 0 then decide (r = 0) else (d.eng e).stBit j := by
    intro j hj
    rw [Engine.stBit_next _ _ _ hj, ← Engine.stBit_flagsZN (d.eng e) r j hj, Engine.stBit_low _ _ hj, Engine.stBit_low _ _ hj]
  refine ⟨_, hy, Engine.next_gst _ _ _ _, fun j => ?_, ?_, ?_, ⟨?_, ?_⟩, fun b h1 h2 => ?_⟩
  · exact Engine.gr_setG_eq (d.eng e) gd j r
  · rw [show stZ = 0 from rfl, hb 0 (by decide)]; simp
  · rw [show stN = 1 from rfl, hb 1 (by decide)]; simp
  · rw [show stC = 2 from rfl, hb 2 (by decide)]; simp
  · rw [show stV = 3 from rfl, hb 3 (by decide)]; simp
  · rw [hb b h2, if_neg (by omega), if_neg (by omega)]

/-- An integer instruction that issues and writes one result with Z, N, C and V. -/
theorem IntegerResult.of_aluCV {d : Device} {e : Nat} {i : Instr} {len : Nat} {touch : List Nat} {gd : Nat} {r : Word}
    {c v : Bool} {g : Engine → Engine} (h : d.issuesNow e i len touch)
    (hg : g (d.eng e) = (d.eng e).aluCV gd r c v) :
    IntegerResult d (d.issueReg e i len touch g) e len gd r (some (c, v)) := by
  have hy := Device.issueReg_ok (g := g) h
  rw [hg, Engine.aluCV_eq] at hy
  have hb : ∀ j, j < 12 →
      (Engine.next { d.eng e with g := ((d.eng e).setG gd r).g, st := (((d.eng e).flagsZN r).flagsCV c v).st } len).stBit j =
      if j = 3 then v else if j = 2 then c else if j = 1 then r.msb else if j = 0 then decide (r = 0)
        else (d.eng e).stBit j := by
    intro j hj
    rw [Engine.stBit_next _ _ _ hj, ← Engine.stBit_flagsZN (d.eng e) r j hj, ← Engine.stBit_flagsCV _ c v j hj,
      Engine.stBit_low _ _ hj, Engine.stBit_low _ _ hj]
  refine ⟨_, hy, Engine.next_gst _ _ _ _, fun j => ?_, ?_, ?_, ⟨?_, ?_⟩, fun b h1 h2 => ?_⟩
  · exact Engine.gr_setG_eq (d.eng e) gd j r
  · rw [show stZ = 0 from rfl, hb 0 (by decide)]; simp
  · rw [show stN = 1 from rfl, hb 1 (by decide)]; simp
  · rw [show stC = 2 from rfl, hb 2 (by decide)]; simp
  · rw [show stV = 3 from rfl, hb 3 (by decide)]; simp
  · rw [hb b h2, if_neg (by omega), if_neg (by omega), if_neg (by omega), if_neg (by omega)]

/-- A command that completes with a device that satisfies a claim. -/
theorem Reaches.of_eq {i : Instr} {s : State} {P : Device → Prop} {d' : Device} (h : exec i s = .next { s with dev := d' })
    (hp : P d') : Reaches i s P := ⟨_, h, rfl, hp⟩

end Sys2Proof.Machine
end

