-- ==== Sys2Proof/Laws/Complex.lean ====
section
/-! SUPPORT. The spec lemma of the complex instructions: what an operation with its moves leaves, said once for all of them. -/

namespace Sys2Proof.Machine

/-- The engine after one move's register writes. -/
def Engine.moved (d0 : Device) (e : Nat) (x : Engine) (p : Option (Move × DLoc)) : Engine :=
  match p with
  | none => x
  | some (m, w) =>
    let x := if modeUpdates m.mode then x.setP m.pn ((d0.eng e).stepP m.pn m.mode (cSize m.wide)) else x
    if m.store then x else x.setC m.cn (cLoad m.wide (d0.dread e w (cSize m.wide)))

theorem Device.moveReg_eng (d0 d : Device) (e : Nat) (p : Option (Move × DLoc)) :
    (Device.moveReg d0 d e p).eng e = (d.eng e).moved d0 e p := by
  cases p with
  | none => rfl
  | some mw => exact Device.eng_setEng _ _ _

theorem Device.moveReg_other (d0 d : Device) (e j : Nat) (p : Option (Move × DLoc)) (h : j ≠ e) :
    (Device.moveReg d0 d e p).eng j = d.eng j := by
  cases p with
  | none => rfl
  | some mw => exact Device.eng_setEng_other _ _ _ _ h

theorem Device.moveReg_rest (d0 d : Device) (e : Nat) (p : Option (Move × DLoc)) :
    Device.moveReg d0 d e p = { d with engines := (Device.moveReg d0 d e p).engines } := by
  cases p <;> rfl

theorem Engine.cr_setP (x : Engine) (i j : Nat) (v : Word) : (x.setP i v).cr j = x.cr j := rfl
theorem Engine.pr_setC (x : Engine) (i j : Nat) (v : Word × Word) : (x.setC i v).pr j = x.pr j := rfl
theorem Engine.cr_setC_eq (x : Engine) (i j : Nat) (v : Word × Word) :
    (x.setC i v).cr j = if j = i then v else x.cr j := Sparse.get_set _ _ _ _ _
theorem Engine.pr_setP_eq (x : Engine) (i j : Nat) (v : Word) :
    (x.setP i v).pr j = if j = i then v else x.pr j := Sparse.get_set _ _ _ _ _
theorem Engine.ar_setA_eq (x : Engine) (i j : Nat) (v : Int × Int) :
    (x.setA i v).ar j = if j = i then v else x.ar j := Sparse.get_set _ _ _ _ _

/-- One move leaves each c register as loaded or as it was. -/
theorem Engine.moved_cr (d0 : Device) (e : Nat) (x : Engine) (p : Option (Move × DLoc)) (j : Nat) :
    (x.moved d0 e p).cr j = (d0.moveLoad e j p).getD (x.cr j) := by
  cases p with
  | none => rfl
  | some mw =>
    obtain ⟨m, w⟩ := mw
    have hx : ∀ y : Engine, (if modeUpdates m.mode then y.setP m.pn ((d0.eng e).stepP m.pn m.mode (cSize m.wide)) else y).cr j
        = y.cr j := by intro y; split <;> rfl
    simp only [Engine.moved, Device.moveLoad]
    by_cases hs : m.store = true
    · rw [if_pos hs, hx]; simp [hs]
    · rw [if_neg hs, Engine.cr_setC_eq, hx]
      by_cases hj : m.cn = j
      · subst hj; simp [hs]
      · rw [if_neg (fun h => hj h.symm), if_neg (fun h => hj h.2)]; rfl

/-- One move leaves each pointer as updated or as it was. -/
theorem Engine.moved_pr (d0 : Device) (e : Nat) (x : Engine) (p : Option (Move × DLoc)) (n : Nat) :
    (x.moved d0 e p).pr n = (d0.moveStep e n p).getD (x.pr n) := by
  cases p with
  | none => rfl
  | some mw =>
    obtain ⟨m, w⟩ := mw
    simp only [Engine.moved, Device.moveStep]
    have hx : ∀ y : Engine, (if m.store then y else y.setC m.cn (cLoad m.wide (d0.dread e w (cSize m.wide)))).pr n = y.pr n := by
      intro y; split <;> rfl
    rw [hx]
    by_cases hu : modeUpdates m.mode = true
    · rw [if_pos hu, Engine.pr_setP_eq]
      by_cases hn : m.pn = n
      · subst hn; simp [hu]
      · rw [if_neg (fun h => hn h.symm), if_neg (fun h => hn h.2)]; rfl
    · rw [if_neg hu, if_neg (fun h => hu h.1)]; rfl

/-- One move changes pointers and c registers alone. -/
theorem Engine.moved_rest (d0 : Device) (e : Nat) (x : Engine) (p : Option (Move × DLoc)) :
    x.moved d0 e p = { x with c := (x.moved d0 e p).c, p := (x.moved d0 e p).p } := by
  cases p with
  | none => rfl
  | some mw =>
    obtain ⟨m, w⟩ := mw
    simp only [Engine.moved]
    split <;> split <;> rfl

theorem Engine.moved_g (d0 : Device) (e : Nat) (x : Engine) (p : Option (Move × DLoc)) : (x.moved d0 e p).g = x.g := by
  rw [Engine.moved_rest]
theorem Engine.moved_a (d0 : Device) (e : Nat) (x : Engine) (p : Option (Move × DLoc)) : (x.moved d0 e p).a = x.a := by
  rw [Engine.moved_rest]
theorem Engine.moved_st (d0 : Device) (e : Nat) (x : Engine) (p : Option (Move × DLoc)) : (x.moved d0 e p).st = x.st := by
  rw [Engine.moved_rest]

/-! Stores of moves. -/

/-- A move's place is never a command port (R296). -/
theorem Engine.movePlace_home {x : Engine} {onX : Bool} {m : Option Move} {mw : Move × DLoc} (e : Nat)
    (h : x.movePlace onX m = .ok (some mw)) : (mw.2.home e).isSome = true := by
  cases m with
  | none => cases h
  | some m =>
    simp only [Engine.movePlace] at h
    split at h
    · rename_i w hw
      cases h
      unfold moveLoc at hw
      split at hw
      · split at hw <;> cases hw; rfl
      · split at hw <;> cases hw; rfl
      · cases hw; rfl
      · cases hw
      · cases hw
    · cases h

/-- An access to a bank changes nothing besides what R253 counts. -/
theorem Device.bankTouch_frame (d : Device) (e : Nat) (w : DLoc) :
    d.bankTouch e w = { d with bankUsed := (d.bankTouch e w).bankUsed } := by
  cases w <;> simp only [Device.bankTouch] <;> try rfl
  all_goals (unfold Device.bankUse; split <;> rfl)

theorem Device.bankTouch_dataMem (d : Device) (e k : Nat) (w : DLoc) : (d.bankTouch e w).dataMem k = d.dataMem k := by
  rw [Device.bankTouch_frame]; rfl

theorem Device.bankTouch_engines (d : Device) (e : Nat) (w : DLoc) : (d.bankTouch e w).engines = d.engines := by
  rw [Device.bankTouch_frame]

/-- A store in the data space: which bytes change, and that nothing else does. -/
theorem Device.dwrite_ok {d : Device} (e : Nat) {w : DLoc} (bs : List Byte) (h : (w.home e).isSome = true) :
    ∃ d', d.dwrite e w bs = .ok d' ∧ StoresOnly d d' e [(w, bs)] ∧ d'.engines = d.engines ∧
      d' = { d with xmem := d'.xmem, ymem := d'.ymem, lmem := d'.lmem, bankUsed := d'.bankUsed } := by
  have key : ∀ (m : List Host.Cell) (b a : Nat),
      memGet (memWrite m b bs) a = if b ≤ a ∧ a < b + bs.length then bs.getD (a - b) 0 else memGet m a := by
    intro m b a
    by_cases hr : b ≤ a ∧ a < b + bs.length
    · have hi : a - b < bs.length := by omega
      have := memGet_memWrite bs m b (a - b) hi
      rw [show b + (a - b) = a by omega] at this
      rw [this, if_pos hr, List.getD_eq_getElem?_getD, List.getElem?_eq_getElem hi]; rfl
    · rw [if_neg hr, memGet_memWrite_other _ _ _ _ (by omega)]
  cases w with
  | port k o => cases h
  | x o =>
    simp only [Device.dwrite, StoresOnly, DLoc.home, List.foldl]
    generalize clusterAt e o = b
    refine ⟨_, rfl, fun k a hk => ?_, Device.bankTouch_engines _ _ _, ?_⟩
    · rw [Device.bankTouch_dataMem]
      have hk' : k = 0 ∨ k = 1 ∨ k = 2 := by omega
      rcases hk' with rfl | rfl | rfl <;> simp [Device.dataMem, key]
    · rw [Device.bankTouch_frame]
  | y o =>
    simp only [Device.dwrite, StoresOnly, DLoc.home, List.foldl]
    generalize clusterAt e o = b
    refine ⟨_, rfl, fun k a hk => ?_, Device.bankTouch_engines _ _ _, ?_⟩
    · rw [Device.bankTouch_dataMem]
      have hk' : k = 0 ∨ k = 1 ∨ k = 2 := by omega
      rcases hk' with rfl | rfl | rfl <;> simp [Device.dataMem, key]
    · rw [Device.bankTouch_frame]
  | l o =>
    simp only [Device.dwrite, StoresOnly, DLoc.home, List.foldl]
    generalize localAt e o = b
    refine ⟨_, rfl, fun k a hk => ?_, rfl, rfl⟩
    have hk' : k = 0 ∨ k = 1 ∨ k = 2 := by omega
    rcases hk' with rfl | rfl | rfl <;> simp [Device.dataMem, key]

/-- Stores in a row. -/
theorem StoresOnly.append {d d1 d2 : Device} {e : Nat} {as bs : List (DLoc × List Byte)} (ha : StoresOnly d d1 e as)
    (hb : StoresOnly d1 d2 e bs) : StoresOnly d d2 e (as ++ bs) := by
  intro k a hk
  rw [List.foldl_append, hb k a hk, ha k a hk]

/-- No store. -/
theorem StoresOnly.refl (d : Device) (e : Nat) : StoresOnly d d e [] := fun _ _ _ => rfl

/-- The store of one move succeeds and changes its bytes alone. -/
theorem Device.moveMem_ok {d0 d : Device} {e : Nat} {x : Engine} {onX : Bool} {m : Option Move} {p : Option (Move × DLoc)}
    (h : x.movePlace onX m = .ok p) :
    ∃ d', Device.moveMem d0 d e p = .ok d' ∧ StoresOnly d d' e (d0.moveStore e p) ∧ d'.engines = d.engines ∧
      d' = { d with xmem := d'.xmem, ymem := d'.ymem, lmem := d'.lmem, bankUsed := d'.bankUsed } := by
  cases p with
  | none => exact ⟨d, rfl, StoresOnly.refl _ _, rfl, rfl⟩
  | some mw =>
    obtain ⟨m', w⟩ := mw
    simp only [Device.moveMem, Device.moveStore]
    by_cases hs : m'.store = true
    · rw [if_pos hs, if_pos hs]; exact Device.dwrite_ok e _ (Engine.movePlace_home e h)
    · rw [if_neg hs, if_neg hs]
      exact ⟨_, rfl, fun k a _ => by rw [Device.bankTouch_dataMem]; rfl, Device.bankTouch_engines _ _ _, by rw [Device.bankTouch_frame]⟩

/-- Everything besides the engines and the data memories is as it was. -/
def RestKept (d d' : Device) : Prop :=
  d' = { d with engines := d'.engines, xmem := d'.xmem, ymem := d'.ymem, lmem := d'.lmem, bankUsed := d'.bankUsed }

theorem RestKept.trans {d d1 d2 : Device} (h1 : RestKept d d1) (h2 : RestKept d1 d2) : RestKept d d2 :=
  Eq.trans h2 (by rw [h1])

theorem RestKept.setEng (d : Device) (e : Nat) (x : Engine) : RestKept d (d.setEng e x) := rfl

theorem RestKept.moveReg (d0 d : Device) (e : Nat) (p : Option (Move × DLoc)) : RestKept d (Device.moveReg d0 d e p) := by
  cases p <;> rfl

theorem RestKept.data {d d' : Device} (h : d' = { d with xmem := d'.xmem, ymem := d'.ymem, lmem := d'.lmem, bankUsed := d'.bankUsed }) :
    RestKept d d' := h.trans (by rw [h])

/-- A write of the engines leaves the data memories. -/
theorem Device.moveReg_data (d0 d : Device) (e k : Nat) (p : Option (Move × DLoc)) :
    (Device.moveReg d0 d e p).dataMem k = d.dataMem k := by
  cases p <;> rfl

/-- The registers of an engine that a complex instruction may change. -/
def Engine.OnlyRegs (x y : Engine) : Prop := y = { x with g := y.g, c := y.c, a := y.a, p := y.p, st := y.st }

theorem Engine.OnlyRegs.trans {x y z : Engine} (h1 : x.OnlyRegs y) (h2 : y.OnlyRegs z) : x.OnlyRegs z :=
  Eq.trans h2 (by rw [h1])

theorem Engine.OnlyRegs.moved (d0 : Device) (e : Nat) (x : Engine) (p : Option (Move × DLoc)) :
    x.OnlyRegs (x.moved d0 e p) := by
  cases p with
  | none => rfl
  | some mw =>
    obtain ⟨m, w⟩ := mw
    simp only [Engine.moved, Engine.OnlyRegs]
    split <;> split <;> rfl

theorem Engine.OnlyRegs.next {x y : Engine} (h : x.OnlyRegs y) (len : Nat) :
    y.next len = { x with g := (y.next len).g, c := (y.next len).c, a := (y.next len).a, p := (y.next len).p,
                          st := (y.next len).st, pc := (x.advance len).1, reps := (x.advance len).2 } := by
  rw [h]; rfl

/-- The spec lemma of the complex instructions: an operation that changes the g registers, c registers, accumulators and st of
its engine, with its moves. -/
theorem ComplexResult.of_op {d : Device} {e : Nat} {i : Instr} {mv : Moves} {touch : List Nat} {f : Engine → Engine}
    {acc : Nat → Int × Int} {c : Nat → Word × Word} {g : Nat → Word} {satA satC : Bool}
    (h : d.complexNow e i mv touch) (hf : (d.eng e).OnlyRegs (f (d.eng e))) (hp : (f (d.eng e)).p = (d.eng e).p)
    (ha : ∀ j, (f (d.eng e)).ar j = acc j) (hc : ∀ j, (f (d.eng e)).cr j = c j) (hg : ∀ j, (f (d.eng e)).gr j = g j)
    (h1 : bitAt (f (d.eng e)).st stAS = ((d.eng e).stBit stAS || satA))
    (h2 : bitAt (f (d.eng e)).st stRS = ((d.eng e).stBit stRS || satC))
    (h3 : ∀ b, b < 10 → bitAt (f (d.eng e)).st b = (d.eng e).stBit b) :
    ComplexResult d (d.complex e i mv touch f) e mv acc c g satA satC := by
  obtain ⟨hi, ⟨a, pa⟩, ⟨b, pb⟩⟩ := h
  obtain ⟨d2, m2, s2, g2, r2⟩ := Device.moveMem_ok (d0 := d)
    (d := Device.moveReg d (Device.moveReg d (d.setEng e (f (d.eng e))) e a) e b) (e := e) pa
  obtain ⟨d3, m3, s3, g3, r3⟩ := Device.moveMem_ok (d0 := d) (d := d2) (e := e) pb
  have hw : d.withMoves e mv f = .ok (d3, .seq) := by
    unfold Device.withMoves
    simp only [pa, pb]
    rw [m2]; simp only []
    rw [m3]
  have e3 : ∀ j, d3.eng j = (Device.moveReg d (Device.moveReg d (d.setEng e (f (d.eng e))) e a) e b).eng j := by
    intro j; exact congrArg (fun m => Sparse.get (fun _ => ({} : Engine)) m j) (g3.trans g2)
  have hr3 : RestKept d d3 :=
    (((RestKept.setEng d e _).trans (RestKept.moveReg d _ e a)).trans (RestKept.moveReg d _ e b)).trans
      ((RestKept.data r2).trans (RestKept.data r3))
  have hs : StoresOnly d d3 e (d.moveStore e a ++ d.moveStore e b) := by
    refine StoresOnly.append (d1 := d2) (fun k j hk => ?_) s3
    rw [s2 k j hk, Device.moveReg_data, Device.moveReg_data]; rfl
  have e1 : d3.eng e = ((f (d.eng e)).moved d e a).moved d e b := by
    rw [e3, Device.moveReg_eng, Device.moveReg_eng, Device.eng_setEng]
  have e2 : ∀ j, j ≠ e → d3.eng j = d.eng j := by
    intro j hj
    rw [e3, Device.moveReg_other _ _ _ _ _ hj, Device.moveReg_other _ _ _ _ _ hj, Device.eng_setEng_other _ _ _ _ hj]
  have hregs : (d.eng e).OnlyRegs (((f (d.eng e)).moved d e a).moved d e b) :=
    (hf.trans (Engine.OnlyRegs.moved d e _ a)).trans (Engine.OnlyRegs.moved d e _ b)
  have hst : (((f (d.eng e)).moved d e a).moved d e b).st = (f (d.eng e)).st := by
    rw [Engine.moved_st, Engine.moved_st]
  have hga : (((f (d.eng e)).moved d e a).moved d e b).g = (f (d.eng e)).g := by
    rw [Engine.moved_g, Engine.moved_g]
  have haa : (((f (d.eng e)).moved d e a).moved d e b).a = (f (d.eng e)).a := by
    rw [Engine.moved_a, Engine.moved_a]
  have hcr : ∀ j, (((f (d.eng e)).moved d e a).moved d e b).cr j = ((d.moveLoad e j b).or (d.moveLoad e j a)).getD (c j) := by
    intro j
    rw [Engine.moved_cr, Engine.moved_cr, hc]
    cases d.moveLoad e j b <;> rfl
  have hpr : ∀ n, (((f (d.eng e)).moved d e a).moved d e b).pr n =
      ((d.moveStep e n b).or (d.moveStep e n a)).getD ((d.eng e).pr n) := by
    intro n
    have : (f (d.eng e)).pr n = (d.eng e).pr n := by unfold Engine.pr; rw [hp]
    rw [Engine.moved_pr, Engine.moved_pr, this]
    cases d.moveStep e n b <;> rfl
  have hd : d.complex e i mv touch f = d3.setEng e ((((f (d.eng e)).moved d e a).moved d e b).next (Moves.len mv)) := by
    unfold Device.complex
    exact Device.issue_ok hi hw (by rw [e1]; exact Engine.retire_seq _ _)
  rw [hd]
  generalize ((f (d.eng e)).moved d e a).moved d e b = y at hregs hst hga haa hcr hpr
  refine ⟨a, b, y.next (Moves.len mv), pa, pb, ⟨?_, ?_, ?_, ?_⟩, hregs.next _, ?_, ?_, ?_, ?_, ?_, ?_, ?_⟩
  · rw [Device.eng_setEng]
  · intro j hj
    rw [Device.eng_setEng_other _ _ _ _ hj, e2 j hj]
  · exact hs
  · exact hr3.trans (RestKept.setEng d3 e _)
  · intro j; rw [← ha]; unfold Engine.ar; rw [← haa]; rfl
  · intro j; rw [← hg]; unfold Engine.gr; rw [← hga]; rfl
  · exact hcr
  · exact hpr
  · rw [Engine.stBit_low _ _ (by decide), ← h1, ← hst]; rfl
  · rw [Engine.stBit_low _ _ (by decide), ← h2, ← hst]; rfl
  · intro j hj; rw [Engine.stBit_low _ _ (by omega), ← h3 j hj, ← hst]; rfl

end Sys2Proof.Machine
end

