-- ==== Sys2Proof/Laws/Regs.lean ====
section
/-! SUPPORT. What holds of every row of the register map. -/

namespace Sys2Proof.Machine

/-- No bit of a register is both RW and W1C (R3). -/
theorem windowRows_masks (w : Nat) : ∀ r ∈ windowRows w, Nat.land r.rw r.w1c = 0 := by
  match w with
  | 0 => decide
  | 1 => decide
  | 2 => decide
  | 3 => decide
  | 4 => decide
  | 5 => decide
  | 6 => decide
  | 7 => decide
  | 8 => decide
  | 9 => decide
  | 10 => decide
  | 11 => decide
  | 12 => decide
  | 13 => decide
  | 14 => decide
  | 15 => decide
  | w + 16 =>
    have h : windowRows (w + 16) = if w < 16 then rows16 else [] := rfl
    rw [h]
    split
    · decide
    · simp

theorem regRow_masks (a : Nat) (r : RegRow) (h : regRow a = some r) : Nat.land r.rw r.w1c = 0 :=
  windowRows_masks _ r (List.mem_of_find?_eq_some h)

end Sys2Proof.Machine
end

