-- ==== Sys2Proof/Tests/Slice0.lean ====
section
/-! SUPPORT. Tests: ill-formed terms, words of the encoding, and for the statements small states that meet their
hypotheses, with one field of the result where the manual fixes it. -/

namespace Sys2Proof.Tests

set_option Elab.async false

open Sys2Proof Sys2Proof.Machine

/-- A device with some registers set. -/
def devWith (l : List (Nat × Nat)) : Device := l.foldl (fun d p => d.wr p.1 p.2) {}

/-- Engine `e` of an otherwise empty device. -/
def devEng (e : Nat) (x : Engine) : Device := ({} : Device).setEng e x

/-- A property of the device after a command that completes. -/
def after (i : Instr) (d : Device) (p : Device → Bool) : Bool :=
  match exec i { State.reset with dev := d } with
  | .next t => p t.dev
  | _ => false

/-! Ill-formed instructions are refused (R281, R288, R292 to R324). -/

theorem test_wf_g_number : (Instr.add 0 32 1 2).disoexOk = false := by decide
theorem test_wf_immediate : (Instr.addi 0 1 2 (.short 65536)).disoexOk = false ∧
    (Instr.addi 0 1 2 (.long (2 ^ 32))).disoexOk = false := by decide
theorem test_wf_shift : (Instr.shli 0 1 2 32).disoexOk = false := by decide
theorem test_wf_scale : (Instr.ftoi 0 1 2 64).disoexOk = false := by decide
theorem test_wf_movr_target : (Instr.movr 0 0x3A 1).disoexOk = false ∧ (Instr.movr 0 0x3C 1).disoexOk = false := by decide
theorem test_wf_movr_source : (Instr.movr 0 1 0x3D).disoexOk = false := by decide
theorem test_wf_size : (Instr.ld 0 1 2 3 3 true).disoexOk = false ∧ (Instr.st 0 1 8 0 0).disoexOk = false := by decide
theorem test_wf_c_register : (Instr.ldc 0 16 0 0 true).disoexOk = false := by decide
theorem test_wf_accumulator : (Instr.cmac 0 8 0 0 none).disoexOk = false := by decide
theorem test_wf_move_field : (Instr.cnop 0 (some (some ⟨false, true, 16, 0, 0⟩, none))).disoexOk = false := by decide
theorem test_wf_same_load : (Instr.cnop 0 (some (some ⟨false, true, 1, 0, 0⟩, some ⟨false, true, 1, 1, 0⟩))).disoexOk = false := by
  decide
theorem test_wf_same_pointer : (Instr.cnop 0 (some (some ⟨false, true, 1, 0, 1⟩, some ⟨false, true, 2, 0, 1⟩))).disoexOk = false := by
  decide
theorem test_wf_load_result : (Instr.cmov 0 1 2 (some (some ⟨false, true, 1, 0, 0⟩, none))).disoexOk = false := by decide
theorem test_wf_condition : (Instr.br 0 13 0).disoexOk = false ∧ (Instr.brk 0 13).disoexOk = false := by decide
theorem test_wf_body : (Instr.rep 0 (.imm 1) 0).disoexOk = false ∧ (Instr.rep 0 (.imm 4096) 1).disoexOk = false := by decide
theorem test_wf_pair : (Instr.ucmd 0 1 3).disoexOk = false ∧ (Instr.time 0 1).disoexOk = false := by decide
theorem test_wf_far : (Instr.fld 0 16 2 3 false 0).disoexOk = false ∧ (Instr.fld 0 1 2 3 true 0).disoexOk = false := by decide
theorem test_wf_selector : (Instr.evget 0 16).disoexOk = false := by decide

/-! Words written out bit by bit from the encoding (R297 to R324). -/

theorem test_word_add : decodeWords 0 0b00000100001000100001100000000000 none = some (.add 0 1 2 3) := by decide
theorem test_word_popc : decodeWords 0 0b00000100001000100000000000010000 none = some (.popc 0 1 2) := by decide
theorem test_word_addi : decodeWords 0 0b00001000001000101111111111111111 none = some (.addi 0 1 2 (.short 0xFFFF)) := by decide
theorem test_word_addi_long : decodeWords 0 0b10001000001000100000000000000000 (some 0b10000000000000000000000000000001) = some (.addi 0 1 2 (.long 0x80000001)) := by decide
theorem test_word_sari : decodeWords 0 0b00011000001000101000000000011111 none = some (.sari 0 1 2 31) := by decide
theorem test_word_cmpi : decodeWords 0 0b00011100000000100000000000000001 none = some (.cmpi 0 2 (.short 1)) := by decide
theorem test_word_itof : decodeWords 0 0b01011100001000101111111000000000 none = some (.itof 0 1 2 63) := by decide
theorem test_word_cmac : decodeWords 0 0b01000000011100010010000000000000 none = some (.cmac 0 7 1 2 none) := by decide
theorem test_word_br : decodeWords 0 0b00110011000000001111111111111110 none = some (.br 0 12 0xFFFE) := by decide
theorem test_word_bbs : decodeWords 0 0b00110110011100000000000000000010 none = some (.bbs 0 7 2) := by decide
theorem test_word_jmp : decodeWords 0 0b00111001000001010000000000000000 none = some (.jmp 0 5) := by decide
theorem test_word_brk : decodeWords 0 0b00111010000010000000000000000000 none = some (.brk 0 1) := by decide
theorem test_word_rep_reg : decodeWords 0 0b00111111111111111111000000000011 none = some (.rep 0 (.reg 3) 8191) := by decide
theorem test_word_ucmd : decodeWords 0 0b01001011111111000000000000000000 none = some (.ucmd 0 15 30) := by decide
theorem test_word_qpop : decodeWords 0 0b01001100100001000100110000000000 none = some (.qpop 0 1 2 3) := by decide
theorem test_word_evget : decodeWords 0 0b01010000111110000000000000000000 none = some (.evget 0 15) := by decide
theorem test_word_fld : decodeWords 0 0b01010100001000101010111111111111 none = some (.fld 0 1 2 2 true 0xFFF) := by decide
theorem test_word_fst_d : decodeWords 0 0b01011000011110001011000000001000 none = some (.fst 0 15 2 3 8) := by decide
theorem test_word_ffence : decodeWords 0 0b01011001000000000000000000000000 none = some (.ffence 0) := by decide
theorem test_word_time : decodeWords 0 0b00000000010000100000000000000000 none = some (.time 0 4) := by decide
theorem test_word_reserved : decodeWords 0 0b01100000000000000000000000000000 none = none := by decide
theorem test_word_unused_bit : decodeWords 0 0b00000100001000100001100001000000 none = none := by decide


/-! Engines: small states that meet the statements' hypotheses. -/

/-- A running engine. -/
def run1 (x : Engine) : Engine := { x with state := 1 }

theorem test_integer : (devEng 3 (run1 { g := [(1, 0xFFFFFFFF), (2, 1)] })).issuesNow 3 (.add 3 4 1 2) 1 [4, 1, 2] ∧
    after (.add 3 4 1 2) (devEng 3 (run1 { g := [(1, 0xFFFFFFFF), (2, 1)] })) (fun d =>
      decide ((d.eng 3).gr 4 = 0) && (d.eng 3).stBit stZ && (d.eng 3).stBit stC && !(d.eng 3).stBit stV && decide ((d.eng 3).pc = 1)) := by
  decide
theorem test_integer_g0 : (devEng 3 (run1 { g := [(1, 7)] })).issuesNow 3 (.sub 3 0 1 0) 1 [0, 1, 0] ∧
    after (.sub 3 0 1 0) (devEng 3 (run1 { g := [(1, 7)] })) (fun d => decide ((d.eng 3).gr 0 = 0) && (d.eng 3).stBit stC) := by decide
theorem test_shift_wide : after (.sar 0 4 1 2) (devEng 0 (run1 { g := [(1, 0x80000000), (2, 40)] }))
    (fun d => decide ((d.eng 0).gr 4 = 0xFFFFFFFF)) = true := by decide
theorem test_multiply_high : after (.mulh 0 4 1 2) (devEng 0 (run1 { g := [(1, 0xFFFFFFFF), (2, 2)] }))
    (fun d => decide ((d.eng 0).gr 4 = 0xFFFFFFFF)) ∧ after (.mulhu 0 4 1 2) (devEng 0 (run1 { g := [(1, 0xFFFFFFFF), (2, 2)] }))
    (fun d => decide ((d.eng 0).gr 4 = 1)) := by decide
theorem test_count_bits : (devEng 0 (run1 { g := [(1, 0)] })).issuesNow 0 (.clz 0 2 1) 1 [2, 1] ∧
    (devEng 0 (run1 { g := [(1, 9)] })).issuesNow 0 (.popc 0 2 1) 1 [2, 1] ∧
    after (.clz 0 2 1) (devEng 0 (run1 { g := [(1, 9)] })) (fun d => decide ((d.eng 0).gr 2 = 28)) ∧
    after (.popc 0 2 1) (devEng 0 (run1 { g := [(1, 9)] })) (fun d => decide ((d.eng 0).gr 2 = 2)) := by decide
theorem test_immediate : (devEng 1 (run1 {})).issuesNow 1 (.addi 1 1 0 (.short 0xFFFF)) 1 [1, 0] ∧
    (devEng 1 (run1 {})).issuesNow 1 (.ori 1 1 0 (.long 0xFFFF0000)) 2 [1, 0] ∧
    (devEng 1 (run1 {})).issuesNow 1 (.shli 1 1 0 31) 1 [1, 0] ∧ (devEng 1 (run1 {})).issuesNow 1 (.cmpi 1 0 (.short 0)) 1 [0] ∧
    after (.addi 1 1 0 (.short 0xFFFF)) (devEng 1 (run1 {})) (fun d => decide ((d.eng 1).gr 1 = 0xFFFFFFFF)) ∧
    after (.andi 1 1 1 (.long 0xFFFF0000)) (devEng 1 (run1 { g := [(1, 0x12345678)] }))
      (fun d => decide ((d.eng 1).gr 1 = 0x12340000) && decide ((d.eng 1).pc = 2)) := by decide
theorem test_conversion : (devEng 0 (run1 { g := [(1, 0x7F800000)] })).issuesNow 0 (.ftoi 0 2 1 0) 1 [2, 1] ∧
    after (.ftoi 0 2 1 0) (devEng 0 (run1 { g := [(1, 0xFF800000)] })) (fun d => decide ((d.eng 0).gr 2 = 0x80000000)) ∧
    after (.ftoi 0 2 1 0) (devEng 0 (run1 { g := [(1, 0x7FC00000)] })) (fun d => decide ((d.eng 0).gr 2 = 0) && (d.eng 0).stBit stV) ∧
    after (.ftoi 0 2 1 1) (devEng 0 (run1 { g := [(1, 0x3F800000)] })) (fun d => decide ((d.eng 0).gr 2 = 2)) ∧
    after (.itof 0 2 1 0) (devEng 0 (run1 { g := [(1, 1)] })) (fun d => decide ((d.eng 0).gr 2 = 0x3F800000)) := by decide
theorem test_movr : (devEng 0 (run1 { g := [(1, 0x8001)] })).issuesNow 0 (.movr 0 0x60 1) 1 [idTouch 0x60, idTouch 1] ∧
    after (.movr 0 0x68 1) (devEng 0 (run1 { g := [(1, 0x8001)] })) (fun d => decide ((d.eng 0).idRead 0 0x68 = 0xFFFF8001)) ∧
    after (.movr 0 0x39 1) (devEng 0 (run1 { g := [(1, 0xFFFFFFFF)] })) (fun d => decide ((d.eng 0).ev = 2 ^ 23 - 1)) := by decide

/-- Engine 0 with pointers into the three data memories and one port. -/
def ptrEng : Engine := run1 { p := [(0, 0), (1, 0x10000), (2, 0x80000000)], g := [(1, 0xABCD1234)], c := [(1, (0x10000, 0x20000))] }

theorem test_loads_stores : (devEng 0 ptrEng).issuesNow 0 (.ld 0 2 0 0 2 false) 1 [2] ∧
    (devEng 0 ptrEng).issuesNow 0 (.ldc 0 15 0 0 true) 1 [0x40 + 15] ∧
    (devEng 0 ptrEng).issuesNow 0 (.st 0 1 0 1 1) 1 [1] ∧ (devEng 0 ptrEng).issuesNow 0 (.stc 0 1 0 0 false) 1 [0x41] ∧
    (dataLoc (ptrEng.addr 0 0) 8).toOption = some (.x 0) ∧ (DLoc.x 0).home 0 = some (0, 0) ∧
    (dataLoc (ptrEng.addr 2 0) 4).toOption.isSome ∧ (DLoc.port 0 0).home 0 = none := by decide
theorem test_store_bytes : after (.st 0 1 0 1 1) (devEng 0 ptrEng)
    (fun d => decide (memLE d.xmem 0 4 = 0x1234) && decide ((d.eng 0).pr 0 = 2)) ∧
    after (.stc 0 1 0 0 false) (devEng 0 ptrEng) (fun d => decide (memLE d.xmem 0 4 = 0x20001)) ∧
    after (.st 0 1 2 0 2) (devEng 0 ptrEng) (fun d => decide ((d.eng 0).state = 3) && decide ((d.eng 0).cause = 3)) := by decide

/-- Engine 0 with two complex operands, one a half and j a half, and a saturating accumulator. -/
def cxEng : Engine := run1 { c := [(1, (0x40000000, 0)), (2, (0, 0x40000000))], a := [(1, (2 ^ 47 - 1, 0)), (2, (5, 0))], g := [(3, 9)] }

theorem test_complex_now : (devEng 0 cxEng).complexNow 0 (.cmac 0 1 1 1 none) none [0x41, 0x41] ∧
    (devEng 0 cxEng).complexNow 0 (.cmulr 0 3 1 2 (some (some ⟨true, true, 3, 0, 1⟩, none))) (some (some ⟨true, true, 3, 0, 1⟩, none))
      [0x43, 0x41, 0x42] ∧
    (devEng 0 cxEng).complexNow 0 (.cpeak 0 2 1 3 none) none [3, 0x41] :=
  ⟨⟨by decide, ⟨_, rfl⟩, ⟨_, rfl⟩⟩, ⟨by decide, ⟨_, rfl⟩, ⟨_, rfl⟩⟩, ⟨by decide, ⟨_, rfl⟩, ⟨_, rfl⟩⟩⟩
theorem test_complex_a : after (.cmac 0 1 1 1 none) (devEng 0 cxEng)
      (fun d => decide ((d.eng 0).ar 1 = (2 ^ 47 - 1, 0)) && (d.eng 0).stBit stAS) ∧
    after (.cmul 0 1 1 2 none) (devEng 0 cxEng) (fun d => decide ((d.eng 0).ar 1 = (0, 0x10000000))) ∧
    after (.cmulc 0 1 2 2 none) (devEng 0 cxEng) (fun d => decide ((d.eng 0).ar 1 = (0x10000000, 0))) ∧
    after (.aclr 0 1 none) (devEng 0 cxEng) (fun d => decide ((d.eng 0).ar 1 = (0, 0))) := by decide
theorem test_complex_b : after (.cmulr 0 3 1 1 none) (devEng 0 cxEng) (fun d => decide ((d.eng 0).cr 3 = (0x20000000, 0))) ∧
    after (.cadd 0 3 1 1 none) (devEng 0 cxEng) (fun d => decide ((d.eng 0).cr 3 = (0x7FFFFFFF, 0)) && (d.eng 0).stBit stRS) ∧
    after (.cscl 0 3 1 63 none) (devEng 0 cxEng) (fun d => decide ((d.eng 0).cr 3 = (0x20000000, 0))) ∧
    after (.amov 0 1 2 none) (devEng 0 cxEng) (fun d => decide ((d.eng 0).ar 1 = (5, 0))) ∧
    after (.apeak 0 2 1 3 none) (devEng 0 cxEng)
      (fun d => decide ((d.eng 0).ar 2 = (2 ^ 47 - 1, 9)) && decide ((d.eng 0).gr 3 = 10)) := by decide
theorem test_cpeak : after (.cpeak 0 2 2 3 none) (devEng 0 cxEng)
      (fun d => decide ((d.eng 0).ar 2 = (0x40000000, 10)) && decide ((d.eng 0).gr 3 = 11)) := by decide
theorem test_move_store : after (.cmulr 0 3 1 1 (some (some ⟨true, true, 1, 0, 1⟩, none))) (devEng 0 cxEng)
      (fun d => decide (memLE d.xmem 0 8 = 0x40000000) && decide ((d.eng 0).pr 0 = 8) && decide ((d.eng 0).pc = 2)) = true := by decide

theorem test_transfers : (devEng 0 (run1 { pc := 5 })).issuesNow 0 (.br 0 0 0xFFFB) 1 [] ∧
    (devEng 0 (run1 { pc := 5 })).issuesNow 0 (.bbs 0 31 0) 1 [] ∧
    (devEng 0 (run1 { g := [(1, 0x10000)] })).issuesNow 0 (.jmp 0 1) 1 [1] ∧
    after (.br 0 0 0xFFFB) (devEng 0 (run1 { pc := 5 })) (fun d => decide ((d.eng 0).pc = 0)) ∧
    after (.br 0 0 0xFFFA) (devEng 0 (run1 { pc := 5 })) (fun d => decide ((d.eng 0).cause = 2)) ∧
    after (.br 0 1 9) (devEng 0 (run1 { pc := 5 })) (fun d => decide ((d.eng 0).pc = 6)) ∧
    after (.jmp 0 1) (devEng 0 (run1 { g := [(1, 0x10000)] })) (fun d => decide ((d.eng 0).cause = 2)) ∧
    after (.jmp 0 0) (devEng 0 (run1 { pc := 4, reps := [⟨3, 4, 2, 0⟩] })) (fun d => decide ((d.eng 0).cause = 9)) := by decide
theorem test_calls : (devEng 0 (run1 { pc := 5, stack := List.replicate 15 0 })).issuesNow 0 (.call 0 0x100) 1 [] ∧
    (devEng 0 (run1 { g := [(1, 7)] })).issuesNow 0 (.callr 0 1) 1 [1] ∧
    after (.call 0 0x100) (devEng 0 (run1 { pc := 5, stack := List.replicate 15 0 }))
      (fun d => decide ((d.eng 0).pc = 0x105) && decide ((d.eng 0).stack.head? = some 6)) ∧
    after (.call 0 0x100) (devEng 0 (run1 { stack := List.replicate 16 0 })) (fun d => decide ((d.eng 0).cause = 8)) ∧
    after (.ret 0) (devEng 0 (run1 { stack := [9, 8] })) (fun d => decide ((d.eng 0).pc = 9) && decide ((d.eng 0).stack = [8])) ∧
    after (.ret 0) (devEng 0 (run1 {})) (fun d => decide ((d.eng 0).cause = 8)) ∧
    after (.ret 0) (devEng 0 (run1 { stack := [9], reps := [⟨0, 4, 2, 1⟩] })) (fun d => decide ((d.eng 0).cause = 9)) := by decide
theorem test_repeats : (devEng 0 (run1 {})).issuesNow 0 (.rep 0 (.imm 3) 2) 1 [] ∧ Engine.isEnd (run1 {}) 0 = false ∧
    Engine.overruns (run1 {}) 2 = false ∧
    after (.rep 0 (.imm 3) 2) (devEng 0 (run1 {})) (fun d => decide ((d.eng 0).reps = [⟨1, 2, 3, 0⟩]) && decide ((d.eng 0).pc = 1)) ∧
    after (.rep 0 (.reg 1) 2) (devEng 0 (run1 {})) (fun d => decide ((d.eng 0).pc = 3)) ∧
    after (.rep 0 (.long 3) 2) (devEng 0 (run1 { reps := List.replicate 4 ⟨0, 9, 1, 0⟩ })) (fun d => decide ((d.eng 0).cause = 9)) ∧
    after (.rep 0 (.imm 3) 8191) (devEng 0 (run1 { pc := 3, reps := [⟨1, 6, 2, 0⟩] })) (fun d => decide ((d.eng 0).cause = 9)) ∧
    after (.brk 0 0) (devEng 0 (run1 { pc := 2, reps := [⟨1, 4, 3, 0⟩] })) (fun d => decide ((d.eng 0).pc = 5) && (d.eng 0).reps.isEmpty) ∧
    after (.brk 0 1) (devEng 0 (run1 {})) (fun d => decide ((d.eng 0).pc = 1)) ∧
    after (.brk 0 0) (devEng 0 (run1 {})) (fun d => decide ((d.eng 0).cause = 9)) := by decide
theorem test_loop_back : after (.nop 0) (devEng 0 (run1 { pc := 2, reps := [⟨1, 2, 3, 0⟩] }))
      (fun d => decide ((d.eng 0).pc = 1) && decide ((d.eng 0).reps = [⟨1, 2, 2, 0⟩])) ∧
    after (.nop 0) (devEng 0 (run1 { pc := 2, reps := [⟨1, 2, 1, 0⟩] })) (fun d => decide ((d.eng 0).pc = 3) && (d.eng 0).reps.isEmpty) := by
  decide


/-- An engine 0 whose g2 and g3 hold a command word and whose g4 names queue 5, with a record of one slot in X memory. -/
def qEng : Engine := run1 { g := [(2, 0), (3, 0x00500000), (4, 0x40005000), (6, 1)], p := [(1, 64)] }

/-- Queue 5 of two slots, enabled, engine 0 its consumer; with `recs` in it. -/
def qDev (recs : List QRec) : Device :=
  let d := (devEng 0 qEng).setFld (F.QUE_Q_STAT_ENABLED 5) 1
  ({ d with xmem := [(68, 32)] }.wr (Reg.QUE_Q_SLOTS 5) 2).setQueue 5 { w := recs.length, r := recs.length, recs := recs }

theorem test_command_port : (devEng 0 qEng).issuesNow 0 (.ucmd 0 15 2) 1 [2, 3] ∧ (qEng.port 15).outstanding = false ∧
    wordCode (qEng.pair 2) = cOK ∧ wordCode (qEng.pair 0) ≠ cOK ∧
    after (.ucmd 0 15 2) (devEng 0 qEng) (fun d => ((d.eng 0).port 15).outstanding && !(d.eng 0).stBit stPR && decide (d.issued.length = 1)) ∧
    after (.ucmd 0 15 0) (devEng 0 qEng) (fun d => ((d.eng 0).port 15).done && decide (((d.eng 0).port 15).code = 0x13)) ∧
    after (.ucmd 0 15 2) (devEng 0 (qEng.setPort 15 { outstanding := true })) (fun d =>
      (d.eng 0).stBit stPR && decide (d.rdN (Reg.CL_PORT_REFUSED_CNT 0) = 1)) := by decide
theorem test_command_completion : after (.commandCompletion 0 3)
    { devEng 0 (qEng.setPort 3 { outstanding := true }) with completions := [⟨0, 3, 5, some 9⟩] } (fun d =>
      ((d.eng 0).port 3).done && decide (((d.eng 0).port 3).code = 5) && ((d.eng 0).port 3).stamped && d.completions.isEmpty) = true := by
  decide
theorem test_queue_now : (qDev []).issuesNow 0 (.qpush 0 4 6 1) 1 [4, 6] ∧ (qDev []).issuesNow 0 (.qpop 0 4 6 1) 1 [4, 6] ∧
    (qDev []).issuesNow 0 (.qmark 0 4) 1 [4] ∧ (qEng.pr 1).toNat % 64 = 0 ∧ 0 < roomFrom (qEng.pr 1).toNat ∧
    queueOf (qEng.gr 6).toNat = none ∧ roomFrom 0x300000 = 0 ∧ queueOf (qEng.gr 4).toNat = some 5 ∧ queueOf 0x41000000 = none ∧
    (qDev []).qConsumer 5 0 = true ∧ (qDev []).qConsumer 5 1 = false ∧ roomFrom 64 ≥ 64 ∧ (qDev []).qFree 5 = 2 := by decide
theorem test_qpush : after (.qpush 0 4 6 1) (qDev []) (fun d =>
      decide ((d.eng 0).gr 6 = 0) && !(d.eng 0).stBit stQF && decide ((d.queue 5).r = 1) && decide (((d.queue 5).recs.map (fun r => r.slots)) = [1])) ∧
    after (.qpush 0 4 6 1) ((qDev []).wr (Reg.QUE_Q_SLOTS 5) 0) (fun d => decide ((d.eng 0).gr 6 = 1) && (d.eng 0).stBit stQX) ∧
    after (.qpush 0 4 6 1) (qDev [⟨0, 1, 0, true⟩, ⟨1, 1, 1, true⟩]) (fun d =>
      decide ((d.eng 0).gr 6 = 0x0B) && (d.eng 0).stBit stQF && !(d.eng 0).stBit stQX) ∧
    after (.qpush 0 4 6 1) ((qDev []).setFld (F.QUE_Q_STAT_ENABLED 5) 0) (fun d => decide ((d.eng 0).gr 6 = 0x11)) := by decide
theorem test_qpop : after (.qpop 0 4 6 1) (qDev [⟨0, 1, 0, true⟩]) (fun d =>
      decide ((d.eng 0).gr 6 = 1) && !(d.eng 0).stBit stQE && decide ((d.queue 5).rd = 1)) ∧
    after (.qpop 0 4 6 1) (qDev []) (fun d => (d.eng 0).stBit stQE && decide (memLE d.xmem 64 1 = 0x0F)) ∧
    after (.qpop 0 4 6 1) (qDev [⟨0, 2, 0, true⟩]) (fun d => (d.eng 0).stBit stQL && decide ((d.queue 5).rd = 0)) ∧
    after (.qpop 0 4 6 1) ((qDev []).setFld (F.QUE_Q_CFG_ENGINE 5) 1) (fun d => (d.eng 0).stBit stQX) := by decide
theorem test_queue_positions : after (.qmark 0 4) ((qDev []).setQueue 5 { w := 2, rd := 2 }) (fun d => decide ((d.queue 5).m = 2)) ∧
    after (.qrew 0 4) ((qDev []).setQueue 5 { w := 2, rd := 2, m := 1 }) (fun d => decide ((d.queue 5).rd = 1)) ∧
    after (.qrel 0 4) ((qDev []).setQueue 5 { w := 2, rd := 2 }) (fun d => decide ((d.queue 5).f = 2)) := by decide
theorem test_events : (devEng 0 (run1 { ev := 2 ^ 21, evq := [3] })).issuesNow 0 (.evget 0 2) 1 [0x42] ∧
    (devEng 0 (run1 {})).issuesNow 0 (.wait 0) 1 [] ∧ (devEng 0 (run1 {})).issuesNow 0 (.evack 0) 1 [] ∧
    (devEng 0 (run1 { ev := 2 ^ 20, timerExp := true })).evSelected 0 = true ∧ (devEng 0 (run1 { ev := 2 ^ 20 })).evSelected 0 = false ∧
    after (.evget 0 2) (devEng 0 (run1 { evq := [0x500000003], evLost := true })) (fun d =>
      decide ((d.eng 0).cr 2 = (3, 5)) && (d.eng 0).evq.isEmpty && !(d.eng 0).evLost) ∧
    after (.evget 0 2) (devEng 0 (run1 {})) (fun d => (d.eng 0).stBit stEE) ∧
    after (.wait 0) (devEng 0 (run1 { ev := 2 ^ 20 })) (fun d => decide ((d.eng 0).state = 2)) ∧
    after (.wait 0) (devEng 0 (run1 {})) (fun d => decide ((d.eng 0).cause = 1)) ∧
    after (.waitResume 0) (devEng 0 { state := 2, ev := 2 ^ 20, timerExp := true }) (fun d =>
      decide ((d.eng 0).state = 1) && decide ((d.eng 0).pc = 1)) ∧
    after (.evack 0) (devEng 0 (run1 { timerExp := true })) (fun d => !(d.eng 0).timerExp) := by decide
theorem test_far_now : (devEng 0 (run1 { g := [(2, 8)] })).issuesNow 0 (.fld 0 1 2 2 false 0xFF8) 1 [1, 2, 3] ∧
    (devEng 0 (run1 { g := [(2, 8)] })).issuesNow 0 (.fst 0 1 2 3 8) 1 [0x41, 2, 3] ∧
    (devEng 0 (run1 {})).issuesNow 0 (.ffence 0) 1 [] ∧ (farLoc 0 8).toOption = some (.mem 0) ∧
    (farLoc 0xC00000000 4).toOption = none := by decide
theorem test_far_load : after (.fld 0 1 2 2 false 0xFF8) (devEng 0 (run1 { g := [(2, 8)] })) (fun d =>
      decide ((d.eng 0).fl = [⟨0, 4, false, 1, 0, 0⟩]) && decide (d.rdN (Reg.CL_FAR_REQ_CNT 0) = 1)) = true := by decide +kernel
theorem test_far_fault : after (.fld 0 1 2 2 false 0) (devEng 0 (run1 { g := [(3, 0xC)] }))
    (fun d => decide ((d.eng 0).state = 3)) = true := by decide
theorem test_fence : after (.ffence 0) (devEng 0 (run1 {})) (fun d => decide ((d.eng 0).pc = 1)) = true := by decide
theorem test_far_store : after (.fst 0 1 2 0 8) (devEng 0 (run1 { g := [(2, 8)] }))
    (fun d => decide ((d.eng 0).fs.length = 1)) = true := by decide
theorem test_far_arrival : Engine.farEarlier { fl := [⟨0, 1, false, 1, 0, 5⟩] } 0 1 0 = false ∧
    after (.farLoadArrival 0 0) { devEng 0 (run1 { fl := [⟨0, 1, false, 1, 0, 5⟩] }) with mem := [(0, 0x80)] } (fun d =>
      decide ((d.eng 0).gr 1 = 0xFFFFFF80) && (d.eng 0).fl.isEmpty) ∧
    after (.farLoadArrival 0 0) { devEng 0 (run1 { fl := [⟨0, 8, false, 0x41, 0, 5⟩] }) with mem := [(4, 1)] } (fun d =>
      decide ((d.eng 0).cr 1 = (0, 1))) ∧
    after (.farLoadArrival 0 0) { devEng 0 (run1 { fl := [⟨0, 4, false, 1, 0, 5⟩] }) with poison := [0] } (fun d =>
      decide ((d.eng 0).cause = 7) && decide ((d.eng 0).pc = 5) && decide ((d.eng 0).gr 1 = 0)) ∧
    after (.farStoreVisible 0 0) (devEng 0 (run1 { fs := [⟨6, [1, 2], 0⟩] })) (fun d =>
      decide (memLE d.mem 6 2 = 0x201) && (d.eng 0).fs.isEmpty) := by decide
theorem test_system : (devEng 0 (run1 {})).issuesNow 0 (.sleep 0) 1 [] ∧ (devEng 0 (run1 {})).issuesNow 0 (.time 0 0) 1 [0, 1] ∧
    (devEng 0 (run1 {})).issuesNow 0 (.sync 0) 1 [] ∧ (devEng 0 (run1 {})).issuesNow 0 (.halt 0) 1 [] ∧
    after (.sleep 0) (devEng 0 (run1 {})) (fun d => ((d.eng 0).port 15).outstanding) ∧
    after (.sleep 1) (devEng 1 (run1 {})) (fun d => decide ((d.eng 1).cause = 1)) ∧
    after (.sleep 0) (devEng 0 ((run1 {}).setPort 15 { outstanding := true })) (fun d => (d.eng 0).stBit stPR) ∧
    after (.time 0 2) { devEng 0 (run1 {}) with time := 0x500000003 } (fun d =>
      decide ((d.eng 0).gr 2 = 3) && decide ((d.eng 0).gr 3 = 5)) ∧
    after (.halt 0) (devEng 0 (run1 { evq := [1] })) (fun d => decide ((d.eng 0).state = 0) && (d.eng 0).evq.isEmpty) := by decide
theorem test_refused : (devEng 1 (run1 {})).issues 1 = true ∧ (devEng 1 (run1 { pc := 0x10000 })).fetchPast 1 = true ∧
    (devEng 1 (run1 {})).fetchPast 1 = false ∧ Device.fetched { devEng 1 (run1 {}) with prog := [(3, 0xFF)] } 1 = none ∧
    Device.fetched (devEng 1 (run1 {})) 1 = some (.nop 1) ∧
    after (.illegalEncoding 1) { devEng 1 (run1 {}) with prog := [(3, 0xFF)] } (fun d =>
      decide ((d.eng 1).cause = 1) && decide (d.rdN (Reg.CL_FAULT_CNT 0) = 1) && decide ((d.eng 0).evq = [evEntry 21 1 1 0])) ∧
    after (.fetchRange 1) (devEng 1 (run1 { pc := 0x10000 })) (fun d => decide ((d.eng 1).cause = 2)) ∧
    (devEng 1 (run1 {})).issuesNow 1 (.tscan 1 2 (some 5)) 1 [2] ∧
    (devEng 1 (run1 {})).issuesNow 1 (.tprpg 1 2 none) 1 [2, 3] ∧ (devEng 1 (run1 {})).issuesNow 1 (.tmisr 1 2 (some 5)) 1 [2, 3] ∧
    after (.tmisr 1 2 none) (devEng 1 (run1 {})) (fun d => decide ((d.eng 1).cause = 10)) := by decide

/-- Physical engine 543 in TEST, its g2 and g3 holding 0 and 1. -/
def tstDev : Device :=
  ({ devWith [] with tests := [(543, { g := [(2, some 0), (3, some 1)], misr := 7 })] }.setFld (F.ROT_U_STAT_STATE 543) 3).setFld F.SYS_STAT_STATE 5

theorem test_only_in_test : tstDev.inTest 543 = true ∧ tstDev.inTest 542 = false ∧ Instr.disoexOk (.tprpg 0 2 (some 543)) = true ∧
    (devEng 1 (run1 {})).issuesNow 1 (.tprpg 1 2 (some 542)) 1 [2, 3] ∧ ((devEng 1 (run1 {})).setFld F.SYS_STAT_STATE 5).inTest 542 = false ∧
    after (.tprpg 0 2 (some 543)) tstDev (fun d => decide ((d.testUnit 543).prpg = 2 ^ 32)) ∧
    after (.tmisr 0 4 (some 543)) tstDev (fun d => decide ((d.testUnit 543).g = [(2, some 0), (3, some 1), (4, some 7), (5, some 0)])) ∧
    after (.tprpg 1 2 (some 542)) ((devEng 1 (run1 {})).setFld F.SYS_STAT_STATE 5) (fun d => decide ((d.eng 1).cause = 10)) := by decide +kernel

theorem test_reset_bounds : (State.reset.dev.eng 0).state = 0 ∧ (State.reset.dev.eng 0).stack = [] ∧ State.reset.pending = [] := by decide
/-- Reset meets the premises of the engines' invariant, with NOP at the front of the queue. -/
theorem test_bounds_premise : (encode (.nop 0)).isSome = true ∧ ∀ e, (State.reset.dev.eng e).Bounded := by
  refine ⟨by decide, fun e => ?_⟩
  have h : State.reset.dev.eng e = {} := rfl
  rw [h]; simp [Engine.Bounded, Engine.ar, Sparse.get]


/-! Access, time and boundaries: states that meet the statements' hypotheses, clause by clause. -/

/-- A device with some fields set. -/
def devSet (l : List (FieldAt × Nat)) : Device := l.foldl (fun d p => d.setFld p.1 p.2) {}

/-- A device whose BAR0 is open: STATE READY. -/
def openDev : Device := devSet [(F.SYS_STAT_STATE, 5)]

/-- A plain register, the halves of a pair, and a lock that a running stream puts on its configuration. -/
theorem test_register_writes : bar0Fits (Reg.LNK_S_CFG 7) 4 = true ∧ openDev.windowOpen (Reg.LNK_S_CFG 7) = true ∧
    bar0Loc (Reg.LNK_S_CFG 7) = .reg ∧ (regRow (Reg.LNK_S_CFG 7)).isSome ∧ pairHalf (Reg.LNK_S_CFG 7) = 0 ∧
    openDev.locked (Reg.LNK_S_CFG 7) 5 = false ∧ (openDev.refusedWrite (Reg.LNK_S_CFG 7) 5).isNone ∧
    (openDev.setFld (F.LNK_S_STAT_STATE 7) 1).locked (Reg.LNK_S_CFG 7) 5 = true ∧
    pairHalf (Reg.LNK_S_AT_LO 7) = 1 ∧ pairHalf (Reg.LNK_S_AT_HI 7) = 2 ∧ bar0Fits (Reg.LNK_S_AT_HI 7) 4 = true ∧
    openDev.locked (Reg.LNK_S_AT_LO 7) 5 = false := by decide +kernel
theorem test_locked_pair : (openDev.setFld (F.QUE_Q_STAT_ENABLED 4095) 1).locked (Reg.QUE_Q_BASE_LO 4095) 5 = true ∧
    (openDev.setFld (F.QUE_Q_STAT_ENABLED 4095) 1).locked (Reg.QUE_Q_BASE_HI 4095) 5 = true ∧
    pairHalf (Reg.QUE_Q_BASE_LO 4095) = 1 ∧ pairHalf (Reg.QUE_Q_BASE_HI 4095) = 2 := by decide +kernel
theorem test_writable_pair : pairHalf (Reg.LNK_S_AT_LO 7) = 1 ∧ pairHalf (Reg.LNK_S_AT_LO 7 + 4) = 2 ∧ (regRow (Reg.LNK_S_AT_LO 7)).isSome ∧
    (regRow (Reg.LNK_S_AT_LO 7 + 4)).isSome ∧ bar0Fits (Reg.LNK_S_AT_LO 7 + 4) 4 = true ∧ openDev.windowOpen (Reg.LNK_S_AT_LO 7 + 4) = true ∧
    openDev.locked (Reg.LNK_S_AT_LO 7) (7 + 9 * 2 ^ 32) = false ∧ openDev.locked (Reg.LNK_S_AT_LO 7 + 4) 9 = false ∧
    after (.loWriteHold (Reg.LNK_S_AT_LO 7) 8) { openDev with loHeld := [(Reg.LNK_S_AT_LO 7, some 7)] } (fun d =>
      decide (d.loHeld = [(Reg.LNK_S_AT_LO 7, some 8)]) && decide (d.rdN (Reg.LNK_S_AT_LO 7) = 0)) ∧
    after (.hiWriteApply (Reg.LNK_S_AT_LO 7 + 4) 9) { openDev.wr (Reg.LNK_S_AT_LO 7) 5 with loHeld := [(Reg.LNK_S_AT_LO 6, some 7)] } (fun d =>
      decide (d.rd64 (Reg.LNK_S_AT_LO 7) = 5 + 9 * 2 ^ 32)) := by decide +kernel
theorem test_closed_window : (devSet [(F.SYS_STAT_STATE, 6)]).windowOpen (Reg.LNK_S_CFG 0) = true ∧
    (devSet [(F.SYS_STAT_STATE, 8)]).windowOpen (Reg.LNK_S_CFG 0) = false ∧ bar0Fits 2 4 = false := by decide +kernel
theorem test_write_plain : after (.hostRegisterWrite (Reg.LNK_S_AT_LO 0) 4 7 0) openDev (fun d => decide (d.rdN (Reg.LNK_S_AT_LO 0) = 0)) ∧
    after (.hiWriteApply (Reg.LNK_S_AT_HI 0) 9) { openDev with loHeld := [(Reg.LNK_S_AT_LO 0, some 7)] } (fun d =>
      decide (d.rd64 (Reg.LNK_S_AT_LO 0) = 7 + 9 * 2 ^ 32)) ∧
    after (.hostRegisterWrite 2 4 7 0) openDev (fun d => d.isSet F.SYS_FLAGS_BAD_ACCESS) ∧
    after (.hostRegisterWrite (Reg.LNK_S_FLAGS 7) 4 0x81 0x80) (openDev.wr (Reg.LNK_S_FLAGS 7) 0x83) (fun d =>
      decide (d.rdN (Reg.LNK_S_FLAGS 7) = 0x82)) := by decide +kernel
theorem test_register_reads : (regRow (Reg.LNK_S_CFG 0)).map (fun r => r.rc) = some 0 ∧ latchedBy (Reg.LNK_S_CFG 0) = [] ∧
    openDev.quiet (Reg.LNK_S_CFG 0) = false ∧ measured (Reg.LNK_S_CFG 0) = false ∧ latency Reg.QUE_SPILL_LAT = true ∧
    openDev.quiet Reg.QUE_SPILL_LAT = true ∧ Device.quiet { openDev with latAt := [(Reg.QUE_SPILL_LAT, some 0)] } Reg.QUE_SPILL_LAT = false ∧
    measured Reg.QUE_SPILL_LAT = true ∧ latchedBy (Reg.LNK_S_AT_LO 0) = [Reg.LNK_S_AT_LO 0 + 4] ∧
    after (.loReadLatch (Reg.LNK_S_AT_LO 7) 8) ((openDev.wr (Reg.LNK_S_AT_LO 7) 5).wr (Reg.LNK_S_AT_HI 7) 9) (fun d =>
      decide (d.hostRead = 5 + 9 * 2 ^ 32) && decide (d.hiLatch = [(Reg.LNK_S_AT_HI 7, some 9)])) ∧
    (regRow Reg.QUE_SPILL_LAT).map (fun r => r.rc) = some 0 ∧ bar0Fits Reg.QUE_SPILL_LAT 4 = true ∧
    bar0Loc Reg.QUE_SPILL_LAT = .reg := by decide +kernel
theorem test_counter_read : (regRow (Reg.LNK_L_HDR_ERR 31)).map (fun r => r.rc) = some 0xFFFFFFFF ∧
    blockAt (Reg.LNK_L_HDR_ERR 31) 0x710000 0x40 4096 = none ∧ latchedBy (Reg.LNK_L_HDR_ERR 31) = [] ∧
    after (.counterRead (Reg.LNK_L_HDR_ERR 31) true) (openDev.wr (Reg.LNK_L_HDR_ERR 31) 9) (fun d =>
      decide (d.hostRead = 9) && decide (d.rdN (Reg.LNK_L_HDR_ERR 31) = 1)) ∧
    after (.counterRead (Reg.CL_BANK_CONFLICT_CNT 31) false) (openDev.wr (Reg.CL_BANK_CONFLICT_CNT 31) 9) (fun d =>
      decide (d.hostRead = 9) && decide (d.rdN (Reg.CL_BANK_CONFLICT_CNT 31) = 0)) := by decide +kernel
theorem test_memory_windows : openDev.memoryOpen = true ∧ (devSet [(F.SYS_STAT_STATE, 7)]).memoryOpen = false ∧ openDev.active 4095 = false ∧
    (Config.memSize - 1) + 1 ≤ Config.memSize ∧ 0x3FF + 1 ≤ 0x400 ∧
    after (.bar2Write 64 [1, 0, 3]) { openDev with mem := [(65, 9)], poison := [2] } (fun d =>
      decide (memLE d.mem 64 3 = 0x30001) && decide (d.poison = [2])) ∧
    after (.bar2Read Config.memSize 2) openDev (fun d => decide (d.hostRead = 0xFFFF) && d.isSet F.SYS_FLAGS_BAD_ACCESS) ∧
    after (.contextWrite 1 4 [7]) openDev (fun d => decide (memGet d.ctx 0x404 = 7)) := by decide +kernel

/-- A started device. -/
def startDev : Device := { openDev with sys := { openDev.sys with started := true } }

theorem test_device_time : startDev.sys.started = true ∧ startDev.pinLow = false ∧ startDev.setReq = none ∧ 0 < startDev.tick.2 ∧
    after .tclkTick { startDev with setReq := some (5, 2, .host) } (fun d => decide (d.time = 5) && decide (d.rdN Reg.EVT_EPOCH = 2)) ∧
    after .timeWrap (startDev.wr Reg.EVT_EPOCH 0xFFFF) (fun d => decide (d.rdN Reg.EVT_EPOCH = 0) && d.isSet F.EVT_FLAGS_TIME_WRAP) ∧
    after (.syncInEdge 3) (startDev.setFld F.CHN_SYNC_CFG_SYNC_EN 1) (fun d => decide (d.syncIn = [3]) && d.syncLeft.isEmpty) ∧
    after (.syncInEdge 3) { startDev.setFld F.CHN_SYNC_CFG_SYNC_EN 1 with time := 4 } (fun d => decide (d.syncLeft = [16])) ∧
    (Device.syncSample { startDev.setFld F.CHN_SYNC_CFG_SYNC_EN 1 with time := 4, syncIn := [3] }).syncLeft = [16] ∧
    ((devEng 3 { state := 1 }).engBusy.eng 3).busy = 8 ∧ (devEng 3 { state := 1 }).sys.asleep = false := by decide +kernel
theorem test_sync_marks : (startDev.setFld F.CAS_STAT_ROLE caMember).casRole = caMember ∧ startDev.casRole ≠ caMember ∧
    startDev.casRole ≠ caStandby ∧ startDev.isSet F.CHN_SYNC_CFG_SYNC_EN = false ∧ timeLE (nsTime 2048 - nsTime 1024) (nsTime 2048) = true ∧
    after (.syncInEdge 3) { startDev.setFld F.CAS_STAT_ROLE caMember with cas := { coarse := some (9, 4) } } (fun d =>
      decide (d.time = 6) && decide (d.rdN Reg.EVT_EPOCH = 4)) ∧
    after (.syncInEdge (nsTime 2048)) { startDev.setFld F.CAS_STAT_ROLE caMember with cas := { marks := [nsTime 2048] } } (fun d =>
      decide (d.cas.errs.length = 1) && d.cas.marks.isEmpty) ∧
    after (.syncInEdge (nsTime 2048)) { startDev.setFld F.CAS_STAT_ROLE caMember with cas := { marks := [nsTime 2048], deaf := true } } (fun d =>
      d.cas.errs.isEmpty && d.cas.marks.isEmpty) ∧
    after (.syncInEdge (nsTime 2048)) { startDev.setFld F.CAS_STAT_ROLE caMember with cas := { marks := [9], resets := [nsTime 1024] } } (fun d =>
      d.cas.resets.isEmpty && decide (d.cas.marks = [9])) ∧
    after (.syncInEdge 9) (startDev.setFld F.CAS_STAT_ROLE caMember) (fun d => decide (d.cas.calNo = 1)) := by decide +kernel

/-- A device at its boundary `nsTime 1024`, with a pending decimator reset that is due there. -/
def resetDev : Device := { startDev with time := nsTime 1024, breqs := [⟨.decReset, 0, 0, 0, .host, []⟩] }

theorem test_boundaries : resetDev.isBoundary (nsTime 1024) = true ∧ resetDev.gated = false ∧ resetDev.resetDue (nsTime 1024) = true ∧
    resetDev.isBoundary (nsTime 1024 - 1) = false ∧ Device.isBoundary { resetDev with time := 0 } (nsTime 1024) = false ∧
    Device.resetDue { resetDev with breqs := [] } (nsTime 1024) = false ∧ Device.isBoundary { resetDev with breqs := [] } (nsTime 1024) = true ∧
    Device.isBoundary { resetDev with breqs := [], time := nsTime 1024 + 1 } (nsTime 1024) = true ∧
    (resetDev.setFld F.SYS_STAT_STATE 6).gated = true ∧
    Device.isBoundary (Device.setFld { resetDev with breqs := [] } F.SYS_STAT_STATE 6) (nsTime 1024) = true ∧
    after (.deviceBoundary (nsTime 1024) []) resetDev (fun d =>
      d.breqs.isEmpty && decide (d.rdTime Reg.CHN_LAST_RESET_LO = nsTime 1024)) ∧
    after (.deviceBoundary (nsTime 1024) []) (resetDev.setFld F.SYS_STAT_STATE 6) (fun d =>
      decide (d.rdTime Reg.CHN_LAST_RESET_LO = nsTime 1024)) ∧
    after (.decimatorReset 5) { startDev with time := 5, syncLeft := [0, 3] } (fun d =>
      decide (d.rdTime Reg.CHN_LAST_RESET_LO = 5)) := by decide +kernel


/-! Lanes and streams. -/

/-- Lane 31 enabled with clock recovery, with more fields and its lane record. -/
def laneDev (l : List (FieldAt × Nat)) (x : Lane) : Device :=
  (devSet ([(F.LNK_L_CFG_EN 31, 1), (F.LNK_L_STAT_CDR_LOCK 31, 1)] ++ l)).setLane 31 x

/-- The same lane as a lane of stream 7. -/
def fedDev (l : List (FieldAt × Nat)) (x : Lane) : Device :=
  (laneDev ((F.LNK_S_STAT_STATE 7, 2) :: l) x).wr (Reg.LNK_S_LANES 7) (2 ^ 31)

theorem test_lane_takes : (laneDev [] {}).isSet (F.LNK_L_CFG_EN 31) = true ∧ (laneDev [] {}).isSet (F.LNK_L_STAT_CDR_LOCK 31) = true ∧
    (laneDev [] {}).isSet (F.LNK_G_CFG_FRAMING 7) = false ∧ (laneDev [] {}).isSet (F.LNK_L_STAT_BLOCK_LOCK 31) = false ∧
    (laneDev [(F.LNK_G_CFG_FRAMING 7, 1)] {}).isSet (F.LNK_G_CFG_FRAMING 7) = true ∧
    (laneDev [(F.LNK_L_STAT_BLOCK_LOCK 31, 1)] {}).isSet (F.LNK_L_STAT_BLOCK_LOCK 31) = true ∧
    isAlign 1 0 = false ∧ isAlign 2 0xC35A3C0005000078 = true ∧ markerOf 0xC35A3C0005000078 = 5 ∧
    popCount (2 ^ 15 - 1) 64 < 16 ∧ popCount (2 ^ 16 - 1) 64 = 16 := by decide +kernel
theorem test_block_lock : after (.nativeBlockReceive 31 1 0) (laneDev [] { goodRun := 63 }) (fun d =>
      d.isSet (F.LNK_L_STAT_BLOCK_LOCK 31)) ∧
    after (.nativeBlockReceive 31 1 0) (laneDev [] { goodRun := 62 }) (fun d => decide ((d.lane 31).goodRun = 63)) ∧
    after (.nativeBlockReceive 31 3 0) (laneDev [] { goodRun := 62 }) (fun d => decide ((d.lane 31).goodRun = 0)) ∧
    after (.nativeBlockReceive 31 0 0) (laneDev [(F.LNK_L_STAT_BLOCK_LOCK 31, 1)] { hist := 2 ^ 14 - 1 }) (fun d =>
      d.isSet (F.LNK_L_STAT_BLOCK_LOCK 31) && d.isSet (F.LNK_L_FLAGS_HDR_ERR 31)) ∧
    after (.nativeBlockReceive 31 0 0) (laneDev [(F.LNK_L_STAT_BLOCK_LOCK 31, 1)] { hist := 2 ^ 15 - 1 }) (fun d =>
      !d.isSet (F.LNK_L_STAT_BLOCK_LOCK 31)) := by decide +kernel
theorem test_marker : after (.nativeBlockReceive 31 2 0xC35A3C0005000078)
      (laneDev [(F.LNK_L_STAT_BLOCK_LOCK 31, 1)] { pair := some (5, 4095) }) (fun d => decide ((d.lane 31).pair = some (5, 0))) ∧
    after (.nativeBlockReceive 31 2 0xC35A3C0006000078) (laneDev [(F.LNK_L_STAT_BLOCK_LOCK 31, 1)] { pair := some (5, 4095) }) (fun d =>
      d.isSet (F.LNK_L_STAT_ALIGNED 31)) ∧
    after (.nativeBlockReceive 31 1 0) (fedDev [(F.LNK_L_STAT_BLOCK_LOCK 31, 1), (F.LNK_L_STAT_ALIGNED 31, 1)] {}) (fun d =>
      decide ((d.lane 31).fifo = [⟨1, true, false, 0⟩])) ∧
    after (.nativeBlockReceive 31 2 (2 ^ 64 - 1)) (laneDev [(F.LNK_L_CFG_POL_INV 31, 1)] { goodRun := 62 }) (fun d =>
      decide ((d.lane 31).goodRun = 63)) := by
  decide +kernel
theorem test_larkspur : after (.larkspurCharacterReceive 31 0x0FA false) (laneDev [(F.LNK_G_CFG_FRAMING 7, 1)] {}) (fun d =>
      d.isSet (F.LNK_L_STAT_BLOCK_LOCK 31)) ∧
    after (.larkspurCharacterReceive 31 907 false) (laneDev [(F.LNK_G_CFG_FRAMING 7, 1)] {}) (fun d => !d.isSet (F.LNK_L_STAT_BLOCK_LOCK 31)) ∧
    after (.larkspurCharacterReceive 31 0 true) (laneDev [(F.LNK_G_CFG_FRAMING 7, 1)] {}) (fun d =>
      d.isSet (F.LNK_L_FLAGS_CODE_ERR 31) && decide (d.rdN (Reg.LNK_L_SKIP_ADJ 31) = 1)) ∧
    after (.larkspurCharacterReceive 31 0 false)
      (fedDev [(F.LNK_G_CFG_FRAMING 7, 1), (F.LNK_L_STAT_BLOCK_LOCK 31, 1), (F.LNK_L_STAT_ALIGNED 31, 1)] { lchar := 255 }) (fun d =>
      decide ((d.lane 31).fifo = [⟨255, false, false, 0⟩])) ∧
    after (.larkspurCharacterReceive 31 907 false)
      (fedDev [(F.LNK_G_CFG_FRAMING 7, 1), (F.LNK_L_STAT_BLOCK_LOCK 31, 1), (F.LNK_L_STAT_ALIGNED 31, 1)] { lchar := 255 }) (fun d =>
      decide ((d.lane 31).lchar = 0) && decide ((d.lane 31).fifo = [⟨255, true, false, 7⟩])) := by decide +kernel

/-- Lane 31 off, in a valid group of rate 16,000 Mbit/s, with an equalisation entry `e` for it or for every lane. -/
def eqDev (e b : Nat) : Device :=
  devWith [(Reg.LNK_EQ e 0, b + 0x40), (Reg.LNK_EQ e 1, 0xFFFF0000), (Reg.LNK_EQ e 2, 0x0203), (Reg.LNK_G_CFG 7, 16000)]

theorem test_lane_control : (laneDev [] {}).isSet (F.LNK_L_CFG_EN 31) = true ∧ (eqDev 63 31).isSet (F.LNK_L_CFG_EN 31) = false ∧
    (eqDev 63 31).eqMatch 63 31 16000 false = true ∧ (eqDev 63 0x20).eqMatch 63 31 16000 true = true ∧
    (eqDev 63 0x20).eqMatch 63 31 16000 false = false ∧ (eqDev 63 31).eqMatch 0 31 16000 false = false ∧
    (devSet [(F.LNK_TG_CFG_VALID 5, 1)]).isSet (F.LNK_TG_CFG_VALID 5) = true ∧
    after (.cdrLost 31) (laneDev [] {}) (fun d => d.isSet (F.LNK_L_FLAGS_CDR_LOST 31) && !d.isSet (F.LNK_L_STAT_CDR_LOCK 31)) ∧
    after (.laneEnable 31 true) ((eqDev 63 31).setFld (F.LNK_G_CFG_VALID 7) 1) (fun d =>
      decide (d.fld (F.LNK_L_STAT_EQ_ENTRY 31) = 63) && decide ((d.lane 31).ctle = 3) && decide ((d.lane 31).dfe = 2) &&
        d.isSet (F.LNK_L_CFG_POL_INV 31)) ∧
    after (.laneEnable 31 true) (devSet [(F.LNK_G_CFG_VALID 7, 1)]) (fun d => d.isSet (F.LNK_L_STAT_EQ_DEFAULT 31)) ∧
    after (.laneDisable 31) (laneDev [] {}) (fun d => !d.isSet (F.LNK_L_CFG_EN 31)) := by decide +kernel

/-- A sampler comparison window of lane 31 in SHADOW. -/
def samplerDev (n : Nat) : Device :=
  { (laneDev [(F.LNK_L_STAT_SAMPLERS 31, 1)] { windows := n }) with rot := { steps := [(6, some { g := 31, s := 62, v := 63, phase := 1, since := 0 })] } }

theorem test_sampler : (samplerDev 0).rotStepOf 6 = some { g := 31, s := 62, v := 63, phase := 1, since := 0 } ∧ (laneDev [] {}).rotStepOf 6 = none ∧
    after (.samplerWindowEnd 31 false false false) (samplerDev 3) (fun d => (d.lane 31).exchange && decide ((d.lane 31).windows = 0)) ∧
    after (.samplerWindowEnd 31 true true false) (samplerDev 7) (fun d =>
      !d.isSet (F.LNK_L_STAT_SAMPLERS 31) && d.isSet (F.LNK_L_FLAGS_WITHDRAWN 31)) := by decide +kernel

/-- Stream 7 of one data lane (lane 0) and, with `par`, a parity lane (lane 1), aligned at unit 64. -/
def slotDev (par : Nat) (b0 b1 : List RxBlk) : Device :=
  ((((devSet [(F.LNK_S_STAT_STATE 7, 2), (F.LNK_S_CFG_PARITY 7, par), (F.LNK_L_STAT_LANE_INDEX 1, 1)]).wr (Reg.LNK_S_LANES 7) 3).setStream 7
    { nextIdx := some 64 }).setLane 0 { fifo := b0, seen := true }).setLane 1 { fifo := b1, seen := true }

theorem test_slots : (slotDev 0 [⟨1, true, false, 9⟩] [⟨1, true, false, 8⟩]).sN 7 = 2 ∧
    after (.sampleSlot 7 4095) (slotDev 0 [⟨4095, true, false, 9⟩] [⟨4095, true, false, 8⟩]) (fun d =>
      decide ((d.stream 7).nextIdx = some 66) && decide ((d.stream 7).units.length = 2) && (d.lane 0).fifo.isEmpty) ∧
    after (.sampleSlot 7 1) (slotDev 0 [⟨1, true, true, 0⟩] [⟨1, true, true, 0⟩]) (fun d => decide ((d.stream 7).nextIdx = some 64)) ∧
    after (.sampleSlot 7 0) (slotDev 0 [⟨0, true, false, 0⟩] [⟨0, true, false, 0⟩]) (fun d => decide ((d.stream 7).nextIdx = some 64)) := by
  decide +kernel
/-- A lost block of a link with three lanes, one of them parity, is the parity sum of the others. -/
theorem test_parity : after (.sampleSlot 7 1)
    (((slotDev 1 [⟨1, true, false, 9⟩] []).wr (Reg.LNK_S_LANES 7) 7).setLane 2 { fifo := [⟨1, true, false, 12⟩], seen := true } |>.setFld (F.LNK_L_STAT_LANE_INDEX 2) 2)
    (fun d => decide ((d.stream 7).units.map (fun u => u.1) = [64, 65])) = true := by decide +kernel
theorem test_acquire : after (.acquireTimeout 7) { devSet [(F.LNK_S_STAT_STATE 7, 1)] with
      time := nsTime 1000000, breqs := [⟨.streamStart, 7, 0, 0, .host, []⟩] } (fun d =>
      decide (d.fld (F.LNK_S_STAT_CODE 7) = cCONDITIONS) && decide (d.sState 7 = 0)) ∧
    timeLE ((0 : Time) + nsTime 1000000) (nsTime 1000000 - 1) = false := by decide +kernel

/-- Stream 7 running with one sample a nanosecond, with its anchor at zero. -/
def dueDev (t : Time) : Device := { (((devSet [(F.LNK_S_STAT_STATE 7, 2)]).wr (Reg.LNK_S_PNUM_CUR 7) 1).wr (Reg.LNK_S_PDEN_CUR 7) 1) with time := t }
theorem test_release : (dueDev (nsTime 1000000)).sDue 7 0 = true ∧ (dueDev 0).sDue 7 1 = false ∧
    after (.sampleRelease 7 0) (dueDev (nsTime 1000000)) (fun d => decide ((d.stream 7).next = 1)) := by decide +kernel


/-! Requests of streams and channelisers. -/

/-- Stream 7 with lane 31, HOLD 500 and one sample a nanosecond, and its export on transmit lane 0; channeliser 15 on that stream at ratio 4. -/
def linkDev : Device :=
  (devWith [(Reg.LNK_S_LANES 7, 0x80000000), (Reg.LNK_S_PNUM_CUR 7, 1), (Reg.LNK_S_PDEN_CUR 7, 1), (Reg.LNK_S_PNUM 7, 1),
    (Reg.LNK_S_PDEN 7, 1), (Reg.LNK_S_HOLD 7, 500), (Reg.LNK_E_LANES 7, 1), (Reg.CHN_Z_RATIO 15, 4)]).setFld (F.LNK_G_CFG_RATE 7) 32000
    |>.setFld (F.LNK_TG_CFG_RATE 0) 32000 |>.setFld (F.CHN_Z_CFG_SOURCE 15) 7 |>.setFld (F.CHN_Z_CFG_ORDER 15) 3 |>.setFld F.CLK_STAT_REF_PRESENT 1 |>.setFld (F.LNK_S_CFG_FORMAT 7) 0

/-- A unit command from port 3 of engine 0. -/
def cmdOf (unit imm : Nat) (block : List Byte := []) : UCmd := ⟨0, 3, unit, imm, block⟩

theorem test_stream_start : linkDev.sStartCode 7 = cOK ∧ linkDev.sPending 7 = false ∧ (devSet []).sStartCode 7 ≠ cOK ∧
    (devSet []).sPending 7 = false ∧ Device.hasReq { linkDev with breqs := [⟨.streamStart, 7, 0, 0, .host, []⟩] } [.streamStart] 7 = true ∧
    (linkDev.accept (cmdOf 7 0)).sState 7 = 0 ∧ ((linkDev.setFld (F.LNK_S_STAT_STATE 7) 2).accept (cmdOf 7 0)).sState 7 ≠ 0 ∧
    after (.lnkSCtlStart 7) linkDev (fun d => decide (d.sState 7 = 1) && d.isSet (F.LNK_S_STAT_PENDING 7) && decide (d.breqs.length = 1)) ∧
    after (.lnkSCtlStart 7) (linkDev.wr (Reg.LNK_S_HOLD 7) 499) (fun d => decide (d.fld (F.LNK_S_STAT_CODE 7) = cLENGTH)) ∧
    after (.lnkStart (cmdOf 7 0)) (linkDev.setFld (F.LNK_S_STAT_STATE 7) 2) (fun d => decide (d.completions = [⟨0, 3, cBUSY, none⟩])) := by
  decide +kernel
theorem test_stream_stop : linkDev.sState 7 = 0 ∧ (linkDev.setFld (F.LNK_S_STAT_STATE 7) 1).sState 7 = 1 ∧
    (linkDev.setFld (F.LNK_S_STAT_STATE 7) 2).sState 7 = 2 ∧ (linkDev.setFld (F.LNK_S_STAT_STATE 7) 2).sPending 7 = false ∧
    Device.sPending { linkDev with breqs := [⟨.streamStop, 7, 0, 0, .host, []⟩] } 7 = true ∧
    after (.lnkSCtlStop 7) (linkDev.setFld (F.LNK_S_STAT_STATE 7) 2) (fun d => d.isSet (F.LNK_S_STAT_PENDING 7)) ∧
    after (.lnkStop (cmdOf 7 0)) linkDev (fun d => decide (d.completions = [⟨0, 3, cOK, none⟩])) := by decide +kernel
theorem test_stream_rate : linkDev.hasConsumer 7 = false ∧ (linkDev.setFld (F.LNK_S_STAT_STATE 7) 2).sRateCode 7 = cOK ∧
    (linkDev.setFld (F.LNK_S_STAT_STATE 7) 1).sRateCode 7 = cBUSY ∧ linkDev.hasReq [.streamRate] 7 = false ∧
    after (.lnkSCtlRate 7) linkDev (fun d => decide (d.fld (F.LNK_S_STAT_CODE 7) = cOK) && d.breqs.isEmpty) ∧
    after (.lnkSCtlRate 7) (linkDev.setFld (F.LNK_S_STAT_STATE 7) 2) (fun d => decide (d.breqs.map (fun r => r.arg) = [[1, 1]])) := by
  decide +kernel
theorem test_export : linkDev.eCode 7 = cOK ∧ (linkDev.wr (Reg.LNK_E_LANES 7) 0).eCode 7 = cLENGTH ∧ linkDev.isSet (F.LNK_E_STAT_RUNNING 7) = false ∧
    after (.exportRun 7 1) linkDev (fun d => d.isSet (F.LNK_E_STAT_RUNNING 7)) ∧
    after (.exportRun 7 1) (linkDev.wr (Reg.LNK_E_LANES 7) 0) (fun d => decide (d.fld (F.LNK_E_STAT_CODE 7) = cLENGTH)) ∧
    after (.exportRun 7 0) (linkDev.setFld (F.LNK_E_STAT_RUNNING 7) 1) (fun d => decide (d.breqs.map (fun r => r.kind) = [.exportStop])) := by
  decide +kernel
/-- R68, R65, R63 by hand: ALIGN of lane 0 of one, tag 7, R16, count 0x1234; then the word 1 through 1 + x^39 + x^58 from zeros; the SCB of
group 1 with the next block's index. -/
theorem test_line_code :
    ((linkDev.setExpo 7 { marker := 0x1234, scr := [0] }).eData 7 [1]).outbox =
      [.laneBlock 0 2 0xC35A3C123401E078, .laneBlock 0 1 (1 + 2 ^ 39 + 2 ^ 58)] ∧
    (linkDev.setExpo 7 { idx := 5 }).eScb 7 0 = 0x501E04B ∧
    descramble 64 77 (scramble 64 77 0x123456789ABCDEF0).1 = (0x123456789ABCDEF0, (scramble 64 77 0x123456789ABCDEF0).2) := by
  decide +kernel
theorem test_channeliser : linkDev.zBusy 15 = false ∧ linkDev.hasReq [.chnStart, .chnStop, .chnTune] 15 = false ∧
    (linkDev.setFld (F.CHN_Z_STAT_RUNNING 15) 1).zBusy 15 = true ∧
    after (.chnZCtlStart 15) linkDev (fun d => decide (d.breqs.map (fun r => (r.kind, r.obj)) = [(.chnStart, 15)])) ∧
    after (.chnZCtlStart 15) (linkDev.wr (Reg.CHN_Z_RATIO 15) 0) (fun d => decide (d.fld (F.CHN_Z_STAT_CODE 15) = cLENGTH)) ∧
    after (.chnZCtlStart 15) (linkDev.wr (Reg.CHN_Z_RATIO 15) 4097) (fun d => decide (d.fld (F.CHN_Z_STAT_CODE 15) = cUNSUP)) ∧
    after (.chnZCtlStart 15) (linkDev.setFld (F.CHN_Z_STAT_RUNNING 15) 1) (fun d => decide (d.fld (F.CHN_Z_STAT_CODE 15) = cBUSY)) ∧
    after (.chnStart (cmdOf 15 0)) (linkDev.setFld (F.CHN_Z_STAT_RUNNING 15) 1) (fun d => decide (d.completions = [⟨0, 3, cBUSY, none⟩])) := by
  decide +kernel
theorem test_channeliser_later : after (.chnZCtlTune 15) (linkDev.setFld (F.CHN_Z_STAT_RUNNING 15) 1) (fun d =>
      decide (d.breqs.map (fun r => (r.kind, r.arg)) = [(.chnTune, [0])])) ∧
    after (.chnZCtlStop 15) linkDev (fun d => d.breqs.isEmpty && decide (d.fld (F.CHN_Z_STAT_CODE 15) = cOK)) ∧
    after (.chnStop (cmdOf 15 0 (List.replicate 8 0))) { linkDev.setFld (F.CHN_Z_STAT_RUNNING 15) 1 with
      breqs := [⟨.chnTune, 15, 5, 0, .host, [0]⟩] } (fun d => decide (d.completions = [⟨0, 3, cBUSY, none⟩])) := by decide +kernel
theorem test_corrector : after (.chnCCtlSwap 7) linkDev (fun d => d.isSet (F.CHN_C_STAT_ACTIVE 7)) ∧
    after (.chnSwap (cmdOf 7 0 (List.replicate 8 1))) (linkDev.setFld (F.LNK_S_STAT_STATE 7) 2) (fun d =>
      d.isSet (F.CHN_C_STAT_PENDING 7) && decide (d.breqs.map (fun r => r.at') = [0x0101010101010101])) ∧
    after (.chnCCtlSwap 7) { linkDev with breqs := [⟨.corrSwap, 7, 0, 0, .host, []⟩] } (fun d =>
      decide (d.fld (F.CHN_C_STAT_CODE 7) = cBUSY)) := by decide +kernel
theorem test_decimator_request : after .chnResetCtlGo linkDev (fun d => d.isSet F.CHN_RESET_CTL_PENDING && d.hasReq [.decReset] 0) ∧
    after (.chnReset (cmdOf 0 0 (List.replicate 8 1))) { linkDev with breqs := [⟨.decReset, 0, 0, 0, .host, []⟩] } (fun d =>
      decide (d.fld F.CHN_RESET_CTL_CODE = cBUSY) && decide (d.completions = [⟨0, 3, cBUSY, none⟩])) := by decide +kernel


/-! Schedules, frames, traces and density. -/

/-- 32-bit words as bytes. -/
def le (l : List Nat) : List Byte := l.flatMap (bytesLE 4)

/-- Context 3 of stream 7: 64 points every 64 samples, all bins, every frame delivered to 4 slots of cluster memory, and a trace of 64 points. -/
def ctxMem : List Host.Cell :=
  memWrite (memWrite (memWrite [] 0xC00 (le [7, 6, 64, 0, 0, 0, 64, 0])) 0xF00 (le [1, 1, 0, 0, 320, 4])) 0xC80 (le [1, 1, 0, 0, 64, 1])

/-- A schedule of one entry, context 3, on a pool of pipe 0, at address 64, with stream 7 at one sample a nanosecond. -/
def schedDev : Device :=
  { (devWith [(Reg.LNK_S_PNUM_CUR 7, 1), (Reg.LNK_S_PDEN_CUR 7, 1)]).setFld F.XF_LIVE_MASK 1 with
    mem := memWrite [] 64 (le ([0x48435358, 1, 1, 1, 1] ++ List.replicate 11 0 ++ [3])), ctx := ctxMem }

/-- The same device with that schedule running. -/
def runDev : Device := { schedDev with run := { entries := [(3, 0)], masks := [1] } }

theorem test_schedule_checked : (schedDev.checkSched 64 72 0).1.1 = cOK ∧ (schedDev.checkSched 64 71 0).1.1 = cLENGTH := by decide +kernel
theorem test_schedule_request : schedDev.fld F.XF_SCHED_STAT_STATE = 0 ∧
    after .xfSchedCtlGo schedDev (fun d => decide (d.fld F.XF_SCHED_STAT_STATE = 1) && d.checking.isSome) ∧
    after (.xfLoad (cmdOf 0 0 (le [64, 0, 72, 0, 0, 0]))) schedDev (fun d =>
      decide (d.checking = some ⟨64, 72, 0, .port 0 3⟩)) ∧
    after (.xfStop (cmdOf 0 0 (le [5, 0]))) schedDev (fun d => decide (d.fld F.XF_SCHED_STAT_STATE = 2) && d.pend.isSome) ∧
    after .xfSchedCtlStop (schedDev.setFld F.XF_SCHED_STAT_STATE 1) (fun d => decide (d.fld F.XF_SCHED_STAT_CODE = cBUSY)) := by
  decide +kernel
theorem test_schedule_load : after .scheduleChecked { schedDev with checking := some ⟨64, 72, 9, .host⟩ } (fun d =>
      decide (d.breqs.map (fun r => (r.kind, r.at')) = [(.schedSwitch, 9)]) && d.active 3) ∧
    after .scheduleChecked { schedDev with checking := some ⟨64, 71, 9, .host⟩ } (fun d =>
      decide (d.fld F.XF_SCHED_STAT_CODE = cLENGTH) && decide (d.fld F.XF_SCHED_STAT_STATE = 0)) := by decide +kernel
theorem test_credit : (runDev.accept (cmdOf 3 4)).inRun 3 = true ∧ cClEn (runDev.desc 3) = true ∧ cClCount (runDev.desc 3) = 4 ∧
    runDev.fld (F.XF_C_STAT_CREDIT 3) = 0 ∧
    after (.xfCredit (cmdOf 3 4)) runDev (fun d => decide (d.fld (F.XF_C_STAT_CREDIT 3) = 4)) ∧
    after (.xfCredit (cmdOf 3 5)) runDev (fun d => decide (d.completions = [⟨0, 3, cLENGTH, none⟩])) ∧
    after (.xfCredit (cmdOf 4 5)) runDev (fun d => decide (d.completions = [⟨0, 3, cNOTARMED, none⟩])) := by decide +kernel

/-- A frame of context 3. -/
def frame3 : Frame := ⟨3, 0, 0, 0, List.replicate 64 {}, { desc := runDev.desc 3 }, 0, 1, 0, 0, 0, false⟩

theorem test_frames : cLong frame3.set.desc = false ∧ runDev.dispatch 1 0 = some (0, 0) ∧ runDev.dispatch 0 0 = none ∧
    0 ≤ runDev.maxWait 7 64 ∧
    after (.frameReady false) { runDev with ready := [frame3] } (fun d => d.ready.isEmpty && decide (d.flight.map (fun f => f.lost) = [false])) ∧
    after (.frameReady false) { runDev with ready := [{ frame3 with mask := 0 }] } (fun d =>
      d.isSet F.XF_FLAGS_SKIP && decide (d.rdN (Reg.XF_C_SKIP 3) = 1)) ∧
    Device.oldest { runDev with flight := [frame3] } 3 = some frame3 ∧ timeLE frame3.inAt runDev.time = true ∧
    runDev.oldest 3 = none := by decide +kernel
theorem test_late_frame : after (.frameReady false)
    { runDev with ready := [frame3], pipeFree := [(0, some (nsTime 1000000))] } (fun d => d.isSet F.XF_FLAGS_SKIP) = true := by decide +kernel
theorem test_long_drop : cLong (le [7, 17]) = true ∧
    after (.frameReady true) { runDev with ready := [{ frame3 with set := { desc := le [7, 17] } }] } (fun d =>
      d.isSet F.XF_FLAGS_LONG_DROP && d.flight.isEmpty) := by decide +kernel
theorem test_trace_clear : runDev.active 3 = true ∧ tracesNamed (runDev.desc 3) 1 = true ∧ tracesNamed (runDev.desc 3) 2 = false ∧
    after .detClrCtlGo ((runDev.setFld F.DET_CLR_CFG_CONTEXT 3).setFld F.DET_CLR_CFG_TRACES 1) (fun d =>
      d.isSet F.DET_CLR_STAT_PENDING && d.hasReq [.detClear] 3) ∧
    after (.detClear (cmdOf 0 0 (le [0x20003, 0, 0, 0]))) runDev (fun d => decide (d.completions = [⟨0, 3, cNOTARMED, none⟩])) ∧
    after (.detClear (cmdOf 0 0 (le [0x10003, 0, 0, 0]))) { runDev with breqs := [⟨.detClear, 3, 0, 0, .host, [1]⟩] } (fun d =>
      decide (d.completions = [⟨0, 3, cBUSY, none⟩])) := by decide +kernel

/-- A density entry of 4 columns by 2 rows with a half-life of 1 s; `mem` puts the plane in memory at 4,096. -/
def denEnt (mem : Nat) : List Byte := le [32 * mem, 0, 4, 2, 1, 1, 0, 0, 1000, 1, 4096 * mem, 0]

/-- Plane 15 active with that entry. -/
def planeDev (mem : Nat) (sn : Option Snap := none) : Device :=
  (devSet [(F.DEN_P_STAT_ACTIVE 15, 1)]).setPlane 15 { ever := true, entry := denEnt mem, snap := sn, cells := [(1, 8)] }

theorem test_density_request : after (.denSnap (cmdOf 0 0 (le [15, 0, 8192, 0, 9, 0]))) (planeDev 0) (fun d =>
      d.hasReq [.denSnap] 15 && d.isSet (F.DEN_P_STAT_PENDING 15)) ∧
    after (.denSnap (cmdOf 0 0 (le [15, 0, 4095, 0, 9, 0]))) (planeDev 0) (fun d => decide (d.completions = [⟨0, 3, cALIGN, none⟩])) ∧
    after .denCmdCtlClear ((planeDev 0).setFld F.DEN_CMD_CFG_PLANE 15) (fun d => d.isSet F.DEN_CMD_STAT_PENDING && d.hasReq [.denClear] 15) ∧
    after .denCmdCtlSnap ((planeDev 0).setFld F.DEN_CMD_CFG_PLANE 3) (fun d => decide (d.fld F.DEN_CMD_STAT_CODE = cNOTARMED)) ∧
    after .denCmdCtlSnap ((planeDev 0).setFld F.DEN_CMD_STAT_PENDING 1) (fun d => decide (d.fld F.DEN_CMD_STAT_CODE = cBUSY)) := by
  decide +kernel
/-- A snapshot or clear of plane 15 at 5, with what it will do to the cells. -/
def snapOf (isSnap clear written : Bool) (mem : Nat) : Snap := ⟨isSnap, 5, 8192, clear, written, .host, denEnt mem, 3, 0, false, false⟩

theorem test_density_memory : deMem (denEnt 1) = true ∧ deMem (denEnt 0) = false ∧ deHalf (denEnt 0) = 1000 ∧
    (planeDev 0).ctxDone 3 5 = true ∧
    after (.snapshotComplete 15) (planeDev 1 (some (snapOf true true false 1))) (fun d => (d.plane 15).snap.isNone) ∧
    after (.snapshotComplete 15) (planeDev 0 (some (snapOf true true false 0))) (fun d =>
      decide (((d.plane 15).snap.map (fun s => s.written)) = some true)) ∧
    after (.snapshotMerged 15) (planeDev 0 (some (snapOf true true true 0))) (fun d => (d.plane 15).snap.isNone && (d.plane 15).cells.isEmpty) ∧
    after (.snapshotMerged 15) (planeDev 0 (some (snapOf true false true 0))) (fun d => decide ((d.plane 15).cell (tileKey 0 1 1) = 8)) ∧
    after (.planeClearDone 15) { planeDev 1 (some (snapOf false true false 1)) with mem := [(4097, 1), (5000, 1)] } (fun d =>
      decide (d.mem = [(5000, 1)])) := by decide +kernel
theorem test_decay : after (.decayStep 15 2) { planeDev 0 with time := BitVec.ofNat 64 (2 * 1000 * 4096000) } (fun d =>
      decide ((d.plane 15).steps = 2) && decide (d.rdN Reg.DEN_DECAY_LATE_CNT = 1)) ∧
    after (.decayStep 15 1) { planeDev 1 with mem := [(4096, 8)], time := BitVec.ofNat 64 (2 * 1000 * 4096000) } (fun d =>
      decide ((d.plane 15).steps = 1) && decide (d.mem32 4096 = decayCell 1 8)) ∧
    timeLE ((0 : Time) + BitVec.ofNat 64 (1 * 1000 * 4096000)) (BitVec.ofNat 64 (1000 * 4096000) - 1) = false := by decide +kernel


/-! Triggers, captures and engine commands. -/

/-- Unit 63 of a kind, in a state. -/
def trigDev (kind st : Nat) : Device :=
  { (devSet [(F.TRG_T_CFG_KIND 63, kind), (F.TRG_T_STAT_STATE 63, st)]).wr (Reg.TRG_T_PARAM0 63) 100 with time := 1000 }

theorem test_trigger_arm : (trigDev 5 0).tArmCode 63 = cOK ∧ (trigDev 7 0).tArmCode 63 = cUNSUP ∧ (trigDev 5 0).hasReq [.trgArm] 63 = false ∧
    (trigDev 5 2).tState 63 ≠ 0 ∧ ((trigDev 5 0).accept (cmdOf 63 0)).tState 63 = 0 ∧
    after (.trgTCtlArm 63) (trigDev 5 0) (fun d => decide (d.tState 63 = 1) && d.hasReq [.trgArm] 63) ∧
    after (.trgTCtlArm 63) (trigDev 7 0) (fun d => decide (d.fld (F.TRG_T_STAT_CODE 63) = cUNSUP)) ∧
    after (.trgArm (cmdOf 63 0)) (trigDev 5 2) (fun d => decide (d.completions = [⟨0, 3, cBUSY, none⟩])) ∧
    after (.trgArm (cmdOf 63 0 (le [4, 0, 0, 0, 0, 0, 0, 0, 0, 0, 0, 0]))) (trigDev 5 0) (fun d =>
      decide (d.completions = [⟨0, 3, cLENGTH, none⟩])) := by decide +kernel
theorem test_trigger_disarm : (trigDev 5 2).hasReq [.trgArm, .trgDisarm] 63 = false ∧
    after (.trgTCtlDisarm 63) (trigDev 5 2) (fun d => d.hasReq [.trgDisarm] 63) ∧
    after (.trgDisarm (cmdOf 63 0 (le [9, 0]))) { trigDev 5 2 with breqs := [⟨.trgDisarm, 63, 0, 0, .host, []⟩] } (fun d =>
      decide (d.completions = [⟨0, 3, cBUSY, none⟩])) := by decide +kernel
theorem test_trigger_fire : (trigDev 5 2).tKind 63 = 5 ∧ (trigDev 5 2).routed 63 = false ∧
    after (.trgFire (cmdOf 63 0 (le [9, 0]))) (trigDev 5 2) (fun d => decide (d.firings.map (fun f => (f.unit, f.t)) = [(63, 1000)])) ∧
    after .trgSwCtlFire ((trigDev 5 1).setFld F.TRG_SW_CFG_UNIT 63) (fun d => decide (d.fld F.TRG_SW_STAT_CODE = cNOTARMED)) ∧
    after (.trgFire (cmdOf 63 0 (le [9, 0]))) (trigDev 4 2) (fun d => decide (d.completions = [⟨0, 3, cUNSUP, none⟩])) := by decide +kernel
theorem test_trigger_timer : sKind ((trigDev 4 2).tRegs 63) = 4 ∧ timeLE 0 (trigDev 4 2).time = true ∧
    after (.timerTriggerFire 63) (trigDev 4 2) (fun d => decide ((d.tunit 63).count = 1) && decide (d.firings.length = 1)) ∧
    after (.timerTriggerFire 63) ((trigDev 4 2).setTunit 63 { count := 11 }) (fun d => d.firings.isEmpty) ∧
    after (.timerTriggerFire 63) ((trigDev 4 2).wr (Reg.TRG_T_PARAM2 63) 1) (fun d => decide (d.tState 63 = 0)) := by decide +kernel
theorem test_sequence_expiry : sKind ((trigDev 6 2).tRegs 63) = 6 ∧ ((trigDev 6 2).tunit 63).inbox = [] ∧ sKind ((trigDev 5 2).tRegs 63) ≠ 6 := by
  decide +kernel
theorem test_trigger_release : (trigDev 5 2).firings = [] ∧
    after .triggerRelease (trigDev 5 2) (fun d => d.firings.isEmpty) = true := by decide +kernel

/-- Capture 63 of stream 7's deframer output: 4,096 bytes at 4,096, PRE 0, POST 1, bound to unit 0. -/
def capDev (st : Nat) : Device :=
  (devWith [(Reg.LNK_S_PNUM_CUR 7, 1), (Reg.LNK_S_PDEN_CUR 7, 1), (Reg.ACQ_B_BASE_LO 63, 4096), (Reg.ACQ_B_SIZE_LO 63, 4096),
    (Reg.ACQ_B_BIND_LO 63, 1), (Reg.ACQ_B_POST_LO 63, 1)]).setFld (F.ACQ_B_CFG_SOURCE 63) 7 |>.setFld (F.ACQ_B_STAT_STATE 63) st

theorem test_capture_arm : (capDev 0).acArmCode 63 = cOK ∧ ((capDev 0).wr (Reg.ACQ_B_BASE_LO 63) 4095).acArmCode 63 = cALIGN ∧
    ((capDev 0).wr (Reg.ACQ_B_SIZE_LO 63) 0).acArmCode 63 = cLENGTH ∧ (capDev 5).acArmCode 63 = cOK ∧
    after (.acqBCtlArm 63) (capDev 0) (fun d => decide (d.acState 63 = 1) && d.hasReq [.acqArm] 63) ∧
    after (.acqArm (cmdOf 63 0 (List.replicate 60 0))) (capDev 5) (fun d => decide (d.completions = [⟨0, 3, cLENGTH, none⟩])) ∧
    after (.acqArm (cmdOf 63 0 (List.replicate 60 0))) (capDev 2) (fun d => decide (d.completions = [⟨0, 3, cBUSY, none⟩])) := by
  decide +kernel
theorem test_capture_stop : (capDev 4).hasReq [.acqStop] 63 = false ∧ (capDev 4).acState 63 = 4 ∧
    after (.acqBCtlStop 63) (capDev 4) (fun d => d.hasReq [.acqStop] 63) ∧
    after (.acqStop (cmdOf 63 0 (le [0, 0]))) (capDev 1) (fun d => decide (d.completions = [⟨0, 3, cNOTARMED, none⟩])) ∧
    after (.acqBCtlDisarm 63) (capDev 5) (fun d => decide (d.acState 63 = 0)) ∧
    after (.acqDisarm (cmdOf 63 0)) (capDev 2) (fun d => decide (d.completions = [⟨0, 3, cBUSY, none⟩])) := by decide +kernel
theorem test_return_hold : after (.returnHoldExpire 63) { ((capDev 2).setFld (F.ACQ_B_STAT_FACTOR 63) 1).setCap 63 { lowSince := some 0 } with
      time := nsTime ((capDev 2).rdN Reg.ACQ_RETURN_HOLD) } (fun d => d.hasReq [.acqFactor] 63) = true := by decide +kernel
theorem test_capture_end : ((capDev 3).setCap 63 { lastJ := some 1, tape := [0, 0] }).acState 63 = 3 ∧
    after (.captureSpanEnd 63) ((capDev 3).setCap 63 { lastJ := some 1, tape := [0, 0] }) (fun d => !decide (d.acState 63 = 3)) ∧
    (capDev 3).isSet (F.ACQ_B_CFG_MODE 63) = false ∧
    after (.captureSpanEnd 63) ((capDev 3).setCap 63 { lastJ := some 1, tape := [0] }) (fun d => decide (d.acState 63 = 3)) ∧
    ((qDev []).setCap 63 { recs := [(5, [8]), (5, [])] }).qRoom 5 (slotsOf 1) = true ∧
    ((qDev [⟨0, 1, 0, true⟩, ⟨1, 1, 1, true⟩])).qRoom 5 (slotsOf 1) = false ∧
    after (.captureRecordPush 63) ((qDev []).setCap 63 { recs := [(5, [8]), (5, [])] }) (fun d =>
      decide ((d.cap 63).recs.length = 1) && decide ((d.queue 5).r = 1)) := by decide +kernel

theorem test_engine_commands : after (.engStart (cmdOf 511 7)) (devEng 511 { state := 3, code := 9 }) (fun d =>
      decide ((d.eng 511).pc = 7) && decide ((d.eng 511).state = 1) && decide (d.completions = [⟨0, 3, cOK, none⟩])) ∧
    after (.engStop (cmdOf 511 0)) (devEng 511 { state := 2 }) (fun d => decide ((d.eng 511).state = 0)) ∧
    after (.engSignal (cmdOf 511 6)) (devEng 511 { state := 1 }) (fun d => decide ((d.eng 511).evq = [evEntry 19 0 0 6])) ∧
    after (.engTimer (cmdOf 511 0 (le [9, 0]))) (devEng 511 { state := 4 }) (fun d => decide (d.completions = [⟨0, 3, cNOSPARE, none⟩])) ∧
    after (.engTimer (cmdOf 512 0 (le [9, 0]))) {} (fun d => decide (d.completions = [⟨0, 3, cUNSUP, none⟩])) ∧
    after (.engSignal (cmdOf 511 6)) {} (fun d => decide (d.completions = [⟨0, 3, cNOTARMED, none⟩])) ∧
    after (.clECtlStart 511) ((devEng 511 { state := 0, code := 7 }).wr (Reg.CL_E_ENTRY 31 15) 12) (fun d =>
      decide ((d.eng 511).pc = 12) && decide ((d.eng 511).code = 0)) ∧
    after (.clECtlStart 511) (devEng 511 { state := 1 }) (fun d => decide ((d.eng 511).code = cBUSY)) ∧
    after (.clECtlStop 511) (devEng 511 { state := 4 }) (fun d => decide ((d.eng 511).code = cNOSPARE)) := by decide +kernel
theorem test_timer_event : after (.engineTimerExpire 511) (devEng 511 { timer := some 0 }) (fun d => (d.eng 511).timerExp) ∧
    after (.engineTimerExpire 511) (devEng 511 { timer := some 1 }) (fun d => !(d.eng 511).timerExp) := by decide +kernel
theorem test_mailbox : after (.mbH2eWrWrite 31 32 true) {} (fun d => decide (d.rdN (Reg.MB_H2E_WR 31) = 32)) ∧
    after (.mbH2eWrWrite 31 33 true) {} (fun d => d.isSet (F.MB_FLAGS_OVERRUN 31)) ∧
    after (.mbH2eRdWrite 31 5 false) (devWith [(Reg.MB_H2E_WR 31, 5)]) (fun d => decide (d.rdN (Reg.MB_H2E_RD 31) = 5)) ∧
    after (.mbE2hWrWrite 31 1 false 500) ((devSet [(F.MB_CFG_VEC_EN 31, 1), (F.MB_CFG_VEC 31, 7)])) (fun d =>
      d.isSet ⟨Reg.MSIX_PBA 0, ⟨7, 1⟩⟩) ∧
    after (.mbE2hWrWrite 31 1 false 500) (devEng 500 { fs := [⟨0, [1], 0⟩] }) (fun d =>
      decide ((d.eng 500).fs.length = 2) && decide (d.rdN (Reg.MB_E2H_WR 31) = 0)) ∧
    after (.mbE2hRdWrite 31 1 true) (devWith [(Reg.MB_E2H_WR 31, 1)]) (fun d => decide (d.rdN (Reg.MB_E2H_RD 31) = 1)) ∧
    after (.mbE2hRdWrite 31 1 false) (devWith [(Reg.MB_E2H_WR 31, 1)]) (fun d => decide (d.rdN (Reg.MB_ERR_CNT 31) = 1)) := by decide +kernel


/-! Images, overlays, sleep, power and reset. -/

/-- An image of 256 bytes but for its CRC: one PROG section (a HALT at word 0 of cluster 0) and one overlay (a HALT at word 2); entry 9, anchor 5. -/
def imgBytes (crc : Nat) : List Byte :=
  le [0x474D4958, 1, 256, 0, 5, 9, 1, 64, 1, 128, 0, 0, 0, 0, 0, crc] ++ le ([1, 192, 4, 0] ++ List.replicate 12 0) ++
  le ([144, 24, 0, 0, 2, 8, 4, 0, 0x100000, 0] ++ List.replicate 6 0) ++ le (0x100000 :: List.replicate 15 0)

/-- Bytes placed in an empty memory. -/
def place (a : Nat) (bs : List Byte) : List Host.Cell := (((List.range bs.length).map (fun i => a + i)).zip bs).filter (fun c => decide (c.2 ≠ 0))

/-- A device in a state, with that image at 4,096. -/
def imgDev (st crc : Nat) : Device :=
  { (devSet [(F.SYS_STAT_STATE, st)]).wr64 Reg.SYS_IMG_BASE_LO 4096 with mem := place 4096 (imgBytes crc) }

/-- The CRC-32C of the image. -/
def imgCrc : Nat := crc32c (imgBytes 0)

theorem test_image_start : (imgDev 3 imgCrc).imgCode false = cOK ∧
    after .sysImgCtlStart (imgDev 5 imgCrc) (fun d => decide (d.fld F.SYS_IMG_STAT_CODE = cBUSY)) := by decide +kernel
theorem test_image_loaded : after .imageLoaded (imgDev 4 imgCrc) (fun d => decide (d.fld F.SYS_STAT_STATE = 5) && decide ((d.eng 0).state = 1) &&
      decide ((d.eng 0).pc = 9) && decide (d.progWord 0 0 = 0x100000) && decide (d.anchorCtx = some 5)) ∧
    after .imageLoaded (imgDev 5 imgCrc) (fun d => decide ((d.eng 0).state = 0)) := by decide +kernel
theorem test_restart : after .sysImgCtlRestart (imgDev 2 imgCrc) (fun d => decide (d.fld F.SYS_IMG_STAT_CODE = cBUSY)) ∧
    after (.sysRestart (cmdOf 0 0)) (imgDev 2 imgCrc) (fun d => decide (d.completions = [⟨0, 3, cBUSY, none⟩])) ∧
    (imgDev 7 imgCrc).canRestart = true ∧ bitAt (cmdOf 0 1).imm 0 = true := by decide +kernel
theorem test_flash_image : after .sysImgCtlFlash ((imgDev 3 0).setFld F.SYS_FLASH_CFG_PRESENT 1) (fun d => decide (d.sys.flash = some (0, false))) ∧
    after .sysImgCtlFlash (imgDev 4 0) (fun d => decide (d.fld F.SYS_IMG_STAT_CODE = cBUSY)) ∧
    bitAt (ofBytesLE (flashBytes ((imgBytes imgCrc).drop 12) 4)) 0 = false ∧
    after (.flashImageRead (imgBytes imgCrc) true) { imgDev 3 0 with sys := { flash := some (0, true) } } (fun d =>
      decide (d.sys.flash = some (1, true))) ∧
    after (.flashImageRead (imgBytes imgCrc) true) { imgDev 3 0 with sys := { flash := some (1, true) } } (fun d => d.sys.flash.isNone) := by
  decide +kernel
theorem test_flash_command : after (.sysFlashCmdGo (256 * 2 ^ 18)) (imgDev 3 0) (fun d => d.sys.cmd.isSome && decide (d.outbox.length = 1)) ∧
    after (.sysFlashCmdGo (257 * 2 ^ 18)) (imgDev 3 0) (fun d => decide (d.fld F.SYS_FLASH_STAT_CODE = cLENGTH)) ∧
    after (.flashCmdDone [1, 2]) { (imgDev 3 0).setFld F.SYS_FLASH_STAT_BUSY 1 with sys := { cmd := some 5 } } (fun d =>
      d.sys.cmd.isNone && !d.isSet F.SYS_FLASH_STAT_BUSY) := by decide +kernel
theorem test_overlay : (imgDev 5 imgCrc).ovlCode ⟨0, 0, .host⟩ ((imgDev 5 imgCrc).ovlRead 0) = cOK ∧ (imgDev 5 imgCrc).ovlCount 4096 = 1 ∧
    Device.ovlMeets { imgDev 4 imgCrc with sys := {} } 0 = false ∧
    after .sysOvlCtlGo (imgDev 5 imgCrc) (fun d => decide (d.sys.ovlReqs = [⟨0, 0, .host⟩]) && d.isSet F.SYS_OVL_CTL_GO) ∧
    after .sysOvlCtlGo { imgDev 5 imgCrc with sys := { ovlReqs := [⟨0, 0, .host⟩] } } (fun d => decide (d.fld F.SYS_OVL_STAT_CODE = cBUSY)) ∧
    after (.sysOverlay (cmdOf 0 0 (le [0, 0, 7, 0]))) (imgDev 5 imgCrc) (fun d => decide (d.sys.ovlReqs = [⟨0, 7, .port 0 3⟩])) ∧
    after .overlayStaged { imgDev 5 imgCrc with sys := { ovlReqs := [⟨0, 0, .host⟩] } } (fun d => decide (d.sys.ovls.length = 1) && d.sys.ovlReqs.isEmpty) ∧
    after .overlayStaged { imgDev 5 imgCrc with sys := { ovlReqs := [⟨0, 0, .host⟩], ovls := List.replicate 2 ⟨1, 9, 0, .host, [], []⟩ } }
      (fun d => decide (d.fld F.SYS_OVL_STAT_CODE = cBUSY)) ∧
    after .overlayStaged { imgDev 4 imgCrc with sys := { ovlReqs := [⟨0, 0, .host⟩] } } (fun d => decide (d.fld F.SYS_OVL_STAT_CODE = cNOTARMED)) := by
  decide +kernel

/-- A sleep of the three causes with its timer at 5. -/
def slp : SleepRec := ⟨.host, 7, 5, [], [], [], [], [], ⟨{}, []⟩, []⟩

/-- A device with that sleep in progress. -/
def slpDev (st : Nat) (asleep : Bool) (wake : Option Time) : Device :=
  { (devSet [(F.SYS_STAT_STATE, st)]) with time := 9, sys := { slp := some slp, asleep := asleep, wake := wake } }

theorem test_sleep_request : (imgDev 5 imgCrc).sleepCode 1 = cOK ∧ (imgDev 5 imgCrc).sleepCode 8 = cUNSUP ∧
    after .sysSleepCtlGo ((imgDev 5 imgCrc).wr Reg.SYS_SLEEP_CFG 1) (fun d => d.hasReq [.sleep] 0 && d.isSet F.SYS_SLEEP_STAT_PENDING) ∧
    after (.sysSleep (cmdOf 0 0 (le [1, 0, 7, 0, 8, 0]))) (imgDev 3 imgCrc) (fun d => decide (d.completions = [⟨0, 3, cNOTARMED, none⟩])) ∧
    after .sysSleepCtlGo ((imgDev 3 imgCrc).setFld F.SYS_SLEEP_STAT_PENDING 1) (fun d => decide (d.fld F.SYS_SLEEP_STAT_CODE = cNOTARMED)) := by decide +kernel
theorem test_wake : after .wakePin (slpDev 6 true none) (fun d => decide (d.sys.wake = some 9)) ∧
    after .wakeHostAccess (slpDev 6 false none) (fun d => d.sys.woken) ∧
    timeLE slp.wakeAt (slpDev 6 true none).time = true ∧ after .wakeTimer (slpDev 7 true none) (fun d => decide (d.sys.wake = some 9)) ∧
    after .wakeStart (slpDev 6 true (some 9)) (fun d => decide (d.fld F.SYS_STAT_STATE = 7)) ∧
    timeLE (resumeAt 9) (slpDev 7 true (some 9)).time = false ∧
    after .sleepEntryDone (slpDev 5 false none) (fun d => !d.sys.asleep) := by decide +kernel
theorem test_resume : timeLE (resumeAt 9) (Device.time { slpDev 7 true (some 9) with time := resumeAt 9 }) = true ∧
    (slpDev 7 true (some 9)).fld F.SYS_STAT_STATE = 7 := by decide +kernel

theorem test_power_reset : after (.powerUp 7) (imgDev 5 imgCrc) (fun d => d.pinLow && decide (d.sys.straps = 3) && d.mem.isEmpty) ∧
    after (.resetAssert true 10000 false) (imgDev 5 imgCrc) (fun d => decide (d.sys.low = [false, true]) && d.mem.isEmpty) ∧
    after (.resetAssert false 9999 false) (imgDev 5 imgCrc) (fun d => !d.pinLow) ∧
    after (.resetRelease true) { imgDev 0 0 with sys := { low := [true, true] } } (fun d => d.pinLow) ∧
    after (.resetRelease true) { imgDev 0 0 with sys := { low := [false, true] } } (fun d =>
      decide (d.fld F.SYS_STAT_STATE = 1) && d.isSet F.SYS_STAT_REF_WAIT) := by decide +kernel
theorem test_start_up : refFreq 100000000 = some (100000000, false) ∧ refFreq 1 = none ∧
    (devSet [(F.SYS_STAT_STATE, 1)]).pinLow = false ∧ (devSet [(F.SYS_STAT_STATE, 1), (F.CLK_STAT_REF_PRESENT, 1)]).locking = true ∧
    (devSet [(F.SYS_STAT_STATE, 1)]).locking = false ∧
    after (.refclkReady 100000000 true false) (devSet [(F.SYS_STAT_STATE, 1)]) (fun d => decide (d.roots.ref = 100000000) && d.isSet F.CLK_STAT_A_LOCK) ∧
    after (.refclkReady 1 true true) (devSet [(F.SYS_STAT_STATE, 1)]) (fun d => d.isSet F.SYS_STAT_REF_WAIT) ∧
    after (.refclkReady 100000000 true true) (devSet [(F.SYS_STAT_STATE, 1)]) (fun d => d.sys.started) ∧
    after .rootLockTimeout (devSet [(F.SYS_STAT_STATE, 1), (F.CLK_STAT_REF_PRESENT, 1), (F.CLK_STAT_A_LOCK, 0), (F.CLK_STAT_B_LOCK, 0)]) (fun d =>
      decide (d.fld F.SYS_STAT_STATE = 8)) ∧
    after .rootLockTimeout (devSet [(F.SYS_STAT_STATE, 1), (F.CLK_STAT_REF_PRESENT, 1), (F.CLK_STAT_A_LOCK, 0), (F.CLK_STAT_B_LOCK, 1)]) (fun d =>
      d.sys.started && decide (d.fld F.CLK_STAT_ACTIVE = 1)) := by decide +kernel
theorem test_training : after (.trainingDone [] true) (devSet [(F.SYS_STAT_STATE, 2)]) (fun d =>
      decide (d.fld F.SYS_STAT_STATE = 3) && d.isSet F.SYS_STAT_FLASH_TRIED && d.sys.flash.isSome) ∧
    after (.trainingDone [] true) (devSet [(F.SYS_STAT_STATE, 1)]) (fun d => decide (d.fld F.SYS_STAT_STATE = 1)) ∧
    (devSet [(F.SYS_STAT_STATE, 5)]).canRestart = true ∧ (devSet [(F.SYS_STAT_STATE, 1)]).canRestart = false := by decide +kernel
theorem test_post : (devSet [(F.SYS_STAT_STATE, 1)]).fld F.SYS_STAT_STATE = 1 ∧
    after (.postDone [] 0 false) (devSet [(F.SYS_STAT_STATE, 1)]) (fun d => decide (d.fld F.SYS_STAT_STATE = 1)) := by decide +kernel
theorem test_tap : after (.testAccessPortClock true false false true) {} (fun d => decide (d.tap.state = .testLogicReset)) ∧
    after (.testAccessPortClock false false false true) {} (fun d => decide (d.tap.state = .runTestIdle)) ∧
    after (.testAccessPortClock true true false true) { tap := { state := .shiftDr, drShift := [false, true] } } (fun d =>
      decide (d.tap.drShift = [true, true]) && decide (d.tap.state = .exit1Dr)) ∧
    after (.testAccessPortClock true true false false) { tap := { state := .shiftDr, drShift := [true] } } (fun d => decide (d.outbox = [.tdo true])) ∧
    after (.testAccessPortClock true true false false) { tap := { state := .updateIr, irShift := [false, true] } } (fun d => decide (d.tap.ir = 2)) := by
  decide +kernel
theorem test_rail : exec .railOutOfRange State.reset = .fault .railUndefined := by rfl
theorem test_rail_low : after .railOutOfRange { sys := { low := [true, false] }, time := 7 } (fun d => decide (d.time = 0) && d.pinLow) = true := by decide +kernel


/-! Queues, compression, memory and DMA. -/

/-- Queue 4095 with `recs` and positions, host consumer, enabled, two slots at 4,096. -/
def hostQueue (x : Queue) : Device :=
  (((devSet [(F.QUE_Q_STAT_ENABLED 4095, 1), (F.QUE_Q_CFG_HOST 4095, 1)]).wr (Reg.QUE_Q_SLOTS 4095) 64).wr64 (Reg.QUE_Q_BASE_LO 4095) 4096).setQueue
    4095 x

theorem test_record_complete : Queue.filling { r := 1, recs := [⟨0, 1, 7, false⟩] } = some ⟨0, 1, 7, false⟩ ∧ Queue.filling {} = none ∧
    ({} : Device).casRole = caNone ∧
    after (.recordComplete 4095) (hostQueue { r := 1, recs := [⟨0, 1, 7, false⟩] }) (fun d =>
      decide ((d.queue 4095).w = 1) && decide (d.rdN (Reg.QUE_Q_PEAK 4095) = 1)) ∧
    after (.recordComplete 5) ((qDev []).setQueue 5 { r := 1, recs := [⟨0, 1, 7, false⟩] }) (fun d => decide ((d.eng 0).evq = [evEntry 17 5 0 7])) := by
  decide +kernel
theorem test_slot_refill : (hostQueue { w := 1, r := 1 }).qOn 4095 = true ∧ Queue.chip { w := 1, r := 1 } 0 = none ∧
    after (.slotRefill 4095 0 true) { hostQueue { w := 1, r := 1 } with mem := [(4096, 9)] } (fun d =>
      (Queue.chip (d.queue 4095) 0).isSome && d.isSet F.QUE_FLAGS_POISON) ∧
    after (.slotRefill 4095 1 false) (hostQueue { w := 1, r := 1 }) (fun d => (Queue.chip (d.queue 4095) 1).isNone) := by decide +kernel
theorem test_queue_window : (hostQueue {}).zReads 4095 = false ∧ (hostQueue {}).forwards 4095 = false ∧
    after (.qwCtlAdvance 4095) (hostQueue { w := 1, r := 1, recs := [⟨0, 1, 7, true⟩] }) (fun d => decide ((d.queue 4095).rd = 1)) ∧
    after (.qwCtlAdvance 4095) (hostQueue { view := 9 }) (fun d => decide ((d.queue 4095).view = 0)) ∧
    after (.qwCtlMark 4095) (hostQueue { w := 2, rd := 1 }) (fun d => decide ((d.queue 4095).m = 1)) ∧
    after (.qwCtlRewind 4095) (hostQueue { w := 2, rd := 2, m := 1 }) (fun d => decide ((d.queue 4095).rd = 1)) ∧
    after (.qwCtlRelease 4095) (hostQueue { w := 2, rd := 2, r := 2 }) (fun d => decide ((d.queue 4095).f = 2)) ∧
    after (.qwCtlRelease 5) (qDev []) (fun d => d.isSet F.SYS_FLAGS_BAD_ACCESS) := by decide +kernel
theorem test_queue_arm : after (.queQIrqArm 4095 63) (hostQueue {}) (fun d => decide (d.fld (F.QUE_Q_IRQ_VEC 4095) = 63)) ∧
    after (.queQIrqArm 4095 63) ((hostQueue { w := 1, r := 1, recs := [⟨0, 1, 7, true⟩] }).wr (Reg.QUE_Q_THRESH 4095) 1) (fun d =>
      !d.isSet (F.QUE_Q_IRQ_ARM 4095) && d.isSet ⟨Reg.MSIX_PBA 1, ⟨31, 1⟩⟩) ∧
    after (.queQIrqArm 4095 63) ((hostQueue {}).wr (Reg.QUE_Q_THRESH 4095) 1) (fun d => d.isSet (F.QUE_Q_IRQ_ARM 4095)) := by decide +kernel
theorem test_queue_enable : after (.queEnable (cmdOf 4095 0 (List.replicate 16 0))) (hostQueue {}) (fun d => decide (d.completions = [⟨0, 3, cBUSY, none⟩])) ∧
    after (.queDisable (cmdOf 4095 0)) (hostQueue { w := 1 }) (fun d => decide ((d.queue 4095).w = 0) && !d.qOn 4095) ∧
    after (.queQCtlDisable 4095) (hostQueue { w := 1 }) (fun d => decide ((d.queue 4095).w = 0) && !d.qOn 4095) ∧
    after (.queQCtlDisable 0) (hostQueue {}) (fun d => d.qOn 4095) := by decide +kernel

/-- A compression job of one compressor on 4,096 bytes at 0, its extent at 1 MiB, and a record queue 5. -/
def zDesc : List Byte := le [0x10100, 5 * 65536, 0, 0, 4096, 0, 0x100000, 0, 65570, 0, 0]
/-- A decompression job of 31 bytes at 0 into 16 bytes at 4,096. -/
def uDesc : List Byte := le [0, 0, 0, 0, 31, 0, 4096, 0, 16, 0]
/-- A frame of the byte 7, stored. -/
def storedFrame : List Byte := (le [0x314B465A, 0x301, 6, 0] ++ [1, 1, 0, 0xFE, 0xFF, 7] ++ bytesLE 4 (crc32c [7]) ++ bytesLE 4 1)
/-- Compressor 31 at state `st` with a job. -/
def zDev (st : Nat) (j : ZJob) : Device := ((qDev []).setFld (F.CMP_Z_STAT_STATE 31) st).setZjob 31 (some j)
/-- Decompressor 7 running a job on that frame. -/
def uDev (k : UJob) : Device := { ((devSet [(F.CMP_U_STAT_STATE 7, 1)]).setUjob 7 (some k)) with mem := place 0 storedFrame }

theorem test_compress_submit : (qDev []).zCode 31 zDesc = cOK ∧ zGroup zDesc = 1 ∧ (qDev []).zCode 31 [] ≠ cOK ∧
    after (.cmpSubmit (cmdOf 31 0 zDesc)) (qDev []) (fun d => decide (d.zState 31 = 1) && (d.zjob 31).isSome) ∧
    after (.cmpZCtlGo 31) (qDev []) (fun d => decide (d.fld (F.CMP_Z_STAT_CODE 31) = cLENGTH)) := by decide +kernel
theorem test_compress_cont : after (.cmpCont (cmdOf 31 0 (le [0x200000, 0, 65570, 0]))) (zDev 1 { desc := zDesc, ext := 0x100000, extLen := 65570 }) (fun d =>
      d.isSet (F.CMP_Z_STAT_PENDING_EXT 31) && decide ((d.zjob 31).map (fun j => j.pend) = some (some (0x200000, 65570)))) ∧
    after (.cmpCont (cmdOf 31 0 (le [0x200000, 0, 65570, 0]))) (zDev 2 { desc := zDesc, ext := 0x100000, extLen := 65570 }) (fun d => decide (d.zState 31 = 1)) ∧
    after (.cmpCont (cmdOf 31 0 (le [0x200000, 0, 65569, 0]))) (zDev 1 { desc := zDesc }) (fun d => decide (d.completions = [⟨0, 3, cLENGTH, none⟩])) ∧
    after (.cmpZCtlCont 31) (qDev []) (fun d => decide (d.fld (F.CMP_Z_STAT_CODE 31) ≠ cOK)) := by decide +kernel
theorem test_compress_end : zLevel zDesc = 0 ∧ zLevel (le [0x10110]) = 1 ∧
    after (.cmpEnd (cmdOf 31 0)) (qDev []) (fun d => decide (d.completions = [⟨0, 3, cNOTARMED, none⟩])) ∧
    after (.cmpZCtlEnd 31) (zDev 2 { desc := zDesc }) (fun d => decide ((d.zjob 31).map (fun j => j.inEnd) = some true)) ∧
    after (.cmpEnd (cmdOf 31 0)) (zDev 1 { desc := zDesc }) (fun d => decide (d.zState 31 = 3)) := by decide +kernel
theorem test_decompress : (qDev []).uCode 7 uDesc = cOK ∧ uKind uDesc = 0 ∧ (qDev []).uCode 7 [] ≠ cOK ∧
    after (.cmpDsubmit (cmdOf 7 0 uDesc)) {} (fun d => decide (d.uState 7 = 1)) ∧
    after (.cmpUCtlGo 7) {} (fun d => decide (d.fld (F.CMP_U_STAT_CODE 7) = cLENGTH)) ∧
    after (.cmpUCtlEnd 7) {} (fun d => decide (d.fld (F.CMP_U_STAT_CODE 7) = cNOTARMED)) ∧
    after (.cmpDend (cmdOf 7 0)) (uDev { desc := uDesc }) (fun d => decide (d.uState 7 = 3)) := by decide +kernel
theorem test_decompress_frame : (readFrame storedFrame).toOption = some (30, [7]) ∧
    after (.decompressFrameDone 7) (uDev { desc := uDesc }) (fun d => decide (memGet d.mem 4096 = 7) &&
      decide ((d.ujob 7).map (fun k => k.pos) = some 30) && decide (d.rd64 (Reg.CMP_U_OUT_DONE_LO 7) = 1)) := by decide +kernel
theorem test_compress_frame : zKind zDesc = 0 ∧ (qDev []).poisoned 0 4096 = false ∧
    (after (.compressFrameDone 31 false) (zDev 2 { desc := zDesc }) fun d => decide (d.zState 31 = 2)) := by decide +kernel
/-- A full open frame. -/
theorem test_full_frame (l : List Byte) (h : l.length = 65536) :
    65536 ≤ ((qDev []).zPull { desc := zDesc, opened := l }).1.opened.length := by
  have k : zKind zDesc = 0 := by decide +kernel
  simp only [Device.zPull, Device.zBad, k, if_true]
  split <;> simp_all
  split <;> simp_all
/-- A QUEUE job on an empty queue with a flush time. -/
theorem test_flush : zKind (le [0x101, 5, 0, 0, 0, 0, 0x100000, 0, 65570, 9]) = 1 ∧ zFlush (le [0x101, 5, 0, 0, 0, 0, 0x100000, 0, 65570, 9]) = 9 ∧
    ((qDev []).queue 5).next = none ∧ timeLE ((0 : Time) + nsTime 9) (nsTime 9) = true := by decide +kernel
theorem test_compressed_record : after (.compressedRecordPush 31) (zDev 1 { desc := zDesc, recs := [[8]] }) (fun d =>
      decide ((d.queue 5).r = 1) && decide ((d.zjob 31).map (fun j => j.recs) = some [])) = true := by decide +kernel

/-- A serving memory with a hot word, a poisoned word and a row under soft repair. -/
def memDev : Device := { (devSet [(F.MEM_STAT_STATE, 2)]) with poison := [1], memc := { hot := [2], repair := some (7, .port 0 3) } }

theorem test_memory_reads : memDev.fld F.MEM_STAT_STATE = 2 ∧ Config.memSize - 32 < Config.memSize ∧
    after (.memReadComplete 32 2 0 0) memDev (fun d => decide (d.rdN Reg.MEM_POISON_READ_CNT = 1)) ∧
    after (.memReadComplete 64 42 0 0) memDev (fun d => d.memc.hot.isEmpty && decide (d.rdN Reg.MEM_POISON_READ_CNT = 0)) ∧
    after (.memReadComplete 96 42 1 0) (memDev.setFld F.MEM_REPAIR_CFG_CE_THRESH 0) (fun d => decide (d.rdN Reg.MEM_CE_CNT = 1)) ∧
    after (.memReadComplete 96 3 2 0) memDev (fun d => decide (d.poison = [1, 3]) && d.isSet F.MEM_FLAGS_UE) ∧
    after (.memReadComplete 96 43 2 0) memDev (fun d => decide (d.poison = [1])) := by decide +kernel
theorem test_scrub : after (.scrubRead 0 0) (((memDev.setFld F.MEM_SCRUB_CFG_EN 1).wr64 Reg.MEM_SCRUB_POS_LO (Config.memSize - 32))) (fun d =>
      decide (d.rd64 Reg.MEM_SCRUB_POS_LO = 0)) ∧
    after (.scrubRead 0 0) (((memDev.setFld F.MEM_SCRUB_CFG_EN 1).wr64 Reg.MEM_SCRUB_POS_LO 32)) (fun d =>
      decide (d.rd64 Reg.MEM_SCRUB_POS_LO = 64)) ∧
    after (.scrubRead 0 0) { memDev with memc := { scrub := some (32, 96, .port 0 3) } } (fun d => decide (d.memc.scrub = some (64, 96, .port 0 3))) ∧
    after (.scrubRead 0 0) { memDev with memc := { scrub := some (64, 96, .port 0 3) } } (fun d => decide (d.completions = [⟨0, 3, cOK, none⟩])) ∧
    after (.memScrub (cmdOf 0 0 (le [64, 0, 32, 0]))) memDev (fun d => decide (d.memc.scrub = some (64, 96, .port 0 3))) ∧
    after (.memScrub (cmdOf 0 0 (le [64, 0, 0, 0]))) memDev (fun d => decide (d.completions = [⟨0, 3, cLENGTH, none⟩])) ∧
    after (.memScrub (cmdOf 0 0 (le [65, 0, 32, 0]))) memDev (fun d => decide (d.completions = [⟨0, 3, cALIGN, none⟩])) := by decide +kernel
theorem test_repair : ({} : Device).repairCode 4096 true false = cOK ∧ ({} : Device).repairCode 4096 true true = cUNSUP ∧
    after (.memRepairCtlSoft false) (({} : Device).wr Reg.MEM_REPAIR_ADDR_LO 4096) (fun d => d.memc.repair.isSome && d.isSet F.MEM_REPAIR_STAT_BUSY) ∧
    after (.memRepairCtlHard false) (({} : Device).wr Reg.MEM_REPAIR_ADDR_LO 4096) (fun d => decide (d.fld F.MEM_REPAIR_STAT_PENDING = 1)) ∧
    after (.memRepairCtlHard true) {} (fun d => decide (d.fld F.MEM_REPAIR_STAT_CODE = cUNSUP)) ∧
    after (.memRepair (cmdOf 0 0 (le [4096, 0, 1, 0]))) {} (fun d => d.memc.repair.isSome) ∧
    after (.memRepair (cmdOf 0 0 (le [4096, 0, 2, 0]))) {} (fun d => decide (d.memc.pend.length = 1)) ∧
    after .softRepairDone memDev (fun d => decide (d.memc.soft = [7]) && decide (d.completions = [⟨0, 3, cOK, none⟩])) ∧
    after (.phyTrackingUpdate 63 0) memDev (fun d => decide (d.fld F.MEM_STAT_STATE = 2)) := by decide +kernel

/-- Region 255 of device memory (16 KiB at DMA address 0 and at device address 8,192), readable and writable, not yet installed; channel 63's
ring of one descriptor at its start. -/
def rgnDev : Device :=
  devWith [(Reg.DMA_R_CFG 255, 0x18), (Reg.DMA_R_SIZE_LO 255, 16384), (Reg.DMA_R_TBASE_LO 255, 8192), (Reg.DMA_C_RING_SIZE 63, 1)]

/-- The region installed, and channel 63 enabled with TAIL 1. -/
def dmaDev : Device :=
  { ((rgnDev.setFld (F.DMA_R_CFG_VALID 255) 1).setFld (F.DMA_C_CFG_EN 63) 1).wr (Reg.DMA_C_TAIL 63) 1 with
    regions := [(255, rgnDev.rgnRegs 255)] }

theorem test_regions : rgnDev.rgnCode 255 = cOK ∧ ({} : Device).rgnCode 255 = cLENGTH ∧ dmaDev.rgnUsed 255 = true ∧ rgnDev.rgnUsed 255 = false ∧
    after (.dmaRgnCtlSet 255) rgnDev (fun d => d.rgnValid 255 && decide (d.rgnSet 255 = rgnDev.rgnRegs 255)) ∧
    after (.dmaRgnCtlClear 255) dmaDev (fun d => d.rgnValid 255 && decide (d.fld F.DMA_RGN_STAT_CODE = cBUSY)) ∧
    after (.dmaRgnCtlClear 255) (dmaDev.setFld (F.DMA_C_CFG_EN 63) 0) (fun d => !d.rgnValid 255) := by decide +kernel
theorem test_channel : (dmaDev.setFld (F.DMA_C_CFG_EN 63) 0).dmaCode 63 = cOK ∧ rgnDev.dmaCode 63 = cREGION ∧ dmaDev.dmaOn 63 = true ∧
    dmaDev.dma 63 = none ∧
    after (.dmaCCfgEnable 63 1) (dmaDev.setFld (F.DMA_C_CFG_EN 63) 0) (fun d => d.dmaOn 63 && decide (d.rdN (Reg.DMA_C_TAIL 63) = 0)) ∧
    after (.dmaCCfgDisable 63 0 0) dmaDev (fun d => decide (d.freeCount = 3)) ∧
    after (.dmaEnable (cmdOf 63 0 (List.replicate 20 0))) dmaDev (fun d => decide (d.completions = [⟨0, 3, cBUSY, none⟩])) ∧
    after (.dmaDisable (cmdOf 63 0) 0) rgnDev (fun d => decide (d.completions = [⟨0, 3, cOK, none⟩])) := by decide +kernel
theorem test_doorbell : after (.dmaCTailWrite 63 1) (dmaDev.wr (Reg.DMA_C_TAIL 63) 0) (fun d => decide (d.dmaTail 63 = 1)) ∧
    after (.dmaCTailWrite 63 2) dmaDev (fun d => decide (d.dmaTail 63 = 1) && decide (d.rdN Reg.DMA_DB_ERR_CNT = 1)) ∧
    after (.dmaCTailWrite 62 0) dmaDev (fun d => d.isSet F.SYS_FLAGS_BAD_ACCESS) ∧
    after (.dmaDoorbell (cmdOf 63 1)) dmaDev (fun d => decide (d.completions = [⟨0, 3, cOK, none⟩])) ∧
    after (.dmaDoorbell (cmdOf 63 2)) dmaDev (fun d => decide (d.completions = [⟨0, 3, cLENGTH, none⟩])) ∧
    after (.dmaDoorbell (cmdOf 62 0)) dmaDev (fun d => decide (d.completions = [⟨0, 3, cNOTARMED, none⟩])) ∧
    after (.dmaCCtlResume 63) (dmaDev.setFld (F.DMA_C_STAT_STATE 63) 3) (fun d => decide (d.fld (F.DMA_C_STAT_STATE 63) = 2)) := by decide +kernel

/-- A FILL of 16 bytes of 5 at 8,192 + 256 with a one-byte pattern, and a COPY of 4 bytes. -/
def fillDesc : List Byte := le [2, 16, 0, 0, 256, 0, 5, 0, 1, 77, 0, 0, 0, 0, 0, 0]
def copyDesc : List Byte := le [1, 4, 512, 0, 256, 0, 0, 0, 0, 77, 0, 0, 0, 0, 0, 0]

theorem test_descriptor_fetch : dmaDev.dmaReady 63 = true ∧ dmaDev.rgnMap (dmaDev.ringAt 63 (dmaDev.dmaHead 63)) = .dev 8192 ∧
    after (.descriptorFetch 63) { dmaDev with mem := place 8192 fillDesc } (fun d => decide ((d.dma 63).map (fun j => j.desc) = some fillDesc)) ∧
    rgnDev.dmaReady 63 = false ∧ after (.descriptorComplete 63) dmaDev (fun d => decide (d.dmaHead 63 = 0)) := by decide +kernel
theorem test_fill : after (.descriptorComplete 63) (dmaDev.setDma 63 (some { desc := fillDesc, dst := .dev 8448 })) (fun d =>
      decide (memLE d.mem 8448 2 = 0x505) && decide (memGet d.mem 8464 = 0) && decide (d.dmaHead 63 = 1) && decide (memLE d.mem 8244 4 = 77)) = true := by
  decide +kernel
theorem test_copy : after (.descriptorComplete 63) { dmaDev.setDma 63 (some { desc := copyDesc, src := .dev 8704, dst := .dev 8448 }) with
      mem := [(8705, 9)] } (fun d => decide (memLE d.mem 8448 4 = 0x900)) = true := by decide +kernel
theorem test_refused_descriptor : after (.descriptorComplete 63) (dmaDev.setDma 63 (some { desc := fillDesc, code := 4 })) (fun d =>
      decide (d.fld (F.DMA_C_STAT_STATE 63) = 3) && decide (d.rdN Reg.DMA_ERR_CNT = 1)) = true := by decide +kernel
theorem test_host_answer : after (.hostReadCompletion 63 false 2 []) (dmaDev.setDma 63 (some { fetching := true })) (fun d =>
      decide ((d.dma 63).map (fun j => j.hostErr) = some true)) ∧
    after (.hostReadCompletion 63 false 0 fillDesc) (dmaDev.setDma 63 (some { fetching := true })) (fun d =>
      decide ((d.dma 63).map (fun j => j.desc) = some fillDesc)) ∧
    after (.hostReadCompletion 63 false 0 [1, 2]) (dmaDev.setDma 63 (some { desc := copyDesc, src := .host 0, dst := .dev 8448 })) (fun d =>
      decide (memLE d.mem 8448 2 = 0x201) && decide ((d.dma 63).map (fun j => j.wrote) = some 2)) ∧
    after (.completionTimeout 63) (dmaDev.setDma 63 (some { fetching := true })) (fun d => d.isSet F.HIF_FLAGS_CPL_TIMEOUT) := by decide +kernel
theorem test_link : after .linkRetrain { linkDown := false } (fun d => d.linkDown && d.isSet F.HIF_FLAGS_RETRAIN) ∧
    after (.pcieLinkTrained 5 16 true) {} (fun d => !d.linkDown && decide (d.fld F.HIF_LINK_STAT_SPEED = 5)) ∧
    after (.tlpError 0 0 []) {} (fun d => decide (d.rdN Reg.HIF_COR_CNT = 1)) ∧ after (.tlpError 3 0 []) {} (fun d => decide (d.rdN Reg.HIF_UNCOR_CNT = 1)) ∧
    after (.tlpError 2 64 [9]) (devSet [(F.SYS_STAT_STATE, 3)]) (fun d => decide (memGet d.mem 64 = 9) && decide (d.poison = [2])) ∧
    after (.tlpError 2 Config.memSize [9]) (devSet [(F.SYS_STAT_STATE, 3)]) (fun d => d.isSet F.SYS_FLAGS_BAD_ACCESS) ∧
    after (.powerStateChange true) {} (fun d => d.d3hot) ∧ after (.configurationRequest 11 0) {} (fun d => decide (d.cfgOf 11 = 0)) := by decide +kernel


/-! Clock roots, outputs, device time, event inputs and monitors. -/

/-- Root A active and root B a READY standby, both locked to a present reference. -/
def rootDev : Device :=
  devSet [(F.CLK_STAT_REF_PRESENT, 1), (F.CLK_STAT_A_LOCK, 1), (F.CLK_STAT_B_LOCK, 1), (F.CLK_STAT_STANDBY_READY, 1),
    (F.ROT_U_STAT_STATE 778, 4), (F.ROT_U_STAT_STATE 779, 1), (F.SYS_STAT_STATE, 5)]
/-- The same, started. -/
def rootOn : Device := { rootDev with sys := { started := true } }

theorem test_reference : after .refclkLost (rootDev.setFld (F.CKO_STAT_RUNNING 7) 1 |>.setFld (F.CKO_CFG_SRC 7) 1) (fun d =>
      !d.isSet F.CLK_STAT_REF_PRESENT && d.isSet (F.CKO_STAT_STALLED 7)) ∧
    after .refclkLost {} (fun d => decide (d.rdN Reg.CLK_REF_LOST_CNT = 0)) ∧
    after .refclkPresent { ({} : Device) with sys := { started := true } } (fun d => d.isSet F.CLK_STAT_REF_PRESENT) ∧
    after .refclkPresent {} (fun d => !d.isSet F.CLK_STAT_REF_PRESENT) := by decide +kernel
theorem test_root_lock : rootOn.isSet F.CLK_STAT_HOLDOVER = false ∧ 1 - rootOn.fld F.CLK_STAT_ACTIVE = 1 ∧ rootOn.fld F.CLK_CHANGE_STAT_STATE = 0 ∧
    after (.rootLock 1) (rootOn.setFld F.CLK_STAT_STANDBY_READY 0) (fun d => d.isSet F.CLK_STAT_STANDBY_READY) ∧
    after (.rootLock 1) { rootOn.setFld F.CLK_STAT_HOLDOVER 1 with time := 9 } (fun d => decide (d.roots.takeover = some (1, 9))) ∧
    after (.rootLock 2) rootOn (fun d => d.isSet F.CLK_STAT_STANDBY_READY) ∧ rootOn.puState 778 ≠ 5 ∧ rootOn.rotStepOf 8 = none := by decide +kernel
theorem test_root_lock_lost : after (.rootLockLost 0) rootOn (fun d => decide (d.fld F.CLK_STAT_ACTIVE = 1) && decide (d.rdN Reg.CLK_FAILOVER_CNT = 1)) ∧
    after (.rootLockLost 0) (rootOn.setFld F.CLK_STAT_STANDBY_READY 0) (fun d => d.isSet F.CLK_STAT_HOLDOVER) ∧
    after (.rootLockLost 0) (rootOn.setFld F.CLK_STAT_HOLDOVER 1) (fun d => decide (d.fld F.CLK_STAT_ACTIVE = 0)) ∧
    after (.rootLockLost 1) rootOn (fun d => !d.isSet F.CLK_STAT_STANDBY_READY) ∧
    after (.rootLockLost 1) (rootOn.setFld (F.ROT_U_STAT_STATE 779) 5) (fun d => decide (d.rdN Reg.CLK_LOCK_LOST_CNT = 1)) ∧
    after (.rootLockLost 0) {} (fun d => decide (d.rdN Reg.CLK_LOCK_LOST_CNT = 0)) := by decide +kernel
theorem test_root_relock : after (.rootRelockTimeout 1) (rootOn.setFld F.CLK_STAT_B_LOCK 0) (fun d => decide (d.roots.fails = 1)) ∧
    after (.rootRelockTimeout 1) { rootOn.setFld F.CLK_STAT_B_LOCK 0 with roots := { fails := 2 } } (fun d => decide (d.puState 779 = 5)) ∧
    after (.rootRelockTimeout 1) rootOn (fun d => decide (d.roots.fails = 0)) := by decide +kernel
theorem test_clock_change : rootOn.changeCode 0x4B0001 0 = cUNSUP ∧ (devSet []).changeCode 0x500001 0 ≠ cOK ∧
    (rootOn.wr (Reg.CLK_BAND0 1) (7000 + 8100 * 2 ^ 16 + 2 ^ 31)).changeCode 0x4B0001 0 = cOK ∧
    after .clkChangeCtlGo ((rootOn.wr (Reg.CLK_BAND0 1) (7000 + 8100 * 2 ^ 16 + 2 ^ 31)).wr Reg.CLK_NEXT_CFG 0x4B0001) (fun d =>
      decide (d.fld F.CLK_CHANGE_STAT_STATE = 1) && d.isSet F.CLK_CHANGE_CTL_GO && decide (d.roots.nCfg = 0x4B0001)) ∧
    after (.clkChange (cmdOf 0 0 (le [0, 0, 0, 0, 0, 0]))) rootOn (fun d => decide (d.completions = [⟨0, 3, cUNSUP, none⟩])) := by decide +kernel
theorem test_clock_change_steps : after .changeRetuned (rootOn.setFld F.CLK_CHANGE_STAT_STATE 1) (fun d => d.hasReq [.clkSwitch] 0) ∧
    after .changeLockTimeout (rootOn.setFld F.CLK_CHANGE_STAT_STATE 1) (fun d => decide (d.fld F.CLK_CHANGE_STAT_CODE = cCONDITIONS)) ∧
    after .changeRetuned rootOn (fun d => d.breqs.isEmpty) ∧ after .changeSettled rootOn (fun d => decide (d.fld F.CLK_CHANGE_STAT_STATE = 0)) ∧
    after .changeSettled { rootOn.setFld F.CLK_CHANGE_STAT_STATE 3 with roots := { origin := some (.port 0 3), stamp := 7 } } (fun d =>
      decide (d.completions = [⟨0, 3, cOK, some 7⟩]) && decide (d.fld F.CLK_CHANGE_STAT_STATE = 0)) := by decide +kernel
theorem test_probe : after (.clkProbeGo 255) rootOn (fun d => d.roots.probe && decide (d.fld F.CLK_PROBE_CODE = 255)) ∧
    after (.clkProbeGo 255) (rootOn.setFld F.CLK_STAT_STANDBY_READY 0) (fun d => !d.roots.probe) ∧
    after (.probeDone 7000) { rootOn with roots := { probe := true } } (fun d => d.isSet F.CLK_PROBE_RESULT_VALID && !d.roots.probe) ∧
    after (.probeDone 7000) rootOn (fun d => !d.isSet F.CLK_PROBE_RESULT_VALID) := by decide +kernel

/-- Output 7 from the reference divided by 250, with its instant at 5. -/
def ckoDev : Device := (({ rootOn with roots := { ref := 100000000 } }.wr (Reg.CKO_DIV 7) 250).setFld (F.CKO_CFG_SRC 7) 1).wr64 (Reg.CKO_AT_LO 7) 5

theorem test_output_start : ckoDev.ckoCode 7 = cUNSUP ∧ (ckoDev.wr (Reg.CKO_DIV 7) 100).ckoCode 7 = cOK ∧
    (rootOn.ckoCode 7 = cLENGTH) ∧ (ckoDev.setFld (F.CKO_STAT_RUNNING 7) 1).ckoCode 7 = cBUSY ∧
    after (.ckoCtlStart 7) (ckoDev.wr (Reg.CKO_DIV 7) 100) (fun d => d.isSet (F.CKO_STAT_PENDING 7) && d.isSet (F.CKO_CTL_START 7) && d.hasReq [.ckoStart] 7) ∧
    after (.ckoCtlStop 7) (ckoDev.setFld (F.CKO_STAT_PENDING 7) 1) (fun d => decide (d.fld (F.CKO_STAT_CODE 7) = cBUSY)) ∧
    after (.clkOutputStart (cmdOf 7 1 (le [5, 0]))) ckoDev (fun d => decide (d.completions = [⟨0, 3, cUNSUP, none⟩])) ∧
    after (.clkOutputStop (cmdOf 7 2 (le [5, 0]))) ckoDev (fun d => d.hasReq [.ckoStop] 7) ∧
    after (.clkOutputStop (cmdOf 7 0 (le [5, 0]))) ckoDev (fun d => !d.hasReq [.ckoStop] 7 && decide (d.completions = [⟨0, 3, cOK, none⟩])) := by decide +kernel
theorem test_setref : (cmdOf 0 0 (le [500000])).word 0 % 2 ^ 20 = 500000 ∧
    after (.calSetref (cmdOf 0 0 (le [900000]))) {} (fun d => decide (d.rdN Reg.CAL_REF_UV = 900000)) ∧
    after (.calSetref (cmdOf 0 0 (le [900001]))) {} (fun d => decide (d.completions = [⟨0, 3, cLENGTH, none⟩])) ∧
    after (.calSetref (cmdOf 0 0 (le [499999]))) {} (fun d => decide (d.completions = [⟨0, 3, cLENGTH, none⟩])) := by decide +kernel
theorem test_outcal : after (.calOutcal (cmdOf 7 0)) ckoDev (fun d => decide ((d.cko 7).cal = some (.port 0 3))) ∧
    after (.calOutcal (cmdOf 7 0)) {} (fun d => decide (d.completions = [⟨0, 3, cREFLOST, none⟩])) ∧
    after (.calOutcal (cmdOf 7 0)) (ckoDev.setFld (F.CKO_STAT_RUNNING 7) 1) (fun d => decide (d.completions = [⟨0, 3, cBUSY, none⟩])) ∧
    after (.outputCalDone 7 65535 0) (ckoDev.setCko 7 { cal := some (.port 0 3) }) (fun d =>
      decide (d.rdN (Reg.CAL_I_SEL 63) = 65535) && decide (d.completions = [⟨0, 3, cOK, none⟩])) ∧
    after (.outputCalDone 7 1 0) (Device.setCko {} 7 { cal := some (.port 0 3) }) (fun d => decide (d.completions = [⟨0, 3, cREFLOST, none⟩])) ∧
    after (.outputCalDone 7 1 0) ((Device.setCko {} 7 { cal := some (.port 0 3) }).setFld F.SYS_STAT_STATE 6) (fun d => d.completions.isEmpty) ∧
    after (.outputCalDone 8 1 0) ckoDev (fun d => decide (d.rdN (Reg.CAL_I_COUNT 63) = 0)) := by decide +kernel

theorem test_time_set : Device.setBusy {} = false ∧ (devSet [(F.LNK_S_STAT_STATE 7, 1)]).setBusy = true ∧
    (devSet [(F.CAS_STAT_ROLE, 1)]).setBusy = true ∧ startDev.evins = [] ∧ startDev.syncLeft = [] ∧ startDev.monSync = [] ∧
    startDev.isSet F.CAS_STAT_SLEWING = false ∧
    after .evtSetCtlGo ((({} : Device).wr64 Reg.EVT_SET_LO (2 ^ 63)).wr Reg.EVT_SET_EPOCH 65535) (fun d =>
      decide (d.setReq = some (BitVec.ofNat 64 (2 ^ 63), 65535, .host)) && d.isSet F.EVT_SET_CTL_GO) ∧
    after (.evtSet (cmdOf 0 0 (le [4, 0, 2, 0]))) {} (fun d => decide (d.setReq = some (4, 2, .port 0 3))) ∧
    after (.evtSet (cmdOf 0 0)) (devSet [(F.LNK_S_STAT_STATE 7, 1)]) (fun d => decide (d.completions = [⟨0, 3, cBUSY, none⟩])) := by decide +kernel

/-- Statistics unit 7 over inputs 15 and 15, consecutive intervals, two of them. -/
def statDev : Device :=
  (devSet [(F.EVT_I_STAT_ENABLED 15, 1), (F.EVT_S_CFG_START 7, 15), (F.EVT_S_CFG_STOP 7, 15), (F.EVT_S_CFG_PAIR 7, 2)]).wr (Reg.EVT_S_N 7) 2
/-- Its parameter block. -/
def statBlock : List Byte := le [statDev.rdN (Reg.EVT_S_CFG 7), 2, 0, 0, 8, 0]

theorem test_statistics : statDev.stArmCode 7 = cOK ∧ (devSet []).stArmCode 7 = cLENGTH ∧ (statDev.setFld (F.EVT_S_STAT_STATE 7) 2).stArmCode 7 = cBUSY ∧
    after (.evtSCtlArm 7) statDev (fun d => decide (d.fld (F.EVT_S_STAT_STATE 7) = 1) && d.hasReq [.statArm] 7) ∧
    after (.evtSCtlStop 7) statDev (fun d => decide (d.fld (F.EVT_S_STAT_CODE 7) = cNOTARMED)) ∧
    after (.evtArm (cmdOf 7 0 statBlock)) (devSet [(F.EVT_I_STAT_ENABLED 15, 1)]) (fun d => decide (d.fld (F.EVT_S_STAT_STATE 7) = 1)) ∧
    after (.evtArm (cmdOf 7 0 statBlock)) (statDev.setFld (F.EVT_S_STAT_STATE 7) 2) (fun d => decide (d.completions = [⟨0, 3, cBUSY, none⟩])) ∧
    after (.evtArm (cmdOf 8 0)) {} (fun d => decide (d.completions = [⟨0, 3, cUNSUP, none⟩])) ∧
    after (.evtStop (cmdOf 7 0 (le [8, 0]))) (statDev.setFld (F.EVT_S_STAT_STATE 7) 2) (fun d => d.hasReq [.statStop] 7) := by decide +kernel

/-- Input 15 enabled, its last accepted edge at `t`. -/
def evDev (t : Nat) : Device := (devSet [(F.EVT_I_STAT_ENABLED 15, 1)]).wr64 (Reg.EVT_I_LAST_LO 15) t
/-- A stamp of it. -/
def stamp5 : EvStamp := ⟨5, 0, true, 0, false, 0, 0⟩

theorem test_edges : (evDev 0).edgeStamp 15 (7 * 3) 3 = 7 ∧ (evDev 0).evDrain 15 0 = evDev 0 ∧
    after (.eventEdge 15 100000 1 true) ((evDev 0).setFld (F.EVT_I_CFG_Q_EN 15) 1) (fun d => decide (d.rd64 (Reg.EVT_I_EDGES_LO 15) = 1) && decide ((d.evin 15).fifo.length = 1)) ∧
    after (.eventEdge 15 81264 1 true) ((evDev 0).wr64 (Reg.EVT_I_EDGES_LO 15) 1) (fun d => decide (d.rdN (Reg.EVT_I_DEAD_CNT 15) = 1)) ∧
    after (.eventEdge 15 82576 1 true) ((evDev 0).wr64 (Reg.EVT_I_EDGES_LO 15) 1) (fun d => decide (d.rd64 (Reg.EVT_I_EDGES_LO 15) = 2)) ∧
    after (.eventEdge 15 5 1 false) (evDev 0) (fun d => decide (d.rd64 (Reg.EVT_I_EDGES_LO 15) = 0)) := by decide +kernel
theorem test_threshold : after (.thresholdWrite 15 3600) {} (fun d => decide (d.rdN (Reg.EVT_I_THRESH 15) = 3600) && d.isSet (F.EVT_I_STAT_BLANK 15)) ∧
    after (.thresholdWrite 15 3601) {} (fun d => d.isSet F.SYS_FLAGS_BAD_ACCESS) ∧
    after (.blankEnd 15) (devSet [(F.EVT_I_STAT_BLANK 15, 1)]) (fun d => !d.isSet (F.EVT_I_STAT_BLANK 15)) ∧
    after (.blankEnd 15) ((devSet [(F.EVT_I_STAT_BLANK 15, 1)]).setEvin 15 { blankTo := 1 }) (fun d => d.isSet (F.EVT_I_STAT_BLANK 15)) := by decide +kernel
theorem test_stamp_flush : after (.stampFlushTimeout 15) { ((evDev 0).setEvin 15 { opened := [stamp5] }).wr (Reg.EVT_I_FLUSH 15) 10 with time := nsTime 15 }
      (fun d => decide ((d.evin 15).opened = [])) ∧
    after (.stampFlushTimeout 15) ((evDev 0).setEvin 15 { opened := [stamp5] }) (fun d => decide ((d.evin 15).opened = [stamp5])) ∧
    Device.evDrain ((evDev 0).setEvin 15 { opened := [stamp5] }) 15 0 = (evDev 0).setEvin 15 { opened := [stamp5] } := by decide +kernel
theorem test_input_enable : Device.evCode {} 15 = cOK ∧ (evDev 0).evCode 15 = cBUSY ∧
    after (.evtICtlEnable 15) {} (fun d => !d.isSet (F.EVT_I_STAT_ENABLED 15) && decide ((d.evin 15).enabling = some .host)) ∧
    (let d := (Device.setEvin {} 15 { enabling := some .host }).evOnAll; d.isSet (F.EVT_I_STAT_ENABLED 15) && d.isSet (F.EVT_I_STAT_BLANK 15)) ∧
    Device.evOnAll (evDev 0) = evDev 0 ∧ (Device.setEvin {} 15 { enabling := some .host }).evins = [(15, { enabling := some .host })] ∧
    after (.evtICtlDisable 15) (evDev 0) (fun d => !d.isSet (F.EVT_I_STAT_ENABLED 15)) ∧
    after (.evtEnable (cmdOf 15 0 (le [0, 3600, 0, 0, 0]))) {} (fun d => decide ((d.evin 15).enabling = some (.port 0 3)) && decide (d.rdN (Reg.EVT_I_THRESH 15) = 3600)) ∧
    after (.evtEnable (cmdOf 15 0)) (evDev 0) (fun d => decide (d.completions = [⟨0, 3, cBUSY, none⟩])) ∧
    after (.evtDisable (cmdOf 15 0)) (evDev 0) (fun d => !d.isSet (F.EVT_I_STAT_ENABLED 15)) ∧
    after (.evtDisable (cmdOf 15 0)) (Device.setEvin {} 15 { enabling := some .host }) (fun d =>
      !d.isSet (F.EVT_I_STAT_ENABLED 15) && decide ((d.evin 15).enabling = none)) := by decide +kernel

/-- Converter 7 with one entry: input 0, preset 0, one result. -/
def monDev : Device := ((devSet [(F.MON_M_SEQ_LEN_SEQ_LEN 7, 1), (F.MON_M_SEQ_LEN_INJ_LEN 7, 1)]).wr (Reg.MON_M_REG 7 0) 65536).wr (Reg.MON_M_INJ 7 0) 65536

theorem test_monitor_start : monDev.monStartCode 7 = cOK ∧ (devSet []).monStartCode 7 = cLENGTH ∧
    after (.monMCtlStart 7) monDev (fun d => decide (d.fld (F.MON_M_STAT_STATE 7) = 1) && d.hasReq [.monStart] 7) ∧
    after (.monStart (cmdOf 7 0)) (devSet []) (fun d => decide (d.completions = [⟨0, 3, cLENGTH, none⟩])) ∧
    after (.monMCtlStop 7) ((monDev.setFld (F.MON_M_STAT_STATE 7) 2).setMon 7 { active := true }) (fun d => decide (d.fld (F.MON_M_STAT_STATE 7) = 0)) ∧
    after (.monStop (cmdOf 7 0)) (monDev.setFld (F.MON_M_STAT_STATE 7) 2) (fun d => decide (d.completions = [⟨0, 3, cOK, none⟩])) := by decide +kernel
theorem test_injection : monDev.armInjCode 7 = cOK ∧ (devSet []).armInjCode 7 = cLENGTH ∧
    after (.monMCtlArmInj 7) monDev (fun d => d.isSet (F.MON_M_STAT_INJ_ARMED 7)) ∧
    after (.monMCtlInject 7) monDev (fun d => decide (d.fld (F.MON_M_STAT_CODE 7) = cNOTARMED)) ∧
    after (.monInject (cmdOf 7 0)) (monDev.setFld (F.MON_M_STAT_INJ_ARMED 7) 1) (fun d => d.isSet (F.MON_M_STAT_INJ_ACTIVE 7)) ∧
    after (.monMCtlInject 7) ((monDev.setFld (F.MON_M_STAT_INJ_ARMED 7) 1).setMon 7 { active := true }) (fun d => d.isSet (F.MON_M_STAT_INJ_PENDING 7)) ∧
    after (.monMCtlInject 7) ((monDev.setFld (F.MON_M_STAT_INJ_ARMED 7) 1).setFld (F.MON_M_STAT_INJ_ACTIVE 7) 1) (fun d =>
      decide (d.rdN Reg.MON_INJ_MISS_CNT = 1)) ∧
    after (.monDisarmInj (cmdOf 7 0)) (monDev.setFld (F.MON_M_STAT_INJ_ARMED 7) 1) (fun d => !d.isSet (F.MON_M_STAT_INJ_ARMED 7)) ∧
    after (.monMCtlDisarmInj 7) (monDev.setFld (F.MON_M_STAT_INJ_ACTIVE 7) 1) (fun d => decide ((d.mon 7).disarm = some .host)) ∧
    after (.monMCtlDisarmInj 7) ((monDev.setFld (F.MON_M_STAT_INJ_ACTIVE 7) 1).setMon 7 { disarm := some .host }) (fun d =>
      decide (d.fld (F.MON_M_STAT_CODE 7) = cBUSY)) := by decide +kernel
theorem test_monitor_results : (let d := (monDev.setMon 7 { active := true }).monTake 7 966367643 none
      d.rdN (Reg.MON_M_RESULT 7 0) = 966367642 ∧ d.isSet F.MON_FLAGS_OVERRANGE ∧ d.rdN (Reg.MON_M_PASSES 7) = 1) ∧
    ((((monDev.wr (Reg.MON_M_REG 7 0) 131072).setMon 7 { active := true }).monTake 7 (-966367642) none).mon 7).given = 1 ∧
    ((((monDev.setFld (F.MON_M_SEQ_LEN_SEQ_LEN 7) 2).setMon 7 { active := true }).monTake 7 5 none).mon 7).entry = 1 ∧
    ((monDev.setFld (F.MON_M_STAT_INJ_ACTIVE 7) 1).monTake 7 5 none).rdN (Reg.MON_M_RESULT 7 32) = 5 ∧
    ((((monDev.wr (Reg.MON_M_INJ 7 0) 131072).setFld (F.MON_M_STAT_INJ_ACTIVE 7) 1).monTake 7 5 none).mon 7).injGiven = 1 ∧
    (monDev.setMon 7 { active := true }).monWord 7 = some 65536 ∧ monDev.monNeed 7 65536 = (List.replicate 4352 (0 : Int)).length ∧
    monDev.monNeed 7 (65536 + 16) = 2 * monDev.monNeed 7 65536 ∧ (monDev.setMon 7 { flt := { taps := [0] } }).monNeed 7 65536 = 256 ∧
    ((monDev.mon 7).shd = none) ∧ presetK 0 = 3 ∧ presetD 0 = 256 ∧
    after (.monResult 7 [] []) (monDev.setMon 7 { active := true }) (fun d => (d.mon 7).active) ∧
    monDev.rotStepOf 5 = none ∧ enInput 65536 ≠ 24 ∧ enCount 131072 = 2 := by decide +kernel
theorem test_monitor_passes : after (.monPassStart 7) (monDev.setFld (F.MON_M_STAT_STATE 7) 2) (fun d => (d.mon 7).active) ∧
    after (.monPassStart 7) ((monDev.setFld (F.MON_M_STAT_STATE 7) 2).setMon 7 { startB := 1 }) (fun d => !(d.mon 7).active) ∧
    after (.monPassStart 8) monDev (fun d => !(d.mon 7).active) ∧
    after (.monsyncEdge 0) (devSet [(F.MON_CFG_MONSYNC_EN, 1)]) (fun d => decide (d.monSync = []) && decide (d.monIn = [0])) ∧
    after (.monsyncEdge 0) { devSet [(F.MON_CFG_MONSYNC_EN, 1)] with time := 1 } (fun d => decide (d.monSync = [16])) ∧
    after (.monsyncEdge 1) {} (fun d => decide (d.monSync = []) && decide (d.monIn = [])) ∧
    after (.monDecimatorReset 4) { devSet [(F.MON_M_STAT_STATE 0, 0)] with monSync := [0, 3] } (fun d => decide (d.monSync = [3]) && decide (d.rdN Reg.MON_SYNC_CNT = 1)) ∧
    (∀ k, k < 8 → (devSet [(F.MON_M_STAT_STATE 0, 0)]).fld (F.MON_M_STAT_STATE k) ≠ 2 ∧
      (devSet [(F.MON_M_STAT_STATE 0, 0)]).isSet (F.MON_M_STAT_INJ_ACTIVE k) = false) := by decide +kernel
/-- A constant input's integrals and differences, and the scale of a result: a rail's is double, a temperature of no difference is absolute zero. -/
theorem test_decimation : cicAdd 2 5 [1, 2] = ([6, 8], 8) ∧ cicSub 2 8 [6, 1] = ([8, 2], 1) ∧ cicAdd 0 5 [] = ([], 5) ∧ cicSub 0 5 [] = ([], 5) ∧
    monScaled 0 (2 ^ 32) (2 ^ 32) = 1 ∧ monScaled 24 (2 ^ 32) (2 ^ 32) = 2 ∧ monScaled 16 (2 ^ 32) 0 = -17901158 ∧
    enIsTemp 16 = true ∧ enIsTemp 24 = false := by decide +kernel
theorem test_i2c : after (.i2cPointerWrite 0x8000) {} (fun d => decide (d.i2cPtr = 0x8000)) ∧
    after (.i2cRead 4) { ({} : Device) with i2cPtr := 0x8000 } (fun d => decide (d.i2cPtr = 0x8004) && decide (d.outbox.length = 1)) := by decide +kernel


/-! Rotation and cascades. -/

/-- Class 7 (analogue calibration lines, two to a group) rotates; unit 777 is LIVE and 776 READY. -/
def rotDev : Device :=
  devSet [(F.ROT_CFG_EN, 1), (F.ROT_K_CFG_EN 7, 1), (F.SYS_POST_STAT_DONE, 1), (F.SYS_STAT_STATE, 5), (F.ROT_U_STAT_STATE 777, 4),
    (F.ROT_U_STAT_STATE 776, 0)]
/-- That class at a step of phase `ph`. -/
def stepDev (ph misses : Nat) : Device := rotDev.setRotStep 7 (some { g := 15, s := 776, v := 777, phase := ph, since := 0, misses := misses })
/-- Class 0 with its conditions met: root frequency 8 GHz and a fresh supply reading; unit 543 READY, 542 LIVE. -/
def bstDev : Device :=
  { devSet [(F.SYS_STAT_STATE, 5), (F.ROT_U_STAT_STATE 543, 0), (F.ROT_U_STAT_STATE 542, 4), (F.ROT_U_STAT_STATE 527, 4)] with vdd := some (true, 0) }

theorem test_rotation_step : rotDev.rotOn 7 = true ∧ timeLE (rotDev.stepInstant 7 0) 0 = true ∧ timeLE (rotDev.stepInstant 7 15) 0 = false ∧
    rotDev.stepInstant 7 15 = BitVec.ofNat 64 (15 * rotDev.stepLength 7 / 16) ∧ (rotDev.stepAfter 7 0 0).stepInstant 7 0 = BitVec.ofNat 64 (rotDev.stepLength 7) ∧ (rotClass 7).2.1 = 16 ∧ rotDev.rotStepOf 7 = none ∧
    after (.rotationStep 7 15) { rotDev with time := BitVec.ofNat 64 (2 ^ 62) } (fun d => decide ((d.rotStepOf 7).isSome)) ∧
    after (.rotationStep 7 15) { stepDev 1 0 with time := BitVec.ofNat 64 (2 ^ 62) } (fun d => decide (d.rotDeferred 7 = [15])) ∧
    after (.rotationStep 7 16) rotDev (fun d => decide (d.rotStepOf 7 = none)) ∧ (groupUnits 7 15) = [776, 777] := by decide +kernel
theorem test_step_start : bstDev.bstCond = true ∧ Device.bstCond {} = false ∧ (groupUnits 0 31).head? = some 527 ∧
    rotDev.spareChoice 7 15 = some 776 ∧ rotDev.liveChoice 7 15 = some 777 ∧
    bstDev.spareChoice 0 31 ≠ none ∧ bstDev.liveChoice 0 31 ≠ none := by decide +kernel
theorem test_shadow_window : after (.shadowWindowEnd 7 false) { stepDev 1 0 with time := BitVec.ofNat 64 (2 ^ 62) } (fun d =>
      decide ((d.rotStepOf 7).map (fun x => x.phase) = some 2)) ∧
    after (.shadowWindowEnd 7 true) (stepDev 1 6) (fun d => decide ((d.rotStepOf 7).map (fun x => x.misses) = some 7)) ∧
    after (.shadowWindowEnd 7 false) (stepDev 0 0) (fun d => decide ((d.rotStepOf 7).map (fun x => x.phase) = some 0)) ∧
    after (.shadowWindowEnd 7 false) rotDev (fun d => decide (d.rotStepOf 7 = none)) ∧
    ((stepDev 1 0).setFld (F.ROT_K_CFG_WINDOW 7) 1).windowOver 7 { g := 15, s := 776, v := 777, phase := 1, since := 0 } = false := by decide +kernel
/-- Delay line 776 in TEST. -/
def testDev : Device := devSet [(F.ROT_U_STAT_STATE 776, 3), (F.CLK_STAT_REF_PRESENT, 1), (F.SYS_STAT_STATE, 5)]
/-- A converter's readings: 0.6 V with no capacitor, one step less with the first. -/
def readings (ground factory : Int) : Readings := ⟨0, 40, ground, factory, [(0, 644245094), (1, 644242947)]⟩

theorem test_converter : calConverter 0 77 (readings 0 0) = some (cOK, 77) ∧ calConverter 0 77 (readings 5368 0) = some (cOK, 77) ∧
    calConverter 0 77 (readings 5369 0) = none ∧ calConverter 600000 77 (readings 0 0) = some (cCONDITIONS, 0) ∧
    calConverter 600000 77 (readings 0 644245094) = some (cOK, 0) ∧ calConverter 500000 77 (readings 0 536870912) = none ∧
    calSearch 599998 (readings 0 0) 1 0 = 1 ∧ calSearch 599999 (readings 0 0) 1 0 = 0 := by decide +kernel
theorem test_self_test : unitClass 543 = 0 ∧ unitClass 681 = 5 ∧ unitClass 672 = 4 ∧
    after (.selfTestDone 776 0 true ⟨9, 40, 0, 0, []⟩) testDev (fun d => decide (d.puState 776 = 0) && decide ((d.unitTest 776).sel = 9)) ∧
    after (.selfTestDone 776 0 false ⟨9, 40, 0, 0, []⟩) testDev (fun d => decide ((d.unitTest 776).fails = 1)) ∧
    ((testDev.setUnitTest 776 { fails := 1 }).testFail 776 2).puState 776 = 5 := by decide +kernel
theorem test_self_test_waits : after (.selfTestDone 776 0 true ⟨9, 40, 0, 0, []⟩) (testDev.setFld F.CLK_STAT_REF_PRESENT 0) (fun d =>
      (d.unitTest 776).again && decide (d.fld (F.CAL_I_STAT_CODE 23) = cREFLOST)) ∧
    after (.selfTestDone 776 0 true ⟨9, 40, 0, 0, []⟩) (testDev.setUnitTest 776 { again := true }) (fun d => decide (d.puState 776 = 3)) ∧
    after (.selfTestDone 780 1 true ⟨9, 40, 0, 0, []⟩) {} (fun d => decide (d.rdN Reg.BST_RUN_CNT = 0)) := by decide +kernel
theorem test_unit_step : after (.rotCmdStep 780 4) {} (fun d => decide (d.fld F.ROT_CMD_STAT_CODE = cUNSUP)) ∧
    after (.rotCmdStep 777 1) rotDev (fun d => decide (d.fld F.ROT_CMD_STAT_CODE = cROLEMISS)) ∧
    after (.rotCmdStep 777 4) rotDev (fun d => decide ((d.rotStepOf 7).map (fun x => x.s) = some 776)) ∧
    after (.rotCmdStep 777 4) (stepDev 0 0) (fun d => decide (d.fld F.ROT_CMD_STAT_CODE = cBUSY)) ∧
    after (.rotCmdStep 777 4) (rotDev.setFld (F.ROT_U_STAT_STATE 776) 3) (fun d => decide (d.fld F.ROT_CMD_STAT_CODE = cNOSPARE)) ∧
    after (.rotStep (cmdOf 542 4)) { ((bstDev.setFld F.ROT_CFG_EN 1).setFld (F.ROT_K_CFG_EN 0) 1).setFld F.SYS_POST_STAT_DONE 1 with vdd := none } (fun d => decide (d.completions = [⟨0, 3, cCONDITIONS, none⟩])) ∧
    after (.rotStep (cmdOf 775 2)) ((rotDev.setFld (F.ROT_U_STAT_STATE 775) 2).setFld (F.ROT_U_STAT_STATE 774) 0) (fun d =>
      decide (d.completions = [⟨0, 3, cUNSUP, none⟩])) := by decide +kernel
theorem test_unit_withdraw : after (.rotCmdWithdraw 777 4) rotDev (fun d => decide ((d.rotStepOf 7).map (fun x => x.withdraw) = some true)) ∧
    after (.rotCmdWithdraw 777 4) (stepDev 0 0) (fun d => decide (d.fld F.ROT_CMD_STAT_CODE = cBUSY)) ∧
    after (.rotCmdWithdraw 777 4) (rotDev.setFld (F.ROT_U_STAT_STATE 776) 3) (fun d => decide (d.rot.vacate = [(777, 0)])) ∧
    after (.rotCmdWithdraw 776 0) rotDev (fun d => decide (d.puState 776 = 5)) ∧
    after (.rotCmdWithdraw 776 3) (rotDev.setFld (F.ROT_U_STAT_STATE 776) 3) (fun d => decide (d.puState 776 = 5)) ∧
    after (.rotWithdraw (cmdOf 776 5)) (rotDev.setFld (F.ROT_U_STAT_STATE 776) 5) (fun d => decide (d.completions = [⟨0, 3, cOK, none⟩])) ∧
    after (.rotCmdWithdraw 778 4) (rootOn.setFld F.CLK_STAT_STANDBY_READY 0) (fun d => decide (d.fld F.ROT_CMD_STAT_CODE = cUNSUP)) := by decide +kernel
theorem test_on_demand : after (.bstCmdGo 543 0) bstDev (fun d => decide (d.rot.bst = some (543, .host, 0)) && d.isSet F.BST_CMD_GO) ∧
    after (.bstCmdGo 543 0) { bstDev with vdd := none } (fun d => decide (d.fld F.BST_CMD_STAT_CODE = cCONDITIONS)) ∧
    after (.bstRun (cmdOf 777 4)) rotDev (fun d => decide (d.completions = [⟨0, 3, cUNSUP, none⟩])) ∧
    after (.bstRun (cmdOf 543 0)) { bstDev with rot := { bst := some (1, .host, 0) } } (fun d => decide (d.completions = [⟨0, 3, cBUSY, none⟩])) ∧
    after (.bstRunDone 5) bstDev (fun d => decide (d.rot.bst = none)) ∧
    (Device.puState { bstDev with rot := { bst := some (543, .host, 1) } } 543 = 0) := by decide +kernel
/-- A run's signature either is the golden one or is not; both happen. -/
theorem test_signatures (k : Nat) : (∃ sig, decide (sig % 2 ^ 64 = Config.goldenSig k % 2 ^ 64) = true) ∧
    ∃ sig, decide (sig % 2 ^ 64 = Config.goldenSig k % 2 ^ 64) = false :=
  ⟨⟨Config.goldenSig k, by simp⟩, ⟨Config.goldenSig k + 1, by simp only [decide_eq_false_iff_not]; omega⟩⟩

/-- Device 1 of a cascade in a role, linked over link 5 to device 0, at epoch 65,535. -/
def casDev1 (role : Nat) : Device :=
  { (devSet [(F.CAS_STAT_ROLE, role), (F.CAS_STAT_DEVICE, 1), (F.CAS_L_CFG_RUN 5, 1), (F.CAS_L_CFG_PEER 5, 0), (F.CAS_CFG_ACCEPT, 1)]).wr Reg.CAS_EPOCH 65535 with
    cas := { table := [(0, ⟨3, 1⟩), (1, ⟨4, 2⟩), (2, ⟨9, 3⟩)] } }
/-- A message to it. -/
def msgOf (epoch dst : Nat) (good : Bool) : CasMsg := ⟨5, false, epoch, 0, dst, 255, good⟩

theorem test_messages : after (.decidedMessage (msgOf 65535 1 false) 0) (casDev1 2) (fun d => decide (d.rdN Reg.CAS_MSG_ERR_CNT = 1)) ∧
    (casDev1 2).linkTo 0 = some 5 ∧ after (.ackMessage (msgOf 65535 0 true) 3) (casDev1 2) (fun d => decide (d.outbox.length = 1)) ∧
    after (.timeMessage (msgOf 0 1 true) 7 2) (casDev1 2) (fun d => decide (d.rdN Reg.CAS_STALE_CNT = 1) && decide (d.outbox.length = 1)) ∧
    after (.statusMessage (msgOf 0 1 true) true true) (casDev1 2) (fun d => decide (d.rdN Reg.CAS_STALE_CNT = 1) && d.outbox.isEmpty) ∧
    after (.timeMessage (msgOf 65535 1 true) 7 2) ((casDev1 2).setCasLink 5 { seen := [(0, 255)] }) (fun d => decide (d.cas.coarse = some (7, 2)) && decide (d.outbox.length = 1)) ∧
    after (.timeMessage { msgOf 65535 1 true with retry := true } 7 2) ((casDev1 2).setCasLink 5 { seen := [(0, 255)] }) (fun d => d.cas.coarse.isNone && decide (d.outbox.length = 1)) ∧
    after (.timeMessage (msgOf 65535 1 true) 7 65536) (casDev1 2) (fun d => decide (d.cas.coarse = some (7, 0))) ∧
    after (.timeMessage (msgOf 65535 1 true) 7 2) ((casDev1 2).setFld (F.LNK_S_STAT_STATE 7) 1) (fun d => d.cas.coarse.isNone) := by decide +kernel
theorem test_role_message : after (.roleMessage (msgOf 0 1 true) 1 8 [(1, 4, 2)]) (casDev1 0) (fun d => d.hasReq [.role] 0) ∧
    after (.roleMessage (msgOf 0 1 true) 1 8 []) ((casDev1 0).setFld F.CAS_CFG_ACCEPT 0) (fun d => d.breqs.isEmpty && decide (d.outbox.length = 1)) := by
  decide +kernel
theorem test_mark_trigger : after (.markMessage (msgOf 65535 1 true) 9 false) (casDev1 2) (fun d => decide (d.cas.marks = [9])) ∧
    after (.markMessage (msgOf 65535 1 true) 9 true) (casDev1 2) (fun d => d.hasReq [.decReset] 0 && decide (d.rdN Reg.CAS_RESET_LATE_CNT = 0)) ∧
    after (.markMessage (msgOf 65535 1 true) 9 true) { casDev1 2 with time := 10 } (fun d => decide (d.rdN Reg.CAS_RESET_LATE_CNT = 1)) ∧
    after (.triggerMessage (msgOf 65535 1 true) 63 5) (casDev1 2) (fun d => decide ((d.casLink 5).seen = [(0, 255)])) ∧
    ((((casDev1 2).setFld (F.CAS_RT_CFG_EN 63) 1).setFld (F.CAS_RT_CFG_SUNIT 63) 63).setFld (F.TRG_T_CFG_KIND 0) 5).tKind 0 = 5 ∧
    ((casDev1 2).setFld (F.TRG_T_STAT_STATE 0) 2).tArmed 0 = true := by decide +kernel
theorem test_answers : after (.ackMessage (msgOf 65535 1 true) 3) ((casDev1 2).setCasLink 5 { wait := [⟨3, 5, 0, 0, [], 0, 0⟩] }) (fun d => decide ((d.casLink 5).wait = [])) ∧
    after (.nakMessage (msgOf 65535 1 true) 3 cBUSY) ((casDev1 2).setCasLink 5 { wait := [⟨3, 5, 0, 0, [], 0, 0⟩] }) (fun d => decide ((d.casLink 5).wait = [])) ∧
    after (.nakMessage (msgOf 0 1 true) 3 cSTALE) (casDev1 2) (fun d => d.cas.stale && decide (d.casRole = 0)) ∧
    after (.nakMessage (msgOf 65535 1 true) 3 cSTALE) (casDev1 2) (fun d => !d.cas.stale) := by decide +kernel

/-- Device 0, the master, at epoch 1; device 1 on link 5; join 15 of context 7 with parts 0 and 1. -/
def casDev0 : Device :=
  { ((devSet [(F.CAS_STAT_ROLE, 1), (F.CAS_L_CFG_RUN 5, 1), (F.CAS_L_CFG_PEER 5, 1), (F.CAS_J_CFG_EN 15, 1), (F.CAS_J_CFG_CONTEXT 15, 7), (F.CAS_CFG_MASTER, 1)]).wr Reg.CAS_EPOCH 1
      ).wr (Reg.CAS_J_PARTS 15) 3 with
    cas := { table := [(0, ⟨3, 1⟩), (1, ⟨4, 2⟩), (15, ⟨9, 3⟩)] } }
/-- A message from device 1 to it. -/
def msgTo0 : CasMsg := ⟨5, false, 1, 1, 0, 255, true⟩

theorem test_status_record : after (.statusMessage msgTo0 true true) casDev0 (fun d => (d.casDev 1).ready && decide (d.fld (F.CAS_D_STAT_TIME_OK 1) = 1)) ∧
    after (.decidedMessage msgTo0 8) casDev0 (fun d => decide ((d.casDev 1).decided = some 8)) ∧
    after (.recordMessage msgTo0 5 []) casDev0 (fun _ => true) ∧
    after (.partMessage msgTo0 7 4 0 0 []) casDev0 (fun d => decide (d.cas.comps.length = 1)) ∧
    after (.partMessage msgTo0 7 4 0 0 []) { casDev0 with cas := { left := [(15, [4])] } } (fun d => decide (d.rdN Reg.CAS_JOIN_MISS_CNT = 1)) ∧
    after (.partMessage msgTo0 6 4 0 0 []) casDev0 (fun d => decide (d.cas.comps = [])) ∧
    after (.caldataMessage msgTo0 0 9 5) { casDev0 with cas := { cal := some 4 } } (fun d => decide ((d.casDev 1).sumT = 5) && decide ((d.casDev 1).sumU = -1)) ∧
    after (.caldataMessage msgTo0 0 9 5) casDev0 (fun d => decide ((d.casDev 1).nT = 0)) := by decide +kernel
theorem test_form : after .casCtlForm (casDev1 0) (fun d => decide (d.fld F.CAS_CMD_STAT_CODE = cNOTARMED)) ∧
    after .casCtlForm casDev0 (fun d => d.hasReq [.role] 0 && decide (d.fld F.CAS_CMD_STAT_BUSY = 1)) ∧
    after (.casForm (cmdOf 0 0)) (casDev0.setFld F.CAS_CMD_STAT_BUSY 1) (fun d => decide (d.completions = [⟨0, 3, cBUSY, none⟩])) ∧
    after (.casForm (cmdOf 0 0)) (casDev0.setFld F.CHN_SYNC_CFG_SYNC_EN 1) (fun d => decide (d.completions = [⟨0, 3, cUNSUP, none⟩])) := by decide +kernel
theorem test_cas_cal : after .casCtlCal casDev0 (fun d => decide (d.cas.cal = some (next1024 (nsTime (casDev0.rdN Reg.CAS_LEAD)))) && d.isSet F.CAS_CMD_STAT_BUSY) ∧
    after (.casCal (cmdOf 0 0)) (casDev1 2) (fun d => decide (d.completions = [⟨0, 3, cNOTARMED, none⟩])) ∧
    after .casCtlCal (casDev0.setFld F.CAS_CMD_STAT_BUSY 1) (fun d => decide (d.fld F.CAS_CMD_STAT_CODE = cBUSY)) := by decide +kernel
theorem test_cas_reset : after .casCtlReset casDev0 (fun d => d.hasReq [.decReset] 0) ∧
    after (.casReset (cmdOf 0 0 (le [8, 0]))) (casDev1 2) (fun d => decide (d.completions = [⟨0, 3, cNOTARMED, none⟩])) ∧
    after .casCtlReset { casDev0 with breqs := [⟨.decReset, 0, 0, 0, .host, [1]⟩] } (fun d => decide (d.fld F.CAS_CMD_STAT_CODE = cBUSY)) := by decide +kernel
/-- The master with a READY, calibrated standby, device 15. -/
def spareDev : Device := (casDev0.setFld (F.CAS_D_STAT_STATE 15) 2).setCasDev 15 { ready := true }

theorem test_takeover : spareDev.casStandby 0xFF = some 15 ∧ casDev0.casStandby 0xFF = none ∧ spareDev.casStandby 9 = some 15 ∧
    after (.casTakeover (cmdOf 0 (1 + 255 * 256))) spareDev (fun d => decide (d.cas.change = some ⟨.port 0 3, 3, 1, 15⟩)) ∧
    after .casCtlTakeover (spareDev.setFld F.CAS_CMD_ARG_STANDBY 255) (fun d => decide (d.fld F.CAS_CMD_STAT_CODE = cUNSUP)) ∧
    after .casCtlTakeover casDev0 (fun d => decide (d.fld F.CAS_CMD_STAT_CODE = cNOSPARE)) ∧
    after .casCtlTakeover (((casDev1 2).setFld (F.CAS_D_STAT_STATE 2) 2).setCasDev 2 { ready := true } |>.setFld F.CAS_CMD_ARG_STANDBY 255) (fun d =>
      decide (d.fld F.CAS_CMD_STAT_CODE = cNOTARMED)) := by decide +kernel
theorem test_leave : after .casCtlLeave (casDev1 2) (fun d => decide (d.casRole = 0)) ∧
    after (.casLeave (cmdOf 0 15)) casDev0 (fun d => decide (d.cas.change = some ⟨.port 0 3, 4, 15, 0⟩)) ∧
    after (.casLeave (cmdOf 0 15)) (casDev0.setFld F.CHN_SYNC_CFG_SYNC_EN 1) (fun d => decide (d.completions = [⟨0, 3, cUNSUP, none⟩])) ∧
    after .casCtlLeave (casDev0.setFld F.CAS_CMD_STAT_BUSY 1) (fun d => decide (d.fld F.CAS_CMD_STAT_CODE = cBUSY)) := by decide +kernel
theorem test_link_run : after (.casLinkRun 5 7) {} (fun d => decide (d.fld (F.CAS_L_STAT_CODE 5) = cUNSUP) && decide (d.fld (F.CAS_L_CFG_PEER 5) = 7)) ∧
    after (.casLinkRun 5 7) (casDev1 2) (fun d => decide (d.fld (F.CAS_L_CFG_PEER 5) = 7)) ∧
    after (.casLinkRun 5 7) (((devWith [(Reg.CAS_L_TX 5, 3), (Reg.CAS_L_RX 5, 3)]).setFld (F.LNK_G_CFG_RATE 0) 32000).setFld (F.LNK_TG_CFG_RATE 0) 32000) (fun d =>
      d.isSet (F.CAS_L_CFG_RUN 5)) ∧ after (.casLinkRun 6 7) {} (fun d => decide (d.fld (F.CAS_L_CFG_PEER 5) = 0)) := by decide +kernel
theorem test_retry_epoch : after (.controlRetryTimeout 5 3) { (casDev1 2).setCasLink 5 { wait := [⟨3, 5, 9, 0, [], 7, 0⟩] } with time := nsTime 10000 } (fun d =>
      decide (d.outbox = [.casMsg 5 true 5 9 1 0 3 [] []])) ∧
    after (.controlRetryTimeout 5 3) { (casDev1 2).setCasLink 5 { wait := [⟨3, 5, 9, 0, [], 7, 0⟩] } with time := nsTime 10000, cas := { deaf := true, links := [(5, { wait := [⟨3, 5, 9, 0, [], 7, 0⟩] })] } } (fun d =>
      d.outbox.isEmpty && decide (d.rdN Reg.CAS_TX_DROP_CNT = 1)) := by decide +kernel
theorem test_retry : after (.controlRetryTimeout 5 3) { (casDev1 2).setCasLink 5 { wait := [⟨3, 5, 0, 0, [], 7, 0⟩] } with time := nsTime 10000 } (fun d =>
      decide ((d.casLink 5).wait = [⟨3, 5, 0, 0, [], 8, nsTime 10000⟩]) && decide (d.outbox.length = 1)) ∧
    after (.controlRetryTimeout 5 3) { (casDev1 2).setCasLink 5 { wait := [⟨3, 5, 0, 0, [], 8, 0⟩] } with time := nsTime 10000 } (fun d =>
      decide (d.rdN Reg.CAS_UNACKED_CNT = 1)) ∧
    after (.controlRetryTimeout 5 3) { (casDev1 2).setCasLink 5 { wait := [⟨3, 5, 0, 0, [], 8, 0⟩] } with time := nsTime 9999 } (fun d =>
      decide (d.rdN Reg.CAS_UNACKED_CNT = 0) && d.outbox.isEmpty) ∧
    after (.controlRetryTimeout 5 3) (casDev1 2) (fun d => d.outbox.isEmpty) := by decide +kernel
theorem test_cas_timers : after .statusSend { casDev1 2 with time := nsTime 100000 } (fun d => decide (d.cas.statusAt = nsTime 100000)) ∧
    after .statusSend (casDev1 2) (fun d => d.outbox.isEmpty) ∧ after .decidedSend { casDev0 with time := nsTime 1000 } (fun d => decide (d.outbox.length = 1)) ∧
    after .decidedSend casDev0 (fun d => d.outbox.isEmpty) ∧ casDev0.casOthers = [1, 15] ∧
    after (.deviceLostTimeout 1) { (casDev0.setFld (F.CAS_D_STAT_STATE 1) 2).wr Reg.CAS_TIMEOUT 5 with time := nsTime 5 } (fun d =>
      decide (d.fld (F.CAS_D_STAT_STATE 1) = 3)) ∧
    after (.deviceLostTimeout 2) casDev0 (fun d => decide (d.rdN Reg.CAS_LOST_CNT = 0)) ∧
    after .masterLostTimeout { (casDev1 2).wr Reg.CAS_TIMEOUT 5 with time := nsTime 5 } (fun d => d.cas.deaf) ∧
    after .masterLostTimeout casDev0 (fun d => !d.cas.deaf) := by decide +kernel
/-- A master alone in its table. -/
def loneDev (c : Option Time) (t : Time) : Device :=
  { casDev0 with time := t, cas := { table := [(0, ⟨3, 1⟩)], cal := c, calBy := .port 0 3, formCode := cUNSUP } }

theorem test_cas_cal_done : after (.cascadeCalDone 0 0) (loneDev (some 0) (BitVec.ofNat 64 (4096 * 65536000))) (fun d =>
      decide (d.completions = [⟨0, 3, cUNSUP, none⟩]) && d.isSet F.CAS_STAT_TIME_OK) ∧
    after (.cascadeCalDone 0 0) (loneDev (some 0) 5) (fun d => d.cas.cal.isSome) ∧ after (.cascadeCalDone 0 0) casDev0 (fun d => d.completions.isEmpty) ∧
    after (.cascadeCalDone 65536 4) (casDev1 2) (fun d => decide (d.rdN Reg.CAS_TIME_FAULT_CNT = 1)) ∧
    after (.cascadeCalDone (-65535) 4) (casDev1 2) (fun d => decide (d.cas.slew = -65535) && d.isSet F.CAS_STAT_SLEWING) ∧
    after (.cascadeCalDone 7 4) { casDev1 2 with time := 9, cas := { calForm := true } } (fun d => decide (d.time = 2)) ∧
    after (.cascadeCalDone 7 4) (casDev1 0) (fun d => decide (d.cas.slew = 0)) := by decide +kernel
theorem test_mark_recal : after .recalTimer { casDev0.wr Reg.CAS_RECAL 1 with time := nsTime 1000000000 } (fun d => d.cas.cal.isSome) ∧
    after .recalTimer casDev0 (fun d => d.cas.cal.isNone) ∧
    after .markTimer { (casDev0.setFld F.CAS_STAT_TIME_OK 1).wr Reg.CAS_MARK_PERIOD 1 with time := nsTime 1000 } (fun d => decide (d.cas.markAt = nsTime 1000)) ∧
    after .markTimer casDev0 (fun d => d.outbox.isEmpty) := by decide +kernel
theorem test_slew : after .slewStep { (casDev1 2).setFld F.CAS_STAT_SLEWING 1 with time := 9, cas := { slew := -2, slewTick := 64 } } (fun d =>
      decide (d.time = 10) && decide (d.cas.slew = -1)) ∧
    after .slewStep { (casDev1 2).setFld F.CAS_STAT_SLEWING 1 with time := 9, cas := { slew := 2, slewTick := 64 } } (fun d => decide (d.time = 8)) ∧
    after .slewStep { (casDev1 2).setFld F.CAS_STAT_SLEWING 1 with time := 9, cas := { slew := 1, slewTick := 64 } } (fun d => !d.isSet F.CAS_STAT_SLEWING) ∧
    after .slewStep { (casDev1 2).setFld F.CAS_STAT_SLEWING 1 with time := 9, cas := { slew := 1, slewTick := 63 } } (fun d => decide (d.time = 9)) := by
  decide +kernel
theorem test_join_wait : after (.joinWaitTimeout 15) { casDev0.wr (Reg.CAS_J_WAIT 15) 5 with time := nsTime 5, cas := { comps := [⟨15, 4, [], some 0⟩] } }
      (fun d => decide (d.cas.comps = []) && decide (d.rdN Reg.CAS_JOIN_MISS_CNT = 2)) ∧
    after (.joinWaitTimeout 15) casDev0 (fun d => decide (d.rdN Reg.CAS_JOIN_MISS_CNT = 0)) := by decide +kernel


/-! The panel, a counter read, the reserved range and reset. -/

/-- A panel that may start: 2 by 2 pixels, 1 Mpixel/s, the sink present; layer 0 off. -/
def pnlDev (st : Nat) : Device :=
  (devWith [(Reg.PNL_H_ACT_FP, 2 + 65536), (Reg.PNL_V_ACT_FP, 2 + 65536), (Reg.PNL_H_SYNC_BP, 65537), (Reg.PNL_V_SYNC_BP, 65537),
    (Reg.PNL_PIX_M, 1), (Reg.PNL_PIX_N, 162), (Reg.PNL_BG, 0x102030), (Reg.PNL_FILL, 0x405060)]).setFld F.PNL_CFG_EN 1
    |>.setFld F.PNL_STAT_HPD 1 |>.setFld F.PNL_STAT_STATE st
/-- Its panel unit holding `p`. -/
def pnlAt (st : Nat) (p : Panel) : Device := { pnlDev st with panel := p }
/-- A layer of 2 by 2 pixels at the origin, opaque, four bytes a pixel. -/
def lay0 : PLayer := ⟨1 + 2 * 2 + 8, 64, 0, 2 + 2 * 65536, 4096⟩

theorem test_panel_start : (pnlDev 0).pStartCode = cOK ∧ (pnlDev 1).pStartCode = cBUSY ∧ Device.pStartCode {} = cLENGTH ∧
    after .pnlCtlStart (pnlDev 0) (fun d => decide (d.fld F.PNL_STAT_STATE = 1) && decide (d.panel.phase = 1) && d.isSet F.PNL_CTL_START) ∧
    after .pnlCtlStart (pnlAt 1 { start := some .host }) (fun d => decide (d.fld F.PNL_STAT_CODE = cBUSY)) ∧
    after (.pnlStart (cmdOf 0 0)) {} (fun d => decide (d.completions = [⟨0, 3, cLENGTH, none⟩])) := by decide +kernel
theorem test_panel_stop : after .pnlCtlStop (pnlDev 0) (fun d => decide (d.panel.stops = [])) ∧
    after (.pnlStop (cmdOf 0 0)) (pnlDev 2) (fun d => decide (d.panel.stops = [.port 0 3])) ∧
    after .panelStopDone (pnlAt 2 { idle := some 0, stops := [.port 0 3], commits := [⟨.port 1 2, none⟩] }) (fun d => decide (d.fld F.PNL_STAT_STATE = 2)) ∧
    after .panelStopDone { pnlAt 2 { idle := some 0, stops := [.port 0 3], commits := [⟨.port 1 2, none⟩] } with time := nsTime 1000000 } (fun d =>
      decide (d.completions = [⟨1, 2, cNOTARMED, none⟩, ⟨0, 3, cOK, none⟩]) && decide (d.fld F.PNL_STAT_STATE = 0)) ∧
    after .panelStopDone (pnlDev 2) (fun d => decide (d.fld F.PNL_STAT_STATE = 2)) := by decide +kernel
theorem test_panel_commit : (∀ l, l < 4 → bitAt ((pnlDev 2).rdN (Reg.PNL_L_CFG l)) 0 = false) ∧
    after .pnlCtlCommit (pnlDev 0) (fun d => decide (d.fld F.PNL_STAT_CODE = cNOTARMED)) ∧
    after (.pnlCommit (cmdOf 0 0)) (pnlDev 2) (fun d => d.isSet F.PNL_STAT_COMMIT_PENDING && decide (d.panel.commits.length = 1)) ∧
    after (.pnlFlip (cmdOf 3 0 (le [4096, 1]))) (pnlDev 2) (fun d => decide (d.panel.commits = [⟨.port 0 3, some 3⟩]) &&
      decide (d.rd64 (Reg.PNL_L_BASE_LO 3) = 2 ^ 32 + 4096)) ∧
    after (.pnlFlip (cmdOf 3 0 (le [4096, 0]))) (pnlAt 2 { commits := [⟨.port 0 3, some 3⟩] }) (fun d => decide (d.completions = [⟨0, 3, cBUSY, none⟩])) ∧
    after (.pnlFlip (cmdOf 3 0 (le [4096, 0]))) (pnlDev 0) (fun d => decide (d.completions = [⟨0, 3, cNOTARMED, none⟩]) &&
      decide (d.rd64 (Reg.PNL_L_BASE_LO 3) = 0)) := by decide +kernel
theorem test_panel_training : after (.trainingStepDone true false 0) (pnlAt 1 { phase := 1, start := some .host }) (fun d =>
      decide (d.panel.phase = 2) && decide (d.outbox.length = 3)) ∧
    after (.trainingStepDone true false 65535) (pnlAt 1 { phase := 4, start := some .host }) (fun d => decide (d.panel.phase = 5) && decide (d.rdN Reg.PNL_DRIVE = 65535)) ∧
    after (.trainingStepDone true true 0) (pnlAt 1 { phase := 1, start := some (.port 0 3) }) (fun d => decide (d.completions = [⟨0, 3, cUNSUP, none⟩])) ∧
    after (.trainingStepDone false true 0) (pnlAt 1 { phase := 1, start := some (.port 0 3) }) (fun d => decide (d.completions = [⟨0, 3, cCONDITIONS, none⟩])) ∧
    after (.trainingStepDone true false 0) (pnlDev 0) (fun d => decide (d.panel.phase = 0)) := by decide +kernel
theorem test_commit_point : after (.commitPoint 5) ((pnlAt 2 { commits := [⟨.port 0 3, none⟩], y := 1 }).wr (Reg.PNL_FRAMES) 0xFFFFFFFF) (fun d =>
      decide (d.rdN Reg.PNL_FRAMES = 0) && decide (d.completions = [⟨0, 3, cOK, some 5⟩]) && decide (d.panel.y = 0)) ∧
    after (.commitPoint 5) (pnlAt 2 { stops := [.host] }) (fun d => decide (d.panel.idle = some 5) && decide (d.outbox.length = 3)) ∧
    after (.commitPoint 5) (pnlAt 1 { phase := 5, start := some (.port 0 3) }) (fun d => decide (d.fld F.PNL_STAT_STATE = 2) &&
      decide (d.completions = [⟨0, 3, cOK, some 5⟩])) ∧
    after (.commitPoint 5) (pnlDev 0) (fun d => d.outbox.isEmpty) := by decide +kernel
theorem test_pixels : after (.pixelDue 16383) (pnlDev 2) (fun d => decide (d.outbox = [.pixel 0 0 0x102030]) && decide (d.panel.x = 1)) ∧
    after (.pixelDue 0) (pnlAt 2 { x := 1 }) (fun d => decide (d.outbox = [.pixel 1 0 0x405060]) && decide (d.panel.y = 1) && d.isSet F.PNL_FLAGS_UNDERRUN) ∧
    after (.pixelDue 9) { pnlAt 2 { x := 1, y := 1, layers := [(0, lay0)] } with mem := [(4164, 7), (4166, 9)] } (fun d => decide (d.outbox = [.pixel 1 1 0x90007])) ∧
    after (.pixelDue 9) (pnlAt 2 { y := 2 }) (fun d => d.outbox.isEmpty) ∧ lay0.en = true ∧ lay0.fmt = 2 ∧ bitAt lay0.cfg 3 = true := by decide +kernel
theorem test_aux_command : after (.pnlAuxCmdGo (16 * 2 ^ 24)) (pnlDev 1) (fun d => decide (d.fld F.PNL_AUX_STAT_CODE = cBUSY)) ∧
    after (.pnlAuxCmdGo 0) (pnlDev 0) (fun d => decide (d.fld F.PNL_AUX_STAT_CODE = cLENGTH)) ∧
    ((pnlDev 0).wrRw Reg.PNL_AUX_CMD 0x09000010).fld F.PNL_AUX_CMD_LENGTH ≤ 31 ∧
    bitAt (((pnlDev 0).setFld F.PNL_AUX_CMD_REQ 9).fld F.PNL_AUX_CMD_REQ) 0 = true ∧
    after (.pnlAuxCmdGo (((pnlDev 0).setFld F.PNL_AUX_CMD_REQ 9 |>.setFld F.PNL_AUX_CMD_LENGTH 16).rdN Reg.PNL_AUX_CMD)) (pnlDev 0) (fun d =>
      d.isSet F.PNL_AUX_STAT_BUSY && decide (d.outbox.length = 1)) := by decide +kernel
/-- A panel with an AUX read of 16 bytes out, tried `n` times before. -/
def auxDev (n : Nat) : Device :=
  { ((pnlDev 0).setFld F.PNL_AUX_STAT_BUSY 1 |>.setFld F.PNL_AUX_CMD_REQ 9 |>.setFld F.PNL_AUX_CMD_LENGTH 16) with panel := { auxTries := n } }
theorem test_aux_reply : after (.auxReply 0 [1, 2]) (auxDev 0) (fun d => decide (d.fld F.PNL_AUX_STAT_BYTES = 2) && decide (d.rdN (Reg.PNL_AUX_BUF 0) = 0x201)) ∧
    after (.auxReply 0 []) ((auxDev 0).setFld F.PNL_AUX_CMD_REQ 8) (fun d => decide (d.fld F.PNL_AUX_STAT_BYTES = 16)) ∧
    after (.auxReply 1 []) (auxDev 0) (fun d => decide (d.fld F.PNL_AUX_STAT_REPLY = 1)) ∧
    after (.auxReply 2 []) (auxDev 6) (fun d => d.panel.auxDefer) ∧ after (.auxReply 2 []) (auxDev 7) (fun d => decide (d.fld F.PNL_AUX_STAT_REPLY = 2)) ∧
    after .auxTimeout { auxDev 7 with time := nsTime 400000 } (fun d => decide (d.fld F.PNL_AUX_STAT_REPLY = 3)) ∧
    after .auxTimeout { auxDev 6 with time := nsTime 400000 } (fun d => decide (d.panel.auxTries = 7)) ∧
    after .auxTimeout (auxDev 0) (fun d => decide (d.panel.auxTries = 0)) ∧ after (.auxReply 0 []) (pnlDev 0) (fun d => d.outbox.isEmpty) := by decide +kernel
theorem test_hot_plug : after (.hpdChange false false) (pnlDev 2) (fun d => decide (d.panel.hpdLow = some 0) && d.isSet F.PNL_FLAGS_HPD) ∧
    after (.hpdChange true true) { (pnlAt 2 { hpdLow := some 0 }).setFld F.PNL_STAT_HPD 0 with time := nsTime 250000 } (fun d =>
      d.panel.retrain && d.isSet F.PNL_FLAGS_LINK_LOST) ∧
    after (.hpdChange true false) { (pnlAt 2 { hpdLow := some 0 }).setFld F.PNL_STAT_HPD 0 with time := nsTime 2000000 } (fun d =>
      !d.panel.retrain && decide (d.outbox.length = 1)) ∧
    after (.hpdChange true false) ((pnlDev 0).setFld F.PNL_STAT_HPD 0) (fun d => d.isSet F.PNL_STAT_HPD) ∧
    after (.hpdChange true false) (pnlDev 0) (fun d => decide (d.rdN Reg.PNL_HPD_CNT = 0)) ∧
    after .hpdLowTimeout { pnlAt 2 { hpdLow := some 0 } with time := nsTime 2000000 + 1 } (fun d => decide (d.panel.stops = [.device])) ∧
    after .hpdLowTimeout { pnlAt 2 { hpdLow := some 0 } with time := nsTime 2000000 } (fun d => decide (d.panel.stops = [])) := by decide +kernel

/-- R12: the counter reads 9, and the event during the read is counted for the next. -/
theorem test_event_during_read : bar0Fits Reg.DMA_DB_ERR_CNT 4 = true ∧ openDev.windowOpen Reg.DMA_DB_ERR_CNT = true ∧
    bar0Loc Reg.DMA_DB_ERR_CNT = .reg ∧ (regRow Reg.DMA_DB_ERR_CNT).map (fun r => r.rc) = some 0xFFFFFFFF ∧
    (Sparse.get (fun _ => none) openDev.hiLatch Reg.DMA_DB_ERR_CNT : Option Word) = none ∧
    after (.counterRead Reg.DMA_DB_ERR_CNT true) (openDev.wr Reg.DMA_DB_ERR_CNT 9) (fun d => decide (d.hostRead = 9) && decide (d.rdN Reg.DMA_DB_ERR_CNT = 1)) ∧
    after (.counterRead Reg.DMA_DB_ERR_CNT false) (openDev.wr Reg.DMA_DB_ERR_CNT 9) (fun d => decide (d.rdN Reg.DMA_DB_ERR_CNT = 0)) := by decide +kernel
/-- R50: both ends of the reserved range. -/
theorem test_reserved_range : openDev.windowOpen 0x2400000 = true ∧ openDev.windowOpen 0x3FFFFFC = true ∧ 0x3FFFFFC % 4 = 0 ∧
    after (.loReadLatch 0x3FFFFFC 4) { openDev with hostRead := 5 } (fun d => decide (d.hostRead = 0)) ∧
    after (.loReadLatch 0x2400000 4) { openDev with hostRead := 5 } (fun d => decide (d.hostRead = 0)) ∧
    after (.hostRegisterWrite 0x2400000 4 7 0) openDev (fun d => !d.isSet F.SYS_FLAGS_BAD_ACCESS) := by decide +kernel


/-! What the wider statements ask for. -/

/-- A word of START on stream 7 on its way from port 3 of engine 0, which has an earlier word of the class on another port when `p` is 4. -/
def wayDev (p : Nat) : Device :=
  { (({} : Device).setEng 0 (({} : Engine).setPort 3 { outstanding := true })) with
    issued := [⟨0, p, 2 * 2 ^ 58 + 2 * 2 ^ 53, []⟩, ⟨0, 3, 2 * 2 ^ 58 + 2 ^ 53 + 7, []⟩] }

theorem test_word_comes : Device.takes {} 2 1 (cmdOf 7 0) = true ∧ (cmdOf 7 0).unit < 8 ∧ 8 ≤ (cmdOf 8 0).unit ∧
    (({} : Device).setEng 0 (({} : Engine).setPort 3 { outstanding := true })).takes 2 1 (cmdOf 7 0) = false ∧
    (wayDev 5).takes 2 1 (cmdOf 7 0) = false ∧ (wayDev 5).takes 2 2 (cmdOf 7 0) = false ∧
    ({ wayDev 5 with issued := (wayDev 5).issued.drop 1 } : Device).takes 2 1 (cmdOf 7 0) = true ∧
    ({ wayDev 5 with issued := (wayDev 5).issued.drop 1 } : Device).takes 2 1 (cmdOf 6 0) = false ∧
    after (.lnkStart (cmdOf 8 0)) {} (fun d => decide (d.completions = [⟨0, 3, cUNSUP, none⟩])) ∧
    after (.lnkStart (cmdOf 7 0)) (wayDev 5) (fun d => decide (d.issued.length = 2) && d.completions.isEmpty) ∧
    after (.clkOutputStart (cmdOf 8 1)) {} (fun d => decide (d.completions = [⟨0, 3, cUNSUP, none⟩])) := by decide +kernel

/-- A frame of 2^17 points of context 3 with `n` sub-transforms done. -/
def longFrame (n : Nat) : Frame := { frame3 with set := { desc := le [7, 17, 64] }, subs := n }

theorem test_long_frame : longN1 17 + longN2 17 = 768 ∧ cLog (longFrame 0).set.desc = 17 ∧ (longFrame 0).subs < longN2 17 ∧
    ({ runDev with ready := [longFrame 767], pipeFree := [] } : Device).dispatch 1 0 = some (0, 0) ∧ timeLT (0 : Time) 0 = false ∧
    after (.frameReady false) { runDev with ready := [longFrame 5] } (fun d => decide (d.ready.map (fun f => f.subs) = [6]) && d.flight.isEmpty) ∧
    after (.frameReady true) { runDev with ready := [longFrame 767] } (fun d => d.ready.isEmpty && decide (d.flight.length = 1)) ∧
    after (.frameReady false) { runDev with ready := [{ longFrame 5 with mask := 0 }] } (fun d => d.isSet F.XF_FLAGS_SKIP) ∧
    after (.frameReady false) { runDev with ready := [longFrame 5, frame3], pipeFree := [(0, some 9)] } (fun d =>
      decide (d.ready.map (fun f => f.subs) = [0, 5])) := by decide +kernel

theorem test_decay_window : deHalf (denEnt 1) = 1000 ∧ deMem (denEnt 1) = true ∧ (planeDev 1).isSet (F.DEN_P_STAT_ACTIVE 15) = true ∧
    ((planeDev 0 (some (snapOf true true true 0))).plane 15).snap = some (snapOf true true true 0) ∧ (planeDev 0).ctxDone 3 5 = true ∧
    after (.snapshotMerged 15) (planeDev 0 (some (snapOf true true false 0))) (fun d => (d.plane 15).snap.isSome) := by decide +kernel

/-- A SEQUENCE of two units whose first step was set at 5, decided far beyond its window of 1 ns. -/
def seqDev : Device := { (trigDev 6 2).setTunit 63 { steps := [(0, some 5)] } with time := BitVec.ofNat 64 (2 ^ 40) }

theorem test_sequence_window : seqDev.tKeys 63 = [63] ∧ sKind (seqDev.tNow 63) = 6 ∧ 2 ≤ seqDev.tState 63 ∧ (seqDev.tunit 63).inbox = [] ∧
    Sparse.get (fun _ => none) (seqDev.tunit 63).steps 0 = some (5 : Time) ∧ 0 ∉ (seqDev.tunit 63).used ∧
    (trigDev 5 2).tKeys 63 = [63] ∧ sKind ((trigDev 5 2).tNow 63) ≠ 6 := by decide +kernel

theorem test_capture_ends : (capDev 5).acState 63 = 5 ∧ ((capDev 3).setFld (F.ACQ_B_CFG_MODE 63) 1).acStream 63 = true ∧ (capDev 3).acStream 63 = false ∧
    ((capDev 1).reqs .acqArm) = [] ∧
    after (.acqBCtlDisarm 63) { capDev 1 with breqs := [⟨.acqArm, 63, 0, 0, .port 0 4, [0]⟩] } (fun d =>
      decide (d.acState 63 = 0) && d.breqs.isEmpty && decide (d.completions = [⟨0, 4, cNOTARMED, none⟩])) ∧
    after (.captureRecordPush 63) (((qDev []).setCap 63 { recs := [(5, [8])] }).setFld (F.ACQ_B_STAT_STATE 63) 4) (fun d =>
      decide (d.acState 63 ≠ 4)) := by decide +kernel

theorem test_vacant_mailbox : after (.mbH2eWrWrite 31 5 true) (devEng 496 { state := 4 }) (fun d =>
      decide (d.rdN (Reg.MB_H2E_WR 31) = 5) && decide (d.rdN (Reg.CL_VACANT_DROP_CNT 31) = 1)) ∧
    after (.mbH2eWrWrite 31 5 true) ((devEng 496 { state := 4 }).wr (Reg.MB_H2E_WR 31) 5) (fun d =>
      decide (d.rdN (Reg.CL_VACANT_DROP_CNT 31) = 0)) := by decide +kernel

theorem test_restarts : (imgDev 3 imgCrc).canRestart = true ∧ bitAt (cmdOf 0 0).imm 0 = false ∧ (imgDev 3 imgCrc).takes 0 3 (cmdOf 0 0) = true ∧
    (imgDev 3 0).flashPast (imgBytes imgCrc) = false := by decide +kernel
theorem test_flash_past : ((imgDev 3 0).wr64 Reg.SYS_IMG_BASE_LO (Config.memSize - 64)).flashPast (imgBytes imgCrc) = true ∧
    after (.flashImageRead (imgBytes imgCrc) true) { (imgDev 3 0).wr64 Reg.SYS_IMG_BASE_LO (Config.memSize - 64) with sys := { flash := some (0, false) } } (fun d =>
      decide (d.sys.flash = some (1, false)) && decide (d.fld F.SYS_IMG_STAT_CODE = cLENGTH)) := by decide +kernel

theorem test_wake_steps : Device.wakeTick { slpDev 7 true (some 9) with time := 9 } = { slpDev 7 true (some 9) with time := 9 } ∧
    (let t := (9 : Time) + nsTime 3500000; timeLE (9 + nsTime 500000) t = true ∧ timeLE (9 + nsTime 3500000) t = true ∧
      timeLE (9 + nsTime 4000000) t = false) ∧
    ((Device.wakeTick { slpDev 7 true (some 9) with time := 9 + nsTime 3500000 }).sys.wakeStep = 1) ∧
    (∀ q ∈ (slpDev 6 false none).seqs, (slpDev 6 false none).seqNext q = none) ∧
    after .sleepEntryDone (slpDev 6 false none) (fun d => d.sys.asleep) := by decide +kernel

/-- A job of a group of two from queue 5 with a flush time of 9 ns, one byte open. -/
def qDesc : List Byte := le [0x201, 5, 0, 0, 0, 0, 0x100000, 0, 131140, 9]

theorem test_group : zGroup qDesc = 2 ∧ zKind qDesc = 1 ∧ zFlush qDesc = 9 ∧ ((zDev 1 { desc := zDesc, work := [(0, [7], true)] }).zjob 31).isSome = true ∧
    (((qDev []).setFld (F.CMP_Z_STAT_STATE 31) 5).setFld (F.CMP_Z_STAT_LEADER 31) 30).zState 31 = 5 ∧
    [(0, [(7 : Byte)], true)].find? (fun w => decide (w.1 % max 1 (zGroup zDesc) = 0)) = some (0, [7], true) ∧
    after (.cmpCont (cmdOf 31 0 (le [0x100000, 0, 65570, 0]))) (zDev 1 { desc := zDesc, ext := 0x100000, extLen := 65570 }) (fun d =>
      decide (d.fld (F.CMP_Z_STAT_CODE 31) = cOVERLAP)) ∧
    after (.cmpCont (cmdOf 31 0 (le [0x200000, 0, 65570, 0]))) (zDev 1 { desc := zDesc, ext := 0x100000, extLen := 65570, pend := some (0x300000, 65570) }) (fun d =>
      decide (d.fld (F.CMP_Z_STAT_CODE 31) = cBUSY)) ∧
    after (.cmpEnd (cmdOf 31 0)) (zDev 1 { desc := zDesc, fin := some (3, 0) }) (fun d => decide (d.zState 31 = 1)) ∧
    after (.compressFlushTimeout 31) { zDev 1 { desc := qDesc, opened := [7], inEnd := true } with time := nsTime 9 } (fun d =>
      decide ((d.zjob 31).map (fun j => j.work) = some [(0, [7], true)])) ∧
    after (.compressFlushTimeout 31) { zDev 1 { desc := qDesc, opened := [7], inEnd := true } with time := nsTime 9 - 1 } (fun d =>
      decide ((d.zjob 31).map (fun j => j.work) = some [])) := by decide +kernel
theorem test_decompress_ends : after (.cmpDend (cmdOf 7 0)) (uDev { desc := uDesc, fin := some (3, 0) }) (fun d => decide (d.uState 7 = 1)) ∧
    after (.compressedRecordPush 39) ((qDev []).setUjob 7 (some { desc := zDesc, recs := [[8]] })) (fun d =>
      decide ((d.ujob 7).map (fun k => k.recs) = some [])) := by decide +kernel

theorem test_row_threshold : after (.memReadComplete 96 42 1 0) (memDev.setFld F.MEM_REPAIR_CFG_CE_THRESH 1) (fun d =>
      decide (d.rdN Reg.MEM_CE_CNT = 1) && d.memc.repair.isSome) ∧
    after (.scrubRead 0 0) { memDev.setFld F.MEM_SCRUB_CFG_EN 1 with memc := { rowCe := [(3, 2)] } } (fun d =>
      d.memc.rowCe.isEmpty && decide (d.rd64 Reg.MEM_SCRUB_POS_LO = 32)) := by decide +kernel

/-- Channels 63 and 62 ready on one ring, 62 of higher priority. -/
def priDev : Device :=
  (((dmaDev.setFld (F.DMA_C_CFG_EN 62) 1).wr (Reg.DMA_C_RING_SIZE 62) 1).wr (Reg.DMA_C_TAIL 62) 1).setFld (F.DMA_C_CFG_PRI 62) 1

theorem test_priority : priDev.dmaServes 62 = true ∧ priDev.fld (F.DMA_C_CFG_PRI 63) < priDev.fld (F.DMA_C_CFG_PRI 62) ∧
    after (.descriptorFetch 63) priDev (fun d => decide (d.dma 63 = none)) ∧
    after (.descriptorFetch 62) { priDev with mem := place 8192 fillDesc } (fun d => decide ((d.dma 62).map (fun j => j.desc) = some fillDesc)) := by decide +kernel

/-- A modulator at the top of its accumulators with dither; two roots that run the values asked, and two that do not. -/
def mashTop : Mash := { frac := 1, seed := 5, a1 := 2 ^ 32 - 1, a2 := 2 ^ 32 - 1, a3 := 2 ^ 32 - 1, lfsr := 1 }

theorem test_modulator : mashTop.cycle.a1 = 1 ∧ mashTop.cycle.a2 = 0 ∧ mashTop.cycle.a3 = 2 ^ 32 - 1 ∧ mashTop.cycle.out = 2 ∧
    (Device.wr {} Reg.CLK_CUR_FRAC 5).mashWant 0 ≠ ((Device.wr {} Reg.CLK_CUR_FRAC 5).mash 0).values ∧
    (Device.wr {} Reg.CLK_CUR_FRAC 5).mashWant 0 ≠ ((Device.wr {} Reg.CLK_CUR_FRAC 5).mash 1).values ∧
    ((Device.wr {} Reg.CLK_CUR_FRAC 5).mashLoad 0).mash 0 = { cfg := ({} : Device).rdN Reg.CLK_CUR_CFG, frac := 5, seed := ({} : Device).rdN Reg.CLK_CUR_SEED, lfsr := ({} : Device).rdN Reg.CLK_CUR_SEED } ∧
    Device.mash {} 0 = Device.mash {} 1 ∧ Device.mashWant {} 0 = Device.mashWant {} 1 := by decide +kernel
theorem test_probe_refused : after (.clkProbeGo 255) (rootOn.setFld F.CLK_STAT_STANDBY_READY 0) (fun d =>
      decide (d.fld F.CLK_PROBE_RESULT_CODE = cBUSY)) ∧
    after (.clkProbeGo 255) (rootOn.setFld F.CLK_STAT_REF_PRESENT 0) (fun d => decide (d.fld F.CLK_PROBE_RESULT_CODE = cREFLOST)) := by decide +kernel
theorem test_dead_window : ((evDev 0).edgeStamp 15 82000 1).toNat = 82000 ∧ 81265 ≤ 82000 ∧ 82000 ≤ 82575 ∧
    ((evDev 0).wr64 (Reg.EVT_I_EDGES_LO 15) 1).rd64 (Reg.EVT_I_EDGES_LO 15) ≠ 0 := by decide +kernel

/-- Device 1, a member, linked over link 5 to device 0 and over link 4 to device 2; a message that it passes on. -/
def relayDev (used : Nat) : Device :=
  (((casDev1 2).setFld (F.CAS_L_CFG_RUN 4) 1).setFld (F.CAS_L_CFG_PEER 4) 2).setCasLink 4 { used := used }
def msgOn : CasMsg := ⟨5, false, 65535, 0, 2, 255, true⟩

theorem test_relay : (relayDev 0).linkTo 2 = some 4 ∧ (relayDev 0).casRole ≠ 0 ∧ msgOn.dst ≠ (relayDev 0).casSelf ∧ casSize [] ≤ 262144 ∧
    after (.recordMessage msgOn 5 []) (relayDev 0) (fun d => decide (d.outbox.length = 1) && decide ((d.casLink 4).used = casSize [])) ∧
    after (.recordMessage msgOn 5 []) (relayDev 262144) (fun d => d.outbox.isEmpty && decide (d.rdN Reg.CAS_TX_DROP_CNT = 1)) ∧
    after (.decidedMessage msgOn 5) (relayDev 262144) (fun d => decide (d.outbox.length = 1)) := by decide +kernel
theorem test_form_refused : after (.nakMessage msgTo0 3 cUNSUP)
      ((casDev0.setFld F.CAS_CMD_STAT_BUSY 1).setCasLink 5 { wait := [⟨3, 1, 0, 1, [], 0, 0⟩] }) (fun d =>
        decide (d.cas.formCode = cUNSUP)) ∧
    after (.nakMessage msgTo0 3 cUNSUP) casDev0 (fun d => decide (d.cas.formCode = 0)) := by decide +kernel
theorem test_takeover_waits : Device.casWaiting casDev0 = casDev0 ∧
    (let d : Device := { spareDev.setFld F.CAS_CMD_STAT_BUSY 1 with cas := { spareDev.cas with takeovers := [1] } }; d.casWaiting = d) ∧
    (({ spareDev with cas := { spareDev.cas with takeovers := [1] } } : Device).casWaiting).cas.change = some ⟨.device, 3, 1, 15⟩ ∧
    after (.deviceLostTimeout 1) { (((spareDev.setFld F.CAS_CFG_AUTO_TAKEOVER 1).setFld F.CAS_CMD_STAT_BUSY 1).setFld (F.CAS_D_STAT_STATE 1) 2).wr
      Reg.CAS_TIMEOUT 5 with time := nsTime 5 } (fun d => decide (d.cas.takeovers = [1])) := by decide +kernel

theorem test_layers : (∀ l, l < 4 → bitAt ((pnlDev 0).rdN (Reg.PNL_L_CFG l)) 0 = false ∧ bitsOf ((pnlDev 0).rdN (Reg.PNL_L_CFG l)) 1 2 ≠ 3) ∧
    bitsOf (((pnlDev 0).wr (Reg.PNL_L_CFG 3) 6).rdN (Reg.PNL_L_CFG 3)) 1 2 = 3 := by decide +kernel

def chainDev : Device :=
  (((devWith [(Reg.CAS_L_CFG 0, 1), (Reg.CAS_L_CFG 1, 5)]).setFld F.CAS_CFG_TOPO 1).setFld F.CAS_CFG_ACCEPT 1)
theorem test_chain : chainDev.casNum = some 1 ∧ chainDev.linkTo 3 = some 1 ∧
    after (.roleMessage { msgOf 0 2 true with link := 0 } 1 8 [(1, 4, 2)]) chainDev (fun d => d.breqs.isEmpty && decide (d.outbox.length = 1)) ∧
    after (.roleMessage { msgOf 0 1 true with link := 0 } 1 8 [(1, 4, 2)]) chainDev (fun d => d.hasReq [.role] 0) := by decide +kernel
theorem test_standby_rests : after (.recordMessage (msgOf 65535 1 true) 5 []) (casDev1 3) (fun d => decide (d.rdN Reg.QUE_DISABLED_DROP_CNT = 0)) ∧
    (casDev1 3).casWorks = false := by decide +kernel

end Sys2Proof.Tests
end

section
/-! SUPPORT. The bits of the words that a register write puts together (R3, R4). -/

namespace Sys2Proof.Machine

theorem bitAt_eq_testBit (n i : Nat) : bitAt n i = n.testBit i := by
  rw [Nat.testBit_eq_decide_div_mod_eq]; rfl

theorem bitAt_land (m n i : Nat) : bitAt (Nat.land m n) i = (bitAt m i && bitAt n i) := by
  simp only [bitAt_eq_testBit]; exact Nat.testBit_land m n i

theorem bitAt_lor (m n i : Nat) : bitAt (Nat.lor m n) i = (bitAt m i || bitAt n i) := by
  simp only [bitAt_eq_testBit]; exact Nat.testBit_lor m n i

/-- Numbers without a set bit in common add without a carry. -/
theorem testBit_add_of_disjoint (i m n : Nat) (h : ∀ j, (m.testBit j && n.testBit j) = false) :
    (m + n).testBit i = (m.testBit i || n.testBit i) := by
  have h0 : ¬(m % 2 = 1 ∧ n % 2 = 1) := by simpa [Nat.testBit_zero] using h 0
  induction i generalizing m n with
  | zero => simp only [Nat.testBit_zero]; grind
  | succ i ih =>
    have half : (m + n) / 2 = m / 2 + n / 2 := by omega
    have hs : ∀ j, ((m / 2).testBit j && (n / 2).testBit j) = false := fun j => by
      simpa only [Nat.testBit_succ] using h (j + 1)
    simp only [Nat.testBit_succ, half]
    exact ih _ _ hs (by simpa [Nat.testBit_zero] using hs 0)

/-- Taking away a number whose set bits are set clears those bits. -/
theorem bitAt_sub (m n i : Nat) (h : ∀ j, bitAt n j = true → bitAt m j = true) :
    bitAt (m - n) i = (bitAt m i && !bitAt n i) := by
  simp only [bitAt_eq_testBit] at h ⊢
  have hsum : Nat.ldiff m n + n = m := Nat.eq_of_testBit_eq fun j => by
    rw [testBit_add_of_disjoint _ _ _ (fun k => by rw [Nat.testBit_ldiff]; cases n.testBit k <;> simp), Nat.testBit_ldiff]
    cases hn : n.testBit j with
    | false => simp
    | true => simp [h j hn]
  rw [show m - n = Nat.ldiff m n by omega, Nat.testBit_ldiff]

/-- A word with the bits of a mask taken from `v` and the others kept. -/
theorem bitAt_masked (old v mask i : Nat) :
    bitAt (Nat.lor (Nat.land v mask) (old - Nat.land old mask)) i = if bitAt mask i then bitAt v i else bitAt old i := by
  rw [bitAt_lor, bitAt_land, bitAt_sub _ _ _ (fun j h => by rw [bitAt_land, Bool.and_eq_true] at h; exact h.1), bitAt_land]
  cases bitAt mask i <;> simp

end Sys2Proof.Machine
end

section
/-! SUPPORT. What a host read of a register returns and leaves (R3, R6, R7, R12, R599). -/

namespace Sys2Proof.Machine

/-! Registers. -/

theorem Device.rd_wr_other (d : Device) (a b v : Nat) (h : b ≠ a) : (d.wr a v).rd b = d.rd b :=
  Sparse.get_set_other _ _ _ _ _ h

/-- Counting bytes leaves every register but the counter's pair. -/
theorem Device.rd_add64_other (d : Device) (lo n b : Nat) (h : b ≠ lo) (h' : b ≠ lo + 4) : (d.add64 lo n).rd b = d.rd b := by
  rw [Device.add64, Device.wr64, Device.rd_wr_other _ _ _ _ h', Device.rd_wr_other _ _ _ _ h]

theorem Device.wr_eq (d : Device) (a v : Nat) : ∃ regs, d.wr a v = { d with regs := regs } := ⟨_, rfl⟩

/-- Counting bytes changes registers alone. -/
theorem Device.add64_eq (d : Device) (lo n : Nat) : ∃ regs, d.add64 lo n = { d with regs := regs } := by
  obtain ⟨m, e⟩ := d.wr_eq lo ((d.rd64 lo + n) % 2 ^ 64 % 2 ^ 32)
  obtain ⟨m', e'⟩ := Device.wr_eq { d with regs := m } (lo + 4) ((d.rd64 lo + n) % 2 ^ 64 / 2 ^ 32)
  exact ⟨m', by rw [Device.add64, Device.wr64, e, e']⟩

/-! Where an access goes. -/

theorem blockAt_eq_some {a base stride n i o : Nat} :
    blockAt a base stride n = some (i, o) ↔
      base ≤ a ∧ a < base + stride * n ∧ (a - base) / stride = i ∧ (a - base) % stride = o := by
  unfold blockAt; split <;> simp_all

/-- Registers lie below the addresses that name BAR4 (R46, R52). -/
theorem bar0Loc_reg_lt {a : Nat} (h : bar0Loc a = .reg) : a < 2 ^ 32 := by
  by_contra hlt
  unfold bar0Loc at h
  rw [if_neg (by omega), if_neg (by omega)] at h
  split at h <;> cases h

theorem bar0Fits_eight {a : Nat} (h : bar0Fits a 8 = true) : bar0Loc a = .reg := by
  simp [bar0Fits] at h; exact h.1.2

theorem Device.bar0Read_refused {d : Device} {a len : Nat} (event : Bool) (h : bar0Fits a len = false ∨ d.windowOpen a = false) :
    d.bar0Read a len event = (allOnes len, d.badAccess) := by
  unfold Device.bar0Read; rw [if_pos (by simpa using h)]

/-- A 32-bit access to a register reaches the register. -/
theorem Device.bar0Read_reg {d : Device} {a : Nat} (event : Bool) (hf : bar0Fits a 4 = true) (ho : d.windowOpen a = true)
    (hl : bar0Loc a = .reg) : d.bar0Read a 4 event = d.regRead a event := by
  unfold Device.bar0Read
  rw [if_neg (by simp [hf, ho])]
  simp only [hl]
  exact if_neg (by decide)

/-- A 64-bit access that fits is one to a pair. -/
theorem Device.bar0Read_pair {d : Device} {a : Nat} (event : Bool) (hf : bar0Fits a 8 = true) (ho : d.windowOpen a = true) :
    d.bar0Read a 8 event = d.pairRead a := by
  unfold Device.bar0Read
  rw [if_neg (by simp [hf, ho])]
  simp only [bar0Fits_eight hf, if_true]

/-! What a read returns. -/

theorem Device.peek_shown {d : Device} {a : Nat} (h : measured a = false) : d.peek a = (d.view a, d) := by
  simp [Device.peek, h]

theorem Device.peek_quiet {d : Device} {a : Nat} (h : measured a = true) (hq : d.quiet a = true) :
    d.peek a = (if measuredBits a = 32 then d.rdN a else 0, d) := by
  simp [Device.peek, h, hq]

theorem Device.peek_drawn {d : Device} {a : Nat} (h : measured a = true) (hq : d.quiet a = false) :
    d.peek a = (min ((if measuredBits a = 32 then d.rdN a else 0) + Config.free d.freeCount % 2 ^ measuredBits a)
      (2 ^ measuredBits a - 1), { d with freeCount := d.freeCount + 1 }) := by
  simp [Device.peek, h, hq, Device.draw]

/-- Looking at a register at most draws a free value. -/
theorem Device.peek_frame (d : Device) (a : Nat) : ∃ n, (d.peek a).2 = { d with freeCount := n } := by
  cases hm : measured a with
  | false => exact ⟨d.freeCount, by rw [Device.peek_shown hm]⟩
  | true =>
    cases hq : d.quiet a with
    | true => exact ⟨d.freeCount, by rw [Device.peek_quiet hm hq]⟩
    | false => exact ⟨_, by rw [Device.peek_drawn hm hq]⟩

/-- A register is looked at and what it shows is latched (R7). -/
def Device.latchShown (d : Device) (b : Nat) : Device := (d.peek b).2.latch b (d.peek b).1

theorem Device.regRead_eq (d : Device) (a : Nat) (event : Bool) (h : Sparse.get (fun _ => none) d.hiLatch a = (none : Option Word)) :
    d.regRead a event = ((d.peek a).1, ((latchedBy a).foldl Device.latchShown (d.peek a).2).rcAfter a event) := by
  unfold Device.regRead; simp only [h]; rfl

theorem Device.pairRead_shown {d : Device} {a : Nat} (h : measured a = false) (h' : measured (a + 4) = false) :
    d.pairRead a = (d.view a + d.view (a + 4) * 2 ^ 32, d.latch (a + 4) (d.view (a + 4))) := by
  simp only [Device.pairRead, Device.peek_shown h, Device.peek_shown h']

theorem Device.regRead_kept {d : Device} {a : Nat} {w : Word} (event : Bool) (h : Sparse.get (fun _ => none) d.hiLatch a = some w)
    (hl : latchedBy a = []) : d.regRead a event = (w.toNat, d.rcAfter a event) := by
  unfold Device.regRead; simp only [h, hl, List.foldl_nil]

/-- Latching registers changes the latch alone, but for free values drawn. -/
theorem Device.foldl_latchShown_frame (l : List Nat) (d : Device) :
    ∃ h n, l.foldl Device.latchShown d = { d with hiLatch := h, freeCount := n } := by
  induction l generalizing d with
  | nil => exact ⟨d.hiLatch, d.freeCount, rfl⟩
  | cons b l ih =>
    obtain ⟨n, hn⟩ := d.peek_frame b
    obtain ⟨h', n', e⟩ := ih (d.latchShown b)
    exact ⟨h', n', by rw [List.foldl_cons, e, Device.latchShown, hn]; rfl⟩

/-! What a read clears (R3, R12). -/

theorem Device.rcAfter_of_rc_zero {d : Device} {a : Nat} {r : RegRow} (event : Bool) (hr : regRow a = some r) (h : r.rc = 0) :
    d.rcAfter a event = d := by
  simp [Device.rcAfter, hr, h]

/-- A register that no read clears and that latches no other shows its value, and the read changes nothing else. -/
theorem Device.regRead_plain {d : Device} {a : Nat} {r : RegRow} (event : Bool) (hr : regRow a = some r) (h : r.rc = 0)
    (hl : latchedBy a = []) (hk : Sparse.get (fun _ => none) d.hiLatch a = (none : Option Word)) : d.regRead a event = d.peek a := by
  rw [Device.regRead_eq _ _ _ hk, hl, List.foldl_nil, Device.rcAfter_of_rc_zero event hr h]

/-- A counter that is neither QUE_Q_PEAK nor CL_BANK_CONFLICT_CNT. -/
theorem Device.rcAfter_counter {d : Device} {a : Nat} {r : RegRow} (event : Bool) (hr : regRow a = some r) (h : r.rc = 0xFFFFFFFF)
    (hq : ∀ q, blockAt a 0x710000 0x40 4096 ≠ some (q, 0x38)) (hk : ∀ k, blockAt a 0x1000000 0x80000 32 ≠ some (k, 0x60030)) :
    d.rcAfter a event = d.wr a (if event then 1 else 0) := by
  have all : Nat.land (d.rdN a) 0xFFFFFFFF = d.rdN a :=
    (Nat.and_two_pow_sub_one_eq_mod (d.rdN a) 32).trans (Nat.mod_eq_of_lt (d.rdN_lt a))
  simp only [Device.rcAfter, hr, h]
  rw [if_neg (by decide), all, Nat.sub_self, Nat.zero_add]

/-- CL_BANK_CONFLICT_CNT: its cluster counts as untouched again (R253). -/
theorem Device.rcAfter_bankConflict {d : Device} {a k : Nat} {r : RegRow} (event : Bool) (hr : regRow a = some r) (h : r.rc ≠ 0)
    (hk : blockAt a 0x1000000 0x80000 32 = some (k, 0x60030)) :
    d.rcAfter a event = Device.wr { d with bankUsed := d.bankUsed.filter (fun c => decide (c ≠ k)) } a (if event then 1 else 0) := by
  have hq : blockAt a 0x710000 0x40 4096 = none := by
    obtain ⟨hlo, -, -, -⟩ := blockAt_eq_some.mp hk
    exact if_neg (by omega)
  simp only [Device.rcAfter, hr, if_neg h, hk, hq]

/-- A counter but QUE_Q_PEAK after its read: the event of the same cycle is kept. -/
theorem Device.rcAfter_frame {d : Device} {a : Nat} {r : RegRow} (event : Bool) (hr : regRow a = some r) (h : r.rc = 0xFFFFFFFF)
    (hq : ∀ q, blockAt a 0x710000 0x40 4096 ≠ some (q, 0x38)) :
    ∃ used, d.rcAfter a event = Device.wr { d with bankUsed := used } a (if event then 1 else 0) := by
  by_cases hk : ∃ k, blockAt a 0x1000000 0x80000 32 = some (k, 0x60030)
  · obtain ⟨k, hk⟩ := hk
    exact ⟨_, Device.rcAfter_bankConflict event hr (by omega) hk⟩
  · exact ⟨d.bankUsed, Device.rcAfter_counter event hr h hq (fun k e => hk ⟨k, e⟩)⟩

/-- A device whose latch, free values and bank accesses are those that a read leaves. -/
def Device.leftByRead (d : Device) (h : Sparse (Option Word)) (n : Nat) (used : List Nat) : Device :=
  { d with hiLatch := h, freeCount := n, bankUsed := used }

@[simp] theorem Device.leftByRead_rd (d : Device) (h : Sparse (Option Word)) (n : Nat) (used : List Nat) (a : Nat) :
    (d.leftByRead h n used).rd a = d.rd a := rfl

/-- A read of a counter but QUE_Q_PEAK: it shows the count before the event of its cycle, and leaves that event (R12). -/
theorem Device.regRead_counter {d : Device} {a : Nat} {r : RegRow} (event : Bool) (hr : regRow a = some r) (h : r.rc = 0xFFFFFFFF)
    (hq : ∀ q, blockAt a 0x710000 0x40 4096 ≠ some (q, 0x38)) (hk : Sparse.get (fun _ => none) d.hiLatch a = (none : Option Word)) :
    ∃ l n used, d.regRead a event = ((d.peek a).1, (d.leftByRead l n used).wr a (if event then 1 else 0)) := by
  obtain ⟨n, hp⟩ := d.peek_frame a
  obtain ⟨l, m, hl⟩ := Device.foldl_latchShown_frame (latchedBy a) (d.peek a).2
  obtain ⟨used, hc⟩ := Device.rcAfter_frame (d := { d with hiLatch := l, freeCount := m }) event hr h hq
  exact ⟨l, m, used, by rw [Device.regRead_eq _ _ _ hk, hl, hp, hc]; rfl⟩

/-! What the host has read. -/

/-- What the host reads stands in hostRead, and the bytes sent are counted. -/
theorem Device.readDone_eq (p : Nat × Device) (len : Nat) :
    ∃ regs, Device.readDone p len = { p.2 with regs := regs, hostRead := p.1, hostReadEp := false } := by
  obtain ⟨m, e⟩ := Device.add64_eq { p.2 with hostRead := p.1, hostReadEp := false } Reg.HIF_TX_BYTES_LO len
  exact ⟨m, by rw [Device.readDone, e]⟩

theorem Device.hostRead_readDone (p : Nat × Device) (len : Nat) : (Device.readDone p len).hostRead = p.1 := rfl

/-- What the host reads leaves every register but the count of bytes sent. -/
theorem Device.rd_readDone_other {p : Nat × Device} {len b : Nat} (h : b ≠ Reg.HIF_TX_BYTES_LO) (h' : b ≠ Reg.HIF_TX_BYTES_LO + 4) :
    (Device.readDone p len).rd b = p.2.rd b := Device.rd_add64_other _ _ _ _ h h'

theorem Device.readDone_frame (d : Device) (h : Sparse (Option Word)) (n : Nat) (used : List Nat) (a x v len : Nat) :
    let d' := Device.readDone (v, (d.leftByRead h n used).wr a x) len
    d' = { d with regs := d'.regs, hiLatch := d'.hiLatch, hostRead := d'.hostRead, hostReadEp := false, freeCount := d'.freeCount,
                  bankUsed := d'.bankUsed } := by
  intro d'
  obtain ⟨regs, e⟩ := Device.wr_eq (d.leftByRead h n used) a x
  obtain ⟨regs', e'⟩ := Device.readDone_eq (v, (d.leftByRead h n used).wr a x) len
  rw [show d' = _ from e', e]
  rfl

/-! The rows. -/

/-- A host read of BAR0. -/
theorem gives_loReadLatch {a len : Nat} {s : State} {f : Device → Device} (ha : a < 2 ^ 32)
    (h : Device.readDone (s.dev.bar0Read a len false) len = f s.dev) : Gives (.loReadLatch a len) s f := by
  show execLoReadLatch a len s = _
  rw [execLoReadLatch, State.run_eq, if_pos ha, h]

theorem gives_counterRead {a : Nat} {event : Bool} {s : State} {f : Device → Device}
    (h : Device.readDone (s.dev.bar0Read a 4 event) 4 = f s.dev) : Gives (.counterRead a event) s f := by
  show execCounterRead a event s = _
  rw [execCounterRead, State.run_eq, h]

theorem reaches_counterRead {a : Nat} {event : Bool} {s : State} {P : Device → Prop}
    (h : P (Device.readDone (s.dev.bar0Read a 4 event) 4)) : Reaches (.counterRead a event) s P :=
  ⟨_, rfl, rfl, h⟩

/-! Counters and measured registers. -/

/-- HIF_TX_BYTES, which every read advances, is no counter that a read clears. -/
theorem counter_ne_txBytes {a : Nat} {r : RegRow} (hr : regRow a = some r) (h : r.rc = 0xFFFFFFFF) :
    a ≠ Reg.HIF_TX_BYTES_LO ∧ a ≠ Reg.HIF_TX_BYTES_LO + 4 := by
  have plain : ∀ b ∈ [Reg.HIF_TX_BYTES_LO, Reg.HIF_TX_BYTES_LO + 4], (regRow b).map RegRow.rc = some 0 := by decide
  have off : ∀ b ∈ [Reg.HIF_TX_BYTES_LO, Reg.HIF_TX_BYTES_LO + 4], a ≠ b := fun b hb e => by
    have := plain b hb
    rw [← e, hr, Option.map_some, h] at this
    cases this
  exact ⟨off _ (by simp), off _ (by simp)⟩

/-- What a register that averages reads as when its last event lies 1 ms back (R599). -/
theorem Device.quiet_of_latency {d : Device} {a : Nat} (hl : latency a = true)
    (h : ∀ t, Sparse.get (fun _ => none) d.latAt a = some t → timeLE (t + nsTime 1000000) d.time = true) : d.quiet a = true := by
  rw [Device.quiet, if_pos hl]
  cases ht : (Sparse.get (fun _ => none) d.latAt a : Option Time) with
  | none => rfl
  | some t => exact h t ht

/-- Where CL_BANK_CONFLICT_CNT of a cluster lies and what kind of register it is (R253). -/
theorem bankConflict_facts : ∀ k, k < 32 →
    blockAt (Reg.CL_BANK_CONFLICT_CNT k) 0x1000000 0x80000 32 = some (k, 0x60030) ∧
    bar0Fits (Reg.CL_BANK_CONFLICT_CNT k) 4 = true ∧ bar0Loc (Reg.CL_BANK_CONFLICT_CNT k) = .reg ∧
    measuredBits (Reg.CL_BANK_CONFLICT_CNT k) = 32 ∧ latency (Reg.CL_BANK_CONFLICT_CNT k) = false ∧
    latchedBy (Reg.CL_BANK_CONFLICT_CNT k) = [] ∧ (regRow (Reg.CL_BANK_CONFLICT_CNT k)).map RegRow.rc = some 0xFFFFFFFF := by
  decide

theorem Device.quiet_bankConflict (d : Device) {k : Nat} (hk : k < 32) :
    d.quiet (Reg.CL_BANK_CONFLICT_CNT k) = !decide (k ∈ d.bankUsed) := by
  obtain ⟨hb, -, -, -, hlat, -⟩ := bankConflict_facts k hk
  have hx : blockAt (Reg.CL_BANK_CONFLICT_CNT k) 0x400400 0x10 16 = none := if_neg (by unfold Reg.CL_BANK_CONFLICT_CNT; omega)
  simp [Device.quiet, hlat, hb, hx]

/-- A register that is not measured is not CL_BANK_CONFLICT_CNT. -/
theorem blockAt_ne_of_not_measured {a : Nat} (h : measured a = false) (k : Nat) :
    blockAt a 0x1000000 0x80000 32 ≠ some (k, 0x60030) := by
  intro e
  obtain ⟨hlo, hhi, hi, ho⟩ := blockAt_eq_some.mp e
  obtain ⟨-, -, -, hm, -⟩ := bankConflict_facts k (by omega)
  have ha : a = Reg.CL_BANK_CONFLICT_CNT k := by unfold Reg.CL_BANK_CONFLICT_CNT; omega
  simp [measured, ha, hm] at h

/-- What CL_BANK_CONFLICT_CNT holds is part of what it shows; it is all of it when its cluster's memories have not been accessed. -/
theorem Device.peek_bankConflict (d : Device) {k : Nat} (hk : k < 32) :
    ∃ v n, d.rdN (Reg.CL_BANK_CONFLICT_CNT k) ≤ v ∧ d.peek (Reg.CL_BANK_CONFLICT_CNT k) = (v, { d with freeCount := n }) ∧
      (k ∉ d.bankUsed → v = d.rdN (Reg.CL_BANK_CONFLICT_CNT k) ∧ n = d.freeCount) := by
  obtain ⟨-, -, -, hbits, -⟩ := bankConflict_facts k hk
  have hm : measured (Reg.CL_BANK_CONFLICT_CNT k) = true := by simp [measured, hbits]
  have hlt := d.rdN_lt (Reg.CL_BANK_CONFLICT_CNT k)
  by_cases hu : k ∈ d.bankUsed
  · have hq := d.quiet_bankConflict hk
    simp only [hu, decide_true, Bool.not_true] at hq
    exact ⟨_, _, by rw [hbits, if_pos rfl]; omega, Device.peek_drawn hm hq, fun h => absurd hu h⟩
  · have hq := d.quiet_bankConflict hk
    simp only [hu, decide_false, Bool.not_false] at hq
    exact ⟨_, d.freeCount, le_refl _, by rw [Device.peek_quiet hm hq, if_pos hbits], fun _ => ⟨rfl, rfl⟩⟩

/-- A read of CL_BANK_CONFLICT_CNT clears it, and its cluster counts anew. -/
theorem Device.regRead_bankConflict {d : Device} {k : Nat} (event : Bool) (hk : k < 32)
    (h : Sparse.get (fun _ => none) d.hiLatch (Reg.CL_BANK_CONFLICT_CNT k) = (none : Option Word)) :
    ∃ v n, d.rdN (Reg.CL_BANK_CONFLICT_CNT k) ≤ v ∧
      d.regRead (Reg.CL_BANK_CONFLICT_CNT k) event = (v, Device.wr
        { d with freeCount := n, bankUsed := d.bankUsed.filter (fun c => decide (c ≠ k)) } (Reg.CL_BANK_CONFLICT_CNT k) (if event then 1 else 0)) ∧
      (k ∉ d.bankUsed → v = d.rdN (Reg.CL_BANK_CONFLICT_CNT k) ∧ n = d.freeCount) := by
  obtain ⟨hb, -, -, -, -, hl, hrc⟩ := bankConflict_facts k hk
  obtain ⟨r, hr, hrc⟩ := Option.map_eq_some_iff.mp hrc
  obtain ⟨v, n, hv, hp, hfree⟩ := d.peek_bankConflict hk
  exact ⟨v, n, hv, by rw [Device.regRead_eq _ _ _ h, hl, List.foldl_nil, hp, Device.rcAfter_bankConflict event hr (by omega) hb], hfree⟩

end Sys2Proof.Machine
end

section
/-! PROOFS. Host reads of registers (R3, R6, R7, R12, R599). -/

namespace Sys2Proof.Machine

/-- Settles O57: the value read is taken before the counter is cleared, and what is left is the event of the same cycle. -/
theorem eventDuringCounterRead : Obligations.EventDuringCounterRead := by
  intro s a event r d hf ho hl hr hrc hpeak hkept
  have hq : ∀ q, blockAt a 0x710000 0x40 4096 ≠ some (q, 0x38) := fun q e => by
    obtain ⟨hlo, -, hi, ho⟩ := blockAt_eq_some.mp e
    exact hpeak q (by unfold Reg.QUE_Q_PEAK; omega)
  obtain ⟨l, n, used, hread⟩ := Device.regRead_counter event hr hrc hq hkept
  obtain ⟨hlo, hhi⟩ := counter_ne_txBytes hr hrc
  apply reaches_counterRead
  rw [Device.bar0Read_reg event hf ho hl, hread]
  refine ⟨fun hm => ?_, ?_, fun b hb hb1 hb2 => ?_, Device.readDone_frame d l n used a _ _ _⟩
  · rw [Device.peek_shown hm, Device.hostRead_readDone]
  · rw [Device.rdN, Device.rd_readDone_other hlo hhi]
    exact (Device.rdN_wr _ _ _).trans (by cases event <;> rfl)
  · rw [Device.rd_readDone_other hb1 hb2, Device.rd_wr_other _ _ _ _ hb, Device.leftByRead_rd]

/-- Settles O22, clause by clause: where the access goes, what the register shows, what the read latches and clears. -/
theorem registerReads : Obligations.RegisterReads := by
  intro s a len event r d kept got reach
  refine ⟨fun ⟨hf, ho, hl, hr⟩ hrc hlb => ⟨fun w hk => ?_, fun hk hm => ?_, fun hk hm h32 hq => ?_, fun hk hm h32 hq => ?_,
      Device.quiet_of_latency⟩, fun ⟨hf, ho, hl, hr⟩ hrc hlb hk hm hm' => ?_, fun hf ho hm hm' => ?_,
    fun k hk ha ho hkept => ?_, fun ⟨hf, ho, hl, hr⟩ hrc hb hlb hk hm => ?_, fun ha h => ?_, fun h => ?_⟩
  · refine gives_loReadLatch (bar0Loc_reg_lt hl) ?_
    rw [Device.bar0Read_reg false hf ho hl, Device.regRead_kept false hk hlb, Device.rcAfter_of_rc_zero false hr hrc]; rfl
  · refine gives_loReadLatch (bar0Loc_reg_lt hl) ?_
    rw [Device.bar0Read_reg false hf ho hl, Device.regRead_plain false hr hrc hlb hk, Device.peek_shown hm]; rfl
  · refine gives_loReadLatch (bar0Loc_reg_lt hl) ?_
    have fits := Nat.mod_lt (Config.free d.freeCount) (Nat.two_pow_pos (measuredBits a))
    rw [Device.bar0Read_reg false hf ho hl, Device.regRead_plain false hr hrc hlb hk, Device.peek_drawn hm hq, if_neg h32,
      Nat.zero_add, Nat.min_eq_left (by omega)]; rfl
  · refine gives_loReadLatch (bar0Loc_reg_lt hl) ?_
    rw [Device.bar0Read_reg false hf ho hl, Device.regRead_plain false hr hrc hlb hk, Device.peek_quiet hm hq, if_neg h32]; rfl
  · refine gives_loReadLatch (bar0Loc_reg_lt hl) ?_
    rw [Device.bar0Read_reg false hf ho hl, Device.regRead_eq _ _ _ hk, hlb, List.foldl_cons, List.foldl_nil, Device.peek_shown hm,
      Device.rcAfter_of_rc_zero false hr hrc, Device.latchShown, Device.peek_shown hm']; rfl
  · refine gives_loReadLatch (bar0Loc_reg_lt (bar0Fits_eight hf)) ?_
    rw [Device.bar0Read_pair false hf ho, Device.pairRead_shown hm hm']; rfl
  · subst ha
    obtain ⟨-, hf, hl, -⟩ := bankConflict_facts k hk
    obtain ⟨v, n, hv, hread, hfree⟩ := Device.regRead_bankConflict event hk hkept
    apply reaches_counterRead
    rw [Device.bar0Read_reg event hf ho hl, hread]
    exact ⟨v, hv, rfl, hfree⟩
  · refine gives_counterRead ?_
    have hq : ∀ q, blockAt a 0x710000 0x40 4096 ≠ some (q, 0x38) := fun q e => by rw [hb] at e; cases e
    rw [Device.bar0Read_reg event hf ho hl, Device.regRead_eq _ _ _ hk, hlb, List.foldl_nil, Device.peek_shown hm,
      Device.rcAfter_counter event hr hrc hq (blockAt_ne_of_not_measured hm)]; rfl
  · refine gives_loReadLatch ha ?_
    rw [Device.bar0Read_refused false h]; rfl
  · refine gives_counterRead ?_
    rw [Device.bar0Read_refused event h]; rfl

end Sys2Proof.Machine
end

section
/-! PROOFS. The machine right after reset (R5, R598). -/

namespace Sys2Proof.Machine

/-- An engine in its reset state meets its bounds. -/
theorem Engine.bounded_reset : Engine.Bounded {} :=
  ⟨by decide, by decide, by decide, by decide, by decide, fun j => by
    show -(2 ^ 47) ≤ (0 : Int) ∧ (0 : Int) < 2 ^ 47 ∧ -(2 ^ 47) ≤ (0 : Int) ∧ (0 : Int) < 2 ^ 47
    decide⟩

/-- Settles O60: an empty map reads as its defaults, and the tables give the registers. -/
theorem resetState : Obligations.ResetState :=
  ⟨rfl, rfl, fun _ => rfl, fun _ => ⟨Engine.bounded_reset, rfl⟩, fun _ => rfl, by decide, by decide, by decide, by decide, by decide,
    by decide, by decide⟩

end Sys2Proof.Machine
end

section
/-! SUPPORT. What a host write of a register leaves (R3, R4, R8, R10). -/

namespace Sys2Proof.Machine

/-! Flags that hardware sets in the cycle of a write. -/

/-- An entry that is not the default is one of the list. -/
theorem getD_mem_of_ne {l : List Nat} {i d : Nat} (h : l.getD i d ≠ d) : l.getD i d ∈ l := by
  by_cases hi : i < l.length
  · rw [List.getD_eq_getElem _ _ hi]; exact List.getElem_mem hi
  · exact absurd (List.getD_eq_default _ _ (by omega)) h

/-- Hardware sets the flag at bit `b` of the register at `a`, member 0 of which lies at `base`, and counts it. -/
def Device.raiseFlag (a base hw : Nat) (cnts : List Nat) (d : Device) (b : Nat) : Device :=
  if !bitAt hw b then d
  else
    let d := d.setFld ⟨a, ⟨b, 1⟩⟩ 1
    let c := cnts.getD b 0
    if c = 0 then d else d.inc (c + (a - base))

theorem Device.hwFlags_eq {d : Device} {a hw base stride n : Nat} {cnts : List Nat}
    (h : flagRows.find? (fun r => (blockAt a r.1 r.2.1 r.2.2.1).any (fun x => decide (x.2 = 0))) = some (base, stride, n, cnts)) :
    d.hwFlags a hw = (List.range cnts.length).foldl (Device.raiseFlag a base hw cnts) d := by
  unfold Device.hwFlags; simp only [h]; rfl

/-- A bit of a register is its one-bit field. -/
theorem Device.bitAt_rdN (d : Device) (a b : Nat) : bitAt (d.rdN a) b = decide (d.fld ⟨a, ⟨b, 1⟩⟩ = 1) := by
  simp [bitAt, Device.fld, bitsOf]

/-- A flag is set by its own event, and no other event of the register clears it. -/
theorem Device.bitAt_raiseFlag {d : Device} {a base hw b i : Nat} {cnts : List Nat} (ha : base ≤ a) (hb : b < 32) (hc : base ∉ cnts)
    (h : bitAt (d.rdN a) i = true ∨ i = b ∧ bitAt hw b = true) :
    bitAt ((d.raiseFlag a base hw cnts b).rdN a) i = true := by
  have set : bitAt hw b = true → bitAt ((d.setFld ⟨a, ⟨b, 1⟩⟩ 1).rdN a) i = true := fun hw => by
    rw [Device.bitAt_rdN]
    by_cases hi : i = b
    · subst hi; rw [Device.fld_setFld _ _ _ (by simpa using hb)]; rfl
    · rw [Device.fld_setFld_disjoint _ _ _ _ (by simpa using hb) (by simp only; omega), ← Device.bitAt_rdN]
      exact h.resolve_right (fun e => hi e.1)
  unfold Device.raiseFlag
  cases hbit : bitAt hw b with
  | false => simpa [hbit] using h
  | true =>
    simp only [Bool.not_true, Bool.false_eq_true, if_false]
    split
    · exact set hbit
    · next h0 =>
      have : cnts.getD b 0 ≠ base := fun e => hc (e ▸ getD_mem_of_ne h0)
      rw [Device.inc, Device.rdN_wr_other _ _ _ _ (by omega)]
      exact set hbit

theorem Device.bitAt_foldl_raiseFlag {a base hw i : Nat} {cnts : List Nat} (ha : base ≤ a) (hc : base ∉ cnts) (l : List Nat)
    (hl : ∀ b ∈ l, b < 32) (d : Device) (h : bitAt (d.rdN a) i = true ∨ i ∈ l ∧ bitAt hw i = true) :
    bitAt ((l.foldl (Device.raiseFlag a base hw cnts) d).rdN a) i = true := by
  induction l generalizing d with
  | nil => simpa using h
  | cons b l ih =>
    rw [List.foldl_cons]
    apply ih (fun c hc => hl c (List.mem_cons_of_mem b hc))
    have hb := hl b List.mem_cons_self
    rcases h with h | ⟨hm, hw⟩
    · exact .inl (Device.bitAt_raiseFlag ha hb hc (.inl h))
    · rcases List.mem_cons.mp hm with rfl | hm
      · exact .inl (Device.bitAt_raiseFlag ha hb hc (.inr ⟨rfl, hw⟩))
      · exact .inr ⟨hm, hw⟩

/-- No flag register is a companion counter of its row, and each holds its flags within a word. -/
theorem flagRows_fit : ∀ row ∈ flagRows, row.1 ∉ row.2.2.2 ∧ row.2.2.2.length ≤ 32 := by decide

/-- Each flag register belongs to one row. -/
theorem flagRows_apart : ∀ row ∈ flagRows, ∀ m, m < row.2.2.1 →
    flagRows.find? (fun r => (blockAt (row.1 + m * row.2.1) r.1 r.2.1 r.2.2.1).any (fun x => decide (x.2 = 0))) = some row := by
  decide

/-- Every flag that hardware sets in the cycle of a write stands after it (R10). -/
theorem Device.bitAt_hwFlags (d : Device) {row : Nat × Nat × Nat × List Nat} (hrow : row ∈ flagRows) {m b hw : Nat} (hm : m < row.2.2.1)
    (hb : b < row.2.2.2.length) (hs : bitAt hw b = true) :
    bitAt ((d.hwFlags (row.1 + m * row.2.1) hw).rdN (row.1 + m * row.2.1)) b = true := by
  obtain ⟨hc, hlen⟩ := flagRows_fit row hrow
  rw [Device.hwFlags_eq (flagRows_apart row hrow m hm)]
  exact Device.bitAt_foldl_raiseFlag (Nat.le_add_right _ _) hc _ (fun c h => lt_of_lt_of_le (List.mem_range.mp h) hlen) d
    (.inr ⟨List.mem_range.mpr hb, hs⟩)

/-! Writes. -/

/-- The word that a write of `v` leaves in a register that read `old`: the RW bits outside `mask` are `v`'s, the W1C flags written 1 are clear. -/
def RegRow.wordAfter (r : RegRow) (old v mask : Nat) : Nat :=
  let rw := r.rw - Nat.land r.rw mask
  Nat.lor (Nat.land v rw) (old - Nat.land old rw) - Nat.land old (Nat.land v r.w1c)

theorem Device.putReg_eq {d : Device} {a : Nat} {r : RegRow} (hr : regRow a = some r) (v mask hw : Nat) :
    d.putReg a v mask hw = (d.wr a (r.wordAfter (d.rdN a) v mask)).hwFlags a (Nat.land hw r.w1c) := by
  unfold Device.putReg; simp only [hr]; rfl

theorem RegRow.bitAt_wordAfter {r : RegRow} (hr : Nat.land r.rw r.w1c = 0) (old v mask b : Nat) :
    bitAt (r.wordAfter old v mask) b =
      if bitAt r.rw b ∧ ¬bitAt mask b then bitAt v b else bitAt old b && !(bitAt r.w1c b && bitAt v b) := by
  have apart : ∀ j, (bitAt r.rw j && bitAt r.w1c j) = false := fun j => by rw [← bitAt_land, hr]; simp [bitAt]
  have hrw : ∀ j, bitAt (r.rw - Nat.land r.rw mask) j = (bitAt r.rw j && !bitAt mask j) := fun j => by
    rw [bitAt_sub _ _ _ (fun k h => by rw [bitAt_land, Bool.and_eq_true] at h; exact h.1), bitAt_land]
    cases bitAt r.rw j <;> simp
  have clears : ∀ j, bitAt (Nat.land old (Nat.land v r.w1c)) j = (bitAt old j && (bitAt v j && bitAt r.w1c j)) := fun j => by
    rw [bitAt_land, bitAt_land]
  rw [RegRow.wordAfter, bitAt_sub, bitAt_masked, hrw, clears]
  · cases hR : bitAt r.rw b with
    | true =>
      have hC : bitAt r.w1c b = false := by simpa [hR] using apart b
      cases hM : bitAt mask b <;> simp [hC]
    | false => cases bitAt old b <;> simp [Bool.or_comm]
  · intro j h
    rw [clears, Bool.and_eq_true, Bool.and_eq_true] at h
    obtain ⟨hold, -, hC⟩ := h
    have hR : bitAt r.rw j = false := by simpa [hC] using apart j
    rw [bitAt_masked, hrw, hR]
    exact hold

theorem Device.wrRw_eq {d : Device} {a : Nat} {r : RegRow} (hr : regRow a = some r) (v : Nat) :
    d.wrRw a v = d.wr a (Nat.lor (Nat.land v r.rw) (d.rdN a - Nat.land (d.rdN a) r.rw)) := by
  unfold Device.wrRw; simp only [hr]

/-- The RW bits of both halves of a pair are written, each from its own word. -/
theorem Device.wrRw_pair {d : Device} {a : Nat} {r q : RegRow} (hr : regRow a = some r) (hq : regRow (a + 4) = some q) (low w : Nat) :
    (d.wrRw a low).wrRw (a + 4) w = (d.wr a (Nat.lor (Nat.land low r.rw) (d.rdN a - Nat.land (d.rdN a) r.rw))).wr (a + 4)
      (Nat.lor (Nat.land w q.rw) (d.rdN (a + 4) - Nat.land (d.rdN (a + 4)) q.rw)) := by
  rw [Device.wrRw_eq hr, Device.wrRw_eq hq, Device.rdN_wr_other _ _ _ _ (by omega)]

/-- What is held of a _LO write has no part in whether a unit discards a write. -/
theorem Device.locked_loHeld (d : Device) (h : Sparse (Option Word)) (a v : Nat) :
    ({ d with loHeld := h } : Device).locked a v = d.locked a v := rfl

theorem Device.bar0Write_refused {d : Device} {a len : Nat} (v hw : Nat) (h : bar0Fits a len = false ∨ d.windowOpen a = false) :
    d.bar0Write a len v hw = d.badAccess := by
  unfold Device.bar0Write; rw [if_pos (by simpa using h)]

/-- A 32-bit write of a register that is no half of a pair. -/
theorem Device.bar0Write_reg {d : Device} {a : Nat} (v hw : Nat) (hf : bar0Fits a 4 = true) (ho : d.windowOpen a = true)
    (hl : bar0Loc a = .reg) (hp : pairHalf a = 0) : d.bar0Write a 4 v hw = d.regWrite a v hw := by
  unfold Device.bar0Write
  rw [if_neg (by simp [hf, ho])]
  simp only [hl, Device.regStore, hp]
  exact if_neg (by decide)

theorem Device.regWrite_locked {d : Device} {a v : Nat} (hw : Nat) (h : d.locked a v = true) : d.regWrite a v hw = d.badAccess := by
  rw [Device.regWrite, if_pos h]

/-- A write that its unit takes: the register's word, the flags of the cycle, and what follows in the unit. -/
theorem Device.regWrite_taken {d : Device} {a v : Nat} {r : RegRow} (hw : Nat) (hr : regRow a = some r) (hk : d.locked a v = false)
    (hn : d.refusedWrite a v = none) : d.regWrite a v hw =
      d.written ((d.wr a (r.wordAfter (d.rdN a) v (ownRows a v))).hwFlags a (Nat.land hw r.w1c)) a v := by
  rw [Device.regWrite, if_neg (by simp [hk])]
  simp only [hn, Device.putReg_eq hr]

/-! Pairs (R8). -/

theorem Device.holdLo_locked {d : Device} {a v : Nat} (h : d.locked a v = true) : d.holdLo a v = d.badAccess := by
  rw [Device.holdLo, if_pos h]

theorem Device.holdLo_taken {d : Device} {a v : Nat} (h : d.locked a v = false) :
    d.holdLo a v = { d with loHeld := Sparse.set (fun _ => none) d.loHeld a (some (BitVec.ofNat 32 v)) } := by
  rw [Device.holdLo, if_neg (by rw [h]; decide)]

theorem Device.applyHi_locked {d : Device} {a v : Nat} (h : d.locked a v = true) : d.applyHi a v = d.badAccess := by
  rw [Device.applyHi, if_pos h]

/-- Both halves of a pair are written in one cycle, each in its RW bits, and no _LO stays held. -/
theorem Device.pairWrite_taken {d : Device} {a low w : Nat} {r q : RegRow} (hr : regRow a = some r) (hq : regRow (a + 4) = some q)
    (hlow : low < 2 ^ 32) (hw : w < 2 ^ 32) (hk : d.locked a (low + w * 2 ^ 32) = false) :
    let d' : Device := { d with loHeld := Sparse.set (fun _ => none) d.loHeld a none }
    ∃ x y, d.pairWrite a (low + w * 2 ^ 32) = d'.written ((d'.wr a x).wr (a + 4) y) a (low + w * 2 ^ 32) ∧
      (∀ b, bitAt x b = if bitAt r.rw b then bitAt low b else bitAt (d.rdN a) b) ∧
      (∀ b, bitAt y b = if bitAt q.rw b then bitAt w b else bitAt (d.rdN (a + 4)) b) := by
  intro d'
  have e1 : (low + w * 2 ^ 32) % 2 ^ 32 = low := by omega
  have e2 : (low + w * 2 ^ 32) / 2 ^ 32 % 2 ^ 32 = w := by omega
  refine ⟨_, _, ?_, bitAt_masked (d.rdN a) low r.rw, bitAt_masked (d.rdN (a + 4)) w q.rw⟩
  rw [Device.pairWrite, if_neg (by rw [hk]; decide), e1, e2]
  exact congrArg (fun x => d'.written x a (low + w * 2 ^ 32)) (Device.wrRw_pair hr hq low w)

/-- The low half that a write of _HI takes with it: the value held of _LO, and the register's own when none is held. -/
theorem Device.applyHi_taken {d : Device} {a v : Nat} {held : Option Word} (h : d.locked (a + 4) v = false) (hv : v < 2 ^ 32)
    (hh : Sparse.get (fun _ => none) d.loHeld a = held) :
    d.applyHi (a + 4) v = d.pairWrite a (held.elim (d.rdN a) BitVec.toNat + v * 2 ^ 32) := by
  rw [Device.applyHi, if_neg (by simp [h]), Nat.mod_eq_of_lt hv, Nat.add_sub_cancel, hh]
  cases held <;> rfl

/-- A write of _HI puts both halves in place at once. -/
theorem Device.applyHi_both {d : Device} {a low w : Nat} {held : Option Word} {r q : RegRow} (hr : regRow a = some r)
    (hq : regRow (a + 4) = some q) (hw : w < 2 ^ 32) (hh : Sparse.get (fun _ => none) d.loHeld a = held)
    (hlow : held.elim (d.rdN a) BitVec.toNat = low) (hk : d.locked (a + 4) w = false)
    (hk' : ({ d with loHeld := Sparse.set (fun _ => none) d.loHeld a none } : Device).locked a (low + w * 2 ^ 32) = false) :
    let d' : Device := { d with loHeld := Sparse.set (fun _ => none) d.loHeld a none }
    ∃ x y, d.applyHi (a + 4) w = d'.written ((d'.wr a x).wr (a + 4) y) a (low + w * 2 ^ 32) ∧
      (∀ b, bitAt x b = if bitAt r.rw b then bitAt low b else bitAt (d.rdN a) b) ∧
      (∀ b, bitAt y b = if bitAt q.rw b then bitAt w b else bitAt (d.rdN (a + 4)) b) := by
  have hlt : low < 2 ^ 32 := by
    subst hlow
    cases held with
    | none => exact d.rdN_lt a
    | some x => exact x.isLt
  rw [Device.applyHi_taken hk hw hh, hlow]
  exact Device.pairWrite_taken hr hq hlt hw ((d.locked_loHeld _ a _).symm.trans hk')

/-! The rows. -/

/-- A host write of BAR0. -/
theorem exec_hostRegisterWrite {a len : Nat} (v hw : Nat) (s : State) (ha : a < 2 ^ 32) :
    exec (.hostRegisterWrite a len v hw) s = .next { s with dev := (s.dev.received len).bar0Write a len v hw } := by
  show execHostRegisterWrite a len v hw s = _
  rw [execHostRegisterWrite, State.run_eq, if_pos ha]

theorem exec_loWriteHold {a : Nat} (v : Nat) (s : State) (hf : bar0Fits a 4 = true) (ho : (s.dev.received 4).windowOpen a = true)
    (hp : pairHalf a = 1) : exec (.loWriteHold a v) s = .next { s with dev := (s.dev.received 4).holdLo a v } := by
  show execLoWriteHold a v s = _
  rw [execLoWriteHold, State.run_eq, if_neg (by simp [hf, ho]), if_pos hp]

theorem exec_hiWriteApply {a : Nat} (v : Nat) (s : State) (hf : bar0Fits a 4 = true) (ho : (s.dev.received 4).windowOpen a = true)
    (hp : pairHalf a = 2) : exec (.hiWriteApply a v) s = .next { s with dev := (s.dev.received 4).applyHi a v } := by
  show execHiWriteApply a v s = _
  rw [execHiWriteApply, State.run_eq, if_neg (by simp [hf, ho]), if_pos hp]

/-- A write of half a pair at an odd place or in a closed window. -/
theorem exec_halfWrite_refused {a : Nat} (v : Nat) (s : State) (h : bar0Fits a 4 = false ∨ (s.dev.received 4).windowOpen a = false) :
    exec (.loWriteHold a v) s = .next { s with dev := (s.dev.received 4).badAccess } ∧
      exec (.hiWriteApply a v) s = .next { s with dev := (s.dev.received 4).badAccess } := by
  constructor
  · show execLoWriteHold a v s = _
    rw [execLoWriteHold, State.run_eq, if_pos (by simpa using h)]
  · show execHiWriteApply a v s = _
    rw [execHiWriteApply, State.run_eq, if_pos (by simpa using h)]

end Sys2Proof.Machine
end

section
/-! PROOFS. Host writes of registers and of pairs (R3, R4, R6, R8, R10). -/

namespace Sys2Proof.Machine

/-- Settles O21, clause by clause: a write that the unit takes, the flags of its cycle, and the writes that only count a bad access. -/
theorem registerWrites : Obligations.RegisterWrites := by
  intro s a len v hw r d d4 reach
  refine ⟨fun ⟨hf, ho, hl⟩ hr hp hk hn => ⟨_, exec_hostRegisterWrite v hw s (bar0Loc_reg_lt hl), rfl,
      r.wordAfter (d4.rdN a) v (ownRows a v), ?_, fun b _ => RegRow.bitAt_wordAfter (regRow_masks a r hr) _ _ _ b⟩,
    fun row hrow m hm ha b hb hs => ?_, fun ⟨hf, ho, hl⟩ hp hk => ?_, fun ⟨hf, ho, _⟩ hp hk => ?_, fun ⟨hf, ho, _⟩ hp hk => ?_,
    fun ha h => ?_, exec_halfWrite_refused v s, fun h4 h8 => ?_, fun ha => ?_⟩
  · exact (Device.bar0Write_reg v hw hf ho hl hp).trans (Device.regWrite_taken hw hr hk hn)
  · subst ha; exact d.bitAt_hwFlags hrow hm hb hs
  · rw [Gives, exec_hostRegisterWrite v hw s (bar0Loc_reg_lt hl), Device.bar0Write_reg v hw hf ho hl hp, Device.regWrite_locked hw hk]
  · rw [Gives, exec_loWriteHold v s hf ho hp, Device.holdLo_locked hk]
  · rw [Gives, exec_hiWriteApply v s hf ho hp, Device.applyHi_locked hk]
  · rw [Gives, exec_hostRegisterWrite v hw s ha, Device.bar0Write_refused v hw h]
  · simp [bar0Fits, h4, h8]
  · simp [bar0Fits, ha]

/-- Settles O58: the value held of _LO waits, and the write of _HI puts both halves in place at once. -/
theorem writablePairs : Obligations.WritablePairs := by
  intro s a v w r q d reach keep held holds applies hlo hhi hr hq _ hw
  have both : ∀ low, held.elim (d.rdN a) BitVec.toNat = low → reach (a + 4) → d.locked (a + 4) w = false →
      (keep d none).locked a (low + w * 2 ^ 32) = false → applies low := fun low hlow ⟨hf, ho⟩ hk hk' => by
    obtain ⟨x, y, e, hx, hy⟩ := Device.applyHi_both hr hq hw rfl hlow hk hk'
    exact ⟨_, exec_hiWriteApply w s hf ho hhi, rfl, x, y, e, fun b _ => hx b, fun b _ => hy b⟩
  refine ⟨fun ⟨hf, ho⟩ hk => ?_, fun hreach hk =>
    ⟨fun low hheld => both low.toNat (by rw [hheld, Option.elim_some]) hreach hk,
      fun hheld => both (d.rdN a) (by rw [hheld, Option.elim_none]) hreach hk⟩⟩
  rw [Gives, exec_loWriteHold v s hf ho hlo, Device.holdLo_taken hk]

end Sys2Proof.Machine
end

section
/-! SUPPORT. What host accesses to the memory windows and to the reserved range read and leave (R49 to R51, R409). -/

namespace Sys2Proof.Machine

/-! Counting bytes closes no window. -/

theorem Device.fld_add64_other (d : Device) {lo : Nat} (n : Nat) {x : FieldAt} (h : x.addr ≠ lo) (h' : x.addr ≠ lo + 4) :
    (d.add64 lo n).fld x = d.fld x := by
  rw [Device.fld, Device.rdN, Device.rd_add64_other _ _ _ _ h h']; rfl

theorem Device.windowOpen_received (d : Device) (n a : Nat) : (d.received n).windowOpen a = d.windowOpen a := by
  rw [Device.windowOpen, Device.received, Device.fld_add64_other _ _ (by decide) (by decide)]; rfl

theorem Device.memoryOpen_received (d : Device) (n : Nat) : (d.received n).memoryOpen = d.memoryOpen := by
  rw [Device.memoryOpen, Device.received, Device.fld_add64_other _ _ (by decide) (by decide)]; rfl

theorem Device.memoryOpen_sent (d : Device) (n : Nat) : (d.add64 Reg.HIF_TX_BYTES_LO n).memoryOpen = d.memoryOpen := by
  rw [Device.memoryOpen, Device.fld_add64_other _ _ (by decide) (by decide)]; rfl

theorem Device.add64_mem (d : Device) (lo n : Nat) : (d.add64 lo n).mem = d.mem := by
  obtain ⟨regs, e⟩ := d.add64_eq lo n; rw [e]

theorem Device.poisoned_add64 (d : Device) (lo n a len : Nat) : (d.add64 lo n).poisoned a len = d.poisoned a len := by
  obtain ⟨regs, e⟩ := d.add64_eq lo n; rw [e]; rfl

theorem Device.poisoned_moved (d : Device) (k a len : Nat) : (d.moved k).poisoned a len = d.poisoned a len := rfl

/-! What the host has read. -/

/-- The host has read `v`, marked with EP or not. -/
def Device.hostSees (d : Device) (v : Nat) (ep : Bool) : Device := { d with hostRead := v, hostReadEp := ep }

theorem Device.wr_hostSees (d : Device) (v : Nat) (ep : Bool) (a x : Nat) : (d.hostSees v ep).wr a x = (d.wr a x).hostSees v ep := rfl

theorem Device.rd64_hostSees (d : Device) (v : Nat) (ep : Bool) (lo : Nat) : (d.hostSees v ep).rd64 lo = d.rd64 lo := rfl

theorem Device.add64_hostSees (d : Device) (v : Nat) (ep : Bool) (lo n : Nat) :
    (d.hostSees v ep).add64 lo n = (d.add64 lo n).hostSees v ep := by
  rw [Device.add64, Device.wr64, Device.rd64_hostSees, Device.wr_hostSees, Device.wr_hostSees, Device.add64, Device.wr64]

theorem Device.readDone_hostSees (p : Nat × Device) (len : Nat) :
    Device.readDone p len = (p.2.add64 Reg.HIF_TX_BYTES_LO len).hostSees p.1 false :=
  Device.add64_hostSees _ _ _ _ _

/-! The reserved range (R46, R50). -/

theorem bar0Fits_word {a : Nat} (h : a % 4 = 0) : bar0Fits a 4 = true := by simp [bar0Fits, h]

theorem bar0Loc_reserved {a : Nat} (h : 0x2400000 ≤ a) : bar0Loc a = .rsv := by
  rw [bar0Loc, if_neg (by omega), if_neg (by omega), if_neg (by omega)]

theorem Device.bar0Read_reserved {d : Device} {a : Nat} (event : Bool) (hf : bar0Fits a 4 = true) (ho : d.windowOpen a = true)
    (hl : bar0Loc a = .rsv) : d.bar0Read a 4 event = (0, d) := by
  unfold Device.bar0Read
  rw [if_neg (by simp [hf, ho])]
  simp only [hl]

theorem Device.bar0Write_reserved {d : Device} {a : Nat} (v hw : Nat) (hf : bar0Fits a 4 = true) (ho : d.windowOpen a = true)
    (hl : bar0Loc a = .rsv) : d.bar0Write a 4 v hw = d := by
  unfold Device.bar0Write
  rw [if_neg (by simp [hf, ho])]
  simp only [hl]

/-! Stores. -/

/-- A byte of a memory after bytes are written to it. -/
theorem memGet_memWrite_eq (m : List Host.Cell) (b : Nat) (bs : List Byte) (a : Nat) :
    memGet (memWrite m b bs) a = if b ≤ a ∧ a < b + bs.length then bs.getD (a - b) 0 else memGet m a := by
  split
  · next h =>
    have hi : a - b < bs.length := by omega
    rw [List.getD_eq_getElem _ _ hi, ← memGet_memWrite bs m b (a - b) hi, Nat.add_sub_cancel' h.1]
  · next h => exact memGet_memWrite_other _ _ _ _ (by omega)

/-- A store keeps the codewords that it does not cover whole in a list of poisoned ones (R409). -/
theorem mem_filter_uncovered (l : List Nat) (a n w : Nat) :
    w ∈ l.filter (fun w => !(decide (a ≤ 32 * w) && decide (32 * w + 32 ≤ a + n))) ↔
      w ∈ l ∧ ¬(a ≤ 32 * w ∧ 32 * w + 32 ≤ a + n) := by
  rw [List.mem_filter, Bool.not_eq_true', Bool.and_eq_false_iff, decide_eq_false_iff_not, decide_eq_false_iff_not, not_and_or]

/-- Nothing stored leaves the device as it was: no codeword is covered by no byte. -/
theorem Device.store_nil (d : Device) (a : Nat) : d.store a [] = d := by
  have keep : ∀ l : List Nat, l.filter (fun w => !(decide (a ≤ 32 * w) && decide (32 * w + 32 ≤ a + 0))) = l :=
    fun l => List.filter_eq_self.mpr fun w _ => by simp; omega
  rw [Device.store, Device.unpoison]
  simp only [List.length_nil, memWrite, keep]

/-! The rows. -/

theorem exec_bar2Write_inside {s : State} {a : Nat} {data : List Byte} (ho : s.dev.memoryOpen = true)
    (h : a + data.length ≤ Config.memSize) :
    exec (.bar2Write a data) s = .next { s with dev := ((s.dev.received data.length).store a data).moved 4 } := by
  have inside : min data.length (Config.memSize - a) = data.length := by omega
  show execBar2Write a data s = _
  rw [execBar2Write, State.run_eq]
  simp only [Device.memoryOpen_received, ho, inside, List.take_length, Bool.not_true, Bool.false_eq_true, if_false, if_true]

theorem exec_bar2Write_above {s : State} {a : Nat} {data : List Byte} (ho : s.dev.memoryOpen = true) (h : Config.memSize ≤ a)
    (hd : data ≠ []) :
    exec (.bar2Write a data) s = .next { s with dev := ((s.dev.received data.length).moved 4).badAccess } := by
  have inside : min data.length (Config.memSize - a) = 0 := by omega
  have hn : ¬ 0 = data.length := fun e => hd (List.length_eq_zero_iff.mp e.symm)
  show execBar2Write a data s = _
  rw [execBar2Write, State.run_eq]
  simp only [Device.memoryOpen_received, ho, inside, List.take_zero, Device.store_nil, hn, Bool.not_true, Bool.false_eq_true, if_false]

theorem exec_bar2Write_closed {s : State} (a : Nat) (data : List Byte) (ho : s.dev.memoryOpen = false) :
    exec (.bar2Write a data) s = .next { s with dev := (s.dev.received data.length).badAccess } := by
  show execBar2Write a data s = _
  rw [execBar2Write, State.run_eq, if_pos (by rw [Device.memoryOpen_received, ho]; rfl)]

/-- What a BAR2 read does once its bytes are counted (R51, R410). -/
def Device.bar2Read (d : Device) (off len : Nat) : Device :=
  if !d.memoryOpen then d.badAccess.hostSees (allOnes len) false
  else
    let inside := min len (Config.memSize - off)
    let v := memLE d.mem off inside + allOnes (len - inside) * 2 ^ (8 * inside)
    let d := if inside = len then d.moved 4 else (d.moved 4).badAccess
    d.hostSees v (d.poisoned off inside)

theorem exec_bar2Read (a len : Nat) (s : State) :
    exec (.bar2Read a len) s = .next { s with dev := (s.dev.add64 Reg.HIF_TX_BYTES_LO len).bar2Read a len } := rfl

theorem Device.bar2Read_inside {d : Device} {a len : Nat} (ho : d.memoryOpen = true) (h : a + len ≤ Config.memSize) :
    d.bar2Read a len = (d.moved 4).hostSees (memLE d.mem a len) (d.poisoned a len) := by
  have inside : min len (Config.memSize - a) = len := by omega
  have none_left : allOnes 0 = 0 := rfl
  simp only [Device.bar2Read, ho, inside, Nat.sub_self, none_left, Nat.zero_mul, Nat.add_zero, Bool.not_true, Bool.false_eq_true,
    if_false, if_true, Device.poisoned_moved]

theorem Device.bar2Read_above {d : Device} {a len : Nat} (ho : d.memoryOpen = true) (h : Config.memSize ≤ a) (hn : 0 < len) :
    ∃ ep, d.bar2Read a len = (d.moved 4).badAccess.hostSees (allOnes len) ep := by
  have inside : min len (Config.memSize - a) = 0 := by omega
  have none_read : memLE d.mem a 0 = 0 := rfl
  refine ⟨(d.moved 4).badAccess.poisoned a 0, ?_⟩
  simp only [Device.bar2Read, ho, inside, none_read, if_neg hn.ne, Nat.sub_zero, Nat.mul_zero, Nat.zero_add, pow_zero, Nat.mul_one,
    Bool.not_true, Bool.false_eq_true, if_false]

/-- A write within one context descriptor (R49). -/
theorem exec_contextWrite {s : State} {c off : Nat} {data : List Byte} (hc : c < 4096) (h : off + data.length ≤ 0x400)
    (hn : 0 < data.length) : exec (.contextWrite c off data) s = .next { s with dev :=
      (if s.dev.active c then s.dev.badAccess else { s.dev with ctx := memWrite s.dev.ctx (c * 0x400 + off) data }) } := by
  have own : (c * 0x400 + off) / 0x400 = c := by omega
  show execContextWrite c off data s = _
  rw [execContextWrite, State.run_eq, if_pos ⟨hc, h⟩, Device.ctxWrite, own]

end Sys2Proof.Machine
end
section
/-! PROOFS. The reserved range, BAR2 and the context store (R49 to R51, R409). -/

namespace Sys2Proof.Machine

/-- Settles O59: the reserved range holds nothing that a read shows or a write reaches. -/
theorem reservedRange : Obligations.ReservedRange := by
  intro s a v hw hlo hhi ha ho
  have hf := bar0Fits_word ha
  have hl := bar0Loc_reserved hlo
  constructor
  · have h : Gives (.loReadLatch a 4) s (fun d => (d.add64 Reg.HIF_TX_BYTES_LO 4).hostSees 0 false) :=
      gives_loReadLatch (by omega) (by rw [Device.bar0Read_reserved false hf ho hl, Device.readDone_hostSees])
    exact ⟨_, h, rfl, rfl, rfl⟩
  · rw [Gives, exec_hostRegisterWrite v hw s (by omega),
      Device.bar0Write_reserved v hw hf (by rw [Device.windowOpen_received, ho]) hl, Device.received]

/-- Settles O23, clause by clause: below 48 GiB, at or above it, with the window closed, and a context descriptor. -/
theorem memoryWindows : Obligations.MemoryWindows := by
  intro s a len c off data d n
  refine ⟨fun ho h => ⟨_, exec_bar2Write_inside ho h, rfl, ?_⟩, fun ho h hd => ⟨_, exec_bar2Write_above ho h hd, rfl, rfl⟩,
    fun ho => ⟨_, exec_bar2Write_closed a data ho, rfl, rfl⟩, fun ho h => ?_, fun ho h hn => ?_,
    fun hc h hn => ⟨fun ha => ?_, fun ha => ?_⟩⟩
  · obtain ⟨regs, e⟩ := d.add64_eq Reg.HIF_RX_BYTES_LO n
    rw [Device.received, e]
    exact ⟨rfl, memGet_memWrite_eq _ _ _, fun w => ⟨mem_filter_uncovered _ _ _ w, mem_filter_uncovered _ _ _ w⟩⟩
  · rw [Gives, exec_bar2Read, Device.bar2Read_inside ((Device.memoryOpen_sent d len).trans ho) h, Device.add64_mem,
      Device.poisoned_add64]
    rfl
  · obtain ⟨ep, e⟩ := Device.bar2Read_above ((Device.memoryOpen_sent d len).trans ho) h hn
    exact ⟨_, exec_bar2Read a len s, rfl, by rw [e]; exact ⟨rfl, rfl⟩⟩
  · have h' := exec_contextWrite (s := s) hc h hn
    rw [if_neg (by rw [ha]; decide)] at h'
    exact ⟨_, h', rfl, rfl, memGet_memWrite_eq _ _ _⟩
  · rw [Gives, exec_contextWrite hc h hn, if_pos ha]

end Sys2Proof.Machine
end

section
/-! SUPPORT. What a decimator reset leaves of the correctors, the channelisers and CHN_LAST_RESET (R32, R117, R133). -/

namespace Sys2Proof.Machine

/-- A list of indices is gone through, each step of which changes the object at its own index alone, by `g`: the objects listed are changed, and no
other is. -/
theorem get_foldl_each {α : Type} {get : Device → Nat → α} {f : Device → Nat → Device} {g : α → α} (hg : ∀ x, g (g x) = g x)
    (hf : ∀ d i j, get (f d i) j = if j = i then g (get d j) else get d j) (l : List Nat) (d : Device) (j : Nat) :
    get (l.foldl f d) j = if j ∈ l then g (get d j) else get d j := by
  induction l generalizing d with
  | nil => simp
  | cons i l ih =>
    rw [List.foldl_cons, ih, hf]
    by_cases hl : j ∈ l <;> by_cases hi : j = i <;> simp [hl, hi, hg]

/-- What every step keeps is kept at the end. -/
theorem foldl_keeps {β : Type} {get : Device → β} {f : Device → Nat → Device} {l : List Nat} (hf : ∀ d, ∀ i ∈ l, get (f d i) = get d)
    (d : Device) : get (l.foldl f d) = get d := by
  induction l generalizing d with
  | nil => rfl
  | cons i l ih =>
    rw [List.foldl_cons, ih (fun d j hj => hf d j (List.mem_cons_of_mem i hj)), hf d i List.mem_cons_self]

/-! Channelisers. -/

/-- A channeliser cleared: its word and the boundaries that unreleased samples precede stay. -/
def Chan.cleared (x : Chan) : Chan := { ftw := x.ftw, startB := x.startB, stopB := x.stopB, tunes := x.tunes }

theorem Device.chan_zReset (d : Device) (i z : Nat) : (d.zReset i).chan z = if z = i then (d.chan z).cleared else d.chan z := by
  refine (Sparse.get_set _ _ _ _ _).trans ?_
  split
  · next h => rw [h]; rfl
  · rfl

/-! Streams. -/

/-- A corrector with an empty delay line. -/
def Corr.emptied (x : Corr) : Corr := { x with line := [] }

theorem Device.corr_setCorr (d : Device) (i c : Nat) (x : Corr) : (d.setCorr i x).corr c = if c = i then x else d.corr c :=
  Sparse.get_set _ _ _ _ _

theorem Device.showAnchor_frame (d : Device) (s : Nat) :
    ∃ regs, d.showAnchor s = { d with regs := regs } ∧
      ∀ b, b ≠ Reg.LNK_S_ANCHOR_LO s → b ≠ Reg.LNK_S_ANCHOR_LO s + 4 → Sparse.get regReset regs b = d.rd b := by
  refine ⟨_, rfl, fun b h h' => ?_⟩
  exact (Device.rd_wr_other _ _ _ _ h').trans (Device.rd_wr_other _ _ _ _ h)

/-- A new anchor changes the streams and what LNK_S_ANCHOR shows. -/
theorem Device.sAnchor_frame (d : Device) (s : Nat) (t : Time) (wait : Bool) :
    ∃ regs streams, d.sAnchor s t wait = { d with regs := regs, streams := streams } ∧
      ∀ b, b ≠ Reg.LNK_S_ANCHOR_LO s → b ≠ Reg.LNK_S_ANCHOR_LO s + 4 → Sparse.get regReset regs b = d.rd b := by
  have key : ∀ x : Stream, ∃ regs streams, (d.setStream s x).showAnchor s = { d with regs := regs, streams := streams } ∧
      ∀ b, b ≠ Reg.LNK_S_ANCHOR_LO s → b ≠ Reg.LNK_S_ANCHOR_LO s + 4 → Sparse.get regReset regs b = d.rd b := fun x => by
    obtain ⟨regs, e, h⟩ := (d.setStream s x).showAnchor_frame s
    exact ⟨regs, _, e, h⟩
  exact key _

/-- A decimator reset clears the stream's corrector line and changes besides it the streams and the anchor that the stream shows (R96, R116). -/
theorem Device.sReset_frame (d : Device) (s : Nat) (t : Time) :
    ∃ regs streams, d.sReset s t = Device.setCorr { d with regs := regs, streams := streams } s (d.corr s).emptied ∧
      ∀ b, b ≠ Reg.LNK_S_ANCHOR_LO s → b ≠ Reg.LNK_S_ANCHOR_LO s + 4 → Sparse.get regReset regs b = d.rd b := by
  unfold Device.sReset
  split
  · obtain ⟨regs, streams, e, h⟩ := d.sAnchor_frame s t false
    rw [e]
    exact ⟨regs, _, rfl, h⟩
  · exact ⟨d.regs, _, rfl, fun _ _ _ => rfl⟩

/-- What a decimator reset does with one stream. -/
def Device.resetStream (t : Time) (d : Device) (s : Nat) : Device := (d.setCorr s (d.corr s).emptied).sReset s t

theorem Device.corr_resetStream (t : Time) (d : Device) (i c : Nat) :
    (d.resetStream t i).corr c = if c = i then (d.corr c).emptied else d.corr c := by
  obtain ⟨regs, streams, e, -⟩ := (d.setCorr i (d.corr i).emptied).sReset_frame i t
  rw [Device.resetStream, e, Device.corr_setCorr]
  split
  · next h => rw [h, Device.corr_setCorr, if_pos rfl]; rfl
  · next h => exact (Device.corr_setCorr d i c _).trans (if_neg h)

theorem Device.chan_resetStream (t : Time) (d : Device) (i z : Nat) : (d.resetStream t i).chan z = d.chan z := by
  obtain ⟨regs, streams, e, -⟩ := (d.setCorr i (d.corr i).emptied).sReset_frame i t
  rw [Device.resetStream, e]
  rfl

theorem Device.rd_resetStream (t : Time) (d : Device) (i : Nat) {b : Nat} (h : b ≠ Reg.LNK_S_ANCHOR_LO i)
    (h' : b ≠ Reg.LNK_S_ANCHOR_LO i + 4) : (d.resetStream t i).rd b = d.rd b := by
  obtain ⟨regs, streams, e, hr⟩ := (d.setCorr i (d.corr i).emptied).sReset_frame i t
  rw [Device.resetStream, e]
  exact hr b h h'

/-! The reset. -/

theorem Device.rdTime_wrTime (d : Device) (lo : Nat) (t : Time) : (d.wrTime lo t).rdTime lo = t := by
  rw [Device.rdTime, Device.rd64, Device.wrTime, Device.wr64, Device.rdN_wr, Device.rdN_wr_other _ _ _ _ (by omega), Device.rdN_wr]
  apply BitVec.eq_of_toNat_eq
  rw [BitVec.toNat_ofNat]
  omega

theorem Device.rdTime_congr {d d' : Device} {lo : Nat} (h : d'.rd lo = d.rd lo) (h' : d'.rd (lo + 4) = d.rd (lo + 4)) :
    d'.rdTime lo = d.rdTime lo := by
  rw [Device.rdTime, Device.rd64, Device.rdN, Device.rdN, h, h']; rfl

/-- The stamp and the count of the reset are registers. -/
theorem Device.resetShown_frame (d : Device) (t : Time) :
    ∃ regs, (d.wrTime Reg.CHN_LAST_RESET_LO t).inc Reg.CHN_RESET_CNT = { d with regs := regs } := by
  obtain ⟨r1, e1⟩ := d.wr_eq Reg.CHN_LAST_RESET_LO (t.toNat % 2 ^ 32)
  obtain ⟨r2, e2⟩ := Device.wr_eq { d with regs := r1 } (Reg.CHN_LAST_RESET_LO + 4) (t.toNat / 2 ^ 32)
  exact ⟨_, by rw [Device.wrTime, Device.wr64, e1, e2, Device.inc]; rfl⟩

theorem Device.decReset_eq (d : Device) (t : Time) : d.decReset t =
    (List.range 16).foldl Device.zReset
      ((List.range 8).foldl (Device.resetStream t) ((d.wrTime Reg.CHN_LAST_RESET_LO t).inc Reg.CHN_RESET_CNT)) := rfl

theorem Device.chan_decReset (d : Device) (t : Time) {z : Nat} (hz : z < 16) : (d.decReset t).chan z = (d.chan z).cleared := by
  obtain ⟨regs, e⟩ := d.resetShown_frame t
  rw [Device.decReset_eq, get_foldl_each (get := Device.chan) (g := Chan.cleared) (fun _ => rfl) Device.chan_zReset, if_pos (List.mem_range.mpr hz),
    foldl_keeps (get := fun d => d.chan z) (fun d i _ => d.chan_resetStream t i z), e]
  rfl

theorem Device.corr_decReset (d : Device) (t : Time) {c : Nat} (hc : c < 8) : (d.decReset t).corr c = (d.corr c).emptied := by
  obtain ⟨regs, e⟩ := d.resetShown_frame t
  rw [Device.decReset_eq, foldl_keeps (get := fun d => d.corr c) (f := Device.zReset) (fun _ _ _ => rfl),
    get_foldl_each (get := Device.corr) (g := Corr.emptied) (fun _ => rfl) (Device.corr_resetStream t), if_pos (List.mem_range.mpr hc), e]
  rfl

/-- A register that is no anchor of a stream is what the reset's stamp and count leave. -/
theorem Device.rd_decReset (d : Device) (t : Time) {b : Nat} (hb : b < 0x202000 ∨ 0x202800 ≤ b) :
    (d.decReset t).rd b = ((d.wrTime Reg.CHN_LAST_RESET_LO t).inc Reg.CHN_RESET_CNT).rd b := by
  rw [Device.decReset_eq, foldl_keeps (get := fun d => d.rd b) (f := Device.zReset) (fun _ _ _ => rfl),
    foldl_keeps (get := fun d => d.rd b) fun d i hi => ?_]
  have hi := List.mem_range.mp hi
  exact d.rd_resetStream t i (by unfold Reg.LNK_S_ANCHOR_LO; omega) (by unfold Reg.LNK_S_ANCHOR_LO; omega)

theorem Device.lastReset_decReset (d : Device) (t : Time) : (d.decReset t).rdTime Reg.CHN_LAST_RESET_LO = t := by
  rw [Device.rdTime_congr (Device.rd_decReset d t (by decide)) (Device.rd_decReset d t (by decide)), Device.inc,
    Device.rdTime_congr (Device.rd_wr_other _ _ _ _ (by decide)) (Device.rd_wr_other _ _ _ _ (by decide)), Device.rdTime_wrTime]

theorem Device.zPhase_eq (d : Device) (z : Nat) (j : Int) (f : Nat) :
    d.zPhase z j f = (((d.fld (F.CHN_Z_PHASE_PHASE0 z) * 2 ^ 32 : Nat) + j * f) % (2 ^ 48 : Int)).toNat := by
  rw [Device.zPhase, wrap]; norm_cast

/-! Boundaries (R30, R36, R350). -/

theorem exec_deviceBoundary {b : Time} (staging : List (Nat × Nat)) {s : State} (h : s.dev.isBoundary b = true) :
    exec (.deviceBoundary b staging) s =
      .next { s with dev := s.dev.boundaryAt b (decide (b = s.dev.time) && s.dev.resetDue b) staging } := by
  show execDeviceBoundary b staging s = _
  rw [execDeviceBoundary, State.run_eq, if_pos h]

theorem exec_deviceBoundary_none {b : Time} (staging : List (Nat × Nat)) {s : State} (h : s.dev.isBoundary b = false) :
    exec (.deviceBoundary b staging) s = .next s := by
  show execDeviceBoundary b staging s = _
  rw [execDeviceBoundary, State.run_eq, if_neg (by simp [h])]

theorem exec_decimatorReset {t : Time} {s : State} (h : t = s.dev.time) (h' : s.dev.resetDue t = true ∨ 0 ∈ s.dev.syncLeft) :
    exec (.decimatorReset t) s = .next { s with dev := s.dev.boundaryAt t true [] } := by
  show execDecimatorReset t s = _
  rw [execDecimatorReset, State.run_eq, if_pos ⟨h, h'⟩]

theorem exec_decimatorReset_none {t : Time} {s : State} (h : t ≠ s.dev.time ∨ (s.dev.resetDue t = false ∧ 0 ∉ s.dev.syncLeft)) :
    exec (.decimatorReset t) s = .next s := by
  show execDecimatorReset t s = _
  rw [execDecimatorReset, State.run_eq, if_neg]
  rintro ⟨rfl, hd⟩
  rcases h with h | ⟨h, hs⟩
  · exact h rfl
  · simp [h, hs] at hd

theorem Device.boundaryAt_awake {d : Device} (b : Time) (reset : Bool) (staging : List (Nat × Nat)) (h : d.gated = false) :
    d.boundaryAt b reset staging = (((if reset then d.stepOne b else d).stepTwo b).stepThree b).stepFour b staging := by
  rw [Device.boundaryAt, if_neg (by simp [h])]

theorem Device.boundaryAt_asleep {d : Device} (b : Time) (reset : Bool) (staging : List (Nat × Nat)) (h : d.gated = true) :
    d.boundaryAt b reset staging =
      ((if reset then d.stepOne b else d).unitsAt b [.ckoStart, .ckoStop, .monStart]).clocksAt b := by
  rw [Device.boundaryAt, if_pos h]

/-- A boundary carries out no reset unless it is the present and one is due (R135). -/
theorem Device.no_reset {d : Device} {b : Time} (h : b ≠ d.time ∨ d.resetDue b = false) :
    (decide (b = d.time) && d.resetDue b) = false := by
  rcases h with h | h <;> simp [h]

end Sys2Proof.Machine
end

section
/-! PROOFS. Device boundaries and the decimator reset (R30, R32, R36, R117, R133, R135, R350). -/

namespace Sys2Proof.Machine

/-- Settles O25, clause by clause: a boundary with and without a due reset, awake and asleep, the reset's own edge, and what the reset clears. -/
theorem deviceBoundaries : Obligations.DeviceBoundaries := by
  intro s b staging d steps clocks asked
  refine ⟨fun hb => exec_deviceBoundary_none staging hb, fun hb hg ht hr => ?_, fun hb hg hr => ?_, fun hb hg ht hr => ?_,
    fun hb hg hr => ?_, fun h => exec_decimatorReset_none h, fun ht h hg => ?_, fun ht h hg => ?_, fun z hz => d.chan_decReset b hz,
    fun z _ => d.zPhase_eq z, fun c hc => d.corr_decReset b hc, d.lastReset_decReset b⟩
  · rw [Gives, exec_deviceBoundary staging hb, Device.boundaryAt_awake _ _ _ hg, decide_eq_true ht, hr]; rfl
  · rw [Gives, exec_deviceBoundary staging hb, Device.boundaryAt_awake _ _ _ hg, Device.no_reset hr]; rfl
  · rw [Gives, exec_deviceBoundary staging hb, Device.boundaryAt_asleep _ _ _ hg, decide_eq_true ht, hr]; rfl
  · rw [Gives, exec_deviceBoundary staging hb, Device.boundaryAt_asleep _ _ _ hg, Device.no_reset hr]; rfl
  · rw [Gives, exec_decimatorReset ht h, Device.boundaryAt_awake _ _ _ hg]; rfl
  · rw [Gives, exec_decimatorReset ht h, Device.boundaryAt_asleep _ _ _ hg]; rfl

end Sys2Proof.Machine
end

section
/-! PROOFS. The completion of an engine's command (R262, R278). -/

namespace Sys2Proof.Machine

theorem exec_commandCompletion {s : State} {e k : Nat} {c : Completion}
    (h : s.dev.completions.find? (fun c => decide (c.e = e) && decide (c.k = k)) = some c) :
    exec (.commandCompletion e k) s =
      .next { s with dev := Device.deliverCompletion { s.dev with completions := s.dev.completions.erase c } c } := by
  show execCommandCompletion e k s = _
  rw [execCommandCompletion, State.run_eq, h]

/-- A completion for a VACANT engine is discarded and counted (R278). -/
theorem Device.deliverCompletion_vacant {d : Device} {c : Completion} (h : (d.eng c.e).state = 4) :
    d.deliverCompletion c = d.vacantDrop c.e := if_pos h

theorem Device.eng_vacantDrop (d : Device) (e j : Nat) : (d.vacantDrop e).eng j = d.eng j := by
  rw [Device.vacantDrop, Device.eng, Device.flag_engines, Device.eng]

/-- The ports of a VACANT engine stay as they are when its completion falls due. -/
theorem eng_commandCompletion_vacant {s t : State} {e k : Nat} {c : Completion}
    (h : s.dev.completions.find? (fun c => decide (c.e = e) && decide (c.k = k)) = some c) (hv : (s.dev.eng e).state = 4)
    (ht : exec (.commandCompletion e k) s = .next t) (j : Nat) : t.dev.eng j = s.dev.eng j := by
  obtain ⟨he, -⟩ : c.e = e ∧ c.k = k := by simpa using List.find?_some h
  rw [exec_commandCompletion h, Device.deliverCompletion_vacant (by rw [he]; exact hv)] at ht
  cases ht
  exact Device.eng_vacantDrop _ _ _

/-- Engine 0 is VACANT with its port 0 outstanding, and the completion of that port is on its way. -/
def vacantWithCompletion : State :=
  { dev := { engines := [(0, { state := 4, ports := [(0, { outstanding := true })] })], completions := [⟨0, 0, cOK, none⟩] } }

/-- Refutes O14: the clause of the completion leaves out that the engine is not VACANT (R270). One that falls due at a VACANT engine is discarded (R278),
and its port stays outstanding. -/
theorem not_commandPorts : ¬ Obligations.CommandPorts := by
  intro h
  obtain ⟨-, h⟩ := h
  obtain ⟨-, h⟩ := h vacantWithCompletion 0 0 0
  obtain ⟨t, ht, -, y, ⟨hy, -, -⟩, -, -, hport⟩ := h ⟨0, 0, cOK, none⟩ rfl rfl
  rw [← hy, eng_commandCompletion_vacant rfl rfl ht] at hport
  exact absurd hport (by decide)

end Sys2Proof.Machine
end

section
/-! SUPPORT. What a lane makes of the blocks and characters that arrive (R62, R63, R73, R74, R79, R80, R84). -/

namespace Sys2Proof.Machine

/-- What a row's operation makes of the device is what the row completes with. -/
theorem State.run_of_eq {s : State} {f : Device → Device} {d : Device} (h : f s.dev = d) : s.run f = .next { s with dev := d } := by
  rw [State.run_eq, h]

/-! Lanes, streams and one-bit fields read after a write. -/

@[simp] theorem Device.lane_setLane (d : Device) (i : Nat) (x : Lane) : (d.setLane i x).lane i = x :=
  Sparse.get_set_same _ _ _ _

theorem Device.lane_setLane_other (d : Device) (i j : Nat) (x : Lane) (h : j ≠ i) : (d.setLane i x).lane j = d.lane j :=
  Sparse.get_set_other _ _ _ _ _ h

@[simp] theorem Device.stream_setStream (d : Device) (s : Nat) (x : Stream) : (d.setStream s x).stream s = x :=
  Sparse.get_set_same _ _ _ _

@[simp] theorem Device.isSet_setLane (d : Device) (i : Nat) (x : Lane) (f : FieldAt) : (d.setLane i x).isSet f = d.isSet f := rfl

@[simp] theorem Device.lane_flag (d : Device) (f : FieldAt) (c j : Nat) : (d.flag f c).lane j = d.lane j := rfl

@[simp] theorem Device.lane_setFld (d : Device) (f : FieldAt) (v j : Nat) : (d.setFld f v).lane j = d.lane j := rfl

/-- An event leaves the fields of the registers that are neither its flag's nor its counter. -/
theorem Device.isSet_flag_other (d : Device) (x y : FieldAt) (c : Nat) (h : y.addr ≠ x.addr) (h' : y.addr ≠ c) :
    (d.flag x c).isSet y = d.isSet y := by
  rw [Device.isSet, Device.fld, Device.flag, Device.inc, Device.rdN_wr_other _ _ _ _ h', Device.setFld, Device.rdN_wr_other _ _ _ _ h]
  rfl

theorem Device.isSet_setFld (d : Device) (x : FieldAt) (v : Nat) (h : x.f.lo + x.f.w ≤ 32) :
    (d.setFld x v).isSet x = decide (v % 2 ^ x.f.w = 1) := by rw [Device.isSet, Device.fld_setFld _ _ _ h]

theorem Device.isSet_setFld_other (d : Device) (x y : FieldAt) (v : Nat) (h : y.addr ≠ x.addr) :
    (d.setFld x v).isSet y = d.isSet y := by rw [Device.isSet, Device.fld_setFld_other _ _ _ _ h]; rfl

theorem Device.isSet_setFld_disjoint (d : Device) (x y : FieldAt) (v : Nat) (hx : x.f.lo + x.f.w ≤ 32)
    (h : x.f.lo + x.f.w ≤ y.f.lo ∨ y.f.lo + y.f.w ≤ x.f.lo) : (d.setFld x v).isSet y = d.isSet y := by
  rw [Device.isSet, Device.fld_setFld_disjoint _ _ _ _ hx h]; rfl

/-- A lane that takes what arrives: it is enabled and its clock is recovered. -/
def Device.laneOn (d : Device) (i : Nat) : Prop :=
  i < 32 ∧ d.isSet (F.LNK_L_CFG_EN i) = true ∧ d.isSet (F.LNK_L_STAT_CDR_LOCK i) = true

/-! Native framing (R62, R63, R73). -/

theorem exec_nativeBlockReceive {s : State} {i hdr raw : Nat} (ht : s.dev.laneOn i) (hf : s.dev.isSet (F.LNK_G_CFG_FRAMING (i / 4)) = false)
    (hh : hdr < 4) (hr : raw < 2 ^ 64) :
    exec (.nativeBlockReceive i hdr raw) s = .next { s with dev :=
      (s.dev.rxBlock i (if s.dev.isSet (F.LNK_L_CFG_POL_INV i) then 3 - hdr else hdr)
        (if s.dev.isSet (F.LNK_L_CFG_POL_INV i) then 2 ^ 64 - 1 - raw else raw)) } := by
  obtain ⟨hi, he, hc⟩ := ht
  show execNativeBlockReceive i hdr raw s = _
  rw [execNativeBlockReceive, State.run_eq, if_pos ⟨hi, he, hc, hf⟩, Nat.mod_eq_of_lt hh, Nat.mod_eq_of_lt hr]

theorem exec_nativeBlockReceive_none {s : State} {i : Nat} (hdr raw : Nat)
    (h : ¬s.dev.laneOn i ∨ s.dev.isSet (F.LNK_G_CFG_FRAMING (i / 4)) = true) :
    exec (.nativeBlockReceive i hdr raw) s = .next s := by
  show execNativeBlockReceive i hdr raw s = _
  rw [execNativeBlockReceive, State.run_eq, if_neg]
  rintro ⟨hi, he, hc, hf⟩
  rcases h with h | h
  · exact h ⟨hi, he, hc⟩
  · rw [hf] at h; cases h

/-- What a lane keeps of the headers: 64 of them, the newest lowest, a one for a bad header. -/
def Lane.histAfter (x : Lane) (hdr : Nat) : Nat := (x.hist * 2 + (if hdr = 1 ∨ hdr = 2 then 0 else 1)) % 2 ^ 64

/-- Whether a block is one that does not advance the descrambler: the ALIGN of an aligned lane's position, and what looks like one on another lane. -/
def Device.plainAt (d : Device) (i hdr raw : Nat) : Bool :=
  if d.isSet (F.LNK_L_STAT_ALIGNED i) then decide ((d.lane i).pos = 4095) else isAlign hdr raw

/-- The payload of a block, and the descrambler's state after it. -/
def Lane.descrambled (x : Lane) (plain : Bool) (raw : Nat) : Nat × Nat := if plain then (raw, x.desc) else descramble 64 x.desc raw

theorem Lane.descrambled_false (x : Lane) (raw : Nat) : x.descrambled false raw = descramble 64 x.desc raw := rfl

/-- A block's header is judged and its payload descrambled. -/
def Device.blockIn (d : Device) (i hdr raw : Nat) (plain : Bool) : Device :=
  (if hdr = 1 ∨ hdr = 2 then d else d.hdrErr i).setLane i { d.lane i with
    hist := (d.lane i).histAfter hdr, desc := ((d.lane i).descrambled plain raw).2 }

theorem Device.lane_blockIn (d : Device) (i hdr raw : Nat) (plain : Bool) : (d.blockIn i hdr raw plain).lane i = { d.lane i with
    hist := (d.lane i).histAfter hdr, desc := ((d.lane i).descrambled plain raw).2 } := Device.lane_setLane _ _ _

@[simp] theorem Device.aligned_hdrErr (d : Device) (i : Nat) :
    (d.hdrErr i).isSet (F.LNK_L_STAT_ALIGNED i) = d.isSet (F.LNK_L_STAT_ALIGNED i) :=
  Device.isSet_flag_other _ _ _ _ (by simp [F.LNK_L_STAT_ALIGNED, F.LNK_L_FLAGS_HDR_ERR, Reg.LNK_L_STAT, Reg.LNK_L_FLAGS])
    (by simp [F.LNK_L_STAT_ALIGNED, Reg.LNK_L_STAT, Reg.LNK_L_HDR_ERR])

/-- What a locked lane does with a block (R73): it loses lock, or goes on as an aligned lane or as one that seeks alignment. -/
theorem Device.rxBlock_locked {d : Device} {i hdr raw : Nat} {plain : Bool} (hl : d.isSet (F.LNK_L_STAT_BLOCK_LOCK i) = true)
    (hp : d.plainAt i hdr raw = plain) :
    d.rxBlock i hdr raw =
      if 16 ≤ popCount ((d.lane i).histAfter hdr) 64 then (d.blockIn i hdr raw plain).loseLock i
      else if d.isSet (F.LNK_L_STAT_ALIGNED i) then
        (d.blockIn i hdr raw plain).alignedBlock i hdr ((d.lane i).descrambled plain raw).1 (plain && isAlign hdr raw)
      else (d.blockIn i hdr raw plain).seekAlign i hdr ((d.lane i).descrambled plain raw).1 (isAlign hdr raw) := by
  subst hp
  rw [Device.rxBlock, if_neg (by simp [hl]), Device.blockIn, Lane.histAfter]
  by_cases hg : hdr = 1 ∨ hdr = 2
  · simp only [hg, decide_true, if_true]; rfl
  · simp only [hg, decide_false, Bool.false_eq_true, if_false, Device.aligned_hdrErr, Device.isSet_setLane]; rfl

theorem Device.rxBlock_hunting_good {d : Device} {i hdr : Nat} (raw : Nat) (hl : d.isSet (F.LNK_L_STAT_BLOCK_LOCK i) = false)
    (hg : hdr = 1 ∨ hdr = 2) (hr : (d.lane i).goodRun < 63) :
    d.rxBlock i hdr raw = d.setLane i { d.lane i with
      goodRun := (d.lane i).goodRun + 1, hist := 0, desc := (descramble 64 (d.lane i).desc raw).2 } := by
  have h : (d.lane i).goodRun ≠ 63 := by omega
  simp [Device.rxBlock, hl, hg, h]

/-- The sixty-fourth good header in a row gives block lock. -/
theorem Device.rxBlock_gainLock {d : Device} {i hdr : Nat} (raw : Nat) (hl : d.isSet (F.LNK_L_STAT_BLOCK_LOCK i) = false)
    (hg : hdr = 1 ∨ hdr = 2) (hr : (d.lane i).goodRun = 63) :
    d.rxBlock i hdr raw = (d.setLane i { d.lane i with goodRun := 64, hist := 0, desc := (descramble 64 (d.lane i).desc raw).2 }).setFld
      (F.LNK_L_STAT_BLOCK_LOCK i) 1 := by
  simp [Device.rxBlock, hl, hg, hr]

theorem Device.rxBlock_hunting_bad {d : Device} {i hdr : Nat} (raw : Nat) (hl : d.isSet (F.LNK_L_STAT_BLOCK_LOCK i) = false)
    (hg : ¬(hdr = 1 ∨ hdr = 2)) :
    d.rxBlock i hdr raw = d.setLane i { d.lane i with goodRun := 0, hist := 0, desc := (descramble 64 (d.lane i).desc raw).2 } := by
  simp [Device.rxBlock, hl, hg]

theorem isAlign_of_bad {hdr raw : Nat} (hg : ¬(hdr = 1 ∨ hdr = 2)) : isAlign hdr raw = false := by
  simp [isAlign]; omega

theorem hdr_of_isAlign {hdr raw : Nat} (h : isAlign hdr raw = true) : hdr = 2 := by
  simp [isAlign] at h; omega

theorem Device.plainAt_seeking {d : Device} {i : Nat} (hdr raw : Nat) (ha : d.isSet (F.LNK_L_STAT_ALIGNED i) = false) :
    d.plainAt i hdr raw = isAlign hdr raw := by rw [Device.plainAt, if_neg (by simp [ha])]

theorem Device.plainAt_aligned {d : Device} {i : Nat} (hdr raw : Nat) (ha : d.isSet (F.LNK_L_STAT_ALIGNED i) = true) :
    d.plainAt i hdr raw = decide ((d.lane i).pos = 4095) := by rw [Device.plainAt, if_pos ha]

/-- The sixteenth bad header of 64 takes block lock. -/
theorem Device.rxBlock_loseLock {d : Device} {i hdr : Nat} (raw : Nat) (hl : d.isSet (F.LNK_L_STAT_BLOCK_LOCK i) = true)
    (hg : ¬(hdr = 1 ∨ hdr = 2)) (hc : 16 ≤ popCount ((d.lane i).histAfter hdr) 64) :
    d.rxBlock i hdr raw = ((d.hdrErr i).setLane i { d.lane i with
      hist := (d.lane i).histAfter hdr
      desc := if d.isSet (F.LNK_L_STAT_ALIGNED i) = true ∧ (d.lane i).pos = 4095 then (d.lane i).desc
        else (descramble 64 (d.lane i).desc raw).2 }).loseLock i := by
  cases ha : d.isSet (F.LNK_L_STAT_ALIGNED i) with
  | false =>
    rw [Device.rxBlock_locked hl (Device.plainAt_seeking hdr raw ha), if_pos hc, isAlign_of_bad hg, Device.blockIn, if_neg hg, if_neg (by simp)]
    rfl
  | true =>
    rw [Device.rxBlock_locked hl (Device.plainAt_aligned hdr raw ha), if_pos hc, Device.blockIn, if_neg hg]
    by_cases hp : (d.lane i).pos = 4095
    · rw [if_pos ⟨rfl, hp⟩, decide_eq_true hp]; rfl
    · rw [if_neg (fun h => hp h.2), decide_eq_false hp]; rfl

/-- A block on a locked lane that seeks alignment. -/
theorem Device.rxBlock_seeking {d : Device} {i hdr raw : Nat} {align : Bool} (hl : d.isSet (F.LNK_L_STAT_BLOCK_LOCK i) = true)
    (ha : d.isSet (F.LNK_L_STAT_ALIGNED i) = false) (hc : popCount ((d.lane i).histAfter hdr) 64 < 16) (hal : isAlign hdr raw = align) :
    d.rxBlock i hdr raw = (d.blockIn i hdr raw align).seekAlign i hdr ((d.lane i).descrambled align raw).1 align := by
  rw [Device.rxBlock_locked hl ((Device.plainAt_seeking hdr raw ha).trans hal), if_neg (by omega), if_neg (by simp [ha]), hal]

/-- A block on an aligned lane whose next position is not 0. -/
theorem Device.rxBlock_aligned {d : Device} {i hdr : Nat} (raw : Nat) (hl : d.isSet (F.LNK_L_STAT_BLOCK_LOCK i) = true)
    (ha : d.isSet (F.LNK_L_STAT_ALIGNED i) = true) (hc : popCount ((d.lane i).histAfter hdr) 64 < 16) (hp : (d.lane i).pos ≠ 4095) :
    d.rxBlock i hdr raw = (d.blockIn i hdr raw false).alignedBlock i hdr ((d.lane i).descrambled false raw).1 false := by
  rw [Device.rxBlock_locked hl ((Device.plainAt_aligned hdr raw ha).trans (decide_eq_false hp)), if_neg (by omega), if_pos ha, Bool.false_and]

theorem Device.seekAlign_unmarked {d : Device} {i : Nat} (hdr payload : Nat) (h : (d.lane i).pair = none) :
    d.seekAlign i hdr payload false = d := by
  simp [Device.seekAlign, h]

/-- An ALIGN that does not follow another at its place is judged and begins a pair. -/
theorem Device.seekAlign_first {d : Device} {i payload : Nat} (hdr : Nat)
    (h : ∀ mc n, (d.lane i).pair = some (mc, n) → ¬(n = 4095 ∧ markerOf payload = (mc + 1) % 65536)) :
    d.seekAlign i hdr payload true =
      ((d.setLane i { d.lane i with pair := some (markerOf payload, 0) }).judge i 0 hdr payload true).2 := by
  cases hp : (d.lane i).pair with
  | none => simp [Device.seekAlign, hp]
  | some p =>
    have apart : (decide (p.2 = 4095) && decide (markerOf payload = (p.1 + 1) % 65536)) = false := by
      simpa using h p.1 p.2 hp
    simp only [Device.seekAlign, hp, apart, if_true, Bool.false_eq_true, if_false]

/-- Two ALIGN blocks 4,096 blocks apart with consecutive counts give alignment. -/
theorem Device.seekAlign_second {d : Device} {i mc payload : Nat} (hdr : Nat) (hp : (d.lane i).pair = some (mc, 4095))
    (hm : markerOf payload = (mc + 1) % 65536) :
    d.seekAlign i hdr payload true =
      let d' := d.setLane i { d.lane i with pair := some (markerOf payload, 0) }
      let r := ((d'.setLane i { d'.lane i with pos := 0, marker := markerOf payload }).gainAlign i).judge i 0 hdr payload true
      (r.2.keepBlock i ⟨0, r.1, false, payload⟩).regainCheck i := by
  simp [Device.seekAlign, hp, hm]

/-- Lane `i` is aligned, and at position `p`. -/
def Device.alignedAt (d : Device) (i p : Nat) : Prop := d.isSet (F.LNK_L_STAT_ALIGNED i) = true ∧ (d.lane i).pos = p

theorem Device.alignedAt.setLane {d : Device} {i p : Nat} {x : Lane} (h : d.alignedAt i p) (hx : x.pos = p) : (d.setLane i x).alignedAt i p :=
  ⟨h.1, by rw [Device.lane_setLane, hx]⟩

/-- The fields above ALIGNED in a register leave it. -/
theorem Device.alignedAt.setFld {d : Device} {i p : Nat} {x : FieldAt} (v : Nat) (h : d.alignedAt i p)
    (hx : (decide (3 ≤ x.f.lo) && decide (x.f.lo + x.f.w ≤ 32)) = true) : (d.setFld x v).alignedAt i p := by
  obtain ⟨hlo, hw⟩ : 3 ≤ x.f.lo ∧ x.f.lo + x.f.w ≤ 32 := by simpa using hx
  exact ⟨(d.isSet_setFld_disjoint x (F.LNK_L_STAT_ALIGNED i) v hw (.inr hlo)).trans h.1, h.2⟩

theorem Device.alignedAt.scbErr {d : Device} {i p : Nat} (h : d.alignedAt i p) : (d.scbErr i).alignedAt i p :=
  ⟨(Device.isSet_flag_other _ _ _ _ (by simp [F.LNK_L_STAT_ALIGNED, F.LNK_L_FLAGS_SCB_ERR, Reg.LNK_L_STAT, Reg.LNK_L_FLAGS])
    (by simp [F.LNK_L_STAT_ALIGNED, Reg.LNK_L_STAT, Reg.LNK_L_SCB_ERR])).trans h.1, h.2⟩

/-- The stream of a lane shows the number of lanes that a marker block names (R74). -/
def Device.showN (d : Device) (i payload : Nat) : Device :=
  match d.laneStream i with
  | none => d
  | some s => d.setFld (F.LNK_S_STAT_N_SEEN s) (bitsOf payload 16 6)

/-- The fields of a lane's status that a marker block shows (R74). -/
def Device.showFields (d : Device) (i payload : Nat) : Device :=
  ((d.setFld (F.LNK_L_STAT_LANE_INDEX i) (bitsOf payload 8 5)).setFld (F.LNK_L_STAT_TAG i) (bitsOf payload 13 3)).setFld
    (F.LNK_L_STAT_PARITY_LANE i) (if bitsOf payload 16 6 ≠ 0 ∧ bitsOf payload 8 5 = bitsOf payload 16 6 then 1 else 0)

/-- What a marker block shows, step by step. The kernel would search the streams for the lane if it met `showLane`'s `match` outside its
own definition, so the definition is unfolded as a function and the `match` is named while its device is a variable. -/
theorem Device.showLane_eq (d : Device) (i payload : Nat) : d.showLane i payload =
    ((d.showFields i payload).setLane i { (d.showFields i payload).lane i with seen := true }).showN i payload := by
  obtain ⟨f, e⟩ : ∃ f, f = @Device.showLane := ⟨_, rfl⟩
  rw [← e]
  delta Device.showLane at e
  subst e
  beta_reduce
  conv =>
    lhs
    enter [d1, d2, d3]
    change Device.showN _ i payload
  rfl

theorem Device.alignedAt.showFields {d : Device} {i p : Nat} (payload : Nat) (h : d.alignedAt i p) :
    (d.showFields i payload).alignedAt i p :=
  ((h.setFld _ rfl).setFld _ rfl).setFld _ rfl

theorem Device.alignedAt.showN {d : Device} {i p : Nat} (payload : Nat) (h : d.alignedAt i p) : (d.showN i payload).alignedAt i p := by
  unfold Device.showN
  split
  · exact h
  · exact h.setFld _ rfl

theorem Device.alignedAt.showLane {d : Device} {i p : Nat} (payload : Nat) (h : d.alignedAt i p) :
    (d.showLane i payload).alignedAt i p := by
  rw [Device.showLane_eq]
  refine ((h.showFields payload).setLane ?_).showN payload
  exact (h.showFields payload).2

/-- An ALIGN at position 0 is shown, or its fields do not match. -/
theorem Device.judge_align (d : Device) (i hdr payload : Nat) :
    (d.judge i 0 hdr payload true).2 = d.showLane i payload ∨ (d.judge i 0 hdr payload true).2 = d.scbErr i := by
  simp only [Device.judge, Nat.zero_mod, if_true, decide_true, Bool.not_true, Bool.false_eq_true, if_false]
  generalize d.laneStream i = l
  cases l with
  | none => exact .inl rfl
  | some s =>
    cases hm : d.linkMatch s payload with
    | true => exact .inl (by simp [hm])
    | false => exact .inr (by simp [hm])

theorem Device.alignedAt.judge_align {d : Device} {i p : Nat} (hdr payload : Nat) (h : d.alignedAt i p) :
    (d.judge i 0 hdr payload true).2.alignedAt i p := by
  rcases d.judge_align i hdr payload with e | e
  · rw [e]; exact h.showLane payload
  · rw [e]; exact h.scbErr

theorem Device.alignedAt.keepBlock {d : Device} {i p : Nat} (b : RxBlk) (h : d.alignedAt i p) : (d.keepBlock i b).alignedAt i p := by
  unfold Device.keepBlock
  split
  · exact h
  · exact h.setLane h.2

theorem Device.alignedAt.regainCheck {d : Device} {i p : Nat} (h : d.alignedAt i p) : (d.regainCheck i).alignedAt i p := by
  unfold Device.regainCheck
  split
  · exact h
  · split
    · exact h
    · exact h

theorem Device.alignedAt_gainAlign {d : Device} {i p : Nat} (h : (d.lane i).pos = p) : (d.gainAlign i).alignedAt i p :=
  ⟨d.isSet_setFld (F.LNK_L_STAT_ALIGNED i) 1 (by decide : 2 + 1 ≤ 32), by rw [Device.gainAlign, Device.lane_setLane]; exact h⟩

/-- After the second of two ALIGN blocks at their place, the lane is aligned and at position 0. -/
theorem Device.alignedAt_seekAlign {d : Device} {i mc payload : Nat} (hdr : Nat) (hp : (d.lane i).pair = some (mc, 4095))
    (hm : markerOf payload = (mc + 1) % 65536) : (d.seekAlign i hdr payload true).alignedAt i 0 := by
  rw [Device.seekAlign_second hdr hp hm]
  exact (((Device.alignedAt_gainAlign (by rw [Device.lane_setLane])).judge_align hdr payload).keepBlock _).regainCheck

theorem Device.judge_data (d : Device) {i pos : Nat} (payload : Nat) (align : Bool) (h : pos % 32 ≠ 0) :
    d.judge i pos 1 payload align = (true, d) := by
  have h0 : pos ≠ 0 := by omega
  simp [Device.judge, h, h0]

/-- A data block of an aligned lane is kept at its position. -/
theorem Device.alignedBlock_data {d : Device} {i pos payload : Nat} (align : Bool) (hx : ((d.lane i).pos + 1) % 4096 = pos)
    (hp : pos % 32 ≠ 0) (hm : (d.lane i).muted = false) :
    ∃ y : Device, d.alignedBlock i 1 payload align = y.keepBlock i ⟨pos, true, false, payload⟩ ∧
      y = { d with lanes := y.lanes } ∧ y.lane i = { d.lane i with pos := pos } ∧ ∀ j, j ≠ i → y.lane j = d.lane j := by
  have h0 : pos ≠ 0 := by omega
  let x : Lane := { d.lane i with pos := pos }
  refine ⟨((d.setLane i x).setLane i x).setLane i x, ?_, rfl, Device.lane_setLane _ _ _, fun j hj => ?_⟩
  · simp [Device.alignedBlock, hx, Device.judge_data, hp, h0, hm, x]
  · rw [Device.lane_setLane_other _ _ _ _ hj, Device.lane_setLane_other _ _ _ _ hj, Device.lane_setLane_other _ _ _ _ hj]

/-- A data block of a locked and aligned lane is descrambled, and kept at its position (R63, R73). -/
theorem Device.rxBlock_data {d : Device} {i hdr raw pos : Nat} (hl : d.isSet (F.LNK_L_STAT_BLOCK_LOCK i) = true)
    (ha : d.isSet (F.LNK_L_STAT_ALIGNED i) = true) (hc : popCount ((d.lane i).histAfter hdr) 64 < 16) (hh : hdr = 1)
    (hx : ((d.lane i).pos + 1) % 4096 = pos) (hp : pos % 32 ≠ 0) (hm : (d.lane i).muted = false) :
    ∃ y : Device, d.rxBlock i hdr raw = y.keepBlock i ⟨pos, true, false, (descramble 64 (d.lane i).desc raw).1⟩ ∧
      y = { d with lanes := y.lanes } ∧
      y.lane i = { d.lane i with hist := (d.lane i).histAfter hdr, desc := (descramble 64 (d.lane i).desc raw).2, pos := pos } ∧
      ∀ j, j ≠ i → y.lane j = d.lane j := by
  rw [Device.rxBlock_aligned raw hl ha hc (by omega), Lane.descrambled_false]
  subst hh
  obtain ⟨y, hy, hd, hi, hj⟩ := Device.alignedBlock_data (d := d.blockIn i 1 raw false) (payload := (descramble 64 (d.lane i).desc raw).1)
    false (by rw [Device.lane_blockIn]; exact hx) hp (by rw [Device.lane_blockIn]; exact hm)
  refine ⟨y, hy, ?_, ?_, fun j h => ?_⟩
  · rw [Device.blockIn, if_pos (.inl rfl)] at hd; exact hd
  · rw [hi, Device.lane_blockIn, Lane.descrambled_false]
  · rw [hj j h, Device.blockIn, if_pos (.inl rfl), Device.lane_setLane_other _ _ _ _ h]

/-! Larkspur framing (R79, R80, R84). -/

/-- The lane's elastic buffer has inserted or dropped a skip character, or not. -/
def Device.skipped (d : Device) (i : Nat) (adj : Bool) : Device := if adj then d.inc (Reg.LNK_L_SKIP_ADJ i) else d

theorem exec_larkspurCharacterReceive {s : State} {i code : Nat} (adj : Bool) (ht : s.dev.laneOn i)
    (hf : s.dev.isSet (F.LNK_G_CFG_FRAMING (i / 4)) = true) (hc : code < 1024) :
    exec (.larkspurCharacterReceive i code adj) s = .next { s with dev :=
      ((s.dev.skipped i adj).larkCode i (if (s.dev.skipped i adj).isSet (F.LNK_L_CFG_POL_INV i) then 1023 - code else code)) } := by
  obtain ⟨hi, he, hl⟩ := ht
  show execLarkspurCharacterReceive i code adj s = _
  rw [execLarkspurCharacterReceive, State.run_eq, if_pos ⟨hi, he, hl, hf⟩, Nat.mod_eq_of_lt hc]
  rfl

theorem exec_larkspurCharacterReceive_none {s : State} {i : Nat} (code : Nat) (adj : Bool)
    (h : ¬s.dev.laneOn i ∨ s.dev.isSet (F.LNK_G_CFG_FRAMING (i / 4)) = false) :
    exec (.larkspurCharacterReceive i code adj) s = .next s := by
  show execLarkspurCharacterReceive i code adj s = _
  rw [execLarkspurCharacterReceive, State.run_eq, if_neg]
  rintro ⟨hi, he, hc, hf⟩
  rcases h with h | h
  · exact h ⟨hi, he, hc⟩
  · rw [Device.laneLark, h] at hf; cases hf

@[simp] theorem Device.lane_skipped (d : Device) (i : Nat) (adj : Bool) (j : Nat) : (d.skipped i adj).lane j = d.lane j := by
  cases adj <;> rfl

theorem Device.isSet_skipped (d : Device) (i : Nat) (adj : Bool) (x : FieldAt) (h : x.addr ≠ Reg.LNK_L_SKIP_ADJ i) :
    (d.skipped i adj).isSet x = d.isSet x := by
  cases adj with
  | false => rfl
  | true =>
    show decide (Device.fld (d.inc _) x = 1) = _
    rw [Device.fld, Device.inc, Device.rdN_wr_other _ _ _ _ h]
    rfl

@[simp] theorem Device.polInv_skipped (d : Device) (i : Nat) (adj : Bool) :
    (d.skipped i adj).isSet (F.LNK_L_CFG_POL_INV i) = d.isSet (F.LNK_L_CFG_POL_INV i) :=
  d.isSet_skipped i adj _ (by simp [F.LNK_L_CFG_POL_INV, Reg.LNK_L_CFG, Reg.LNK_L_SKIP_ADJ])

@[simp] theorem Device.blockLock_skipped (d : Device) (i : Nat) (adj : Bool) :
    (d.skipped i adj).isSet (F.LNK_L_STAT_BLOCK_LOCK i) = d.isSet (F.LNK_L_STAT_BLOCK_LOCK i) :=
  d.isSet_skipped i adj _ (by simp [F.LNK_L_STAT_BLOCK_LOCK, Reg.LNK_L_STAT, Reg.LNK_L_SKIP_ADJ])

@[simp] theorem Device.aligned_skipped (d : Device) (i : Nat) (adj : Bool) :
    (d.skipped i adj).isSet (F.LNK_L_STAT_ALIGNED i) = d.isSet (F.LNK_L_STAT_ALIGNED i) :=
  d.isSet_skipped i adj _ (by simp [F.LNK_L_STAT_ALIGNED, Reg.LNK_L_STAT, Reg.LNK_L_SKIP_ADJ])

@[simp] theorem Device.larkDecode_skipped (d : Device) (i : Nat) (adj : Bool) (code : Nat) :
    (d.skipped i adj).larkDecode i code = d.larkDecode i code := by
  rw [Device.larkDecode, Device.blockLock_skipped, Device.lane_skipped]; rfl

/-- A code word has been taken: the running disparity follows it. -/
def Device.wordIn (d : Device) (i code : Nat) : Device := d.setLane i { d.lane i with rd := disparity (d.lane i).rd 10 code }

theorem Device.larkCode_locked {d : Device} {i : Nat} (code : Nat) (h : d.isSet (F.LNK_L_STAT_BLOCK_LOCK i) = true) :
    d.larkCode i code = (d.wordIn i code).larkChar i (d.larkDecode i code) := by
  simp only [Device.larkCode, Device.isSet_setLane, h, if_true]; rfl

theorem Device.larkCode_hunting {d : Device} {i : Nat} (code : Nat) (h : d.isSet (F.LNK_L_STAT_BLOCK_LOCK i) = false) :
    d.larkCode i code =
      if d.larkDecode i code = .k then (d.wordIn i code).setFld (F.LNK_L_STAT_BLOCK_LOCK i) 1
      else if d.larkDecode i code = .invalid then (d.wordIn i code).flag (F.LNK_L_FLAGS_CODE_ERR i) (Reg.LNK_L_CODE_ERR i)
      else d.wordIn i code := by
  simp only [Device.larkCode, Device.isSet_setLane, h, Bool.false_eq_true, if_false]; rfl

/-- A data character of an aligned lane after the frame's first is kept at its position. -/
theorem Device.larkChar_data {d : Device} {i : Nat} {x : Lane} (b : Nat) (ha : d.isSet (F.LNK_L_STAT_ALIGNED i) = true)
    (hc : 2 ≤ x.lchar) : (d.setLane i x).larkChar i (.data b) =
      ((d.setLane i x).setLane i { x with lchar := (x.lchar + 1) % 256 }).keepBlock i ⟨x.lchar, true, false, b % 256⟩ := by
  have h0 : x.lchar ≠ 0 := by omega
  have h1 : x.lchar ≠ 1 := by omega
  simp only [Device.larkChar, Device.isSet_setLane, Device.lane_setLane, ha, h0, h1, Bool.not_true, Bool.false_eq_true, if_false]

theorem Device.aligned_codeErr (d : Device) (i : Nat) :
    (d.flag (F.LNK_L_FLAGS_CODE_ERR i) (Reg.LNK_L_CODE_ERR i)).isSet (F.LNK_L_STAT_ALIGNED i) = d.isSet (F.LNK_L_STAT_ALIGNED i) :=
  Device.isSet_flag_other _ _ _ _ (by simp [F.LNK_L_STAT_ALIGNED, F.LNK_L_FLAGS_CODE_ERR, Reg.LNK_L_STAT, Reg.LNK_L_FLAGS])
    (by simp [F.LNK_L_STAT_ALIGNED, Reg.LNK_L_STAT, Reg.LNK_L_CODE_ERR])

/-- An invalid character of an aligned lane is kept as an invalid one. -/
theorem Device.larkChar_invalid {d : Device} {i : Nat} {x : Lane} (ha : d.isSet (F.LNK_L_STAT_ALIGNED i) = true) (hc : x.lchar ≠ 0) :
    (d.setLane i x).larkChar i .invalid =
      (((d.setLane i x).flag (F.LNK_L_FLAGS_CODE_ERR i) (Reg.LNK_L_CODE_ERR i)).setLane i { x with
        lchar := (x.lchar + 1) % 256 }).keepBlock i ⟨x.lchar, false, false, 0⟩ := by
  simp only [Device.larkChar, Device.aligned_codeErr, Device.isSet_setLane, Device.lane_setLane, ha, hc, Bool.not_true, Bool.false_eq_true,
    if_false]

theorem Device.wordIn_skipped (d : Device) (i : Nat) (adj : Bool) (code : Nat) :
    (d.skipped i adj).wordIn i code = (d.skipped i adj).setLane i { d.lane i with rd := disparity (d.lane i).rd 10 code } := by
  rw [Device.wordIn, Device.lane_skipped]

/-- A code word and the skip adjustment before it, on a lane with character alignment. -/
theorem Device.larkCode_skipped_locked {d : Device} {i code : Nat} {c : LarkChar} (adj : Bool)
    (hl : d.isSet (F.LNK_L_STAT_BLOCK_LOCK i) = true) (hc : d.larkDecode i code = c) :
    (d.skipped i adj).larkCode i code =
      ((d.skipped i adj).setLane i { d.lane i with rd := disparity (d.lane i).rd 10 code }).larkChar i c := by
  rw [Device.larkCode_locked code ((d.blockLock_skipped i adj).trans hl), Device.larkDecode_skipped, Device.wordIn_skipped, hc]

/-- A code word and the skip adjustment before it, on a lane that seeks character alignment. -/
theorem Device.larkCode_skipped_hunting {d : Device} {i code : Nat} {c : LarkChar} (adj : Bool)
    (hl : d.isSet (F.LNK_L_STAT_BLOCK_LOCK i) = false) (hc : d.larkDecode i code = c) :
    (d.skipped i adj).larkCode i code =
      let d' := (d.skipped i adj).setLane i { d.lane i with rd := disparity (d.lane i).rd 10 code }
      if c = .k then d'.setFld (F.LNK_L_STAT_BLOCK_LOCK i) 1
      else if c = .invalid then d'.flag (F.LNK_L_FLAGS_CODE_ERR i) (Reg.LNK_L_CODE_ERR i)
      else d' := by
  rw [Device.larkCode_hunting code ((d.blockLock_skipped i adj).trans hl), Device.larkDecode_skipped, Device.wordIn_skipped, hc]

end Sys2Proof.Machine
end

section
/-! PROOFS. What arrives on a lane (R62, R63, R73, R74, R79, R80, R84). -/

namespace Sys2Proof.Machine

/-- The code words of K28.5, K28.3 and K28.0 at both running disparities (R79). -/
theorem decode8b10b_controls : decode8b10b false 0x0FA = .k ∧ decode8b10b true 0x305 = .k ∧ decode8b10b false 0x0F3 = .a ∧
    decode8b10b true 0x30C = .a ∧ decode8b10b false 0x0F4 = .s ∧ decode8b10b true 0x30B = .s := by decide

/-- Settles O26, clause by clause: a lane that takes nothing, a native lane that seeks block lock, that has it, that seeks alignment and that
has it, and a Larkspur lane before and after character alignment. -/
theorem laneReception : Obligations.LaneReception := by
  intro s i hdr' raw' code b adj d x inv hdr raw good takes native lark locked aligned pos hist sd bad block word ch rd base
  have gives : native → ∀ {f : Device → Device}, d.rxBlock i hdr raw = f d → Gives block s f := by
    rintro ⟨ht, hf, hh, hr⟩ f e
    rw [Gives, exec_nativeBlockReceive ht hf hh hr]
    exact congrArg (fun y => Host.Outcome.next { s with dev := y }) e
  have givesWord : lark → ∀ {f : Device → Device},
      (d.skipped i adj).larkCode i (if inv then 1023 - code else code) = f d → Gives word s f := by
    rintro ⟨ht, hf, hc⟩ f e
    rw [Gives, exec_larkspurCharacterReceive adj ht hf hc, Device.polInv_skipped]
    exact congrArg (fun y => Host.Outcome.next { s with dev := y }) e
  have nothing : ¬takes → Gives block s id ∧ Gives word s id := fun h =>
    ⟨exec_nativeBlockReceive_none _ _ (.inl h), exec_larkspurCharacterReceive_none _ _ (.inl h)⟩
  refine ⟨nothing, fun ⟨_, hf, _⟩ => exec_larkspurCharacterReceive_none _ _ (.inr hf),
    fun ⟨_, hf, _⟩ => exec_nativeBlockReceive_none _ _ (.inr hf),
    fun hn hl hg hrun => ?_, fun hn hl hg hrun => ?_, fun hn hl hg => ?_, fun hn hl ha hg hal hp hc => ?_, fun hn hl hg hc ha hp => ?_,
    fun hn hl hg hc => ?_, fun hn hl ha hal hc hp => ?_, fun mc hn hl ha hal hc hp hm => ?_, fun hn hl ha hh hpos hc hm => ?_,
    fun hk hl => ?_, fun hk hl => ?_, decode8b10b_controls⟩
  · exact gives hn (Device.rxBlock_hunting_good raw hl hg hrun)
  · exact gives hn (Device.rxBlock_gainLock raw hl hg hrun)
  · exact gives hn (Device.rxBlock_hunting_bad raw hl hg)
  · refine gives hn ?_
    rw [Device.rxBlock_seeking hl ha hc hal, Device.seekAlign_unmarked _ _ (by rw [Device.lane_blockIn]; exact hp), Device.blockIn, if_pos hg]
    rfl
  · refine gives hn ?_
    rw [Device.rxBlock_seeking hl ha hc (isAlign_of_bad hg), Device.seekAlign_unmarked _ _ (by rw [Device.lane_blockIn]; exact hp),
      Device.blockIn, if_neg hg]
    rfl
  · exact gives hn (Device.rxBlock_loseLock raw hl hg hc)
  · refine gives hn ?_
    rw [Device.rxBlock_seeking hl ha hc hal, Device.seekAlign_first _ (by rw [Device.lane_blockIn]; exact hp), Device.lane_blockIn,
      Device.blockIn, if_pos (.inr (hdr_of_isAlign hal))]
    rfl
  · refine ⟨_, gives hn (f := fun d => d.rxBlock i hdr raw) rfl, rfl, ?_⟩
    show Device.alignedAt (d.rxBlock i hdr raw) i 0
    rw [Device.rxBlock_seeking hl ha hc hal]
    exact Device.alignedAt_seekAlign hdr (by rw [Device.lane_blockIn]; exact hp) hm
  · refine ⟨_, gives hn (f := fun d => d.rxBlock i hdr raw) rfl, rfl, ?_⟩
    exact Device.rxBlock_data hl ha hc hh rfl hpos hm
  · refine ⟨fun hch => givesWord hk ?_, fun hch => givesWord hk ?_, fun hk' hi' => givesWord hk ?_⟩
    · rw [Device.larkCode_skipped_hunting adj hl hch]; exact if_pos rfl
    · rw [Device.larkCode_skipped_hunting adj hl hch]; exact (if_neg (by decide)).trans (if_pos rfl)
    · rw [Device.larkCode_skipped_hunting adj hl rfl]; exact (if_neg hk').trans (if_neg hi')
  · refine ⟨fun hch => givesWord hk ?_, fun ha hc hch => givesWord hk ?_, fun ha hc hch => givesWord hk ?_⟩
    · rw [Device.larkCode_skipped_locked adj hl hch]; rfl
    · rw [Device.larkCode_skipped_locked adj hl hch, Device.larkChar_data b ((d.aligned_skipped i adj).trans ha)]
      · rfl
      · exact hc
    · rw [Device.larkCode_skipped_locked adj hl hch, Device.larkChar_invalid ((d.aligned_skipped i adj).trans ha)]
      · rfl
      · exact hc

end Sys2Proof.Machine
end

section
/-! SUPPORT. Clock recovery, PLLs, the enabling of a lane and the shadow samplers (R61, R86 to R89, R91, R105). -/

namespace Sys2Proof.Machine

/-! Clock recovery. -/

theorem exec_cdrLock {s : State} {i : Nat} (hi : i < 32) (he : s.dev.isSet (F.LNK_L_CFG_EN i) = true) :
    exec (.cdrLock i) s = .next { s with dev := s.dev.setFld (F.LNK_L_STAT_CDR_LOCK i) 1 } := by
  show execCdrLock i s = _
  rw [execCdrLock, State.run_eq, if_pos ⟨hi, he⟩]

theorem exec_cdrLock_none {s : State} {i : Nat} (he : s.dev.isSet (F.LNK_L_CFG_EN i) = false) : exec (.cdrLock i) s = .next s := by
  show execCdrLock i s = _
  rw [execCdrLock, State.run_eq, if_neg (by simp [he])]

theorem exec_cdrLost {s : State} {i : Nat} (hi : i < 32) (hc : s.dev.isSet (F.LNK_L_STAT_CDR_LOCK i) = true) :
    exec (.cdrLost i) s = .next { s with dev :=
      (((s.dev.setFld (F.LNK_L_STAT_CDR_LOCK i) 0).flag (F.LNK_L_FLAGS_CDR_LOST i) (Reg.LNK_L_CDR_LOSS i)).loseLock i) } := by
  show execCdrLost i s = _
  rw [execCdrLost, State.run_eq, if_pos ⟨hi, hc⟩]

/-! PLLs. -/

theorem exec_lanePllLock_tx {s : State} {g : Nat} (hg : g < 6) (hr : s.dev.isSet F.CLK_STAT_REF_PRESENT = true)
    (hv : s.dev.isSet (F.LNK_TG_CFG_VALID g) = true) :
    exec (.lanePllLock true g) s = .next { s with dev := s.dev.setFld (F.LNK_TG_CFG_PLL_LOCK g) 1 } := by
  show execLanePllLock true g s = _
  rw [execLanePllLock]
  refine State.run_of_eq ((if_pos rfl).trans ?_)
  exact if_pos ⟨hg, hr, hv⟩

theorem exec_lanePllLockLost_tx {s : State} {g : Nat} (absent : Bool) (hg : g < 6) :
    exec (.lanePllLockLost true g absent) s = .next { s with dev := s.dev.setFld (F.LNK_TG_CFG_PLL_LOCK g) 0 } := by
  show execLanePllLockLost true g absent s = _
  rw [execLanePllLockLost]
  exact State.run_of_eq ((if_pos rfl).trans (if_pos hg))

theorem Device.framing_setPllLock (d : Device) (g v : Nat) :
    (d.setFld (F.LNK_G_CFG_PLL_LOCK g) v).isSet (F.LNK_G_CFG_FRAMING g) = d.isSet (F.LNK_G_CFG_FRAMING g) :=
  d.isSet_setFld_disjoint (F.LNK_G_CFG_PLL_LOCK g) (F.LNK_G_CFG_FRAMING g) v (by decide : 25 + 1 ≤ 32) (.inr (by decide : 16 + 1 ≤ 25))

/-- A group's bit of the absent LREFCLKs takes `v` where `b` holds, and everything else of `d'` stays. -/
theorem Device.lrefLost_if {d d' : Device} {b b' : Bool} (g v : Nat) (hb : b' = b) (hl : d'.lrefLost = d.lrefLost) :
    (if b' then { d' with lrefLost := setBits d'.lrefLost g 1 v } else d') =
      { d' with lrefLost := if b then setBits d.lrefLost g 1 v else d.lrefLost } := by
  rw [hb, ← hl]
  cases b <;> rfl

theorem exec_lanePllLock_rx {s : State} {g : Nat} (hg : g < 8)
    (hr : s.dev.isSet F.CLK_STAT_REF_PRESENT = true ∨ s.dev.isSet (F.LNK_G_CFG_FRAMING g) = true)
    (hv : s.dev.isSet (F.LNK_G_CFG_VALID g) = true) :
    exec (.lanePllLock false g) s = .next { s with dev :=
      { s.dev.setFld (F.LNK_G_CFG_PLL_LOCK g) 1 with
        lrefLost := if s.dev.isSet (F.LNK_G_CFG_FRAMING g) then setBits s.dev.lrefLost g 1 0 else s.dev.lrefLost } } := by
  show execLanePllLock false g s = _
  rw [execLanePllLock]
  refine State.run_of_eq ((if_neg Bool.false_ne_true).trans ?_)
  refine (if_pos ⟨hg, hr, hv⟩).trans ?_
  exact Device.lrefLost_if g 0 (s.dev.framing_setPllLock g 1) (Device.setFld_lrefLost _ _ _)

theorem exec_lanePllLockLost_rx {s : State} {g : Nat} (absent : Bool) (hg : g < 8) :
    exec (.lanePllLockLost false g absent) s = .next { s with dev :=
      { s.dev.setFld (F.LNK_G_CFG_PLL_LOCK g) 0 with
        lrefLost := if absent && s.dev.isSet (F.LNK_G_CFG_FRAMING g) then setBits s.dev.lrefLost g 1 1 else s.dev.lrefLost } } := by
  show execLanePllLockLost false g absent s = _
  rw [execLanePllLockLost]
  refine State.run_of_eq ((if_neg Bool.false_ne_true).trans ?_)
  refine (if_pos hg).trans ?_
  exact Device.lrefLost_if g 1 (congrArg (absent && ·) (s.dev.framing_setPllLock g 0)) (Device.setFld_lrefLost _ _ _)

/-! Enabling and disabling a lane. -/

theorem exec_laneEnable {s : State} {i : Nat} (pol : Bool) (hi : i < 32) (he : s.dev.isSet (F.LNK_L_CFG_EN i) = false)
    (hv : s.dev.isSet (F.LNK_G_CFG_VALID (i / 4)) = true) :
    exec (.laneEnable i pol) s = .next { s with dev := s.dev.enableLane i pol } := by
  show execLaneEnable i pol s = _
  rw [execLaneEnable, State.run_eq, if_pos hi, if_neg (by simp [he]), if_pos hv]

theorem exec_laneEnable_polarity {s : State} {i : Nat} (pol : Bool) (hi : i < 32)
    (h : s.dev.isSet (F.LNK_L_CFG_EN i) = true ∨ s.dev.isSet (F.LNK_G_CFG_VALID (i / 4)) = false) :
    exec (.laneEnable i pol) s = .next { s with dev := s.dev.setFld (F.LNK_L_CFG_POL_INV i) (if pol then 1 else 0) } := by
  show execLaneEnable i pol s = _
  rw [execLaneEnable, State.run_eq, if_pos hi]
  cases he : s.dev.isSet (F.LNK_L_CFG_EN i) with
  | true => rw [if_pos rfl]
  | false => rw [if_neg Bool.false_ne_true, if_neg (by simpa [he] using h)]

theorem exec_laneDisable {s : State} {i : Nat} (hi : i < 32) (he : s.dev.isSet (F.LNK_L_CFG_EN i) = true) :
    exec (.laneDisable i) s = .next { s with dev := s.dev.disableLane i } := by
  show execLaneDisable i s = _
  rw [execLaneDisable, State.run_eq, if_pos ⟨hi, he⟩]

/-- A lane's registers as it is enabled: its configuration, and the status that it keeps (R105). -/
def Device.laneStart (d : Device) (i : Nat) (pol : Bool) : Device :=
  (d.wr (Reg.LNK_L_CFG i) (1 + (if pol then 2 else 0))).wr (Reg.LNK_L_STAT i) (laneKeep (d.rdN (Reg.LNK_L_STAT i)))

theorem Device.rdN_laneStart (d : Device) {i a : Nat} (pol : Bool) (h : a ≠ Reg.LNK_L_CFG i) (h' : a ≠ Reg.LNK_L_STAT i) :
    (d.laneStart i pol).rdN a = d.rdN a := by
  rw [Device.laneStart, Device.rdN_wr_other _ _ _ _ h', Device.rdN_wr_other _ _ _ _ h]

/-- The equalisation entries lie above the lanes' registers. -/
theorem Device.eqByte_laneStart (d : Device) {i : Nat} (pol : Bool) (hi : i < 32) (e j : Nat) :
    (d.laneStart i pol).eqByte e j = d.eqByte e j := by
  rw [Device.eqByte, Device.rdN_laneStart, Device.eqByte]
  · unfold Reg.LNK_EQ Reg.LNK_L_CFG; omega
  · unfold Reg.LNK_EQ Reg.LNK_L_STAT; omega

theorem Device.eqEntry_laneStart (d : Device) {i : Nat} (pol : Bool) (hi : i < 32) (rate : Nat) :
    (d.laneStart i pol).eqEntry i rate = d.eqEntry i rate := by
  have h : ∀ e lane rate all, (d.laneStart i pol).eqMatch e lane rate all = d.eqMatch e lane rate all := fun e lane rate all => by
    simp only [Device.eqMatch, d.eqByte_laneStart pol hi]
  simp only [Device.eqEntry, h]

/-- A lane with an equalisation entry takes its settings (R88). -/
theorem Device.enableLane_entry {d : Device} {i e : Nat} (pol : Bool) (hi : i < 32)
    (h : d.eqEntry i (d.fld (F.LNK_G_CFG_RATE (i / 4))) = some e) :
    d.enableLane i pol = ((d.laneStart i pol).setFld (F.LNK_L_STAT_EQ_ENTRY i) e).setLane i
      { ctle := d.eqByte e 8 % 32
        dfe := ((List.range 6).map (fun j => d.eqByte e (9 + j) * 2 ^ (8 * j))).sum, windows := (d.lane i).windows } := by
  have hk := d.rdN_wr_other (Reg.LNK_L_CFG i) (Reg.LNK_L_STAT i) (1 + (if pol then 2 else 0)) (by simp [Reg.LNK_L_CFG, Reg.LNK_L_STAT])
  have hm := (d.eqEntry_laneStart pol hi (d.fld (F.LNK_G_CFG_RATE (i / 4)))).trans h
  simp only [← d.eqByte_laneStart pol hi]
  rw [Device.laneStart] at hm ⊢
  rw [Device.enableLane]
  simp only [hk, hm]
  rfl

/-- A lane without an entry takes the defaults (R88). -/
theorem Device.enableLane_default {d : Device} {i : Nat} (pol : Bool) (hi : i < 32)
    (h : d.eqEntry i (d.fld (F.LNK_G_CFG_RATE (i / 4))) = none) :
    d.enableLane i pol = ((d.laneStart i pol).setFld (F.LNK_L_STAT_EQ_DEFAULT i) 1).setLane i { windows := (d.lane i).windows } := by
  have hk := d.rdN_wr_other (Reg.LNK_L_CFG i) (Reg.LNK_L_STAT i) (1 + (if pol then 2 else 0)) (by simp [Reg.LNK_L_CFG, Reg.LNK_L_STAT])
  have hm := (d.eqEntry_laneStart pol hi (d.fld (F.LNK_G_CFG_RATE (i / 4)))).trans h
  rw [Device.laneStart] at hm ⊢
  rw [Device.enableLane]
  simp only [hk, hm]
  rfl

/-- The entry of a lane is the lowest-numbered one for it, else the lowest for every lane (R88). -/
theorem Device.eqEntry_own {d : Device} {i rate e : Nat} (he : e < 64) (hb : ∀ j, j < e → d.eqMatch j i rate false = false)
    (hm : d.eqMatch e i rate false = true) : d.eqEntry i rate = some e := by
  have h : (List.range 64).find? (fun e => d.eqMatch e i rate false) = some e :=
    List.find?_range_eq_some.mpr ⟨hm, List.mem_range.mpr he, fun j hj => by simp [hb j hj]⟩
  rw [Device.eqEntry, h]

theorem Device.eqEntry_shared {d : Device} {i rate : Nat} (hn : ∀ j, j < 64 → d.eqMatch j i rate false = false) :
    d.eqEntry i rate = (List.range 64).find? (fun e => d.eqMatch e i rate true) := by
  have h : (List.range 64).find? (fun e => d.eqMatch e i rate false) = none :=
    List.find?_range_eq_none.mpr fun j hj => by simp [hn j hj]
  rw [Device.eqEntry, h]

/-! Shadow samplers (R89 to R91). -/

theorem exec_samplerWindowEnd_none {s : State} {i : Nat} (differ bad mainBad : Bool) (h : s.dev.rotStepOf 6 = none) :
    exec (.samplerWindowEnd i differ bad mainBad) s = .next s := by
  show execSamplerWindowEnd i differ bad mainBad s = _
  rw [execSamplerWindowEnd, State.run_eq, h]

/-- What follows the end of a window in `d`. -/
theorem exec_samplerWindowEnd {s : State} {i : Nat} {x : RotStep} {d : Device} {differ bad mainBad : Bool} (h : s.dev.rotStepOf 6 = some x)
    (hg : x.g = i) (hp : x.phase = 1) (hs : s.dev.isSet (F.LNK_L_STAT_SAMPLERS i) = true)
    (hd : s.dev.samplerWindow i differ bad mainBad = d) :
    exec (.samplerWindowEnd i differ bad mainBad) s = .next { s with dev :=
      (if (d.lane i).exchange then d.shadowDone 6
       else if !d.isSet (F.LNK_L_STAT_SAMPLERS i) then (d.withdrawUnit x.s 2).stepEnd 6 else d) } := by
  subst hd
  show execSamplerWindowEnd i differ bad mainBad s = _
  rw [execSamplerWindowEnd]
  refine State.run_of_eq ?_
  rw [h]
  exact if_pos ⟨hg, hp, hs⟩

/-- A window that makes an exchange. -/
theorem Device.samplerWindow_exchange {d : Device} {i : Nat} {differ bad mainBad : Bool} (h : differ = false ∨ (bad = false ∧ mainBad = true)) :
    d.samplerWindow i differ bad mainBad = d.setLane i { d.lane i with windows := 0, exchange := true } := if_pos h

theorem Device.samplerWindow_count {d : Device} {i : Nat} {differ bad mainBad : Bool} (hd : differ = true) (hb : bad = true ∨ mainBad = false)
    (hw : (d.lane i).windows < 7) :
    d.samplerWindow i differ bad mainBad = d.setLane i { d.lane i with windows := (d.lane i).windows + 1 } :=
  (if_neg (by rcases hb with hb | hb <;> simp [hd, hb])).trans (if_neg (by omega))

/-- The eighth window in a row that makes no exchange withdraws the samplers. -/
theorem Device.samplerWindow_withdraw {d : Device} {i : Nat} {differ bad mainBad : Bool} (hd : differ = true)
    (hb : bad = true ∨ mainBad = false) (hw : (d.lane i).windows = 7) :
    d.samplerWindow i differ bad mainBad = ((d.setLane i { d.lane i with windows := 0 }).setFld (F.LNK_L_STAT_SAMPLERS i) 0).setFld
      (F.LNK_L_FLAGS_WITHDRAWN i) 1 :=
  (if_neg (by rcases hb with hb | hb <;> simp [hd, hb])).trans (if_pos hw)

/-- The samplers show as withdrawn. -/
theorem Device.samplers_withdrawn (d : Device) (i : Nat) :
    ((d.setFld (F.LNK_L_STAT_SAMPLERS i) 0).setFld (F.LNK_L_FLAGS_WITHDRAWN i) 1).isSet (F.LNK_L_STAT_SAMPLERS i) = false := by
  rw [Device.isSet_setFld_other _ _ _ _ (by simp [F.LNK_L_STAT_SAMPLERS, F.LNK_L_FLAGS_WITHDRAWN, Reg.LNK_L_STAT, Reg.LNK_L_FLAGS]),
    Device.isSet_setFld _ _ _ (by decide : 4 + 1 ≤ 32)]
  rfl

end Sys2Proof.Machine
end

section
/-! PROOFS. Clock recovery, PLLs, and enabling a lane (R61, R86 to R89, R91, R105). -/

namespace Sys2Proof.Machine

/-- Settles O27, clause by clause: clock recovery, PLLs, the entry that a lane takes, and the shadow samplers. -/
theorem laneControl : Obligations.LaneControl := by
  intro s i g e pol absent bad mainBad differ x d rate on ref kept taken before
  refine ⟨fun hi he => exec_cdrLock hi he, fun he => exec_cdrLock_none he, fun hi hc => exec_cdrLost hi hc,
    fun hg => ⟨fun hr hv => exec_lanePllLock_tx hg hr hv, exec_lanePllLockLost_tx absent hg⟩,
    fun hg => ⟨fun hr hv => ⟨_, exec_lanePllLock_rx hg hr hv, rfl, rfl, fun hf => ?_⟩,
      ⟨_, exec_lanePllLockLost_rx absent hg, rfl, rfl, fun ha hf => ?_⟩⟩,
    fun hi he hv => ⟨fun hlt hb hm => ?_, fun hlt hn hb hm => ?_, fun hn hn' => ?_⟩,
    fun hi h => exec_laneEnable_polarity pol hi h, fun hi he => exec_laneDisable hi he, fun h => exec_samplerWindowEnd_none _ _ _ h,
    fun h hg hp hs hx => ⟨fun hw => ?_, fun hd hb hw => ?_, fun hd hb hw => ?_⟩⟩
  · show bitAt (if d.isSet (F.LNK_G_CFG_FRAMING g) then _ else _) g = false
    rw [if_pos hf, bitAt_setBits, if_pos rfl]; rfl
  · show bitAt (if absent && d.isSet (F.LNK_G_CFG_FRAMING g) then _ else _) g = true
    rw [if_pos (by rw [ha, hf]; rfl), bitAt_setBits, if_pos rfl]; rfl
  · rw [Gives, exec_laneEnable pol hi he hv, Device.enableLane_entry pol hi (Device.eqEntry_own hlt hb hm)]; rfl
  · rw [Gives, exec_laneEnable pol hi he hv, Device.enableLane_entry pol hi ((Device.eqEntry_shared hn).trans
      (List.find?_range_eq_some.mpr ⟨hm, List.mem_range.mpr hlt, fun j hj => by simp [hb j hj]⟩))]
    rfl
  · rw [Gives, exec_laneEnable pol hi he hv, Device.enableLane_default pol hi ((Device.eqEntry_shared hn).trans
      (List.find?_range_eq_none.mpr fun j hj => by simp [hn' j hj]))]
    rfl
  · rw [Gives, exec_samplerWindowEnd h hg hp hs (Device.samplerWindow_exchange hw), if_pos (by rw [Device.lane_setLane])]
  · rw [Gives, exec_samplerWindowEnd h hg hp hs (Device.samplerWindow_count hd hb hw), if_neg (by rw [Device.lane_setLane, hx]; decide),
      if_neg (by rw [Device.isSet_setLane, hs]; decide)]
  · rw [Gives, exec_samplerWindowEnd h hg hp hs (Device.samplerWindow_withdraw hd hb hw),
      if_neg (by rw [Device.lane_setFld, Device.lane_setFld, Device.lane_setLane, hx]; decide),
      if_pos (by rw [Device.samplers_withdrawn]; rfl)]

end Sys2Proof.Machine
end

section
/-! SUPPORT. The slots of a link, and the release of a sample (R73, R76, R77, R92, R94, R101, R106). -/

namespace Sys2Proof.Machine

/-! Slots. -/

theorem exec_sampleSlot {s : State} {t p : Nat} (ht : t < 8) (hp : p < 4096) :
    exec (.sampleSlot t p) s = .next { s with dev := s.dev.slot t p } := by
  show execSampleSlot t p s = _
  rw [execSampleSlot, State.run_eq, if_pos ⟨ht, hp⟩]

/-- At an ALIGN slot the lanes whose marker count disagrees lose alignment (R73). -/
theorem Device.slot_align {d : Device} {t : Nat} (hl : (d.takeSlot 0 (d.sLanes t)).2.sLark t = false) :
    d.slot t 0 = (disagreeing (d.takeSlot 0 (d.sLanes t)).1).foldl Device.loseAlign (d.takeSlot 0 (d.sLanes t)).2 := by
  rw [Device.slot]
  exact if_pos ⟨rfl, by rw [hl]; rfl⟩

theorem Device.slot_not_align {d : Device} {t p : Nat} (h : p ≠ 0 ∨ (d.takeSlot p (d.sLanes t)).2.sLark t = true) :
    d.slot t p =
      let r := d.takeSlot p (d.sLanes t)
      if r.2.sState t = 0 ∨ (r.2.stream t).replay.isSome then r.2
      else if r.2.sLark t then r.2.larkSlot t p r.1
      else if p % 32 = 0 then r.2.scbSlot t r.1
      else r.2.dataSlot t r.1 := by
  rw [Device.slot]
  exact if_neg (by rcases h with h | h <;> simp [h])

/-- The slot of an OFF stream is taken, and no more. -/
theorem Device.slot_off {d : Device} {t p : Nat} (h : p ≠ 0 ∨ (d.takeSlot p (d.sLanes t)).2.sLark t = true)
    (hs : (d.takeSlot p (d.sLanes t)).2.sState t = 0) : d.slot t p = (d.takeSlot p (d.sLanes t)).2 := by
  rw [Device.slot_not_align h]
  exact if_pos (.inl hs)

theorem Device.slot_data {d : Device} {t p : Nat} (hp : p % 32 ≠ 0) (hs : (d.takeSlot p (d.sLanes t)).2.sState t ≠ 0)
    (hr : ((d.takeSlot p (d.sLanes t)).2.stream t).replay = none) (hl : (d.takeSlot p (d.sLanes t)).2.sLark t = false) :
    d.slot t p = (d.takeSlot p (d.sLanes t)).2.dataSlot t (d.takeSlot p (d.sLanes t)).1 := by
  have hp0 : p ≠ 0 := by omega
  rw [Device.slot_not_align (.inl hp0)]
  simp [hs, hr, hl, hp]

/-! A data slot (R76, R77). -/

/-- The data lanes of a link, each with its valid block of the slot. -/
def Device.dataLanes (d : Device) (t : Nat) (bs : List (Nat × Option RxBlk)) : List (Nat × Option RxBlk) :=
  (List.range (d.sN t)).map (fun k => (k, d.atIndex k bs))

/-- The units of a slot have been used: the next slot's follow them. -/
def Device.slotDone (d : Device) (t idx n : Nat) : Device := d.setStream t { d.stream t with nextIdx := some (idx + n) }

/-- A list of lanes that all carry a block, and at least one: none is missing, and the first block is the first lane's. -/
theorem blocks_of_all {l : List (Nat × Option RxBlk)} {P : RxBlk → Prop} (hl : l ≠ []) (h : ∀ x ∈ l, ∃ b, x.2 = some b ∧ P b) :
    l.filter (fun x => x.2.isNone) = [] ∧ ∃ b rest, l.filterMap (fun x => x.2) = b :: rest ∧ P b := by
  refine ⟨List.filter_eq_nil_iff.mpr fun x hx => ?_, ?_⟩
  · obtain ⟨b, hb, -⟩ := h x hx
    simp [hb]
  · obtain ⟨x, xs, rfl⟩ := List.exists_cons_of_ne_nil hl
    obtain ⟨b, hb, hP⟩ := h x List.mem_cons_self
    exact ⟨b, _, List.filterMap_cons_some hb, hP⟩

theorem Device.dataLanes_ne_nil {d : Device} {t : Nat} (bs : List (Nat × Option RxBlk)) (hn : 0 < d.sN t) : d.dataLanes t bs ≠ [] := by
  simp [Device.dataLanes]; omega

/-- A data slot of a link without a parity lane, whose lanes all have valid data. -/
theorem Device.dataSlot_whole {d : Device} {t idx : Nat} {bs : List (Nat × Option RxBlk)} (hp : d.isSet (F.LNK_S_CFG_PARITY t) = false)
    (hi : (d.stream t).nextIdx = some idx) (hn : 0 < d.sN t) (h : ∀ l ∈ d.dataLanes t bs, ∃ b, l.2 = some b ∧ b.idle = false) :
    d.dataSlot t bs = (d.putSlot t idx none (d.dataLanes t bs)).slotDone t idx (d.sN t) := by
  obtain ⟨hbad, b, rest, hgood, hb⟩ := blocks_of_all (Device.dataLanes_ne_nil bs hn) h
  simp only [Device.dataLanes] at hbad hgood
  simp only [Device.dataSlot, hp, hbad, hgood, Bool.false_eq_true, if_false]
  rw [hi, hb]
  rfl

/-- An idle slot carries nothing. -/
theorem Device.dataSlot_idle {d : Device} {t idx : Nat} {bs : List (Nat × Option RxBlk)} (hp : d.isSet (F.LNK_S_CFG_PARITY t) = false)
    (hi : (d.stream t).nextIdx = some idx) (hn : 0 < d.sN t) (h : ∀ l ∈ d.dataLanes t bs, ∃ b, l.2 = some b ∧ b.idle = true) :
    d.dataSlot t bs = d := by
  obtain ⟨hbad, b, rest, hgood, hb⟩ := blocks_of_all (Device.dataLanes_ne_nil bs hn) h
  simp only [Device.dataLanes] at hbad hgood
  simp only [Device.dataSlot, hp, hbad, hgood, Bool.false_eq_true, if_false]
  rw [hi, hb]
  rfl

/-- One of the lanes carries no valid block: it alone is missing. -/
theorem filter_missing {g : Nat → Option RxBlk} {n k : Nat} (hk : k < n) (hg : g k = none) (h : ∀ j, j < n → j ≠ k → (g j).isSome = true) :
    ((List.range n).map (fun j => (j, g j))).filter (fun l => l.2.isNone) = [(k, none)] := by
  have only : (List.range n).filter (fun j => (g j).isNone) = (List.range n).filter (fun j => j == k) :=
    List.filter_congr fun j hj => by
      by_cases e : j = k
      · simp [e, hg]
      · have := h j (List.mem_range.mp hj) e
        cases hj : g j <;> simp_all
  rw [List.filter_map]
  show ((List.range n).filter (fun j => (g j).isNone)).map _ = _
  rw [only, List.filter_beq, List.count_eq_one_of_mem List.nodup_range (List.mem_range.mpr hk)]
  simp [hg]

theorem Device.nextIdx_parityState (d : Device) (t : Nat) : ((d.parityState t true).stream t).nextIdx = (d.stream t).nextIdx := by
  rw [Device.parityState, if_pos rfl]
  rw [Device.stream_setStream]

/-- With parity, the block of one missing lane is rebuilt from the others and the parity block (R76, R77). -/
theorem Device.dataSlot_rebuilt {d : Device} {t idx k : Nat} {bs : List (Nat × Option RxBlk)} {par : RxBlk}
    (hp : d.isSet (F.LNK_S_CFG_PARITY t) = true) (hi : (d.stream t).nextIdx = some idx) (hpar : d.atIndex (d.sN t) bs = some par)
    (hd : par.idle = false) (hk : k < d.sN t) (hn : 1 < d.sN t)
    (h : ∀ l ∈ d.dataLanes t bs, (l.1 = k → l.2 = none) ∧ (l.1 ≠ k → ∃ b, l.2 = some b ∧ b.idle = false)) :
    d.dataSlot t bs = ((d.parityState t true).putSlot t idx
      (some (k, Nat.xor par.payload (xorAll (((d.dataLanes t bs).filterMap (fun l => l.2)).map (fun b => b.payload)))))
      (d.dataLanes t bs)).slotDone t idx (d.sN t) := by
  have lane : ∀ j, j < d.sN t → (j, d.atIndex j bs) ∈ d.dataLanes t bs := fun j hj => List.mem_map.mpr ⟨j, List.mem_range.mpr hj, rfl⟩
  have hbad := filter_missing hk ((h _ (lane k hk)).1 rfl) (fun j hj e => by
    obtain ⟨b, hb, -⟩ := (h _ (lane j hj)).2 e
    exact Option.isSome_iff_exists.mpr ⟨b, hb⟩)
  obtain ⟨b, rest, hgood⟩ : ∃ b rest, (d.dataLanes t bs).filterMap (fun l => l.2) = b :: rest := by
    obtain ⟨j, hj, hjk⟩ : ∃ j, j < d.sN t ∧ j ≠ k := ⟨if k = 0 then 1 else 0, by split <;> omega, by split <;> omega⟩
    obtain ⟨b, hb, -⟩ := (h _ (lane j hj)).2 hjk
    exact List.exists_cons_of_ne_nil (List.ne_nil_of_mem (List.mem_filterMap.mpr ⟨_, lane j hj, hb⟩))
  have hpar' : (if d.isSet (F.LNK_S_CFG_PARITY t) = true then d.atIndex (d.sN t) bs else none) = some par := by rw [if_pos hp, hpar]
  have hup : (if d.isSet (F.LNK_S_CFG_PARITY t) = true then d.parityState t true else d) = d.parityState t true := if_pos hp
  have hi' := (d.nextIdx_parityState t).trans hi
  rw [hgood]
  simp only [Device.dataLanes] at hgood ⊢
  simp only [Device.dataSlot, hbad, hgood, hpar', Option.isSome_some]
  generalize d.parityState t true = d' at hup hi' ⊢
  generalize (if d.isSet (F.LNK_S_CFG_PARITY t) = true then d' else d) = d'' at hup ⊢
  subst hup
  rw [hi', hd]
  rfl

/-! Releases (R92, R94). -/

theorem exec_sampleRelease {s : State} {t : Nat} (g : Int) (ht : t < 8) :
    exec (.sampleRelease t g) s = .next { s with dev := s.dev.releaseSample t g } := by
  show execSampleRelease t g s = _
  rw [execSampleRelease, State.run_eq, if_pos ht]

theorem exec_sampleRelease_none {s : State} (t : Nat) {g : Int} (h : s.dev.sDue t g = false) : exec (.sampleRelease t g) s = .next s := by
  have e : s.dev.releaseSample t g = s.dev := if_neg (by rw [h]; decide)
  show execSampleRelease t g s = _
  rw [execSampleRelease, State.run_eq, e, ite_self]

/-- A sample that is due, of a stream that no decompressor feeds, passes the chain, goes out on its transmit lanes, and is released. -/
theorem Device.releaseSample_due {d : Device} {t : Nat} {g : Int} (hd : d.sDue t g = true) (hr : (d.stream t).replay = none) :
    d.releaseSample t g =
      (((d.passSample t g (d.sSample t g).1).eTake t (BitVec.ofInt 64 (d.sStamp t g)) (d.sSample t g).1
        (d.chain t g (d.sSample t g).1).1).sReleased t g (d.sSample t g).2).replayed t g := by
  rw [Device.releaseSample, if_pos hd]
  simp [hr]

theorem Device.next_sReleased (d : Device) (t : Nat) (g : Int) : ((d.sReleased t g false).stream t).next = g + 1 := by
  rw [Device.sReleased, if_neg Bool.false_ne_true, Device.stream_setStream]

/-! The end of an acquisition (R101). -/

theorem exec_acquireTimeout {s : State} {t : Nat} {r : BReq} (ht : t < 8) (hs : s.dev.sState t = 1) (he : (s.dev.stream t).acqEnd = none)
    (hp : (s.dev.stream t).replay = none) (hd : timeLE ((s.dev.stream t).acqSince + nsTime 1000000) s.dev.time = true)
    (hr : (s.dev.reqs .streamStart).find? (fun q => decide (q.obj = t)) = some r) :
    exec (.acquireTimeout t) s = .next { s with dev :=
      ((((s.dev.dropReq .streamStart t).setFld (F.LNK_S_STAT_STATE t) 0).finish r.origin (F.LNK_S_CTL_START t) (F.LNK_S_STAT_CODE t)
        cCONDITIONS none).showPending t) } := by
  show execAcquireTimeout t s = _
  rw [execAcquireTimeout, State.run_eq, if_pos ⟨ht, hs, by rw [he]; rfl, by rw [hp]; rfl, hd⟩, hr]
  rfl

theorem exec_acquireTimeout_none {s : State} {t : Nat} (h : timeLE ((s.dev.stream t).acqSince + nsTime 1000000) s.dev.time = false) :
    exec (.acquireTimeout t) s = .next s := by
  show execAcquireTimeout t s = _
  rw [execAcquireTimeout, State.run_eq, if_neg (by simp [h])]

end Sys2Proof.Machine
end

section
/-! PROOFS. The slots of a link, and the release of a sample (R73, R76, R77, R92, R94, R101, R106). -/

namespace Sys2Proof.Machine

/-- Settles O28, clause by clause: the slots of a link, the release of a sample, and the end of an acquisition. -/
theorem slotsAndReleases : Obligations.SlotsAndReleases := by
  intro s t p k idx g par r d bs d1 n lanes pays dataSlot goneOn st
  have data : dataSlot → exec (.sampleSlot t p) s = .next { s with dev := d1.dataSlot t bs } := by
    rintro ⟨ht, hp, hp32, hs, hr, hl, -⟩
    rw [exec_sampleSlot ht hp, Device.slot_data hp32 hs hr hl]
  have follows : dataSlot → (d1.stream t).nextIdx = some idx := fun ⟨_, _, _, _, _, _, h⟩ => h
  refine ⟨fun ht hp h hs => ?_, fun hd hp hn h => ?_, fun hd hp hn h => ?_, fun hd hp hpar hi hk hn h => ?_, fun ht hp hl => ?_,
    fun ht hd hs hr => ⟨_, exec_sampleRelease g ht, rfl, _, Device.releaseSample_due hd hr, rfl⟩, fun hd => exec_sampleRelease_none t hd,
    fun x => x.next_sReleased t g, fun ht hs he hp hd hr => exec_acquireTimeout ht hs he hp hd hr,
    fun _ _ _ hd => exec_acquireTimeout_none hd⟩
  · rw [Gives, exec_sampleSlot ht hp, Device.slot_off h hs]
  · rw [Gives, data hd, Device.dataSlot_whole hp (follows hd) hn h]; rfl
  · rw [Gives, data hd, Device.dataSlot_idle hp (follows hd) hn h]
  · rw [Gives, data hd, Device.dataSlot_rebuilt hp (follows hd) hpar hi hk hn h]; rfl
  · subst hp
    rw [Gives, exec_sampleSlot ht (by decide), Device.slot_align hl]

end Sys2Proof.Machine
end

section
/-! SUPPORT. What START, STOP and RATE of a stream and LNK_E_CFG.RUN do (R100 to R104, R107, R600). -/

namespace Sys2Proof.Machine

/-! Codes, requests and the words of engines. -/

/-- A check that passes leaves the request to what is pending (R15). -/
theorem firstCode_pass {c : Nat} (h : c = cOK) : firstCode [(decide (c ≠ cOK), c), (false, cBUSY)] = cOK := by
  subst h; decide

theorem firstCode_fail {c : Nat} (h : c ≠ cOK) : firstCode [(decide (c ≠ cOK), c), (false, cBUSY)] = c := by
  simp [firstCode, h]

theorem firstCode_busy_ne (c : Nat) : firstCode [(decide (c ≠ cOK), c), (true, cBUSY)] ≠ cOK := by
  by_cases h : c = cOK
  · subst h; decide
  · have : firstCode [(true, cBUSY)] = cBUSY := by decide
    rw [firstCode, this]
    simp only [cOK, cBUSY] at *
    simp [h]

theorem Device.hasReq_actBit (d : Device) (o : Origin) (x : FieldAt) (ks : List BKind) (j : Nat) :
    (d.actBit o x).hasReq ks j = d.hasReq ks j := by
  unfold Device.actBit; split <;> rfl

/-- A request accepted for an object is one that the object has pending (R45). -/
theorem Device.hasReq_request (d : Device) {k : BKind} {ks : List BKind} (j : Nat) (t : Time) (o : Origin) (l : List Nat) (h : k ∈ ks) :
    (d.request k j t o l).hasReq ks j = true := by
  simp [Device.hasReq, Device.request, h]

theorem Device.showPending_request (d : Device) {k : BKind} (j : Nat) (t : Time) (o : Origin) (l : List Nat) (x : FieldAt)
    (h : k ∈ [BKind.streamStart, .streamStop, .streamRate]) :
    ((d.request k j t o l).actBit o x).showPending j = ((d.request k j t o l).actBit o x).setFld (F.LNK_S_STAT_PENDING j) 1 := by
  have hp : ((d.request k j t o l).actBit o x).sPending j = true :=
    ((d.request k j t o l).hasReq_actBit o x _ j).trans (d.hasReq_request j t o l h)
  rw [Device.showPending, hp]; rfl

/-- A request of one of a stream's kinds is pending on the stream (R45). -/
theorem Device.sPending_of_hasReq {d : Device} {t : Nat} {k : BKind} (h : d.hasReq [k] t = true)
    (hk : k ∈ [BKind.streamStart, .streamStop, .streamRate]) : d.sPending t = true := by
  obtain ⟨r, hr, hm⟩ := List.any_eq_true.mp h
  refine List.any_eq_true.mpr ⟨r, hr, ?_⟩
  simp only [List.mem_singleton, Bool.and_eq_true, decide_eq_true_eq] at hm ⊢
  exact ⟨hm.1 ▸ hk, hm.2⟩

theorem Device.hasReq_of_not_pending {d : Device} {t : Nat} {k : BKind} (h : d.sPending t = false)
    (hk : k ∈ [BKind.streamStart, .streamStop, .streamRate]) : d.hasReq [k] t = false :=
  Bool.eq_false_iff.mpr fun hr => by rw [Device.sPending_of_hasReq hr hk] at h; cases h

/-- A command word that comes to its unit is accepted, and its unit acts (R42, R258). -/
theorem Device.unitCmd_comes {d : Device} {cls op size n : Nat} {u : UCmd} (f : Device → Device) (h : d.comes cls op n u)
    (hr : opRow cls op = some (size, n)) : d.unitCmd cls op u f = f (d.accept u) := by
  obtain ⟨ht, hu⟩ := h
  rw [Device.unitCmd, if_pos ht, hr]
  exact if_neg (by omega)

/-! START (R100, R101). -/

theorem Device.sStart_accepted {d : Device} {t : Nat} (o : Origin) (hc : d.sStartCode t = cOK) (hp : d.sPending t = false) :
    d.sStart t o = (((d.sAcquire t).request .streamStart t (d.rdTime (Reg.LNK_S_AT_LO t)) o []).actBit o (F.LNK_S_CTL_START t)).setFld
      (F.LNK_S_STAT_PENDING t) 1 := by
  rw [Device.sStart, hp, if_pos (firstCode_pass hc), Device.showPending_request _ _ _ _ _ _ (by decide)]

theorem Device.sStart_refused {d : Device} {t : Nat} (o : Origin) (hc : d.sStartCode t ≠ cOK) (hp : d.sPending t = false) :
    d.sStart t o = d.finish o (F.LNK_S_CTL_START t) (F.LNK_S_STAT_CODE t) (d.sStartCode t) none := by
  rw [Device.sStart, hp, firstCode_fail hc, if_neg hc, if_neg (by rw [Device.hasReq_of_not_pending hp (by decide)]; decide)]
  rfl

theorem Device.sStart_again {d : Device} {t : Nat} (o : Origin) (h : d.hasReq [.streamStart] t = true) :
    d.sStart t o = (d.setFld (F.LNK_S_STAT_CODE t) (firstCode [(decide (d.sStartCode t ≠ cOK), d.sStartCode t), (true, cBUSY)])).complete o
      (firstCode [(decide (d.sStartCode t ≠ cOK), d.sStartCode t), (true, cBUSY)]) none := by
  rw [Device.sStart, Device.sPending_of_hasReq h (by decide), if_neg (firstCode_busy_ne _), if_pos h]

/-! STOP (R102). -/

theorem Device.sStop_off {d : Device} {t : Nat} (o : Origin) (hs : d.sState t = 0) :
    d.sStop t o = d.finish o (F.LNK_S_CTL_STOP t) (F.LNK_S_STAT_CODE t) cOK none := by
  rw [Device.sStop, hs]; rfl

theorem Device.sStop_acquiring {d : Device} {t : Nat} (o : Origin) (hs : d.sState t = 1) :
    d.sStop t o = ((d.sAbandon t).setFld (F.LNK_S_STAT_STATE t) 0).finish o (F.LNK_S_CTL_STOP t) (F.LNK_S_STAT_CODE t) cOK none := by
  rw [Device.sStop, hs]; rfl

theorem Device.sStop_busy {d : Device} {t : Nat} (o : Origin) (hs : d.sState t = 2) (hp : d.sPending t = true) :
    d.sStop t o = (d.setFld (F.LNK_S_STAT_CODE t) cBUSY).complete o cBUSY none := by
  rw [Device.sStop, hs]; exact if_pos hp

theorem Device.sStop_accepted {d : Device} {t : Nat} (o : Origin) (hs : d.sState t = 2) (hp : d.sPending t = false) :
    d.sStop t o = ((d.request .streamStop t (d.rdTime (Reg.LNK_S_AT_LO t)) o []).actBit o (F.LNK_S_CTL_STOP t)).setFld
      (F.LNK_S_STAT_PENDING t) 1 := by
  rw [Device.sStop, hs]
  exact (if_neg (by rw [hp]; decide)).trans (Device.showPending_request _ _ _ _ _ _ (by decide))

/-! RATE (R103, R104). -/

/-- A stream whose RATE applies at once: OFF, without a consumer, and with nothing pending. -/
def Device.rateIdle (d : Device) (t : Nat) : Prop := d.sState t = 0 ∧ d.hasConsumer t = false ∧ d.sPending t = false

theorem Device.rateIdle_iff (d : Device) (t : Nat) :
    (d.sState t = 0 ∧ (!d.hasConsumer t) = true ∧ (!d.sPending t) = true) ↔ d.rateIdle t := by simp [Device.rateIdle]

theorem Device.sRateReq_idle {d : Device} {t : Nat} (o : Origin) (h : d.rateIdle t) :
    d.sRateReq t o = (d.applyPeriod t true true).finish o (F.LNK_S_CTL_RATE t) (F.LNK_S_STAT_CODE t) cOK none := by
  rw [Device.sRateReq, if_pos ((d.rateIdle_iff t).mpr h)]; rfl

theorem Device.sRateReq_accepted {d : Device} {t : Nat} (o : Origin) (h : ¬d.rateIdle t) (hc : d.sRateCode t = cOK) :
    d.sRateReq t o = ((d.request .streamRate t (d.rdTime (Reg.LNK_S_AT_LO t)) o
      [d.rdN (Reg.LNK_S_PNUM t), d.rdN (Reg.LNK_S_PDEN t)]).actBit o (F.LNK_S_CTL_RATE t)).setFld (F.LNK_S_STAT_PENDING t) 1 := by
  rw [Device.sRateReq, if_neg (fun h' => h ((d.rateIdle_iff t).mp h')), if_pos hc, Device.showPending_request _ _ _ _ _ _ (by decide)]

theorem Device.sRateReq_refused {d : Device} {t : Nat} (o : Origin) (h : ¬d.rateIdle t) (hc : d.sRateCode t ≠ cOK)
    (hp : d.hasReq [.streamRate] t = false) :
    d.sRateReq t o = d.finish o (F.LNK_S_CTL_RATE t) (F.LNK_S_STAT_CODE t) (d.sRateCode t) none := by
  rw [Device.sRateReq, if_neg (fun h' => h ((d.rateIdle_iff t).mp h')), if_neg hc, if_neg (by rw [hp]; decide)]; rfl

/-! LNK_E_CFG.RUN (R107). -/

theorem Device.eRun_start {d : Device} {n v : Nat} (hr : d.isSet (F.LNK_E_STAT_RUNNING n) = false) (hv : bitAt v 0 = true)
    (hc : (d.wr (Reg.LNK_E_CFG n) (v % 16)).eCode n = cOK) :
    d.eRun n v = (((d.wr (Reg.LNK_E_CFG n) (v % 16)).setFld (F.LNK_E_STAT_CODE n) cOK).setFld (F.LNK_E_STAT_RUNNING n) 1).eStart n := by
  rw [Device.eRun, if_neg (by simp [hr]), if_neg (by simp [hv]), if_pos hc, hc]

theorem Device.eRun_refused {d : Device} {n v : Nat} (hr : d.isSet (F.LNK_E_STAT_RUNNING n) = false) (hv : bitAt v 0 = true)
    (hc : (d.wr (Reg.LNK_E_CFG n) (v % 16)).eCode n ≠ cOK) :
    d.eRun n v = ((d.wr (Reg.LNK_E_CFG n) (v % 16)).setFld (F.LNK_E_STAT_CODE n) ((d.wr (Reg.LNK_E_CFG n) (v % 16)).eCode n)).setFld
      (F.LNK_E_CFG_RUN n) 0 := by
  rw [Device.eRun, if_neg (by simp [hr]), if_neg (by simp [hv]), if_neg hc]

theorem Device.eRun_stop {d : Device} {n v : Nat} (hr : d.isSet (F.LNK_E_STAT_RUNNING n) = true) (hv : bitAt v 0 = false)
    (hq : d.hasReq [.exportStop] n = false) : d.eRun n v = (d.setFld (F.LNK_E_CFG_RUN n) 0).request .exportStop n d.time .host [] := by
  rw [Device.eRun, if_pos hr, if_neg (by simp [hv]), if_neg (by simp [hq])]

/-! The rows. -/

theorem exec_lnkSCtlStart {s : State} {n : Nat} (h : n < 8) : exec (.lnkSCtlStart n) s = .next { s with dev := s.dev.sStart n .host } := by
  show execLnkSCtlStart n s = _
  rw [execLnkSCtlStart, State.run_eq, if_pos h]

theorem exec_lnkSCtlStop {s : State} {n : Nat} (h : n < 8) :
    exec (.lnkSCtlStop n) s = .next { s with dev := (s.dev.sStop n .host).replayCheck } := by
  show execLnkSCtlStop n s = _
  rw [execLnkSCtlStop, State.run_eq, if_pos h]

theorem exec_lnkSCtlRate {s : State} {n : Nat} (h : n < 8) : exec (.lnkSCtlRate n) s = .next { s with dev := s.dev.sRateReq n .host } := by
  show execLnkSCtlRate n s = _
  rw [execLnkSCtlRate, State.run_eq, if_pos h]

theorem exec_exportRun {s : State} {n : Nat} (v : Nat) (h : n < 8) : exec (.exportRun n v) s = .next { s with dev := s.dev.eRun n v } := by
  show execExportRun n v s = _
  rw [execExportRun, State.run_eq, if_pos h]

/-- START of an engine on an OFF stream writes the stream's registers first (R600). -/
theorem exec_lnkStart {s : State} {u : UCmd} (h : s.dev.comes 2 1 8 u) (hs : (s.dev.accept u).sState u.unit = 0) :
    exec (.lnkStart u) s = .next { s with dev :=
      ((((s.dev.accept u).wrBlock u ((List.range 8).map (fun i => (Reg.LNK_S_CFG u.unit + 4 * i, 4 * i)))).applyPeriod u.unit true true).sStart
        u.unit u.origin) } := by
  show execLnkStart u s = _
  rw [execLnkStart]
  exact State.run_of_eq ((Device.unitCmd_comes _ h rfl).trans (if_pos hs))

theorem exec_lnkStart_busy {s : State} {u : UCmd} (h : s.dev.comes 2 1 8 u) (hs : (s.dev.accept u).sState u.unit ≠ 0) :
    exec (.lnkStart u) s = .next { s with dev := (s.dev.accept u).complete u.origin cBUSY none } := by
  show execLnkStart u s = _
  rw [execLnkStart]
  exact State.run_of_eq ((Device.unitCmd_comes _ h rfl).trans (if_neg hs))

theorem exec_lnkStop {s : State} {u : UCmd} (h : s.dev.comes 2 2 8 u) :
    exec (.lnkStop u) s = .next { s with dev :=
      ((((s.dev.accept u).wrBlock u [(Reg.LNK_S_AT_LO u.unit, 0x18), (Reg.LNK_S_AT_HI u.unit, 0x1C)]).sStop u.unit u.origin).replayCheck) } := by
  show execLnkStop u s = _
  rw [execLnkStop, State.run_eq, Device.unitCmd_comes _ h rfl]

theorem exec_lnkRate {s : State} {u : UCmd} (h : s.dev.comes 2 3 8 u) :
    exec (.lnkRate u) s = .next { s with dev :=
      ((((s.dev.accept u).wrBlock u [(Reg.LNK_S_PNUM u.unit, 8), (Reg.LNK_S_PDEN u.unit, 12), (Reg.LNK_S_AT_LO u.unit, 0x18),
        (Reg.LNK_S_AT_HI u.unit, 0x1C)]).applyPeriod u.unit true true).sRateReq u.unit u.origin) } := by
  show execLnkRate u s = _
  rw [execLnkRate, State.run_eq, Device.unitCmd_comes _ h rfl]

end Sys2Proof.Machine
end

section
/-! PROOFS. START, STOP and RATE of a stream, and LNK_E_CFG.RUN (R100 to R104, R107, R600). -/

namespace Sys2Proof.Machine

/-- Settles O29: what each request does on a device, once for the host's and the engine's, then the rows and LNK_E_CFG.RUN. -/
theorem streamRequests : Obligations.StreamRequests := by
  intro s n v u host taken dStart dStop dRate start stop rate
  have starts : ∀ {i d t o}, exec i s = .next { s with dev := d.sStart t o } → start i d t o := fun {i d t o} h =>
    ⟨fun hc hp => by rw [Gives, h, Device.sStart_accepted o hc hp], fun hc hp => by rw [Gives, h, Device.sStart_refused o hc hp],
      fun hr => by rw [Gives, h, Device.sStart_again o hr]⟩
  have stops : ∀ {i d t o}, exec i s = .next { s with dev := (d.sStop t o).replayCheck } → stop i d t o := fun {i d t o} h =>
    ⟨fun hs => by rw [Gives, h, Device.sStop_off o hs], fun hs => by rw [Gives, h, Device.sStop_acquiring o hs],
      fun hs hp => by rw [Gives, h, Device.sStop_busy o hs hp], fun hs hp => by rw [Gives, h, Device.sStop_accepted o hs hp]⟩
  have rates : ∀ {i d t o}, exec i s = .next { s with dev := d.sRateReq t o } → rate i d t o := fun {i d t o} h =>
    ⟨fun hi => by rw [Gives, h, Device.sRateReq_idle o hi], fun hi hc => by rw [Gives, h, Device.sRateReq_accepted o hi hc],
      fun hi hc hp => by rw [Gives, h, Device.sRateReq_refused o hi hc hp]⟩
  refine ⟨fun hn => ⟨starts (exec_lnkSCtlStart hn), stops (exec_lnkSCtlStop hn), rates (exec_lnkSCtlRate hn)⟩,
    fun hu hs => starts (exec_lnkStart hu hs), fun hu hs => exec_lnkStart_busy hu hs, fun hu => stops (exec_lnkStop hu),
    fun hu => rates (exec_lnkRate hu), fun hn hr hv => ⟨fun hc => ?_, fun hc => ?_⟩, fun hn hr hv hq => ?_⟩
  · rw [Gives, exec_exportRun v hn, Device.eRun_start hr hv hc]
  · rw [Gives, exec_exportRun v hn, Device.eRun_refused hr hv hc]
  · rw [Gives, exec_exportRun v hn, Device.eRun_stop hr hv hq]

end Sys2Proof.Machine
end

section
/-! SUPPORT. What SWAP of a corrector, START, STOP and TUNE of a channeliser and a commanded reset do when they are asked for
(R115, R119, R125, R127, R135, R600). -/

namespace Sys2Proof.Machine

/-! Requests. -/

/-- The kinds of a channeliser's requests. -/
abbrev zKinds : List BKind := [.chnStart, .chnStop, .chnTune]

/-- A request accepted for a channeliser shows in its PENDING (R31). -/
theorem Device.zShow_request (d : Device) {k : BKind} (z : Nat) (t : Time) (o : Origin) (l : List Nat) (x : FieldAt) (h : k ∈ zKinds) :
    ((d.request k z t o l).actBit o x).zShow z = ((d.request k z t o l).actBit o x).setFld (F.CHN_Z_STAT_PENDING z) 1 := by
  have hp : ((d.request k z t o l).actBit o x).hasReq zKinds z = true :=
    ((d.request k z t o l).hasReq_actBit o x _ z).trans (d.hasReq_request z t o l h)
  rw [Device.zShow, hp]; rfl

/-! START (R125). -/

/-- PNUM and PDEN of the stream that a channeliser is on. -/
abbrev Device.zPnum (d : Device) (z : Nat) : Nat := d.rdN (Reg.LNK_S_PNUM_CUR (d.fld (F.CHN_Z_CFG_SOURCE z)))
abbrev Device.zPden (d : Device) (z : Nat) : Nat := d.rdN (Reg.LNK_S_PDEN_CUR (d.fld (F.CHN_Z_CFG_SOURCE z)))

/-- The output rate of a channeliser is defined: its stream has a period, and R is not zero. -/
abbrev Device.zRated (d : Device) (z : Nat) : Prop := 0 < d.zPnum z ∧ 0 < d.zPden z ∧ 0 < d.zR z

/-- The parameters of a channeliser are ones that the device supports. -/
abbrev Device.zFits (d : Device) (z : Nat) : Prop :=
  4 ≤ d.zR z ∧ d.zR z ≤ 4096 ∧ 3 ≤ d.zK z ∧ d.zK z ≤ 5 ∧ d.fld (F.CHN_Z_FIR_REF_REF z) ≤ 254 ∧ d.zPden z ≤ d.zR z * d.zPnum z

/-- The checks of START on a channeliser whose output rate is defined. -/
theorem Device.zStartCode_rated {d : Device} {z : Nat} (h : d.zRated z) : d.zStartCode z = firstCode [(false, cLENGTH),
    (d.isSet (F.CHN_Z_STAT_RUNNING z) || d.hasReq zKinds z, cBUSY), (!decide (d.zFits z), cUNSUP)] := by
  have length : ¬(d.zR z = 0 ∨ d.zPnum z = 0 ∨ d.zPden z = 0) := by omega
  have unsupported : (d.zK z < 3 ∨ 5 < d.zK z ∨ (1 ≤ d.zR z ∧ d.zR z ≤ 3) ∨ 4096 < d.zR z ∨ 254 < d.fld (F.CHN_Z_FIR_REF_REF z) ∨
      d.zR z * d.zPnum z < d.zPden z) ↔ ¬d.zFits z := by omega
  rw [Device.zStartCode, decide_eq_false length, decide_eq_decide.mpr unsupported, decide_not]

theorem Device.zStartCode_unrated {d : Device} {z : Nat} (h : d.zPnum z = 0 ∨ d.zPden z = 0 ∨ d.zR z = 0) : d.zStartCode z = cLENGTH := by
  have length : d.zR z = 0 ∨ d.zPnum z = 0 ∨ d.zPden z = 0 := by omega
  have lowest : ∀ b c, firstCode [(true, cLENGTH), (b, cBUSY), (c, cUNSUP)] = cLENGTH := by decide
  rw [Device.zStartCode, decide_eq_true length, lowest]

theorem Device.zStartCode_busy {d : Device} {z : Nat} (h : d.zRated z)
    (hb : d.isSet (F.CHN_Z_STAT_RUNNING z) = true ∨ d.hasReq zKinds z = true) : d.zStartCode z = cBUSY := by
  have lowest : ∀ c, firstCode [(false, cLENGTH), (true, cBUSY), (c, cUNSUP)] = cBUSY := by decide
  rw [Device.zStartCode_rated h, (Bool.or_eq_true _ _).mpr hb, lowest]

theorem Device.zStartCode_unsupported {d : Device} {z : Nat} (h : d.zRated z) (hf : ¬d.zFits z)
    (hr : d.isSet (F.CHN_Z_STAT_RUNNING z) = false) (hb : d.hasReq zKinds z = false) : d.zStartCode z = cUNSUP := by
  rw [Device.zStartCode_rated h, hr, hb, decide_eq_false hf]; rfl

theorem Device.zStartCode_ok {d : Device} {z : Nat} (h : d.zRated z) (hf : d.zFits z)
    (hr : d.isSet (F.CHN_Z_STAT_RUNNING z) = false) (hb : d.hasReq zKinds z = false) : d.zStartCode z = cOK := by
  rw [Device.zStartCode_rated h, hr, hb, decide_eq_true hf]; rfl

theorem Device.zStart_accepted {d : Device} {z : Nat} (o : Origin) (h : d.zStartCode z = cOK) :
    d.zStart z o = ((d.request .chnStart z (d.rdTime (Reg.CHN_Z_AT_LO z)) o []).actBit o (F.CHN_Z_CTL_START z)).setFld
      (F.CHN_Z_STAT_PENDING z) 1 := by
  rw [Device.zStart, if_pos h, Device.zShow_request _ _ _ _ _ _ (by decide)]

/-- A START that is refused leaves the action bit of one that waits (R3, R45). -/
theorem Device.zStart_refused {d : Device} {z c : Nat} (o : Origin) (h : d.zStartCode z = c) (hc : c ≠ cOK) :
    d.zStart z o = if d.hasReq [.chnStart] z then (d.setFld (F.CHN_Z_STAT_CODE z) c).complete o c none
      else d.zFinish z o (F.CHN_Z_CTL_START z) c none := by
  rw [Device.zStart, h, if_neg hc]

/-! STOP and TUNE (R119, R127): one request each, with its own kind, content and action bit. -/

/-- What a request of a running channeliser does: BUSY while another is pending, nothing to do on one that does not run. -/
def Device.zLater (d : Device) (z : Nat) (o : Origin) (k : BKind) (arg : List Nat) (ctl : FieldAt) : Device :=
  if d.hasReq zKinds z then (d.setFld (F.CHN_Z_STAT_CODE z) cBUSY).complete o cBUSY none
  else if !d.isSet (F.CHN_Z_STAT_RUNNING z) then d.zFinish z o ctl cOK none
  else ((d.request k z (d.rdTime (Reg.CHN_Z_AT_LO z)) o arg).actBit o ctl).zShow z

theorem Device.zStop_eq (d : Device) (z : Nat) (o : Origin) : d.zStop z o = d.zLater z o .chnStop [] (F.CHN_Z_CTL_STOP z) := rfl

theorem Device.zTune_eq (d : Device) (z : Nat) (o : Origin) : d.zTune z o = d.zLater z o .chnTune [d.zFtw z] (F.CHN_Z_CTL_TUNE z) := rfl

theorem Device.zLater_busy {d : Device} {z : Nat} (o : Origin) (k : BKind) (arg : List Nat) (ctl : FieldAt) (hb : d.hasReq zKinds z = true) :
    d.zLater z o k arg ctl = (d.setFld (F.CHN_Z_STAT_CODE z) cBUSY).complete o cBUSY none := if_pos hb

theorem Device.zLater_off {d : Device} {z : Nat} (o : Origin) (k : BKind) (arg : List Nat) (ctl : FieldAt)
    (hb : d.hasReq zKinds z = false) (hr : d.isSet (F.CHN_Z_STAT_RUNNING z) = false) :
    d.zLater z o k arg ctl = d.zFinish z o ctl cOK none := by
  rw [Device.zLater, if_neg (by simp [hb]), if_pos (by simp [hr])]

theorem Device.zLater_accepted {d : Device} {z : Nat} {k : BKind} (o : Origin) (arg : List Nat) (ctl : FieldAt) (hk : k ∈ zKinds)
    (hb : d.hasReq zKinds z = false) (hr : d.isSet (F.CHN_Z_STAT_RUNNING z) = true) :
    d.zLater z o k arg ctl = ((d.request k z (d.rdTime (Reg.CHN_Z_AT_LO z)) o arg).actBit o ctl).setFld (F.CHN_Z_STAT_PENDING z) 1 := by
  rw [Device.zLater, if_neg (by simp [hb]), if_neg (by simp [hr]), Device.zShow_request _ _ _ _ _ _ hk]

/-! SWAP of a corrector (R115). -/

theorem Device.cSwap_busy {d : Device} {t : Nat} (o : Origin) (hq : d.hasReq [.corrSwap] t = true) :
    d.cSwap t o = (d.setFld (F.CHN_C_STAT_CODE t) cBUSY).complete o cBUSY none := if_pos hq

theorem Device.cSwap_off {d : Device} {t : Nat} (o : Origin) (hq : d.hasReq [.corrSwap] t = false) (hs : d.sState t = 0) :
    d.cSwap t o = ((d.setCorr t { d.corr t with swaps := [] }).setFld (F.CHN_C_STAT_ACTIVE t) (1 - d.fld (F.CHN_C_STAT_ACTIVE t))).finish o
      (F.CHN_C_CTL_SWAP t) (F.CHN_C_STAT_CODE t) cOK none := by
  rw [Device.cSwap, if_neg (by simp [hq]), if_pos hs]

theorem Device.cSwap_accepted {d : Device} {t : Nat} (o : Origin) (hq : d.hasReq [.corrSwap] t = false) (hs : d.sState t ≠ 0) :
    d.cSwap t o = ((d.request .corrSwap t (d.rdTime (Reg.CHN_C_AT_LO t)) o []).actBit o (F.CHN_C_CTL_SWAP t)).setFld
      (F.CHN_C_STAT_PENDING t) 1 := by
  rw [Device.cSwap, if_neg (by simp [hq]), if_neg hs]

/-! The commanded reset (R135). -/

theorem Device.resetGo_busy {d : Device} (o : Origin) (hq : d.hasReq [.decReset] 0 = true) :
    d.resetGo o = (d.setFld F.CHN_RESET_CTL_CODE cBUSY).complete o cBUSY none := if_pos hq

theorem Device.resetGo_accepted {d : Device} (o : Origin) (hq : d.hasReq [.decReset] 0 = false) :
    d.resetGo o = ((d.request .decReset 0 (d.rdTime Reg.CHN_RESET_AT_LO) o []).actBit o F.CHN_RESET_CTL_GO).setFld
      F.CHN_RESET_CTL_PENDING 1 := by
  rw [Device.resetGo, if_neg (by simp [hq])]

/-! The rows of the host. -/

theorem exec_chnCCtlSwap {s : State} {n : Nat} (h : n < 8) : exec (.chnCCtlSwap n) s = .next { s with dev := s.dev.cSwap n .host } := by
  show execChnCCtlSwap n s = _
  rw [execChnCCtlSwap, State.run_eq, if_pos h]

theorem exec_chnZCtlStart {s : State} {n : Nat} (h : n < 16) : exec (.chnZCtlStart n) s = .next { s with dev := s.dev.zStart n .host } := by
  show execChnZCtlStart n s = _
  rw [execChnZCtlStart, State.run_eq, if_pos h]

theorem exec_chnZCtlStop {s : State} {n : Nat} (h : n < 16) : exec (.chnZCtlStop n) s = .next { s with dev := s.dev.zStop n .host } := by
  show execChnZCtlStop n s = _
  rw [execChnZCtlStop, State.run_eq, if_pos h]

theorem exec_chnZCtlTune {s : State} {n : Nat} (h : n < 16) : exec (.chnZCtlTune n) s = .next { s with dev := s.dev.zTune n .host } := by
  show execChnZCtlTune n s = _
  rw [execChnZCtlTune, State.run_eq, if_pos h]

theorem exec_chnResetCtlGo (s : State) : exec .chnResetCtlGo s = .next { s with dev := s.dev.resetGo .host } := rfl

/-! The rows of the engine: the registers of the block, then what the host's request does (R600). -/

theorem exec_chnSwap {s : State} {u : UCmd} (h : s.dev.comes 3 2 8 u) :
    exec (.chnSwap u) s = .next { s with dev :=
      ((s.dev.accept u).wrBlock u [(Reg.CHN_C_AT_LO u.unit, 0), (Reg.CHN_C_AT_HI u.unit, 4)]).cSwap u.unit u.origin } := by
  show execChnSwap u s = _
  rw [execChnSwap, State.run_eq, Device.unitCmd_comes _ h rfl]

/-- START of an engine writes the registers of an OFF channeliser only (R600). -/
theorem exec_chnStart {s : State} {u : UCmd} (h : s.dev.comes 3 3 16 u) (hz : (s.dev.accept u).zBusy u.unit = false) :
    exec (.chnStart u) s = .next { s with dev :=
      ((s.dev.accept u).wrBlock u [(Reg.CHN_Z_CFG u.unit, 0), (Reg.CHN_Z_RATIO u.unit, 4), (Reg.CHN_Z_FTW_LO u.unit, 8),
        (Reg.CHN_Z_FTW_HI u.unit, 12), (Reg.CHN_Z_PHASE u.unit, 16), (Reg.CHN_Z_FIR_REF u.unit, 20), (Reg.CHN_Z_AT_LO u.unit, 32),
        (Reg.CHN_Z_AT_HI u.unit, 36)]).zStart u.unit u.origin } := by
  show execChnStart u s = _
  rw [execChnStart]
  exact State.run_of_eq ((Device.unitCmd_comes _ h rfl).trans (if_neg (by simp [hz])))

theorem exec_chnStart_busy {s : State} {u : UCmd} (h : s.dev.comes 3 3 16 u) (hz : (s.dev.accept u).zBusy u.unit = true) :
    exec (.chnStart u) s = .next { s with dev := (s.dev.accept u).complete u.origin cBUSY none } := by
  show execChnStart u s = _
  rw [execChnStart]
  exact State.run_of_eq ((Device.unitCmd_comes _ h rfl).trans (if_pos hz))

theorem exec_chnStop {s : State} {u : UCmd} (h : s.dev.comes 3 4 16 u) :
    exec (.chnStop u) s = .next { s with dev :=
      ((s.dev.accept u).wrBlock u [(Reg.CHN_Z_AT_LO u.unit, 0), (Reg.CHN_Z_AT_HI u.unit, 4)]).zStop u.unit u.origin } := by
  show execChnStop u s = _
  rw [execChnStop, State.run_eq, Device.unitCmd_comes _ h rfl]

theorem exec_chnTune {s : State} {u : UCmd} (h : s.dev.comes 3 5 16 u) :
    exec (.chnTune u) s = .next { s with dev :=
      ((s.dev.accept u).wrBlock u [(Reg.CHN_Z_FTW_LO u.unit, 0), (Reg.CHN_Z_FTW_HI u.unit, 4), (Reg.CHN_Z_AT_LO u.unit, 8),
        (Reg.CHN_Z_AT_HI u.unit, 12)]).zTune u.unit u.origin } := by
  show execChnTune u s = _
  rw [execChnTune, State.run_eq, Device.unitCmd_comes _ h rfl]

theorem exec_chnReset {s : State} {u : UCmd} (h : s.dev.comes 3 1 1 u) :
    exec (.chnReset u) s = .next { s with dev :=
      ((s.dev.accept u).wrBlock u [(Reg.CHN_RESET_AT_LO, 0), (Reg.CHN_RESET_AT_HI, 4)]).resetGo u.origin } := by
  show execChnReset u s = _
  rw [execChnReset, State.run_eq, Device.unitCmd_comes _ h rfl]

end Sys2Proof.Machine
end

section
/-! PROOFS. SWAP of a corrector, START, STOP and TUNE of a channeliser, and the commanded reset (R115, R119, R125, R127, R135, R600). -/

namespace Sys2Proof.Machine

/-- Settles O30: what each request does on a device, once for the host's and the engine's, then the rows. -/
theorem channeliserRequests : Obligations.ChanneliserRequests := by
  intro s n u host z taken busy runs asked refused start later swap go dSwap dStart dStop dTune dReset word
  have refuses : ∀ {i d z o c}, exec i s = .next { s with dev := d.zStart z o } → c ≠ cOK → d.zStartCode z = c → refused i d z o c :=
    fun {i d z o c} h hc hz => h.trans (by rw [Device.zStart_refused o hz hc])
  have starts : ∀ {i d z o}, exec i s = .next { s with dev := d.zStart z o } → start i d z o := fun {i d z o} h =>
    ⟨fun hn hd hf hr hb => h.trans (by
        rw [Device.zStart_accepted o (Device.zStartCode_ok ⟨hn, hd, Nat.lt_of_lt_of_le (by decide) hf.1⟩ hf hr hb)]),
      fun hu => refuses h (by decide) (Device.zStartCode_unrated hu),
      fun hn hd hr hb => refuses h (by decide) (Device.zStartCode_busy ⟨hn, hd, hr⟩ hb),
      fun hn hd h0 hf hr hb => refuses h (by decide) (Device.zStartCode_unsupported ⟨hn, hd, h0⟩ hf hr hb)⟩
  have laters : ∀ {i d z o k arg ctl}, k ∈ zKinds → exec i s = .next { s with dev := d.zLater z o k arg ctl } →
      later i d z o k arg ctl := fun {i d z o k arg ctl} hk h =>
    ⟨fun hb => h.trans (by rw [Device.zLater_busy o k arg ctl hb]), fun hb hr => h.trans (by rw [Device.zLater_off o k arg ctl hb hr]),
      fun hb hr => h.trans (by rw [Device.zLater_accepted o arg ctl hk hb hr])⟩
  have stops : ∀ {i d z o}, exec i s = .next { s with dev := d.zStop z o } → later i d z o .chnStop [] (F.CHN_Z_CTL_STOP z) :=
    fun {i d z o} h => laters (by decide) (h.trans (by rw [Device.zStop_eq]))
  have tunes : ∀ {i d z o}, exec i s = .next { s with dev := d.zTune z o } → later i d z o .chnTune [word d z] (F.CHN_Z_CTL_TUNE z) :=
    fun {i d z o} h => laters (by decide) (h.trans (by rw [Device.zTune_eq, Device.zFtw]))
  have swaps : ∀ {i d t o}, exec i s = .next { s with dev := d.cSwap t o } → swap i d t o := fun {i d t o} h =>
    ⟨fun hq => h.trans (by rw [Device.cSwap_busy o hq]), fun hq hs => h.trans (by rw [Device.cSwap_off o hq hs]),
      fun hq hs => h.trans (by rw [Device.cSwap_accepted o hq hs])⟩
  have resets : ∀ {i d o}, exec i s = .next { s with dev := d.resetGo o } → go i d o := fun {i d o} h =>
    ⟨fun hq => h.trans (by rw [Device.resetGo_busy o hq]), fun hq => h.trans (by rw [Device.resetGo_accepted o hq])⟩
  exact ⟨fun hn => swaps (exec_chnCCtlSwap hn), fun hu => swaps (exec_chnSwap hu),
    fun hn => ⟨starts (exec_chnZCtlStart hn), stops (exec_chnZCtlStop hn), tunes (exec_chnZCtlTune hn)⟩,
    fun hu hz => starts (exec_chnStart hu hz), fun hu hz => exec_chnStart_busy hu hz,
    fun hu => stops (exec_chnStop hu), fun hu => tunes (exec_chnTune hu),
    resets (exec_chnResetCtlGo s), fun hu => resets (exec_chnReset hu)⟩

end Sys2Proof.Machine
end

section
/-! SUPPORT. What the requests of the schedule, the end of a schedule's check and CREDIT do (R162, R163, R171, R600). -/

namespace Sys2Proof.Machine

/-! GO, LOAD and STOP (R162, R163). -/

theorem Device.xfGo_busy {d : Device} (base size : Nat) (t : Time) (o : Origin) (h : d.fld F.XF_SCHED_STAT_STATE ≠ 0) :
    d.xfGo base size t o = (d.setFld F.XF_SCHED_STAT_CODE cBUSY).complete o cBUSY none := if_pos h

theorem Device.xfGo_accepted {d : Device} (base size : Nat) (t : Time) (o : Origin) (h : d.fld F.XF_SCHED_STAT_STATE = 0) :
    d.xfGo base size t o =
      { (d.setFld F.XF_SCHED_STAT_STATE 1).actBit o F.XF_SCHED_CTL_GO with checking := some ⟨base, size, t, o⟩ } :=
  if_neg (not_not_intro h)

theorem Device.xfStop_busy {d : Device} (t : Time) (o : Origin) (h : d.fld F.XF_SCHED_STAT_STATE ≠ 0) :
    d.xfStop t o = (d.setFld F.XF_SCHED_STAT_CODE cBUSY).complete o cBUSY none := if_pos h

theorem Device.xfStop_accepted {d : Device} (t : Time) (o : Origin) (h : d.fld F.XF_SCHED_STAT_STATE = 0) :
    d.xfStop t o = { ((d.setFld F.XF_SCHED_STAT_STATE 2).actBit o F.XF_SCHED_CTL_STOP).request .schedSwitch 0 t o [1] with
      pend := some ⟨{}, []⟩ } := if_neg (not_not_intro h)

/-! The end of a check (R162). -/

/-- A list is gone through, each step of which changes registers alone: nothing else changes. -/
theorem foldl_regs {α : Type} {f : Device → α → Device} (hf : ∀ d x, ∃ regs, f d x = { d with regs := regs }) (l : List α) (d : Device) :
    ∃ regs, l.foldl f d = { d with regs := regs } := by
  induction l generalizing d with
  | nil => exact ⟨d.regs, rfl⟩
  | cons x l ih =>
    obtain ⟨m, e⟩ := hf d x
    obtain ⟨m', e'⟩ := ih { d with regs := m }
    exact ⟨m', by rw [List.foldl_cons, e, e']⟩

/-- The device once the check of a schedule has ended, and its words have been read from memory (R403). -/
abbrev Device.checkDone (d : Device) : Device := Device.moved { d with checking := none } 4

/-- An entry of a schedule that becomes pending shows in the registers of its context. -/
def Device.showPendEntry (d : Device) (e : Nat × Nat) : Device :=
  (d.setFld (F.XF_C_STAT_PENDING e.1) 1).setFld (F.XF_C_STAT_LONG e.1) (if cLong (d.desc e.1) then 1 else 0)

theorem Device.schedChecked_none {d : Device} (h : d.checking = none) : d.schedChecked = d := by
  rw [Device.schedChecked, h]

theorem Device.schedChecked_refused {d : Device} {l : SchedLoad} (h : d.checking = some l)
    (hc : (d.checkSched l.base l.size l.at').1.1 ≠ cOK) :
    d.schedChecked = (d.checkDone.setFld F.XF_SCHED_STAT_STATE 0).xfEnd l.origin F.XF_SCHED_CTL_GO
      (d.checkSched l.base l.size l.at').1.1 (d.checkSched l.base l.size l.at').1.2 none := by
  rw [Device.schedChecked, h]
  exact if_neg hc

theorem Device.schedChecked_legal {d : Device} {l : SchedLoad} (h : d.checking = some l)
    (hc : (d.checkSched l.base l.size l.at').1.1 = cOK) :
    d.schedChecked = ((d.checkSched l.base l.size l.at').2.sched.entries.foldl Device.showPendEntry
      { ((d.checkDone.moved 1).setFld F.XF_SCHED_STAT_STATE 2).request .schedSwitch 0 l.at' l.origin [0] with
        pend := some (d.checkSched l.base l.size l.at').2 }).showStores := by
  rw [Device.schedChecked, h]
  exact if_pos hc

/-- A legal schedule becomes pending and its boundary is requested; besides these, what the registers show changes. -/
theorem Device.schedChecked_legal_frame {d : Device} {l : SchedLoad} (h : d.checking = some l)
    (hc : (d.checkSched l.base l.size l.at').1.1 = cOK) :
    ∃ regs, d.schedChecked = { d.checkDone.moved 1 with
      regs := regs, breqs := d.breqs ++ [⟨.schedSwitch, 0, l.at', d.time, l.origin, [0]⟩],
      pend := some (d.checkSched l.base l.size l.at').2 } := by
  obtain ⟨regs, e⟩ := foldl_regs (f := Device.showPendEntry) (fun _ _ => ⟨_, rfl⟩) (d.checkSched l.base l.size l.at').2.sched.entries
    { ((d.checkDone.moved 1).setFld F.XF_SCHED_STAT_STATE 2).request .schedSwitch 0 l.at' l.origin [0] with
      pend := some (d.checkSched l.base l.size l.at').2 }
  rw [Device.schedChecked_legal h hc, e]
  exact ⟨_, rfl⟩

/-! CREDIT (R171). -/

/-- A context takes credits: it is in the running schedule, with cluster delivery. -/
abbrev Device.takesCredit (d : Device) (c : Nat) : Prop := d.inRun c = true ∧ cClEn (d.desc c) = true

/-- The checks of CREDIT, in terms of what they ask. -/
theorem Device.xfCredit_eq (d : Device) (c n : Nat) :
    d.xfCredit c n =
      let code := firstCode [(decide (n = 0 ∨ (d.takesCredit c ∧ cClCount (d.desc c) < d.fld (F.XF_C_STAT_CREDIT c) + n)), cLENGTH),
        (decide (¬d.takesCredit c), cNOTARMED)]
      (code, if code = cOK then d.setFld (F.XF_C_STAT_CREDIT c) (d.fld (F.XF_C_STAT_CREDIT c) + n) else d) := by
  simp only [Device.xfCredit, Device.takesCredit, Bool.decide_or, Bool.decide_and, Bool.decide_eq_true, decide_not, Bool.not_and]

theorem Device.xfCredit_added {d : Device} {c n : Nat} (hr : d.takesCredit c) (hn : 0 < n)
    (hf : d.fld (F.XF_C_STAT_CREDIT c) + n ≤ cClCount (d.desc c)) :
    d.xfCredit c n = (cOK, d.setFld (F.XF_C_STAT_CREDIT c) (d.fld (F.XF_C_STAT_CREDIT c) + n)) := by
  have length : ¬(n = 0 ∨ (d.takesCredit c ∧ cClCount (d.desc c) < d.fld (F.XF_C_STAT_CREDIT c) + n)) := by omega
  rw [Device.xfCredit_eq, decide_eq_false length, decide_eq_false (not_not_intro hr)]
  rfl

theorem Device.xfCredit_length {d : Device} {c n : Nat}
    (h : n = 0 ∨ (d.takesCredit c ∧ cClCount (d.desc c) < d.fld (F.XF_C_STAT_CREDIT c) + n)) : d.xfCredit c n = (cLENGTH, d) := by
  have lowest : ∀ b, firstCode [(true, cLENGTH), (b, cNOTARMED)] = cLENGTH := by decide
  rw [Device.xfCredit_eq, decide_eq_true h, lowest]
  rfl

theorem Device.xfCredit_notArmed {d : Device} {c n : Nat} (hr : ¬d.takesCredit c) (hn : 0 < n) : d.xfCredit c n = (cNOTARMED, d) := by
  have length : ¬(n = 0 ∨ (d.takesCredit c ∧ cClCount (d.desc c) < d.fld (F.XF_C_STAT_CREDIT c) + n)) := by
    rintro (h0 | ⟨h, -⟩)
    · omega
    · exact hr h
  rw [Device.xfCredit_eq, decide_eq_false length, decide_eq_true hr]
  rfl

/-! The rows. -/

theorem exec_xfSchedCtlGo (s : State) :
    exec .xfSchedCtlGo s = .next { s with
      dev := s.dev.xfGo (s.dev.rd64 Reg.XF_SCHED_BASE_LO) (s.dev.rdN Reg.XF_SCHED_SIZE) (s.dev.rdTime Reg.XF_SCHED_AT_LO) .host } := rfl

theorem exec_xfSchedCtlStop (s : State) :
    exec .xfSchedCtlStop s = .next { s with dev := s.dev.xfStop (s.dev.rdTime Reg.XF_SCHED_AT_LO) .host } := rfl

theorem exec_scheduleChecked (s : State) : exec .scheduleChecked s = .next { s with dev := s.dev.schedChecked } := rfl

theorem exec_xfLoad {s : State} {u : UCmd} (h : s.dev.comes 4 1 1 u) :
    exec (.xfLoad u) s = .next { s with
      dev := (s.dev.accept u).xfGo (u.dword 0 % 2 ^ 48) (u.word 8) (BitVec.ofNat 64 (u.dword 16)) u.origin } := by
  show execXfLoad u s = _
  rw [execXfLoad, State.run_eq, Device.unitCmd_comes _ h rfl]

theorem exec_xfStop {s : State} {u : UCmd} (h : s.dev.comes 4 2 1 u) :
    exec (.xfStop u) s = .next { s with dev := (s.dev.accept u).xfStop (BitVec.ofNat 64 (u.dword 0)) u.origin } := by
  show execXfStop u s = _
  rw [execXfStop, State.run_eq, Device.unitCmd_comes _ h rfl]

theorem exec_xfCredit {s : State} {u : UCmd} {r : Nat × Device} (h : s.dev.comes 4 3 4096 u)
    (hr : (s.dev.accept u).xfCredit u.unit (u.imm % 4096) = r) :
    exec (.xfCredit u) s = .next { s with dev := r.2.complete u.origin r.1 none } := by
  subst hr
  show execXfCredit u s = _
  rw [execXfCredit, State.run_eq, Device.unitCmd_comes _ h rfl]

end Sys2Proof.Machine
end

section
/-! PROOFS. Loading, stopping and switching schedules, and credits (R162, R163, R171, R600). -/

namespace Sys2Proof.Machine

/-- Settles O31: GO and STOP on a device, once for the host's row and the engine's, then the end of a check, and CREDIT. -/
theorem scheduleRequests : Obligations.ScheduleRequests := by
  intro s u l d taken cur busy go stop idle r c n cr credits runs
  have goes : ∀ {i d base size t o}, exec i s = .next { s with dev := d.xfGo base size t o } → go i d base size t o :=
    fun {i d base size t o} h => ⟨fun hb => h.trans (by rw [Device.xfGo_busy base size t o hb]),
      fun hf => h.trans (by rw [Device.xfGo_accepted base size t o hf])⟩
  have stops : ∀ {i d t o}, exec i s = .next { s with dev := d.xfStop t o } → stop i d t o := fun {i d t o} h =>
    ⟨fun hb => h.trans (by rw [Device.xfStop_busy t o hb]), fun hf => h.trans (by rw [Device.xfStop_accepted t o hf])⟩
  refine ⟨goes (exec_xfSchedCtlGo s), fun hu => goes (exec_xfLoad hu), stops (exec_xfSchedCtlStop s), fun hu => stops (exec_xfStop hu),
    fun h => ?_, fun h hc => ?_, fun h hc => ?_, fun hu hr hn hf => exec_xfCredit hu (Device.xfCredit_added hr hn hf),
    fun hu h => exec_xfCredit hu (Device.xfCredit_length h), fun hu hr hn => exec_xfCredit hu (Device.xfCredit_notArmed hr hn)⟩
  · rw [Gives, exec_scheduleChecked, Device.schedChecked_none h]; rfl
  · rw [Gives, exec_scheduleChecked, Device.schedChecked_refused h hc]; rfl
  · obtain ⟨regs, e⟩ := Device.schedChecked_legal_frame h hc
    exact Reaches.of_eq (exec_scheduleChecked s) (by rw [e])

end Sys2Proof.Machine
end

section
/-! PROOFS. Frames through the pipes: the codewords beyond the poison table that a long transform's work area covers (R138, R409). -/

namespace Sys2Proof.Machine

theorem length_bytesLE (len n : Nat) : (bytesLE len n).length = len := by
  induction len generalizing n with
  | zero => rfl
  | succ len ih => exact congrArg (· + 1) (ih _)

/-- A long transform writes its work area as a run, so the uncorrectable codewords in it that the full poison table left out are known no more. -/
theorem Device.hot_workUse (d : Device) (b : List Byte) :
    (d.workUse b).memc.hot = d.memc.hot.filter (fun w => !(decide (cWork b / 32 * 32 ≤ 32 * w) &&
      decide (32 * w + 32 ≤ cWork b / 32 * 32 + (cWork b % 32 + 32 * cN b)))) := by
  rw [← length_bytesLE (32 * cN b) d.draw.1]
  rfl

/-- A frame of 2^17 points, with its work area at address 0, that has entered no pipe. -/
def freshLongFrame : Frame := ⟨0, 0, 0, 0, [], { desc := [0, 0, 0, 0, 17] }, 0, 1, 0, 0, 0, false⟩

/-- That frame is ready, pipe 0 is live and free, the poison table is full, and codeword 0 stays uncorrectable beside it. -/
def readyOverFullPoison : State :=
  { dev := { Device.setFld {} F.XF_LIVE_MASK 1 with
      ready := [freshLongFrame], poison := List.range' 1 256, memc := { hot := [0] } } }

/-- Refutes O32: the last clause of a long frame says that the device keeps all but its frames, pipes, memory, poison table, free values and latencies. With
its first sub-transform the work area is written, and uncorrectable codewords outside the table (`memc.hot`, R409) that it covers leave too. -/
theorem not_framesThroughPipes : ¬ Obligations.FramesThroughPipes := by
  intro h
  obtain ⟨-, -, -, -, -, -, -, enters, -⟩ := h readyOverFullPoison freshLongFrame [] false false (0, 0) 0 0
  obtain ⟨t, -, -, x, -, hx, frame⟩ := enters rfl rfl (.inl rfl) (by decide) (by decide)
  have kept : x.memc.hot = [0] := by rw [frame]; rfl
  have gone : x.memc.hot = [] := by
    rw [hx, if_neg (by decide), if_pos (by rfl)]
    exact Device.hot_workUse _ _
  exact absurd (kept.symm.trans gone) (by decide)

end Sys2Proof.Machine
end

section
/-! SUPPORT. A word of device memory after a store to it or beside it (R190). -/

namespace Sys2Proof.Machine

theorem ofBytesLE_lt (l : List Byte) : ofBytesLE l < 256 ^ l.length := by
  induction l with
  | nil => exact Nat.one_pos
  | cons b l ih =>
    have hb : b.toNat < 256 := b.isLt
    rw [ofBytesLE, List.length_cons, pow_succ]
    omega

/-- A number that fits its bytes is what they spell. -/
theorem ofBytesLE_bytesLE {len n : Nat} (h : n < 256 ^ len) : ofBytesLE (bytesLE len n) = n := by
  induction len generalizing n with
  | zero => exact (Nat.lt_one_iff.mp h).symm
  | succ len ih =>
    rw [pow_succ] at h
    rw [bytesLE, ofBytesLE, ih (by omega), BitVec.toNat_ofNat]
    omega

theorem length_memBytes (m : List Host.Cell) (a n : Nat) : (memBytes m a n).length = n := by
  induction n generalizing a with
  | zero => rfl
  | succ n ih => exact congrArg (· + 1) (ih _)

/-- Memories that agree on a range hold the same bytes there. -/
theorem memBytes_congr {m m' : List Host.Cell} {a n : Nat} (h : ∀ c, a ≤ c → c < a + n → memGet m' c = memGet m c) :
    memBytes m' a n = memBytes m a n := by
  induction n generalizing a with
  | zero => rfl
  | succ n ih => rw [memBytes, memBytes, h a (by omega) (by omega), ih fun c h1 h2 => h c (by omega) (by omega)]

theorem memBytes_memWrite_same (bs : List Byte) (m : List Host.Cell) (a : Nat) : memBytes (memWrite m a bs) a bs.length = bs := by
  induction bs generalizing m a with
  | nil => rfl
  | cons b bs ih =>
    rw [memWrite, List.length_cons, memBytes, ih, memGet_memWrite_other _ _ _ _ (by omega), memGet_memSet_same]

theorem Device.mem32_lt (d : Device) (a : Nat) : d.mem32 a < 256 ^ 4 := by
  have h := ofBytesLE_lt (memBytes d.mem a 4)
  rwa [length_memBytes] at h

/-- Devices whose memories agree on a word read it alike. -/
theorem Device.mem32_congr {d d' : Device} {a : Nat} (h : ∀ c, a ≤ c → c < a + 4 → memGet d'.mem c = memGet d.mem c) :
    d'.mem32 a = d.mem32 a := congrArg ofBytesLE (memBytes_congr h)

/-- A word reads as what was just stored. -/
theorem Device.mem32_store_same (d : Device) (a : Nat) {v : Nat} (h : v < 256 ^ 4) : (d.store a (bytesLE 4 v)).mem32 a = v :=
  (congrArg ofBytesLE (memBytes_memWrite_same (bytesLE 4 v) d.mem a)).trans (ofBytesLE_bytesLE h)

/-- A store of a word leaves every byte outside it. -/
theorem Device.memGet_storeWord_other (d : Device) {a c : Nat} (v : Nat) (h : c < a ∨ a + 4 ≤ c) :
    memGet (d.store a (bytesLE 4 v)).mem c = memGet d.mem c := memGet_memWrite_other _ _ _ _ h

end Sys2Proof.Machine
end

section
/-! SUPPORT. The decay of a count, and the sweep of a memory plane's cells (R193). -/

namespace Sys2Proof.Machine

/-! A count never rises. -/

theorem isqrtGo_sq_le {fuel n r : Nat} (h : r * r ≤ n) : isqrtGo fuel n r * isqrtGo fuel n r ≤ n := by
  induction fuel generalizing r with
  | zero => exact h
  | succ fuel ih =>
    rw [isqrtGo]
    split
    · next hc => exact ih hc
    · exact ih h

theorem isqrt_sq_le (n : Nat) : isqrt n ^ 2 ≤ n := by
  rw [pow_two]; exact isqrtGo_sq_le (Nat.zero_le n)

theorem root16_pow_le (n : Nat) : root16 n ^ 16 ≤ n := by
  have half : ∀ a k : Nat, isqrt a ^ (2 * k) ≤ a ^ k := fun a k => by
    rw [pow_mul]; exact Nat.pow_le_pow_left (isqrt_sq_le a) k
  calc root16 n ^ 16 ≤ isqrt (isqrt (isqrt n)) ^ 8 := half _ 8
    _ ≤ isqrt (isqrt n) ^ 4 := half _ 4
    _ ≤ isqrt n ^ 2 := half _ 2
    _ ≤ n := isqrt_sq_le n

/-- A count divided by a positive number, rounded half to even, is no larger than it was. -/
theorem roundHalfEven_toNat_le (v : Nat) {n : Nat} (hn : 0 < n) : (roundHalfEven v n).toNat ≤ v := by
  have hq : v / n ≤ v := Nat.div_le_self v n
  have up : 0 < v % n → v / n + 1 ≤ v := fun hr => by
    have hmul : v / n ≤ n * (v / n) := Nat.le_mul_of_pos_left _ hn
    have hdiv := Nat.div_add_mod v n
    omega
  unfold roundHalfEven
  norm_cast
  grind

theorem decayRound_le (v m : Nat) : decayRound v m ≤ v := by
  rw [decayRound]
  split
  · exact roundHalfEven_toNat_le v (Nat.two_pow_pos _)
  · have twice : root16 ((2 * v) ^ 16 / 2 ^ m) ≤ 2 * v :=
      (Nat.pow_le_pow_iff_left (by decide)).mp ((root16_pow_le _).trans (Nat.div_le_self _ _))
    omega

theorem decayCell_le (m v : Nat) : decayCell m v ≤ v := by
  have := decayRound_le v m
  rw [decayCell]
  split <;> omega

/-! The cells of a memory plane. -/

/-- A sweep of `k` cells leaves every byte outside them. -/
theorem Device.memGet_decayMem_other (d : Device) (base m : Nat) {k c : Nat} (h : c < base ∨ base + 4 * k ≤ c) :
    memGet (d.decayMem base m k).mem c = memGet d.mem c := by
  induction k with
  | zero => rfl
  | succ k ih => rw [Device.decayMem, Device.memGet_storeWord_other _ _ (by omega), ih (by omega)]

/-- A sweep replaces each of its cells by its decayed value, read before the sweep comes to it. -/
theorem Device.mem32_decayMem (d : Device) (base m : Nat) {j k : Nat} (h : j < k) :
    (d.decayMem base m k).mem32 (base + 4 * j) = decayCell m (d.mem32 (base + 4 * j)) := by
  induction k with
  | zero => omega
  | succ k ih =>
    rw [Device.decayMem]
    by_cases hj : j = k
    · subst hj
      rw [Device.mem32_store_same _ _ ((decayCell_le _ _).trans_lt (Device.mem32_lt _ _)),
        Device.mem32_congr fun c _ _ => d.memGet_decayMem_other base m (by omega)]
    · rw [Device.mem32_congr fun c _ _ => Device.memGet_storeWord_other _ _ (by omega), ih (by omega)]

theorem Device.plane_decayMem (d : Device) (base m k p : Nat) : (d.decayMem base m k).plane p = d.plane p := by
  induction k with
  | zero => rfl
  | succ k ih => exact ih

/-! A sweep of a plane (R193, R194). -/

theorem Device.plane_setPlane_same (d : Device) (p : Nat) (x : Plane) : (d.setPlane p x).plane p = x := Sparse.get_set_same _ _ _ _

theorem Device.plane_setPlane_other (d : Device) {p q : Nat} (x : Plane) (h : q ≠ p) : (d.setPlane p x).plane q = d.plane q :=
  Sparse.get_set_other _ _ _ _ _ h

/-- The counts of a plane fall by `m` steps. -/
def Device.decayCounts (d : Device) (p m : Nat) : Device :=
  let x := d.plane p
  let e := x.entry
  if deMem e then (d.decayMem (deBase e) m (deCols e * deRows e)).moved 1
  else d.setPlane p { x with cells := (x.cells.map (fun kv => (kv.1, decayCell m kv.2))).filter (fun kv => decide (kv.2 ≠ 0)) }

/-- Steps merged into one sweep are counted (R194). -/
def Device.countMerged (d : Device) (m : Nat) : Device :=
  if 1 < m then (d.setFld F.DEN_FLAGS_DECAY_LATE 1).incBy Reg.DEN_DECAY_LATE_CNT (m - 1) else d

/-- The instant of a plane's `m`-th step from now (R193). -/
abbrev Plane.stepDue (x : Plane) (m : Nat) : Time := x.since + BitVec.ofNat 64 ((x.steps + m) * deHalf x.entry * 4096000)

/-- A plane's sweep of `m` steps is due: it decays, it is active, and the instant of the last step is reached (R193). -/
abbrev Device.decayDue (d : Device) (p m : Nat) : Prop :=
  0 < deHalf (d.plane p).entry ∧ 0 < m ∧ d.isSet (F.DEN_P_STAT_ACTIVE p) = true ∧ timeLE ((d.plane p).stepDue m) d.time = true

theorem Device.denDecay_due {d : Device} {p m : Nat} (h : d.decayDue p m) : d.denDecay p m =
    ((d.decayCounts p m).setPlane p { (d.decayCounts p m).plane p with steps := (d.plane p).steps + m }).countMerged m := by
  obtain ⟨hh, hm, ha, hd⟩ := h
  rw [Plane.stepDue] at hd
  exact if_neg (by simp [hh.ne', hm.ne', ha, hd])

theorem Device.denDecay_early {d : Device} {p m : Nat} (hd : timeLE ((d.plane p).stepDue m) d.time = false) : d.denDecay p m = d :=
  if_pos (.inr (.inr (.inr (by simpa using hd))))

theorem Device.countMerged_regs (d : Device) (m : Nat) : ∃ regs, d.countMerged m = { d with regs := regs } := by
  unfold Device.countMerged; split
  · exact ⟨_, rfl⟩
  · exact ⟨d.regs, rfl⟩

theorem Device.rdN_incBy (d : Device) (a n : Nat) : (d.incBy a n).rdN a = min (d.rdN a + n) 0xFFFFFFFF := by
  rw [Device.incBy, Device.rdN_wr]; omega

theorem Device.rdN_countMerged (d : Device) (m : Nat) :
    (d.countMerged m).rdN Reg.DEN_DECAY_LATE_CNT = min (d.rdN Reg.DEN_DECAY_LATE_CNT + (m - 1)) 0xFFFFFFFF := by
  unfold Device.countMerged; split
  · rw [Device.rdN_incBy, Device.setFld, Device.rdN_wr_other _ _ _ _ (by decide)]
  · have := d.rdN_lt Reg.DEN_DECAY_LATE_CNT
    omega

theorem Device.plane_countMerged (d : Device) (m p : Nat) : (d.countMerged m).plane p = d.plane p := by
  obtain ⟨regs, e⟩ := d.countMerged_regs m
  rw [e]; rfl

/-- A due sweep moves the plane's steps on beside its counts. -/
theorem Device.plane_denDecay_due {d : Device} {p m : Nat} (h : d.decayDue p m) :
    (d.denDecay p m).plane p = { (d.decayCounts p m).plane p with steps := (d.plane p).steps + m } := by
  rw [Device.denDecay_due h, Device.plane_countMerged, Device.plane_setPlane_same]

theorem Device.mem_denDecay_due {d : Device} {p m : Nat} (h : d.decayDue p m) : (d.denDecay p m).mem = (d.decayCounts p m).mem := by
  obtain ⟨regs, e⟩ := Device.countMerged_regs
    ((d.decayCounts p m).setPlane p { (d.decayCounts p m).plane p with steps := (d.plane p).steps + m }) m
  rw [Device.denDecay_due h, e]; rfl

/-! A tile plane. -/

theorem Device.decayCounts_tile {d : Device} {p m : Nat} (h : deMem (d.plane p).entry = false) : d.decayCounts p m =
    d.setPlane p { d.plane p with
      cells := ((d.plane p).cells.map (fun kv => (kv.1, decayCell m kv.2))).filter (fun kv => decide (kv.2 ≠ 0)) } :=
  if_neg (by simp [h])

/-- A due sweep of a tile plane changes the planes and, for the merged steps, the registers. -/
theorem Device.denDecay_tile_frame {d : Device} {p m : Nat} (h : d.decayDue p m) (ht : deMem (d.plane p).entry = false) :
    d.denDecay p m = { d with planes := (d.denDecay p m).planes, regs := (d.denDecay p m).regs } := by
  obtain ⟨regs, e⟩ := Device.countMerged_regs
    ((d.decayCounts p m).setPlane p { (d.decayCounts p m).plane p with steps := (d.plane p).steps + m }) m
  rw [Device.denDecay_due h, e, Device.decayCounts_tile ht]; rfl

theorem Device.plane_denDecay_tile_other {d : Device} {p q m : Nat} (h : d.decayDue p m) (ht : deMem (d.plane p).entry = false)
    (hq : q ≠ p) : (d.denDecay p m).plane q = d.plane q := by
  rw [Device.denDecay_due h, Device.plane_countMerged, Device.plane_setPlane_other _ _ hq, Device.decayCounts_tile ht,
    Device.plane_setPlane_other _ _ hq]

theorem Device.rdN_denDecay_tile {d : Device} {p m : Nat} (h : d.decayDue p m) (ht : deMem (d.plane p).entry = false) :
    (d.denDecay p m).rdN Reg.DEN_DECAY_LATE_CNT = min (d.rdN Reg.DEN_DECAY_LATE_CNT + (m - 1)) 0xFFFFFFFF := by
  rw [Device.denDecay_due h, Device.rdN_countMerged, Device.decayCounts_tile ht]; rfl

/-! A memory plane. -/

theorem Device.decayCounts_mem {d : Device} {p : Nat} (m : Nat) (h : deMem (d.plane p).entry = true) :
    d.decayCounts p m = (d.decayMem (deBase (d.plane p).entry) m (deCols (d.plane p).entry * deRows (d.plane p).entry)).moved 1 :=
  if_pos h

theorem Device.plane_decayCounts_mem {d : Device} {p : Nat} (m : Nat) (h : deMem (d.plane p).entry = true) (q : Nat) :
    (d.decayCounts p m).plane q = d.plane q := by
  rw [Device.decayCounts_mem m h]
  exact d.plane_decayMem _ _ _ q

end Sys2Proof.Machine
end

section
/-! SUPPORT. Requests for trace clears, snapshots and clears of planes (R185, R197, R201, R202). -/

namespace Sys2Proof.Machine

/-! Trace clears. -/

/-- What makes a trace clear BUSY: another of the context's pending, and for the host one of its own (R185). -/
abbrev Device.detBusy (d : Device) (c : Nat) (o : Origin) : Bool :=
  (decide (o = .host) && d.isSet F.DET_CLR_STAT_PENDING) || d.hasReq [.detClear] c

/-- A trace clear names an enabled trace of an active context. -/
abbrev Device.detNamed (d : Device) (c mask : Nat) : Prop := d.active c = true ∧ tracesNamed (d.desc c) mask = true

theorem Device.detClear_accepted {d : Device} {c mask : Nat} {o : Origin} (t : Time) (hb : d.detBusy c o = false)
    (hg : d.detNamed c mask) : d.detClear c mask t o =
      let x := d.request .detClear c t o [mask]
      if o = .host then (x.setFld F.DET_CLR_CTL_GO 1).setFld F.DET_CLR_STAT_PENDING 1 else x := by
  rw [Device.detBusy] at hb
  rw [Device.detClear, hb, hg.1, hg.2]; rfl

theorem Device.detClear_busy {d : Device} {c : Nat} {o : Origin} (mask : Nat) (t : Time) (hb : d.detBusy c o = true) :
    d.detClear c mask t o = (if o = .host then d.setFld F.DET_CLR_STAT_CODE cBUSY else d).complete o cBUSY none := by
  have lowest : ∀ b, firstCode [(true, cBUSY), (b, cNOTARMED)] = cBUSY := by decide
  rw [Device.detBusy] at hb
  rw [Device.detClear, hb, lowest]; rfl

theorem Device.detClear_notArmed {d : Device} {c mask : Nat} {o : Origin} (t : Time) (hb : d.detBusy c o = false)
    (hg : ¬d.detNamed c mask) : d.detClear c mask t o =
      (if o = .host then (d.setFld F.DET_CLR_STAT_CODE cNOTARMED).setFld F.DET_CLR_CTL_GO 0 else d).complete o cNOTARMED none := by
  have unnamed : (!d.active c || !tracesNamed (d.desc c) mask) = true := by
    rwa [← Bool.not_and, Bool.not_eq_true', Bool.and_eq_false_iff, ← Bool.not_eq_true, ← Bool.not_eq_true, ← not_and_or]
  have lowest : firstCode [(false, cBUSY), (true, cNOTARMED)] = cNOTARMED := by decide
  rw [Device.detBusy] at hb
  rw [Device.detClear, hb, unnamed, lowest, if_neg (by decide), if_neg Bool.false_ne_true]
  by_cases ho : o = .host <;> simp only [ho, if_true, if_false]

/-! Snapshots and clears of planes. -/

/-- The checks of a request in ascending order of their codes, in terms of what they ask (R202). -/
theorem Device.denCode_eq (d : Device) (p dest : Nat) (isSnap host : Bool) :
    d.denCode p dest isSnap host =
      let x := d.plane p
      firstCode [
        (isSnap && x.ever && decide (dest < Config.memSize ∧ Config.memSize < dest + 4 * deCols x.entry * deRows x.entry), cLENGTH),
        (isSnap && decide (dest % 4096 ≠ 0), cALIGN), (isSnap && decide (Config.memSize ≤ dest), cREGION),
        (decide (d.hasReq [.denSnap, .denClear] p = true ∨ x.snap.isSome = true ∨ (host && d.isSet F.DEN_CMD_STAT_PENDING) = true),
          cBUSY),
        (!x.ever, cNOTARMED)] := by
  simp only [Device.denCode, pastEnd, aboveEnd, Bool.decide_or, Bool.decide_and, Bool.decide_eq_true, Bool.or_assoc]

theorem Device.denReq_accepted {d : Device} {p dest : Nat} {clear isSnap : Bool} (t : Time) {o : Origin}
    (h : d.denCode p dest isSnap (decide (o = .host)) = cOK) : d.denReq p dest clear isSnap t o =
      let y := (d.request (if isSnap then .denSnap else .denClear) p t o [dest, if clear then 1 else 0]).setFld (F.DEN_P_STAT_PENDING p) 1
      if o = .host then y.denShowHost.setFld F.DEN_CMD_STAT_PLANE p else y := by
  simp only [Device.denReq, h, if_true, decide_eq_true_eq]

/-- A refused request of an engine leaves DEN_CMD_STAT alone. -/
theorem Device.denReq_refused_engine {d : Device} {p dest : Nat} (clear : Bool) {isSnap : Bool} (t : Time) {o : Origin} (ho : o ≠ .host)
    (h : d.denCode p dest isSnap (decide (o = .host)) ≠ cOK) :
    d.denReq p dest clear isSnap t o = d.complete o (d.denCode p dest isSnap (decide (o = .host))) none := by
  rw [decide_eq_false ho] at h ⊢
  simp only [Device.denReq, decide_eq_false ho, if_neg h, Bool.false_and, Bool.false_eq_true, if_false]

/-- A refused request of the host shows its code, and its plane (R202). -/
theorem Device.denReq_refused_host {d : Device} {p dest : Nat} (clear : Bool) {isSnap : Bool} (t : Time)
    (h : d.denCode p dest isSnap true ≠ cOK) (hp : d.isSet F.DEN_CMD_STAT_PENDING = false) : d.denReq p dest clear isSnap t .host =
      (d.setFld F.DEN_CMD_STAT_CODE (d.denCode p dest isSnap true)).setFld F.DEN_CMD_STAT_PLANE p := by
  simp only [Device.denReq, decide_true, if_neg h, hp, Device.complete]
  rfl

/-- While a request of the host waits, PLANE shows the plane of that one. -/
theorem Device.denReq_refused_waiting {d : Device} {p dest : Nat} (clear : Bool) {isSnap : Bool} (t : Time)
    (h : d.denCode p dest isSnap true ≠ cOK) (hp : d.isSet F.DEN_CMD_STAT_PENDING = true) :
    d.denReq p dest clear isSnap t .host = d.setFld F.DEN_CMD_STAT_CODE (d.denCode p dest isSnap true) := by
  simp only [Device.denReq, decide_true, if_neg h, hp, Device.complete]
  rfl

/-! The rows. -/

theorem exec_detClrCtlGo (s : State) :
    exec .detClrCtlGo s = .next { s with
      dev := s.dev.detClear (s.dev.fld F.DET_CLR_CFG_CONTEXT) (s.dev.fld F.DET_CLR_CFG_TRACES) (s.dev.rdTime Reg.DET_CLR_AT_LO) .host } := rfl

theorem exec_detClear {s : State} {u : UCmd} (h : s.dev.comes 5 1 1 u) :
    exec (.detClear u) s = .next { s with
      dev := (s.dev.accept u).detClear (bitsOf (u.word 0) 0 12) (bitsOf (u.word 0) 16 4) (BitVec.ofNat 64 (u.dword 8)) u.origin } := by
  show execDetClear u s = _
  rw [execDetClear, State.run_eq, Device.unitCmd_comes _ h rfl]

theorem exec_denCmdCtlSnap (s : State) : exec .denCmdCtlSnap s = .next { s with dev := s.dev.denHost true } := rfl

theorem exec_denCmdCtlClear (s : State) : exec .denCmdCtlClear s = .next { s with dev := s.dev.denHost false } := rfl

theorem exec_denSnap {s : State} {u : UCmd} (h : s.dev.comes 6 1 1 u) :
    exec (.denSnap u) s = .next { s with dev := (s.dev.accept u).denEng u true } := by
  show execDenSnap u s = _
  rw [execDenSnap, State.run_eq, Device.unitCmd_comes _ h rfl]

theorem exec_denClear {s : State} {u : UCmd} (h : s.dev.comes 6 2 1 u) :
    exec (.denClear u) s = .next { s with dev := (s.dev.accept u).denEng u false } := by
  show execDenClear u s = _
  rw [execDenClear, State.run_eq, Device.unitCmd_comes _ h rfl]

end Sys2Proof.Machine
end

section
/-! SUPPORT. The end of a snapshot or clear of a plane (R197 to R201). -/

namespace Sys2Proof.Machine

/-! Snapshots. -/

/-- A snapshot's cells are in memory and its record, of what was counted into it, is offered (R200). -/
def Device.snapSent (d : Device) (p : Nat) (s : Snap) (k : PlaneStat) : Device :=
  let d := (d.snapCopy p s (deCols s.entry * deRows s.entry)).moved 1
  let d := if deQEn s.entry then d.qOffer (deQueue s.entry) (d.snapRecord p k s) 0x06 p else d
  if s.clear && !s.gone then d.setFld (F.DEN_P_STAT_TILE_LOST p) 0 else d

/-- A memory plane counts afresh, and no snapshot or clear of it is in progress. -/
def Device.planeEmptied (d : Device) (p : Nat) : Device :=
  ((d.setPlane p { d.plane p with cur := {} }).wr64 (Reg.DEN_P_FRAMES_LO p) 0).denIdle p

/-- A tile plane's snapshot has written DEST, and its bank still drains. -/
def Device.snapMarked (d : Device) (p : Nat) (s : Snap) : Device :=
  d.setPlane p { d.plane p with snap := some { s with written := true } }

variable {d : Device} {p : Nat} {s : Snap}

theorem Device.snapDone_none (h : (d.plane p).snap = none) : d.snapDone p = d := by rw [Device.snapDone, h]

theorem Device.snapDone_mem (h : (d.plane p).snap = some s) (hs : s.isSnap = true) (hw : s.written = false) (hm : deMem s.entry = true) :
    d.snapDone p = ((d.snapSent p s (d.plane p).cur).planeEmptied p).denEnd p s.origin cOK s.b := by
  rw [Device.snapDone, h]
  simp only [hs, hw, hm]
  rfl

theorem Device.snapDone_tile (h : (d.plane p).snap = some s) (hs : s.isSnap = true) (hw : s.written = false)
    (hm : deMem s.entry = false) (ht : d.ctxDone s.ctx s.b = true) :
    d.snapDone p = ((d.snapSent p s (d.plane p).old).snapMarked p s).denEnd p s.origin cOK s.b := by
  rw [Device.snapDone, h]
  simp only [hm]
  rw [if_neg (by simp [hs, hw, ht])]
  rfl

/-- A tile plane's snapshot that has been written, or whose frames are still under way, is left as it is (R198). -/
theorem Device.snapDone_waits (h : (d.plane p).snap = some s) (hm : deMem s.entry = false)
    (hw : s.isSnap = false ∨ s.written = true ∨ ¬d.ctxDone s.ctx s.b = true) : d.snapDone p = d := by
  have waits : (!s.isSnap || s.written || (!deMem s.entry && !d.ctxDone s.ctx s.b)) = true := by
    rcases hw with hw | hw | hw <;> simp [hw, hm]
  rw [Device.snapDone, h]
  exact if_pos waits

/-! Drain banks. -/

/-- A tile plane without the counters of a snapshot's drain bank. -/
def Device.bankDropped (d : Device) (p : Nat) (s : Snap) : Device :=
  d.setPlane p { d.plane p with cells := (d.plane p).cells.filter (fun kv => !decide (kv.1 / 2 ^ 18 % 2 = s.bank)) }

theorem Device.snapMerged_none (h : (d.plane p).snap = none) : d.snapMerged p = d := by rw [Device.snapMerged, h]

theorem Device.snapMerged_eq (h : (d.plane p).snap = some s) (hm : deMem s.entry = false) (hw : s.written = true)
    (ht : d.ctxDone s.ctx s.b = true) : d.snapMerged p =
      (if s.clear || s.gone then d.bankDropped p s
        else ((d.plane p).cells.filter (fun kv => decide (kv.1 / 2 ^ 18 % 2 = s.bank))).foldl (fun d kv => d.mergeCell p s kv)
          (d.bankDropped p s)).denIdle p := by
  simp only [Device.snapMerged, Device.bankDropped, h, hm, hw, ht, Bool.not_true, Bool.false_eq_true, or_self, if_false]

theorem Device.plane_wr (d : Device) (a v p : Nat) : (d.wr a v).plane p = d.plane p := rfl

theorem Device.cells_denStat (d : Device) (p : Nat) (old : Bool) (f : PlaneStat → PlaneStat) :
    ((d.denStat p old f).plane p).cells = (d.plane p).cells := by
  rw [Device.denStat, Device.plane_setPlane_same]; cases old <;> rfl

/-- Counts of a plane that did not fit their cells are counted (R190). -/
def Device.countLost (d : Device) (p lost : Nat) : Device :=
  if lost = 0 then d
  else (((d.setFld F.DEN_FLAGS_SAT 1).incBy Reg.DEN_SAT_CNT lost).incBy (Reg.DEN_P_SAT p) lost).denStat p false
    (fun t => { t with sat := t.sat + lost })

theorem Device.cells_countLost (d : Device) (p lost : Nat) : ((d.countLost p lost).plane p).cells = (d.plane p).cells := by
  rw [Device.countLost]
  split
  · rfl
  · rw [Device.cells_denStat, Device.incBy, Device.plane_wr, Device.incBy, Device.plane_wr, Device.setFld, Device.plane_wr]

/-- A counter of the drain bank is added to its cell of the counting bank, and no other cell changes (R198). -/
theorem Device.cells_mergeCell (d : Device) (p : Nat) (s : Snap) (kv : Nat × Nat) :
    ((d.mergeCell p s kv).plane p).cells =
      let k := tileKey (kv.1 / 2 ^ 19) (1 - s.bank) (kv.1 % 2 ^ 18)
      ((d.plane p).setCell k (satAdd ((d.plane p).cell k) kv.2)).cells := by
  refine (Device.cells_countLost _ p _).trans ?_
  rw [Device.plane_setPlane_same]

theorem Plane.cell_setCell_same (x : Plane) (k v : Nat) : (x.setCell k v).cell k = v := Sparse.get_set_same _ _ _ _

theorem Plane.cell_setCell_other (x : Plane) {j k : Nat} (v : Nat) (h : j ≠ k) : (x.setCell k v).cell j = x.cell j :=
  Sparse.get_set_other _ _ _ _ _ h

/-! Clears of memory planes. -/

theorem Device.planeCleared_none (h : (d.plane p).snap = none) : d.planeCleared p = d := by rw [Device.planeCleared, h]

theorem Device.planeCleared_mem (h : (d.plane p).snap = some s) (hm : deMem s.entry = true) (hs : s.isSnap = false) :
    d.planeCleared p = ((((d.zero (deBase s.entry) (4 * deCols s.entry * deRows s.entry)).moved 1).planeEmptied p).denEnd p s.origin
      cOK s.b) := by
  rw [Device.planeCleared, h]
  simp only [hm, hs, Device.denZero, Bool.not_true, Bool.or_self, Bool.false_eq_true, if_false, if_true]
  rfl

/-! The rows. -/

variable {st : State}

theorem exec_snapshotComplete (hp : p < 16) : exec (.snapshotComplete p) st = .next { st with dev := st.dev.snapDone p } := by
  show execSnapshotComplete p st = _
  rw [execSnapshotComplete, State.run_eq, if_pos hp]

theorem exec_snapshotMerged (hp : p < 16) : exec (.snapshotMerged p) st = .next { st with dev := st.dev.snapMerged p } := by
  show execSnapshotMerged p st = _
  rw [execSnapshotMerged, State.run_eq, if_pos hp]

theorem exec_planeClearDone (hp : p < 16) : exec (.planeClearDone p) st = .next { st with dev := st.dev.planeCleared p } := by
  show execPlaneClearDone p st = _
  rw [execPlaneClearDone, State.run_eq, if_pos hp]

theorem exec_decayStep {m : Nat} (hp : p < 16) : exec (.decayStep p m) st = .next { st with dev := st.dev.denDecay p m } := by
  show execDecayStep p m st = _
  rw [execDecayStep, State.run_eq, if_pos hp]

/-- The ends of snapshots and clears act on planes 0 to 15 that have one in progress. -/
theorem gives_id_of_idle (h : (st.dev.plane p).snap = none ∨ 16 ≤ p) :
    Gives (.snapshotComplete p) st id ∧ Gives (.snapshotMerged p) st id ∧ Gives (.planeClearDone p) st id := by
  by_cases hp : p < 16
  · have hn : (st.dev.plane p).snap = none := h.resolve_right (by omega)
    rw [Gives, Gives, Gives, exec_snapshotComplete hp, exec_snapshotMerged hp, exec_planeClearDone hp, Device.snapDone_none hn,
      Device.snapMerged_none hn, Device.planeCleared_none hn]
    exact ⟨rfl, rfl, rfl⟩
  · have off : ∀ f : Device → Device, st.run (fun d => if p < 16 then f d else d) = .next { st with dev := id st.dev } := fun f => by
      rw [State.run_eq, if_neg hp]; rfl
    exact ⟨off (Device.snapDone · p), off (Device.snapMerged · p), off (Device.planeCleared · p)⟩

end Sys2Proof.Machine
end

section
/-! PROOFS. Trace clears, density snapshots and clears, and decay (R185, R193, R194, R197 to R202). -/

namespace Sys2Proof.Machine

/-- Settles O33: a trace clear and a plane's request on a device, once for the host's rows and the engine's, then the ends of snapshots and clears,
clause by clause, and the decay of tile and memory planes. -/
theorem traceAndDensityCommands : Obligations.TraceAndDensityCommands := by
  intro s u p m sn d taken detOk den denHost denEng x e copied sent fresh emptied through isOld kept
  have clears : ∀ {i d c mask t o pend}, exec i s = .next { s with dev := d.detClear c mask t o } →
      (decide (o = .host) && d.isSet F.DET_CLR_STAT_PENDING) = pend → detOk i d c mask t o pend := fun {i d c mask t o pend} h hp => by
    subst hp
    exact ⟨fun hb hg => h.trans (by rw [Device.detClear_accepted t hb hg]),
      fun hb => h.trans (by rw [Device.detClear_busy mask t hb]), fun hb hg => h.trans (by rw [Device.detClear_notArmed t hb hg])⟩
  have requests : ∀ {i d p dest isSnap clear t o}, exec i s = .next { s with dev := d.denReq p dest clear isSnap t o } →
      den i d p dest (if clear then 1 else 0) isSnap t o := fun {i d p dest isSnap clear t o} h => by
    have hc := d.denCode_eq p dest isSnap (decide (o = .host))
    refine ⟨fun h0 => h.trans (by rw [Device.denReq_accepted t (hc.trans h0)]),
      fun h0 ho => h.trans (by rw [Device.denReq_refused_engine clear t ho (hc.trans_ne h0), hc]; rfl), fun h0 ho hp => ?_, fun h0 ho hp => ?_⟩
    · subst ho
      exact h.trans (by rw [Device.denReq_refused_host clear t (hc.trans_ne h0) hp, Device.denCode_eq]; rfl)
    · subst ho
      exact h.trans (by rw [Device.denReq_refused_waiting clear t (hc.trans_ne h0) hp, Device.denCode_eq]; rfl)
  refine ⟨clears (exec_detClrCtlGo s) rfl, fun hu => clears (exec_detClear hu) rfl, requests (exec_denCmdCtlSnap s),
    requests (exec_denCmdCtlClear s), fun hu => requests (exec_denSnap hu), fun hu => requests (exec_denClear hu), gives_id_of_idle,
    fun hp hx hs hw => ⟨fun hm => ?_, fun hm ht => ?_⟩, fun hp hx hm hw => ?_, fun hp hx hm hw ht => ⟨fun hc => ?_, fun hc hg => ?_⟩,
    fun kv _ => ⟨?_, fun k hk => ?_⟩, fun hp hx hm hs => ?_, fun hp hm hh h0 ha hd => ?_, fun hp hm hh h0 ha hd => ?_, fun hp _ hd => ?_⟩
  · rw [Gives, exec_snapshotComplete hp, Device.snapDone_mem hx hs hw hm]; rfl
  · exact Reaches.of_eq (exec_snapshotComplete hp) ⟨_, rfl, Device.snapDone_tile hx hs hw hm ht⟩
  · rw [Gives, exec_snapshotComplete hp, Device.snapDone_waits hx hm hw]; rfl
  · rw [Gives, exec_snapshotMerged hp, Device.snapMerged_eq hx hm hw ht, if_pos (by simpa using hc)]; rfl
  · rw [Gives, exec_snapshotMerged hp, Device.snapMerged_eq hx hm hw ht, if_neg (by simp [hc, hg])]; rfl
  · rw [Plane.cell, Device.cells_mergeCell]
    exact Plane.cell_setCell_same _ _ _
  · rw [Plane.cell, Device.cells_mergeCell]
    exact Plane.cell_setCell_other _ _ hk
  · rw [Gives, exec_planeClearDone hp, Device.planeCleared_mem hx hm hs]; rfl
  · have due : d.decayDue p m := ⟨hh, h0, ha, hd⟩
    refine Reaches.of_eq (exec_decayStep hp) ⟨?_, fun q hq => Device.plane_denDecay_tile_other due hm hq,
      Device.rdN_denDecay_tile due hm, Device.denDecay_tile_frame due hm⟩
    rw [Device.plane_denDecay_due due, Device.decayCounts_tile hm, Device.plane_setPlane_same]
  · have due : d.decayDue p m := ⟨hh, h0, ha, hd⟩
    have hmem := (Device.mem_denDecay_due due).trans (congrArg Device.mem (Device.decayCounts_mem m hm))
    refine Reaches.of_eq (exec_decayStep hp) ⟨?_, fun k hk => ?_, fun a ha => ?_⟩
    · rw [Device.plane_denDecay_due due, Device.plane_decayCounts_mem m hm]
    · rw [Device.mem32, hmem]
      exact d.mem32_decayMem _ m hk
    · rw [hmem]
      exact d.memGet_decayMem_other _ m ha
  · rw [Gives, exec_decayStep hp, Device.denDecay_early hd]; rfl

end Sys2Proof.Machine
end

section
/-! SUPPORT. The lowest code of the checks that fail, and an object without a pending request (R15, R45). -/

namespace Sys2Proof.Machine

/-- Where one check fails the request is refused, with that check's code or a lower one. -/
theorem firstCode_of_mem {l : List (Bool × Nat)} {c : Nat} (hm : (true, c) ∈ l) (hl : ∀ p ∈ l, p.2 ≠ cOK) :
    firstCode l ≠ cOK ∧ firstCode l ≤ c := by
  induction l with
  | nil => cases hm
  | cons p l ih =>
    obtain ⟨b, e⟩ := p
    have he : e ≠ cOK := hl _ List.mem_cons_self
    have least : ∀ r, e ≤ c ∨ r ≤ c → r ≠ cOK → min e r ≠ cOK ∧ min e r ≤ c := fun r hc hr => by
      simp only [cOK] at he hr ⊢; omega
    simp only [firstCode]
    rcases List.mem_cons.mp hm with h | h
    · obtain ⟨rfl, rfl⟩ := Prod.mk.inj h
      rw [if_pos rfl]
      split
      · exact ⟨he, le_rfl⟩
      · next hr => exact least _ (.inl le_rfl) hr
    · obtain ⟨hr, hc⟩ := ih h (fun p hp => hl p (List.mem_cons_of_mem _ hp))
      cases b with
      | false => exact ⟨hr, hc⟩
      | true => rw [if_pos rfl, if_neg hr]; exact least _ (.inr hc) hr

/-- No request of a kind is found for an object that has none of it pending. -/
theorem Device.find_reqs_none {d : Device} {n : Nat} {k : BKind} (hq : d.hasReq [k] n = false) :
    (d.reqs k).find? (fun r => decide (r.obj = n)) = none := by
  rw [List.find?_eq_none]
  intro r hr ho
  obtain ⟨hm, hk⟩ := List.mem_filter.mp hr
  refine Bool.eq_false_iff.mp hq (List.any_eq_true.mpr ⟨r, hm, ?_⟩)
  simpa using And.intro hk ho

end Sys2Proof.Machine
end

section
/-! SUPPORT. What ARM, DISARM and FIRE of a trigger unit do when they are asked for, and what a TIMER unit's instant does
(R216 to R218, R556, R600). -/

namespace Sys2Proof.Machine

variable {d : Device} {n : Nat}

/-! ARM and DISARM (R218). -/

/-- ARM of a unit that is not IDLE, or that has a request pending, is refused with BUSY or a lower code. -/
theorem Device.tArmCode_busy (h : d.tState n ≠ 0 ∨ d.hasReq [.trgArm, .trgDisarm] n = true) :
    d.tArmCode n ≠ cOK ∧ d.tArmCode n ≤ cBUSY := by
  have busy : (decide (d.tState n ≠ 0) || d.hasReq [.trgArm, .trgDisarm] n) = true := by simpa using h
  rw [Device.tArmCode, busy]
  exact firstCode_of_mem (by simp) (by simp [cLENGTH, cBUSY, cUNSUP, cOK])

theorem Device.tArm_accepted (o : Origin) (h : d.tArmCode n = cOK) : d.tArm n o =
    ((d.request .trgArm n (d.rdTime (Reg.TRG_T_AT_LO n)) o []).actBit o (F.TRG_T_CTL_ARM n)).setFld (F.TRG_T_STAT_STATE n) 1 := if_pos h

theorem Device.tArm_refused (o : Origin) (h : d.tArmCode n ≠ cOK) (hq : d.hasReq [.trgArm] n = false) :
    d.tArm n o = d.finish o (F.TRG_T_CTL_ARM n) (F.TRG_T_STAT_CODE n) (d.tArmCode n) none := by
  rw [Device.tArm, if_neg h, if_neg (by rw [hq]; decide)]

theorem Device.tDisarm_accepted (t : Time) (o : Origin) (hq : d.hasReq [.trgArm, .trgDisarm] n = false) :
    d.tDisarm n t o = (d.request .trgDisarm n t o []).actBit o (F.TRG_T_CTL_DISARM n) := by
  rw [Device.tDisarm, if_neg (by rw [hq]; decide)]

theorem Device.tDisarm_busy (t : Time) (o : Origin) (hq : d.hasReq [.trgArm, .trgDisarm] n = true) :
    d.tDisarm n t o = (d.setFld (F.TRG_T_STAT_CODE n) cBUSY).complete o cBUSY none := if_pos hq

/-! FIRE (R217, R556). -/

theorem Device.tArmed_iff (d : Device) (n : Nat) : d.tArmed n = true ↔ 2 ≤ d.tState n := decide_eq_true_iff

theorem Device.tArmed_eq_false (h : d.tState n < 2) : d.tArmed n = false := decide_eq_false (by omega)

theorem Device.tSoft_fires (t : Time) (ha : 2 ≤ d.tState n) (hk : d.tKind n = 5) (hr : d.routed n = false) :
    d.tSoft n t = (cOK, d.fire n (timeMax t d.time) 0 0 0 0) := by
  have none_fails : firstCode [(false, cNOTARMED), (false, cUNSUP)] = cOK := by decide
  have armed := (d.tArmed_iff n).mpr ha
  simp only [Device.tSoft, armed, hk, hr, ne_eq, not_true_eq_false, decide_false, Bool.not_true, Bool.or_false, none_fails, if_true]

theorem Device.tSoft_unarmed (t : Time) (h : d.tState n < 2) : d.tSoft n t = (cNOTARMED, d) := by
  have lowest : ∀ b, firstCode [(true, cNOTARMED), (b, cUNSUP)] = cNOTARMED := by decide
  simp only [Device.tSoft, Device.tArmed_eq_false h, Bool.not_false, lowest]
  rfl

/-- A unit of another kind, or one that a cascade route fires, takes no FIRE. -/
theorem Device.tSoft_unsupported (t : Time) (ha : 2 ≤ d.tState n) (h : d.tKind n ≠ 5 ∨ d.routed n = true) :
    d.tSoft n t = (cUNSUP, d) := by
  have lowest : firstCode [(false, cNOTARMED), (true, cUNSUP)] = cUNSUP := by decide
  have armed := (d.tArmed_iff n).mpr ha
  have other : (decide (d.tKind n ≠ 5) || d.routed n) = true := by simpa using h
  simp only [Device.tSoft, armed, other, Bool.not_true, lowest]
  rfl

/-! TIMER units (R216). -/

theorem Device.tTimer_due (hk : sKind (d.tRegs n) = 4) (ha : 2 ≤ d.tState n) (hd : timeLE (d.tTimerNext n (d.tRegs n)) d.time = true) :
    d.tTimer n = d.tTimerFire n (d.tRegs n) := if_pos ⟨hk, (d.tArmed_iff n).mpr ha, hd⟩

theorem Device.tTimer_waits (h : sKind (d.tRegs n) ≠ 4 ∨ d.tState n < 2 ∨ timeLE (d.tTimerNext n (d.tRegs n)) d.time = false) :
    d.tTimer n = d := if_neg fun ⟨hk, ha, hd⟩ => by
  rcases h with h | h | h
  · exact h hk
  · exact absurd ((d.tArmed_iff n).mp ha) (by omega)
  · exact absurd (h.symm.trans hd) (by decide)

/-! The rows. -/

variable {s : State} {u : UCmd}

theorem exec_trgTCtlArm (h : n < 64) : exec (.trgTCtlArm n) s = .next { s with dev := s.dev.tArm n .host } := by
  show execTrgTCtlArm n s = _
  rw [execTrgTCtlArm, State.run_eq, if_pos h]

theorem exec_trgTCtlDisarm (h : n < 64) :
    exec (.trgTCtlDisarm n) s = .next { s with dev := s.dev.tDisarm n (s.dev.rdTime (Reg.TRG_T_AT_LO n)) .host } := by
  show execTrgTCtlDisarm n s = _
  rw [execTrgTCtlDisarm, State.run_eq, if_pos h]

/-- ARM of an engine writes the registers of an IDLE unit only (R600). -/
theorem exec_trgArm (h : s.dev.comes 7 1 64 u) (hi : (s.dev.accept u).tState u.unit = 0) :
    exec (.trgArm u) s = .next { s with dev :=
      ((s.dev.accept u).wrBlock u ((List.range 7).map (fun i => (Reg.TRG_T_CFG u.unit + 4 * i, 4 * i)) ++
        [(Reg.TRG_T_AT_LO u.unit, 0x28), (Reg.TRG_T_AT_HI u.unit, 0x2C)])).tArm u.unit u.origin } := by
  show execTrgArm u s = _
  rw [execTrgArm]
  exact State.run_of_eq ((Device.unitCmd_comes _ h rfl).trans (if_pos hi))

theorem exec_trgArm_busy (h : s.dev.comes 7 1 64 u) (hi : (s.dev.accept u).tState u.unit ≠ 0) :
    exec (.trgArm u) s = .next { s with dev := (s.dev.accept u).complete u.origin cBUSY none } := by
  show execTrgArm u s = _
  rw [execTrgArm]
  exact State.run_of_eq ((Device.unitCmd_comes _ h rfl).trans (if_neg hi))

theorem exec_trgDisarm (h : s.dev.comes 7 2 64 u) :
    exec (.trgDisarm u) s = .next { s with dev := (s.dev.accept u).tDisarm u.unit (BitVec.ofNat 64 (u.dword 0)) u.origin } := by
  show execTrgDisarm u s = _
  rw [execTrgDisarm, State.run_eq, Device.unitCmd_comes _ h rfl]

theorem exec_trgFire {c : Nat} {e : Device} (h : s.dev.comes 7 3 64 u)
    (hf : (s.dev.accept u).tSoft u.unit (BitVec.ofNat 64 (u.dword 0)) = (c, e)) :
    exec (.trgFire u) s = .next { s with dev := e.complete u.origin c none } := by
  show execTrgFire u s = _
  rw [execTrgFire, State.run_eq, Device.unitCmd_comes _ h rfl, hf]

theorem exec_trgSwCtlFire {c : Nat} {e : Device} (hf : s.dev.tSoft (s.dev.fld F.TRG_SW_CFG_UNIT) (s.dev.rdTime Reg.TRG_SW_AT_LO) = (c, e)) :
    exec .trgSwCtlFire s = .next { s with dev := (e.setFld F.TRG_SW_CTL_FIRE 0).setFld F.TRG_SW_STAT_CODE c } := by
  show execTrgSwCtlFire s = _
  rw [execTrgSwCtlFire, State.run_eq, hf]
  rfl

theorem exec_timerTriggerFire (h : n < 64) : exec (.timerTriggerFire n) s = .next { s with dev := s.dev.tTimer n } := by
  show execTimerTriggerFire n s = _
  rw [execTimerTriggerFire, State.run_eq, if_pos h]

/-- An instant of a TIMER unit that has none now changes nothing. -/
theorem exec_timerTriggerFire_none (h : s.dev.tTimer n = s.dev) : exec (.timerTriggerFire n) s = .next s := by
  show execTimerTriggerFire n s = _
  rw [execTimerTriggerFire, State.run_eq, h, ite_self]

end Sys2Proof.Machine
end

section
/-! SUPPORT. The collector's release of a group, and the steps of a sequence whose windows have passed (R223, R225). -/

namespace Sys2Proof.Machine

variable {d : Device}

/-! The collector (R225). -/

theorem Device.releaseOne_empty (h : d.firings = []) : d.releaseOne = d := by
  have none_waits : d.firstFiring = none := by rw [Device.firstFiring, h]; rfl
  simp only [Device.releaseOne, none_waits]

theorem Device.releaseOne_waits {t : Time} (hf : d.firstFiring = some t) (ht : timeLT t d.collected = false) : d.releaseOne = d := by
  simp only [Device.releaseOne, hf, ht]
  rfl

theorem Device.releaseOne_decided {t : Time} (hf : d.firstFiring = some t) (ht : timeLT t d.collected = true) : d.releaseOne =
    let g := d.firings.filter (fun f => decide (f.t = t))
    let us := (g.map (fun f => f.unit)).dedup
    (us.foldl (fun d n => d.injSource 2 n t) (d.groupRelease t g)).casTriggers t us := by
  simp only [Device.releaseOne, hf, ht, if_true]

theorem exec_triggerRelease {s : State} {e x : Device} (he : s.dev.seqsRun s.dev.tAll = e)
    (hx : (e.wrTime Reg.TRG_DECIDED_LO e.collected).releaseOne = x) : exec .triggerRelease s = .next { s with dev := x.tPurge } := by
  subst he hx; rfl

/-! Sequences (R223). -/

variable {n : Nat}

/-- A sequence that has taken every firing of its steps looks at the windows of its steps. -/
theorem Device.seqRun_empty (dec : Time) (fuel : Nat) (h : (d.tunit n).inbox = []) : d.seqRun n dec (fuel + 1) = d.seqExpire n dec := by
  simp only [Device.seqRun, h, firstStep]

theorem Device.seqsRun_armed (hk : sKind (d.tNow n) = 6) (ha : 2 ≤ d.tState n) :
    d.seqsRun [n] = d.seqRun n (d.decided n) ((d.tunit n).inbox.length + 1) :=
  if_pos ⟨hk, .inr ((d.tArmed_iff n).mpr ha)⟩

theorem Device.seqsRun_other (hn : n < 64) (h : sKind (d.tNow n) ≠ 6 ∨ d.tState n < 2) : d.seqsRun [n] = d :=
  if_neg fun ⟨hk, ha⟩ => by
    have := ha.resolve_left (by omega)
    rw [Device.tArmed_iff] at this
    omega

/-! A sequence of two steps has one window, that of its second. -/

section
variable {p dec : Time} (h2 : sSteps (d.tNow n) = 2) (hp : Sparse.get (fun _ => none) (d.tunit n).steps 0 = some p)
include h2 hp

theorem Device.seqExpire_two : d.seqExpire n dec =
    if timeLT (p + sWindow (d.tNow n) 1) dec && !decide (0 ∈ (d.tunit n).used) then
      (d.setTunit n { d.tunit n with steps := Sparse.set (fun _ => none) (d.tunit n).steps 0 none }).flag F.TRG_FLAGS_SEQ_EXPIRED
        Reg.TRG_SEQ_EXP_CNT
    else d := by
  have one : List.range (2 - 1) = [0] := rfl
  simp only [Device.seqExpire, h2, one, List.foldl_cons, List.foldl_nil, hp, Nat.zero_add]

theorem Device.seqExpire_two_passed (ht : timeLT (p + sWindow (d.tNow n) 1) dec = true) (hu : 0 ∉ (d.tunit n).used) :
    d.seqExpire n dec = (d.setTunit n { d.tunit n with steps := Sparse.set (fun _ => none) (d.tunit n).steps 0 none }).flag
      F.TRG_FLAGS_SEQ_EXPIRED Reg.TRG_SEQ_EXP_CNT := by
  rw [Device.seqExpire_two h2 hp, if_pos (by simp [ht, hu])]

theorem Device.seqExpire_two_open (ht : timeLT (p + sWindow (d.tNow n) 1) dec = false) : d.seqExpire n dec = d := by
  rw [Device.seqExpire_two h2 hp, if_neg (by simp [ht])]

end

theorem exec_seqExpired {s : State} (h : n < 64) : exec (.seqExpired n) s = .next { s with dev := s.dev.seqsRun (s.dev.tKeys n) } := by
  show execSeqExpired n s = _
  rw [execSeqExpired, State.run_eq, if_pos h]

end Sys2Proof.Machine
end

section
/-! PROOFS. Arming, disarming and firing trigger units, the collector and the windows of sequences (R216 to R218, R223, R225, R556, R600). -/

namespace Sys2Proof.Machine

/-- Settles O34: ARM, DISARM and FIRE on a device, once for the host's rows and the engine's, then the rows of the device itself. -/
theorem triggerCommands : Obligations.TriggerCommands := by
  intro s n u t host m taken arm disarm soft regs d x next fired e shown
  have arms : ∀ {i d n o}, exec i s = .next { s with dev := d.tArm n o } → arm i d n o := fun {i d n o} h =>
    ⟨fun hc => h.trans (by rw [Device.tArm_accepted o hc]), fun hc hq => h.trans (by rw [Device.tArm_refused o hc hq]), Device.tArmCode_busy⟩
  have disarms : ∀ {i d n t o}, exec i s = .next { s with dev := d.tDisarm n t o } → disarm i d n t o := fun {i d n t o} h =>
    ⟨fun hq => h.trans (by rw [Device.tDisarm_accepted t o hq]), fun hq => h.trans (by rw [Device.tDisarm_busy t o hq])⟩
  have softs : ∀ {i d n t fin}, (∀ {c e}, d.tSoft n t = (c, e) → exec i s = .next { s with dev := fin e c }) → soft i d n t fin :=
    fun {i d n t fin} h => ⟨fun ha hk hr => h (Device.tSoft_fires t ha hk hr), fun ha => h (Device.tSoft_unarmed t ha),
      fun ha hk => h (Device.tSoft_unsupported t ha hk)⟩
  have expires : n < 64 → d.tKeys n = [n] → sKind (d.tNow n) = 6 → 2 ≤ d.tState n → x.inbox = [] →
      exec (.seqExpired n) s = .next { s with dev := d.seqExpire n (d.decided n) } := fun hn hk h6 ha hx => by
    rw [exec_seqExpired hn, hk, Device.seqsRun_armed h6 ha, Device.seqRun_empty _ _ hx]
  refine ⟨fun hn => ⟨arms (exec_trgTCtlArm hn), disarms (exec_trgTCtlDisarm hn)⟩, fun hu hi => arms (exec_trgArm hu hi),
    fun hu hi => exec_trgArm_busy hu hi, fun hu => disarms (exec_trgDisarm hu), fun hu => softs (exec_trgFire hu), softs exec_trgSwCtlFire,
    fun hn hk ha hd => ?_, fun h => exec_timerTriggerFire_none (Device.tTimer_waits h),
    fun h => exec_triggerRelease rfl (Device.releaseOne_empty h), fun hf ht => exec_triggerRelease rfl (Device.releaseOne_waits hf ht),
    fun hf ht => Reaches.of_eq (exec_triggerRelease rfl (Device.releaseOne_decided hf ht)) rfl, expires,
    fun hn hk h6 ha hx h2 p hp => ⟨fun ht hused => ?_, fun ht => ?_⟩, fun hn hk h => ?_⟩
  · rw [Gives, exec_timerTriggerFire hn, Device.tTimer_due hk ha hd]; rfl
  · rw [Gives, expires hn hk h6 ha hx, Device.seqExpire_two_passed h2 hp ht hused]
  · rw [Gives, expires hn hk h6 ha hx, Device.seqExpire_two_open h2 hp ht]; rfl
  · rw [Gives, exec_seqExpired hn, hk, Device.seqsRun_other hn h]; rfl

end Sys2Proof.Machine
end

section
/-! SUPPORT. What ARM, STOP and DISARM of a capture buffer do when they are asked for (R232, R237, R239, R600). -/

namespace Sys2Proof.Machine

variable {d : Device} {n : Nat}

/-! The settings in a buffer's registers (R231, R238). -/

/-- The buffer without the settings of an arming: its registers apply. -/
abbrev Device.capCleared (d : Device) (n : Nat) : Device := d.setCap n { d.cap n with regs := [] }

theorem Device.cap_setCap (d : Device) (n : Nat) (x : Cap) : (d.setCap n x).cap n = x := Sparse.get_set_same _ _ _ _

theorem Device.acReg_capCleared (d : Device) (n i : Nat) : (d.capCleared n).acReg n i = (d.acLive n).getD i 0 := by
  simp only [Device.acReg, Device.capCleared, Device.cap_setCap]
  rfl

/-- A 64-bit setting of a cleared buffer is its register pair. -/
theorem Device.acReg64_capCleared (d : Device) {n i : Nat} (hi : i + 1 < 15) :
    (d.capCleared n).acReg64 n i = d.rd64 (Reg.ACQ_B_CFG n + 4 * i) := by
  have word : ∀ j, j < 15 → (d.capCleared n).acReg n j = d.rdN (Reg.ACQ_B_CFG n + 4 * j) := fun j hj => by
    rw [Device.acReg_capCleared, Device.acLive, List.getD_append _ _ _ _ (by simpa using hj)]
    simp [hj]
  rw [Device.acReg64, word i (by omega), word (i + 1) hi, Device.rd64, Nat.mul_add, Nat.add_assoc]

theorem Device.acSize_capCleared (d : Device) (n : Nat) : (d.capCleared n).acSize n = d.rd64 (Reg.ACQ_B_SIZE_LO n) :=
  (d.acReg64_capCleared (by decide)).trans (by rw [Reg.ACQ_B_CFG, Reg.ACQ_B_SIZE_LO, Nat.add_right_comm])

theorem Device.acBase_capCleared (d : Device) (n : Nat) : (d.capCleared n).acBase n = d.rd64 (Reg.ACQ_B_BASE_LO n) :=
  (d.acReg64_capCleared (by decide)).trans (by rw [Reg.ACQ_B_CFG, Reg.ACQ_B_BASE_LO, Nat.add_right_comm])

theorem Device.acBind_capCleared (d : Device) (n : Nat) : (d.capCleared n).acBind n = d.rd64 (Reg.ACQ_B_BIND_LO n) :=
  (d.acReg64_capCleared (by decide)).trans (by rw [Reg.ACQ_B_CFG, Reg.ACQ_B_BIND_LO, Nat.add_right_comm])

/-! ARM (R232). -/

/-- No check of ARM stands for OK. -/
theorem acCodes_ne_ok {length overlap align region busy unsup : Bool} :
    ∀ p ∈ [(length, cLENGTH), (overlap, cOVERLAP), (align, cALIGN), (region, cREGION), (busy, cBUSY), (unsup, cUNSUP)], p.2 ≠ cOK := by
  simp [cLENGTH, cOVERLAP, cALIGN, cREGION, cBUSY, cUNSUP, cOK]

/-- A ring of no size, or a buffer that binds no unit, is refused with LENGTH, the lowest code. -/
theorem Device.acArmCode_length (h : d.rd64 (Reg.ACQ_B_SIZE_LO n) = 0 ∨ d.rd64 (Reg.ACQ_B_BIND_LO n) = 0) : d.acArmCode n = cLENGTH := by
  rw [← Device.acSize_capCleared, ← Device.acBind_capCleared] at h
  have low : d.acArmCode n ≠ cOK ∧ d.acArmCode n ≤ cLENGTH := by
    simp only [Device.acArmCode]
    exact firstCode_of_mem (by rcases h with h | h <;> simp [h]) acCodes_ne_ok
  simp only [cOK, cLENGTH] at low ⊢
  omega

/-- A ring that does not begin at a page is refused with ALIGN or a lower code. -/
theorem Device.acArmCode_align (h : d.rd64 (Reg.ACQ_B_BASE_LO n) % 4096 ≠ 0) : d.acArmCode n ≠ cOK ∧ d.acArmCode n ≤ cALIGN := by
  rw [← Device.acBase_capCleared] at h
  simp only [Device.acArmCode]
  exact firstCode_of_mem (by simp [h]) acCodes_ne_ok

theorem Device.acArm_accepted (o : Origin) (h : d.acArmCode n = cOK) : d.acArm n o =
    (((d.setCap n { d.cap n with regs := d.acLive n }).request .acqArm n (d.rdTime (Reg.ACQ_B_AT_LO n)) o [d.acState n]).actBit o
      (F.ACQ_B_CTL_ARM n)).setFld (F.ACQ_B_STAT_STATE n) 1 := if_pos h

theorem Device.acArm_refused (o : Origin) (h : d.acArmCode n ≠ cOK) (hq : d.hasReq [.acqArm] n = false) :
    d.acArm n o = d.finish o (F.ACQ_B_CTL_ARM n) (F.ACQ_B_STAT_CODE n) (d.acArmCode n) none := by
  rw [Device.acArm, if_neg h, if_neg (by rw [hq]; decide)]
  rfl

/-! STOP (R237). -/

/-- The states in which a capture runs: it stores, or its records wait. -/
abbrev Device.acRuns (d : Device) (n : Nat) : Prop := d.acState n = 2 ∨ d.acState n = 3 ∨ d.acState n = 4

theorem Device.acStop_accepted (t : Time) (o : Origin) (hq : d.hasReq [.acqStop] n = false) (hs : d.acRuns n) :
    d.acStop n t o = (d.request .acqStop n t o []).actBit o (F.ACQ_B_CTL_STOP n) := by
  have runs : ∀ k, k = 2 ∨ k = 3 ∨ k = 4 → firstCode [(false, cBUSY),
      (decide (k = acOff) || decide (k = acPending) || decide (k = acDone), cNOTARMED)] = cOK := by
    rintro _ (rfl | rfl | rfl) <;> rfl
  rw [Device.acStop, hq, if_pos (runs _ hs)]

theorem Device.acStop_notArmed (t : Time) (o : Origin) (hq : d.hasReq [.acqStop] n = false)
    (hs : d.acState n = 0 ∨ d.acState n = 1 ∨ d.acState n = 5) :
    d.acStop n t o = d.finish o (F.ACQ_B_CTL_STOP n) (F.ACQ_B_STAT_CODE n) cNOTARMED none := by
  have rests : ∀ k, k = 0 ∨ k = 1 ∨ k = 5 → firstCode [(false, cBUSY),
      (decide (k = acOff) || decide (k = acPending) || decide (k = acDone), cNOTARMED)] = cNOTARMED := by
    rintro _ (rfl | rfl | rfl) <;> rfl
  simp only [Device.acStop, hq, rests _ hs]
  rfl

theorem Device.acStop_busy (t : Time) (o : Origin) (hq : d.hasReq [.acqStop] n = true) :
    d.acStop n t o = (d.setFld (F.ACQ_B_STAT_CODE n) cBUSY).complete o cBUSY none := by
  have lowest : ∀ b, firstCode [(true, cBUSY), (b, cNOTARMED)] = cBUSY := by decide
  simp only [Device.acStop, hq, lowest]
  rfl

/-! DISARM (R239). -/

/-- The buffer goes to OFF, no longer frozen, and its requester gets OK. -/
def Device.acToOff (d : Device) (n : Nat) (o : Origin) : Device :=
  (((d.setCap n { d.cap n with regs := [] }).setFld (F.ACQ_B_STAT_STATE n) 0).setFld (F.ACQ_B_STAT_FROZEN n) 0).finish o
    (F.ACQ_B_CTL_DISARM n) (F.ACQ_B_STAT_CODE n) cOK none

theorem Device.acDisarm_busy (o : Origin) (hs : d.acRuns n) :
    d.acDisarm n o = d.finish o (F.ACQ_B_CTL_DISARM n) (F.ACQ_B_STAT_CODE n) cBUSY none := if_pos hs

theorem Device.acDisarm_idle (o : Origin) (hs : ¬d.acRuns n) : d.acDisarm n o = (d.acCancel n).acToOff n o := if_neg hs

theorem Device.acCancel_none (hq : d.hasReq [.acqArm] n = false) : d.acCancel n = d := by
  rw [Device.acCancel, Device.find_reqs_none hq]

theorem Device.acCancel_pending {r : BReq} (hr : (d.reqs .acqArm).find? (fun r => decide (r.obj = n)) = some r) :
    d.acCancel n = ((d.dropReq .acqArm n).setFld (F.ACQ_B_CTL_ARM n) 0).complete r.origin cNOTARMED none := by
  rw [Device.acCancel, hr]

/-! The rows. -/

variable {s : State} {u : UCmd}

theorem exec_acqBCtlArm (h : n < 64) : exec (.acqBCtlArm n) s = .next { s with dev := s.dev.acArm n .host } := by
  show execAcqBCtlArm n s = _
  rw [execAcqBCtlArm, State.run_eq, if_pos h]

theorem exec_acqBCtlStop (h : n < 64) :
    exec (.acqBCtlStop n) s = .next { s with dev := s.dev.acStop n (s.dev.rdTime (Reg.ACQ_B_AT_LO n)) .host } := by
  show execAcqBCtlStop n s = _
  rw [execAcqBCtlStop, State.run_eq, if_pos h]

theorem exec_acqBCtlDisarm (h : n < 64) : exec (.acqBCtlDisarm n) s = .next { s with dev := s.dev.acDisarm n .host } := by
  show execAcqBCtlDisarm n s = _
  rw [execAcqBCtlDisarm, State.run_eq, if_pos h]

/-- ARM of an engine writes the registers of a buffer that is OFF or DONE only (R600). -/
theorem exec_acqArm (h : s.dev.comes 8 1 64 u) (hi : (s.dev.accept u).acState u.unit = 0 ∨ (s.dev.accept u).acState u.unit = 5) :
    exec (.acqArm u) s = .next { s with dev :=
      ((s.dev.accept u).wrBlock u ((List.range 15).map (fun i => (Reg.ACQ_B_CFG u.unit + 4 * i, 4 * i)))).acArm u.unit u.origin } := by
  show execAcqArm u s = _
  rw [execAcqArm]
  exact State.run_of_eq ((Device.unitCmd_comes _ h rfl).trans (if_pos hi))

theorem exec_acqArm_busy (h : s.dev.comes 8 1 64 u) (h0 : (s.dev.accept u).acState u.unit ≠ 0) (h5 : (s.dev.accept u).acState u.unit ≠ 5) :
    exec (.acqArm u) s = .next { s with dev := (s.dev.accept u).complete u.origin cBUSY none } := by
  show execAcqArm u s = _
  rw [execAcqArm]
  exact State.run_of_eq ((Device.unitCmd_comes _ h rfl).trans (if_neg (not_or.mpr ⟨h0, h5⟩)))

theorem exec_acqStop (h : s.dev.comes 8 2 64 u) :
    exec (.acqStop u) s = .next { s with dev := (s.dev.accept u).acStop u.unit (BitVec.ofNat 64 (u.dword 0)) u.origin } := by
  show execAcqStop u s = _
  rw [execAcqStop, State.run_eq, Device.unitCmd_comes _ h rfl]

theorem exec_acqDisarm (h : s.dev.comes 8 3 64 u) :
    exec (.acqDisarm u) s = .next { s with dev := (s.dev.accept u).acDisarm u.unit u.origin } := by
  show execAcqDisarm u s = _
  rw [execAcqDisarm, State.run_eq, Device.unitCmd_comes _ h rfl]

end Sys2Proof.Machine
end

section
/-! SUPPORT. What a capture does of itself: the return of its factor, the end of its span, and the push of a waiting record (R236, R240, R244). -/

namespace Sys2Proof.Machine

variable {s : State} {n : Nat}

/-! The factor (R240). -/

theorem exec_returnHoldExpire {t : Time} (hn : n < 64) (hl : (s.dev.cap n).lowSince = some t)
    (ht : timeLE (t + nsTime (s.dev.rdN Reg.ACQ_RETURN_HOLD)) s.dev.time = true) (hf : 0 < s.dev.fld (F.ACQ_B_STAT_FACTOR n))
    (hq : s.dev.hasReq [.acqFactor] n = false) :
    exec (.returnHoldExpire n) s = .next { s with dev := s.dev.request .acqFactor n s.dev.time .device [] } := by
  show execReturnHoldExpire n s = _
  rw [execReturnHoldExpire]
  refine State.run_of_eq ?_
  simp only [hl]
  exact if_pos ⟨hn, ht, hf, by rw [hq]; rfl⟩

theorem exec_returnHoldExpire_none (h : (s.dev.cap n).lowSince = none ∨ s.dev.fld (F.ACQ_B_STAT_FACTOR n) = 0) :
    exec (.returnHoldExpire n) s = .next s := by
  show execReturnHoldExpire n s = _
  rw [execReturnHoldExpire]
  refine State.run_of_eq ?_
  cases hl : (s.dev.cap n).lowSince with
  | none => rfl
  | some t =>
    have hf := h.resolve_left (by rw [hl]; exact Option.some_ne_none t)
    exact if_neg fun ⟨_, _, h0, _⟩ => by omega

/-! The end of a span (R236). -/

theorem exec_captureSpanEnd {l : Int} (hn : n < 64) (hl : (s.dev.cap n).lastJ = some l) (hs : s.dev.acState n = 3)
    (hj : l < ((s.dev.cap n).tape.length : Nat)) : exec (.captureSpanEnd n) s = .next { s with dev := s.dev.acSpanDone n } := by
  show execCaptureSpanEnd n s = _
  rw [execCaptureSpanEnd]
  refine State.run_of_eq ?_
  simp only [hl]
  exact if_pos ⟨hn, hs, hj⟩

/-- A span without an end, or one that has not come to its end in POST, goes on. -/
theorem exec_captureSpanEnd_none
    (h : ∀ l, (s.dev.cap n).lastJ = some l → s.dev.acState n ≠ 3 ∨ ((s.dev.cap n).tape.length : Nat) ≤ l) :
    exec (.captureSpanEnd n) s = .next s := by
  show execCaptureSpanEnd n s = _
  rw [execCaptureSpanEnd]
  refine State.run_of_eq ?_
  cases hl : (s.dev.cap n).lastJ with
  | none => simp only [hl]
  | some l =>
    simp only [hl]
    refine if_neg fun ⟨_, hs, hj⟩ => ?_
    exact (h l hl).elim (fun hne => hne hs) (fun hle => absurd hj (by omega))

theorem Device.acSpanDone_segments {d : Device} (h : d.acStream n = false) : d.acSpanDone n =
    let y := d.segRecords n (d.acRQueue n) (decide ((d.cap n).cause = 2)) 0 (runsOf (d.cap n).span)
    (y.acQueueRec n (d.acRQueue n) (y.endRecord n (y.acTrigger n))).acDoneNow n := by
  rw [Device.acSpanDone, if_neg (by rw [h]; decide)]

theorem Device.acSpanDone_stream {d : Device} (h : d.acStream n = true) : d.acSpanDone n =
    ((d.acChunk n true ((d.cap n).span.length + 1)).acQueueRec n (d.acRQueue n) []).setFld (F.ACQ_B_STAT_STATE n) 4 := if_pos h

/-! The push of a record (R244). -/

/-- Slots that leave the chip change no register. -/
theorem Device.regs_qSettle (d : Device) (q : Nat) : (d.qSettle q).regs = d.regs := by
  refine List.foldlRecOn (motive := fun e : Device => e.regs = d.regs) _ _ rfl fun e he kv _ => ?_
  dsimp only
  split
  · exact he
  · split
    · split <;> exact he
    · exact he

/-- A record that a queue accepts changes the registers of its sequence number and of the records pushed alone. -/
theorem Device.fld_qAccept (d : Device) {q : Nat} (bs : List Byte) (slots cls unit : Nat) {x : FieldAt} (h : x.addr ≠ Reg.QUE_Q_SEQ q)
    (h' : x.addr ≠ Reg.QUE_Q_PUSHED_LO q) (h'' : x.addr ≠ Reg.QUE_Q_PUSHED_LO q + 4) :
    (d.qAccept q bs slots cls unit).fld x = d.fld x := by
  have settled : ∀ d : Device, (d.qSettle q).fld x = d.fld x := fun d => by
    simp only [Device.fld, Device.rdN, Device.rd, Device.regs_qSettle]
  rw [Device.qAccept, settled, Device.fld_add64_other _ _ h' h'', Device.fld, Device.rdN_wr_other _ _ _ _ h]
  rfl

/-- The state of a buffer and the registers of a queue lie apart: their blocks have the same grid of 64 bytes. -/
theorem Device.acState_qAccept (d : Device) (q n : Nat) (bs : List Byte) (slots cls unit : Nat) :
    (d.qAccept q bs slots cls unit).acState n = d.acState n := by
  refine d.fld_qAccept bs slots cls unit ?_ ?_ ?_ <;>
    simp only [F.ACQ_B_STAT_STATE, Reg.ACQ_B_STAT, Reg.QUE_Q_SEQ, Reg.QUE_Q_PUSHED_LO] <;> omega

/-- The bytes of a waiting record: a CAPTURE_END record of a STREAM capture is made when it is pushed. -/
def Device.capOut (d : Device) (n : Nat) (bytes : List Byte) : List Byte :=
  if bytes = [] then d.endRecord n (d.acTrigger n) else bytes

/-- The samples that a record carries: those of a DATA record. -/
def dataSamples (out : List Byte) : Nat := if (out.getD 0 0).toNat = 0x15 then ofBytesLE ((out.drop 40).take 4) else 0

/-- A waiting record is in queue `q`, and the records `rs` wait still. -/
def Device.capPushed (d : Device) (n q : Nat) (out : List Byte) (rs : List (Nat × List Byte)) : Device :=
  (d.qAccept q out (slotsOf out.length) 0x08 n).setCap n { d.cap n with recs := rs, sentN := (d.cap n).sentN + dataSamples out }

theorem Device.acState_capPushed (d : Device) (n q : Nat) (out : List Byte) (rs : List (Nat × List Byte)) :
    (d.capPushed n q out rs).acState n = d.acState n := d.acState_qAccept q n _ _ _ _

section
variable {q : Nat} {bytes : List Byte} {rs : List (Nat × List Byte)} (h : (s.dev.cap n).recs = (q, bytes) :: rs)
include h

theorem exec_captureRecordPush_room (hq : s.dev.qRoom q (slotsOf (s.dev.capOut n bytes).length) = true) :
    exec (.captureRecordPush n) s = .next { s with
      dev := if rs = [] ∧ s.dev.acState n = 4 then (s.dev.capPushed n q (s.dev.capOut n bytes) rs).acDoneNow n
        else s.dev.capPushed n q (s.dev.capOut n bytes) rs } := by
  show execCaptureRecordPush n s = _
  rw [execCaptureRecordPush]
  refine State.run_of_eq ?_
  simp only [h, decide_eq_true_eq, Bool.and_eq_true, List.isEmpty_iff]
  have same_state : (s.dev.capPushed n q (s.dev.capOut n bytes) rs).acState n = acDrain ↔ s.dev.acState n = 4 := by
    rw [Device.acState_capPushed]; rfl
  exact (if_pos hq).trans (if_congr (and_congr_right' same_state) rfl rfl)

theorem exec_captureRecordPush_full (hq : s.dev.qRoom q (slotsOf (s.dev.capOut n bytes).length) = false) :
    exec (.captureRecordPush n) s = .next s := by
  show execCaptureRecordPush n s = _
  rw [execCaptureRecordPush]
  refine State.run_of_eq ?_
  simp only [h]
  exact if_neg (Bool.eq_false_iff.mp hq)

end

theorem exec_captureRecordPush_none (h : (s.dev.cap n).recs = []) : exec (.captureRecordPush n) s = .next s := by
  show execCaptureRecordPush n s = _
  rw [execCaptureRecordPush]
  refine State.run_of_eq ?_
  simp only [h]

end Sys2Proof.Machine
end

section
/-! PROOFS. Arming, stopping, disarming and ending captures (R232, R236, R237, R239, R240, R244, R600). -/

namespace Sys2Proof.Machine

/-- Settles O35: ARM, STOP and DISARM on a device, once for the host's rows and the engine's, then the rows of the device itself. -/
theorem captureCommands : Obligations.CaptureCommands := by
  intro s n u t l q bytes rs host m taken arm stop off disarm d x out data pushed
  have arms : ∀ {i d n o}, exec i s = .next { s with dev := d.acArm n o } → arm i d n o := fun {i d n o} h =>
    ⟨fun hc => h.trans (by rw [Device.acArm_accepted o hc]), fun hc hq => h.trans (by rw [Device.acArm_refused o hc hq]),
      Device.acArmCode_length, Device.acArmCode_align⟩
  have stops : ∀ {i d n t o}, exec i s = .next { s with dev := d.acStop n t o } → stop i d n t o := fun {i d n t o} h =>
    ⟨fun hq hs => h.trans (by rw [Device.acStop_accepted t o hq hs]), fun hq hs => h.trans (by rw [Device.acStop_notArmed t o hq hs]),
      fun hq => h.trans (by rw [Device.acStop_busy t o hq])⟩
  have disarms : ∀ {i d n o}, exec i s = .next { s with dev := d.acDisarm n o } → disarm i d n o := fun {i d n o} h =>
    ⟨fun hs => h.trans (by rw [Device.acDisarm_busy o hs]),
      fun hs hq => h.trans (by rw [Device.acDisarm_idle o (by omega), Device.acCancel_none hq]; rfl),
      fun r hs hr => h.trans (by rw [Device.acDisarm_idle o (by omega), Device.acCancel_pending hr]; rfl)⟩
  refine ⟨fun hn => ⟨arms (exec_acqBCtlArm hn), stops (exec_acqBCtlStop hn), disarms (exec_acqBCtlDisarm hn)⟩,
    fun hu hi => arms (exec_acqArm hu hi), exec_acqArm_busy, fun hu => stops (exec_acqStop hu), fun hu => disarms (exec_acqDisarm hu),
    exec_returnHoldExpire, exec_returnHoldExpire_none,
    fun hn hl hs hj => ⟨fun hm => (exec_captureSpanEnd hn hl hs hj).trans (by rw [Device.acSpanDone_segments hm]),
      fun hm => (exec_captureSpanEnd hn hl hs hj).trans (by rw [Device.acSpanDone_stream hm])⟩,
    fun hl => exec_captureSpanEnd_none fun k hk => absurd (hl.symm.trans hk) (Option.some_ne_none k).symm,
    fun hl h => exec_captureSpanEnd_none fun k hk => Option.some.inj (hl.symm.trans hk) ▸ h,
    exec_captureRecordPush_none, fun hr hq => ⟨fun h => ?_, fun h0 h4 => ?_⟩, fun hr hq => exec_captureRecordPush_full hr hq⟩
  · exact (exec_captureRecordPush_room hr hq).trans (by rw [if_neg fun ⟨h0, h4⟩ => h.elim (absurd h0) (absurd h4)]; rfl)
  · exact (exec_captureRecordPush_room hr hq).trans (by rw [if_pos ⟨h0, h4⟩]; rfl)

end Sys2Proof.Machine
end

section
/-! SUPPORT. What an engine fault leaves, and when fetching faults (R271, R299, R308). -/

namespace Sys2Proof.Machine

variable {d : Device} {s : State} {e : Nat}

/-! Events for an engine (R263, R264). -/

/-- Flags and counters are no part of an engine. -/
@[simp] theorem Device.eng_flag (d : Device) (x : FieldAt) (cnt j : Nat) : (d.flag x cnt).eng j = d.eng j := rfl

/-- An engine that is not VACANT queues an entry while its queue has room. -/
theorem Device.notify_queues (entry : Nat) (hv : (d.eng e).state ≠ 4) (hq : (d.eng e).evq.length < 256) :
    d.notify e entry = d.setEng e { d.eng e with evq := (d.eng e).evq ++ [entry] } :=
  (if_neg hv).trans (if_pos hq)

/-! Faults (R271). -/

/-- A fault of another engine, where the lead engine takes the ALARM entry. -/
theorem Device.engFault_alarm (c : Nat) (he : e ≠ 0) (hv : (d.eng 0).state ≠ 4) (hq : (d.eng 0).evq.length < 256) :
    d.engFault e c = ((d.setEng e { d.eng e with state := 3, cause := c }).flag (F.CL_FLAGS_FAULT (e / 16))
      (Reg.CL_FAULT_CNT (e / 16))).setEng 0 { d.eng 0 with evq := (d.eng 0).evq ++ [evEntry 21 e c (d.eng e).pc] } := by
  have lead : ((d.setEng e { d.eng e with state := 3, cause := c }).flag (F.CL_FLAGS_FAULT (e / 16))
      (Reg.CL_FAULT_CNT (e / 16))).eng 0 = d.eng 0 := by rw [Device.eng_flag, Device.eng_setEng_other _ _ _ _ he.symm]
  rw [Device.engFault, Device.alarm, Device.notify_queues _ (lead ▸ hv) (lead ▸ hq), lead]

/-- The lead engine finds the ALARM entry, the engine is in FAULT at the instruction, and device memory is untouched. -/
theorem Device.engFault_leaves (c : Nat) (he : e ≠ 0) (hv : (d.eng 0).state ≠ 4) (hq : (d.eng 0).evq.length < 256) :
    ((d.engFault e c).eng 0).evq = (d.eng 0).evq ++ [evEntry 21 e c (d.eng e).pc] ∧
      ((d.engFault e c).eng e).state = 3 ∧ ((d.engFault e c).eng e).cause = c ∧ ((d.engFault e c).eng e).pc = (d.eng e).pc ∧
      (d.engFault e c).mem = d.mem := by
  rw [Device.engFault_alarm c he hv hq, Device.eng_setEng, Device.eng_setEng_other _ _ _ _ he, Device.eng_flag, Device.eng_setEng]
  exact ⟨rfl, rfl, rfl, rfl, rfl⟩

/-! The rows (R299, R308). -/

theorem exec_illegalEncoding (hi : s.dev.issues e = true) (hp : s.dev.fetchPast e = false) (hf : s.dev.fetched e = none) :
    exec (.illegalEncoding e) s = .next { s with dev := s.dev.engFault e 1 } := by
  show execIllegalEncoding e s = _
  rw [execIllegalEncoding]
  exact State.run_of_eq (if_pos (by rw [hi, hp, hf]; rfl))

theorem exec_fetchRange (hi : s.dev.issues e = true) (hp : s.dev.fetchPast e = true) :
    exec (.fetchRange e) s = .next { s with dev := s.dev.engFault e 2 } := by
  show execFetchRange e s = _
  rw [execFetchRange]
  exact State.run_of_eq (if_pos (by rw [hi, hp]; rfl))

end Sys2Proof.Machine
end

section
/-! SUPPORT. Who executes a test-only instruction, and what a physical engine in test reads and writes (R325). -/

namespace Sys2Proof.Machine

variable {d : Device} {s : State} {e g p : Nat} {i : Instr} {touch : List Nat} {phys : Option Nat}

/-! Who executes a test-only instruction. -/

/-- The controller has a unit in TEST in test. -/
theorem Device.inTest_of_state (hp : p < 544) (h : d.fld (F.ROT_U_STAT_STATE p) = 3) : d.inTest p = true := by
  simp [Device.inTest, hp, h]

/-- An engine that is not in test, as every logical engine, faults with TEST_ONLY. -/
theorem Device.testOnly_fault (f : Device → Nat → Device) (hi : d.issuesNow e i 1 touch) (ht : ∀ p, phys = some p → d.inTest p = false) :
    d.testOnly e i touch phys f = d.engFault e 10 := by
  cases phys with
  | none => exact Device.issue_fault (f := fun _ => .error 10) hi rfl
  | some p =>
    exact (if_neg (by rw [ht p rfl]; exact Bool.false_ne_true)).trans (Device.issue_fault (f := fun _ => .error 10) hi rfl)

theorem Device.testOnly_inTest (f : Device → Nat → Device) (ht : d.inTest p = true) (hi : i.disoexOk = true) :
    d.testOnly e i touch (some p) f = f d p := if_pos (by rw [ht, hi]; rfl)

/-! Self-test units. -/

theorem Device.testUnit_setTestUnit (d : Device) (p : Nat) (x : TestUnit) : (d.setTestUnit p x).testUnit p = x := Sparse.get_set_same _ _ _ _

theorem Device.testUnit_setTestUnit_other (d : Device) {p q : Nat} (x : TestUnit) (h : q ≠ p) :
    (d.setTestUnit p x).testUnit q = d.testUnit q := Sparse.get_set_other _ _ _ _ _ h

/-- What a unit is known to hold in a g register: g0 holds zero, and a register that the test has neither written nor read is not known. -/
def TestUnit.held (u : TestUnit) (j : Nat) : Option Word := if j = 0 then some 0 else Sparse.get (fun _ => none) u.g j

theorem TestUnit.held_zero (u : TestUnit) : u.held 0 = some 0 := if_pos rfl

theorem TestUnit.held_of_ne_zero (u : TestUnit) {j : Nat} (h : j ≠ 0) : u.held j = Sparse.get (fun _ => none) u.g j := if_neg h

/-- Between `d` and `d'` nothing changes but the self-test unit of `p`, which keeps all that is known of its registers, and the values drawn. -/
def Device.OnlyTest (d d' : Device) (p : Nat) : Prop :=
  d' = { d with tests := d'.tests, freeCount := d'.freeCount } ∧ (∀ q, q ≠ p → d'.testUnit q = d.testUnit q) ∧
    ∀ j v, (d.testUnit p).held j = some v → (d'.testUnit p).held j = some v

theorem Device.OnlyTest.refl (d : Device) (p : Nat) : d.OnlyTest d p := ⟨rfl, fun _ _ => rfl, fun _ _ h => h⟩

theorem Device.OnlyTest.keeps {d' : Device} (h : d.OnlyTest d' p) {j : Nat} {v : Word} (hj : (d.testUnit p).held j = some v) :
    (d'.testUnit p).held j = some v := by
  obtain ⟨-, -, hg⟩ := h
  exact hg j v hj

theorem Device.OnlyTest.trans {d₁ d₂ d₃ : Device} (h : d₁.OnlyTest d₂ p) (k : d₂.OnlyTest d₃ p) : d₁.OnlyTest d₃ p := by
  obtain ⟨hd, hu, hg⟩ := h
  obtain ⟨kd, ku, kg⟩ := k
  exact ⟨kd.trans (by rw [hd]), fun q hq => (ku q hq).trans (hu q hq), fun j v hj => kg j v (hg j v hj)⟩

/-- A unit is written whose registers hold all that was known. -/
theorem Device.OnlyTest.setTestUnit (d : Device) {x : TestUnit} (h : ∀ j v, (d.testUnit p).held j = some v → x.held j = some v) :
    d.OnlyTest (d.setTestUnit p x) p :=
  ⟨rfl, fun _ hq => d.testUnit_setTestUnit_other x hq, fun j v hj => by rw [Device.testUnit_setTestUnit]; exact h j v hj⟩

/-- A unit is written with the registers that it has. -/
theorem Device.OnlyTest.setTestUnit_same (d : Device) {x : TestUnit} (h : x.g = (d.testUnit p).g) : d.OnlyTest (d.setTestUnit p x) p :=
  .setTestUnit d fun j v hj => by rw [TestUnit.held, h]; exact hj

/-! Reading a register in test. -/

/-- A known register reads as it is, and nothing changes. -/
theorem Device.testG_known {j : Nat} {v : Word} (h : (d.testUnit p).held j = some v) : d.testG p j = (v, d) := by
  by_cases h0 : j = 0
  · subst h0
    rw [TestUnit.held_zero] at h
    cases h
    rfl
  · rw [TestUnit.held_of_ne_zero _ h0] at h
    rw [Device.testG, if_neg h0, h]

/-- An unknown register reads as a value drawn, and is known from then on. -/
theorem Device.testG_unknown {j : Nat} (h : (d.testUnit p).held j = none) :
    d.testG p j = (BitVec.ofNat 32 d.draw.1, d.draw.2.setTestUnit p
      { d.testUnit p with g := Sparse.set (fun _ => none) (d.testUnit p).g j (some (BitVec.ofNat 32 d.draw.1)) }) := by
  have h0 : j ≠ 0 := fun h0 => by rw [h0, TestUnit.held_zero] at h; cases h
  rw [TestUnit.held_of_ne_zero _ h0] at h
  rw [Device.testG, if_neg h0, h]

/-- Learning a register that was not known keeps all that was. -/
theorem TestUnit.held_learn (u : TestUnit) {j k : Nat} {v w : Word} (hj : u.held j = none) (hk : u.held k = some w) :
    TestUnit.held { u with g := Sparse.set (fun _ => none) u.g j (some v) } k = some w := by
  have ne : k ≠ j := fun h => by rw [h, hj] at hk; cases hk
  rw [← hk, TestUnit.held, TestUnit.held, Sparse.get_set_other _ _ _ _ _ ne]

/-- Reading a register changes nothing that is known, neither the pattern generator nor the signature; a known register reads as it is. -/
theorem Device.testG_reads (d : Device) (p j : Nat) :
    d.OnlyTest (d.testG p j).2 p ∧ ((d.testG p j).2.testUnit p).prpg = (d.testUnit p).prpg ∧
      ((d.testG p j).2.testUnit p).misr = (d.testUnit p).misr ∧ ∀ w, (d.testUnit p).held j = some w → (d.testG p j).1 = w := by
  cases h : (d.testUnit p).held j with
  | some v =>
    rw [Device.testG_known h]
    exact ⟨.refl d p, rfl, rfl, fun w hw => Option.some.inj hw⟩
  | none =>
    have drawn : d.OnlyTest d.draw.2 p := ⟨rfl, fun _ _ => rfl, fun _ _ h => h⟩
    rw [Device.testG_unknown h, Device.testUnit_setTestUnit]
    exact ⟨drawn.trans (.setTestUnit _ fun k w hk => (d.testUnit p).held_learn h hk), rfl, rfl, nofun⟩

/-! Writing a register in test. -/

/-- A unit with a value written to a g register; a write of g0 is discarded (R280). -/
def TestUnit.put (u : TestUnit) (j v : Nat) : TestUnit :=
  { u with g := if j = 0 then u.g else Sparse.set (fun _ => none) u.g j (some (BitVec.ofNat 32 v)) }

theorem TestUnit.held_put (u : TestUnit) (j v : Nat) {k : Nat} (hk : k ≠ 0) :
    (u.put j v).held k = if k = j then some (BitVec.ofNat 32 v) else u.held k := by
  rw [TestUnit.held_of_ne_zero _ hk, TestUnit.held_of_ne_zero _ hk, TestUnit.put]
  by_cases hj : j = 0
  · rw [if_pos hj, if_neg (hj ▸ hk)]
  · rw [if_neg hj, Sparse.get_set]

/-! The rows. -/

/-- TPRPG loads the pattern seed from a pair of registers. -/
def Device.tprpg (d : Device) (g p : Nat) : Device :=
  ((d.testG p g).2.testG p (g + 1)).2.setTestUnit p { ((d.testG p g).2.testG p (g + 1)).2.testUnit p with
    prpg := (d.testG p g).1.toNat + ((d.testG p g).2.testG p (g + 1)).1.toNat * 2 ^ 32 }

/-- TSCAN folds the patterns that a register counts into the signature. -/
def Device.tscan (d : Device) (g p : Nat) : Device :=
  (d.testG p g).2.setTestUnit p { (d.testG p g).2.testUnit p with
    misr := Config.scanSignature ((d.testG p g).2.testUnit p).prpg ((d.testG p g).2.testUnit p).misr (d.testG p g).1.toNat }

/-- TMISR writes the signature to a pair of registers. -/
def Device.tmisr (d : Device) (g p : Nat) : Device :=
  d.setTestUnit p (((d.testUnit p).put g (d.testUnit p).misr).put (g + 1) ((d.testUnit p).misr / 2 ^ 32))

theorem exec_tprpg (e g : Nat) (phys : Option Nat) (s : State) : exec (.tprpg e g phys) s =
    .next { s with dev := s.dev.testOnly e (.tprpg e g phys) [g, g + 1] phys (fun d p => d.tprpg g p) } := rfl

theorem exec_tscan (e g : Nat) (phys : Option Nat) (s : State) : exec (.tscan e g phys) s =
    .next { s with dev := s.dev.testOnly e (.tscan e g phys) [g] phys (fun d p => d.tscan g p) } := rfl

theorem exec_tmisr (e g : Nat) (phys : Option Nat) (s : State) : exec (.tmisr e g phys) s =
    .next { s with dev := s.dev.testOnly e (.tmisr e g phys) [g, g + 1] phys (fun d p => d.tmisr g p) } := rfl

theorem faults_tprpg (ht : ∀ p, phys = some p → s.dev.inTest p = false) (hi : s.dev.issuesNow e (.tprpg e g phys) 1 [g, g + 1]) :
    Faults (.tprpg e g phys) s e 10 := by rw [Faults, Gives, exec_tprpg, Device.testOnly_fault _ hi ht]

theorem faults_tscan (ht : ∀ p, phys = some p → s.dev.inTest p = false) (hi : s.dev.issuesNow e (.tscan e g phys) 1 [g]) :
    Faults (.tscan e g phys) s e 10 := by rw [Faults, Gives, exec_tscan, Device.testOnly_fault _ hi ht]

theorem faults_tmisr (ht : ∀ p, phys = some p → s.dev.inTest p = false) (hi : s.dev.issuesNow e (.tmisr e g phys) 1 [g, g + 1]) :
    Faults (.tmisr e g phys) s e 10 := by rw [Faults, Gives, exec_tmisr, Device.testOnly_fault _ hi ht]

/-- The seed is what the pair reads as, and the signature stays. -/
theorem Device.tprpg_leaves (d : Device) (g p : Nat) : d.OnlyTest (d.tprpg g p) p ∧ ∃ lo hi : Word,
    (∀ w, (d.testUnit p).held g = some w → lo = w) ∧ (∀ w, (d.testUnit p).held (g + 1) = some w → hi = w) ∧
    ((d.tprpg g p).testUnit p).misr = (d.testUnit p).misr ∧ ((d.tprpg g p).testUnit p).prpg = lo.toNat + hi.toNat * 2 ^ 32 := by
  obtain ⟨only₁, -, misr₁, reads₁⟩ := d.testG_reads p g
  obtain ⟨only₂, -, misr₂, reads₂⟩ := (d.testG p g).2.testG_reads p (g + 1)
  have unit : (d.tprpg g p).testUnit p = _ := Device.testUnit_setTestUnit _ p _
  exact ⟨(only₁.trans only₂).trans (.setTestUnit_same _ rfl), _, _, reads₁, fun w hw => reads₂ w (only₁.keeps hw),
    (congrArg TestUnit.misr unit).trans (misr₂.trans misr₁), congrArg TestUnit.prpg unit⟩

/-- The signature folds the patterns in, and the seed stays. -/
theorem Device.tscan_leaves (d : Device) (g p : Nat) : d.OnlyTest (d.tscan g p) p ∧ ∃ n : Word,
    (∀ w, (d.testUnit p).held g = some w → n = w) ∧ ((d.tscan g p).testUnit p).prpg = (d.testUnit p).prpg ∧
    ((d.tscan g p).testUnit p).misr = Config.scanSignature (d.testUnit p).prpg (d.testUnit p).misr n.toNat := by
  obtain ⟨only, prpg, misr, reads⟩ := d.testG_reads p g
  have unit : (d.tscan g p).testUnit p = _ := Device.testUnit_setTestUnit _ p _
  exact ⟨only.trans (.setTestUnit_same _ rfl), _, reads, (congrArg TestUnit.prpg unit).trans prpg,
    (congrArg TestUnit.misr unit).trans (by rw [prpg, misr])⟩

/-- The pair holds the signature; every other register, the seed and the signature stay. -/
theorem Device.tmisr_leaves (d : Device) (g p : Nat) :
    d.tmisr g p = { d with tests := (d.tmisr g p).tests } ∧ (∀ q, q ≠ p → (d.tmisr g p).testUnit q = d.testUnit q) ∧
    ((d.tmisr g p).testUnit p).prpg = (d.testUnit p).prpg ∧ ((d.tmisr g p).testUnit p).misr = (d.testUnit p).misr ∧
    ∀ j, j ≠ 0 → ((d.tmisr g p).testUnit p).held j = if j = g + 1 then some (BitVec.ofNat 32 ((d.testUnit p).misr / 2 ^ 32))
      else if j = g then some (BitVec.ofNat 32 (d.testUnit p).misr) else (d.testUnit p).held j := by
  have unit : (d.tmisr g p).testUnit p = _ := d.testUnit_setTestUnit p _
  refine ⟨rfl, fun q hq => d.testUnit_setTestUnit_other _ hq, by rw [unit]; rfl, by rw [unit]; rfl, fun j hj => ?_⟩
  rw [unit, TestUnit.held_put _ _ _ hj, TestUnit.held_put _ _ _ hj]

end Sys2Proof.Machine
end

section
/-! PROOFS. Illegal encodings, the end of program memory, and the test-only instructions (R271, R299, R308, R325). -/

namespace Sys2Proof.Machine

/-- Settles O19, clause by clause: the faults of fetching and what a fault leaves, then the test-only instructions outside a test and within one. -/
theorem refusedInstructions : Obligations.RefusedInstructions := by
  refine ⟨fun s e => ⟨exec_illegalEncoding, exec_fetchRange, fun _ he => Device.engFault_leaves _ he⟩,
    fun s e g p => ⟨Device.inTest_of_state, faults_tprpg nofun, faults_tscan nofun, faults_tmisr nofun, fun ht => ?_, fun ht => ?_⟩⟩
  · have untested : ∀ q, some p = some q → s.dev.inTest q = false := fun q hq => Option.some.inj hq ▸ ht
    exact ⟨faults_tprpg untested, faults_tscan untested, faults_tmisr untested⟩
  · have runs : ∀ {i touch f}, exec i s = .next { s with dev := s.dev.testOnly e i touch (some p) f } → i.disoexOk = true →
        exec i s = .next { s with dev := f s.dev p } := fun h hi => by rw [h, Device.testOnly_inTest _ ht hi]
    exact ⟨fun hi => .of_eq (runs (exec_tprpg e g (some p) s) hi) (s.dev.tprpg_leaves g p),
      fun hi => .of_eq (runs (exec_tscan e g (some p) s) hi) (s.dev.tscan_leaves g p),
      fun hi => .of_eq (runs (exec_tmisr e g (some p) s) hi) (s.dev.tmisr_leaves g p)⟩

end Sys2Proof.Machine
end

section
/-! SUPPORT. What START, STOP, SIGNAL and TIMER of an engine do, by its state, and the instant of its timer (R270, R272, R273). -/

namespace Sys2Proof.Machine

variable {d : Device} {s : State} {u : UCmd} {e : Nat}

/-- What a row makes of the device is what a claim says of it. -/
theorem Gives.of_eq {i : Instr} {d' : Device} {f : Device → Device} (h : exec i s = .next { s with dev := d' }) (hf : d' = f s.dev) :
    Gives i s f := by rw [Gives, h, hf]

/-! The checks (R272). -/

theorem Engine.startCode_idle {x : Engine} (h : x.state = 0 ∨ x.state = 3) : x.startCode = cOK := by
  rcases h with h | h <;> rw [Engine.startCode, h] <;> rfl

theorem Engine.startCode_runs {x : Engine} (h : x.state = 1 ∨ x.state = 2) : x.startCode = cBUSY := by
  rcases h with h | h <;> rw [Engine.startCode, h] <;> rfl

theorem Engine.startCode_vacant {x : Engine} (h : x.state = 4) : x.startCode = cNOSPARE := by
  rw [Engine.startCode, h]; rfl

theorem Engine.signalCode_runs {x : Engine} (h : x.state = 1 ∨ x.state = 2) : x.signalCode = cOK := by
  rcases h with h | h <;> rw [Engine.signalCode, h] <;> rfl

theorem Engine.signalCode_idle {x : Engine} (h : x.state = 0 ∨ x.state = 3) : x.signalCode = cNOTARMED := by
  rcases h with h | h <;> rw [Engine.signalCode, h] <;> rfl

theorem Engine.signalCode_vacant {x : Engine} (h : x.state = 4) : x.signalCode = cNOSPARE := by
  rw [Engine.signalCode, h]; rfl

/-! START and STOP (R272). -/

theorem Device.engStart_accepted (entry : Nat) (h : (d.eng e).startCode = cOK) :
    d.engStart e entry = (cOK, d.setEng e ((d.eng e).started entry)) := by rw [Device.engStart, h]; rfl

theorem Device.engStart_refused (entry : Nat) {c : Nat} (h : (d.eng e).startCode = c) (hc : c ≠ cOK) : d.engStart e entry = (c, d) := by
  rw [Device.engStart, h]; exact if_neg hc

theorem Device.engStop_stops (h : ((d.eng e).state = 1 ∨ (d.eng e).state = 2) ∨ (d.eng e).state = 3) :
    d.engStop e = (cOK, d.setEng e (d.eng e).stopped) := (if_neg (by omega)).trans (if_neg (by omega))

theorem Device.engStop_off (h : (d.eng e).state = 0) : d.engStop e = (cOK, d) := by rw [Device.engStop, h]; rfl

theorem Device.engStop_vacant (h : (d.eng e).state = 4) : d.engStop e = (cNOSPARE, d) := if_pos h

/-! The rows of an engine's command. -/

/-- A UNIT that names no object is refused (R260). -/
theorem Device.unitCmd_noObject {cls op size n : Nat} (f : Device → Device) (ht : d.takes cls op u = true)
    (hr : opRow cls op = some (size, n)) (hu : n ≤ u.unit) : d.unitCmd cls op u f = (d.accept u).complete u.origin cUNSUP none := by
  rw [Device.unitCmd, if_pos ht, hr]
  exact if_pos hu

theorem exec_engStart (u : UCmd) (s : State) : exec (.engStart u) s =
    .next { s with dev := s.dev.unitCmd 0x14 1 u fun d => Device.reply (d.engStart u.unit (u.imm % 65536)) u } := rfl

theorem exec_engStop (u : UCmd) (s : State) : exec (.engStop u) s =
    .next { s with dev := s.dev.unitCmd 0x14 2 u fun d => Device.reply (d.engStop u.unit) u } := rfl

theorem exec_engSignal (u : UCmd) (s : State) : exec (.engSignal u) s = .next { s with dev := (s.dev.unitCmd 0x14 3 u fun d =>
    (if (d.eng u.unit).signalCode = cOK then d.notify u.unit (evEntry 19 u.e 0 (u.imm % 65536)) else d).complete u.origin
      (d.eng u.unit).signalCode none) } := rfl

theorem exec_engTimer (u : UCmd) (s : State) : exec (.engTimer u) s = .next { s with dev := (s.dev.unitCmd 0x14 4 u fun d =>
    (if (d.eng u.unit).signalCode = cOK then d.setEng u.unit { d.eng u.unit with timer := some (BitVec.ofNat 64 (u.dword 0)) }
      else d).complete u.origin (d.eng u.unit).signalCode none) } := rfl

section
variable {c : Nat} {d : Device}

theorem exec_engStart_answers (h : s.dev.comes 0x14 1 512 u) (hs : (s.dev.accept u).engStart u.unit (u.imm % 65536) = (c, d)) :
    exec (.engStart u) s = .next { s with dev := d.complete u.origin c none } := by
  rw [exec_engStart, Device.unitCmd_comes _ h rfl, hs, Device.reply]

theorem exec_engStop_answers (h : s.dev.comes 0x14 2 512 u) (hs : (s.dev.accept u).engStop u.unit = (c, d)) :
    exec (.engStop u) s = .next { s with dev := d.complete u.origin c none } := by
  rw [exec_engStop, Device.unitCmd_comes _ h rfl, hs, Device.reply]

theorem exec_engSignal_queues (h : s.dev.comes 0x14 3 512 u)
    (hx : ((s.dev.accept u).eng u.unit).state = 1 ∨ ((s.dev.accept u).eng u.unit).state = 2)
    (hq : ((s.dev.accept u).eng u.unit).evq.length < 256) :
    exec (.engSignal u) s = .next { s with dev := ((s.dev.accept u).setEng u.unit { (s.dev.accept u).eng u.unit with
      evq := ((s.dev.accept u).eng u.unit).evq ++ [evEntry 19 u.e 0 (u.imm % 65536)] }).complete u.origin cOK none } := by
  rw [exec_engSignal, Device.unitCmd_comes _ h rfl, Engine.signalCode_runs hx, if_pos rfl, Device.notify_queues _ (by omega) hq]

theorem exec_engSignal_refused (h : s.dev.comes 0x14 3 512 u) (hs : ((s.dev.accept u).eng u.unit).signalCode = c) (hc : c ≠ cOK) :
    exec (.engSignal u) s = .next { s with dev := (s.dev.accept u).complete u.origin c none } := by
  rw [exec_engSignal, Device.unitCmd_comes _ h rfl, hs, if_neg hc]

theorem exec_engTimer_sets (h : s.dev.comes 0x14 4 512 u)
    (hx : ((s.dev.accept u).eng u.unit).state = 1 ∨ ((s.dev.accept u).eng u.unit).state = 2) :
    exec (.engTimer u) s = .next { s with dev := ((s.dev.accept u).setEng u.unit { (s.dev.accept u).eng u.unit with
      timer := some (BitVec.ofNat 64 (u.dword 0)) }).complete u.origin cOK none } := by
  rw [exec_engTimer, Device.unitCmd_comes _ h rfl, Engine.signalCode_runs hx, if_pos rfl]

theorem exec_engTimer_refused (h : s.dev.comes 0x14 4 512 u) (hs : ((s.dev.accept u).eng u.unit).signalCode = c) (hc : c ≠ cOK) :
    exec (.engTimer u) s = .next { s with dev := (s.dev.accept u).complete u.origin c none } := by
  rw [exec_engTimer, Device.unitCmd_comes _ h rfl, hs, if_neg hc]

end

/-! The rows of the host, which leave the code in CL_E_STAT (R273). -/

/-- The entry of an engine is the low half of CL_E_ENTRY. -/
theorem Device.fld_entry (d : Device) (k i : Nat) : d.fld ⟨Reg.CL_E_ENTRY k i, ⟨0, 16⟩⟩ = d.rdN (Reg.CL_E_ENTRY k i) % 65536 := by
  rw [Device.fld, bitsOf, pow_zero, Nat.div_one]; rfl

theorem exec_clECtlStart {c : Nat} {d : Device} (he : e < 512)
    (hs : s.dev.engStart e (s.dev.rdN (Reg.CL_E_ENTRY (e / 16) (e % 16)) % 65536) = (c, d)) :
    exec (.clECtlStart e) s = .next { s with dev := d.setEng e { d.eng e with code := c } } := by
  rw [← Device.fld_entry] at hs
  show execClECtlStart e s = _
  rw [execClECtlStart, State.run_eq, if_neg (Nat.not_le.mpr he), hs]

theorem exec_clECtlStop {c : Nat} {d : Device} (he : e < 512) (hs : s.dev.engStop e = (c, d)) :
    exec (.clECtlStop e) s = .next { s with dev := d.setEng e { d.eng e with code := c } } := by
  show execClECtlStop e s = _
  rw [execClECtlStop, State.run_eq, if_neg (Nat.not_le.mpr he), hs]

/-- A request that does nothing to the engine leaves its code alone. -/
theorem Reaches.onlyCode {i : Instr} {c : Nat} (h : exec i s = .next { s with dev := s.dev.setEng e { s.dev.eng e with code := c } }) :
    Reaches i s (fun d' => OnlyEngine s.dev d' e { s.dev.eng e with code := c }) := .of_eq h (.setEng _ _ _)

/-- A request that leaves the engine as `x` leaves its code with it. -/
theorem Reaches.engineAndCode {i : Instr} {x : Engine} {c : Nat} 
    (h : exec i s = .next { s with dev := (s.dev.setEng e x).setEng e { (s.dev.setEng e x).eng e with code := c } }) :
    Reaches i s (fun d' => OnlyEngine s.dev d' e { x with code := c }) := by
  rw [Device.eng_setEng] at h
  exact .of_eq h (.setEng_setEng _ _ _ _)

/-! The timer (R272). -/

theorem exec_engineTimerExpire {t : Time} (ht : (s.dev.eng e).timer = some t) (hd : timeLE t s.dev.time = true) :
    exec (.engineTimerExpire e) s = .next { s with dev := s.dev.setEng e { s.dev.eng e with timer := none, timerExp := true } } := by
  show execEngineTimerExpire e s = _
  rw [execEngineTimerExpire]
  refine State.run_of_eq ?_
  simp only [ht]
  exact if_pos hd

theorem exec_engineTimerExpire_none {t : Time}
    (h : (s.dev.eng e).timer = none ∨ ((s.dev.eng e).timer = some t ∧ timeLE t s.dev.time = false)) :
    exec (.engineTimerExpire e) s = .next s := by
  show execEngineTimerExpire e s = _
  rw [execEngineTimerExpire]
  refine State.run_of_eq ?_
  rcases h with ht | ⟨ht, hd⟩
  · simp only [ht]
  · simp only [ht]
    exact if_neg (by rw [hd]; exact Bool.false_ne_true)

end Sys2Proof.Machine
end

section
/-! SUPPORT. What a write of a mailbox index does (R274 to R276). -/

namespace Sys2Proof.Machine

variable {d : Device} {s : State} {k v e : Nat}

/-! Bounds (R275). -/

theorem mbWrOk_iff (wr rd : Nat) : mbWrOk wr rd = true ↔ mbCount wr rd ≤ 32 := decide_eq_true_iff

theorem mbRdOk_iff (wr old rd : Nat) : mbRdOk wr old rd = true ↔ mbCount rd old ≤ mbCount wr old := decide_eq_true_iff

/-! MB_H2E_WR and MB_H2E_RD. -/

/-- Messages for an engine that is not VACANT, or an index that stays. -/
theorem Device.h2eWr_written (hc : mbCount (v % 65536) (d.rdN (Reg.MB_H2E_RD k)) ≤ 32)
    (hv : (d.eng (16 * k + d.fld (F.MB_CFG_TARGET k))).state ≠ 4 ∨ d.rdN (Reg.MB_H2E_WR k) = v % 65536) :
    d.h2eWr k v = d.wr (Reg.MB_H2E_WR k) (v % 65536) := by
  rw [Device.h2eWr, if_pos ((mbWrOk_iff _ _).mpr hc)]
  exact congrArg (fun d : Device => d.wr _ _) (if_neg fun ⟨h4, hw⟩ => hv.elim (absurd h4) hw)

/-- Messages for a VACANT engine are counted as dropped (R278). -/
theorem Device.h2eWr_vacant (hc : mbCount (v % 65536) (d.rdN (Reg.MB_H2E_RD k)) ≤ 32)
    (h4 : (d.eng (16 * k + d.fld (F.MB_CFG_TARGET k))).state = 4) (hw : d.rdN (Reg.MB_H2E_WR k) ≠ v % 65536) :
    d.h2eWr k v = (d.vacantDrop (16 * k + d.fld (F.MB_CFG_TARGET k))).wr (Reg.MB_H2E_WR k) (v % 65536) := by
  rw [Device.h2eWr, if_pos ((mbWrOk_iff _ _).mpr hc)]
  exact congrArg (fun d : Device => d.wr _ _) (if_pos ⟨h4, hw⟩)

theorem Device.h2eWr_overrun (hc : 32 < mbCount (v % 65536) (d.rdN (Reg.MB_H2E_RD k))) : d.h2eWr k v = d.mbError k :=
  if_neg (mt (mbWrOk_iff _ _).mp (by omega))

theorem Device.h2eRd_written
    (hc : mbCount (v % 65536) (d.rdN (Reg.MB_H2E_RD k)) ≤ mbCount (d.rdN (Reg.MB_H2E_WR k)) (d.rdN (Reg.MB_H2E_RD k))) :
    d.h2eRd k v = d.wr (Reg.MB_H2E_RD k) (v % 65536) := if_pos ((mbRdOk_iff _ _ _).mpr hc)

theorem Device.h2eRd_overrun
    (hc : mbCount (d.rdN (Reg.MB_H2E_WR k)) (d.rdN (Reg.MB_H2E_RD k)) < mbCount (v % 65536) (d.rdN (Reg.MB_H2E_RD k))) :
    d.h2eRd k v = d.mbError k := if_neg (mt (mbRdOk_iff _ _ _).mp (by omega))

/-! MB_E2H_WR and MB_E2H_RD. -/

/-- The mailbox was not empty, or stays empty, or has no vector. -/
theorem Device.e2hWr_written (hc : mbCount (v % 65536) (d.rdN (Reg.MB_E2H_RD k)) ≤ 32)
    (hq : d.rdN (Reg.MB_E2H_WR k) ≠ d.rdN (Reg.MB_E2H_RD k) ∨ v % 65536 = d.rdN (Reg.MB_E2H_WR k) ∨
      d.isSet (F.MB_CFG_VEC_EN k) = false) :
    d.e2hWr k v = d.wr (Reg.MB_E2H_WR k) (v % 65536) := by
  rw [Device.e2hWr, if_pos ((mbWrOk_iff _ _).mpr hc)]
  refine if_neg fun ⟨empty, new, vec⟩ => ?_
  rcases hq with h | h | h
  · exact h empty
  · exact new h
  · exact absurd (h.symm.trans vec) Bool.false_ne_true

/-- The first message in an empty mailbox raises its vector (R276). -/
theorem Device.e2hWr_vector (hc : mbCount (v % 65536) (d.rdN (Reg.MB_E2H_RD k)) ≤ 32)
    (empty : d.rdN (Reg.MB_E2H_WR k) = d.rdN (Reg.MB_E2H_RD k)) (new : v % 65536 ≠ d.rdN (Reg.MB_E2H_WR k))
    (vec : d.isSet (F.MB_CFG_VEC_EN k) = true) :
    d.e2hWr k v = (d.wr (Reg.MB_E2H_WR k) (v % 65536)).msix (d.fld (F.MB_CFG_VEC k)) := by
  rw [Device.e2hWr, if_pos ((mbWrOk_iff _ _).mpr hc)]
  exact if_pos ⟨empty, new, vec⟩

theorem Device.e2hRd_written
    (hc : mbCount (v % 65536) (d.rdN (Reg.MB_E2H_RD k)) ≤ mbCount (d.rdN (Reg.MB_E2H_WR k)) (d.rdN (Reg.MB_E2H_RD k))) :
    d.e2hRd k v = d.wr (Reg.MB_E2H_RD k) (v % 65536) := if_pos ((mbRdOk_iff _ _ _).mpr hc)

theorem Device.e2hRd_overrun
    (hc : mbCount (d.rdN (Reg.MB_E2H_WR k)) (d.rdN (Reg.MB_E2H_RD k)) < mbCount (v % 65536) (d.rdN (Reg.MB_E2H_RD k))) :
    d.e2hRd k v = d.mbError k := if_neg (mt (mbRdOk_iff _ _ _).mp (by omega))

/-! The rows: an index written by its own side, and by the other (R274). -/

theorem exec_mbH2eWrWrite (k v : Nat) (s : State) :
    exec (.mbH2eWrWrite k v true) s = .next { s with dev := s.dev.h2eWr k v } := rfl

theorem exec_mbH2eRdWrite (k v : Nat) (s : State) :
    exec (.mbH2eRdWrite k v false) s = .next { s with dev := s.dev.h2eRd k v } := rfl

theorem exec_mbE2hRdWrite (k v : Nat) (s : State) :
    exec (.mbE2hRdWrite k v true) s = .next { s with dev := s.dev.e2hRd k v } := rfl

theorem exec_mbH2eWrWrite_engine (k v : Nat) (s : State) :
    exec (.mbH2eWrWrite k v false) s = .next { s with dev := s.dev.mbError k } := rfl

theorem exec_mbH2eRdWrite_host (k v : Nat) (s : State) :
    exec (.mbH2eRdWrite k v true) s = .next { s with dev := s.dev.mbError k } := rfl

theorem exec_mbE2hRdWrite_engine (k v : Nat) (s : State) :
    exec (.mbE2hRdWrite k v false) s = .next { s with dev := s.dev.mbError k } := rfl

theorem exec_mbE2hWrWrite_host (k v e : Nat) (s : State) :
    exec (.mbE2hWrWrite k v true e) s = .next { s with dev := s.dev.mbError k } := rfl

/-- An engine with no far store in flight writes its index at once. -/
theorem exec_mbE2hWrWrite (k v : Nat) (hf : (s.dev.eng e).fs = []) :
    exec (.mbE2hWrWrite k v false e) s = .next { s with dev := s.dev.e2hWr k v } := by
  show execMbE2hWrWrite k v false e s = _
  rw [execMbE2hWrWrite]
  exact State.run_of_eq (if_neg (by simp [hf]))

/-- Behind earlier far stores the write is one of them (R276). -/
theorem exec_mbE2hWrWrite_queued (k v : Nat) (hf : (s.dev.eng e).fs ≠ []) (hl : (s.dev.eng e).fs.length < 16) :
    exec (.mbE2hWrWrite k v false e) s = .next { s with dev := s.dev.setEng e { s.dev.eng e with
      fs := (s.dev.eng e).fs ++ [⟨farE2hWr k, bytesLE 4 (v % 2 ^ 32), (s.dev.eng e).fseq⟩], fseq := (s.dev.eng e).fseq + 1 } } := by
  show execMbE2hWrWrite k v false e s = _
  rw [execMbE2hWrWrite]
  exact State.run_of_eq ((if_pos (by simp [hf])).trans (if_neg (by omega)))

end Sys2Proof.Machine
end

section
/-! PROOFS. Engine commands, timers and mailbox indices (R270, R272 to R276). -/

namespace Sys2Proof.Machine

/-- Settles O36, clause by clause: the commands of an engine, those of the host, the timer, then each mailbox index. -/
theorem engineCommands : Obligations.EngineCommands := by
  intro s u e k v t d taken n x done runs fresh off y entry w count hw hr ew er bad
  have busy : cBUSY ≠ cOK := by decide
  have noSpare : cNOSPARE ≠ cOK := by decide
  have notArmed : cNOTARMED ≠ cOK := by decide
  exact ⟨fun hn => ⟨fun ht => .of_eq (exec_engStart u s) (Device.unitCmd_noObject _ ht rfl hn),
      fun ht => .of_eq (exec_engStop u s) (Device.unitCmd_noObject _ ht rfl hn),
      fun ht => .of_eq (exec_engSignal u s) (Device.unitCmd_noObject _ ht rfl hn),
      fun ht => .of_eq (exec_engTimer u s) (Device.unitCmd_noObject _ ht rfl hn)⟩,
    fun hu => ⟨fun hi => exec_engStart_answers hu (Device.engStart_accepted _ (Engine.startCode_idle hi)),
      fun hx => exec_engStart_answers hu (Device.engStart_refused _ (Engine.startCode_runs hx) busy),
      fun h4 => exec_engStart_answers hu (Device.engStart_refused _ (Engine.startCode_vacant h4) noSpare)⟩,
    fun hu => ⟨fun hx => exec_engStop_answers hu (Device.engStop_stops hx),
      fun h0 => exec_engStop_answers hu (Device.engStop_off h0), fun h4 => exec_engStop_answers hu (Device.engStop_vacant h4)⟩,
    fun hu => ⟨exec_engSignal_queues hu, fun hi => exec_engSignal_refused hu (Engine.signalCode_idle hi) notArmed,
      fun h4 => exec_engSignal_refused hu (Engine.signalCode_vacant h4) noSpare⟩,
    fun hu => ⟨exec_engTimer_sets hu, fun hi => exec_engTimer_refused hu (Engine.signalCode_idle hi) notArmed,
      fun h4 => exec_engTimer_refused hu (Engine.signalCode_vacant h4) noSpare⟩,
    fun he => ⟨fun hi => .engineAndCode (exec_clECtlStart he (Device.engStart_accepted _ (Engine.startCode_idle hi))),
      fun hx => ⟨.onlyCode (exec_clECtlStart he (Device.engStart_refused _ (Engine.startCode_runs hx) busy)),
        .engineAndCode (exec_clECtlStop he (Device.engStop_stops (.inl hx)))⟩,
      fun h0 => .onlyCode (exec_clECtlStop he (Device.engStop_off h0)),
      fun h4 => ⟨.onlyCode (exec_clECtlStart he (Device.engStart_refused _ (Engine.startCode_vacant h4) noSpare)),
        .onlyCode (exec_clECtlStop he (Device.engStop_vacant h4))⟩⟩,
    exec_engineTimerExpire, exec_engineTimerExpire_none,
    fun hc hv => .of_eq (exec_mbH2eWrWrite k v s) (Device.h2eWr_written hc hv),
    fun hc h4 hw => .of_eq (exec_mbH2eWrWrite k v s) (Device.h2eWr_vacant hc h4 hw),
    fun hc => .of_eq (exec_mbH2eWrWrite k v s) (Device.h2eWr_overrun hc),
    fun hc => .of_eq (exec_mbH2eRdWrite k v s) (Device.h2eRd_written hc),
    fun hc => .of_eq (exec_mbH2eRdWrite k v s) (Device.h2eRd_overrun hc),
    fun hf hc hq => .of_eq (exec_mbE2hWrWrite k v hf) (Device.e2hWr_written hc hq),
    fun hf hc empty new vec => .of_eq (exec_mbE2hWrWrite k v hf) (Device.e2hWr_vector hc empty new vec),
    fun hf hl => .of_eq (exec_mbE2hWrWrite_queued k v hf hl) (.setEng _ _ _),
    fun hc => .of_eq (exec_mbE2hRdWrite k v s) (Device.e2hRd_written hc),
    fun hc => .of_eq (exec_mbE2hRdWrite k v s) (Device.e2hRd_overrun hc),
    exec_mbH2eWrWrite_engine k v s, exec_mbH2eRdWrite_host k v s, exec_mbE2hWrWrite_host k v e s, exec_mbE2hRdWrite_engine k v s⟩

end Sys2Proof.Machine
end

section
/-! SUPPORT. The fields of each format of instruction word (R297, R298, R300), and the decoder on the words of an instruction. -/

namespace Sys2Proof.Machine

variable {e w op rest : Nat} {ext : Option Nat} {i : Instr} {mv : Moves}

/-! Fields. -/

theorem bitAt_eq_true (n k : Nat) : bitAt n k = true ↔ n / 2 ^ k % 2 = 1 := decide_eq_true_iff

theorem bitAt_eq_false (n k : Nat) : bitAt n k = false ↔ n / 2 ^ k % 2 = 0 := by
  rw [bitAt, decide_eq_false_iff_not]; omega

/-- A bit that a word holds as a number reads back. -/
theorem bitAt_of_bitN {n k : Nat} {b : Bool} (h : n / 2 ^ k % 2 = bitN b) : bitAt n k = b := by
  rw [bitAt, h]; cases b <;> rfl

theorem bitN_lt (b : Bool) : bitN b < 2 := by cases b <;> decide

/-- Decoding gives the instruction that the fields name, where its words are those decoded (R299). -/
theorem decodeWords_of_fieldsOf (hi : i.disoexOk = true) (he : encode i = some (w, ext)) (h : fieldsOf e w ext = some i) :
    decodeWords e w ext = some i := by
  rw [decodeWords, h]
  exact if_pos ⟨hi, he⟩

/-! Moves (R300). -/

theorem moveWord_lt (m : Option Move) (h : ∀ x, m = some x → x.wf = true) : moveWord m < 2 ^ 16 := by
  cases m with
  | none => decide
  | some x =>
    have hx := h x rfl
    simp only [Move.wf, Bool.and_eq_true, decide_eq_true_eq] at hx
    simp only [moveWord]
    split <;> split <;> omega

/-- A half of the second word spells the move that it was made of. -/
theorem moveOf_moveWord (m : Option Move) (h : ∀ x, m = some x → x.wf = true) : moveOf (moveWord m) = m := by
  cases m with
  | none => rfl
  | some x =>
    obtain ⟨st, wd, c, p, k⟩ := x
    have hx := h _ rfl
    simp only [Move.wf, Bool.and_eq_true, decide_eq_true_eq] at hx
    have word : moveWord (some ⟨st, wd, c, p, k⟩) = 0x8000 + bitN st * 0x4000 + bitN wd * 0x2000 + c * 2 ^ 9 + p * 2 ^ 6 + k * 2 ^ 3 := by
      simp only [moveWord, bitN]; cases st <;> cases wd <;> rfl
    have hs := bitN_lt st
    have hw := bitN_lt wd
    generalize moveWord (some ⟨st, wd, c, p, k⟩) = n at word
    have e15 : bitAt n 15 = true := (bitAt_eq_true _ _).mpr (by omega)
    have e14 : bitAt n 14 = st := bitAt_of_bitN (by omega)
    have e13 : bitAt n 13 = wd := bitAt_of_bitN (by omega)
    have ec : bitsOf n 9 4 = c := by unfold bitsOf; omega
    have ep : bitsOf n 6 3 = p := by unfold bitsOf; omega
    have ek : bitsOf n 3 3 = k := by unfold bitsOf; omega
    rw [moveOf, if_pos e15, e14, e13, ec, ep, ek]

/-- Each move of well-formed moves is one that its field admits. -/
theorem Moves.wf_moves {x y : Option Move} {cd : Option Nat} (h : Moves.wf (some (x, y)) cd = true) :
    (∀ m, x = some m → m.wf = true) ∧ ∀ m, y = some m → m.wf = true := by
  simp only [Moves.wf, Bool.and_eq_true] at h
  obtain ⟨⟨hx, hy⟩, -⟩ := h
  refine ⟨fun m hm => ?_, fun m hm => ?_⟩
  · subst hm
    exact (Bool.and_eq_true_iff.mp hx).1
  · subst hm
    exact (Bool.and_eq_true_iff.mp hy).1

/-- The moves that the second word spells, as the decoder reads them. -/
def movesOf (ext : Option Nat) : Moves := ext.map (fun n => (moveOf (n / 2 ^ 16 % 2 ^ 16), moveOf (n % 2 ^ 16)))

/-- The first word of a complex instruction holds its fields below the opcode, and the second its moves. -/
theorem cxWords_fields {cd : Option Nat} (h : cxWords op rest mv = some (w, ext)) (hm : mv.wf cd = true) :
    w % 2 ^ 31 = (op * 2 ^ 26 + rest) % 2 ^ 31 ∧ movesOf ext = mv := by
  cases mv with
  | none => cases h; exact ⟨rfl, rfl⟩
  | some xy =>
    obtain ⟨x, y⟩ := xy
    obtain ⟨hx, hy⟩ := Moves.wf_moves hm
    have lx := moveWord_lt x hx
    have ly := moveWord_lt y hy
    cases h
    refine ⟨by omega, ?_⟩
    have high : (moveWord x * 2 ^ 16 + moveWord y) / 2 ^ 16 % 2 ^ 16 = moveWord x := by omega
    have low : (moveWord x * 2 ^ 16 + moveWord y) % 2 ^ 16 = moveWord y := by omega
    rw [movesOf, Option.map_some, high, low, moveOf_moveWord x hx, moveOf_moveWord y hy]

/-! One-word forms. -/

theorem g3_iff {a b c : Nat} : g3 a b c = true ↔ a < 32 ∧ b < 32 ∧ c < 32 := by
  simp only [g3, Bool.and_eq_true, decide_eq_true_eq, and_assoc]

theorem word1_eq (h : word1 op rest = some (w, ext)) : w = op * 2 ^ 26 + rest ∧ ext = none := by
  cases h; exact ⟨rfl, rfl⟩

theorem aluWord_fields {fn a b c : Nat} (h : aluWord fn a b c = some (w, ext)) (hf : fn < 64) (hi : g3 a b c = true) :
    bitsOf w 26 5 = 0x01 ∧ bitsOf w 0 6 = fn ∧ bitsOf w 21 5 = a ∧ bitsOf w 16 5 = b ∧ bitsOf w 11 5 = c := by
  obtain ⟨ha, hb, hc⟩ := g3_iff.mp hi
  obtain ⟨hw, -⟩ := word1_eq h
  unfold bitsOf
  omega

/-- The system group (R324). -/
theorem systemWord_fields {fn g : Nat} (h : word1 0x00 (fn * 2 ^ 20 + g * 2 ^ 15) = some (w, ext)) (hf : fn < 64) (hg : g < 32) :
    bitsOf w 26 5 = 0x00 ∧ bitsOf w 20 6 = fn ∧ bitsOf w 15 5 = g := by
  obtain ⟨hw, -⟩ := word1_eq h
  unfold bitsOf
  omega

/-- The shifts by an immediate (R303). -/
theorem shiftWord_fields {k a b n : Nat} (h : word1 0x06 rest = some (w, ext)) (hr : rest = a * 2 ^ 21 + b * 2 ^ 16 + k * 2 ^ 14 + n)
    (hk : k < 4) (hi : g3 a b n = true) :
    bitsOf w 26 5 = 0x06 ∧ bitsOf w 14 2 = k ∧ bitsOf w 21 5 = a ∧ bitsOf w 16 5 = b ∧ bitsOf w 0 5 = n := by
  obtain ⟨ha, hb, hn⟩ := g3_iff.mp hi
  obtain ⟨hw, -⟩ := word1_eq h
  unfold bitsOf
  omega

/-- The queue instructions (R316). -/
theorem queueWord_fields {sub q n p : Nat} (h : word1 0x13 rest = some (w, ext))
    (hr : rest = sub * 2 ^ 23 + q * 2 ^ 18 + n * 2 ^ 13 + p * 2 ^ 10) (hs : sub < 8) (hq : q < 32) (hn : n < 32) (hp : p < 8) :
    bitsOf w 26 5 = 0x13 ∧ bitsOf w 23 3 = sub ∧ bitsOf w 18 5 = q ∧ bitsOf w 13 5 = n ∧ bitsOf w 10 3 = p := by
  obtain ⟨hw, -⟩ := word1_eq h
  unfold bitsOf
  omega

/-- The queue instructions that name a queue alone. -/
theorem queueWord_fields_queue {sub q : Nat} (h : word1 0x13 (sub * 2 ^ 23 + q * 2 ^ 18) = some (w, ext)) (hs : sub < 8) (hq : q < 32) :
    bitsOf w 26 5 = 0x13 ∧ bitsOf w 23 3 = sub ∧ bitsOf w 18 5 = q := by
  obtain ⟨op, hsub, hq', -⟩ := queueWord_fields (n := 0) (p := 0) h (by omega) hs hq (by decide) (by decide)
  exact ⟨op, hsub, hq'⟩

/-! Forms with an immediate (R298, R303). -/

/-- The immediate stands in the first word, or is the second. -/
theorem immWords_fields {a b : Nat} {n : Imm} (h : immWords op rest n = some (w, ext)) (ho : op < 32)
    (hr : rest = a * 2 ^ 21 + b * 2 ^ 16) (ha : a < 32) (hb : b < 32) (hn : n.wf = true) :
    bitsOf w 26 5 = op ∧ bitsOf w 21 5 = a ∧ bitsOf w 16 5 = b ∧
      (n = .short (bitsOf w 0 16) ∧ ext = none ∨ ∃ k, n = .long k ∧ ext = some k) := by
  cases n with
  | short k =>
    have hk : k < 2 ^ 16 := of_decide_eq_true hn
    cases h
    have low : bitsOf (op * 2 ^ 26 + rest + k) 0 16 = k := by unfold bitsOf; omega
    exact ⟨by unfold bitsOf; omega, by unfold bitsOf; omega, by unfold bitsOf; omega, .inl ⟨by rw [low], rfl⟩⟩
  | long k =>
    cases h
    exact ⟨by unfold bitsOf; omega, by unfold bitsOf; omega, by unfold bitsOf; omega, .inr ⟨k, rfl, rfl⟩⟩

/-! Complex forms (R306, R307). -/

theorem groupA_fields {sub a x y : Nat} (h : groupA sub a x y mv = some (w, ext)) (hs : sub < 8) (ha : a < 8) (hx : x < 16) (hy : y < 16)
    (hm : mv.wf none = true) :
    fieldsOf e w ext = groupAOf e w mv ∧ bitsOf w 23 3 = sub ∧ bitsOf w 20 3 = a ∧ bitsOf w 16 4 = x ∧ bitsOf w 12 4 = y := by
  obtain ⟨hw, moves⟩ := cxWords_fields h hm
  have opcode : bitsOf w 26 5 = 0x10 := by unfold bitsOf; omega
  refine ⟨?_, by unfold bitsOf; omega⟩
  rw [← moves]
  simp only [fieldsOf, opcode, movesOf]

/-- A word of group B, whatever its fields below SUB. -/
theorem groupB_words {sub : Nat} {cd : Option Nat} (h : cxWords 0x11 (sub * 2 ^ 22 + rest) mv = some (w, ext)) (hs : sub < 16)
    (hr : rest < 2 ^ 22) (hm : mv.wf cd = true) :
    fieldsOf e w ext = groupBOf e w mv ∧ bitsOf w 22 4 = sub ∧ w % 2 ^ 22 = rest := by
  obtain ⟨hw, moves⟩ := cxWords_fields h hm
  have opcode : bitsOf w 26 5 = 0x11 := by unfold bitsOf; omega
  refine ⟨?_, by unfold bitsOf; omega, by omega⟩
  rw [← moves]
  simp only [fieldsOf, opcode, movesOf]

theorem groupB_fields {sub cd cs ct ad as : Nat} {o : Option Nat} (h : groupB sub cd cs ct ad as mv = some (w, ext)) (hs : sub < 16)
    (hd : cd < 16) (hc : cs < 16) (ht : ct < 16) (ha : ad < 8) (hb : as < 8) (hm : mv.wf o = true) :
    fieldsOf e w ext = groupBOf e w mv ∧ bitsOf w 22 4 = sub ∧ bitsOf w 18 4 = cd ∧ bitsOf w 14 4 = cs ∧ bitsOf w 10 4 = ct ∧
      bitsOf w 7 3 = ad ∧ bitsOf w 4 3 = as := by
  simp only [groupB, Nat.add_assoc] at h
  obtain ⟨op, hsub, hw⟩ := groupB_words h hs (by omega) hm
  exact ⟨op, hsub, by unfold bitsOf; omega⟩

theorem groupBsh_fields {sub cd cs sh as : Nat} {o : Option Nat} (h : groupBsh sub cd cs sh as mv = some (w, ext)) (hs : sub < 16)
    (hd : cd < 16) (hc : cs < 16) (hh : sh < 64) (hb : as < 8) (hm : mv.wf o = true) :
    fieldsOf e w ext = groupBOf e w mv ∧ bitsOf w 22 4 = sub ∧ bitsOf w 18 4 = cd ∧ bitsOf w 14 4 = cs ∧ bitsOf w 8 6 = sh ∧
      bitsOf w 4 3 = as := by
  simp only [groupBsh, Nat.add_assoc] at h
  obtain ⟨op, hsub, hw⟩ := groupB_words h hs (by omega) hm
  exact ⟨op, hsub, by unfold bitsOf; omega⟩

theorem groupBgi_fields {sub gi ct ad as : Nat} {o : Option Nat} (h : groupBgi sub gi ct ad as mv = some (w, ext)) (hs : sub < 16)
    (hg : gi < 32) (ht : ct < 16) (ha : ad < 8) (hb : as < 8) (hm : mv.wf o = true) :
    fieldsOf e w ext = groupBOf e w mv ∧ bitsOf w 22 4 = sub ∧ bitsOf w 17 5 = gi ∧ bitsOf w 10 4 = ct ∧ bitsOf w 7 3 = ad ∧
      bitsOf w 4 3 = as := by
  simp only [groupBgi, Nat.add_assoc] at h
  obtain ⟨op, hsub, hw⟩ := groupB_words h hs (by omega) hm
  exact ⟨op, hsub, by unfold bitsOf; omega⟩

end Sys2Proof.Machine
end

section
/-! SUPPORT. The decoder's fields on the words of every Disoex instruction, opcode by opcode (R297 to R324). -/

namespace Sys2Proof.Machine

variable {w : Nat} {ext : Option Nat} {i : Instr}

/-- A test-only instruction as a physical engine executes it in a self-test (R325): its words do not name that engine. -/
def onPhysical : Instr → Bool
  | .tprpg _ _ (some _) | .tscan _ _ (some _) | .tmisr _ _ (some _) => true
  | _ => false

/-- The fields of an instruction's words name the instruction. -/
theorem fieldsOf_encode (hi : i.disoexOk = true) (he : encode i = some (w, ext)) (hp : onPhysical i = false) :
    ∃ e, fieldsOf e w ext = some i := by
  cases i with
  | nop e | halt e | sleep e | sync e =>
    obtain ⟨rfl, rfl⟩ := word1_eq he
    exact ⟨e, rfl⟩
  | time e g =>
    simp only [Instr.disoexOk, Bool.and_eq_true, decide_eq_true_eq] at hi
    obtain ⟨op, fn, hg⟩ := systemWord_fields he (by decide) hi.1
    exact ⟨e, by simp only [fieldsOf, systemOf, op, fn, hg]⟩
  | tprpg e g p | tscan e g p | tmisr e g p =>
    simp only [Instr.disoexOk, decide_eq_true_eq] at hi
    obtain ⟨op, fn, hg⟩ := systemWord_fields he (by decide) (by omega)
    cases p with
    | none => exact ⟨e, by simp only [fieldsOf, systemOf, op, fn, hg]⟩
    | some p => cases hp
  | add e a b c | sub e a b c | and e a b c | or e a b c | xor e a b c | shl e a b c | shr e a b c | sar e a b c | mul e a b c
  | mulh e a b c | mulhu e a b c | min e a b c | max e a b c | minu e a b c | maxu e a b c =>
    obtain ⟨op, fn, ha, hb, hc⟩ := aluWord_fields he (by decide) hi
    exact ⟨e, by simp only [fieldsOf, aluOf, op, fn, ha, hb, hc]⟩
  | clz e a b | popc e a b =>
    obtain ⟨op, fn, ha, hb, -⟩ := aluWord_fields he (by decide) hi
    exact ⟨e, by simp only [fieldsOf, aluOf, op, fn, ha, hb]⟩
  | addi e a b n | andi e a b n | ori e a b n | xori e a b n =>
    simp only [Instr.disoexOk, Bool.and_eq_true, g3_iff] at hi
    obtain ⟨⟨la, lb, -⟩, hn⟩ := hi
    obtain ⟨op, ha, hb, ⟨rfl, rfl⟩ | ⟨k, rfl, rfl⟩⟩ := immWords_fields he (by decide) rfl la lb hn
    · exact ⟨e, by simp only [fieldsOf, op, ha, hb]⟩
    · exact ⟨e, by simp only [fieldsOf, op, ha, hb]⟩
  | cmpi e b n =>
    simp only [Instr.disoexOk, Bool.and_eq_true, g3_iff] at hi
    obtain ⟨⟨lb, -⟩, hn⟩ := hi
    obtain ⟨op, -, hb, ⟨rfl, rfl⟩ | ⟨k, rfl, rfl⟩⟩ := immWords_fields (a := 0) he (by decide) (by omega) (by decide) lb hn
    · exact ⟨e, by simp only [fieldsOf, op, hb]⟩
    · exact ⟨e, by simp only [fieldsOf, op, hb]⟩
  | shli e a b n =>
    obtain ⟨op, kind, ha, hb, hn⟩ := shiftWord_fields (k := 0) he (by omega) (by decide) hi
    exact ⟨e, by simp only [fieldsOf, shiftOf, op, kind, ha, hb, hn]⟩
  | shri e a b n | sari e a b n =>
    obtain ⟨op, kind, ha, hb, hn⟩ := shiftWord_fields he rfl (by decide) hi
    exact ⟨e, by simp only [fieldsOf, shiftOf, op, kind, ha, hb, hn]⟩
  | movr e a b =>
    simp only [Instr.disoexOk, movrWritable, movrReadable, Bool.and_eq_true, Bool.or_eq_true, decide_eq_true_eq] at hi
    obtain ⟨hw, -⟩ := word1_eq he
    obtain ⟨op, ha, hb⟩ : bitsOf w 26 5 = 8 ∧ bitsOf w 19 7 = a ∧ bitsOf w 12 7 = b := by unfold bitsOf; omega
    exact ⟨e, by simp only [fieldsOf, op, ha, hb]⟩
  | ld e g p m s u =>
    simp only [Instr.disoexOk, Bool.and_eq_true, decide_eq_true_eq] at hi
    have lu := bitN_lt u
    obtain ⟨hw, -⟩ := word1_eq he
    obtain ⟨op, hg, hp, hm, hs⟩ : bitsOf w 26 5 = 9 ∧ bitsOf w 21 5 = g ∧ bitsOf w 18 3 = p ∧ bitsOf w 15 3 = m ∧ bitsOf w 13 2 = s := by
      unfold bitsOf; omega
    have hu : bitAt w 12 = u := bitAt_of_bitN (by omega)
    exact ⟨e, by simp only [fieldsOf, op, hg, hp, hm, hs, hu]⟩
  | st e g p m s =>
    simp only [Instr.disoexOk, Bool.and_eq_true, decide_eq_true_eq] at hi
    obtain ⟨hw, -⟩ := word1_eq he
    obtain ⟨op, hg, hp, hm, hs⟩ : bitsOf w 26 5 = 10 ∧ bitsOf w 21 5 = g ∧ bitsOf w 18 3 = p ∧ bitsOf w 15 3 = m ∧ bitsOf w 13 2 = s := by
      unfold bitsOf; omega
    exact ⟨e, by simp only [fieldsOf, op, hg, hp, hm, hs]⟩
  | ldc e c p m b =>
    simp only [Instr.disoexOk, Bool.and_eq_true, decide_eq_true_eq] at hi
    have lb := bitN_lt b
    obtain ⟨hw, -⟩ := word1_eq he
    obtain ⟨op, hc, hp, hm⟩ : bitsOf w 26 5 = 11 ∧ bitsOf w 21 4 = c ∧ bitsOf w 18 3 = p ∧ bitsOf w 15 3 = m := by unfold bitsOf; omega
    have hb : bitAt w 14 = b := bitAt_of_bitN (by omega)
    have load : bitAt w 25 = false := (bitAt_eq_false _ _).mpr (by omega)
    exact ⟨e, by simp only [fieldsOf, op, hc, hp, hm, hb, load, Bool.false_eq_true, if_false]⟩
  | stc e c p m b =>
    simp only [Instr.disoexOk, Bool.and_eq_true, decide_eq_true_eq] at hi
    have lb := bitN_lt b
    obtain ⟨hw, -⟩ := word1_eq he
    obtain ⟨op, hc, hp, hm⟩ : bitsOf w 26 5 = 11 ∧ bitsOf w 21 4 = c ∧ bitsOf w 18 3 = p ∧ bitsOf w 15 3 = m := by unfold bitsOf; omega
    have hb : bitAt w 14 = b := bitAt_of_bitN (by omega)
    have store : bitAt w 25 = true := (bitAt_eq_true _ _).mpr (by omega)
    exact ⟨e, by simp only [fieldsOf, op, hc, hp, hm, hb, store, if_true]⟩
  | br e c o =>
    simp only [Instr.disoexOk, Bool.and_eq_true, decide_eq_true_eq] at hi
    obtain ⟨hw, -⟩ := word1_eq he
    obtain ⟨op, hc, ho⟩ : bitsOf w 26 5 = 12 ∧ bitsOf w 22 4 = c ∧ bitsOf w 0 16 = o := by unfold bitsOf; omega
    exact ⟨e, by simp only [fieldsOf, op, hc, ho]⟩
  | bbc e b o =>
    simp only [Instr.disoexOk, Bool.and_eq_true, decide_eq_true_eq] at hi
    obtain ⟨hw, -⟩ := word1_eq he
    obtain ⟨op, hb, ho⟩ : bitsOf w 26 5 = 13 ∧ bitsOf w 20 5 = b ∧ bitsOf w 0 16 = o := by unfold bitsOf; omega
    have clear : bitAt w 25 = false := (bitAt_eq_false _ _).mpr (by omega)
    exact ⟨e, by simp only [fieldsOf, op, hb, ho, clear, Bool.false_eq_true, if_false]⟩
  | bbs e b o =>
    simp only [Instr.disoexOk, Bool.and_eq_true, decide_eq_true_eq] at hi
    obtain ⟨hw, -⟩ := word1_eq he
    obtain ⟨op, hb, ho⟩ : bitsOf w 26 5 = 13 ∧ bitsOf w 20 5 = b ∧ bitsOf w 0 16 = o := by unfold bitsOf; omega
    have set : bitAt w 25 = true := (bitAt_eq_true _ _).mpr (by omega)
    exact ⟨e, by simp only [fieldsOf, op, hb, ho, set, if_true]⟩
  | call e o =>
    simp only [Instr.disoexOk, decide_eq_true_eq] at hi
    obtain ⟨hw, -⟩ := word1_eq he
    obtain ⟨op, hs, ho⟩ : bitsOf w 26 5 = 14 ∧ bitsOf w 23 3 = 0 ∧ bitsOf w 0 16 = o := by unfold bitsOf; omega
    exact ⟨e, by simp only [fieldsOf, callOf, op, hs, ho]⟩
  | callr e g =>
    simp only [Instr.disoexOk, decide_eq_true_eq] at hi
    obtain ⟨hw, -⟩ := word1_eq he
    obtain ⟨op, hs, hg⟩ : bitsOf w 26 5 = 14 ∧ bitsOf w 23 3 = 1 ∧ bitsOf w 16 5 = g := by unfold bitsOf; omega
    exact ⟨e, by simp only [fieldsOf, callOf, op, hs, hg]⟩
  | jmp e g =>
    simp only [Instr.disoexOk, decide_eq_true_eq] at hi
    obtain ⟨hw, -⟩ := word1_eq he
    obtain ⟨op, hs, hg⟩ : bitsOf w 26 5 = 14 ∧ bitsOf w 23 3 = 2 ∧ bitsOf w 16 5 = g := by unfold bitsOf; omega
    exact ⟨e, by simp only [fieldsOf, callOf, op, hs, hg]⟩
  | ret e =>
    obtain ⟨rfl, rfl⟩ := word1_eq he
    exact ⟨e, rfl⟩
  | brk e c =>
    simp only [Instr.disoexOk, decide_eq_true_eq] at hi
    obtain ⟨hw, -⟩ := word1_eq he
    obtain ⟨op, hs, hc⟩ : bitsOf w 26 5 = 14 ∧ bitsOf w 23 3 = 4 ∧ bitsOf w 19 4 = c := by unfold bitsOf; omega
    exact ⟨e, by simp only [fieldsOf, callOf, op, hs, hc]⟩
  | rep e src b =>
    cases src with
    | imm n =>
      simp only [Instr.disoexOk, RepSrc.wf, Bool.and_eq_true, decide_eq_true_eq] at hi
      obtain ⟨hw, rfl⟩ := word1_eq he
      obtain ⟨op, hb, hn⟩ : bitsOf w 26 5 = 15 ∧ bitsOf w 12 13 = b ∧ bitsOf w 0 12 = n := by unfold bitsOf; omega
      have src : bitAt w 25 = false := (bitAt_eq_false _ _).mpr (by omega)
      exact ⟨e, by simp only [fieldsOf, repOf, op, hb, hn, src, Bool.false_eq_true, if_false]⟩
    | long n =>
      simp only [Instr.disoexOk, RepSrc.wf, Bool.and_eq_true, decide_eq_true_eq] at hi
      obtain ⟨rfl, rfl⟩ : w = 2 ^ 31 + 0x0F * 2 ^ 26 + b * 2 ^ 12 ∧ ext = some n := by cases he; exact ⟨rfl, rfl⟩
      obtain ⟨op, hb⟩ : bitsOf (2 ^ 31 + 0x0F * 2 ^ 26 + b * 2 ^ 12) 26 5 = 15 ∧ bitsOf (2 ^ 31 + 0x0F * 2 ^ 26 + b * 2 ^ 12) 12 13 = b := by
        unfold bitsOf; omega
      exact ⟨e, by simp only [fieldsOf, repOf, op, hb]⟩
    | reg g =>
      simp only [Instr.disoexOk, RepSrc.wf, Bool.and_eq_true, decide_eq_true_eq] at hi
      obtain ⟨hw, rfl⟩ := word1_eq he
      obtain ⟨op, hb, hg⟩ : bitsOf w 26 5 = 15 ∧ bitsOf w 12 13 = b ∧ bitsOf w 0 5 = g := by unfold bitsOf; omega
      have src : bitAt w 25 = true := (bitAt_eq_true _ _).mpr (by omega)
      exact ⟨e, by simp only [fieldsOf, repOf, op, hb, hg, src, if_true]⟩
  | cmac e a x y mv | cmacc e a x y mv | cmsu e a x y mv | cmul e a x y mv | cmulc e a x y mv =>
    simp only [Instr.disoexOk, Bool.and_eq_true, decide_eq_true_eq] at hi
    obtain ⟨⟨⟨la, lx⟩, ly⟩, hm⟩ := hi
    obtain ⟨hf, sub, ha, hx, hy⟩ := groupA_fields (e := e) he (by decide) la lx ly hm
    exact ⟨e, by simp only [hf, groupAOf, sub, ha, hx, hy]⟩
  | cpow e a x mv | cpowa e a x mv =>
    simp only [Instr.disoexOk, Bool.and_eq_true, decide_eq_true_eq] at hi
    obtain ⟨⟨la, lx⟩, hm⟩ := hi
    obtain ⟨hf, sub, ha, hx, -⟩ := groupA_fields (e := e) he (by decide) la lx (by decide) hm
    exact ⟨e, by simp only [hf, groupAOf, sub, ha, hx]⟩
  | aclr e a mv =>
    simp only [Instr.disoexOk, Bool.and_eq_true, decide_eq_true_eq] at hi
    obtain ⟨la, hm⟩ := hi
    obtain ⟨hf, sub, ha, -⟩ := groupA_fields (e := e) he (by decide) la (by decide) (by decide) hm
    exact ⟨e, by simp only [hf, groupAOf, sub, ha]⟩
  | cnop e mv =>
    have hm : mv.wf none = true := hi
    obtain ⟨hf, sub, -⟩ := groupB_fields (e := e) he (by decide) (by decide) (by decide) (by decide) (by decide) (by decide) hm
    exact ⟨e, by simp only [hf, groupBOf, sub]⟩
  | cmulr e c a b mv | cadd e c a b mv | csub e c a b mv =>
    simp only [Instr.disoexOk, Bool.and_eq_true, decide_eq_true_eq] at hi
    obtain ⟨⟨⟨lc, la⟩, lb⟩, hm⟩ := hi
    obtain ⟨hf, sub, hc, ha, hb, -⟩ := groupB_fields (e := e) he (by decide) lc la lb (by decide) (by decide) hm
    exact ⟨e, by simp only [hf, groupBOf, sub, hc, ha, hb]⟩
  | cconj e c a mv | cmov e c a mv =>
    simp only [Instr.disoexOk, Bool.and_eq_true, decide_eq_true_eq] at hi
    obtain ⟨⟨lc, la⟩, hm⟩ := hi
    obtain ⟨hf, sub, hc, ha, -⟩ := groupB_fields (e := e) he (by decide) lc la (by decide) (by decide) (by decide) hm
    exact ⟨e, by simp only [hf, groupBOf, sub, hc, ha]⟩
  | arndH e c a h mv | arndW e c a h mv =>
    simp only [Instr.disoexOk, Bool.and_eq_true, decide_eq_true_eq] at hi
    obtain ⟨⟨⟨lc, la⟩, lh⟩, hm⟩ := hi
    obtain ⟨hf, sub, hc, -, hh, ha⟩ := groupBsh_fields (e := e) he (by decide) lc (by decide) lh la hm
    exact ⟨e, by simp only [hf, groupBOf, sub, hc, hh, ha]⟩
  | cscl e c a h mv =>
    simp only [Instr.disoexOk, Bool.and_eq_true, decide_eq_true_eq] at hi
    obtain ⟨⟨⟨lc, la⟩, lh⟩, hm⟩ := hi
    obtain ⟨hf, sub, hc, ha, hh, -⟩ := groupBsh_fields (e := e) he (by decide) lc la lh (by decide) hm
    exact ⟨e, by simp only [hf, groupBOf, sub, hc, ha, hh]⟩
  | aadd e a b mv | amov e a b mv =>
    simp only [Instr.disoexOk, Bool.and_eq_true, decide_eq_true_eq] at hi
    obtain ⟨⟨la, lb⟩, hm⟩ := hi
    obtain ⟨hf, sub, -, -, -, ha, hb⟩ := groupB_fields (e := e) he (by decide) (by decide) (by decide) (by decide) la lb hm
    exact ⟨e, by simp only [hf, groupBOf, sub, ha, hb]⟩
  | apeak e a b g mv =>
    simp only [Instr.disoexOk, Bool.and_eq_true, decide_eq_true_eq] at hi
    obtain ⟨⟨⟨la, lb⟩, lg⟩, hm⟩ := hi
    obtain ⟨hf, sub, hg, -, ha, hb⟩ := groupBgi_fields (e := e) he (by decide) lg (by decide) la lb hm
    exact ⟨e, by simp only [hf, groupBOf, sub, hg, ha, hb]⟩
  | cpeak e a c g mv =>
    simp only [Instr.disoexOk, Bool.and_eq_true, decide_eq_true_eq] at hi
    obtain ⟨⟨⟨la, lc⟩, lg⟩, hm⟩ := hi
    obtain ⟨hf, sub, hg, hc, ha, -⟩ := groupBgi_fields (e := e) he (by decide) lg lc la (by decide) hm
    exact ⟨e, by simp only [hf, groupBOf, sub, hg, hc, ha]⟩
  | ucmd e k g =>
    simp only [Instr.disoexOk, Bool.and_eq_true, decide_eq_true_eq] at hi
    obtain ⟨hw, -⟩ := word1_eq he
    obtain ⟨op, hk, hg⟩ : bitsOf w 26 5 = 18 ∧ bitsOf w 22 4 = k ∧ bitsOf w 17 5 = g := by unfold bitsOf; omega
    exact ⟨e, by simp only [fieldsOf, op, hk, hg]⟩
  | qpush e q n p | qpop e q n p =>
    simp only [Instr.disoexOk, Bool.and_eq_true, decide_eq_true_eq, g3_iff] at hi
    obtain ⟨⟨lq, ln, -⟩, lp⟩ := hi
    obtain ⟨op, sub, hq, hn, hp⟩ := queueWord_fields he rfl (by decide) lq ln lp
    exact ⟨e, by simp only [fieldsOf, queueInstr, op, sub, hq, hn, hp]⟩
  | qmark e q | qrew e q | qrel e q =>
    simp only [Instr.disoexOk, decide_eq_true_eq] at hi
    obtain ⟨op, sub, hq⟩ := queueWord_fields_queue he (by decide) hi
    exact ⟨e, by simp only [fieldsOf, queueInstr, op, sub, hq]⟩
  | wait e | evack e =>
    obtain ⟨rfl, rfl⟩ := word1_eq he
    exact ⟨e, rfl⟩
  | evget e c =>
    simp only [Instr.disoexOk, decide_eq_true_eq] at hi
    obtain ⟨hw, -⟩ := word1_eq he
    obtain ⟨op, hs, hc⟩ : bitsOf w 26 5 = 20 ∧ bitsOf w 23 3 = 1 ∧ bitsOf w 19 4 = c := by unfold bitsOf; omega
    exact ⟨e, by simp only [fieldsOf, eventOf, op, hs, hc]⟩
  | fld e t g s u o =>
    simp only [Instr.disoexOk, Bool.and_eq_true, decide_eq_true_eq] at hi
    obtain ⟨⟨⟨⟨⟨ls, lt⟩, lg⟩, -⟩, lo⟩, -⟩ := hi
    have lt : t < 32 := by split at lt <;> omega
    have lu := bitN_lt u
    obtain ⟨hw, -⟩ := word1_eq he
    obtain ⟨op, ht, hg, hs, ho⟩ : bitsOf w 26 5 = 21 ∧ bitsOf w 21 5 = t ∧ bitsOf w 16 5 = g ∧ bitsOf w 14 2 = s ∧ bitsOf w 0 12 = o := by
      unfold bitsOf; omega
    have hu : bitAt w 13 = u := bitAt_of_bitN (by omega)
    exact ⟨e, by simp only [fieldsOf, op, ht, hg, hs, ho, hu]⟩
  | fst e t g s o =>
    simp only [Instr.disoexOk, Bool.and_eq_true, decide_eq_true_eq] at hi
    obtain ⟨⟨⟨⟨ls, lt⟩, lg⟩, -⟩, lo⟩ := hi
    have lt : t < 32 := by split at lt <;> omega
    obtain ⟨hw, -⟩ := word1_eq he
    obtain ⟨op, hk, ht, hg, hs, ho⟩ : bitsOf w 26 5 = 22 ∧ bitsOf w 24 2 = 0 ∧ bitsOf w 19 5 = t ∧ bitsOf w 14 5 = g ∧ bitsOf w 12 2 = s ∧
        bitsOf w 0 12 = o := by
      unfold bitsOf; omega
    exact ⟨e, by simp only [fieldsOf, op, hk, ht, hg, hs, ho]⟩
  | ffence e =>
    obtain ⟨rfl, rfl⟩ := word1_eq he
    exact ⟨e, rfl⟩
  | ftoi e a b x =>
    simp only [Instr.disoexOk, Bool.and_eq_true, decide_eq_true_eq, g3_iff] at hi
    obtain ⟨hw, -⟩ := word1_eq he
    obtain ⟨op, ha, hb, hx⟩ : bitsOf w 26 5 = 23 ∧ bitsOf w 21 5 = a ∧ bitsOf w 16 5 = b ∧ bitsOf w 9 6 = x := by unfold bitsOf; omega
    have toInt : bitAt w 15 = false := (bitAt_eq_false _ _).mpr (by omega)
    exact ⟨e, by simp only [fieldsOf, op, ha, hb, hx, toInt, Bool.false_eq_true, if_false]⟩
  | itof e a b x =>
    simp only [Instr.disoexOk, Bool.and_eq_true, decide_eq_true_eq, g3_iff] at hi
    obtain ⟨hw, -⟩ := word1_eq he
    obtain ⟨op, ha, hb, hx⟩ : bitsOf w 26 5 = 23 ∧ bitsOf w 21 5 = a ∧ bitsOf w 16 5 = b ∧ bitsOf w 9 6 = x := by unfold bitsOf; omega
    have toFloat : bitAt w 15 = true := (bitAt_eq_true _ _).mpr (by omega)
    exact ⟨e, by simp only [fieldsOf, op, ha, hb, hx, toFloat, if_true]⟩
  | _ => cases he

end Sys2Proof.Machine
end

section
/-! PROOFS. The encoding of the Disoex instructions (R297 to R308). -/

namespace Sys2Proof.Machine

/-- Settles O3: the fields of an instruction's words name it, so it is the one that they decode to. -/
theorem disoexDecodeOfEncode : Obligations.DisoexDecodeOfEncode := by
  intro i w ext hi he hg hs hm
  have hp : onPhysical i = false := by
    unfold onPhysical
    split
    · exact absurd rfl (hg _ _ _)
    · exact absurd rfl (hs _ _ _)
    · exact absurd rfl (hm _ _ _)
    · rfl
  obtain ⟨e, h⟩ := fieldsOf_encode hi he hp
  exact ⟨e, decodeWords_of_fieldsOf hi he h⟩

/-- Settles O4: each word's fields name its instruction, whose own words they are; the all-ones word names none. -/
theorem disoexWords : Obligations.DisoexWords := by
  intro e
  exact ⟨decodeWords_of_fieldsOf rfl rfl rfl, decodeWords_of_fieldsOf rfl rfl rfl, decodeWords_of_fieldsOf rfl rfl rfl,
    decodeWords_of_fieldsOf rfl rfl rfl, decodeWords_of_fieldsOf rfl rfl rfl, rfl⟩

end Sys2Proof.Machine
end

section
/-! SUPPORT. The operations of a Disoex instruction besides its own engine's write that leave every engine: banks, stores, vectors, queues. -/

namespace Sys2Proof.Machine

variable {d : Device}

@[simp] theorem Device.bankUse_engines (d : Device) (k : Nat) : (d.bankUse k).engines = d.engines := by
  unfold Device.bankUse; split <;> rfl

@[simp] theorem Device.putData_engines (d : Device) (e a : Nat) (bs : List Byte) : (d.putData e a bs).engines = d.engines := by
  unfold Device.putData
  split
  · exact Device.bankUse_engines _ _
  · split
    · exact Device.bankUse_engines _ _
    · rfl

@[simp] theorem Device.add64_engines (d : Device) (lo n : Nat) : (d.add64 lo n).engines = d.engines := by
  rw [Device.add64, Device.wr64_engines]

@[simp] theorem Device.msix_engines (d : Device) (v : Nat) : (d.msix v).engines = d.engines := by
  unfold Device.msix
  split
  · exact Device.setFld_engines _ _ _
  · rw [Device.add64_engines, Device.send_engines]

/-! Queues. -/

@[simp] theorem Device.qSettle_engines (d : Device) (q : Nat) : (d.qSettle q).engines = d.engines := by
  refine List.foldlRecOn (motive := fun e : Device => e.engines = d.engines) _ _ rfl fun e he kv _ => ?_
  dsimp only
  split
  · exact he
  · split
    · split <;> exact he
    · exact he

@[simp] theorem Device.qIrq_engines (d : Device) (q : Nat) : (d.qIrq q).engines = d.engines := by
  unfold Device.qIrq
  split
  · rw [Device.msix_engines, Device.setFld_engines]
  · rfl

@[simp] theorem Device.qAccept_engines (d : Device) (q : Nat) (bs : List Byte) (n cls unit : Nat) :
    (d.qAccept q bs n cls unit).engines = d.engines := by
  rw [Device.qAccept, Device.qSettle_engines, Device.add64_engines, Device.wr_engines]; rfl

@[simp] theorem Device.qAdvance_engines (d : Device) (q : Nat) : (d.qAdvance q).engines = d.engines := by
  unfold Device.qAdvance
  dsimp only
  split
  · rfl
  · exact Device.qSettle_engines _ _

@[simp] theorem Device.qMark_engines (d : Device) (q : Nat) : (d.qMark q).engines = d.engines := rfl

@[simp] theorem Device.qRewind_engines (d : Device) (q : Nat) : (d.qRewind q).engines = d.engines :=
  (Device.qIrq_engines _ _).trans (Device.qSettle_engines _ _)

@[simp] theorem Device.qRelease_engines (d : Device) (q : Nat) : (d.qRelease q).engines = d.engines := Device.qSettle_engines _ _

@[simp] theorem Device.qRefills_engines (d : Device) (q : Nat) (ns : List Nat) : (d.qRefills q ns).engines = d.engines := by
  refine List.foldlRecOn (motive := fun e : Device => e.engines = d.engines) _ _ rfl fun e he n _ => ?_
  dsimp only
  split
  · exact he
  · split <;> exact he

/-- What leaves the engines leaves each of them. -/
theorem Device.eng_congr {d' : Device} (h : d'.engines = d.engines) (e : Nat) : d'.eng e = d.eng e := by
  rw [Device.eng, h, Device.eng]

end Sys2Proof.Machine
end

section
/-! SUPPORT. The bounds of an engine (R264, R290, R310, R312, R323) under each write of an engine. -/

namespace Sys2Proof.Machine

variable {x : Engine} {d d' : Device} {e : Nat}

/-! Accumulators of 48 bits (R290). -/

/-- A pair of components that an accumulator holds. -/
def AccFits (v : Int × Int) : Prop := -(2 ^ 47) ≤ v.1 ∧ v.1 < 2 ^ 47 ∧ -(2 ^ 47) ≤ v.2 ∧ v.2 < 2 ^ 47

theorem Engine.Bounded.ar (h : x.Bounded) (j : Nat) : AccFits (x.ar j) := by
  obtain ⟨-, -, -, -, -, ha⟩ := h
  exact ha j

theorem Engine.Bounded.setA (h : x.Bounded) (i : Nat) {v : Int × Int} (hv : AccFits v) : (x.setA i v).Bounded := by
  obtain ⟨hs, hr, hq, hl, hf, ha⟩ := h
  refine ⟨hs, hr, hq, hl, hf, fun j => ?_⟩
  rw [Engine.ar_setA_eq]
  split
  · exact hv
  · exact ha j

theorem satTo_48 (z : Int) : -(2 ^ 47) ≤ satTo 48 z ∧ satTo 48 z < 2 ^ 47 := by
  unfold satTo
  split <;> [skip; split] <;> omega

theorem toInt_32 (v : Word) : -(2 ^ 31) ≤ v.toInt ∧ v.toInt < 2 ^ 31 :=
  ⟨BitVec.le_toInt v, BitVec.toInt_lt⟩

theorem hView_16 (v : Word) : |hView v| ≤ 2 ^ 15 := by
  have := toInt_32 v
  rw [abs_le, hView]
  omega

/-- A product of two components of 16 bits. -/
theorem hView_mul (v w : Word) : |hView v * hView w| ≤ 2 ^ 30 := by
  rw [abs_mul]
  calc |hView v| * |hView w| ≤ 2 ^ 15 * 2 ^ 15 := mul_le_mul (hView_16 v) (hView_16 w) (abs_nonneg _) (by decide)
    _ = 2 ^ 30 := by decide

theorem accFits_cprod (x : Engine) (i j : Nat) : AccFits (cprod (x.hv i) (x.hv j)) := by
  have rr := abs_le.mp (hView_mul (x.cr i).1 (x.cr j).1)
  have ii := abs_le.mp (hView_mul (x.cr i).2 (x.cr j).2)
  have ri := abs_le.mp (hView_mul (x.cr i).1 (x.cr j).2)
  have ir := abs_le.mp (hView_mul (x.cr i).2 (x.cr j).1)
  simp only [AccFits, cprod, Engine.hv]
  omega

theorem accFits_cprod_cconj (x : Engine) (i j : Nat) : AccFits (cprod (x.hv i) (cconj (x.hv j))) := by
  have rr := abs_le.mp (hView_mul (x.cr i).1 (x.cr j).1)
  have ii := abs_le.mp (hView_mul (x.cr i).2 (x.cr j).2)
  have ri := abs_le.mp (hView_mul (x.cr i).1 (x.cr j).2)
  have ir := abs_le.mp (hView_mul (x.cr i).2 (x.cr j).1)
  simp only [AccFits, cprod, cconj, Engine.hv, mul_neg]
  omega

theorem accFits_cpower (x : Engine) (i : Nat) : AccFits (cpower (x.hv i), 0) := by
  have rr := abs_le.mp (hView_mul (x.cr i).1 (x.cr i).1)
  have ii := abs_le.mp (hView_mul (x.cr i).2 (x.cr i).2)
  simp only [AccFits, cpower, Engine.hv]
  omega

/-- A component of 32 bits with an index of 32 bits, as a peak leaves it. -/
theorem accFits_words (v w : Word) : AccFits (v.toInt, w.toInt) := by
  have := toInt_32 v
  have := toInt_32 w
  simp only [AccFits]
  omega

/-- A component that an accumulator held with an index of 32 bits. -/
theorem accFits_peak {a : Int × Int} (h : AccFits a) (w : Word) : AccFits (a.1, w.toInt) := by
  have := toInt_32 w
  obtain ⟨lo, hi, -, -⟩ := h
  exact ⟨lo, hi, by dsimp only; omega, by dsimp only; omega⟩

theorem accFits_peakStep {best : Int × Int} (h : AccFits best) (v w : Word) : AccFits (peakStep best v.toInt w) := by
  unfold peakStep
  split
  · exact accFits_words v w
  · exact h

theorem signed_16 (n : Nat) : -(2 ^ 15) ≤ signed 16 n ∧ signed 16 n < 2 ^ 15 := by
  unfold signed
  split <;> omega

/-- MOVR to the high view of a component keeps it within 48 bits (R282). -/
theorem accHigh_48 (a : Int) (v : Word) : -(2 ^ 47) ≤ accHigh a v ∧ accHigh a v < 2 ^ 47 := by
  have := signed_16 v.toNat
  unfold accHigh
  omega

/-! Writes of other registers. -/

theorem Engine.Bounded.setG (h : x.Bounded) (i : Nat) (v : Word) : (x.setG i v).Bounded := by
  unfold Engine.setG; split <;> exact h

theorem Engine.Bounded.setC (h : x.Bounded) (i : Nat) (v : Word × Word) : (x.setC i v).Bounded := h
theorem Engine.Bounded.setP (h : x.Bounded) (i : Nat) (v : Word) : (x.setP i v).Bounded := h
theorem Engine.Bounded.setSt (h : x.Bounded) (i : Nat) (b : Bool) : (x.setSt i b).Bounded := h
theorem Engine.Bounded.setPort (h : x.Bounded) (k : Nat) (p : PortSt) : (x.setPort k p).Bounded := h

theorem Engine.Bounded.stick (h : x.Bounded) (i : Nat) (b : Bool) : (x.stick i b).Bounded := by
  unfold Engine.stick; split <;> exact h

theorem Engine.Bounded.accum (h : x.Bounded) (i : Nat) (v : Int × Int) : (x.accum i v).Bounded :=
  (h.setA i ⟨(satTo_48 _).1, (satTo_48 _).2, satTo_48 _⟩).stick _ _

theorem Engine.Bounded.putW (h : x.Bounded) (i : Nat) (v : Int × Int) : (x.putW i v).Bounded := (h.setC i _).stick _ _
theorem Engine.Bounded.putH (h : x.Bounded) (i : Nat) (v : Int × Int) : (x.putH i v).Bounded := (h.setC i _).stick _ _
theorem Engine.Bounded.flagsZN (h : x.Bounded) (r : Word) : (x.flagsZN r).Bounded := h
theorem Engine.Bounded.flagsCV (h : x.Bounded) (c v : Bool) : (x.flagsCV c v).Bounded := h
theorem Engine.Bounded.alu (h : x.Bounded) (i : Nat) (r : Word) : (x.alu i r).Bounded := (h.flagsZN r).setG i r
theorem Engine.Bounded.aluCV (h : x.Bounded) (i : Nat) (r : Word) (c v : Bool) : (x.aluCV i r c v).Bounded :=
  ((h.flagsZN r).flagsCV c v).setG i r

theorem Engine.Bounded.ite {c : Prop} [Decidable c] {y : Engine} (h : x.Bounded) (k : y.Bounded) : (if c then x else y).Bounded := by
  split
  · exact h
  · exact k

/-- Writing any identifier of MOVR (R281, R282). -/
theorem Engine.Bounded.idWrite (h : x.Bounded) (i : Nat) (v : Word) : (x.idWrite i v).Bounded := by
  have low : -(2 ^ 47) ≤ accLow v ∧ accLow v < 2 ^ 47 := by
    have := toInt_32 v
    rw [accLow]
    omega
  have comp := h.ar
  exact .ite (h.setG i v) (.ite (h.setP _ v) (.ite h (.ite h (.ite h (.ite h (.ite h (.ite (h.setC _ _) (.ite (h.setC _ _)
    (.ite (h.setA _ ⟨low.1, low.2, (comp _).2.2⟩) (.ite (h.setA _ ⟨(accHigh_48 _ v).1, (accHigh_48 _ v).2, (comp _).2.2⟩)
    (.ite (h.setA _ ⟨(comp _).1, (comp _).2.1, low⟩) (h.setA _ ⟨(comp _).1, (comp _).2.1, accHigh_48 _ v⟩))))))))))))

end Sys2Proof.Machine
end

section
/-! SUPPORT. The bounds of every engine under the shared operations of the Disoex instructions: retirement, faults, issue, moves, commands. -/

namespace Sys2Proof.Machine

variable {x x' : Engine} {d d' : Device} {e : Nat}

/-! Retirement (R308 to R313). -/

theorem loopBack_length (w cd : Nat) (l : List RepLevel) : (loopBack w cd l).2.length ≤ l.length := by
  induction l with
  | nil => exact Nat.le_refl _
  | cons r rs ih =>
    unfold loopBack
    split
    · split
      · exact Nat.le_refl _
      · exact ih.trans (Nat.le_succ _)
    · exact Nat.le_refl _

/-- Retiring keeps an engine's bounds: CALL and REP fault where the stack or the levels are full. -/
theorem Engine.Bounded.retire (h : x.Bounded) {len : Nat} {ctl : Ctl} (hr : x.retire len ctl = .ok x') : x'.Bounded := by
  obtain ⟨hs, hl, hrest⟩ := h
  cases ctl with
  | seq =>
    cases hr
    exact ⟨hs, (loopBack_length _ _ _).trans hl, hrest⟩
  | branch t =>
    simp only [Engine.retire] at hr
    split at hr <;> [cases hr; split at hr] <;> cases hr
    exact ⟨hs, hl, hrest⟩
  | call t =>
    simp only [Engine.retire] at hr
    split at hr <;> [cases hr; split at hr] <;> [cases hr; skip]
    rename_i full
    split at hr <;> cases hr
    exact ⟨Nat.succ_le_of_lt (Nat.lt_of_not_le full), hl, hrest⟩
  | ret =>
    simp only [Engine.retire] at hr
    split at hr
    · cases hr
    · next a rest stack =>
      split at hr <;> cases hr
      rw [stack] at hs
      exact ⟨(Nat.le_succ _).trans hs, hl, hrest⟩
  | brk =>
    simp only [Engine.retire] at hr
    split at hr
    · cases hr
    · next r rest levels =>
      split at hr <;> cases hr
      rw [levels] at hl
      exact ⟨hs, (Nat.le_succ _).trans hl, hrest⟩
  | loop l =>
    simp only [Engine.retire] at hr
    split at hr
    · cases hr
    · next free =>
      cases hr
      simp only [Bool.or_eq_true, decide_eq_true_eq, not_or, Nat.not_le] at free
      exact ⟨hs, Nat.succ_le_of_lt free.1.1, hrest⟩
  | skip fin =>
    simp only [Engine.retire] at hr
    split at hr <;> cases hr
    exact ⟨hs, hl, hrest⟩
  | stay =>
    cases hr
    exact ⟨hs, hl, hrest⟩

/-! Every engine. -/

/-- Every engine meets its bounds. -/
def Device.Bounded (d : Device) : Prop := ∀ e, (d.eng e).Bounded

theorem Device.Bounded.congr (hd : d.Bounded) (h : d'.engines = d.engines) : d'.Bounded := fun e => by
  rw [Device.eng_congr h]
  exact hd e

theorem Device.Bounded.setEng (hd : d.Bounded) (e : Nat) (hx : x.Bounded) : (d.setEng e x).Bounded := fun j => by
  by_cases h : j = e
  · rw [h, Device.eng_setEng]
    exact hx
  · rw [Device.eng_setEng_other _ _ _ _ h]
    exact hd j

/-- An entry joins a queue that has room (R264). -/
theorem Device.Bounded.notify (hd : d.Bounded) (e entry : Nat) : (d.notify e entry).Bounded := by
  unfold Device.notify
  dsimp only
  split
  · exact hd.congr rfl
  · split
    · next room =>
      obtain ⟨hs, hr, -, hrest⟩ := hd e
      refine hd.setEng e ⟨hs, hr, ?_, hrest⟩
      rw [List.length_append]
      exact room
    · exact (hd.setEng e (x := { d.eng e with evLost := true }) (hd e)).congr rfl

theorem Device.Bounded.engFault (hd : d.Bounded) (e cause : Nat) : (d.engFault e cause).Bounded :=
  ((hd.setEng e (x := { d.eng e with state := 3, cause := cause }) (hd e)).congr
    (d' := (d.setEng e { d.eng e with state := 3, cause := cause }).flag _ _) rfl).notify 0 _

/-! Issue. -/

/-- Issuing keeps the bounds where the instruction's effect keeps them. -/
theorem Device.Bounded.issue (hd : d.Bounded) {i : Instr} {len : Nat} {touch : List Nat} {f : Device → Except Nat (Device × Ctl)}
    (hf : ∀ d' ctl, f d = .ok (d', ctl) → d'.Bounded) : (d.issue e i len touch f).Bounded := by
  rcases d.issue_cases e i len touch f with h | ⟨c, h⟩ | ⟨d', ctl, x', -, ok, retired, h⟩
  · rw [h]; exact hd
  · rw [h]; exact hd.engFault e c
  · rw [h]
    exact (hf d' ctl ok).setEng e (((hf d' ctl ok) e).retire retired)

theorem Device.Bounded.issueReg (hd : d.Bounded) {i : Instr} {len : Nat} {touch : List Nat} {g : Engine → Engine}
    (hg : (g (d.eng e)).Bounded) : (d.issueReg e i len touch g).Bounded :=
  hd.issue fun d' ctl h => by cases h; exact hd.setEng e hg

theorem Device.Bounded.issueCtl (hd : d.Bounded) {i : Instr} {len : Nat} {touch : List Nat} {c : Engine → Ctl} :
    (d.issueCtl e i len touch c).Bounded :=
  hd.issue fun d' ctl h => by cases h; exact hd

/-! Complex instructions (R288). -/

theorem Device.Bounded.moveReg (hd : d.Bounded) (d0 : Device) (e : Nat) (p : Option (Move × DLoc)) : (Device.moveReg d0 d e p).Bounded := by
  cases p with
  | none => exact hd
  | some mw =>
    refine hd.setEng e (Engine.Bounded.ite ?_ (Engine.Bounded.setC ?_ _ _)) <;> exact .ite ((hd e).setP _ _) (hd e)

theorem Device.dwrite_engines {w : DLoc} {bs : List Byte} (h : d.dwrite e w bs = .ok d') : d'.engines = d.engines := by
  cases w with
  | x o => cases h; exact Device.bankTouch_engines _ _ _
  | y o => cases h; exact Device.bankTouch_engines _ _ _
  | l o => cases h; rfl
  | port k o => cases h

theorem Device.moveMem_engines {d0 : Device} {p : Option (Move × DLoc)} (h : Device.moveMem d0 d e p = .ok d') : d'.engines = d.engines := by
  cases p with
  | none => cases h; rfl
  | some mw =>
    simp only [Device.moveMem] at h
    split at h
    · exact Device.dwrite_engines h
    · cases h; exact Device.bankTouch_engines _ _ _

theorem Device.Bounded.complex (hd : d.Bounded) {i : Instr} {mv : Moves} {touch : List Nat} {f : Engine → Engine}
    (hf : (f (d.eng e)).Bounded) : (d.complex e i mv touch f).Bounded :=
  hd.issue fun d' ctl h => by
    simp only [Device.withMoves] at h
    split at h
    · cases h
    · cases h
    · split at h
      · cases h
      · next d2 m2 =>
        split at h
        · cases h
        · next d3 m3 =>
          cases h
          exact (((hd.setEng e hf).moveReg d e _).moveReg d e _).congr ((Device.moveMem_engines m3).trans (Device.moveMem_engines m2))

/-! Unit commands (R257, R260, R315). -/

theorem Device.Bounded.ucmdWord (hd : d.Bounded) (e k w : Nat) (block : List Byte) : (d.ucmdWord e k w block).Bounded := by
  unfold Device.ucmdWord
  dsimp only
  split
  · exact (hd.setEng e ((hd e).setSt stPR true)).congr rfl
  · have cleared := hd.setEng e ((hd e).setSt stPR false)
    split
    · exact (cleared.setEng e ((cleared e).setPort k _)).congr rfl
    · exact cleared.setEng e ((cleared e).setPort k _)

/-! Test-only instructions (R325). -/

theorem Device.Bounded.testOnly (hd : d.Bounded) {i : Instr} {touch : List Nat} {phys : Option Nat} {f : Device → Nat → Device}
    (hf : ∀ p, (f d p).engines = d.engines) : (d.testOnly e i touch phys f).Bounded := by
  have refused : (d.issue e i 1 touch fun _ => .error 10).Bounded := hd.issue fun d' ctl h => by cases h
  unfold Device.testOnly
  split
  · exact refused
  · split
    · exact hd.congr (hf _)
    · exact refused

theorem Device.OnlyTest.engines {p : Nat} (h : d.OnlyTest d' p) : d'.engines = d.engines := by
  obtain ⟨hd, -, -⟩ := h
  rw [hd]

end Sys2Proof.Machine
end

section
/-! SUPPORT. The bounds of every engine under each Disoex instruction. -/

namespace Sys2Proof.Machine

variable {d d' : Device} {s t : State} {e : Nat} {i : Instr}

theorem Device.Bounded.of_next (h : exec i s = .next t) (hn : exec i s = .next { s with dev := d }) (hd : d.Bounded) : t.dev.Bounded := by
  rw [hn] at h
  cases h
  exact hd

theorem Device.engines_ite {c : Prop} [Decidable c] {d₁ d₂ : Device} (h₁ : d₁.engines = d.engines) (h₂ : d₂.engines = d.engines) :
    (if c then d₁ else d₂).engines = d.engines := by
  split
  · exact h₁
  · exact h₂

/-- One engine is written from what it was, after an operation that leaves the engines. -/
theorem Device.Bounded.updEng (hd : d.Bounded) (hk : d'.engines = d.engines) (e : Nat) {g : Engine → Engine}
    (hg : ∀ x : Engine, x.Bounded → (g x).Bounded) : (d'.setEng e (g (d'.eng e))).Bounded :=
  (hd.congr hk).setEng e (hg _ (hd.congr hk e))

/-! Loads and stores. -/

/-- A load clears DONE of a port at most, which is no bound (R262). -/
theorem Device.Bounded.dreadEffect (hd : d.Bounded) (e : Nat) (w : DLoc) (n : Nat) : (d.dreadEffect e w n).Bounded := by
  cases w with
  | port k off =>
    simp only [Device.dreadEffect]
    split
    · exact hd.setEng e ((hd e).setPort k _)
    · exact hd
  | x o => exact hd.congr (Device.bankTouch_engines _ _ _)
  | y o => exact hd.congr (Device.bankTouch_engines _ _ _)
  | l o => exact hd.congr (Device.bankTouch_engines _ _ _)

theorem bounded_ld {g p m n : Nat} {u : Bool} (hd : s.dev.Bounded) (h : exec (.ld e g p m n u) s = .next t) : t.dev.Bounded :=
  .of_next h rfl <| hd.issue fun d' ctl h => by
    dsimp only at h
    split at h
    · cases h
    · next w _ =>
      cases h
      have read := hd.dreadEffect e w (sizeBytes n)
      exact read.setEng e (((read e).setP _ _).setG _ _)

theorem bounded_ldc {c p m : Nat} {wide : Bool} (hd : s.dev.Bounded) (h : exec (.ldc e c p m wide) s = .next t) : t.dev.Bounded :=
  .of_next h rfl <| hd.issue fun d' ctl h => by
    dsimp only at h
    split at h
    · cases h
    · next w _ =>
      cases h
      have read := hd.dreadEffect e w (cSize wide)
      exact read.setEng e (((read e).setP _ _).setC _ _)

theorem bounded_st {g p m n : Nat} (hd : s.dev.Bounded) (h : exec (.st e g p m n) s = .next t) : t.dev.Bounded :=
  .of_next h rfl <| hd.issue fun d' ctl h => by
    dsimp only at h
    split at h
    · cases h
    · split at h
      · cases h
      · next stored =>
        cases h
        exact hd.updEng (g := fun x => x.setP p _) (Device.dwrite_engines stored) e fun x hx => hx.setP _ _

theorem bounded_stc {c p m : Nat} {wide : Bool} (hd : s.dev.Bounded) (h : exec (.stc e c p m wide) s = .next t) : t.dev.Bounded :=
  .of_next h rfl <| hd.issue fun d' ctl h => by
    dsimp only at h
    split at h
    · cases h
    · split at h
      · cases h
      · next stored =>
        cases h
        exact hd.updEng (g := fun x => x.setP p _) (Device.dwrite_engines stored) e fun x hx => hx.setP _ _

/-! Queues (R316 to R319). -/

theorem bounded_qpush {q n p : Nat} (hd : s.dev.Bounded) (h : exec (.qpush e q n p) s = .next t) : t.dev.Bounded :=
  .of_next h rfl <| hd.issue fun d' ctl h => by
    dsimp only at h
    split at h
    · cases h
    · cases h
      exact hd.updEng (g := fun x => ((x.setSt stQF _).setSt stQX _).setG n _)
        (Device.engines_ite ((Device.qAccept_engines _ _ _ _ _ _).trans (Device.bankUse_engines _ _)) (Device.bankUse_engines _ _)) e
        fun x hx => ((hx.setSt _ _).setSt _ _).setG _ _

theorem Engine.Bounded.popBits {x : Engine} (h : x.Bounded) (qe ql qx : Bool) : (x.popBits qe ql qx).Bounded := h

theorem bounded_qpop {q n p : Nat} (hd : s.dev.Bounded) (h : exec (.qpop e q n p) s = .next t) : t.dev.Bounded :=
  .of_next h rfl <| hd.issue fun d' ctl h => by
    dsimp only at h
    split at h
    · cases h
    · split at h
      · cases h
      · split at h
        · cases h
          exact hd.setEng e ((hd e).popBits _ _ _)
        · split at h
          · cases h
            exact hd.updEng (g := fun x => (x.popBits true false false).setG n 1)
              (Device.engines_ite (Device.putData_engines _ _ _ _) rfl) e fun x hx => (hx.popBits _ _ _).setG _ _
          · split at h
            · cases h
              refine hd.updEng (g := fun x => (x.popBits false false false).setG n _) ?_ e fun x hx => (hx.popBits _ _ _).setG _ _
              rw [Device.qAdvance_engines, Device.qRefills_engines, Device.putData_engines]
            · cases h
              exact hd.setEng e (((hd e).popBits _ _ _).setG _ _)

theorem Device.Bounded.queuePosition (hd : d.Bounded) {q : Nat} {f : Device → Nat → Device} (hf : ∀ q, (f d q).engines = d.engines) :
    (d.queuePosition e i q f).Bounded :=
  hd.issue fun d' ctl h => by
    dsimp only at h
    split at h
    · cases h
    · next r _ =>
      split at h
      · cases h
        exact hd.updEng (hf r) e fun x hx => hx.setSt _ _
      · cases h
        exact hd.setEng e ((hd e).setSt _ _)

/-! Events and waiting (R266, R320). -/

theorem bounded_wait (hd : s.dev.Bounded) (h : exec (.wait e) s = .next t) : t.dev.Bounded :=
  .of_next h rfl <| hd.issue fun d' ctl h => by
    split at h
    · cases h
    · split at h
      · cases h; exact hd
      · cases h; exact hd.setEng e (x := { s.dev.eng e with state := 2 }) (hd e)

theorem bounded_evget {c : Nat} (hd : s.dev.Bounded) (h : exec (.evget e c) s = .next t) : t.dev.Bounded :=
  .of_next h rfl <| hd.issueReg <| by
    obtain ⟨hs, hr, hq, hrest⟩ := hd e
    split
    · exact ⟨hs, hr, hq, hrest⟩
    · next w rest queue =>
      rw [queue] at hq
      exact ⟨hs, hr, (Nat.le_succ _).trans hq, hrest⟩

/-! Far memory (R322, R323). -/

theorem bounded_fld {g b n o : Nat} {u : Bool} (hd : s.dev.Bounded) (h : exec (.fld e g b n u o) s = .next t) : t.dev.Bounded :=
  .of_next h rfl <| by
    beta_reduce
    split
    · exact hd
    · next room =>
      refine hd.issue fun d' ctl h => ?_
      dsimp only at h
      split at h
      · cases h
      · cases h
        obtain ⟨hs, hr, hq, -, hrest⟩ := hd e
        refine Device.Bounded.setEng (hd.congr rfl) e ⟨hs, hr, hq, ?_, hrest⟩
        rw [List.length_append]
        exact Nat.lt_of_not_le room

theorem bounded_fst {g b n o : Nat} (hd : s.dev.Bounded) (h : exec (.fst e g b n o) s = .next t) : t.dev.Bounded :=
  .of_next h rfl <| by
    beta_reduce
    split
    · exact hd
    · next room =>
      refine hd.issue fun d' ctl h => ?_
      dsimp only at h
      split at h
      · cases h
      · cases h
        obtain ⟨hs, hr, hq, hl, -, hrest⟩ := hd e
        refine Device.Bounded.setEng (hd.congr rfl) e ⟨hs, hr, hq, hl, ?_, hrest⟩
        rw [List.length_append]
        exact Nat.lt_of_not_le room

theorem bounded_ffence (hd : s.dev.Bounded) (h : exec (.ffence e) s = .next t) : t.dev.Bounded :=
  .of_next h rfl <| by
    beta_reduce
    split
    · exact hd
    · exact hd.issueCtl

/-! The system group, and UCMD (R272, R315, R324). -/

theorem bounded_halt (hd : s.dev.Bounded) (h : exec (.halt e) s = .next t) : t.dev.Bounded :=
  .of_next h rfl <| hd.issue fun d' ctl h => by
    cases h
    obtain ⟨hs, hr, -, hrest⟩ := hd e
    unfold Device.engStop
    dsimp only
    split
    · exact hd
    · split
      · exact hd
      · exact hd.setEng e ⟨hs, hr, Nat.zero_le _, hrest⟩

theorem bounded_sleep (hd : s.dev.Bounded) (h : exec (.sleep e) s = .next t) : t.dev.Bounded :=
  .of_next h rfl <| hd.issue fun d' ctl h => by
    split at h
    · cases h
    · cases h
      exact hd.ucmdWord _ _ _ _

theorem bounded_time {g : Nat} (hd : s.dev.Bounded) (h : exec (.time e g) s = .next t) : t.dev.Bounded :=
  .of_next h rfl <| hd.issue fun d' ctl h => by
    cases h
    exact hd.setEng e (((hd e).setG _ _).setG _ _)

theorem bounded_ucmd {k g : Nat} (hd : s.dev.Bounded) (h : exec (.ucmd e k g) s = .next t) : t.dev.Bounded :=
  .of_next h rfl <| hd.issue fun d' ctl h => by
    cases h
    exact Device.Bounded.ucmdWord (hd.congr (Device.engines_ite rfl (Device.bankUse_engines _ _))) _ _ _ _

/-- Every Disoex instruction keeps every engine within its bounds. -/
theorem bounded_exec (hi : (encode i).isSome = true) (hd : s.dev.Bounded) (h : exec i s = .next t) : t.dev.Bounded := by
  have hx := fun e => hd e
  cases i with
  | nop e | sync e | br e c o | bbc e b o | bbs e b o | call e o | callr e g | jmp e g | ret e | brk e c | rep e src b =>
    exact .of_next h rfl hd.issueCtl
  | add e a b c | sub e a b c | addi e a b n => exact .of_next h rfl (hd.issueReg ((hx e).aluCV _ _ _ _))
  | and e a b c | or e a b c | xor e a b c | shl e a b c | shr e a b c | sar e a b c | mul e a b c | mulh e a b c | mulhu e a b c
  | min e a b c | max e a b c | minu e a b c | maxu e a b c | clz e a b | popc e a b | andi e a b n | ori e a b n | xori e a b n
  | shli e a b n | shri e a b n | sari e a b n | itof e a b x => exact .of_next h rfl (hd.issueReg ((hx e).alu _ _))
  | cmpi e b n => exact .of_next h rfl (hd.issueReg (((hx e).flagsZN _).flagsCV _ _))
  | ftoi e a b x => exact .of_next h rfl (hd.issueReg ((((hx e).flagsZN _).setSt _ _).setG _ _))
  | movr e a b => exact .of_next h rfl (hd.issueReg ((hx e).idWrite _ _))
  | ld e g p m n u => exact bounded_ld hd h
  | st e g p m n => exact bounded_st hd h
  | ldc e c p m wide => exact bounded_ldc hd h
  | stc e c p m wide => exact bounded_stc hd h
  | cmac e a x y mv | cmacc e a x y mv | cmsu e a x y mv | cpowa e a x mv | aadd e a b mv => exact .of_next h rfl (hd.complex ((hx e).accum _ _))
  | cmul e a x y mv => exact .of_next h rfl (hd.complex ((hx e).setA _ (accFits_cprod _ x y)))
  | cmulc e a x y mv => exact .of_next h rfl (hd.complex ((hx e).setA _ (accFits_cprod_cconj _ x y)))
  | cpow e a x mv => exact .of_next h rfl (hd.complex ((hx e).setA _ (accFits_cpower _ x)))
  | aclr e a mv => exact .of_next h rfl (hd.complex ((hx e).setA _ ⟨by decide, by decide, by decide, by decide⟩))
  | cnop e mv => exact .of_next h rfl (hd.complex (f := fun x => x) (hx e))
  | cmulr e c a b mv | arndH e c a n mv => exact .of_next h rfl (hd.complex ((hx e).putH _ _))
  | cadd e c a b mv | csub e c a b mv | cconj e c a mv | arndW e c a n mv | cscl e c a n mv =>
    exact .of_next h rfl (hd.complex ((hx e).putW _ _))
  | cmov e c a mv => exact .of_next h rfl (hd.complex ((hx e).setC _ _))
  | amov e a b mv => exact .of_next h rfl (hd.complex ((hx e).setA _ ((hx e).ar b)))
  | apeak e a b g mv => exact .of_next h rfl (hd.complex (.setG (.ite ((hx e).setA _ (accFits_peak ((hx e).ar b) _)) (hx e)) _ _))
  | cpeak e a c g mv =>
    exact .of_next h rfl (hd.complex (((hx e).setA _ (accFits_peakStep (accFits_peakStep ((hx e).ar a) _ _) _ _)).setG _ _))
  | ucmd e k g => exact bounded_ucmd hd h
  | qpush e q n p => exact bounded_qpush hd h
  | qpop e q n p => exact bounded_qpop hd h
  | qmark e q => exact .of_next h rfl (hd.queuePosition fun _ => rfl)
  | qrew e q => exact .of_next h rfl (hd.queuePosition (Device.qRewind_engines _))
  | qrel e q => exact .of_next h rfl (hd.queuePosition (Device.qRelease_engines _))
  | wait e => exact bounded_wait hd h
  | evget e c => exact bounded_evget hd h
  | evack e => exact .of_next h rfl (hd.issueReg (g := fun x => { x with timerExp := false }) (hx e))
  | fld e g b n u o => exact bounded_fld hd h
  | fst e g b n o => exact bounded_fst hd h
  | ffence e => exact bounded_ffence hd h
  | halt e => exact bounded_halt hd h
  | sleep e => exact bounded_sleep hd h
  | time e g => exact bounded_time hd h
  | tprpg e g p => exact .of_next h rfl (hd.testOnly fun p => (s.dev.tprpg_leaves g p).1.engines)
  | tscan e g p => exact .of_next h rfl (hd.testOnly fun p => (s.dev.tscan_leaves g p).1.engines)
  | tmisr e g p => exact .of_next h rfl (hd.testOnly fun p => rfl)
  | _ => cases hi

end Sys2Proof.Machine
end

section
/-! PROOFS. The bounds of the engines as an invariant of the Disoex instructions (R264, R280, R290, R310, R312, R323). -/

namespace Sys2Proof.Machine

theorem step_cons {i : Instr} {rest : List Instr} {s : State} (h : s.pending = i :: rest) :
    step s = exec i { s with pending := rest } := by
  rw [step, h]

/-- Settles O20: a step runs the instruction, which keeps every engine's bounds. -/
theorem engineBoundsKept : Obligations.EngineBoundsKept := by
  intro i rest s t hi hp hd ht
  rw [step_cons hp] at ht
  exact bounded_exec (s := { s with pending := rest }) hi hd ht

end Sys2Proof.Machine
end

section
/-! SUPPORT. The results and flags of the integer instructions as the tables state them (R302, R303), beside those that the model computes. -/

namespace Sys2Proof.Machine

variable {a b : Word}

/-! Flags (R283). -/

theorem satTo_ne_iff_32 (z : Int) : satTo 32 z ≠ z ↔ z < -(2 ^ 31) ∨ 2 ^ 31 ≤ z := by
  unfold satTo
  split <;> [skip; split] <;> omega

/-- A sum overflows where the operands agree in sign and the result does not. -/
theorem addOverflow_eq (a b : Word) : addOverflow a b = decide (a.msb = b.msb ∧ (a + b).msb ≠ a.msb) := by
  rw [addOverflow, saturates, decide_eq_decide, satTo_ne_iff_32]
  simp only [BitVec.msb_eq_decide, ne_eq, decide_eq_decide, BitVec.toInt_eq_toNat_cond, BitVec.toNat_add]
  omega

/-- A difference overflows where the operands differ in sign and the result's is not the first's. -/
theorem subOverflow_eq (a b : Word) : subOverflow a b = decide (a.msb ≠ b.msb ∧ (a - b).msb ≠ a.msb) := by
  rw [subOverflow, saturates, decide_eq_decide, satTo_ne_iff_32]
  simp only [BitVec.msb_eq_decide, ne_eq, decide_eq_decide, BitVec.toInt_eq_toNat_cond, BitVec.toNat_sub]
  omega

/-! Shifts by 32 and more. -/

theorem shlW_eq (a b : Word) : shlW a b = if b.toNat % 64 < 32 then a <<< (b.toNat % 64) else 0 := by
  split
  · rfl
  · next h => exact BitVec.shiftLeft_eq_zero (Nat.not_lt.mp h)

theorem shrW_eq (a b : Word) : shrW a b = if b.toNat % 64 < 32 then a >>> (b.toNat % 64) else 0 := by
  split
  · rfl
  · next h => exact BitVec.ushiftRight_eq_zero (Nat.not_lt.mp h)

theorem sarW_eq (a b : Word) :
    sarW a b = if b.toNat % 64 < 32 then a.sshiftRight (b.toNat % 64) else if a.msb then -1 else 0 := by
  split
  · rfl
  · next h =>
    rw [Nat.not_lt] at h
    rw [sarW]
    split
    · next hm => rw [BitVec.sshiftRight_eq_of_msb_true hm, BitVec.ushiftRight_eq_zero h]; rfl
    · next hm => rw [BitVec.sshiftRight_eq_of_msb_false (by simpa using hm), BitVec.ushiftRight_eq_zero h]; rfl

/-! Products. -/

theorem mul_eq_ofNat (a b : Word) : a * b = BitVec.ofNat 32 (a.toNat * b.toNat) :=
  BitVec.eq_of_toNat_eq (by rw [BitVec.toNat_mul, BitVec.toNat_ofNat])

theorem mulhuW_eq (a b : Word) : mulhuW a b = ((a.setWidth 64 * b.setWidth 64) >>> 32).setWidth 32 := by
  have ha := a.isLt
  have hb := b.isLt
  have hab : a.toNat * b.toNat < 2 ^ 32 * 2 ^ 32 := Nat.mul_lt_mul'' ha hb
  apply BitVec.eq_of_toNat_eq
  simp only [mulhuW, BitVec.toNat_ofNat, BitVec.toNat_setWidth, BitVec.toNat_ushiftRight, BitVec.toNat_mul, Nat.shiftRight_eq_div_pow]
  rw [Nat.mod_eq_of_lt (a := a.toNat) (by omega), Nat.mod_eq_of_lt (a := b.toNat) (by omega), Nat.mod_eq_of_lt (b := 2 ^ 64) hab]

theorem mulhW_eq (a b : Word) : mulhW a b = ((a.signExtend 64 * b.signExtend 64) >>> 32).setWidth 32 := by
  have prod : (a.signExtend 64 * b.signExtend 64) = BitVec.ofInt 64 (a.toInt * b.toInt) := by
    apply BitVec.eq_of_toInt_eq
    rw [BitVec.toInt_mul, BitVec.toInt_signExtend_of_le (by decide), BitVec.toInt_signExtend_of_le (by decide), BitVec.toInt_ofInt]
  rw [prod, mulhW]
  apply BitVec.eq_of_toNat_eq
  simp only [BitVec.toNat_setWidth, BitVec.toNat_ushiftRight, BitVec.toNat_ofInt, Nat.shiftRight_eq_div_pow]
  omega

/-! Minima and maxima. -/

theorem minW_eq (a b : Word) : minW a b = if a.sle b then a else b := by
  simp only [minW, BitVec.sle_iff_toInt_le]

theorem maxW_eq (a b : Word) : maxW a b = if a.sle b then b else a := by
  simp only [maxW, BitVec.sle_iff_toInt_le]

/-! Counts of bits. -/

theorem clzW_zero : clzW 0 = 32 := rfl

/-- The leading zeros of a word that is not zero place its highest bit. -/
theorem clzW_bounds (h : a ≠ 0) : (clzW a).toNat ≤ 31 ∧ 2 ^ (31 - (clzW a).toNat) ≤ a.toNat ∧ a.toNat < 2 ^ (32 - (clzW a).toNat) := by
  have h0 : a.toNat ≠ 0 := fun h0 => h (BitVec.eq_of_toNat_eq h0)
  have hl : a.toNat.log2 < 32 := (Nat.log2_lt h0).mpr a.isLt
  have hc : (clzW a).toNat = 31 - a.toNat.log2 := by
    rw [clzW, if_neg h, BitVec.toNat_ofNat]
    omega
  rw [hc, show 31 - (31 - a.toNat.log2) = a.toNat.log2 by omega, show 32 - (31 - a.toNat.log2) = a.toNat.log2 + 1 by omega]
  exact ⟨by omega, Nat.log2_self_le h0, Nat.lt_log2_self⟩

theorem popcW_eq (a : Word) : popcW a = BitVec.ofNat 32 ((List.range 32).filter (fun i => a.getLsbD i)).length := by
  have bits : bitAt a.toNat = fun i => a.getLsbD i := funext fun i => by rw [bitAt_eq_testBit, BitVec.testBit_toNat]
  rw [popcW, popCount, onesBelow, bits]

/-! Immediates (R303). -/

theorem Imm.zx_short (v : Nat) : (Imm.short v).zx = (BitVec.ofNat 16 v).setWidth 32 :=
  BitVec.eq_of_toNat_eq (by simp [Imm.zx])

/-! Rows that complete with an integer result. -/

variable {s : State} {e gd gs len : Nat} {i : Instr} {touch : List Nat} {g : Engine → Engine} {r : Word} {c v : Bool}

theorem Reaches.mono {P Q : Device → Prop} (h : Reaches i s P) (hpq : ∀ d, P d → Q d) : Reaches i s Q := by
  obtain ⟨t, ht, hpend, hp⟩ := h
  exact ⟨t, ht, hpend, hpq _ hp⟩

theorem Reaches.alu (hx : exec i s = .next { s with dev := s.dev.issueReg e i len touch g }) (h : s.dev.issuesNow e i len touch)
    (hg : g (s.dev.eng e) = (s.dev.eng e).alu gd r) : Reaches i s (fun d' => IntegerResult s.dev d' e len gd r none) :=
  .of_eq hx (.of_alu h hg)

theorem Reaches.aluCV (hx : exec i s = .next { s with dev := s.dev.issueReg e i len touch g }) (h : s.dev.issuesNow e i len touch)
    (hg : g (s.dev.eng e) = (s.dev.eng e).aluCV gd r c v) :
    Reaches i s (fun d' => IntegerResult s.dev d' e len gd r (some (c, v))) :=
  .of_eq hx (.of_aluCV h hg)

/-- The bits of st after all four flags are written. -/
theorem Engine.stBit_flags (x : Engine) (r : Word) (c v : Bool) :
    ((x.flagsZN r).flagsCV c v).stBit stZ = decide (r = 0) ∧ ((x.flagsZN r).flagsCV c v).stBit stN = r.msb ∧
      ((x.flagsZN r).flagsCV c v).stBit stC = c ∧ ((x.flagsZN r).flagsCV c v).stBit stV = v ∧
      ∀ b, 4 ≤ b → b < 12 → ((x.flagsZN r).flagsCV c v).stBit b = x.stBit b := by
  have bits : ∀ j, j < 12 → ((x.flagsZN r).flagsCV c v).stBit j =
      if j = 3 then v else if j = 2 then c else if j = 1 then r.msb else if j = 0 then decide (r = 0) else x.stBit j := fun j hj => by
    rw [Engine.stBit_flagsCV _ _ _ _ hj, Engine.stBit_flagsZN _ _ _ hj]
  refine ⟨bits 0 (by decide), bits 1 (by decide), bits 2 (by decide), bits 3 (by decide), fun b hb hb' => ?_⟩
  rw [bits b hb', if_neg (by omega), if_neg (by omega), if_neg (by omega), if_neg (by omega)]

/-- CMPI writes the flags of the difference and no register (R303). -/
theorem reaches_cmpi {imm : Imm} (h : s.dev.issuesNow e (.cmpi e gs imm) imm.len [gs]) :
    Reaches (.cmpi e gs imm) s (fun d' => ∃ y : Engine, OnlyEngine s.dev d' e y ∧
      y = { (s.dev.eng e).next imm.len with st := y.st } ∧
      y.stBit stZ = decide ((s.dev.eng e).gr gs - imm.sx = 0) ∧ y.stBit stN = ((s.dev.eng e).gr gs - imm.sx).msb ∧
      y.stBit stC = subCarry ((s.dev.eng e).gr gs) imm.sx ∧ y.stBit stV = subOverflow ((s.dev.eng e).gr gs) imm.sx ∧
      ∀ b, 4 ≤ b → b < 12 → y.stBit b = (s.dev.eng e).stBit b) := by
  obtain ⟨hz, hn, hc, hv, hrest⟩ := (s.dev.eng e).stBit_flags ((s.dev.eng e).gr gs - imm.sx) (subCarry ((s.dev.eng e).gr gs) imm.sx)
    (subOverflow ((s.dev.eng e).gr gs) imm.sx)
  refine .of_eq rfl ⟨_, Device.issueReg_ok h, ?_, ?_, ?_, ?_, ?_, fun b hb hb' => ?_⟩
  · rw [Engine.onlySt_trans (Engine.flagsZN_eq _ _) (Engine.flagsCV_eq _ _ _)]; rfl
  · rw [Engine.stBit_next _ _ _ (by decide), hz]
  · rw [Engine.stBit_next _ _ _ (by decide), hn]
  · rw [Engine.stBit_next _ _ _ (by decide), hc]
  · rw [Engine.stBit_next _ _ _ (by decide), hv]
  · rw [Engine.stBit_next _ _ _ hb', hrest b hb hb']

end Sys2Proof.Machine
end

section
/-! PROOFS. The integer instructions (R302, R303). -/

namespace Sys2Proof.Machine

/-- Settles O5, row by row: the register forms, then the immediate forms with the immediate in the first word and in the second. -/
theorem integerForms : Obligations.IntegerForms := by
  refine ⟨fun s e gd gs gt => ?_, fun s e gd gs n imm => ?_⟩
  · intro x a b n rows
    refine ⟨fun row hrow => ?_, fun h => ?_, fun h => .alu rfl h (congrArg (Engine.alu _ gd) (popcW_eq _))⟩
    · simp only [rows, List.mem_cons, List.not_mem_nil, or_false] at hrow
      obtain rfl | rfl | rfl | rfl | rfl | rfl | rfl | rfl | rfl | rfl | rfl | rfl | rfl | rfl | rfl := hrow
      · exact fun h => .aluCV rfl h (congrArg (Engine.aluCV _ gd _ _) (addOverflow_eq _ _))
      · exact fun h => .aluCV rfl h (congrArg (Engine.aluCV _ gd _ _) (subOverflow_eq _ _))
      · exact fun h => .alu rfl h rfl
      · exact fun h => .alu rfl h rfl
      · exact fun h => .alu rfl h rfl
      · exact fun h => .alu rfl h (congrArg (Engine.alu _ gd) (shlW_eq _ _))
      · exact fun h => .alu rfl h (congrArg (Engine.alu _ gd) (shrW_eq _ _))
      · exact fun h => .alu rfl h (congrArg (Engine.alu _ gd) (sarW_eq _ _))
      · exact fun h => .alu rfl h (congrArg (Engine.alu _ gd) (mul_eq_ofNat _ _))
      · exact fun h => .alu rfl h (congrArg (Engine.alu _ gd) (mulhW_eq _ _))
      · exact fun h => .alu rfl h (congrArg (Engine.alu _ gd) (mulhuW_eq _ _))
      · exact fun h => .alu rfl h (congrArg (Engine.alu _ gd) (minW_eq _ _))
      · exact fun h => .alu rfl h (congrArg (Engine.alu _ gd) (maxW_eq _ _))
      · exact fun h => .alu rfl h rfl
      · exact fun h => .alu rfl h rfl
    · exact ⟨clzW a, fun h0 => by rw [h0, clzW_zero], clzW_bounds, .alu rfl h rfl⟩
  · intro a sx zx len subFlags rows shifts
    have hsx : sx = imm.sx := by cases imm <;> rfl
    have hzx : zx = imm.zx := by
      cases imm with
      | short v => exact (Imm.zx_short v).symm
      | long v => rfl
    have hlen : len = imm.len := by cases imm <;> rfl
    refine ⟨fun row hrow => ?_, fun row hrow => ?_, fun h => ?_⟩
    · simp only [rows, hsx, hzx, List.mem_cons, List.not_mem_nil, or_false] at hrow
      rw [hlen]
      obtain rfl | rfl | rfl | rfl := hrow
      · exact fun h => .aluCV rfl h (congrArg (Engine.aluCV _ gd _ _) (addOverflow_eq _ _))
      · exact fun h => .alu rfl h rfl
      · exact fun h => .alu rfl h rfl
      · exact fun h => .alu rfl h rfl
    · simp only [shifts, List.mem_cons, List.not_mem_nil, or_false] at hrow
      obtain rfl | rfl | rfl := hrow
      · exact fun h => .alu rfl h rfl
      · exact fun h => .alu rfl h rfl
      · exact fun h => .alu rfl h rfl
    · rw [hlen] at h ⊢
      rw [show subFlags = some (subCarry a imm.sx, subOverflow a imm.sx) by rw [subOverflow_eq, ← hsx]; rfl, hsx]
      refine (reaches_cmpi h).mono fun d ⟨y, only, regs, hz, hn, hc, hv, hrest⟩ => ?_
      exact ⟨y, only, regs, hz, hn, by rw [hc, hv], hrest⟩

end Sys2Proof.Machine
end

section
/-! SUPPORT. MOVR (R281, R282): the register that each identifier names, what reading it gives and what writing it leaves. -/

namespace Sys2Proof.Machine

variable {x y : Engine} {e i j : Nat} {v : Word}

/-! Reading: an identifier reads its own register alone. -/

theorem Engine.idRead_congr (hg : j < 0x20 → y.gr j = x.gr j := by intros; rfl)
    (hp : 0x20 ≤ j → j < 0x28 → y.pr (j - 0x20) = x.pr (j - 0x20) := by intros; rfl)
    (hm : 0x28 ≤ j → j < 0x30 → y.mr (j - 0x28) = x.mr (j - 0x28) := by intros; rfl)
    (hl : 0x30 ≤ j → j < 0x38 → y.lr (j - 0x30) = x.lr (j - 0x30) := by intros; rfl)
    (hst : j = 0x38 → y.stWord = x.stWord := by intros; rfl) (hev : j = 0x39 → y.ev = x.ev := by intros; rfl)
    (hlc : j = 0x3A → y.reps = x.reps := by intros; rfl)
    (hre : 0x3C ≤ j → j < 0x50 → (y.cr (j - 0x40)).1 = (x.cr (j - 0x40)).1 := by intros; rfl)
    (him : 0x50 ≤ j → j < 0x60 → (y.cr (j - 0x50)).2 = (x.cr (j - 0x50)).2 := by intros; rfl)
    (hrl : 0x60 ≤ j → j < 0x68 → BitVec.ofInt 32 (y.ar (j - 0x60)).1 = BitVec.ofInt 32 (x.ar (j - 0x60)).1 := by intros; rfl)
    (hrh : 0x68 ≤ j → j < 0x70 → BitVec.ofInt 32 ((y.ar (j - 0x68)).1 / 2 ^ 32) = BitVec.ofInt 32 ((x.ar (j - 0x68)).1 / 2 ^ 32) := by intros; rfl)
    (hil : 0x70 ≤ j → j < 0x78 → BitVec.ofInt 32 (y.ar (j - 0x70)).2 = BitVec.ofInt 32 (x.ar (j - 0x70)).2 := by intros; rfl)
    (hih : 0x78 ≤ j → BitVec.ofInt 32 ((y.ar (j - 0x78)).2 / 2 ^ 32) = BitVec.ofInt 32 ((x.ar (j - 0x78)).2 / 2 ^ 32) := by intros; rfl) :
    y.idRead e j = x.idRead e j := by
  unfold Engine.idRead
  refine ite_congr rfl hg fun h₁ => ite_congr rfl (hp (by omega)) fun h₂ => ite_congr rfl (hm (by omega)) fun h₃ =>
    ite_congr rfl (hl (by omega)) fun h₄ => ite_congr rfl (fun h => by rw [hst h]) fun h₅ => ite_congr rfl (fun h => by rw [hev h]) fun h₆ =>
    ite_congr rfl (fun h => by rw [hlc h]) fun h₇ => ite_congr rfl (fun _ => rfl) fun h₈ => ite_congr rfl (hre (by omega)) fun h₉ =>
    ite_congr rfl (him (by omega)) fun ha => ite_congr rfl (hrl (by omega)) fun hb => ite_congr rfl (hrh (by omega)) fun hc =>
    ite_congr rfl (hil (by omega)) fun hd => hih (by omega)

/-- Moving on in sequence leaves every identifier but the depth fields of st and lc. -/
theorem Engine.idRead_next (x : Engine) (e len : Nat) (hs : j ≠ 0x38) (hc : j ≠ 0x3A) : (x.next len).idRead e j = x.idRead e j :=
  Engine.idRead_congr (hst := fun h => absurd h hs) (hlc := fun h => absurd h hc)

theorem Engine.idRead_g (h : j < 0x20) : x.idRead e j = x.gr j := if_pos h
theorem Engine.idRead_p (h : 0x20 ≤ j) (h' : j < 0x28) : x.idRead e j = x.pr (j - 0x20) := by
  rw [Engine.idRead]; repeat rw [if_neg (by omega)]
  exact if_pos h'
theorem Engine.idRead_m (h : 0x28 ≤ j) (h' : j < 0x30) : x.idRead e j = x.mr (j - 0x28) := by
  rw [Engine.idRead]; repeat rw [if_neg (by omega)]
  exact if_pos h'
theorem Engine.idRead_l (h : 0x30 ≤ j) (h' : j < 0x38) : x.idRead e j = x.lr (j - 0x30) := by
  rw [Engine.idRead]; repeat rw [if_neg (by omega)]
  exact if_pos h'
theorem Engine.idRead_re (h : 0x40 ≤ j) (h' : j < 0x50) : x.idRead e j = (x.cr (j - 0x40)).1 := by
  rw [Engine.idRead]; repeat rw [if_neg (by omega)]
  exact if_pos h'
theorem Engine.idRead_im (h : 0x50 ≤ j) (h' : j < 0x60) : x.idRead e j = (x.cr (j - 0x50)).2 := by
  rw [Engine.idRead]; repeat rw [if_neg (by omega)]
  exact if_pos h'
theorem Engine.idRead_reLow (h : 0x60 ≤ j) (h' : j < 0x68) : x.idRead e j = BitVec.ofInt 32 (x.ar (j - 0x60)).1 := by
  rw [Engine.idRead]; repeat rw [if_neg (by omega)]
  exact if_pos h'
theorem Engine.idRead_reHigh (h : 0x68 ≤ j) (h' : j < 0x70) : x.idRead e j = BitVec.ofInt 32 ((x.ar (j - 0x68)).1 / 2 ^ 32) := by
  rw [Engine.idRead]; repeat rw [if_neg (by omega)]
  exact if_pos h'
theorem Engine.idRead_imLow (h : 0x70 ≤ j) (h' : j < 0x78) : x.idRead e j = BitVec.ofInt 32 (x.ar (j - 0x70)).2 := by
  rw [Engine.idRead]; repeat rw [if_neg (by omega)]
  exact if_pos h'
theorem Engine.idRead_imHigh (h : 0x78 ≤ j) : x.idRead e j = BitVec.ofInt 32 ((x.ar (j - 0x78)).2 / 2 ^ 32) := by
  rw [Engine.idRead]; repeat rw [if_neg (by omega)]

/-! Writing, by the identifier. -/

theorem Engine.idWrite_g (h : i < 0x20) : x.idWrite i v = x.setG i v := if_pos h
theorem Engine.idWrite_p (h : 0x20 ≤ i) (h' : i < 0x28) : x.idWrite i v = x.setP (i - 0x20) v := by
  rw [Engine.idWrite]; repeat rw [if_neg (by omega)]
  exact if_pos h'
theorem Engine.idWrite_m (h : 0x28 ≤ i) (h' : i < 0x30) : x.idWrite i v = x.setM (i - 0x28) v := by
  rw [Engine.idWrite]; repeat rw [if_neg (by omega)]
  exact if_pos h'
theorem Engine.idWrite_l (h : 0x30 ≤ i) (h' : i < 0x38) : x.idWrite i v = x.setL (i - 0x30) v := by
  rw [Engine.idWrite]; repeat rw [if_neg (by omega)]
  exact if_pos h'
theorem Engine.idWrite_st (h : i = 0x38) : x.idWrite i v = { x with st := v.toNat % 0x1000 } := by
  rw [Engine.idWrite]; repeat rw [if_neg (by omega)]
  exact if_pos h
theorem Engine.idWrite_ev (h : i = 0x39) : x.idWrite i v = { x with ev := v.toNat % 2 ^ 23 } := by
  rw [Engine.idWrite]; repeat rw [if_neg (by omega)]
  exact if_pos h
theorem Engine.idWrite_re (h : 0x40 ≤ i) (h' : i < 0x50) : x.idWrite i v = x.setC (i - 0x40) (v, (x.cr (i - 0x40)).2) := by
  rw [Engine.idWrite]; repeat rw [if_neg (by omega)]
  exact if_pos h'
theorem Engine.idWrite_im (h : 0x50 ≤ i) (h' : i < 0x60) : x.idWrite i v = x.setC (i - 0x50) ((x.cr (i - 0x50)).1, v) := by
  rw [Engine.idWrite]; repeat rw [if_neg (by omega)]
  exact if_pos h'
theorem Engine.idWrite_reLow (h : 0x60 ≤ i) (h' : i < 0x68) : x.idWrite i v = x.setA (i - 0x60) (accLow v, (x.ar (i - 0x60)).2) := by
  rw [Engine.idWrite]; repeat rw [if_neg (by omega)]
  exact if_pos h'
theorem Engine.idWrite_reHigh (h : 0x68 ≤ i) (h' : i < 0x70) :
    x.idWrite i v = x.setA (i - 0x68) (accHigh (x.ar (i - 0x68)).1 v, (x.ar (i - 0x68)).2) := by
  rw [Engine.idWrite]; repeat rw [if_neg (by omega)]
  exact if_pos h'
theorem Engine.idWrite_imLow (h : 0x70 ≤ i) (h' : i < 0x78) : x.idWrite i v = x.setA (i - 0x70) ((x.ar (i - 0x70)).1, accLow v) := by
  rw [Engine.idWrite]; repeat rw [if_neg (by omega)]
  exact if_pos h'
theorem Engine.idWrite_imHigh (h : 0x78 ≤ i) : x.idWrite i v = x.setA (i - 0x78) ((x.ar (i - 0x78)).1, accHigh (x.ar (i - 0x78)).2 v) := by
  rw [Engine.idWrite]; repeat rw [if_neg (by omega)]

/-- The identifiers that MOVR writes, by the registers that they name. -/
theorem movrWritable_cases (h : movrWritable i = true) : i < 0x20 ∨ (0x20 ≤ i ∧ i < 0x28) ∨ (0x28 ≤ i ∧ i < 0x30) ∨ (0x30 ≤ i ∧ i < 0x38) ∨
    i = 0x38 ∨ i = 0x39 ∨ (0x40 ≤ i ∧ i < 0x50) ∨ (0x50 ≤ i ∧ i < 0x60) ∨ (0x60 ≤ i ∧ i < 0x68) ∨ (0x68 ≤ i ∧ i < 0x70) ∨
    (0x70 ≤ i ∧ i < 0x78) ∨ (0x78 ≤ i ∧ i < 0x80) := by
  simp only [movrWritable, movrReadable, Bool.and_eq_true, Bool.or_eq_true, decide_eq_true_eq] at h
  omega

theorem Engine.mr_setM_eq (x : Engine) (i j : Nat) (v : Word) : (x.setM i v).mr j = if j = i then v else x.mr j := Sparse.get_set _ _ _ _ _
theorem Engine.lr_setL_eq (x : Engine) (i j : Nat) (v : Word) : (x.setL i v).lr j = if j = i then v else x.lr j := Sparse.get_set _ _ _ _ _

/-- A g register, pointer, modifier, length or c component reads as written. -/
theorem Engine.idRead_idWrite (h : (i < 0x38 ∧ i ≠ 0) ∨ (0x40 ≤ i ∧ i < 0x60)) : (x.idWrite i v).idRead e i = v := by
  have cases : i < 0x20 ∨ (0x20 ≤ i ∧ i < 0x28) ∨ (0x28 ≤ i ∧ i < 0x30) ∨ (0x30 ≤ i ∧ i < 0x38) ∨ (0x40 ≤ i ∧ i < 0x50) ∨
    (0x50 ≤ i ∧ i < 0x60) := by omega
  obtain h' | ⟨h₁, h₂⟩ | ⟨h₁, h₂⟩ | ⟨h₁, h₂⟩ | ⟨h₁, h₂⟩ | ⟨h₁, h₂⟩ := cases
  · rw [idWrite_g h', idRead_g h', gr_setG _ _ _ (by omega)]
  · rw [idWrite_p h₁ h₂, idRead_p h₁ h₂, pr_setP]
  · rw [idWrite_m h₁ h₂, idRead_m h₁ h₂, mr_setM_eq, if_pos rfl]
  · rw [idWrite_l h₁ h₂, idRead_l h₁ h₂, lr_setL_eq, if_pos rfl]
  · rw [idWrite_re h₁ h₂, idRead_re h₁ h₂, cr_setC]
  · rw [idWrite_im h₁ h₂, idRead_im h₁ h₂, cr_setC]

/-! Accumulators (R282). -/

/-- The value that the low view takes has copies of bit 31 above it. -/
theorem accLow_high (v : Word) : BitVec.ofInt 32 (accLow v / 2 ^ 32) = if v.msb then (-1 : Word) else 0 := by
  have hv := v.isLt
  rw [accLow, BitVec.toInt_eq_msb_cond]
  split
  · rw [show ((v.toNat : Int) - (2 ^ 32 : Nat)) / 2 ^ 32 = -1 by omega]; rfl
  · rw [show (v.toNat : Int) / 2 ^ 32 = 0 by omega]; rfl

theorem signed_eq_toInt (w n : Nat) (h : 0 < w) : signed w n = (BitVec.ofNat w n).toInt := by
  obtain ⟨k, rfl⟩ : ∃ k, w = k + 1 := ⟨w - 1, by omega⟩
  rw [signed, BitVec.toInt_eq_toNat_cond, BitVec.toNat_ofNat, Nat.add_sub_cancel]
  have : 2 ^ (k + 1) = 2 * 2 ^ k := Nat.pow_succ'
  split <;> split <;> omega

theorem accHigh_high (a : Int) (v : Word) : BitVec.ofInt 32 (accHigh a v / 2 ^ 32) = (v.setWidth 16).signExtend 32 := by
  have high : accHigh a v / 2 ^ 32 = signed 16 v.toNat := by unfold accHigh; omega
  apply BitVec.eq_of_toInt_eq
  rw [high, signed_eq_toInt _ _ (by decide), BitVec.toInt_signExtend_of_le (by decide), BitVec.ofNat_toNat]
  have lo := BitVec.le_toInt (v.setWidth 16)
  have hi := BitVec.toInt_lt (x := v.setWidth 16)
  exact BitVec.toInt_ofInt_eq_self (by decide) (by omega) (by omega)

theorem accHigh_low (a : Int) (v : Word) : BitVec.ofInt 32 (accHigh a v) = BitVec.ofInt 32 a := by
  apply BitVec.eq_of_toNat_eq
  rw [BitVec.toNat_ofInt, BitVec.toNat_ofInt, accHigh]
  omega

/-- The low view takes the value, and the high view copies of its bit 31. -/
theorem Engine.idWrite_low (h : (0x60 ≤ i ∧ i < 0x68) ∨ (0x70 ≤ i ∧ i < 0x78)) :
    (x.idWrite i v).idRead e i = v ∧ (x.idWrite i v).idRead e (i + 8) = if v.msb then -1 else 0 := by
  obtain ⟨h₁, h₂⟩ | ⟨h₁, h₂⟩ := h
  · rw [idWrite_reLow h₁ h₂, idRead_reLow h₁ h₂, idRead_reHigh (by omega) (by omega), ← accLow_high, show i + 8 - 0x68 = i - 0x60 by omega, ar_setA]
    exact ⟨BitVec.ofInt_toInt, rfl⟩
  · rw [idWrite_imLow h₁ h₂, idRead_imLow h₁ h₂, idRead_imHigh (by omega), ← accLow_high, show i + 8 - 0x78 = i - 0x70 by omega, ar_setA]
    exact ⟨BitVec.ofInt_toInt, rfl⟩

/-- The high view takes the low half, extended, and the low view stays. -/
theorem Engine.idWrite_high (h : (0x68 ≤ i ∧ i < 0x70) ∨ (0x78 ≤ i ∧ i < 0x80)) :
    (x.idWrite i v).idRead e i = (v.setWidth 16).signExtend 32 ∧ (x.idWrite i v).idRead e (i - 8) = x.idRead e (i - 8) := by
  obtain ⟨h₁, h₂⟩ | ⟨h₁, h₂⟩ := h
  · rw [idWrite_reHigh h₁ h₂, idRead_reHigh h₁ h₂, idRead_reLow (by omega) (by omega), idRead_reLow (by omega) (by omega),
      show i - 8 - 0x60 = i - 0x68 by omega, ar_setA]
    exact ⟨accHigh_high _ _, accHigh_low _ _⟩
  · rw [idWrite_imHigh h₁, idRead_imHigh h₁, idRead_imLow (by omega) (by omega), idRead_imLow (by omega) (by omega),
      show i - 8 - 0x70 = i - 0x78 by omega, ar_setA]
    exact ⟨accHigh_high _ _, accHigh_low _ _⟩

/-! What writing leaves. -/

/-- The writes that an identifier can be (R281, R282). -/
theorem Engine.idWrite_cases {P : Engine → Prop} (hg : P (x.setG i v)) (hp : ∀ k, P (x.setP k v)) (hm : ∀ k, P (x.setM k v))
    (hl : ∀ k, P (x.setL k v)) (hst : i = 0x38 → P { x with st := v.toNat % 0x1000 }) (hev : i = 0x39 → P { x with ev := v.toNat % 2 ^ 23 })
    (hx : P x) (hc : ∀ k w, P (x.setC k w)) (ha : ∀ k w, P (x.setA k w)) : P (x.idWrite i v) :=
  iteInduction (fun _ => hg) fun _ => iteInduction (fun _ => hp _) fun _ => iteInduction (fun _ => hm _) fun _ =>
    iteInduction (fun _ => hl _) fun _ => iteInduction hst fun _ => iteInduction hev fun _ => iteInduction (fun _ => hx) fun _ =>
    iteInduction (fun _ => hc _ _) fun _ => iteInduction (fun _ => hc _ _) fun _ => iteInduction (fun _ => ha _ _) fun _ =>
    iteInduction (fun _ => ha _ _) fun _ => iteInduction (fun _ => ha _ _) fun _ => ha _ _

/-- The parts of an engine that MOVR may write. -/
def Engine.OnlyIds (x y : Engine) : Prop := y = { x with g := y.g, c := y.c, a := y.a, p := y.p, m := y.m, l := y.l, st := y.st, ev := y.ev }

theorem Engine.OnlyIds.idWrite (x : Engine) (i : Nat) (v : Word) : x.OnlyIds (x.idWrite i v) := by
  refine Engine.idWrite_cases (P := x.OnlyIds) ?_ (fun _ => rfl) (fun _ => rfl) (fun _ => rfl) (fun _ => rfl) (fun _ => rfl) rfl
    (fun _ _ => rfl) (fun _ _ => rfl)
  rw [Engine.setG_eq]; rfl

theorem Engine.OnlyIds.next (h : x.OnlyIds y) (len : Nat) : (x.next len).OnlyIds (y.next len) := by
  rw [h]; rfl

theorem Engine.idWrite_keeps_st (x : Engine) (v : Word) (h : i ≠ 0x38) : (x.idWrite i v).st = x.st := by
  refine Engine.idWrite_cases (P := fun y => y.st = x.st) ?_ (fun _ => rfl) (fun _ => rfl) (fun _ => rfl) (fun h' => absurd h' h) (fun _ => rfl)
    rfl (fun _ _ => rfl) (fun _ _ => rfl)
  rw [Engine.setG_eq]

theorem Engine.idWrite_keeps_ev (x : Engine) (v : Word) (h : i ≠ 0x39) : (x.idWrite i v).ev = x.ev := by
  refine Engine.idWrite_cases (P := fun y => y.ev = x.ev) ?_ (fun _ => rfl) (fun _ => rfl) (fun _ => rfl) (fun _ => rfl) (fun h' => absurd h' h)
    rfl (fun _ _ => rfl) (fun _ _ => rfl)
  rw [Engine.setG_eq]

theorem Engine.cr_setC_re (x : Engine) (k j : Nat) (v : Word) : ((x.setC k (v, (x.cr k).2)).cr j).2 = (x.cr j).2 := by
  rw [Engine.cr_setC_eq]
  split
  · next h => rw [h]
  · rfl

theorem Engine.cr_setC_im (x : Engine) (k j : Nat) (v : Word) : ((x.setC k ((x.cr k).1, v)).cr j).1 = (x.cr j).1 := by
  rw [Engine.cr_setC_eq]
  split
  · next h => rw [h]
  · rfl

theorem Engine.ar_setA_re (x : Engine) (k j : Nat) (z : Int) : ((x.setA k (z, (x.ar k).2)).ar j).2 = (x.ar j).2 := by
  rw [Engine.ar_setA_eq]
  split
  · next h => rw [h]
  · rfl

theorem Engine.ar_setA_im (x : Engine) (k j : Nat) (z : Int) : ((x.setA k ((x.ar k).1, z)).ar j).1 = (x.ar j).1 := by
  rw [Engine.ar_setA_eq]
  split
  · next h => rw [h]
  · rfl

/-- Every identifier of another register reads as before; the high view changes with the low view of its component (R282). -/
theorem Engine.idRead_idWrite_other (x : Engine) (e : Nat) (v : Word) (hw : movrWritable i = true) (hj : j ≠ i) (hs : j ≠ 0x38)
    (hr : ¬(0x3C ≤ j ∧ j < 0x40)) (hv : ¬(((0x60 ≤ i ∧ i < 0x68) ∨ (0x70 ≤ i ∧ i < 0x78)) ∧ j = i + 8)) (hl : j < 0x80) :
    (x.idWrite i v).idRead e j = x.idRead e j := by
  obtain h | ⟨h, h'⟩ | ⟨h, h'⟩ | ⟨h, h'⟩ | h | h | ⟨h, h'⟩ | ⟨h, h'⟩ | ⟨h, h'⟩ | ⟨h, h'⟩ | ⟨h, h'⟩ | ⟨h, h'⟩ := movrWritable_cases hw
  · rw [Engine.idWrite_g h, Engine.setG_eq]
    exact Engine.idRead_congr (hg := fun _ => Engine.gr_setG_other x i j v hj)
  · rw [Engine.idWrite_p h h']
    exact Engine.idRead_congr (hp := fun _ _ => by rw [Engine.pr_setP_eq, if_neg (by omega)])
  · rw [Engine.idWrite_m h h']
    exact Engine.idRead_congr (hm := fun _ _ => by rw [Engine.mr_setM_eq, if_neg (by omega)])
  · rw [Engine.idWrite_l h h']
    exact Engine.idRead_congr (hl := fun _ _ => by rw [Engine.lr_setL_eq, if_neg (by omega)])
  · rw [Engine.idWrite_st h]
    exact Engine.idRead_congr (hst := fun h => absurd h hs)
  · rw [Engine.idWrite_ev h]
    exact Engine.idRead_congr (hev := fun h' => absurd (h'.trans h.symm) hj)
  · rw [Engine.idWrite_re h h']
    exact Engine.idRead_congr (hre := fun _ _ => by rw [Engine.cr_setC_eq, if_neg (by omega)]) (him := fun _ _ => x.cr_setC_re _ _ v)
  · rw [Engine.idWrite_im h h']
    exact Engine.idRead_congr (hre := fun _ _ => x.cr_setC_im _ _ v) (him := fun _ _ => by rw [Engine.cr_setC_eq, if_neg (by omega)])
  · rw [Engine.idWrite_reLow h h']
    exact Engine.idRead_congr (hrl := fun _ _ => by rw [Engine.ar_setA_eq, if_neg (by omega)])
      (hrh := fun _ _ => by rw [Engine.ar_setA_eq, if_neg (by omega)])
      (hil := fun _ _ => by rw [Engine.ar_setA_re]) (hih := fun _ => by rw [Engine.ar_setA_re])
  · rw [Engine.idWrite_reHigh h h']
    refine Engine.idRead_congr (hrl := fun _ _ => ?_) (hrh := fun _ _ => by rw [Engine.ar_setA_eq, if_neg (by omega)])
      (hil := fun _ _ => by rw [Engine.ar_setA_re]) (hih := fun _ => by rw [Engine.ar_setA_re])
    rw [Engine.ar_setA_eq]
    split
    · next hk => rw [hk]; exact accHigh_low _ _
    · rfl
  · rw [Engine.idWrite_imLow h h']
    exact Engine.idRead_congr (hrl := fun _ _ => by rw [Engine.ar_setA_im]) (hrh := fun _ _ => by rw [Engine.ar_setA_im])
      (hil := fun _ _ => by rw [Engine.ar_setA_eq, if_neg (by omega)])
      (hih := fun _ => by rw [Engine.ar_setA_eq, if_neg (by omega)])
  · rw [Engine.idWrite_imHigh h]
    refine Engine.idRead_congr (hrl := fun _ _ => by rw [Engine.ar_setA_im]) (hrh := fun _ _ => by rw [Engine.ar_setA_im])
      (hil := fun _ _ => ?_) (hih := fun _ => by rw [Engine.ar_setA_eq, if_neg (by omega)])
    rw [Engine.ar_setA_eq]
    split
    · next hk => rw [hk]; exact accHigh_low _ _
    · rfl

/-- The twelve RW bits of st, as MOVR writes them. -/
theorem bitAt_low_12 (v : Word) {b : Nat} (h : b < 12) : bitAt (v.toNat % 0x1000) b = v.getLsbD b := by
  rw [bitAt_eq_testBit, show 0x1000 = 2 ^ 12 from rfl, Nat.testBit_mod_two_pow, decide_eq_true h, Bool.true_and, BitVec.testBit_toNat]

theorem Engine.idWrite_ev_eq (x : Engine) (i : Nat) (v : Word) : (x.idWrite i v).ev = if i = 0x39 then v.toNat % 2 ^ 23 else x.ev := by
  split
  · next h => rw [Engine.idWrite_ev h]
  · next h => exact Engine.idWrite_keeps_ev x v h

end Sys2Proof.Machine
end

section
/-! SUPPORT. Conversions between integers and binary32 (R304), as the table states them. -/

namespace Sys2Proof.Machine

/-- Saturation to `w` signed bits, written with `max` and `min`. -/
theorem satTo_eq_clamp (w : Nat) (z : Int) :
    satTo w z = max (-((2 ^ (w - 1) : Nat) : Int)) (min (((2 ^ (w - 1) : Nat) : Int) - 1) z) := by
  have h : (0 : Int) < ((2 ^ (w - 1) : Nat) : Int) := by positivity
  unfold satTo
  split <;> [skip; split] <;> omega

theorem sh6_eq {n : Nat} (h : n < 64) : sh6 n = if n < 32 then (n : Int) else (n : Int) - 64 := by
  rw [sh6, signed, Nat.mod_eq_of_lt (show n < 2 ^ 6 from h)]
  rfl

theorem f32_signBit : f32.signBit = 2 ^ 31 := by decide
theorem f32_inf : f32.inf = 0xFF * 2 ^ 23 := by decide

theorem ftoiW_nan {f : Word} (k : Int) (h : 0xFF * 2 ^ 23 < f.toNat % 2 ^ 31) : ftoiW f k = (0, true) :=
  if_pos (by rw [FloatFmt.isNaN, f32_signBit, f32_inf]; exact decide_eq_true h)

theorem ftoiW_inf {f : Word} (k : Int) (h : f.toNat % 2 ^ 31 = 0xFF * 2 ^ 23) :
    ftoiW f k = (if 2 ^ 31 ≤ f.toNat then 0x80000000 else 0x7FFFFFFF, true) := by
  have hnan : f32.isNaN f.toNat = false := by rw [FloatFmt.isNaN, f32_signBit, f32_inf, h]; rfl
  have hinf : f32.isInf f.toNat = true := by rw [FloatFmt.isInf, f32_signBit, f32_inf, h]; rfl
  rw [ftoiW]
  simp only [hnan, hinf, BitVec.msb_eq_decide, Bool.false_eq_true, if_false, if_true, decide_eq_true_eq]
  split <;> rfl

/-- A finite binary32 as an integer significand times a power of two. -/
theorem f32_value (f : Nat) (hf : f < 2 ^ 32) :
    f32.value f = (if 2 ^ 31 ≤ f then -((f % 2 ^ 31 % 2 ^ 23 + if f % 2 ^ 31 / 2 ^ 23 = 0 then 0 else 2 ^ 23 : Nat) : Int)
      else ((f % 2 ^ 31 % 2 ^ 23 + if f % 2 ^ 31 / 2 ^ 23 = 0 then 0 else 2 ^ 23 : Nat) : Int),
      ((max (f % 2 ^ 31 / 2 ^ 23) 1 : Nat) : Int) - 150) := by
  have sign : f / 2 ^ 31 % 2 = 1 ↔ 2 ^ 31 ≤ f := by omega
  have man : (if f % 2 ^ 31 / 2 ^ 23 = 0 then f % 2 ^ 31 % 2 ^ 23 else f % 2 ^ 31 % 2 ^ 23 + 2 ^ 23) =
      f % 2 ^ 31 % 2 ^ 23 + if f % 2 ^ 31 / 2 ^ 23 = 0 then 0 else 2 ^ 23 := by split <;> rfl
  simp only [FloatFmt.value, f32_signBit, show f32.man = 23 from rfl, show f32.bias = 127 from rfl, man, sign]
  refine Prod.ext rfl ?_
  omega

theorem ftoiW_finite {f : Word} {k : Int} (h : f.toNat % 2 ^ 31 < 0xFF * 2 ^ 23) :
    ftoiW f k = (BitVec.ofInt 32 (satTo 32 (scaleRound (f32.value f.toNat).1 ((f32.value f.toNat).2 + k))),
      saturates 32 (scaleRound (f32.value f.toNat).1 ((f32.value f.toNat).2 + k))) := by
  have hnan : f32.isNaN f.toNat = false := by
    rw [FloatFmt.isNaN, f32_signBit, f32_inf]; exact decide_eq_false (Nat.not_lt.mpr h.le)
  have hinf : f32.isInf f.toNat = false := by rw [FloatFmt.isInf, f32_signBit, f32_inf]; exact decide_eq_false h.ne
  rw [ftoiW]
  simp only [hnan, hinf, Bool.false_eq_true, if_false]

/-- Writing a bit of st with the value that it has changes nothing. -/
theorem setBits_self (n i : Nat) : setBits n i 1 (if bitAt n i then 1 else 0) = n := by
  have hle := Nat.div_mul_le_self n (2 ^ i)
  have hmod : bitsOf n i 1 ≤ n / 2 ^ i := Nat.mod_le _ _
  have hbit : (if bitAt n i then 1 else 0) % 2 ^ 1 = bitsOf n i 1 := by
    rw [bitAt, bitsOf]
    rcases Nat.mod_two_eq_zero_or_one (n / 2 ^ i) with h | h <;> simp [h]
  rw [setBits, hbit]
  exact Nat.sub_add_cancel (le_trans (Nat.mul_le_mul_right _ hmod) hle)

/-- FTOI leaves C: its flags are those of a row that writes C with its own value. -/
theorem Engine.ftoi_eq_aluCV (x : Engine) (gd : Nat) (r : Word) (v : Bool) :
    ((x.flagsZN r).setSt stV v).setG gd r = x.aluCV gd r (x.stBit stC) v := by
  have hc : x.stBit stC = bitAt (x.flagsZN r).st stC := by
    rw [← Engine.stBit_low _ _ (by decide), Engine.stBit_flagsZN _ _ _ (by decide)]
    simp [stC]
  have same : (x.flagsZN r).setSt stC (x.stBit stC) = x.flagsZN r := by
    rw [Engine.setSt, hc, setBits_self]
  rw [Engine.aluCV, Engine.flagsCV, same]

variable {s : State} {e gd gs ex : Nat} {r : Word} {v : Bool}

theorem Reaches.ftoi (h : s.dev.issuesNow e (.ftoi e gd gs ex) 1 [gd, gs]) (hr : ftoiW ((s.dev.eng e).gr gs) (sh6 ex) = (r, v)) :
    Reaches (.ftoi e gd gs ex) s (fun d' => IntegerResult s.dev d' e 1 gd r (some ((s.dev.eng e).stBit stC, v))) :=
  .aluCV rfl h (by rw [hr]; exact Engine.ftoi_eq_aluCV _ _ _ _)

end Sys2Proof.Machine
end

section
/-! PROOFS. Conversions and register moves (R281, R282, R304). -/

namespace Sys2Proof.Machine

/-- Settles O6: FTOI by the kind of its operand, ITOF as the model computes it, and MOVR by the register that the destination names. -/
theorem conversionsAndMovr : Obligations.ConversionsAndMovr := by
  refine ⟨fun s e gd gs ex => ?_, fun s e rd rs => ?_⟩
  · intro x f k clamp mag expo man num z
    have shift : ex < 64 → sh6 ex = k := sh6_eq
    have bounded : ∀ {i : Instr}, i = .ftoi e gd gs ex ∨ i = .itof e gd gs ex → s.dev.issuesNow e i 1 [gd, gs] → ex < 64 := by
      rintro i (rfl | rfl) ⟨-, -, -, -, -, ok, -⟩ <;> exact of_decide_eq_true (Bool.and_eq_true_iff.mp ok).2
    refine ⟨fun h => ⟨fun hm => .ftoi h (ftoiW_nan _ hm), fun hm => .ftoi h (ftoiW_inf _ hm), fun hm => .ftoi h ?_⟩, fun h => .alu rfl h ?_⟩
    · have hz : scaleRound (f32.value f).1 ((f32.value f).2 + sh6 ex) = z := by
        rw [shift (bounded (.inl rfl) h), f32_value f (x.gr gs).isLt]
      rw [ftoiW_finite hm, saturates, hz, satTo_eq_clamp]
      rfl
    · rw [shift (bounded (.inr rfl) h)]; rfl
  · intro x v isL isH h
    obtain ⟨-, -, -, -, -, ok, -⟩ := id h
    have hw : movrWritable rd = true := (Bool.and_eq_true_iff.mp ok).1
    refine .of_eq rfl ⟨(x.idWrite rd v).next 1, Device.issueReg_ok h, Engine.OnlyIds.next (.idWrite x rd v) 1, fun hr h0 => ?_,
      Engine.gr_zero _, fun hr b hb => ?_, fun hr => Engine.idWrite_keeps_st x v hr, ?_, fun h₁ h₂ => ?_, fun hl => ?_, fun hh => ?_,
      fun j hj hne hs hc hr hv => ?_⟩
    · rw [Engine.idRead_next _ _ _ (by omega) (by omega), Engine.idRead_idWrite (.inl ⟨hr, h0⟩)]
    · rw [Engine.stBit_next _ _ _ hb, Engine.idWrite_st hr, Engine.stBit_low _ _ hb]
      exact bitAt_low_12 v hb
    · exact Engine.idWrite_ev_eq x rd v
    · rw [Engine.idRead_next _ _ _ (by omega) (by omega), Engine.idRead_idWrite (.inr ⟨h₁, h₂⟩)]
    · have hl' : 0x60 ≤ rd := by omega
      rw [Engine.idRead_next _ _ _ (by omega) (by omega), Engine.idRead_next _ _ _ (by omega) (by omega)]
      exact Engine.idWrite_low hl
    · have hh' : 0x68 ≤ rd := by omega
      rw [Engine.idRead_next _ _ _ (by omega) (by omega), Engine.idRead_next _ _ _ (by omega) (by omega)]
      exact Engine.idWrite_high hh
    · rw [Engine.idRead_next _ _ _ hs hc]
      exact Engine.idRead_idWrite_other x e v hw hne hs hr hv hj

end Sys2Proof.Machine
end

section
/-! SUPPORT. Loads and stores of the data space (R301, R305): what issuing one leaves. -/

namespace Sys2Proof.Machine

variable {d D : Device} {e len n : Nat} {i : Instr} {touch : List Nat} {y : Engine} {w : DLoc}

/-- An instruction whose effect ends in a write of its engine and that retires in sequence. -/
theorem Device.issue_seq_ok {f : Device → Except Nat (Device × Ctl)} (h : d.issuesNow e i len touch) (hf : f d = .ok (D.setEng e y, .seq)) :
    OnlyEngine D (d.issue e i len touch f) e (y.next len) := by
  rw [Device.issue_ok h hf (by rw [Device.eng_setEng]; exact Engine.retire_seq _ _)]
  exact OnlyEngine.setEng_setEng _ _ _ _

/-- A load changes at most the ports of its engine (R262). -/
theorem Device.dreadEffect_eng (d : Device) (e : Nat) (w : DLoc) (n : Nat) :
    (d.dreadEffect e w n).eng e = { d.eng e with ports := ((d.dreadEffect e w n).eng e).ports } := by
  have touched : (d.bankTouch e w).eng e = d.eng e := Device.eng_congr (Device.bankTouch_engines d e w) e
  cases w with
  | x o => rw [Device.dreadEffect, touched]
  | y o => rw [Device.dreadEffect, touched]
  | l o => rfl
  | port k o =>
    rw [Device.dreadEffect]
    split
    · rw [Device.eng_setEng]; rfl
    · rfl

theorem cSize_eq (wide : Bool) : cSize wide = if wide then 8 else 4 := by cases wide <;> rfl

/-- A store in the data space, with the engine that it leaves. -/
theorem OnlyEngine.andData {d' : Device} {ws : List (DLoc × List Byte)} (h : OnlyEngine D d' e y) (hs : StoresOnly d D e ws)
    (he : D.engines = d.engines)
    (hr : D = { d with xmem := D.xmem, ymem := D.ymem, lmem := D.lmem, bankUsed := D.bankUsed }) : OnlyEngineAndData d d' e y ws := by
  obtain ⟨hy, hother, hrest⟩ := h
  refine ⟨hy, fun j hj => (hother j hj).trans (Device.eng_congr he j), fun k a hk => ?_, ?_⟩
  · rw [← hs k a hk, hrest]; rfl
  · rw [hrest, hr]

/-- A store instruction at a place of X, Y or local memory completes; the pointer steps (R293). -/
theorem Device.issue_store {f : Device → Except Nat (Device × Ctl)} {bs : List Byte} {p : Nat} {v : Word} (h : d.issuesNow e i len touch)
    (hw : (w.home e).isSome = true) (hf : ∀ D, d.dwrite e w bs = .ok D → f d = .ok (D.setEng e ((D.eng e).setP p v), .seq)) :
    OnlyEngineAndData d (d.issue e i len touch f) e (((d.eng e).setP p v).next len) [(w, bs)] := by
  obtain ⟨D, hD, stores, engines, rest⟩ := Device.dwrite_ok (d := d) e bs hw
  have hy := Device.issue_seq_ok h (hf D hD)
  rw [Device.eng_congr engines] at hy
  exact hy.andData stores engines rest

theorem Faults.of_eq {s : State} {d' : Device} {c : Nat} (hx : exec i s = .next { s with dev := d' }) (hd : d' = s.dev.engFault e c) :
    Faults i s e c := by
  rw [Faults, Gives, hx, hd]

/-- A command port takes no store (R256). -/
theorem Device.dwrite_port (bs : List Byte) (h : w.home e = none) : d.dwrite e w bs = .error 3 := by
  cases w with
  | port k o => rfl
  | x o => cases h
  | y o => cases h
  | l o => cases h

theorem bytes_cStore (wide : Bool) (v : Word × Word) :
    bytesLE (cSize wide) (cStore wide v) = bytesLE (if wide then 8 else 4) (if wide then v.1.toNat + v.2.toNat * 2 ^ 32
      else v.1.toNat / 65536 + v.2.toNat / 65536 * 65536) := by
  cases wide <;> rfl

end Sys2Proof.Machine
end

section
/-! PROOFS. Loads and stores of general and complex registers (R301, R305). -/

namespace Sys2Proof.Machine

/-- Settles O7: the engine after the load's effect on its ports writes the register and the pointer. -/
theorem loadsReadData : Obligations.LoadsReadData := by
  intro s e r pn mode size u wide w x n v c z
  refine ⟨fun h hw => ?_, fun h hw => ?_⟩
  · have hx := s.dev.dreadEffect_eng e w n
    refine .of_eq rfl ⟨_, Device.issue_seq_ok h (by dsimp only; rw [hw]), ?_, fun j => ?_, fun j => ?_⟩
    · rw [hx, Engine.setG_eq]; rfl
    · exact (Engine.gr_setG_eq _ _ _ _).trans (by rw [hx]; rfl)
    · rw [Engine.setG_eq]
      exact (Engine.pr_setP_eq _ _ _ _).trans (by rw [hx]; rfl)
  · have hx := s.dev.dreadEffect_eng e w c
    have hc : cSize wide = c := cSize_eq wide
    refine .of_eq rfl ⟨_, Device.issue_seq_ok h (by dsimp only; rw [hc, hw]), ?_, fun j => ?_, fun j => ?_⟩
    · rw [hx]; rfl
    · exact (Engine.cr_setC_eq _ _ _ _).trans (by rw [hx]; rfl)
    · exact (Engine.pr_setP_eq _ _ _ _).trans (by rw [hx]; rfl)

/-- Settles O8: the store's bytes by the rule of `dwrite`, and the fault of a command port. -/
theorem storesWriteData : Obligations.StoresWriteData := by
  intro s e r pn mode size wide w x n c z
  have hc : cSize wide = c := cSize_eq wide
  have hz : bytesLE (cSize wide) (cStore wide (x.cr r)) = bytesLE c z := bytes_cStore wide (x.cr r)
  refine ⟨fun h hw home => ?_, fun h hw home => ?_, fun h hw home => ?_, fun h hw home => ?_⟩
  · refine .of_eq rfl ⟨_, Device.issue_store h home fun D hD => ?_, rfl, fun j => Engine.pr_setP_eq _ _ _ _⟩
    dsimp only; rw [hw]; dsimp only; rw [hD]
  · refine .of_eq rfl (Device.issue_fault h ?_)
    dsimp only; rw [hw]; dsimp only; rw [Device.dwrite_port _ home]
  · refine .of_eq rfl ⟨_, Device.issue_store h home fun D hD => ?_, rfl, fun j => Engine.pr_setP_eq _ _ _ _⟩
    dsimp only; rw [hc, hw]; dsimp only; rw [← hc, hz, hD]
  · refine .of_eq rfl (Device.issue_fault h ?_)
    dsimp only; rw [hc, hw]; dsimp only; rw [Device.dwrite_port _ home]

end Sys2Proof.Machine
end

section
/-! SUPPORT. The shapes of the complex instructions (R306, R307): writes of accumulators and c registers, saturated or not, with their sticky bits. -/

namespace Sys2Proof.Machine

/-! Saturation of a pair, as the tables state it. -/

def clamp16 (z : Int) : Int := max (-(2 ^ 15)) (min (2 ^ 15 - 1) z)
def clamp32 (z : Int) : Int := max (-(2 ^ 31)) (min (2 ^ 31 - 1) z)
def clamp48 (z : Int) : Int := max (-(2 ^ 47)) (min (2 ^ 47 - 1) z)

theorem satTo_16 (z : Int) : satTo 16 z = clamp16 z := by rw [satTo_eq_clamp]; norm_num [clamp16]
theorem satTo_32 (z : Int) : satTo 32 z = clamp32 z := by rw [satTo_eq_clamp]; norm_num [clamp32]
theorem satTo_48_eq (z : Int) : satTo 48 z = clamp48 z := by rw [satTo_eq_clamp]; norm_num [clamp48]

/-- A pair changes where a component does. -/
theorem decide_pair_ne (v : Int × Int) (a b : Int) : (decide (a ≠ v.1) || decide (b ≠ v.2)) = decide ((a, b) ≠ v) := by
  rw [← Bool.decide_or, decide_eq_decide, ne_eq, ne_eq, ne_eq, Prod.ext_iff, not_and_or]

/-! Sticky bits. -/

theorem Engine.bitAt_stick (x : Engine) (i j : Nat) (b : Bool) : bitAt (x.stick i b).st j = (bitAt x.st j || (decide (j = i) && b)) := by
  cases b with
  | false => simp [Engine.stick]
  | true =>
    show bitAt (setBits x.st i 1 1) j = _
    rw [bitAt_setBits]
    by_cases h : j = i <;> simp [h]

theorem Engine.stick_eq (x : Engine) (i : Nat) (b : Bool) : x.stick i b = { x with st := (x.stick i b).st } := by
  unfold Engine.stick; split <;> rfl

/-! What an operation leaves, by its shape. -/

variable {s : State} {e k : Nat} {i : Instr} {mv : Moves} {touch : List Nat} {f : Engine → Engine}

/-- An operation that writes registers and raises the sticky bits `sa` and `sc`. -/
theorem Reaches.complex {y : Engine} {acc : Nat → Int × Int} {c : Nat → Word × Word} {g : Nat → Word} {sa sc : Bool}
    (hx : exec i s = .next { s with dev := s.dev.complex e i mv touch f }) (h : s.dev.complexNow e i mv touch)
    (hf : f (s.dev.eng e) = (y.stick stAS sa).stick stRS sc) (hr : y = { s.dev.eng e with g := y.g, c := y.c, a := y.a })
    (ha : ∀ j, y.ar j = acc j) (hc : ∀ j, y.cr j = c j) (hg : ∀ j, y.gr j = g j) :
    Reaches i s (fun d' => ComplexResult s.dev d' e mv acc c g sa sc) := by
  have regs : f (s.dev.eng e) = { y with st := ((y.stick stAS sa).stick stRS sc).st } := by
    rw [hf]; exact Engine.onlySt_trans (Engine.stick_eq _ _ _) (Engine.stick_eq _ _ _)
  have bits : ∀ j, j < 12 → bitAt (f (s.dev.eng e)).st j =
      ((s.dev.eng e).stBit j || (decide (j = stAS) && sa) || (decide (j = stRS) && sc)) := fun j hj => by
    rw [hf, Engine.bitAt_stick, Engine.bitAt_stick, Engine.stBit_low _ _ hj, hr]
  refine .of_eq hx (ComplexResult.of_op h ?_ ?_ ?_ ?_ ?_ ?_ ?_ fun b hb => ?_)
  · rw [Engine.OnlyRegs, regs, hr]
  · rw [regs, hr]
  · rw [regs]; exact ha
  · rw [regs]; exact hc
  · rw [regs]; exact hg
  · rw [bits _ (by decide)]; simp [stAS, stRS]
  · rw [bits _ (by decide)]; simp [stAS, stRS]
  · rw [bits b (by omega)]; simp [stAS, stRS, show b ≠ 10 by omega, show b ≠ 11 by omega]

/-- An accumulator is written. -/
theorem Reaches.setA {v : Int × Int} (hx : exec i s = .next { s with dev := s.dev.complex e i mv touch f })
    (h : s.dev.complexNow e i mv touch) (hf : f (s.dev.eng e) = (s.dev.eng e).setA k v) :
    Reaches i s (fun d' => ComplexResult s.dev d' e mv (fun j => if j = k then v else (s.dev.eng e).ar j) (s.dev.eng e).cr (s.dev.eng e).gr
      false false) :=
  .complex hx h (y := (s.dev.eng e).setA k v) hf rfl (fun _ => Engine.ar_setA_eq _ _ _ _) (fun _ => rfl) (fun _ => rfl)

/-- A write without saturation, in the words of the rows: no component changes. -/
theorem Reaches.setA_exact {v : Int × Int} (hx : exec i s = .next { s with dev := s.dev.complex e i mv touch f })
    (h : s.dev.complexNow e i mv touch) (hf : f (s.dev.eng e) = (s.dev.eng e).setA k v) :
    Reaches i s (fun d' => ComplexResult s.dev d' e mv (fun j => if j = k then v else (s.dev.eng e).ar j) (s.dev.eng e).cr (s.dev.eng e).gr
      (decide (v ≠ v)) false) := by
  rw [decide_eq_false (not_not_intro rfl)]
  exact .setA hx h hf

/-- An accumulator is written, saturated to 48 bits (R290). -/
theorem Reaches.accum {v : Int × Int} (hx : exec i s = .next { s with dev := s.dev.complex e i mv touch f })
    (h : s.dev.complexNow e i mv touch) (hf : f (s.dev.eng e) = (s.dev.eng e).accum k v) :
    Reaches i s (fun d' => ComplexResult s.dev d' e mv (fun j => if j = k then (clamp48 v.1, clamp48 v.2) else (s.dev.eng e).ar j)
      (s.dev.eng e).cr (s.dev.eng e).gr (decide ((clamp48 v.1, clamp48 v.2) ≠ v)) false) := by
  refine .complex hx h (y := (s.dev.eng e).setA k (clamp48 v.1, clamp48 v.2)) ?_ rfl (fun _ => Engine.ar_setA_eq _ _ _ _)
    (fun _ => rfl) (fun _ => rfl)
  rw [hf, Engine.accum, saturates, saturates, satTo_48_eq, satTo_48_eq, decide_pair_ne]
  rfl

/-- A c register is written. -/
theorem Reaches.setC {v : Word × Word} (hx : exec i s = .next { s with dev := s.dev.complex e i mv touch f })
    (h : s.dev.complexNow e i mv touch) (hf : f (s.dev.eng e) = (s.dev.eng e).setC k v) :
    Reaches i s (fun d' => ComplexResult s.dev d' e mv (s.dev.eng e).ar (fun j => if j = k then v else (s.dev.eng e).cr j) (s.dev.eng e).gr
      false false) :=
  .complex hx h (y := (s.dev.eng e).setC k v) hf rfl (fun _ => rfl) (fun _ => Engine.cr_setC_eq _ _ _ _) (fun _ => rfl)

/-- A c register is written in W form, saturated to 32 bits (R291). -/
theorem Reaches.putW {v : Int × Int} (hx : exec i s = .next { s with dev := s.dev.complex e i mv touch f })
    (h : s.dev.complexNow e i mv touch) (hf : f (s.dev.eng e) = (s.dev.eng e).putW k v) :
    Reaches i s (fun d' => ComplexResult s.dev d' e mv (s.dev.eng e).ar
      (fun j => if j = k then (BitVec.ofInt 32 (clamp32 v.1), BitVec.ofInt 32 (clamp32 v.2)) else (s.dev.eng e).cr j) (s.dev.eng e).gr
      false (decide ((clamp32 v.1, clamp32 v.2) ≠ v))) := by
  refine .complex hx h (y := (s.dev.eng e).setC k (BitVec.ofInt 32 (clamp32 v.1), BitVec.ofInt 32 (clamp32 v.2))) ?_ rfl
    (fun _ => rfl) (fun _ => Engine.cr_setC_eq _ _ _ _) (fun _ => rfl)
  rw [hf, Engine.putW, saturates, saturates, satTo_32, satTo_32, decide_pair_ne]
  rfl

/-- A c register is written in H form, saturated to 16 bits (R291). -/
theorem Reaches.putH {v : Int × Int} (hx : exec i s = .next { s with dev := s.dev.complex e i mv touch f })
    (h : s.dev.complexNow e i mv touch) (hf : f (s.dev.eng e) = (s.dev.eng e).putH k v) :
    Reaches i s (fun d' => ComplexResult s.dev d' e mv (s.dev.eng e).ar
      (fun j => if j = k then (BitVec.ofInt 32 (clamp16 v.1 * 65536), BitVec.ofInt 32 (clamp16 v.2 * 65536)) else (s.dev.eng e).cr j)
      (s.dev.eng e).gr false (decide ((clamp16 v.1, clamp16 v.2) ≠ v))) := by
  refine .complex hx h (y := (s.dev.eng e).setC k (BitVec.ofInt 32 (clamp16 v.1 * 65536), BitVec.ofInt 32 (clamp16 v.2 * 65536))) ?_ rfl
    (fun _ => rfl) (fun _ => Engine.cr_setC_eq _ _ _ _) (fun _ => rfl)
  rw [hf, Engine.putH, saturates, saturates, satTo_16, satTo_16, decide_pair_ne]
  rfl

/-- Accumulators are written and the count in a g register moves on (R307). -/
theorem Reaches.peak {z : Engine} {acc : Nat → Int × Int} {v : Word} (hx : exec i s = .next { s with dev := s.dev.complex e i mv touch f })
    (h : s.dev.complexNow e i mv touch) (hf : f (s.dev.eng e) = z.setG k v) (hz : z = { s.dev.eng e with a := z.a })
    (ha : ∀ j, z.ar j = acc j) :
    Reaches i s (fun d' => ComplexResult s.dev d' e mv acc (s.dev.eng e).cr (fun j => if j = k ∧ j ≠ 0 then v else (s.dev.eng e).gr j)
      false false) := by
  have hc : ∀ j, z.cr j = (s.dev.eng e).cr j := fun j => by rw [hz]; rfl
  have hg : ∀ j, z.gr j = (s.dev.eng e).gr j := fun j => by rw [hz]; rfl
  refine .complex hx h (y := z.setG k v) hf ?_ (fun j => ?_) (fun j => ?_) (fun j => ?_)
  · rw [Engine.setG_eq, hz]
  · rw [Engine.setG_eq]; exact ha j
  · rw [Engine.setG_eq]; exact hc j
  · rw [Engine.gr_setG_eq, hg]

/-- The product with a conjugate (R306). -/
theorem cprod_cconj (a b : Int × Int) : cprod a (cconj b) = (a.1 * b.1 + a.2 * b.2, a.2 * b.1 - a.1 * b.2) := by
  rw [cprod, cconj, mul_neg, mul_neg, sub_neg_eq_add, neg_add_eq_sub]

end Sys2Proof.Machine
end

section
/-! PROOFS. The complex instructions (R306, R307). -/

namespace Sys2Proof.Machine

/-- Settles O9: each row writes its accumulator, saturated where it accumulates. -/
theorem complexGroupA : Obligations.ComplexGroupA := by
  intro s e ad cx cy mv x h xr xi yr yi ar ai clamp two rows row hrow now
  simp only [rows, List.mem_cons, List.not_mem_nil, or_false] at hrow
  obtain rfl | rfl | rfl | rfl | rfl | rfl | rfl | rfl := hrow
  · exact .accum rfl now rfl
  · exact .accum rfl now (congrArg (fun v => x.accum ad (cplus (x.ar ad) v)) (cprod_cconj (x.hv cx) (x.hv cy)))
  · exact .accum rfl now rfl
  · exact .setA_exact rfl now rfl
  · exact .setA_exact rfl now (congrArg (x.setA ad) (cprod_cconj (x.hv cx) (x.hv cy)))
  · exact .setA_exact rfl now rfl
  · exact .accum rfl now rfl
  · exact .setA_exact rfl now rfl

/-- Settles O10: the rows of W form, those of H form, and the two that round nothing. -/
theorem complexGroupBRegisters : Obligations.ComplexGroupBRegisters := by
  intro s e cd cs ct as sh mv x h a b acc k c32 c16 pr pi three pair wide half hsh
  have shift : sh6 sh = k := sh6_eq hsh
  refine ⟨fun row hrow now => ?_, fun row hrow now => ?_, fun now => .setC rfl now rfl, fun now => ?_⟩
  · simp only [wide, List.mem_cons, List.not_mem_nil, or_false] at hrow
    obtain rfl | rfl | rfl | rfl | rfl := hrow
    · exact .putW rfl now rfl
    · exact .putW rfl now rfl
    · exact .putW rfl now rfl
    · exact .putW rfl now (congrArg (fun k => x.putW cd (scaleRound acc.1 (k + 1), scaleRound acc.2 (k + 1))) shift)
    · exact .putW rfl now (congrArg (fun k => x.putW cd (scaleRound a.1.toInt k, scaleRound a.2.toInt k)) shift)
  · simp only [half, List.mem_cons, List.not_mem_nil, or_false] at hrow
    obtain rfl | rfl := hrow
    · exact .putH rfl now rfl
    · exact .putH rfl now (congrArg (fun k => x.putH cd (scaleRound acc.1 (k - 15), scaleRound acc.2 (k - 15))) shift)
  · exact .complex rfl now (y := x) rfl rfl (fun _ => rfl) (fun _ => rfl) (fun _ => rfl)

/-- Settles O11: the sum, the copy, and the two comparisons with their counts. -/
theorem complexGroupBAccumulators : Obligations.ComplexGroupBAccumulators := by
  intro s e ad as ct gi mv x a b c t clamp sum sat one two
  refine ⟨fun now => .accum rfl now rfl, fun now => .setA rfl now rfl, fun now => ?_, fun now => ?_⟩
  · refine .peak (z := if a.1 < b.1 then x.setA ad (b.1, t.toInt) else x) rfl now rfl ?_ fun j => ?_
    · split <;> rfl
    · by_cases hlt : a.1 < b.1
      · simp only [hlt, and_true, if_true]; exact Engine.ar_setA_eq _ _ _ _
      · simp only [hlt, and_false, if_false]
  · exact .peak (z := x.setA ad two) rfl now rfl rfl fun _ => Engine.ar_setA_eq _ _ _ _

end Sys2Proof.Machine
end

section
/-! SUPPORT. Control transfers and block repeats (R308 to R313): what each move of the pc leaves, and when it faults. -/

namespace Sys2Proof.Machine

variable {s : State} {e len : Nat} {i : Instr} {touch : List Nat} {c : Engine → Ctl} {x y : Engine} {t : Int}

theorem Reaches.ctl (hx : exec i s = .next { s with dev := s.dev.issueCtl e i len touch c }) (h : s.dev.issuesNow e i len touch)
    (hr : (s.dev.eng e).retire len (c (s.dev.eng e)) = .ok y) : Reaches i s (fun d' => OnlyEngine s.dev d' e y) :=
  .of_eq hx (Device.issueCtl_ok h hr)

theorem Faults.ctl {n : Nat} (hx : exec i s = .next { s with dev := s.dev.issueCtl e i len touch c }) (h : s.dev.issuesNow e i len touch)
    (hr : (s.dev.eng e).retire len (c (s.dev.eng e)) = .error n) : Faults i s e n :=
  .of_eq hx (Device.issueCtl_fault h hr)

/-! Retirement, by the move of the pc. -/

theorem Engine.retire_branch (h : 0 ≤ t) (h' : t ≤ 0xFFFF) (hend : x.isEnd (x.pc + len - 1) = false) (hin : x.leavesBody t = false) :
    x.retire len (.branch t) = .ok { x with pc := t.toNat } := by
  rw [Engine.retire, if_neg (by omega), hend, hin]; rfl

theorem Engine.retire_branch_range (h : t < 0 ∨ 0xFFFF < t) : x.retire len (.branch t) = .error 2 := if_pos h

theorem Engine.retire_branch_repeat (h : 0 ≤ t) (h' : t ≤ 0xFFFF) (hend : x.isEnd (x.pc + len - 1) = true ∨ x.leavesBody t = true) :
    x.retire len (.branch t) = .error 9 := by
  rw [Engine.retire, if_neg (by omega), if_pos (by simpa using hend)]

theorem Engine.retire_call (h : 0 ≤ t) (h' : t ≤ 0xFFFF) (hs : x.stack.length < 16) (hend : x.isEnd (x.pc + len - 1) = false) :
    x.retire len (.call t) = .ok { x with pc := t.toNat, stack := (x.pc + len) :: x.stack } := by
  rw [Engine.retire, if_neg (by omega), if_neg (by omega), hend]; rfl

theorem Engine.retire_call_range (h : t < 0 ∨ 0xFFFF < t) : x.retire len (.call t) = .error 2 := if_pos h

theorem Engine.retire_call_stack (h : 0 ≤ t) (h' : t ≤ 0xFFFF) (hs : 16 ≤ x.stack.length) : x.retire len (.call t) = .error 8 := by
  rw [Engine.retire, if_neg (by omega), if_pos hs]

theorem Engine.retire_ret {a : Nat} {rest : List Nat} (h : x.stack = a :: rest) (hl : x.levelHere = false) :
    x.retire len .ret = .ok { x with pc := a, stack := rest } := by
  simp only [Engine.retire, h, hl, Bool.false_eq_true, if_false]

theorem Engine.retire_ret_stack (h : x.stack = []) : x.retire len .ret = .error 8 := by
  simp only [Engine.retire, h]

theorem Engine.retire_ret_repeat (h : x.stack ≠ []) (hl : x.levelHere = true) : x.retire len .ret = .error 9 := by
  obtain ⟨a, rest, hs⟩ := List.exists_cons_of_ne_nil h
  simp only [Engine.retire, hs, hl, if_true]

theorem Engine.retire_brk {r : RepLevel} {rest : List RepLevel} (h : x.reps = r :: rest) (hend : x.isEnd (x.pc + len - 1) = false) :
    x.retire len .brk = .ok { x with pc := r.fin + 1, reps := rest } := by
  simp only [Engine.retire, h, hend, Bool.false_eq_true, if_false]

theorem Engine.retire_brk_repeat (h : x.reps = [] ∨ x.isEnd (x.pc + len - 1) = true) : x.retire len .brk = .error 9 := by
  cases hr : x.reps with
  | nil => simp only [Engine.retire, hr]
  | cons r rest =>
    obtain h | h := h
    · rw [hr] at h; cases h
    · simp only [Engine.retire, hr, h, if_true]

theorem Engine.retire_loop {l : RepLevel} (hn : x.reps.length < 4) (hend : x.isEnd (x.pc + len - 1) = false) (ho : x.overruns l.fin = false) :
    x.retire len (.loop l) = .ok { x with pc := l.start, reps := l :: x.reps } := by
  rw [Engine.retire, hend, ho, decide_eq_false (by omega)]; rfl

theorem Engine.retire_loop_repeat {l : RepLevel} (h : 4 ≤ x.reps.length ∨ x.isEnd (x.pc + len - 1) = true ∨ x.overruns l.fin = true) :
    x.retire len (.loop l) = .error 9 := by
  rw [Engine.retire, if_pos (by simpa [or_assoc] using h)]

theorem Engine.retire_skip {fin : Nat} (hend : x.isEnd (x.pc + len - 1) = false) (ho : x.overruns fin = false) :
    x.retire len (.skip fin) = .ok { x with pc := fin + 1 } := by
  rw [Engine.retire, hend, ho]; rfl

theorem Engine.retire_skip_repeat {fin : Nat} (h : x.isEnd (x.pc + len - 1) = true ∨ x.overruns fin = true) :
    x.retire len (.skip fin) = .error 9 := by
  rw [Engine.retire, if_pos (by simpa using h)]

/-! Targets and conditions. -/

theorem Engine.target_eq (x : Engine) (off : Nat) : x.target off = x.pc + (BitVec.ofNat 16 off).toInt := by
  rw [Engine.target, signed_eq_toInt _ _ (by decide)]

/-- The conditions of R309 in the order of their codes, over the four flags. -/
theorem Engine.cond_eq {k : Nat} {z n c v : Bool} (hk : k < 13) (hz : x.stBit stZ = z) (hn : x.stBit stN = n)
    (hc : x.stBit stC = c) (hv : x.stBit stV = v) :
    x.cond k = [true, z, !z, n != v, n == v, z || (n != v), !z && (n == v), !c, c, n, !n, v, !v].getD k false := by
  delta Engine.cond
  rw [hz, hn, hc, hv]
  interval_cases k <;> rfl

/-- A branch or jump of one word, taken or not (R308, R309, R313). -/
theorem reaches_transfer {taken : Bool} {dest : Int} (hx : exec i s = .next { s with dev := s.dev.issueCtl e i 1 touch c })
    (h : s.dev.issuesNow e i 1 touch) (hc : c (s.dev.eng e) = if taken then .branch dest else .seq) :
    (taken = false → Reaches i s (fun d' => OnlyEngine s.dev d' e ((s.dev.eng e).next 1))) ∧
    (taken = true → 0 ≤ dest → dest ≤ 0xFFFF → (s.dev.eng e).isEnd (s.dev.eng e).pc = false → (s.dev.eng e).leavesBody dest = false →
      Reaches i s (fun d' => OnlyEngine s.dev d' e { s.dev.eng e with pc := dest.toNat })) ∧
    (taken = true → (dest < 0 ∨ 0xFFFF < dest) → Faults i s e 2) ∧
    (taken = true → 0 ≤ dest → dest ≤ 0xFFFF → ((s.dev.eng e).isEnd (s.dev.eng e).pc = true ∨ (s.dev.eng e).leavesBody dest = true) →
      Faults i s e 9) := by
  cases taken with
  | false => exact ⟨fun _ => .ctl hx h (hc ▸ rfl), nofun, nofun, nofun⟩
  | true =>
    exact ⟨nofun, fun _ h₀ h₁ hend hin => .ctl hx h (hc ▸ Engine.retire_branch h₀ h₁ hend hin),
      fun _ hr => .ctl hx h (hc ▸ Engine.retire_branch_range hr), fun _ h₀ h₁ hr => .ctl hx h (hc ▸ Engine.retire_branch_repeat h₀ h₁ hr)⟩

/-- A call (R310). -/
theorem reaches_call {dest : Int} (hx : exec i s = .next { s with dev := s.dev.issueCtl e i 1 touch c })
    (h : s.dev.issuesNow e i 1 touch) (hc : c (s.dev.eng e) = .call dest) :
    (0 ≤ dest → dest ≤ 0xFFFF → (s.dev.eng e).stack.length < 16 → (s.dev.eng e).isEnd (s.dev.eng e).pc = false →
      Reaches i s (fun d' => OnlyEngine s.dev d' e
        { s.dev.eng e with pc := dest.toNat, stack := ((s.dev.eng e).pc + 1) :: (s.dev.eng e).stack })) ∧
    ((dest < 0 ∨ 0xFFFF < dest) → Faults i s e 2) ∧
    (0 ≤ dest → dest ≤ 0xFFFF → 16 ≤ (s.dev.eng e).stack.length → Faults i s e 8) :=
  ⟨fun h₀ h₁ hs hend => .ctl hx h (hc ▸ Engine.retire_call h₀ h₁ hs hend), fun hr => .ctl hx h (hc ▸ Engine.retire_call_range hr),
    fun h₀ h₁ hs => .ctl hx h (hc ▸ Engine.retire_call_stack h₀ h₁ hs)⟩

end Sys2Proof.Machine
end

section
/-! PROOFS. Branches, jumps, calls, returns and block repeats (R308 to R313). -/

namespace Sys2Proof.Machine

/-- Settles O12: each transfer by its move of the pc. -/
theorem controlTransfers : Obligations.ControlTransfers := by
  refine ⟨fun s e cond off bit gs => ?_, fun s e off gs => ?_⟩
  · intro x z n c v conds t rows row hrow h
    have ht : x.target off = t := x.target_eq off
    simp only [rows, List.mem_cons, List.not_mem_nil, or_false] at hrow
    obtain rfl | rfl | rfl | rfl := hrow
    · obtain ⟨-, -, -, -, -, ok, -⟩ := id h
      have hlt : cond < 13 := of_decide_eq_true (Bool.and_eq_true_iff.mp ok).1
      have hcond : x.cond cond = conds.getD cond false := Engine.cond_eq hlt rfl rfl rfl rfl
      exact reaches_transfer rfl h (by rw [ht, hcond])
    · exact reaches_transfer rfl h (by rw [ht]; cases x.stBit bit <;> rfl)
    · exact reaches_transfer rfl h (by rw [ht])
    · exact reaches_transfer rfl h rfl
  · intro x rows
    refine ⟨fun row hrow h => ?_, fun h => ⟨fun a rest hs hl => .ctl rfl h (Engine.retire_ret hs hl),
      fun hs => .ctl rfl h (Engine.retire_ret_stack hs), fun hs hl => .ctl rfl h (Engine.retire_ret_repeat hs hl)⟩⟩
    simp only [rows, List.mem_cons, List.not_mem_nil, or_false] at hrow
    obtain rfl | rfl := hrow
    · exact reaches_call rfl h (congrArg Ctl.call (x.target_eq off))
    · exact reaches_call rfl h rfl

/-- Settles O13: REP with and without passes, and BREAK. -/
theorem blockRepeats : Obligations.BlockRepeats := by
  intro s e body cond src x n len touch start fin
  have hn : RepSrc.count x src = n := by cases src <;> rfl
  have hlen : RepSrc.len src = len := by cases src <;> rfl
  have htouch : RepSrc.touch src = touch := by cases src <;> rfl
  have hx : exec (.rep e src body) s = .next { s with dev := s.dev.issueCtl e (.rep e src body) len touch (fun x =>
      if RepSrc.count x src = 0 then .skip (x.pc + len + body - 1)
      else .loop ⟨x.pc + len, x.pc + len + body - 1, RepSrc.count x src, x.stack.length⟩) } := by
    rw [← hlen, ← htouch]; rfl
  have skips : n = 0 → ∀ {r}, x.retire len (.skip fin) = r →
      x.retire len (if RepSrc.count x src = 0 then .skip fin else .loop ⟨start, fin, RepSrc.count x src, x.stack.length⟩) = r :=
    fun h0 _ hr => by rw [if_pos (hn.trans h0), hr]
  have loops : n ≠ 0 → ∀ {r}, x.retire len (.loop ⟨start, fin, n, x.stack.length⟩) = r →
      x.retire len (if RepSrc.count x src = 0 then .skip fin else .loop ⟨start, fin, RepSrc.count x src, x.stack.length⟩) = r :=
    fun h0 _ hr => by rw [if_neg (fun h => h0 (hn.symm.trans h)), hn, hr]
  refine ⟨fun h hend ho => ⟨fun hpos hlt => ?_, fun h0 => ?_, fun hpos hge => ?_⟩, fun h hbad => ?_, fun h => ⟨fun hc => ?_,
    fun r rest hc hr hend => ?_, fun hc hbad => ?_⟩⟩
  · exact .ctl hx h (loops (by omega) (Engine.retire_loop hlt hend ho))
  · exact .ctl hx h (skips h0 (Engine.retire_skip hend ho))
  · exact .ctl hx h (loops (by omega) (Engine.retire_loop_repeat (.inl hge)))
  · by_cases h0 : n = 0
    · exact .ctl hx h (skips h0 (Engine.retire_skip_repeat hbad))
    · exact .ctl hx h (loops h0 (Engine.retire_loop_repeat (.inr hbad)))
  · exact .ctl rfl h (by rw [hc]; rfl)
  · exact .ctl rfl h (by rw [hc]; exact Engine.retire_brk hr hend)
  · exact .ctl rfl h (by rw [hc]; exact Engine.retire_brk_repeat hbad)

end Sys2Proof.Machine
end

section
/-! SUPPORT. The queue instructions (R316 to R319): their operands, the code of a push, and the st bits that they leave. -/

namespace Sys2Proof.Machine

variable {s : State} {d D : Device} {e q gq gn pn a : Nat} {i : Instr} {touch : List Nat} {x y : Engine}

/-- An instruction of one word that ends in a write of its engine. -/
theorem Reaches.seq {f : Device → Except Nat (Device × Ctl)} (hx : exec i s = .next { s with dev := s.dev.issue e i 1 touch f })
    (h : s.dev.issuesNow e i 1 touch) (hf : f s.dev = .ok (D.setEng e y, .seq)) : Reaches i s (fun d' => OnlyEngine D d' e (y.next 1)) :=
  .of_eq hx (Device.issue_seq_ok h hf)

theorem Faults.issue {f : Device → Except Nat (Device × Ctl)} {c : Nat} (hx : exec i s = .next { s with dev := s.dev.issue e i 1 touch f })
    (h : s.dev.issuesNow e i 1 touch) (hf : f s.dev = .error c) : Faults i s e c :=
  .of_eq hx (Device.issue_fault h hf)

/-! Operands (R316). -/

theorem Engine.queueArgs_ok {copies : Bool} (hq : queueOf (x.gr gq).toNat = some q) (ha : a = (x.pr pn).toNat)
    (hroom : copies = true → 0 < roomFrom a) (h64 : a % 64 = 0) : x.queueArgs gq pn copies = .ok (q, a) := by
  subst ha
  have h : ¬(copies && decide (roomFrom (x.pr pn).toNat = 0)) = true := fun h => by
    obtain ⟨hc, h0⟩ := Bool.and_eq_true_iff.mp h
    exact (hroom hc).ne' (of_decide_eq_true h0)
  simp only [Engine.queueArgs, hq, if_neg h, h64, ne_eq, not_true_eq_false, if_false]

theorem Engine.queueArgs_range {copies : Bool} (h : queueOf (x.gr gq).toNat = none ∨ (copies = true ∧ roomFrom (x.pr pn).toNat = 0)) :
    x.queueArgs gq pn copies = .error 3 := by
  cases hq : queueOf (x.gr gq).toNat with
  | none => simp only [Engine.queueArgs, hq]
  | some q =>
    obtain h | ⟨hc, h0⟩ := h
    · rw [hq] at h; cases h
    · simp only [Engine.queueArgs, hq, hc, h0, decide_true, Bool.and_self, if_true]

theorem Engine.queueArgs_align {copies : Bool} (hq : queueOf (x.gr gq).toNat = some q) (hroom : copies = true → 0 < roomFrom (x.pr pn).toNat)
    (h64 : (x.pr pn).toNat % 64 ≠ 0) : x.queueArgs gq pn copies = .error 4 := by
  have h : ¬(copies && decide (roomFrom (x.pr pn).toNat = 0)) = true := fun h => by
    obtain ⟨hc, h0⟩ := Bool.and_eq_true_iff.mp h
    exact (hroom hc).ne' (of_decide_eq_true h0)
  simp only [Engine.queueArgs, hq, if_neg h, if_pos h64]

theorem Engine.gr_ne_zero (x : Engine) (j : Nat) : decide (x.gr j ≠ 0) = decide (0 < (x.gr j).toNat) := by
  rw [decide_eq_decide, ne_eq, ← BitVec.toNat_inj, Nat.pos_iff_ne_zero]
  rfl

/-! QPUSH (R317). -/

theorem Device.dataBytes_bankUse (d : Device) (k e a n : Nat) : (d.bankUse k).dataBytes e a n = d.dataBytes e a n := by
  unfold Device.bankUse; split <;> rfl

theorem Device.qPushCode_eq (d : Device) (q n : Nat) :
    d.qPushCode q n = if d.rdN (Reg.QUE_Q_SLOTS q) < n then (0x01, true)
      else if d.isSet (F.QUE_Q_STAT_ENABLED q) = false then (0x11, true) else if d.qFree q < n then (0x0B, false) else (0x00, false) := by
  simp only [Device.qPushCode, Device.qOn, Bool.not_eq_true']
  rfl

/-- The st bits after QF and QX are written. -/
theorem Engine.stBit_push (x : Engine) (qf qx : Bool) {j : Nat} (h : j < 12) :
    ((x.setSt stQF qf).setSt stQX qx).stBit j = if j = stQX then qx else if j = stQF then qf else x.stBit j := by
  rw [Engine.stBit_setSt _ _ _ _ h, Engine.stBit_setSt _ _ _ _ h]

/-- The engine that a QPUSH leaves: the code in gn, QF and QX. -/
def Engine.pushed (x : Engine) (gn : Nat) (r : Nat × Bool) : Engine :=
  ((x.setSt stQF (decide (r.1 ≠ cOK))).setSt stQX r.2).setG gn (BitVec.ofNat 32 r.1)

/-- What the writes of a QPUSH leave (R317). -/
theorem Engine.pushed_next (x : Engine) (gn : Nat) (r : Nat × Bool) {y : Engine} (hy : y = (x.pushed gn r).next 1) :
    y = { x.next 1 with g := y.g, st := y.st } ∧ (∀ j, y.gr j = if j = gn ∧ j ≠ 0 then BitVec.ofNat 32 r.1 else x.gr j) ∧
      y.stBit stQF = decide (r.1 ≠ 0) ∧ y.stBit stQX = r.2 ∧ (∀ j, j < 12 → j ≠ stQF → j ≠ stQX → y.stBit j = x.stBit j) := by
  have bits : ∀ j, j < 12 → y.stBit j = if j = stQX then r.2 else if j = stQF then decide (r.1 ≠ 0) else x.stBit j := fun j hj => by
    rw [hy, Engine.stBit_next _ _ _ hj, Engine.pushed, Engine.stBit_setG, Engine.stBit_push _ _ _ hj]
    rfl
  refine ⟨?_, fun j => ?_, bits _ (by decide), bits _ (by decide), fun j hj hf hx => ?_⟩
  · rw [hy, Engine.pushed, Engine.setG_eq]; rfl
  · rw [hy]; exact Engine.gr_setG_eq _ _ _ _
  · rw [bits j hj, if_neg hx, if_neg hf]

/-- A push with the code that its record and its queue give. -/
theorem reaches_qpush {l n : Nat} {r : Nat × Bool} (h : s.dev.issuesNow e (.qpush e gq gn pn) 1 [gq, gn])
    (args : (s.dev.eng e).queueArgs gq pn true = .ok (q, a)) (hl : ofBytesLE (s.dev.dataBytes e (a + 4) 4) = l) (hn : slotsOf l = n)
    (hr : (if l < 32 ∨ roomFrom a < 64 * n then (cLENGTH, false) else s.dev.qPushCode q n) = r) :
    Reaches (.qpush e gq gn pn) s (fun d' =>
      OnlyEngine (if r.1 = 0 then (s.dev.bankUse (e / 16)).qAccept q (s.dev.dataBytes e a (64 * n)) n 0x14 e else s.dev.bankUse (e / 16)) d' e
        (((s.dev.eng e).pushed gn r).next 1)) := by
  have kept : (if r.1 = cOK then (s.dev.bankUse (e / 16)).qAccept q (s.dev.dataBytes e a (64 * n)) n 0x14 e
      else s.dev.bankUse (e / 16)).eng e = s.dev.eng e :=
    Device.eng_congr (Device.engines_ite ((Device.qAccept_engines _ _ _ _ _ _).trans (Device.bankUse_engines _ _))
      (Device.bankUse_engines _ _)) e
  subst hl hn
  refine .seq rfl h ?_
  dsimp only; rw [args]; dsimp only
  rw [Device.dataBytes_bankUse, hr, kept]
  rfl

/-! QPOP (R318). -/

theorem Engine.stBit_popBits (x : Engine) (qe ql qx : Bool) {j : Nat} (h : j < 12) :
    (x.popBits qe ql qx).stBit j = if j = stQX then qx else if j = stQL then ql else if j = stQE then qe else x.stBit j := by
  rw [Engine.popBits, Engine.stBit_setSt _ _ _ _ h, Engine.stBit_setSt _ _ _ _ h, Engine.stBit_setSt _ _ _ _ h]

/-- The engine that a QPOP leaves: gn where a record or an empty queue gives it a value, and the three bits. -/
def Engine.popped (x : Engine) (gn : Nat) (v : Option Nat) (qe ql qx : Bool) : Engine :=
  match v with
  | some n => (x.popBits qe ql qx).setG gn (BitVec.ofNat 32 n)
  | none => x.popBits qe ql qx

theorem Engine.popped_gr (x : Engine) (gn : Nat) (v : Option Nat) (qe ql qx : Bool) (j : Nat) :
    (x.popped gn v qe ql qx).gr j = v.elim (x.gr j) (fun n => if j = gn ∧ j ≠ 0 then BitVec.ofNat 32 n else x.gr j) := by
  cases v with
  | none => rfl
  | some n => exact Engine.gr_setG_eq _ _ _ _

theorem Engine.stBit_popped (x : Engine) (gn : Nat) (v : Option Nat) (qe ql qx : Bool) {j : Nat} (h : j < 12) :
    (x.popped gn v qe ql qx).stBit j = if j = stQX then qx else if j = stQL then ql else if j = stQE then qe else x.stBit j := by
  rw [← Engine.stBit_popBits x qe ql qx h]
  cases v with
  | none => rfl
  | some n => exact Engine.stBit_setG _ _ _ _

theorem Engine.popped_eq (x : Engine) (gn : Nat) (v : Option Nat) (qe ql qx : Bool) :
    x.popped gn v qe ql qx = { x with g := (x.popped gn v qe ql qx).g, st := (x.popped gn v qe ql qx).st } := by
  cases v with
  | none => rfl
  | some n => rw [Engine.popped, Engine.setG_eq]; rfl

/-- What the writes of a QPOP leave (R318, R319). -/
theorem Engine.popped_next (x : Engine) (gn : Nat) (v : Option Nat) (qe ql qx : Bool) {y : Engine} (hy : y = (x.popped gn v qe ql qx).next 1) :
    y = { x.next 1 with g := y.g, st := y.st } ∧
      (∀ j, y.gr j = v.elim (x.gr j) (fun n => if j = gn ∧ j ≠ 0 then BitVec.ofNat 32 n else x.gr j)) ∧
      y.stBit stQE = qe ∧ y.stBit stQL = ql ∧ y.stBit stQX = qx ∧
      (∀ j, j < 12 → j ≠ stQE → j ≠ stQL → j ≠ stQX → y.stBit j = x.stBit j) := by
  have bits : ∀ j, j < 12 → y.stBit j = if j = stQX then qx else if j = stQL then ql else if j = stQE then qe else x.stBit j := fun j hj => by
    rw [hy, Engine.stBit_next _ _ _ hj, Engine.stBit_popped _ _ _ _ _ _ hj]
  refine ⟨?_, fun j => ?_, bits _ (by decide), bits _ (by decide), bits _ (by decide), fun j hj he hl hx => ?_⟩
  · rw [hy, Engine.popped_eq]; rfl
  · rw [hy]; exact x.popped_gr gn v qe ql qx j
  · rw [bits j hj, if_neg hx, if_neg hl, if_neg he]

section

variable (h : s.dev.issuesNow e (.qpop e gq gn pn) 1 [gq, gn])
  (args : (s.dev.eng e).queueArgs gq pn (decide ((s.dev.eng e).gr gn ≠ 0)) = .ok (q, a))
  (hlim : 64 * ((s.dev.eng e).gr gn).toNat ≤ roomFrom a)

include h args hlim

theorem reaches_qpop_other (hc : s.dev.qConsumer q e = false) :
    Reaches (.qpop e gq gn pn) s (fun d' => OnlyEngine s.dev d' e (((s.dev.eng e).popped gn none false false true).next 1)) := by
  refine .seq rfl h ?_
  dsimp only; rw [args]; dsimp only
  rw [if_neg (Nat.not_lt.mpr hlim), hc]
  rfl

theorem reaches_qpop_empty (hc : s.dev.qConsumer q e = true) (hnext : (s.dev.queue q).next = none) :
    Reaches (.qpop e gq gn pn) s (fun d' =>
      OnlyEngine (if 1 ≤ ((s.dev.eng e).gr gn).toNat then s.dev.putData e a idleRecord else s.dev) d' e
        (((s.dev.eng e).popped gn (some 1) true false false).next 1)) := by
  have kept := Device.eng_congr (Device.engines_ite (c := 1 ≤ ((s.dev.eng e).gr gn).toNat)
    (Device.putData_engines s.dev e a idleRecord) rfl) e
  refine .seq rfl h ?_
  dsimp only; rw [args]; dsimp only
  rw [if_neg (Nat.not_lt.mpr hlim), hc, hnext]
  exact congrArg (fun z => Except.ok (Device.setEng _ e (z.popped gn (some 1) true false false), Ctl.seq)) kept

theorem reaches_qpop_record {r : QRec} (hc : s.dev.qConsumer q e = true) (hnext : (s.dev.queue q).next = some r)
    (hle : r.slots ≤ ((s.dev.eng e).gr gn).toNat) :
    Reaches (.qpop e gq gn pn) s (fun d' => OnlyEngine (((s.dev.putData e a (s.dev.qCopy q r)).qRefills q r.span).qAdvance q) d' e
      (((s.dev.eng e).popped gn (some r.slots) false false false).next 1)) := by
  have kept : (((s.dev.putData e a (s.dev.qCopy q r)).qRefills q r.span).qAdvance q).eng e = s.dev.eng e := Device.eng_congr (by
    rw [Device.qAdvance_engines, Device.qRefills_engines, Device.putData_engines]) e
  refine .seq rfl h ?_
  dsimp only; rw [args]; dsimp only
  rw [if_neg (Nat.not_lt.mpr hlim), hc, hnext]
  dsimp only
  rw [if_pos hle]
  exact congrArg (fun z => Except.ok (Device.setEng _ e (z.popped gn (some r.slots) false false false), Ctl.seq)) kept

theorem reaches_qpop_long {r : QRec} (hc : s.dev.qConsumer q e = true) (hnext : (s.dev.queue q).next = some r)
    (hlt : ((s.dev.eng e).gr gn).toNat < r.slots) :
    Reaches (.qpop e gq gn pn) s (fun d' =>
      OnlyEngine s.dev d' e (((s.dev.eng e).popped gn (some r.slots) false true false).next 1)) := by
  refine .seq rfl h ?_
  dsimp only; rw [args]; dsimp only
  rw [if_neg (Nat.not_lt.mpr hlim), hc, hnext]
  dsimp only
  rw [if_neg (Nat.not_le.mpr hlt)]
  rfl

end

/-! QMARK, QREW and QREL (R319). -/

/-- A position operation by the queue's consumer, and by another engine. -/
theorem reaches_queuePosition {op : Device → Nat → Device} (hx : exec i s = .next { s with dev := s.dev.queuePosition e i gq op })
    (h : s.dev.issuesNow e i 1 [gq]) (hop : ∀ d q, (op d q).engines = d.engines) :
    (queueOf ((s.dev.eng e).gr gq).toNat = some q →
      Reaches i s (fun d' => ∃ y : Engine,
        OnlyEngine (if s.dev.qConsumer q e then op s.dev q else s.dev) d' e y ∧ y = { (s.dev.eng e).next 1 with st := y.st } ∧
        y.stBit stQX = !s.dev.qConsumer q e ∧ (∀ j, j < 12 → j ≠ stQX → y.stBit j = (s.dev.eng e).stBit j))) ∧
    (queueOf ((s.dev.eng e).gr gq).toNat = none → Faults i s e 3) := by
  refine ⟨fun hq => ?_, fun hq => .issue hx h (by rw [hq])⟩
  have bits : ∀ j, j < 12 → (((s.dev.eng e).setSt stQX !s.dev.qConsumer q e).next 1).stBit j =
      if j = stQX then !s.dev.qConsumer q e else (s.dev.eng e).stBit j := fun j hj => by
    rw [Engine.stBit_next _ _ _ hj, Engine.stBit_setSt _ _ _ _ hj]
  refine (Reaches.seq hx h (y := (s.dev.eng e).setSt stQX !s.dev.qConsumer q e) ?_).mono fun d' only =>
    ⟨_, only, rfl, bits _ (by decide), fun j hj hne => by rw [bits j hj, if_neg hne]⟩
  rw [hq]
  cases hc : s.dev.qConsumer q e with
  | true => simp only [hc, if_true, Device.eng_congr (hop s.dev q)]; rfl
  | false => simp only [hc, Bool.false_eq_true, if_false]; rfl

end Sys2Proof.Machine
end

section
/-! PROOFS. The queue instructions of an engine (R316 to R319). -/

namespace Sys2Proof.Machine

/-- Settles O15: the push by its code, the pop by its branches, and the three position operations by their consumer. -/
theorem queueInstructions : Obligations.QueueInstructions := by
  refine ⟨fun s e gq gn pn => ?_, fun s e gq q => ?_⟩
  · intro x lim popped
    have copies : decide (x.gr gn ≠ 0) = decide (0 < lim) := x.gr_ne_zero gn
    refine ⟨fun h => ⟨fun q a hq ha hroom h64 => ?_, fun hbad => ?_, fun q hq hroom h64 => ?_⟩,
      fun h => ⟨fun q a hq ha hroom h64 => ?_, fun hbad => ?_, fun q hq hroom h64 => ?_⟩⟩
    · intro l n r d
      have args : x.queueArgs gq pn true = .ok (q, a) := Engine.queueArgs_ok hq ha (fun _ => hroom) h64
      exact (reaches_qpush h args (r := r) rfl rfl (by rw [Device.qPushCode_eq]; rfl)).mono fun d' only => ⟨_, only, x.pushed_next gn r rfl⟩
    · exact .issue rfl h (by dsimp only; rw [Engine.queueArgs_range (hbad.imp_right fun h0 => ⟨rfl, h0⟩)])
    · exact .issue rfl h (by dsimp only; rw [Engine.queueArgs_align hq (fun _ => hroom) h64])
    · have args : x.queueArgs gq pn (decide (x.gr gn ≠ 0)) = .ok (q, a) :=
        Engine.queueArgs_ok hq ha (fun hc => hroom (of_decide_eq_true (copies ▸ hc))) h64
      refine ⟨fun hlim => .issue rfl h (by dsimp only; rw [args]; exact if_pos hlim), fun hlim hc => ?_, fun hlim hc hnext => ?_,
        fun r hlim hc hnext => ⟨fun hle => ?_, fun hlt => ?_⟩⟩
      · exact (reaches_qpop_other h args hlim hc).mono fun d' only => ⟨_, only, x.popped_next gn none _ _ _ rfl⟩
      · exact (reaches_qpop_empty h args hlim hc hnext).mono fun d' only => ⟨_, only, x.popped_next gn (some 1) _ _ _ rfl⟩
      · exact (reaches_qpop_record h args hlim hc hnext hle).mono fun d' only => ⟨_, only, x.popped_next gn (some r.slots) _ _ _ rfl⟩
      · exact (reaches_qpop_long h args hlim hc hnext hlt).mono fun d' only => ⟨_, only, x.popped_next gn (some r.slots) _ _ _ rfl⟩
    · refine .issue rfl h ?_
      dsimp only
      rw [Engine.queueArgs_range (hbad.imp_right fun ⟨hl, h0⟩ => ⟨copies ▸ decide_eq_true hl, h0⟩)]
    · refine .issue rfl h ?_
      dsimp only
      rw [Engine.queueArgs_align hq (fun hc => hroom (of_decide_eq_true (copies ▸ hc))) h64]
  · intro x rows row hrow h
    simp only [rows, List.mem_cons, List.not_mem_nil, or_false] at hrow
    obtain rfl | rfl | rfl := hrow
    · exact reaches_queuePosition rfl h Device.qMark_engines
    · exact reaches_queuePosition rfl h Device.qRewind_engines
    · exact reaches_queuePosition rfl h Device.qRelease_engines

end Sys2Proof.Machine
end

section
/-! SUPPORT. Events, waiting and the system group (R266, R320, R321, R324). -/

namespace Sys2Proof.Machine

variable {s : State} {d D : Device} {e len : Nat} {i : Instr} {touch : List Nat} {x y : Engine}

/-- An instruction that keeps its pc: the engine that its effect leaves. -/
theorem Reaches.stay {f : Device → Except Nat (Device × Ctl)} (hx : exec i s = .next { s with dev := s.dev.issue e i len touch f })
    (h : s.dev.issuesNow e i len touch) (hf : f s.dev = .ok (D.setEng e y, .stay)) : Reaches i s (fun d' => OnlyEngine D d' e y) :=
  .of_eq hx (by rw [Device.issue_ok h hf rfl, Device.eng_setEng]; exact OnlyEngine.setEng_setEng _ _ _ _)

/-- An instruction without an effect besides moving on. -/
theorem Reaches.next {f : Device → Except Nat (Device × Ctl)} (hx : exec i s = .next { s with dev := s.dev.issue e i len touch f })
    (h : s.dev.issuesNow e i len touch) (hf : f s.dev = .ok (s.dev, .seq)) :
    Reaches i s (fun d' => OnlyEngine s.dev d' e ((s.dev.eng e).next len)) :=
  .of_eq hx (by rw [Device.issue_ok h hf (Engine.retire_seq _ _)]; exact OnlyEngine.setEng _ _ _)

/-- The entry that EVGET reads, or zero (R264). -/
def evEntryWords : List Nat → Word × Word
  | [] => (0, 0)
  | w :: _ => (BitVec.ofNat 32 w, BitVec.ofNat 32 (w / 2 ^ 32))

/-- The engine that EVGET leaves. -/
def Engine.evTaken (x : Engine) (cd : Nat) : Engine :=
  ({ x with evLost := false, evq := x.evq.tail }.setC cd (evEntryWords x.evq)).setSt stEE x.evq.isEmpty

theorem Engine.evget_eq (x : Engine) (cd : Nat) :
    (match x.evq with
      | [] => ({ x with evLost := false }.setC cd (0, 0)).setSt stEE true
      | w :: rest => ({ x with evLost := false, evq := rest }.setC cd (BitVec.ofNat 32 w, BitVec.ofNat 32 (w / 2 ^ 32))).setSt stEE false) =
      x.evTaken cd := by
  rw [Engine.evTaken]
  cases hq : x.evq with
  | nil => rw [show x = { x with evq := [] } by rw [← hq]]; rfl
  | cons w rest => rfl

/-! TIME (R321). -/

theorem time_low (t : Time) : t.setWidth 32 = BitVec.ofNat 32 t.toNat := rfl

theorem time_high (t : Time) : t.extractLsb' 32 32 = BitVec.ofNat 32 (t.toNat / 2 ^ 32) := by
  apply BitVec.eq_of_toNat_eq
  rw [BitVec.extractLsb'_toNat, BitVec.toNat_ofNat, Nat.shiftRight_eq_div_pow]

/-- A pair of g registers after both are written (R280). -/
theorem Engine.gr_setG_pair (x : Engine) (i j : Nat) (v w : Word) :
    ((x.setG i v).setG (i + 1) w).gr j = if j = i + 1 then w else if j = i ∧ j ≠ 0 then v else x.gr j := by
  rw [Engine.gr_setG_eq, Engine.gr_setG_eq]
  by_cases h : j = i + 1 <;> simp [h]

/-! SLEEP (R324). -/

theorem wordCode_sleep : wordCode 0x0050000000000000 = cOK := by decide +kernel

theorem Device.wr_setEng (d : Device) (e a v : Nat) (x : Engine) : (d.setEng e x).wr a v = (d.wr a v).setEng e x := rfl
theorem Device.rdN_setEng (d : Device) (e a : Nat) (x : Engine) : (d.setEng e x).rdN a = d.rdN a := rfl

/-- A flag and its counter do not depend on the engines. -/
theorem Device.flag_setEng (d : Device) (e c : Nat) (f : FieldAt) (x : Engine) : (d.setEng e x).flag f c = (d.flag f c).setEng e x := by
  simp only [Device.flag, Device.setFld, Device.inc, Device.wr_setEng, Device.rdN_setEng]

/-- A UCMD at a port that is outstanding: refused, flagged and counted (R260). -/
theorem Device.ucmdWord_refused {k w : Nat} {block : List Byte} (h : ((d.eng e).port k).outstanding = true) :
    d.ucmdWord e k w block =
      (d.flag (F.CL_FLAGS_PORT_REFUSED (e / 16)) (Reg.CL_PORT_REFUSED_CNT (e / 16))).setEng e ((d.eng e).setSt stPR true) := by
  rw [← Device.flag_setEng]
  exact if_pos h

/-- A port with a word on its way (R262). -/
def issuedPort : PortSt := { outstanding := true, done := false, stamped := false, code := 0, stamp := 0 }

/-- A UCMD word that the port accepts is on its way (R257, R262). -/
theorem Device.ucmdWord_issued {k w : Nat} {block : List Byte} (h : ((d.eng e).port k).outstanding = false) (hw : wordCode w = cOK) :
    d.ucmdWord e k w block =
      ((({ d with issued := d.issued ++ [⟨e, k, w, block⟩] } : Device).setEng e ((d.eng e).setSt stPR false)).setEng e
        (((d.eng e).setSt stPR false).setPort k issuedPort)) := by
  simp only [Device.ucmdWord, h, hw, Bool.false_eq_true, if_false, if_true, Device.send64, Device.eng_setEng]
  rfl

/-- A write of the engine before its last write leaves nothing. -/
theorem OnlyEngine.of_setEng {d' : Device} (h : OnlyEngine (D.setEng e x) d' e y) : OnlyEngine D d' e y := by
  obtain ⟨hy, hother, hrest⟩ := h
  exact ⟨hy, fun j hj => (hother j hj).trans (Device.eng_setEng_other _ _ _ _ hj), hrest⟩

theorem Engine.port_setPort_eq (x : Engine) (k j : Nat) (p : PortSt) : (x.setPort k p).port j = if j = k then p else x.port j :=
  Sparse.get_set _ _ _ _ _

end Sys2Proof.Machine
end

section
/-! PROOFS. Waiting for events, and the system group (R264, R266, R320, R321, R324). -/

namespace Sys2Proof.Machine

/-- Settles O16: WAIT by its selection, its resumption, EVGET by its queue, and EVACK. -/
theorem eventsAndWaiting : Obligations.EventsAndWaiting := by
  intro s e cd x
  refine ⟨fun h => ⟨fun hev hsel => ?_, fun hev hsel => ?_, fun hev => .issue rfl h (if_pos hev)⟩, fun hst hawake hsel => ?_, fun h => ?_,
    fun h => .of_eq rfl (Device.issueReg_ok h)⟩
  · refine .next rfl h ?_
    dsimp only
    rw [if_neg hev, if_pos hsel]
  · refine .stay rfl h ?_
    dsimp only
    rw [if_neg hev, hsel]
    rfl
  · have wakes : x.state = 2 ∧ (!s.dev.sys.asleep) = true ∧ s.dev.evSelected e = true := ⟨hst, by rw [hawake]; rfl, hsel⟩
    refine .of_eq (d' := s.dev.setEng e (Engine.next { x with state := 1 } 1)) ?_ (OnlyEngine.setEng _ _ _)
    show execWaitResume e s = _
    exact State.run_of_eq (if_pos wakes)
  · have bits : ∀ j, j < 12 → ((x.evTaken cd).next 1).stBit j = if j = stEE then x.evq.isEmpty else x.stBit j := fun j hj => by
      rw [Engine.stBit_next _ _ _ hj, Engine.evTaken, Engine.stBit_setSt _ _ _ _ hj]
      rfl
    refine .of_eq rfl ⟨(x.evTaken cd).next 1, ?_, rfl, fun j => ?_, bits _ (by decide), fun j hj hne => by rw [bits j hj, if_neg hne]⟩
    · rw [← Engine.evget_eq]; exact Device.issueReg_ok h
    · exact (Engine.cr_setC_eq _ _ _ _).trans (by cases x.evq <;> rfl)

/-- Settles O18: SLEEP by its engine and its port, and the others by what they write. -/
theorem systemGroup : Obligations.SystemGroup := by
  intro s e gd x p
  refine ⟨fun h => .ctl rfl h rfl, fun h => .ctl rfl h rfl, fun h => ?_, fun h => ?_,
    fun h => ⟨fun he => .issue rfl h (if_pos he), fun he hp => ?_, fun he hp => ?_⟩⟩
  · refine .stay rfl h ?_
    rw [Device.engStop_stops (.inl (.inl h.1))]
    rfl
  · refine (Reaches.seq rfl h rfl).mono fun d' only => ⟨_, only, ?_, fun j => ?_⟩
    · rw [Engine.setG_eq, Engine.setG_eq]; rfl
    · rw [time_high, time_low]; exact x.gr_setG_pair gd j _ _
  · subst he
    have bits : ∀ j, j < 12 → ((x.setSt stPR true).next 1).stBit j = if j = stPR then true else x.stBit j := fun j hj => by
      rw [Engine.stBit_next _ _ _ hj, Engine.stBit_setSt _ _ _ _ hj]
    refine (Reaches.seq rfl h (y := x.setSt stPR true) (congrArg (fun d => Except.ok (d, Ctl.seq)) (Device.ucmdWord_refused hp))).mono
      fun d' only => ⟨_, only, rfl, bits _ (by decide), fun j hj hne => by rw [bits j hj, if_neg hne]⟩
  · subst he
    have bits : ∀ j, j < 12 → (Engine.next ((x.setSt stPR false).setPort 15 issuedPort) 1).stBit j = if j = stPR then false else x.stBit j :=
      fun j hj => by rw [Engine.stBit_next _ _ _ hj]; exact Engine.stBit_setSt _ _ _ _ hj
    refine .of_eq rfl ⟨Engine.next ((x.setSt stPR false).setPort 15 issuedPort) 1, ?_, rfl, bits _ (by decide),
      fun j hj hne => by rw [bits j hj, if_neg hne], fun j hne => ?_, ?_⟩
    · exact (Device.issue_seq_ok h (congrArg (fun d => Except.ok (d, Ctl.seq)) (Device.ucmdWord_issued hp wordCode_sleep))).of_setEng
    · exact (Engine.port_setPort_eq (x.setSt stPR false) 15 j issuedPort).trans (if_neg hne)
    · exact (Engine.port_setPort_eq (x.setSt stPR false) 15 15 issuedPort).trans (if_pos rfl)

end Sys2Proof.Machine
end

section
/-! SUPPORT. Far accesses (R267 to R269, R322, R323): their addresses, and what they leave when they take effect. -/

namespace Sys2Proof.Machine

variable {s : State} {d : Device} {e i b : Nat} {x : Engine} {l : FarLoad}

/-- The far address, as the table states it (R322). -/
theorem Engine.farAddr_eq (x : Engine) (gs off : Nat) : x.farAddr gs off =
    (BitVec.ofInt 48 (((x.gr gs).toNat + (x.gr (gs + 1)).toNat % 2 ^ 16 * 2 ^ 32 : Nat) + (BitVec.ofNat 12 off).toInt)).toNat := by
  rw [Engine.farAddr, wrap, signed_eq_toInt _ _ (by decide), BitVec.toNat_ofInt]

theorem Device.store_setEng (d : Device) (e a : Nat) (bs : List Byte) (x : Engine) :
    (d.setEng e x).store a bs = (d.store a bs).setEng e x := rfl

/-! A far load's data arrives. -/

/-- What the arrival of data of device memory finds: the load, that nothing holds it back, and the place. -/
theorem exec_farLoadArrival {lat : Nat} (hl : (s.dev.eng e).fl[i]? = some l) (hawake : s.dev.sys.asleep = false)
    (hfirst : (s.dev.eng e).farEarlier l.addr l.size l.seq = false) (hloc : farLoc l.addr l.size = .ok (.mem b))
    (hlat : Reg.CL_FAR_LAT (e / 16) = lat) :
    exec (.farLoadArrival e i) s = .next { s with
      dev :=
        if s.dev.poisoned b l.size then
          if (s.dev.eng e).running && decide ((s.dev.eng e).state ≠ 3) then
            (((s.dev.moved 2).timed lat).setEng e { s.dev.eng e with fl := (s.dev.eng e).fl.eraseIdx i, pc := l.pc }).engFault e 7
          else ((s.dev.moved 2).timed lat).setEng e { s.dev.eng e with fl := (s.dev.eng e).fl.eraseIdx i }
        else ((s.dev.moved 2).timed lat).setEng e
          (Engine.farPut { s.dev.eng e with fl := (s.dev.eng e).fl.eraseIdx i } l (memLE s.dev.mem b l.size)) } := by
  show execFarLoadArrival e i s = _
  rw [execFarLoadArrival, State.run_eq]
  dsimp only
  rw [hl]
  dsimp only
  rw [hawake, hfirst, hloc, hlat]
  rfl

/-- Data without an error reaches the load's destination (R322). -/
theorem exec_farLoadArrival_clean {lat : Nat} (hl : (s.dev.eng e).fl[i]? = some l) (hawake : s.dev.sys.asleep = false)
    (hfirst : (s.dev.eng e).farEarlier l.addr l.size l.seq = false) (hloc : farLoc l.addr l.size = .ok (.mem b))
    (hlat : Reg.CL_FAR_LAT (e / 16) = lat) (hclean : s.dev.poisoned b l.size = false) :
    exec (.farLoadArrival e i) s = .next { s with
      dev := ((s.dev.moved 2).timed lat).setEng e
        (Engine.farPut { s.dev.eng e with fl := (s.dev.eng e).fl.eraseIdx i } l (memLE s.dev.mem b l.size)) } := by
  rw [exec_farLoadArrival hl hawake hfirst hloc hlat, hclean, if_neg Bool.false_ne_true]

/-- An uncorrectable error faults a running engine at the load (R271). -/
theorem exec_farLoadArrival_poisoned {lat : Nat} (hl : (s.dev.eng e).fl[i]? = some l) (hawake : s.dev.sys.asleep = false)
    (hfirst : (s.dev.eng e).farEarlier l.addr l.size l.seq = false) (hloc : farLoc l.addr l.size = .ok (.mem b))
    (hlat : Reg.CL_FAR_LAT (e / 16) = lat) (hbad : s.dev.poisoned b l.size = true) (hst : (s.dev.eng e).state = 1 ∨ (s.dev.eng e).state = 2) :
    exec (.farLoadArrival e i) s = .next { s with
      dev := (((s.dev.moved 2).timed lat).setEng e
        { s.dev.eng e with fl := (s.dev.eng e).fl.eraseIdx i, pc := l.pc }).engFault e 7 } := by
  have faults : ((s.dev.eng e).running && decide ((s.dev.eng e).state ≠ 3)) = true := by
    obtain h | h := hst <;> simp [Engine.running, h]
  rw [exec_farLoadArrival hl hawake hfirst hloc hlat, hbad, if_pos rfl, faults, if_pos rfl]

theorem Engine.farPut_c (x : Engine) (v : Nat) (h : l.size = 8) :
    x.farPut l v = x.setC (l.dst - 0x40) (BitVec.ofNat 32 v, BitVec.ofNat 32 (v / 2 ^ 32)) := if_pos h

theorem Engine.farPut_g (x : Engine) (v : Nat) (h : l.size ≠ 8) : x.farPut l v = x.setG l.dst (extendTo32 v l.size l.u) := if_neg h

/-- A load of eight bytes writes a c register (R322). -/
theorem Engine.farPut_wide (x : Engine) (v : Nat) (h : l.size = 8) : (x.farPut l v).g = x.g ∧
    ∀ j, (x.farPut l v).cr j = if j = l.dst - 0x40 then (BitVec.ofNat 32 v, BitVec.ofNat 32 (v / 2 ^ 32)) else x.cr j := by
  rw [Engine.farPut_c x v h]
  exact ⟨rfl, fun j => Engine.cr_setC_eq _ _ _ _⟩

/-- A shorter load writes a g register, extended (R322). -/
theorem Engine.farPut_narrow (x : Engine) (v : Nat) (h : l.size ≠ 8) : (x.farPut l v).c = x.c ∧
    ∀ j, (x.farPut l v).gr j = if j = l.dst ∧ j ≠ 0 then extendTo32 v l.size l.u else x.gr j := by
  rw [Engine.farPut_g x v h]
  exact ⟨by rw [Engine.setG_eq], fun j => Engine.gr_setG_eq _ _ _ _⟩

/-- A far load's destination is a c register or a g register. -/
theorem Engine.farPut_eq (x : Engine) (l : FarLoad) (v : Nat) : x.farPut l v = { x with g := (x.farPut l v).g, c := (x.farPut l v).c } := by
  by_cases h : l.size = 8
  · rw [Engine.farPut_c x v h]; rfl
  · rw [Engine.farPut_g x v h, Engine.setG_eq]

end Sys2Proof.Machine
end

section
/-! PROOFS. Far loads, far stores and the fence (R267 to R269, R322, R323). -/

namespace Sys2Proof.Machine

/-- Settles O17: the far accesses as they issue, the fence, and the accesses as they take effect. -/
theorem farMemory : Obligations.FarMemory := by
  intro s e t gs size off i u x n a reg v counted lat
  have ha : x.farAddr gs off = a := x.farAddr_eq gs off
  refine ⟨fun hfull => .of_eq rfl (if_pos hfull), fun hroom h => ?_, fun hfull => .of_eq rfl (if_pos hfull), fun hroom h => ?_,
    fun hfs => .of_eq rfl (if_pos hfs), fun hfs h => ?_, fun l b hl hawake hfirst hloc => ⟨fun hclean => ?_, fun hbad hst => ?_⟩,
    fun f b hf hawake hfirst hloc => ?_⟩
  · have issues : exec (.fld e t gs size u off) s = _ := (State.run_of_eq (if_neg (Nat.not_le.mpr hroom)) : execFld e t gs size u off s = _)
    refine ⟨fun w hw => .seq issues h (y := { x with fl := x.fl ++ [⟨a, n, u, reg, x.fseq, x.pc⟩], fseq := x.fseq + 1 }) ?_,
      fun c hc => .issue issues h ?_⟩
    · dsimp only
      rw [ha, hw]
      rfl
    · dsimp only
      rw [ha, hc]
  · have issues : exec (.fst e t gs size off) s = _ := (State.run_of_eq (if_neg (Nat.not_le.mpr hroom)) : execFst e t gs size off s = _)
    refine ⟨fun w hw => .seq issues h (y := { x with fs := x.fs ++ [⟨a, bytesLE n v, x.fseq⟩], fseq := x.fseq + 1 }) ?_,
      fun c hc => .issue issues h ?_⟩
    · dsimp only
      rw [ha, hw]
    · dsimp only
      rw [ha, hc]
  · exact .ctl (State.run_of_eq (if_neg (not_not_intro hfs)) : execFfence e s = _) h rfl
  · have arrives := exec_farLoadArrival_clean hl hawake hfirst hloc (lat := lat) rfl hclean
    refine .of_eq arrives ?_
    refine ⟨_, OnlyEngine.setEng _ _ _, ?_, fun h8 => ?_, fun h8 => ?_⟩
    · exact Engine.farPut_eq _ _ _
    · rw [← h8]
      exact Engine.farPut_wide _ _ h8
    · exact Engine.farPut_narrow _ _ h8
  · exact exec_farLoadArrival_poisoned hl hawake hfirst hloc rfl hbad hst
  · refine .of_eq (d' := ((s.dev.store b f.data).moved 2).setEng e { x with fs := x.fs.eraseIdx i }) ?_ (.setEng _ _ _)
    show execFarStoreVisible e i s = _
    rw [execFarStoreVisible, State.run_eq]
    dsimp only
    rw [hf]
    dsimp only
    rw [hawake, hfirst, hloc]
    rfl

end Sys2Proof.Machine
end

section
/-! SUPPORT. A refusal by one of several checks, what changes registers alone, and what leaves a register alone (R3, R10, R15, R42). -/

namespace Sys2Proof.Machine

variable {d : Device}

/-! Codes and words of engines. -/

/-- A check that fails, or a refusal by the checks that follow it, refuses the request (R15). -/
theorem firstCode_cons_ne_ok {b : Bool} {c : Nat} {cs : List (Bool × Nat)} (hc : c ≠ cOK) (h : b = true ∨ firstCode cs ≠ cOK) :
    firstCode ((b, c) :: cs) ≠ cOK := by
  rw [firstCode]
  by_cases hr : firstCode cs = cOK
  · rw [if_pos (h.resolve_right (not_not_intro hr)), if_pos hr]
    exact hc
  · cases b with
    | false => exact hr
    | true =>
      rw [if_pos rfl, if_neg hr]
      simp only [cOK] at hc hr ⊢
      omega

/-- Accepting a word changes the words on their way and an engine's port. -/
theorem Device.accept_frame (d : Device) (u : UCmd) : ∃ words engs, d.accept u = { d with issued := words, engines := engs } := by
  rw [Device.accept]
  split
  · exact ⟨_, _, rfl⟩
  · exact ⟨_, _, rfl⟩

theorem Device.fld_accept (d : Device) (u : UCmd) (x : FieldAt) : (d.accept u).fld x = d.fld x := by
  obtain ⟨_, _, e⟩ := d.accept_frame u
  rw [e]
  rfl

@[simp] theorem Device.sys_accept (d : Device) (u : UCmd) : (d.accept u).sys = d.sys := by
  obtain ⟨_, _, e⟩ := d.accept_frame u
  rw [e]

/-! Steps that change registers alone. -/

/-- `x` is `d` but for its registers. -/
def Device.OnlyRegs (d x : Device) : Prop := ∃ regs, x = { d with regs := regs }

theorem Device.OnlyRegs.refl (d : Device) : d.OnlyRegs d := ⟨d.regs, rfl⟩

section
variable {x : Device} (h : d.OnlyRegs x)
include h

theorem Device.OnlyRegs.sys : x.sys = d.sys := by
  obtain ⟨_, rfl⟩ := h
  rfl

theorem Device.OnlyRegs.time : x.time = d.time := by
  obtain ⟨_, rfl⟩ := h
  rfl

theorem Device.OnlyRegs.wr (a v : Nat) : d.OnlyRegs (x.wr a v) := by
  obtain ⟨_, rfl⟩ := h
  exact ⟨_, rfl⟩

theorem Device.OnlyRegs.setFld (f : FieldAt) (v : Nat) : d.OnlyRegs (x.setFld f v) := h.wr _ _

theorem Device.OnlyRegs.wr64 (lo v : Nat) : d.OnlyRegs (x.wr64 lo v) := (h.wr _ _).wr _ _

end

/-! Registers and fields that stay. -/

theorem Device.store_regs (d : Device) (a : Nat) (bs : List Byte) : (d.store a bs).regs = d.regs := rfl

theorem Device.moved_regs (d : Device) (k : Nat) : (d.moved k).regs = d.regs := rfl

theorem Device.rd_complete (d : Device) (o : Origin) (c : Nat) (t : Option Time) (a : Nat) : (d.complete o c t).rd a = d.rd a := by
  cases o with
  | host => rfl
  | device => rfl
  | port e k => rfl

theorem Device.rd_setFld_other (d : Device) (x : FieldAt) (v : Nat) {a : Nat} (h : a ≠ x.addr) : (d.setFld x v).rd a = d.rd a :=
  d.rd_wr_other _ _ _ h

theorem Device.rd_flag_other (d : Device) (x : FieldAt) (cnt : Nat) {a : Nat} (h : a ≠ x.addr) (h' : a ≠ cnt) :
    (d.flag x cnt).rd a = d.rd a := ((d.setFld x 1).rd_wr_other _ _ _ h').trans (d.rd_setFld_other x 1 h)

theorem Device.isSet_send (d : Device) (o : Out) (x : FieldAt) : (d.send o).isSet x = d.isSet x := rfl

theorem Device.isSet_congr {x : Device} {f : FieldAt} (h : x.rd f.addr = d.rd f.addr) : x.isSet f = d.isSet f := by
  rw [Device.isSet, Device.isSet, Device.fld, Device.fld, Device.rdN, Device.rdN, h]

theorem Device.isSet_flag (d : Device) {f : FieldAt} {cnt : Nat} (hw : f.f.lo + f.f.w ≤ 32) (h1 : f.f.w = 1) (hc : f.addr ≠ cnt) :
    (d.flag f cnt).isSet f = true := by
  rw [Device.flag, Device.inc, Device.isSet_congr (Device.rd_wr_other _ _ _ _ hc), Device.isSet_setFld _ _ _ hw, h1]
  rfl

theorem Device.isSet_wr_other (d : Device) (a v : Nat) {x : FieldAt} (h : x.addr ≠ a) : (d.wr a v).isSet x = d.isSet x :=
  Device.isSet_congr (d.rd_wr_other _ _ _ h)

end Sys2Proof.Machine
end

section
/-! SUPPORT. What a request for an image does once it is checked, and what the end of LOADING and of a flash read leaves (R331, R332, R341, R343). -/

namespace Sys2Proof.Machine

variable {d : Device} {s : State}

/-! START of an image (R331). -/

theorem Device.imgCode_of_align {busy : Bool} (h : d.imgBase % 4096 ≠ 0) : d.imgCode busy ≠ cOK :=
  firstCode_cons_ne_ok (by decide) (.inl (decide_eq_true h))

theorem Device.imgCode_of_region {busy : Bool} (h : Config.memSize ≤ d.imgBase) : d.imgCode busy ≠ cOK :=
  firstCode_cons_ne_ok (by decide) (.inr (firstCode_cons_ne_ok (by decide) (.inl (decide_eq_true h))))

theorem Device.imgTry_starts (ask : Nat) (h : d.imgCode d.imgBusy = cOK) : d.imgTry ask = d.imgStart 0 ask := if_pos h

theorem Device.imgTry_fails (ask : Nat) (h : d.imgCode d.imgBusy ≠ cOK) : d.imgTry ask = d.imgFail (d.imgCode d.imgBusy) := if_neg h

/-- A start enters LOADING with every unit reset, and sets the host's action bit if there is one. -/
theorem Device.imgStart_loading (d : Device) (slot ask : Nat) : ∃ x : Device, x = d.unitsReset keepMask ∧ ∃ z : Device,
    z = (Device.setFld { x with sys := { x.sys with slot := slot, ask := ask } } F.SYS_STAT_STATE 4).setFld F.SYS_IMG_STAT_BUSY 1 ∧
    d.imgStart slot ask = if ask < 4 then z.setFld ⟨Reg.SYS_IMG_CTL, ⟨ask, 1⟩⟩ 1 else z := ⟨_, rfl, _, rfl, rfl⟩

theorem exec_sysImgCtlStart (s : State) : exec .sysImgCtlStart s = .next { s with dev := s.dev.imgTry 0 } := rfl

/-! RESTART (R343). -/

theorem Device.canRestart_iff (d : Device) :
    d.canRestart = true ↔ 3 ≤ d.fld F.SYS_STAT_STATE ∧ d.fld F.SYS_STAT_STATE ≤ 7 := by
  simp only [Device.canRestart, decide_eq_true_eq, List.mem_cons, List.not_mem_nil, or_false]
  omega

theorem Device.canRestart_accept (d : Device) (u : UCmd) : (d.accept u).canRestart = d.canRestart := by
  rw [Device.canRestart, Device.fld_accept]
  rfl

theorem exec_sysImgCtlRestart (h : s.dev.canRestart = true) :
    exec .sysImgCtlRestart s = .next { s with dev := s.dev.warmRestart } := by
  show execSysImgCtlRestart s = _
  exact State.run_of_eq (if_pos h)

theorem exec_sysImgCtlRestart_busy (h : s.dev.canRestart = false) :
    exec .sysImgCtlRestart s = .next { s with dev := s.dev.setFld F.SYS_IMG_STAT_CODE cBUSY } := by
  show execSysImgCtlRestart s = _
  exact State.run_of_eq (if_neg (Bool.eq_false_iff.mp h))

theorem exec_sysImgCtlRestartLoad (h : s.dev.canRestart = true) :
    exec .sysImgCtlRestartLoad s = .next { s with dev := s.dev.warmRestart.imgTry 3 } := by
  show execSysImgCtlRestartLoad s = _
  exact State.run_of_eq (if_pos h)

theorem exec_sysImgCtlRestartLoad_busy (h : s.dev.canRestart = false) :
    exec .sysImgCtlRestartLoad s = .next { s with dev := s.dev.setFld F.SYS_IMG_STAT_CODE cBUSY } := by
  show execSysImgCtlRestartLoad s = _
  exact State.run_of_eq ((if_neg (Bool.eq_false_iff.mp h)).trans (if_neg (Bool.eq_false_iff.mp h)))

section
variable {u : UCmd} (hu : s.dev.comes 0 3 1 u)
include hu

theorem exec_sysRestart : exec (.sysRestart u) s = .next { s with dev :=
    (if !s.dev.canRestart then (s.dev.accept u).complete u.origin cBUSY none
     else if bitAt u.imm 0 then (s.dev.accept u).warmRestart.imgTry 4 else (s.dev.accept u).warmRestart) } := by
  show execSysRestart u s = _
  rw [execSysRestart, State.run_eq, Device.unitCmd_comes _ hu rfl, Device.canRestart_accept]

theorem exec_sysRestart_busy (h : s.dev.canRestart = false) :
    exec (.sysRestart u) s = .next { s with dev := (s.dev.accept u).complete u.origin cBUSY none } := by
  rw [exec_sysRestart hu, h, Bool.not_false, if_pos rfl]

theorem exec_sysRestart_ready (h : s.dev.canRestart = true) (hi : bitAt u.imm 0 = false) :
    exec (.sysRestart u) s = .next { s with dev := (s.dev.accept u).warmRestart } := by
  rw [exec_sysRestart hu, h, hi, Bool.not_true, if_neg Bool.false_ne_true, if_neg Bool.false_ne_true]

theorem exec_sysRestart_load (h : s.dev.canRestart = true) (hi : bitAt u.imm 0 = true) :
    exec (.sysRestart u) s = .next { s with dev := (s.dev.accept u).warmRestart.imgTry 4 } := by
  rw [exec_sysRestart hu, h, hi, Bool.not_true, if_neg Bool.false_ne_true, if_pos rfl]

end

/-! The end of LOADING (R332). -/

/-- The device with the sections of the image at `base` applied, in table order. -/
def Device.imgPut (d : Device) (base : Nat) : Device := (d.sects base).foldl (fun d x => d.sectApply base x) d

/-- The device shows the image at `base` as the one that runs, and is RUNNING. -/
def Device.imgShow (d : Device) (base : Nat) : Device :=
  let x : Device := { d with anchorCtx := some (d.imgWord base 0x10 % 4096) }
  let y := ((x.wr Reg.SYS_MODE 0x1F).wr64 Reg.SYS_MODE_AT_LO 0).wr64 Reg.SYS_IMG_ID_LO (x.mem64 (base + 0x28))
  let z := ((y.setFld F.SYS_IMG_STAT_SLOT y.sys.slot).setFld F.SYS_IMG_STAT_BUSY 0).setFld F.SYS_IMG_STAT_CODE cOK
  (z.imgBit z.sys.ask 0).setFld F.SYS_STAT_STATE 5

theorem Device.OnlyRegs.imgBit {x : Device} (h : d.OnlyRegs x) (a v : Nat) : d.OnlyRegs (x.imgBit a v) := by
  rw [Device.imgBit]
  split
  · exact h.setFld _ _
  · exact h

/-- Showing the image sets its anchor context and registers. -/
theorem Device.imgShow_frame (d : Device) (base : Nat) :
    Device.OnlyRegs { d with anchorCtx := some (d.imgWord base 0x10 % 4096) } (d.imgShow base) := by
  rw [Device.imgShow]
  exact .setFld (.imgBit (.setFld (.setFld (.setFld (.wr64 (.wr64 (.wr (.refl _) _ _) _ _) _ _) _ _) _ _) _ _) _ _) _ _

theorem Device.imgShow_running (d : Device) (base : Nat) : (d.imgShow base).fld F.SYS_STAT_STATE = 5 :=
  Device.fld_setFld _ _ _ (by decide)

theorem exec_imageLoaded (h : s.dev.fld F.SYS_STAT_STATE = 4) : exec .imageLoaded s = .next { s with dev :=
    (((s.dev.imgPut s.dev.imgBase).imgShow s.dev.imgBase).engStart 0
      (((s.dev.imgPut s.dev.imgBase).imgShow s.dev.imgBase).imgWord s.dev.imgBase 0x14 % 65536)).2 } := by
  show execImageLoaded s = _
  exact State.run_of_eq (if_neg (not_not_intro h))

theorem exec_imageLoaded_none (h : s.dev.fld F.SYS_STAT_STATE ≠ 4) : exec .imageLoaded s = .next s := by
  show execImageLoaded s = _
  exact State.run_of_eq (if_pos h)

/-! Images in the flash (R341). -/

theorem exec_sysImgCtlFlash_busy (h : s.dev.imgBusy = true) :
    exec .sysImgCtlFlash s = .next { s with dev := s.dev.imgFail cBUSY } := by
  show execSysImgCtlFlash s = _
  exact State.run_of_eq (if_pos h)

theorem exec_sysImgCtlFlash (h : s.dev.imgBusy = false) (hp : s.dev.isSet F.SYS_FLASH_CFG_PRESENT = true) :
    exec .sysImgCtlFlash s = .next { s with dev := (s.dev.flashBoot false).setFld F.SYS_IMG_CTL_FLASH 1 } := by
  show execSysImgCtlFlash s = _
  exact State.run_of_eq ((if_neg (Bool.eq_false_iff.mp h)).trans (if_pos hp))

theorem Device.flashNext_slotB {slot : Nat} {auto big : Bool} (hs : slot = 0) (hb : big = true) :
    d.flashNext slot auto big = { d with sys := { d.sys with flash := some (1, auto) } } := if_pos ⟨hs, hb⟩

theorem Device.flashNext_none {slot : Nat} {auto big : Bool} (h : slot ≠ 0 ∨ big = false) : d.flashNext slot auto big =
    (Device.setFld { d with sys := { d.sys with flash := none } } F.SYS_IMG_STAT_BUSY 0).setFld F.SYS_IMG_CTL_FLASH 0 :=
  if_neg (by rintro ⟨rfl, rfl⟩; simp at h)

/-- AUTOBOOT reads a slot whose image does not ask to be started. -/
def notWanted (auto : Bool) (data : List Byte) : Prop := auto = true ∧ bitAt (ofBytesLE (flashBytes (data.drop 12) 4)) 0 = false

/-- Storing a slot's image leaves the registers. -/
theorem Device.flashStore_regs (d : Device) (data : List Byte) : (d.flashStore data).regs = d.regs := by
  rw [Device.flashStore]
  split
  · rfl
  · rw [Device.moved_regs, Device.store_regs]

theorem Device.imgBase_congr {x : Device} (h : x.regs = d.regs) : x.imgBase = d.imgBase := by
  simp only [Device.imgBase, Device.rd64, Device.rdN, Device.rd, h]

theorem Device.flashPast_flashStore (d : Device) (data : List Byte) : (d.flashStore data).flashPast data = d.flashPast data := by
  rw [Device.flashPast, Device.flashPast, Device.imgBase_congr (d.flashStore_regs data)]

/-- The code of the image that a slot holds. -/
def Device.flashCode (d : Device) (data : List Byte) : Nat :=
  if d.flashPast data then cLENGTH else (d.flashStore data).imgCode false

theorem exec_flashImageRead_idle (data : List Byte) (big : Bool) (h : s.dev.sys.flash = none) :
    exec (.flashImageRead data big) s = .next s := by
  show execFlashImageRead data big s = _
  refine State.run_of_eq ?_
  simp only [h]

section
variable {slot : Nat} {auto : Bool} {data : List Byte} (big : Bool) (h : s.dev.sys.flash = some (slot, auto))
include h

theorem exec_flashImageRead_notWanted (hw : notWanted auto data) :
    exec (.flashImageRead data big) s = .next { s with dev := s.dev.flashNext slot auto big } := by
  show execFlashImageRead data big s = _
  refine State.run_of_eq ?_
  simp only [h]
  exact if_pos (by simpa [notWanted] using hw)

theorem exec_flashImageRead_starts (hw : ¬notWanted auto data) (hc : s.dev.flashCode data = cOK) :
    exec (.flashImageRead data big) s = .next { s with dev := (s.dev.flashStore data).imgStart (slot + 1) (if auto then 4 else 1) } := by
  show execFlashImageRead data big s = _
  refine State.run_of_eq ?_
  simp only [h, Device.flashPast_flashStore]
  exact (if_neg (by simpa [notWanted] using hw)).trans (if_pos hc)

theorem exec_flashImageRead_fails (hw : ¬notWanted auto data) (hc : s.dev.flashCode data ≠ cOK) : exec (.flashImageRead data big) s =
    .next { s with dev := ((s.dev.flashStore data).imgFail (s.dev.flashCode data)).flashNext slot auto big } := by
  show execFlashImageRead data big s = _
  refine State.run_of_eq ?_
  simp only [h, Device.flashPast_flashStore]
  exact (if_neg (by simpa [notWanted] using hw)).trans (if_neg hc)

end

/-! Flash commands (R341). -/

/-- The code of a flash command. -/
def Device.flashCmdCode (d : Device) (cmd : Nat) : Nat :=
  firstCode [(decide (256 < bitsOf cmd 18 9), cLENGTH), (d.sys.flash.isSome || d.sys.cmd.isSome, cBUSY),
    (decide (bitsOf cmd 8 3 ∉ [0, 3, 4]), cUNSUP)]

/-- The registers of a flash command once it is written and checked. -/
def Device.flashCmdShown (d : Device) (cmd : Nat) : Device :=
  (d.wrRw Reg.SYS_FLASH_CMD cmd).setFld F.SYS_FLASH_STAT_CODE (d.flashCmdCode cmd)

theorem exec_sysFlashCmdGo_refused {cmd : Nat} (h : s.dev.flashCmdCode cmd ≠ cOK) :
    exec (.sysFlashCmdGo cmd) s = .next { s with dev := s.dev.flashCmdShown cmd } := by
  show execSysFlashCmdGo cmd s = _
  exact State.run_of_eq (if_pos h)

/-- The device as a command goes to the flash. -/
def Device.flashCmdTaken (d : Device) (cmd : Nat) : Device :=
  (Device.setFld { d.flashCmdShown cmd with sys := { d.sys with cmd := some (cmd % 2 ^ 27) } } F.SYS_FLASH_CMD_GO 1).setFld
    F.SYS_FLASH_STAT_BUSY 1

theorem Device.flashCmdTaken_frame (d : Device) (cmd : Nat) :
    Device.OnlyRegs { d with sys := { d.sys with cmd := some (cmd % 2 ^ 27) } } (d.flashCmdTaken cmd) := by
  obtain ⟨_, shown⟩ : d.OnlyRegs (d.flashCmdShown cmd) := ((Device.OnlyRegs.refl d).wr _ _).setFld _ _
  rw [Device.flashCmdTaken, shown]
  exact .setFld (.setFld ⟨_, rfl⟩ _ _) _ _

theorem Device.flashCmdTaken_go (d : Device) (cmd : Nat) : (d.flashCmdTaken cmd).isSet F.SYS_FLASH_CMD_GO = true := by
  rw [Device.flashCmdTaken, Device.isSet_setFld_other _ _ _ _ (by decide), Device.isSet_setFld _ _ _ (by decide)]
  rfl

theorem Device.flashCmdTaken_busy (d : Device) (cmd : Nat) : (d.flashCmdTaken cmd).isSet F.SYS_FLASH_STAT_BUSY = true :=
  Device.isSet_setFld _ _ _ (by decide)

theorem exec_sysFlashCmdGo_sends {cmd : Nat} (h : s.dev.flashCmdCode cmd = cOK) : ∃ a bs, exec (.sysFlashCmdGo cmd) s =
    .next { s with dev := (s.dev.flashCmdTaken cmd).send (.flash (cmd % 2 ^ 27) a bs) } := by
  have sends : execSysFlashCmdGo cmd s = _ := State.run_of_eq (if_neg (not_not_intro h))
  exact ⟨_, _, sends⟩

/-- Byte `j` of the flash buffer. -/
def flashByte (j : Nat) : FieldAt := ⟨Reg.SYS_FLASH_BUF (j / 4), ⟨8 * (j % 4), 8⟩⟩

/-- The first `n` bytes that the flash has sent go into the buffer. -/
def Device.flashTake (d : Device) (data : List Byte) (n : Nat) : Device :=
  (List.range n).foldl (fun d j => d.setFld (flashByte j) (data.getD j 0xFF).toNat) d

theorem flashByte_width (j : Nat) : (flashByte j).f.lo + (flashByte j).f.w ≤ 32 := by
  simp only [flashByte]
  omega

theorem Device.fld_setFld_flashByte_other (d : Device) {i j : Nat} (v : Nat) (h : i ≠ j) :
    (d.setFld (flashByte i) v).fld (flashByte j) = d.fld (flashByte j) := by
  by_cases hw : j / 4 = i / 4
  · rw [Device.fld_setFld_disjoint _ _ _ _ (flashByte_width i) (by simp only [flashByte]; omega)]
  · exact Device.fld_setFld_other _ _ _ _ (by simp only [flashByte, Reg.SYS_FLASH_BUF]; omega)

theorem Device.fld_flashTake (d : Device) (data : List Byte) {n j : Nat} (h : j < n) :
    (d.flashTake data n).fld (flashByte j) = (data.getD j 0xFF).toNat := by
  induction n with
  | zero => omega
  | succ n ih =>
    have last : d.flashTake data (n + 1) = (d.flashTake data n).setFld (flashByte n) (data.getD n 0xFF).toNat := by
      rw [Device.flashTake, List.range_succ, List.foldl_append]
      rfl
    rw [last]
    by_cases hj : j = n
    · subst hj
      exact (Device.fld_setFld _ _ _ (flashByte_width j)).trans (Nat.mod_eq_of_lt (data.getD j 0xFF).isLt)
    · rw [Device.fld_setFld_flashByte_other _ _ (Ne.symm hj), ih (by omega)]

theorem Device.flashTake_frame (d : Device) (data : List Byte) (n : Nat) : d.OnlyRegs (d.flashTake data n) :=
  foldl_regs (fun x _ => (Device.OnlyRegs.refl x).setFld _ _) _ _

/-- The flash is free again, and its command has ended with OK. -/
def Device.flashFreed (d : Device) : Device :=
  ((Device.setFld { d with sys := { d.sys with cmd := none } } F.SYS_FLASH_CMD_GO 0).setFld F.SYS_FLASH_STAT_BUSY 0).setFld
    F.SYS_FLASH_STAT_CODE cOK

/-- A device that has taken the bytes is freed as the device before, but for registers. -/
theorem Device.flashFreed_frame {x : Device} (h : d.OnlyRegs x) :
    Device.OnlyRegs { d with sys := { d.sys with cmd := none } } x.flashFreed := by
  have free : Device.OnlyRegs { d with sys := { d.sys with cmd := none } } { x with sys := { x.sys with cmd := none } } := by
    obtain ⟨_, rfl⟩ := h
    exact ⟨_, rfl⟩
  exact ((free.setFld _ _).setFld _ _).setFld _ _

theorem Device.flashFreed_go (d : Device) : d.flashFreed.isSet F.SYS_FLASH_CMD_GO = false := by
  rw [Device.flashFreed, Device.isSet_setFld_other _ _ _ _ (by decide), Device.isSet_setFld_other _ _ _ _ (by decide),
    Device.isSet_setFld _ _ _ (by decide)]
  rfl

theorem Device.flashFreed_busy (d : Device) : d.flashFreed.isSet F.SYS_FLASH_STAT_BUSY = false := by
  rw [Device.flashFreed, Device.isSet_setFld_disjoint _ _ _ _ (by decide) (by decide), Device.isSet_setFld _ _ _ (by decide)]
  rfl

theorem Device.fld_flashFreed (d : Device) (j : Nat) : d.flashFreed.fld (flashByte j) = d.fld (flashByte j) := by
  have apart : ∀ x : FieldAt, x.addr < 0x1000 → (flashByte j).addr ≠ x.addr := fun x hx => by
    simp only [flashByte, Reg.SYS_FLASH_BUF]
    omega
  rw [Device.flashFreed, Device.fld_setFld_other _ _ _ _ (apart _ (by decide)), Device.fld_setFld_other _ _ _ _ (apart _ (by decide)),
    Device.fld_setFld_other _ _ _ _ (apart _ (by decide))]
  rfl

theorem exec_flashCmdDone_idle (data : List Byte) (h : s.dev.sys.cmd = none) : exec (.flashCmdDone data) s = .next s := by
  show execFlashCmdDone data s = _
  refine State.run_of_eq ?_
  simp only [h]

theorem exec_flashCmdDone (data : List Byte) {cmd : Nat} (h : s.dev.sys.cmd = some cmd) : exec (.flashCmdDone data) s =
    .next { s with dev := (s.dev.flashTake data (if bitAt cmd 16 then 0 else bitsOf cmd 18 9)).flashFreed } := by
  show execFlashCmdDone data s = _
  refine State.run_of_eq ?_
  simp only [h]
  rfl

end Sys2Proof.Machine
end

section
/-! PROOFS. Images, restarts and the flash (R331, R332, R341, R343, R344). -/

namespace Sys2Proof.Machine

/-- Settles O37, clause by clause: START and RESTART, the end of LOADING, the images in the flash, and flash commands. -/
theorem imagesAndFlash : Obligations.ImagesAndFlash := by
  intro s u data big auto slot cmd d taken live busy failed loading warm tries base put free read readCode bad want len ab cmdCode written
  have tried : ∀ {i : Instr} {x : Device} {ask : Nat}, exec i s = .next { s with dev := x.imgTry ask } → tries i x ask :=
    fun {i x ask} h => ⟨fun hc => .of_eq (h.trans (by rw [Device.imgTry_starts _ hc])) (x.imgStart_loading 0 ask),
      fun hc => .of_eq h (Device.imgTry_fails _ hc)⟩
  have lives : live d → d.canRestart = true := d.canRestart_iff.mpr
  have dead : ¬live d → d.canRestart = false := fun hl => Bool.eq_false_iff.mpr (mt d.canRestart_iff.mp hl)
  refine ⟨tried (exec_sysImgCtlStart s), Device.imgCode_of_align, Device.imgCode_of_region,
    fun hl => ⟨exec_sysImgCtlRestart (lives hl), tried (exec_sysImgCtlRestartLoad (lives hl))⟩,
    fun hl => ⟨exec_sysImgCtlRestart_busy (dead hl), exec_sysImgCtlRestartLoad_busy (dead hl), fun hu => exec_sysRestart_busy hu (dead hl)⟩,
    fun hu hl => exec_sysRestart_ready hu (lives hl), fun hu hl hi => tried (exec_sysRestart_load hu (lives hl) hi),
    exec_imageLoaded_none, fun h4 => ?_, exec_sysImgCtlFlash_busy, exec_sysImgCtlFlash, exec_flashImageRead_idle data big,
    fun hf hw hc => .of_eq (exec_flashImageRead_starts big hf hw hc) (read.imgStart_loading _ _),
    fun hf hw h0 hb => .of_eq (exec_flashImageRead_notWanted big hf hw) (Device.flashNext_slotB h0 hb),
    fun hf hw h => .of_eq (exec_flashImageRead_notWanted big hf hw) (Device.flashNext_none h),
    fun hf hw hc h0 hb => .of_eq (exec_flashImageRead_fails big hf hw hc) (Device.flashNext_slotB (d := bad) h0 hb),
    fun hf hw hc h => .of_eq (exec_flashImageRead_fails big hf hw hc) (Device.flashNext_none (d := bad) h),
    exec_sysFlashCmdGo_refused, fun hc => ?_, exec_flashCmdDone_idle data, fun hc => ?_⟩
  · obtain ⟨regs, frame⟩ := put.imgShow_frame base
    refine .of_eq (exec_imageLoaded h4) ⟨put.imgShow base, put.imgShow_running base, ?_, ?_, rfl⟩
    · rw [frame]
    · rw [frame]
  · obtain ⟨a, bs, sends⟩ := exec_sysFlashCmdGo_sends hc
    obtain ⟨regs, frame⟩ := d.flashCmdTaken_frame cmd
    refine .of_eq sends ⟨?_, (Device.isSet_send _ _ _).trans (d.flashCmdTaken_go cmd),
      (Device.isSet_send _ _ _).trans (d.flashCmdTaken_busy cmd), ⟨a, bs, ?_⟩, ?_⟩
    · rw [frame]
      rfl
    · rw [frame]
      rfl
    · rw [frame]
      rfl
  · obtain ⟨regs, frame⟩ := Device.flashFreed_frame (d.flashTake_frame data (if bitAt cmd 16 then 0 else len))
    refine .of_eq (exec_flashCmdDone data hc) ⟨?_, fun hr _ j hj => ?_, Device.flashFreed_go _, Device.flashFreed_busy _, ?_⟩
    · rw [frame]
    · refine (Device.fld_flashFreed _ j).trans (Device.fld_flashTake _ _ ?_)
      rwa [hr]
    · rw [frame]

end Sys2Proof.Machine
end

section
/-! SUPPORT. What a request for an overlay does, and what becomes of it once the overlay has been read (R334, R335). -/

namespace Sys2Proof.Machine

variable {d : Device} {s : State}

/-! The request. -/

theorem exec_sysOvlCtlGo_busy (h : s.dev.sys.ovlReqs.any (fun r => decide (r.origin = .host)) = true) :
    exec .sysOvlCtlGo s = .next { s with dev := s.dev.setFld F.SYS_OVL_STAT_CODE cBUSY } := by
  show execSysOvlCtlGo s = _
  exact State.run_of_eq (if_pos h)

theorem exec_sysOvlCtlGo (h : s.dev.sys.ovlReqs.any (fun r => decide (r.origin = .host)) = false) :
    exec .sysOvlCtlGo s = .next { s with dev :=
      (s.dev.ovlAsk (s.dev.rdN Reg.SYS_OVL_CFG % 16) (s.dev.rdTime Reg.SYS_OVL_AT_LO) .host).setFld F.SYS_OVL_CTL_GO 1 } := by
  show execSysOvlCtlGo s = _
  exact State.run_of_eq (if_neg (Bool.eq_false_iff.mp h))

theorem Device.ovlAsk_sys (d : Device) (n : Nat) (t : Time) (o : Origin) :
    (d.ovlAsk n t o).sys = { d.sys with ovlReqs := d.sys.ovlReqs ++ [⟨n, t, o⟩] } := rfl

theorem exec_sysOverlay {u : UCmd} (hu : s.dev.comes 0 1 1 u) : exec (.sysOverlay u) s =
    .next { s with dev := (s.dev.accept u).ovlAsk (u.word 0 % 16) (BitVec.ofNat 64 (u.dword 8)) u.origin } := by
  show execSysOverlay u s = _
  rw [execSysOverlay, State.run_eq, Device.unitCmd_comes _ hu rfl]

/-! Staging. -/

/-- Whether the running image has the overlay that a request names. -/
def Device.ovlKnown (d : Device) (r : OvlReq) : Bool := decide (r.num < d.ovlCount d.imgBase) && decide (d.fld F.SYS_STAT_STATE = 5)

theorem Device.ovlKnown_iff {r : OvlReq} :
    d.ovlKnown r = true ↔ r.num < d.ovlCount d.imgBase ∧ d.fld F.SYS_STAT_STATE = 5 := by
  rw [Device.ovlKnown, Bool.and_eq_true, decide_eq_true_iff, decide_eq_true_iff]

/-- The code of a request for an overlay that cannot be read. -/
def Device.ovlEarly (d : Device) (r : OvlReq) : Nat :=
  firstCode [(decide (2 ≤ d.sys.ovls.length) || d.ovlMeets r.at', cBUSY), (decide (d.fld F.SYS_STAT_STATE ≠ 5), cNOTARMED),
    (decide (d.ovlCount d.imgBase ≤ r.num), cUNSUP)]

theorem Device.ovlEarly_refuses {r : OvlReq} (h : d.ovlKnown r = false) : d.ovlEarly r ≠ cOK := by
  have why : d.fld F.SYS_STAT_STATE ≠ 5 ∨ d.ovlCount d.imgBase ≤ r.num := by
    rw [Device.ovlKnown, Bool.and_eq_false_iff, decide_eq_false_iff_not, decide_eq_false_iff_not, Nat.not_lt] at h
    exact h.symm
  refine firstCode_cons_ne_ok (by decide) (.inr ?_)
  rcases why with h | h
  · exact firstCode_cons_ne_ok (by decide) (.inl (decide_eq_true h))
  · exact firstCode_cons_ne_ok (by decide) (.inr (firstCode_cons_ne_ok (by decide) (.inl (decide_eq_true h))))

/-- The window sums that an overlay of the schedule's contexts shows. -/
def Device.ovlShow (d : Device) (r : OvlReq) (rs : List OvlRec) : Device :=
  if d.run.patchedBy rs || d.pendSched.patchedBy rs then
    (d.setFld F.XF_SCHED_STAT_CODE ((d.ovlBase r.at').ovlSched rs).1).setFld F.XF_SCHED_STAT_ENTRY ((d.ovlBase r.at').ovlSched rs).2
  else d

theorem Device.ovlShow_frame (d : Device) (r : OvlReq) (rs : List OvlRec) : d.OnlyRegs (d.ovlShow r rs) := by
  rw [Device.ovlShow]
  split
  · exact ((Device.OnlyRegs.refl d).setFld _ _).setFld _ _
  · exact .refl d

/-- The oldest request leaves the queue; `rest` wait. -/
def Device.ovlTaken (d : Device) (rest : List OvlReq) : Device := { d with sys := { d.sys with ovlReqs := rest } }

theorem exec_overlayStaged_idle (h : s.dev.sys.ovlReqs = []) : exec .overlayStaged s = .next s := by
  show execOverlayStaged s = _
  refine State.run_of_eq ?_
  simp only [h]

section
variable {r : OvlReq} {rest : List OvlReq} (h : s.dev.sys.ovlReqs = r :: rest)
include h

theorem exec_overlayStaged_unknown (hk : (s.dev.ovlTaken rest).ovlKnown r = false) : exec .overlayStaged s = .next { s with dev :=
    (((s.dev.ovlTaken rest).ovlAnswer r ((s.dev.ovlTaken rest).ovlEarly r)).complete r.origin ((s.dev.ovlTaken rest).ovlEarly r) none) } := by
  have early := Device.ovlEarly_refuses hk
  rw [Device.ovlKnown, Device.ovlTaken] at hk
  show execOverlayStaged s = _
  refine State.run_of_eq ?_
  simp only [h, hk, Bool.false_eq_true, if_false, Bool.false_and]
  exact if_pos early

section
variable (hk : (s.dev.ovlTaken rest).ovlKnown r = true)
include hk

theorem exec_overlayStaged_refused {rs : List OvlRec} {c : Nat} (hr : (s.dev.ovlTaken rest).ovlRead r.num = rs)
    (hc : (s.dev.ovlTaken rest).ovlCode r rs = c) (hn : c ≠ cOK) : exec .overlayStaged s =
      .next { s with dev := ((((s.dev.ovlTaken rest).ovlShow r rs).ovlAnswer r c).complete r.origin c none) } := by
  subst hr hc
  rw [Device.ovlKnown, Device.ovlTaken] at hk
  show execOverlayStaged s = _
  refine State.run_of_eq ?_
  simp only [h, hk, if_true, Bool.true_and]
  exact if_pos hn

theorem exec_overlayStaged_passes {rs : List OvlRec} (hr : (s.dev.ovlTaken rest).ovlRead r.num = rs)
    (hc : (s.dev.ovlTaken rest).ovlCode r rs = cOK) : exec .overlayStaged s =
      .next { s with dev := (((s.dev.ovlTaken rest).ovlShow r rs).ovlStage r rs).ovlAnswer r cOK } := by
  subst hr
  rw [Device.ovlKnown, Device.ovlTaken] at hk
  show execOverlayStaged s = _
  refine State.run_of_eq ?_
  simp only [h, hk, if_true, Bool.true_and]
  exact if_neg (not_not_intro hc)

end

end

/-- An overlay as the request that asked for it and what it patches. -/
def Ovl.asked (o : Ovl) : Nat × Time × Time × Origin × List OvlRec := (o.num, o.at', o.acc, o.origin, o.recs)

/-- Staging an overlay leaves the ones that are staged, but for the stores filled for them. -/
theorem Device.ovlStage_ovls (d : Device) (r : OvlReq) (rs : List OvlRec) : ∃ l : List Ovl,
    (d.ovlStage r rs).sys.ovls = l ++ [⟨r.num, r.at', d.time, r.origin, rs, (d.ovlBase r.at').patchedSets rs⟩] ∧
      l.map Ovl.asked = d.sys.ovls.map Ovl.asked := by
  refine ⟨_, rfl, ?_⟩
  rw [List.map_map]
  refine List.map_congr_left fun q _ => ?_
  simp only [Function.comp_apply]
  split
  · rfl
  · rfl

theorem Device.ovlStage_sys (d : Device) (r : OvlReq) (rs : List OvlRec) :
    (d.ovlStage r rs).sys = { d.sys with ovls := (d.ovlStage r rs).sys.ovls } := rfl

theorem Device.ovlStage_frame (d : Device) (r : OvlReq) (rs : List OvlRec) :
    d.ovlStage r rs = { d with sys := (d.ovlStage r rs).sys, latAt := (d.ovlStage r rs).latAt } := rfl

end Sys2Proof.Machine
end

section
/-! SUPPORT. What a request for sleep does, the end of entry, the wake causes and the wake sequence (R345, R346, R349, R350). -/

namespace Sys2Proof.Machine

variable {d : Device} {s : State}

/-! The request (R345). -/

section
variable {cfg : Nat} (t wake : Time) (o : Origin)

theorem Device.sleepReq_accepted (h : d.sleepCode cfg = cOK) : d.sleepReq cfg t wake o =
    ((d.request .sleep 0 t o [cfg % 8, wake.toNat]).setFld F.SYS_SLEEP_STAT_PENDING 1).actBit o F.SYS_SLEEP_CTL_GO := if_pos h

theorem Device.sleepReq_pending (h : d.sleepCode cfg ≠ cOK) (hp : d.isSet F.SYS_SLEEP_STAT_PENDING = true) :
    d.sleepReq cfg t wake o = (d.setFld F.SYS_SLEEP_STAT_CODE (d.sleepCode cfg)).complete o (d.sleepCode cfg) none :=
  (if_neg h).trans (if_pos hp)

theorem Device.sleepReq_refused (h : d.sleepCode cfg ≠ cOK) (hp : d.isSet F.SYS_SLEEP_STAT_PENDING = false) :
    d.sleepReq cfg t wake o = d.sleepFinish o (d.sleepCode cfg) none := (if_neg h).trans (if_neg (Bool.eq_false_iff.mp hp))

end

theorem exec_sysSleepCtlGo (s : State) : exec .sysSleepCtlGo s = .next { s with dev := (s.dev.sleepReq (s.dev.rdN Reg.SYS_SLEEP_CFG)
    (s.dev.rdTime Reg.SYS_SLEEP_AT_LO) (s.dev.rdTime Reg.SYS_WAKE_AT_LO) .host) } := rfl

theorem exec_sysSleep {u : UCmd} (hu : s.dev.comes 0 2 1 u) : exec (.sysSleep u) s = .next { s with dev :=
    ((s.dev.accept u).sleepReq (u.word 0) (BitVec.ofNat 64 (u.dword 8)) (BitVec.ofNat 64 (u.dword 16)) u.origin) } := by
  show execSysSleep u s = _
  rw [execSysSleep, State.run_eq, Device.unitCmd_comes _ hu rfl]

/-! Entry (R346). -/

theorem Device.framesGone_iff (d : Device) :
    d.framesGone = true ↔ d.ready = [] ∧ d.flight = [] ∧ ∀ q ∈ d.seqs, d.seqNext q = none := by
  simp only [Device.framesGone, Bool.and_eq_true, List.isEmpty_iff, List.all_eq_true, Option.isNone_iff_eq_none, and_assoc]

/-- Frames are left while one waits, is in a pipe, or still forms. -/
theorem Device.framesGone_eq_false (h : d.ready ≠ [] ∨ d.flight ≠ [] ∨ ∃ q ∈ d.seqs, (d.seqNext q).isSome = true) :
    d.framesGone = false := by
  refine Bool.eq_false_iff.mpr fun hg => ?_
  obtain ⟨ready, flight, seqs⟩ := d.framesGone_iff.mp hg
  rcases h with h | h | ⟨q, hq, h⟩
  · exact h ready
  · exact h flight
  · rw [seqs q hq] at h
    cases h

/-- The device at the end of entry. -/
def Device.sleepEnter (d : Device) (x : SleepRec) : Device :=
  let d := d.queuesHome.saveAll.tilesLost
  let d := x.lanes.foldl (fun d i => d.disableLane i) d
  let d := (d.setFld F.HIF_LINK_STAT_L1 (d.cfgOf 7)).setFld F.MEM_STAT_STATE 3
  { d with sys := { d.sys with asleep := true, wake := if d.sys.woken then some d.time else none } }

theorem exec_sleepEntryDone_none (h : s.dev.sys.slp = none) : exec .sleepEntryDone s = .next s := by
  show execSleepEntryDone s = _
  refine State.run_of_eq ?_
  simp only [h]

section
variable {x : SleepRec} (hs : s.dev.sys.slp = some x)
include hs

theorem exec_sleepEntryDone_waits (h : s.dev.fld F.SYS_STAT_STATE ≠ 6 ∨ s.dev.framesGone = false) :
    exec .sleepEntryDone s = .next s := by
  show execSleepEntryDone s = _
  refine State.run_of_eq ?_
  simp only [hs]
  exact if_pos (h.imp_right fun hg => .inr (by rw [hg]; rfl))

theorem exec_sleepEntryDone (h : s.dev.fld F.SYS_STAT_STATE = 6) (ha : s.dev.sys.asleep = false) (hg : s.dev.framesGone = true) :
    exec .sleepEntryDone s = .next { s with dev := s.dev.sleepEnter x } := by
  show execSleepEntryDone s = _
  refine State.run_of_eq ?_
  simp only [hs]
  exact if_neg (by rw [ha, hg]; simp [h])

end

/-! Wake causes (R349). -/

/-- SYS_SLEEP_STAT shows a wake cause. -/
def Device.causeShown (d : Device) (k : Nat) : Device := d.setFld ⟨Reg.SYS_SLEEP_STAT, ⟨F.SYS_SLEEP_STAT_CAUSE.f.lo + k, 1⟩⟩ 1

theorem Device.wakeCause_none (k : Nat) (h : d.sys.slp = none) : d.wakeCause k = d := by
  rw [Device.wakeCause, h]

section
variable {x : SleepRec} {k : Nat} (hs : d.sys.slp = some x)
include hs

theorem Device.wakeCause_ignored (h : bitAt x.sources k = false ∨ (d.fld F.SYS_STAT_STATE ≠ 6 ∧ d.fld F.SYS_STAT_STATE ≠ 7)) :
    d.wakeCause k = d := by
  rw [Device.wakeCause, hs]
  refine if_pos (h.imp (fun hb => by rw [hb]; rfl) fun ⟨h6, h7⟩ => ?_)
  simp [h6, h7]

section
variable (hb : bitAt x.sources k = true) (hc : d.fld F.SYS_STAT_STATE = 6 ∨ d.fld F.SYS_STAT_STATE = 7)
include hb hc

theorem Device.wakeCause_counts : d.wakeCause k =
    if !d.sys.asleep then { d.causeShown k with sys := { d.sys with woken := true } }
    else { d.causeShown k with sys := { d.sys with wake := some (d.sys.wake.getD d.time) } } := by
  rw [Device.wakeCause, hs]
  exact if_neg (by rcases hc with h | h <;> simp [hb, h])

theorem Device.wakeCause_entering (ha : d.sys.asleep = false) :
    d.wakeCause k = { d.causeShown k with sys := { d.sys with woken := true } } := by
  rw [Device.wakeCause_counts hs hb hc]
  exact if_pos (by rw [ha]; rfl)

theorem Device.wakeCause_asleep (ha : d.sys.asleep = true) :
    d.wakeCause k = { d.causeShown k with sys := { d.sys with wake := some (d.sys.wake.getD d.time) } } := by
  rw [Device.wakeCause_counts hs hb hc]
  exact if_neg (by rw [ha]; decide)

end
end

theorem exec_wakePin (s : State) : exec .wakePin s = .next { s with dev := s.dev.wakeCause 0 } := rfl

theorem exec_wakeHostAccess (s : State) : exec .wakeHostAccess s = .next { s with dev := s.dev.wakeCause 1 } := rfl

/-- A cause that changes nothing. -/
theorem exec_cause_none {i : Instr} {k : Nat} (hi : exec i s = .next { s with dev := s.dev.wakeCause k }) (h : s.dev.sys.slp = none) :
    exec i s = .next s := by rw [hi, Device.wakeCause_none k h]

theorem exec_wakeTimer_none (h : s.dev.sys.slp = none) : exec .wakeTimer s = .next s := by
  show execWakeTimer s = _
  refine State.run_of_eq ?_
  rw [h]
  exact if_neg Bool.false_ne_true

section
variable {x : SleepRec} (hs : s.dev.sys.slp = some x)
include hs

theorem exec_wakeTimer_due (ht : timeLE x.wakeAt s.dev.time = true) : exec .wakeTimer s = .next { s with dev := s.dev.wakeCause 2 } := by
  show execWakeTimer s = _
  refine State.run_of_eq ?_
  simp only [hs, Option.map_some, Option.getD_some]
  exact if_pos ht

theorem exec_wakeTimer_early (ht : timeLE x.wakeAt s.dev.time = false) : exec .wakeTimer s = .next s := by
  show execWakeTimer s = _
  refine State.run_of_eq ?_
  simp only [hs, Option.map_some, Option.getD_some]
  exact if_neg (Bool.eq_false_iff.mp ht)

end

/-! The wake sequence (R350). -/

theorem exec_wakeStart_none (h : s.dev.sys.slp = none) : exec .wakeStart s = .next s := by
  show execWakeStart s = _
  refine State.run_of_eq ?_
  simp only [h]

theorem exec_resumeInstant_none (h : s.dev.sys.slp = none) : exec .resumeInstant s = .next s := by
  show execResumeInstant s = _
  refine State.run_of_eq ?_
  simp only [h]

/-- The device right after the wake instant. -/
def Device.wakes (d : Device) : Device :=
  { (d.setFld F.SYS_STAT_STATE 7).setFld F.HIF_LINK_STAT_L1 0 with sys := { d.sys with wakeStep := 0 } }

/-- The lanes recorded at entry are enabled. -/
def Device.lanesOn (d : Device) (x : SleepRec) : Device :=
  x.lanes.foldl (fun d i => d.enableLane i (d.isSet (F.LNK_L_CFG_POL_INV i))) d

/-- The streams recorded at entry enter ACQUIRE. -/
def Device.streamsOn (d : Device) (x : SleepRec) (w : Time) : Device :=
  x.streams.foldl (fun d t => Device.setStream (d.sAcquire t) t { (d.sAcquire t).stream t with acqSince := w + wakeAcquire }) d

theorem Device.time_setLane (d : Device) (i : Nat) (x : Lane) : (d.setLane i x).time = d.time := rfl

theorem Device.time_enableLane (d : Device) (i : Nat) (pol : Bool) : (d.enableLane i pol).time = d.time := by
  rw [Device.enableLane]
  split
  · rw [Device.time_setLane, Device.setFld_time, Device.wr_time, Device.wr_time]
  · rw [Device.time_setLane, Device.setFld_time, Device.wr_time, Device.wr_time]

theorem Device.time_lanesOn (d : Device) (x : SleepRec) : (d.lanesOn x).time = d.time :=
  foldl_keeps (get := Device.time) (fun d i _ => d.time_enableLane i _) _

theorem Device.memWake_frame (d : Device) : d.OnlyRegs d.memWake := by
  rw [Device.memWake]
  split
  · exact (Device.OnlyRegs.refl d).setFld _ _
  · exact .refl d

theorem Device.memWake_sys (d : Device) : d.memWake.sys = d.sys := d.memWake_frame.sys

theorem Device.memWake_time (d : Device) : d.memWake.time = d.time := d.memWake_frame.time

/-! The three parts of the wake sequence, each of which waits for its instant after the wake instant `w`. -/

def Device.wakeMem (d : Device) (w : Time) : Device := if timeLE (w + nsTime 500000) d.time then d.memWake else d

def Device.wakeLane (d : Device) (x : SleepRec) (w : Time) : Device :=
  if d.sys.wakeStep = 0 ∧ timeLE (w + wakeLanes) d.time then Device.lanesOn { d with sys := { d.sys with wakeStep := 1 } } x else d

def Device.wakeStream (d : Device) (x : SleepRec) (w : Time) : Device :=
  if d.sys.wakeStep = 1 ∧ timeLE (w + wakeAcquire) d.time then Device.streamsOn { d with sys := { d.sys with wakeStep := 2 } } x w else d

section
variable {x : SleepRec} {w : Time}

theorem Device.wakeTick_waking (hs : d.sys.slp = some x) (hw : d.sys.wake = some w) (h7 : d.fld F.SYS_STAT_STATE = 7) :
    d.wakeTick = ((d.wakeMem w).wakeLane x w).wakeStream x w := by
  rw [Device.wakeTick, hs, hw]
  exact if_neg (not_not_intro h7)

theorem Device.wakeMem_due (h : timeLE (w + nsTime 500000) d.time = true) : d.wakeMem w = d.memWake := if_pos h

theorem Device.wakeMem_early (h : timeLE (w + nsTime 500000) d.time = false) : d.wakeMem w = d := if_neg (Bool.eq_false_iff.mp h)

theorem Device.wakeLane_due {y : Sys} (hy : d.sys = y) (h0 : y.wakeStep = 0) (h : timeLE (w + wakeLanes) d.time = true) :
    d.wakeLane x w = Device.lanesOn { d with sys := { y with wakeStep := 1 } } x := by
  subst hy
  exact if_pos ⟨h0, h⟩

theorem Device.wakeLane_waits (h : d.sys.wakeStep ≠ 0 ∨ timeLE (w + wakeLanes) d.time = false) : d.wakeLane x w = d :=
  if_neg fun ⟨h0, ht⟩ => h.elim (absurd h0) fun hf => Bool.eq_false_iff.mp hf ht

theorem Device.wakeStream_due {y : Sys} (hy : d.sys = y) (h1 : y.wakeStep = 1) (h : timeLE (w + wakeAcquire) d.time = true) :
    d.wakeStream x w = Device.streamsOn { d with sys := { y with wakeStep := 2 } } x w := by
  subst hy
  exact if_pos ⟨h1, h⟩

theorem Device.wakeStream_early (h : timeLE (w + wakeAcquire) d.time = false) : d.wakeStream x w = d :=
  if_neg fun ⟨_, ht⟩ => Bool.eq_false_iff.mp h ht

section
variable (hs : d.sys.slp = some x) (hw : d.sys.wake = some w) (h7 : d.fld F.SYS_STAT_STATE = 7)
include hs hw h7

theorem Device.wakeTick_lanes (h0 : d.sys.wakeStep = 0) (hm : timeLE (w + nsTime 500000) d.time = true)
    (hl : timeLE (w + wakeLanes) d.time = true) (ha : timeLE (w + wakeAcquire) d.time = false) :
    d.wakeTick = Device.lanesOn { d.memWake with sys := { d.sys with wakeStep := 1 } } x := by
  rw [Device.wakeTick_waking hs hw h7, Device.wakeMem_due hm, Device.wakeLane_due d.memWake_sys h0 (d.memWake_time.symm ▸ hl)]
  refine Device.wakeStream_early ?_
  rw [Device.time_lanesOn]
  exact d.memWake_time.symm ▸ ha

theorem Device.wakeTick_streams (h1 : d.sys.wakeStep = 1) (hm : timeLE (w + nsTime 500000) d.time = true)
    (ha : timeLE (w + wakeAcquire) d.time = true) :
    d.wakeTick = Device.streamsOn { d.memWake with sys := { d.sys with wakeStep := 2 } } x w := by
  have later : d.memWake.sys.wakeStep ≠ 0 := by
    rw [Device.memWake_sys, h1]
    exact one_ne_zero
  rw [Device.wakeTick_waking hs hw h7, Device.wakeMem_due hm, Device.wakeLane_waits (.inl later),
    Device.wakeStream_due d.memWake_sys h1 (d.memWake_time.symm ▸ ha)]

theorem Device.wakeTick_early (hm : timeLE (w + nsTime 500000) d.time = false) (hl : timeLE (w + wakeLanes) d.time = false)
    (ha : timeLE (w + wakeAcquire) d.time = false) : d.wakeTick = d := by
  rw [Device.wakeTick_waking hs hw h7, Device.wakeMem_early hm, Device.wakeLane_waits (.inr hl), Device.wakeStream_early ha]

end
end

/-! The resume instant (R350). -/

/-- The device as it goes on from the resume instant of wake `w`. -/
def Device.resumed (d : Device) (x : SleepRec) (w : Time) : Device :=
  let r := resumeAt w
  let d : Device := { d with sys := { d.sys with slp := none, asleep := false, wake := none, woken := false } }
  let d := (d.setFld F.SYS_STAT_STATE 5).memWake
  let d := x.streams.foldl (fun d t => d.resumeStream w r t) d
  let d := x.chans.foldl (fun d z => (d.zStartAt z r).srcRestart (8 + z) r) d
  let d := d.resumePlanes x r
  let d := x.units.foldl (fun d n => d.tArmAt n r) d
  let d := x.caps.foldl (fun d c => d.acArmAt c r) d
  (List.range 9).foldl (fun d k => d.rotShow k) ((d.resumeTimers r).stepsMissed r)

/-- The resume instant and the count of sleeps are shown. -/
def Device.resumeShown (d : Device) (t : Time) : Device := (d.wrTime Reg.SYS_RESUME_LO t).flag F.SYS_FLAGS_SLEPT Reg.SYS_SLEEP_CNT

theorem Device.rd_sleepFinish (d : Device) (o : Origin) (c : Nat) (t : Option Time) {a : Nat} (h : a ≠ Reg.SYS_SLEEP_CTL)
    (h' : a ≠ Reg.SYS_SLEEP_STAT) : (d.sleepFinish o c t).rd a = d.rd a := by
  rw [Device.sleepFinish, Device.rd_complete, Device.rd_setFld_other _ _ _ h', Device.rd_setFld_other _ _ _ h']
  split
  · exact d.rd_setFld_other _ _ h
  · rfl

theorem Device.rdTime_resumeFinish (d : Device) (t : Time) (o : Origin) (c : Nat) (stamp : Option Time) :
    ((d.resumeShown t).sleepFinish o c stamp).rdTime Reg.SYS_RESUME_LO = t := by
  have half : ∀ a, a = Reg.SYS_RESUME_LO ∨ a = Reg.SYS_RESUME_LO + 4 →
      ((d.resumeShown t).sleepFinish o c stamp).rd a = (d.wrTime Reg.SYS_RESUME_LO t).rd a := by
    rintro a (rfl | rfl)
    · rw [Device.rd_sleepFinish _ _ _ _ (by decide) (by decide), Device.resumeShown, Device.rd_flag_other _ _ _ (by decide) (by decide)]
    · rw [Device.rd_sleepFinish _ _ _ _ (by decide) (by decide), Device.resumeShown, Device.rd_flag_other _ _ _ (by decide) (by decide)]
  rw [Device.rdTime_congr (half _ (.inl rfl)) (half _ (.inr rfl)), Device.rdTime_wrTime]

theorem Device.slept_resumeFinish (d : Device) (t : Time) (o : Origin) (c : Nat) (stamp : Option Time) :
    ((d.resumeShown t).sleepFinish o c stamp).isSet F.SYS_FLAGS_SLEPT = true := by
  rw [Device.isSet_congr (Device.rd_sleepFinish _ _ _ _ (by decide) (by decide)), Device.resumeShown]
  exact Device.isSet_flag _ (by decide) rfl (by decide)

section
variable {x : SleepRec} {w : Time} (hs : s.dev.sys.slp = some x) (hw : s.dev.sys.wake = some w)
include hs hw

theorem exec_wakeStart_waits (h : s.dev.fld F.SYS_STAT_STATE ≠ 6) : exec .wakeStart s = .next s := by
  show execWakeStart s = _
  refine State.run_of_eq ?_
  simp only [hs, hw]
  exact if_pos (.inl h)

theorem exec_wakeStart (h : s.dev.fld F.SYS_STAT_STATE = 6) (ha : s.dev.sys.asleep = true) :
    exec .wakeStart s = .next { s with dev := s.dev.wakes } := by
  show execWakeStart s = _
  refine State.run_of_eq ?_
  simp only [hs, hw]
  exact if_neg (by simp [h, ha])

theorem exec_resumeInstant_waits (h : s.dev.fld F.SYS_STAT_STATE ≠ 7 ∨ timeLE (resumeAt w) s.dev.time = false) :
    exec .resumeInstant s = .next s := by
  show execResumeInstant s = _
  refine State.run_of_eq ?_
  simp only [hs, hw]
  exact if_pos (h.imp_right fun ht => by rw [ht]; rfl)

theorem exec_resumeInstant (h : s.dev.fld F.SYS_STAT_STATE = 7) (ht : timeLE (resumeAt w) s.dev.time = true) :
    exec .resumeInstant s = .next { s with dev :=
      (((s.dev.resumed x w).resumeShown (resumeAt w)).sleepFinish x.origin cOK (some (resumeAt w))) } := by
  show execResumeInstant s = _
  refine State.run_of_eq ?_
  simp only [hs, hw]
  exact if_neg (by simp [h, ht])

end

end Sys2Proof.Machine
end

section
/-! PROOFS. Overlays and sleep (R334, R335, R345, R346, R349, R350). -/

namespace Sys2Proof.Machine

/-- Settles O38, clause by clause: overlay requests and their staging, sleep requests, the end of entry, the wake causes, and the wake sequence. -/
theorem overlaysAndSleep : Obligations.OverlaysAndSleep := by
  intro s u r rest x w d taken cur ask sleep due known rs code sums shown early asked woke causes waking at' home entered memory enabled acquiring
  have slept : ∀ {i : Instr} {y : Device} {cfg : Nat} {t wake : Time} {o : Origin},
      exec i s = .next { s with dev := y.sleepReq cfg t wake o } → sleep i y cfg t wake o := fun h =>
    ⟨fun hc => .of_eq h (Device.sleepReq_accepted _ _ _ hc), fun hc hp => .of_eq h (Device.sleepReq_pending _ _ _ hc hp),
      fun hc hp => .of_eq h (Device.sleepReq_refused _ _ _ hc hp)⟩
  have caused : ∀ {i : Instr} {k : Nat}, d.sys.slp = some x → exec i s = .next { s with dev := d.wakeCause k } → causes i k := fun hs h =>
    ⟨fun hb hc ha => .of_eq h (Device.wakeCause_entering hs hb hc ha), fun hb hc ha => .of_eq h (Device.wakeCause_asleep hs hb hc ha),
      fun hi => .of_eq h (Device.wakeCause_ignored hs hi)⟩
  have unknown : ¬known → due.ovlKnown r = false := fun hk => Bool.eq_false_iff.mpr (mt Device.ovlKnown_iff.mp hk)
  refine ⟨exec_sysOvlCtlGo_busy, exec_sysOvlCtlGo, fun hu => .of_eq (exec_sysOverlay hu) ⟨rfl, ?_⟩, exec_overlayStaged_idle,
    fun hq hk hc => ?_, fun hq hk hc => exec_overlayStaged_refused hq (Device.ovlKnown_iff.mpr hk) rfl rfl hc,
    fun hq hk => ⟨Device.ovlEarly_refuses (unknown hk), exec_overlayStaged_unknown hq (unknown hk)⟩,
    slept (exec_sysSleepCtlGo s), fun hu => slept (exec_sysSleep hu),
    fun hn => ⟨exec_sleepEntryDone_none hn, exec_cause_none (exec_wakePin s) hn, exec_cause_none (exec_wakeHostAccess s) hn,
      exec_wakeTimer_none hn, exec_wakeStart_none hn, exec_resumeInstant_none hn⟩, fun hs => ⟨fun h => ?_,
    fun h6 ha hr hf hq => exec_sleepEntryDone hs h6 ha (d.framesGone_iff.mpr ⟨hr, hf, hq⟩), caused hs (exec_wakePin s),
    caused hs (exec_wakeHostAccess s), fun ht => caused hs (exec_wakeTimer_due hs ht), exec_wakeTimer_early hs, exec_wakeStart hs,
    fun hw h7 => ⟨Device.wakeTick_lanes hs hw h7, Device.wakeTick_streams hs hw h7, Device.wakeTick_early hs hw h7⟩,
    exec_wakeStart_waits hs, exec_resumeInstant_waits hs, fun hw h7 ht => ?_⟩⟩
  · rw [Device.ovlAsk_sys, Device.sys_accept]
  · have regs : due.OnlyRegs shown := due.ovlShow_frame r rs
    obtain ⟨l, ovls, same⟩ := shown.ovlStage_ovls r rs
    rw [regs.sys] at same
    rw [regs.time] at ovls
    refine .of_eq (exec_overlayStaged_passes hq (Device.ovlKnown_iff.mpr hk) rfl hc)
      ⟨shown.ovlStage r rs, ⟨l, ovls, same⟩, ?_, shown.ovlStage_frame r rs, rfl⟩
    rw [shown.ovlStage_sys, regs.sys]
  · exact exec_sleepEntryDone_waits hs (h.imp_right Device.framesGone_eq_false)
  · exact .of_eq (exec_resumeInstant hs hw h7 ht) ⟨d.resumed x w, rfl, Device.rdTime_resumeFinish _ _ _ _ _, Device.slept_resumeFinish _ _ _ _ _⟩

end Sys2Proof.Machine
end

section
/-! SUPPORT. Power, the reset pins and the steps from reset to READY (R337, R338, R419, R449, R450, R538, R583 to R585). -/

namespace Sys2Proof.Machine

variable {d : Device} {s : State}

/-! Power (R583, R584). -/

theorem exec_powerUp (straps : Nat) (s : State) : exec (.powerUp straps) s =
    .next { s with dev := { s.dev.unpowered with sys := { low := [true, true], straps := straps % 4 } } } := rfl

theorem exec_railOutOfRange (h : s.dev.pinLow = true) : exec .railOutOfRange s = .next { s with dev := s.dev.unpowered } := by
  show execRailOutOfRange s = _
  rw [execRailOutOfRange, if_pos h, State.run_eq]

/-! The reset pins (R337, R585). -/

section
variable {perst : Bool} {ns : Nat} {full : Bool}

theorem exec_resetAssert (h : 10000 ≤ ns ∨ (100 ≤ ns ∧ full = true)) :
    exec (.resetAssert perst ns full) s = .next { s with dev := (s.dev.setPin perst true).fullReset } := by
  show execResetAssert perst ns full s = _
  exact State.run_of_eq (if_pos h)

theorem exec_resetAssert_ignored (h : ns < 100 ∨ (ns < 10000 ∧ full = false)) : exec (.resetAssert perst ns full) s = .next s := by
  have short : ¬(10000 ≤ ns ∨ (100 ≤ ns ∧ full = true)) := by
    rcases h with h | ⟨h, rfl⟩
    · omega
    · simp [h]
  show execResetAssert perst ns full s = _
  exact State.run_of_eq (if_neg short)

theorem exec_resetRelease_high (h : s.dev.sys.low.getD (pinOf perst) false = false) : exec (.resetRelease perst) s = .next s := by
  show execResetRelease perst s = _
  exact State.run_of_eq (if_pos (by rw [h]; rfl))

section
variable (h : s.dev.sys.low.getD (pinOf perst) false = true)
include h

/-- The other pin is still low. -/
theorem exec_resetRelease_first (ho : (s.dev.setPin perst false).pinLow = true) :
    exec (.resetRelease perst) s = .next { s with dev := s.dev.setPin perst false } := by
  show execResetRelease perst s = _
  exact State.run_of_eq ((if_neg (by rw [h]; decide)).trans (if_pos ho))

theorem exec_resetRelease_last (ho : (s.dev.setPin perst false).pinLow = false) : exec (.resetRelease perst) s =
    .next { s with dev := ((s.dev.setPin perst false).setFld F.SYS_STAT_STATE 1).setFld F.SYS_STAT_REF_WAIT 1 } := by
  show execResetRelease perst s = _
  exact State.run_of_eq ((if_neg (by rw [h]; decide)).trans (if_neg (Bool.eq_false_iff.mp ho)))

end
end

/-! The reference (R338, R450). -/

/-- Step 1 of R337 waits for REFCLK. -/
def Device.refAwaited (d : Device) : Prop :=
  d.fld F.SYS_STAT_STATE = 1 ∧ d.sys.started = false ∧ d.pinLow = false ∧ d.isSet F.CLK_STAT_REF_PRESENT = false

/-- The registers show a REFCLK of frequency `f`. -/
def Device.refShown (d : Device) (f : Nat) (guess : Bool) : Device :=
  ((((((d.setFld F.SYS_STAT_REF_WAIT 0).setFld F.CLK_STAT_REF_PRESENT 1).setFld F.CLK_STAT_REF_GUESS (if guess then 1 else 0)).wr
    Reg.CLK_REF_FREQ f).wr Reg.CLK_CUR_CFG (rootFor f).1).wr Reg.CLK_CUR_FRAC (rootFor f).2)

/-- The roots take REFCLK to be `f`. -/
def Device.refTaken (d : Device) (f : Nat) : Device := { d with roots := { d.roots with ref := f } }

def Device.locksShown (d : Device) (lockA lockB : Bool) : Device :=
  (d.setFld F.CLK_STAT_A_LOCK (if lockA then 1 else 0)).setFld F.CLK_STAT_B_LOCK (if lockB then 1 else 0)

theorem Device.refTaken_rd (d : Device) (f a : Nat) : (d.refTaken f).rd a = d.rd a := rfl

theorem bit_of_bool (b : Bool) : decide ((if b then 1 else 0) % 2 = 1) = b := by cases b <;> rfl

theorem Device.aLock_locksShown (d : Device) (lockA lockB : Bool) : (d.locksShown lockA lockB).isSet F.CLK_STAT_A_LOCK = lockA := by
  rw [Device.locksShown, Device.isSet_setFld_disjoint _ _ _ _ (by decide) (by decide), Device.isSet_setFld _ _ _ (by decide)]
  exact bit_of_bool lockA

theorem Device.bLock_locksShown (d : Device) (lockA lockB : Bool) : (d.locksShown lockA lockB).isSet F.CLK_STAT_B_LOCK = lockB := by
  rw [Device.locksShown, Device.isSet_setFld _ _ _ (by decide)]
  exact bit_of_bool lockB

/-- The lock bits share CLK_STAT with what the reference shows. -/
theorem Device.isSet_locksShown (d : Device) (lockA lockB : Bool) {x : FieldAt} (h : 3 ≤ x.f.lo) :
    (d.locksShown lockA lockB).isSet x = d.isSet x := by
  rw [Device.locksShown, Device.isSet_setFld_disjoint _ F.CLK_STAT_B_LOCK x _ (by decide) (.inl h),
    Device.isSet_setFld_disjoint _ F.CLK_STAT_A_LOCK x _ (by decide) (.inl (Nat.le_of_succ_le h))]

theorem Device.rd_locksShown (d : Device) (lockA lockB : Bool) {a : Nat} (h : a ≠ Reg.CLK_STAT) :
    (d.locksShown lockA lockB).rd a = d.rd a := by
  rw [Device.locksShown, Device.rd_setFld_other _ _ _ h, Device.rd_setFld_other _ _ _ h]

theorem Device.isSet_refShown (d : Device) (f : Nat) (guess : Bool) {x : FieldAt} (h : x.addr = Reg.CLK_STAT) :
    (d.refShown f guess).isSet x =
      (((d.setFld F.SYS_STAT_REF_WAIT 0).setFld F.CLK_STAT_REF_PRESENT 1).setFld F.CLK_STAT_REF_GUESS (if guess then 1 else 0)).isSet x := by
  rw [Device.refShown, Device.isSet_wr_other _ _ _ (by rw [h]; decide), Device.isSet_wr_other _ _ _ (by rw [h]; decide),
    Device.isSet_wr_other _ _ _ (by rw [h]; decide)]

theorem Device.refPresent_refShown (d : Device) (f : Nat) (guess : Bool) : (d.refShown f guess).isSet F.CLK_STAT_REF_PRESENT = true := by
  rw [d.isSet_refShown f guess rfl, Device.isSet_setFld_disjoint _ _ _ _ (by decide) (by decide), Device.isSet_setFld _ _ _ (by decide)]
  rfl

theorem Device.refGuess_refShown (d : Device) (f : Nat) (guess : Bool) : (d.refShown f guess).isSet F.CLK_STAT_REF_GUESS = guess := by
  rw [d.isSet_refShown f guess rfl, Device.isSet_setFld _ _ _ (by decide)]
  exact bit_of_bool guess

theorem Device.refFreq_refShown (d : Device) {f : Nat} (guess : Bool) (h : f < 2 ^ 32) : (d.refShown f guess).rdN Reg.CLK_REF_FREQ = f := by
  rw [Device.refShown, Device.rdN_wr_other _ _ _ _ (by decide), Device.rdN_wr_other _ _ _ _ (by decide), Device.rdN_wr, Nat.mod_eq_of_lt h]

/-- What the reference and the roots show are registers. -/
theorem Device.refTaken_frame (d : Device) (f : Nat) (guess lockA lockB : Bool) :
    Device.OnlyRegs (d.refTaken f) (((d.refShown f guess).refTaken f).locksShown lockA lockB) := by
  obtain ⟨_, shown⟩ : d.OnlyRegs (d.refShown f guess) :=
    .wr (.wr (.wr (.setFld (.setFld (.setFld (.refl d) _ _) _ _) _ _) _ _) _ _) _ _
  rw [shown]
  exact .setFld (.setFld ⟨_, rfl⟩ _ _) _ _

section
variable {hz f : Nat} {guess lockA lockB : Bool}

theorem exec_refclkReady_none (h : s.dev.fld F.SYS_STAT_STATE ≠ 1 ∨ s.dev.sys.started = true ∨ s.dev.pinLow = true) :
    exec (.refclkReady hz lockA lockB) s = .next s := by
  show execRefclkReady hz lockA lockB s = _
  exact State.run_of_eq (if_pos (h.imp_right (.imp_right .inl)))

section
variable (h : s.dev.refAwaited)
include h

theorem exec_refclkReady_unplaced (hf : refFreq hz = none) :
    exec (.refclkReady hz lockA lockB) s = .next { s with dev := s.dev.setFld F.SYS_STAT_REF_WAIT 1 } := by
  obtain ⟨h1, hs, hp, hr⟩ := h
  show execRefclkReady hz lockA lockB s = _
  refine State.run_of_eq ?_
  simp only [hf]
  exact if_neg (by simp [h1, hs, hp, hr])

theorem exec_refclkReady (hf : refFreq hz = some (f, guess)) : exec (.refclkReady hz lockA lockB) s = .next { s with dev :=
    (if lockA ∧ lockB then (((s.dev.refShown f guess).refTaken f).locksShown lockA lockB).stepOneEnd
     else ((s.dev.refShown f guess).refTaken f).locksShown lockA lockB) } := by
  obtain ⟨h1, hs, hp, hr⟩ := h
  show execRefclkReady hz lockA lockB s = _
  refine State.run_of_eq ?_
  simp only [hf]
  exact if_neg (by simp [h1, hs, hp, hr])

end
end

/-! The lock of the roots (R338, R455). -/

theorem exec_rootLockTimeout_none (h : s.dev.locking = false) : exec .rootLockTimeout s = .next s := by
  show execRootLockTimeout s = _
  exact State.run_of_eq (if_pos (by rw [h]; rfl))

section
variable (h : s.dev.locking = true)
include h

theorem exec_rootLockTimeout_fails (ha : s.dev.isSet F.CLK_STAT_A_LOCK = false) (hb : s.dev.isSet F.CLK_STAT_B_LOCK = false) :
    exec .rootLockTimeout s = .next { s with dev := s.dev.setFld F.SYS_STAT_STATE 8 } := by
  show execRootLockTimeout s = _
  exact State.run_of_eq ((if_neg (by rw [h]; decide)).trans (if_pos (by rw [ha, hb]; decide)))

theorem exec_rootLockTimeout_one (hab : s.dev.isSet F.CLK_STAT_A_LOCK ≠ s.dev.isSet F.CLK_STAT_B_LOCK) : ∃ x : Device,
    x = (s.dev.setFld F.CLK_STAT_ACTIVE (if s.dev.isSet F.CLK_STAT_A_LOCK then 0 else 1)).stepOneEnd ∧
      exec .rootLockTimeout s = .next { s with dev := x.withdrawUnit (rootUnit x.standby) 5 } := by
  refine ⟨_, rfl, ?_⟩
  show execRootLockTimeout s = _
  refine State.run_of_eq ((if_neg (by rw [h]; decide)).trans (if_neg fun ⟨ha, hb⟩ => hab ?_))
  rw [Bool.not_eq_true'] at ha hb
  rw [ha, hb]

end

/-! Power-on self-test and training (R419, R538). -/

/-- After POST the device trains its memory, or has FAILED for want of an engine cluster that can run. -/
def Device.postEnd (d : Device) : Device :=
  if (groupUnits 0 0).all (fun u => decide (d.puState u = 5)) then d.setFld F.SYS_STAT_STATE 8
  else (d.setFld F.SYS_STAT_STATE 2).setFld F.MEM_STAT_STATE 1

theorem Device.puState_postEnd (d : Device) (u : Nat) : d.postEnd.puState u = d.puState u := by
  have sys : (F.ROT_U_STAT_STATE u).addr ≠ F.SYS_STAT_STATE.addr := by
    simp only [F.ROT_U_STAT_STATE, Reg.ROT_U_STAT, F.SYS_STAT_STATE, Reg.SYS_STAT]
    omega
  have mem : (F.ROT_U_STAT_STATE u).addr ≠ F.MEM_STAT_STATE.addr := by
    simp only [F.ROT_U_STAT_STATE, Reg.ROT_U_STAT, F.MEM_STAT_STATE, Reg.MEM_STAT]
    omega
  rw [Device.postEnd]
  split
  · exact Device.fld_setFld_other _ _ _ _ sys
  · exact (Device.fld_setFld_other _ _ _ _ mem).trans (Device.fld_setFld_other _ _ _ _ sys)

theorem Device.state_postEnd (d : Device) : d.postEnd.fld F.SYS_STAT_STATE =
    if (groupUnits 0 0).all (fun u => decide (d.postEnd.puState u = 5)) then 8 else 2 := by
  simp only [Device.puState_postEnd]
  rw [Device.postEnd]
  split
  · exact Device.fld_setFld _ _ _ (by decide)
  · exact (Device.fld_setFld_other _ _ _ _ (by decide)).trans (Device.fld_setFld _ _ _ (by decide))

theorem exec_postDone_none (failed : List Nat) (fixed : Nat) (vddOk : Bool)
    (h : s.dev.fld F.SYS_STAT_STATE ≠ 1 ∨ s.dev.sys.started = false) : exec (.postDone failed fixed vddOk) s = .next s := by
  show execPostDone failed fixed vddOk s = _
  exact State.run_of_eq (if_pos (h.imp_right fun hs => by rw [hs]; rfl))

theorem exec_postDone (failed : List Nat) (fixed : Nat) (vddOk : Bool) (h : s.dev.fld F.SYS_STAT_STATE = 1)
    (hs : s.dev.sys.started = true) : ∃ x : Device, exec (.postDone failed fixed vddOk) s = .next { s with dev := x.postEnd } := by
  have ends : execPostDone failed fixed vddOk s = _ := State.run_of_eq (if_neg (by rw [h, hs]; decide))
  exact ⟨_, ends⟩

theorem exec_trainingDone_none (remaps : List Nat) (flash : Bool) (h : s.dev.fld F.SYS_STAT_STATE ≠ 2) :
    exec (.trainingDone remaps flash) s = .next s := by
  show execTrainingDone remaps flash s = _
  exact State.run_of_eq (if_pos h)

/-- The device is READY, and with a flash present it reads it. -/
def Device.trainEnd (d : Device) (flash : Bool) : Device :=
  let d := (d.setFld F.SYS_STAT_STATE 3).setFld F.SYS_FLASH_CFG_PRESENT (if flash then 1 else 0)
  if flash then (d.setFld F.SYS_STAT_FLASH_TRIED 1).flashBoot true else d

section
variable {remaps : List Nat} (flash : Bool) (h : s.dev.fld F.SYS_STAT_STATE = 2)
include h

theorem exec_trainingDone_fails (hf : (s.dev.memTrain remaps).isSet F.MEM_STAT_FAILED = true) :
    exec (.trainingDone remaps flash) s = .next { s with dev := (s.dev.memTrain remaps).setFld F.SYS_STAT_STATE 8 } := by
  show execTrainingDone remaps flash s = _
  exact State.run_of_eq ((if_neg (not_not_intro h)).trans (if_pos hf))

theorem exec_trainingDone_passes (hf : (s.dev.memTrain remaps).isSet F.MEM_STAT_FAILED = false) :
    exec (.trainingDone remaps flash) s = .next { s with dev := (s.dev.memTrain remaps).trainEnd flash } := by
  show execTrainingDone remaps flash s = _
  exact State.run_of_eq ((if_neg (not_not_intro h)).trans (if_neg (Bool.eq_false_iff.mp hf)))

end

/-! The Function Level Reset (R449). -/

/-- The configuration space and the MSI-X table return to reset, and the function to D0. -/
def Device.functionReset (d : Device) : Device :=
  { d with cfg := [], d3hot := false, regs := resetRegs (fun a => if 0xa10000 ≤ a ∧ a < 0xa18100 then 0 else allBits) d.regs }

theorem exec_functionLevelReset (h : s.dev.functionReset.canRestart = true) :
    exec .functionLevelReset s = .next { s with dev := s.dev.functionReset.warmRestart } := by
  show execFunctionLevelReset s = _
  exact State.run_of_eq (if_pos h)

theorem exec_functionLevelReset_only (h : s.dev.functionReset.canRestart = false) :
    exec .functionLevelReset s = .next { s with dev := s.dev.functionReset } := by
  show execFunctionLevelReset s = _
  exact State.run_of_eq (if_neg (Bool.eq_false_iff.mp h))

end Sys2Proof.Machine
end

section
/-! SUPPORT. The edges of TCK at the test access port (R592, IEEE 1149.1). -/

namespace Sys2Proof.Machine

variable {d : Device}

theorem exec_testAccessPortClock_reset (tms tdi rising : Bool) (s : State) : exec (.testAccessPortClock tms tdi true rising) s =
    .next { s with dev := { s.dev with tap := { s.dev.tap with state := .testLogicReset, ir := Config.tapCode 0 % 256 } } } := rfl

theorem exec_testAccessPortClock_rise (tms tdi : Bool) (s : State) :
    exec (.testAccessPortClock tms tdi false true) s = .next { s with dev := s.dev.tapRise tms tdi } := rfl

theorem exec_testAccessPortClock_fall (tms tdi : Bool) (s : State) :
    exec (.testAccessPortClock tms tdi false false) s = .next { s with dev := s.dev.tapFall } := rfl

/-- Outside the capture and shift states a rising edge moves the port alone. -/
theorem Device.tapRise_moves (tms tdi : Bool) (hcd : d.tap.state ≠ .captureDr) (hci : d.tap.state ≠ .captureIr)
    (hsd : d.tap.state ≠ .shiftDr) (hsi : d.tap.state ≠ .shiftIr) :
    d.tapRise tms tdi = { d with tap := { d.tap with state := d.tap.state.after tms } } := by
  rw [Device.tapRise]
  split
  · next h => exact absurd h hcd
  · next h => exact absurd h hsd
  · next h => exact absurd h hci
  · next h => exact absurd h hsi
  · rfl

theorem Device.tapRise_shiftDr (tms tdi : Bool) (h : d.tap.state = .shiftDr) : d.tapRise tms tdi =
    { d with tap := { d.tap with drShift := d.tap.drShift.tail ++ [tdi], state := if tms then .exit1Dr else .shiftDr } } := by
  rw [Device.tapRise, h]
  cases tms with
  | false => rfl
  | true => rfl

theorem Device.tapFall_shiftDr (h : d.tap.state = .shiftDr) : d.tapFall = d.send (.tdo (d.tap.drShift.headD false)) := by
  simp only [Device.tapFall, h]

theorem Device.tapFall_updateIr (h : d.tap.state = .updateIr) :
    d.tapFall = { d with tap := { d.tap with ir := ofBits d.tap.irShift } } := by
  simp only [Device.tapFall, h]

/-- Five ones on TMS reach Test-Logic-Reset from every state. -/
theorem TapState.after_five_ones (t : TapState) : ((((t.after true).after true).after true).after true).after true = .testLogicReset := by
  cases t <;> rfl

end Sys2Proof.Machine
end

section
/-! PROOFS. Power, reset, start-up and the test access port (R337, R338, R419, R449, R450, R538, R583 to R585, R592). -/

namespace Sys2Proof.Machine

/-- Settles O39, clause by clause: power and the reset pins, the reference and the roots, POST and training, the Function Level Reset, and the
test access port. -/
theorem powerResetAndStart : Obligations.PowerResetAndStart := by
  intro s straps ns hz fixed f perst full lockA lockB flash vdd tms tdi rising guess failed remaps d cur bare pin low up trained flr t
  refine ⟨.of_eq (exec_powerUp straps s) ⟨rfl, rfl⟩, exec_railOutOfRange, exec_resetAssert, exec_resetAssert_ignored, exec_resetRelease_high,
    exec_resetRelease_first, exec_resetRelease_last, fun h1 hs hp hr => ?_, exec_refclkReady_none, exec_rootLockTimeout_none,
    exec_rootLockTimeout_fails, fun hl hab => ?_, exec_postDone_none failed fixed vdd, fun h1 hs => ?_, exec_trainingDone_none remaps flash,
    exec_trainingDone_fails flash, exec_trainingDone_passes flash, exec_functionLevelReset, exec_functionLevelReset_only,
    exec_testAccessPortClock_reset tms tdi rising s,
    fun hcd hci hsd hsi => .of_eq (exec_testAccessPortClock_rise tms tdi s) (Device.tapRise_moves tms tdi hcd hci hsd hsi),
    fun h => .of_eq (exec_testAccessPortClock_rise tms tdi s) (Device.tapRise_shiftDr tms tdi h),
    fun h => .of_eq (exec_testAccessPortClock_fall tms tdi s) (Device.tapFall_shiftDr h),
    fun h => .of_eq (exec_testAccessPortClock_fall tms tdi s) (Device.tapFall_updateIr h), t.state.after_five_ones⟩
  · have awaits : d.refAwaited := ⟨h1, hs, hp, hr⟩
    obtain ⟨regs, frame⟩ := d.refTaken_frame f guess lockA lockB
    refine ⟨exec_refclkReady_unplaced awaits, fun hf hlt hl => ?_, fun hf ha hb => ?_⟩
    · have one : ¬(lockA = true ∧ lockB = true) := by simpa using hl
      refine .of_eq ((exec_refclkReady awaits hf).trans (by rw [if_neg one])) ⟨?_, ?_, ?_, Device.aLock_locksShown _ _ _,
        Device.bLock_locksShown _ _ _, ?_, ?_⟩
      · rw [frame]
        rfl
      · rw [Device.rdN, Device.rd_locksShown _ _ _ (by decide), Device.refTaken_rd]
        exact d.refFreq_refShown guess hlt
      · rw [Device.isSet_locksShown _ _ _ (by decide), Device.isSet_congr (Device.refTaken_rd _ _ _), Device.refPresent_refShown]
      · rw [Device.isSet_locksShown _ _ _ (by decide), Device.isSet_congr (Device.refTaken_rd _ _ _), Device.refGuess_refShown]
      · rw [frame]
        rfl
    · refine .of_eq ((exec_refclkReady awaits hf).trans (by rw [if_pos ⟨ha, hb⟩]))
        ⟨((d.refShown f guess).refTaken f).locksShown lockA lockB, rfl, ?_⟩
      rw [frame]
      rfl
  · obtain ⟨x, hx, ends⟩ := exec_rootLockTimeout_one hl hab
    exact .of_eq ends ⟨x, hx, rfl⟩
  · obtain ⟨x, ends⟩ := exec_postDone failed fixed vdd h1 hs
    exact .of_eq ends x.state_postEnd

end Sys2Proof.Machine
end

section
/-! SUPPORT. What the completion of a record, the arming of a queue's vector and the refill of a slot do (R354, R361, R367 to R369). -/

namespace Sys2Proof.Machine

variable {d : Device} {s : State} {q : Nat}

/-! Queues and fields read after a write. -/

@[simp] theorem Device.queue_setQueue (d : Device) (q : Nat) (x : Queue) : (d.setQueue q x).queue q = x := Sparse.get_set_same _ _ _ _

theorem Device.queue_setQueue_other (d : Device) {q p : Nat} (x : Queue) (h : p ≠ q) : (d.setQueue q x).queue p = d.queue p :=
  Sparse.get_set_other _ _ _ _ _ h

theorem Device.queue_wr (d : Device) (a v p : Nat) : (d.wr a v).queue p = d.queue p := rfl

theorem Device.queue_setFld (d : Device) (x : FieldAt) (v p : Nat) : (d.setFld x v).queue p = d.queue p := rfl

theorem Device.fld_setQueue (d : Device) (q : Nat) (y : Queue) (x : FieldAt) : (d.setQueue q y).fld x = d.fld x := rfl

theorem Device.fld_wr_other (d : Device) (a v : Nat) {x : FieldAt} (h : x.addr ≠ a) : (d.wr a v).fld x = d.fld x := by
  rw [Device.fld, Device.rdN_wr_other _ _ _ _ h, Device.fld]

/-! Registers that a vector leaves (R369, R446). -/

theorem Device.fld_lt (d : Device) (x : FieldAt) : d.fld x < 2 ^ x.f.w := Nat.mod_lt _ (Nat.two_pow_pos _)

/-- A vector that falls due leaves the registers above the bytes sent, but for the pending bits. -/
theorem Device.fld_msix {v : Nat} (hv : v < 2 ^ 11) {x : FieldAt} (h : Reg.HIF_TX_BYTES_LO + 4 < x.addr) (hp : x.addr < Reg.MSIX_PBA 0 ∨
    Reg.MSIX_PBA 64 ≤ x.addr) : (d.msix v).fld x = d.fld x := by
  have pba : x.addr ≠ Reg.MSIX_PBA (v / 32) := by
    simp only [Reg.MSIX_PBA] at hp ⊢
    omega
  rw [Device.msix]
  split
  · exact d.fld_setFld_other _ _ _ pba
  · rw [Device.fld, Device.rdN, Device.rd_add64_other _ _ _ _ (by omega) (by omega)]
    rfl

theorem Device.casRole_qIrq (d : Device) (q : Nat) : (d.qIrq q).casRole = d.casRole := by
  rw [Device.qIrq]
  split
  · have arm : Reg.CAS_STAT ≠ Reg.QUE_Q_IRQ q := by
      simp only [Reg.CAS_STAT, Reg.QUE_Q_IRQ]
      omega
    exact (Device.fld_msix (d.fld_lt (F.QUE_Q_IRQ_VEC q)) (by decide) (.inr (by decide))).trans (d.fld_setFld_other _ _ _ arm)
  · rfl

/-! The oldest reservation is written (R361, R367). -/

/-- A queue whose oldest reservation `r` has been written at `t`: W passes it. -/
def Queue.written (x : Queue) (r : QRec) (t : Time) : Queue := { x with recs := markDone x.recs, w := r.start + r.slots, arrive := t }

/-- Queue `q` once its oldest reservation `r` has been written, with PEAK after it. -/
def Device.qWritten (d : Device) (q : Nat) (r : QRec) : Device :=
  (d.setQueue q ((d.queue q).written r d.time)).wr (Reg.QUE_Q_PEAK q)
    (max (d.rdN (Reg.QUE_Q_PEAK q)) ((d.queue q).written r d.time).used)

theorem Device.fld_qWritten (d : Device) (r : QRec) {x : FieldAt} (h : x.addr ≠ Reg.QUE_Q_PEAK q) : (d.qWritten q r).fld x = d.fld x := by
  rw [Device.qWritten, Device.fld_wr_other _ _ _ h, Device.fld_setQueue]

theorem Device.fld_qWritten_engine (d : Device) (q : Nat) (r : QRec) :
    (d.qWritten q r).fld (F.QUE_Q_CFG_ENGINE q) = d.fld (F.QUE_Q_CFG_ENGINE q) :=
  d.fld_qWritten r (by simp only [F.QUE_Q_CFG_ENGINE, Reg.QUE_Q_CFG, Reg.QUE_Q_PEAK]; omega)

theorem Device.isSet_qWritten_host (d : Device) (q : Nat) (r : QRec) :
    (d.qWritten q r).isSet (F.QUE_Q_CFG_HOST q) = d.isSet (F.QUE_Q_CFG_HOST q) := by
  rw [Device.isSet, d.fld_qWritten r (by simp only [F.QUE_Q_CFG_HOST, Reg.QUE_Q_CFG, Reg.QUE_Q_PEAK]; omega), Device.isSet]

theorem Device.casRole_qWritten (d : Device) (q : Nat) (r : QRec) : (d.qWritten q r).casRole = d.casRole :=
  d.fld_qWritten r (by simp only [F.CAS_STAT_ROLE, Reg.CAS_STAT, Reg.QUE_Q_PEAK]; omega)

theorem Device.qComplete_none (hx : (d.queue q).filling = none) : d.qComplete q = d := by
  simp only [Device.qComplete, hx]

/-- A completed record is noticed by the queue's consumer engine, where it has one, and the vector follows. -/
theorem Device.qComplete_some {r : QRec} (hx : (d.queue q).filling = some r) : d.qComplete q =
    (if d.isSet (F.QUE_Q_CFG_HOST q) then d.qWritten q r
     else (d.qWritten q r).notify (d.fld (F.QUE_Q_CFG_ENGINE q)) (evEntry 17 q 0 r.seq)).qIrq q := by
  rw [← d.isSet_qWritten_host q r, ← d.fld_qWritten_engine q r]
  simp only [Device.qComplete, hx]
  rfl

/-- A device without a role in a cascade forwards nothing (R555). -/
theorem Device.casForward_idle (h : d.casRole = caNone) : d.casForward q = d := by
  have idle : d.casWorks = false := by
    rw [Device.casWorks, h]
    rfl
  rw [Device.casForward, idle]
  rfl

theorem exec_recordComplete (q : Nat) (s : State) :
    exec (.recordComplete q) s = .next { s with dev := (s.dev.qComplete q).casForward q } := rfl

theorem exec_recordComplete_none (hx : (s.dev.queue q).filling = none) (hc : s.dev.casRole = caNone) : exec (.recordComplete q) s = .next s := by
  rw [exec_recordComplete, Device.qComplete_none hx, Device.casForward_idle hc]

theorem exec_recordComplete_host {r : QRec} (hx : (s.dev.queue q).filling = some r) (hc : s.dev.casRole = caNone)
    (hh : s.dev.isSet (F.QUE_Q_CFG_HOST q) = true) :
    exec (.recordComplete q) s = .next { s with dev := (s.dev.qWritten q r).qIrq q } := by
  have idle : ((s.dev.qWritten q r).qIrq q).casRole = caNone := by rw [Device.casRole_qIrq, Device.casRole_qWritten, hc]
  rw [exec_recordComplete, Device.qComplete_some hx, if_pos hh, Device.casForward_idle idle]

theorem exec_recordComplete_engine {r : QRec} (hx : (s.dev.queue q).filling = some r) (hh : s.dev.isSet (F.QUE_Q_CFG_HOST q) = false) :
    exec (.recordComplete q) s = .next { s with dev :=
      (((s.dev.qWritten q r).notify (s.dev.fld (F.QUE_Q_CFG_ENGINE q)) (evEntry 17 q 0 r.seq)).qIrq q).casForward q } := by
  rw [exec_recordComplete, Device.qComplete_some hx, if_neg (Bool.eq_false_iff.mp hh)]

/-! ARM (R369). -/

/-- The vector of a queue armed. -/
def Device.qArmed (d : Device) (q vec : Nat) : Device := (d.setFld (F.QUE_Q_IRQ_VEC q) vec).setFld (F.QUE_Q_IRQ_ARM q) 1

theorem Device.isSet_qArmed (d : Device) (q vec : Nat) : (d.qArmed q vec).isSet (F.QUE_Q_IRQ_ARM q) = true :=
  Device.isSet_setFld _ _ _ (show 16 + 1 ≤ 32 by decide)

theorem Device.rdN_qArmed_thresh (d : Device) (q vec : Nat) : (d.qArmed q vec).rdN (Reg.QUE_Q_THRESH q) = d.rdN (Reg.QUE_Q_THRESH q) := by
  have other : Reg.QUE_Q_THRESH q ≠ Reg.QUE_Q_IRQ q := by
    simp only [Reg.QUE_Q_THRESH, Reg.QUE_Q_IRQ]
    omega
  exact (Device.rdN_wr_other _ _ _ _ other).trans (Device.rdN_wr_other _ _ _ _ other)

theorem Device.queue_qArmed (d : Device) (q vec p : Nat) : (d.qArmed q vec).queue p = d.queue p := by
  rw [Device.qArmed, Device.queue_setFld, Device.queue_setFld]

theorem Device.qIrq_qArmed (d : Device) (q vec : Nat) : (d.qArmed q vec).qIrq q =
    if d.rdN (Reg.QUE_Q_THRESH q) ≤ (d.queue q).records then
      ((d.qArmed q vec).setFld (F.QUE_Q_IRQ_ARM q) 0).msix ((d.qArmed q vec).fld (F.QUE_Q_IRQ_VEC q))
    else d.qArmed q vec := by
  rw [Device.qIrq, Device.isSet_qArmed, Device.rdN_qArmed_thresh, Device.queue_qArmed, Bool.true_and]
  simp only [decide_eq_true_eq]

theorem exec_queQIrqArm (vec : Nat) (hq : q < 4096) :
    exec (.queQIrqArm q vec) s = .next { s with dev := (s.dev.qArmed q vec).qIrq q } := by
  show execQueQIrqArm q vec s = _
  exact State.run_of_eq (if_pos hq)

/-! A refill (R355, R368). -/

/-- Whether the head is due the slot at position `n`: the queue is enabled, and the slot is one of the 16 from Rd, reserved, and not on chip. -/
abbrev Device.qSlotDue (d : Device) (q n : Nat) : Prop :=
  d.qOn q = true ∧ (d.queue q).rd ≤ n ∧ n < (d.queue q).rd + 16 ∧ n < (d.queue q).r ∧ (d.queue q).chip n = none

/-- Queue `q` with the slot at position `n` on chip from its home; one that is poisoned is flagged. -/
def Device.qSlotGot (d : Device) (q n : Nat) (bad : Bool) : Device :=
  let got := ((d.timed Reg.QUE_SPILL_LAT).moved 3).setQueue q ((d.queue q).setChip n (some ⟨memBytes d.mem (d.qHome q n) 64, bad⟩))
  if bad then got.flag F.QUE_FLAGS_POISON Reg.QUE_POISON_CNT else got

theorem exec_slotRefill (n : Nat) (unc : Bool) (h : s.dev.qSlotDue q n) :
    exec (.slotRefill q n unc) s = .next { s with dev := s.dev.qSlotGot q n (unc || s.dev.qHomeBad q n) } := by
  show execSlotRefill q n unc s = _
  obtain ⟨hon, hrd, hhead, hr, hchip⟩ := h
  exact State.run_of_eq (if_pos ⟨hon, hrd, hhead, hr, Option.isNone_iff_eq_none.mpr hchip⟩)

theorem exec_slotRefill_notDue (n : Nat) (unc : Bool) (h : ¬s.dev.qSlotDue q n) : exec (.slotRefill q n unc) s = .next s := by
  show execSlotRefill q n unc s = _
  exact State.run_of_eq (if_neg fun ⟨hon, hrd, hhead, hr, hchip⟩ => h ⟨hon, hrd, hhead, hr, Option.isNone_iff_eq_none.mp hchip⟩)

end Sys2Proof.Machine
end

section
/-! SUPPORT. What the operations of a host queue's window do, and ENABLE of a queue (R366, R371, R373, R386, R555). -/

namespace Sys2Proof.Machine

variable {d : Device} {s : State} {u : UCmd} {q : Nat}

/-! The window (R371). -/

/-- Whether the window of a queue takes a write: an enabled host queue that neither a job nor a forwarding entry reads. -/
abbrev Device.qwTakes (d : Device) (q : Nat) : Prop :=
  q < 4096 ∧ d.qOn q = true ∧ d.isSet (F.QUE_Q_CFG_HOST q) = true ∧ d.zReads q = false ∧ d.forwards q = false

theorem Device.qwOpen_iff (d : Device) (q : Nat) : d.qwOpen q = true ↔ d.qwTakes q := by
  simp only [Device.qwOpen, Bool.and_eq_true, decide_eq_true_eq, Bool.not_eq_true', and_assoc]

theorem Device.qwDo_takes (f : Device → Device) (h : d.qwTakes q) : d.qwDo q f = f d := if_pos ((d.qwOpen_iff q).mpr h)

theorem Device.qwDo_closed (f : Device → Device) (h : ¬d.qwTakes q) : d.qwDo q f = d.badAccess := if_neg (mt (d.qwOpen_iff q).mp h)

theorem exec_qwCtlAdvance (q : Nat) (s : State) :
    exec (.qwCtlAdvance q) s = .next { s with dev := s.dev.qwDo q (fun d => d.qAdvance q) } := rfl

theorem exec_qwCtlMark (q : Nat) (s : State) : exec (.qwCtlMark q) s = .next { s with dev := s.dev.qwDo q (fun d => d.qMark q) } := rfl

theorem exec_qwCtlRewind (q : Nat) (s : State) : exec (.qwCtlRewind q) s = .next { s with dev := s.dev.qwDo q (fun d => d.qRewind q) } := rfl

theorem exec_qwCtlRelease (q : Nat) (s : State) :
    exec (.qwCtlRelease q) s = .next { s with dev := s.dev.qwDo q (fun d => d.qRelease q) } := rfl

theorem Device.qAdvance_none (hx : (d.queue q).next = none) : d.qAdvance q = d.setQueue q { d.queue q with view := 0 } := by
  simp only [Device.qAdvance, hx]

theorem Device.qAdvance_some {r : QRec} (hx : (d.queue q).next = some r) :
    d.qAdvance q = (d.setQueue q { d.queue q with rd := r.start + r.slots, view := 0 }).qSettle q := by
  simp only [Device.qAdvance, hx]

/-! ENABLE (R373). -/

/-- Queue `q` enabled and empty, before QUE_ENABLED counts it. -/
def Device.qOpened (d : Device) (q : Nat) : Device :=
  ((((d.setQueue q {}).setFld (F.QUE_Q_STAT_CODE q) 0).setFld (F.QUE_Q_STAT_ENABLED q) 1).wr (Reg.QUE_Q_SEQ q) 0).wr64
    (Reg.QUE_Q_PUSHED_LO q) 0

/-- A queue's own registers lie above QUE_ENABLED. -/
theorem Device.rdN_qOpened_enabled (d : Device) (q : Nat) : (d.qOpened q).rdN Reg.QUE_ENABLED = d.rdN Reg.QUE_ENABLED := by
  have rd : (d.qOpened q).rd Reg.QUE_ENABLED = (d.setQueue q {}).rd Reg.QUE_ENABLED := by
    rw [Device.qOpened, Device.wr64, Device.rd_wr_other, Device.rd_wr_other, Device.rd_wr_other, Device.rd_setFld_other,
      Device.rd_setFld_other]
    all_goals
      simp only [Reg.QUE_ENABLED, Reg.QUE_Q_PUSHED_LO, Reg.QUE_Q_SEQ, F.QUE_Q_STAT_CODE, F.QUE_Q_STAT_ENABLED, Reg.QUE_Q_STAT]
      omega
  rw [Device.rdN, rd]
  rfl

theorem Device.qEnable_accepted (h : d.qEnableCode q = cOK) :
    d.qEnable q = (cOK, (d.qOpened q).wr Reg.QUE_ENABLED ((d.qOpened q).rdN Reg.QUE_ENABLED + 1)) := by
  rw [Device.qEnable, if_pos h, h, d.rdN_qOpened_enabled q]
  rfl

theorem Device.qEnable_refused (h : d.qEnableCode q ≠ cOK) :
    d.qEnable q = (d.qEnableCode q, d.setFld (F.QUE_Q_STAT_CODE q) (d.qEnableCode q)) := if_neg h

theorem exec_queQCtlEnable (hq : q < 4096) : exec (.queQCtlEnable q) s = .next { s with dev := (s.dev.qEnable q).2 } := by
  show execQueQCtlEnable q s = _
  exact State.run_of_eq (if_pos hq)

/-- The registers that the block of ENABLE writes (R600). -/
def Device.qBlock (d : Device) (u : UCmd) : Device :=
  d.wrBlock u [(Reg.QUE_Q_CFG u.unit, 0), (Reg.QUE_Q_SLOTS u.unit, 4), (Reg.QUE_Q_BASE_LO u.unit, 8), (Reg.QUE_Q_BASE_HI u.unit, 12)]

section
variable (hu : s.dev.comes 9 1 4096 u)
include hu

theorem exec_queEnable_busy (hq : (s.dev.accept u).qOn u.unit = true) :
    exec (.queEnable u) s = .next { s with dev := (s.dev.accept u).complete u.origin cBUSY none } := by
  show execQueEnable u s = _
  exact State.run_of_eq ((Device.unitCmd_comes _ hu rfl).trans (if_pos hq))

theorem exec_queEnable (hq : (s.dev.accept u).qOn u.unit = false) : exec (.queEnable u) s = .next { s with dev :=
    ((((s.dev.accept u).qBlock u).qEnable u.unit).2.complete u.origin (((s.dev.accept u).qBlock u).qEnable u.unit).1 none) } := by
  show execQueEnable u s = _
  exact State.run_of_eq ((Device.unitCmd_comes _ hu rfl).trans (if_neg (Bool.eq_false_iff.mp hq)))

end

end Sys2Proof.Machine
end

section
/-! SUPPORT. What DISABLE of a queue leaves: the queue, its registers, and the compression jobs that read it (R374, R386). -/

namespace Sys2Proof.Machine

variable {d : Device} {s : State} {u : UCmd} {q : Nat}

theorem Device.zjob_setZjob (d : Device) (z : Nat) (x : Option ZJob) : (d.setZjob z x).zjob z = x := Sparse.get_set_same _ _ _ _

theorem Device.zjob_setZjob_other (d : Device) {z i : Nat} (x : Option ZJob) (h : i ≠ z) : (d.setZjob z x).zjob i = d.zjob i :=
  Sparse.get_set_other _ _ _ _ _ h

/-! The queue (R374). -/

theorem Device.qOn_setFld_code (d : Device) (q c : Nat) : (d.setFld (F.QUE_Q_STAT_CODE q) c).qOn q = d.qOn q :=
  d.isSet_setFld_disjoint _ _ _ (show 8 + 8 ≤ 32 by decide) (.inr (show 0 + 1 ≤ 8 by decide))

theorem Device.qDisable_off (h : d.qOn q = false) : d.qDisable q = d.setFld (F.QUE_Q_STAT_CODE q) cOK :=
  if_neg (by rw [Device.qOn_setFld_code, h]; decide)

theorem Device.qDisable_on (h : d.qOn q = true) : d.qDisable q =
    (((d.setFld (F.QUE_Q_STAT_CODE q) cOK).setQueue q {}).setFld (F.QUE_Q_STAT_ENABLED q) 0).wr Reg.QUE_ENABLED
      ((d.setFld (F.QUE_Q_STAT_CODE q) cOK).rdN Reg.QUE_ENABLED - 1) :=
  if_pos (by rw [Device.qOn_setFld_code, h])

theorem Device.queue_qDisable (h : d.qOn q = true) : (d.qDisable q).queue q = {} := by
  rw [Device.qDisable_on h, Device.queue_wr, Device.queue_setFld, Device.queue_setQueue]

theorem Device.queue_qDisable_other (h : d.qOn q = true) {p : Nat} (hp : p ≠ q) : (d.qDisable q).queue p = d.queue p := by
  rw [Device.qDisable_on h, Device.queue_wr, Device.queue_setFld, Device.queue_setQueue_other _ _ hp, Device.queue_setFld]

theorem Device.qOn_qDisable (h : d.qOn q = true) : (d.qDisable q).qOn q = false := by
  have other : Reg.QUE_Q_STAT q ≠ Reg.QUE_ENABLED := by
    simp only [Reg.QUE_Q_STAT, Reg.QUE_ENABLED]
    omega
  rw [Device.qDisable_on h, Device.qOn, Device.isSet_wr_other _ _ _ other, Device.isSet_setFld _ _ _ (show 0 + 1 ≤ 32 by decide)]
  rfl

theorem Device.qDisable_frame (h : d.qOn q = true) : ∃ qs regs, d.qDisable q = { d with queues := qs, regs := regs } := by
  obtain ⟨_, code⟩ := (Device.OnlyRegs.refl d).setFld (F.QUE_Q_STAT_CODE q) cOK
  obtain ⟨_, rest⟩ := ((Device.OnlyRegs.refl ((d.setFld (F.QUE_Q_STAT_CODE q) cOK).setQueue q {})).setFld (F.QUE_Q_STAT_ENABLED q) 0).wr
    Reg.QUE_ENABLED ((d.setFld (F.QUE_Q_STAT_CODE q) cOK).rdN Reg.QUE_ENABLED - 1)
  rw [Device.qDisable_on h, rest, code]
  exact ⟨_, _, rfl⟩

theorem Device.zjob_qDisable (d : Device) (q z : Nat) : (d.qDisable q).zjob z = d.zjob z := by
  cases h : d.qOn q with
  | false => rw [Device.qDisable_off h, Device.zjob, Device.setFld_zjobs, Device.zjob]
  | true =>
    obtain ⟨_, _, e⟩ := Device.qDisable_frame h
    rw [e]
    rfl

/-- A compressor's state lies in none of a queue's registers. -/
theorem Device.zLive_qDisable (d : Device) (q z : Nat) : (d.qDisable q).zLive z = d.zLive z := by
  have stat : (F.CMP_Z_STAT_STATE z).addr ≠ Reg.QUE_Q_STAT q := by
    simp only [F.CMP_Z_STAT_STATE, Reg.CMP_Z_STAT, Reg.QUE_Q_STAT]
    omega
  have count : (F.CMP_Z_STAT_STATE z).addr ≠ Reg.QUE_ENABLED := by
    simp only [F.CMP_Z_STAT_STATE, Reg.CMP_Z_STAT, Reg.QUE_ENABLED]
    omega
  have code : (d.setFld (F.QUE_Q_STAT_CODE q) cOK).fld (F.CMP_Z_STAT_STATE z) = d.fld (F.CMP_Z_STAT_STATE z) :=
    d.fld_setFld_other _ _ _ stat
  have state : (d.qDisable q).zState z = d.zState z := by
    cases h : d.qOn q with
    | false => rw [Device.qDisable_off h, Device.zState, code, Device.zState]
    | true =>
      rw [Device.qDisable_on h, Device.zState, Device.fld_wr_other _ _ _ count, Device.fld_setFld_other _ (F.QUE_Q_STAT_ENABLED q) _ _ stat,
        Device.fld_setQueue, code, Device.zState]
  rw [Device.zLive, state, Device.zLive]

/-! The jobs that read it (R386). -/

/-- A job, live or not, once queue `q` is disabled: the input of a live job that reads the queue has ended, truncated. -/
def ZJob.sourceGone (q : Nat) (live : Bool) (j : ZJob) : ZJob :=
  if live = true ∧ zKind j.desc = 1 ∧ zSrcQ j.desc = q ∧ j.inEnd = false then { j with inEnd := true, trunc := true } else j

theorem ZJob.sourceGone_idem (q : Nat) (live : Bool) (j : ZJob) : (j.sourceGone q live).sourceGone q live = j.sourceGone q live := by
  by_cases h : live = true ∧ zKind j.desc = 1 ∧ zSrcQ j.desc = q ∧ j.inEnd = false
  · have ended : j.sourceGone q live = { j with inEnd := true, trunc := true } := if_pos h
    rw [ended]
    exact if_neg fun ⟨_, _, _, hin⟩ => Bool.noConfusion hin
  · have kept : j.sourceGone q live = j := if_neg h
    rw [kept, kept]

/-- The job at compressor `z` learns that queue `q` is disabled. -/
def Device.zSourceGone (q : Nat) (d : Device) (z : Nat) : Device :=
  match d.zjob z with
  | none => d
  | some j =>
    if d.zLive z ∧ zKind j.desc = 1 ∧ zSrcQ j.desc = q ∧ !j.inEnd then d.setZjob z (some { j with inEnd := true, trunc := true }) else d

theorem Device.sourceGone_eq (d : Device) (q : Nat) : d.sourceGone q = (List.range 32).foldl (Device.zSourceGone q) d := rfl

theorem Device.zSourceGone_frame (d : Device) (q z : Nat) : ∃ jobs, d.zSourceGone q z = { d with zjobs := jobs } := by
  rw [Device.zSourceGone]
  split
  · exact ⟨_, rfl⟩
  · split
    · exact ⟨_, rfl⟩
    · exact ⟨_, rfl⟩

theorem Device.zjob_zSourceGone (d : Device) (q i z : Nat) :
    (d.zSourceGone q i).zjob z = if z = i then (d.zjob z).map (ZJob.sourceGone q (d.zLive z)) else d.zjob z := by
  by_cases hz : z = i
  · subst hz
    rw [if_pos rfl, Device.zSourceGone]
    cases hj : d.zjob z with
    | none => exact hj
    | some j =>
      simp only [Option.map_some, ZJob.sourceGone, Bool.not_eq_true']
      split
      · exact Device.zjob_setZjob _ _ _
      · exact hj
  · rw [if_neg hz, Device.zSourceGone]
    split
    · rfl
    · split
      · exact Device.zjob_setZjob_other _ _ hz
      · rfl

theorem Device.sourceGone_frame (d : Device) (q : Nat) : ∃ jobs, d.sourceGone q = { d with zjobs := jobs } := by
  refine List.foldlRecOn (motive := fun e : Device => ∃ jobs, e = { d with zjobs := jobs }) _ _ ⟨d.zjobs, rfl⟩ fun e he z _ => ?_
  obtain ⟨_, rfl⟩ := he
  exact Device.zSourceGone_frame _ q z

/-- A compressor's job, and whether it is live. -/
def Device.zAt (d : Device) (z : Nat) : Option ZJob × Bool := (d.zjob z, d.zLive z)

theorem Device.zAt_zSourceGone (d : Device) (q i z : Nat) : (d.zSourceGone q i).zAt z =
    if z = i then ((d.zAt z).1.map (ZJob.sourceGone q (d.zAt z).2), (d.zAt z).2) else d.zAt z := by
  have live : (d.zSourceGone q i).zLive z = d.zLive z := by
    obtain ⟨_, e⟩ := d.zSourceGone_frame q i
    rw [e]
    rfl
  rw [Device.zAt, d.zjob_zSourceGone q i z, live]
  split
  · rfl
  · rfl

/-- Every job that reads the queue is told, each by its own state. -/
theorem Device.zjob_sourceGone (d : Device) (q : Nat) {z : Nat} (hz : z < 32) :
    (d.sourceGone q).zjob z = (d.zjob z).map (ZJob.sourceGone q (d.zLive z)) := by
  have each := get_foldl_each (g := fun p : Option ZJob × Bool => (p.1.map (ZJob.sourceGone q p.2), p.2))
    (fun p => by simp only [Option.map_map, Function.comp_def, ZJob.sourceGone_idem])
    (fun d => d.zAt_zSourceGone q) (List.range 32) d z
  rw [if_pos (List.mem_range.mpr hz), ← Device.sourceGone_eq] at each
  simpa only [Device.zAt] using congrArg Prod.fst each

/-! DISABLE, by the host or an engine. -/

/-- Queue `q` disabled, and the jobs that read it told. -/
def Device.qShut (d : Device) (q : Nat) : Device := (d.qDisable q).sourceGone q

theorem Device.zjob_qShut (d : Device) (q : Nat) {z : Nat} (hz : z < 32) :
    (d.qShut q).zjob z = (d.zjob z).map (ZJob.sourceGone q (d.zLive z)) := by
  rw [Device.qShut, Device.zjob_sourceGone _ _ hz, Device.zjob_qDisable, Device.zLive_qDisable]

/-- What DISABLE of an enabled queue leaves of the queues. -/
theorem Device.qShut_on (h : d.qOn q = true) :
    (d.qShut q).queue q = {} ∧ (d.qShut q).qOn q = false ∧ ∀ p, p ≠ q → (d.qShut q).queue p = d.queue p := by
  obtain ⟨_, e⟩ := (d.qDisable q).sourceGone_frame q
  rw [Device.qShut, e]
  exact ⟨Device.queue_qDisable h, Device.qOn_qDisable h, fun p hp => Device.queue_qDisable_other h hp⟩

/-- DISABLE of an enabled queue changes the queues, the registers and the jobs. -/
theorem Device.qShut_on_frame (h : d.qOn q = true) :
    d.qShut q = { d with queues := (d.qShut q).queues, regs := (d.qShut q).regs, zjobs := (d.qShut q).zjobs } := by
  obtain ⟨_, e⟩ := (d.qDisable q).sourceGone_frame q
  obtain ⟨_, _, e'⟩ := Device.qDisable_frame h
  rw [Device.qShut, e, e']

/-- DISABLE of a disabled queue shows OK, and changes the jobs alone. -/
theorem Device.qShut_off_frame (h : d.qOn q = false) :
    d.qShut q = { d.setFld (F.QUE_Q_STAT_CODE q) cOK with zjobs := (d.qShut q).zjobs } := by
  obtain ⟨_, e⟩ := (d.qDisable q).sourceGone_frame q
  rw [Device.qShut, e, Device.qDisable_off h]

theorem Device.completions_qShut (d : Device) (q : Nat) : (d.qShut q).completions = d.completions := by
  cases h : d.qOn q with
  | false => rw [Device.qShut_off_frame h, Device.setFld_completions]
  | true => rw [Device.qShut_on_frame h]

/-- A unit's answer to an engine travels to the engine's port (R42). -/
theorem Device.complete_origin (d : Device) (u : UCmd) (c : Nat) (t : Option Time) :
    d.complete u.origin c t = { d with completions := d.completions ++ [⟨u.e, u.k, c, t⟩] } := rfl

section
variable (d) (o : Origin) (c : Nat) (t : Option Time)

theorem Device.queue_complete (p : Nat) : (d.complete o c t).queue p = d.queue p := by
  cases o with
  | host => rfl
  | device => rfl
  | port e k => rfl

theorem Device.zjob_complete (z : Nat) : (d.complete o c t).zjob z = d.zjob z := by
  cases o with
  | host => rfl
  | device => rfl
  | port e k => rfl

theorem Device.qOn_complete (q : Nat) : (d.complete o c t).qOn q = d.qOn q := Device.isSet_congr (d.rd_complete o c t _)

end

theorem Device.qShut_on_complete (h : d.qOn q = true) {c : Nat} {t : Option Time} : (d.qShut q).complete u.origin c t =
    { d with queues := ((d.qShut q).complete u.origin c t).queues, regs := ((d.qShut q).complete u.origin c t).regs,
             zjobs := ((d.qShut q).complete u.origin c t).zjobs, completions := ((d.qShut q).complete u.origin c t).completions } := by
  have e := Device.qShut_on_frame h
  generalize d.qShut q = x at e ⊢
  rw [e]
  rfl

theorem Device.qShut_off_complete (h : d.qOn q = false) {c : Nat} {t : Option Time} : (d.qShut q).complete u.origin c t =
    { (d.setFld (F.QUE_Q_STAT_CODE q) cOK).complete u.origin c t with zjobs := ((d.qShut q).complete u.origin c t).zjobs } := by
  have e := Device.qShut_off_frame h
  generalize d.qShut q = x, d.setFld (F.QUE_Q_STAT_CODE q) cOK = w at e ⊢
  rw [e]
  rfl

theorem exec_queQCtlDisable (hq : q < 4096) : exec (.queQCtlDisable q) s = .next { s with dev := s.dev.qShut q } := by
  show execQueQCtlDisable q s = _
  exact State.run_of_eq (if_pos hq)

theorem exec_queDisable (hu : s.dev.comes 9 2 4096 u) :
    exec (.queDisable u) s = .next { s with dev := ((s.dev.accept u).qShut u.unit).complete u.origin cOK none } := by
  show execQueDisable u s = _
  exact State.run_of_eq (Device.unitCmd_comes _ hu rfl)

/-- Accepting the word that disables a queue changes no job. -/
theorem Device.zjob_qShut_accept (d : Device) (u : UCmd) (q : Nat) {z : Nat} (hz : z < 32) :
    ((d.accept u).qShut q).zjob z = (d.zjob z).map (ZJob.sourceGone q (d.zLive z)) := by
  obtain ⟨_, _, e⟩ := d.accept_frame u
  rw [Device.zjob_qShut _ _ hz, e]
  rfl

theorem Device.queue_accept (d : Device) (u : UCmd) (p : Nat) : (d.accept u).queue p = d.queue p := by
  obtain ⟨_, _, e⟩ := d.accept_frame u
  rw [e]
  rfl

theorem Device.completions_accept (d : Device) (u : UCmd) : (d.accept u).completions = d.completions := by
  obtain ⟨_, _, e⟩ := d.accept_frame u
  rw [e]

end Sys2Proof.Machine
end

section
/-! PROOFS. Queues: completion, refill, the host window, the vector, ENABLE and DISABLE (R354, R361, R366 to R369, R371, R373, R374, R386). -/

namespace Sys2Proof.Machine

/-- Settles O40, clause by clause: the completion of a record, a refill, the window, ARM, ENABLE by host and engine, and DISABLE by both. -/
theorem queueCommands : Obligations.QueueCommands := by
  intro s u q n vec unc r d x taken y wrote due bad got isOpen armed code enabled regs opens shuts ended off
  refine ⟨exec_recordComplete_none, exec_recordComplete_host, exec_recordComplete_engine, exec_slotRefill n unc, exec_slotRefill_notDue n unc,
    fun ho => ⟨fun hx => ?_, fun hx => ?_, ?_, ?_, ?_⟩, fun ho => ⟨?_, ?_, ?_, ?_⟩, fun hq ht _ => ?_, fun hq ht => ?_, fun hq hc => ?_,
    fun hq hc => ?_, exec_queEnable_busy, fun hu hq hc => ?_, fun hu hq hc => ?_, fun hq hon => ?_, fun hq hon => ?_, fun hu hon => ?_,
    fun hu hon => ?_⟩
  · exact .of_eq (exec_qwCtlAdvance q s) ((Device.qwDo_takes _ ho).trans (Device.qAdvance_some hx))
  · exact .of_eq (exec_qwCtlAdvance q s) ((Device.qwDo_takes _ ho).trans (Device.qAdvance_none hx))
  · exact .of_eq (exec_qwCtlMark q s) (Device.qwDo_takes _ ho)
  · exact .of_eq (exec_qwCtlRewind q s) (Device.qwDo_takes _ ho)
  · exact .of_eq (exec_qwCtlRelease q s) (Device.qwDo_takes _ ho)
  · exact .of_eq (exec_qwCtlAdvance q s) (Device.qwDo_closed _ ho)
  · exact .of_eq (exec_qwCtlMark q s) (Device.qwDo_closed _ ho)
  · exact .of_eq (exec_qwCtlRewind q s) (Device.qwDo_closed _ ho)
  · exact .of_eq (exec_qwCtlRelease q s) (Device.qwDo_closed _ ho)
  · exact .of_eq (exec_queQIrqArm vec hq) ((d.qIrq_qArmed q vec).trans (if_pos ht))
  · exact .of_eq (exec_queQIrqArm vec hq) ((d.qIrq_qArmed q vec).trans (if_neg (Nat.not_le.mpr ht)))
  · exact .of_eq (exec_queQCtlEnable hq) (congrArg Prod.snd (Device.qEnable_accepted hc))
  · exact .of_eq (exec_queQCtlEnable hq) (congrArg Prod.snd (Device.qEnable_refused hc))
  · exact .of_eq (exec_queEnable hu hq) (congrArg (fun c : Nat × Device => c.2.complete u.origin c.1 none) (Device.qEnable_accepted hc))
  · exact .of_eq (exec_queEnable hu hq) (congrArg (fun c : Nat × Device => c.2.complete u.origin c.1 none) (Device.qEnable_refused hc))
  · obtain ⟨empty, shut, others⟩ := Device.qShut_on hon
    exact .of_eq (exec_queQCtlDisable hq) ⟨⟨empty, shut, others, fun z hz => d.zjob_qShut q hz⟩, Device.qShut_on_frame hon⟩
  · exact .of_eq (exec_queQCtlDisable hq) ⟨fun z hz => d.zjob_qShut q hz, Device.qShut_off_frame hon⟩
  · obtain ⟨empty, shut, others⟩ := Device.qShut_on hon
    refine .of_eq (exec_queDisable hu) ⟨⟨(Device.queue_complete _ _ _ _ _).trans empty, (Device.qOn_complete _ _ _ _ _).trans shut,
      fun p hp => (Device.queue_complete _ _ _ _ _).trans ((others p hp).trans (d.queue_accept u p)),
      fun z hz => (Device.zjob_complete _ _ _ _ _).trans (d.zjob_qShut_accept u u.unit hz)⟩, ?_, Device.qShut_on_complete hon⟩
    rw [Device.complete_origin, Device.completions_qShut, Device.completions_accept]
  · exact .of_eq (exec_queDisable hu) ⟨fun z hz => (Device.zjob_complete _ _ _ _ _).trans (d.zjob_qShut_accept u u.unit hz),
      Device.qShut_off_complete hon⟩

end Sys2Proof.Machine
end


section
/-! SUPPORT. Registers, fields and pairs read after the updates that write others, and the rows of an engine's command. -/

namespace Sys2Proof.Machine

variable {d : Device} {s : State} {u : UCmd}

/-! Registers (R7, R11). -/

theorem Device.rd_inc_other (d : Device) {a b : Nat} (h : b ≠ a) : (d.inc a).rd b = d.rd b := d.rd_wr_other _ _ _ h

/-- Setting a field leaves the other registers, the field's register written out. -/
theorem Device.rd_setFld_mk (d : Device) {a b : Nat} (f : Field) (v : Nat) (h : b ≠ a) : (d.setFld ⟨a, f⟩ v).rd b = d.rd b :=
  d.rd_setFld_other ⟨a, f⟩ v h

theorem Device.rd_flag_mk (d : Device) {a b cnt : Nat} (f : Field) (h : b ≠ a) (h' : b ≠ cnt) : (d.flag ⟨a, f⟩ cnt).rd b = d.rd b :=
  d.rd_flag_other ⟨a, f⟩ cnt h h'

theorem Device.rd_wr64_other (d : Device) {lo b : Nat} (v : Nat) (h : b ≠ lo) (h' : b ≠ lo + 4) : (d.wr64 lo v).rd b = d.rd b :=
  (Device.rd_wr_other _ _ _ _ h').trans (d.rd_wr_other _ _ _ h)

theorem Device.rd_wrTime_other (d : Device) {lo b : Nat} (t : Time) (h : b ≠ lo) (h' : b ≠ lo + 4) : (d.wrTime lo t).rd b = d.rd b :=
  d.rd_wr64_other _ h h'

theorem Device.rdN_congr {x : Device} {a : Nat} (h : x.rd a = d.rd a) : x.rdN a = d.rdN a := congrArg BitVec.toNat h

theorem Device.fld_congr {x : Device} {f : FieldAt} (h : x.rd f.addr = d.rd f.addr) : x.fld f = d.fld f := by
  rw [Device.fld, Device.fld, Device.rdN_congr h]

theorem Device.rd64_wr64 (d : Device) (lo : Nat) {v : Nat} (h : v < 2 ^ 64) : (d.wr64 lo v).rd64 lo = v := by
  rw [Device.rd64, Device.wr64, Device.rdN_wr, Device.rdN_wr_other _ _ _ _ (by omega), Device.rdN_wr]
  omega

theorem Device.rd64_congr {x : Device} {lo : Nat} (h : x.rd lo = d.rd lo) (h' : x.rd (lo + 4) = d.rd (lo + 4)) : x.rd64 lo = d.rd64 lo := by
  rw [Device.rd64, Device.rd64, Device.rdN_congr h, Device.rdN_congr h']

/-- An event raises its flag. -/
theorem Device.fld_flag (d : Device) {f : FieldAt} {cnt : Nat} (hw : f.f.lo + f.f.w ≤ 32) (h1 : f.f.w = 1) (hc : f.addr ≠ cnt) :
    (d.flag f cnt).fld f = 1 := of_decide_eq_true (d.isSet_flag hw h1 hc)

/-- An event counts. -/
theorem Device.rdN_flag (d : Device) {f : FieldAt} {cnt : Nat} (h : cnt ≠ f.addr) :
    (d.flag f cnt).rdN cnt = min (d.rdN cnt + 1) 0xFFFFFFFF := by
  rw [Device.flag, Device.rdN_inc, Device.rdN_congr (d.rd_setFld_other f 1 h)]

/-! Steps that change registers alone. -/

section
variable {x : Device} (h : d.OnlyRegs x)
include h

theorem Device.OnlyRegs.eq : x = { d with regs := x.regs } := by
  obtain ⟨_, rfl⟩ := h
  rfl

theorem Device.OnlyRegs.trans {y : Device} (h' : x.OnlyRegs y) : d.OnlyRegs y := by
  obtain ⟨_, rfl⟩ := h
  obtain ⟨_, rfl⟩ := h'
  exact ⟨_, rfl⟩

theorem Device.OnlyRegs.inc (a : Nat) : d.OnlyRegs (x.inc a) := h.wr _ _

theorem Device.OnlyRegs.flag (f : FieldAt) (cnt : Nat) : d.OnlyRegs (x.flag f cnt) := (h.setFld _ _).inc _

theorem Device.OnlyRegs.wrTime (lo : Nat) (t : Time) : d.OnlyRegs (x.wrTime lo t) := h.wr64 _ _

theorem Device.OnlyRegs.add64 (lo n : Nat) : d.OnlyRegs (x.add64 lo n) := h.wr64 _ _

theorem Device.OnlyRegs.ite {y : Device} (h' : d.OnlyRegs y) {p : Prop} [Decidable p] : d.OnlyRegs (if p then x else y) := by
  split
  · exact h
  · exact h'

theorem Device.OnlyRegs.foldl {α : Type} {f : Device → α → Device} (hf : ∀ d a, Device.OnlyRegs d (f d a)) (l : List α) :
    d.OnlyRegs (l.foldl f x) := h.trans (foldl_regs hf l x)

end

/-! The rows of an engine's command (R42, R260). -/

section
variable (d) (o : Origin) (c : Nat) (t : Option Time)

theorem Device.rdN_complete (a : Nat) : (d.complete o c t).rdN a = d.rdN a := Device.rdN_congr (d.rd_complete o c t a)

theorem Device.fld_complete (f : FieldAt) : (d.complete o c t).fld f = d.fld f := Device.fld_congr (d.rd_complete o c t _)

theorem Device.isSet_complete (f : FieldAt) : (d.complete o c t).isSet f = d.isSet f := Device.isSet_congr (d.rd_complete o c t _)

theorem Device.rdTime_complete (lo : Nat) : (d.complete o c t).rdTime lo = d.rdTime lo :=
  Device.rdTime_congr (d.rd_complete o c t _) (d.rd_complete o c t _)

end

end Sys2Proof.Machine
end


section
/-! SUPPORT. What START and STOP of a clock output, SETREF, OUTCAL and the end of a cell selection do (R472, R513, R518 to R520). -/

namespace Sys2Proof.Machine

variable {d : Device} {s : State} {u : UCmd} {o : Nat} {t : Time} {g : Origin}

/-! START and STOP of an output (R472). -/

/-- The code of a STOP: one request of an output waits at a time. -/
abbrev Device.ckoStopCode (d : Device) (o : Nat) : Nat := if d.isSet (F.CKO_STAT_PENDING o) then cBUSY else cOK

theorem Device.ckoReq_start_refused (h : d.ckoCode o ≠ cOK) :
    d.ckoReq o true t g = (d.setFld (F.CKO_STAT_CODE o) (d.ckoCode o)).complete g (d.ckoCode o) none := if_pos h

theorem Device.ckoReq_stop_refused (h : d.ckoStopCode o ≠ cOK) :
    d.ckoReq o false t g = (d.setFld (F.CKO_STAT_CODE o) (d.ckoStopCode o)).complete g (d.ckoStopCode o) none := if_pos h

/-- Only the host's request sets an action bit. -/
theorem Device.match_host_eq_actBit (d : Device) (g : Origin) (x : FieldAt) :
    (match g with | .host => d.setFld x 1 | _ => d) = d.actBit g x := by
  cases g with
  | host => exact (if_pos rfl).symm
  | device => exact (if_neg (by simp)).symm
  | port e k => exact (if_neg (by simp)).symm

theorem Device.ckoReq_start_accepted (h : d.ckoCode o = cOK) : d.ckoReq o true t g =
    (((d.setFld (F.CKO_STAT_CODE o) cOK).request .ckoStart o t g []).setFld (F.CKO_STAT_PENDING o) 1).actBit g (F.CKO_CTL_START o) := by
  rw [← Device.match_host_eq_actBit, ← h]
  exact if_neg (not_not_intro h)

theorem Device.ckoReq_stop_accepted (h : d.ckoStopCode o = cOK) : d.ckoReq o false t g =
    (((d.setFld (F.CKO_STAT_CODE o) cOK).request .ckoStop o t g []).setFld (F.CKO_STAT_PENDING o) 1).actBit g (F.CKO_CTL_STOP o) := by
  rw [← Device.match_host_eq_actBit, ← h]
  exact if_neg (not_not_intro h)

theorem Device.actBit_host (d : Device) (x : FieldAt) : d.actBit .host x = d.setFld x 1 := if_pos rfl

theorem Device.actBit_origin (d : Device) (u : UCmd) (x : FieldAt) : d.actBit u.origin x = d := if_neg (by simp [UCmd.origin])

theorem exec_ckoCtlStart (ho : o < 8) :
    exec (.ckoCtlStart o) s = .next { s with dev := s.dev.ckoReq o true (s.dev.rdTime (Reg.CKO_AT_LO o)) .host } := by
  show execCkoCtlStart o s = _
  exact State.run_of_eq (if_pos ho)

theorem exec_ckoCtlStop (ho : o < 8) :
    exec (.ckoCtlStop o) s = .next { s with dev := s.dev.ckoReq o false (s.dev.rdTime (Reg.CKO_AT_LO o)) .host } := by
  show execCkoCtlStop o s = _
  exact State.run_of_eq (if_pos ho)

theorem exec_clkOutputStart (hu : s.dev.comes 1 2 8 u) (hb : bitAt u.imm 0 = true) : exec (.clkOutputStart u) s =
    .next { s with dev := (s.dev.accept u).ckoReq u.unit true (BitVec.ofNat 64 (u.dword 0)) u.origin } := by
  show execClkOutputStart u s = _
  exact State.run_of_eq ((if_pos hb).trans (Device.unitCmd_comes _ hu rfl))

theorem exec_clkOutputStop (hu : s.dev.comes 1 2 8 u) (hb : bitAt u.imm 0 = false) : exec (.clkOutputStop u) s =
    .next { s with dev :=
      (if bitAt u.imm 1 then (s.dev.accept u).ckoReq u.unit false (BitVec.ofNat 64 (u.dword 0)) u.origin
       else (s.dev.accept u).complete u.origin cOK none) } := by
  show execClkOutputStop u s = _
  exact State.run_of_eq ((if_neg (Bool.eq_false_iff.mp hb)).trans (Device.unitCmd_comes _ hu rfl))

/-- A running output with a divider in place is busy, whatever else its START lacks. -/
theorem Device.ckoCode_running (hr : d.fld (F.CKO_STAT_RUNNING o) = 1) (hd : bitsOf (d.rdN (Reg.CKO_DIV o)) 0 13 ≠ 0) :
    d.ckoCode o = cBUSY := by
  have run : d.isSet (F.CKO_STAT_RUNNING o) = true := decide_eq_true hr
  rw [Device.ckoCode, run, decide_eq_false hd]
  cases d.isSet (F.CKO_CFG_SRC o) && !d.isSet F.CLK_STAT_REF_PRESENT with
  | false => cases !d.ckoInRange o (d.ckoSource o) with
    | false => rfl
    | true => rfl
  | true => cases !d.ckoInRange o (d.ckoSource o) with
    | false => rfl
    | true => rfl

/-! SETREF and OUTCAL (R513, R518, R519). -/

theorem refUvOk_iff (v : Nat) : refUvOk v = true ↔ v = 0 ∨ (500000 ≤ v ∧ v ≤ 900000) := by
  simp only [refUvOk, Bool.or_eq_true, Bool.and_eq_true, decide_eq_true_eq]

theorem bitsOf_zero (n w : Nat) : bitsOf n 0 w = n % 2 ^ w := by rw [bitsOf, Nat.pow_zero, Nat.div_one]

theorem exec_calSetref (hu : s.dev.comes 0x0F 1 1 u) : exec (.calSetref u) s = .next { s with dev :=
    (if refUvOk (u.word 0 % 2 ^ 20) then ((s.dev.accept u).wr Reg.CAL_REF_UV (u.word 0 % 2 ^ 20)).complete u.origin cOK none
     else (s.dev.accept u).complete u.origin cLENGTH none) } := by
  show execCalSetref u s = _
  rw [← bitsOf_zero]
  exact State.run_of_eq (Device.unitCmd_comes _ hu rfl)

/-- Whether an output takes a calibration: it neither runs nor is to start or stop. -/
abbrev Device.ckoIdle (d : Device) (o : Nat) : Prop := d.isSet (F.CKO_STAT_RUNNING o) = false ∧ d.isSet (F.CKO_STAT_PENDING o) = false

theorem Device.isSet_accept (d : Device) (u : UCmd) (x : FieldAt) : (d.accept u).isSet x = d.isSet x := by
  rw [Device.isSet, Device.fld_accept, Device.isSet]

theorem Device.cko_accept (d : Device) (u : UCmd) (o : Nat) : (d.accept u).cko o = d.cko o := by
  obtain ⟨_, _, e⟩ := d.accept_frame u
  rw [e]
  rfl

/-- OUTCAL of an output, by what it does and whether it has REFCLK. -/
theorem exec_calOutcal (hu : s.dev.comes 0x0F 2 8 u) {b ref : Bool}
    (hb : (s.dev.isSet (F.CKO_STAT_RUNNING u.unit) || s.dev.isSet (F.CKO_STAT_PENDING u.unit) || (s.dev.cko u.unit).cal.isSome) = b)
    (hr : s.dev.isSet F.CLK_STAT_REF_PRESENT = ref) : exec (.calOutcal u) s = .next { s with dev :=
      (let c := firstCode [(b, cBUSY), (!ref, cREFLOST)]
       if c = cOK then (s.dev.accept u).setCko u.unit { s.dev.cko u.unit with cal := some u.origin }
       else (if c = cREFLOST then (s.dev.accept u).calSkip (56 + u.unit) else s.dev.accept u).complete u.origin c none) } := by
  show execCalOutcal u s = _
  refine State.run_of_eq ((Device.unitCmd_comes _ hu rfl).trans ?_)
  simp only [Device.isSet_accept, Device.cko_accept, hb, hr]

theorem exec_calOutcal_busy (hu : s.dev.comes 0x0F 2 8 u) (h : ¬s.dev.ckoIdle u.unit ∨ (s.dev.cko u.unit).cal.isSome = true) :
    exec (.calOutcal u) s = .next { s with dev := (s.dev.accept u).complete u.origin cBUSY none } := by
  rw [exec_calOutcal hu (b := true) ?_ rfl]
  · cases s.dev.isSet F.CLK_STAT_REF_PRESENT with
    | false => rfl
    | true => rfl
  · rcases h with h | h
    · rw [Bool.or_eq_true, Bool.or_eq_true, ← Bool.not_eq_false, ← Bool.not_eq_false]
      exact .inl (Decidable.not_and_iff_or_not.mp h)
    · rw [h, Bool.or_true]

theorem exec_calOutcal_idle (hu : s.dev.comes 0x0F 2 8 u) (h : s.dev.ckoIdle u.unit) (hc : (s.dev.cko u.unit).cal = none) {ref : Bool}
    (hr : s.dev.isSet F.CLK_STAT_REF_PRESENT = ref) : exec (.calOutcal u) s = .next { s with dev :=
      (if ref then (s.dev.accept u).setCko u.unit { s.dev.cko u.unit with cal := some u.origin }
       else ((s.dev.accept u).calSkip (56 + u.unit)).complete u.origin cREFLOST none) } := by
  rw [exec_calOutcal hu (b := false) ?_ hr]
  · cases ref with
    | false => rfl
    | true => rfl
  · rw [h.1, h.2, hc]
    rfl

/-! A cell selection completes (R518, R520). -/

theorem exec_outputCalDone_idle {sel temp : Nat}
    (h : 8 ≤ o ∨ s.dev.isSet (F.CKO_STAT_RUNNING o) = true ∨ s.dev.fld F.SYS_STAT_STATE ∈ [6, 7]) :
    exec (.outputCalDone o sel temp) s = .next s := by
  show execOutputCalDone o sel temp s = _
  exact State.run_of_eq (if_pos (h.imp_right (Or.imp_right .inl)))

/-- The cell selection of an output entered in its calibration item. -/
def Device.ckoServed (d : Device) (o sel temp : Nat) : Device :=
  ((d.setCko o { d.cko o with cal := none }).calService (56 + o) sel temp false d.time).setFld (F.CAL_I_STAT_CODE (56 + o)) cOK

/-- A selection that a command asked for completes with REFCLK, or is refused without. -/
theorem exec_outputCalDone_asked {sel temp : Nat} (ho : o < 8) (hs : s.dev.fld F.SYS_STAT_STATE ∉ [6, 7])
    (hr : s.dev.isSet (F.CKO_STAT_RUNNING o) = false) (hc : (s.dev.cko o).cal = some g) :
    exec (.outputCalDone o sel temp) s = .next { s with dev :=
      (if s.dev.isSet F.CLK_STAT_REF_PRESENT then (s.dev.ckoServed o sel temp).complete g cOK none
       else ((s.dev.setCko o { s.dev.cko o with cal := none }).calSkip (56 + o)).complete g cREFLOST none) } := by
  show execOutputCalDone o sel temp s = _
  have go : ¬(8 ≤ o ∨ s.dev.isSet (F.CKO_STAT_RUNNING o) = true ∨ s.dev.fld F.SYS_STAT_STATE ∈ [6, 7] ∨
      (s.dev.isSet (F.CKO_STAT_PENDING o) = true ∧ (s.dev.cko o).cal.isNone = true)) := by
    rw [hr, hc]
    rintro (h | h | h | ⟨-, h⟩)
    · omega
    · cases h
    · exact hs h
    · cases h
  refine State.run_of_eq ((if_neg go).trans ?_)
  simp only [hc]
  rfl

theorem Device.calService_frame (d : Device) (i sel temp : Nat) (untraced : Bool) (t : Time) :
    d.OnlyRegs (d.calService i sel temp untraced t) :=
  (((((Device.OnlyRegs.refl d).inc _).wrTime _ _).setFld _ _).setFld _ _).setFld _ _ |>.wr _ _

theorem Device.ckoServed_frame (d : Device) (o sel temp : Nat) :
    Device.OnlyRegs (d.setCko o { d.cko o with cal := none }) (d.ckoServed o sel temp) :=
  (Device.calService_frame _ _ _ _ _ _).setFld _ _

theorem Device.cal_setCko (d : Device) (o : Nat) : ((d.setCko o { d.cko o with cal := none }).cko o).cal = none := by
  rw [show (d.setCko o { d.cko o with cal := none }).cko o = { d.cko o with cal := none } from Sparse.get_set_same _ _ _ _]

/-- An item's count, instant, validity and selection once an element has entered service (R520). -/
theorem Device.calService_item (d : Device) (i sel temp : Nat) (untraced : Bool) (t : Time) :
    let x := (d.calService i sel temp untraced t).setFld (F.CAL_I_STAT_CODE i) cOK
    x.rdN (Reg.CAL_I_COUNT i) = min (d.rdN (Reg.CAL_I_COUNT i) + 1) 0xFFFFFFFF ∧ x.rdTime (Reg.CAL_I_LAST_LO i) = t ∧
      x.fld (F.CAL_I_STAT_VALID i) = 1 ∧ x.fld (F.CAL_I_STAT_CODE i) = cOK ∧ x.rdN (Reg.CAL_I_SEL i) = sel % 65536 := by
  refine ⟨?_, ?_, ?_, Device.fld_setFld _ _ _ (show 8 + 8 ≤ 32 by decide), ?_⟩
  · rw [← Device.rdN_inc]
    refine Device.rdN_congr ?_
    simp (disch := omega) only [Device.calService, Device.rd_setFld_mk, Device.rd_wr_other, Device.rd_wrTime_other, Reg.CAL_I_COUNT,
      Reg.CAL_I_SEL, Reg.CAL_I_LAST_LO, Reg.CAL_I_STAT, F.CAL_I_STAT_CODE, F.CAL_I_STAT_VALID, F.CAL_I_STAT_UNTRACED, F.CAL_I_STAT_TEMP]
  · conv_rhs => rw [← (d.inc (Reg.CAL_I_COUNT i)).rdTime_wrTime (Reg.CAL_I_LAST_LO i) t]
    refine Device.rdTime_congr ?_ ?_
    all_goals simp (disch := omega) only [Device.calService, Device.rd_setFld_mk, Device.rd_wr_other, Reg.CAL_I_COUNT,
      Reg.CAL_I_SEL, Reg.CAL_I_LAST_LO, Reg.CAL_I_STAT, F.CAL_I_STAT_CODE, F.CAL_I_STAT_VALID, F.CAL_I_STAT_UNTRACED, F.CAL_I_STAT_TEMP]
  · have own : (F.CAL_I_STAT_VALID i).addr ≠ Reg.CAL_I_SEL i := by simp only [F.CAL_I_STAT_VALID, Reg.CAL_I_STAT, Reg.CAL_I_SEL]; omega
    rw [Device.fld_setFld_disjoint _ _ _ _ (show 8 + 8 ≤ 32 by decide) (.inr (show 0 + 1 ≤ 8 by decide)), Device.calService,
      Device.fld_wr_other _ _ _ own, Device.fld_setFld_disjoint _ _ _ _ (show 16 + 8 ≤ 32 by decide) (.inr (show 0 + 1 ≤ 16 by decide)),
      Device.fld_setFld_disjoint _ _ _ _ (show 1 + 1 ≤ 32 by decide) (.inr (show 0 + 1 ≤ 1 by decide)),
      Device.fld_setFld _ _ _ (show 0 + 1 ≤ 32 by decide)]
    rfl
  · have own : Reg.CAL_I_SEL i ≠ (F.CAL_I_STAT_CODE i).addr := by simp only [F.CAL_I_STAT_CODE, Reg.CAL_I_STAT, Reg.CAL_I_SEL]; omega
    rw [Device.rdN_congr (Device.rd_setFld_other _ _ _ own), Device.calService, Device.rdN_wr, Nat.mod_eq_of_lt (by omega)]

theorem Device.ckoServed_item (d : Device) (o sel temp : Nat) : let x := d.ckoServed o sel temp
    x.rdN (Reg.CAL_I_COUNT (56 + o)) = min (d.rdN (Reg.CAL_I_COUNT (56 + o)) + 1) 0xFFFFFFFF ∧
      x.rdTime (Reg.CAL_I_LAST_LO (56 + o)) = d.time ∧ x.fld (F.CAL_I_STAT_VALID (56 + o)) = 1 ∧
      x.fld (F.CAL_I_STAT_CODE (56 + o)) = cOK ∧ x.rdN (Reg.CAL_I_SEL (56 + o)) = sel % 65536 :=
  (d.setCko o { d.cko o with cal := none }).calService_item (56 + o) sel temp false d.time

end Sys2Proof.Machine
end

section
/-! PROOFS. A step of the block. Clock outputs and calibration commands (R472, R513, R518 to R520). -/

namespace Sys2Proof.Machine

/-- Settles O1: the step takes the command at the front of the queue, by definition. -/
theorem stepRunsFrontCommand : Obligations.StepRunsFrontCommand := fun _ _ _ => rfl

/-- Settles O46, clause by clause: START and STOP of an output by host and engine, SETREF, OUTCAL, and the end of a cell selection. -/
theorem clockOutputsAndCalibration : Obligations.ClockOutputsAndCalibration := by
  constructor
  · intro s u o d taken asked stopCode
    refine ⟨fun ho => ⟨⟨fun hc => ?_, fun hc => ?_⟩, fun hc => ?_, fun hc => ?_⟩, fun hu hb => ⟨fun hc => ?_, fun hc => ?_⟩,
      fun hu hb => ⟨fun h1 => ⟨fun hc => ?_, fun hc => ?_⟩, fun h1 => ?_⟩, fun o hr hd => Device.ckoCode_running hr hd⟩
    · exact .of_eq (exec_ckoCtlStart ho) (Device.ckoReq_start_refused hc)
    · exact .of_eq (exec_ckoCtlStart ho) ((Device.ckoReq_start_accepted hc).trans (Device.actBit_host _ _))
    · exact .of_eq (exec_ckoCtlStop ho) (Device.ckoReq_stop_refused hc)
    · exact .of_eq (exec_ckoCtlStop ho) ((Device.ckoReq_stop_accepted hc).trans (Device.actBit_host _ _))
    · exact .of_eq (exec_clkOutputStart hu hb) (Device.ckoReq_start_refused hc)
    · exact .of_eq (exec_clkOutputStart hu hb) ((Device.ckoReq_start_accepted hc).trans (Device.actBit_origin _ u _))
    · exact .of_eq (exec_clkOutputStop hu hb) ((if_pos h1).trans (Device.ckoReq_stop_refused hc))
    · exact .of_eq (exec_clkOutputStop hu hb) ((if_pos h1).trans ((Device.ckoReq_stop_accepted hc).trans (Device.actBit_origin _ u _)))
    · exact .of_eq (exec_clkOutputStop hu hb) (if_neg (Bool.eq_false_iff.mp h1))
  · intro s u o sel temp d taken n uv ref skipped idle
    refine ⟨fun hu hv => ?_, fun hu hv => ?_, fun hu => ⟨fun h => ?_, fun h hc hr => ?_, fun h hc hr => ?_⟩, fun h => ?_,
      fun e k ho hs hr hc => ⟨fun hf => ?_, fun hf => ?_⟩⟩
    · exact .of_eq (exec_calSetref hu) (if_pos ((refUvOk_iff _).mpr hv))
    · exact .of_eq (exec_calSetref hu) (if_neg (mt (refUvOk_iff _).mp (by omega)))
    · exact .of_eq (exec_calOutcal_busy hu h) rfl
    · exact .of_eq (exec_calOutcal_idle hu h hc hr) rfl
    · exact .of_eq (exec_calOutcal_idle hu h hc hr) rfl
    · exact .of_eq (exec_outputCalDone_idle (h.imp_right (Or.imp_right (by simp [d])))) rfl
    · exact .of_eq (exec_outputCalDone_asked ho hs hr hc) (if_neg (Bool.eq_false_iff.mp hf))
    · refine .of_eq (exec_outputCalDone_asked ho hs hr hc) ?_
      rw [if_pos hf]
      obtain ⟨count, last, valid, code, shown⟩ := d.ckoServed_item o sel temp
      obtain ⟨regs, e⟩ := d.ckoServed_frame o sel temp
      rw [Device.rdN_complete, Device.rdTime_complete, Device.fld_complete, Device.fld_complete, Device.rdN_complete]
      refine ⟨?_, count, last, valid, code, shown, ?_, ?_⟩
      · rw [e]; exact d.cal_setCko o
      · rw [e]; rfl
      · rw [e]; rfl

end Sys2Proof.Machine
end


section
/-! SUPPORT. TCLK edges, sets of device time and the edges that SYNC_IN brings (R134, R459, R476 to R479, R551 to R553). -/

namespace Sys2Proof.Machine

variable {d : Device} {s : State} {u : UCmd} {t : Time} {o : Origin}

/-! A TCLK edge (R459). -/

/-- What a TCLK edge does once device time stands at its new value and the resets on their way have come an edge nearer. -/
def Device.afterEdge (d : Device) : Device :=
  (Device.casWaiting (Device.engBusy (Device.pfdTick (Device.wakeTick (Device.stLatestAll (Device.evDrainAll (Device.evOnAll
    (if d.syncSample.isSet F.CAS_STAT_SLEWING then
      { d.syncSample with cas := { d.syncSample.cas with slewTick := d.syncSample.cas.slewTick + 1 } } else d.syncSample)))))))).showDecided

/-- The resets that SYNC_IN and MONSYNC asked for come one edge nearer. -/
def Device.nearer (d : Device) : Device := { d with syncLeft := d.syncLeft.map (· - 1), monSync := d.monSync.map (· - 1) }

theorem exec_tclkTick_set {r : Time × Nat × Origin} (hs : s.dev.sys.started = true) (hp : s.dev.pinLow = false) (hr : s.dev.setReq = some r) :
    exec .tclkTick s = .next { s with dev := s.dev.setNow.nearer.afterEdge } := by
  show execTclkTick s = _
  refine State.run_of_eq ((if_pos ⟨hs, by rw [hp]; rfl⟩).trans ?_)
  rw [Device.tclk]
  split
  · rfl
  · next h => rw [hr] at h; cases h

theorem exec_tclkTick_advance (hs : s.dev.sys.started = true) (hp : s.dev.pinLow = false) (hr : s.dev.setReq = none) :
    exec .tclkTick s = .next { s with dev := ({ s.dev with
      time := s.dev.time + BitVec.ofNat 64 ((s.dev.tick.1 + s.dev.timeRem) / s.dev.tick.2),
      timeRem := (s.dev.tick.1 + s.dev.timeRem) % s.dev.tick.2 } : Device).nearer.afterEdge } := by
  show execTclkTick s = _
  refine State.run_of_eq ((if_pos ⟨hs, by rw [hp]; rfl⟩).trans ?_)
  rw [Device.tclk]
  split
  · next h => rw [hr] at h; cases h
  · rfl

theorem exec_tclkTick_held (h : s.dev.sys.started = false ∨ s.dev.pinLow = true) : exec .tclkTick s = .next s := by
  show execTclkTick s = _
  refine State.run_of_eq (if_neg ?_)
  rintro ⟨hs, hp⟩
  rcases h with h | h
  · rw [h] at hs; cases hs
  · rw [h] at hp; cases hp

/-! A set of device time (R479). -/

theorem Device.setNow_some {v : Time} {e : Nat} (h : d.setReq = some (v, e, o)) : d.setNow =
    ((Device.wr { d with time := v, timeRem := 0, setReq := none } Reg.EVT_EPOCH e).setFld F.EVT_SET_CTL_GO 0).complete o cOK none := by
  rw [Device.setNow, h]

/-- What a code and a stamp for a requester add to the completions (R42). -/
def Origin.told (c : Nat) (t : Option Time) : Origin → List Completion
  | .port e k => [⟨e, k, c, t⟩]
  | _ => []

theorem Device.completions_complete (d : Device) (o : Origin) (c : Nat) (t : Option Time) :
    (d.complete o c t).completions = d.completions ++ o.told c t := by
  cases o with
  | host => exact (List.append_nil _).symm
  | device => exact (List.append_nil _).symm
  | port e k => rfl

theorem Device.complete_frame (d : Device) (o : Origin) (c : Nat) (t : Option Time) :
    d.complete o c t = { d with completions := (d.complete o c t).completions } := by
  cases o with
  | host => rfl
  | device => rfl
  | port e k => rfl

/-- What a set leaves: device time, the epoch, its action bit and the answer to its requester. -/
theorem Device.setNow_loaded {v : Time} {e : Nat} (h : d.setReq = some (v, e, o)) :
    d.setNow.rdN Reg.EVT_EPOCH = e % 2 ^ 32 ∧ d.setNow.fld F.EVT_SET_CTL_GO = 0 ∧
      d.setNow.completions = d.completions ++ o.told cOK none ∧
      d.setNow = { d with regs := d.setNow.regs, time := v, timeRem := 0, setReq := none, completions := d.setNow.completions } := by
  rw [Device.setNow_some h]
  refine ⟨?_, ?_, Device.completions_complete _ _ _ _, ?_⟩
  · rw [Device.rdN_complete, Device.rdN_congr (Device.rd_setFld_other _ _ _ (by decide)), Device.rdN_wr]
  · rw [Device.fld_complete, Device.fld_setFld _ _ _ (by decide)]
    rfl
  · rw [Device.complete_frame]
    obtain ⟨_, e'⟩ := ((Device.OnlyRegs.refl ({ d with time := v, timeRem := 0, setReq := none } : Device)).wr Reg.EVT_EPOCH e).setFld
      F.EVT_SET_CTL_GO 0
    rw [e']

theorem Device.timeSet_busy {v : Time} {e : Nat} (h : d.setBusy = true) :
    d.timeSet v e o = (d.setFld F.EVT_SET_STAT_CODE cBUSY).complete o cBUSY none := by
  rw [Device.timeSet, if_pos h]
  rfl

theorem Device.timeSet_taken {v : Time} {e : Nat} (h : d.setBusy = false) : d.timeSet v e o =
    Device.actBit { d.setFld F.EVT_SET_STAT_CODE cOK with setReq := some (v, e % 65536, o) } o F.EVT_SET_CTL_GO := by
  rw [← Device.match_host_eq_actBit, Device.timeSet, h]
  rfl

theorem exec_evtSetCtlGo (s : State) : exec .evtSetCtlGo s =
    .next { s with dev := s.dev.timeSet (s.dev.rdTime Reg.EVT_SET_LO) (s.dev.rdN Reg.EVT_SET_EPOCH) .host } := rfl

theorem exec_evtSet (hu : s.dev.comes 0x0D 5 1 u) : exec (.evtSet u) s =
    .next { s with dev := (s.dev.accept u).timeSet (BitVec.ofNat 64 (u.dword 0)) (u.word 8) u.origin } := by
  show execEvtSet u s = _
  exact State.run_of_eq (Device.unitCmd_comes _ hu rfl)

/-- A stream that is not OFF forbids a set. -/
theorem Device.setBusy_stream {n : Nat} (hn : n < 8) (h : d.fld (F.LNK_S_STAT_STATE n) ≠ 0) : d.setBusy = true := by
  have some : d.allZero 8 F.LNK_S_STAT_STATE = false := by
    rw [Device.allZero, List.all_eq_false]
    exact ⟨n, List.mem_range.mpr hn, by simpa using h⟩
  simp [Device.setBusy, Device.setBlocked, some]

/-- A decimator reset that SYNC_IN asked for, and a cascade, forbid a set. -/
theorem Device.setBusy_sync (h : d.syncIn ≠ [] ∨ d.syncLeft ≠ [] ∨ d.casRole ≠ 0) : d.setBusy = true := by
  rcases h with h | h | h
  · simp [Device.setBusy, Device.setBlocked, h]
  · simp [Device.setBusy, Device.setBlocked, h]
  · simp [Device.setBusy, caNone, h]

/-! The coarse wrap (R478). -/

/-- The epoch after a wrap, with its flag and count. -/
def Device.wrapped (d : Device) : Device :=
  (d.wr Reg.EVT_EPOCH ((d.rdN Reg.EVT_EPOCH + 1) % 65536)).flag F.EVT_FLAGS_TIME_WRAP Reg.EVT_WRAP_CNT

theorem exec_timeWrap (s : State) : exec .timeWrap s = .next { s with dev := s.dev.wrapped } := rfl

theorem Device.wrapped_regs (d : Device) : d.wrapped = { d with regs := d.wrapped.regs } ∧
    d.wrapped.rdN Reg.EVT_EPOCH = (d.rdN Reg.EVT_EPOCH + 1) % 2 ^ 16 ∧ d.wrapped.isSet F.EVT_FLAGS_TIME_WRAP = true ∧
    d.wrapped.rdN Reg.EVT_WRAP_CNT = min (d.rdN Reg.EVT_WRAP_CNT + 1) 0xFFFFFFFF ∧
    ∀ a, a ≠ Reg.EVT_EPOCH → a ≠ Reg.EVT_FLAGS → a ≠ Reg.EVT_WRAP_CNT → d.wrapped.rd a = d.rd a := by
  refine ⟨(((Device.OnlyRegs.refl d).wr _ _).flag _ _).eq, ?_, Device.isSet_flag _ (by decide) rfl (by decide), ?_, fun a h1 h2 h3 => ?_⟩
  · rw [Device.wrapped, Device.rdN_congr (Device.rd_flag_other _ _ _ (by decide) (by decide)), Device.rdN_wr]
    omega
  · rw [Device.wrapped, Device.rdN_flag _ (by decide), Device.rdN_wr_other _ _ _ _ (by decide)]
  · exact (Device.rd_flag_other _ _ _ h2 h3).trans (d.rd_wr_other _ _ _ h1)

/-! Engines' busy counts. -/

theorem Sparse.get_map_snd {α : Type} (dft : Nat → α) (f : α → α) (m : Sparse α) (k : Nat) (h : f (dft k) = dft k) :
    Sparse.get dft (m.map (fun x => (x.1, f x.2))) k = f (Sparse.get dft m k) := by
  induction m with
  | nil => exact h.symm
  | cons x m ih =>
    simp only [List.map_cons, Sparse.get]
    split
    · rfl
    · exact ih

theorem Device.eng_engBusy (ha : d.sys.asleep = false) (e : Nat) :
    d.engBusy.eng e = if (d.eng e).state = 1 then { d.eng e with busy := (d.eng e).busy + 8 } else d.eng e := by
  have pairs : (fun x : Nat × Engine => if x.2.state = 1 then (x.1, { x.2 with busy := x.2.busy + 8 }) else x) =
      fun x => (x.1, if x.2.state = 1 then { x.2 with busy := x.2.busy + 8 } else x.2) := by
    funext x
    split
    · rfl
    · rfl
  rw [Device.engBusy, if_neg (by rw [ha]; decide), pairs]
  exact Sparse.get_map_snd _ (fun y : Engine => if y.state = 1 then { y with busy := y.busy + 8 } else y) _ _ rfl

/-! SYNC_IN (R134, R551 to R553). -/

theorem exec_syncInEdge_reset (h : s.dev.isSet F.CHN_SYNC_CFG_SYNC_EN = true) : exec (.syncInEdge t) s = .next { s with dev := s.dev.syncAt t } := by
  show execSyncInEdge t s = _
  exact State.run_of_eq (if_pos h)

theorem exec_syncInEdge_idle (h : s.dev.isSet F.CHN_SYNC_CFG_SYNC_EN = false) (hm : s.dev.casRole ≠ caMember) (hs : s.dev.casRole ≠ caStandby) :
    exec (.syncInEdge t) s = .next s := by
  show execSyncInEdge t s = _
  exact State.run_of_eq ((if_neg (Bool.eq_false_iff.mp h)).trans (if_neg (by simp [hm, hs])))

theorem exec_syncInEdge_mark (h : s.dev.isSet F.CHN_SYNC_CFG_SYNC_EN = false) (hc : s.dev.casRole = caMember ∨ s.dev.casRole = caStandby) :
    exec (.syncInEdge t) s = .next { s with dev := s.dev.casEdge t } := by
  show execSyncInEdge t s = _
  exact State.run_of_eq ((if_neg (Bool.eq_false_iff.mp h)).trans (if_pos (by simpa using hc)))

theorem Device.casEdge_coarse {p : Time × Nat} (h : d.cas.coarse = some p) : d.casEdge t = d.coarseMark t p.1 p.2 := by
  rw [Device.casEdge, h]

theorem Device.casEdge_reset {m : Time} (h : d.cas.coarse = none)
    (hr : d.cas.resets.find? (fun m => markBy t m && timeLE t (m + nsTime 1024)) = some m) :
    d.casEdge t = { d with cas := { d.cas with resets := d.cas.resets.erase m } } := by
  rw [Device.casEdge]
  split
  · next hc => rw [h] at hc; cases hc
  · split
    · next hf => rw [hr] at hf; cases hf; rfl
    · next hf _ => rw [hr] at hf; cases hf
    · next hf _ => rw [hr] at hf; cases hf

/-- The announced marks that an edge at `t` has made way for are gone. -/
def Device.marksGone (d : Device) (t : Time) : Device :=
  { d with cas := { d.cas with marks := d.cas.marks.filter (fun x => !markBy t x) } }

theorem Device.casEdge_mark {m : Time} (h : d.cas.coarse = none)
    (hr : d.cas.resets.find? (fun m => markBy t m && timeLE t (m + nsTime 1024)) = none)
    (hm : (d.cas.marks.filter (markBy t)).getLast? = some m) :
    d.casEdge t = if d.cas.deaf then d.marksGone t else (d.marksGone t).markSeen t m := by
  rw [Device.casEdge]
  split
  · next hc => rw [h] at hc; cases hc
  · split
    · next hf => rw [hr] at hf; cases hf
    · next hl => rw [hm] at hl; cases hl; rfl
    · next hl => rw [hm] at hl; cases hl

theorem Device.casEdge_cal (h : d.cas.coarse = none) (hr : d.cas.resets.find? (fun m => markBy t m && timeLE t (m + nsTime 1024)) = none)
    (hm : d.cas.marks.filter (markBy t) = []) : d.casEdge t = d.casCalMark t := by
  rw [Device.casEdge]
  split
  · next hc => rw [h] at hc; cases hc
  · split
    · next hf => rw [hr] at hf; cases hf
    · next hl => rw [hm] at hl; cases hl
    · rfl

/-- A mark before the 64th adds its error. -/
theorem Device.markSeen_few (m : Time) (h : d.cas.errs.length < 63) : d.markSeen t m =
    { d with cas := { d.cas with errs := d.cas.errs ++ [(t - m).toInt - (d.rdN Reg.CAS_FWD : Int)] } } := by
  have none_dropped : d.cas.errs.length - 63 = 0 := by omega
  simp only [Device.markSeen, none_dropped, List.drop_zero]
  exact if_pos (by rw [List.length_append, List.length_singleton]; omega)

theorem Device.coarseMark_left (d : Device) (tm : Time) (e : Nat) : (d.coarseMark t tm e).time = d.time + (tm - t) ∧
    (d.coarseMark t tm e).rdN Reg.EVT_EPOCH = e % 2 ^ 32 ∧ (d.coarseMark t tm e).cas.coarse = none ∧
    d.coarseMark t tm e = { d with regs := (d.coarseMark t tm e).regs, time := (d.coarseMark t tm e).time, cas := (d.coarseMark t tm e).cas } :=
  ⟨rfl, Device.rdN_wr _ _ _, rfl, rfl⟩

/-- With no edge of MONSYNC waiting, edges of SYNC_IN that have not passed stay. -/
theorem Device.syncSample_later (hm : d.monIn = []) (h : ∀ e ∈ d.syncIn, timeLT e d.time = false) : d.syncSample = d := by
  have none_passed : d.syncIn.filter (fun t => timeLT t d.time) = [] := List.filter_eq_nil_iff.mpr fun e he => by rw [h e he]; decide
  have all_stay : d.syncIn.filter (fun t => !timeLT t d.time) = d.syncIn := List.filter_eq_self.mpr fun e he => by rw [h e he]; decide
  simp only [Device.syncSample, none_passed, all_stay, hm, List.filter_nil, List.isEmpty_nil, Bool.true_or, if_true]
  rw [← hm]

/-- Edges of SYNC_IN that have passed count once, and ask for a reset 16 edges on. -/
theorem Device.syncSample_passed (hs : d.isSet F.CHN_SYNC_CFG_SYNC_EN = true) (hm : d.monIn = []) (hn : d.syncIn ≠ [])
    (h : ∀ e ∈ d.syncIn, timeLT e d.time = true) :
    d.syncSample = { d.inc Reg.CHN_SYNC_CNT with syncIn := [], syncLeft := d.syncLeft ++ [16] } := by
  have all_passed : d.syncIn.filter (fun t => timeLT t d.time) = d.syncIn := List.filter_eq_self.mpr h
  have none_stay : d.syncIn.filter (fun t => !timeLT t d.time) = [] := List.filter_eq_nil_iff.mpr fun e he => by rw [h e he]; decide
  have same : ({ d with syncIn := [], monIn := [] } : Device).isSet F.CHN_SYNC_CFG_SYNC_EN = true := hs
  have go : (d.syncIn.isEmpty || !({ d with syncIn := [], monIn := [] } : Device).isSet F.CHN_SYNC_CFG_SYNC_EN) = false := by
    rw [same, List.isEmpty_eq_false_iff.mpr hn]
    rfl
  simp only [Device.syncSample, all_passed, none_stay, hm, List.filter_nil, List.isEmpty_nil, Bool.true_or, if_true, go]
  rw [Device.inc, Device.syncEdge, ← hm]
  rfl

end Sys2Proof.Machine
end

section
/-! PROOFS. Device time, and the edges that SYNC_IN brings (R134, R459, R476, R478, R479, R551). -/

namespace Sys2Proof.Machine

/-- Settles O24, clause by clause: TCLK edges, sampling, busy counts, the coarse wrap, and SYNC_IN with and without SYNC_EN. -/
theorem deviceTime : Obligations.DeviceTime := by
  intro s t d inc near slewed edge mayBe gone reset?
  refine ⟨fun hs hp hr h0 => ?_, fun v e o hs hp hr => ?_, fun h => .of_eq (exec_tclkTick_held h) rfl,
    fun x hs hm => ⟨Device.syncSample_later hm, Device.syncSample_passed hs hm⟩, fun x e ha => Device.eng_engBusy ha e, ?_,
    fun h => ⟨fun ht => ?_, fun ht => ?_⟩, fun h hm hst => .of_eq (exec_syncInEdge_idle h hm hst) rfl,
    fun h hc => ⟨fun tm e hco => ?_, fun m hco hr => ?_, fun m hco hr hm => ⟨fun hd => ?_, fun hd hl => ?_⟩, fun hco hr hm => ?_⟩⟩
  · refine ⟨(inc.1 + d.timeRem) / inc.2, (inc.1 + d.timeRem) % inc.2, Nat.div_add_mod' _ _, Nat.mod_lt _ h0, ?_⟩
    exact .of_eq (exec_tclkTick_advance hs hp hr) rfl
  · obtain ⟨epoch, bit, done, frame⟩ := Device.setNow_loaded hr
    refine .of_eq (exec_tclkTick_set hs hp hr) ⟨d.setNow.nearer, rfl, ?_, ?_, ?_, ?_, epoch, ?_, done⟩
    · rw [frame]; rfl
    · rw [frame]; rfl
    · rw [frame]; rfl
    · rw [frame]; rfl
    · exact decide_eq_false (by rw [show d.setNow.nearer.fld F.EVT_SET_CTL_GO = 0 from bit]; decide)
  · obtain ⟨frame, rest⟩ := d.wrapped_regs
    exact .of_eq (exec_timeWrap s) ⟨frame, rest⟩
  · exact .of_eq (exec_syncInEdge_reset h) (if_pos ht)
  · exact .of_eq (exec_syncInEdge_reset h) (if_neg (Bool.eq_false_iff.mp ht))
  · refine .of_eq (exec_syncInEdge_mark h hc) ?_
    rw [Device.casEdge_coarse hco]
    exact d.coarseMark_left tm e
  · exact .of_eq (exec_syncInEdge_mark h hc) (Device.casEdge_reset hco hr)
  · exact .of_eq (exec_syncInEdge_mark h hc) ((Device.casEdge_mark hco hr hm).trans (if_pos hd))
  · exact .of_eq (exec_syncInEdge_mark h hc) (((Device.casEdge_mark hco hr hm).trans (if_neg (Bool.eq_false_iff.mp hd))).trans
      (Device.markSeen_few m hl))
  · exact .of_eq (exec_syncInEdge_mark h hc) (Device.casEdge_cal hco hr hm)

end Sys2Proof.Machine
end


section
/-! SUPPORT. What ARM and STOP of a statistics unit do when they are asked for (R491, R492). -/

namespace Sys2Proof.Machine

variable {d : Device} {s : State} {u : UCmd} {n : Nat} {t : Time} {o : Origin}

/-- The code of a STOP: the unit runs, and no request of it waits. -/
abbrev Device.stStopCode (d : Device) (n : Nat) : Nat :=
  if d.fld (F.EVT_S_STAT_STATE n) = 0 then cNOTARMED else if d.hasReq [.statArm, .statStop] n then cBUSY else cOK

theorem Device.stArm_refused (h : d.stArmCode n ≠ cOK) :
    d.stArm n o = (d.setFld (F.EVT_S_STAT_CODE n) (d.stArmCode n)).complete o (d.stArmCode n) none := if_pos h

/-- The instant of a unit lies in none of the registers that show its state. -/
theorem Device.statAt_setFld_code (d : Device) (n c : Nat) :
    (d.setFld (F.EVT_S_STAT_CODE n) c).rdTime (Reg.EVT_S_AT_LO n) = d.rdTime (Reg.EVT_S_AT_LO n) := by
  refine Device.rdTime_congr (Device.rd_setFld_other _ _ _ ?_) (Device.rd_setFld_other _ _ _ ?_)
  all_goals simp only [F.EVT_S_STAT_CODE, Reg.EVT_S_STAT, Reg.EVT_S_AT_LO]; omega

theorem Device.stArm_accepted (h : d.stArmCode n = cOK) : d.stArm n o =
    (((d.setFld (F.EVT_S_STAT_CODE n) cOK).request .statArm n (d.rdTime (Reg.EVT_S_AT_LO n)) o []).setFld (F.EVT_S_STAT_STATE n) 1).actBit o
      (F.EVT_S_CTL_ARM n) := by
  rw [← d.statAt_setFld_code n cOK, ← Device.match_host_eq_actBit, ← h]
  exact if_neg (not_not_intro h)

theorem Device.stStop_refused (h : d.stStopCode n ≠ cOK) :
    d.stStop n t o = (d.setFld (F.EVT_S_STAT_CODE n) (d.stStopCode n)).complete o (d.stStopCode n) none := if_pos h

theorem Device.stStop_accepted (h : d.stStopCode n = cOK) : d.stStop n t o =
    ((d.setFld (F.EVT_S_STAT_CODE n) cOK).request .statStop n t o []).actBit o (F.EVT_S_CTL_STOP n) := by
  rw [← Device.match_host_eq_actBit, ← h]
  exact if_neg (not_not_intro h)

theorem exec_evtSCtlArm (hn : n < 8) : exec (.evtSCtlArm n) s = .next { s with dev := s.dev.stArm n .host } := by
  show execEvtSCtlArm n s = _
  exact State.run_of_eq (if_pos hn)

theorem exec_evtSCtlStop (hn : n < 8) :
    exec (.evtSCtlStop n) s = .next { s with dev := s.dev.stStop n (s.dev.rdTime (Reg.EVT_S_AT_LO n)) .host } := by
  show execEvtSCtlStop n s = _
  exact State.run_of_eq (if_pos hn)

/-- The registers that an engine's ARM writes (R600). -/
abbrev Device.stWritten (d : Device) (u : UCmd) : Device :=
  d.wrBlock u [(Reg.EVT_S_CFG u.unit, 0), (Reg.EVT_S_N u.unit, 4), (Reg.EVT_S_WINDOW u.unit, 8), (Reg.EVT_S_QUEUE u.unit, 12),
    (Reg.EVT_S_AT_LO u.unit, 16), (Reg.EVT_S_AT_HI u.unit, 20)]

theorem exec_evtArm (hu : s.dev.comes 0x0D 3 8 u) : exec (.evtArm u) s = .next { s with dev :=
    (if (s.dev.accept u).fld (F.EVT_S_STAT_STATE u.unit) ≠ 0 then (s.dev.accept u).complete u.origin cBUSY none
     else ((s.dev.accept u).stWritten u).stArm u.unit u.origin) } := by
  show execEvtArm u s = _
  exact State.run_of_eq (Device.unitCmd_comes _ hu rfl)

theorem exec_evtStop (hu : s.dev.comes 0x0D 4 8 u) : exec (.evtStop u) s =
    .next { s with dev := (s.dev.accept u).stStop u.unit (BitVec.ofNat 64 (u.dword 0)) u.origin } := by
  show execEvtStop u s = _
  exact State.run_of_eq (Device.unitCmd_comes _ hu rfl)

theorem exec_evtArm_noObject (ht : s.dev.takes 0x0D 3 u = true) (hn : 8 ≤ u.unit) :
    exec (.evtArm u) s = .next { s with dev := (s.dev.accept u).complete u.origin cUNSUP none } := by
  show execEvtArm u s = _
  exact State.run_of_eq (Device.unitCmd_noObject _ ht rfl hn)

theorem exec_evtStop_noObject (ht : s.dev.takes 0x0D 4 u = true) (hn : 8 ≤ u.unit) :
    exec (.evtStop u) s = .next { s with dev := (s.dev.accept u).complete u.origin cUNSUP none } := by
  show execEvtStop u s = _
  exact State.run_of_eq (Device.unitCmd_noObject _ ht rfl hn)

/-- With nothing of SYNC_IN or MONSYNC on its way and no slewing, an edge that takes a set does the rest of an edge alone. -/
theorem Device.afterEdge_quiet (hi : d.syncIn = []) (hm : d.monIn = []) (hl : d.syncLeft = []) (hs : d.monSync = [])
    (hc : d.isSet F.CAS_STAT_SLEWING = false) : d.nearer.afterEdge =
      (Device.casWaiting (Device.engBusy (Device.pfdTick (Device.wakeTick (Device.stLatestAll (Device.evDrainAll d.evOnAll)))))).showDecided := by
  have kept : ∀ l m, l = d.syncLeft → m = d.monSync → ({ d with syncLeft := l, monSync := m } : Device) = d := by
    rintro _ _ rfl rfl
    rfl
  have near : d.nearer = d := kept _ _ (by rw [hl]; rfl) (by rw [hs]; rfl)
  have same : d.syncSample = d := Device.syncSample_later hm (by rw [hi]; simp)
  rw [near, Device.afterEdge, same, hc]
  rfl

end Sys2Proof.Machine
end

section
/-! PROOFS. Setting device time, and interval statistics (R479, R491, R492). -/

namespace Sys2Proof.Machine

/-- Settles O47, clause by clause: sets by host and engine, the edge that takes one, what forbids one, and ARM and STOP of a statistics unit. -/
theorem timeSetsAndStatistics : Obligations.TimeSetsAndStatistics := by
  constructor
  · intro s u d taken sets
    refine ⟨⟨fun hb => ?_, fun hb => ?_⟩, fun hu => ⟨fun hb => ?_, fun hb => ?_⟩, fun t e o hs hp hr hl hm hi hn hc he => ?_,
      fun n hn h => Device.setBusy_stream hn h, Device.setBusy_sync⟩
    · exact .of_eq (exec_evtSetCtlGo s) (Device.timeSet_busy hb)
    · exact .of_eq (exec_evtSetCtlGo s) ((Device.timeSet_taken hb).trans (Device.actBit_host _ _))
    · exact .of_eq (exec_evtSet hu) (Device.timeSet_busy hb)
    · exact .of_eq (exec_evtSet hu) ((Device.timeSet_taken hb).trans (Device.actBit_origin _ u _))
    · obtain ⟨epoch, bit, done, frame⟩ := Device.setNow_loaded hr
      refine .of_eq (exec_tclkTick_set hs hp hr) ⟨d.setNow, ?_, bit, done, frame, ?_⟩
      · rw [epoch, Nat.mod_eq_of_lt (by omega)]
      · refine Device.afterEdge_quiet ?_ ?_ ?_ ?_ ?_
        · rw [frame]; exact hi
        · rw [frame]; exact hn
        · rw [frame]; exact hl
        · rw [frame]; exact hm
        · rw [← hc]
          refine Device.isSet_congr ?_
          rw [Device.setNow_some hr, Device.rd_complete, Device.rd_setFld_other _ _ _ (by decide), Device.rd_wr_other _ _ _ _ (by decide)]
          rfl
  · intro s u t d taken n asked stopCode armed
    refine ⟨fun ht => ⟨⟨fun hc => ?_, fun hc => ?_⟩, fun hc => ?_, fun hc => ?_⟩, fun hu => ⟨fun hb => ?_, fun hb => ⟨fun hc => ?_, fun hc => ?_⟩⟩,
      fun hu => ⟨fun hc => ?_, fun hc => ?_⟩, fun ht hn => .of_eq (exec_evtArm_noObject ht hn) rfl,
      fun ht hn => .of_eq (exec_evtStop_noObject ht hn) rfl⟩
    · exact .of_eq (exec_evtSCtlArm ht) (Device.stArm_refused hc)
    · exact .of_eq (exec_evtSCtlArm ht) ((Device.stArm_accepted hc).trans (Device.actBit_host _ _))
    · exact .of_eq (exec_evtSCtlStop ht) (Device.stStop_refused hc)
    · exact .of_eq (exec_evtSCtlStop ht) ((Device.stStop_accepted hc).trans (Device.actBit_host _ _))
    · exact .of_eq (exec_evtArm hu) (if_pos hb)
    · exact .of_eq (exec_evtArm hu) ((if_neg (not_not_intro hb)).trans (Device.stArm_refused hc))
    · exact .of_eq (exec_evtArm hu) ((if_neg (not_not_intro hb)).trans ((Device.stArm_accepted hc).trans (Device.actBit_origin _ u _)))
    · exact .of_eq (exec_evtStop hu) (Device.stStop_refused hc)
    · exact .of_eq (exec_evtStop hu) ((Device.stStop_accepted hc).trans (Device.actBit_origin _ u _))

end Sys2Proof.Machine
end


section
/-! SUPPORT. Event inputs: edges, thresholds, records, ENABLE and DISABLE (R480 to R486). -/

namespace Sys2Proof.Machine

variable {d : Device} {s : State} {u : UCmd} {n num den v : Nat} {rising : Bool} {o : Origin}

/-! Edges (R482, R483). -/

theorem Device.slopeTakes_iff (d : Device) (n : Nat) (rising : Bool) : d.slopeTakes n rising = true ↔
    (d.fld (F.EVT_I_CFG_SLOPE n) = 0 → rising = true) ∧ (d.fld (F.EVT_I_CFG_SLOPE n) = 1 → rising = false) := by
  rw [Device.slopeTakes]
  split
  · next h => simp [h]
  · next h => simp [h]
  · next h0 h1 => exact iff_of_true rfl ⟨fun h => (h0 h).elim, fun h => (h1 h).elim⟩

/-- Whether input `n` takes an edge of a direction: it is enabled, not blanked, of that slope, and the device is awake. -/
abbrev Device.evTakes (d : Device) (n : Nat) (rising : Bool) : Prop :=
  n < 16 ∧ d.isSet (F.EVT_I_STAT_ENABLED n) = true ∧ d.isSet (F.EVT_I_STAT_BLANK n) = false ∧
    (d.fld (F.EVT_I_CFG_SLOPE n) = 0 → rising = true) ∧ (d.fld (F.EVT_I_CFG_SLOPE n) = 1 → rising = false) ∧
    d.fld F.SYS_STAT_STATE ∉ [6, 7]

theorem Device.evTakes_iff (d : Device) (n : Nat) (rising : Bool) : d.evTakes n rising ↔
    ¬(16 ≤ n ∨ (!d.isSet (F.EVT_I_STAT_ENABLED n)) = true ∨ d.isSet (F.EVT_I_STAT_BLANK n) = true ∨ (!d.slopeTakes n rising) = true ∨
      d.fld F.SYS_STAT_STATE ∈ [6, 7]) := by
  simp only [not_or, Bool.not_eq_true', Bool.not_eq_false, Bool.not_eq_true, Nat.not_le, Device.slopeTakes_iff, and_assoc]

theorem Device.inDead_first {t : Time} (h : d.rd64 (Reg.EVT_I_EDGES_LO n) = 0) : d.inDead n t = (false, d) := if_pos h

theorem Device.inDead_early {t : Time} (h : d.rd64 (Reg.EVT_I_EDGES_LO n) ≠ 0) (ht : (t - d.rdTime (Reg.EVT_I_LAST_LO n)).toInt < 81265) :
    d.inDead n t = (true, d) := by
  rw [Device.inDead, if_neg h]
  refine (if_neg (by omega)).trans ?_
  rw [decide_eq_true (by omega : (t - d.rdTime (Reg.EVT_I_LAST_LO n)).toInt < 81920)]

theorem Device.inDead_late {t : Time} (ht : 82575 < (t - d.rdTime (Reg.EVT_I_LAST_LO n)).toInt) : d.inDead n t = (false, d) := by
  by_cases h : d.rd64 (Reg.EVT_I_EDGES_LO n) = 0
  · exact Device.inDead_first h
  · rw [Device.inDead, if_neg h]
    refine (if_neg (by omega)).trans ?_
    rw [decide_eq_false (by omega : ¬(t - d.rdTime (Reg.EVT_I_LAST_LO n)).toInt < 81920)]

/-- Within 10 ps of the limit a free value decides. -/
theorem Device.inDead_near {t : Time} (h : d.rd64 (Reg.EVT_I_EDGES_LO n) ≠ 0) (h1 : 81265 ≤ (t - d.rdTime (Reg.EVT_I_LAST_LO n)).toInt) (h2 : (t - d.rdTime (Reg.EVT_I_LAST_LO n)).toInt ≤ 82575) :
    d.inDead n t = (decide (d.draw.1 % 2 = 1), d.draw.2) := by
  rw [Device.inDead, if_neg h]
  exact if_pos (by omega)

/-- What an input makes of an edge that it takes, by whether the edge falls in the dead time. -/
def Device.edgeDone (d : Device) (n : Nat) (t : Time) (rising dead : Bool) : Device :=
  if dead then d.edgeLost n else ((d.edgeTake n t rising).calEdge n t).lineEdge n

theorem exec_eventEdge (h : s.dev.evTakes n rising) {dead : Bool} {x : Device} (hd : s.dev.inDead n (s.dev.edgeStamp n num den) = (dead, x)) :
    exec (.eventEdge n num den rising) s = .next { s with dev := x.edgeDone n (s.dev.edgeStamp n num den) rising dead } := by
  show execEventEdge n num den rising s = _
  refine State.run_of_eq ((if_neg ((s.dev.evTakes_iff n rising).mp h)).trans ?_)
  simp only [hd]
  rfl

theorem exec_eventEdge_idle (h : ¬s.dev.evTakes n rising) : exec (.eventEdge n num den rising) s = .next s := by
  show execEventEdge n num den rising s = _
  exact State.run_of_eq (if_pos (of_not_not (mt (s.dev.evTakes_iff n rising).mpr h)))

/-- With no offset, a crossing at a whole unit of device time is stamped with it. -/
theorem Device.edgeStamp_whole (hd : den ≠ 0) (h0 : d.rdN (Reg.EVT_I_OFS n) = 0) (hm : num % den = 0) :
    d.edgeStamp n num den = BitVec.ofNat 64 (num / den) := by
  have offset : signed 32 (d.rdN (Reg.EVT_I_OFS n)) = 0 := by rw [h0]; rfl
  have rem : (num : Int) % (den : Int) = 0 := by exact_mod_cast hm
  have whole : roundHalfEven (num : Int) (den : Int) = ((num / den : Nat) : Int) := by
    simp only [roundHalfEven, rem, mul_zero]
    exact if_pos (by omega)
  rw [Device.edgeStamp, offset, Nat.max_eq_right (Nat.one_le_iff_ne_zero.mpr hd), zero_mul, sub_zero, whole]
  rfl

/-! Thresholds (R480, R481). -/

theorem Device.threshold_eq (d : Device) (n v : Nat) :
    d.threshold n v = if v % 4096 ≤ 3600 then (d.wrRw (Reg.EVT_I_THRESH n) v).blank n else d.badAccess := by
  rw [Device.threshold, bitsOf_zero]
  by_cases h : v % 4096 ≤ 3600
  · rw [if_pos h]
    exact if_neg (Nat.not_lt.mpr h)
  · rw [if_neg h]
    exact if_pos (Nat.not_le.mp h)

theorem exec_thresholdWrite (hn : n < 16) : exec (.thresholdWrite n v) s = .next { s with dev := s.dev.threshold n v } := by
  show execThresholdWrite n v s = _
  exact State.run_of_eq (if_pos hn)

theorem exec_blankEnd (n : Nat) (s : State) : exec (.blankEnd n) s = .next { s with dev :=
    (if timeLE (s.dev.evin n).blankTo s.dev.time then s.dev.setFld (F.EVT_I_STAT_BLANK n) 0 else s.dev) } := rfl

/-! Records (R485). -/

/-- An open record whose FIFO has nothing due, and what its flush does. -/
theorem exec_stampFlushTimeout_open {e : EvStamp} {es : List EvStamp} (hd : s.dev.evDrain n s.dev.time = s.dev)
    (ho : (s.dev.evin n).opened = e :: es) : exec (.stampFlushTimeout n) s = .next { s with dev :=
      (if s.dev.rdN (Reg.EVT_I_FLUSH n) ≠ 0 ∧ timeLE (nsTime (s.dev.rdN (Reg.EVT_I_FLUSH n))) (s.dev.time - e.stamp) = true then
         (s.dev.setEvin n { s.dev.evin n with opened := [], recDead := e.dead, recOvf := e.ovf }).qOffer
           (s.dev.fld (F.EVT_I_QUEUE_QUEUE n)) (s.dev.stampRecord n e (e :: es)) 0x0D n
       else s.dev) } := by
  have close : s.dev.evClose n = (s.dev.setEvin n { s.dev.evin n with opened := [], recDead := e.dead, recOvf := e.ovf }).qOffer
      (s.dev.fld (F.EVT_I_QUEUE_QUEUE n)) (s.dev.stampRecord n e (e :: es)) 0x0D n := by
    rw [Device.evClose]
    split
    · next hx => rw [ho] at hx; cases hx
    · next e' es' hx =>
      have same : e' = e := (List.cons.inj (hx.symm.trans ho)).1
      rw [same, ho]
  show execStampFlushTimeout n s = _
  refine State.run_of_eq ?_
  simp only [hd, ho]
  rw [close]

theorem exec_stampFlushTimeout_closed (hd : s.dev.evDrain n s.dev.time = s.dev) (ho : (s.dev.evin n).opened = []) :
    exec (.stampFlushTimeout n) s = .next s := by
  show execStampFlushTimeout n s = _
  refine State.run_of_eq ?_
  simp only [hd, ho]

/-! ENABLE and DISABLE (R486). -/

theorem Device.evEnable_refused (h : d.evCode n ≠ cOK) :
    d.evEnable n o = (d.setFld (F.EVT_I_STAT_CODE n) (d.evCode n)).complete o (d.evCode n) none := if_neg h

theorem Device.evEnable_accepted (h : d.evCode n = cOK) : d.evEnable n o =
    ((d.setFld (F.EVT_I_STAT_CODE n) cOK).setEvin n { d.evin n with enabling := some o }).actBit o (F.EVT_I_CTL_ENABLE n) := by
  rw [← h]
  exact if_pos h

/-- An input whose ENABLE still waits takes it first. -/
def Device.evReady (d : Device) (n : Nat) : Device := match (d.evin n).enabling with | some w => d.evOn n w | none => d

theorem Device.evDisable_off (h : (d.evReady n).isSet (F.EVT_I_STAT_ENABLED n) = false) :
    d.evDisable n o = ((d.evReady n).setFld (F.EVT_I_STAT_CODE n) cOK).complete o cOK none :=
  congrArg (fun x : Device => (x.setFld (F.EVT_I_STAT_CODE n) cOK).complete o cOK none) (if_neg (Bool.eq_false_iff.mp h))

theorem Device.evDisable_on (h : (d.evReady n).isSet (F.EVT_I_STAT_ENABLED n) = true) : d.evDisable n o =
    ((((d.evReady n).evFlush n).setFld (F.EVT_I_STAT_ENABLED n) 0).setFld (F.EVT_I_STAT_CODE n) cOK).complete o cOK none :=
  congrArg (fun x : Device => (x.setFld (F.EVT_I_STAT_CODE n) cOK).complete o cOK none) (if_pos h)

theorem exec_evtICtlEnable (hn : n < 16) : exec (.evtICtlEnable n) s = .next { s with dev := s.dev.evEnable n .host } := by
  show execEvtICtlEnable n s = _
  exact State.run_of_eq (if_pos hn)

theorem exec_evtICtlDisable (hn : n < 16) : exec (.evtICtlDisable n) s = .next { s with dev := s.dev.evDisable n .host } := by
  show execEvtICtlDisable n s = _
  exact State.run_of_eq (if_pos hn)

theorem exec_evtDisable (hu : s.dev.comes 0x0D 2 16 u) :
    exec (.evtDisable u) s = .next { s with dev := (s.dev.accept u).evDisable u.unit u.origin } := by
  show execEvtDisable u s = _
  exact State.run_of_eq (Device.unitCmd_comes _ hu rfl)

/-- Whether an input is enabled, or is to be on the next TCLK edge. -/
abbrev Device.evIsOn (d : Device) (n : Nat) : Bool := d.isSet (F.EVT_I_STAT_ENABLED n) || (d.evin n).enabling.isSome

theorem exec_evtEnable_busy (hu : s.dev.comes 0x0D 1 16 u) (h : (s.dev.accept u).evIsOn u.unit = true) :
    exec (.evtEnable u) s = .next { s with dev := (s.dev.accept u).complete u.origin cBUSY none } := by
  show execEvtEnable u s = _
  exact State.run_of_eq ((Device.unitCmd_comes _ hu rfl).trans (if_pos (by simpa using h)))

theorem exec_evtEnable (hu : s.dev.comes 0x0D 1 16 u) (h : (s.dev.accept u).evIsOn u.unit = false) :
    exec (.evtEnable u) s = .next { s with dev :=
      (((s.dev.accept u).threshold u.unit (u.word 4)).wrBlock u [(Reg.EVT_I_CFG u.unit, 0), (Reg.EVT_I_OFS u.unit, 8),
        (Reg.EVT_I_QUEUE u.unit, 12), (Reg.EVT_I_FLUSH u.unit, 16)]).evEnable u.unit u.origin } := by
  show execEvtEnable u s = _
  exact State.run_of_eq ((Device.unitCmd_comes _ hu rfl).trans (if_neg (by simpa using h)))

theorem exec_evtEnable_noObject (ht : s.dev.takes 0x0D 1 u = true) (hn : 16 ≤ u.unit) :
    exec (.evtEnable u) s = .next { s with dev := (s.dev.accept u).complete u.origin cUNSUP none } := by
  show execEvtEnable u s = _
  exact State.run_of_eq (Device.unitCmd_noObject _ ht rfl hn)

theorem exec_evtDisable_noObject (ht : s.dev.takes 0x0D 2 u = true) (hn : 16 ≤ u.unit) :
    exec (.evtDisable u) s = .next { s with dev := (s.dev.accept u).complete u.origin cUNSUP none } := by
  show execEvtDisable u s = _
  exact State.run_of_eq (Device.unitCmd_noObject _ ht rfl hn)

/-- With no ENABLE waiting, a TCLK edge enables no input. -/
theorem Device.evOnAll_none (h : ∀ kv ∈ d.evins, kv.2.enabling = none) : d.evOnAll = d := by
  rw [Device.evOnAll]
  refine List.foldlRecOn (motive := fun e : Device => e = d) _ _ rfl fun e he kv hk => ?_
  simp only [h kv hk]
  exact he

end Sys2Proof.Machine
end

section
/-! PROOFS. Event inputs (R480 to R486). -/

namespace Sys2Proof.Machine

/-- Settles O48, clause by clause: edges, thresholds and blanking, records, ENABLE and DISABLE, and the edge that enables. -/
theorem eventInputCommands : Obligations.EventInputCommands := by
  intro s u n num den v rising d taken m takes t since blanked thr enables isOn disables
  refine ⟨fun h => .of_eq (exec_eventEdge_idle h) rfl, fun h he hs => ?_, fun h he => ?_, fun h he h1 h2 => ?_,
    fun hd h0 hm => Device.edgeStamp_whole hd h0 hm, fun hn hv => ?_, fun hn hv => ?_, fun h => ?_, fun h => ?_,
    fun hd ho => .of_eq (exec_stampFlushTimeout_closed hd ho) rfl, fun e es hd ho => ⟨fun hf ht => ?_, fun hf => ?_⟩,
    fun hn => ⟨?_, fun hy => ?_, fun hy => ?_⟩, fun hu => ⟨fun hy => ?_, fun hy => ?_⟩, fun hu h => .of_eq (exec_evtEnable_busy hu h) rfl,
    fun hu h => ?_, fun ht hm => .of_eq (exec_evtEnable_noObject ht hm) rfl, fun ht hm => .of_eq (exec_evtDisable_noObject ht hm) rfl,
    fun x => ⟨Device.evOnAll_none, fun y o hx hy => ?_⟩⟩
  · exact .of_eq (exec_eventEdge h (Device.inDead_early he hs)) rfl
  · exact .of_eq (exec_eventEdge h (he.elim Device.inDead_first Device.inDead_late)) rfl
  · refine .of_eq (exec_eventEdge h (Device.inDead_near he h1 h2)) ?_
    cases decide (d.draw.1 % 2 = 1) with
    | true => exact .inl rfl
    | false => exact .inr rfl
  · exact .of_eq (exec_thresholdWrite hn) ((d.threshold_eq n v).trans (if_neg (Nat.not_le.mpr hv)))
  · exact .of_eq (exec_thresholdWrite hn) ((d.threshold_eq n v).trans (if_pos hv))
  · exact .of_eq (exec_blankEnd n s) (if_pos h)
  · exact .of_eq (exec_blankEnd n s) (if_neg (Bool.eq_false_iff.mp h))
  · exact .of_eq (exec_stampFlushTimeout_open hd ho) (if_pos ⟨hf, ht⟩)
  · exact .of_eq (exec_stampFlushTimeout_open hd ho) (if_neg fun h => h.1 hf)
  · rintro c rfl
    exact ⟨fun hc => .of_eq (exec_evtICtlEnable hn) (Device.evEnable_refused hc),
      fun hc => .of_eq (exec_evtICtlEnable hn) ((Device.evEnable_accepted hc).trans (Device.actBit_host _ _))⟩
  · exact .of_eq (exec_evtICtlDisable hn) (Device.evDisable_off hy)
  · exact .of_eq (exec_evtICtlDisable hn) (Device.evDisable_on hy)
  · exact .of_eq (exec_evtDisable hu) (Device.evDisable_off hy)
  · exact .of_eq (exec_evtDisable hu) (Device.evDisable_on hy)
  · rintro c rfl
    have told := exec_evtEnable hu h
    rw [Device.threshold_eq] at told
    exact ⟨fun hc => .of_eq told (Device.evEnable_refused hc),
      fun hc => .of_eq told ((Device.evEnable_accepted hc).trans (Device.actBit_origin _ u _))⟩
  · rw [Device.evOnAll, hx]
    simp only [List.foldl_cons, List.foldl_nil, hy]
    rfl

end Sys2Proof.Machine
end


section
/-! SUPPORT. Commands on physical units: STEP, WITHDRAW and the on-demand self-test (R532, R534, R535). -/

namespace Sys2Proof.Machine

variable {d : Device} {s : State} {u : UCmd} {p x q v sig fails : Nat} {o : Origin}

/-! The state of a unit through the updates that write other registers. -/

theorem Device.puState_congr {y : Device} (h : y.rd (Reg.ROT_U_STAT p) = d.rd (Reg.ROT_U_STAT p)) : y.puState p = d.puState p :=
  Device.fld_congr h

theorem unitClass_le (p : Nat) : unitClass p ≤ 8 := by
  rw [unitClass]
  split_ifs <;> omega

theorem Device.uStat_mirrorState (d : Device) (_hp : p < 780) (st : Nat) : (d.mirrorState p st).rd (Reg.ROT_U_STAT q) = d.rd (Reg.ROT_U_STAT q) := by
  rw [Device.mirrorState]
  split
  · dsimp only
    split
    · rfl
    · exact d.rd_setFld_mk _ _ (by simp only [Reg.ROT_U_STAT, Reg.LNK_L_STAT]; omega)
  · dsimp only
    split
    · rfl
    · exact d.rd_setFld_mk _ _ (by simp only [Reg.ROT_U_STAT, Reg.EVT_I_STAT]; omega)
  · refine d.rd_setFld_other _ _ ?_
    split
    · simp only [F.CLK_STAT_A_ROT, Reg.ROT_U_STAT, Reg.CLK_STAT]; omega
    · simp only [F.CLK_STAT_B_ROT, Reg.ROT_U_STAT, Reg.CLK_STAT]; omega
  · rfl

theorem Device.uStat_rotShow (d : Device) {k : Nat} (_hk : k ≤ 8) : (d.rotShow k).rd (Reg.ROT_U_STAT q) = d.rd (Reg.ROT_U_STAT q) := by
  have other : Reg.ROT_U_STAT q ≠ Reg.ROT_K_STAT k := by simp only [Reg.ROT_U_STAT, Reg.ROT_K_STAT]; omega
  simp only [Device.rotShow, F.ROT_K_STAT_PAUSED, F.ROT_K_STAT_ACTIVE, F.ROT_K_STAT_EXHAUSTED, F.ROT_K_STAT_VACANT, F.ROT_K_STAT_WITHDRAWN,
    Device.rd_setFld_mk _ _ _ other]

theorem Device.uStat_exhaust (d : Device) (k g : Nat) : (d.exhaust k g).rd (Reg.ROT_U_STAT q) = d.rd (Reg.ROT_U_STAT q) := by
  rw [Device.exhaust]
  split
  · rfl
  · refine (Device.rd_flag_mk _ _ ?_ ?_).trans rfl
    · simp only [Reg.ROT_U_STAT, Reg.ROT_FLAGS]; omega
    · simp only [Reg.ROT_U_STAT, Reg.ROT_EXHAUST_CNT]; omega

/-- What a withdrawal shows beside the unit's state (R91, R486): its class's own registers. -/
def Device.withdrawShown (d : Device) (u : Nat) : Device :=
  match unitClass u with
  | 6 => (d.setFld (F.LNK_L_STAT_SAMPLERS ((u - 682) / 2)) 0).setFld (F.LNK_L_FLAGS_WITHDRAWN ((u - 682) / 2)) 1
  | 7 => d.setFld (F.EVT_I_STAT_LINES ((u - 746) / 2)) 0
  | 8 => d.setFld F.CLK_STAT_STANDBY_READY 0
  | _ => d

theorem Device.uStat_withdrawShown (d : Device) (_hp : p < 780) :
    (d.withdrawShown p).rd (Reg.ROT_U_STAT q) = d.rd (Reg.ROT_U_STAT q) := by
  rw [Device.withdrawShown]
  split
  · refine (Device.rd_setFld_mk _ _ _ ?_).trans (Device.rd_setFld_mk _ _ _ ?_)
    · simp only [Reg.ROT_U_STAT, Reg.LNK_L_FLAGS]; omega
    · simp only [Reg.ROT_U_STAT, Reg.LNK_L_STAT]; omega
  · exact Device.rd_setFld_mk _ _ _ (by simp only [Reg.ROT_U_STAT, Reg.EVT_I_STAT]; omega)
  · exact Device.rd_setFld_mk _ _ _ (by simp only [Reg.ROT_U_STAT, Reg.CLK_STAT]; omega)
  · rfl

/-- The part of a withdrawal that is the unit's own. -/
def Device.withdrawn (d : Device) (u cause : Nat) : Device :=
  ((((d.setUState u 5 0xFFF).setFld (F.ROT_U_STAT_CAUSE u) cause).setFld (F.ROT_U_STAT_SUSPECT u) 0).setUnitTest u {}).flag
    F.ROT_FLAGS_WITHDRAWN Reg.ROT_WITHDRAW_CNT

theorem Device.withdrawUnit_eq (d : Device) (u cause : Nat) : d.withdrawUnit u cause =
    (((d.withdrawn u cause).withdrawShown u).exhaust (unitClass u) (unitGroup u)).rotShow (unitClass u) := rfl

/-- The unit's other fields stand above its state. -/
theorem Device.puState_setFld_above (d : Device) {f : FieldAt} (v : Nat) (hw : f.f.lo + f.f.w ≤ 32) (hl : 3 ≤ f.f.lo) :
    (d.setFld f v).puState p = d.puState p := d.fld_setFld_disjoint f (F.ROT_U_STAT_STATE p) v hw (.inr hl)

theorem Device.rd_setUnitTest (d : Device) (u : Nat) (y : UnitTest) (a : Nat) : (d.setUnitTest u y).rd a = d.rd a := rfl

theorem Device.puState_setUState (d : Device) (hp : p < 780) (st role : Nat) : (d.setUState p st role).puState p = st % 8 := by
  rw [Device.setUState, Device.puState_congr (Device.uStat_mirrorState _ hp st),
    Device.puState_setFld_above _ _ (by simp [F.ROT_U_STAT_ROLE]) (by simp [F.ROT_U_STAT_ROLE])]
  exact Device.fld_setFld _ _ _ (by simp [F.ROT_U_STAT_STATE])

theorem Device.puState_withdrawn (d : Device) (hp : p < 780) (cause : Nat) : (d.withdrawn p cause).puState p = 5 := by
  rw [Device.withdrawn, Device.puState_congr (Device.rd_flag_other _ _ _ (by simp only [Reg.ROT_U_STAT, F.ROT_FLAGS_WITHDRAWN, Reg.ROT_FLAGS]; omega)
      (by simp only [Reg.ROT_U_STAT, Reg.ROT_WITHDRAW_CNT]; omega)), Device.puState_congr (Device.rd_setUnitTest _ _ _ _),
    Device.puState_setFld_above _ _ (by simp [F.ROT_U_STAT_SUSPECT]) (by simp [F.ROT_U_STAT_SUSPECT]),
    Device.puState_setFld_above _ _ (by simp [F.ROT_U_STAT_CAUSE]) (by simp [F.ROT_U_STAT_CAUSE]), Device.puState_setUState _ hp]

/-- A withdrawn unit is in WITHDRAWN. -/
theorem Device.puState_withdrawUnit (d : Device) (hp : p < 780) (cause : Nat) : (d.withdrawUnit p cause).puState p = 5 := by
  rw [Device.withdrawUnit_eq]
  exact (Device.puState_congr ((Device.uStat_rotShow _ (unitClass_le p)).trans ((Device.uStat_exhaust _ _ _).trans
    (Device.uStat_withdrawShown _ hp)))).trans (d.puState_withdrawn hp cause)

/-! What a withdrawal leaves of the rotation's state. -/

theorem Device.mirrorState_frame (d : Device) (u st : Nat) : d.OnlyRegs (d.mirrorState u st) := by
  rw [Device.mirrorState]
  split
  · exact (OnlyRegs.refl d).ite ((OnlyRegs.refl d).setFld _ _)
  · exact (OnlyRegs.refl d).ite ((OnlyRegs.refl d).setFld _ _)
  · exact (OnlyRegs.refl d).setFld _ _
  · exact OnlyRegs.refl d

theorem Device.withdrawShown_frame (d : Device) (u : Nat) : d.OnlyRegs (d.withdrawShown u) := by
  rw [Device.withdrawShown]
  split
  · exact ((OnlyRegs.refl d).setFld _ _).setFld _ _
  · exact (OnlyRegs.refl d).setFld _ _
  · exact (OnlyRegs.refl d).setFld _ _
  · exact OnlyRegs.refl d

theorem Device.rotShow_frame (d : Device) (k : Nat) : d.OnlyRegs (d.rotShow k) :=
  (((((OnlyRegs.refl d).setFld _ _).setFld _ _).setFld _ _).setFld _ _).setFld _ _

theorem Device.OnlyRegs.rot {y : Device} (h : d.OnlyRegs y) : y.rot = d.rot := by
  obtain ⟨_, rfl⟩ := h
  rfl

/-- Setting a unit's state also forgets what was seen in its last TEST when it enters one. -/
theorem Device.setUState_frame (d : Device) (u st role : Nat) : ∃ tests, Device.OnlyRegs { d with tests := tests } (d.setUState u st role) := by
  by_cases h : st = 3
  · refine ⟨Sparse.set (fun _ => {}) d.tests u {}, ?_⟩
    rw [Device.setUState, if_pos h]
    exact (((OnlyRegs.refl _).setFld _ _).setFld _ _).trans (Device.mirrorState_frame _ _ _)
  · refine ⟨d.tests, ?_⟩
    rw [Device.setUState, if_neg h]
    exact (((OnlyRegs.refl d).setFld _ _).setFld _ _).trans (Device.mirrorState_frame _ _ _)

theorem Device.rot_setUState (d : Device) (u st role : Nat) : (d.setUState u st role).rot = d.rot := by
  obtain ⟨_, h⟩ := d.setUState_frame u st role
  exact h.rot

theorem Device.rot_setUnitTest (d : Device) (u : Nat) (y : UnitTest) :
    (d.setUnitTest u y).rot = { d.rot with units := Sparse.set (fun _ => {}) d.rot.units u y } := rfl

theorem Device.rot_withdrawn (d : Device) (u cause : Nat) :
    (d.withdrawn u cause).rot = { d.rot with units := Sparse.set (fun _ => {}) d.rot.units u {} } := by
  rw [Device.withdrawn, ((OnlyRegs.refl _).flag _ _).rot, Device.rot_setUnitTest, (((OnlyRegs.refl _).setFld _ _).setFld _ _).rot,
    Device.rot_setUState]

theorem Device.rot_exhaust (d : Device) (k g : Nat) : ∃ l, (d.exhaust k g).rot = { d.rot with exhausted := l } := by
  rw [Device.exhaust]
  split
  · exact ⟨_, rfl⟩
  · exact ⟨_, ((OnlyRegs.refl _).flag _ _).rot⟩

/-- A withdrawal forgets the unit's test and may add its group to the exhausted ones. -/
theorem Device.rot_withdrawUnit (d : Device) (u cause : Nat) : ∃ l, (d.withdrawUnit u cause).rot =
    { d.rot with units := Sparse.set (fun _ => {}) d.rot.units u {}, exhausted := l } := by
  obtain ⟨l, h⟩ := ((d.withdrawn u cause).withdrawShown u).rot_exhaust (unitClass u) (unitGroup u)
  refine ⟨l, ?_⟩
  rw [Device.withdrawUnit_eq, (Device.rotShow_frame _ _).rot, h, (Device.withdrawShown_frame _ _).rot, Device.rot_withdrawn]

theorem Device.rotStepOf_withdrawUnit (d : Device) (u cause k : Nat) : (d.withdrawUnit u cause).rotStepOf k = d.rotStepOf k := by
  obtain ⟨l, h⟩ := d.rot_withdrawUnit u cause
  rw [Device.rotStepOf, h, Device.rotStepOf]

/-! The lowest of a list of codes. -/

theorem firstCode_eq_or_mem (l : List (Bool × Nat)) : firstCode l = cOK ∨ ∃ b, (b, firstCode l) ∈ l := by
  induction l with
  | nil => exact .inl rfl
  | cons a as ih =>
    obtain ⟨b, c⟩ := a
    have tail : firstCode as = cOK ∨ ∃ b', (b', firstCode as) ∈ (b, c) :: as := ih.imp id fun ⟨b', h⟩ => ⟨b', .tail _ h⟩
    rw [firstCode]
    split
    · split
      · exact .inr ⟨b, .head _⟩
      · next hb h =>
        rcases le_total c (firstCode as) with hle | hle
        · rw [min_eq_left hle]
          exact .inr ⟨b, .head _⟩
        · rw [min_eq_right hle]
          exact tail
    · exact tail

theorem firstCode_false (c : Nat) (cs : List (Bool × Nat)) : firstCode ((false, c) :: cs) = firstCode cs := rfl

/-- A failed check shows its code when the codes after it are no lower. -/
theorem firstCode_head {c : Nat} {cs : List (Bool × Nat)} (h : ∀ a ∈ cs, c ≤ a.2) : firstCode ((true, c) :: cs) = c := by
  rw [firstCode, if_pos rfl]
  rcases firstCode_eq_or_mem cs with h0 | ⟨b, hm⟩
  · exact if_pos h0
  · split
    · rfl
    · exact min_eq_left (h _ hm)

/-! STEP (R532). -/

/-- Whether STEP of a class finds it held up: a step runs, or its rotation does not. -/
abbrev Device.stepHeld (d : Device) (k : Nat) : Prop := d.rotStepOf k ≠ none ∨ d.rotOn k = false

/-- Whether a class's logic self-test refuses. -/
abbrev Device.bstRefuses (d : Device) (p : Nat) : Bool := decide (unitClass p ≤ 5) && !d.bstCond

theorem Device.rotBusy_eq_false {k : Nat} (h : d.rotStepOf k = none) : d.rotBusy k = false := by rw [Device.rotBusy, h]; rfl

theorem Device.stepHeld_iff (d : Device) (k : Nat) : d.stepHeld k ↔ (d.rotBusy k || !d.rotOn k) = true := by
  rw [Device.rotBusy, Bool.or_eq_true, Option.isSome_iff_ne_none, Bool.not_eq_true']

theorem Device.rotStepCmd_noUnit (h : 780 ≤ p) : d.rotStepCmd p x = (cUNSUP, d) := if_pos h

theorem Device.rotStepCmd_miss (h : p < 780) (hx : d.puState p ≠ x) : d.rotStepCmd p x = (cROLEMISS, d.rotMiss) :=
  (if_neg (Nat.not_le.mpr h)).trans (if_pos hx)

section
variable (h : p < 780) (hx : d.puState p = x)
include h hx

/-- STEP of a unit in the state that it names, by its four checks. -/
theorem Device.rotStepCmd_checked {b n c e : Bool} (hb : (d.rotBusy (unitClass p) || !d.rotOn (unitClass p)) = b)
    (hn : (d.spareChoice (unitClass p) (unitGroup p)).isNone = n) (hc : d.bstRefuses p = c) (he : decide (x = 2) = e) : d.rotStepCmd p x =
      (let r := firstCode [(b, cBUSY), (n, cNOSPARE), (c, cCONDITIONS), (e, cUNSUP)]
       if r = cOK then d.stepStart (unitClass p) (unitGroup p) none false
       else if r = cCONDITIONS then (r, d.flag F.ROT_FLAGS_PAUSED Reg.ROT_PAUSE_CNT) else (r, d)) := by
  subst hb hn hc he
  exact (if_neg (Nat.not_le.mpr h)).trans (if_neg (not_not_intro hx))

theorem Device.rotStepCmd_held (hb : d.stepHeld (unitClass p)) : d.rotStepCmd p x = (cBUSY, d) := by
  rw [Device.rotStepCmd_checked h hx ((d.stepHeld_iff _).mp hb) rfl rfl rfl, firstCode_head (by simp [cNOSPARE, cCONDITIONS, cUNSUP, cBUSY])]
  rfl

variable (hb : ¬d.stepHeld (unitClass p))
include hb

theorem Device.rotStepCmd_noSpare (hn : d.spareChoice (unitClass p) (unitGroup p) = none) : d.rotStepCmd p x = (cNOSPARE, d) := by
  rw [Device.rotStepCmd_checked h hx (Bool.eq_false_iff.mpr (mt (d.stepHeld_iff _).mpr hb)) (Option.isNone_iff_eq_none.mpr hn) rfl rfl]
  rw [firstCode_false, firstCode_head (by simp [cNOSPARE, cCONDITIONS, cUNSUP])]
  rfl

variable (hn : d.spareChoice (unitClass p) (unitGroup p) ≠ none)
include hn

theorem Device.rotStepCmd_spare {c e : Bool} (hc : d.bstRefuses p = c) (he : decide (x = 2) = e) : d.rotStepCmd p x =
      (let r := firstCode [(c, cCONDITIONS), (e, cUNSUP)]
       if r = cOK then d.stepStart (unitClass p) (unitGroup p) none false
       else if r = cCONDITIONS then (r, d.flag F.ROT_FLAGS_PAUSED Reg.ROT_PAUSE_CNT) else (r, d)) :=
  Device.rotStepCmd_checked h hx (Bool.eq_false_iff.mpr (mt (d.stepHeld_iff _).mpr hb)) (Option.isNone_eq_false_iff.mpr (Option.isSome_iff_ne_none.mpr hn)) hc he

theorem Device.rotStepCmd_conditions (hc : d.bstRefuses p = true) :
    d.rotStepCmd p x = (cCONDITIONS, d.flag F.ROT_FLAGS_PAUSED Reg.ROT_PAUSE_CNT) := by
  rw [Device.rotStepCmd_spare h hx hb hn hc rfl, firstCode_head (by simp [cCONDITIONS, cUNSUP])]
  rfl

variable (hc : d.bstRefuses p = false)
include hc

theorem Device.rotStepCmd_swap (he : x = 2) : d.rotStepCmd p x = (cUNSUP, d) :=
  Device.rotStepCmd_spare h hx hb hn hc (decide_eq_true he)

theorem Device.rotStepCmd_starts (he : x ≠ 2) : d.rotStepCmd p x = d.stepStart (unitClass p) (unitGroup p) none false :=
  Device.rotStepCmd_spare h hx hb hn hc (decide_eq_false he)

end

/-- A step starts when logic self-test may run, with the spare and the LIVE unit chosen. -/
theorem Device.stepStart_ok {k g a b : Nat} {w : Option Nat} {wd : Bool} (hc : 5 < k ∨ d.bstCond = true) (ha : d.spareChoice k g = some a)
    (hb : w = some b ∨ (w = none ∧ d.liveChoice k g = some b)) : d.stepStart k g w wd =
      (cOK, (d.setRotStep k (some { g := g, s := a, v := b, phase := 0, since := d.time, withdraw := wd })).rotShow k) := by
  have go : ¬(k ≤ 5 ∧ (!d.bstCond) = true) := by
    rintro ⟨hk, hd⟩
    rcases hc with hc | hc
    · omega
    · rw [hc] at hd
      cases hd
  refine (if_neg go).trans ?_
  rcases hb with rfl | ⟨rfl, hl⟩
  · rw [ha]
  · rw [ha, hl]

/-! WITHDRAW (R532). -/

theorem Device.rotWithdrawCmd_noUnit (h : 780 ≤ p) : d.rotWithdrawCmd p x = (cUNSUP, d) := if_pos h

theorem Device.rotWithdrawCmd_miss (h : p < 780) (hx : d.puState p ≠ x) : d.rotWithdrawCmd p x = (cROLEMISS, d.rotMiss) :=
  (if_neg (Nat.not_le.mpr h)).trans (if_pos hx)

theorem Device.abandon_none (h : d.rotStepOf (unitClass p) = none) : d.abandon p = d := by
  rw [Device.abandon, h]

theorem Device.abandon_own {z : RotStep} (h : d.rotStepOf (unitClass p) = some z) (hs : z.s = p) : d.abandon p = d.stepEnd (unitClass p) := by
  rw [Device.abandon, h]
  exact if_pos hs

section
variable (h : p < 780) (hx : d.puState p = x)
include h hx

theorem Device.rotWithdrawCmd_withdrawn (he : x = 5) : d.rotWithdrawCmd p x = (cOK, d) := by
  subst he
  exact (if_neg (Nat.not_le.mpr h)).trans (if_neg (not_not_intro hx))

theorem Device.rotWithdrawCmd_test (he : x = 3) : d.rotWithdrawCmd p x = (cOK, d.withdrawUnit p 3) := by
  subst he
  exact (if_neg (Nat.not_le.mpr h)).trans (if_neg (not_not_intro hx))

theorem Device.rotWithdrawCmd_swap (he : x = 2) : d.rotWithdrawCmd p x = (cUNSUP, d) := by
  subst he
  exact (if_neg (Nat.not_le.mpr h)).trans (if_neg (not_not_intro hx))

theorem Device.rotWithdrawCmd_spare (he : x < 2) : d.rotWithdrawCmd p x = (cOK, (d.withdrawUnit p 3).abandon p) := by
  refine ((if_neg (Nat.not_le.mpr h)).trans (if_neg (not_not_intro hx))).trans ?_
  match x, he with
  | 0, _ => rfl
  | 1, _ => rfl

/-- WITHDRAW of a LIVE unit, by its checks. -/
theorem Device.rotWithdrawCmd_live (he : x = 4) {b n : Bool} (hn : (d.spareChoice (unitClass p) (unitGroup p)).isSome = n)
    (hb : (d.rotBusy (unitClass p) || (n && !d.rotOn (unitClass p))) = b) : d.rotWithdrawCmd p x =
      (let c := firstCode [(b, cBUSY), (decide (unitClass p = 8) && !n, cUNSUP)]
       if c ≠ cOK then (c, d)
       else if n then d.stepStart (unitClass p) (unitGroup p) (some p) true
       else (cOK, { d with rot := { d.rot with vacate := d.rot.vacate ++ [(p, d.time)] } })) := by
  subst hn hb he
  exact (if_neg (Nat.not_le.mpr h)).trans (if_neg (not_not_intro hx))

theorem Device.rotWithdrawCmd_live_busy (he : x = 4) (hb : d.rotStepOf (unitClass p) ≠ none ∨
    (d.spareChoice (unitClass p) (unitGroup p) ≠ none ∧ d.rotOn (unitClass p) = false)) : d.rotWithdrawCmd p x = (cBUSY, d) := by
  have held : (d.rotBusy (unitClass p) || ((d.spareChoice (unitClass p) (unitGroup p)).isSome && !d.rotOn (unitClass p))) = true := by
    rw [Device.rotBusy, Bool.or_eq_true, Bool.and_eq_true, Option.isSome_iff_ne_none, Option.isSome_iff_ne_none, Bool.not_eq_true']
    exact hb
  rw [Device.rotWithdrawCmd_live h hx he rfl held, firstCode_head (by simp [cUNSUP, cBUSY])]
  rfl

variable (he : x = 4) (hr : d.rotStepOf (unitClass p) = none)
include he hr

theorem Device.rotWithdrawCmd_live_vacates (hn : d.spareChoice (unitClass p) (unitGroup p) = none) (hk : unitClass p ≠ 8) :
    d.rotWithdrawCmd p x = (cOK, { d with rot := { d.rot with vacate := d.rot.vacate ++ [(p, d.time)] } }) := by
  rw [Device.rotWithdrawCmd_live h hx he (b := false) (n := false) (by rw [hn]; rfl) (by rw [Device.rotBusy_eq_false hr]; rfl), decide_eq_false hk]
  rfl

theorem Device.rotWithdrawCmd_live_root (hn : d.spareChoice (unitClass p) (unitGroup p) = none) (hk : unitClass p = 8) :
    d.rotWithdrawCmd p x = (cUNSUP, d) := by
  rw [Device.rotWithdrawCmd_live h hx he (b := false) (n := false) (by rw [hn]; rfl) (by rw [Device.rotBusy_eq_false hr]; rfl), decide_eq_true hk]
  rfl

theorem Device.rotWithdrawCmd_live_steps {a : Nat} (hn : d.spareChoice (unitClass p) (unitGroup p) = some a) (hon : d.rotOn (unitClass p) = true) :
    d.rotWithdrawCmd p x = d.stepStart (unitClass p) (unitGroup p) (some p) true := by
  rw [Device.rotWithdrawCmd_live h hx he (b := false) (n := true) (by rw [hn]; rfl) (by rw [Device.rotBusy_eq_false hr, hon]; rfl)]
  simp [firstCode]

end

/-! The on-demand self-test (R535). -/

theorem Device.bstStart_noUnit (h : 780 ≤ p) : d.bstStart p x o = (cUNSUP, d) := if_pos h

theorem Device.bstStart_miss (h : p < 780) (hx : d.puState p ≠ x) : d.bstStart p x o = (cROLEMISS, d.rotMiss) :=
  (if_neg (Nat.not_le.mpr h)).trans (if_pos hx)

section
variable (h : p < 780) (hx : d.puState p = x)
include h hx

/-- A self-test of a unit in the state that it names, by its checks. -/
theorem Device.bstStart_checked {b c e : Bool} (hb : d.rot.bst.isSome = b) (hc : (logicClass (unitClass p) && !d.bstCond) = c)
    (he : (!logicClass (unitClass p) || !decide (x = 0 ∨ x = 5)) = e) : d.bstStart p x o =
      (let r := firstCode [(b, cBUSY), (c, cCONDITIONS), (e, cUNSUP)]
       if r = cOK then (r, Device.setFld { d with rot := { d.rot with bst := some (p, o, 0) } } F.BST_CMD_STAT_BUSY 1)
       else if r = cCONDITIONS then (r, d.flag F.BST_FLAGS_CONDITIONS Reg.BST_COND_CNT) else (r, d)) := by
  subst hb hc he
  exact (if_neg (Nat.not_le.mpr h)).trans (if_neg (not_not_intro hx))

theorem Device.bstStart_busy (hb : d.rot.bst ≠ none) : d.bstStart p x o = (cBUSY, d) := by
  rw [Device.bstStart_checked h hx (Option.isSome_iff_ne_none.mpr hb) rfl rfl, firstCode_head (by simp [cCONDITIONS, cUNSUP, cBUSY])]
  rfl

variable (hb : d.rot.bst = none)
include hb

theorem Device.bstStart_conditions (hk : unitClass p ≤ 5) (hc : d.bstCond = false) :
    d.bstStart p x o = (cCONDITIONS, d.flag F.BST_FLAGS_CONDITIONS Reg.BST_COND_CNT) := by
  rw [Device.bstStart_checked h hx (b := false) (c := true) (by rw [hb]; rfl) (by rw [logicClass, decide_eq_true hk, hc]; rfl) rfl]
  rw [firstCode_false, firstCode_head (by simp [cCONDITIONS, cUNSUP])]
  rfl

theorem Device.bstStart_noLogic (hk : 5 < unitClass p) : d.bstStart p x o = (cUNSUP, d) := by
  have logic : logicClass (unitClass p) = false := decide_eq_false (Nat.not_le.mpr hk)
  exact Device.bstStart_checked h hx (b := false) (c := false) (e := true) (by rw [hb]; rfl) (by rw [logic]; rfl) (by rw [logic]; rfl)

theorem Device.bstStart_runs (hk : unitClass p ≤ 5) (hc : d.bstCond = true) (he : x = 0 ∨ x = 5) :
    d.bstStart p x o = (cOK, Device.setFld { d with rot := { d.rot with bst := some (p, o, 0) } } F.BST_CMD_STAT_BUSY 1) := by
  have logic : logicClass (unitClass p) = true := decide_eq_true hk
  exact Device.bstStart_checked h hx (b := false) (c := false) (e := false) (by rw [hb]; rfl) (by rw [logic, hc]; rfl)
    (by rw [logic, decide_eq_true he]; rfl)

end

/-! The rows. -/

theorem exec_rotCmdStep (p x : Nat) (s : State) : exec (.rotCmdStep p x) s = .next { s with dev :=
    (((s.dev.rotWrote p x 1).rotStepCmd p x).2.setFld F.ROT_CMD_STAT_CODE ((s.dev.rotWrote p x 1).rotStepCmd p x).1) } := rfl

theorem exec_rotCmdWithdraw (p x : Nat) (s : State) : exec (.rotCmdWithdraw p x) s = .next { s with dev :=
    (((s.dev.rotWrote p x 2).rotWithdrawCmd p x).2.setFld F.ROT_CMD_STAT_CODE ((s.dev.rotWrote p x 2).rotWithdrawCmd p x).1) } := rfl

theorem exec_rotStep (hu : s.dev.comes 0x10 1 780 u) : exec (.rotStep u) s = .next { s with dev :=
    (((s.dev.accept u).rotStepCmd u.unit (u.imm % 8)).2.complete u.origin ((s.dev.accept u).rotStepCmd u.unit (u.imm % 8)).1 none) } := by
  show execRotStep u s = _
  exact State.run_of_eq (Device.unitCmd_comes _ hu rfl)

theorem exec_rotWithdraw (hu : s.dev.comes 0x10 2 780 u) : exec (.rotWithdraw u) s = .next { s with dev :=
    (((s.dev.accept u).rotWithdrawCmd u.unit (u.imm % 8)).2.complete u.origin ((s.dev.accept u).rotWithdrawCmd u.unit (u.imm % 8)).1 none) } := by
  show execRotWithdraw u s = _
  exact State.run_of_eq (Device.unitCmd_comes _ hu rfl)

theorem exec_rotStep_noObject (ht : s.dev.takes 0x10 1 u = true) (hn : 780 ≤ u.unit) :
    exec (.rotStep u) s = .next { s with dev := (s.dev.accept u).complete u.origin cUNSUP none } := by
  show execRotStep u s = _
  exact State.run_of_eq (Device.unitCmd_noObject _ ht rfl hn)

theorem exec_rotWithdraw_noObject (ht : s.dev.takes 0x10 2 u = true) (hn : 780 ≤ u.unit) :
    exec (.rotWithdraw u) s = .next { s with dev := (s.dev.accept u).complete u.origin cUNSUP none } := by
  show execRotWithdraw u s = _
  exact State.run_of_eq (Device.unitCmd_noObject _ ht rfl hn)

theorem exec_bstRun_noObject (ht : s.dev.takes 0x11 1 u = true) (hn : 780 ≤ u.unit) :
    exec (.bstRun u) s = .next { s with dev := (s.dev.accept u).complete u.origin cUNSUP none } := by
  show execBstRun u s = _
  exact State.run_of_eq (Device.unitCmd_noObject _ ht rfl hn)

/-- What the host is shown of its self-test: the code, and GO while an accepted one runs. -/
def Device.bstToldHost (c : Nat) (y : Device) : Device :=
  if c = cOK then (y.setFld F.BST_CMD_STAT_CODE c).setFld F.BST_CMD_GO 1 else y.setFld F.BST_CMD_STAT_CODE c

theorem exec_bstCmdGo (p x : Nat) (s : State) : exec (.bstCmdGo p x) s = .next { s with dev :=
    (Device.bstToldHost ((s.dev.bstWrote p x).bstStart p x .host).1 ((s.dev.bstWrote p x).bstStart p x .host).2) } := rfl

theorem exec_bstRun (hu : s.dev.comes 0x11 1 780 u) {c : Nat} {y : Device} (h : (s.dev.accept u).bstStart u.unit (u.imm % 8) u.origin = (c, y)) :
    exec (.bstRun u) s = .next { s with dev := (if c = cOK then y else y.complete u.origin c none) } := by
  show execBstRun u s = _
  refine State.run_of_eq ((Device.unitCmd_comes _ hu rfl).trans ?_)
  simp only [h]

/-! The end of an on-demand run (R534, R535). -/

/-- The signature of a run, recorded, and counted when it differs. -/
def Device.bstSigned (d : Device) (sig : Nat) (pass : Bool) : Device :=
  let y := (d.wr64 Reg.BST_SIG_LO (sig % 2 ^ 64)).flag F.BST_FLAGS_RUN Reg.BST_RUN_CNT
  if pass then y else y.flag F.BST_FLAGS_FAIL Reg.BST_FAIL_CNT

/-- The result of a run, shown to its requester. -/
def Device.bstTold (d : Device) (o : Origin) (pass : Bool) : Device :=
  let p := if pass then 1 else 0
  let y := ((d.setFld F.BST_CMD_STAT_BUSY 0).setFld F.BST_CMD_STAT_PASS p).setFld F.BST_CMD_STAT_CODE cOK
  match o with
  | .host => y.setFld F.BST_CMD_GO 0
  | _ => y.complete o cOK (some (BitVec.ofNat 64 p))

theorem exec_bstRunDone_none (sig : Nat) (h : s.dev.rot.bst = none) : exec (.bstRunDone sig) s = .next s := by
  show execBstRunDone sig s = _
  refine State.run_of_eq ?_
  rw [h]

/-- The end of a run: a READY unit that fails runs once more, and is withdrawn when it fails again. -/
def Device.bstDone (d : Device) (p : Nat) (o : Origin) (fails sig : Nat) (pass : Bool) : Device :=
  let y := d.bstSigned sig pass
  if (!pass) = true ∧ y.puState p = 0 ∧ fails = 0 then { y with rot := { y.rot with bst := some (p, o, 1) } }
  else
    let z : Device := { y with rot := { y.rot with bst := none } }
    (if (!pass) = true ∧ z.puState p = 0 then z.withdrawUnit p 1 else z).bstTold o pass

theorem exec_bstRunDone (h : s.dev.rot.bst = some (p, o, fails)) {pass : Bool}
    (hs : decide (sig % 2 ^ 64 = Config.goldenSig (unitClass p) % 2 ^ 64) = pass) :
    exec (.bstRunDone sig) s = .next { s with dev := s.dev.bstDone p o fails sig pass } := by
  subst hs
  show execBstRunDone sig s = _
  refine State.run_of_eq ?_
  simp only [h]
  rfl

theorem Device.bstSigned_frame (d : Device) (sig : Nat) (pass : Bool) : d.OnlyRegs (d.bstSigned sig pass) := by
  cases pass with
  | true => exact ((OnlyRegs.refl d).wr64 _ _).flag _ _
  | false => exact (((OnlyRegs.refl d).wr64 _ _).flag _ _).flag _ _

section
variable (d) (sig : Nat) (pass : Bool)

theorem Device.sig_bstSigned : (d.bstSigned sig pass).rd64 Reg.BST_SIG_LO = sig % 2 ^ 64 := by
  rw [← d.rd64_wr64 Reg.BST_SIG_LO (Nat.mod_lt sig (by decide))]
  have other : ∀ (y : Device) (f : FieldAt) (cnt a : Nat), a = Reg.BST_SIG_LO ∨ a = Reg.BST_SIG_LO + 4 → f.addr = Reg.BST_FLAGS → 0xD80020 ≤ cnt →
      cnt < 0xD80028 → (y.flag f cnt).rd a = y.rd a := fun y f cnt a ha hf h1 h2 =>
    y.rd_flag_other f cnt (by simp only [hf, Reg.BST_SIG_LO, Reg.BST_FLAGS] at *; omega) (by simp only [Reg.BST_SIG_LO] at *; omega)
  cases pass with
  | true => exact Device.rd64_congr (other _ _ _ _ (.inl rfl) rfl (by decide) (by decide)) (other _ _ _ _ (.inr rfl) rfl (by decide) (by decide))
  | false =>
    exact Device.rd64_congr
      ((other _ _ _ _ (.inl rfl) rfl (by decide) (by decide)).trans (other _ _ _ _ (.inl rfl) rfl (by decide) (by decide)))
      ((other _ _ _ _ (.inr rfl) rfl (by decide) (by decide)).trans (other _ _ _ _ (.inr rfl) rfl (by decide) (by decide)))

theorem Device.failCnt_bstSigned : (d.bstSigned sig false).rdN Reg.BST_FAIL_CNT = min (d.rdN Reg.BST_FAIL_CNT + 1) 0xFFFFFFFF := by
  have before : ((d.wr64 Reg.BST_SIG_LO (sig % 2 ^ 64)).flag F.BST_FLAGS_RUN Reg.BST_RUN_CNT).rdN Reg.BST_FAIL_CNT = d.rdN Reg.BST_FAIL_CNT :=
    Device.rdN_congr ((Device.rd_flag_other _ _ _ (by decide) (by decide)).trans (d.rd_wr64_other _ (by decide) (by decide)))
  rw [← before]
  exact Device.rdN_flag _ (by decide)

theorem Device.puState_bstSigned {p : Nat} (_hp : p < 780) : (d.bstSigned sig pass).puState p = d.puState p := by
  have below : ∀ a, 0xD80000 ≤ a → Reg.ROT_U_STAT p ≠ a := fun a ha => by simp only [Reg.ROT_U_STAT]; omega
  have run : ((d.wr64 Reg.BST_SIG_LO (sig % 2 ^ 64)).flag F.BST_FLAGS_RUN Reg.BST_RUN_CNT).rd (Reg.ROT_U_STAT p) = d.rd (Reg.ROT_U_STAT p) :=
    (Device.rd_flag_other _ _ _ (below _ (by decide)) (below _ (by decide))).trans (d.rd_wr64_other _ (below _ (by decide)) (below _ (by decide)))
  refine Device.puState_congr ?_
  cases pass with
  | true => exact run
  | false => exact (Device.rd_flag_other _ _ _ (below _ (by decide)) (below _ (by decide))).trans run

end

/-- The device once a run's signature is in and the run is as given. -/
def Device.bstRan (d : Device) (sig : Nat) (pass : Bool) (run : Option (Nat × Origin × Nat)) : Device :=
  { d.bstSigned sig pass with rot := { (d.bstSigned sig pass).rot with bst := run } }

theorem Device.bstRan_frame (d : Device) (sig : Nat) (pass : Bool) (run : Option (Nat × Origin × Nat)) :
    d.bstRan sig pass run = { d with regs := (d.bstRan sig pass run).regs, rot := { d.rot with bst := run } } := by
  obtain ⟨regs, e⟩ := d.bstSigned_frame sig pass
  rw [Device.bstRan, e]

theorem Device.rd_bstRan (d : Device) (sig : Nat) (pass : Bool) (run : Option (Nat × Origin × Nat)) (a : Nat) :
    (d.bstRan sig pass run).rd a = (d.bstSigned sig pass).rd a := rfl

theorem Device.sig_bstRan (d : Device) (sig : Nat) (pass : Bool) (run : Option (Nat × Origin × Nat)) :
    (d.bstRan sig pass run).rd64 Reg.BST_SIG_LO = sig % 2 ^ 64 :=
  (Device.rd64_congr (d.rd_bstRan sig pass run _) (d.rd_bstRan sig pass run _)).trans (d.sig_bstSigned sig pass)

theorem Device.bstDone_again (hp : p < 780) (h0 : d.puState p = 0) : d.bstDone p o 0 sig false = d.bstRan sig false (some (p, o, 1)) :=
  if_pos ⟨rfl, (d.puState_bstSigned sig false hp).trans h0, rfl⟩

theorem Device.puState_bstRan (d : Device) (sig : Nat) (pass : Bool) (run : Option (Nat × Origin × Nat)) (hp : p < 780) :
    (d.bstRan sig pass run).puState p = d.puState p :=
  (Device.puState_congr (d.rd_bstRan sig pass run _)).trans (d.puState_bstSigned sig pass hp)

/-- A run of a unit that passed, or that is not READY, ends. -/
theorem Device.bstDone_ends {pass : Bool} (hp : p < 780) (h : ¬((!pass) = true ∧ d.puState p = 0)) :
    d.bstDone p o fails sig pass = (d.bstRan sig pass none).bstTold o pass := by
  refine (if_neg ?_).trans (congrArg (fun z : Device => z.bstTold o pass) (if_neg ?_))
  · rw [d.puState_bstSigned sig pass hp]
    exact fun hc => h ⟨hc.1, hc.2.1⟩
  · exact fun hc => h ⟨hc.1, (d.puState_bstRan sig pass none hp).symm.trans hc.2⟩

theorem Device.bstDone_withdraws (hp : p < 780) (h0 : d.puState p = 0) (hf : fails ≠ 0) :
    d.bstDone p o fails sig false = ((d.bstRan sig false none).withdrawUnit p 1).bstTold o false :=
  (if_neg fun hc => hf hc.2.2).trans (congrArg (fun z : Device => z.bstTold o false) (if_pos ⟨rfl, (d.puState_bstRan sig false none hp).trans h0⟩))

/-- What BST_CMD_STAT shows of a run that has ended. -/
def Device.bstShown (d : Device) (pass : Bool) : Device :=
  ((d.setFld F.BST_CMD_STAT_BUSY 0).setFld F.BST_CMD_STAT_PASS (if pass then 1 else 0)).setFld F.BST_CMD_STAT_CODE cOK

/-- The told device: the host's GO clears, and the requester gets the code and whether the run passed. -/
theorem Device.bstTold_eq (d : Device) (o : Origin) (pass : Bool) : d.bstTold o pass =
    ((if o = .host then (d.bstShown pass).setFld F.BST_CMD_GO 0 else d.bstShown pass).complete o cOK (some (if pass then 1 else 0))) := by
  have stamp : (some (BitVec.ofNat 64 (if pass then 1 else 0)) : Option Time) = some (if pass then 1 else 0) := by cases pass with
    | true => rfl
    | false => rfl
  rw [← stamp]
  cases o with
  | host => rfl
  | device => rfl
  | port e k => rfl

theorem Device.bstShown_frame (d : Device) (pass : Bool) : d.OnlyRegs (d.bstShown pass) :=
  (((OnlyRegs.refl d).setFld _ _).setFld _ _).setFld _ _

theorem Device.bstTold_frame (d : Device) (o : Origin) (pass : Bool) : d.bstTold o pass =
    { d with regs := (d.bstTold o pass).regs, completions := d.completions ++ o.told cOK (some (if pass then 1 else 0)) } := by
  have shown : d.OnlyRegs (if o = .host then (d.bstShown pass).setFld F.BST_CMD_GO 0 else d.bstShown pass) :=
    ((d.bstShown_frame pass).setFld _ _).ite (d.bstShown_frame pass)
  obtain ⟨regs, e⟩ := shown
  rw [Device.bstTold_eq, e, Device.complete_frame, Device.completions_complete]

theorem Device.rd_bstTold (d : Device) (o : Origin) (pass : Bool) {a : Nat} (h : a ≠ Reg.BST_CMD) : (d.bstTold o pass).rd a = (d.bstShown pass).rd a := by
  rw [Device.bstTold_eq, Device.rd_complete]
  split
  · exact Device.rd_setFld_mk _ _ _ h
  · rfl

theorem Device.rd_bstTold_other (d : Device) (o : Origin) (pass : Bool) {a : Nat} (h : a ≠ Reg.BST_CMD) (h' : a ≠ Reg.BST_CMD_STAT) :
    (d.bstTold o pass).rd a = d.rd a := by
  rw [Device.rd_bstTold d o pass h]
  exact (Device.rd_setFld_mk _ _ _ h').trans ((Device.rd_setFld_mk _ _ _ h').trans (Device.rd_setFld_mk _ _ _ h'))

theorem Device.shown_bstTold (d : Device) (o : Origin) (pass : Bool) : (d.bstTold o pass).fld F.BST_CMD_STAT_PASS = (if pass then 1 else 0) ∧
    (d.bstTold o pass).fld F.BST_CMD_STAT_BUSY = 0 ∧ (d.bstTold o pass).fld F.BST_CMD_STAT_CODE = cOK := by
  have told : ∀ f : FieldAt, f.addr ≠ Reg.BST_CMD → (d.bstTold o pass).fld f = (d.bstShown pass).fld f := fun f h =>
    Device.fld_congr (d.rd_bstTold o pass h)
  refine ⟨(told _ (by decide)).trans ?_, (told _ (by decide)).trans ?_, (told _ (by decide)).trans ?_⟩
  · refine (Device.fld_setFld_disjoint _ _ _ _ (by decide) (by decide)).trans ((Device.fld_setFld _ _ _ (by decide)).trans ?_)
    cases pass with
    | true => rfl
    | false => rfl
  · exact (Device.fld_setFld_disjoint _ _ _ _ (by decide) (by decide)).trans
      ((Device.fld_setFld_disjoint _ _ _ _ (by decide) (by decide)).trans (Device.fld_setFld _ _ _ (by decide)))
  · exact Device.fld_setFld _ _ _ (by decide)

theorem Device.go_bstTold (d : Device) (pass : Bool) : (d.bstTold .host pass).fld F.BST_CMD_GO = 0 :=
  Device.fld_setFld _ _ _ (by decide)

end Sys2Proof.Machine
end

section
/-! PROOFS. Commands on physical units (R532, R534, R535). -/

namespace Sys2Proof.Machine

/-- Settles O52, clause by clause: STEP and WITHDRAW by their checks, the self-test by its checks, and the end of its run. -/
theorem physicalUnitCommands : Obligations.PhysicalUnitCommands := by
  intro s u p x sig fails o d taken asHost wrote asEng miss refused steps withdraws selfTests v past
  have stepped : ∀ (i : Instr) (d : Device) p x (fin : Nat → Device → Device),
      exec i s = .next { s with dev := fin (d.rotStepCmd p x).1 (d.rotStepCmd p x).2 } → refused i d p x fin ∧ steps i d p x fin := by
    intro i d p x fin told
    refine ⟨⟨fun h => .of_eq told (by rw [Device.rotStepCmd_noUnit h]), fun h hx => .of_eq told (by rw [Device.rotStepCmd_miss h hx]; rfl)⟩,
      fun h hx => ⟨fun hb => .of_eq told (by rw [Device.rotStepCmd_held h hx hb]), fun hb hn => .of_eq told ?_, fun hb hn hc => .of_eq told ?_,
        fun hb hn hc he => .of_eq told ?_, fun a b hb ha hc he hl => .of_eq told ?_⟩⟩
    · rw [Device.rotStepCmd_noSpare h hx hb hn]
    · rw [Device.rotStepCmd_conditions h hx hb hn hc]
    · rw [Device.rotStepCmd_swap h hx hb hn hc he]
    · have may : 5 < unitClass p ∨ d.bstCond = true := by
        rcases (Bool.and_eq_false_iff.mp hc) with h | h
        · exact .inl (Nat.not_le.mp (of_decide_eq_false h))
        · exact .inr (by simpa using h)
      rw [Device.rotStepCmd_starts h hx hb (by rw [ha]; exact Option.some_ne_none a) hc he, Device.stepStart_ok may ha (.inr ⟨rfl, hl⟩)]
  have withdrew : ∀ (i : Instr) (d : Device) p x (fin : Nat → Device → Device),
      exec i s = .next { s with dev := fin (d.rotWithdrawCmd p x).1 (d.rotWithdrawCmd p x).2 } → refused i d p x fin ∧ withdraws i d p x fin := by
    intro i d p x fin told
    refine ⟨⟨fun h => .of_eq told (by rw [Device.rotWithdrawCmd_noUnit h]), fun h hx => .of_eq told (by rw [Device.rotWithdrawCmd_miss h hx]; rfl)⟩,
      fun h hx => ⟨fun he => .of_eq told (by rw [Device.rotWithdrawCmd_withdrawn h hx he]),
        fun he => .of_eq told (by rw [Device.rotWithdrawCmd_test h hx he]), fun he hr => .of_eq told ?_,
        fun he hb => .of_eq told (by rw [Device.rotWithdrawCmd_live_busy h hx he hb]),
        fun he => .of_eq told (by rw [Device.rotWithdrawCmd_swap h hx he]), fun z he hr hz => .of_eq told ?_,
        fun he hr hn hk => .of_eq told (by rw [Device.rotWithdrawCmd_live_vacates h hx he hr hn hk]),
        fun he hr hn hk => .of_eq told (by rw [Device.rotWithdrawCmd_live_root h hx he hr hn hk]),
        fun a he hr ha hon may => .of_eq told ?_⟩⟩
    · rw [Device.rotWithdrawCmd_spare h hx he, Device.abandon_none ((d.rotStepOf_withdrawUnit p 3 _).trans hr)]
    · rw [Device.rotWithdrawCmd_spare h hx he, Device.abandon_own ((d.rotStepOf_withdrawUnit p 3 _).trans hr) hz]
    · rw [Device.rotWithdrawCmd_live_steps h hx he hr ha hon, Device.stepStart_ok may ha (.inl rfl)]
  have tested : ∀ (i : Instr) (d : Device) p x o (fin : Nat → Device → Device),
      exec i s = .next { s with dev := fin (d.bstStart p x o).1 (d.bstStart p x o).2 } → selfTests i d p x o fin := by
    intro i d p x o fin told
    exact ⟨⟨fun h => .of_eq told (by rw [Device.bstStart_noUnit h]), fun h hx => .of_eq told (by rw [Device.bstStart_miss h hx]; rfl)⟩,
      fun h hx => ⟨fun hb => .of_eq told (by rw [Device.bstStart_busy h hx hb]),
        fun hb hk hc _ => .of_eq told (by rw [Device.bstStart_conditions h hx hb hk hc]),
        fun hb hk => .of_eq told (by rw [Device.bstStart_noLogic h hx hb hk]),
        fun hb hk hc he => .of_eq told (by rw [Device.bstStart_runs h hx hb hk hc he])⟩⟩
  refine ⟨(stepped _ _ _ _ _ (exec_rotCmdStep p x s)).1, (withdrew _ _ _ _ _ (exec_rotCmdWithdraw p x s)).1,
    fun hu => stepped _ _ _ _ asEng (exec_rotStep hu), fun hu => withdrew _ _ _ _ asEng (exec_rotWithdraw hu),
    fun ht hn => .of_eq (exec_rotStep_noObject ht hn) rfl, fun ht hn => .of_eq (exec_rotWithdraw_noObject ht hn) rfl,
    fun ht hn => .of_eq (exec_bstRun_noObject ht hn) rfl, (stepped _ _ _ _ asHost (exec_rotCmdStep p x s)).2,
    (withdrew _ _ _ _ asHost (exec_rotCmdWithdraw p x s)).2, tested _ _ _ _ _ Device.bstToldHost (exec_bstCmdGo p x s),
    fun hu => tested _ _ _ _ _ (fun c y => if c = cOK then y else y.complete u.origin c none) (exec_bstRun hu rfl),
    fun h => .of_eq (exec_bstRunDone_none sig h) rfl, fun ok hp hb hs => ⟨fun hok h0 hf => ?_, fun hend => ?_, fun hok h0 hf => ?_⟩⟩
  · subst hok hf
    refine .of_eq (exec_bstRunDone hb hs.symm) ?_
    rw [Device.bstDone_again hp h0]
    refine ⟨rfl, d.sig_bstRan sig false _, (Device.rdN_congr (d.rd_bstRan _ _ _ _)).trans (d.failCnt_bstSigned sig), d.bstRan_frame _ _ _⟩
  · have last : ¬((!ok) = true ∧ d.puState p = 0) := by
      rintro ⟨hk, h0⟩
      rcases hend with rfl | h5
      · cases hk
      · rw [h0] at h5
        cases h5
    refine .of_eq (exec_bstRunDone hb hs.symm) ?_
    rw [Device.bstDone_ends hp last]
    obtain ⟨pass, busy, code⟩ := (d.bstRan sig ok none).shown_bstTold o ok
    have frame := (d.bstRan sig ok none).bstTold_frame o ok
    have ran := d.bstRan_frame sig ok none
    refine ⟨?_, ?_, pass, busy, code, ?_, ?_, ?_⟩
    · rw [frame, ran]
    · exact (Device.rd64_congr (Device.rd_bstTold_other _ _ _ (by decide) (by decide)) (Device.rd_bstTold_other _ _ _ (by decide) (by decide))).trans
        (d.sig_bstRan sig ok none)
    · rintro rfl
      exact Device.go_bstTold _ _
    · rw [frame, ran]
      cases o with
      | host => rfl
      | device => rfl
      | port e k => rfl
    · rw [frame, ran]
  · subst hok
    refine .of_eq (exec_bstRunDone hb hs.symm) ?_
    rw [Device.bstDone_withdraws hp h0 hf]
    obtain ⟨pass, -, code⟩ := ((d.bstRan sig false none).withdrawUnit p 1).shown_bstTold o false
    refine ⟨?_, ?_, pass, code⟩
    · refine (Device.puState_congr (Device.rd_bstTold_other _ _ _ ?_ ?_)).trans (Device.puState_withdrawUnit _ hp 1)
      · simp only [Reg.ROT_U_STAT, Reg.BST_CMD]; omega
      · simp only [Reg.ROT_U_STAT, Reg.BST_CMD_STAT]; omega
    · obtain ⟨l, h⟩ := (d.bstRan sig false none).rot_withdrawUnit p 1
      rw [Device.bstTold_frame, h]
      rfl

end Sys2Proof.Machine
end


section
/-! SUPPORT. Requests of the monitor converters (R503 to R506). -/

namespace Sys2Proof.Machine

variable {d : Device} {s : State} {u : UCmd} {m : Nat} {t : Time} {o : Origin}

/-- A code shown for a converter and given to the requester. -/
abbrev Device.monShown (d : Device) (m c : Nat) (o : Origin) : Device := (d.setFld (F.MON_M_STAT_CODE m) c).complete o c none

theorem Device.mon_setMon (d : Device) (m : Nat) (x : Mon) : (d.setMon m x).mon m = x := Sparse.get_set_same _ _ _ _

/-! A record offered to a queue leaves the registers above the queues' (R363, R364). -/

theorem Device.fld_qOffer_above (d : Device) {q : Nat} (bs : List Byte) (cls unit : Nat) {x : FieldAt} (hq : q < 4096) (hx : 0x750000 ≤ x.addr) :
    (d.qOffer q bs cls unit).fld x = d.fld x := by
  have flagged : ∀ (y : Device) (f : FieldAt) (cnt : Nat), f.addr < 0x750000 → cnt < 0x750000 → (y.flag f cnt).fld x = y.fld x := fun y f cnt hf hc =>
    Device.fld_congr (y.rd_flag_other f cnt (by omega) (by omega))
  rw [Device.qOffer]
  dsimp only
  split
  · exact flagged _ _ _ (by decide) (by decide)
  · split
    · refine d.fld_qAccept bs _ cls unit ?_ ?_ ?_
      · simp only [Reg.QUE_Q_SEQ]; omega
      · simp only [Reg.QUE_Q_PUSHED_LO]; omega
      · simp only [Reg.QUE_Q_PUSHED_LO]; omega
    · refine (flagged _ _ _ (by decide) (by decide)).trans ((Device.fld_congr (Device.rd_inc_other _ ?_)).trans rfl)
      simp only [Reg.QUE_Q_DROP]; omega

/-- Closing an open record empties it, and offers it to the converter's queue when it holds an item. -/
theorem Device.monClose_offers (d : Device) (m : Nat) (inj : Bool) : ∃ x, d.monClose m inj = d.setMon m x ∨
    ∃ bs, d.monClose m inj = (d.setMon m x).qOffer ((d.setMon m x).fld (F.MON_M_QUEUE_QUEUE m)) bs 0x0E m := by
  refine ⟨if inj then { d.mon m with injItems := [] } else { d.mon m with items := [] }, ?_⟩
  by_cases h : (if inj then (d.mon m).injItems else (d.mon m).items).isEmpty
  · exact .inl (if_pos h)
  · exact .inr ⟨_, if_neg h⟩

theorem Device.fld_monClose (d : Device) (m : Nat) (inj : Bool) {x : FieldAt} (hx : 0x750000 ≤ x.addr) : (d.monClose m inj).fld x = d.fld x := by
  obtain ⟨y, h | ⟨bs, h⟩⟩ := d.monClose_offers m inj
  · rw [h]
    rfl
  · rw [h]
    exact Device.fld_qOffer_above _ _ _ _ ((d.setMon m y).fld_lt (F.MON_M_QUEUE_QUEUE m)) hx

/-! START and STOP (R503). -/

theorem Device.monStart_refused (h : d.monStartCode m ≠ cOK) : d.monStart m t o = d.monShown m (d.monStartCode m) o := if_pos h

theorem Device.monStart_accepted (h : d.monStartCode m = cOK) : d.monStart m t o =
    (((d.setFld (F.MON_M_STAT_CODE m) cOK).request .monStart m t o []).setFld (F.MON_M_STAT_STATE m) 1).actBit o (F.MON_M_CTL_START m) := by
  rw [← Device.match_host_eq_actBit, ← h]
  exact if_neg (not_not_intro h)

/-- A start that awaits its boundary is cancelled. -/
def Device.monCancelled (d : Device) (m : Nat) : Device :=
  match d.breqs.find? (fun r => decide (r.kind = .monStart) && decide (r.obj = m)) with
  | some r => (d.dropReq .monStart m).finish r.origin (F.MON_M_CTL_START m) (F.MON_M_STAT_CODE m) cNOTARMED none
  | none => d

/-- A stopped converter: its open record is closed, and its sequence ends. -/
def Device.monHalted (d : Device) (m : Nat) : Device :=
  let y := (d.monClose m false).setFld (F.MON_M_STAT_STATE m) 0
  y.setMon m { y.mon m with active := false }

theorem Device.injPending_monCancelled (d : Device) (m : Nat) :
    (d.monCancelled m).isSet (F.MON_M_STAT_INJ_PENDING m) = d.isSet (F.MON_M_STAT_INJ_PENDING m) := by
  rw [Device.monCancelled]
  split
  · rw [Device.finish, Device.isSet_complete, Device.isSet, Device.fld_setFld_disjoint _ _ _ _ (by simp [F.MON_M_STAT_CODE]) (by simp [F.MON_M_STAT_CODE, F.MON_M_STAT_INJ_PENDING]),
      Device.fld_setFld_other _ _ _ _ (by simp [F.MON_M_CTL_START, F.MON_M_STAT_INJ_PENDING, Reg.MON_M_STAT, Reg.MON_M_CTL])]
    rfl
  · rfl

theorem Device.isSet_setMon (d : Device) (m : Nat) (x : Mon) (f : FieldAt) : (d.setMon m x).isSet f = d.isSet f := rfl

theorem Device.injPending_monHalted (d : Device) (m : Nat) :
    (d.monHalted m).isSet (F.MON_M_STAT_INJ_PENDING m) = d.isSet (F.MON_M_STAT_INJ_PENDING m) := by
  rw [Device.monHalted, Device.isSet_setMon, Device.isSet, Device.fld_setFld_disjoint _ _ _ _ (by simp [F.MON_M_STAT_STATE])
    (by simp [F.MON_M_STAT_STATE, F.MON_M_STAT_INJ_PENDING]), Device.fld_monClose _ _ _ (by simp only [F.MON_M_STAT_INJ_PENDING, Reg.MON_M_STAT]; omega),
    Device.isSet]

/-- STOP: an injected sequence that waited for the regular one starts at once. -/
theorem Device.monStop_eq (d : Device) (m : Nat) (o : Origin) : d.monStop m o =
    (if d.isSet (F.MON_M_STAT_INJ_PENDING m) then ((d.monCancelled m).monHalted m).injStart m
     else (d.monCancelled m).monHalted m).monShown m cOK o := by
  rw [← d.injPending_monCancelled, ← Device.injPending_monHalted]
  rfl

/-! ARM_INJ, DISARM_INJ and INJECT (R504 to R506). -/

theorem Device.armInj_refused (h : d.armInjCode m ≠ cOK) : d.armInj m o = d.monShown m (d.armInjCode m) o :=
  congrArg (fun y : Device => y.monShown m (d.armInjCode m) o) (if_neg h)

theorem Device.armInj_armed (h : d.armInjCode m = cOK) : d.armInj m o =
    ((d.setFld (F.MON_M_STAT_INJ_ARMED m) 1).setMon m { d.mon m with injNo := 0, injItems := [] }).monShown m cOK o := by
  rw [← h]
  exact congrArg (fun y : Device => y.monShown m (d.armInjCode m) o) (if_pos h)

/-- An injected sequence is triggered or runs. -/
abbrev Device.injBusy (d : Device) (m : Nat) : Prop := d.isSet (F.MON_M_STAT_INJ_PENDING m) = true ∨ d.isSet (F.MON_M_STAT_INJ_ACTIVE m) = true

theorem Device.disarmInj_idle (h : ¬d.injBusy m) : d.disarmInj m o = (d.setFld (F.MON_M_STAT_INJ_ARMED m) 0).monShown m cOK o := if_neg h

theorem Device.disarmInj_waits (h : d.injBusy m) (hd : (d.mon m).disarm = none) : d.disarmInj m o =
    ((d.setMon m { d.mon m with disarm := some o }).setFld (F.MON_M_STAT_CODE m) cOK).actBit o (F.MON_M_CTL_DISARM_INJ m) := by
  rw [← Device.match_host_eq_actBit]
  exact (if_pos h).trans (if_neg (by rw [hd]; exact Bool.false_ne_true))

theorem Device.disarmInj_busy (h : d.injBusy m) (hd : (d.mon m).disarm ≠ none) : d.disarmInj m o = d.monShown m cBUSY o :=
  (if_pos h).trans (if_pos (Option.isSome_iff_ne_none.mpr hd))

theorem Device.inject_unarmed (h : d.isSet (F.MON_M_STAT_INJ_ARMED m) = false) : d.inject m o = d.monShown m cNOTARMED o :=
  if_pos (by rw [h]; rfl)

theorem Device.injTrigger_busy (h : d.injBusy m) : d.injTrigger m t = (false, d.flag F.MON_FLAGS_INJ_MISS Reg.MON_INJ_MISS_CNT) := if_pos h

theorem Device.injTrigger_taken (h : ¬d.injBusy m) : d.injTrigger m t =
    (true, let x := (d.setMon m { d.mon m with trig := t }).wrTime (Reg.MON_M_INJ_TRIG_LO m) t
      if (d.mon m).active then x.setFld (F.MON_M_STAT_INJ_PENDING m) 1 else x.injStart m) := by
  have active : (((d.setMon m { d.mon m with trig := t }).wrTime (Reg.MON_M_INJ_TRIG_LO m) t).mon m).active = (d.mon m).active := by
    refine Eq.trans (b := ((d.setMon m { d.mon m with trig := t }).mon m).active) rfl ?_
    rw [Device.mon_setMon]
  rw [← active]
  exact if_neg h

/-- INJECT of an armed sequence, by what its trigger comes to. -/
theorem Device.inject_armed (h : d.isSet (F.MON_M_STAT_INJ_ARMED m) = true) {taken : Bool} {y : Device} (ht : d.injTrigger m d.time = (taken, y)) :
    d.inject m o = y.monShown m (if taken then cOK else cBUSY) o := by
  rw [Device.inject, h]
  simp only [ht]
  rfl

theorem Device.inject_busy (h : d.isSet (F.MON_M_STAT_INJ_ARMED m) = true) (hb : d.injBusy m) :
    d.inject m o = (d.flag F.MON_FLAGS_INJ_MISS Reg.MON_INJ_MISS_CNT).monShown m cBUSY o := by
  rw [Device.inject_armed h (Device.injTrigger_busy hb)]
  rfl

/-- A trigger that is taken: it waits for the end of the regular conversion, or starts the injected entries. -/
theorem Device.inject_taken (h : d.isSet (F.MON_M_STAT_INJ_ARMED m) = true) (hb : ¬d.injBusy m) : d.inject m o =
    (let x := (d.setMon m { d.mon m with trig := d.time }).wrTime (Reg.MON_M_INJ_TRIG_LO m) d.time
     if (d.mon m).active then x.setFld (F.MON_M_STAT_INJ_PENDING m) 1 else x.injStart m).monShown m cOK o := by
  rw [Device.inject_armed h (Device.injTrigger_taken hb)]
  rfl

/-! The rows. -/

section
variable (hm : m < 8)
include hm

theorem exec_monMCtlStart : exec (.monMCtlStart m) s = .next { s with dev := s.dev.monStart m (s.dev.rdTime (Reg.MON_M_AT_LO m)) .host } := by
  show execMonMCtlStart m s = _
  exact State.run_of_eq (if_pos hm)

theorem exec_monMCtlStop : exec (.monMCtlStop m) s = .next { s with dev := s.dev.monStop m .host } := by
  show execMonMCtlStop m s = _
  exact State.run_of_eq (if_pos hm)

theorem exec_monMCtlArmInj : exec (.monMCtlArmInj m) s = .next { s with dev := s.dev.armInj m .host } := by
  show execMonMCtlArmInj m s = _
  exact State.run_of_eq (if_pos hm)

theorem exec_monMCtlDisarmInj : exec (.monMCtlDisarmInj m) s = .next { s with dev := s.dev.disarmInj m .host } := by
  show execMonMCtlDisarmInj m s = _
  exact State.run_of_eq (if_pos hm)

theorem exec_monMCtlInject : exec (.monMCtlInject m) s = .next { s with dev := s.dev.inject m .host } := by
  show execMonMCtlInject m s = _
  exact State.run_of_eq (if_pos hm)

end

theorem exec_monStart (hu : s.dev.comes 0x0E 1 8 u) : exec (.monStart u) s =
    .next { s with dev := (s.dev.accept u).monStart u.unit (BitVec.ofNat 64 (u.dword 0)) u.origin } := by
  show execMonStart u s = _
  exact State.run_of_eq (Device.unitCmd_comes _ hu rfl)

theorem exec_monStop (hu : s.dev.comes 0x0E 2 8 u) :
    exec (.monStop u) s = .next { s with dev := (s.dev.accept u).monStop u.unit u.origin } := by
  show execMonStop u s = _
  exact State.run_of_eq (Device.unitCmd_comes _ hu rfl)

theorem exec_monArmInj (hu : s.dev.comes 0x0E 3 8 u) :
    exec (.monArmInj u) s = .next { s with dev := (s.dev.accept u).armInj u.unit u.origin } := by
  show execMonArmInj u s = _
  exact State.run_of_eq (Device.unitCmd_comes _ hu rfl)

theorem exec_monDisarmInj (hu : s.dev.comes 0x0E 4 8 u) :
    exec (.monDisarmInj u) s = .next { s with dev := (s.dev.accept u).disarmInj u.unit u.origin } := by
  show execMonDisarmInj u s = _
  exact State.run_of_eq (Device.unitCmd_comes _ hu rfl)

theorem exec_monInject (hu : s.dev.comes 0x0E 5 8 u) :
    exec (.monInject u) s = .next { s with dev := (s.dev.accept u).inject u.unit u.origin } := by
  show execMonInject u s = _
  exact State.run_of_eq (Device.unitCmd_comes _ hu rfl)

end Sys2Proof.Machine
end

section
/-! PROOFS. Requests of the monitor converters (R503 to R506). -/

namespace Sys2Proof.Machine

/-- Settles O49: each request by its checks, first as a function of the device it finds, then for the host and for an engine. -/
theorem monitorRequests : Obligations.MonitorRequests := by
  intro s u m d taken n shown start stop arm inProgress disarm inject
  have starts : ∀ (i : Instr) (d : Device) m t o (fin : Device → Device), exec i s = .next { s with dev := d.monStart m t o } →
      (∀ y : Device, y.actBit o (F.MON_M_CTL_START m) = fin y) → start i d m t o fin := fun i d m t o fin told bit =>
    ⟨fun h => .of_eq told (Device.monStart_refused h), fun h => .of_eq told ((Device.monStart_accepted h).trans (bit _))⟩
  have stops : ∀ (i : Instr) (d : Device) m o, exec i s = .next { s with dev := d.monStop m o } → stop i d m o := fun i d m o told =>
    .of_eq told (d.monStop_eq m o)
  have arms : ∀ (i : Instr) (d : Device) m o, exec i s = .next { s with dev := d.armInj m o } → arm i d m o := fun i d m o told =>
    ⟨fun h => .of_eq told (Device.armInj_refused h), fun h => .of_eq told (Device.armInj_armed h)⟩
  have disarms : ∀ (i : Instr) (d : Device) m o (fin : Device → Device), exec i s = .next { s with dev := d.disarmInj m o } →
      (∀ y : Device, y.actBit o (F.MON_M_CTL_DISARM_INJ m) = fin y) → disarm i d m o fin := fun i d m o fin told bit =>
    ⟨fun h => .of_eq told (Device.disarmInj_idle h), fun h hd => .of_eq told ((Device.disarmInj_waits h hd).trans (bit _)),
      fun h hd => .of_eq told (Device.disarmInj_busy h hd)⟩
  have injects : ∀ (i : Instr) (d : Device) m o, exec i s = .next { s with dev := d.inject m o } → inject i d m o := by
    intro i d m o told
    refine ⟨fun h => .of_eq told (Device.inject_unarmed h), fun h hb => .of_eq told (Device.inject_busy h hb),
      fun h hb x hx => ?_⟩
    subst hx
    have took := Device.inject_taken (o := o) h hb
    constructor
    · intro ha
      rw [ha] at took
      exact .of_eq told took
    · intro ha
      rw [ha] at took
      exact .of_eq told took
  exact ⟨fun hm => ⟨starts _ _ _ _ _ _ (exec_monMCtlStart hm) (Device.actBit_host · _), stops _ _ _ _ (exec_monMCtlStop hm),
      arms _ _ _ _ (exec_monMCtlArmInj hm), disarms _ _ _ _ _ (exec_monMCtlDisarmInj hm) (Device.actBit_host · _),
      injects _ _ _ _ (exec_monMCtlInject hm)⟩,
    fun hu => starts _ _ _ _ _ _ (exec_monStart hu) (Device.actBit_origin · u _), fun hu => stops _ _ _ _ (exec_monStop hu),
    fun hu => arms _ _ _ _ (exec_monArmInj hu), fun hu => disarms _ _ _ _ _ (exec_monDisarmInj hu) (Device.actBit_origin · u _),
    fun hu => injects _ _ _ _ (exec_monInject hu)⟩

end Sys2Proof.Machine
end


section
/-! SUPPORT. The reference, the roots, frequency changes, the probe and the fractional modulators (R452 to R470). -/

namespace Sys2Proof.Machine

variable {d : Device} {s : State} {u : UCmd} {r : Nat} {t : Time} {o : Origin} {x : FieldAt}

/-! Fields of the roots through the updates of others. -/

/-- A field apart from the lock bits: of another register, or above or below them. -/
abbrev FieldAt.offLocks (x : FieldAt) : Prop := x.addr ≠ Reg.CLK_STAT ∨ 3 ≤ x.f.lo ∨ x.f.lo + x.f.w ≤ 1

theorem Device.fld_setFld_lockBit (d : Device) (r v : Nat) (h : x.offLocks) : (d.setFld (lockBit r) v).fld x = d.fld x := by
  have apart : ∀ f : FieldAt, f.addr = Reg.CLK_STAT → 1 ≤ f.f.lo → f.f.lo + f.f.w ≤ 3 → (d.setFld f v).fld x = d.fld x := fun f ha h1 h3 => by
    rcases h with h | h | h
    · exact d.fld_setFld_other f x v (by rwa [ha])
    · exact d.fld_setFld_disjoint f x v (by omega) (.inl (by omega))
    · exact d.fld_setFld_disjoint f x v (by omega) (.inr (by omega))
  rw [lockBit]
  split
  · exact apart _ rfl (by decide) (by decide)
  · exact apart _ rfl (by decide) (by decide)

theorem Device.standby_lt (d : Device) : d.standby < 2 := by rw [Device.standby]; omega

theorem Device.activeRoot_lt (d : Device) : d.activeRoot < 2 := d.fld_lt F.CLK_STAT_ACTIVE

theorem Device.eq_activeRoot (hr : r < 2) (h : r ≠ d.standby) : r = d.activeRoot := by
  have := d.activeRoot_lt
  rw [Device.standby] at h
  omega

theorem Device.standby_ne_activeRoot (d : Device) : d.standby ≠ d.activeRoot := by
  have := d.activeRoot_lt
  rw [Device.standby]
  omega

theorem Device.standby_congr {y : Device} (h : y.fld F.CLK_STAT_ACTIVE = d.fld F.CLK_STAT_ACTIVE) : y.standby = d.standby := by
  rw [Device.standby, Device.activeRoot, h, Device.standby, Device.activeRoot]

/-- The state of a root is shown in its unit's register and in CLK_STAT from bit 8 on (R462, R522). -/
theorem Device.fld_setUState_root (d : Device) (hr : r < 2) (st role : Nat) (h : x.addr < 0xD10000)
    (h' : x.addr ≠ Reg.CLK_STAT ∨ x.f.lo + x.f.w ≤ 8) : (d.setUState (rootUnit r) st role).fld x = d.fld x := by
  have own : ∀ (y : Device) (f : FieldAt) (v : Nat), f.addr = Reg.ROT_U_STAT (rootUnit r) → (y.setFld f v).fld x = y.fld x := fun y f v ha =>
    y.fld_setFld_other f x v (by rw [ha, Reg.ROT_U_STAT]; omega)
  have shown : ∀ (y : Device) (f : FieldAt), f.addr = Reg.CLK_STAT → 8 ≤ f.f.lo → f.f.lo + f.f.w ≤ 32 → (y.setFld f st).fld x = y.fld x :=
    fun y f ha h8 hw => by
      rcases h' with h' | h'
      · exact y.fld_setFld_other f x st (by rwa [ha])
      · exact y.fld_setFld_disjoint f x st hw (.inr (by omega))
  have mirrored : ∀ y : Device, (y.mirrorState (rootUnit r) st).fld x = y.fld x := fun y => by
    obtain rfl | rfl : r = 0 ∨ r = 1 := by omega
    · exact shown y F.CLK_STAT_A_ROT rfl (by decide) (by decide)
    · exact shown y F.CLK_STAT_B_ROT rfl (by decide) (by decide)
  rw [Device.setUState]
  refine (mirrored _).trans ((own _ _ _ rfl).trans ((own _ _ _ rfl).trans ?_))
  split <;> rfl

theorem Device.setUState_onlyRegs (d : Device) (u : Nat) {st : Nat} (role : Nat) (h : st ≠ 3) : d.OnlyRegs (d.setUState u st role) := by
  rw [Device.setUState, if_neg h]
  exact (((OnlyRegs.refl d).setFld _ _).setFld _ _).trans (Device.mirrorState_frame _ _ _)

theorem Device.standbyOut_frame (d : Device) : d.OnlyRegs d.standbyOut :=
  ((OnlyRegs.refl d).setFld _ _).ite (((OnlyRegs.refl d).setFld _ _).trans (Device.setUState_onlyRegs _ _ _ (by decide)))

theorem Device.OnlyRegs.roots {y : Device} (h : d.OnlyRegs y) : y.roots = d.roots := by
  obtain ⟨_, rfl⟩ := h
  rfl

theorem Device.standbyReady_frame (d : Device) : d.OnlyRegs d.standbyReady :=
  (Device.setUState_onlyRegs _ _ _ (by decide)).setFld _ _

theorem Device.fld_standbyOut_shown (d : Device) (h : x.addr < 0xD10000) (h' : x.addr ≠ Reg.CLK_STAT ∨ x.f.lo + x.f.w ≤ 8) :
    d.standbyOut.fld x = (d.setFld F.CLK_STAT_STANDBY_READY 0).fld x := by
  rw [Device.standbyOut]
  split
  · rfl
  · exact Device.fld_setUState_root _ (Device.standby_lt _) _ _ h h'

theorem Device.fld_standbyOut (d : Device) (h : x.addr < 0xD10000) (h' : x.addr ≠ Reg.CLK_STAT ∨ x.f.lo + x.f.w ≤ 5) :
    d.standbyOut.fld x = d.fld x := by
  rw [Device.fld_standbyOut_shown d h (h'.imp id (by omega))]
  rcases h' with h' | h'
  · exact d.fld_setFld_other _ _ _ h'
  · exact d.fld_setFld_disjoint _ _ _ (by decide) (.inr h')

theorem Device.isSet_standbyOut_ready (d : Device) : d.standbyOut.isSet F.CLK_STAT_STANDBY_READY = false := by
  rw [Device.isSet, d.fld_standbyOut_shown (by decide) (.inr (by decide)), Device.fld_setFld _ _ _ (by decide)]
  rfl

theorem Device.rd_rotShow_other (d : Device) (k : Nat) {a : Nat} (h : a ≠ Reg.ROT_K_STAT k) : (d.rotShow k).rd a = d.rd a := by
  simp only [Device.rotShow, F.ROT_K_STAT_PAUSED, F.ROT_K_STAT_ACTIVE, F.ROT_K_STAT_EXHAUSTED, F.ROT_K_STAT_VACANT, F.ROT_K_STAT_WITHDRAWN,
    Device.rd_setFld_mk _ _ _ h]

theorem Device.fld_rotShow_other (d : Device) (k : Nat) (h : x.addr ≠ Reg.ROT_K_STAT k) : (d.rotShow k).fld x = d.fld x :=
  Device.fld_congr (d.rd_rotShow_other k h)

theorem Device.rootStepOff_none (h : d.rotStepOf 8 = none) : d.rootStepOff = d := by
  rw [Device.rootStepOff, h]
  rfl

/-! The reference (R452). -/

/-- The outputs that REFCLK drives show that they stall, or that they run again. -/
def Device.refStalls (d : Device) (v : Nat) : Device :=
  (List.range 8).foldl (fun d o => if d.ckoRef o then d.setFld (F.CKO_STAT_STALLED o) v else d) d

theorem Device.fld_foldl {α : Type} {f : Device → α → Device} (hf : ∀ y a, (f y a).fld x = y.fld x) (l : List α) (d : Device) :
    (l.foldl f d).fld x = d.fld x := by
  refine List.foldlRecOn (motive := fun e : Device => e.fld x = d.fld x) l f rfl fun e he a _ => ?_
  rw [hf, he]

theorem Device.lanePllsLost_frame (d : Device) : d.OnlyRegs d.lanePllsLost :=
  OnlyRegs.foldl (OnlyRegs.foldl (OnlyRegs.refl d) (fun e _ => (OnlyRegs.refl e).ite ((OnlyRegs.refl e).setFld _ _)) _)
    (fun e _ => (OnlyRegs.refl e).setFld _ _) _

theorem Device.state_lanePllsLost (d : Device) : d.lanePllsLost.fld F.SYS_STAT_STATE = d.fld F.SYS_STAT_STATE := by
  rw [Device.lanePllsLost]
  refine (Device.fld_foldl (fun y g => ?_) _ _).trans (Device.fld_foldl (fun y g => ?_) _ _)
  · exact y.fld_setFld_other _ _ _ (by simp only [F.SYS_STAT_STATE, F.LNK_TG_CFG_PLL_LOCK, Reg.SYS_STAT, Reg.LNK_TG_CFG]; omega)
  · split
    · rfl
    · exact y.fld_setFld_other _ _ _ (by simp only [F.SYS_STAT_STATE, F.LNK_G_CFG_PLL_LOCK, Reg.SYS_STAT, Reg.LNK_G_CFG]; omega)

/-- What the loss of REFCLK shows before the outputs stall. -/
def Device.refGone (d : Device) : Device := ((d.setFld F.CLK_STAT_REF_PRESENT 0).flag F.CLK_FLAGS_REF_LOST Reg.CLK_REF_LOST_CNT).lanePllsLost

theorem Device.state_refGone (d : Device) : d.refGone.fld F.SYS_STAT_STATE = d.fld F.SYS_STAT_STATE :=
  (Device.state_lanePllsLost _).trans ((Device.fld_congr (Device.rd_flag_other _ _ _ (by decide) (by decide))).trans
    (d.fld_setFld_other _ _ _ (by decide)))

theorem Device.sys_refGone (d : Device) : d.refGone.sys = d.sys :=
  ((((OnlyRegs.refl d).setFld _ _).flag _ _).trans (Device.lanePllsLost_frame _)).sys

theorem exec_refclkLost (h : s.dev.isSet F.CLK_STAT_REF_PRESENT = true) : exec .refclkLost s = .next { s with dev :=
    (if s.dev.fld F.SYS_STAT_STATE = 1 ∧ s.dev.sys.started = false then
      ((s.dev.refGone.setFld F.SYS_STAT_REF_WAIT 1).setFld F.CLK_STAT_A_LOCK 0).setFld F.CLK_STAT_B_LOCK 0 else s.dev.refGone).refStalls 1 } := by
  have waits : (s.dev.refGone.fld F.SYS_STAT_STATE = 1 ∧ (!s.dev.refGone.sys.started) = true) ↔
      (s.dev.fld F.SYS_STAT_STATE = 1 ∧ s.dev.sys.started = false) := by
    rw [Device.state_refGone, Device.sys_refGone, Bool.not_eq_true']
  show execRefclkLost s = _
  exact State.run_of_eq ((if_pos h).trans (congrArg (fun y : Device => y.refStalls 1) (if_congr waits rfl rfl)))

theorem exec_refclkLost_absent (h : s.dev.isSet F.CLK_STAT_REF_PRESENT = false) : exec .refclkLost s = .next s := by
  show execRefclkLost s = _
  exact State.run_of_eq (if_neg (Bool.eq_false_iff.mp h))

theorem exec_refclkPresent_idle (h : s.dev.isSet F.CLK_STAT_REF_PRESENT = true ∨ s.dev.sys.started = false) : exec .refclkPresent s = .next s := by
  show execRefclkPresent s = _
  exact State.run_of_eq (if_pos (h.imp id (fun h => by rw [h]; rfl)))

theorem exec_refclkPresent (h : s.dev.isSet F.CLK_STAT_REF_PRESENT = false) (hs : s.dev.sys.started = true) :
    exec .refclkPresent s = .next { s with dev := (s.dev.setFld F.CLK_STAT_REF_PRESENT 1).refStalls 0 } := by
  show execRefclkPresent s = _
  exact State.run_of_eq (if_neg (by rw [h, hs]; decide))

/-! Lock and its loss (R455, R463, R464, R468, R470). -/

/-- A standby that has locked: its failures in a row are forgotten. -/
def Device.standbyLocked (d : Device) : Device := { d.setFld (lockBit d.standby) 1 with roots := { d.roots with fails := 0 } }

theorem Device.fld_standbyLocked (d : Device) (h : x.offLocks) : d.standbyLocked.fld x = d.fld x :=
  d.fld_setFld_lockBit d.standby 1 h

theorem Device.isSet_standbyLocked (d : Device) (h : x.offLocks) : d.standbyLocked.isSet x = d.isSet x := by
  rw [Device.isSet, d.fld_standbyLocked h, Device.isSet]

theorem exec_rootLock_off (h : 1 < r ∨ s.dev.puState (778 + r) = 5 ∨ s.dev.isSet F.CLK_STAT_REF_PRESENT = false) :
    exec (.rootLock r) s = .next s := by
  show execRootLock r s = _
  exact State.run_of_eq (if_pos (h.imp id (Or.imp decide_eq_true (fun h => by rw [h]; rfl))))

/-- What a root's lock leads to. -/
def Device.lockTaken (d : Device) (r : Nat) : Device :=
  if d.locking then (if d.isSet (lockBit (1 - r)) then d.stepOneEnd else d)
  else if d.isSet F.CLK_STAT_HOLDOVER then
    if d.roots.takeover.isNone ∧ (r = d.standby ∨ d.rootGone d.standby) then
      { d with roots := { d.roots with takeover := some (r, d.time) } }
    else d
  else if r = d.standby ∧ d.fld F.CLK_CHANGE_STAT_STATE = 0 ∧ !d.roots.probe ∧ d.puState (rootUnit r) ≠ 3 then d.standbyReady
  else d

/-- The standby locks. -/
theorem exec_rootLock_standby (hg : s.dev.puState (778 + r) ≠ 5) (hp : s.dev.isSet F.CLK_STAT_REF_PRESENT = true) (hr : r = s.dev.standby) :
    exec (.rootLock r) s = .next { s with dev := s.dev.standbyLocked.lockTaken r } := by
  have on : ¬(1 < r ∨ s.dev.rootGone r = true ∨ (!s.dev.isSet F.CLK_STAT_REF_PRESENT) = true) := by
    have := s.dev.standby_lt
    rw [hp]
    rintro (h | h | h)
    · omega
    · exact hg (of_decide_eq_true h)
    · cases h
  have locked : ({ s.dev.setFld (lockBit r) 1 with
      roots := { s.dev.roots with fails := if r = s.dev.standby then 0 else s.dev.roots.fails } } : Device) = s.dev.standbyLocked := by
    rw [if_pos hr, Device.standbyLocked, hr]
  show execRootLock r s = _
  exact State.run_of_eq ((if_neg on).trans (congrArg (fun y : Device => y.lockTaken r) locked))

theorem Device.locking_standbyLocked (hs : d.sys.started = true) : d.standbyLocked.locking = false := by
  have started : d.standbyLocked.sys.started = true := hs
  rw [Device.locking, started, Bool.not_true, Bool.and_false, Bool.false_and]

theorem Device.standby_standbyLocked (d : Device) : d.standbyLocked.standby = d.standby :=
  Device.standby_congr (d.fld_standbyLocked (.inr (.inr (by decide))))

theorem Device.lockTaken_ready (hs : d.sys.started = true) (hr : r = d.standby) (hh : d.isSet F.CLK_STAT_HOLDOVER = false)
    (hc : d.fld F.CLK_CHANGE_STAT_STATE = 0) (hq : d.roots.probe = false) (ht : d.puState (778 + r) ≠ 3) :
    d.standbyLocked.lockTaken r =
      (({ d.setFld (lockBit r) 1 with roots := { d.roots with fails := 0 } } : Device).setUState (778 + r) 1 0).setFld F.CLK_STAT_STANDBY_READY 1 := by
  have held : d.standbyLocked.isSet F.CLK_STAT_HOLDOVER = false := (d.isSet_standbyLocked (.inr (.inl (by decide)))).trans hh
  have probe : d.standbyLocked.roots.probe = false := hq
  have test : d.standbyLocked.puState (rootUnit r) ≠ 3 := by
    rw [Device.puState, d.fld_standbyLocked (.inl (by simp only [F.ROT_U_STAT_STATE, Reg.ROT_U_STAT, Reg.CLK_STAT]; omega))]
    exact ht
  have free : r = d.standbyLocked.standby ∧ d.standbyLocked.fld F.CLK_CHANGE_STAT_STATE = 0 ∧ (!d.standbyLocked.roots.probe) = true ∧
      d.standbyLocked.puState (rootUnit r) ≠ 3 :=
    ⟨hr.trans d.standby_standbyLocked.symm, (d.fld_standbyLocked (.inl (by decide))).trans hc, by rw [probe]; rfl, test⟩
  have ready : d.standbyLocked.standbyReady = (d.standbyLocked.setUState (778 + r) 1 0).setFld F.CLK_STAT_STANDBY_READY 1 := by
    rw [Device.standbyReady, d.standby_standbyLocked, ← hr, rootUnit]
  rw [Device.lockTaken, if_neg (Bool.eq_false_iff.mp (Device.locking_standbyLocked hs)), if_neg (Bool.eq_false_iff.mp held), if_pos free, ready,
    Device.standbyLocked, ← hr]

theorem Device.lockTaken_holdover (hs : d.sys.started = true) (hr : r = d.standby) (hh : d.isSet F.CLK_STAT_HOLDOVER = true)
    (ht : d.roots.takeover = none) : d.standbyLocked.lockTaken r =
      { d.setFld (lockBit r) 1 with roots := { d.roots with fails := 0, takeover := some (r, d.time) } } := by
  have held : d.standbyLocked.isSet F.CLK_STAT_HOLDOVER = true := (d.isSet_standbyLocked (.inr (.inl (by decide)))).trans hh
  have none : d.standbyLocked.roots.takeover = none := ht
  have free : d.standbyLocked.roots.takeover.isNone = true ∧ (r = d.standbyLocked.standby ∨ d.standbyLocked.rootGone d.standbyLocked.standby = true) :=
    ⟨by rw [none]; rfl, .inl (hr.trans d.standby_standbyLocked.symm)⟩
  rw [Device.lockTaken, if_neg (Bool.eq_false_iff.mp (Device.locking_standbyLocked hs)), if_pos held, if_pos free, hr]
  rfl

theorem exec_rootLockLost_off (h : 1 < r ∨ s.dev.isSet (lockBit r) = false) : exec (.rootLockLost r) s = .next s := by
  show execRootLockLost r s = _
  exact State.run_of_eq (if_pos (h.imp id (fun h => by rw [h]; rfl)))

/-- A root's lock is gone, and counted. -/
def Device.lockGone (d : Device) (r : Nat) : Device := (d.setFld (lockBit r) 0).flag F.CLK_FLAGS_LOCK_LOST Reg.CLK_LOCK_LOST_CNT

theorem Device.lockGone_frame (d : Device) (r : Nat) : d.OnlyRegs (d.lockGone r) := ((OnlyRegs.refl d).setFld _ _).flag _ _

theorem Device.fld_lockGone (d : Device) (r : Nat) (h : x.offLocks) (h' : x.addr ≠ Reg.CLK_FLAGS) (h'' : x.addr ≠ Reg.CLK_LOCK_LOST_CNT) :
    (d.lockGone r).fld x = d.fld x := (Device.fld_congr (Device.rd_flag_other _ _ _ h' h'')).trans (d.fld_setFld_lockBit r 0 h)

theorem Device.isSet_lockGone (d : Device) (r : Nat) (h : x.offLocks) (h' : x.addr ≠ Reg.CLK_FLAGS) (h'' : x.addr ≠ Reg.CLK_LOCK_LOST_CNT) :
    (d.lockGone r).isSet x = d.isSet x := by rw [Device.isSet, d.fld_lockGone r h h' h'', Device.isSet]

theorem Device.puState_lockGone (d : Device) (r p : Nat) : (d.lockGone r).puState p = d.puState p := by
  refine d.fld_lockGone r (.inl ?_) ?_ ?_ <;>
    simp only [F.ROT_U_STAT_STATE, Reg.ROT_U_STAT, Reg.CLK_STAT, Reg.CLK_FLAGS, Reg.CLK_LOCK_LOST_CNT] <;> omega

theorem Device.rotStepOf_lockGone (d : Device) (r k : Nat) : (d.lockGone r).rotStepOf k = d.rotStepOf k := by
  rw [Device.rotStepOf, (d.lockGone_frame r).rot, Device.rotStepOf]

/-- What a root's loss of lock leads to. -/
def Device.lockMissed (d : Device) (r : Nat) : Device :=
  if r = d.activeRoot then
    if d.isSet F.CLK_STAT_HOLDOVER then d
    else if d.isSet F.CLK_STAT_STANDBY_READY && d.isSet F.CLK_STAT_REF_PRESENT then
      (d.rootStepOff.rootSwitch d.time).flag F.CLK_FLAGS_FAILOVER Reg.CLK_FAILOVER_CNT
    else d.rootStepOff.holdover
  else if d.rootGone r then d
  else
    let y := d.rootStepOff.standbyOut
    if y.roots.takeover.any (fun t => decide (t.1 = r)) then { y with roots := { y.roots with takeover := none } } else y

theorem exec_rootLockLost (hr : r < 2) (hl : s.dev.isSet (lockBit r) = true) :
    exec (.rootLockLost r) s = .next { s with dev := (s.dev.lockGone r).lockMissed r } := by
  have on : ¬(1 < r ∨ (!s.dev.isSet (lockBit r)) = true) := by
    rw [hl]
    rintro (h | h)
    · omega
    · cases h
  show execRootLockLost r s = _
  exact State.run_of_eq (if_neg on)

section
variable (d) (r)

theorem Device.activeRoot_lockGone : (d.lockGone r).activeRoot = d.activeRoot :=
  d.fld_lockGone r (.inr (.inr (by decide))) (by decide) (by decide)

theorem Device.holdover_lockGone : (d.lockGone r).isSet F.CLK_STAT_HOLDOVER = d.isSet F.CLK_STAT_HOLDOVER :=
  d.isSet_lockGone r (.inr (.inl (by decide))) (by decide) (by decide)

theorem Device.canFail_lockGone : ((d.lockGone r).isSet F.CLK_STAT_STANDBY_READY && (d.lockGone r).isSet F.CLK_STAT_REF_PRESENT) =
    (d.isSet F.CLK_STAT_STANDBY_READY && d.isSet F.CLK_STAT_REF_PRESENT) := by
  rw [d.isSet_lockGone r (.inr (.inl (by decide))) (by decide) (by decide), d.isSet_lockGone r (.inr (.inl (by decide))) (by decide) (by decide)]

end

section
variable (hn : d.rotStepOf 8 = none)
include hn

theorem Device.rootStepOff_lockGone : (d.lockGone r).rootStepOff = d.lockGone r :=
  Device.rootStepOff_none ((d.rotStepOf_lockGone r 8).trans hn)

omit hn in
theorem Device.lockMissed_held (hr : r = d.activeRoot) (hh : d.isSet F.CLK_STAT_HOLDOVER = true) : (d.lockGone r).lockMissed r = d.lockGone r :=
  (if_pos (hr.trans (d.activeRoot_lockGone r).symm)).trans (if_pos ((d.holdover_lockGone r).trans hh))

theorem Device.lockMissed_fails (hr : r = d.activeRoot) (hh : d.isSet F.CLK_STAT_HOLDOVER = false)
    (hs : (d.isSet F.CLK_STAT_STANDBY_READY && d.isSet F.CLK_STAT_REF_PRESENT) = true) : (d.lockGone r).lockMissed r =
      ((d.lockGone r).rootSwitch d.time).flag F.CLK_FLAGS_FAILOVER Reg.CLK_FAILOVER_CNT := by
  rw [Device.lockMissed, if_pos (hr.trans (d.activeRoot_lockGone r).symm), d.holdover_lockGone, hh, if_neg Bool.false_ne_true, d.canFail_lockGone,
    if_pos hs, Device.rootStepOff_lockGone hn, (d.lockGone_frame r).time]

theorem Device.lockMissed_holds (hr : r = d.activeRoot) (hh : d.isSet F.CLK_STAT_HOLDOVER = false)
    (hs : (d.isSet F.CLK_STAT_STANDBY_READY && d.isSet F.CLK_STAT_REF_PRESENT) = false) : (d.lockGone r).lockMissed r =
      ((((d.lockGone r).setFld F.CLK_STAT_HOLDOVER 1).flag F.CLK_FLAGS_HOLDOVER Reg.CLK_HOLDOVER_CNT).wrTime Reg.CLK_HOLD_LO d.time).recheck := by
  rw [Device.lockMissed, if_pos (hr.trans (d.activeRoot_lockGone r).symm), d.holdover_lockGone, hh, if_neg Bool.false_ne_true, d.canFail_lockGone,
    hs, if_neg Bool.false_ne_true, Device.rootStepOff_lockGone hn, Device.holdover, (d.lockGone_frame r).time]

variable (hr : r ≠ d.activeRoot)
include hr

omit hn in
theorem Device.lockMissed_gone (hg : d.puState (778 + r) = 5) : (d.lockGone r).lockMissed r = d.lockGone r := by
  have gone : (d.lockGone r).rootGone r = true := decide_eq_true ((d.puState_lockGone r _).trans hg)
  rw [Device.lockMissed, d.activeRoot_lockGone, if_neg hr, gone, if_pos rfl]

theorem Device.lockMissed_standby (hg : d.puState (778 + r) ≠ 5) (ht : d.roots.takeover = none) :
    (d.lockGone r).lockMissed r = (d.lockGone r).standbyOut := by
  have kept : (d.lockGone r).rootGone r = false := decide_eq_false (by rwa [rootUnit, d.puState_lockGone])
  have none : (d.lockGone r).standbyOut.roots.takeover = none := by
    rw [((d.lockGone_frame r).trans (Device.standbyOut_frame _)).roots, ht]
  rw [Device.lockMissed, d.activeRoot_lockGone, if_neg hr, kept, if_neg Bool.false_ne_true, Device.rootStepOff_lockGone hn]
  exact if_neg (by rw [none]; exact Bool.false_ne_true)

end

/-- Whether a root's relock counts: it is the standby, unlocked and not withdrawn. -/
abbrev Device.relocks (d : Device) (r : Nat) : Prop := r = d.standby ∧ d.isSet (lockBit r) = false ∧ d.puState (778 + r) ≠ 5

theorem Device.relocks_iff (d : Device) (r : Nat) : d.relocks r ↔ (r = d.standby ∧ (!d.isSet (lockBit r)) = true ∧ (!d.rootGone r) = true) := by
  have kept : (!d.rootGone r) = true ↔ d.puState (778 + r) ≠ 5 := by
    rw [Bool.not_eq_true', Device.rootGone]
    exact decide_eq_false_iff_not
  rw [Device.relocks, kept, Bool.not_eq_true']

theorem exec_rootRelockTimeout_off (h : ¬s.dev.relocks r) : exec (.rootRelockTimeout r) s = .next s := by
  show execRootRelockTimeout r s = _
  exact State.run_of_eq (if_neg (mt (s.dev.relocks_iff r).mpr h))

theorem exec_rootRelockTimeout (h : s.dev.relocks r) : exec (.rootRelockTimeout r) s = .next { s with dev :=
    (if s.dev.roots.fails + 1 < 3 then { s.dev with roots := { s.dev.roots with fails := s.dev.roots.fails + 1 } }
     else Device.withdrawUnit { s.dev with roots := { s.dev.roots with fails := 0 } } (778 + r) 5) } := by
  show execRootRelockTimeout r s = _
  exact State.run_of_eq (if_pos ((s.dev.relocks_iff r).mp h))

/-! Frequency changes (R465, R466). -/

theorem Device.changeReq_refused {cfg frac seed : Nat} (h : d.changeCode cfg frac ≠ cOK) :
    d.changeReq cfg frac seed t o = (d.changeCode cfg frac, d.setFld F.CLK_CHANGE_STAT_CODE (d.changeCode cfg frac)) := if_pos h

theorem Device.rotPause_none (k : Nat) (h : d.rotStepOf k = none) : d.rotPause k = ((d.setRotStep k none).setDeferred k []).rotShow k := by
  rw [Device.rotPause, h]

/-- The standby of an accepted change before its values are kept. -/
def Device.changeTuned (d : Device) : Device :=
  ((d.setFld F.CLK_CHANGE_STAT_CODE cOK).standbyOut.setFld F.CLK_CHANGE_STAT_STATE 1).setFld
    (lockBit (d.setFld F.CLK_CHANGE_STAT_CODE cOK).standby) 0

/-- The values of a change, kept until its switch. -/
def Device.changeKept (d : Device) (cfg frac seed : Nat) (t : Time) (o : Origin) : Device :=
  { d with roots := { d.roots with nCfg := cfg, nFrac := frac, nSeed := seed, nRef := d.rdN Reg.CLK_REF_FREQ, changeAt := t, origin := some o } }

theorem Device.changeTuned_frame (d : Device) : d.OnlyRegs d.changeTuned :=
  ((((OnlyRegs.refl d).setFld _ _).trans (Device.standbyOut_frame _)).setFld _ _).setFld _ _

theorem Device.changeReq_accepted {cfg frac seed : Nat} (h : d.changeCode cfg frac = cOK) (hn : d.rotStepOf 8 = none) :
    d.changeReq cfg frac seed t o = (cOK, (((d.changeTuned.changeKept cfg frac seed t o).setRotStep 8 none).setDeferred 8 []).rotShow 8) := by
  have off : (d.setFld F.CLK_CHANGE_STAT_CODE cOK).rootStepOff = d.setFld F.CLK_CHANGE_STAT_CODE cOK := Device.rootStepOff_none hn
  have quiet : (d.changeTuned.changeKept cfg frac seed t o).rotStepOf 8 = none := by
    have same : (d.changeTuned.changeKept cfg frac seed t o).rot = d.rot := d.changeTuned_frame.rot
    rw [Device.rotStepOf, same]
    exact hn
  rw [← Device.rotPause_none 8 quiet]
  refine (if_neg (not_not_intro h)).trans ?_
  rw [h, off]
  rfl

theorem Device.fld_changeTuned (d : Device) (h : x.addr < 0xD10000) (h' : x.addr ≠ Reg.CLK_STAT ∨ 3 ≤ x.f.lo ∧ x.f.lo + x.f.w ≤ 5)
    (h'' : x.addr ≠ Reg.CLK_CHANGE_STAT) : d.changeTuned.fld x = d.fld x := by
  rw [Device.changeTuned, Device.fld_setFld_lockBit _ _ _ (h'.imp id fun h => .inl h.1), Device.fld_setFld_other _ _ _ _ h'',
    Device.fld_standbyOut _ h (h'.imp id And.right), Device.fld_setFld_other _ _ _ _ h'']

theorem Device.rd_setRotStep (d : Device) (k : Nat) (y : Option RotStep) (a : Nat) : (d.setRotStep k y).rd a = d.rd a := rfl

theorem Device.rd_setDeferred (d : Device) (k : Nat) (l : List Nat) (a : Nat) : (d.setDeferred k l).rd a = d.rd a := rfl

theorem Device.rd_changeKept (d : Device) (cfg frac seed : Nat) (t : Time) (o : Origin) (a : Nat) : (d.changeKept cfg frac seed t o).rd a = d.rd a := rfl

theorem Device.rdN_eq_fld (d : Device) (a : Nat) : d.rdN a = d.fld ⟨a, ⟨0, 32⟩⟩ := by
  rw [Device.fld, bitsOf_zero, Nat.mod_eq_of_lt (d.rdN_lt a)]

theorem lockBit_spec (r : Nat) : (lockBit r).addr = Reg.CLK_STAT ∧ (lockBit r).f.lo + (lockBit r).f.w ≤ 3 ∧ (lockBit r).f.w = 1 := by
  rw [lockBit]
  split
  · exact ⟨rfl, by decide, rfl⟩
  · exact ⟨rfl, by decide, rfl⟩

/-- What an accepted change leaves. -/
def Device.changeTaken (d : Device) (cfg frac seed : Nat) (t : Time) (o : Origin) : Device :=
  ((((d.changeTuned.changeKept cfg frac seed t o).setRotStep 8 none).setDeferred 8 []).rotShow 8)

section
variable (d) (cfg frac seed : Nat) (t : Time) (o : Origin)

theorem Device.fld_changeTaken (h : x.addr ≠ Reg.ROT_K_STAT 8) : (d.changeTaken cfg frac seed t o).fld x = d.changeTuned.fld x :=
  Device.fld_congr ((Device.rd_rotShow_other _ _ h).trans ((Device.rd_setDeferred _ _ _ _).trans ((Device.rd_setRotStep _ _ _ _).trans
    (Device.rd_changeKept _ _ _ _ _ _ _))))

theorem Device.state_changeTaken : (d.changeTaken cfg frac seed t o).fld F.CLK_CHANGE_STAT_STATE = 1 := by
  rw [Device.fld_changeTaken _ _ _ _ _ _ (by decide), Device.changeTuned, Device.fld_setFld_lockBit _ _ _ (.inl (by decide))]
  exact Device.fld_setFld _ _ _ (by decide)

theorem Device.code_changeTaken : (d.changeTaken cfg frac seed t o).fld F.CLK_CHANGE_STAT_CODE = cOK := by
  rw [Device.fld_changeTaken _ _ _ _ _ _ (by decide), Device.changeTuned, Device.fld_setFld_lockBit _ _ _ (.inl (by decide)),
    Device.fld_setFld_disjoint _ _ _ _ (by decide) (.inl (by decide)), Device.fld_standbyOut _ (by decide) (.inl (by decide))]
  exact Device.fld_setFld _ _ _ (by decide)

theorem Device.ready_changeTaken : (d.changeTaken cfg frac seed t o).isSet F.CLK_STAT_STANDBY_READY = false := by
  rw [← (d.setFld F.CLK_CHANGE_STAT_CODE cOK).isSet_standbyOut_ready, Device.isSet, Device.isSet, Device.fld_changeTaken _ _ _ _ _ _ (by decide),
    Device.changeTuned, Device.fld_setFld_lockBit _ _ _ (.inr (.inl (by decide))), Device.fld_setFld_other _ _ _ _ (by decide)]

theorem Device.roots_changeTaken : (d.changeTaken cfg frac seed t o).roots =
    { d.roots with nCfg := cfg, nFrac := frac, nSeed := seed, nRef := d.rdN Reg.CLK_REF_FREQ, changeAt := t, origin := some o } := by
  have ref : d.changeTuned.rdN Reg.CLK_REF_FREQ = d.rdN Reg.CLK_REF_FREQ := by
    rw [Device.rdN_eq_fld, d.fld_changeTuned (by decide) (.inl (by decide)) (by decide), ← Device.rdN_eq_fld]
  rw [Device.changeTaken, (Device.rotShow_frame _ _).roots, ← ref, ← d.changeTuned_frame.roots]
  rfl

theorem Device.changeTaken_frame : d.changeTaken cfg frac seed t o = { d with
    regs := (d.changeTaken cfg frac seed t o).regs, rot := (d.changeTaken cfg frac seed t o).rot, roots := (d.changeTaken cfg frac seed t o).roots } := by
  obtain ⟨regs, e⟩ := d.changeTuned_frame
  obtain ⟨regs', e'⟩ := (((d.changeTuned.changeKept cfg frac seed t o).setRotStep 8 none).setDeferred 8 []).rotShow_frame 8
  rw [Device.changeTaken, e', e]
  rfl

end

theorem exec_clkChangeCtlGo {c : Nat} {y : Device} (h : s.dev.changeReq (s.dev.rdN Reg.CLK_NEXT_CFG) (s.dev.rdN Reg.CLK_NEXT_FRAC)
    (s.dev.rdN Reg.CLK_NEXT_SEED) (s.dev.rdTime Reg.CLK_CHANGE_AT_LO) .host = (c, y)) :
    exec .clkChangeCtlGo s = .next { s with dev := (if c = cOK then y.setFld F.CLK_CHANGE_CTL_GO 1 else y) } := by
  show execClkChangeCtlGo s = _
  refine State.run_of_eq ?_
  simp only [h]

theorem exec_clkChange (hu : s.dev.comes 1 1 1 u) {c : Nat} {y : Device}
    (h : (s.dev.accept u).changeReq (u.word 0) (u.word 4) (u.word 8) (BitVec.ofNat 64 (u.dword 16)) u.origin = (c, y)) :
    exec (.clkChange u) s = .next { s with dev := (if c = cOK then y else y.complete u.origin c none) } := by
  show execClkChange u s = _
  refine State.run_of_eq ((Device.unitCmd_comes _ hu rfl).trans ?_)
  simp only [h]

theorem exec_changeRetuned (h : s.dev.fld F.CLK_CHANGE_STAT_STATE = 1) : exec .changeRetuned s = .next { s with dev :=
    (((s.dev.setFld F.CLK_CHANGE_STAT_STATE 2).setFld (lockBit s.dev.standby) 1).request .clkSwitch 0 s.dev.roots.changeAt .device []) } := by
  show execChangeRetuned s = _
  exact State.run_of_eq (if_pos h)

theorem exec_changeRetuned_off (h : s.dev.fld F.CLK_CHANGE_STAT_STATE ≠ 1) : exec .changeRetuned s = .next s := by
  show execChangeRetuned s = _
  exact State.run_of_eq (if_neg h)

theorem exec_changeLockTimeout (h : s.dev.fld F.CLK_CHANGE_STAT_STATE = 1) : exec .changeLockTimeout s = .next { s with dev :=
    ((s.dev.flag F.CLK_FLAGS_CHANGE_FAIL Reg.CLK_CHANGE_FAIL_CNT).changeEnd cCONDITIONS none) } := by
  show execChangeLockTimeout s = _
  exact State.run_of_eq (if_pos h)

theorem exec_changeLockTimeout_off (h : s.dev.fld F.CLK_CHANGE_STAT_STATE ≠ 1) : exec .changeLockTimeout s = .next s := by
  show execChangeLockTimeout s = _
  exact State.run_of_eq (if_neg h)

theorem exec_changeSettled (h : s.dev.fld F.CLK_CHANGE_STAT_STATE = 3) : exec .changeSettled s = .next { s with dev :=
    (((s.dev.setFld (lockBit s.dev.standby) 1).standbyReady).changeEnd cOK (some s.dev.roots.stamp)) } := by
  show execChangeSettled s = _
  exact State.run_of_eq (if_pos h)

theorem exec_changeSettled_off (h : s.dev.fld F.CLK_CHANGE_STAT_STATE ≠ 3) : exec .changeSettled s = .next s := by
  show execChangeSettled s = _
  exact State.run_of_eq (if_neg h)

/-! The end of a change that an engine asked for. -/

section
variable (d) (c : Nat)

/-- What a change that ends shows. -/
def Device.changeShown : Device :=
  ((Device.setFld { d with roots := { d.roots with origin := none } } F.CLK_CHANGE_STAT_STATE 0).setFld F.CLK_CHANGE_STAT_CODE c).rotShow 8

theorem Device.changeEnd_port {e k : Nat} {t : Option Time} (h : d.roots.origin = some (.port e k)) :
    d.changeEnd c t = (d.changeShown c).complete (.port e k) c t := by
  rw [Device.changeEnd, h]
  rfl

theorem Device.changeShown_frame : d.changeShown c = { d with regs := (d.changeShown c).regs, roots := { d.roots with origin := none } } := by
  have shown : Device.OnlyRegs { d with roots := { d.roots with origin := none } } (d.changeShown c) :=
    (((OnlyRegs.refl _).setFld _ _).setFld _ _).trans (Device.rotShow_frame _ _)
  obtain ⟨regs, e⟩ := shown
  rw [e]

theorem Device.state_changeShown : (d.changeShown c).fld F.CLK_CHANGE_STAT_STATE = 0 :=
  (Device.fld_rotShow_other _ _ (by decide)).trans
    ((Device.fld_setFld_disjoint _ _ _ _ (by decide) (.inr (by decide))).trans (Device.fld_setFld _ _ _ (by decide)))

theorem Device.code_changeShown (h : c < 256) : (d.changeShown c).fld F.CLK_CHANGE_STAT_CODE = c :=
  (Device.fld_rotShow_other _ _ (by decide)).trans ((Device.fld_setFld _ _ _ (by decide)).trans (Nat.mod_eq_of_lt h))

theorem Device.fld_changeShown (h : x.addr = Reg.CLK_STAT) : (d.changeShown c).fld x = d.fld x := by
  have off : x.addr ≠ Reg.CLK_CHANGE_STAT := by rw [h]; decide
  refine (Device.fld_rotShow_other _ _ (by rw [h]; decide)).trans ((Device.fld_setFld_other _ _ _ _ off).trans ?_)
  exact (Device.fld_setFld_other _ _ _ _ off).trans rfl

end

theorem Device.isSet_standbyReady (d : Device) : d.standbyReady.isSet F.CLK_STAT_STANDBY_READY = true :=
  (Device.isSet_setFld _ _ _ (by decide)).trans rfl

theorem Device.isSet_standbyReady_lock (d : Device) (r : Nat) : d.standbyReady.isSet (lockBit r) = d.isSet (lockBit r) := by
  obtain ⟨addr, hi, -⟩ := lockBit_spec r
  rw [Device.isSet, Device.standbyReady, Device.fld_setFld_disjoint _ _ _ _ (by decide) (.inr (by simp only [F.CLK_STAT_STANDBY_READY]; omega)),
    Device.fld_setUState_root _ d.standby_lt _ _ (by rw [addr]; decide) (.inr (by omega)), Device.isSet]

theorem Device.isSet_setFld_lockBit (d : Device) (r : Nat) : (d.setFld (lockBit r) 1).isSet (lockBit r) = true := by
  obtain ⟨-, hi, w⟩ := lockBit_spec r
  rw [Device.isSet_setFld _ _ _ (by omega), w]
  rfl

/-- A settled change that an engine asked for: the standby is ready, and the engine gets the code and the stamp. -/
theorem Device.changeSettled_port {y : Device} {e k : Nat} (hy : y = ((d.setFld (lockBit d.standby) 1).standbyReady).changeEnd cOK (some d.roots.stamp))
    (ho : d.roots.origin = some (.port e k)) : y.fld F.CLK_CHANGE_STAT_STATE = 0 ∧ y.fld F.CLK_CHANGE_STAT_CODE = cOK ∧
      y.isSet F.CLK_STAT_STANDBY_READY = true ∧ y.isSet (lockBit d.standby) = true ∧ y.roots = { d.roots with origin := none } ∧
      y.completions = d.completions ++ [⟨e, k, cOK, some d.roots.stamp⟩] ∧
      y = { d with regs := y.regs, rot := y.rot, roots := y.roots, completions := y.completions } := by
  have ready : d.OnlyRegs (d.setFld (lockBit d.standby) 1).standbyReady := ((OnlyRegs.refl d).setFld _ _).trans (Device.standbyReady_frame _)
  rw [Device.changeEnd_port _ _ (by rw [ready.roots, ho])] at hy
  subst hy
  have bit := (Device.isSet_standbyReady_lock (d.setFld (lockBit d.standby) 1) d.standby).trans (Device.isSet_setFld_lockBit _ _)
  have shown := Device.isSet_standbyReady (d.setFld (lockBit d.standby) 1)
  generalize (d.setFld (lockBit d.standby) 1).standbyReady = z at ready bit shown
  have frame := z.changeShown_frame cOK
  refine ⟨?_, ?_, ?_, ?_, ?_, ?_, ?_⟩
  · rw [Device.fld_complete, Device.state_changeShown]
  · rw [Device.fld_complete, Device.code_changeShown _ _ (by decide)]
  · rw [Device.isSet_complete, Device.isSet, Device.fld_changeShown _ _ rfl]
    exact shown
  · rw [Device.isSet_complete, Device.isSet, Device.fld_changeShown _ _ (lockBit_spec _).1]
    exact bit
  · rw [Device.complete_frame, frame, ready.roots]
  · rw [Device.completions_complete, frame, ready.eq]
    rfl
  · rw [Device.complete_frame, frame, ready.eq]

/-! The probe (R457). -/

/-- Whether a probe finds the standby in use. -/
abbrev Device.probeBusy (d : Device) : Prop :=
  d.isSet F.CLK_STAT_STANDBY_READY = false ∨ d.fld F.CLK_CHANGE_STAT_STATE ≠ 0 ∨ d.roots.probe = true

theorem Device.probeBusy_iff (d : Device) : d.probeBusy ↔
    (!d.isSet F.CLK_STAT_STANDBY_READY || decide (d.fld F.CLK_CHANGE_STAT_STATE ≠ 0) || d.roots.probe) = true := by
  rw [Bool.or_eq_true, Bool.or_eq_true, Bool.not_eq_true', decide_eq_true_iff, or_assoc]

/-- PROBE by its two checks. -/
theorem exec_clkProbeGo {code : Nat} {y : Device} (hy : y = s.dev.setFld F.CLK_PROBE_CODE code) {b n : Bool}
    (hb : (!s.dev.isSet F.CLK_STAT_STANDBY_READY || decide (s.dev.fld F.CLK_CHANGE_STAT_STATE ≠ 0) || s.dev.roots.probe) = b)
    (hn : (!s.dev.isSet F.CLK_STAT_REF_PRESENT) = n) : exec (.clkProbeGo code) s = .next { s with dev :=
      (let c := firstCode [(b, cBUSY), (n, cREFLOST)]
       if c = cOK then
         (Device.setFld { y.rootStepOff.standbyOut with roots := { y.rootStepOff.standbyOut.roots with probe := true } } F.CLK_PROBE_GO 1).setFld
           (lockBit y.rootStepOff.standbyOut.standby) 0
       else y.setFld F.CLK_PROBE_RESULT_CODE c) } := by
  have probe : y.roots = s.dev.roots := by rw [hy]; rfl
  have same : ∀ f : FieldAt, f.addr ≠ Reg.CLK_PROBE → y.isSet f = s.dev.isSet f := fun f h => by rw [hy]; exact Device.isSet_setFld_other _ _ _ _ h
  have state : y.fld F.CLK_CHANGE_STAT_STATE = s.dev.fld F.CLK_CHANGE_STAT_STATE := by rw [hy]; exact Device.fld_setFld_other _ _ _ _ (by decide)
  rw [← probe, ← same _ (by decide), ← state] at hb
  rw [← same _ (by decide)] at hn
  subst hb hn hy
  rfl

theorem Device.standby_standbyOut (d : Device) : d.standbyOut.standby = d.standby :=
  Device.standby_congr (d.fld_standbyOut (by decide) (.inr (by decide)))

section
variable {code : Nat} {y : Device} (hy : y = s.dev.setFld F.CLK_PROBE_CODE code)
include hy

theorem exec_clkProbeGo_busy (h : s.dev.probeBusy) : exec (.clkProbeGo code) s = .next { s with dev := y.setFld F.CLK_PROBE_RESULT_CODE cBUSY } := by
  rw [exec_clkProbeGo hy ((s.dev.probeBusy_iff).mp h) rfl, firstCode_head (by simp [cBUSY, cREFLOST])]
  rfl

variable (hs : s.dev.isSet F.CLK_STAT_STANDBY_READY = true) (hc : s.dev.fld F.CLK_CHANGE_STAT_STATE = 0) (hq : s.dev.roots.probe = false)
include hs hc hq

theorem exec_clkProbeGo_absent (hp : s.dev.isSet F.CLK_STAT_REF_PRESENT = false) :
    exec (.clkProbeGo code) s = .next { s with dev := y.setFld F.CLK_PROBE_RESULT_CODE cREFLOST } := by
  rw [exec_clkProbeGo hy (b := false) (n := true) (by rw [hs, hc, hq]; rfl) (by rw [hp]; rfl)]
  rfl

theorem exec_clkProbeGo_starts (hp : s.dev.isSet F.CLK_STAT_REF_PRESENT = true) (hn : s.dev.rotStepOf 8 = none) :
    exec (.clkProbeGo code) s = .next { s with dev :=
      ((Device.setFld { y.standbyOut with roots := { s.dev.roots with probe := true } } F.CLK_PROBE_GO 1).setFld (lockBit s.dev.standby) 0) } := by
  have off : y.rootStepOff = y := Device.rootStepOff_none (by rw [hy]; exact hn)
  have root : y.standbyOut.standby = s.dev.standby := by
    rw [Device.standby_standbyOut, hy]
    exact Device.standby_congr (Device.fld_setFld_other _ _ _ _ (by decide))
  have roots : y.standbyOut.roots = s.dev.roots := by rw [y.standbyOut_frame.roots, hy]; rfl
  rw [exec_clkProbeGo hy (b := false) (n := false) (by rw [hs, hc, hq]; rfl) (by rw [hp]; rfl), off, root, roots]
  rfl

end

/-- What a probe's result shows. -/
def Device.probeShown (d : Device) (mhz : Nat) : Device :=
  (((Device.setFld { d with roots := { d.roots with probe := false } } F.CLK_PROBE_GO 0).setFld F.CLK_PROBE_RESULT_MHZ mhz).setFld
    F.CLK_PROBE_RESULT_VALID 1).setFld F.CLK_PROBE_RESULT_CODE cOK

theorem Device.probeShown_onlyRegs (d : Device) (mhz : Nat) :
    Device.OnlyRegs { d with roots := { d.roots with probe := false } } (d.probeShown mhz) :=
  ((((OnlyRegs.refl _).setFld _ _).setFld _ _).setFld _ _).setFld _ _

theorem Device.roots_probeShown (d : Device) (mhz : Nat) : (d.probeShown mhz).roots = { d.roots with probe := false } :=
  (d.probeShown_onlyRegs mhz).roots

theorem Device.probeShown_frame (d : Device) (mhz : Nat) :
    d.probeShown mhz = { d with roots := (d.probeShown mhz).roots, regs := (d.probeShown mhz).regs } := by
  obtain ⟨regs, e⟩ := d.probeShown_onlyRegs mhz
  rw [e]

theorem exec_probeDone (mhz : Nat) (h : s.dev.roots.probe = true) : exec (.probeDone mhz) s = .next { s with dev := s.dev.probeShown mhz } := by
  show execProbeDone mhz s = _
  exact State.run_of_eq (if_pos h)

theorem exec_probeDone_off (mhz : Nat) (h : s.dev.roots.probe = false) : exec (.probeDone mhz) s = .next s := by
  show execProbeDone mhz s = _
  exact State.run_of_eq (if_neg (Bool.eq_false_iff.mp h))

/-! The fractional modulators (R454). -/

section
variable (m : Mash)

theorem Mash.c2_cycle : m.cycle.c2 = (m.a2 + m.cycle.a1) / 2 ^ 32 := rfl

theorem Mash.c3_cycle : m.cycle.c3 = (m.a3 + m.cycle.a2) / 2 ^ 32 := rfl

end

theorem Device.mash_setMash (d : Device) (r : Nat) (m : Mash) : (d.setMash r m).mash r = m := by
  by_cases h : r = 0
  · subst h
    rfl
  · rw [Device.mash, Device.setMash, if_neg h, if_neg h]

theorem Device.mash_setMash_other (d : Device) (hr : r < 2) (m : Mash) : (d.setMash r m).mash (1 - r) = d.mash (1 - r) := by
  obtain rfl | rfl : r = 0 ∨ r = 1 := by omega
  · rfl
  · rfl

theorem Device.mashWant_setMash (d : Device) (r q : Nat) (m : Mash) : (d.setMash r m).mashWant q = d.mashWant q := by
  by_cases h : r = 0
  · subst h
    rfl
  · rw [Device.setMash, if_neg h]
    rfl

theorem Device.mashLoad_kept (h : (d.mash r).values = d.mashWant r) : d.mashLoad r = d := if_pos h

/-- The fresh modulator of some values. -/
def Mash.fresh (w : Nat × Nat × Nat) : Mash := { cfg := w.1, frac := w.2.1, seed := w.2.2, lfsr := w.2.2 }

theorem Mash.values_fresh (w : Nat × Nat × Nat) : (Mash.fresh w).values = w := rfl

theorem Device.mashLoad_fresh (h : (d.mash r).values ≠ d.mashWant r) (h' : (d.mash (1 - r)).values ≠ d.mashWant r) :
    d.mashLoad r = d.setMash r (Mash.fresh (d.mashWant r)) :=
  (if_neg h).trans (congrArg (d.setMash r) (if_neg h'))

theorem Device.mashLoad_shared (h : (d.mash r).values ≠ d.mashWant r) (h' : (d.mash (1 - r)).values = d.mashWant r) :
    d.mashLoad r = d.setMash r (d.mash (1 - r)) :=
  (if_neg h).trans (congrArg (d.setMash r) (if_pos h'))

/-- Two roots in step that want the same values load them in step. -/
theorem Device.mashLoad_mashLoad (hr : r < 2) (h : d.mash r = d.mash (1 - r)) (hw : d.mashWant r = d.mashWant (1 - r)) :
    ((d.mashLoad r).mashLoad (1 - r)).mash r = ((d.mashLoad r).mashLoad (1 - r)).mash (1 - r) := by
  have twice : 1 - (1 - r) = r := by omega
  by_cases hv : (d.mash r).values = d.mashWant r
  · have kept : (d.mash (1 - r)).values = d.mashWant (1 - r) := by rw [← h, ← hw, hv]
    rw [Device.mashLoad_kept hv, Device.mashLoad_kept kept, h]
  · rw [Device.mashLoad_fresh hv (by rwa [← h])]
    generalize hy : d.setMash r (Mash.fresh (d.mashWant r)) = y
    have own : y.mash r = Mash.fresh (d.mashWant r) := by rw [← hy, Device.mash_setMash]
    have other : y.mash (1 - r) = d.mash (1 - r) := by rw [← hy, Device.mash_setMash_other _ hr]
    have want : y.mashWant (1 - r) = d.mashWant r := by rw [← hy, Device.mashWant_setMash, hw]
    have taken : y.mashLoad (1 - r) = y.setMash (1 - r) (y.mash r) := by
      have load := Device.mashLoad_shared (d := y) (r := 1 - r) (by rw [other, want, ← h]; exact hv) (by rw [twice, own, want, Mash.values_fresh])
      rwa [twice] at load
    rw [taken, Device.mash_setMash]
    have kept := Device.mash_setMash_other y (r := 1 - r) (by omega) (y.mash r)
    rwa [twice] at kept

/-- Both roots advance by the same PFD cycles. -/
theorem Device.mash_pfdTick (h : d.mash 0 = d.mash 1) (hw : d.mashWant 0 = d.mashWant 1) : d.pfdTick.mash 0 = d.pfdTick.mash 1 := by
  have loaded : ((d.mashLoad d.activeRoot).mashLoad d.standby).mash 0 = ((d.mashLoad d.activeRoot).mashLoad d.standby).mash 1 := by
    have both := Device.mashLoad_mashLoad (d := d) (r := d.activeRoot) d.activeRoot_lt
    rw [Device.standby]
    obtain ha | ha : d.activeRoot = 0 ∨ d.activeRoot = 1 := by have := d.activeRoot_lt; omega
    · rw [ha] at both ⊢
      exact both h hw
    · rw [ha] at both ⊢
      exact (both h.symm hw.symm).symm
  rw [Device.pfdTick]
  dsimp only
  split
  · exact loaded
  · rw [Device.mash_setMash, loaded]
    exact Device.mash_setMash_other _ (r := 1) (by decide) _

end Sys2Proof.Machine
end

section
/-! PROOFS. The reference, the roots, frequency changes, the probe and the fractional modulators (R452 to R470). -/

namespace Sys2Proof.Machine

/-- Settles O45, clause by clause: the reference, lock and its loss, changes, the probe, and the modulators. -/
theorem rootCommands : Obligations.RootCommands := by
  intro s u r code mhz d taken present gone chg bit other stall lost go
  have goes : ∀ (i : Instr) (d : Device) cfg frac seed t o (fin : Nat → Device → Device),
      (∀ c y, d.changeReq cfg frac seed t o = (c, y) → exec i s = .next { s with dev := fin c y }) → go i d cfg frac seed t o fin := by
    rintro i d cfg frac seed t o fin told c rfl
    refine ⟨fun hc => .of_eq (told _ _ (Device.changeReq_refused hc)) rfl, fun hc hn => .of_eq (told _ _ (Device.changeReq_accepted hc hn)) ?_⟩
    exact ⟨d.changeTaken cfg frac seed t o, rfl, d.roots_changeTaken _ _ _ _ _, d.state_changeTaken _ _ _ _ _, d.code_changeTaken _ _ _ _ _,
      d.ready_changeTaken _ _ _ _ _, d.changeTaken_frame _ _ _ _ _⟩
  have kept : ∀ r, r < 2 → r ≠ other → r = d.activeRoot := fun r hr h => Device.eq_activeRoot hr h
  have away : r = other → r ≠ d.activeRoot := fun h => h ▸ d.standby_ne_activeRoot
  refine ⟨fun h => .of_eq (exec_refclkLost_absent h) rfl, fun h => .of_eq (exec_refclkLost h) rfl, fun h => .of_eq (exec_refclkPresent_idle h) rfl,
    fun h hs => .of_eq (exec_refclkPresent h hs) rfl, fun h => .of_eq (exec_rootLock_off h) rfl,
    fun hr hg hp hs => ⟨fun hh ho hc hq ht => ?_, fun hh ho ht => ?_⟩, fun h => .of_eq (exec_rootLockLost_off h) rfl,
    fun hr hl hn => ⟨fun ho hh => ?_, fun ho hh hs hp => ?_, fun ho hh hs => ?_, fun ho hg => ?_, fun ho hg ht => ?_⟩,
    fun h => .of_eq (exec_rootRelockTimeout_off ?_) rfl, fun ho hl hg => ⟨fun hf => ?_, fun hf => ?_⟩,
    goes _ _ _ _ _ _ _ _ fun c y h => exec_clkChangeCtlGo h, fun hu => goes _ _ _ _ _ _ _ _ fun c y h => exec_clkChange hu h,
    fun h => ⟨.of_eq (exec_changeRetuned_off h) rfl, .of_eq (exec_changeLockTimeout_off h) rfl⟩, fun h => .of_eq (exec_changeRetuned h) rfl,
    fun h x hx => ?_, fun h => .of_eq (exec_changeSettled_off h) rfl, fun e k h ho => ?_,
    fun x hx => ⟨fun h => ?_, fun hs hc hq hp => ?_, fun hs hc hq hp hn => ?_⟩, fun h => .of_eq (exec_probeDone_off mhz h) rfl, fun h => ?_,
    fun m h1 h2 h3 hf => ?_, fun hr hv hv' => ?_, fun h hw => Device.mash_pfdTick h hw⟩
  · exact .of_eq (exec_rootLock_standby hg hp ho) (Device.lockTaken_ready hs ho hh hc hq ht)
  · exact .of_eq (exec_rootLock_standby hg hp ho) (Device.lockTaken_holdover hs ho hh ht)
  · exact .of_eq (exec_rootLockLost hr hl) (Device.lockMissed_held (kept r hr ho) hh)
  · exact .of_eq (exec_rootLockLost hr hl) (Device.lockMissed_fails hn (kept r hr ho) hh (Bool.and_eq_true_iff.mpr ⟨hs, hp⟩))
  · exact .of_eq (exec_rootLockLost hr hl) (Device.lockMissed_holds hn (kept r hr ho) hh (Bool.and_eq_false_iff.mpr hs))
  · exact .of_eq (exec_rootLockLost hr hl) (Device.lockMissed_gone (away ho) hg)
  · exact .of_eq (exec_rootLockLost hr hl) (Device.lockMissed_standby hn (away ho) hg ht)
  · rintro ⟨ho, hl, hg⟩
    rcases h with h | h | h
    · exact h ho
    · exact Bool.false_ne_true (hl.symm.trans h)
    · exact hg h
  · exact .of_eq (exec_rootRelockTimeout ⟨ho, hl, hg⟩) (if_pos (Nat.succ_lt_succ hf))
  · exact .of_eq (exec_rootRelockTimeout ⟨ho, hl, hg⟩) (if_neg (Nat.not_lt.mpr (Nat.succ_le_succ hf)))
  · subst hx
    exact .of_eq (exec_changeLockTimeout h) rfl
  · exact .of_eq (exec_changeSettled h) (Device.changeSettled_port rfl ho)
  · subst hx
    exact .of_eq (exec_clkProbeGo_busy rfl h) rfl
  · subst hx
    exact .of_eq (exec_clkProbeGo_absent rfl hs hc hq hp) rfl
  · subst hx
    exact .of_eq (exec_clkProbeGo_starts rfl hs hc hq hp hn) rfl
  · refine .of_eq (exec_probeDone mhz h) ⟨Device.roots_probeShown d mhz, ?_, ?_, ?_, fun hm => ?_,
      Device.probeShown_frame d mhz⟩
    · rw [Device.probeShown, Device.fld_setFld_other _ _ _ _ (by decide), Device.fld_setFld_other _ _ _ _ (by decide), Device.fld_setFld_other _ _ _ _ (by decide)]
      exact Device.fld_setFld _ _ _ (by decide)
    · rw [Device.probeShown, Device.fld_setFld_disjoint _ _ _ _ (by decide) (by decide)]
      exact Device.fld_setFld _ _ _ (by decide)
    · exact Device.fld_setFld _ _ _ (by decide)
    · rw [Device.probeShown, Device.fld_setFld_disjoint _ _ _ _ (by decide) (by decide), Device.fld_setFld_disjoint _ _ _ _ (by decide) (by decide)]
      exact (Device.fld_setFld _ _ _ (by decide)).trans (Nat.mod_eq_of_lt hm)
  · exact ⟨_, _, _, Nat.mod_add_div _ _, Nat.mod_add_div _ _, Nat.mod_add_div _ _, Nat.mod_lt _ (by decide), Nat.mod_lt _ (by decide),
      Nat.mod_lt _ (by decide), m.c2_cycle, m.c3_cycle, rfl, rfl, rfl⟩
  · rw [Device.mashLoad_fresh hv hv', Device.mash_setMash]
    rfl

end Sys2Proof.Machine
end


section
/-! SUPPORT. Regions, channels and doorbells of the DMA (R432, R439 to R442). -/

namespace Sys2Proof.Machine

variable {d : Device} {s : State} {u : UCmd} {r c v moved code : Nat} {o : Origin}

/-! Regions (R432). -/

/-- What a region command shows: the region that it names and its code. -/
abbrev Device.rgnShown (d : Device) (r code : Nat) : Device := (d.setFld F.DMA_RGN_CTL_INDEX r).setFld F.DMA_RGN_STAT_CODE code

theorem Device.rgnRegs_rgnShown (d : Device) (r q code : Nat) : (d.rgnShown q code).rgnRegs r = d.rgnRegs r := by
  have same : ∀ a, 0xA81000 ≤ a → (d.rgnShown q code).rd a = d.rd a := fun a ha =>
    (Device.rd_setFld_mk _ _ _ (by simp only [Reg.DMA_RGN_STAT]; omega)).trans (Device.rd_setFld_mk _ _ _ (by simp only [Reg.DMA_RGN_CTL]; omega))
  have pair : ∀ a, 0xA81000 ≤ a → (d.rgnShown q code).rd64 a = d.rd64 a := fun a ha => Device.rd64_congr (same a ha) (same (a + 4) (by omega))
  rw [Device.rgnRegs, Device.rdN_congr (same _ (by simp only [Reg.DMA_R_CFG]; omega)), pair _ (by simp only [Reg.DMA_R_DBASE_LO]; omega),
    pair _ (by simp only [Reg.DMA_R_SIZE_LO]; omega), pair _ (by simp only [Reg.DMA_R_TBASE_LO]; omega), Device.rgnRegs]

/-- A region's copy of its registers is set, and the region is valid or not. -/
def Device.rgnPut (d : Device) (r : Nat) (g : List Nat) (valid : Nat) : Device :=
  Device.setFld { d with regions := Sparse.set (fun _ => []) d.regions r g } (F.DMA_R_CFG_VALID r) valid

section
variable (d) (r) (g : List Nat) (valid : Nat)

theorem Device.rgnSet_rgnPut : (d.rgnPut r g valid).rgnSet r = g := Sparse.get_set_same _ _ _ _

theorem Device.rgnSet_rgnPut_other {k : Nat} (h : k ≠ r) : (d.rgnPut r g valid).rgnSet k = d.rgnSet k := Sparse.get_set_other _ _ _ _ _ h

theorem Device.rgnValid_rgnPut : (d.rgnPut r g valid).rgnValid r = decide (valid % 2 = 1) :=
  Device.isSet_setFld _ _ _ (by simp [F.DMA_R_CFG_VALID])

theorem Device.regions_rgnPut : (d.rgnPut r g valid).regions = Sparse.set (fun _ => []) d.regions r g := rfl

theorem Device.rgnPut_eq {g} : d.rgnPut r g valid = Device.setFld { d with regions := (d.rgnPut r g valid).regions } (F.DMA_R_CFG_VALID r) valid := by
  rw [Device.regions_rgnPut, Device.rgnPut]

end

theorem exec_dmaRgnCtlSet_refused (hr : r < 256) (h : s.dev.rgnCode r ≠ cOK) :
    exec (.dmaRgnCtlSet r) s = .next { s with dev := s.dev.rgnShown r (s.dev.rgnCode r) } := by
  show execDmaRgnCtlSet r s = _
  refine State.run_of_eq ?_
  simp only [Nat.mod_eq_of_lt hr]
  exact if_neg h

theorem exec_dmaRgnCtlSet (hr : r < 256) (h : s.dev.rgnCode r = cOK) :
    exec (.dmaRgnCtlSet r) s = .next { s with dev := (s.dev.rgnShown r cOK).rgnPut r (s.dev.rgnRegs r) 1 } := by
  show execDmaRgnCtlSet r s = _
  refine State.run_of_eq ?_
  simp only [Nat.mod_eq_of_lt hr]
  rw [if_pos h, h, ← s.dev.rgnRegs_rgnShown r r cOK]
  rfl

theorem exec_dmaRgnCtlClear_used (hr : r < 256) (h : s.dev.rgnUsed r = true) :
    exec (.dmaRgnCtlClear r) s = .next { s with dev := s.dev.rgnShown r cBUSY } := by
  show execDmaRgnCtlClear r s = _
  refine State.run_of_eq ?_
  simp only [Nat.mod_eq_of_lt hr, h]
  rfl

theorem exec_dmaRgnCtlClear (hr : r < 256) (h : s.dev.rgnUsed r = false) :
    exec (.dmaRgnCtlClear r) s = .next { s with dev := (s.dev.rgnShown r cOK).rgnPut r [] 0 } := by
  show execDmaRgnCtlClear r s = _
  refine State.run_of_eq ?_
  simp only [Nat.mod_eq_of_lt hr, h]
  rfl

/-! Enabling a channel (R439). -/

theorem Device.dmaEnable_refused (h : d.dmaCode c ≠ cOK) : d.dmaEnable c = (d.dmaCode c, d.setFld (F.DMA_C_STAT_CODE c) (d.dmaCode c)) := if_pos h

/-- An enabled channel: IDLE, with HEAD, TAIL and its counts zero. -/
def Device.dmaFresh (d : Device) (c : Nat) : Device :=
  ((((((((d.setFld (F.DMA_C_STAT_CODE c) cOK).setDma c none).setFld (F.DMA_C_CFG_EN c) 1).setFld (F.DMA_C_STAT_STATE c) 1).wr (Reg.DMA_C_HEAD c) 0).wr
    (Reg.DMA_C_TAIL c) 0).wr64 (Reg.DMA_C_BYTES_LO c) 0).wr (Reg.DMA_C_DESC_CNT c) 0)

theorem Device.dmaEnable_taken (h : d.dmaCode c = cOK) : d.dmaEnable c = (cOK, d.dmaFresh c) := by
  rw [Device.dmaFresh, ← h]
  exact if_neg (not_not_intro h)

theorem exec_dmaCCfgEnable (hc : c < 64) {y : Device} (h : (s.dev.dmaCfg c v).dmaEnable c = (code, y)) :
    exec (.dmaCCfgEnable c v) s = .next { s with dev := y } := by
  show execDmaCCfgEnable c v s = _
  exact State.run_of_eq ((if_neg (Nat.not_le.mpr hc)).trans (congrArg Prod.snd h))

theorem exec_dmaEnable_busy (hu : s.dev.comes 0x0C 1 64 u) (h : (s.dev.accept u).dmaOn u.unit = true) :
    exec (.dmaEnable u) s = .next { s with dev := (s.dev.accept u).complete u.origin cBUSY none } := by
  show execDmaEnable u s = _
  exact State.run_of_eq ((Device.unitCmd_comes _ hu rfl).trans (if_pos h))

/-- The device with the ring registers of an engine's enable written. -/
def Device.dmaRing (d : Device) (u : UCmd) : Device :=
  (d.dmaCfg u.unit (u.word 0)).wrBlock u [(Reg.DMA_C_RING_LO u.unit, 8), (Reg.DMA_C_RING_HI u.unit, 12), (Reg.DMA_C_RING_SIZE u.unit, 16)]

theorem exec_dmaEnable (hu : s.dev.comes 0x0C 1 64 u) (h : (s.dev.accept u).dmaOn u.unit = false) {y : Device}
    (hy : ((s.dev.accept u).dmaRing u).dmaEnable u.unit = (code, y)) :
    exec (.dmaEnable u) s = .next { s with dev := y.complete u.origin code none } := by
  show execDmaEnable u s = _
  refine State.run_of_eq ((Device.unitCmd_comes _ hu rfl).trans ((if_neg (Bool.eq_false_iff.mp h)).trans ?_))
  change Device.complete (((s.dev.accept u).dmaRing u).dmaEnable u.unit).2 u.origin (((s.dev.accept u).dmaRing u).dmaEnable u.unit).1 none = _
  rw [hy]

/-! Dropping a channel (R442). -/

/-- The bytes of a COPY or FILL in progress that a disable still finds written. -/
def Device.dmaPart (d : Device) (c moved : Nat) : Device :=
  match d.dma c with
  | some j => if j.fetching = false ∧ j.code = cOK ∧ (dsOp j.desc = 1 ∨ dsOp j.desc = 2) then (d.dsMove c j moved).2 else d
  | none => d

/-- A channel without a descriptor, OFF. -/
def Device.dmaOff (d : Device) (c : Nat) : Device := ((d.setDma c none).setFld (F.DMA_C_CFG_EN c) 0).setFld (F.DMA_C_STAT_STATE c) 0

/-- HEAD, BYTES and DESC_CNT take values that the manual does not give. -/
def Device.dmaLost (d : Device) (c : Nat) : Device :=
  ((Device.wr { d with freeCount := d.freeCount + 3 } (Reg.DMA_C_HEAD c) (Config.free d.freeCount % 65536)).wr64 (Reg.DMA_C_BYTES_LO c)
    (Config.free (d.freeCount + 1) % 2 ^ 64)).wr (Reg.DMA_C_DESC_CNT c) (Config.free (d.freeCount + 2))

theorem Device.dmaDrop_off (h : d.dmaOn c = false) : d.dmaDrop c moved = d := if_pos (by rw [h]; rfl)

theorem Device.dmaDrop_on (h : d.dmaOn c = true) : d.dmaDrop c moved = ((d.dmaPart c moved).dmaOff c).dmaLost c := by
  have part : (match d.dma c with
      | some j => if (!j.fetching) = true ∧ j.code = cOK ∧ (dsOp j.desc = 1 ∨ dsOp j.desc = 2) then (d.dsMove c j moved).2 else d
      | none => d) = d.dmaPart c moved := by
    rw [Device.dmaPart]
    cases d.dma c with
    | none => rfl
    | some j => simp only [Bool.not_eq_true']
  rw [← part]
  exact if_neg (by rw [h]; decide)

section
variable (d) (c)

/-- The lost counts stand apart from the channel's state. -/
theorem Device.rd_dmaLost {a : Nat} (h1 : a ≠ Reg.DMA_C_HEAD c) (h2 : a ≠ Reg.DMA_C_BYTES_LO c) (h3 : a ≠ Reg.DMA_C_BYTES_LO c + 4)
    (h4 : a ≠ Reg.DMA_C_DESC_CNT c) : (d.dmaLost c).rd a = d.rd a :=
  (Device.rd_wr_other _ _ _ _ h4).trans ((Device.rd_wr64_other _ _ h2 h3).trans ((Device.rd_wr_other _ _ _ _ h1).trans rfl))

theorem Device.dmaOn_dmaOff : ((d.dmaOff c).dmaLost c).dmaOn c = false := by
  refine (Device.isSet_congr (Device.rd_dmaLost _ _ ?_ ?_ ?_ ?_)).trans ?_
  · simp [F.DMA_C_CFG_EN, Reg.DMA_C_CFG, Reg.DMA_C_HEAD]
  · simp [F.DMA_C_CFG_EN, Reg.DMA_C_CFG, Reg.DMA_C_BYTES_LO]
  · simp only [F.DMA_C_CFG_EN, Reg.DMA_C_CFG, Reg.DMA_C_BYTES_LO]; omega
  · simp [F.DMA_C_CFG_EN, Reg.DMA_C_CFG, Reg.DMA_C_DESC_CNT]
  · rw [Device.dmaOff, Device.isSet_setFld_other _ _ _ _ (by simp [F.DMA_C_CFG_EN, F.DMA_C_STAT_STATE, Reg.DMA_C_CFG, Reg.DMA_C_STAT]),
      Device.isSet_setFld _ _ _ (by simp [F.DMA_C_CFG_EN])]
    rfl

theorem Device.state_dmaOff : ((d.dmaOff c).dmaLost c).fld (F.DMA_C_STAT_STATE c) = 0 := by
  refine (Device.fld_congr (Device.rd_dmaLost _ _ ?_ ?_ ?_ ?_)).trans ?_
  · simp [F.DMA_C_STAT_STATE, Reg.DMA_C_STAT, Reg.DMA_C_HEAD]
  · simp [F.DMA_C_STAT_STATE, Reg.DMA_C_STAT, Reg.DMA_C_BYTES_LO]
  · simp only [F.DMA_C_STAT_STATE, Reg.DMA_C_STAT, Reg.DMA_C_BYTES_LO]; omega
  · simp [F.DMA_C_STAT_STATE, Reg.DMA_C_STAT, Reg.DMA_C_DESC_CNT]
  · rw [Device.dmaOff, Device.fld_setFld _ _ _ (by simp [F.DMA_C_STAT_STATE]), Nat.zero_mod]

theorem Device.dmaHead_dmaLost : (d.dmaLost c).dmaHead c = Config.free d.freeCount % 65536 := by
  have head : (d.dmaLost c).rdN (Reg.DMA_C_HEAD c) = Config.free d.freeCount % 65536 % 2 ^ 32 := by
    rw [Device.dmaLost, Device.rdN_wr_other _ _ _ _ (by simp [Reg.DMA_C_HEAD, Reg.DMA_C_DESC_CNT]),
      Device.rdN_congr (Device.rd_wr64_other _ _ (by simp [Reg.DMA_C_HEAD, Reg.DMA_C_BYTES_LO])
        (by simp only [Reg.DMA_C_HEAD, Reg.DMA_C_BYTES_LO]; omega)), Device.rdN_wr]
  rw [Device.dmaHead, Device.fld, bitsOf_zero, head]
  change Config.free d.freeCount % 65536 % 2 ^ 32 % 65536 = _
  omega

theorem Device.bytes_dmaLost : (d.dmaLost c).rd64 (Reg.DMA_C_BYTES_LO c) = Config.free (d.freeCount + 1) % 2 ^ 64 := by
  have after : (d.dmaLost c).rd64 (Reg.DMA_C_BYTES_LO c) = _ :=
    Device.rd64_congr (Device.rd_wr_other _ _ _ _ (by simp [Reg.DMA_C_BYTES_LO, Reg.DMA_C_DESC_CNT]))
      (Device.rd_wr_other _ _ _ _ (by simp only [Reg.DMA_C_BYTES_LO, Reg.DMA_C_DESC_CNT]; omega))
  rw [after, Device.rd64_wr64 _ _ (Nat.mod_lt _ (by decide))]

theorem Device.descCnt_dmaLost : (d.dmaLost c).rdN (Reg.DMA_C_DESC_CNT c) = Config.free (d.freeCount + 2) % 2 ^ 32 := Device.rdN_wr _ _ _

theorem Device.dmaLost_frame : Device.OnlyRegs { d with freeCount := d.freeCount + 3 } (d.dmaLost c) :=
  (((OnlyRegs.refl _).wr _ _).wr64 _ _).wr _ _

theorem Device.dmaOff_frame : Device.OnlyRegs (d.setDma c none) (d.dmaOff c) := ((OnlyRegs.refl _).setFld _ _).setFld _ _

theorem Device.OnlyRegs.dmas {y : Device} (h : d.OnlyRegs y) : y.dmas = d.dmas := by
  obtain ⟨_, rfl⟩ := h
  rfl

theorem Device.OnlyRegs.freeCount {y : Device} (h : d.OnlyRegs y) : y.freeCount = d.freeCount := by
  obtain ⟨_, rfl⟩ := h
  rfl

theorem Device.dmas_dmaOff : ((d.dmaOff c).dmaLost c).dmas = Sparse.set (fun _ => none) d.dmas c none :=
  ((d.dmaOff c).dmaLost_frame c).dmas.trans (d.dmaOff_frame c).dmas

theorem Device.freeCount_dmaOff : (d.dmaOff c).freeCount = d.freeCount := (d.dmaOff_frame c).freeCount

theorem Device.freeCount_dmaLost : (d.dmaLost c).freeCount = d.freeCount + 3 := (d.dmaLost_frame c).freeCount

theorem Device.dma_dmaOff : ((d.dmaOff c).dmaLost c).dma c = none := by
  rw [Device.dma, Device.dmas_dmaOff, Sparse.get_set_same]

theorem Device.dma_dmaOff_other {k : Nat} (h : k ≠ c) : ((d.dmaOff c).dmaLost c).dma k = d.dma k := by
  rw [Device.dma, Device.dmas_dmaOff, Sparse.get_set_other _ _ _ _ _ h, Device.dma]

theorem Device.dmaDropped_frame : (d.dmaOff c).dmaLost c = { d with
    regs := ((d.dmaOff c).dmaLost c).regs, dmas := ((d.dmaOff c).dmaLost c).dmas, freeCount := ((d.dmaOff c).dmaLost c).freeCount } := by
  obtain ⟨regs, e⟩ := (d.dmaOff c).dmaLost_frame c
  obtain ⟨regs', e'⟩ := d.dmaOff_frame c
  rw [e, e']
  rfl

end

/-- What a drop leaves of the device, the requester told. -/
theorem Device.dropped_spec (d : Device) (c : Nat) (o : List Completion) {x : Device}
    (hx : x = { (d.dmaOff c).dmaLost c with completions := ((d.dmaOff c).dmaLost c).completions ++ o }) :
    x.dma c = none ∧ x.dmaOn c = false ∧ x.fld (F.DMA_C_STAT_STATE c) = 0 ∧ (∀ k, k ≠ c → x.dma k = d.dma k) ∧ x.freeCount = d.freeCount + 3 ∧
      x.dmaHead c = Config.free d.freeCount % 65536 ∧ x.rd64 (Reg.DMA_C_BYTES_LO c) = Config.free (d.freeCount + 1) % 2 ^ 64 ∧
      x.rdN (Reg.DMA_C_DESC_CNT c) = Config.free (d.freeCount + 2) % 2 ^ 32 ∧
      x = { d with regs := x.regs, dmas := x.dmas, freeCount := x.freeCount, completions := d.completions ++ o } := by
  have free := d.freeCount_dmaOff c
  have same : ∀ a, x.rd a = ((d.dmaOff c).dmaLost c).rd a := fun a => by rw [hx]; rfl
  have dmas : x.dmas = ((d.dmaOff c).dmaLost c).dmas := by rw [hx]
  refine ⟨?_, ?_, ?_, fun k hk => ?_, ?_, ?_, ?_, ?_, ?_⟩
  · rw [Device.dma, dmas]
    exact d.dma_dmaOff c
  · exact (Device.isSet_congr (same _)).trans (d.dmaOn_dmaOff c)
  · exact (Device.fld_congr (same _)).trans (d.state_dmaOff c)
  · rw [Device.dma, dmas]
    exact d.dma_dmaOff_other c hk
  · rw [hx, ← free]
    exact (d.dmaOff c).freeCount_dmaLost c
  · rw [← free, ← Device.dmaHead_dmaLost]
    exact Device.fld_congr (same _)
  · rw [← free, ← Device.bytes_dmaLost]
    exact Device.rd64_congr (same _) (same _)
  · rw [← free, ← Device.descCnt_dmaLost]
    exact Device.rdN_congr (same _)
  · rw [hx, d.dmaDropped_frame c]

theorem exec_dmaCCfgDisable (hc : c < 64) : exec (.dmaCCfgDisable c v moved) s = .next { s with dev := ((s.dev.dmaCfg c v).dmaDrop c moved) } := by
  show execDmaCCfgDisable c v moved s = _
  exact State.run_of_eq (if_neg (Nat.not_le.mpr hc))

theorem exec_dmaDisable (hu : s.dev.comes 0x0C 2 64 u) : exec (.dmaDisable u moved) s =
    .next { s with dev := (((s.dev.accept u).dmaDrop u.unit moved).complete u.origin cOK none) } := by
  show execDmaDisable u moved s = _
  exact State.run_of_eq (Device.unitCmd_comes _ hu rfl)

/-! Doorbells and RESUME (R440, R441). -/

/-- How far a tail lies ahead of HEAD. -/
abbrev Device.dmaAhead (d : Device) (c t : Nat) : Nat := (t + 65536 - d.dmaHead c) % 65536

/-- Whether a doorbell lies at most the ring's size ahead of HEAD and not behind TAIL. -/
abbrev Device.dmaGood (d : Device) (c t : Nat) : Prop :=
  d.dmaAhead c (t % 65536) ≤ bitsOf (d.rdN (Reg.DMA_C_RING_SIZE c)) 0 17 ∧ d.dmaAhead c (d.dmaTail c) ≤ d.dmaAhead c (t % 65536)

/-- A doorbell that is taken. -/
def Device.dmaRang (d : Device) (c t : Nat) : Device :=
  let y := d.wr (Reg.DMA_C_TAIL c) (t % 65536)
  if y.fld (F.DMA_C_STAT_STATE c) = 1 ∧ y.dmaHead c ≠ t % 65536 then y.setFld (F.DMA_C_STAT_STATE c) 2 else y

/-- A doorbell that is counted as wrong. -/
abbrev Device.dmaWrong (d : Device) (c : Nat) : Device := (d.inc (Reg.DMA_C_DB_ERR c)).flag F.DMA_FLAGS_DOORBELL_ERR Reg.DMA_DB_ERR_CNT

theorem Device.doorbell_good (h : d.dmaGood c v) : d.doorbell c v = (true, d.dmaRang c v) := if_pos h

theorem Device.doorbell_wrong (h : ¬d.dmaGood c v) : d.doorbell c v = (false, d.dmaWrong c) := if_neg h

theorem exec_dmaCTailWrite_off (hc : c < 64) (h : s.dev.dmaOn c = false) : exec (.dmaCTailWrite c v) s = .next { s with dev := s.dev.badAccess } := by
  show execDmaCTailWrite c v s = _
  exact State.run_of_eq ((if_neg (Nat.not_le.mpr hc)).trans (if_neg (Bool.eq_false_iff.mp h)))

theorem exec_dmaCTailWrite (hc : c < 64) (h : s.dev.dmaOn c = true) :
    exec (.dmaCTailWrite c v) s = .next { s with dev := (s.dev.doorbell c v).2 } := by
  show execDmaCTailWrite c v s = _
  exact State.run_of_eq ((if_neg (Nat.not_le.mpr hc)).trans (if_pos h))

theorem exec_dmaCCtlResume (hc : c < 64) (h : s.dev.fld (F.DMA_C_STAT_STATE c) = 3) : exec (.dmaCCtlResume c) s = .next { s with dev :=
    (s.dev.setFld (F.DMA_C_STAT_STATE c) (if s.dev.dmaHead c = s.dev.dmaTail c then 1 else 2)) } := by
  show execDmaCCtlResume c s = _
  exact State.run_of_eq (if_pos ⟨hc, h⟩)

theorem exec_dmaCCtlResume_off (h : s.dev.fld (F.DMA_C_STAT_STATE c) ≠ 3) : exec (.dmaCCtlResume c) s = .next s := by
  show execDmaCCtlResume c s = _
  exact State.run_of_eq (if_neg fun hc => h hc.2)

theorem exec_dmaDoorbell_off (hu : s.dev.comes 0x0C 3 64 u) (h : (s.dev.accept u).dmaOn u.unit = false) :
    exec (.dmaDoorbell u) s = .next { s with dev := (s.dev.accept u).badAccess.complete u.origin cNOTARMED none } := by
  show execDmaDoorbell u s = _
  exact State.run_of_eq ((Device.unitCmd_comes _ hu rfl).trans (if_pos (by rw [h]; rfl)))

theorem exec_dmaDoorbell (hu : s.dev.comes 0x0C 3 64 u) (h : (s.dev.accept u).dmaOn u.unit = true) {ok : Bool} {y : Device}
    (hy : (s.dev.accept u).doorbell u.unit u.imm = (ok, y)) :
    exec (.dmaDoorbell u) s = .next { s with dev := y.complete u.origin (if ok then cOK else cLENGTH) none } := by
  show execDmaDoorbell u s = _
  refine State.run_of_eq ((Device.unitCmd_comes _ hu rfl).trans ((if_neg (by rw [h]; decide)).trans ?_))
  simp only [hy]

end Sys2Proof.Machine
end

section
/-! PROOFS. Regions, channels and doorbells of the DMA (R432, R439 to R442). -/

namespace Sys2Proof.Machine

/-- Settles O43, clause by clause: SET and CLEAR, enabling, dropping, doorbells and RESUME. -/
theorem dmaChannelCommands : Obligations.DmaChannelCommands := by
  intro s u r c v moved d taken n shown ahead good wrong enabled part rang dropped
  have enables : ∀ (i : Instr) (d : Device) c fin, (∀ code y, d.dmaEnable c = (code, y) → exec i s = .next { s with dev := fin y code }) →
      enabled i d c fin := by
    rintro i d c fin told code rfl
    exact ⟨fun h => .of_eq (told _ _ (Device.dmaEnable_refused h)) rfl, fun h => .of_eq (told _ _ (Device.dmaEnable_taken h)) rfl⟩
  have drops : ∀ (i : Instr) (d : Device) c o, exec i s =
      .next { s with dev := { d.dmaDrop c moved with completions := (d.dmaDrop c moved).completions ++ o } } → dropped i d c o := by
    intro i d c o told
    refine ⟨fun h => ?_, fun h => ?_⟩
    · rw [Device.dmaDrop_off h] at told
      exact .of_eq told rfl
    · rw [Device.dmaDrop_on h] at told
      exact .of_eq told ⟨d.dmaPart c moved, rfl, Device.dropped_spec _ c o rfl⟩
  have host : ∀ y : Device, y = { y with completions := y.completions ++ [] } := fun y => by rw [List.append_nil]
  refine ⟨?_, fun hr => ⟨fun h => .of_eq (exec_dmaRgnCtlClear_used hr h) rfl, fun h => .of_eq (exec_dmaRgnCtlClear hr h) ?_⟩,
    fun hc => ⟨enables _ _ _ (fun x _ => x) fun code y h => exec_dmaCCfgEnable hc h, drops _ _ _ _ ((exec_dmaCCfgDisable hc).trans ?_)⟩,
    fun hu h => .of_eq (exec_dmaEnable_busy hu h) rfl,
    fun hu h => enables _ _ _ (fun x code => x.complete u.origin code none) fun code y hy => exec_dmaEnable hu h hy,
    fun hu => drops _ _ _ _ (exec_dmaDisable hu), fun hc => ⟨fun h => .of_eq (exec_dmaCTailWrite_off hc h) rfl, fun h hg => ?_, fun h hg => ?_,
      fun h he => .of_eq (exec_dmaCCtlResume hc h) ?_, fun h he => .of_eq (exec_dmaCCtlResume hc h) ?_,
      fun h => .of_eq (exec_dmaCCtlResume_off h) rfl⟩,
    fun hu => ⟨fun h => .of_eq (exec_dmaDoorbell_off hu h) rfl, fun h hg => .of_eq (exec_dmaDoorbell hu h (Device.doorbell_good hg)) rfl,
      fun h hg => .of_eq (exec_dmaDoorbell hu h (Device.doorbell_wrong hg)) rfl⟩⟩
  · rintro code hr rfl
    refine ⟨fun h => .of_eq (exec_dmaRgnCtlSet_refused hr h) rfl, fun h => .of_eq (exec_dmaRgnCtlSet hr h) ?_⟩
    exact ⟨Device.rgnValid_rgnPut _ _ _ _, Device.rgnSet_rgnPut _ _ _ _, fun k hk => Device.rgnSet_rgnPut_other _ _ _ _ hk,
      Device.rgnPut_eq _ _ _⟩
  · exact ⟨Device.rgnValid_rgnPut _ _ _ _, Device.rgnSet_rgnPut _ _ _ _, fun k hk => Device.rgnSet_rgnPut_other _ _ _ _ hk,
      Device.rgnPut_eq _ _ _⟩
  · rw [← host]
  · exact .of_eq (exec_dmaCTailWrite hc h) (congrArg Prod.snd (Device.doorbell_good hg))
  · exact .of_eq (exec_dmaCTailWrite hc h) (congrArg Prod.snd (Device.doorbell_wrong hg))
  · exact congrArg (d.setFld (F.DMA_C_STAT_STATE c)) (if_pos he)
  · exact congrArg (d.setFld (F.DMA_C_STAT_STATE c)) (if_neg he)

end Sys2Proof.Machine
end


section
/-! SUPPORT. Reads of device memory, scrub and row repair (R404, R408 to R416, R419). -/

namespace Sys2Proof.Machine

variable {d : Device} {s : State} {u : UCmd} {a port age kind p : Nat} {o : Origin}

/-! A read (R404, R408, R411, R413). -/

/-- A read taken by the controller: it ages, and its class's latency and bandwidth are measured. -/
def Device.readTaken (d : Device) (port age : Nat) : Device :=
  ((d.promote port age).timed (Reg.MEM_CLASS_LAT (portClass port))).moved (portClass port)

/-- A codeword that reads without an uncorrectable error is no longer one of those. -/
def Device.readGood (d : Device) (w : Nat) : Device := { d with memc := { d.memc with hot := d.memc.hot.filter (fun x => decide (x ≠ w)) } }

/-- What a read's result does to the controller, the codeword at `a` being number `w`. -/
def Device.codewordRead (d : Device) (a w port kind : Nat) : Device :=
  if kind = 1 then
    let r := countCe d.memc.rowCe (memRow a)
    let th := d.fld F.MEM_REPAIR_CFG_CE_THRESH
    let d := { d with memc := { d.memc with rowCe := r.2, hot := d.memc.hot.filter (fun x => decide (x ≠ w)) } }
    let d := (d.flag F.MEM_FLAGS_CE Reg.MEM_CE_CNT).memLog a 0 port 0
    if th ≠ 0 ∧ r.1 = th then d.autoRepair a port else d
  else if kind = 2 then
    let first := !d.isSet F.MEM_FLAGS_UE
    let d := ((d.flag F.MEM_FLAGS_UE Reg.MEM_UE_CNT).poisonAdd w).memLog a 1 port 0
    let d := if first && d.isSet F.MEM_IRQ_EN then d.msix (d.fld F.MEM_IRQ_VEC) else d
    d.autoRepair a port
  else d.readGood w

theorem Device.memRead_raw (d : Device) (a port kind age : Nat) : d.memRead a port kind age =
    (let y := (d.readTaken port age).codewordRead (a / 32 * 32) (a / 32 * 32 / 32) port kind
     if port ≤ 2 ∧ y.poisoned (a / 32 * 32) 32 = true then
       (if kind = 2 then y else y.memLog (a / 32 * 32) 1 port 0).inc Reg.MEM_POISON_READ_CNT
     else y) := rfl

/-- A read of a codeword, by what its result does, and by its codeword's poison. -/
theorem Device.memRead_eq (d : Device) (a port kind age : Nat) : d.memRead a port kind age =
    (let y := (d.readTaken port age).codewordRead (32 * (a / 32)) (a / 32) port kind
     if port ≤ 2 ∧ y.poisoned (32 * (a / 32)) 32 = true then
       (if kind = 2 then y else y.memLog (32 * (a / 32)) 1 port 0).inc Reg.MEM_POISON_READ_CNT
     else y) := by
  have start : a / 32 * 32 = 32 * (a / 32) := Nat.mul_comm _ _
  have number : a / 32 * 32 / 32 = a / 32 := Nat.mul_div_cancel _ (by decide)
  rw [Device.memRead_raw, number, start]

theorem Device.memRead_clean (d : Device) (a port age : Nat) : d.memRead a port 0 age =
    (let q := (d.readTaken port age).readGood (a / 32)
     if port ≤ 2 ∧ q.poisoned (32 * (a / 32)) 32 = true then (q.memLog (32 * (a / 32)) 1 port 0).inc Reg.MEM_POISON_READ_CNT else q) :=
  d.memRead_eq a port 0 age

/-- A read through another port than the first three has only its result's effects. -/
theorem Device.memRead_port (hp : 3 ≤ port) : d.memRead a port kind age = (d.readTaken port age).codewordRead (32 * (a / 32)) (a / 32) port kind :=
  (d.memRead_eq a port kind age).trans (if_neg fun h => absurd h.1 (by omega))

/-- A corrected read: its row's count, and the count and the log of such errors. -/
def Device.readCorrected (d : Device) (w port : Nat) : Device :=
  (Device.flag { d.readGood w with memc := { (d.readGood w).memc with rowCe := (countCe d.memc.rowCe (memRow (32 * w))).2 } } F.MEM_FLAGS_CE
    Reg.MEM_CE_CNT).memLog (32 * w) 0 port 0

theorem Device.codewordRead_corrected (d : Device) (w port : Nat) : d.codewordRead (32 * w) w port 1 =
    if d.fld F.MEM_REPAIR_CFG_CE_THRESH ≠ 0 ∧ (countCe d.memc.rowCe (memRow (32 * w))).1 = d.fld F.MEM_REPAIR_CFG_CE_THRESH then
      (d.readCorrected w port).autoRepair (32 * w) port
    else d.readCorrected w port := rfl

/-- An uncorrectable read after the first sends no vector. -/
theorem Device.codewordRead_uncorrectable (h : d.isSet F.MEM_FLAGS_UE = true) (a w port : Nat) : d.codewordRead a w port 2 =
    ((((d.flag F.MEM_FLAGS_UE Reg.MEM_UE_CNT).poisonAdd w).memLog a 1 port 0).autoRepair a port) := by
  refine congrArg (fun y : Device => y.autoRepair a port) (if_neg ?_)
  rw [h]
  exact Bool.false_ne_true

/-- Whether the stacks serve requests. -/
abbrev Device.memServes (d : Device) : Prop := d.fld F.MEM_STAT_STATE = 2

theorem exec_memReadComplete (hs : s.dev.memServes) (ha : a < Config.memSize) (hp : port ≤ 42) :
    exec (.memReadComplete a port kind age) s = .next { s with dev := s.dev.memRead a port kind age } := by
  show execMemReadComplete a port kind age s = _
  exact State.run_of_eq (if_pos ⟨decide_eq_true hs, ha, hp⟩)

theorem exec_memReadComplete_off (h : ¬s.dev.memServes ∨ Config.memSize ≤ a ∨ 42 < port) : exec (.memReadComplete a port kind age) s = .next s := by
  show execMemReadComplete a port kind age s = _
  refine State.run_of_eq (if_neg ?_)
  rintro ⟨hs, ha, hp⟩
  rcases h with h | h | h
  · exact h (of_decide_eq_true hs)
  · omega
  · omega

/-! Scrub (R412) and the timing update (R419). -/

theorem exec_scrubRead (hs : s.dev.memServes) : exec (.scrubRead kind age) s = .next { s with dev := s.dev.scrubNext kind age } := by
  show execScrubRead kind age s = _
  exact State.run_of_eq (if_pos (decide_eq_true hs))

theorem exec_scrubRead_off (h : ¬s.dev.memServes) : exec (.scrubRead kind age) s = .next s := by
  show execScrubRead kind age s = _
  exact State.run_of_eq (if_neg fun hs => h (of_decide_eq_true hs))

theorem exec_phyTrackingUpdate (hs : s.dev.memServes) (hp : p < 64) : exec (.phyTrackingUpdate p age) s = .next { s with dev := s.dev.promote 42 age } := by
  show execPhyTrackingUpdate p age s = _
  exact State.run_of_eq (if_pos ⟨decide_eq_true hs, hp⟩)

theorem exec_phyTrackingUpdate_off (h : ¬s.dev.memServes) : exec (.phyTrackingUpdate p age) s = .next s := by
  show execPhyTrackingUpdate p age s = _
  exact State.run_of_eq (if_neg fun hs => h (of_decide_eq_true hs.1))

theorem Device.scrubNext_idle (h : d.memc.scrub = none) (hp : d.isSet F.MEM_SCRUB_CFG_EN = false) : d.scrubNext kind age = d := by
  rw [Device.scrubNext, h]
  exact if_neg (Bool.eq_false_iff.mp hp)

theorem Device.scrubNext_patrol (h : d.memc.scrub = none) (hp : d.isSet F.MEM_SCRUB_CFG_EN = true) (ha : d.rd64 Reg.MEM_SCRUB_POS_LO = a) :
    d.scrubNext kind age = ((if a = 0 then { d with memc := { d.memc with rowCe := [] } } else d).memRead a 42 kind age).wr64 Reg.MEM_SCRUB_POS_LO
      (if a + 32 < Config.memSize then a + 32 else 0) := by
  subst ha
  rw [Device.scrubNext]
  split
  · next hx => rw [h] at hx; cases hx
  · exact if_pos hp

theorem Device.scrubNext_range {e : Nat} (h : d.memc.scrub = some (a, e, o)) : d.scrubNext kind age =
    (let x := d.memRead a 42 kind age
     if a + 32 < e then { x with memc := { x.memc with scrub := some (a + 32, e, o) } }
     else Device.complete { x with memc := { x.memc with scrub := none } } o cOK none) := by
  rw [Device.scrubNext, h]

/-! Repair requests (R414 to R416). -/

section
variable {soft hard : Bool}

theorem Device.repairReq_refused (h : d.repairCode a soft hard ≠ cOK) :
    d.repairReq a soft hard o = (d.repairCode a soft hard, d.setFld F.MEM_REPAIR_STAT_CODE (d.repairCode a soft hard)) := if_pos h

theorem Device.repairReq_taken (h : d.repairCode a soft hard = cOK) : d.repairReq a soft hard o =
    (cOK, let y := d.setFld F.MEM_REPAIR_STAT_CODE cOK; if soft then y.softStart a o else y.hardPend a) := by
  rw [← h]
  exact if_neg (not_not_intro h)

theorem exec_memRepairCtlSoft {c : Nat} {y : Device} (h : s.dev.repairReq s.dev.repairAddr true hard .host = (c, y)) :
    exec (.memRepairCtlSoft hard) s = .next { s with dev := (if c = cOK then y.setFld F.MEM_REPAIR_CTL_SOFT 1 else y) } := by
  show execMemRepairCtlSoft hard s = _
  refine State.run_of_eq ?_
  simp only [h]

theorem exec_memRepairCtlHard {c : Nat} {y : Device} (h : s.dev.repairReq s.dev.repairAddr soft true .host = (c, y)) :
    exec (.memRepairCtlHard soft) s = .next { s with dev := y } := by
  show execMemRepairCtlHard soft s = _
  exact State.run_of_eq (congrArg Prod.snd h)

theorem exec_memRepair (hu : s.dev.comes 0x0B 1 1 u) {c : Nat} {y : Device}
    (h : (s.dev.accept u).repairReq (u.dword 0) (bitAt (u.word 8) 0) (bitAt (u.word 8) 1) u.origin = (c, y)) :
    exec (.memRepair u) s = .next { s with dev := (if c = cOK ∧ bitAt (u.word 8) 0 = true then y else y.complete u.origin c none) } := by
  show execMemRepair u s = _
  refine State.run_of_eq ((Device.unitCmd_comes _ hu rfl).trans ?_)
  simp only [h]

end

/-- The host's soft repair that has started. -/
def Device.softHost (d : Device) (a : Nat) : Device :=
  ((d.setFld F.MEM_REPAIR_STAT_CODE cOK).softStart a .host).setFld F.MEM_REPAIR_CTL_SOFT 1

theorem Device.softHost_frame (d : Device) (a : Nat) :
    Device.OnlyRegs { d with memc := { d.memc with repair := some (memRow a, .host) } } (d.softHost a) := by
  obtain ⟨_, e⟩ := (OnlyRegs.refl d).setFld F.MEM_REPAIR_STAT_CODE cOK
  rw [Device.softHost, e]
  exact OnlyRegs.setFld (OnlyRegs.setFld ⟨_, rfl⟩ _ _) _ _

theorem Device.repair_softHost (d : Device) (a : Nat) : (d.softHost a).memc.repair = some (memRow a, .host) := by
  obtain ⟨_, e⟩ := d.softHost_frame a
  rw [e]

theorem Device.softHost_eq (d : Device) (a : Nat) : d.softHost a = { d with regs := (d.softHost a).regs, memc := (d.softHost a).memc } := by
  obtain ⟨_, e⟩ := d.softHost_frame a
  rw [e]

theorem Device.busy_softHost (d : Device) (a : Nat) : (d.softHost a).fld F.MEM_REPAIR_STAT_BUSY = 1 :=
  (Device.fld_setFld_other _ _ _ _ (by decide)).trans (Device.fld_setFld _ _ _ (by decide))

theorem Device.ctl_softHost (d : Device) (a : Nat) : (d.softHost a).fld F.MEM_REPAIR_CTL_SOFT = 1 := Device.fld_setFld _ _ _ (by decide)

theorem Device.code_softHost (d : Device) (a : Nat) : (d.softHost a).fld F.MEM_REPAIR_STAT_CODE = cOK :=
  (Device.fld_setFld_other _ _ _ _ (by decide)).trans ((Device.fld_setFld_disjoint _ _ _ _ (by decide) (by decide)).trans
    (Device.fld_setFld d _ _ (by decide)))

/-- A hard repair listed for the host. -/
def Device.hardHost (d : Device) (a : Nat) : Device := (d.setFld F.MEM_REPAIR_STAT_CODE cOK).hardPend a

theorem Device.hardHost_new (h : memRow a ∉ d.memc.pend) : d.hardHost a =
    Device.setFld { d.setFld F.MEM_REPAIR_STAT_CODE cOK with memc := { d.memc with pend := d.memc.pend ++ [memRow a] } } F.MEM_REPAIR_STAT_PENDING
      (d.memc.pend.length + 1) := by
  have new : (if memRow a ∈ (d.setFld F.MEM_REPAIR_STAT_CODE cOK).memc.pend then (d.setFld F.MEM_REPAIR_STAT_CODE cOK).memc.pend
      else (d.setFld F.MEM_REPAIR_STAT_CODE cOK).memc.pend ++ [memRow a]) = d.memc.pend ++ [memRow a] := if_neg h
  rw [Device.hardHost, Device.hardPend]
  dsimp only
  rw [new, List.length_append]
  rfl

section
variable (h : memRow a ∉ d.memc.pend)
include h

theorem Device.hardHost_frame : Device.OnlyRegs { d with memc := { d.memc with pend := d.memc.pend ++ [memRow a] } } (d.hardHost a) := by
  obtain ⟨_, e⟩ := (OnlyRegs.refl d).setFld F.MEM_REPAIR_STAT_CODE cOK
  rw [Device.hardHost_new h, e]
  exact OnlyRegs.setFld ⟨_, rfl⟩ _ _

theorem Device.pend_hardHost : (d.hardHost a).memc.pend = d.memc.pend ++ [memRow a] := by
  obtain ⟨_, e⟩ := Device.hardHost_frame h
  rw [e]

theorem Device.hardHost_eq : d.hardHost a = { d with regs := (d.hardHost a).regs, memc := (d.hardHost a).memc } := by
  obtain ⟨_, e⟩ := Device.hardHost_frame h
  rw [e]

theorem Device.pending_hardHost : (d.hardHost a).fld F.MEM_REPAIR_STAT_PENDING = (d.memc.pend.length + 1) % 128 := by
  rw [Device.hardHost_new h]
  exact Device.fld_setFld _ _ _ (by decide)

theorem Device.code_hardHost : (d.hardHost a).fld F.MEM_REPAIR_STAT_CODE = cOK := by
  rw [Device.hardHost_new h]
  exact (Device.fld_setFld_disjoint _ _ _ _ (by decide) (by decide)).trans (Device.fld_setFld d _ _ (by decide))

end

/-! The SCRUB command (R412). -/

theorem pastEnd_inside {x n : Nat} (h : x + n ≤ Config.memSize) : pastEnd x n = false := by
  rw [pastEnd, decide_eq_false (Nat.not_lt.mpr h), Bool.and_false]

theorem pastEnd_above {x n : Nat} (h : Config.memSize ≤ x) : pastEnd x n = false := by
  rw [pastEnd, decide_eq_false (Nat.not_lt.mpr h), Bool.false_and]

theorem Device.memc_accept (d : Device) (u : UCmd) : (d.accept u).memc = d.memc := by
  obtain ⟨_, _, e⟩ := d.accept_frame u
  rw [e]

/-- SCRUB by its checks. -/
theorem exec_memScrub (hu : s.dev.comes 0x0B 2 1 u) {len align above busy : Bool} (hl : (decide (u.word 8 = 0) || pastEnd (u.dword 0) (u.word 8)) = len)
    (ha : decide (u.dword 0 % 32 ≠ 0 ∨ u.word 8 % 32 ≠ 0) = align) (hm : decide (Config.memSize ≤ u.dword 0) = above)
    (hb : s.dev.memc.scrub.isSome = busy) : exec (.memScrub u) s = .next { s with dev :=
      (let y := s.dev.accept u
       let c := firstCode [(len, cLENGTH), (align, cALIGN), (above, cREGION), (busy, cBUSY)]
       if c = cOK then { y with memc := { y.memc with scrub := some (u.dword 0, u.dword 0 + u.word 8, u.origin) } } else y.complete u.origin c none) } := by
  rw [← s.dev.memc_accept u] at hb
  subst hl ha hm hb
  show execMemScrub u s = _
  exact State.run_of_eq (Device.unitCmd_comes _ hu rfl)

section
variable (hu : s.dev.comes 0x0B 2 1 u)
include hu

theorem exec_memScrub_length (hn : u.word 8 = 0) : exec (.memScrub u) s = .next { s with dev := (s.dev.accept u).complete u.origin cLENGTH none } := by
  rw [exec_memScrub hu (len := true) (by rw [hn]; rfl) rfl rfl rfl, firstCode_head (by simp [cLENGTH, cALIGN, cREGION, cBUSY])]
  rfl

variable (hn : u.word 8 ≠ 0)
include hn

theorem exec_memScrub_align (he : u.dword 0 + u.word 8 ≤ Config.memSize) (ha : u.dword 0 % 32 ≠ 0 ∨ u.word 8 % 32 ≠ 0) :
    exec (.memScrub u) s = .next { s with dev := (s.dev.accept u).complete u.origin cALIGN none } := by
  rw [exec_memScrub hu (len := false) (by rw [pastEnd_inside he, decide_eq_false hn]; rfl) (decide_eq_true ha) rfl rfl, firstCode_false,
    firstCode_head (by simp [cALIGN, cREGION, cBUSY])]
  rfl

variable (hx : u.dword 0 % 32 = 0) (hm : u.word 8 % 32 = 0)
include hx hm

theorem exec_memScrub_region (he : Config.memSize ≤ u.dword 0) :
    exec (.memScrub u) s = .next { s with dev := (s.dev.accept u).complete u.origin cREGION none } := by
  rw [exec_memScrub hu (len := false) (by rw [pastEnd_above he, decide_eq_false hn]; rfl) (decide_eq_false (by omega)) (decide_eq_true he) rfl,
    firstCode_false, firstCode_false, firstCode_head (by simp [cREGION, cBUSY])]
  rfl

variable (he : u.dword 0 + u.word 8 ≤ Config.memSize)
include he

theorem exec_memScrub_busy (hb : s.dev.memc.scrub.isSome = true) :
    exec (.memScrub u) s = .next { s with dev := (s.dev.accept u).complete u.origin cBUSY none } := by
  rw [exec_memScrub hu (len := false) (by rw [pastEnd_inside he, decide_eq_false hn]; rfl) (decide_eq_false (by omega)) (decide_eq_false (by omega)) hb]
  rfl

theorem exec_memScrub_starts (hb : s.dev.memc.scrub = none) : exec (.memScrub u) s = .next { s with dev :=
    { s.dev.accept u with memc := { (s.dev.accept u).memc with scrub := some (u.dword 0, u.dword 0 + u.word 8, u.origin) } } } := by
  rw [exec_memScrub hu (len := false) (by rw [pastEnd_inside he, decide_eq_false hn]; rfl) (decide_eq_false (by omega)) (decide_eq_false (by omega))
    (busy := false) (by rw [hb]; rfl)]
  rfl

end

/-! The end of a soft repair (R414). -/

/-- The registers that a soft repair's end changes: BUSY, the count of repairs, the row's pseudo-channel and the spares. -/
def Device.softShown (d : Device) (r : Nat) : Device :=
  let y := (d.setFld F.MEM_REPAIR_STAT_BUSY 0).inc Reg.MEM_REPAIR_CNT
  (y.setFld (F.MEM_PC_STAT_SOFT (rowPc r)) (min 255 (y.fld (F.MEM_PC_STAT_SOFT (rowPc r)) + 1))).showSpares

/-- A row under soft repair. -/
def Device.softRow (d : Device) (r : Nat) : Device :=
  let y := d.rowPoison r
  { y with memc := { y.memc with repair := none, soft := if r ∈ y.memc.soft then y.memc.soft else y.memc.soft ++ [r] } }

/-- The requester of a soft repair is told. -/
def Device.softTold (d : Device) (o : Origin) : Device :=
  match o with
  | .host => d.setFld F.MEM_REPAIR_CTL_SOFT 0
  | .port _ _ => d.complete o cOK none
  | .device => d

theorem exec_softRepairDone_none (h : s.dev.memc.repair = none) : exec .softRepairDone s = .next s := by
  show execSoftRepairDone s = _
  refine State.run_of_eq ?_
  rw [h]

theorem exec_softRepairDone {r : Nat} (h : s.dev.memc.repair = some (r, o)) :
    exec .softRepairDone s = .next { s with dev := ((s.dev.softRow r).softShown r).softTold o } := by
  show execSoftRepairDone s = _
  refine State.run_of_eq ?_
  split
  · next hx => rw [h] at hx; cases hx
  · next r' o' hx =>
    obtain ⟨rfl, rfl⟩ : r' = r ∧ o' = o := by
      rw [h] at hx
      cases hx
      exact ⟨rfl, rfl⟩
    rfl

theorem Device.softShown_frame (d : Device) (r : Nat) : d.OnlyRegs (d.softShown r) :=
  ((((((OnlyRegs.refl d).setFld _ _).inc _).setFld _ _).setFld _ _).setFld _ _)

/-- Below the registers of the pseudo-channels only BUSY and the count of repairs change. -/
theorem Device.rd_softShown (d : Device) {r : Nat} {b : Nat} (hb : b < 0x900200) :
    (d.softShown r).rd b = ((d.setFld F.MEM_REPAIR_STAT_BUSY 0).inc Reg.MEM_REPAIR_CNT).rd b := by
  have stack : ∀ (y : Device) (i v : Nat), (y.setFld (F.MEM_S_STAT_SPARE i) v).rd b = y.rd b := fun y i v =>
    y.rd_setFld_mk _ v (by simp only [Reg.MEM_S_STAT]; omega)
  refine (stack _ _ _).trans ((stack _ _ _).trans (Device.rd_setFld_mk _ _ _ ?_))
  simp only [Reg.MEM_PC_STAT]; omega

theorem Device.rd_softTold (d : Device) (o : Origin) {b : Nat} (hb : b ≠ Reg.MEM_REPAIR_CTL) : (d.softTold o).rd b = d.rd b := by
  cases o with
  | host => exact Device.rd_setFld_mk _ _ _ hb
  | port e k => exact d.rd_complete _ _ _ _
  | device => rfl

theorem Device.softTold_frame (d : Device) (o : Origin) :
    d.softTold o = { d with regs := (d.softTold o).regs, completions := d.completions ++ o.told cOK none } := by
  cases o with
  | host =>
    obtain ⟨regs, e⟩ := (OnlyRegs.refl d).setFld F.MEM_REPAIR_CTL_SOFT 0
    refine e.trans ?_
    change _ = { d with regs := (d.setFld F.MEM_REPAIR_CTL_SOFT 0).regs, completions := d.completions ++ [] }
    rw [e, List.append_nil]
  | port e k => rfl
  | device => exact (congrArg (fun l => { d with completions := l }) (List.append_nil d.completions)).symm

section
variable (d) {r : Nat} (o : Origin)

theorem Device.softDone_frame : ((d.softRow r).softShown r).softTold o = { d with
    regs := (((d.softRow r).softShown r).softTold o).regs, memc := (d.softRow r).memc, poison := (d.rowPoison r).poison,
    completions := d.completions ++ o.told cOK none } := by
  obtain ⟨regs, e⟩ := (d.softRow r).softShown_frame r
  rw [Device.softTold_frame, e]
  rfl

theorem Device.busy_softDone : (((d.softRow r).softShown r).softTold o).fld F.MEM_REPAIR_STAT_BUSY = 0 :=
  (Device.fld_congr ((Device.rd_softTold _ _ (by decide)).trans ((Device.rd_softShown _ (by decide)).trans (Device.rd_inc_other _ (by decide))))).trans
    (Device.fld_setFld _ _ _ (by decide))

theorem Device.repairCnt_softDone : (((d.softRow r).softShown r).softTold o).rdN Reg.MEM_REPAIR_CNT = min (d.rdN Reg.MEM_REPAIR_CNT + 1) 0xFFFFFFFF := by
  rw [Device.rdN_congr ((Device.rd_softTold _ o (by decide)).trans (Device.rd_softShown (d.softRow r) (r := r) (by decide))), Device.rdN_inc,
    Device.rdN_congr (Device.rd_setFld_mk _ _ _ (by decide))]
  rfl

theorem Device.ctl_softDone : (((d.softRow r).softShown r).softTold .host).fld F.MEM_REPAIR_CTL_SOFT = 0 := Device.fld_setFld _ _ _ (by decide)

theorem Device.softRow_new (h : r ∉ d.memc.soft) : (d.softRow r).memc.repair = none ∧ (d.softRow r).memc.soft = d.memc.soft ++ [r] :=
  ⟨rfl, if_neg h⟩

end

end Sys2Proof.Machine
end

section
/-! PROOFS. Reads of device memory, scrub and row repair (R404, R408 to R416, R419). -/

namespace Sys2Proof.Machine

/-- Settles O42, clause by clause: reads, scrub, the timing update, repairs by host and engine, SCRUB, and the end of a soft repair. -/
theorem memoryCommands : Obligations.MemoryCommands := by
  intro s u a port age kind p d taken w serves read clean
  refine ⟨?_, ?_, ?_, fun h => ?_, fun hs hn hp => ?_, fun hs hn hp ha h0 => ⟨fun he => ?_, fun he => ?_⟩, fun hs hn hp ha => ?_,
    fun e o hs hr => ⟨fun he => ?_, fun he => ?_⟩, fun h => ⟨?_, ?_⟩, fun hs hp => ?_, ?_, ?_, ?_,
    fun h => ?_, fun r o _ hr hn => ?_⟩
  · rintro hs ha hp q rfl
    have told := exec_memReadComplete (kind := 0) (age := age) hs ha hp
    rw [Device.memRead_clean] at told
    refine ⟨fun h => .of_eq told (if_neg ?_), fun h2 hq => .of_eq told (if_pos ⟨h2, hq⟩)⟩
    rintro ⟨h2, hq⟩
    rcases h with h | h
    · omega
    · exact Bool.false_ne_true (h.symm.trans hq)
  · rintro hs ha h3 hp q r rfl rfl c rfl
    have told := exec_memReadComplete (kind := 1) (age := age) hs ha hp
    rw [Device.memRead_port h3, Device.codewordRead_corrected] at told
    refine ⟨fun h => .of_eq told (if_neg ?_), fun h0 h1 => .of_eq told (if_pos ⟨h0, h1⟩)⟩
    rintro ⟨h0, h1⟩
    exact h.elim h0 (absurd h1)
  · intro hs ha h3 hp hf
    have told := exec_memReadComplete (kind := 2) (age := age) hs ha hp
    rw [Device.memRead_port h3, Device.codewordRead_uncorrectable (d := s.dev.readTaken port age) hf] at told
    exact .of_eq told rfl
  · exact .of_eq (exec_memReadComplete_off h) rfl
  · exact .of_eq (exec_scrubRead hs) (Device.scrubNext_idle hn hp)
  · have told := exec_scrubRead (kind := kind) (age := age) hs
    rw [Device.scrubNext_patrol hn hp ha, if_neg h0, if_pos he] at told
    exact .of_eq told rfl
  · have told := exec_scrubRead (kind := kind) (age := age) hs
    rw [Device.scrubNext_patrol hn hp ha, if_neg h0, if_neg (Nat.not_lt.mpr he)] at told
    exact .of_eq told rfl
  · have told := exec_scrubRead (kind := kind) (age := age) hs
    rw [Device.scrubNext_patrol hn hp ha, if_pos rfl, if_pos (by decide)] at told
    exact .of_eq told rfl
  · have told := exec_scrubRead (kind := kind) (age := age) hs
    rw [Device.scrubNext_range hr] at told
    dsimp only at told
    rw [if_pos he] at told
    refine .of_eq told ⟨rfl, ?_⟩
    rintro x rfl
    exact ⟨rfl, rfl⟩
  · have told := exec_scrubRead (kind := kind) (age := age) hs
    rw [Device.scrubNext_range hr] at told
    dsimp only at told
    rw [if_neg (Nat.not_lt.mpr he)] at told
    refine .of_eq told ⟨?_, ?_⟩
    · rw [Device.complete_frame]
    · rintro x rfl
      rfl
  · exact .of_eq (exec_scrubRead_off h) rfl
  · exact .of_eq (exec_phyTrackingUpdate_off h) rfl
  · exact .of_eq (exec_phyTrackingUpdate hs hp) rfl
  · intro soft hard at' c
    refine ⟨?_, ?_, ?_, ?_⟩
    · rintro rfl hc
      exact .of_eq (exec_memRepairCtlSoft (Device.repairReq_refused hc)) (if_neg hc)
    · rintro rfl hc
      exact .of_eq (exec_memRepairCtlSoft (Device.repairReq_taken hc))
        ⟨d.repair_softHost at', d.busy_softHost at', d.ctl_softHost at', d.code_softHost at', d.softHost_eq at'⟩
    · rintro rfl hc
      exact .of_eq (exec_memRepairCtlHard (Device.repairReq_refused hc)) rfl
    · rintro rfl hc rfl hn
      exact .of_eq (exec_memRepairCtlHard (Device.repairReq_taken hc))
        ⟨Device.pend_hardHost hn, Device.pending_hardHost hn, Device.code_hardHost hn, Device.hardHost_eq hn⟩
  · rintro c rfl hu
    refine ⟨fun hc => .of_eq (exec_memRepair hu (Device.repairReq_refused hc)) (if_neg fun h => hc h.1), fun hc hb => ?_, fun hc hb => ?_⟩
    · refine .of_eq (exec_memRepair hu (Device.repairReq_taken hc)) ((if_pos ⟨rfl, hb⟩).trans ?_)
      rw [hb]
      rfl
    · refine .of_eq (exec_memRepair hu (Device.repairReq_taken hc)) ((if_neg fun h => Bool.false_ne_true (hb.symm.trans h.2)).trans ?_)
      rw [hb]
      rfl
  · rintro x n hu rfl rfl
    refine ⟨fun hn he hx hm hb => .of_eq (exec_memScrub_starts hu hn hx hm he hb) ⟨?_, rfl, ?_⟩, fun hn _ _ => .of_eq (exec_memScrub_length hu hn) rfl,
      fun hn he ha => .of_eq (exec_memScrub_align hu hn he ha) rfl, fun hn hm hx he => .of_eq (exec_memScrub_region hu hn hx hm he) rfl,
      fun hn he hx hm hb => .of_eq (exec_memScrub_busy hu hn hx hm he hb) rfl⟩
    · rfl
    · dsimp only
      rw [Device.memc_accept]
  · exact .of_eq (exec_softRepairDone_none h) rfl
  · have frame := Device.softDone_frame d (r := r) o
    obtain ⟨repair, soft⟩ := Device.softRow_new d hn
    refine .of_eq (exec_softRepairDone hr) ⟨?_, ?_, Device.busy_softDone d o, Device.repairCnt_softDone d o, ?_, ?_, ?_, ?_⟩
    · rw [frame]
      exact repair
    · rw [frame]
      exact soft
    · rintro rfl
      exact Device.ctl_softDone d
    · rw [frame]
    · rw [frame]
      cases o with
      | host => rfl
      | port e k => rfl
      | device => rfl
    · rw [frame]

end Sys2Proof.Machine
end


section
/-! SUPPORT. DMA descriptors, the answers of the host, and the host link (R424, R427 to R429, R433 to R435, R438, R441, R447, R448). -/

namespace Sys2Proof.Machine

variable {d : Device} {s : State} {c a b n f v speed width kind off status code result : Nat} {j : DmaJob} {side flit : Bool} {data : List Byte}

/-! Fetching (R427, R443). -/

/-- A channel of higher priority is served first. -/
abbrev Device.outranks (d : Device) (c : Nat) : Prop :=
  ∃ k, k < 64 ∧ d.dmaServes k = true ∧ d.fld (F.DMA_C_CFG_PRI c) < d.fld (F.DMA_C_CFG_PRI k)

theorem Device.outranks_iff (d : Device) (c : Nat) : d.outranks c ↔ d.dmaOutranked c = true := by
  simp only [Device.outranks, Device.dmaOutranked, List.any_eq_true, List.mem_range, Bool.and_eq_true, decide_eq_true_eq]

theorem exec_descriptorFetch_waits (h : s.dev.dmaServes c = false ∨ s.dev.outranks c) : exec (.descriptorFetch c) s = .next s := by
  show execDescriptorFetch c s = _
  refine State.run_of_eq (if_pos ?_)
  rw [Bool.or_eq_true, Bool.not_eq_true']
  exact h.imp id (s.dev.outranks_iff c).mp

theorem Device.dmaServes_idle (h : d.dmaReady c = false) : d.dmaServes c = false := by
  rw [Device.dmaServes, h, Bool.false_and]

theorem Device.dmaServes_dev (h : d.dmaReady c = true) (hr : d.rgnMap (d.ringAt c (d.dmaHead c)) = .dev a) : d.dmaServes c = true := by
  rw [Device.dmaServes, h, hr]
  rfl

theorem Device.dmaServes_host (hr : d.rgnMap (d.ringAt c (d.dmaHead c)) = .host a) :
    d.dmaServes c = (d.dmaReady c && (d.linkOpen && decide (d.dmaOutAll < 1024))) := by
  rw [Device.dmaServes, hr]

/-- A channel that is served first fetches from where its ring lies. -/
theorem exec_descriptorFetch (h : s.dev.dmaServes c = true) (ho : ¬s.dev.outranks c) : exec (.descriptorFetch c) s = .next { s with dev :=
    (match s.dev.rgnMap (s.dev.ringAt c (s.dev.dmaHead c)) with
     | .dev a => (s.dev.moved 4).dsStart c (memBytes s.dev.mem a 64) false
     | .host a => ((s.dev.setDma c (some { fetching := true })).setFld (F.DMA_C_STAT_STATE c) 2).send (.hostReadReq a 64 false)
     | _ => s.dev) } := by
  show execDescriptorFetch c s = _
  refine State.run_of_eq (if_neg ?_)
  rw [h, Bool.not_true, Bool.false_or]
  exact mt (s.dev.outranks_iff c).mpr ho

theorem Device.dma_setDma (d : Device) (c : Nat) (x : Option DmaJob) : (d.setDma c x).dma c = x := Sparse.get_set_same _ _ _ _

/-! The end of a descriptor (R428, R441). -/

theorem exec_descriptorComplete_none (h : s.dev.dma c = none) : exec (.descriptorComplete c) s = .next s := by
  show execDescriptorComplete c s = _
  refine State.run_of_eq ?_
  rw [h]

theorem exec_descriptorComplete (h : s.dev.dma c = some j) : exec (.descriptorComplete c) s = .next { s with dev :=
    (if (!j.fetching && s.dev.supplied j && (s.dev.linkOpen || !s.dev.dsNeedsLink c j)) = true then (s.dev.dsFinish c j).dmaGo
     else Device.dsAsk c 256 s.dev) } := by
  show execDescriptorComplete c s = _
  refine State.run_of_eq ?_
  rw [h]

theorem Device.dsAsk_fetching (h : d.dma c = some j) (hf : j.fetching = true) : Device.dsAsk c 256 d = d := by
  rw [Device.dsAsk, h]
  exact if_pos (.inl hf)

/-- A descriptor that has all it needs ends, where neither its data nor its write-back goes to the host. -/
theorem exec_descriptorComplete_ends (h : s.dev.dma c = some j) (hf : j.fetching = false) (hs : s.dev.supplied j = true)
    (hd : j.code = cOK → j.dst.isHost = false) (hr : s.dev.rgnMap (s.dev.ringAt c (s.dev.dmaHead c)) = .dev a) :
    exec (.descriptorComplete c) s = .next { s with dev := (s.dev.dsFinish c j).dmaGo } := by
  have here : s.dev.dsNeedsLink c j = false := by
    have data : (decide (j.code = cOK) && decide (dsOp j.desc ≠ 3) && j.dst.isHost) = false := by
      by_cases hc : j.code = cOK
      · rw [hd hc, Bool.and_false]
      · rw [decide_eq_false hc, Bool.false_and, Bool.false_and]
    rw [Device.dsNeedsLink, data, hr]
    rfl
  rw [exec_descriptorComplete h, hf, hs, here, Bool.not_false, Bool.or_true]
  rfl

/-- HEAD goes on past a descriptor, and it is counted. -/
def Device.dsHead (d : Device) (c : Nat) : Device :=
  ((d.setDma c none).wr (Reg.DMA_C_HEAD c) ((d.dmaHead c + 1) % 65536)).inc (Reg.DMA_C_DESC_CNT c)

/-- The bytes of a write-back. -/
def backBytes (j : DmaJob) (code fl result : Nat) : List Byte :=
  bytesLE 1 code ++ bytesLE 1 fl ++ bytesLE 2 0 ++ bytesLE 4 (dsTag j.desc) ++ bytesLE 8 result

/-- The write-back of a descriptor, its vector, its poison, and HEAD: the common end. -/
def Device.dsEnd (d : Device) (c : Nat) (j : DmaJob) (code : Nat) (mism qshort : Bool) (result : Nat) : Device :=
  let d := d.writeBack c j code mism qshort result
  let d := if dsCtl j.desc 10 1 = 1 ∧ d.isSet (F.DMA_C_CFG_VEC_EN c) then d.msix (d.fld (F.DMA_C_CFG_VEC c)) else d
  let d := if j.poison then d.flag F.DMA_FLAGS_POISON Reg.DMA_POISON_CNT else d
  let d := d.dsHead c
  if code = cOK then d.setFld (F.DMA_C_STAT_STATE c) (if d.dmaHead c = d.dmaTail c then 1 else 2)
  else ((d.setFld (F.DMA_C_STAT_STATE c) 3).setFld (F.DMA_C_STAT_CODE c) code).flag F.DMA_FLAGS_ERROR Reg.DMA_ERR_CNT

/-- What a descriptor still does with its data when its end has come: the job after it, whether it stopped short, the first difference, and
the device. -/
def Device.dsRest (d : Device) (c : Nat) (j : DmaJob) : DmaJob × Bool × Option Nat × Device :=
  if !(decide (j.code = cOK) && !j.hostErr) then (j, false, none, d)
  else
    match dsOp j.desc, j.src with
    | 3, _ => ({ j with poison := j.poison || d.cmpPoison j }, false, d.dsCompare j, if j.src.isHost && j.dst.isHost then d else d.moved 4)
    | 1, .queue q =>
      let x := d.dsRecords c q j (dsLen j.desc)
      (x.1, x.2.1, none, if dsCtl j.desc 12 1 = 1 then x.2.2.qRelease q else x.2.2)
    | _, _ =>
      let x := d.dsMove c j (dsLen j.desc)
      (x.1, false, none, x.2)

theorem Device.dsFinish_eq (d : Device) (c : Nat) (j : DmaJob) : d.dsFinish c j =
    (let r := d.dsRest c j
     r.2.2.2.dsEnd c r.1 (if r.1.hostErr then cREGION else r.1.code) r.2.2.1.isSome r.2.1
       (if r.1.code ≠ cOK then 0 else if dsOp j.desc = 3 ∧ !r.1.hostErr then r.2.2.1.getD (dsLen r.1.desc) else r.1.wrote)) := rfl

theorem Device.dsFinish_refused (h : j.code ≠ cOK) (he : j.hostErr = false) : d.dsFinish c j = d.dsEnd c j j.code false false 0 := by
  have rest : d.dsRest c j = (j, false, none, d) := if_pos (by rw [decide_eq_false h]; rfl)
  rw [Device.dsFinish_eq, rest]
  dsimp only
  rw [if_pos h, he]
  rfl

theorem Device.dsFinish_moves {k : DmaJob} {y : Device} (h : j.code = cOK) (he : j.hostErr = false)
    (ho : dsOp j.desc = 2 ∨ (dsOp j.desc = 1 ∧ j.src = .dev f)) (hm : d.dsMove c j (dsLen j.desc) = (k, y)) (hk : k.code = cOK)
    (hk' : k.hostErr = false) : d.dsFinish c j = y.dsEnd c k cOK false false k.wrote := by
  have good : ¬(!(decide (j.code = cOK) && !j.hostErr)) = true := by
    rw [h, he]
    decide
  have rest : d.dsRest c j = (k, false, none, y) := by
    rw [Device.dsRest, if_neg good, hm]
    split
    · next h3 => omega
    · next q h1 hq =>
      rcases ho with ho | ⟨-, hs⟩
      · omega
      · rw [hs] at hq
        cases hq
    · rfl
  have other : ¬dsOp j.desc = 3 := by omega
  rw [Device.dsFinish_eq, rest]
  dsimp only
  rw [hk, hk', if_neg Bool.false_ne_true, if_neg (not_not_intro rfl), if_neg fun h => other h.1]
  rfl

/-- The end of a descriptor that read no poison and asked for no vector, with its ring in device memory. -/
theorem Device.dsEnd_dev (hp : j.poison = false) (he : j.hostErr = false) (hv : dsCtl j.desc 10 1 = 0)
    (hr : d.rgnMap (d.ringAt c (d.dmaHead c)) = .dev a) : d.dsEnd c j code false false result =
      (let y := ((d.store (a + 0x30) (backBytes j code 1 result)).moved 4).dsHead c
       if code = cOK then y.setFld (F.DMA_C_STAT_STATE c) (if y.dmaHead c = y.dmaTail c then 1 else 2)
       else ((y.setFld (F.DMA_C_STAT_STATE c) 3).setFld (F.DMA_C_STAT_CODE c) code).flag F.DMA_FLAGS_ERROR Reg.DMA_ERR_CNT) := by
  have back : d.writeBack c j code false false result = (d.store (a + 0x30) (backBytes j code 1 result)).moved 4 := by
    rw [Device.writeBack, hp, he, hr]
    rfl
  have quiet : ∀ y : Device, ¬(dsCtl j.desc 10 1 = 1 ∧ y.isSet (F.DMA_C_CFG_VEC_EN c) = true) := fun y h => by omega
  rw [Device.dsEnd, back]
  dsimp only
  rw [if_neg (quiet _), hp, if_neg Bool.false_ne_true]

/-! Moving bytes within device memory (R435, R438). -/

theorem List.foldl_fixed {α β : Type} {f : β → α → β} {x : β} {l : List α} (h : ∀ i ∈ l, f x i = x) : l.foldl f x = x :=
  List.foldlRecOn (motive := fun y => y = x) l f rfl fun y hy i hi => by rw [hy, h i hi]

/-- Bytes put in device memory, none of them poisoned. -/
theorem Device.dsPut_dev {ep : Nat → Nat → Bool} {bs : List Byte} (hf : dsDstFix j.desc = false) (hd : j.dst = .dev b) (hp : j.poison = false)
    (he : ∀ o k, o + k ≤ bs.length → ep o k = false) : d.dsPut j off bs ep = (d.storeFrom b (b + off) bs).moved 4 := by
  rw [Device.dsPut, hf, if_neg Bool.false_ne_true, hd]
  dsimp only
  rw [hp, if_neg Bool.false_ne_true]
  refine List.foldl_fixed fun i hi => if_neg ?_
  have hi := List.mem_range.mp hi
  rw [he _ _ (by omega)]
  exact Bool.false_ne_true

/-- A range that touches no poisoned codeword has no part that does. -/
theorem Device.poisoned_part (h : d.poisoned a n = false) {o k : Nat} (ho : o + k ≤ n) : d.poisoned (a + o) k = false := by
  rw [Device.poisoned, List.any_eq_false] at h ⊢
  intro w hw
  have := h w hw
  rw [Bool.and_eq_true, decide_eq_true_eq, decide_eq_true_eq] at this ⊢
  omega

/-- A FILL of device memory that has not begun, done whole. -/
theorem Device.dsMove_fill (ho : dsOp j.desc = 2) (hf : dsDstFix j.desc = false) (hd : j.dst = .dev b) (hp : j.poison = false) (hw : j.wrote = 0)
    (hn : dsLen j.desc = n) : d.dsMove c j (dsLen j.desc) = ({ j with wrote := n },
      ((d.storeFrom b b ((List.range n).map (fun i => j.desc.getD (0x18 + i % max 1 (dsPlen j.desc)) 0))).moved 4).add64 (Reg.DMA_C_BYTES_LO c) n) := by
  have bytes : fillBytes j.desc 0 n = (List.range n).map (fun i => j.desc.getD (0x18 + i % max 1 (dsPlen j.desc)) 0) := by
    simp only [fillBytes, Nat.zero_add]
  refine (if_pos ho).trans ?_
  rw [hn, hw, Nat.min_self, Nat.sub_zero, Nat.zero_add, Device.dsPut_dev hf hd hp (fun _ _ _ => rfl), bytes]
  rfl

/-- A COPY within device memory out of no poisoned codeword that has not begun, done whole. -/
theorem Device.dsMove_copy (ho : dsOp j.desc = 1) (hs : dsSrcFix j.desc = false) (hf : dsDstFix j.desc = false) (hj : j.src = .dev f)
    (hd : j.dst = .dev b) (hp : j.poison = false) (hw : j.wrote = 0) (hn : dsLen j.desc = n) (hq : d.poisoned f n = false) :
    d.dsMove c j (dsLen j.desc) = ({ j with wrote := n },
      (((d.storeFrom b b ((List.range n).map (fun i => memGet d.mem (f + i)))).moved 4).moved 4).add64 (Reg.DMA_C_BYTES_LO c) n) := by
  have bytes : d.sideBytes false (dsWidth j.desc) f 0 n = (List.range n).map (fun i => memGet d.mem (f + i)) := by
    simp only [Device.sideBytes, sideAt, Nat.zero_add, Bool.false_eq_true, if_false]
  have clean : ∀ o k, o + k ≤ n → d.poisoned (f + o) k = false := fun o k h => Device.poisoned_part hq h
  have len : ((List.range n).map (fun i => memGet d.mem (f + i))).length = n := by rw [List.length_map, List.length_range]
  refine (if_neg (by omega)).trans ?_
  rw [hj]
  dsimp only
  rw [hn, hw, hs, Nat.min_self, Nat.sub_zero, bytes]
  simp only [Bool.false_eq_true, if_false, Nat.add_zero, Nat.zero_add]
  rw [Device.dsPut_dev hf hd hp (fun o k h => clean o k (by omega)), hq, hp, Bool.and_false, Bool.or_false]
  rfl

/-! Where a ring lies stays while data moves. -/

theorem Device.rgnMap_congr {x : Device} (hr : ∀ r, x.rd (Reg.DMA_R_CFG r) = d.rd (Reg.DMA_R_CFG r)) (hg : x.regions = d.regions) (a : Nat) :
    x.rgnMap a = d.rgnMap a := by
  have set : ∀ r, x.rgnSet r = d.rgnSet r := fun r => by rw [Device.rgnSet, hg, Device.rgnSet]
  have valid : ∀ r, x.rgnValid r = d.rgnValid r := fun r => Device.isSet_congr (hr r)
  have base : ∀ r, x.rgnBase r = d.rgnBase r := fun r => congrArg rgBase (set r)
  have size : ∀ r, x.rgnSize r = d.rgnSize r := fun r => congrArg rgSize (set r)
  have of : x.rgnOf a = d.rgnOf a := by
    have same : (fun r => x.rgnValid r && decide (x.rgnBase r ≤ a) && decide (a < x.rgnBase r + x.rgnSize r)) =
        fun r => d.rgnValid r && decide (d.rgnBase r ≤ a) && decide (a < d.rgnBase r + d.rgnSize r) := by
      funext r
      rw [valid, base, size]
    rw [Device.rgnOf, same, Device.rgnOf]
  rw [Device.rgnMap, of, Device.rgnMap]
  split
  · rfl
  · rw [Device.rgnTgt, Device.rgnKind, set, base, Device.rgnTgt, Device.rgnKind]

/-- What a channel's next descriptor's place maps to. -/
abbrev Device.dsPlace (d : Device) (c : Nat) : DTgt := d.rgnMap (d.ringAt c (d.dmaHead c))

theorem Device.dsPlace_congr {x : Device} (hr : ∀ r, x.rd (Reg.DMA_R_CFG r) = d.rd (Reg.DMA_R_CFG r)) (hg : x.regions = d.regions)
    (hl : x.rd (Reg.DMA_C_RING_LO c) = d.rd (Reg.DMA_C_RING_LO c)) (hi : x.rd (Reg.DMA_C_RING_LO c + 4) = d.rd (Reg.DMA_C_RING_LO c + 4))
    (hz : x.rd (Reg.DMA_C_RING_SIZE c) = d.rd (Reg.DMA_C_RING_SIZE c)) (hh : x.rd (Reg.DMA_C_HEAD c) = d.rd (Reg.DMA_C_HEAD c)) :
    x.dsPlace c = d.dsPlace c := by
  have head : x.dmaHead c = d.dmaHead c := Device.fld_congr hh
  rw [Device.dsPlace, Device.rgnMap_congr hr hg, head, Device.ringAt, Device.rd64_congr hl hi, Device.rdN_congr hz, Device.dsPlace, Device.ringAt]

theorem Device.OnlyRegs.regions {x : Device} (h : d.OnlyRegs x) : x.regions = d.regions := by
  obtain ⟨_, rfl⟩ := h
  rfl

theorem Device.dsPlace_add64 (d : Device) (c n : Nat) : (d.add64 (Reg.DMA_C_BYTES_LO c) n).dsPlace c = d.dsPlace c := by
  refine Device.dsPlace_congr (fun r => Device.rd_add64_other _ _ _ _ ?_ ?_) ((OnlyRegs.refl d).add64 _ _).regions
    (Device.rd_add64_other _ _ _ _ ?_ ?_) (Device.rd_add64_other _ _ _ _ ?_ ?_) (Device.rd_add64_other _ _ _ _ ?_ ?_)
    (Device.rd_add64_other _ _ _ _ ?_ ?_) <;>
    simp only [Reg.DMA_R_CFG, Reg.DMA_C_RING_LO, Reg.DMA_C_RING_SIZE, Reg.DMA_C_HEAD, Reg.DMA_C_BYTES_LO] <;> omega

theorem Device.dsPlace_storeFrom (d : Device) (f a c : Nat) (bs : List Byte) : (d.storeFrom f a bs).dsPlace c = d.dsPlace c :=
  Device.dsPlace_congr (fun _ => rfl) rfl rfl rfl rfl rfl

theorem Device.dsPlace_moved (d : Device) (k c : Nat) : (d.moved k).dsPlace c = d.dsPlace c :=
  Device.dsPlace_congr (fun _ => rfl) rfl rfl rfl rfl rfl

/-! The two whole moves, to the end. -/

section
variable (hc : j.code = cOK) (he : j.hostErr = false) (hp : j.poison = false) (hw : j.wrote = 0) (hv : dsCtl j.desc 10 1 = 0)
  (hf : dsDstFix j.desc = false) (hd : j.dst = .dev b) (hn : dsLen j.desc = n) (hr : d.dsPlace c = .dev a)
include hc he hp hw hv hf hd hn hr

theorem Device.dsFinish_fill (ho : dsOp j.desc = 2) {x y : Device}
    (hx : x = ((d.storeFrom b b ((List.range n).map (fun i => j.desc.getD (0x18 + i % max 1 (dsPlen j.desc)) 0))).moved 4).add64
      (Reg.DMA_C_BYTES_LO c) n) (hy : y = ((x.store (a + 0x30) (backBytes j cOK 1 n)).moved 4).dsHead c) :
    d.dsFinish c j = y.setFld (F.DMA_C_STAT_STATE c) (if y.dmaHead c = y.dmaTail c then 1 else 2) := by
  have place : x.dsPlace c = .dev a := by rw [hx, Device.dsPlace_add64, Device.dsPlace_moved, Device.dsPlace_storeFrom, hr]
  rw [Device.dsFinish_moves (f := 0) hc he (.inl ho) (Device.dsMove_fill ho hf hd hp hw hn) hc he, ← hx,
    Device.dsEnd_dev (j := { j with wrote := n }) hp he hv place, hy]
  rfl

theorem Device.dsFinish_copy (ho : dsOp j.desc = 1) (hs : dsSrcFix j.desc = false) (hj : j.src = .dev f) (hq : d.poisoned f n = false) {x y : Device}
    (hx : x = (((d.storeFrom b b ((List.range n).map (fun i => memGet d.mem (f + i)))).moved 4).moved 4).add64 (Reg.DMA_C_BYTES_LO c) n)
    (hy : y = ((x.store (a + 0x30) (backBytes j cOK 1 n)).moved 4).dsHead c) :
    d.dsFinish c j = y.setFld (F.DMA_C_STAT_STATE c) (if y.dmaHead c = y.dmaTail c then 1 else 2) := by
  have place : x.dsPlace c = .dev a := by
    rw [hx, Device.dsPlace_add64, Device.dsPlace_moved, Device.dsPlace_moved, Device.dsPlace_storeFrom, hr]
  rw [Device.dsFinish_moves (f := f) hc he (.inr ⟨ho, hj⟩) (Device.dsMove_copy ho hs hf hj hd hp hw hn hq) hc he, ← hx,
    Device.dsEnd_dev (j := { j with wrote := n }) hp he hv place, hy]
  rfl

end

theorem Device.supplied_refused (h : j.code ≠ cOK) : d.supplied j = true := if_pos (.inl h)

theorem Device.supplied_fill (h : j.code = cOK) (he : j.hostErr = false) (ho : dsOp j.desc = 2) : d.supplied j = true := by
  rw [Device.supplied, h, he, ho]
  rfl

theorem Device.supplied_copy (h : j.code = cOK) (he : j.hostErr = false) (ho : dsOp j.desc = 1) (hs : j.src = .dev f) : d.supplied j = true := by
  rw [Device.supplied, h, he, ho, hs]
  rfl

/-! Answers of the host (R438). -/

/-- The device with an answer's bytes received. -/
def Device.answered (d : Device) (data : List Byte) : Device := (d.timed Reg.HIF_RD_LAT).add64 Reg.HIF_RX_BYTES_LO data.length

theorem exec_hostReadCompletion (c : Nat) (side : Bool) (status : Nat) (data : List Byte) (s : State) : exec (.hostReadCompletion c side status data) s =
    .next { s with dev := ((s.dev.answered data).hostData' c side status data).dmaGo } := rfl

theorem Device.OnlyRegs.dma {x : Device} (h : d.OnlyRegs x) (c : Nat) : x.dma c = d.dma c := by
  obtain ⟨_, rfl⟩ := h
  rfl

theorem Device.dma_answered (d : Device) (data : List Byte) (c : Nat) : (d.answered data).dma c = d.dma c :=
  ((OnlyRegs.refl (d.timed Reg.HIF_RD_LAT)).add64 _ _).dma c

theorem Device.hostFail_some (h : d.dma c = some j) : d.hostFail c = d.setDma c (some { j with fetching := false, hostErr := true }) := by
  rw [Device.hostFail, h]

theorem Device.hostData'_ignored (h : d.dma c = none ∨ (d.dma c = some j ∧ j.hostErr = true)) : d.hostData' c side status data = d := by
  rw [Device.hostData']
  rcases h with h | ⟨h, he⟩
  · rw [h]
  · rw [h]
    exact if_pos he

section
variable (h : d.dma c = some j) (he : j.hostErr = false)
include h he

theorem Device.hostData'_error (hs : 2 ≤ status) : d.hostData' c side status data = d.setDma c (some { j with fetching := false, hostErr := true }) := by
  rw [Device.hostData', h]
  dsimp only
  rw [if_neg (Bool.eq_false_iff.mp he), if_pos hs, Device.hostFail_some h]

theorem Device.hostData'_fetched (hs : status < 2) (hf : j.fetching = true) (hl : 64 ≤ data.length) :
    d.hostData' c side status data = d.dsStart c (data.take 64) (decide (status = 1)) := by
  have whole : padTo (data.take 64) 64 = data.take 64 := by
    have len : (data.take 64).length = 64 := List.length_take_of_le hl
    rw [padTo, len]
    exact List.append_nil _
  rw [Device.hostData', h]
  dsimp only
  rw [if_neg (Bool.eq_false_iff.mp he), if_neg (Nat.not_le.mpr hs), if_pos hf, whole]

variable (hs : status < 2) (hf : j.fetching = false)
include hs hf

/-- Data of a descriptor in progress, by what the descriptor does. -/
theorem Device.hostData'_data : d.hostData' c side status data =
    (let p := j.poison || decide (status = 1)
     if dsOp j.desc = 3 then
       if side then d.setDma c (some { j with gotD := (j.gotD ++ data).take (dsLen j.desc), poison := p })
       else d.setDma c (some { j with gotS := (j.gotS ++ data).take (dsLen j.desc), poison := p })
     else if (j.src.isHost && !side) = true then
       let bs := data.take (dsLen j.desc - j.wrote)
       ((d.dsPut j j.wrote bs (fun _ _ => decide (status = 1))).add64 (Reg.DMA_C_BYTES_LO c) bs.length).setDma c
         (some { j with wrote := j.wrote + bs.length, poison := p })
     else d) := by
  rw [Device.hostData', h]
  dsimp only
  rw [if_neg (Bool.eq_false_iff.mp he), if_neg (Nat.not_le.mpr hs), if_neg (Bool.eq_false_iff.mp hf)]

theorem Device.hostData'_compared (ho : dsOp j.desc = 3) : d.hostData' c side status data =
    if side then d.setDma c (some { j with gotD := (j.gotD ++ data).take (dsLen j.desc), poison := j.poison || decide (status = 1) })
    else d.setDma c (some { j with gotS := (j.gotS ++ data).take (dsLen j.desc), poison := j.poison || decide (status = 1) }) := by
  rw [Device.hostData'_data h he hs hf]
  exact if_pos ho

end

/-- Good data of a COPY into device memory. -/
theorem Device.hostData'_copied (h : d.dma c = some j) (he : j.hostErr = false) (hf : j.fetching = false) (hp : j.poison = false)
    (ho : dsOp j.desc = 1) (hsrc : j.src = .host f) (hd : j.dst = .dev b) (hx : dsDstFix j.desc = false) (hn : j.wrote + data.length ≤ dsLen j.desc) :
    d.hostData' c false 0 data = ((((d.storeFrom b (b + j.wrote) data).moved 4).add64 (Reg.DMA_C_BYTES_LO c) data.length).setDma c
      (some { j with wrote := j.wrote + data.length })) := by
  have all : data.take (dsLen j.desc - j.wrote) = data := List.take_of_length_le (by omega)
  have same : ({ j with wrote := j.wrote + data.length, poison := j.poison || decide (0 = 1) } : DmaJob) =
      { j with wrote := j.wrote + data.length } := by rw [hp]; rfl
  have host : (j.src.isHost && !false) = true := by rw [hsrc]; rfl
  rw [Device.hostData'_data h he (by decide) hf]
  dsimp only
  rw [if_neg (by omega), if_pos host, all, same, Device.dsPut_dev (ep := fun _ _ => decide (0 = 1)) hx hd hp (fun _ _ _ => rfl)]

theorem exec_completionTimeout_none (h : s.dev.dma c = none) : exec (.completionTimeout c) s = .next s := by
  show execCompletionTimeout c s = _
  exact State.run_of_eq (if_neg (by rw [h]; exact Bool.false_ne_true))

theorem Device.dma_send (d : Device) (o : Out) (c : Nat) : (d.send o).dma c = d.dma c := rfl

theorem exec_completionTimeout (h : s.dev.dma c = some j) : exec (.completionTimeout c) s = .next { s with dev :=
    (((s.dev.flag F.HIF_FLAGS_CPL_TIMEOUT Reg.HIF_CPL_TIMEOUT_CNT).send (.pcie 3)).setDma c (some { j with fetching := false, hostErr := true })) } := by
  have same : ((s.dev.flag F.HIF_FLAGS_CPL_TIMEOUT Reg.HIF_CPL_TIMEOUT_CNT).send (.pcie 3)).dma c = some j := by
    rw [Device.dma_send, ((Device.OnlyRegs.refl s.dev).flag _ _).dma, h]
  show execCompletionTimeout c s = _
  exact State.run_of_eq ((if_pos (by rw [h]; rfl)).trans (Device.hostFail_some same))

/-! The link (R424, R447, R448). -/

theorem exec_linkRetrain_down (h : s.dev.linkDown = true) : exec .linkRetrain s = .next s := by
  show execLinkRetrain s = _
  exact State.run_of_eq (if_pos h)

theorem exec_linkRetrain (h : s.dev.linkDown = false) : exec .linkRetrain s =
    .next { s with dev := (Device.flag { s.dev with linkDown := true } F.HIF_FLAGS_RETRAIN Reg.HIF_RETRAIN_CNT) } := by
  show execLinkRetrain s = _
  exact State.run_of_eq (if_neg (Bool.eq_false_iff.mp h))

/-- What a trained link shows. -/
def Device.linkShown (d : Device) (speed width : Nat) (flit : Bool) : Device :=
  ((((Device.setFld { d with linkDown := false } F.HIF_LINK_STAT_SPEED speed).setFld F.HIF_LINK_STAT_WIDTH width).setFld
    F.HIF_LINK_STAT_FLIT (if flit then 1 else 0)).setFld F.HIF_LINK_STAT_DL_UP 1).setFld F.HIF_LINK_STAT_L1 0

theorem Device.linkShown_frame (d : Device) (speed width : Nat) (flit : Bool) :
    Device.OnlyRegs { d with linkDown := false } (d.linkShown speed width flit) :=
  (((((OnlyRegs.refl _).setFld _ _).setFld _ _).setFld _ _).setFld _ _).setFld _ _

/-- What a link's fields read once it is trained. -/
theorem Device.fld_linkShown (d : Device) (hs : speed < 16) (hw : width < 32) : (d.linkShown speed width flit).fld F.HIF_LINK_STAT_DL_UP = 1 ∧
    (d.linkShown speed width flit).fld F.HIF_LINK_STAT_SPEED = speed ∧ (d.linkShown speed width flit).fld F.HIF_LINK_STAT_WIDTH = width ∧
    (d.linkShown speed width flit).fld F.HIF_LINK_STAT_L1 = 0 ∧ (d.linkShown speed width flit).fld F.HIF_LINK_STAT_FLIT = if flit then 1 else 0 := by
  have apart : ∀ (y : Device) (f g : FieldAt) (v : Nat), f.f.lo + f.f.w ≤ 32 → f.f.lo + f.f.w ≤ g.f.lo ∨ g.f.lo + g.f.w ≤ f.f.lo →
      (y.setFld f v).fld g = y.fld g := fun y f g v hw h => y.fld_setFld_disjoint f g v hw h
  refine ⟨?_, ?_, ?_, ?_, ?_⟩
  · rw [Device.linkShown, apart _ _ _ _ (by decide) (by decide), Device.fld_setFld _ _ _ (by decide)]
    rfl
  · rw [Device.linkShown, apart _ _ _ _ (by decide) (by decide), apart _ _ _ _ (by decide) (by decide), apart _ _ _ _ (by decide) (by decide),
      apart _ _ _ _ (by decide) (by decide), Device.fld_setFld _ _ _ (by decide)]
    exact Nat.mod_eq_of_lt hs
  · rw [Device.linkShown, apart _ _ _ _ (by decide) (by decide), apart _ _ _ _ (by decide) (by decide), apart _ _ _ _ (by decide) (by decide),
      Device.fld_setFld _ _ _ (by decide)]
    exact Nat.mod_eq_of_lt hw
  · exact Device.fld_setFld _ _ _ (by decide)
  · rw [Device.linkShown, apart _ _ _ _ (by decide) (by decide), apart _ _ _ _ (by decide) (by decide), Device.fld_setFld _ _ _ (by decide)]
    cases flit with
    | true => rfl
    | false => rfl

theorem exec_pcieLinkTrained (h1 : 1 ≤ speed) (h6 : speed ≤ 6) (hw : width ∈ [1, 4, 8, 16]) :
    exec (.pcieLinkTrained speed width flit) s = .next { s with dev := (s.dev.linkShown speed width flit).dmaGo } := by
  show execPcieLinkTrained speed width flit s = _
  refine State.run_of_eq (if_neg ?_)
  rintro (h | h | h)
  · omega
  · omega
  · exact h hw

theorem exec_pcieLinkTrained_off (h : speed = 0 ∨ 6 < speed ∨ width ∉ [1, 4, 8, 16]) : exec (.pcieLinkTrained speed width flit) s = .next s := by
  show execPcieLinkTrained speed width flit s = _
  exact State.run_of_eq (if_pos h)

theorem exec_tlpError_cor (off : Nat) (data : List Byte) (s : State) :
    exec (.tlpError 0 off data) s = .next { s with dev := (s.dev.send (.pcie 0)).flag F.HIF_FLAGS_COR Reg.HIF_COR_CNT } := rfl

theorem exec_tlpError_register (off : Nat) (data : List Byte) (s : State) : exec (.tlpError 1 off data) s = .next { s with dev :=
    (((s.dev.send (.pcie 1)).add64 Reg.HIF_RX_BYTES_LO data.length).flag F.HIF_FLAGS_POISON_RX Reg.HIF_POISON_RX_CNT) } := rfl

theorem exec_tlpError_uncor (h : 3 ≤ kind) :
    exec (.tlpError kind off data) s = .next { s with dev := (s.dev.send (.pcie kind)).flag F.HIF_FLAGS_UNCOR Reg.HIF_UNCOR_CNT } := by
  show execTlpError kind off data s = _
  exact State.run_of_eq ((if_neg (by omega)).trans ((if_neg (by omega)).trans (if_neg (by omega))))

/-- The bytes of a poisoned write to BAR2, received and counted. -/
def Device.poisonReceived (d : Device) (data : List Byte) : Device :=
  ((d.send (.pcie 2)).add64 Reg.HIF_RX_BYTES_LO data.length).flag F.HIF_FLAGS_POISON_RX Reg.HIF_POISON_RX_CNT

theorem Device.awake_poisonReceived (d : Device) (data : List Byte) : (d.poisonReceived data).awake = decide (d.fld F.SYS_STAT_STATE ∈ [3, 4, 5]) := by
  have same : (d.poisonReceived data).fld F.SYS_STAT_STATE = d.fld F.SYS_STAT_STATE :=
    (Device.fld_congr (Device.rd_flag_other _ _ _ (by decide) (by decide))).trans (Device.fld_add64_other _ _ (by decide) (by decide))
  rw [Device.awake, same]

/-- What becomes of a poisoned write to BAR2: it is stored, and its codewords enter the poison table. -/
def Device.poisonStored (d : Device) (off : Nat) (data : List Byte) : Device :=
  if !d.awake then d.badAccess
  else
    let inside := min data.length (Config.memSize - off)
    let d := (List.range ((off + inside + 31) / 32 - off / 32)).foldl (fun d i => d.poisonAdd (off / 32 + i))
      ((d.store off (data.take inside)).moved 4)
    if inside = data.length then d else d.badAccess

theorem exec_tlpError_bar2 (off : Nat) (data : List Byte) (s : State) :
    exec (.tlpError 2 off data) s = .next { s with dev := (s.dev.poisonReceived data).poisonStored off data } := by
  show execTlpError 2 off data s = _
  exact State.run_of_eq ((if_neg (by decide)).trans ((if_neg (by decide)).trans (if_pos rfl)))

theorem Device.poisonStored_asleep (h : d.awake = false) : d.poisonStored off data = d.badAccess := if_pos (by rw [h]; rfl)

/-- A poisoned write within one codeword of memory. -/
theorem Device.poisonStored_codeword (h : d.awake = true) (he : off + data.length ≤ Config.memSize) (hw : off % 32 + data.length ≤ 32)
    (hd : data ≠ []) : d.poisonStored off data = ((d.store off data).moved 4).poisonAdd (off / 32) := by
  have pos : 0 < data.length := List.length_pos_iff.mpr hd
  have inside : min data.length (Config.memSize - off) = data.length := Nat.min_eq_left (by omega)
  have one : (off + data.length + 31) / 32 - off / 32 = 1 := by omega
  rw [Device.poisonStored, if_neg (by rw [h]; decide)]
  dsimp only
  rw [inside, one, if_pos rfl, List.take_length]
  rfl

theorem exec_configurationRequest (h : f ≤ 11) : exec (.configurationRequest f v) s =
    .next { s with dev := (Device.msixPending { s.dev with cfg := Sparse.set cfgReset s.dev.cfg f v }) } := by
  show execConfigurationRequest f v s = _
  exact State.run_of_eq (if_pos h)

theorem exec_configurationRequest_off (h : 11 < f) : exec (.configurationRequest f v) s = .next s := by
  show execConfigurationRequest f v s = _
  exact State.run_of_eq (if_neg (Nat.not_le.mpr h))

end Sys2Proof.Machine
end

section
/-! PROOFS. DMA descriptors and the host link (R424, R427 to R429, R433 to R435, R438, R441, R447, R448). -/

namespace Sys2Proof.Machine

/-- Settles O44, clause by clause: the fetch, the end of a descriptor, the answers of the host, and the link. -/
theorem descriptorsAndLink : Obligations.DescriptorsAndLink := by
  intro s c a b n f v speed width kind off status j side flit data d ring backBytes' outranked marked after
  have closed : ring = .host a → d.linkOpen = false ∨ 1024 ≤ d.dmaOutAll → d.dmaServes c = false := by
    intro hr h
    have shut : (d.linkOpen && decide (d.dmaOutAll < 1024)) = false := by
      rw [Bool.and_eq_false_iff, decide_eq_false_iff_not, Nat.not_lt]
      exact h
    rw [Device.dmaServes_host hr, shut, Bool.and_false]
  refine ⟨fun h => ?_, fun h => ?_, fun h ho hr => ?_, fun h ho hr hl hm => ?_, fun hr h => ?_, fun h => ?_, fun h hf => ?_, fun h hs => ?_,
    fun _ h hf hc he hp hv hr => ?_, fun _ h hf hc he hp hw hv ho hx hd hn _ hr => ?_,
    fun _ h hf hc he hp hw hv ho hs hx hj hd hn _ _ hq hr => ?_, ?_, fun h => ?_, fun h => ?_, fun h => ?_, fun h => ?_,
    fun h1 h6 hw => ?_, fun h => ?_, ?_, ?_, fun h => ?_, ?_, ?_, ?_, fun h => ?_, fun h => ?_⟩
  · exact .of_eq (exec_descriptorFetch_waits (.inl (Device.dmaServes_idle h))) rfl
  · exact .of_eq (exec_descriptorFetch_waits (.inr h)) rfl
  · have told := exec_descriptorFetch (Device.dmaServes_dev h hr) ho
    rw [show s.dev.rgnMap (s.dev.ringAt c (s.dev.dmaHead c)) = .dev a from hr] at told
    exact .of_eq told rfl
  · have serves : d.dmaServes c = true := by
      rw [Device.dmaServes_host hr, h, hl, decide_eq_true hm]
      rfl
    have told := exec_descriptorFetch serves ho
    rw [show s.dev.rgnMap (s.dev.ringAt c (s.dev.dmaHead c)) = .host a from hr] at told
    have job := (((Device.OnlyRegs.refl (d.setDma c (some { fetching := true }))).setFld (F.DMA_C_STAT_STATE c) 2).dma c).trans
      (Device.dma_setDma d c _)
    exact .of_eq told ⟨job, rfl, Device.fld_setFld _ _ _ (by simp [F.DMA_C_STAT_STATE]), rfl⟩
  · exact .of_eq (exec_descriptorFetch_waits (.inl (closed hr h))) rfl
  · exact .of_eq (exec_descriptorComplete_none h) rfl
  · have told := exec_descriptorComplete h
    rw [hf, Device.dsAsk_fetching h hf] at told
    exact .of_eq told rfl
  · have told := exec_descriptorComplete h
    rw [hs, Bool.and_false, Bool.false_and] at told
    exact .of_eq told rfl
  · have told := exec_descriptorComplete_ends h hf (Device.supplied_refused hc) (absurd · hc) hr
    rw [Device.dsFinish_refused hc he, Device.dsEnd_dev hp he hv hr] at told
    dsimp only at told
    rw [if_neg hc] at told
    exact .of_eq told rfl
  · have told := exec_descriptorComplete_ends h hf (Device.supplied_fill hc he ho) (fun _ => by rw [hd]; rfl) hr
    refine .of_eq told fun x y hx' hy => congrArg Device.dmaGo ?_
    exact Device.dsFinish_fill hc he hp hw hv hx hd hn hr ho hx' hy
  · have told := exec_descriptorComplete_ends h hf (Device.supplied_copy hc he ho hj) (fun _ => by rw [hd]; rfl) hr
    refine .of_eq told fun x y hx' hy => congrArg Device.dmaGo ?_
    exact Device.dsFinish_copy hc he hp hw hv hx hd hn hr ho hs hj hq hx' hy
  · have job : (d.answered data).dma c = d.dma c := Device.dma_answered d data c
    refine .of_eq (exec_hostReadCompletion c side status data s) ⟨d.answered data, rfl, fun h => congrArg Device.dmaGo ?_, fun h he => ?_⟩
    · rw [← job] at h
      exact Device.hostData'_ignored h
    · rw [← job] at h
      refine ⟨fun hs => congrArg Device.dmaGo (Device.hostData'_error h he hs),
        fun hs hf hl => congrArg Device.dmaGo (Device.hostData'_fetched h he hs hf hl), fun hs hf ho hside => congrArg Device.dmaGo ?_,
        fun hs hf ho hside => congrArg Device.dmaGo ?_, fun hs hf hp ho hside hj hd hx hn => congrArg Device.dmaGo ?_⟩
      · exact (Device.hostData'_compared h he hs hf ho).trans (if_pos hside)
      · exact (Device.hostData'_compared h he hs hf ho).trans (if_neg (Bool.eq_false_iff.mp hside))
      · subst hs hside
        exact Device.hostData'_copied h he hf hp ho hj hd hx hn
  · exact .of_eq (exec_completionTimeout_none h) rfl
  · exact .of_eq (exec_completionTimeout h) rfl
  · exact .of_eq (exec_linkRetrain_down h) rfl
  · obtain ⟨regs, e⟩ := (Device.OnlyRegs.refl { s.dev with linkDown := true }).flag F.HIF_FLAGS_RETRAIN Reg.HIF_RETRAIN_CNT
    refine .of_eq (exec_linkRetrain h) ⟨?_, Device.fld_flag _ (by decide) (by decide) (by decide), Device.rdN_flag _ (by decide), ?_⟩
    · rw [e]
    · rw [e]
  · obtain ⟨regs, e⟩ := s.dev.linkShown_frame speed width flit
    have small : width < 32 := by
      simp only [List.mem_cons, List.not_mem_nil, or_false] at hw
      omega
    obtain ⟨up, shown, wide, l1, mode⟩ := s.dev.fld_linkShown (flit := flit) (by omega : speed < 16) small
    refine .of_eq (exec_pcieLinkTrained h1 h6 hw) ⟨_, rfl, up, shown, wide, l1, mode, ?_⟩
    rw [e]
  · exact .of_eq (exec_pcieLinkTrained_off h) rfl
  · exact .of_eq (exec_tlpError_cor off data s) rfl
  · exact .of_eq (exec_tlpError_register off data s) rfl
  · exact .of_eq (exec_tlpError_uncor h) rfl
  · rintro x rfl
    have awake := d.awake_poisonReceived data
    refine ⟨fun h => .of_eq (exec_tlpError_bar2 off data s) ?_, fun h he hw hd => .of_eq (exec_tlpError_bar2 off data s) ?_⟩
    · exact Device.poisonStored_asleep (awake.trans (decide_eq_false h))
    · exact Device.poisonStored_codeword (awake.trans (decide_eq_true h)) he hw hd
  · exact .of_eq (show exec (.powerStateChange true) s = .next { s with dev := { s.dev with d3hot := true } } from rfl) rfl
  · exact .of_eq (show exec (.powerStateChange false) s =
      .next { s with dev := (Device.msixPending { s.dev with d3hot := false }).dmaGo } from rfl) rfl
  · exact .of_eq (exec_configurationRequest_off h) rfl
  · exact .of_eq (exec_configurationRequest h) rfl

end Sys2Proof.Machine
end


section
/-! SUPPORT. What a message leaves of the device, and the cascade commands (R542, R547, R551, R552, R554, R558, R560). -/

namespace Sys2Proof.Machine

variable {d x y : Device} {s : State} {u : UCmd} {o : Origin} {l c a n dv named : Nat}

/-! Messages (R545): sending one changes the links, what leaves, and the registers of what is not sent. -/

/-- What sending messages can change: the links, the outbox, and of the registers what counts the messages that are not sent. -/
structure Device.Sends (d y : Device) : Prop where
  frame : ∃ regs links outbox, y = { d with regs := regs, cas := { d.cas with links := links }, outbox := outbox }
  rd : ∀ b, b ≠ F.CAS_FLAGS_TX_DROP.addr → b ≠ Reg.CAS_TX_DROP_CNT → y.rd b = d.rd b

theorem Device.Sends.refl (d : Device) : d.Sends d := ⟨⟨d.regs, d.cas.links, d.outbox, rfl⟩, fun _ _ _ => rfl⟩

theorem Device.Sends.trans (h : d.Sends x) (h' : x.Sends y) : d.Sends y := by
  refine ⟨?_, fun b h1 h2 => (h'.rd b h1 h2).trans (h.rd b h1 h2)⟩
  obtain ⟨_, _, _, rfl⟩ := h.frame
  obtain ⟨regs, links, outbox, rfl⟩ := h'.frame
  exact ⟨regs, links, outbox, rfl⟩

theorem Device.Sends.casPut (d : Device) (l ty dst : Nat) (args : List Nat) (data : List Byte) : d.Sends (d.casPut l ty dst args data) :=
  ⟨⟨_, _, _, rfl⟩, fun _ _ _ => rfl⟩

theorem Device.Sends.casDrop (d : Device) : d.Sends d.casDrop := by
  obtain ⟨regs, e⟩ := (OnlyRegs.refl d).flag F.CAS_FLAGS_TX_DROP Reg.CAS_TX_DROP_CNT
  exact ⟨⟨regs, d.cas.links, d.outbox, e⟩, fun b => Device.rd_flag_other _ _ _⟩

theorem Device.Sends.casRoom (d : Device) (l n : Nat) : d.Sends (d.casRoom l n).2 := by
  rw [Device.casRoom]
  dsimp only
  split
  · exact ⟨⟨_, _, _, rfl⟩, fun _ _ _ => rfl⟩
  · exact .refl d

theorem Device.Sends.casVia (d : Device) (link : Option Nat) (ty dst : Nat) (args : List Nat) (data : List Byte) :
    d.Sends (d.casVia link ty dst args data) := by
  rw [Device.casVia.eq_def]
  split
  · exact .refl d
  split
  · exact .casDrop d
  split
  · exact .refl d
  split
  · dsimp only
    split
    · exact (Sends.casRoom d _ _).trans (.casPut _ _ _ _ _ _)
    · exact (Sends.casRoom d _ _).trans (.casDrop _)
  · exact .casPut d _ _ _ _ _

theorem Device.Sends.casSend (d : Device) (ty dst : Nat) (args : List Nat) (data : List Byte) : d.Sends (d.casSend ty dst args data) :=
  .casVia d _ _ _ _ _

theorem Device.Sends.casSendAll (d : Device) (ty : Nat) (dsts args : List Nat) : d.Sends (d.casSendAll ty dsts args) := by
  induction dsts generalizing d with
  | nil => exact .refl d
  | cons n ns ih => exact (Sends.casSend d _ _ _ _).trans (ih _)

/-- Sending a message leaves the table that FORM makes. -/
theorem Device.Sends.formTable (h : d.Sends y) : y.formTable = d.formTable := by
  have cfg : ∀ n, y.rd (Reg.CAS_D_CFG n) = d.rd (Reg.CAS_D_CFG n) := fun n =>
    h.rd _ (by simp only [F.CAS_FLAGS_TX_DROP, Reg.CAS_FLAGS, Reg.CAS_D_CFG]; omega) (by simp only [Reg.CAS_TX_DROP_CNT, Reg.CAS_D_CFG]; omega)
  have ident : y.fld F.CAS_CFG_IDENT = d.fld F.CAS_CFG_IDENT := Device.fld_congr (h.rd _ (by decide) (by decide))
  have row : ∀ n, y.isSet (F.CAS_D_CFG_PRESENT n) = d.isSet (F.CAS_D_CFG_PRESENT n) ∧ y.fld (F.CAS_D_CFG_ROLE n) = d.fld (F.CAS_D_CFG_ROLE n) ∧
      y.fld (F.CAS_D_CFG_IDENT n) = d.fld (F.CAS_D_CFG_IDENT n) :=
    fun n => ⟨Device.isSet_congr (cfg n), Device.fld_congr (cfg n), Device.fld_congr (cfg n)⟩
  simp only [Device.formTable, ident, row]

/-- A table sent to each of some devices, which FORM makes anew for each of them. -/
theorem Device.casSendAll_form (d : Device) (e b : Nat) (dsts : List Nat) :
    dsts.foldl (fun d k => d.casSend 1 k ([e, b] ++ tableArgs d.formTable) []) d = d.casSendAll 1 dsts ([e, b] ++ tableArgs d.formTable) := by
  induction dsts generalizing d with
  | nil => rfl
  | cons n ns ih =>
    refine (ih _).trans ?_
    rw [(Sends.casSend d 1 n ([e, b] ++ tableArgs d.formTable) []).formTable]
    rfl

/-! The end of a request, and its start. -/

theorem Device.casBusy_iff (d : Device) :
    d.casBusy = true ↔ d.cas.change ≠ none ∨ d.cas.cal ≠ none ∨ d.isSet F.CAS_CMD_STAT_BUSY = true := by
  rw [Device.casBusy, Bool.or_eq_true, Bool.or_eq_true, or_assoc, Option.isSome_iff_ne_none, Option.isSome_iff_ne_none]

theorem Device.isMaster_iff (d : Device) : d.isMaster = true ↔ d.casRole = 1 := decide_eq_true_iff

/-- What a request that has ended leaves. -/
abbrev Device.casEnded (d : Device) (a c : Nat) (o : Origin) : Device :=
  (((d.setFld F.CAS_CMD_STAT_BUSY 0).setFld (casAct a) 0).setFld F.CAS_CMD_STAT_CODE c).complete o c none

theorem Device.casEnd_asked (ho : o ≠ .device) : d.casEnd o a c none = d.casEnded a c o := by
  cases o with
  | device => exact absurd rfl ho
  | host => rfl
  | port e k => rfl

theorem Device.casBegin_asked (ho : o ≠ .device) : d.casBegin o a = (d.setFld F.CAS_CMD_STAT_BUSY 1).actBit o (casAct a) := by
  cases o with
  | device => exact absurd rfl ho
  | host => rfl
  | port e k => rfl

theorem Device.casRefuse_busy (d : Device) (o : Origin) (a : Nat) :
    d.casRefuse o a cBUSY = (d.setFld F.CAS_CMD_STAT_CODE cBUSY).complete o cBUSY none := if_pos rfl

theorem Device.casRefuse_code (ho : o ≠ .device) (h : c ≠ cBUSY) : d.casRefuse o a c = d.casEnded a c o :=
  (if_neg h).trans (Device.casEnd_asked ho)

theorem origin_ne_device (u : UCmd) : u.origin ≠ .device := by simp [UCmd.origin]

/-! FORM, CAL, RESET, TAKEOVER and LEAVE, refused. -/

abbrev Device.casFormCode (d : Device) : Nat :=
  firstCode [(d.casBusy, cBUSY), (!d.isSet F.CAS_CFG_MASTER, cNOTARMED), (d.isSet F.CHN_SYNC_CFG_SYNC_EN, cUNSUP)]

theorem Device.casFormReq_refused (h : d.casFormCode = c) (hc : c ≠ cOK) : d.casFormReq o = d.casRefuse o 0 c := by
  subst h
  exact if_pos hc

theorem Device.casFormReq_taken (h : d.casFormCode = cOK) : d.casFormReq o = d.roleStart d.formTable (d.casAt o) ⟨o, 0, 0, 0⟩ :=
  if_neg (not_not_intro h)

abbrev Device.casCalCode (d : Device) : Nat := firstCode [(d.casBusy, cBUSY), (!d.isMaster, cNOTARMED)]

theorem Device.casCalReq_refused (h : d.casCalCode = c) (hc : c ≠ cOK) : d.casCalReq o = d.casRefuse o 1 c := by
  subst h
  exact if_pos hc

theorem Device.casCalReq_taken (h : d.casCalCode = cOK) : d.casCalReq o = d.calStart o := if_neg (not_not_intro h)

abbrev Device.casResetCode (d : Device) : Nat := firstCode [(d.casBusy || d.hasReq [.decReset] 0, cBUSY), (!d.isMaster, cNOTARMED)]

theorem Device.casResetReq_refused {t : Time} (h : d.casResetCode = c) (hc : c ≠ cOK) : d.casResetReq t o = d.casRefuse o 2 c := by
  subst h
  exact if_pos hc

theorem Device.casResetReq_taken {t : Time} (h : d.casResetCode = cOK) : d.casResetReq t o =
    (let tr := d.boundaryFrom (timeMax t d.casLead)
     (((d.casSendAll 5 d.casOthers [tr.toNat, 1]).send (.mark tr)).request .decReset 0 tr o [1]).casBegin o 2) := if_neg (not_not_intro h)

abbrev Device.casTakeCode (d : Device) (dv named : Nat) : Nat :=
  firstCode [(d.casBusy, cBUSY), ((d.casStandby named).isNone, cNOSPARE), (!d.isMaster, cNOTARMED),
    (decide (dv = 0) || d.isSet F.CHN_SYNC_CFG_SYNC_EN, cUNSUP)]

theorem Device.casTakeReq_refused (h : d.casTakeCode dv named = c) (hc : c ≠ cOK) : d.casTakeReq dv named o = d.casRefuse o 3 c := by
  subst h
  rw [Device.casTakeReq]
  dsimp only
  split
  · rfl
  · exact if_pos hc

theorem Device.casTakeReq_taken (h : d.casTakeCode dv named = cOK) (hn : d.casStandby named = some n) : d.casTakeReq dv named o =
    d.roleStart (Sparse.set (fun _ => {}) (Sparse.set (fun _ => {}) d.cas.table n {}) dv ⟨(d.casRow n).ident, caMember⟩) (d.casAt o)
      ⟨o, 3, dv, n⟩ := by
  rw [Device.casTakeReq]
  dsimp only
  split
  · next hx => rw [hn] at hx; cases hx
  · next k hx =>
    obtain rfl : n = k := Option.some.inj (hn.symm.trans hx)
    exact if_neg (not_not_intro h)

abbrev Device.casLeaveCode (d : Device) : Nat := firstCode [(d.casBusy, cBUSY), (d.isSet F.CHN_SYNC_CFG_SYNC_EN, cUNSUP)]

theorem Device.casLeaveReq_refused (hm : d.isMaster = true) (h : d.casLeaveCode = c) (hc : c ≠ cOK) : d.casLeaveReq dv o = d.casRefuse o 4 c := by
  subst h
  exact (if_pos hm).trans (if_pos hc)

theorem Device.casLeaveReq_taken (hm : d.isMaster = true) (h : d.casLeaveCode = cOK) : d.casLeaveReq dv o =
    d.roleStart (Sparse.set (fun _ => {}) d.cas.table dv {}) (d.casAt o) ⟨o, 4, dv, 0⟩ := (if_pos hm).trans (if_neg (not_not_intro h))

/-- A device that leaves the cascade by itself. -/
def Device.casGone (d : Device) : Device :=
  let d := (((d.dropReq .role 0).setFld F.CAS_STAT_ROLE caNone).setFld F.CAS_STAT_TIME_OK 0).setFld F.CAS_STAT_SLEWING 0
  { d with cas := { d.cas with slew := 0, marks := [], resets := [], errs := [], coarse := none } }

theorem Device.casLeaveReq_gone (hm : d.isMaster = false) (ho : o ≠ .device) : d.casLeaveReq dv o = d.casGone.casEnded 4 cOK o :=
  (if_neg (Bool.eq_false_iff.mp hm)).trans (Device.casEnd_asked ho)

theorem Device.casGone_frame (d : Device) : Device.OnlyRegs { d.dropReq .role 0 with
    cas := { d.cas with slew := 0, marks := [], resets := [], errs := [], coarse := none } } d.casGone := by
  obtain ⟨regs, e⟩ := (((OnlyRegs.refl (d.dropReq .role 0)).setFld F.CAS_STAT_ROLE caNone).setFld F.CAS_STAT_TIME_OK 0).setFld F.CAS_STAT_SLEWING 0
  refine ⟨regs, ?_⟩
  rw [Device.casGone, e]
  rfl

theorem Device.rd_casGone (d : Device) (b : Nat) : d.casGone.rd b =
    ((((d.dropReq .role 0).setFld F.CAS_STAT_ROLE caNone).setFld F.CAS_STAT_TIME_OK 0).setFld F.CAS_STAT_SLEWING 0).rd b := rfl

theorem Device.fld_casGone (d : Device) :
    d.casGone.fld F.CAS_STAT_ROLE = 0 ∧ d.casGone.fld F.CAS_STAT_TIME_OK = 0 ∧ d.casGone.fld F.CAS_STAT_SLEWING = 0 := by
  refine ⟨?_, ?_, ?_⟩
  · rw [Device.fld_congr (d.rd_casGone _), Device.fld_setFld_disjoint _ _ _ _ (by decide) (by decide),
      Device.fld_setFld_disjoint _ _ _ _ (by decide) (by decide), Device.fld_setFld _ _ _ (by decide)]
    rfl
  · rw [Device.fld_congr (d.rd_casGone _), Device.fld_setFld_disjoint _ _ _ _ (by decide) (by decide), Device.fld_setFld _ _ _ (by decide)]
    rfl
  · rw [Device.fld_congr (d.rd_casGone _), Device.fld_setFld _ _ _ (by decide)]
    rfl

/-- The end of a request leaves the other registers. -/
theorem Device.fld_casEnded {f : FieldAt} (h1 : f.addr ≠ Reg.CAS_CMD_STAT) (h2 : f.addr ≠ Reg.CAS_CTL) : (d.casEnded a c o).fld f = d.fld f := by
  refine Device.fld_congr ((Device.rd_complete _ _ _ _ _).trans ?_)
  exact (Device.rd_setFld_mk _ _ _ h1).trans ((Device.rd_setFld_mk _ _ _ h2).trans (Device.rd_setFld_mk _ _ _ h1))

theorem Device.code_casEnded : (d.casEnded a cOK o).fld F.CAS_CMD_STAT_CODE = cOK :=
  (Device.fld_complete _ _ _ _ _).trans (Device.fld_setFld _ _ _ (by decide))

theorem Device.casEnded_frame : ∃ regs, d.casEnded a c o = ({ d with regs := regs } : Device).complete o c none := by
  obtain ⟨regs, e⟩ := (((OnlyRegs.refl d).setFld F.CAS_CMD_STAT_BUSY 0).setFld (casAct a) 0).setFld F.CAS_CMD_STAT_CODE c
  refine ⟨regs, ?_⟩
  rw [Device.casEnded, e]

/-- A request's end on a device that differs from another in registers and the cascade's state alone. -/
theorem Device.complete_of_frame {regs : Sparse Word} {k : Cas} (h : x = { y with regs := regs, cas := k }) (o : Origin) (c : Nat) :
    x.complete o c none = ({ y with regs := (x.complete o c none).regs, cas := (x.complete o c none).cas } : Device).complete o c none := by
  subst h
  cases o with
  | host => rfl
  | port e k => rfl
  | device => rfl

theorem Device.casGone_ended (d : Device) (o : Origin) : d.casGone.casEnded 4 cOK o = ({ d.dropReq .role 0 with
    regs := (d.casGone.casEnded 4 cOK o).regs, cas := (d.casGone.casEnded 4 cOK o).cas } : Device).complete o cOK none := by
  obtain ⟨gone, g⟩ := d.casGone_frame
  obtain ⟨regs, e⟩ := (((OnlyRegs.refl d.casGone).setFld F.CAS_CMD_STAT_BUSY 0).setFld (casAct 4) 0).setFld F.CAS_CMD_STAT_CODE cOK
  refine Device.complete_of_frame (regs := regs) (k := d.casGone.cas) (e.trans ?_) o cOK
  rw [g]

/-! A new role table announced (R547). -/

/-- The boundary that a new table names. -/
abbrev Device.roleAt (d : Device) (o : Origin) : Time :=
  d.boundaryFrom (if o = .host then timeMax (d.rdTime Reg.CAS_AT_LO) d.casLead else d.casLead)

/-- The devices that are told of a new table: those of the former one and of the new one. -/
abbrev Device.roleTold (d : Device) (t : Sparse CasRole) : List Nat :=
  (List.range 16).filter (fun n => decide (n ≠ 0) && (decide ((d.casRow n).role ≠ 0) || decide ((Sparse.get (fun _ => {}) t n).role ≠ 0)))

/-- The messages of a new table. -/
abbrev Device.roleSent (d : Device) (t : Sparse CasRole) (o : Origin) : Device :=
  d.casSendAll 1 (d.roleTold t) ([(d.casEpoch + 1) % 65536, (d.roleAt o).toNat] ++ tableArgs t)

/-- The device with a new table announced, before the request shows. -/
def Device.roleAnnounced (d : Device) (t : Sparse CasRole) (z : CasChange) : Device :=
  Device.request { d.roleSent t z.origin with cas := { (d.roleSent t z.origin).cas with change := some z, formCode := 0 } } .role 0
    (d.roleAt z.origin) .device ((d.casEpoch + 1) % 65536 :: tableArgs t)

theorem Device.roleStart_eq (d : Device) (t : Sparse CasRole) (z : CasChange) :
    d.roleStart t (d.casAt z.origin) z = (d.roleAnnounced t z).casBegin z.origin z.act := by
  by_cases h : z.origin = .host
  · have named : d.casAt z.origin = some (d.rdTime Reg.CAS_AT_LO) := if_pos h
    have first : d.roleAt z.origin = d.boundaryFrom (timeMax (d.rdTime Reg.CAS_AT_LO) d.casLead) := congrArg d.boundaryFrom (if_pos h)
    rw [named, Device.roleAnnounced, Device.roleSent, first]
    rfl
  · have named : d.casAt z.origin = none := if_neg h
    have first : d.roleAt z.origin = d.boundaryFrom d.casLead := congrArg d.boundaryFrom (if_neg h)
    rw [named, Device.roleAnnounced, Device.roleSent, first]
    rfl

/-- What a request that has begun shows. -/
theorem Device.casBegun (ho : o ≠ .device) (ha : a < 32) : Device.OnlyRegs d (d.casBegin o a) ∧
    (d.casBegin o a).fld F.CAS_CMD_STAT_BUSY = 1 ∧ (o = .host → (d.casBegin o a).fld (casAct a) = 1) := by
  rw [Device.casBegin_asked ho]
  refine ⟨?_, ?_, ?_⟩
  · exact (((OnlyRegs.refl d).setFld _ _).setFld _ _).ite ((OnlyRegs.refl d).setFld _ _)
  · have kept : ((d.setFld F.CAS_CMD_STAT_BUSY 1).actBit o (casAct a)).rd Reg.CAS_CMD_STAT = (d.setFld F.CAS_CMD_STAT_BUSY 1).rd Reg.CAS_CMD_STAT := by
      rw [Device.actBit]
      split
      · exact Device.rd_setFld_mk _ _ _ (by decide)
      · rfl
    exact (Device.fld_congr kept).trans (Device.fld_setFld _ _ _ (by decide))
  · rintro rfl
    rw [Device.actBit_host]
    exact Device.fld_setFld _ _ _ (by simp only [casAct]; omega)

/-- A new table announced for its boundary. -/
theorem Device.roleStarted {t : Sparse CasRole} {z : CasChange} (hd : z.origin ≠ .device) (ha : z.act < 32) {d' : Device}
    (h : d' = d.roleStart t (d.casAt z.origin) z) : d'.cas.change = some z ∧ d'.fld F.CAS_CMD_STAT_BUSY = 1 ∧
      (z.origin = .host → d'.fld (casAct z.act) = 1) ∧
      d'.breqs = d.breqs ++ [⟨.role, 0, d.roleAt z.origin, d.time, .device, (d.casEpoch + 1) % 65536 :: tableArgs t⟩] ∧
      d'.outbox = (d.roleSent t z.origin).outbox ∧ d'.time = d.time ∧ d'.mem = d.mem := by
  obtain ⟨⟨regs, e⟩, busy, act⟩ := Device.casBegun (d := d.roleAnnounced t z) hd ha
  obtain ⟨_, links, outbox, sent⟩ :=
    (Sends.casSendAll d 1 (d.roleTold t) ([(d.casEpoch + 1) % 65536, (d.roleAt z.origin).toNat] ++ tableArgs t)).frame
  rw [Device.roleStart_eq] at h
  subst h
  refine ⟨?_, busy, act, ?_, ?_, ?_, ?_⟩
  · rw [e]
    rfl
  all_goals
    rw [e, Device.roleAnnounced, Device.roleSent, sent]
    rfl

/-! Calibration (R552). -/

/-- A device whose sums of a calibration are zero. -/
def CasDev.zeroed (v : CasDev) : CasDev := { v with nT := 0, sumT := 0, nU := 0, sumU := 0 }

/-- The sums of some devices are cleared one by one. -/
theorem Device.calClear_list (d : Device) (ns : List Nat) :
    (∃ devs, ns.foldl (fun d n => d.setCasDev n (d.casDev n).zeroed) d = { d with cas := { d.cas with devs := devs } }) ∧
    ∀ n, (ns.foldl (fun d n => d.setCasDev n (d.casDev n).zeroed) d).casDev n = if n ∈ ns then (d.casDev n).zeroed else d.casDev n := by
  induction ns generalizing d with
  | nil => exact ⟨⟨d.cas.devs, rfl⟩, fun n => rfl⟩
  | cons m ns ih =>
    obtain ⟨⟨devs, e⟩, each⟩ := ih (d.setCasDev m (d.casDev m).zeroed)
    refine ⟨⟨devs, e⟩, fun n => (each n).trans ?_⟩
    by_cases hm : n = m
    · subst hm
      have here : (d.setCasDev n (d.casDev n).zeroed).casDev n = (d.casDev n).zeroed := Sparse.get_set_same _ _ _ _
      rw [here, if_pos (List.mem_cons_self ..)]
      split
      · rfl
      · rfl
    · have there : (d.setCasDev m (d.casDev m).zeroed).casDev n = d.casDev n := Sparse.get_set_other _ _ _ _ _ hm
      rw [there]
      simp only [List.mem_cons, hm, false_or]

theorem Device.calClear_frame (d : Device) : ∃ devs, d.calClear = { d with cas := { d.cas with devs := devs } } := (d.calClear_list _).1

theorem Device.casDev_calClear (d : Device) {n : Nat} (h : n < 16) : d.calClear.casDev n = (d.casDev n).zeroed :=
  ((d.calClear_list (List.range 16)).2 n).trans (if_pos (List.mem_range.mpr h))

/-- The device with a calibration begun, before the request shows. -/
def Device.calBegun (d : Device) (o : Origin) : Device :=
  let t0 := next1024 d.casLead
  Device.calClear { d.send (.markTrain t0 4096) with cas := { d.cas with
    cal := some t0, calForm := false, calBy := o, formCode := 0, recalAt := d.time } }

theorem Device.calStart_eq (d : Device) (o : Origin) : d.calStart o = (d.calBegun o).casBegin o 1 := rfl

theorem Device.calBegun_frame (d : Device) (o : Origin) : ∃ devs, d.calBegun o = { d with
    outbox := d.outbox ++ [.markTrain (next1024 d.casLead) 4096]
    cas := { d.cas with cal := some (next1024 d.casLead), calForm := false, calBy := o, formCode := 0, recalAt := d.time, devs := devs } } :=
  Device.calClear_frame _

/-- A calibration begun: the master's train of marks from its instant, with the sums of every device zero. -/
theorem Device.calStarted (ho : o ≠ .device) {d' : Device} (h : d' = d.calStart o) : d'.cas.cal = some (next1024 d.casLead) ∧
    d'.cas.calForm = false ∧ d'.cas.calBy = o ∧ d'.outbox = d.outbox ++ [.markTrain (next1024 d.casLead) 4096] ∧
    d'.fld F.CAS_CMD_STAT_BUSY = 1 ∧
    (∀ n, n < 16 → (d'.casDev n).nT = 0 ∧ (d'.casDev n).nU = 0 ∧ (d'.casDev n).sumT = 0 ∧ (d'.casDev n).sumU = 0) ∧
    d' = { d with regs := d'.regs, cas := d'.cas, outbox := d'.outbox } := by
  obtain ⟨⟨regs, e⟩, busy, -⟩ := Device.casBegun (d := d.calBegun o) (a := 1) ho (by decide)
  obtain ⟨devs, begun⟩ := d.calBegun_frame o
  have sums : ∀ n, n < 16 → ((d.calBegun o).casDev n) = (d.casDev n).zeroed := fun n hn => Device.casDev_calClear _ hn
  rw [Device.calStart_eq] at h
  subst h
  have cas : ((d.calBegun o).casBegin o 1).cas = (d.calBegun o).cas := by rw [e]
  refine ⟨?_, ?_, ?_, ?_, busy, fun n hn => ?_, ?_⟩
  · rw [cas, begun]
  · rw [cas, begun]
  · rw [cas, begun]
  · rw [e, begun]
  · have same : ((d.calBegun o).casBegin o 1).casDev n = (d.casDev n).zeroed := by rw [Device.casDev, cas]; exact sums n hn
    rw [same]
    exact ⟨rfl, rfl, rfl, rfl⟩
  · rw [e, begun]

/-! The rows. -/

theorem exec_casForm (hu : s.dev.comes 0x12 1 1 u) : exec (.casForm u) s = .next { s with dev := (s.dev.accept u).casFormReq u.origin } := by
  show execCasForm u s = _
  exact State.run_of_eq (Device.unitCmd_comes _ hu rfl)

theorem exec_casCal (hu : s.dev.comes 0x12 2 1 u) : exec (.casCal u) s = .next { s with dev := (s.dev.accept u).casCalReq u.origin } := by
  show execCasCal u s = _
  exact State.run_of_eq (Device.unitCmd_comes _ hu rfl)

theorem exec_casReset (hu : s.dev.comes 0x12 3 1 u) :
    exec (.casReset u) s = .next { s with dev := (s.dev.accept u).casResetReq (BitVec.ofNat 64 (u.dword 0)) u.origin } := by
  show execCasReset u s = _
  exact State.run_of_eq (Device.unitCmd_comes _ hu rfl)

theorem exec_casTakeover (hu : s.dev.comes 0x12 4 1 u) :
    exec (.casTakeover u) s = .next { s with dev := (s.dev.accept u).casTakeReq (u.imm % 16) (u.imm / 256 % 256) u.origin } := by
  show execCasTakeover u s = _
  refine State.run_of_eq ((Device.unitCmd_comes _ hu rfl).trans ?_)
  rw [bitsOf_zero]
  rfl

theorem exec_casLeave (hu : s.dev.comes 0x12 5 1 u) :
    exec (.casLeave u) s = .next { s with dev := (s.dev.accept u).casLeaveReq (u.imm % 16) u.origin } := by
  show execCasLeave u s = _
  refine State.run_of_eq ((Device.unitCmd_comes _ hu rfl).trans ?_)
  rw [bitsOf_zero]
  rfl

variable {peer : Nat}

theorem exec_casLinkRun_none (h : 6 ≤ l) : exec (.casLinkRun l peer) s = .next s := by
  show execCasLinkRun l peer s = _
  exact State.run_of_eq (if_pos h)

theorem exec_casLinkRun_runs (h : l < 6) (hr : s.dev.isSet (F.CAS_L_CFG_RUN l) = true) :
    exec (.casLinkRun l peer) s = .next { s with dev := s.dev.setFld (F.CAS_L_CFG_PEER l) peer } := by
  show execCasLinkRun l peer s = _
  exact State.run_of_eq ((if_neg (Nat.not_le.mpr h)).trans (if_pos hr))

theorem exec_casLinkRun (h : l < 6) (hr : s.dev.isSet (F.CAS_L_CFG_RUN l) = false) : exec (.casLinkRun l peer) s = .next { s with dev :=
    (let x := (s.dev.setFld (F.CAS_L_CFG_PEER l) peer).setFld (F.CAS_L_STAT_CODE l) (s.dev.linkCode l)
     if s.dev.linkCode l = cOK then (x.setCasLink l {}).setFld (F.CAS_L_CFG_RUN l) 1 else x) } := by
  show execCasLinkRun l peer s = _
  exact State.run_of_eq ((if_neg (Nat.not_le.mpr h)).trans (if_neg (Bool.eq_false_iff.mp hr)))

end Sys2Proof.Machine
end

section
/-! PROOFS. Cascade commands (R542, R547, R551, R552, R554, R558, R560). -/

namespace Sys2Proof.Machine

/-- Settles O54: each of FORM, CAL, RESET, TAKEOVER and LEAVE once, for the host and for an engine alike, and the start of a link. -/
theorem cascadeCommands : Obligations.CascadeCommands := by
  intro s u l peer d taken act busy master sync shown ended began from' announced form cal reset take leave
  have free : ∀ d : Device, ¬busy d → d.casBusy = false := fun d h => Bool.eq_false_iff.mpr (mt d.casBusy_iff.mp h)
  have led : ∀ d : Device, master d → d.isMaster = true := fun d => d.isMaster_iff.mpr
  have unled : ∀ d : Device, ¬master d → d.isMaster = false := fun d h => Bool.eq_false_iff.mpr (mt d.isMaster_iff.mp h)
  have formed : ∀ i d o, o ≠ .device → exec i s = .next { s with dev := Device.casFormReq d o } → form i d o := by
    intro i d o ho told
    refine ⟨fun hb => ?_, fun hb hm => ?_, fun hb hm hs => ?_, fun hb hm hs => ?_⟩
    · refine .of_eq told ((Device.casFormReq_refused (c := cBUSY) ?_ (by decide)).trans (d.casRefuse_busy o 0))
      rw [Device.casFormCode, d.casBusy_iff.mpr hb, firstCode_head (by simp [cBUSY, cNOTARMED, cUNSUP])]
    · refine .of_eq told ((Device.casFormReq_refused (c := cNOTARMED) ?_ (by decide)).trans (Device.casRefuse_code ho (by decide)))
      rw [Device.casFormCode, free d hb, hm, firstCode_false]
      exact firstCode_head (by simp [cNOTARMED, cUNSUP])
    · refine .of_eq told ((Device.casFormReq_refused (c := cUNSUP) ?_ (by decide)).trans (Device.casRefuse_code ho (by decide)))
      rw [Device.casFormCode, free d hb, hm, show d.isSet F.CHN_SYNC_CFG_SYNC_EN = true from hs]
      rfl
    · rintro e b us rfl rfl rfl y rfl
      have code : d.casFormCode = cOK := by
        rw [Device.casFormCode, free d hb, hm, Bool.eq_false_iff.mpr hs]
        rfl
      obtain ⟨change, shows, bit, asks, out, time, mem⟩ := Device.roleStarted (z := ⟨o, 0, 0, 0⟩) ho (by simp) (Device.casFormReq_taken code)
      exact .of_eq told ⟨change, shows, bit, asks, out.trans (congrArg Device.outbox (d.casSendAll_form _ _ _).symm), time, mem⟩
  have calibrated : ∀ i d o, o ≠ .device → exec i s = .next { s with dev := Device.casCalReq d o } → cal i d o := by
    intro i d o ho told
    refine ⟨fun hb => ?_, fun hb hm => ?_, fun hb hm => ?_⟩
    · refine .of_eq told ((Device.casCalReq_refused (c := cBUSY) ?_ (by decide)).trans (d.casRefuse_busy o 1))
      rw [Device.casCalCode, d.casBusy_iff.mpr hb, firstCode_head (by simp [cBUSY, cNOTARMED])]
    · refine .of_eq told ((Device.casCalReq_refused (c := cNOTARMED) ?_ (by decide)).trans (Device.casRefuse_code ho (by decide)))
      rw [Device.casCalCode, free d hb, unled d hm]
      rfl
    · rintro t0 rfl
      have code : d.casCalCode = cOK := by
        rw [Device.casCalCode, free d hb, led d hm]
        rfl
      exact .of_eq told (Device.calStarted ho (Device.casCalReq_taken code))
  have cleared : ∀ i d t o, o ≠ .device → exec i s = .next { s with dev := Device.casResetReq d t o } → reset i d t o := by
    rintro i d t o ho told w rfl
    refine ⟨fun hb => ?_, fun hb hm => ?_, fun hb hm => ?_⟩
    · refine .of_eq told ((Device.casResetReq_refused (c := cBUSY) ?_ (by decide)).trans (d.casRefuse_busy o 2))
      rw [Device.casResetCode, Bool.or_eq_true_iff.mpr (hb.imp d.casBusy_iff.mpr id), firstCode_head (by simp [cBUSY, cNOTARMED])]
    · obtain ⟨hb, hr⟩ := not_or.mp hb
      refine .of_eq told ((Device.casResetReq_refused (c := cNOTARMED) ?_ (by decide)).trans (Device.casRefuse_code ho (by decide)))
      rw [Device.casResetCode, free d hb, Bool.eq_false_iff.mpr hr, unled d hm]
      rfl
    · obtain ⟨hb, hr⟩ := not_or.mp hb
      rintro tr rfl y rfl
      have code : d.casResetCode = cOK := by
        rw [Device.casResetCode, free d hb, Bool.eq_false_iff.mpr hr, led d hm]
        rfl
      exact .of_eq told ((Device.casResetReq_taken code).trans (Device.casBegin_asked ho))
  have taken' : ∀ i d dv named o, o ≠ .device → exec i s = .next { s with dev := Device.casTakeReq d dv named o } → take i d dv named o := by
    intro i d dv named o ho told
    refine ⟨fun hb => ?_, fun hb hn => ?_, fun hb hn hm => ?_, fun hb hn hm hx => ?_, fun n hb hn hm hd hs => ?_⟩
    · refine .of_eq told ((Device.casTakeReq_refused (c := cBUSY) ?_ (by decide)).trans (d.casRefuse_busy o 3))
      rw [Device.casTakeCode, d.casBusy_iff.mpr hb, firstCode_head (by simp [cBUSY, cNOSPARE, cNOTARMED, cUNSUP])]
    · refine .of_eq told ((Device.casTakeReq_refused (c := cNOSPARE) ?_ (by decide)).trans (Device.casRefuse_code ho (by decide)))
      rw [Device.casTakeCode, free d hb, hn, firstCode_false]
      exact firstCode_head (by simp [cNOSPARE, cNOTARMED, cUNSUP])
    · refine .of_eq told ((Device.casTakeReq_refused (c := cNOTARMED) ?_ (by decide)).trans (Device.casRefuse_code ho (by decide)))
      rw [Device.casTakeCode, free d hb, Option.isNone_eq_false_iff.mpr (Option.isSome_iff_ne_none.mpr hn), unled d hm, firstCode_false,
        firstCode_false]
      exact firstCode_head (by simp [cNOTARMED, cUNSUP])
    · refine .of_eq told ((Device.casTakeReq_refused (c := cUNSUP) ?_ (by decide)).trans (Device.casRefuse_code ho (by decide)))
      have last : (decide (dv = 0) || d.isSet F.CHN_SYNC_CFG_SYNC_EN) = true := Bool.or_eq_true_iff.mpr (hx.imp decide_eq_true id)
      rw [Device.casTakeCode, free d hb, Option.isNone_eq_false_iff.mpr (Option.isSome_iff_ne_none.mpr hn), led d hm, last]
      rfl
    · have code : d.casTakeCode dv named = cOK := by
        rw [Device.casTakeCode, free d hb, hn, led d hm, decide_eq_false hd, Bool.eq_false_iff.mpr hs]
        rfl
      obtain ⟨change, shows, bit, asks, -⟩ := Device.roleStarted (z := ⟨o, 3, dv, n⟩) ho (by simp) (Device.casTakeReq_taken code hn)
      exact .of_eq told ⟨change, asks, shows, bit⟩
  have left : ∀ i d dv o, o ≠ .device → exec i s = .next { s with dev := Device.casLeaveReq d dv o } → leave i d dv o := by
    intro i d dv o ho told
    refine ⟨fun hm => ?_, fun hm hb => ?_, fun hm hb hs => ?_, fun hm hb hs => ?_⟩
    · rw [Device.casLeaveReq_gone (unled d hm) ho] at told
      obtain ⟨role, ok, slew⟩ := d.fld_casGone
      obtain ⟨gone, g⟩ := d.casGone_frame
      obtain ⟨regs, e⟩ := Device.casEnded_frame (d := d.casGone) (a := 4) (c := cOK) (o := o)
      have cas : (d.casGone.casEnded 4 cOK o).cas = d.casGone.cas := by rw [e, Device.complete_frame]
      refine .of_eq told ⟨(Device.fld_casEnded (by decide) (by decide)).trans role, (Device.fld_casEnded (by decide) (by decide)).trans ok,
        Device.code_casEnded, (Device.fld_casEnded (by decide) (by decide)).trans slew, cas.trans (congrArg Device.cas g), d.casGone_ended o⟩
    · refine .of_eq told ((Device.casLeaveReq_refused (c := cBUSY) (led d hm) ?_ (by decide)).trans (d.casRefuse_busy o 4))
      rw [Device.casLeaveCode, d.casBusy_iff.mpr hb, firstCode_head (by simp [cBUSY, cUNSUP])]
    · refine .of_eq told ((Device.casLeaveReq_refused (c := cUNSUP) (led d hm) ?_ (by decide)).trans (Device.casRefuse_code ho (by decide)))
      rw [Device.casLeaveCode, free d hb, show d.isSet F.CHN_SYNC_CFG_SYNC_EN = true from hs]
      rfl
    · have code : d.casLeaveCode = cOK := by
        rw [Device.casLeaveCode, free d hb, Bool.eq_false_iff.mpr hs]
        rfl
      obtain ⟨change, shows, bit, asks, -⟩ := Device.roleStarted (z := ⟨o, 4, dv, 0⟩) ho (by simp) (Device.casLeaveReq_taken (led d hm) code)
      exact .of_eq told ⟨change, asks, shows, bit⟩
  have host : Origin.host ≠ .device := by simp
  refine ⟨formed _ _ _ host rfl, calibrated _ _ _ host rfl, cleared _ _ _ _ host rfl, taken' _ _ _ _ _ host rfl, left _ _ _ _ host rfl,
    fun hu => formed _ _ _ (origin_ne_device u) (exec_casForm hu), fun hu => calibrated _ _ _ (origin_ne_device u) (exec_casCal hu),
    fun hu => cleared _ _ _ _ (origin_ne_device u) (exec_casReset hu), fun hu => taken' _ _ _ _ _ (origin_ne_device u) (exec_casTakeover hu),
    fun hu => left _ _ _ _ (origin_ne_device u) (exec_casLeave hu), fun h => .of_eq (exec_casLinkRun_none h) rfl,
    fun h hr => .of_eq (exec_casLinkRun_runs h hr) rfl, fun h hr => ?_⟩
  rintro c rfl x rfl
  exact ⟨fun hc => .of_eq (exec_casLinkRun h hr) (if_neg hc), fun hc => .of_eq (exec_casLinkRun h hr) (if_pos hc)⟩

end Sys2Proof.Machine
end


section
/-! SUPPORT. What each timer of the cascade does when it is due, and when it is not (R545, R549, R552, R553, R556, R557). -/

namespace Sys2Proof.Machine

variable {d y : Device} {s : State} {l seq dv j n : Nat} {theta fwd : Int} {w : CasWait} {t0 : Time}

/-! A control message without an answer (R545). -/

theorem exec_controlRetryTimeout_none (h : ∀ v ∈ (s.dev.casLink l).wait, v.seq ≠ seq) : exec (.controlRetryTimeout l seq) s = .next s := by
  have none : (s.dev.casLink l).wait.find? (fun v => decide (v.seq = seq)) = none :=
    List.find?_eq_none.mpr fun v hv => by rw [decide_eq_true_eq]; exact h v hv
  show execControlRetryTimeout l seq s = _
  refine State.run_of_eq ?_
  dsimp only
  rw [none]

/-- What the timer of a message that still waits does. -/
theorem exec_controlRetryTimeout (h : (s.dev.casLink l).wait.find? (fun v => decide (v.seq = seq)) = some w) :
    exec (.controlRetryTimeout l seq) s = .next { s with dev :=
      (let x := s.dev.casLink l
       if timeLT s.dev.time (w.sent + nsTime 10000) = true ∨ s.dev.cas.stale = true then s.dev
       else if s.dev.cas.deaf = true ∧ w.dst = 0 then
         (s.dev.setCasLink l { x with wait := x.wait.filter (fun v => decide (v.seq ≠ seq)) }).casDrop
       else if w.tries < 8 then
         (s.dev.setCasLink l { x with wait := x.wait.map (fun v => if v.seq = seq then { v with tries := v.tries + 1, sent := s.dev.time } else v) }).send
           (.casMsg l true w.ty w.epoch s.dev.casSelf w.dst w.seq w.args [])
       else
         (s.dev.setCasLink l { x with wait := x.wait.filter (fun v => decide (v.seq ≠ seq)) }).flag F.CAS_FLAGS_UNACKED Reg.CAS_UNACKED_CNT) } := by
  show execControlRetryTimeout l seq s = _
  refine State.run_of_eq ?_
  dsimp only
  rw [h]

/-! STATUS and DECIDED (R549, R556). -/

/-- The device's role is that of a member or a standby. -/
abbrev Device.casMember (d : Device) : Prop := d.casRole = 2 ∨ d.casRole = 3

theorem Device.casMember_iff (d : Device) : d.casRole ∈ [caMember, caStandby] ↔ d.casMember := by
  rw [List.mem_cons, List.mem_singleton]
  exact Iff.rfl

theorem exec_statusSend (hm : s.dev.casMember) (hd : timeLE (s.dev.cas.statusAt + nsTime 100000) s.dev.time = true) :
    exec .statusSend s = .next { s with dev := (Device.casSend { s.dev with cas := { s.dev.cas with statusAt := s.dev.time } } 6 0
      [if s.dev.fld F.SYS_STAT_STATE = 3 then 1 else 0, s.dev.fld F.CAS_STAT_TIME_OK] []) } := by
  show execStatusSend s = _
  exact State.run_of_eq (if_pos ⟨.inl (s.dev.casMember_iff.mpr hm), hd⟩)

theorem exec_statusSend_waits
    (h : (¬s.dev.casMember ∧ s.dev.cas.stale = false) ∨ timeLE (s.dev.cas.statusAt + nsTime 100000) s.dev.time = false) :
    exec .statusSend s = .next s := by
  show execStatusSend s = _
  refine State.run_of_eq (if_neg ?_)
  rintro ⟨hm, hd⟩
  rcases h with ⟨hn, hs⟩ | h
  · rcases hm with hm | hm
    · exact hn (s.dev.casMember_iff.mp hm)
    · exact Bool.false_ne_true (hs.symm.trans hm)
  · exact Bool.false_ne_true (h.symm.trans hd)

theorem Device.casWorks_iff (d : Device) : d.casRole ∈ [caMaster, caMember] ↔ d.casRole = 1 ∨ d.casRole = 2 := by
  rw [List.mem_cons, List.mem_singleton]
  exact Iff.rfl

theorem exec_decidedSend (hm : s.dev.casRole = 1 ∨ s.dev.casRole = 2) (hd : timeLE (s.dev.cas.decidedAt + nsTime 1000) s.dev.time = true) :
    exec .decidedSend s = .next { s with dev := (Device.casSendAll { s.dev with cas := { s.dev.cas with decidedAt := s.dev.time } } 7 s.dev.casOthers
      [s.dev.rd64 Reg.TRG_DECIDED_LO]) } := by
  show execDecidedSend s = _
  exact State.run_of_eq (if_pos ⟨s.dev.casWorks_iff.mpr hm, hd⟩)

theorem exec_decidedSend_waits
    (h : (¬s.dev.casRole = 1 ∧ s.dev.casRole ≠ 2) ∨ timeLE (s.dev.cas.decidedAt + nsTime 1000) s.dev.time = false) :
    exec .decidedSend s = .next s := by
  show execDecidedSend s = _
  refine State.run_of_eq (if_neg ?_)
  rintro ⟨hm, hd⟩
  rcases h with ⟨h1, h2⟩ | h
  · exact (s.dev.casWorks_iff.mp hm).elim h1 h2
  · exact Bool.false_ne_true (h.symm.trans hd)

/-! A device that is not heard (R549, R558). -/

/-- A device that the master has not heard, as it shows. -/
def Device.casLost (d : Device) (dv : Nat) : Device :=
  ((d.setFld (F.CAS_D_STAT_STATE dv) 3).setFld (F.CAS_D_STAT_TIME_OK dv) 0).flag F.CAS_FLAGS_LOST Reg.CAS_LOST_CNT

theorem Device.rd_casLost {b : Nat} (h1 : b ≠ Reg.CAS_D_STAT dv) (h2 : b ≠ Reg.CAS_FLAGS) (h3 : b ≠ Reg.CAS_LOST_CNT) :
    (d.casLost dv).rd b = d.rd b :=
  (Device.rd_flag_other _ _ _ h2 h3).trans ((Device.rd_setFld_mk _ _ _ h1).trans (Device.rd_setFld_mk _ _ _ h1))

theorem Device.cas_casLost : (d.casLost dv).cas = d.cas := by
  obtain ⟨_, e⟩ := (((OnlyRegs.refl d).setFld (F.CAS_D_STAT_STATE dv) 3).setFld (F.CAS_D_STAT_TIME_OK dv) 0).flag F.CAS_FLAGS_LOST Reg.CAS_LOST_CNT
  rw [Device.casLost, e]

theorem Device.auto_casLost : (d.casLost dv).isSet F.CAS_CFG_AUTO_TAKEOVER = d.isSet F.CAS_CFG_AUTO_TAKEOVER :=
  Device.isSet_congr (Device.rd_casLost (by simp only [F.CAS_CFG_AUTO_TAKEOVER, Reg.CAS_CFG, Reg.CAS_D_STAT]; omega) (by decide) (by decide))

theorem Device.casBusy_casLost : (d.casLost dv).casBusy = d.casBusy := by
  rw [Device.casBusy, Device.cas_casLost, Device.isSet_congr (Device.rd_casLost
    (by simp only [F.CAS_CMD_STAT_BUSY, Reg.CAS_CMD_STAT, Reg.CAS_D_STAT]; omega) (by decide) (by decide)), Device.casBusy]

/-- What follows when a device is lost: with AUTO_TAKEOVER its takeover begins, or waits for the request in progress. -/
def Device.lostNext (d : Device) (dv : Nat) : Device :=
  if d.isSet F.CAS_CFG_AUTO_TAKEOVER = true ∧ (d.casRow dv).role = caMember then
    if d.casBusy = true then { d with cas := { d.cas with takeovers := d.cas.takeovers ++ [dv] } } else d.casTakeReq dv 0xFF .device
  else d

theorem Device.lostNext_casLost (d : Device) (dv : Nat) : (d.casLost dv).lostNext dv =
    if d.isSet F.CAS_CFG_AUTO_TAKEOVER = true ∧ (d.casRow dv).role = caMember then
      if d.casBusy = true then { d.casLost dv with cas := { (d.casLost dv).cas with takeovers := d.cas.takeovers ++ [dv] } }
      else (d.casLost dv).casTakeReq dv 0xFF .device
    else d.casLost dv := by
  have row : (d.casLost dv).casRow dv = d.casRow dv := by rw [Device.casRow, Device.cas_casLost, Device.casRow]
  rw [Device.lostNext, Device.auto_casLost, row, Device.casBusy_casLost, Device.cas_casLost]

theorem exec_deviceLostTimeout (hm : s.dev.casRole = 1) (hv : dv ∈ s.dev.casOthers)
    (hs : s.dev.fld (F.CAS_D_STAT_STATE dv) = 1 ∨ s.dev.fld (F.CAS_D_STAT_STATE dv) = 2)
    (hd : timeLE ((s.dev.casDev dv).heard + nsTime (s.dev.rdN Reg.CAS_TIMEOUT)) s.dev.time = true) :
    exec (.deviceLostTimeout dv) s = .next { s with dev := (s.dev.casLost dv).lostNext dv } := by
  have state : s.dev.fld (F.CAS_D_STAT_STATE dv) ∈ [1, 2] := by
    rw [List.mem_cons, List.mem_singleton]
    exact hs
  show execDeviceLostTimeout dv s = _
  exact State.run_of_eq (if_pos ⟨s.dev.isMaster_iff.mpr hm, hv, state, hd⟩)

theorem exec_deviceLostTimeout_waits (h : ¬s.dev.casRole = 1 ∨ dv ∉ s.dev.casOthers ∨
    timeLE ((s.dev.casDev dv).heard + nsTime (s.dev.rdN Reg.CAS_TIMEOUT)) s.dev.time = false) : exec (.deviceLostTimeout dv) s = .next s := by
  show execDeviceLostTimeout dv s = _
  refine State.run_of_eq (if_neg ?_)
  rintro ⟨hm, hv, -, hd⟩
  rcases h with h | h | h
  · exact h (s.dev.isMaster_iff.mp hm)
  · exact h hv
  · exact Bool.false_ne_true (h.symm.trans hd)

theorem Device.casWaiting_none (h : d.cas.takeovers = []) : d.casWaiting = d := by rw [Device.casWaiting, h]

theorem Device.casWaiting_some {ns : List Nat} (h : d.cas.takeovers = n :: ns) : d.casWaiting =
    if d.casBusy = true then d else Device.casTakeReq { d with cas := { d.cas with takeovers := ns } } n 0xFF .device := by
  rw [Device.casWaiting, h]

theorem exec_masterLostTimeout (hm : s.dev.casMember) (hf : s.dev.cas.deaf = false)
    (hd : timeLE (s.dev.cas.heard + nsTime (s.dev.rdN Reg.CAS_TIMEOUT)) s.dev.time = true) : exec .masterLostTimeout s = .next { s with dev :=
      (Device.setFld { (s.dev.flag F.CAS_FLAGS_MASTER_LOST Reg.CAS_MASTER_LOST_CNT).setFld F.CAS_STAT_TIME_OK 0 with
        cas := { s.dev.cas with deaf := true, slew := 0, marks := [], errs := [] } } F.CAS_STAT_SLEWING 0) } := by
  obtain ⟨regs, e⟩ := ((Device.OnlyRegs.refl s.dev).flag F.CAS_FLAGS_MASTER_LOST Reg.CAS_MASTER_LOST_CNT).setFld F.CAS_STAT_TIME_OK 0
  show execMasterLostTimeout s = _
  refine State.run_of_eq ((if_pos ⟨s.dev.casMember_iff.mpr hm, by rw [hf]; rfl, hd⟩).trans ?_)
  dsimp only
  rw [e]

theorem exec_masterLostTimeout_waits (h : ¬s.dev.casMember ∨ s.dev.cas.deaf = true ∨
    timeLE (s.dev.cas.heard + nsTime (s.dev.rdN Reg.CAS_TIMEOUT)) s.dev.time = false) : exec .masterLostTimeout s = .next s := by
  show execMasterLostTimeout s = _
  refine State.run_of_eq (if_neg ?_)
  rintro ⟨hm, hf, hd⟩
  rcases h with h | h | h
  · exact h (s.dev.casMember_iff.mp hm)
  · rw [h] at hf
    exact Bool.false_ne_true hf
  · exact Bool.false_ne_true (h.symm.trans hd)

/-! The end of a calibration (R551, R552). -/

/-- The instant at which a calibration's exchanges are complete. -/
abbrev calEndAt (t0 : Time) : Time := t0 + BitVec.ofNat 64 (4096 * 65536000)

theorem exec_cascadeCalDone_none (hm : s.dev.casRole = 1) (hc : s.dev.cas.cal = none) : exec (.cascadeCalDone theta fwd) s = .next s := by
  show execCascadeCalDone theta fwd s = _
  refine State.run_of_eq ((if_pos (s.dev.isMaster_iff.mpr hm)).trans ?_)
  rw [hc]

theorem exec_cascadeCalDone_early (hm : s.dev.casRole = 1) (hc : s.dev.cas.cal = some t0) (ht : timeLT s.dev.time (calEndAt t0) = true) :
    exec (.cascadeCalDone theta fwd) s = .next s := by
  show execCascadeCalDone theta fwd s = _
  refine State.run_of_eq ((if_pos (s.dev.isMaster_iff.mpr hm)).trans ?_)
  rw [hc]
  exact if_pos ht

/-- The master's own part of the end of a calibration. -/
def Device.calOver (d : Device) : Device :=
  ((Device.setFld { d with cas := { d.cas with cal := none, calForm := false, recalAt := d.time, markAt := d.time } } F.CAS_STAT_TIME_OK 1).setFld
    (F.CAS_D_STAT_TIME_OK 0) 1).setFld (F.CAS_D_STAT_STATE 0) 2

/-- A master without other devices ends a calibration. -/
theorem exec_cascadeCalDone_alone (hm : s.dev.casRole = 1) (hc : s.dev.cas.cal = some t0) (ht : timeLT s.dev.time (calEndAt t0) = false)
    (hn : s.dev.casOthers = []) : exec (.cascadeCalDone theta fwd) s = .next { s with dev :=
      (s.dev.calOver.casEnd s.dev.cas.calBy (if s.dev.cas.calForm then 0 else 1) s.dev.cas.formCode none) } := by
  show execCascadeCalDone theta fwd s = _
  refine State.run_of_eq ((if_pos (s.dev.isMaster_iff.mpr hm)).trans ?_)
  rw [hc]
  refine (if_neg (Bool.eq_false_iff.mp ht)).trans ?_
  dsimp only
  rw [hn]
  rfl

theorem Device.calOver_frame (d : Device) : Device.OnlyRegs
    { d with cas := { d.cas with cal := none, calForm := false, recalAt := d.time, markAt := d.time } } d.calOver :=
  (((OnlyRegs.refl _).setFld _ _).setFld _ _).setFld _ _

theorem Device.timeOk_calOver (d : Device) : d.calOver.fld F.CAS_STAT_TIME_OK = 1 := by
  rw [Device.calOver, Device.fld_setFld_other _ _ _ _ (by decide), Device.fld_setFld_other _ _ _ _ (by decide), Device.fld_setFld _ _ _ (by decide)]
  rfl

theorem Device.state_calOver (d : Device) : d.calOver.fld (F.CAS_D_STAT_STATE 0) = 2 := Device.fld_setFld _ _ _ (by decide)

theorem exec_cascadeCalDone_off (hm : ¬s.dev.casRole = 1) (hn : ¬s.dev.casMember) : exec (.cascadeCalDone theta fwd) s = .next s := by
  show execCascadeCalDone theta fwd s = _
  exact State.run_of_eq ((if_neg (mt s.dev.isMaster_iff.mp hm)).trans (if_neg (mt s.dev.casMember_iff.mp hn)))

/-- The difference and the delay that the master sent, as they show. -/
def Device.calTold (d : Device) (theta fwd : Int) : Device := (d.wr Reg.CAS_FWD (wrap 32 fwd)).wr64 Reg.CAS_OFFSET_LO (wrap 64 theta)

theorem Device.calTold_frame (d : Device) (theta fwd : Int) : d.OnlyRegs (d.calTold theta fwd) := ((OnlyRegs.refl d).wr _ _).wr64 _ _

/-- A device takes the difference that it was sent. -/
theorem exec_cascadeCalDone_member (hm : s.dev.casMember) : exec (.cascadeCalDone theta fwd) s = .next { s with dev :=
    (let d := s.dev.calTold theta fwd
     if s.dev.cas.calForm = true then
       Device.setFld { d with time := s.dev.time - BitVec.ofInt 64 theta, cas := { s.dev.cas with calForm := false } } F.CAS_STAT_TIME_OK 1
     else if 65536 ≤ theta.natAbs then d.timeFault
     else (Device.setFld { d with cas := { s.dev.cas with slew := theta } } F.CAS_STAT_SLEWING (if theta = 0 then 0 else 1)).setFld F.CAS_STAT_TIME_OK 1) } := by
  have other : ¬s.dev.casRole = 1 := by
    rcases hm with hm | hm
    · omega
    · omega
  obtain ⟨regs, e⟩ := s.dev.calTold_frame theta fwd
  have cas : (s.dev.calTold theta fwd).cas = s.dev.cas := by rw [e]
  have time : (s.dev.calTold theta fwd).time = s.dev.time := by rw [e]
  show execCascadeCalDone theta fwd s = _
  refine State.run_of_eq ((if_neg (mt s.dev.isMaster_iff.mp other)).trans ((if_pos (s.dev.casMember_iff.mpr hm)).trans ?_))
  dsimp only
  rw [← cas, ← time]
  by_cases hl : 65536 ≤ theta.natAbs
  · rw [if_pos hl, if_pos hl]
    rfl
  · rw [if_neg hl, if_neg hl, Device.slewBy, if_neg hl]
    rfl

/-! The master's periods (R552, R553). -/

theorem exec_recalTimer (hn : n = s.dev.rdN Reg.CAS_RECAL % 65536) (hm : s.dev.casRole = 1) (h0 : n ≠ 0) (hb : s.dev.casBusy = false)
    (hd : timeLE (s.dev.cas.recalAt + nsTime (n * 10 ^ 9)) s.dev.time = true) :
    exec .recalTimer s = .next { s with dev := s.dev.calBegun .device } := by
  have period : s.dev.fld ⟨Reg.CAS_RECAL, ⟨0, 16⟩⟩ = n := by
    rw [hn]
    exact bitsOf_zero _ _
  show execRecalTimer s = _
  refine State.run_of_eq (if_pos ?_)
  rw [period]
  exact ⟨s.dev.isMaster_iff.mpr hm, h0, by rw [hb]; rfl, hd⟩

theorem exec_recalTimer_waits (hn : n = s.dev.rdN Reg.CAS_RECAL % 65536) (h : ¬s.dev.casRole = 1 ∨ n = 0 ∨ s.dev.casBusy = true ∨
    timeLE (s.dev.cas.recalAt + nsTime (n * 10 ^ 9)) s.dev.time = false) : exec .recalTimer s = .next s := by
  have period : s.dev.fld ⟨Reg.CAS_RECAL, ⟨0, 16⟩⟩ = n := by
    rw [hn]
    exact bitsOf_zero _ _
  show execRecalTimer s = _
  refine State.run_of_eq (if_neg ?_)
  rw [period]
  rintro ⟨hm, h0, hb, hd⟩
  rcases h with h | h | h | h
  · exact h (s.dev.isMaster_iff.mp hm)
  · exact h0 h
  · rw [h] at hb
    exact Bool.false_ne_true hb
  · exact Bool.false_ne_true (h.symm.trans hd)

theorem exec_markTimer (hn : n = s.dev.rdN Reg.CAS_MARK_PERIOD % 2 ^ 20) (hm : s.dev.casRole = 1) (hk : s.dev.isSet F.CAS_STAT_TIME_OK = true)
    (hc : s.dev.cas.cal = none) (hd : timeLE (s.dev.cas.markAt + nsTime (n * 1000)) s.dev.time = true) : exec .markTimer s = .next { s with dev :=
      (Device.send (Device.casSendAll { s.dev with cas := { s.dev.cas with markAt := s.dev.time } } 5 s.dev.casOthers [s.dev.casLead.toNat, 0])
        (.mark s.dev.casLead)) } := by
  have period : s.dev.fld ⟨Reg.CAS_MARK_PERIOD, ⟨0, 20⟩⟩ = n := by
    rw [hn]
    exact bitsOf_zero _ _
  show execMarkTimer s = _
  refine State.run_of_eq (if_pos ?_)
  rw [period]
  exact ⟨s.dev.isMaster_iff.mpr hm, hk, Option.isNone_iff_eq_none.mpr hc, hd⟩

theorem exec_markTimer_waits (hn : n = s.dev.rdN Reg.CAS_MARK_PERIOD % 2 ^ 20) (h : ¬s.dev.casRole = 1 ∨ s.dev.isSet F.CAS_STAT_TIME_OK = false ∨
    s.dev.cas.cal ≠ none ∨ timeLE (s.dev.cas.markAt + nsTime (n * 1000)) s.dev.time = false) : exec .markTimer s = .next s := by
  have period : s.dev.fld ⟨Reg.CAS_MARK_PERIOD, ⟨0, 20⟩⟩ = n := by
    rw [hn]
    exact bitsOf_zero _ _
  show execMarkTimer s = _
  refine State.run_of_eq (if_neg ?_)
  rw [period]
  rintro ⟨hm, hk, hc, hd⟩
  rcases h with h | h | h | h
  · exact h (s.dev.isMaster_iff.mp hm)
  · exact Bool.false_ne_true (h.symm.trans hk)
  · exact h (Option.isNone_iff_eq_none.mp hc)
  · exact Bool.false_ne_true (h.symm.trans hd)

/-! Slewing (R553), and the wait of a join (R557). -/

theorem exec_slewStep_waits (h : s.dev.isSet F.CAS_STAT_SLEWING = false ∨ s.dev.cas.slewTick < 64) : exec .slewStep s = .next s := by
  show execSlewStep s = _
  refine State.run_of_eq (if_neg ?_)
  rintro ⟨hs, ht⟩
  rcases h with h | h
  · exact Bool.false_ne_true (h.symm.trans hs)
  · omega

section
variable (hs : s.dev.isSet F.CAS_STAT_SLEWING = true) (ht : 64 ≤ s.dev.cas.slewTick)
include hs ht

/-- A unit is added while the slew is negative. -/
theorem exec_slewStep_up (h : s.dev.cas.slew < -1) : exec .slewStep s = .next { s with dev :=
    { s.dev with time := s.dev.time + 1, cas := { s.dev.cas with slew := s.dev.cas.slew + 1, slewTick := 0 } } } := by
  have up : decide (s.dev.cas.slew < 0) = true := decide_eq_true (by omega)
  show execSlewStep s = _
  refine State.run_of_eq ((if_pos ⟨hs, ht⟩).trans ?_)
  rw [up]
  exact if_neg (by simp only [if_true]; omega)

/-- A unit is removed while the slew is positive. -/
theorem exec_slewStep_down (h : 1 < s.dev.cas.slew) : exec .slewStep s = .next { s with dev :=
    { s.dev with time := s.dev.time - 1, cas := { s.dev.cas with slew := s.dev.cas.slew - 1, slewTick := 0 } } } := by
  have down : decide (s.dev.cas.slew < 0) = false := decide_eq_false (by omega)
  show execSlewStep s = _
  refine State.run_of_eq ((if_pos ⟨hs, ht⟩).trans ?_)
  rw [down]
  exact if_neg (by simp only [Bool.false_eq_true, if_false]; omega)

theorem exec_slewStep_last (h : s.dev.cas.slew = 1) : exec .slewStep s = .next { s with dev :=
    (Device.setFld { s.dev with time := s.dev.time - 1, cas := { s.dev.cas with slew := 0, slewTick := 0 } } F.CAS_STAT_SLEWING 0) } := by
  show execSlewStep s = _
  refine State.run_of_eq ((if_pos ⟨hs, ht⟩).trans ?_)
  rw [h]
  rfl

end

/-- Whether a composite of a join has waited long enough for its missing parts. -/
def Device.joinDue (d : Device) (j : Nat) (c : CasComp) : Bool :=
  decide (c.join = j) && (match c.own with | none => false | some t => timeLE (t + nsTime (d.rdN (Reg.CAS_J_WAIT j))) d.time)

theorem exec_joinWaitTimeout (j : Nat) (s : State) : exec (.joinWaitTimeout j) s = .next { s with dev :=
    (match s.dev.cas.comps.find? (s.dev.joinDue j) with | none => s.dev | some c => s.dev.compLeave c) } := rfl

theorem exec_joinWaitTimeout_none (h : ∀ c ∈ s.dev.cas.comps, c.join ≠ j) : exec (.joinWaitTimeout j) s = .next s := by
  have none : s.dev.cas.comps.find? (s.dev.joinDue j) = none :=
    List.find?_eq_none.mpr fun c hc => by
      rw [Device.joinDue, decide_eq_false (h c hc), Bool.false_and]
      exact Bool.false_ne_true
  rw [exec_joinWaitTimeout, none]

theorem exec_joinWaitTimeout_due {c : CasComp} {cs : List CasComp} {t : Time} (h : s.dev.cas.comps = c :: cs) (hj : c.join = j)
    (ho : c.own = some t) (hd : timeLE (t + nsTime (s.dev.rdN (Reg.CAS_J_WAIT j))) s.dev.time = true) :
    exec (.joinWaitTimeout j) s = .next { s with dev := s.dev.compLeave c } := by
  have passes : s.dev.joinDue j c = true := by
    rw [Device.joinDue, decide_eq_true hj, ho]
    exact hd
  rw [exec_joinWaitTimeout, h, List.find?_cons_of_pos passes]

end Sys2Proof.Machine
end

section
/-! PROOFS. Cascade timers (R545, R549, R552, R553, R556, R557). -/

namespace Sys2Proof.Machine

/-- Settles O55, timer by timer. -/
theorem cascadeTimers : Obligations.CascadeTimers := by
  intro s l seq dv j theta fwd w d x master member due fault told
  have off : ∀ {b : Bool}, b = false → ¬b = true := fun h => Bool.eq_false_iff.mp h
  refine ⟨fun h => .of_eq (exec_controlRetryTimeout_none h) rfl, fun h => ⟨fun ht => ?_, fun ht hs hf h0 => ?_, fun ht hs hf h8 => ?_,
      fun ht hs hf h8 => ?_⟩,
    fun hm hd => .of_eq (exec_statusSend hm hd) rfl, fun h => .of_eq (exec_statusSend_waits h) rfl,
    fun hm hd => .of_eq (exec_decidedSend hm hd) rfl, fun h => .of_eq (exec_decidedSend_waits h) rfl,
    fun hm hv hs hd y hy => ⟨fun h => ?_, fun ha hr => ⟨fun hb => ?_, fun hb => ?_⟩⟩,
    fun y => ⟨Device.casWaiting_none, fun n ns h => ⟨fun hb => (Device.casWaiting_some h).trans (if_pos hb),
      fun hb => (Device.casWaiting_some h).trans (if_neg (off hb))⟩⟩,
    fun h => .of_eq (exec_deviceLostTimeout_waits h) rfl, fun hm hf hd => .of_eq (exec_masterLostTimeout hm hf hd) rfl,
    fun h => .of_eq (exec_masterLostTimeout_waits h) rfl, fun hm hc => .of_eq (exec_cascadeCalDone_none hm hc) rfl,
    fun t0 hm hc ht => .of_eq (exec_cascadeCalDone_early hm hc ht) rfl, fun t0 e k hm hc ht hn hk => ?_,
    fun hm hn => .of_eq (exec_cascadeCalDone_off hm hn) rfl, fun hm => ⟨fun hf => ?_, fun hf hl => ?_, fun hf hl => ?_⟩,
    fun n hn => ⟨fun hm h0 hb hd => ?_, fun h => .of_eq (exec_recalTimer_waits hn h) rfl⟩,
    fun p hp => ⟨fun hm hk hc hd => .of_eq (exec_markTimer hp hm hk hc hd) rfl, fun h => .of_eq (exec_markTimer_waits hp h) rfl⟩,
    fun h => .of_eq (exec_slewStep_waits h) rfl,
    fun hs ht => ⟨fun h => .of_eq (exec_slewStep_up hs ht h) rfl, fun h => .of_eq (exec_slewStep_down hs ht h) rfl,
      fun h => .of_eq (exec_slewStep_last hs ht h) rfl⟩,
    fun h => .of_eq (exec_joinWaitTimeout_none h) rfl, fun c cs t h hj ho hd => .of_eq (exec_joinWaitTimeout_due h hj ho hd) rfl⟩
  · exact .of_eq (exec_controlRetryTimeout h) (if_pos ht)
  · have pending : ¬(timeLT d.time (w.sent + nsTime 10000) = true ∨ d.cas.stale = true) := not_or.mpr ⟨off ht, off hs⟩
    exact .of_eq (exec_controlRetryTimeout h) ((if_neg pending).trans (if_pos ⟨hf, h0⟩))
  · have pending : ¬(timeLT d.time (w.sent + nsTime 10000) = true ∨ d.cas.stale = true) := not_or.mpr ⟨off ht, off hs⟩
    have sends : ¬(d.cas.deaf = true ∧ w.dst = 0) := fun ⟨h1, h2⟩ => hf.elim (fun h => off h h1) (absurd h2)
    exact .of_eq (exec_controlRetryTimeout h) ((if_neg pending).trans ((if_neg sends).trans (if_pos h8)))
  · have pending : ¬(timeLT d.time (w.sent + nsTime 10000) = true ∨ d.cas.stale = true) := not_or.mpr ⟨off ht, off hs⟩
    have sends : ¬(d.cas.deaf = true ∧ w.dst = 0) := fun ⟨h1, h2⟩ => hf.elim (fun h => off h h1) (absurd h2)
    exact .of_eq (exec_controlRetryTimeout h) ((if_neg pending).trans ((if_neg sends).trans (if_neg (Nat.not_lt.mpr h8))))
  · subst hy
    refine .of_eq (exec_deviceLostTimeout hm hv hs hd) ((d.lostNext_casLost dv).trans (if_neg ?_))
    rintro ⟨ha, hr⟩
    exact h.elim (fun h => off h ha) (absurd hr)
  · subst hy
    exact .of_eq (exec_deviceLostTimeout hm hv hs hd) ((d.lostNext_casLost dv).trans <| (if_pos ⟨ha, hr⟩).trans (if_pos hb))
  · subst hy
    exact .of_eq (exec_deviceLostTimeout hm hv hs hd) ((d.lostNext_casLost dv).trans <| (if_pos ⟨ha, hr⟩).trans (if_neg (off hb)))
  · have done := exec_cascadeCalDone_alone (theta := theta) (fwd := fwd) hm hc ht hn
    rw [hk, Device.casEnd_asked (by simp)] at done
    obtain ⟨regs, e'⟩ := d.calOver_frame
    obtain ⟨regs', f⟩ := Device.casEnded_frame (d := d.calOver) (a := if d.cas.calForm then 0 else 1) (c := d.cas.formCode) (o := .port e k)
    refine .of_eq done ⟨?_, (Device.fld_casEnded (by decide) (by decide)).trans d.timeOk_calOver,
      (Device.fld_casEnded (by decide) (by decide)).trans d.state_calOver, ?_, ?_, ?_, ?_⟩
    · rw [f, e']
      rfl
    · refine (Device.fld_complete _ _ _ _ _).trans ((Device.fld_setFld_disjoint _ _ _ _ (by decide) (by decide)).trans ?_)
      exact (Device.fld_congr (Device.rd_setFld_mk _ _ _ (by decide))).trans (Device.fld_setFld _ _ _ (by decide))
    · exact (Device.fld_complete _ _ _ _ _).trans (Device.fld_setFld _ _ _ (by decide))
    · rw [f, e']
      rfl
    · rw [f, e']
      rfl
  · exact .of_eq (exec_cascadeCalDone_member hm) (if_pos hf)
  · exact .of_eq (exec_cascadeCalDone_member hm) ((if_neg (off hf)).trans (if_pos hl))
  · exact .of_eq (exec_cascadeCalDone_member hm) ((if_neg (off hf)).trans (if_neg (Nat.not_le.mpr hl)))
  · obtain ⟨devs, begun⟩ := d.calBegun_frame .device
    refine .of_eq (exec_recalTimer hn hm h0 hb hd) ?_
    rw [begun]
    exact ⟨rfl, rfl, rfl, rfl⟩

end Sys2Proof.Machine
end


section
/-! SUPPORT. A message received: checked, passed on, compared with the epoch, taken once and answered; and what each type does
(R544, R545, R547 to R549, R551 to R557). -/

namespace Sys2Proof.Machine

variable {d y : Device} {s : State} {i : Instr} {m : CasMsg} {ty c index marks j n q l k : Nat} {args : List Nat} {data : List Byte} {any : Bool}
  {f : Device → Nat × Device} {t : Time} {stamp : Int}

/-! The way of a message (R544, R545). -/

/-- The message is for this device, and for no other. -/
abbrev Device.casMine (d : Device) (m : CasMsg) : Prop :=
  (m.dst ≠ 0xFF ∧ ∀ n, d.casNum = some n → m.dst = n) ∨ (m.dst = 0xFF ∧ ∀ l, l < 6 → l ≠ m.link → d.isSet (F.CAS_L_CFG_RUN l) = false)

/-- What becomes of a message that is this device's: compared with the epoch, taken once, and answered. -/
def Device.casHere (d : Device) (m : CasMsg) (ty : Nat) (any : Bool) (f : Device → Nat × Device) : Device :=
  if !any && decide (m.epoch ≠ d.casEpoch) then
    let d := d.flag F.CAS_FLAGS_STALE Reg.CAS_STALE_CNT
    if casControl ty then d.casAnswer m cSTALE else d
  else if !casControl ty then (f d).2
  else if m.retry ∧ (m.src, m.seq) ∈ (d.casLink m.link).seen then d.casAnswer m cOK
  else
    let r := f d
    let d := r.2.casAnswer m r.1
    if r.1 = cOK then d.setCasLink m.link { d.casLink m.link with seen := (d.casLink m.link).seen ++ [(m.src, m.seq)] } else d

theorem Device.casIn_damaged (h : m.good = false) : d.casIn m ty args data any f = d.flag F.CAS_FLAGS_MSG_ERR Reg.CAS_MSG_ERR_CNT :=
  if_pos (by rw [h]; rfl)

theorem Device.casIn_here (hg : m.good = true) (h : d.casMine m) : d.casIn m ty args data any f = d.casHere m ty any f := by
  have good : ¬(!m.good) = true := by rw [hg]; decide
  rcases h with ⟨hd, hn⟩ | ⟨hd, hl⟩
  · have mine : (decide (m.dst = 0xFF) || d.casNum.all (fun n => decide (m.dst = n))) = true := by
      rw [decide_eq_false hd, Bool.false_or, Option.all_eq_true]
      exact fun n h => decide_eq_true (hn n h)
    refine (if_neg good).trans ?_
    dsimp only
    rw [mine, if_neg (show ¬(m.dst = 0xFF ∨ (!true) = true) by simp [hd]), if_neg (show ¬(!true) = true by decide)]
    rfl
  · have mine : (decide (m.dst = 0xFF) || d.casNum.all (fun n => decide (m.dst = n))) = true := by rw [decide_eq_true hd, Bool.true_or]
    have alone : d.casRelay m ty args data = d := by
      have none : (List.range 6).filter (fun l => d.isSet (F.CAS_L_CFG_RUN l) && decide (l ≠ m.link)) = [] := by
        refine List.filter_eq_nil_iff.mpr fun l h => ?_
        rw [Bool.and_eq_true, decide_eq_true_eq]
        rintro ⟨hr, hne⟩
        exact Bool.false_ne_true ((hl l (List.mem_range.mp h) hne).symm.trans hr)
      rw [Device.casRelay, if_pos hd, none]
      rfl
    refine (if_neg good).trans ?_
    dsimp only
    rw [mine, if_pos (Or.inl hd), alone, if_neg (show ¬(!true) = true by decide)]
    rfl

/-- A message for another device goes on. -/
theorem Device.casIn_away (hg : m.good = true) (hd : m.dst ≠ 0xFF) (hn : d.casNum = some n) (h : m.dst ≠ n) :
    d.casIn m ty args data any f = d.casRelay m ty args data := by
  have good : ¬(!m.good) = true := by rw [hg]; decide
  have mine : (decide (m.dst = 0xFF) || d.casNum.all (fun n => decide (m.dst = n))) = false := by
    rw [decide_eq_false hd, hn]
    exact decide_eq_false h
  refine (if_neg good).trans ?_
  dsimp only
  rw [mine]
  exact (if_pos rfl).trans (if_pos (Or.inr rfl))

section
variable (hd : m.dst ≠ 0xFF) (hl : d.linkTo m.dst = some l)
include hd hl

theorem Device.casRelay_eq : d.casRelay m ty args data =
    (let r := if ty = 9 ∨ ty = 10 then d.casRoom l (casSize data) else (true, d)
     if r.1 = true then r.2.send (.casMsg l m.retry ty m.epoch m.src m.dst m.seq args data) else r.2.casDrop) := by
  rw [Device.casRelay, if_neg hd, hl]
  rfl

theorem Device.casRelay_control (ht : ty ∉ [9, 10]) :
    d.casRelay m ty args data = d.send (.casMsg l m.retry ty m.epoch m.src m.dst m.seq args data) := by
  have plain : ¬(ty = 9 ∨ ty = 10) := by
    rw [List.mem_cons, List.mem_singleton] at ht
    exact ht
  rw [Device.casRelay_eq hd hl, if_neg plain]
  rfl

/-- A record or part needs room. -/
theorem Device.casRelay_record (ht : ty ∈ [9, 10]) : d.casRelay m ty args data =
    if 262144 < (d.casLink l).used - d.casDrained l + casSize data then d.casDrop
    else (d.setCasLink l { d.casLink l with used := (d.casLink l).used - d.casDrained l + casSize data, usedAt := d.time }).send
      (.casMsg l m.retry ty m.epoch m.src m.dst m.seq args data) := by
  have record : ty = 9 ∨ ty = 10 := by
    rw [List.mem_cons, List.mem_singleton] at ht
    exact ht
  rw [Device.casRelay_eq hd hl, if_pos record, Device.casRoom]
  by_cases h : 262144 < (d.casLink l).used - d.casDrained l + casSize data
  · rw [if_pos h, if_neg (Nat.not_le.mpr h)]
    rfl
  · rw [if_neg h, if_pos (Nat.not_lt.mp h)]
    rfl

end

/-! The epoch, repeats and answers (R545, R548). -/

/-- A control message taken: acknowledged, and its repeats will be known. -/
def Device.casTaken (d : Device) (m : CasMsg) : Device :=
  let z := d.casVia (some m.link) 2 m.src [m.seq] []
  z.setCasLink m.link { z.casLink m.link with seen := (z.casLink m.link).seen ++ [(m.src, m.seq)] }

theorem Device.casAnswer_code (h : c ≠ cOK) : d.casAnswer m c = d.casVia (some m.link) 3 m.src [m.seq, c] [] := if_neg h

theorem Device.casHere_stale (ha : any = false) (he : m.epoch ≠ d.casEpoch) (hc : casControl ty = false) :
    d.casHere m ty any f = d.flag F.CAS_FLAGS_STALE Reg.CAS_STALE_CNT := by
  rw [Device.casHere, ha, decide_eq_true he, hc]
  rfl

theorem Device.casHere_staleControl (ha : any = false) (he : m.epoch ≠ d.casEpoch) (hc : casControl ty = true) :
    d.casHere m ty any f = (d.flag F.CAS_FLAGS_STALE Reg.CAS_STALE_CNT).casVia (some m.link) 3 m.src [m.seq, cSTALE] [] := by
  rw [Device.casHere, ha, decide_eq_true he, hc]
  rfl

section
variable (he : any = true ∨ m.epoch = d.casEpoch)
include he

theorem Device.epoch_passes : ¬(!any && decide (m.epoch ≠ d.casEpoch)) = true := by
  rw [Bool.and_eq_true, Bool.not_eq_true', decide_eq_true_eq]
  rintro ⟨ha, hn⟩
  exact he.elim (fun h => Bool.false_ne_true (ha.symm.trans h)) hn

/-- What is no control message does what its type says. -/
theorem Device.casHere_data (hc : casControl ty = false) : d.casHere m ty any f = (f d).2 :=
  (if_neg (Device.epoch_passes he)).trans (if_pos (by rw [hc]; rfl))

variable (hc : casControl ty = true)
include hc

theorem Device.casHere_repeat (h : m.retry = true ∧ (m.src, m.seq) ∈ (d.casLink m.link).seen) :
    d.casHere m ty any f = d.casVia (some m.link) 2 m.src [m.seq] [] :=
  (if_neg (Device.epoch_passes he)).trans ((if_neg (by rw [hc]; decide)).trans (if_pos h))

variable (hn : m.retry = false ∨ (m.src, m.seq) ∉ (d.casLink m.link).seen)
include hn

/-- A new control message does what its type says, and its code goes back. -/
theorem Device.casHere_new : d.casHere m ty any f =
    (let x := (f d).2.casAnswer m (f d).1
     if (f d).1 = cOK then x.setCasLink m.link { x.casLink m.link with seen := (x.casLink m.link).seen ++ [(m.src, m.seq)] } else x) := by
  have new : ¬(m.retry = true ∧ (m.src, m.seq) ∈ (d.casLink m.link).seen) := fun ⟨h1, h2⟩ =>
    hn.elim (fun h => Bool.false_ne_true (h.symm.trans h1)) (absurd h2)
  exact (if_neg (Device.epoch_passes he)).trans ((if_neg (by rw [hc]; decide)).trans (if_neg new))

theorem Device.casHere_taken (hf : f d = (cOK, y)) : d.casHere m ty any f = y.casTaken m := by
  rw [Device.casHere_new he hc hn, hf]
  rfl

theorem Device.casHere_refused (hf : f d = (c, d)) (h : c ≠ cOK) : d.casHere m ty any f = d.casVia (some m.link) 3 m.src [m.seq, c] [] := by
  rw [Device.casHere_new he hc hn, hf]
  exact (if_neg h).trans (Device.casAnswer_code h)

end

/-! The rows of the messages that come to this device. -/

section
variable (hx : exec i s = .next { s with dev := s.dev.casIn m ty args data any f }) (hg : m.good = true) (hm : s.dev.casMine m)
  (he : any = true ∨ m.epoch = s.dev.casEpoch)
include hx hg hm he

theorem exec_message_data (hc : casControl ty = false) : exec i s = .next { s with dev := (f s.dev).2 } := by
  rw [hx, Device.casIn_here hg hm, Device.casHere_data he hc]

variable (hc : casControl ty = true) (hn : m.retry = false ∨ (m.src, m.seq) ∉ (s.dev.casLink m.link).seen)
include hc hn

theorem exec_message_taken (hf : f s.dev = (cOK, y)) : exec i s = .next { s with dev := y.casTaken m } := by
  rw [hx, Device.casIn_here hg hm, Device.casHere_taken he hc hn hf]

theorem exec_message_refused (hf : f s.dev = (c, s.dev)) (h : c ≠ cOK) :
    exec i s = .next { s with dev := s.dev.casVia (some m.link) 3 m.src [m.seq, c] [] } := by
  rw [hx, Device.casIn_here hg hm, Device.casHere_refused he hc hn hf h]

end

/-! A list walked with one element that acts. -/

theorem List.foldl_range_single {β : Type} {g : β → Nat → β} {x : β} (hj : j < n) (before : ∀ k, k < n → k ≠ j → g x k = x)
    (behind : ∀ k, k < n → k ≠ j → g (g x j) k = g x j) : (List.range n).foldl g x = g x j := by
  induction n with
  | zero => omega
  | succ n ih =>
    rw [List.range_succ, List.foldl_append]
    by_cases h : j = n
    · subst h
      rw [List.foldl_fixed fun k hk => before k (by have := List.mem_range.mp hk; omega) (by have := List.mem_range.mp hk; omega)]
      rfl
    · rw [ih (by omega) (fun k hk => before k (by omega)) (fun k hk => behind k (by omega))]
      exact behind n (by omega) (Ne.symm h)

/-! TRIGGER (R556): what a firing leaves of the routes. -/

theorem Device.regs_tFeed (d : Device) (n : Nat) (t : Time) : (d.tFeed n t).regs = d.regs := by
  refine List.foldlRecOn (motive := fun e : Device => e.regs = d.regs) _ _ rfl fun e he q _ => ?_
  dsimp only
  split
  · refine List.foldlRecOn (motive := fun e : Device => e.regs = d.regs) _ _ he fun e he k _ => ?_
    split
    · exact he
    · exact he
  · exact he

/-- A register reads alike after either of two steps. -/
theorem Device.rd_ite {p : Prop} [Decidable p] {x y : Device} {b : Nat} {w : Word} (hx : x.rd b = w) (hy : y.rd b = w) :
    (if p then x else y).rd b = w := by
  split
  · exact hx
  · exact hy

/-- A firing changes registers of the triggers alone. -/
theorem Device.rd_fire (d : Device) (k : Nat) (t : Time) (cs marks index viol : Nat) {b : Nat} (hb : 0x602000 ≤ b) :
    (d.fire k t cs marks index viol).rd b = d.rd b := by
  have fed : ∀ (y : Device) (n : Nat), (y.tFeed n t).rd b = y.rd b := fun y n => by rw [Device.rd, Device.regs_tFeed, Device.rd]
  have last : ∀ (y : Device), (y.wrTime (Reg.TRG_T_LAST_LO (k % 64)) t).rd b = y.rd b := fun y =>
    y.rd_wrTime_other t (by simp only [Reg.TRG_T_LAST_LO]; omega) (by simp only [Reg.TRG_T_LAST_LO]; omega)
  rw [Device.fire]
  refine Device.rd_ite ?_ (Device.rd_ite ?_ ?_)
  · exact Device.rd_flag_other _ _ _ (by simp only [F.TRG_FLAGS_HOLDOFF, Reg.TRG_FLAGS]; omega) (by simp only [Reg.TRG_HOLDOFF_CNT]; omega)
  · exact (Device.rd_inc_other _ (by simp only [Reg.TRG_T_FIRE_CNT]; omega)).trans ((fed _ _).trans (last _))
  · exact (fed _ _).trans (last _)

/-- A target without former armings fires in its present one. -/
theorem Device.rtFire_now (hk : ∀ k ∈ d.tKeys n, k < 64) (h5 : d.tKind n = 5) (ha : d.tArmed n = true) : d.rtFire n t = d.fire n t 0 0 0 0 := by
  have none : (d.tKeys n).find? (fun k => decide (64 ≤ k) && decide (sKind (d.tSet k t) = 5) && d.tTakes k t) = none :=
    List.find?_eq_none.mpr fun k h => by
      rw [decide_eq_false (Nat.not_le.mpr (hk k h)), Bool.false_and, Bool.false_and]
      exact Bool.false_ne_true
  rw [Device.rtFire, none]
  exact if_pos ⟨h5, ha⟩

/-- What one route does with a trigger message. -/
def Device.routed1 (d : Device) (m : CasMsg) (unit : Nat) (t : Time) (r : Nat) : Device :=
  if d.casWorks = true ∧ d.isSet (F.CAS_RT_CFG_EN r) = true ∧ d.fld (F.CAS_RT_CFG_SDEV r) = m.src ∧ d.fld (F.CAS_RT_CFG_SUNIT r) = unit then
    d.rtFire (d.fld (F.CAS_RT_CFG_DUNIT r)) (t + d.rtOfs r)
  else d

theorem exec_triggerMessage (m : CasMsg) (unit : Nat) (t : Time) (s : State) : exec (.triggerMessage m unit t) s =
    .next { s with dev := s.dev.casIn m 8 [unit, t.toNat] [] false (fun d => (cOK, (List.range 64).foldl (fun d r => d.routed1 m unit t r) d)) } := rfl

theorem Device.casWorks_mem (d : Device) : d.casWorks = true ↔ d.casRole ∈ [1, 2] := by
  rw [Device.casWorks, Bool.or_eq_true, decide_eq_true_eq, decide_eq_true_eq, List.mem_cons, List.mem_singleton]
  exact Iff.rfl

theorem Device.routed1_off {unit r : Nat} (h : d.isSet (F.CAS_RT_CFG_EN r) = false) : d.routed1 m unit t r = d :=
  if_neg fun ⟨_, he, _⟩ => Bool.false_ne_true (h.symm.trans he)

theorem Device.isSet_fire_route (d : Device) (k : Nat) (t : Time) (cs marks index viol r : Nat) :
    (d.fire k t cs marks index viol).isSet (F.CAS_RT_CFG_EN r) = d.isSet (F.CAS_RT_CFG_EN r) :=
  Device.isSet_congr (d.rd_fire k t cs marks index viol (by simp only [F.CAS_RT_CFG_EN, Reg.CAS_RT_CFG]; omega))

/-! Parts (R557): what a composite leaves of the joins. -/

/-- What one join does with a part. -/
def Device.joined1 (d : Device) (c index : Nat) (p : CasPart) (j : Nat) : Device :=
  if d.isSet (F.CAS_J_CFG_EN j) = true ∧ d.fld (F.CAS_J_CFG_CONTEXT j) = c ∧ bitAt (d.rdN (Reg.CAS_J_PARTS j)) p.dev = true then d.joinTake j index p else d

theorem exec_partMessage (m : CasMsg) (c index : Nat) (stamp : Int) (marks : Nat) (data : List Byte) (s : State) :
    exec (.partMessage m c index stamp marks data) s = .next { s with dev := s.dev.casIn m 10 [c, index, wrap 64 stamp, marks] data false (fun d =>
      (cOK, if (!d.isMaster) = true then d else (List.range 16).foldl (fun d j => d.joined1 c index ⟨m.src, stamp, marks, data⟩ j) d)) } := rfl

/-- A field that neither the records of a queue nor the count of missing parts touches. -/
abbrev FieldAt.joinKept (x : FieldAt) : Prop := 0x750000 ≤ x.addr ∧ x.addr ≠ Reg.CAS_FLAGS ∧ x.addr ≠ Reg.CAS_JOIN_MISS_CNT

theorem Device.fld_joinMiss {x : FieldAt} (hx : x.joinKept) : d.joinMiss.fld x = d.fld x :=
  Device.fld_congr (Device.rd_flag_other _ _ _ hx.2.1 hx.2.2)

theorem Device.fld_compLeave (p : CasComp) {x : FieldAt} (hx : x.joinKept) : (d.compLeave p).fld x = d.fld x := by
  have counted : ∀ l : List Nat, (l.foldl (fun d _ => Device.joinMiss d) d).fld x = d.fld x := fun l =>
    List.foldlRecOn (motive := fun e : Device => e.fld x = d.fld x) l _ rfl fun e he _ _ => (Device.fld_joinMiss hx).trans he
  exact (Device.fld_qOffer_above _ _ _ _ (Device.fld_lt _ _) hx.1).trans (counted _)

theorem Device.fld_ite {p : Prop} [Decidable p] {x y : Device} {g : FieldAt} {v : Nat} (hx : x.fld g = v) (hy : y.fld g = v) :
    (if p then x else y).fld g = v := by
  split
  · exact hx
  · exact hy

theorem Device.fld_joinTake (p : CasPart) {x : FieldAt} (hx : x.joinKept) : (d.joinTake j index p).fld x = d.fld x := by
  rw [Device.joinTake]
  refine Device.fld_ite (Device.fld_joinMiss hx) (Device.fld_ite (Device.fld_compLeave _ hx) ?_)
  rfl

/-- Whether a join takes a part stands as it stood after another join has taken it. -/
theorem Device.joined1_other {p : CasPart} (hk : ¬(d.isSet (F.CAS_J_CFG_EN k) = true ∧ d.fld (F.CAS_J_CFG_CONTEXT k) = c ∧
    bitAt (d.rdN (Reg.CAS_J_PARTS k)) p.dev = true)) : (d.joinTake j index p).joined1 c index p k = d.joinTake j index p := by
  have cfg : ∀ g : Field, FieldAt.joinKept ⟨Reg.CAS_J_CFG k, g⟩ := fun g =>
    ⟨by simp only [Reg.CAS_J_CFG]; omega, by simp only [Reg.CAS_J_CFG, Reg.CAS_FLAGS]; omega,
      by simp only [Reg.CAS_J_CFG, Reg.CAS_JOIN_MISS_CNT]; omega⟩
  have parts : FieldAt.joinKept ⟨Reg.CAS_J_PARTS k, ⟨0, 32⟩⟩ :=
    ⟨by simp only [Reg.CAS_J_PARTS]; omega, by simp only [Reg.CAS_J_PARTS, Reg.CAS_FLAGS]; omega,
      by simp only [Reg.CAS_J_PARTS, Reg.CAS_JOIN_MISS_CNT]; omega⟩
  have on : (d.joinTake j index p).isSet (F.CAS_J_CFG_EN k) = d.isSet (F.CAS_J_CFG_EN k) := by
    rw [Device.isSet, Device.fld_joinTake p (x := F.CAS_J_CFG_EN k) (cfg _), Device.isSet]
  refine if_neg ?_
  rw [on, Device.fld_joinTake p (x := F.CAS_J_CFG_CONTEXT k) (cfg _), Device.rdN_eq_fld, Device.fld_joinTake p parts, ← Device.rdN_eq_fld]
  exact hk

/-- A join takes parts from a device. -/
abbrev Device.joins (d : Device) (c dv j : Nat) : Prop :=
  d.isSet (F.CAS_J_CFG_EN j) = true ∧ d.fld (F.CAS_J_CFG_CONTEXT j) = c ∧ bitAt (d.rdN (Reg.CAS_J_PARTS j)) dv = true

/-- A part for one join alone. -/
theorem Device.joined1_single {p : CasPart} (hj : j < 16) (hin : d.joins c p.dev j) (h : ∀ k, k < 16 → k ≠ j → ¬d.joins c p.dev k) :
    (List.range 16).foldl (fun d j => d.joined1 c index p j) d = d.joinTake j index p := by
  have takes : d.joined1 c index p j = d.joinTake j index p := if_pos hin
  refine (List.foldl_range_single (g := fun d j => Device.joined1 d c index p j) hj (fun k hk hne => if_neg (h k hk hne)) fun k hk hne => ?_).trans takes
  rw [takes]
  exact Device.joined1_other (h k hk hne)

theorem Device.isMaster_role (h : d.casRole = 1) : ¬(!d.isMaster) = true := by
  rw [d.isMaster_iff.mpr h]
  decide

theorem Device.isMaster_other (h : ¬d.casRole = 1) : (!d.isMaster) = true := by
  rw [Bool.eq_false_iff.mpr (mt d.isMaster_iff.mp h)]
  rfl

/-! What NAK, STATUS and the other messages that have no answer do. -/

/-- A message that waited and has its answer. -/
abbrev Device.casDenied (d : Device) (m : CasMsg) (seq code : Nat) : Device :=
  if ((d.casLink m.link).wait.any (fun w => decide (w.seq = seq) && decide (w.ty ∈ [1, 4])) && d.casBusy) = true then
    { d.casAnswered m seq with cas := { (d.casAnswered m seq).cas with
      formCode := if d.cas.formCode = 0 then code else min d.cas.formCode code } }
  else d.casAnswered m seq

theorem Device.casEpoch_casDenied (d : Device) (m : CasMsg) (seq code : Nat) : (d.casDenied m seq code).casEpoch = d.casEpoch := by
  rw [Device.casDenied]
  split
  · rfl
  · rfl

/-- What a NAK does: FORM takes its code, and a STALE from a newer epoch takes the role away. -/
def Device.nakTaken (d : Device) (m : CasMsg) (seq code : Nat) : Device :=
  if code = cSTALE ∧ epochOlder d.casEpoch m.epoch = true then
    Device.setFld { d.casDenied m seq code with cas := { (d.casDenied m seq code).cas with stale := true } } F.CAS_STAT_ROLE caNone
  else d.casDenied m seq code

theorem exec_nakMessage (hg : m.good = true) (hm : s.dev.casMine m) {seq code : Nat} (he : code = cSTALE ∨ m.epoch = s.dev.casEpoch) :
    exec (.nakMessage m seq code) s = .next { s with dev := s.dev.nakTaken m seq code } := by
  have told := exec_message_data (i := .nakMessage m seq code) (any := decide (code = cSTALE)) rfl hg hm (he.imp decide_eq_true id) rfl
  refine told.trans (congrArg (fun d => Host.Outcome.next { s with dev := d }) ?_)
  have epoch := s.dev.casEpoch_casDenied m seq code
  rw [Device.nakTaken, ← epoch]
  by_cases h : code = cSTALE ∧ epochOlder (s.dev.casDenied m seq code).casEpoch m.epoch = true
  · rw [if_pos h]
    exact congrArg Prod.snd (if_pos h)
  · rw [if_neg h]
    exact congrArg Prod.snd (if_neg h)

/-- The next epoch is newer. -/
theorem epochOlder_next {a : Nat} (h : a < 65536) : epochOlder a ((a + 1) % 65536) = true := by
  have one : ((a + 1) % 65536 + 65536 - a) % 65536 = 1 := by omega
  rw [epochOlder, signed, show (2 : Nat) ^ 16 = 65536 by decide, one]
  decide

theorem epochOlder_self (a : Nat) : epochOlder a a = false := by
  have zero : (a + 65536 - a) % 65536 = 0 := by omega
  rw [epochOlder, signed, show (2 : Nat) ^ 16 = 65536 by decide, zero]
  decide

theorem Device.casEpoch_lt (d : Device) : d.casEpoch < 65536 := Nat.mod_lt _ (by decide)

/-- A message from the master is a sign of life. -/
abbrev Device.heardFrom (d : Device) (m : CasMsg) : Device := if m.src = 0 then { d with cas := { d.cas with heard := d.time } } else d

theorem Device.role_heardFrom (d : Device) (m : CasMsg) : (d.heardFrom m).casRole = d.casRole := by
  rw [Device.heardFrom]
  split
  · rfl
  · rfl

/-- The state of a device that a STATUS brings. -/
def Device.statusTaken (d : Device) (m : CasMsg) (r : Bool) : Device :=
  (d.heardFrom m).setCasDev m.src { d.casDev m.src with heard := d.time, ready := r }

theorem exec_statusMessage (hg : m.good = true) (hm : s.dev.casMine m) (he : m.epoch = s.dev.casEpoch) {r ok : Bool} :
    exec (.statusMessage m r ok) s = .next { s with dev :=
      (if s.dev.isMaster = true then (s.dev.statusTaken m r).setFld (F.CAS_D_STAT_TIME_OK (m.src % 16)) (if ok then 1 else 0)
       else s.dev.statusTaken m r) } := by
  refine (exec_message_data (i := .statusMessage m r ok) (any := false) rfl hg hm (.inr he) rfl).trans
    (congrArg (fun d => Host.Outcome.next { s with dev := d }) ?_)
  have role : (s.dev.statusTaken m r).isMaster = s.dev.isMaster :=
    congrArg (fun k => decide (k = caMaster)) (s.dev.role_heardFrom m)
  rw [← role, Device.statusTaken]
  by_cases h : m.src = 0
  · rw [Device.heardFrom, if_pos h]
    rfl
  · rw [Device.heardFrom, if_neg h]

/-- A mark of the cascade is announced. -/
def Device.markNoted (d : Device) (m : CasMsg) (t : Time) : Device :=
  { d.heardFrom m with cas := { (d.heardFrom m).cas with marks := d.cas.marks ++ [t] } }

/-- A reset of the cascade is announced. -/
def Device.resetNoted (d : Device) (m : CasMsg) (t : Time) : Device :=
  Device.request { d.heardFrom m with cas := { (d.heardFrom m).cas with resets := d.cas.resets ++ [t] } } .decReset 0 t .device [2]

section
variable (hg : m.good = true) (hm : s.dev.casMine m) (he : m.epoch = s.dev.casEpoch)
  (hn : m.retry = false ∨ (m.src, m.seq) ∉ (s.dev.casLink m.link).seen)
include hg hm he hn

theorem exec_markMessage_mark : exec (.markMessage m t false) s = .next { s with dev := (s.dev.markNoted m t).casTaken m } := by
  refine exec_message_taken (any := false) rfl hg hm (.inr he) rfl hn ?_
  rw [Device.markNoted, Device.heardFrom]
  by_cases h : m.src = 0
  · rw [if_pos h]
    rfl
  · rw [if_neg h]
    rfl

theorem exec_markMessage_reset : exec (.markMessage m t true) s = .next { s with dev := (Device.casTaken
    (if timeLT t s.dev.time = true then (s.dev.resetNoted m t).flag F.CAS_FLAGS_RESET_LATE Reg.CAS_RESET_LATE_CNT else s.dev.resetNoted m t) m) } := by
  refine exec_message_taken (any := false) rfl hg hm (.inr he) rfl hn ?_
  rw [Device.resetNoted, Device.heardFrom]
  by_cases h : m.src = 0
  · rw [if_pos h]
    rfl
  · rw [if_neg h]
    rfl

end

end Sys2Proof.Machine
end

section
/-! PROOFS. Cascade messages received (R544, R545, R547 to R549, R551 to R557). -/

namespace Sys2Proof.Machine

/-- Settles O53: the way of every message first, then each type. -/
theorem cascadeMessages : Obligations.CascadeMessages := by
  intro s m ep seq code unit c index marks j q t x stamp r ok table data d cells controls others rows here now new acked taken answered asks denied
    full from0 joins
  have controlled : ∀ row ∈ controls, casControl row.2.1 = true ∧ ∃ f,
      exec row.1 s = .next { s with dev := s.dev.casIn m row.2.1 row.2.2 [] (decide (row.2.1 = 1)) f } := by
    intro row h
    simp only [controls, List.mem_cons, List.not_mem_nil, or_false] at h
    rcases h with rfl | rfl | rfl | rfl
    · exact ⟨rfl, _, rfl⟩
    · exact ⟨rfl, _, rfl⟩
    · exact ⟨rfl, _, rfl⟩
    · exact ⟨rfl, _, rfl⟩
  have reported : ∀ row ∈ others, casControl row.2.1 = false ∧ ∃ any f, (code ≠ cSTALE → any = false) ∧
      exec row.1 s = .next { s with dev := s.dev.casIn m row.2.1 row.2.2.1 row.2.2.2 any f } := by
    intro row h
    simp only [others, List.mem_cons, List.not_mem_nil, or_false] at h
    rcases h with rfl | rfl | rfl | rfl | rfl | rfl | rfl
    · exact ⟨rfl, false, _, fun _ => rfl, rfl⟩
    · exact ⟨rfl, decide (code = cSTALE), _, decide_eq_false, rfl⟩
    · exact ⟨rfl, false, _, fun _ => rfl, rfl⟩
    · exact ⟨rfl, false, _, fun _ => rfl, rfl⟩
    · exact ⟨rfl, false, _, fun _ => rfl, rfl⟩
    · exact ⟨rfl, false, _, fun _ => rfl, rfl⟩
    · exact ⟨rfl, false, _, fun _ => rfl, rfl⟩
  have each : ∀ row ∈ rows, ∃ any f, exec row.1 s = .next { s with dev := s.dev.casIn m row.2.1 row.2.2.1 row.2.2.2 any f } := by
    intro row h
    rcases List.mem_append.mp h with h | h
    · obtain ⟨z, hz, rfl⟩ := List.mem_map.mp h
      obtain ⟨-, f, e⟩ := controlled z hz
      exact ⟨_, f, e⟩
    · obtain ⟨-, any, f, -, e⟩ := reported row h
      exact ⟨any, f, e⟩
  refine ⟨fun row h hg => ?_, fun row h l n hg hd hn hne hl out ho => ?_, fun row h hh he h1 => ?_, fun row h hh he hc => ?_,
    fun row h hh he hn => ?_, fun hh hn => ⟨fun hr => ?_, fun h0 ha hs => ?_⟩, fun hh he hn => ⟨fun hb => ?_, fun hb => ?_, ?_, ?_, ?_,
      fun hr => ?_, fun n hr hn64 hen hsd hsu hk h5 ha hq => ?_⟩,
    fun hh he => ?_, fun hh he hc => ?_, fun hh hc hep => ⟨fun he => ?_, fun he => ?_⟩,
    fun hh he => ⟨fun h1 => ?_, fun h1 hs => ?_, ?_, fun hr hq => ?_, fun hr => ?_, fun hr => ?_, fun h1 hj hin hq hg => ?_,
      fun h1 hj hin hq => ?_, fun hc => ?_, fun t0 hc h1 hn => ?_⟩⟩
  · obtain ⟨any, f, e⟩ := each row h
    rw [Device.casIn_damaged hg] at e
    exact .of_eq e rfl
  · obtain ⟨any, f, e⟩ := each row h
    rw [Device.casIn_away hg hd hn hne] at e
    subst ho
    refine ⟨fun ht => ?_, fun n ht hs => ⟨fun hf => ?_, fun hf => ?_⟩⟩
    · rw [Device.casRelay_control hd hl ht] at e
      exact .of_eq e rfl
    · subst hs
      rw [Device.casRelay_record hd hl ht, if_pos hf] at e
      exact .of_eq e rfl
    · subst hs
      rw [Device.casRelay_record hd hl ht, if_neg hf] at e
      exact .of_eq e rfl
  · obtain ⟨hc, f, e⟩ := controlled row h
    obtain ⟨hg, hm⟩ := hh
    rw [Device.casIn_here hg hm, Device.casHere_staleControl (decide_eq_false h1) he hc] at e
    exact .of_eq e rfl
  · obtain ⟨hno, any, f, ha, e⟩ := reported row h
    obtain ⟨hg, hm⟩ := hh
    rw [Device.casIn_here hg hm, Device.casHere_stale (ha hc) he hno] at e
    exact .of_eq e rfl
  · obtain ⟨hc, f, e⟩ := controlled row h
    obtain ⟨hg, hm⟩ := hh
    obtain ⟨retry, seen⟩ := not_or.mp hn
    rw [Device.casIn_here hg hm, Device.casHere_repeat (.inr he) hc ⟨Bool.of_not_eq_false retry, not_not.mp seen⟩] at e
    exact .of_eq e rfl
  · obtain ⟨hg, hm⟩ := hh
    refine .of_eq (exec_message_refused (i := .roleMessage m ep t table) (any := true) (c := cUNSUP) rfl hg hm (.inl rfl) rfl hn (if_pos ?_)
      (by decide)) rfl
    exact hr.imp id (Or.imp (fun h => by rw [h]; rfl) id)
  · obtain ⟨hg, hm⟩ := hh
    refine .of_eq (exec_message_taken (i := .roleMessage m ep t table) (any := true) rfl hg hm (.inl rfl) rfl hn (if_neg ?_)) rfl
    rintro (h | h | h)
    · exact h h0
    · rw [ha] at h
      exact Bool.false_ne_true h
    · exact Bool.false_ne_true (hs.symm.trans h)
  · obtain ⟨hg, hm⟩ := hh
    exact .of_eq (exec_message_refused (i := .timeMessage m t ep) (any := false) (c := cBUSY) rfl hg hm (.inr he) rfl hn (if_pos hb) (by decide)) rfl
  · obtain ⟨hg, hm⟩ := hh
    exact .of_eq (exec_message_taken (i := .timeMessage m t ep) (any := false) rfl hg hm (.inr he) rfl hn (if_neg (Bool.eq_false_iff.mp hb))) rfl
  · rintro rfl
    exact .of_eq (exec_markMessage_mark hh.1 hh.2 he hn) rfl
  · rintro rfl ht
    exact .of_eq (exec_markMessage_reset hh.1 hh.2 he hn) (congrArg (fun y => Device.casTaken y m) (if_neg (Bool.eq_false_iff.mp ht)))
  · rintro rfl ht
    exact .of_eq (exec_markMessage_reset hh.1 hh.2 he hn) (congrArg (fun y => Device.casTaken y m) (if_pos ht))
  · refine .of_eq (exec_message_taken (exec_triggerMessage m unit t s) hh.1 hh.2 (.inr he) rfl hn
      (congrArg (Prod.mk cOK) (List.foldl_fixed fun r hr64 => if_neg ?_))) rfl
    rintro ⟨hw, hen, hsd, hsu⟩
    rcases hr with hr | hr
    · exact hr (d.casWorks_mem.mp hw)
    · exact hr r (List.mem_range.mp hr64) ⟨hen, hsd, hsu⟩
  · have fires : d.routed1 m unit t n = d.fire (d.fld (F.CAS_RT_CFG_DUNIT n)) (t + d.rdTime (Reg.CAS_RT_OFS_LO n)) 0 0 0 0 := by
      refine (if_pos ⟨?_, hen, hsd, hsu⟩).trans (Device.rtFire_now hk h5 ha)
      exact d.casWorks_mem.mpr (by simp [hr])
    have one := List.foldl_range_single (g := fun d r => Device.routed1 d m unit t r) (x := d) hn64
      (fun k hk64 hne => Device.routed1_off (hq k hk64 hne))
      (fun k hk64 hne => Device.routed1_off (by
        rw [fires, Device.isSet_fire_route]
        exact hq k hk64 hne))
    refine .of_eq (exec_message_taken (exec_triggerMessage m unit t s) hh.1 hh.2 (.inr he) rfl hn
      (congrArg (Prod.mk cOK) (one.trans fires))) rfl
  · exact .of_eq (exec_message_data (i := .ackMessage m seq) (any := false) rfl hh.1 hh.2 (.inr he) rfl) rfl
  · exact .of_eq (exec_nakMessage hh.1 hh.2 (.inr he)) (if_neg fun h => hc h.1)
  · refine .of_eq (exec_nakMessage hh.1 hh.2 (.inl hc)) (if_pos ⟨hc, ?_⟩)
    rw [he, ← hep]
    exact epochOlder_next d.casEpoch_lt
  · refine .of_eq (exec_nakMessage hh.1 hh.2 (.inl hc)) (if_neg fun h => ?_)
    rw [he, ← hep, epochOlder_self] at h
    exact Bool.false_ne_true h.2
  · exact .of_eq (exec_statusMessage hh.1 hh.2 he) (if_neg (mt d.isMaster_iff.mp h1))
  · refine .of_eq (exec_statusMessage hh.1 hh.2 he) ((if_pos (d.isMaster_iff.mpr h1)).trans ?_)
    rw [Nat.mod_eq_of_lt hs]
    rfl
  · exact .of_eq (exec_message_data (i := .decidedMessage m t) (any := false) rfl hh.1 hh.2 (.inr he) rfl) rfl
  · refine .of_eq (exec_message_data (i := .recordMessage m q data) (any := false) rfl hh.1 hh.2 (.inr he) rfl) ((if_pos ?_).trans ?_)
    · exact d.casWorks_mem.mpr (by simp [hr])
    · rw [Nat.mod_eq_of_lt hq]
  · exact .of_eq (exec_message_data (i := .recordMessage m q data) (any := false) rfl hh.1 hh.2 (.inr he) rfl) (if_neg (mt d.casWorks_mem.mp hr))
  · refine .of_eq (exec_message_data (exec_partMessage m c index stamp marks data s) hh.1 hh.2 (.inr he) rfl) ?_
    by_cases h1 : d.casRole = 1
    · refine (if_neg (Device.isMaster_role h1)).trans (List.foldl_fixed fun k hk => if_neg ?_)
      exact (hr.resolve_left (absurd h1)) k (List.mem_range.mp hk)
    · exact if_pos (Device.isMaster_other h1)
  · refine .of_eq (exec_message_data (exec_partMessage m c index stamp marks data s) hh.1 hh.2 (.inr he) rfl) ?_
    refine (if_neg (Device.isMaster_role h1)).trans ((Device.joined1_single hj hin hq).trans ?_)
    exact if_pos hg
  · refine .of_eq (exec_message_data (exec_partMessage m c index stamp marks data s) hh.1 hh.2 (.inr he) rfl) ?_
    exact (if_neg (Device.isMaster_role h1)).trans (Device.joined1_single hj hin hq)
  · refine .of_eq (exec_message_data (i := .caldataMessage m index t x) (any := false) rfl hh.1 hh.2 (.inr he) rfl) ?_
    dsimp only
    rw [hc]
    rfl
  · refine .of_eq (exec_message_data (i := .caldataMessage m index t x) (any := false) rfl hh.1 hh.2 (.inr he) rfl) ?_
    dsimp only
    rw [hc]
    exact congrArg Prod.snd (if_pos ⟨hn, d.isMaster_iff.mpr h1⟩)

end Sys2Proof.Machine
end


section
/-! SUPPORT. Panel requests, FLIP and link training (R565, R566, R569 to R571). -/

namespace Sys2Proof.Machine

variable {d : Device} {s : State} {u : UCmd} {o : Origin} {c l n : Nat}

/-! The checks (R565). -/

theorem firstCode_none {l : List (Bool × Nat)} (h : ∀ p ∈ l, p.1 = false) : firstCode l = cOK := by
  induction l with
  | nil => rfl
  | cons p ps ih =>
    obtain ⟨b, c⟩ := p
    obtain rfl : b = false := h _ (List.mem_cons_self ..)
    exact ih fun q hq => h q (List.mem_cons_of_mem _ hq)

theorem PLayer.checks_ne_ok (x : PLayer) : ∀ p ∈ x.checks, p.2 ≠ cOK := by
  rw [PLayer.checks]
  split
  · simp [cUNSUP, cOK]
  · simp [cLENGTH, cALIGN, cREGION, cUNSUP, cOK]

theorem Device.mem_layerChecks (d : Device) (p : Bool × Nat) : p ∈ d.layerChecks ↔ ∃ l, l < 4 ∧ p ∈ (d.pPend l).checks := by
  rw [Device.layerChecks, List.mem_flatMap]
  simp only [List.mem_range]

/-- Layers that are off and have a format pass. -/
theorem Device.layerChecks_off (h : ∀ l, l < 4 → bitAt (d.rdN (Reg.PNL_L_CFG l)) 0 = false ∧ bitsOf (d.rdN (Reg.PNL_L_CFG l)) 1 2 ≠ 3) :
    firstCode d.layerChecks = cOK := by
  refine firstCode_none fun p hp => ?_
  obtain ⟨l, hl, hp⟩ := (d.mem_layerChecks p).mp hp
  obtain ⟨off, fmt⟩ := h l hl
  have off' : (d.pPend l).en = false := off
  have fmt' : (d.pPend l).fmt ≠ 3 := fmt
  rw [PLayer.checks, off', if_pos (by rfl), List.mem_singleton] at hp
  rw [hp]
  exact decide_eq_false fmt'

/-- A layer without a format fails, on or off. -/
theorem Device.layerChecks_format (hl : l < 4) (h : bitsOf (d.rdN (Reg.PNL_L_CFG l)) 1 2 = 3) : firstCode d.layerChecks ≠ cOK := by
  have fmt : decide ((d.pPend l).fmt = 3) = true := decide_eq_true h
  have mem : (true, cUNSUP) ∈ (d.pPend l).checks := by
    rw [PLayer.checks, fmt]
    split
    · exact List.mem_singleton.mpr rfl
    · simp
  refine (firstCode_of_mem ((d.mem_layerChecks _).mpr ⟨l, hl, mem⟩) fun p hp => ?_).1
  obtain ⟨k, -, hp⟩ := (d.mem_layerChecks p).mp hp
  exact PLayer.checks_ne_ok _ p hp

/-! START, STOP and COMMIT. -/

/-- What a request that ends leaves. -/
abbrev Device.pEnded (d : Device) (a c : Nat) (o : Origin) : Device :=
  ((d.setFld ⟨Reg.PNL_CTL, ⟨a, 1⟩⟩ 0).setFld F.PNL_STAT_CODE c).complete o c none

theorem Device.pStart_refused (h : d.pStartCode ≠ cOK) (hs : d.panel.start = none) : d.pStart o = d.pEnded 0 d.pStartCode o := by
  refine (if_pos h).trans (if_neg ?_)
  rw [hs, Option.isSome_none, Bool.and_false]
  exact Bool.false_ne_true

theorem Device.pStart_busy (h : d.pStartCode = cBUSY) (hs : d.panel.start ≠ none) :
    d.pStart o = (d.setFld F.PNL_STAT_CODE cBUSY).complete o cBUSY none := by
  have bad : d.pStartCode ≠ cOK := by rw [h]; decide
  refine (if_pos bad).trans ?_
  rw [h, Option.isSome_iff_ne_none.mpr hs]
  rfl

/-- The panel with training begun, as its registers show it. -/
def Device.pBegun (d : Device) (o : Origin) : Device := ((d.setFld F.PNL_STAT_STATE 1).actBit o F.PNL_CTL_START).wr Reg.PNL_FRAMES 0

theorem Device.pBegun_frame (d : Device) (o : Origin) : d.OnlyRegs (d.pBegun o) :=
  ((((OnlyRegs.refl d).setFld _ _).setFld _ _).ite ((OnlyRegs.refl d).setFld _ _)).wr _ _

theorem Device.pStart_taken (h : d.pStartCode = cOK) : d.pStart o = Device.send { d.pBegun o with
    panel := { d.panel with start := some o, phase := 1, retrain := false, idle := none, stopCode := 0 } } (.aux 9 0 16 []) := by
  obtain ⟨regs, e⟩ := d.pBegun_frame o
  have panel : (d.pBegun o).panel = d.panel := by rw [e]
  rw [← panel]
  exact if_neg (not_not_intro h)

theorem Device.state_pBegun (d : Device) (o : Origin) : (d.pBegun o).fld F.PNL_STAT_STATE = 1 := by
  have kept : (d.pBegun o).rd Reg.PNL_STAT = (d.setFld F.PNL_STAT_STATE 1).rd Reg.PNL_STAT := by
    refine (Device.rd_wr_other _ _ _ _ (by decide)).trans ?_
    exact Device.rd_ite (Device.rd_setFld_mk _ _ _ (by decide)) rfl
  exact (Device.fld_congr kept).trans (Device.fld_setFld _ _ _ (by decide))

theorem Device.frames_pBegun (d : Device) (o : Origin) : (d.pBegun o).rdN Reg.PNL_FRAMES = 0 := Device.rdN_wr _ _ _

theorem Device.bit_pBegun (d : Device) : (d.pBegun .host).fld F.PNL_CTL_START = 1 := by
  refine (Device.fld_congr (Device.rd_wr_other _ _ _ _ (by decide))).trans ?_
  rw [Device.actBit_host]
  exact Device.fld_setFld _ _ _ (by decide)

theorem Device.pStop_off (h : d.fld F.PNL_STAT_STATE = 0) : d.pStop o = d.pEnded 1 cOK o := if_pos h

theorem Device.pStop_waits (h : d.fld F.PNL_STAT_STATE ≠ 0) : d.pStop o =
    Device.actBit { d with panel := { d.panel with stops := d.panel.stops ++ [o] } } o F.PNL_CTL_STOP := if_neg h

/-- The code of a commit request. -/
abbrev Device.pCommitCode (d : Device) : Nat := firstCode (d.layerChecks ++ [(decide (d.fld F.PNL_STAT_STATE = 0), cNOTARMED)])

theorem Device.pCommit_refused (h : d.pCommitCode ≠ cOK) (f : Option Nat) : d.pCommit o f = d.pEnded 2 d.pCommitCode o := if_pos h

theorem Device.pCommit_taken (h : d.pCommitCode = cOK) (f : Option Nat) : d.pCommit o f =
    (Device.setFld { d with panel := { d.panel with commits := d.panel.commits ++ [⟨o, f⟩] } } F.PNL_STAT_COMMIT_PENDING 1).actBit o
      F.PNL_CTL_COMMIT := if_neg (not_not_intro h)

theorem exec_pnlStart (hu : s.dev.comes 0x13 1 1 u) : exec (.pnlStart u) s = .next { s with dev := (s.dev.accept u).pStart u.origin } := by
  show execPnlStart u s = _
  exact State.run_of_eq (Device.unitCmd_comes _ hu rfl)

theorem exec_pnlStop (hu : s.dev.comes 0x13 2 1 u) : exec (.pnlStop u) s = .next { s with dev := (s.dev.accept u).pStop u.origin } := by
  show execPnlStop u s = _
  exact State.run_of_eq (Device.unitCmd_comes _ hu rfl)

theorem exec_pnlCommit (hu : s.dev.comes 0x13 3 1 u) : exec (.pnlCommit u) s = .next { s with dev := (s.dev.accept u).pCommit u.origin none } := by
  show execPnlCommit u s = _
  exact State.run_of_eq (Device.unitCmd_comes _ hu rfl)

/-! FLIP (R571). -/

theorem exec_pnlFlip (hu : s.dev.comes 0x13 4 4 u) :
    exec (.pnlFlip u) s = .next { s with dev := (s.dev.accept u).pFlip u.unit (u.dword 0) u.origin } := by
  show execPnlFlip u s = _
  exact State.run_of_eq (Device.unitCmd_comes _ hu rfl)

theorem Device.panel_accept (d : Device) (u : UCmd) : (d.accept u).panel = d.panel := by
  obtain ⟨_, _, e⟩ := d.accept_frame u
  rw [e]

theorem Device.pState_accept (d : Device) (u : UCmd) : (d.accept u).fld F.PNL_STAT_STATE = d.fld F.PNL_STAT_STATE := by
  obtain ⟨_, _, e⟩ := d.accept_frame u
  rw [e]
  rfl

/-- The pending base of a layer written. -/
abbrev Device.pBased (d : Device) (l base : Nat) : Device :=
  (d.wrRw (Reg.PNL_L_BASE_LO l) (base % 2 ^ 32)).wrRw (Reg.PNL_L_BASE_HI l) (base / 2 ^ 32)

section
variable {base : Nat}

theorem Device.pFlip_busy (h : ∃ r ∈ d.panel.commits, r.flip = some l) :
    d.pFlip l base o = (d.setFld F.PNL_STAT_CODE cBUSY).complete o cBUSY none := by
  obtain ⟨r, hr, hf⟩ := h
  exact if_pos (List.any_eq_true.mpr ⟨r, hr, decide_eq_true hf⟩)

theorem Device.pState_pBased (d : Device) (l base : Nat) : (d.pBased l base).fld F.PNL_STAT_STATE = d.fld F.PNL_STAT_STATE := by
  refine Device.fld_congr ((Device.rd_wr_other _ _ _ _ ?_).trans (Device.rd_wr_other _ _ _ _ ?_))
  · simp only [F.PNL_STAT_STATE, Reg.PNL_STAT, Reg.PNL_L_BASE_HI]; omega
  · simp only [F.PNL_STAT_STATE, Reg.PNL_STAT, Reg.PNL_L_BASE_LO]; omega

variable (h : ∀ r ∈ d.panel.commits, r.flip ≠ some l)
include h

theorem Device.pFlip_refused (hs : d.fld F.PNL_STAT_STATE = n)
    (hc : firstCode ((d.pBased l base).layerChecks ++ [(decide (n = 0), cNOTARMED)]) = c) (hk : c ≠ cOK) :
    d.pFlip l base o = (d.setFld F.PNL_STAT_CODE c).complete o c none := by
  subst hs hc
  refine (if_neg ?_).trans (if_pos hk)
  rw [List.any_eq_true]
  rintro ⟨r, hr, hf⟩
  exact h r hr (of_decide_eq_true hf)

theorem Device.pFlip_taken (hs : d.fld F.PNL_STAT_STATE = n)
    (hc : firstCode ((d.pBased l base).layerChecks ++ [(decide (n = 0), cNOTARMED)]) = cOK) :
    d.pFlip l base o = (Device.setFld { d.pBased l base with panel := { d.panel with commits := d.panel.commits ++ [⟨o, some l⟩] } }
      F.PNL_STAT_COMMIT_PENDING 1).actBit o F.PNL_CTL_COMMIT := by
  subst hs
  have code : (d.pBased l base).pCommitCode = cOK := by
    rw [Device.pCommitCode, Device.pState_pBased]
    exact hc
  refine (if_neg ?_).trans ((if_neg (not_not_intro hc)).trans (Device.pCommit_taken code _))
  rw [List.any_eq_true]
  rintro ⟨r, hr, hf⟩
  exact h r hr (of_decide_eq_true hf)

end

/-! Requests told (R570). -/

/-- The completions of some requests with their codes. -/
def toldAll (l : List (Origin × Nat)) (t : Option Time) : List Completion := l.flatMap (fun x => x.1.told x.2 t)

/-- Requests that end one after another change registers alone, and answer their requesters. -/
theorem Device.pEnds (a : Nat) (t : Option Time) (rs : List (Origin × Nat)) (d : Device) : ∃ regs,
    rs.foldl (fun d x => d.pEnd x.1 a x.2 t) d = { d with regs := regs, completions := d.completions ++ toldAll rs t } := by
  induction rs generalizing d with
  | nil => exact ⟨d.regs, by rw [toldAll]; simp⟩
  | cons r rs ih =>
    obtain ⟨regs, e⟩ := ih (d.pEnd r.1 a r.2 t)
    refine ⟨regs, e.trans ?_⟩
    obtain ⟨regs', f⟩ := ((OnlyRegs.refl d).setFld ⟨Reg.PNL_CTL, ⟨a, 1⟩⟩ 0).setFld F.PNL_STAT_CODE r.2
    rw [Device.pEnd, Device.finish, f, Device.complete_frame, Device.completions_complete, toldAll, toldAll, List.flatMap_cons, List.append_assoc]

/-- Requests that end change CTL and CODE alone. -/
theorem Device.rd_pEnds (a : Nat) (t : Option Time) (rs : List (Origin × Nat)) (d : Device) {b : Nat} (h1 : b ≠ Reg.PNL_CTL) (h2 : b ≠ Reg.PNL_STAT) :
    (rs.foldl (fun d x => d.pEnd x.1 a x.2 t) d).rd b = d.rd b :=
  List.foldlRecOn (motive := fun e : Device => e.rd b = d.rd b) rs _ rfl fun _ he _ _ =>
    (Device.rd_complete _ _ _ _ _).trans ((Device.rd_setFld_mk _ _ _ h2).trans ((Device.rd_setFld_mk _ _ _ h1).trans he))

/-- Fields of STAT other than CODE stay when requests end. -/
theorem Device.stat_pEnds (a : Nat) (t : Option Time) (rs : List (Origin × Nat)) (d : Device) {g : Field} (h : g.lo + g.w ≤ 8 ∨ 16 ≤ g.lo) :
    (rs.foldl (fun d x => d.pEnd x.1 a x.2 t) d).fld ⟨Reg.PNL_STAT, g⟩ = d.fld ⟨Reg.PNL_STAT, g⟩ :=
  have stat : Reg.PNL_STAT ≠ Reg.PNL_CTL := by decide
  List.foldlRecOn (motive := fun e : Device => e.fld ⟨Reg.PNL_STAT, g⟩ = d.fld ⟨Reg.PNL_STAT, g⟩) rs _ rfl fun _ he _ _ =>
    (Device.fld_complete _ _ _ _ _).trans ((Device.fld_setFld_disjoint _ _ _ _ (by decide)
      (by simp only [F.PNL_STAT_CODE]; omega)).trans ((Device.fld_congr (Device.rd_setFld_mk _ _ _ stat)).trans he))

end Sys2Proof.Machine
end


section
/-! SUPPORT. Link training, the end of scan-out, and commit points of the panel (R564 to R566, R569, R570, R572, R575). -/

namespace Sys2Proof.Machine

variable {d : Device} {s : State} {o : Origin} {c l drive : Nat} {t : Time} {ok lacks : Bool}

/-! Completions (R42). -/

theorem filterMap_told {α : Type} (g : α → Origin × Nat) {f : α → Option Completion} (t : Option Time)
    (hf : ∀ x, (f x).toList = (g x).1.told (g x).2 t) (l : List α) : l.filterMap f = toldAll (l.map g) t := by
  induction l with
  | nil => rfl
  | cons x xs ih =>
    have head : toldAll ((x :: xs).map g) t = (g x).1.told (g x).2 t ++ toldAll (xs.map g) t := rfl
    rw [head, ← ih, ← hf x]
    cases h : f x with
    | none => rw [List.filterMap_cons_none h]; rfl
    | some y => rw [List.filterMap_cons_some h]; rfl

theorem toldAll_append (l k : List (Origin × Nat)) (t : Option Time) : toldAll (l ++ k) t = toldAll l t ++ toldAll k t := List.flatMap_append

theorem toldAll_single (o : Origin) (c : Nat) (t : Option Time) : toldAll [(o, c)] t = o.told c t := List.append_nil _

/-! The state OFF (R566). -/

/-- The commit requests that wait, refused, and the stops that wait, done. -/
abbrev Panel.offTold (p : Panel) : List (Origin × Nat) × List (Origin × Nat) :=
  (p.commits.map (fun r => (r.origin, cNOTARMED)), p.stops.map (fun o => (o, cOK)))

/-- The panel as it is when OFF. -/
abbrev Panel.off (p : Panel) : Panel :=
  { p with stops := [], commits := [], phase := 0, retrain := false, idle := none, start := none, stopCode := 0 }

/-- The panel OFF, before the requests that waited are told. -/
def Device.pOffShown (d : Device) : Device := (Device.setFld { d with panel := d.panel.off } F.PNL_STAT_STATE 0).setFld F.PNL_STAT_COMMIT_PENDING 0

theorem Device.pOff_eq (d : Device) (c : Nat) : d.pOff c =
    (d.panel.offTold.2.foldl (fun d x => Device.pEnd d x.1 1 x.2 none)
      (d.panel.offTold.1.foldl (fun d x => Device.pEnd d x.1 2 x.2 none) d.pOffShown)).setFld F.PNL_STAT_CODE c := by
  rw [List.foldl_map, List.foldl_map]
  rfl

/-- A device that differs from another in registers, in what its panel is, and in some completions more. -/
def Device.Told (d y : Device) (p : Panel) (l : List Completion) : Prop :=
  ∃ regs, y = { d with regs := regs, panel := p, completions := d.completions ++ l }

section
variable {x y : Device} {p : Panel} {m : List Completion} (h : d.Told x p m)
include h

theorem Device.Told.regs (h' : x.OnlyRegs y) : d.Told y p m := by
  obtain ⟨_, rfl⟩ := h
  obtain ⟨regs, rfl⟩ := h'
  exact ⟨regs, rfl⟩

theorem Device.Told.ends (a : Nat) (t : Option Time) (rs : List (Origin × Nat)) :
    d.Told (rs.foldl (fun d x => Device.pEnd d x.1 a x.2 t) x) p (m ++ toldAll rs t) := by
  obtain ⟨_, rfl⟩ := h
  obtain ⟨regs, e⟩ := Device.pEnds a t rs { d with regs := _, panel := p, completions := d.completions ++ m }
  refine ⟨regs, e.trans ?_⟩
  rw [List.append_assoc]

end

theorem Device.Told.panel (d : Device) (p : Panel) : d.Told { d with panel := p } p [] := ⟨d.regs, by rw [List.append_nil]⟩

theorem Device.pOff_frame (d : Device) (c : Nat) : d.Told (d.pOff c) d.panel.off (toldAll (d.panel.offTold.1 ++ d.panel.offTold.2) none) := by
  have shown : d.Told d.pOffShown d.panel.off [] :=
    (Told.panel d d.panel.off).regs (((OnlyRegs.refl _).setFld F.PNL_STAT_STATE 0).setFld F.PNL_STAT_COMMIT_PENDING 0)
  have all := ((shown.ends 2 none d.panel.offTold.1).ends 1 none d.panel.offTold.2).regs ((OnlyRegs.refl _).setFld F.PNL_STAT_CODE c)
  rw [Device.pOff_eq, toldAll_append]
  exact all

theorem Device.state_pOff (d : Device) (c : Nat) : (d.pOff c).fld F.PNL_STAT_STATE = 0 := by
  rw [Device.pOff_eq, Device.fld_setFld_disjoint _ _ _ _ (by decide) (by decide)]
  refine (Device.stat_pEnds _ _ _ _ (.inl (by decide))).trans ((Device.stat_pEnds _ _ _ _ (.inl (by decide))).trans ?_)
  exact (Device.fld_setFld_disjoint _ _ F.PNL_STAT_STATE _ (by decide) (by decide)).trans (Device.fld_setFld _ _ _ (by decide))

theorem Device.code_pOff (d : Device) (c : Nat) : (d.pOff c).fld F.PNL_STAT_CODE = c % 256 := by
  rw [Device.pOff_eq]
  exact Device.fld_setFld _ _ _ (by decide)

/-! Training (R565, R575). -/

theorem Device.trained_off (h : d.panel.phase = 0 ∨ d.panel.phase = 5) : d.trained ok lacks drive = d := if_pos h

section
variable (hr : d.panel.retrain = false)
include hr

/-- A phase that succeeds makes way for the next. -/
theorem Device.trained_next (hp : d.panel.phase ≠ 0) (hp' : d.panel.phase ≠ 5) : d.trained true false drive =
    (let y := if 3 ≤ d.panel.phase then d.setFld ⟨Reg.PNL_DRIVE, ⟨0, 16⟩⟩ drive else d
     Device.phaseSend { y with panel := { y.panel with phase := d.panel.phase + 1 } } (d.panel.phase + 1)) := by
  refine (if_neg (not_or.mpr ⟨hp, hp'⟩)).trans ?_
  dsimp only
  rw [hr]
  exact (if_neg Bool.false_ne_true).trans (if_neg (not_not_intro rfl))

theorem Device.trained_first (hp : d.panel.phase = 1) : d.trained true false drive =
    Device.phaseSend { d with panel := { d.panel with phase := 2 } } 2 := by
  rw [Device.trained_next hr (by omega) (by omega), hp]
  rfl

theorem Device.trained_last (hp : d.panel.phase = 4) : d.trained true false drive =
    Device.send { d.setFld ⟨Reg.PNL_DRIVE, ⟨0, 16⟩⟩ drive with panel := { d.panel with phase := 5 } } (.pattern 0) := by
  rw [Device.trained_next hr (by omega) (by omega), hp]
  rfl

/-- A training that fails in its first phase. -/
theorem Device.trained_failed (hp : d.panel.phase = 1) (hs : d.panel.start = some o) (h : ok = false ∨ lacks = true)
    (hc : c = if ok then cUNSUP else cCONDITIONS) : d.trained ok lacks drive = (d.pOff c).pEnd o 0 c none := by
  have code : firstCode [(!ok, cCONDITIONS), (lacks && decide (d.panel.phase = 1), cUNSUP)] = c := by
    rw [hp, hc]
    cases ok with
    | false => exact firstCode_head (by simp [cCONDITIONS, cUNSUP])
    | true =>
      obtain rfl : lacks = true := h.resolve_left (by decide)
      rfl
  have bad : c ≠ cOK := by
    rw [hc]
    cases ok with
    | false => decide
    | true => decide
  have early : ¬(d.panel.phase = 0 ∨ d.panel.phase = 5) := by omega
  have low : ¬3 ≤ d.panel.phase := by omega
  refine (if_neg early).trans ?_
  dsimp only
  rw [if_neg low, hr, if_neg Bool.false_ne_true, code, if_pos bad, hs]
  rfl

end

theorem exec_trainingStepDone (ok lacks : Bool) (drive : Nat) (s : State) :
    exec (.trainingStepDone ok lacks drive) s = .next { s with dev := s.dev.trained ok lacks drive } := rfl

theorem Device.pEnd_frame (d : Device) (o : Origin) (a c : Nat) (t : Option Time) :
    ∃ regs, d.pEnd o a c t = { d with regs := regs, completions := d.completions ++ o.told c t } := by
  obtain ⟨regs, e⟩ := Device.pEnds a t [(o, c)] d
  refine ⟨regs, e.trans ?_⟩
  rw [toldAll_single]

theorem Device.code_pEnd (d : Device) (o : Origin) (a c : Nat) (t : Option Time) : (d.pEnd o a c t).fld F.PNL_STAT_CODE = c % 256 :=
  (Device.fld_complete _ _ _ _ _).trans (Device.fld_setFld _ _ _ (by decide))

theorem Device.stat_pEnd (d : Device) (o : Origin) (a c : Nat) (t : Option Time) {g : Field} (h : g.lo + g.w ≤ 8 ∨ 16 ≤ g.lo) :
    (d.pEnd o a c t).fld ⟨Reg.PNL_STAT, g⟩ = d.fld ⟨Reg.PNL_STAT, g⟩ := Device.stat_pEnds a t [(o, c)] d h

/-! The layers take the pending set (R569). -/

/-- One layer takes its pending set. -/
def Device.takeLayer (d : Device) (l : Nat) : Device :=
  Device.wr64 { d with panel := { d.panel with layers := Sparse.set (fun _ => {}) d.panel.layers l (d.pPend l) } } (Reg.PNL_L_CUR_LO l) (d.pPend l).base

/-- A register that is no shown base of a layer. -/
abbrev noCur (b : Nat) : Prop := ∀ l, b ≠ Reg.PNL_L_CUR_LO l ∧ b ≠ Reg.PNL_L_CUR_LO l + 4

theorem Device.rd_takeLayer (d : Device) (l : Nat) {b : Nat} (h : noCur b) : (d.takeLayer l).rd b = d.rd b :=
  Device.rd_wr64_other _ _ (h l).1 (h l).2

theorem Device.pPend_takeLayer (d : Device) (l k : Nat) : (d.takeLayer l).pPend k = d.pPend k := by
  have kept : ∀ b, noCur b → (d.takeLayer l).rd b = d.rd b := fun b h => d.rd_takeLayer l h
  have cfg : (d.takeLayer l).rdN (Reg.PNL_L_CFG k) = d.rdN (Reg.PNL_L_CFG k) := Device.rdN_congr (kept _ fun m => by
    simp only [Reg.PNL_L_CFG, Reg.PNL_L_CUR_LO]; omega)
  have stride : (d.takeLayer l).rdN (Reg.PNL_L_STRIDE k) = d.rdN (Reg.PNL_L_STRIDE k) := Device.rdN_congr (kept _ fun m => by
    simp only [Reg.PNL_L_STRIDE, Reg.PNL_L_CUR_LO]; omega)
  have pos : (d.takeLayer l).rdN (Reg.PNL_L_POS k) = d.rdN (Reg.PNL_L_POS k) := Device.rdN_congr (kept _ fun m => by
    simp only [Reg.PNL_L_POS, Reg.PNL_L_CUR_LO]; omega)
  have size : (d.takeLayer l).rdN (Reg.PNL_L_SIZE k) = d.rdN (Reg.PNL_L_SIZE k) := Device.rdN_congr (kept _ fun m => by
    simp only [Reg.PNL_L_SIZE, Reg.PNL_L_CUR_LO]; omega)
  have base : (d.takeLayer l).rd64 (Reg.PNL_L_BASE_LO k) = d.rd64 (Reg.PNL_L_BASE_LO k) := Device.rd64_congr
    (kept _ fun m => by simp only [Reg.PNL_L_BASE_LO, Reg.PNL_L_CUR_LO]; omega)
    (kept _ fun m => by simp only [Reg.PNL_L_BASE_LO, Reg.PNL_L_CUR_LO]; omega)
  rw [Device.pPend, cfg, stride, pos, size, base, Device.pPend]

theorem Device.takeLayer_frame (d : Device) (l : Nat) : ∃ regs layers,
    d.takeLayer l = { d with regs := regs, panel := { d.panel with layers := layers } } := by
  obtain ⟨regs, e⟩ := (OnlyRegs.refl { d with panel := { d.panel with layers := Sparse.set (fun _ => {}) d.panel.layers l (d.pPend l) } }).wr64
    (Reg.PNL_L_CUR_LO l) (d.pPend l).base
  exact ⟨regs, _, e⟩

theorem Device.base_pPend (d : Device) (l : Nat) : (d.pPend l).base = d.rd64 (Reg.PNL_L_BASE_LO l) := rfl

theorem Device.base_takeLayer (d : Device) (l k : Nat) : (d.takeLayer l).rd64 (Reg.PNL_L_BASE_LO k) = d.rd64 (Reg.PNL_L_BASE_LO k) := by
  rw [← Device.base_pPend, Device.pPend_takeLayer, Device.base_pPend]

theorem Device.pLayer_takeLayer (d : Device) (l k : Nat) : (d.takeLayer l).pLayer k = if k = l then d.pPend k else d.pLayer k := by
  have layers : (d.takeLayer l).pLayer k = Sparse.get (fun _ => {}) (Sparse.set (fun _ => {}) d.panel.layers l (d.pPend l)) k := rfl
  rw [layers, Sparse.get_set]
  by_cases h : k = l
  · rw [if_pos h, if_pos h, h]
  · rw [if_neg h, if_neg h, Device.pLayer]

theorem Device.cur_takeLayer (d : Device) (l k : Nat) (h : d.rd64 (Reg.PNL_L_BASE_LO k) < 2 ^ 64) :
    (d.takeLayer l).rd64 (Reg.PNL_L_CUR_LO k) = if k = l then d.rd64 (Reg.PNL_L_BASE_LO k) else d.rd64 (Reg.PNL_L_CUR_LO k) := by
  by_cases hl : k = l
  · subst hl
    rw [if_pos rfl, Device.takeLayer, Device.base_pPend, Device.rd64_wr64 _ _ h]
  · rw [if_neg hl]
    exact Device.rd64_congr
      (Device.rd_wr64_other _ _ (by simp only [Reg.PNL_L_CUR_LO]; omega) (by simp only [Reg.PNL_L_CUR_LO]; omega))
      (Device.rd_wr64_other _ _ (by simp only [Reg.PNL_L_CUR_LO]; omega) (by simp only [Reg.PNL_L_CUR_LO]; omega))

theorem ite_mem_cons {α : Type} {k l : Nat} {ls : List Nat} {x y : α} :
    (if k ∈ ls then x else if k = l then x else y) = if k ∈ l :: ls then x else y := by
  by_cases h : k ∈ ls
  · rw [if_pos h, if_pos (List.mem_cons_of_mem _ h)]
  · simp only [List.mem_cons, h, or_false, if_false]

/-- Some layers take the pending set one after another. -/
theorem Device.takeLayer_list (ls : List Nat) (d : Device) :
    (∃ regs layers, ls.foldl (fun d l => d.takeLayer l) d = { d with regs := regs, panel := { d.panel with layers := layers } }) ∧
    (∀ b, noCur b → (ls.foldl (fun d l => d.takeLayer l) d).rd b = d.rd b) ∧
    (∀ k, (ls.foldl (fun d l => d.takeLayer l) d).pLayer k = if k ∈ ls then d.pPend k else d.pLayer k) ∧
    (∀ k, d.rd64 (Reg.PNL_L_BASE_LO k) < 2 ^ 64 → (ls.foldl (fun d l => d.takeLayer l) d).rd64 (Reg.PNL_L_CUR_LO k) =
      if k ∈ ls then d.rd64 (Reg.PNL_L_BASE_LO k) else d.rd64 (Reg.PNL_L_CUR_LO k)) := by
  induction ls generalizing d with
  | nil => exact ⟨⟨d.regs, d.panel.layers, rfl⟩, fun _ _ => rfl, fun _ => rfl, fun _ _ => rfl⟩
  | cons l ls ih =>
    obtain ⟨⟨regs, layers, e⟩, kept, each, cur⟩ := ih (d.takeLayer l)
    refine ⟨?_, fun b h => (kept b h).trans (d.rd_takeLayer l h), fun k => (each k).trans ?_, fun k hk => (cur k ?_).trans ?_⟩
    · obtain ⟨regs', layers', f⟩ := d.takeLayer_frame l
      refine ⟨regs, layers, e.trans ?_⟩
      rw [f]
    · rw [Device.pPend_takeLayer, Device.pLayer_takeLayer, ite_mem_cons]
    · rw [Device.base_takeLayer]
      exact hk
    · rw [Device.base_takeLayer, Device.cur_takeLayer _ _ _ hk, ite_mem_cons]

theorem Device.takeLayers_frame (d : Device) : ∃ regs layers, d.takeLayers = { d with regs := regs, panel := { d.panel with layers := layers } } :=
  (Device.takeLayer_list _ d).1

theorem Device.rd_takeLayers (d : Device) {b : Nat} (h : noCur b) : d.takeLayers.rd b = d.rd b := (Device.takeLayer_list _ d).2.1 b h

theorem Device.pLayer_takeLayers (d : Device) {k : Nat} (h : k < 4) : d.takeLayers.pLayer k = d.pPend k :=
  ((Device.takeLayer_list _ d).2.2.1 k).trans (if_pos (List.mem_range.mpr h))

theorem Device.cur_takeLayers (d : Device) {k : Nat} (h : k < 4) (hb : d.rd64 (Reg.PNL_L_BASE_LO k) < 2 ^ 64) :
    d.takeLayers.rd64 (Reg.PNL_L_CUR_LO k) = d.rd64 (Reg.PNL_L_BASE_LO k) :=
  ((Device.takeLayer_list _ d).2.2.2 k hb).trans (if_pos (List.mem_range.mpr h))

/-- Registers below the layers' are no shown base. -/
theorem noCur_below {b : Nat} (h : b < 0xf01000) : noCur b := fun l => by
  simp only [Reg.PNL_L_CUR_LO]
  omega

/-! The commit requests complete (R570). -/

/-- The layers at a commit point: they take the pending set when a commit waits. -/
def Device.layered (d : Device) : Device := if d.panel.commits.isEmpty then d else d.takeLayers

/-- The requests of some commits, done. -/
abbrev Panel.commitTold (p : Panel) : List (Origin × Nat) := p.commits.map (fun r => (r.origin, cOK))

theorem Device.commitAll_eq (d : Device) (t : Time) : d.commitAll t =
    d.panel.commitTold.foldl (fun d x => Device.pEnd d x.1 2 x.2 (some t))
      (Device.setFld { d.layered with panel := { d.layered.panel with commits := [] } } F.PNL_STAT_COMMIT_PENDING 0) := by
  rw [List.foldl_map]
  rfl

theorem Device.layered_frame (d : Device) : ∃ regs layers, d.layered = { d with regs := regs, panel := { d.panel with layers := layers } } := by
  rw [Device.layered]
  split
  · exact ⟨d.regs, d.panel.layers, rfl⟩
  · exact d.takeLayers_frame

theorem Device.commitAll_frame (d : Device) (t : Time) :
    d.Told (d.commitAll t) { d.panel with layers := d.layered.panel.layers, commits := [] } (toldAll d.panel.commitTold (some t)) := by
  obtain ⟨r0, layers, e⟩ := d.layered_frame
  have before : d.Told { d.layered with panel := { d.layered.panel with commits := [] } }
      { d.panel with layers := d.layered.panel.layers, commits := [] } [] := by
    refine ⟨r0, ?_⟩
    rw [e, List.append_nil]
  have all := (before.regs ((OnlyRegs.refl _).setFld F.PNL_STAT_COMMIT_PENDING 0)).ends 2 (some t) d.panel.commitTold
  rw [Device.commitAll_eq]
  exact all

theorem Device.rd_commitAll (d : Device) (t : Time) {b : Nat} (h1 : b ≠ Reg.PNL_CTL) (h2 : b ≠ Reg.PNL_STAT) :
    (d.commitAll t).rd b = d.layered.rd b := by
  rw [Device.commitAll_eq]
  exact (Device.rd_pEnds _ _ _ _ h1 h2).trans (Device.rd_setFld_mk _ _ _ h2)

theorem Device.rd_layered (d : Device) {b : Nat} (h : noCur b) : d.layered.rd b = d.rd b := by
  rw [Device.layered]
  split
  · rfl
  · exact d.rd_takeLayers h

theorem Device.pending_commitAll (d : Device) (t : Time) : (d.commitAll t).fld F.PNL_STAT_COMMIT_PENDING = 0 := by
  rw [Device.commitAll_eq]
  exact (Device.stat_pEnds _ _ _ _ (.inl (by decide))).trans (Device.fld_setFld _ _ _ (by decide))

theorem Device.layered_none (h : d.panel.commits = []) : d.layered = d := if_pos (by rw [h]; rfl)

theorem Device.layered_some (h : d.panel.commits ≠ []) : d.layered = d.takeLayers := if_neg (by rw [List.isEmpty_iff]; exact h)

/-! A new frame (R564, R569). -/

theorem Device.msa_congr {x : Device} (h : ∀ b, b < 0xf00060 → b ≠ Reg.PNL_CTL → b ≠ Reg.PNL_STAT → x.rd b = d.rd b) : x.msa = d.msa := by
  have same : ∀ b, b < 0xf00060 → b ≠ Reg.PNL_CTL → b ≠ Reg.PNL_STAT → x.rdN b = d.rdN b := fun b h1 h2 h3 => Device.rdN_congr (h b h1 h2 h3)
  have cfg : x.rd Reg.PNL_CFG = d.rd Reg.PNL_CFG := h _ (by decide) (by decide) (by decide)
  have timing : x.timingFields = d.timingFields := by
    rw [Device.timingFields, Device.timingFields]
    refine List.flatMap_congr fun a ha => ?_
    simp only [List.mem_cons, List.not_mem_nil, or_false] at ha
    rw [same a (by rcases ha with rfl | rfl | rfl | rfl <;> decide) (by rcases ha with rfl | rfl | rfl | rfl <;> decide)
      (by rcases ha with rfl | rfl | rfl | rfl <;> decide)]
  rw [Device.msa, same _ (by decide) (by decide) (by decide), same _ (by decide) (by decide) (by decide), timing, Device.pBpc,
    Device.isSet_congr (f := F.PNL_CFG_HSYNC_POL) cfg, Device.isSet_congr (f := F.PNL_CFG_VSYNC_POL) cfg,
    Device.isSet_congr (f := F.PNL_CFG_BPC) cfg, Device.msa, Device.pBpc]

theorem Device.frameStart_frame (d : Device) (t : Time) : ∃ regs, d.frameStart t = { d with
    regs := regs
    panel := { d.panel with x := 0, y := 0, fill := false }
    outbox := d.outbox ++ [.vsync t, d.msa] } := by
  obtain ⟨regs, e⟩ := (OnlyRegs.refl { d with panel := { d.panel with x := 0, y := 0, fill := false } }).wrTime Reg.PNL_FRAME_LO t
  obtain ⟨regs', f⟩ := (OnlyRegs.refl ((Device.send (Device.wrTime { d with panel := { d.panel with x := 0, y := 0, fill := false } }
    Reg.PNL_FRAME_LO t) (.vsync t)).send d.msa)).setFld F.PNL_STAT_SKIP
    (((List.range 4).filter (fun l => Device.unfetched { d with panel := { d.panel with x := 0, y := 0, fill := false } } l)).map (fun l => 2 ^ l)).sum
  refine ⟨regs', f.trans ?_⟩
  rw [e]
  simp only [Device.send, List.append_assoc]
  rfl

theorem Device.rd_frameStart (d : Device) (t : Time) {b : Nat} (h0 : b ≠ Reg.PNL_STAT) (h1 : b ≠ Reg.PNL_FRAME_LO) (h2 : b ≠ Reg.PNL_FRAME_LO + 4) :
    (d.frameStart t).rd b = d.rd b :=
  (Device.rd_setFld_mk _ _ _ h0).trans (Device.rd_wrTime_other _ _ h1 h2)

theorem Device.stat_frameStart (d : Device) (t : Time) {g : Field} (h : g.lo + g.w ≤ 16) :
    (d.frameStart t).fld ⟨Reg.PNL_STAT, g⟩ = d.fld ⟨Reg.PNL_STAT, g⟩ := by
  refine (Device.fld_setFld_disjoint _ _ _ _ (by decide) (.inr h)).trans (Device.fld_congr ?_)
  have stat : Reg.PNL_STAT ≠ Reg.PNL_FRAME_LO ∧ Reg.PNL_STAT ≠ Reg.PNL_FRAME_LO + 4 := by decide
  exact Device.rd_wrTime_other _ _ stat.1 stat.2

theorem Device.time_frameStart (d : Device) (t : Time) : (d.frameStart t).rdTime Reg.PNL_FRAME_LO = t := by
  refine (Device.rdTime_congr (Device.rd_setFld_mk _ _ _ (by decide)) (Device.rd_setFld_mk _ _ _ (by decide))).trans ?_
  exact Device.rdTime_wrTime _ _ _

end Sys2Proof.Machine
end


section
/-! SUPPORT. Frames begun at a commit point, pixels, the end of scan-out, AUX and hot plug (R563 to R569, R573 to R575). -/

namespace Sys2Proof.Machine

variable {d x : Device} {s : State} {o : Origin} {level q cmd n : Nat} {t b : Time} {lost : Bool} {data : List Byte} {c : Nat × Nat × Nat}

/-! Commit points (R565, R566, R569). -/

theorem exec_commitPoint (t : Time) (s : State) : exec (.commitPoint t) s = .next { s with dev := s.dev.commitPoint t } := rfl

theorem Device.commitPoint_none (h : d.panel.idle ≠ none ∨ d.fld F.PNL_STAT_STATE = 0) : d.commitPoint t = d := by
  by_cases hi : d.panel.idle.isSome = true
  · exact if_pos hi
  · have off : d.pState = 0 := h.resolve_left fun h => hi (Option.isSome_iff_ne_none.mpr h)
    refine (if_neg hi).trans ((if_neg ?_).trans (if_neg ?_))
    · rw [off]
      simp
    · rw [off]
      decide

/-- A frame that follows another: the commits that wait are done, and it is counted. -/
def Device.pFrame (d : Device) (t : Time) : Device :=
  ((d.commitAll t).wr Reg.PNL_FRAMES ((d.rdN Reg.PNL_FRAMES + 1) % 2 ^ 32)).frameStart t

theorem Device.commitPoint_running (hs : d.fld F.PNL_STAT_STATE = 2) (hi : d.panel.idle = none) : d.commitPoint t =
    if d.panel.stops.isEmpty then d.pFrame t else (d.pFrame t).pIdle t d.panel.stopCode := by
  have two : d.pState = 2 := hs
  refine (if_neg (by rw [hi]; exact Bool.false_ne_true)).trans ((if_neg ?_).trans (if_pos two))
  rw [two]
  simp

theorem Device.pFrame_frame (d : Device) (t : Time) : ∃ regs, d.pFrame t = { d with
    regs := regs
    panel := { d.panel with layers := d.layered.panel.layers, commits := [], x := 0, y := 0, fill := false }
    outbox := d.outbox ++ [.vsync t, d.msa]
    completions := d.completions ++ toldAll d.panel.commitTold (some t) } := by
  have same : ((d.commitAll t).wr Reg.PNL_FRAMES ((d.rdN Reg.PNL_FRAMES + 1) % 2 ^ 32)).msa = d.msa := by
    refine Device.msa_congr fun b hb h1 h2 => ?_
    rw [Device.rd_wr_other _ _ _ _ (by simp only [Reg.PNL_FRAMES]; omega), d.rd_commitAll t h1 h2, d.rd_layered (noCur_below (by omega))]
  obtain ⟨r0, e⟩ := (d.commitAll_frame t).regs ((OnlyRegs.refl _).wr Reg.PNL_FRAMES ((d.rdN Reg.PNL_FRAMES + 1) % 2 ^ 32))
  obtain ⟨r1, f⟩ := ((d.commitAll t).wr Reg.PNL_FRAMES ((d.rdN Reg.PNL_FRAMES + 1) % 2 ^ 32)).frameStart_frame t
  refine ⟨r1, f.trans ?_⟩
  rw [same, e]

/-- Registers other than CTL, STAT, the frame count and the frame's instant are as the layers left them. -/
theorem Device.rd_pFrame (d : Device) (t : Time) {b : Nat} (h0 : b ≠ Reg.PNL_CTL) (h1 : b ≠ Reg.PNL_STAT) (h2 : b ≠ Reg.PNL_FRAMES)
    (h3 : b ≠ Reg.PNL_FRAME_LO) (h4 : b ≠ Reg.PNL_FRAME_LO + 4) : (d.pFrame t).rd b = d.layered.rd b :=
  (Device.rd_frameStart _ _ h1 h3 h4).trans ((Device.rd_wr_other _ _ _ _ h2).trans (d.rd_commitAll t h0 h1))

theorem Device.frames_pFrame (d : Device) (t : Time) : (d.pFrame t).rdN Reg.PNL_FRAMES = (d.rdN Reg.PNL_FRAMES + 1) % 2 ^ 32 := by
  rw [Device.pFrame, Device.rdN_congr (Device.rd_frameStart _ _ (by decide) (by decide) (by decide)), Device.rdN_wr, Nat.mod_mod]

theorem Device.pending_pFrame (d : Device) (t : Time) : (d.pFrame t).fld F.PNL_STAT_COMMIT_PENDING = 0 := by
  refine (Device.stat_frameStart _ _ (by decide)).trans ((Device.fld_congr (Device.rd_wr_other _ _ _ _ (by decide))).trans ?_)
  exact d.pending_commitAll t

theorem Device.cur_pFrame (h : d.panel.commits ≠ []) (t : Time) {l : Nat} (hl : l < 4) (hb : d.rd64 (Reg.PNL_L_BASE_LO l) < 2 ^ 64) :
    (d.pFrame t).rd64 (Reg.PNL_L_CUR_LO l) = d.rd64 (Reg.PNL_L_BASE_LO l) := by
  have kept : ∀ b, 0xf01000 ≤ b → (d.pFrame t).rd b = d.takeLayers.rd b := fun b hb => by
    rw [d.rd_pFrame t (by simp only [Reg.PNL_CTL]; omega) (by simp only [Reg.PNL_STAT]; omega) (by simp only [Reg.PNL_FRAMES]; omega)
      (by simp only [Reg.PNL_FRAME_LO]; omega) (by simp only [Reg.PNL_FRAME_LO]; omega), Device.layered_some h]
  rw [Device.rd64_congr (kept _ (by simp only [Reg.PNL_L_CUR_LO]; omega)) (kept _ (by simp only [Reg.PNL_L_CUR_LO]; omega))]
  exact d.cur_takeLayers hl hb

/-- Idle patterns change the panel and send one pattern. -/
theorem Device.pIdle_eq (d : Device) (t : Time) (c : Nat) :
    d.pIdle t c = { d with panel := { d.panel with idle := some t, stopCode := c }, outbox := d.outbox ++ [.pattern 0] } := rfl

/-- The panel once its training has led to its first commit point. -/
def Device.pStarted (d : Device) (o : Origin) (t : Time) : Device :=
  ((d.takeLayers.commitAll t).setFld F.PNL_STAT_STATE 2).pEnd o 0 cOK (some t)

/-- The first frame after training. -/
def Device.pFirst (d : Device) (o : Origin) (t : Time) : Device :=
  Device.frameStart { d.pStarted o t with panel := { (d.pStarted o t).panel with start := none, phase := 0 } } t

theorem Device.commitPoint_first (hs : d.fld F.PNL_STAT_STATE = 1) (hp : d.panel.phase = 5) (hi : d.panel.idle = none)
    (ho : d.panel.start = some o) (hn : d.panel.stops = []) : d.commitPoint t = d.pFirst o t := by
  have asked : d.panel.start.getD .device = o := by rw [ho]; rfl
  have on : d.panel.stops.isEmpty = true := by rw [hn]; rfl
  refine (if_neg (by rw [hi]; exact Bool.false_ne_true)).trans ((if_pos ⟨hs, hp⟩).trans ((if_pos on).trans ?_))
  rw [asked, Device.pFirst, Device.pStarted]

theorem Device.pPend_takeLayers (d : Device) (k : Nat) : d.takeLayers.pPend k = d.pPend k := by
  have step : ∀ (ls : List Nat) (d : Device), (ls.foldl (fun d l => d.takeLayer l) d).pPend k = d.pPend k := fun ls => by
    induction ls with
    | nil => exact fun _ => rfl
    | cons l ls ih => exact fun d => (ih _).trans (d.pPend_takeLayer l k)
  exact step _ d

theorem Device.Told.trans {y : Device} {p p' : Panel} {m m' : List Completion} (h : d.Told x p m) (h' : x.Told y p' m') :
    d.Told y p' (m ++ m') := by
  obtain ⟨_, rfl⟩ := h
  obtain ⟨regs, rfl⟩ := h'
  exact ⟨regs, by rw [List.append_assoc]⟩

theorem Device.takeLayers_told (d : Device) : d.Told d.takeLayers { d.panel with layers := d.takeLayers.panel.layers } [] := by
  obtain ⟨regs, layers, e⟩ := d.takeLayers_frame
  refine ⟨regs, ?_⟩
  rw [e, List.append_nil]

theorem Device.pStarted_told (d : Device) (o : Origin) (t : Time) : d.Told (d.pStarted o t)
    { d.panel with layers := d.takeLayers.layered.panel.layers, commits := [] } (toldAll (d.panel.commitTold ++ [(o, cOK)]) (some t)) := by
  have commits := d.takeLayers.commitAll_frame t
  have panel : d.takeLayers.panel = { d.panel with layers := d.takeLayers.panel.layers } := by
    obtain ⟨regs, layers, e⟩ := d.takeLayers_frame
    rw [e]
  have same : d.takeLayers.panel.commits = d.panel.commits := by rw [panel]
  have all := d.takeLayers_told.trans ((commits.regs ((OnlyRegs.refl _).setFld F.PNL_STAT_STATE 2)).ends 0 (some t) [(o, cOK)])
  rw [Panel.commitTold, same, List.nil_append, ← toldAll_append, panel] at all
  exact all

/-- A frame begun on a device that has told its requesters. -/
theorem Device.Told.frameStart {y : Device} {p : Panel} {m : List Completion} (h : d.Told y p m) (p' : Panel) (t : Time) : ∃ regs outbox,
    Device.frameStart { y with panel := p' } t = { d with
      regs := regs, panel := { p' with x := 0, y := 0, fill := false }, outbox := outbox, completions := d.completions ++ m } := by
  obtain ⟨_, rfl⟩ := h
  obtain ⟨regs, e⟩ := Device.frameStart_frame { d with regs := _, panel := p', completions := d.completions ++ m } t
  exact ⟨regs, _, e⟩

theorem Device.Told.panel_eq {y : Device} {p : Panel} {m : List Completion} (h : d.Told y p m) : y.panel = p := by
  obtain ⟨_, rfl⟩ := h
  rfl

theorem Device.pFirst_frame (d : Device) (o : Origin) (t : Time) : ∃ regs outbox, d.pFirst o t = { d with
    regs := regs
    panel := { d.panel with layers := d.takeLayers.layered.panel.layers, commits := [], start := none, phase := 0, x := 0, y := 0, fill := false }
    outbox := outbox
    completions := d.completions ++ toldAll (d.panel.commitTold ++ [(o, cOK)]) (some t) } := by
  have told := d.pStarted_told o t
  obtain ⟨regs, outbox, e⟩ := told.frameStart { (d.pStarted o t).panel with start := none, phase := 0 } t
  refine ⟨regs, outbox, e.trans ?_⟩
  rw [told.panel_eq]

/-- The first frame shows the pending layers. -/
theorem Device.layer_pFirst (d : Device) (o : Origin) (t : Time) {l : Nat} (hl : l < 4) : (d.pFirst o t).pLayer l = d.pPend l := by
  obtain ⟨regs, outbox, e⟩ := d.pFirst_frame o t
  have layers : (d.pFirst o t).panel.layers = d.takeLayers.layered.panel.layers := by rw [e]
  rw [Device.pLayer, layers, ← Device.pLayer, Device.layered]
  split
  · exact d.pLayer_takeLayers hl
  · rw [d.takeLayers.pLayer_takeLayers hl, Device.pPend_takeLayers]

theorem Device.state_pFirst (d : Device) (o : Origin) (t : Time) : (d.pFirst o t).fld F.PNL_STAT_STATE = 2 := by
  refine (Device.stat_frameStart _ _ (by decide)).trans ?_
  exact (Device.stat_pEnd _ o 0 cOK (some t) (.inl (by decide))).trans (Device.fld_setFld _ _ _ (by decide))

end Sys2Proof.Machine
end


section
/-! SUPPORT. The colour of a pixel, the pixels sent, AUX and hot plug (R563, R567, R568, R573 to R575). -/

namespace Sys2Proof.Machine

variable {d x : Device} {s : State} {o : Origin} {level q cmd n v k : Nat} {t b : Time} {lost up : Bool} {data : List Byte}
  {c : Nat × Nat × Nat}

/-! Colours (R567, R568). -/

theorem Device.applyLayer_off (h : (d.pLayer k).en = false) (px py : Nat) : d.applyLayer px py c k = c :=
  if_neg (by rw [h]; exact Bool.false_ne_true)

/-- A layer without alpha covers. -/
theorem blend_opaque (u c : Nat) : blend 255 u c = u := by
  have whole : ((255 * u + (255 - 255) * c : Nat) : Int) = 255 * u := by omega
  have rest : (255 * (u : Int)) % 255 = 0 := by omega
  have quot : (255 * (u : Int)) / 255 = u := by omega
  rw [blend, whole, roundHalfEven, rest, quot]
  simp

/-- The place lies in the visible part of layer `k`. -/
abbrev Device.covers (d : Device) (k px py : Nat) : Prop :=
  (d.pLayer k).px ≤ px ∧ px < (d.pLayer k).px + (d.pLayer k).w ∧ px < d.hAct ∧ (d.pLayer k).py ≤ py ∧ py < (d.pLayer k).py + (d.pLayer k).h ∧ py < d.vAct

/-- A layer of 32 bits without alpha shows its own colour where it covers. -/
theorem Device.applyLayer_opaque {px py : Nat} (he : (d.pLayer k).en = true) (hf : (d.pLayer k).fmt = 2) (ho : bitAt (d.pLayer k).cfg 3 = true)
    (h : d.covers k px py) : d.applyLayer px py c k =
      rgbOf (memLE d.mem ((d.pLayer k).base + (py - (d.pLayer k).py) * (d.pLayer k).stride + (px - (d.pLayer k).px) * 4) 4) := by
  obtain ⟨h1, h2, h3, h4, h5, h6⟩ := h
  have opaq : (d.pLayer k).opaque' = true := by rw [PLayer.opaque', ho, Bool.or_true]
  have wide : (d.pLayer k).bpp = 4 := by rw [PLayer.bpp, hf]; rfl
  have inside : ((d.pLayer k).en && decide ((d.visible (d.pLayer k)).1 ≤ px) && decide (px < (d.visible (d.pLayer k)).2.2.1) &&
      decide ((d.visible (d.pLayer k)).2.1 ≤ py) && decide (py < (d.visible (d.pLayer k)).2.2.2)) = true := by
    rw [he, decide_eq_true (show (d.visible (d.pLayer k)).1 ≤ px from h1), decide_eq_true (show (d.visible (d.pLayer k)).2.1 ≤ py from h4),
      decide_eq_true (show px < (d.visible (d.pLayer k)).2.2.1 from Nat.lt_min.mpr ⟨h3, h2⟩),
      decide_eq_true (show py < (d.visible (d.pLayer k)).2.2.2 from Nat.lt_min.mpr ⟨h6, h5⟩)]
    rfl
  have colour : ∀ v, (d.pLayer k).colour v = (rgbOf v, 255) := fun v => by
    rw [PLayer.colour, hf, opaq]
    rfl
  refine (if_pos inside).trans ?_
  rw [colour, wide, blend_opaque, blend_opaque, blend_opaque]

theorem Device.pixelAt_eq (d : Device) (px py : Nat) : d.pixelAt px py =
    d.applyLayer px py (d.applyLayer px py (d.applyLayer px py (d.applyLayer px py (rgbOf (d.rdN Reg.PNL_BG)) 0) 1) 2) 3 := rfl

theorem Device.pixelAt_background (h : ∀ l, l < 4 → (d.pLayer l).en = false) (px py : Nat) : d.pixelAt px py = rgbOf (d.rdN Reg.PNL_BG) := by
  rw [Device.pixelAt_eq, Device.applyLayer_off (h 0 (by decide)), Device.applyLayer_off (h 1 (by decide)), Device.applyLayer_off (h 2 (by decide)),
    Device.applyLayer_off (h 3 (by decide))]

theorem Device.pixelAt_layer {px py : Nat} (h : ∀ l, 0 < l → l < 4 → (d.pLayer l).en = false) (he : (d.pLayer 0).en = true)
    (hf : (d.pLayer 0).fmt = 2) (ho : bitAt (d.pLayer 0).cfg 3 = true) (hc : d.covers 0 px py) : d.pixelAt px py =
      rgbOf (memLE d.mem ((d.pLayer 0).base + (py - (d.pLayer 0).py) * (d.pLayer 0).stride + (px - (d.pLayer 0).px) * 4) 4) := by
  rw [Device.pixelAt_eq, Device.applyLayer_opaque he hf ho hc, Device.applyLayer_off (h 1 (by decide) (by decide)),
    Device.applyLayer_off (h 2 (by decide) (by decide)), Device.applyLayer_off (h 3 (by decide) (by decide))]

/-- The number that a colour of 24 bits is sent as. -/
theorem rgbOf_sum (v : Nat) : (rgbOf v).2.2 + (rgbOf v).2.1 * 256 + (rgbOf v).1 * 65536 = v % 2 ^ 24 := by
  simp only [rgbOf, bitsOf]
  omega

theorem Device.sent_eight (h : d.isSet F.PNL_CFG_BPC = false) (c : Nat) : d.sent c = c := if_neg (Bool.eq_false_iff.mp h)

/-! The line buffer (R573, R574). -/

theorem Device.setLevel_regs (d : Device) (n : Nat) : d.OnlyRegs (d.setLevel n) :=
  (((OnlyRegs.refl d).setFld _ _).flag _ _).ite ((OnlyRegs.refl d).setFld _ _)

/-- Registers that the level of the line buffer leaves. -/
abbrev levelKept (b : Nat) : Prop := b ≠ Reg.PNL_LEVEL ∧ b ≠ Reg.PNL_FLAGS ∧ b ≠ Reg.PNL_URGENT_CNT

theorem Device.rd_setLevel (d : Device) (n : Nat) {b : Nat} (h : levelKept b) : (d.setLevel n).rd b = d.rd b := by
  obtain ⟨h1, h2, h3⟩ := h
  exact Device.rd_ite ((Device.rd_flag_other _ _ _ h2 h3).trans (Device.rd_setFld_mk _ _ _ h1)) (Device.rd_setFld_mk _ _ _ h1)

/-- The line is filled instead of fetched: it was, or nothing is in the buffer. -/
abbrev Device.fills (d : Device) (level : Nat) : Bool := d.panel.fill || decide (level = 0)

/-- The device as a pixel falls due: the level shows, and an empty buffer is an underrun. -/
def Device.pixelMet (d : Device) (level : Nat) : Device :=
  if (d.fills level && !d.panel.fill) = true then (d.setLevel level).flag F.PNL_FLAGS_UNDERRUN Reg.PNL_UNDERRUN_CNT else d.setLevel level

theorem Device.pixelMet_regs (d : Device) (level : Nat) : d.OnlyRegs (d.pixelMet level) := ((d.setLevel_regs level).flag _ _).ite (d.setLevel_regs level)

theorem Device.rd_pixelMet (d : Device) (level : Nat) {b : Nat} (h : levelKept b) (h' : b ≠ Reg.PNL_UNDERRUN_CNT) : (d.pixelMet level).rd b = d.rd b :=
  Device.rd_ite ((Device.rd_flag_other _ _ _ h.2.1 h').trans (d.rd_setLevel level h)) (d.rd_setLevel level h)

/-- The pixel taken out of the buffer. -/
def Device.pixelOut (d : Device) (level : Nat) : Device :=
  if d.fills level = true then d.pixelMet level else ((d.pixelMet level).setLevel (level - 1)).moved 5

theorem Device.pixelOut_frame (d : Device) (level : Nat) : ∃ regs latAt, d.pixelOut level = { d with regs := regs, latAt := latAt } := by
  obtain ⟨regs, e⟩ := d.pixelMet_regs level
  obtain ⟨regs', f⟩ := (d.pixelMet_regs level).trans ((d.pixelMet level).setLevel_regs (level - 1))
  rw [Device.pixelOut]
  split
  · exact ⟨regs, d.latAt, e⟩
  · refine ⟨regs', (((d.pixelMet level).setLevel (level - 1)).moved 5).latAt, ?_⟩
    rw [f]
    rfl

theorem Device.rd_pixelOut (d : Device) (level : Nat) {b : Nat} (h : levelKept b) (h' : b ≠ Reg.PNL_UNDERRUN_CNT) : (d.pixelOut level).rd b = d.rd b :=
  Device.rd_ite (d.rd_pixelMet level h h') (((d.pixelMet level).rd_setLevel _ h).trans (d.rd_pixelMet level h h'))

/-- The colour that is due. -/
def Device.pixelColour (d : Device) (level : Nat) : Nat × Nat × Nat :=
  if d.fills level = true then rgbOf ((d.pixelMet level).rdN Reg.PNL_FILL) else (d.pixelMet level).pixelAt d.panel.x d.panel.y

theorem Device.pixelAt_congr (h : d.OnlyRegs x) (hb : x.rd Reg.PNL_BG = d.rd Reg.PNL_BG) (hh : x.rd Reg.PNL_H_ACT_FP = d.rd Reg.PNL_H_ACT_FP)
    (hv : x.rd Reg.PNL_V_ACT_FP = d.rd Reg.PNL_V_ACT_FP) (px py : Nat) : x.pixelAt px py = d.pixelAt px py := by
  have background : x.rdN Reg.PNL_BG = d.rdN Reg.PNL_BG := Device.rdN_congr hb
  have wide : x.hAct = d.hAct := Device.fld_congr hh
  have high : x.vAct = d.vAct := Device.fld_congr hv
  have visible : ∀ y, x.visible y = d.visible y := fun y => by rw [Device.visible, wide, high, Device.visible]
  have layer : ∀ k, x.pLayer k = d.pLayer k := fun k => by rw [Device.pLayer, h.eq]; rfl
  have mem : x.mem = d.mem := by rw [h.eq]
  have each : ∀ c k, x.applyLayer px py c k = d.applyLayer px py c k := fun c k => by
    rw [Device.applyLayer, layer, visible, mem, Device.applyLayer]
  rw [Device.pixelAt, background, Device.pixelAt]
  exact congrArg (fun g => (List.range 4).foldl g (rgbOf (d.rdN Reg.PNL_BG))) (funext fun c => funext fun k => each c k)

theorem Device.pixelColour_fill (h : d.fills level = true) : d.pixelColour level = rgbOf (d.rdN Reg.PNL_FILL) := by
  rw [Device.pixelColour, if_pos h, Device.rdN_congr (d.rd_pixelMet level (by decide) (by decide))]

theorem Device.pixelColour_layers (h : d.fills level = false) : d.pixelColour level = d.pixelAt d.panel.x d.panel.y := by
  rw [Device.pixelColour, if_neg (Bool.eq_false_iff.mp h)]
  exact Device.pixelAt_congr (d.pixelMet_regs level) (d.rd_pixelMet level (by decide) (by decide)) (d.rd_pixelMet level (by decide) (by decide))
    (d.rd_pixelMet level (by decide) (by decide)) _ _

theorem exec_pixelDue (level : Nat) (s : State) : exec (.pixelDue level) s = .next { s with dev := s.dev.pixelDue level } := rfl

theorem Device.pixelDue_none (h : d.fld F.PNL_STAT_STATE ≠ 2 ∨ d.panel.idle ≠ none ∨ d.vAct ≤ d.panel.y) : d.pixelDue level = d :=
  if_pos (h.imp id (Or.imp Option.isSome_iff_ne_none.mpr id))

/-- A pixel due while the link is trained, of components of 8 bits. -/
theorem Device.pixelDue_sent (hs : d.fld F.PNL_STAT_STATE = 2) (hi : d.panel.idle = none) (hy : d.panel.y < d.vAct) (hr : d.panel.retrain = false)
    (hb : d.isSet F.PNL_CFG_BPC = false) (hc : d.pixelColour level = rgbOf v) : d.pixelDue level =
      ((d.pixelOut level).send (.pixel d.panel.x d.panel.y (v % 2 ^ 24))).nextPixel (d.fills level) := by
  have due : ¬(d.pState ≠ 2 ∨ d.panel.idle.isSome = true ∨ d.vAct ≤ d.panel.y) := by
    rintro (h | h | h)
    · exact h hs
    · rw [hi] at h
      exact Bool.false_ne_true h
    · omega
  have eight : (d.pixelOut level).isSet F.PNL_CFG_BPC = false := by rw [Device.isSet_congr (d.rd_pixelOut level (by decide) (by decide)), hb]
  have number : (d.pixelOut level).sent (d.pixelColour level).2.2 + (d.pixelOut level).sent (d.pixelColour level).2.1 * 256 +
      (d.pixelOut level).sent (d.pixelColour level).1 * 65536 = v % 2 ^ 24 := by
    rw [Device.sent_eight eight, Device.sent_eight eight, Device.sent_eight eight, hc, rgbOf_sum]
  rw [← number]
  refine (if_neg due).trans ?_
  rw [hr]
  rfl

theorem Device.nextPixel_panel (d : Device) (fill : Bool) : d.nextPixel fill = { d with panel := (d.nextPixel fill).panel } := by
  rw [Device.nextPixel]
  split
  · rfl
  · rfl

theorem Device.nextPixel_right {fill : Bool} (h : d.panel.x + 1 < d.hAct) : (d.nextPixel fill).panel = { d.panel with x := d.panel.x + 1, fill := fill } := by
  rw [Device.nextPixel, if_pos h]

theorem Device.nextPixel_down {fill : Bool} (h : d.hAct ≤ d.panel.x + 1) :
    (d.nextPixel fill).panel = { d.panel with x := 0, y := d.panel.y + 1, fill := false } := by
  rw [Device.nextPixel, if_neg (Nat.not_lt.mpr h)]

/-- What an underrun shows. -/
theorem Device.pixelOut_underrun (hf : d.panel.fill = false) (h0 : level = 0) : (d.pixelOut level).fld F.PNL_FLAGS_UNDERRUN = 1 ∧
    (d.pixelOut level).rdN Reg.PNL_UNDERRUN_CNT = min (d.rdN Reg.PNL_UNDERRUN_CNT + 1) 0xFFFFFFFF := by
  have fills : d.fills level = true := by rw [Device.fills, decide_eq_true h0, Bool.or_true]
  have met : d.pixelOut level = (d.setLevel level).flag F.PNL_FLAGS_UNDERRUN Reg.PNL_UNDERRUN_CNT := by
    rw [Device.pixelOut, if_pos fills, Device.pixelMet, fills, hf]
    rfl
  rw [met]
  refine ⟨Device.fld_flag _ (by decide) (by decide) (by decide), ?_⟩
  rw [Device.rdN_flag _ (by decide), Device.rdN_congr (d.rd_setLevel level (by decide))]

theorem Device.latAt_pixelOut (h : d.fills level = true) : (d.pixelOut level).latAt = d.latAt := by
  obtain ⟨regs, e⟩ := d.pixelMet_regs level
  rw [Device.pixelOut, if_pos h, e]

/-! The end of scan-out (R566). -/

theorem exec_panelStopDone_none (h : s.dev.panel.idle = none) : exec .panelStopDone s = .next s := by
  show execPanelStopDone s = _
  refine State.run_of_eq ?_
  rw [h]

theorem exec_panelStopDone (h : s.dev.panel.idle = some b) : exec .panelStopDone s = .next { s with dev :=
    (if timeLE (b + nsTime 1000000) s.dev.time = true then s.dev.pOff s.dev.panel.stopCode else s.dev) } := by
  show execPanelStopDone s = _
  refine State.run_of_eq ?_
  rw [h]

/-! AUX (R563). -/

theorem exec_pnlAuxCmdGo_length (h : bitsOf cmd 24 5 = 0 ∨ 16 < bitsOf cmd 24 5) :
    exec (.pnlAuxCmdGo cmd) s = .next { s with dev := s.dev.setFld F.PNL_AUX_STAT_CODE cLENGTH } := by
  have bad : (decide (bitsOf cmd 24 5 = 0) || decide (16 < bitsOf cmd 24 5)) = true := Bool.or_eq_true_iff.mpr (h.imp decide_eq_true decide_eq_true)
  have code : firstCode [(decide (bitsOf cmd 24 5 = 0) || decide (16 < bitsOf cmd 24 5), cLENGTH),
      (s.dev.isSet F.PNL_AUX_STAT_BUSY || decide (s.dev.pState = 1), cBUSY)] = cLENGTH := by
    rw [bad]
    exact firstCode_head (by simp [cLENGTH, cBUSY])
  show execPnlAuxCmdGo cmd s = _
  refine State.run_of_eq ?_
  dsimp only
  rw [code]
  exact if_pos (by decide)

section
variable (h0 : 0 < bitsOf cmd 24 5) (h16 : bitsOf cmd 24 5 ≤ 16)
include h0 h16

theorem auxLength_good : (decide (bitsOf cmd 24 5 = 0) || decide (16 < bitsOf cmd 24 5)) = false := by
  rw [decide_eq_false (by omega), decide_eq_false (by omega)]
  rfl

theorem exec_pnlAuxCmdGo_busy (h : s.dev.isSet F.PNL_AUX_STAT_BUSY = true ∨ s.dev.fld F.PNL_STAT_STATE = 1) :
    exec (.pnlAuxCmdGo cmd) s = .next { s with dev := s.dev.setFld F.PNL_AUX_STAT_CODE cBUSY } := by
  have busy : (s.dev.isSet F.PNL_AUX_STAT_BUSY || decide (s.dev.pState = 1)) = true := Bool.or_eq_true_iff.mpr (h.imp id decide_eq_true)
  show execPnlAuxCmdGo cmd s = _
  refine State.run_of_eq ?_
  dsimp only
  rw [auxLength_good h0 h16, busy]
  rfl

/-- The registers of a request that goes out. -/
def Device.auxAsked (d : Device) (cmd : Nat) : Device :=
  (((d.setFld F.PNL_AUX_STAT_CODE cOK).wrRw Reg.PNL_AUX_CMD cmd).setFld F.PNL_AUX_STAT_BUSY 1).setFld F.PNL_AUX_CMD_GO 1

theorem exec_pnlAuxCmdGo (hb : s.dev.isSet F.PNL_AUX_STAT_BUSY = false) (hs : s.dev.fld F.PNL_STAT_STATE ≠ 1) :
    exec (.pnlAuxCmdGo cmd) s = .next { s with dev := (Device.auxSend { s.dev.auxAsked cmd with panel := { (s.dev.auxAsked cmd).panel with auxTries := 0 } }) } := by
  have free : (s.dev.isSet F.PNL_AUX_STAT_BUSY || decide (s.dev.pState = 1)) = false := by
    rw [hb, Bool.false_or]
    exact decide_eq_false hs
  show execPnlAuxCmdGo cmd s = _
  refine State.run_of_eq ?_
  dsimp only
  rw [auxLength_good h0 h16, free]
  rfl

end

theorem Device.fld_panel (d : Device) (p : Panel) (f : FieldAt) : Device.fld { d with panel := p } f = d.fld f := rfl

theorem Device.auxAsked_regs (d : Device) (cmd : Nat) : d.OnlyRegs (d.auxAsked cmd) :=
  ((((OnlyRegs.refl d).setFld _ _).wr _ _).setFld _ _).setFld _ _

/-- The fields of the request, read with GO and BUSY set, are as they were written. -/
theorem Device.fld_auxAsked {f : Field} (h : f.lo + f.w ≤ 31) : (d.auxAsked cmd).fld ⟨Reg.PNL_AUX_CMD, f⟩ =
    ((d.setFld F.PNL_AUX_STAT_CODE cOK).wrRw Reg.PNL_AUX_CMD cmd).fld ⟨Reg.PNL_AUX_CMD, f⟩ := by
  have apart : Reg.PNL_AUX_CMD ≠ Reg.PNL_AUX_STAT := by decide
  exact (Device.fld_setFld_disjoint _ _ _ _ (by decide) (.inr h)).trans (Device.fld_congr (Device.rd_setFld_mk _ _ _ apart))

theorem Device.buf_auxAsked (j : Nat) : (d.auxAsked cmd).rdN (Reg.PNL_AUX_BUF j) = d.rdN (Reg.PNL_AUX_BUF j) := by
  have h1 : Reg.PNL_AUX_BUF j ≠ Reg.PNL_AUX_CMD := by simp only [Reg.PNL_AUX_BUF, Reg.PNL_AUX_CMD]; omega
  have h2 : Reg.PNL_AUX_BUF j ≠ Reg.PNL_AUX_STAT := by simp only [Reg.PNL_AUX_BUF, Reg.PNL_AUX_STAT]; omega
  exact Device.rdN_congr ((Device.rd_setFld_mk _ _ _ h1).trans ((Device.rd_setFld_mk _ _ _ h2).trans
    ((Device.rd_wr_other _ _ _ _ h1).trans (Device.rd_setFld_mk _ _ _ h2))))

/-- A request goes out, with its bytes where it writes. -/
theorem Device.auxSend_eq (d : Device) : d.auxSend = Device.send { d with panel := { d.panel with auxAt := d.time, auxDefer := false } }
    (.aux (d.fld F.PNL_AUX_CMD_REQ) (d.fld F.PNL_AUX_CMD_ADDR) (d.fld F.PNL_AUX_CMD_LENGTH)
      (if bitAt (d.fld F.PNL_AUX_CMD_REQ) 0 = true then []
       else ((List.range 4).flatMap (fun j => bytesLE 4 (d.rdN (Reg.PNL_AUX_BUF j)))).take (d.fld F.PNL_AUX_CMD_LENGTH))) := rfl

theorem Device.auxSend_first (d : Device) {p : Panel} {t : Time} (hp : d.panel = p) (ht : d.time = t) :
    Device.auxSend { d with panel := { d.panel with auxTries := 0 } } =
      Device.send { d with panel := { p with auxTries := 0, auxAt := t, auxDefer := false } }
        (.aux (d.fld F.PNL_AUX_CMD_REQ) (d.fld F.PNL_AUX_CMD_ADDR) (d.fld F.PNL_AUX_CMD_LENGTH)
          (if bitAt (d.fld F.PNL_AUX_CMD_REQ) 0 = true then []
           else ((List.range 4).flatMap (fun j => bytesLE 4 (d.rdN (Reg.PNL_AUX_BUF j)))).take (d.fld F.PNL_AUX_CMD_LENGTH))) := by
  subst hp ht
  rfl

/-- A request taken: it goes out as its register was written. -/
theorem Device.auxSend_asked (d : Device) {y : Device} (hy : y = (d.setFld F.PNL_AUX_STAT_CODE cOK).wrRw Reg.PNL_AUX_CMD cmd) :
    Device.auxSend { d.auxAsked cmd with panel := { (d.auxAsked cmd).panel with auxTries := 0 } } =
      Device.send { (y.setFld F.PNL_AUX_STAT_BUSY 1).setFld F.PNL_AUX_CMD_GO 1 with
        panel := { d.panel with auxTries := 0, auxAt := d.time, auxDefer := false } }
        (.aux (y.fld F.PNL_AUX_CMD_REQ) (y.fld F.PNL_AUX_CMD_ADDR) (y.fld F.PNL_AUX_CMD_LENGTH)
          (if bitAt (y.fld F.PNL_AUX_CMD_REQ) 0 = true then []
           else ((List.range 4).flatMap (fun j => bytesLE 4 (d.rdN (Reg.PNL_AUX_BUF j)))).take (y.fld F.PNL_AUX_CMD_LENGTH))) := by
  subst hy
  obtain ⟨regs, e⟩ := d.auxAsked_regs cmd
  have panel : (d.auxAsked cmd).panel = d.panel := by rw [e]
  have time : (d.auxAsked cmd).time = d.time := by rw [e]
  have field : ∀ f : FieldAt, f.addr = Reg.PNL_AUX_CMD → f.f.lo + f.f.w ≤ 31 →
      (d.auxAsked cmd).fld f = ((d.setFld F.PNL_AUX_STAT_CODE cOK).wrRw Reg.PNL_AUX_CMD cmd).fld f := by
    rintro ⟨_, f⟩ rfl h
    exact Device.fld_auxAsked h
  have req := field F.PNL_AUX_CMD_REQ rfl (by decide)
  have addr := field F.PNL_AUX_CMD_ADDR rfl (by decide)
  have length := field F.PNL_AUX_CMD_LENGTH rfl (by decide)
  have buf : ∀ j, (d.auxAsked cmd).rdN (Reg.PNL_AUX_BUF j) = d.rdN (Reg.PNL_AUX_BUF j) := fun j => Device.buf_auxAsked j
  have bufs : (fun j => bytesLE 4 ((d.auxAsked cmd).rdN (Reg.PNL_AUX_BUF j))) = fun j => bytesLE 4 (d.rdN (Reg.PNL_AUX_BUF j)) :=
    funext fun j => by rw [buf]
  rw [Device.auxSend_first _ panel time, req, addr, length, bufs]
  rfl

theorem exec_auxReply_idle (h : s.dev.isSet F.PNL_AUX_STAT_BUSY = false ∨ s.dev.panel.auxDefer = true) : exec (.auxReply q data) s = .next s := by
  show execAuxReply q data s = _
  exact State.run_of_eq (if_pos (h.imp (fun h => by rw [h]; rfl) id))

/-- The sink's reply to a request in progress. -/
theorem exec_auxReply (hb : s.dev.isSet F.PNL_AUX_STAT_BUSY = true) (hd : s.dev.panel.auxDefer = false) :
    exec (.auxReply q data) s = .next { s with dev :=
      (if q = 0 then
         if bitAt (s.dev.fld F.PNL_AUX_CMD_REQ) 0 = true then
           (s.dev.auxStore (data.take (s.dev.fld F.PNL_AUX_CMD_LENGTH))).auxEnd 0 (data.take (s.dev.fld F.PNL_AUX_CMD_LENGTH)).length
         else s.dev.auxEnd 0 (s.dev.fld F.PNL_AUX_CMD_LENGTH)
       else if q = 1 then s.dev.auxEnd 1 0
       else if s.dev.panel.auxTries < 7 then { s.dev with panel := { s.dev.panel with auxDefer := true, auxAt := s.dev.time } }
       else s.dev.auxEnd 2 0) } := by
  show execAuxReply q data s = _
  refine State.run_of_eq (if_neg ?_)
  rw [hb, hd]
  decide

theorem exec_auxTimeout_waits (h : s.dev.isSet F.PNL_AUX_STAT_BUSY = false ∨ timeLE (s.dev.panel.auxAt + nsTime 400000) s.dev.time = false) :
    exec .auxTimeout s = .next s := by
  show execAuxTimeout s = _
  refine State.run_of_eq (if_neg ?_)
  rintro ⟨hb, ht⟩
  rcases h with h | h
  · exact Bool.false_ne_true (h.symm.trans hb)
  · exact Bool.false_ne_true (h.symm.trans ht)

theorem exec_auxTimeout (hb : s.dev.isSet F.PNL_AUX_STAT_BUSY = true) (ht : timeLE (s.dev.panel.auxAt + nsTime 400000) s.dev.time = true) :
    exec .auxTimeout s = .next { s with dev :=
      (if s.dev.panel.auxTries < 7 then Device.auxSend { s.dev with panel := { s.dev.panel with auxTries := s.dev.panel.auxTries + 1 } }
       else s.dev.auxEnd 3 0) } := by
  show execAuxTimeout s = _
  exact State.run_of_eq (if_pos ⟨hb, ht⟩)

/-! Hot plug (R575). -/

theorem exec_hpdChange_same (h : s.dev.isSet F.PNL_STAT_HPD = up) : exec (.hpdChange up lost) s = .next s := by
  show execHpdChange up lost s = _
  exact State.run_of_eq (if_pos h)

/-- A change of HPD shown and counted. -/
def Device.hpdShown (d : Device) (v : Nat) : Device := (d.setFld F.PNL_STAT_HPD v).flag F.PNL_FLAGS_HPD Reg.PNL_HPD_CNT

theorem Device.hpdShown_regs (d : Device) (v : Nat) : d.OnlyRegs (d.hpdShown v) := ((OnlyRegs.refl d).setFld _ _).flag _ _

/-- The device with HPD changed, and since when it is low. -/
def Device.hpdSet (d : Device) (up : Bool) : Device :=
  { d.hpdShown (if up then 1 else 0) with panel := { (d.hpdShown (if up then 1 else 0)).panel with
    hpdLow := if up then none else some (d.hpdShown (if up then 1 else 0)).time } }

theorem Device.hpdSet_eq (d : Device) (up : Bool) : d.hpdSet up =
    { d.hpdShown (if up then 1 else 0) with panel := { d.panel with hpdLow := if up then none else some d.time } } := by
  obtain ⟨regs, e⟩ := d.hpdShown_regs (if up then 1 else 0)
  rw [Device.hpdSet, e]

/-- What a low that has lasted from `t` does when HPD rises again. -/
def Device.hpdPulse (d : Device) (t : Time) (lost : Bool) : Device :=
  if d.pState = 2 ∧ (nsTime 250000).toInt ≤ (d.time - t).toInt ∧ (d.time - t).toInt ≤ (nsTime 2000000).toInt then
    if (lost && !d.panel.retrain && d.panel.idle.isNone) = true then (d.send (.aux 9 0x202 4 [])).pRetrain else d.send (.aux 9 0x202 4 [])
  else d

/-- What follows a change of HPD. -/
def Device.hpdNext (d : Device) (up : Bool) (low : Option Time) (lost : Bool) : Device :=
  match up, low with
  | true, some t => d.hpdPulse t lost
  | _, _ => d

theorem exec_hpdChange (h : ¬s.dev.isSet F.PNL_STAT_HPD = up) :
    exec (.hpdChange up lost) s = .next { s with dev := (s.dev.hpdSet up).hpdNext up s.dev.panel.hpdLow lost } := by
  show execHpdChange up lost s = _
  exact State.run_of_eq (if_neg h)

/-- HPD falls. -/
theorem exec_hpdChange_down (h : s.dev.isSet F.PNL_STAT_HPD = true) : exec (.hpdChange false lost) s = .next { s with dev := s.dev.hpdSet false } := by
  rw [exec_hpdChange (by rw [h]; decide)]
  rfl

theorem Device.state_hpdShown (d : Device) (v : Nat) : (d.hpdShown v).fld F.PNL_STAT_STATE = d.fld F.PNL_STAT_STATE :=
  (Device.fld_congr (Device.rd_flag_other _ _ _ (by decide) (by decide))).trans (Device.fld_setFld_disjoint _ _ _ _ (by decide) (by decide))

theorem Device.state_hpdSet (d : Device) (up : Bool) : (d.hpdSet up).pState = d.pState := by
  rw [Device.hpdSet, Device.pState, Device.fld_panel, Device.state_hpdShown, Device.pState]

theorem Device.time_hpdSet (d : Device) (up : Bool) : (d.hpdSet up).time = d.time := by
  obtain ⟨regs, e⟩ := d.hpdShown_regs (if up then 1 else 0)
  rw [Device.hpdSet_eq, e]

section
variable (h : s.dev.isSet F.PNL_STAT_HPD = false)
include h

theorem exec_hpdChange_first (hl : s.dev.panel.hpdLow = none) : exec (.hpdChange true lost) s = .next { s with dev := s.dev.hpdSet true } := by
  rw [exec_hpdChange (by rw [h]; decide), hl]
  rfl

theorem exec_hpdChange_again (hl : s.dev.panel.hpdLow = some b) :
    exec (.hpdChange true lost) s = .next { s with dev := (s.dev.hpdSet true).hpdPulse b lost } := by
  rw [exec_hpdChange (by rw [h]; decide), hl]
  rfl

end

theorem Device.hpdPulse_off (h : d.pState ≠ 2) : d.hpdPulse b lost = d := if_neg fun hp => h hp.1

theorem Device.hpdPulse_short (h : d.pState = 2) (h1 : 250000 * 65536 ≤ (d.time - b).toInt) (h2 : (d.time - b).toInt ≤ 2000000 * 65536) :
    d.hpdPulse b lost =
      if (lost && !d.panel.retrain && d.panel.idle.isNone) = true then (d.send (.aux 9 0x202 4 [])).pRetrain else d.send (.aux 9 0x202 4 []) :=
  if_pos ⟨h, h1, h2⟩

/-- The link is retrained after a pulse of HPD. -/
theorem Device.pRetrain_pulse (d : Device) : let y := (d.send (.aux 9 0x202 4 [])).pRetrain
    y.panel = { d.panel with retrain := true, phase := 3 } ∧ y.fld F.PNL_FLAGS_LINK_LOST = 1 ∧
    y.outbox = d.outbox ++ [.aux 9 0x202 4 [], .pattern 1] ∧ y = { d with panel := y.panel, regs := y.regs, outbox := y.outbox } := by
  obtain ⟨regs, e⟩ := (OnlyRegs.refl { d.send (.aux 9 0x202 4 []) with panel := { d.panel with retrain := true, phase := 3 } }).flag
    F.PNL_FLAGS_LINK_LOST Reg.PNL_LINK_LOST_CNT
  have all : (d.send (.aux 9 0x202 4 [])).pRetrain = Device.send (Device.flag { d.send (.aux 9 0x202 4 []) with
    panel := { d.panel with retrain := true, phase := 3 } } F.PNL_FLAGS_LINK_LOST Reg.PNL_LINK_LOST_CNT) (.pattern 1) := rfl
  have lost := Device.fld_flag { d.send (.aux 9 0x202 4 []) with panel := { d.panel with retrain := true, phase := 3 } }
    (f := F.PNL_FLAGS_LINK_LOST) (cnt := Reg.PNL_LINK_LOST_CNT) (by decide) (by decide) (by decide)
  rw [all]
  refine ⟨?_, lost, ?_, ?_⟩
  · rw [e]
    rfl
  · rw [e]
    exact List.append_assoc _ _ _
  · rw [e]
    rfl

theorem exec_hpdLowTimeout_none (h : s.dev.panel.hpdLow = none ∨ s.dev.fld F.PNL_STAT_STATE ≠ 2) : exec .hpdLowTimeout s = .next s := by
  show execHpdLowTimeout s = _
  refine State.run_of_eq ?_
  rcases h with h | h
  · rw [h]
  · split
    · rfl
    · exact if_neg fun hp => h hp.1

theorem exec_hpdLowTimeout (hl : s.dev.panel.hpdLow = some b) (hs : s.dev.fld F.PNL_STAT_STATE = 2) (hi : s.dev.panel.idle = none)
    (hc : s.dev.panel.stopCode = 0) : exec .hpdLowTimeout s = .next { s with dev :=
      (if timeLT (b + nsTime 2000000) s.dev.time = true then s.dev.pFail else s.dev) } := by
  show execHpdLowTimeout s = _
  refine State.run_of_eq ?_
  rw [hl]
  dsimp only
  by_cases ht : timeLT (b + nsTime 2000000) s.dev.time = true
  · rw [if_pos ht]
    exact if_pos ⟨hs, by rw [hi]; rfl, hc, ht⟩
  · rw [if_neg ht]
    exact if_neg fun hp => ht hp.2.2.2

end Sys2Proof.Machine
end


section
/-! PROOFS. Panel requests, scan-out and AUX (R563 to R571, R574, R575). -/

namespace Sys2Proof.Machine

/-- Settles O56: the requests for host and engine alike, training, commit points, pixels, the end of scan-out, AUX and hot plug. -/
theorem panelCommands : Obligations.PanelCommands := by
  intro s u t drive level cmd ok lacks lost data d taken p state shown ended answers stamped starts stops commits aux msa
  have answered : ∀ l, answers l = toldAll l none := by
    intro l
    refine (filterMap_told id none (fun x => ?_) l).trans (by rw [List.map_id])
    obtain ⟨o, c⟩ := x
    cases o with
    | host => rfl
    | device => rfl
    | port e k => rfl
  have stamped' : ∀ l, stamped l = toldAll (l.map (fun o => (o, cOK))) (some t) := by
    intro l
    refine filterMap_told (fun o => (o, cOK)) (some t) (fun o => ?_) l
    cases o with
    | host => rfl
    | device => rfl
    | port e k => rfl
  have off : ∀ {b : Bool}, b = false → ¬b = true := fun h => Bool.eq_false_iff.mp h
  have started : ∀ i d o, exec i s = .next { s with dev := Device.pStart d o } → starts i d o := by
    intro i d o told
    refine ⟨fun hc hs => .of_eq told (Device.pStart_refused hc hs), fun hc hs => .of_eq told (Device.pStart_busy hc hs), fun hc => ?_⟩
    obtain ⟨regs, e⟩ := d.pBegun_frame o
    rw [Device.pStart_taken hc] at told
    refine .of_eq told ⟨d.state_pBegun o, d.frames_pBegun o, ?_, ?_, rfl, ?_⟩
    · rintro rfl
      exact d.bit_pBegun
    · rw [e]
      rfl
    · rw [e]
      rfl
  have stopped : ∀ i d o, exec i s = .next { s with dev := Device.pStop d o } → stops i d o := by
    intro i d o told
    refine ⟨fun h => .of_eq told (Device.pStop_off h), ?_⟩
    rintro h y rfl
    exact .of_eq told (Device.pStop_waits h)
  have committed : ∀ i d o, exec i s = .next { s with dev := Device.pCommit d o none } → commits i d o := by
    rintro i d o told c rfl
    refine ⟨fun h => .of_eq told (Device.pCommit_refused h none), ?_⟩
    rintro h y rfl
    exact .of_eq told (Device.pCommit_taken h none)
  refine ⟨started _ _ _ rfl, stopped _ _ _ rfl, committed _ _ _ rfl, fun hu => started _ _ _ (exec_pnlStart hu),
    fun hu => stopped _ _ _ (exec_pnlStop hu), fun hu => committed _ _ _ (exec_pnlCommit hu), Device.layerChecks_off,
    fun l hl h => Device.layerChecks_format hl h, ?_, fun h => .of_eq (exec_trainingStepDone ok lacks drive s) (Device.trained_off h), ?_, ?_, ?_,
    fun h => .of_eq (exec_commitPoint t s) (Device.commitPoint_none h), fun hs hi => ?_, fun o hs hp hi ho hn => ?_,
    fun h => .of_eq (exec_pixelDue level s) (Device.pixelDue_none h), ?_, fun h => .of_eq (exec_panelStopDone_none h) rfl,
    fun b h ht => .of_eq (exec_panelStopDone h) (if_neg (off ht)), fun b h ht => ?_, fun h => .of_eq (exec_pnlAuxCmdGo_length h) rfl,
    fun h0 h16 => ⟨fun h => .of_eq (exec_pnlAuxCmdGo_busy h0 h16 h) rfl, ?_⟩, fun q h => .of_eq (exec_auxReply_idle h) rfl, fun hb hd => ?_,
    fun h => .of_eq (exec_auxTimeout_waits h) rfl, fun hb ht => ⟨fun h7 => ?_, fun h7 hr => ?_⟩, fun up h => .of_eq (exec_hpdChange_same h) rfl,
    fun h => ?_, ?_, fun h => .of_eq (exec_hpdLowTimeout_none h) rfl, fun b hl hs hi hc => ⟨fun ht => ?_, fun ht => ?_⟩⟩
  · rintro l rfl hu e rfl
    have panel : (d.accept u).panel = p := d.panel_accept u
    refine ⟨fun h => .of_eq (exec_pnlFlip hu) (Device.pFlip_busy (by rw [panel]; exact h)), ?_⟩
    rintro h c rfl
    have new : ∀ r ∈ (d.accept u).panel.commits, r.flip ≠ some u.unit := by rw [panel]; exact h
    refine ⟨fun hc => .of_eq (exec_pnlFlip hu) (Device.pFlip_refused new (d.pState_accept u) rfl hc), fun hc => ?_⟩
    refine .of_eq (exec_pnlFlip hu) ((Device.pFlip_taken new (d.pState_accept u) hc).trans ?_)
    rw [Device.actBit_origin, panel]
  · rintro hr hp rfl rfl
    refine .of_eq (exec_trainingStepDone true false drive s) ?_
    rw [Device.trained_first hr hp]
    refine ⟨rfl, ?_, rfl⟩
    simp only [Device.phaseSend, Device.send, List.length_append, List.length_singleton]
  · rintro hr hp rfl rfl
    obtain ⟨regs, e⟩ := (Device.OnlyRegs.refl d).setFld ⟨Reg.PNL_DRIVE, ⟨0, 16⟩⟩ drive
    refine .of_eq (exec_trainingStepDone true false drive s) ?_
    rw [Device.trained_last hr hp]
    refine ⟨rfl, ?_, Device.fld_setFld _ _ _ (by decide), ?_⟩
    · rw [e]
      rfl
    · rw [e]
      rfl
  · intro o c hr hp ho hm hs hc hf
    obtain ⟨regs, e⟩ := d.pOff_frame c
    obtain ⟨regs', f⟩ := (d.pOff c).pEnd_frame o 0 c none
    have small : c % 256 = c := by
      rw [hc]
      cases ok with
      | false => rfl
      | true => rfl
    have quiet : toldAll (d.panel.offTold.1 ++ d.panel.offTold.2) none = [] := by
      rw [Panel.offTold, show d.panel.commits = [] from hm, show d.panel.stops = [] from hs]
      rfl
    have panel : d.panel.off = { p with phase := 0, idle := none, start := none, stopCode := 0 } := by
      rw [Panel.off, ← hm, ← hs, ← hr]
    refine .of_eq (exec_trainingStepDone ok lacks drive s) ?_
    rw [Device.trained_failed hr hp ho hf hc]
    refine ⟨((d.pOff c).stat_pEnd o 0 c none (.inl (by decide))).trans (d.state_pOff c), ((d.pOff c).code_pEnd o 0 c none).trans small, ?_, ?_, ?_⟩
    · rw [f, e]
      exact panel
    · rw [f, e, quiet, answered, toldAll_single, List.append_nil]
    · rw [f, e]
  · obtain ⟨regs, e⟩ := d.pFrame_frame t
    have told : toldAll d.panel.commitTold (some t) = stamped (p.commits.map (fun r => r.origin)) := by
      rw [stamped', List.map_map]
      rfl
    have still : d.panel.commits = [] → d.layered.panel.layers = d.panel.layers := fun h => by rw [Device.layered_none h]
    have layers : d.panel.commits ≠ [] → ∀ l, l < 4 → Sparse.get (fun _ => {}) d.layered.panel.layers l = d.pPend l := fun h l hl => by
      rw [Device.layered_some h]
      exact d.pLayer_takeLayers hl
    have run := d.commitPoint_running (t := t) hs hi
    refine .of_eq (exec_commitPoint t s) ?_
    rw [run]
    by_cases hn : p.stops = []
    · rw [if_pos (show d.panel.stops.isEmpty = true by rw [show d.panel.stops = [] from hn]; rfl), if_pos hn, if_pos hn]
      refine ⟨d.frames_pFrame t, Device.time_frameStart _ t, d.pending_pFrame t, ?_, ?_, ?_, ?_, fun hc l hl => ⟨?_, fun hb => ?_⟩, ?_⟩
      · rw [e]
        exact congrArg _ told
      · rw [e]
        rfl
      · rw [e, ← hi]
      · rw [e]
        exact still
      · rw [Device.pLayer, e]
        exact layers hc l hl
      · exact d.cur_pFrame hc t hl hb
      · rw [e]
    · rw [if_neg (show ¬d.panel.stops.isEmpty = true by rw [List.isEmpty_iff]; exact hn), if_neg hn, if_neg hn, Device.pIdle_eq]
      refine ⟨d.frames_pFrame t, Device.time_frameStart _ t, d.pending_pFrame t, ?_, ?_, ?_, ?_, fun hc l hl => ⟨?_, fun hb => ?_⟩, ?_⟩
      · rw [e]
        exact congrArg _ told
      · rw [e]
        exact List.append_assoc _ _ _
      · rw [e]
      · rw [e]
        exact still
      · rw [Device.pLayer, e]
        exact layers hc l hl
      · exact d.cur_pFrame hc t hl hb
      · rw [e]
  · obtain ⟨regs, outbox, e⟩ := d.pFirst_frame o t
    refine .of_eq (exec_commitPoint t s) ?_
    rw [Device.commitPoint_first hs hp hi ho hn]
    refine ⟨d.state_pFirst o t, fun l hl => d.layer_pFirst o t hl, ?_, ?_, ?_, ?_⟩
    · rw [e]
    · rw [e]
    · rw [e, stamped', List.map_append, List.map_map]
      rfl
    · rw [e]
  · intro v hs hi hy hr hb _ hv
    have colour : ∃ w, d.pixelColour level = rgbOf w ∧ v = w % 2 ^ 24 := by
      rcases hv with ⟨hf, rfl⟩ | ⟨hf, h0, hl, rfl⟩ | ⟨hf, h0, hl, he, hfmt, ho, h1, h2, h3, h4, h5, rfl⟩
      · exact ⟨_, Device.pixelColour_fill (Bool.or_eq_true_iff.mpr (hf.imp id decide_eq_true)), rfl⟩
      · have fetched : d.fills level = false := by rw [Device.fills, show d.panel.fill = false from hf, decide_eq_false (by omega)]; rfl
        exact ⟨_, (Device.pixelColour_layers fetched).trans (Device.pixelAt_background hl _ _), rfl⟩
      · have fetched : d.fills level = false := by rw [Device.fills, show d.panel.fill = false from hf, decide_eq_false (by omega)]; rfl
        exact ⟨_, (Device.pixelColour_layers fetched).trans (Device.pixelAt_layer hl he hfmt ho ⟨h1, h2, h3, h4, h5, hy⟩), rfl⟩
    obtain ⟨w, hw, rfl⟩ := colour
    obtain ⟨regs, latAt, e⟩ := d.pixelOut_frame level
    have wide : (d.pixelOut level).hAct = d.hAct := Device.fld_congr (d.rd_pixelOut level (by decide) (by decide))
    have panel : (d.pixelOut level).panel = d.panel := by rw [e]
    have outbox : (d.pixelOut level).outbox = d.outbox := by rw [e]
    have next := ((d.pixelOut level).send (.pixel p.x p.y (w % 2 ^ 24))).nextPixel_panel (d.fills level)
    have sent := d.pixelDue_sent hs hi hy hr hb hw
    refine .of_eq (exec_pixelDue level s) ?_
    rw [sent]
    refine ⟨?_, fun h => ?_, fun h => ?_, fun hf h0 => ?_, fun h => ?_, ?_⟩
    · rw [next]
      exact congrArg (fun l => l ++ [Out.pixel p.x p.y (w % 2 ^ 24)]) outbox
    · refine (Device.nextPixel_right ?_).trans ?_
      · exact (congrArg (fun y : Panel => y.x + 1) panel).trans_lt (h.trans_eq wide.symm)
      · exact congrArg (fun y : Panel => { y with x := y.x + 1, fill := d.fills level }) panel
    · refine (Device.nextPixel_down ?_).trans ?_
      · exact (wide.trans_le h).trans_eq (congrArg (fun y : Panel => y.x + 1) panel.symm)
      · exact congrArg (fun y : Panel => { y with x := 0, y := y.y + 1, fill := false }) panel
    · rw [next]
      exact Device.pixelOut_underrun hf h0
    · rw [next]
      exact Device.latAt_pixelOut (Bool.or_eq_true_iff.mpr (h.imp id decide_eq_true))
    · rw [next, Device.send, e]
  · obtain ⟨regs, e⟩ := d.pOff_frame p.stopCode
    refine .of_eq (exec_panelStopDone h) ?_
    rw [if_pos ht]
    refine ⟨d.state_pOff _, d.code_pOff _, ?_, ?_, ?_⟩
    · rw [e, answered]
    · rw [e]
    · rw [e]
  · intro hb hs y hy
    exact .of_eq (exec_pnlAuxCmdGo h0 h16 hb hs) (d.auxSend_asked hy)
  · have told := fun q => exec_auxReply (s := s) (q := q) (data := data) hb hd
    refine ⟨fun hr => .of_eq (told 0) ((if_pos rfl).trans (if_neg (off hr))), fun hr => .of_eq (told 0) ((if_pos rfl).trans (if_pos hr)),
      .of_eq (told 1) rfl, fun h7 => .of_eq (told 2) ?_, fun h7 => .of_eq (told 2) ?_⟩
    · exact (if_neg (by decide)).trans ((if_neg (by decide)).trans (if_pos h7))
    · exact (if_neg (by decide)).trans ((if_neg (by decide)).trans (if_neg (Nat.not_lt.mpr h7)))
  · exact .of_eq (exec_auxTimeout hb ht) (if_neg (Nat.not_lt.mpr h7))
  · refine .of_eq (exec_auxTimeout hb ht) ((if_pos h7).trans ?_)
    rw [Device.auxSend_eq]
    exact congrArg (fun l => Device.send { d with panel := { p with auxTries := p.auxTries + 1, auxAt := d.time, auxDefer := false } }
      (.aux (d.fld F.PNL_AUX_CMD_REQ) (d.fld F.PNL_AUX_CMD_ADDR) (d.fld F.PNL_AUX_CMD_LENGTH) l)) (if_pos hr)
  · refine .of_eq (exec_hpdChange_down h) (d.hpdSet_eq false)
  · intro h y hy
    have same : d.hpdSet true = y := (d.hpdSet_eq true).trans hy.symm
    have state' : (d.hpdSet true).pState = state := d.state_hpdSet true
    have time : (d.hpdSet true).time = d.time := d.time_hpdSet true
    refine ⟨fun hl => ?_, fun b hl hs h1 h2 => ⟨fun hlost => ?_, fun hlost hr hi => ?_⟩⟩
    · by_cases hn : p.hpdLow = none
      · exact .of_eq (exec_hpdChange_first h hn) same
      · obtain ⟨b, hb⟩ := Option.ne_none_iff_exists'.mp hn
        refine .of_eq (exec_hpdChange_again h hb) ((Device.hpdPulse_off ?_).trans same)
        rw [state']
        exact hl.resolve_left hn
    · refine .of_eq (exec_hpdChange_again h hl) ((Device.hpdPulse_short (state'.trans hs) (by rw [time]; exact h1) (by rw [time]; exact h2)).trans ?_)
      rw [hlost, same]
      rfl
    · obtain ⟨regs, e⟩ := d.hpdShown_regs 1
      have set : d.hpdSet true = { d with regs := regs, panel := { p with hpdLow := none } } := by
        rw [Device.hpdSet_eq, show (if true = true then 1 else 0) = 1 from rfl, e]
        rfl
      have pulse : (lost && !(d.hpdSet true).panel.retrain && (d.hpdSet true).panel.idle.isNone) = true := by
        rw [set, hlost]
        show (true && !p.retrain && p.idle.isNone) = true
        rw [hr, hi]
        rfl
      obtain ⟨panel, flag, outbox, frame⟩ := (d.hpdSet true).pRetrain_pulse
      refine .of_eq (exec_hpdChange_again h hl) ?_
      rw [Device.hpdPulse_short (state'.trans hs) (by rw [time]; exact h1) (by rw [time]; exact h2), if_pos pulse]
      refine ⟨?_, flag, ?_, ?_⟩
      · rw [panel, set]
      · rw [outbox, set]
      · rw [frame, set]
  · exact .of_eq (exec_hpdLowTimeout hl hs hi hc) (if_neg (off ht))
  · exact .of_eq (exec_hpdLowTimeout hl hs hi hc) (if_pos ht)

end Sys2Proof.Machine
end


section
/-! PROOFS. Compression and decompression jobs: the codewords beyond the poison table that decompressed bytes cover (R395, R409). -/

namespace Sys2Proof.Machine

theorem exec_decompressFrameDone {s : State} {v : Nat} (hv : v < 8) : exec (.decompressFrameDone v) s = .next { s with dev := s.dev.uRun v } := by
  show execDecompressFrameDone v s = _
  exact State.run_of_eq (if_pos hv)

/-- A frame of 32 zero bytes, in one stored block. -/
def zerosFrame : List Byte :=
  [0x314B465A, 0x301, 37, 0].flatMap (bytesLE 4) ++ ([1, 32, 0, 0xDF, 0xFF] ++ List.replicate 32 0) ++ bytesLE 4 (crc32c (List.replicate 32 0)) ++ bytesLE 4 32

/-- A decompression job of 62 bytes at 0 into 32 bytes at 4,096. -/
def zerosJob : UJob := { desc := [0, 0, 0, 0, 62, 0, 4096, 0, 32, 0].flatMap (bytesLE 4) }

/-- Decompressor 7 runs that job on that frame, the poison table is full, and codeword 128, at 4,096, stays uncorrectable beside it. -/
def decompressOverFullPoison : Device :=
  { (Device.setFld {} (F.CMP_U_STAT_STATE 7) 1).setUjob 7 (some zerosJob) with
      mem := memWrite [] 0 zerosFrame, poison := List.range' 1000 256, memc := { hot := [128] } }

/-- The bytes written cover codeword 128 whole, so it is uncorrectable no more. -/
theorem hot_uRun_zeros : (decompressOverFullPoison.uRun 7).memc.hot = [] := by decide +kernel

theorem readFrame_zeros : ∃ out : List Byte, out.length = 32 ∧
    readFrame (memBytes decompressOverFullPoison.mem (uSrc zerosJob.desc + zerosJob.pos) (uSrcLen zerosJob.desc - zerosJob.pos)) = .ok (61, out) := by
  have read : (readFrame (memBytes decompressOverFullPoison.mem (uSrc zerosJob.desc + zerosJob.pos) (uSrcLen zerosJob.desc - zerosJob.pos))).toOption =
      some (61, List.replicate 32 0) := by decide +kernel
  cases h : readFrame (memBytes decompressOverFullPoison.mem (uSrc zerosJob.desc + zerosJob.pos) (uSrcLen zerosJob.desc - zerosJob.pos)) with
  | error c =>
    rw [h] at read
    exact absurd read (by simp [Except.toOption])
  | ok x =>
    rw [h] at read
    exact ⟨_, List.length_replicate, congrArg Except.ok (Option.some.inj read)⟩

/-- Refutes O41: the clause of a frame that a decompressor writes says that the device keeps all but its memory, poison table, latencies, registers and
decompression jobs. Uncorrectable codewords outside the table (`memc.hot`, R409) that the bytes cover whole leave too. -/
theorem not_compressionCommands : ¬ Obligations.CompressionCommands := by
  intro h
  obtain ⟨-, -, -, -, -, -, -, -, -, -, -, -, -, frame, -⟩ :=
    h { dev := decompressOverFullPoison } ⟨0, 0, 0, 0, []⟩ 0 7 false { desc := [] } zerosJob [] []
  obtain ⟨out, len, read⟩ := readFrame_zeros
  obtain ⟨t, ht, -, -, -, keeps⟩ := frame 61 out (by decide) rfl (by decide +kernel) rfl (by decide +kernel) (by decide +kernel) read
    (by decide +kernel) (by rw [len]; decide +kernel)
  have kept : t.dev.memc.hot = [128] := by rw [keeps]; rfl
  rw [exec_decompressFrameDone (by decide)] at ht
  rw [← Host.Outcome.next.inj ht] at kept
  dsimp only at kept
  rw [hot_uRun_zeros] at kept
  exact absurd kept (by decide)

end Sys2Proof.Machine
end


section
/-! SUPPORT. Rotation steps, shadow windows and self-tests (R513, R515, R519, R521, R523, R524, R526, R527, R529). -/

namespace Sys2Proof.Machine

variable {d : Device} {s : State} {k g p sig cause w temp code : Nat} {ok : Bool} {rd : Readings} {x : RotStep}

/-! Step instants (R523, R529). -/

theorem Device.stepLength_eq (d : Device) (k : Nat) : d.stepLength k = d.fld (F.ROT_K_CFG_STEP k) * 65536000000000 := Nat.mul_assoc _ _ _

theorem Device.stepInstant_first (h : (Sparse.get (fun _ => none) d.rot.next (64 * k + g) : Option Time) = none) :
    d.stepInstant k g = Sparse.get (fun _ => 0) d.rot.s0 k +
      BitVec.ofNat 64 (g * (d.fld (F.ROT_K_CFG_STEP k) * 65536000000000) / (rotClass k).2.1) := by
  rw [Device.stepInstant, h, Option.getD_none, Device.stepLength_eq]

/-- The first instant of a grid after one that has come has not come. -/
theorem timeLE_gridAfter {i t : Time} {len : Nat} (h : timeLE i t = true) (h0 : 0 < len) (hl : len < 2 ^ 63) :
    timeLE (i + BitVec.ofNat 64 (((t - i).toNat / len + 1) * len)) t = false := by
  have past : 0 ≤ (t - i).toInt := of_decide_eq_true h
  have beyond : (t - i).toNat < ((t - i).toNat / len + 1) * len := by
    rw [Nat.mul_comm]
    exact Nat.lt_mul_div_succ _ h0
  have near : ((t - i).toNat / len + 1) * len ≤ (t - i).toNat + len := by
    rw [Nat.add_mul, Nat.one_mul]
    exact Nat.add_le_add_right (Nat.div_mul_le_self _ _) _
  refine decide_eq_false (not_le.mpr ?_)
  rw [sub_add_eq_sub_sub]
  generalize t - i = y at *
  generalize (y.toNat / len + 1) * len = m at *
  have small := y.isLt
  rw [BitVec.toInt_eq_toNat_cond] at past ⊢
  rw [BitVec.toNat_sub, BitVec.toNat_ofNat]
  split at past <;> split <;> omega

theorem Device.stepLength_lt (d : Device) (k : Nat) : d.stepLength k < 2 ^ 63 := by
  have small : d.fld (F.ROT_K_CFG_STEP k) < 2 ^ 16 := Device.fld_lt d _
  rw [Device.stepLength_eq]
  omega

/-- How many step lengths after `i` the first instant after `t` lies. -/
abbrev Device.stepsTo (d : Device) (k : Nat) (i t : Time) : Nat := if timeLE i t then (t - i).toNat / max 1 (d.stepLength k) + 1 else 0

theorem Device.stepInstant_stepAfter (d : Device) (k g : Nat) (t : Time) : (d.stepAfter k g t).stepInstant k g =
    d.stepInstant k g + BitVec.ofNat 64 (d.stepsTo k (d.stepInstant k g) t * d.stepLength k) := by
  rw [Device.stepInstant, Device.stepAfter]
  dsimp only
  rw [Sparse.get_set_same, Option.getD_some]

theorem Device.stepInstant_grid (d : Device) (k g : Nat) (t : Time) : ∃ n : Nat, (d.stepAfter k g t).stepInstant k g =
    d.stepInstant k g + BitVec.ofNat 64 (n * (d.fld (F.ROT_K_CFG_STEP k) * 65536000000000)) :=
  ⟨_, (d.stepInstant_stepAfter k g t).trans (by rw [d.stepLength_eq k])⟩

/-- The next instant of a group whose step has come lies in the future. -/
theorem Device.timeLE_stepAfter (h : timeLE (d.stepInstant k g) d.time = true) (hs : d.fld (F.ROT_K_CFG_STEP k) ≠ 0) :
    timeLE ((d.stepAfter k g d.time).stepInstant k g) d.time = false := by
  have pos : 0 < d.stepLength k := by
    rw [Device.stepLength_eq]
    exact Nat.mul_pos (Nat.pos_of_ne_zero hs) (by decide)
  rw [Device.stepInstant_stepAfter, Device.stepsTo, if_pos h, Nat.max_eq_right pos]
  exact timeLE_gridAfter h pos (d.stepLength_lt k)

/-! A step instant that has come (R523, R529). -/

/-- A step instant of group `g` of class `k` has come. -/
abbrev Device.stepDue (d : Device) (k g : Nat) : Prop := k < 9 ∧ g < (rotClass k).2.1 ∧ timeLE (d.stepInstant k g) d.time = true

theorem exec_rotationStep_early (h : ¬s.dev.stepDue k g) : exec (.rotationStep k g) s = .next s := by
  show execRotationStep k g s = _
  exact State.run_of_eq (if_neg h)

theorem exec_rotationStep_paused (h : s.dev.stepDue k g) (hr : s.dev.rotOn k = false) :
    exec (.rotationStep k g) s = .next { s with dev := s.dev.stepAfter k g s.dev.time } := by
  show execRotationStep k g s = _
  have off : (!(s.dev.stepAfter k g s.dev.time).rotOn k) = true := by
    show (!s.dev.rotOn k) = true
    rw [hr]
    rfl
  exact State.run_of_eq ((if_pos h).trans (if_pos off))

/-- A unit that does not wait in TEST goes on as it is. -/
theorem Device.testAgain_none (h : ¬(d.puState p = 3 ∧ (d.unitTest p).again = true)) : d.testAgain p = d := by
  refine if_pos ?_
  by_cases h3 : d.puState p = 3
  · exact .inr (by rw [Bool.eq_false_iff.mpr fun ha => h ⟨h3, ha⟩]; rfl)
  · exact .inl h3

theorem Device.testAgain_runs (h : d.puState p = 3) (ha : (d.unitTest p).again = true) (hc : 5 < unitClass p ∨ d.bstCond = true) :
    d.testAgain p = d.setUnitTest p { d.unitTest p with again := false, refUv := d.rdN Reg.CAL_REF_UV } := by
  have waits : ¬(d.puState p ≠ 3 ∨ (!(d.unitTest p).again) = true) := by
    rw [ha]
    simp [h]
  exact (if_neg waits).trans (if_pos hc)

theorem exec_rotationStep (h : s.dev.stepDue k g) (hr : s.dev.rotOn k = true)
    (ht : ∀ q ∈ groupUnits k g, ¬(s.dev.puState q = 3 ∧ (s.dev.unitTest q).again = true)) :
    exec (.rotationStep k g) s = .next { s with dev :=
      (if (s.dev.rotStepOf k).isSome = true then
        if g ∈ s.dev.rotDeferred k then s.dev.stepAfter k g s.dev.time
        else (s.dev.stepAfter k g s.dev.time).setDeferred k (s.dev.rotDeferred k ++ [g])
      else ((s.dev.stepAfter k g s.dev.time).stepStart k g none false).2) } := by
  show execRotationStep k g s = _
  have on : ¬(!(s.dev.stepAfter k g s.dev.time).rotOn k) = true := by
    show ¬(!s.dev.rotOn k) = true
    rw [hr]
    decide
  refine State.run_of_eq ((if_pos h).trans ((if_neg on).trans ?_))
  have same : (groupUnits k g).foldl (fun y q => y.testAgain q) (s.dev.stepAfter k g s.dev.time) = s.dev.stepAfter k g s.dev.time :=
    List.foldl_fixed fun q hq => Device.testAgain_none (ht q hq)
  rw [same]
  rfl

theorem Device.stepStart_conditions (hk : k ≤ 5) (hc : d.bstCond = false) (v : Option Nat) (wd : Bool) :
    d.stepStart k g v wd = (cCONDITIONS, d.flag F.ROT_FLAGS_PAUSED Reg.ROT_PAUSE_CNT) :=
  if_pos ⟨hk, by rw [hc]; rfl⟩

theorem Device.rotStepOf_rotShow (d : Device) (k q : Nat) : (d.rotShow k).rotStepOf q = d.rotStepOf q := by
  rw [Device.rotStepOf, (d.rotShow_frame k).rot, Device.rotStepOf]

theorem Device.rotStepOf_setRotStep (d : Device) (k : Nat) (y : Option RotStep) : (d.setRotStep k y).rotStepOf k = y :=
  Sparse.get_set_same _ _ _ _

/-! Shadow windows (R521, R524). -/

theorem exec_shadowWindowEnd_none (h : s.dev.rotStepOf k = none) (differ : Bool) : exec (.shadowWindowEnd k differ) s = .next s := by
  show execShadowWindowEnd k differ s = _
  refine State.run_of_eq ?_
  rw [h]

theorem exec_shadowWindowEnd (h : s.dev.rotStepOf k = some x) (differ : Bool) :
    exec (.shadowWindowEnd k differ) s = .next { s with dev :=
      (if differ = true then s.dev.shadowMiss k
      else if k ≠ 6 ∧ s.dev.windowOver k x = true then s.dev.shadowDone k else s.dev) } := by
  show execShadowWindowEnd k differ s = _
  refine State.run_of_eq ?_
  rw [h]

theorem Device.shadowDone_window (h : d.rotStepOf k = some x) (hp : x.phase = 1) : d.shadowDone k =
    ((d.setUState x.s 2 (d.puRole x.v)).setRotStep k (some { x with phase := 2, since := d.time })).rotShow k := by
  rw [Device.shadowDone, h]
  exact if_pos hp

theorem Device.shadowDone_other (h : d.rotStepOf k = some x) (hp : x.phase ≠ 1) : d.shadowDone k = d := by
  rw [Device.shadowDone, h]
  exact if_neg hp

theorem Device.shadowMiss_window (h : d.rotStepOf k = some x) (hp : x.phase = 1) (hm : x.misses < 7) : d.shadowMiss k =
    (d.flag F.ROT_FLAGS_MISMATCH Reg.ROT_MISMATCH_CNT).setRotStep k (some { x with misses := x.misses + 1, since := d.time, agree := 0 }) := by
  rw [Device.shadowMiss, h]
  exact (if_neg (not_not.mpr hp)).trans (if_pos (by omega))

theorem Device.shadowMiss_other (h : d.rotStepOf k = some x) (hp : x.phase ≠ 1) : d.shadowMiss k = d := by
  rw [Device.shadowMiss, h]
  exact if_pos hp

theorem Device.shadowDone_frame (h : d.rotStepOf k = some x) (hp : x.phase = 1) : ∃ regs, d.shadowDone k =
    { d with regs := regs, rot := { d.rot with steps := Sparse.set (fun _ => none) d.rot.steps k (some { x with phase := 2, since := d.time }) } } := by
  obtain ⟨_, e⟩ := d.setUState_onlyRegs x.s (d.puRole x.v) (st := 2) (by decide)
  obtain ⟨regs, e'⟩ := ((d.setUState x.s 2 (d.puRole x.v)).setRotStep k (some { x with phase := 2, since := d.time })).rotShow_frame k
  refine ⟨regs, ?_⟩
  rw [Device.shadowDone_window h hp, e', e]
  rfl

/-! Tests of a unit (R513, R515, R519, R526). -/

/-- No TEST of the unit completes now. -/
abbrev Device.testIdle (d : Device) (p : Nat) : Prop :=
  780 ≤ p ∨ d.puState p ≠ 3 ∨ (d.unitTest p).again = true ∨ d.fld F.SYS_STAT_STATE ∈ [6, 7]

theorem exec_selfTestDone_idle (h : s.dev.testIdle p) (sig : Nat) (ok : Bool) (rd : Readings) : exec (.selfTestDone p sig ok rd) s = .next s := by
  show execSelfTestDone p sig ok rd s = _
  exact State.run_of_eq (if_pos h)

/-- A TEST without logic self-test is the unit's calibration. -/
theorem exec_selfTestDone_calibrates (h : ¬s.dev.testIdle p) (hc : 5 < unitClass p) :
    exec (.selfTestDone p sig ok rd) s = .next { s with dev := s.dev.calibrate p ok rd } := by
  show execSelfTestDone p sig ok rd s = _
  have plain : (!logicClass (unitClass p)) = true := by
    rw [logicClass, decide_eq_false (by omega)]
    rfl
  exact State.run_of_eq ((if_neg h).trans (if_pos plain))

/-- A TEST with logic self-test: the signature decides first. -/
theorem exec_selfTestDone_logic (h : ¬s.dev.testIdle p) (hc : unitClass p ≤ 5) {y : Device} (hy : y = s.dev.flag F.BST_FLAGS_RUN Reg.BST_RUN_CNT) :
    exec (.selfTestDone p sig ok rd) s = .next { s with dev :=
      (if sig % 2 ^ 64 ≠ Config.goldenSig (unitClass p) % 2 ^ 64 then (y.flag F.BST_FLAGS_FAIL Reg.BST_FAIL_CNT).testFail p 1
      else if unitClass p = 5 then y.calibrate p ok rd
      else y.testPass p 0 rd.temp) } := by
  show execSelfTestDone p sig ok rd s = _
  have logic : ¬(!logicClass (unitClass p)) = true := by
    rw [logicClass, decide_eq_true hc]
    decide
  subst hy
  exact State.run_of_eq ((if_neg h).trans (if_neg logic))

/-- A calibration attempt is noted at the item of an event input or a lane (R514). -/
theorem Device.calNote_eq (d : Device) (p code : Nat) : d.calNote p code =
    if unitClass p = 6 then d.setFld (F.CAL_I_STAT_CODE (24 + (p - 682) / 2)) code
    else if unitClass p = 7 then d.setFld (F.CAL_I_STAT_CODE (8 + (p - 746) / 2)) code else d := by
  by_cases h6 : unitClass p = 6
  · rw [Device.calNote, calItem, h6]
    rfl
  by_cases h7 : unitClass p = 7
  · rw [Device.calNote, calItem, h7]
    rfl
  by_cases h5 : unitClass p = 5
  · rw [Device.calNote, calItem, h5]
    rfl
  have unnoted : calItem p 0 = none := by
    rw [calItem]
    split
    · next h => exact absurd h h5
    · next h => exact absurd h h6
    · next h => exact absurd h h7
    · rfl
  rw [Device.calNote, unnoted, if_neg h6, if_neg h7]

theorem Device.unitTest_calNote (d : Device) (p code q : Nat) : (d.calNote p code).unitTest q = d.unitTest q := by
  rw [Device.calNote_eq]
  split_ifs <;> rfl

section Calibrate
variable (hc : unitClass p = 5) (d) (ok)
include hc

theorem Device.calibrate_converter : d.calibrate p ok rd =
    match calConverter (d.unitTest p).refUv (Config.factoryWord p) rd with
    | none => d.testFail p 2
    | some (c, w) => if c = cOK then d.testPass p w rd.temp else (d.flag F.CAL_FLAGS_REF_BAD Reg.CAL_REF_BAD_CNT).testWait p := if_pos hc

end Calibrate

theorem Device.calibrate_fails (hc : unitClass p = 5) (h : calConverter (d.unitTest p).refUv (Config.factoryWord p) rd = none) :
    d.calibrate p ok rd = d.testFail p 2 := by
  rw [d.calibrate_converter ok hc, h]

theorem Device.calibrate_selects (hc : unitClass p = 5) (h : calConverter (d.unitTest p).refUv (Config.factoryWord p) rd = some (cOK, w)) :
    d.calibrate p ok rd = d.testPass p w rd.temp := by
  rw [d.calibrate_converter ok hc, h]
  rfl

theorem Device.calibrate_badReference (hc : unitClass p = 5)
    (h : calConverter (d.unitTest p).refUv (Config.factoryWord p) rd = some (cCONDITIONS, w)) :
    d.calibrate p ok rd = (d.flag F.CAL_FLAGS_REF_BAD Reg.CAL_REF_BAD_CNT).testWait p := by
  rw [d.calibrate_converter ok hc, h]
  rfl

theorem Device.calibrate_noReference (hc : unitClass p = 6 ∨ unitClass p = 7) (h : d.isSet F.CLK_STAT_REF_PRESENT = false) :
    d.calibrate p ok rd = ((d.calNote p cREFLOST).flag F.CAL_FLAGS_SKIPPED Reg.CAL_SKIP_CNT).testWait p :=
  (if_neg (by omega)).trans (if_pos ⟨hc, by rw [h]; rfl⟩)

/-- A lane, an event input with REFCLK, or a root: `ok` decides. -/
theorem Device.calibrate_checked (hc : ((unitClass p = 6 ∨ unitClass p = 7) ∧ d.isSet F.CLK_STAT_REF_PRESENT = true) ∨ unitClass p = 8) :
    d.calibrate p ok rd = if ok = true then (d.calNote p cOK).testPass p rd.sel rd.temp
      else if unitClass p = 8 then d.rootRelock p else d.calFail p := by
  have present : ¬((unitClass p = 6 ∨ unitClass p = 7) ∧ (!d.isSet F.CLK_STAT_REF_PRESENT) = true) := by
    rintro ⟨h, hn⟩
    rcases hc with ⟨-, hr⟩ | hc
    · rw [hr] at hn
      cases hn
    · omega
  exact (if_neg (by omega)).trans (if_neg present)

theorem Device.calNote_root (hc : unitClass p = 8) : d.calNote p code = d := by
  rw [Device.calNote_eq, hc]
  rfl

/-! A TEST that passes (R526, R527). -/

theorem unitClass_lt (hp : p < 778) : unitClass p < 8 := by
  rw [unitClass]
  split_ifs <;> omega

/-- Registers of the rotation other than a unit's own state keep their values when that state changes. -/
theorem Device.rd_setUState_other (d : Device) (hp : p < 780) (st role : Nat) {a : Nat} (ha : 0xD00000 ≤ a) (h : a ≠ Reg.ROT_U_STAT p) :
    (d.setUState p st role).rd a = d.rd a := by
  have mirrored : ∀ y : Device, (y.mirrorState p st).rd a = y.rd a := fun y => by
    rw [Device.mirrorState]
    split
    · dsimp only
      split
      · rfl
      · exact y.rd_setFld_mk _ _ (by simp only [Reg.LNK_L_STAT]; omega)
    · dsimp only
      split
      · rfl
      · exact y.rd_setFld_mk _ _ (by simp only [Reg.EVT_I_STAT]; omega)
    · refine y.rd_setFld_other _ _ ?_
      split
      · simp only [F.CLK_STAT_A_ROT, Reg.CLK_STAT]; omega
      · simp only [F.CLK_STAT_B_ROT, Reg.CLK_STAT]; omega
    · rfl
  rw [Device.setUState]
  refine (mirrored _).trans ((Device.rd_setFld_mk _ _ _ h).trans ((Device.rd_setFld_mk _ _ _ h).trans ?_))
  split <;> rfl

/-- A unit that passes is READY and stamps its TEST. -/
def Device.testStamped (d : Device) (p : Nat) : Device := (d.setUState p 0 0xFFF).wrTime (Reg.ROT_U_LAST_LO p) d.time

/-- The TEST is counted. -/
def Device.testCounted (d : Device) (p : Nat) : Device :=
  (d.testStamped p).setFld (F.ROT_U_TESTS_PASSED p) (min 65535 ((d.testStamped p).fld (F.ROT_U_TESTS_PASSED p) + 1))

theorem Device.testPass_eq (hp : p < 778) (hb : (d.unitTest p).blame = none) : d.testPass p w temp =
    (Device.setUnitTest (if (d.unitTest p).fails = 1 then (d.testCounted p).inc Reg.ROT_RETEST_CNT else d.testCounted p) p
      { fresh := (calItem p 0).isSome, cap := some w, sel := w, temp := temp,
        untraced := decide (unitClass p = 5) && decide ((d.unitTest p).refUv = 0) }).rotShow (unitClass p) := by
  have root : (decide (unitClass p = 8) && d.isSet (if p = 778 then F.CLK_STAT_A_LOCK else F.CLK_STAT_B_LOCK)) = false := by
    rw [decide_eq_false (Nat.ne_of_lt (unitClass_lt hp)), Bool.false_and]
  rw [Device.testPass]
  simp only [root, hb]
  rfl

theorem Device.rd_testPass (hp : p < 778) (hb : (d.unitTest p).blame = none) {a : Nat} (h : a ≠ Reg.ROT_RETEST_CNT)
    (h' : a ≠ Reg.ROT_K_STAT (unitClass p)) : (d.testPass p w temp).rd a = (d.testCounted p).rd a := by
  rw [Device.testPass_eq hp hb, Device.rd_rotShow_other _ _ h', Device.rd_setUnitTest]
  split
  · exact Device.rd_inc_other _ h
  · rfl

theorem Device.rd_testCounted (d : Device) (hp : p < 778) {a : Nat} (ha : 0xD00000 ≤ a) (h : a < Reg.ROT_U_STAT p ∨ Reg.ROT_U_STAT p + 0x10 ≤ a) :
    (d.testCounted p).rd a = d.rd a := by
  have apart : a ≠ Reg.ROT_U_STAT p ∧ a ≠ Reg.ROT_U_TESTS p ∧ a ≠ Reg.ROT_U_LAST_LO p ∧ a ≠ Reg.ROT_U_LAST_LO p + 4 := by
    simp only [Reg.ROT_U_STAT, Reg.ROT_U_TESTS, Reg.ROT_U_LAST_LO] at h ⊢
    omega
  obtain ⟨stat, tests, last, last'⟩ := apart
  exact (Device.rd_setFld_mk _ _ _ tests).trans ((Device.rd_wrTime_other _ _ last last').trans
    (d.rd_setUState_other (by omega) _ _ ha stat))

section Passes
variable (hp : p < 778) (hb : (d.unitTest p).blame = none)
include hp hb

theorem Device.puState_testPass : (d.testPass p w temp).puState p = 0 := by
  have stat : Reg.ROT_U_STAT p ≠ Reg.ROT_U_TESTS p := by simp [Reg.ROT_U_STAT, Reg.ROT_U_TESTS]
  have last : Reg.ROT_U_STAT p ≠ Reg.ROT_U_LAST_LO p ∧ Reg.ROT_U_STAT p ≠ Reg.ROT_U_LAST_LO p + 4 := by
    simp only [Reg.ROT_U_STAT, Reg.ROT_U_LAST_LO]
    omega
  have k8 := unitClass_lt hp
  refine (Device.puState_congr ?_).trans (d.puState_setUState (by omega) 0 0xFFF)
  refine (Device.rd_testPass hp hb ?_ ?_).trans ((Device.rd_setFld_mk _ _ _ stat).trans (Device.rd_wrTime_other _ _ last.1 last.2))
  · simp only [Reg.ROT_U_STAT, Reg.ROT_RETEST_CNT]; omega
  · simp only [Reg.ROT_U_STAT, Reg.ROT_K_STAT]; omega

theorem Device.last_testPass : (d.testPass p w temp).rdTime (Reg.ROT_U_LAST_LO p) = d.time := by
  have k8 := unitClass_lt hp
  have same : ∀ a, Reg.ROT_U_LAST_LO p ≤ a → (d.testPass p w temp).rd a = (d.testStamped p).rd a := fun a ha => by
    simp only [Reg.ROT_U_LAST_LO] at ha
    refine (Device.rd_testPass hp hb ?_ ?_).trans (Device.rd_setFld_mk _ _ _ ?_)
    · simp only [Reg.ROT_RETEST_CNT]; omega
    · simp only [Reg.ROT_K_STAT]; omega
    · simp only [Reg.ROT_U_TESTS]; omega
  exact (Device.rdTime_congr (same _ (le_refl _)) (same _ (by omega))).trans (Device.rdTime_wrTime _ _ _)

theorem Device.passed_testPass :
    (d.testPass p w temp).fld (F.ROT_U_TESTS_PASSED p) = min 65535 (d.fld (F.ROT_U_TESTS_PASSED p) + 1) := by
  have k8 := unitClass_lt hp
  have tests : Reg.ROT_U_TESTS p ≠ Reg.ROT_U_LAST_LO p ∧ Reg.ROT_U_TESTS p ≠ Reg.ROT_U_LAST_LO p + 4 := by
    simp only [Reg.ROT_U_TESTS, Reg.ROT_U_LAST_LO]
    omega
  have before : (d.testStamped p).fld (F.ROT_U_TESTS_PASSED p) = d.fld (F.ROT_U_TESTS_PASSED p) := by
    refine Device.fld_congr ((Device.rd_wrTime_other _ _ tests.1 tests.2).trans (d.rd_setUState_other (by omega) _ _ ?_ ?_))
    · simp only [Reg.ROT_U_TESTS]; omega
    · simp [Reg.ROT_U_TESTS, Reg.ROT_U_STAT]
  refine (Device.fld_congr (Device.rd_testPass hp hb ?_ ?_)).trans ((Device.fld_setFld _ _ _ (by simp [F.ROT_U_TESTS_PASSED])).trans ?_)
  · simp only [F.ROT_U_TESTS_PASSED, Reg.ROT_U_TESTS, Reg.ROT_RETEST_CNT]; omega
  · simp only [F.ROT_U_TESTS_PASSED, Reg.ROT_U_TESTS, Reg.ROT_K_STAT]; omega
  · rw [before]
    exact Nat.mod_eq_of_lt (lt_of_le_of_lt (Nat.min_le_left _ _) (by simp [F.ROT_U_TESTS_PASSED]))

theorem Device.retests_testPass (hf : (d.unitTest p).fails = 1) :
    (d.testPass p w temp).rdN Reg.ROT_RETEST_CNT = min (d.rdN Reg.ROT_RETEST_CNT + 1) 0xFFFFFFFF := by
  have show' : Reg.ROT_RETEST_CNT ≠ Reg.ROT_K_STAT (unitClass p) := by simp only [Reg.ROT_RETEST_CNT, Reg.ROT_K_STAT]; omega
  rw [Device.testPass_eq hp hb, if_pos hf, Device.rdN_congr (Device.rd_rotShow_other _ _ show'),
    Device.rdN_congr (Device.rd_setUnitTest _ _ _ _), Device.rdN_inc, Device.rdN_congr (d.rd_testCounted hp (by decide) (.inl ?_))]
  simp only [Reg.ROT_RETEST_CNT, Reg.ROT_U_STAT]
  omega

theorem Device.testPass_frame : ∃ regs rot, d.testPass p w temp = { d with regs := regs, rot := rot } := by
  have counted : d.OnlyRegs (d.testCounted p) :=
    ((d.setUState_onlyRegs p 0xFFF (st := 0) (by decide)).wrTime _ _).setFld _ _
  have retested : d.OnlyRegs (if (d.unitTest p).fails = 1 then (d.testCounted p).inc Reg.ROT_RETEST_CNT else d.testCounted p) := by
    split
    · exact counted.inc _
    · exact counted
  obtain ⟨_, e⟩ := retested
  obtain ⟨regs, e'⟩ := (Device.setUnitTest (if (d.unitTest p).fails = 1 then (d.testCounted p).inc Reg.ROT_RETEST_CNT else d.testCounted p) p
      { fresh := (calItem p 0).isSome, cap := some w, sel := w, temp := temp,
        untraced := decide (unitClass p = 5) && decide ((d.unitTest p).refUv = 0) }).rotShow_frame (unitClass p)
  rw [Device.testPass_eq hp hb, e', e]
  exact ⟨_, _, rfl⟩

end Passes

/-! The calibration of a converter (R513, R515). -/

section Converter
variable {ref f : Nat}

theorem calConverter_ground (h : 5 * 2 ^ 30 < (rd.ground * 1000000).natAbs) : calConverter ref f rd = none := if_pos h

theorem calConverter_noReference (h : (rd.ground * 1000000).natAbs ≤ 5 * 2 ^ 30) (hr : ref = 0) : calConverter ref f rd = some (cOK, f) :=
  (if_neg (Nat.not_lt.mpr h)).trans (if_pos hr)

/-- The selection that the search of R515 ends with, or a neighbour that reads nearer. -/
abbrev calChosen (ref : Nat) (rd : Readings) : Nat :=
  calNearest ref rd (calSearch ref rd 16 0) ((if calSearch ref rd 16 0 = 0 then [] else [calSearch ref rd 16 0 - 1]) ++
    (if calSearch ref rd 16 0 < 65535 then [calSearch ref rd 16 0 + 1] else []))

theorem calConverter_searched (hg : ¬5 * 2 ^ 30 < (rd.ground * 1000000).natAbs) (hr : ref ≠ 0)
    (hf : ¬2 * (ref * 2 ^ 30) < 100 * refError ref rd.factory) : calConverter ref f rd =
      if ref * 2 ^ 30 < 100000 * refError ref (readAt rd (calChosen ref rd)) then none else some (cOK, calChosen ref rd) :=
  (if_neg hg).trans ((if_neg hr).trans (if_neg hf))

/-- A converter's calibration against a reference succeeds only within its limits. -/
theorem calConverter_limits (h : calConverter ref f rd = some (cOK, w)) (hr : ref ≠ 0) : (rd.ground * 1000000).natAbs ≤ 5 * 2 ^ 30 ∧
    100 * refError ref rd.factory ≤ 2 * (ref * 2 ^ 30) ∧ 100000 * refError ref (readAt rd w) ≤ ref * 2 ^ 30 := by
  by_cases hg : 5 * 2 ^ 30 < (rd.ground * 1000000).natAbs
  · rw [calConverter_ground hg] at h
    cases h
  by_cases hf : 2 * (ref * 2 ^ 30) < 100 * refError ref rd.factory
  · rw [calConverter, if_neg hg, if_neg hr, if_pos hf] at h
    cases h
  by_cases hn : ref * 2 ^ 30 < 100000 * refError ref (readAt rd (calChosen ref rd))
  · rw [calConverter_searched hg hr hf, if_pos hn] at h
    cases h
  · rw [calConverter_searched hg hr hf, if_neg hn] at h
    obtain ⟨-, rfl⟩ := Prod.mk.inj (Option.some.inj h)
    exact ⟨Nat.not_lt.mp hg, Nat.not_lt.mp hf, Nat.not_lt.mp hn⟩

end Converter

end Sys2Proof.Machine
end


section
/-! PROOFS. Rotation steps and self-tests (R513, R515, R519, R521, R523, R524, R526, R527, R529). -/

namespace Sys2Proof.Machine

/-- Settles O51: step instants, the step of a group, shadow windows, a TEST that completes by its signature and its calibration, and the limits of
a converter's calibration. -/
theorem rotationEvents : Obligations.RotationEvents := by
  intro s k g p sig ok differ rd x d t c e due retested idle good y done fails waits noted ref verdict
  have logic : ∀ f : Device → Device, c ≤ 5 →
      exec (.selfTestDone p sig ok rd) s = .next { s with dev := f (d.flag F.BST_FLAGS_RUN Reg.BST_RUN_CNT) } → done f := fun f hc h =>
    .of_eq h (congrArg f (if_pos hc).symm)
  have plain : ∀ f : Device → Device, 5 < c → exec (.selfTestDone p sig ok rd) s = .next { s with dev := f d } → done f := fun f hc h =>
    .of_eq h (congrArg f (if_neg (Nat.not_le.mpr hc)).symm)
  have signed : ¬idle → c ≤ 5 → good → exec (.selfTestDone p sig ok rd) s = .next { s with dev :=
      (if c = 5 then (d.flag F.BST_FLAGS_RUN Reg.BST_RUN_CNT).calibrate p ok rd
      else (d.flag F.BST_FLAGS_RUN Reg.BST_RUN_CNT).testPass p 0 rd.temp) } := fun hi hc hg =>
    (exec_selfTestDone_logic hi hc rfl).trans (by rw [if_neg (not_not.mpr hg)])
  have calibrated : ∀ f : Device → Device, ¬idle → c = 5 → good → (d.flag F.BST_FLAGS_RUN Reg.BST_RUN_CNT).calibrate p ok rd =
      f (d.flag F.BST_FLAGS_RUN Reg.BST_RUN_CNT) → done f := fun f hi hc hg h =>
    logic f hc.le ((signed hi hc.le hg).trans (by rw [if_pos hc, h]))
  have checked : ∀ f : Device → Device, ¬idle → 5 < c → d.calibrate p ok rd = f d → done f := fun f hi hc h =>
    plain f hc ((exec_selfTestDone_calibrates hi hc).trans (by rw [h]))
  have note : ∀ (code : Nat) (z : Device), z.calNote p code = noted code z := fun code z => z.calNote_eq p code
  have failing : ∀ (z : Device) cause, z.unitTest p = t → z.testFail p cause = fails cause z := fun z cause h => by
    rw [Device.testFail, h]
  have waiting : ∀ z : Device, z.unitTest p = t → z.testWait p = waits z := fun z h => by rw [Device.testWait, h]
  refine ⟨fun _ _ h => Device.stepInstant_first h, fun hd hs => ⟨Device.timeLE_stepAfter hd.2.2 hs, d.stepInstant_grid k g d.time, rfl⟩,
    fun h => exec_rotationStep_early h, fun hd hr => exec_rotationStep_paused hd hr, fun hd hr ht => ⟨fun h => ?_, fun h hg => ?_, fun h hg => ?_⟩,
    fun h3 ha hc => Device.testAgain_runs h3 ha hc, fun hk hc => Device.stepStart_conditions hk hc none false, fun a b ha hb _ hc => ?_,
    fun h => exec_shadowWindowEnd_none h differ, fun h hp => ⟨fun hd hk hw => ?_, fun hd hk => ?_, fun hd hm => ?_⟩, fun h hp => ?_,
    fun h => exec_selfTestDone_idle h sig ok rd, fun hi hc hg => ?_, fun hi hc hg => ?_, fun hi hc hg => ⟨fun hv => ?_, fun w hv => ?_, fun w hv => ?_⟩,
    fun hi hc => ⟨fun hr => ?_, fun hr ho => ?_, fun hr ho => ?_⟩, fun hi hc => ⟨fun ho => ?_, fun ho => ?_⟩, fun hp _ hb w temp z hz => ?_,
    fun f w => ⟨calConverter_ground, calConverter_noReference, calConverter_limits⟩⟩
  · refine .of_eq (exec_rotationStep hd hr ht) (if_neg ?_)
    rw [show s.dev.rotStepOf k = none from h]
    decide
  · exact .of_eq (exec_rotationStep hd hr ht) ((if_pos (Option.isSome_iff_ne_none.mpr h)).trans (if_pos hg))
  · exact .of_eq (exec_rotationStep hd hr ht) ((if_pos (Option.isSome_iff_ne_none.mpr h)).trans (if_neg hg))
  · rw [Device.stepStart_ok (.inr hc) ha (.inr ⟨rfl, hb⟩)]
    exact ⟨rfl, (Device.rotStepOf_rotShow _ _ _).trans (Device.rotStepOf_setRotStep _ _ _)⟩
  · obtain ⟨regs, frame⟩ := Device.shadowDone_frame h hp
    have ended : exec (.shadowWindowEnd k differ) s = .next { s with dev := s.dev.shadowDone k } :=
      (exec_shadowWindowEnd h differ).trans (by rw [if_neg (Bool.eq_false_iff.mp hd), if_pos ⟨hk, hw⟩])
    refine .of_eq ended ?_
    rw [frame]
    exact ⟨Device.rotStepOf_setRotStep d k _, rfl⟩
  · refine .of_eq (exec_shadowWindowEnd h differ) ((if_neg (Bool.eq_false_iff.mp hd)).trans (if_neg ?_))
    rintro ⟨h6, hw⟩
    exact hk.elim h6 fun hn => Bool.eq_false_iff.mp hn hw
  · exact .of_eq (exec_shadowWindowEnd h differ) ((if_pos hd).trans (Device.shadowMiss_window h hp hm))
  · refine .of_eq (exec_shadowWindowEnd h differ) ?_
    rw [Device.shadowMiss_other h hp, Device.shadowDone_other h hp, ite_self, ite_self]
    rfl
  · exact logic (fun z => fails 1 (z.flag F.BST_FLAGS_FAIL Reg.BST_FAIL_CNT)) hc ((exec_selfTestDone_logic hi hc rfl).trans (by rw [if_pos hg]; rfl))
  · have other : ¬c = 5 := by omega
    exact logic (fun z => z.testPass p 0 rd.temp) (by omega) ((signed hi (by omega) hg).trans (by rw [if_neg other]))
  · exact calibrated (fails 2) hi hc hg (Device.calibrate_fails hc hv)
  · exact calibrated (fun z => z.testPass p w rd.temp) hi hc hg (Device.calibrate_selects hc hv)
  · exact calibrated (fun z => waits (z.flag F.CAL_FLAGS_REF_BAD Reg.CAL_REF_BAD_CNT)) hi hc hg (Device.calibrate_badReference hc hv)
  · refine checked (fun z => waits ((noted cREFLOST z).flag F.CAL_FLAGS_SKIPPED Reg.CAL_SKIP_CNT)) hi (by omega) ((Device.calibrate_noReference hc hr).trans ?_)
    have same : ((d.calNote p cREFLOST).flag F.CAL_FLAGS_SKIPPED Reg.CAL_SKIP_CNT).unitTest p = t := d.unitTest_calNote p cREFLOST p
    rw [waiting _ same, note]
  · refine checked (fun z => (noted cOK z).testPass p rd.sel rd.temp) hi (by omega) ((Device.calibrate_checked (.inl ⟨hc, hr⟩)).trans ((if_pos ho).trans ?_))
    rw [note]
  · have failed : d.calibrate p ok rd = d.calFail p :=
      (Device.calibrate_checked (.inl ⟨hc, hr⟩)).trans ((if_neg (Bool.eq_false_iff.mp ho)).trans (if_neg (by omega)))
    refine .of_eq ((exec_selfTestDone_calibrates hi (by omega)).trans (by rw [failed])) ⟨1 + d.draw.1 % 19, ?_, ?_⟩
    · exact Nat.ne_of_gt (Nat.add_pos_left Nat.one_pos _)
    · rw [← note]
      exact failing _ 2 (d.draw.2.unitTest_calNote p _ p)
  · refine checked (fun z => z.testPass p rd.sel rd.temp) hi (by omega) ((Device.calibrate_checked (.inr hc)).trans ((if_pos ho).trans ?_))
    rw [Device.calNote_root hc]
  · exact checked (fun z => z.rootRelock p) hi (by omega) ((Device.calibrate_checked (.inr hc)).trans ((if_neg (Bool.eq_false_iff.mp ho)).trans (if_pos hc)))
  · subst hz
    obtain ⟨regs, rot, frame⟩ := Device.testPass_frame (w := w) (temp := temp) hp hb
    refine ⟨Device.puState_testPass hp hb, Device.last_testPass hp hb, Device.passed_testPass hp hb, fun hf => Device.retests_testPass hp hb hf, ?_⟩
    rw [frame]

end Sys2Proof.Machine
end


section
/-! SUPPORT. Results and passes of the monitor converters, and MONSYNC (R497 to R502, R505, R507 to R509). -/

namespace Sys2Proof.Machine

variable {d : Device} {s : State} {m slot w : Nat} {x : Mon} {v : Int} {inj : Bool} {t : Time} {codes shadow : List Int}

/-! What a result leaves of a converter: its state, its lengths and its place in the sequence (R501, R505). -/

/-- The entry and the count of each sequence, of which the next result is. -/
def Mon.place (x : Mon) : Nat × Nat × Nat × Nat := (x.entry, x.given, x.injEntry, x.injGiven)

theorem Mon.place_chain (x : Mon) (f : MonFilter) (g : Option MonFilter) : Mon.place { x with flt := f, shd := g } = x.place := rfl

/-- A device whose rotation, whose converter's state and lengths, and whose converter's place are those of another. -/
structure Device.MonKept (m : Nat) (d e : Device) : Prop where
  rot : e.rot = d.rot
  fld : ∀ f : FieldAt, f.addr = Reg.MON_M_STAT m ∨ f.addr = Reg.MON_M_SEQ_LEN m → e.fld f = d.fld f
  place : (e.mon m).place = (d.mon m).place

namespace Device.MonKept

theorem refl (d : Device) : MonKept m d d := ⟨rfl, fun _ _ => rfl, rfl⟩

theorem trans {a b c : Device} (h : MonKept m a b) (h' : MonKept m b c) : MonKept m a c :=
  ⟨h'.rot.trans h.rot, fun f hf => (h'.fld f hf).trans (h.fld f hf), h'.place.trans h.place⟩

theorem ofRegs {e : Device} (h : d.OnlyRegs e) (hr : ∀ a, a = Reg.MON_M_STAT m ∨ a = Reg.MON_M_SEQ_LEN m → e.rd a = d.rd a) : MonKept m d e := by
  obtain ⟨regs, rfl⟩ := h
  exact ⟨rfl, fun f hf => Device.fld_congr (hr _ hf), rfl⟩

theorem ite {a b c : Device} {q : Prop} [Decidable q] (h : MonKept m a b) (h' : MonKept m a c) : MonKept m a (if q then b else c) := by
  split
  · exact h
  · exact h'

theorem setMon (h : x.place = (d.mon m).place) : MonKept m d (d.setMon m x) :=
  ⟨rfl, fun _ _ => rfl, (congrArg Mon.place (Device.mon_setMon d m x)).trans h⟩

theorem rotStepOf {e : Device} (h : MonKept m d e) (k : Nat) : e.rotStepOf k = d.rotStepOf k := by
  rw [Device.rotStepOf, h.rot, Device.rotStepOf]

theorem stat {e : Device} (h : MonKept m d e) (f : Field) : e.isSet ⟨Reg.MON_M_STAT m, f⟩ = d.isSet ⟨Reg.MON_M_STAT m, f⟩ :=
  congrArg (fun n => decide (n = 1)) (h.fld ⟨Reg.MON_M_STAT m, f⟩ (.inl rfl))

end Device.MonKept

theorem Device.qSettle_frame (d : Device) (q : Nat) : (d.qSettle q).rot = d.rot ∧ (d.qSettle q).mons = d.mons := by
  refine List.foldlRecOn (motive := fun e : Device => e.rot = d.rot ∧ e.mons = d.mons) _ _ ⟨rfl, rfl⟩ fun e he kv _ => ?_
  dsimp only
  split
  · exact he
  · split
    · split <;> exact he
    · exact he

theorem Device.OnlyRegs.mons {y : Device} (h : d.OnlyRegs y) : y.mons = d.mons := by
  obtain ⟨_, rfl⟩ := h
  rfl

theorem Device.OnlyRegs.settles {y : Device} (h : d.OnlyRegs y) (q : Nat) : (y.qSettle q).rot = d.rot ∧ (y.qSettle q).mons = d.mons := by
  obtain ⟨rot, mons⟩ := y.qSettle_frame q
  exact ⟨rot.trans h.rot, mons.trans h.mons⟩

/-- A record offered to a queue leaves the converters and the rotation. -/
theorem Device.qOffer_frame (d : Device) (q : Nat) (bs : List Byte) (cls unit : Nat) :
    (d.qOffer q bs cls unit).rot = d.rot ∧ (d.qOffer q bs cls unit).mons = d.mons := by
  rw [Device.qOffer]
  dsimp only
  split
  · have counted := (Device.OnlyRegs.refl d).flag F.QUE_FLAGS_DISABLED_DROP Reg.QUE_DISABLED_DROP_CNT
    exact ⟨counted.rot, counted.mons⟩
  · split
    · rw [Device.qAccept]
      exact (((Device.OnlyRegs.refl _).wr _ _).add64 _ _).settles q
    · have dropped := ((Device.OnlyRegs.refl (d.setQueue q { d.queue q with dropped := true })).inc (Reg.QUE_Q_DROP q)).flag F.QUE_FLAGS_DROP
        Reg.QUE_DROP_CNT
      exact ⟨dropped.rot, dropped.mons⟩

theorem Device.MonKept.qOffer (y : Device) {q : Nat} (hq : q < 4096) (bs : List Byte) (cls unit : Nat) :
    Device.MonKept m y (y.qOffer q bs cls unit) := by
  obtain ⟨rot, mons⟩ := y.qOffer_frame q bs cls unit
  refine ⟨rot, fun f hf => Device.fld_qOffer_above _ _ _ _ hq ?_, ?_⟩
  · rcases hf with hf | hf <;> rw [hf]
    · simp only [Reg.MON_M_STAT]; omega
    · simp only [Reg.MON_M_SEQ_LEN]; omega
  · rw [Device.mon, mons, Device.mon]

theorem Device.monClose_kept (d : Device) (m : Nat) (inj : Bool) : Device.MonKept m d (d.monClose m inj) := by
  have queue : ∀ y : Device, y.fld (F.MON_M_QUEUE_QUEUE m) < 4096 := fun y => y.fld_lt (F.MON_M_QUEUE_QUEUE m)
  cases inj with
  | false =>
    rw [Device.monClose]
    simp only [Bool.false_eq_true, if_false]
    split
    · exact .setMon rfl
    · exact (Device.MonKept.setMon (x := { d.mon m with items := [] }) rfl).trans (.qOffer _ (queue _) _ _ _)
  | true =>
    rw [Device.monClose]
    simp only [if_true]
    split
    · exact .setMon rfl
    · exact (Device.MonKept.setMon (x := { d.mon m with injItems := [] }) rfl).trans (.qOffer _ (queue _) _ _ _)

theorem Device.monItem_kept (d : Device) (m : Nat) (inj : Bool) (bs : List Byte) (t : Time) : Device.MonKept m d (d.monItem m inj bs t) := by
  rw [Device.monItem]
  dsimp only
  refine .ite (.refl d) ?_
  have added : Device.MonKept m d (d.setMon m (if inj then
        { d.mon m with injItems := (d.mon m).injItems ++ [bs], injBegun := if (d.mon m).injItems.isEmpty then t else (d.mon m).injBegun }
      else { d.mon m with items := (d.mon m).items ++ [bs], begun := if (d.mon m).items.isEmpty then t else (d.mon m).begun })) :=
    .setMon (by cases inj <;> rfl)
  exact .ite (added.trans (Device.monClose_kept _ _ _)) added

/-! A result in its slot (R495, R500, R508, R509). -/

/-- Whether a result began before the converter that took the role over had its own (R512). -/
def Device.monSwapped (d : Device) (x : Mon) (w : Nat) : Bool :=
  match x.swapAt with
  | some t => timeLE (d.convBegun w) t
  | none => false

/-- The flags of a result (R508). -/
def Device.monFlags (d : Device) (m : Nat) (x : Mon) (w : Nat) (v : Int) : Nat :=
  (if (monClamp w v).2 then 1 else 0) + (if d.isSet F.CLK_STAT_HOLDOVER then 2 else 0) + (if d.monUntraced m then 4 else 0) +
    (if d.monSwapped x w then 8 else 0)

/-- The slot's registers, with the flag of a value outside its input's range. -/
def Device.monShows (d : Device) (m slot : Nat) (v : Int × Bool) (flags count : Nat) (stamp : Time) : Device :=
  let y := ((d.wr (Reg.MON_M_RESULT m slot) (wrap 32 v.1)).wr (Reg.MON_M_INFO m slot) (1 + 2 * flags + (count + 1) % 65536 * 65536)).wrTime
    (Reg.MON_M_STAMP_LO m slot) stamp
  if v.2 then y.flag F.MON_FLAGS_OVERRANGE Reg.MON_OVR_CNT else y

/-- The supply's check, where the result is VDD_CORE (R509). -/
def Device.monSupply (d : Device) (w : Nat) (v : Int) (t : Time) : Device :=
  if enInput w = 24 then
    { d with vdd := some (decide (88 * 2 ^ 30 ≤ 100 * (monClamp w v).1) && decide (100 * (monClamp w v).1 ≤ 93 * 2 ^ 30), t) }
  else d

/-- The converter that took the role over has its own results. -/
def Device.monSettled (d : Device) (m : Nat) (swapped : Bool) : Device := if swapped then d else d.setMon m { d.mon m with swapAt := none }

/-- A result's record item (R508). -/
def Device.monRow (d : Device) (m : Nat) (x : Mon) (slot w : Nat) (v : Int) : List Byte :=
  bytesLE 1 slot ++ bytesLE 1 (enInput w) ++ bytesLE 1 (enPreset w) ++ bytesLE 1 (d.monFlags m x w v) ++ bytesLE 4 (wrap 32 (monClamp w v).1) ++
    bytesLE 8 (d.monStamp w).toNat

theorem Device.time_monSettled (d : Device) (m : Nat) (b : Bool) : (d.monSettled m b).time = d.time := by
  cases b <;> rfl

theorem Device.time_monShows (d : Device) (m slot : Nat) (v : Int × Bool) (flags count : Nat) (stamp : Time) :
    (d.monShows m slot v flags count stamp).time = d.time := by
  rw [Device.monShows]
  split <;> rfl

theorem Device.monStore_eq (d : Device) (h : d.mon m = x) (slot w : Nat) (v : Int) (inj : Bool) : d.monStore m slot w v inj =
    (((d.monShows m slot (monClamp w v) (d.monFlags m x w v) (d.fld (F.MON_M_INFO_COUNT m slot)) (d.monStamp w)).monSettled m (d.monSwapped x w)).monSupply w v d.time).monItem m inj
      (d.monRow m x slot w v) (d.convBegun w) := by
  subst h
  have time : ((d.monShows m slot (monClamp w v) (d.monFlags m (d.mon m) w v) (d.fld (F.MON_M_INFO_COUNT m slot)) (d.monStamp w)).monSettled m
      (d.monSwapped (d.mon m) w)).time = d.time := (Device.time_monSettled _ _ _).trans (Device.time_monShows _ _ _ _ _ _ _)
  rw [← time]
  rfl

theorem Device.monStore_kept (d : Device) (m : Nat) (hs : slot < 36) (w : Nat) (v : Int) (inj : Bool) :
    Device.MonKept m d (d.monStore m slot w v inj) := by
  have apart : ∀ a, a = Reg.MON_M_STAT m ∨ a = Reg.MON_M_SEQ_LEN m → 0xC01000 ≤ a ∧ a < Reg.MON_M_RESULT m 0 := by
    rintro a (rfl | rfl)
    · simp only [Reg.MON_M_STAT, Reg.MON_M_RESULT]; omega
    · simp only [Reg.MON_M_SEQ_LEN, Reg.MON_M_RESULT]; omega
  have shows' : ∀ (u : Int × Bool) flags count stamp, Device.MonKept m d (d.monShows m slot u flags count stamp) := fun u flags count stamp => by
    have kept : Device.MonKept m d (((d.wr (Reg.MON_M_RESULT m slot) (wrap 32 u.1)).wr (Reg.MON_M_INFO m slot)
        (1 + 2 * flags + (count + 1) % 65536 * 65536)).wrTime (Reg.MON_M_STAMP_LO m slot) stamp) := by
      refine .ofRegs ((((Device.OnlyRegs.refl d).wr _ _).wr _ _).wrTime _ _) fun a ha => ?_
      obtain ⟨-, lt⟩ := apart a ha
      simp only [Reg.MON_M_RESULT] at lt
      refine (Device.rd_wrTime_other _ _ ?_ ?_).trans ((Device.rd_wr_other _ _ _ _ ?_).trans (Device.rd_wr_other _ _ _ _ ?_))
      · simp only [Reg.MON_M_STAMP_LO]; omega
      · simp only [Reg.MON_M_STAMP_LO]; omega
      · simp only [Reg.MON_M_INFO]; omega
      · simp only [Reg.MON_M_RESULT]; omega
    refine .ite (kept.trans (.ofRegs ((Device.OnlyRegs.refl _).flag _ _) fun a ha => Device.rd_flag_other _ _ _ ?_ ?_)) kept
    · have := (apart a ha).1
      simp only [F.MON_FLAGS_OVERRANGE, Reg.MON_FLAGS]; omega
    · have := (apart a ha).1
      simp only [Reg.MON_OVR_CNT]; omega
  have settled : ∀ y : Device, ∀ b, Device.MonKept m y (y.monSettled m b) := fun y b => .ite (.refl y) (.setMon rfl)
  have supplied : ∀ (y : Device) t, Device.MonKept m y (y.monSupply w v t) := fun y _ => .ite ⟨rfl, fun _ _ => rfl, rfl⟩ (.refl y)
  rw [d.monStore_eq rfl]
  exact (shows' _ _ _ _).trans ((settled _ _).trans ((supplied _ _).trans (Device.monItem_kept _ _ _ _ _)))

theorem Device.isSet_eq_of_fld_eq {y : Device} {f : FieldAt} (h : y.fld f = d.fld f) : y.isSet f = d.isSet f := by
  rw [Device.isSet, h, Device.isSet]

/-! A result takes its place in its sequence (R501, R502, R505). -/

/-- With no rotation of a converter in progress a filter reset clears one chain. -/
theorem Device.monFresh_eq (hr : d.rotStepOf 5 = none) : d.monFresh m =
    (d.setMon m { d.mon m with flt := {}, shd := none }).setFld (F.MON_M_STAT_SLOT m)
      (if d.isSet (F.MON_M_STAT_INJ_ACTIVE m) then 32 + (d.mon m).injEntry else (d.mon m).entry) := by
  have alone : d.monShadowed m = false := by rw [Device.monShadowed, hr]
  rw [Device.monFresh, alone]
  rfl

theorem Device.monFresh_setMon (hr : d.rotStepOf 5 = none) (x : Mon) : (d.setMon m x).monFresh m =
    ((d.setMon m x).setMon m { x with flt := {}, shd := none }).setFld (F.MON_M_STAT_SLOT m)
      (if d.isSet (F.MON_M_STAT_INJ_ACTIVE m) then 32 + x.injEntry else x.entry) := by
  rw [Device.monFresh_eq (d := d.setMon m x) hr, Device.mon_setMon]
  rfl

theorem Device.monShadow_none (d : Device) (m : Nat) : d.monShadow m none = d := by
  rw [Device.monShadow.eq_def]
  cases d.rotStepOf 5 with
  | none => rfl
  | some _ => rfl

/-- The next place of the regular sequence. -/
def Device.monNext (y : Device) (m : Nat) (x : Mon) (w : Nat) : Device :=
  if x.given + 1 < enCount w then y.setMon m { y.mon m with given := x.given + 1 }
  else if x.entry + 1 < y.monLen m then (y.setMon m { y.mon m with entry := x.entry + 1, given := 0 }).monFresh m
  else y.passEnd m

theorem Device.monTake_regular (hi : d.isSet (F.MON_M_STAT_INJ_ACTIVE m) = false) (ha : (d.mon m).active = true) :
    d.monTake m v none =
      let w := d.rdN (Reg.MON_M_REG m (d.mon m).entry)
      let y := d.monStore m (d.mon m).entry w v false
      let z := y.monNext m (y.mon m) w
      if z.isSet (F.MON_M_STAT_INJ_PENDING m) then z.injStart m else z := by
  refine (if_neg (Bool.eq_false_iff.mp hi)).trans ((if_pos ha).trans ?_)
  dsimp only
  rw [Device.monShadow_none]
  rfl

/-- The next place of the injected sequence. -/
def Device.injNext (y : Device) (m : Nat) (x : Mon) (w : Nat) : Device :=
  if x.injGiven + 1 < enCount w then y.setMon m { y.mon m with injGiven := x.injGiven + 1 }
  else if x.injEntry + 1 < y.monInjLen m then (y.setMon m { y.mon m with injEntry := x.injEntry + 1, injGiven := 0 }).monFresh m
  else y.injEnd m

theorem Device.monTake_injected (hi : d.isSet (F.MON_M_STAT_INJ_ACTIVE m) = true) : d.monTake m v none =
    (d.monStore m (32 + (d.mon m).injEntry) (d.rdN (Reg.MON_M_INJ m (d.mon m).injEntry)) v true).injNext m
      ((d.monStore m (32 + (d.mon m).injEntry) (d.rdN (Reg.MON_M_INJ m (d.mon m).injEntry)) v true).mon m)
      (d.rdN (Reg.MON_M_INJ m (d.mon m).injEntry)) := by
  refine (if_pos hi).trans ?_
  rw [Device.monShadow_none]
  rfl

/-- A filter reset leaves whether an injected sequence waits. -/
theorem Device.pending_monFresh (d : Device) (m : Nat) :
    (d.monFresh m).isSet (F.MON_M_STAT_INJ_PENDING m) = d.isSet (F.MON_M_STAT_INJ_PENDING m) :=
  Device.isSet_eq_of_fld_eq (Device.fld_setFld_disjoint _ _ _ _ (by simp [F.MON_M_STAT_SLOT]) (by simp [F.MON_M_STAT_SLOT, F.MON_M_STAT_INJ_PENDING]))

/-- The end of a pass leaves whether an injected sequence waits. -/
theorem Device.pending_passEnd (d : Device) (m : Nat) :
    (d.passEnd m).isSet (F.MON_M_STAT_INJ_PENDING m) = d.isSet (F.MON_M_STAT_INJ_PENDING m) := by
  have counted : ∀ (y : Device) (x : Mon) (n : Nat), ((y.setMon m x).wr (Reg.MON_M_PASSES m) n).isSet (F.MON_M_STAT_INJ_PENDING m) =
      y.isSet (F.MON_M_STAT_INJ_PENDING m) := fun y x n => by
    refine (Device.isSet_congr (Device.rd_wr_other _ _ _ _ ?_)).trans rfl
    simp [F.MON_M_STAT_INJ_PENDING, Reg.MON_M_STAT, Reg.MON_M_PASSES]
  have begun : ∀ (y : Device) (b : Time), (y.passStart m b).isSet (F.MON_M_STAT_INJ_PENDING m) = y.isSet (F.MON_M_STAT_INJ_PENDING m) := fun y b =>
    (Device.pending_monFresh _ _).trans rfl
  have late : ∀ y : Device, (y.flag F.MON_FLAGS_LATE Reg.MON_LATE_CNT).isSet (F.MON_M_STAT_INJ_PENDING m) =
      y.isSet (F.MON_M_STAT_INJ_PENDING m) := fun y => by
    refine Device.isSet_congr (Device.rd_flag_other _ _ _ ?_ ?_)
    · simp only [F.MON_M_STAT_INJ_PENDING, Reg.MON_M_STAT, F.MON_FLAGS_LATE, Reg.MON_FLAGS]; omega
    · simp only [F.MON_M_STAT_INJ_PENDING, Reg.MON_M_STAT, Reg.MON_LATE_CNT]; omega
  have closed := (counted (d.monClose m false) { (d.monClose m false).mon m with active := false, passNo := ((d.monClose m false).mon m).passNo + 1 }
    (((d.monClose m false).setMon m { (d.monClose m false).mon m with active := false, passNo := ((d.monClose m false).mon m).passNo + 1 }).rdN
      (Reg.MON_M_PASSES m) + 1)).trans ((d.monClose_kept m false).stat _)
  rw [Device.passEnd]
  split
  · refine (Device.isSet_eq_of_fld_eq (Device.fld_setFld_disjoint _ _ _ _ ?_ ?_)).trans closed
    · simp [F.MON_M_STAT_STATE]
    · simp [F.MON_M_STAT_STATE, F.MON_M_STAT_INJ_PENDING]
  · split
    · exact (begun _ _).trans closed
    · split
      · exact (begun _ _).trans ((late _).trans closed)
      · split
        · exact (begun _ _).trans closed
        · exact closed

/-! A result completes (R497). -/

theorem exec_monResult (hm : m < 8) : exec (.monResult m codes shadow) s = .next { s with dev := s.dev.monResult m codes shadow } := by
  show execMonResult m codes shadow s = _
  exact State.run_of_eq (if_pos hm)

theorem exec_monResult_none (hm : 8 ≤ m) : exec (.monResult m codes shadow) s = .next s := by
  show execMonResult m codes shadow s = _
  exact State.run_of_eq (if_neg (Nat.not_lt.mpr hm))

theorem Device.monWord_idle (hi : d.isSet (F.MON_M_STAT_INJ_ACTIVE m) = false) (ha : (d.mon m).active = false) : d.monWord m = none := by
  rw [Device.monWord]
  rw [hi, ha]
  rfl

theorem Device.monWord_regular (hi : d.isSet (F.MON_M_STAT_INJ_ACTIVE m) = false) (ha : (d.mon m).active = true) :
    d.monWord m = some (d.rdN (Reg.MON_M_REG m (d.mon m).entry)) := by
  rw [Device.monWord]
  rw [hi, ha]
  rfl

theorem Device.monWord_injected (hi : d.isSet (F.MON_M_STAT_INJ_ACTIVE m) = true) :
    d.monWord m = some (d.rdN (Reg.MON_M_INJ m (d.mon m).injEntry)) := by
  rw [Device.monWord]
  rw [hi]
  rfl

theorem Device.monResult_idle (h : d.monWord m = none) : d.monResult m codes shadow = d := by
  rw [Device.monResult, h]

theorem Device.monResult_length (h : d.monWord m = some w) (hn : codes.length ≠ d.monNeed m w) : d.monResult m codes shadow = d := by
  rw [Device.monResult, h]
  exact if_pos (.inl hn)

/-- The chain of the result in progress, once its codes have gone through it. -/
abbrev Device.monRun (d : Device) (m w : Nat) (codes : List Int) : Device :=
  d.setMon m { d.mon m with flt := ((d.mon m).flt.convert w codes).1, shd := none }

/-- A result of a converter that no other mirrors. -/
theorem Device.monResult_plain (h : d.monWord m = some w) (hs : (d.mon m).shd = none) (hr : d.rotStepOf 5 = none) (hn : codes.length = d.monNeed m w) :
    d.monResult m codes shadow = (d.monRun m w codes).monTake m (d.monValue (d.monUnit m) w ((d.mon m).flt.convert w codes).2) none := by
  have alone : d.monShadowed m = false := by rw [Device.monShadowed, hr]
  have go : ¬(codes.length ≠ d.monNeed m w ∨ (d.mon m).shd.isSome = true ∧ shadow.length ≠ d.monNeed m w) := by
    rw [hs]
    simp [hn]
  rw [Device.monResult, h]
  dsimp only
  rw [if_neg go, hs, hr, alone]
  simp only [Bool.false_eq_true, and_false, if_false]

/-- The result, in its slot. -/
abbrev Device.monGiven (d : Device) (m slot w : Nat) (codes : List Int) (inj : Bool) : Device :=
  (d.monRun m w codes).monStore m slot w (d.monValue (d.monUnit m) w ((d.mon m).flt.convert w codes).2) inj

/-- A result in its slot, by what the device was before its codes went through the chain. -/
theorem Device.monGiven_eq (d : Device) (m slot w : Nat) (codes : List Int) (inj : Bool) {v : Int}
    (hv : v = d.monValue (d.monUnit m) w ((d.mon m).flt.convert w codes).2) : d.monGiven m slot w codes inj =
      ((((d.monRun m w codes).monShows m slot (monClamp w v) (d.monFlags m (d.mon m) w v) (d.fld (F.MON_M_INFO_COUNT m slot)) (d.monStamp w)).monSettled
        m (d.monSwapped (d.mon m) w)).monSupply w v d.time).monItem m inj (d.monRow m (d.mon m) slot w v) (d.convBegun w) := by
  subst hv
  rw [Device.monGiven, Device.monStore_eq _ (Device.mon_setMon _ _ _)]
  rfl

theorem Device.monGiven_kept (d : Device) (m : Nat) (hs : slot < 36) (w : Nat) (codes : List Int) (inj : Bool) :
    Device.MonKept m d (d.monGiven m slot w codes inj) :=
  (Device.MonKept.setMon (Mon.place_chain _ _ _)).trans (Device.monStore_kept _ _ hs _ _ _)

/-- A result of the regular sequence while no injected one waits. -/
theorem Device.monResult_regular (hs : (d.mon m).shd = none) (hr : d.rotStepOf 5 = none) (hi : d.isSet (F.MON_M_STAT_INJ_ACTIVE m) = false)
    (ha : (d.mon m).active = true) (hp : d.isSet (F.MON_M_STAT_INJ_PENDING m) = false) (he : (d.mon m).entry < 32)
    (hw : d.rdN (Reg.MON_M_REG m (d.mon m).entry) = w) (hn : codes.length = d.monNeed m w) :
    d.monResult m codes shadow = (d.monGiven m (d.mon m).entry w codes false).monNext m (d.mon m) w := by
  have kept := d.monGiven_kept m (slot := (d.mon m).entry) (by omega) w codes false
  have place : (d.monRun m w codes).mon m = { d.mon m with flt := ((d.mon m).flt.convert w codes).1, shd := none } := Device.mon_setMon _ _ _
  have entry : ((d.monRun m w codes).mon m).entry = (d.mon m).entry := by rw [place]
  have word : (d.monRun m w codes).rdN (Reg.MON_M_REG m (d.mon m).entry) = w := hw
  have next : ∀ y : Device, Device.MonKept m d y → y.monNext m (y.mon m) w = y.monNext m (d.mon m) w := fun y hy => by
    have same := hy.place
    simp only [Mon.place, Prod.mk.injEq] at same
    obtain ⟨he, hg, -, -⟩ := same
    rw [Device.monNext, Device.monNext, he, hg]
  have waits : ∀ y : Device, Device.MonKept m d y → (y.monNext m (d.mon m) w).isSet (F.MON_M_STAT_INJ_PENDING m) = false := fun y hy => by
    have still : y.isSet (F.MON_M_STAT_INJ_PENDING m) = false := (hy.stat _).trans hp
    rw [Device.monNext]
    split
    · exact still
    · split
      · exact (Device.pending_monFresh _ _).trans still
      · exact (Device.pending_passEnd _ _).trans still
  rw [Device.monResult_plain ((Device.monWord_regular hi ha).trans (congrArg some hw)) hs hr hn, Device.monTake_regular (d := d.monRun m w codes) hi (by rw [place]; exact ha),
    entry, word]
  dsimp only
  rw [next _ kept, waits _ kept]
  rfl

/-- A result of the injected sequence. -/
theorem Device.monResult_injected (hs : (d.mon m).shd = none) (hr : d.rotStepOf 5 = none) (hi : d.isSet (F.MON_M_STAT_INJ_ACTIVE m) = true)
    (he : (d.mon m).injEntry < 4) (hw : d.rdN (Reg.MON_M_INJ m (d.mon m).injEntry) = w) (hn : codes.length = d.monNeed m w) :
    d.monResult m codes shadow = (d.monGiven m (32 + (d.mon m).injEntry) w codes true).injNext m (d.mon m) w := by
  have kept := d.monGiven_kept m (slot := 32 + (d.mon m).injEntry) (by omega) w codes true
  have place : (d.monRun m w codes).mon m = { d.mon m with flt := ((d.mon m).flt.convert w codes).1, shd := none } := Device.mon_setMon _ _ _
  have entry : ((d.monRun m w codes).mon m).injEntry = (d.mon m).injEntry := by rw [place]
  have word : (d.monRun m w codes).rdN (Reg.MON_M_INJ m (d.mon m).injEntry) = w := hw
  have next : ∀ y : Device, Device.MonKept m d y → y.injNext m (y.mon m) w = y.injNext m (d.mon m) w := fun y hy => by
    have same := hy.place
    simp only [Mon.place, Prod.mk.injEq] at same
    obtain ⟨-, -, he, hg⟩ := same
    rw [Device.injNext, Device.injNext, he, hg]
  rw [Device.monResult_plain ((Device.monWord_injected hi).trans (congrArg some hw)) hs hr hn, Device.monTake_injected (d := d.monRun m w codes) hi, entry, word, next _ kept]

/-! The three things that may come after a result. -/

section Next
variable {y : Device} (hy : Device.MonKept m d y)

theorem Device.monNext_repeats (h : (d.mon m).given + 1 < enCount w) :
    y.monNext m (d.mon m) w = y.setMon m { y.mon m with given := (d.mon m).given + 1 } := if_pos h

include hy

theorem Device.monNext_entry (hr : d.rotStepOf 5 = none) (hi : d.isSet (F.MON_M_STAT_INJ_ACTIVE m) = false) (h : enCount w ≤ (d.mon m).given + 1)
    (hl : (d.mon m).entry + 1 < d.fld (F.MON_M_SEQ_LEN_SEQ_LEN m)) {z : Device}
    (hz : z = y.setMon m { y.mon m with entry := (d.mon m).entry + 1, given := 0 }) :
    y.monNext m (d.mon m) w = (z.setMon m { z.mon m with flt := {}, shd := none }).setFld (F.MON_M_STAT_SLOT m) ((d.mon m).entry + 1) := by
  subst hz
  have len : y.monLen m = d.fld (F.MON_M_SEQ_LEN_SEQ_LEN m) := hy.fld _ (.inr rfl)
  have off : y.isSet (F.MON_M_STAT_INJ_ACTIVE m) = false := (hy.stat _).trans hi
  rw [Device.monNext, if_neg (Nat.not_lt.mpr h), if_pos (by rw [len]; exact hl), Device.monFresh_setMon ((hy.rotStepOf 5).trans hr), off,
    Device.mon_setMon]
  rfl

theorem Device.monNext_ends (h : enCount w ≤ (d.mon m).given + 1) (hl : d.fld (F.MON_M_SEQ_LEN_SEQ_LEN m) ≤ (d.mon m).entry + 1) :
    y.monNext m (d.mon m) w = y.passEnd m := by
  have len : y.monLen m = d.fld (F.MON_M_SEQ_LEN_SEQ_LEN m) := hy.fld _ (.inr rfl)
  exact (if_neg (Nat.not_lt.mpr h)).trans (if_neg (by rw [len]; exact Nat.not_lt.mpr hl))

theorem Device.injNext_entry (hr : d.rotStepOf 5 = none) (hi : d.isSet (F.MON_M_STAT_INJ_ACTIVE m) = true) (h : enCount w ≤ (d.mon m).injGiven + 1)
    (hl : (d.mon m).injEntry + 1 < d.fld (F.MON_M_SEQ_LEN_INJ_LEN m)) {z : Device}
    (hz : z = y.setMon m { y.mon m with injEntry := (d.mon m).injEntry + 1, injGiven := 0 }) :
    y.injNext m (d.mon m) w = (z.setMon m { z.mon m with flt := {}, shd := none }).setFld (F.MON_M_STAT_SLOT m) (33 + (d.mon m).injEntry) := by
  subst hz
  have len : y.monInjLen m = d.fld (F.MON_M_SEQ_LEN_INJ_LEN m) := hy.fld _ (.inr rfl)
  have on : y.isSet (F.MON_M_STAT_INJ_ACTIVE m) = true := (hy.stat _).trans hi
  have slot : 33 + (d.mon m).injEntry = 32 + ((d.mon m).injEntry + 1) := by omega
  rw [Device.injNext, if_neg (Nat.not_lt.mpr h), if_pos (by rw [len]; exact hl), Device.monFresh_setMon ((hy.rotStepOf 5).trans hr), on,
    Device.mon_setMon, slot]
  rfl

theorem Device.injNext_ends (h : enCount w ≤ (d.mon m).injGiven + 1) (hl : d.fld (F.MON_M_SEQ_LEN_INJ_LEN m) ≤ (d.mon m).injEntry + 1) :
    y.injNext m (d.mon m) w = y.injEnd m := by
  have len : y.monInjLen m = d.fld (F.MON_M_SEQ_LEN_INJ_LEN m) := hy.fld _ (.inr rfl)
  exact (if_neg (Nat.not_lt.mpr h)).trans (if_neg (by rw [len]; exact Nat.not_lt.mpr hl))

end Next

/-! Record items, ranges and scales (R494, R495, R500, R508). -/

theorem Device.monItem_off (h : d.isSet (F.MON_M_CFG_Q_EN m) = false) (bs : List Byte) (t : Time) : d.monItem m inj bs t = d :=
  if_pos (by rw [h]; rfl)

/-- An item of a record that has one and does not fill. -/
theorem Device.monItem_added (h : d.isSet (F.MON_M_CFG_Q_EN m) = true) (h0 : 0 < (d.mon m).items.length) (h59 : (d.mon m).items.length < 59)
    (bs : List Byte) (t : Time) : d.monItem m false bs t = d.setMon m { d.mon m with items := (d.mon m).items ++ [bs] } := by
  have on : ¬(!d.isSet (F.MON_M_CFG_Q_EN m)) = true := by
    rw [h]
    decide
  have some' : (d.mon m).items.isEmpty = false := by
    rw [Bool.eq_false_iff]
    intro he
    rw [List.isEmpty_iff.mp he] at h0
    exact absurd h0 (by decide)
  have room : ¬60 ≤ ((d.mon m).items ++ [bs]).length := by
    rw [List.length_append, List.length_singleton]
    omega
  refine (if_neg on).trans ((if_neg room).trans ?_)
  rw [some']
  rfl

theorem monRange_plain (h : enInput w ≤ 15) : monRange w = some (-966367642, 966367642) := by
  have cold : enIsTemp w = false := by rw [enIsTemp, decide_eq_false (by omega), Bool.false_and]
  rw [monRange, cold]
  exact (if_neg Bool.false_ne_true).trans (if_neg (by omega))

theorem monClamp_inside (h : enInput w ≤ 15) (h0 : -966367642 ≤ v) (h1 : v ≤ 966367642) : monClamp w v = (v, false) := by
  rw [monClamp, monRange_plain h]
  exact (if_neg (by omega)).trans (if_neg (by omega))

theorem monClamp_above (h : enInput w ≤ 15) (h1 : 966367642 < v) : monClamp w v = (966367642, true) := by
  rw [monClamp, monRange_plain h]
  exact (if_neg (by omega)).trans (if_pos h1)

/-- Rounding by round half to even is off by half a unit at most. -/
theorem roundHalfEven_near (n : Int) {k : Int} (hk : 0 < k) : 2 * |roundHalfEven n k * k - n| ≤ k := by
  have split' : n = k * (n / k) + n % k := (Int.mul_ediv_add_emod n k).symm
  have low := Int.emod_nonneg n hk.ne'
  have high := Int.emod_lt_of_pos n hk
  have here : n / k * k - n = -(n % k) := by
    rw [Int.mul_comm]
    omega
  have up : (n / k + 1) * k - n = k - n % k := by
    rw [Int.add_mul, Int.one_mul]
    omega
  rw [roundHalfEven]
  split_ifs with h1 h2 h3
  · rw [here, abs_neg, abs_of_nonneg low]
    omega
  · rw [up, abs_of_nonneg (by omega)]
    omega
  · rw [here, abs_neg, abs_of_nonneg low]
    omega
  · rw [up, abs_of_nonneg (by omega)]
    omega

theorem roundHalfEven_rat_near (q : ℚ) : 2 * |(roundHalfEven q.num q.den : ℚ) - q| ≤ 1 := by
  have pos : (0 : ℚ) < q.den := by exact_mod_cast q.den_pos
  have near := roundHalfEven_near q.num (k := q.den) (by exact_mod_cast q.den_pos)
  have cast : (2 : ℚ) * |(roundHalfEven q.num q.den : ℚ) * q.den - q.num| ≤ q.den := by exact_mod_cast near
  have whole : (roundHalfEven q.num q.den : ℚ) * q.den - q.num = ((roundHalfEven q.num q.den : ℚ) - q) * q.den := by
    rw [sub_mul, Rat.mul_den_eq_num]
  rw [whole, abs_mul, abs_of_pos pos, ← mul_assoc] at cast
  exact le_of_mul_le_mul_right (by rwa [one_mul]) pos

/-- A voltage is its sum at its scale, rounded once. -/
theorem monScaled_near (h : enInput w ≤ 15) (scale : Nat) (y : Int) : 2 * (monScaled w scale y * 2 ^ 64 - y * scale).natAbs ≤ 2 ^ 64 := by
  have cold : enIsTemp w = false := by rw [enIsTemp, decide_eq_false (by omega), Bool.false_and]
  have value : monScaled w scale y = roundHalfEven ((y * scale : ℚ) / 2 ^ 64).num ((y * scale : ℚ) / 2 ^ 64).den := by
    rw [monScaled]
    rw [cold, if_neg (show ¬(24 ≤ enInput w ∧ enInput w ≤ 32) by omega)]
    simp only [Bool.false_eq_true, if_false, mul_one]
  have near := roundHalfEven_rat_near ((y * scale : ℚ) / 2 ^ 64)
  rw [← value] at near
  have pos : (0 : ℚ) < 2 ^ 64 := by norm_num
  have whole : (monScaled w scale y : ℚ) * 2 ^ 64 - y * scale = ((monScaled w scale y : ℚ) - (y * scale : ℚ) / 2 ^ 64) * 2 ^ 64 := by
    rw [sub_mul, div_mul_cancel₀ _ pos.ne']
  have bound : 2 * |(monScaled w scale y : ℚ) * 2 ^ 64 - y * scale| ≤ 2 ^ 64 := by
    rw [whole, abs_mul, abs_of_pos pos, ← mul_assoc]
    calc 2 * |(monScaled w scale y : ℚ) - (y * scale : ℚ) / 2 ^ 64| * 2 ^ 64 ≤ 1 * 2 ^ 64 := mul_le_mul_of_nonneg_right near pos.le
      _ = 2 ^ 64 := one_mul _
  have bound' : 2 * |monScaled w scale y * 2 ^ 64 - y * scale| ≤ 2 ^ 64 := by exact_mod_cast bound
  rw [Int.abs_eq_natAbs] at bound'
  exact_mod_cast bound'

/-! Passes and MONSYNC (R502, R507). -/

theorem exec_monPassStart (hm : m < 8) (hs : s.dev.fld (F.MON_M_STAT_STATE m) = 2) (ha : (s.dev.mon m).active = false)
    (ht : timeLE (s.dev.passInstant m) s.dev.time = true) :
    exec (.monPassStart m) s = .next { s with dev := s.dev.passStart m (s.dev.passInstant m) } := by
  show execMonPassStart m s = _
  exact State.run_of_eq (if_pos ⟨hm, hs, by rw [ha]; rfl, ht⟩)

theorem exec_monPassStart_none (h : 8 ≤ m ∨ s.dev.fld (F.MON_M_STAT_STATE m) ≠ 2 ∨ (s.dev.mon m).active = true ∨
    timeLE (s.dev.passInstant m) s.dev.time = false) : exec (.monPassStart m) s = .next s := by
  show execMonPassStart m s = _
  refine State.run_of_eq (if_neg ?_)
  rintro ⟨hm, hs, ha, ht⟩
  rcases h with h | h | h | h
  · omega
  · exact h hs
  · rw [h] at ha
    cases ha
  · rw [h] at ht
    cases ht

/-- With no rotation of a converter in progress a pass starts with its chain clear. -/
theorem Device.passStart_eq (hr : d.rotStepOf 5 = none) (b : Time) : d.passStart m b =
    ((d.setMon m { d.mon m with active := true, entry := 0, given := 0, passAt := b }).setMon m
      { d.mon m with active := true, entry := 0, given := 0, passAt := b, flt := {}, shd := none }).setFld (F.MON_M_STAT_SLOT m)
      (if d.isSet (F.MON_M_STAT_INJ_ACTIVE m) then 32 + (d.mon m).injEntry else 0) :=
  Device.monFresh_setMon hr _

theorem Device.mon_setMon_other (d : Device) {k : Nat} (x : Mon) (h : k ≠ m) : (d.setMon m x).mon k = d.mon k := Sparse.get_set_other _ _ _ _ _ h

theorem exec_monsyncEdge (h : s.dev.isSet F.MON_CFG_MONSYNC_EN = true) : exec (.monsyncEdge t) s = .next { s with dev :=
    (if timeLT t s.dev.time then { s.dev with monSync := s.dev.monSync ++ [16] } else { s.dev with monIn := s.dev.monIn ++ [t] }) } := by
  show execMonsyncEdge t s = _
  exact State.run_of_eq (if_neg (by rw [h]; decide))

theorem exec_monsyncEdge_off (h : s.dev.isSet F.MON_CFG_MONSYNC_EN = false) : exec (.monsyncEdge t) s = .next s := by
  show execMonsyncEdge t s = _
  exact State.run_of_eq (if_pos (by rw [h]; rfl))

/-- Edges of MONSYNC that have passed, with MONSYNC_EN: a reset on the 16th edge after. -/
theorem Device.syncSample_monitor (he : d.isSet F.MON_CFG_MONSYNC_EN = true) (hs : d.syncIn = []) (hn : d.monIn ≠ [])
    (h : ∀ e ∈ d.monIn, timeLT e d.time = true) : d.syncSample = { d with monIn := [], monSync := d.monSync ++ [16] } := by
  have all : d.monIn.filter (fun t => timeLT t d.time) = d.monIn := List.filter_eq_self.mpr h
  have none' : d.monIn.filter (fun t => !timeLT t d.time) = [] := List.filter_eq_nil_iff.mpr fun e he => by simp [h e he]
  have some' : d.monIn.isEmpty = false := by
    rw [Bool.eq_false_iff]
    exact fun e => hn (List.isEmpty_iff.mp e)
  have go : (!Device.isSet { d with syncIn := [], monIn := [] } F.MON_CFG_MONSYNC_EN) = false := by
    show (!d.isSet F.MON_CFG_MONSYNC_EN) = false
    rw [he]
    rfl
  simp only [Device.syncSample, hs, all, none', some', List.filter_nil, List.isEmpty_nil, Bool.true_or, if_true, go, Bool.or_false,
    Bool.false_eq_true, if_false]

theorem exec_monDecimatorReset_none (h : 0 ∉ s.dev.monSync) : exec (.monDecimatorReset t) s = .next s := by
  show execMonDecimatorReset t s = _
  exact State.run_of_eq (if_neg h)

theorem Device.monSyncOne_idle {k : Nat} (hs : d.fld (F.MON_M_STAT_STATE k) ≠ 2) (hi : d.isSet (F.MON_M_STAT_INJ_ACTIVE k) = false)
    (hp : d.isSet (F.MON_M_STAT_INJ_PENDING k) = false) : d.monSyncOne t k = d := by
  have still : ¬d.monState k = 2 := hs
  rw [Device.monSyncOne, if_neg still]
  refine if_neg ?_
  rw [hi, hp]
  decide

/-- A reset's count and instant, which leave every converter's state. -/
def Device.monSyncNoted (d : Device) (t : Time) : Device :=
  (Device.flag { d with monSync := d.monSync.filter (fun n => decide (n ≠ 0)) } F.MON_FLAGS_SYNC Reg.MON_SYNC_CNT).wrTime Reg.MON_LAST_SYNC_LO t

theorem Device.fld_monSyncNoted (d : Device) (t : Time) {f : FieldAt} {k : Nat} (h : f.addr = Reg.MON_M_STAT k) :
    (d.monSyncNoted t).fld f = d.fld f := by
  simp only [Reg.MON_M_STAT] at h
  refine Device.fld_congr ((Device.rd_wrTime_other _ _ ?_ ?_).trans ((Device.rd_flag_other _ _ _ ?_ ?_).trans rfl))
  · simp only [Reg.MON_LAST_SYNC_LO]; omega
  · simp only [Reg.MON_LAST_SYNC_LO]; omega
  · simp only [F.MON_FLAGS_SYNC, Reg.MON_FLAGS]; omega
  · simp only [Reg.MON_SYNC_CNT]; omega

theorem exec_monDecimatorReset_idle (h : 0 ∈ s.dev.monSync) (hk : ∀ k, k < 8 → s.dev.fld (F.MON_M_STAT_STATE k) ≠ 2 ∧
    s.dev.isSet (F.MON_M_STAT_INJ_ACTIVE k) = false ∧ s.dev.isSet (F.MON_M_STAT_INJ_PENDING k) = false) :
    exec (.monDecimatorReset t) s = .next { s with dev := s.dev.monSyncNoted t } := by
  show execMonDecimatorReset t s = _
  refine State.run_of_eq ((if_pos h).trans (List.foldl_fixed fun k hk8 => ?_))
  obtain ⟨state, active, pending⟩ := hk k (List.mem_range.mp hk8)
  exact Device.monSyncOne_idle ((s.dev.fld_monSyncNoted t rfl).trans_ne state)
    ((Device.isSet_eq_of_fld_eq (s.dev.fld_monSyncNoted t rfl)).trans active) ((Device.isSet_eq_of_fld_eq (s.dev.fld_monSyncNoted t rfl)).trans pending)

end Sys2Proof.Machine
end


section
/-! SUPPORT. Reads of the I2C target (R511). -/

namespace Sys2Proof.Machine

variable {d : Device} {s : State} {n p a v : Nat}

/-! What a read through I2C may change: registers that a read clears, latches, and the free values drawn (R3, R7). -/

/-- A device that reads of registers have left of another. -/
def Device.OnlyReads (d e : Device) : Prop := ∃ regs latch n, e = { d with regs := regs, hiLatch := latch, freeCount := n }

theorem Device.OnlyReads.refl (d : Device) : d.OnlyReads d := ⟨d.regs, d.hiLatch, d.freeCount, rfl⟩

theorem Device.OnlyReads.trans {x y z : Device} (h : x.OnlyReads y) (h' : y.OnlyReads z) : x.OnlyReads z := by
  obtain ⟨_, _, _, rfl⟩ := h
  obtain ⟨regs, latch, n, rfl⟩ := h'
  exact ⟨regs, latch, n, rfl⟩

theorem Device.OnlyRegs.onlyReads {x y : Device} (h : x.OnlyRegs y) : x.OnlyReads y := by
  obtain ⟨regs, rfl⟩ := h
  exact ⟨regs, x.hiLatch, x.freeCount, rfl⟩

/-- Below the clusters' blocks a read clears registers alone. -/
theorem Device.rcAfter_onlyRegs (d : Device) (ha : a < 0x1000000) (event : Bool) : d.OnlyRegs (d.rcAfter a event) := by
  have none' : blockAt a 0x1000000 0x80000 32 = none := if_neg (by omega)
  rw [Device.rcAfter.eq_def]
  split
  · exact .refl d
  · split
    · exact .refl d
    · split
      · exact (Device.OnlyRegs.refl d).wr _ _
      · next h _ =>
        rw [none'] at h
        cases h
      · exact (Device.OnlyRegs.refl d).wr _ _

theorem Device.regRead_onlyReads (d : Device) (ha : a < 0x1000000) (event : Bool) : d.OnlyReads (d.regRead a event).2 := by
  have latched : ∀ (y : Device) (l : List Nat), y.OnlyReads (l.foldl (fun (d : Device) b => let p := d.peek b; p.2.latch b p.1) y) := fun y l => by
    obtain ⟨h, n, e⟩ := Device.foldl_latchShown_frame l y
    exact ⟨y.regs, h, n, e⟩
  have after' : ∀ y : Device, y.OnlyReads (y.rcAfter a event) := fun y => (y.rcAfter_onlyRegs ha event).onlyReads
  rw [Device.regRead.eq_def]
  dsimp only
  split
  · exact (latched _ _).trans (after' _)
  · obtain ⟨n, e⟩ := d.peek_frame a
    have peeked : d.OnlyReads (d.peek a).2 := ⟨d.regs, d.hiLatch, n, e⟩
    exact peeked.trans ((latched _ _).trans (after' _))

theorem i2cAddr_lt (h : i2cAddr p = some a) : a < 0xC08000 := by
  rw [i2cAddr] at h
  split at h
  · obtain rfl := Option.some.inj h
    omega
  · split at h
    · obtain rfl := Option.some.inj h
      omega
    · cases h

theorem Device.i2cWord_onlyReads (d : Device) (p : Nat) : d.OnlyReads (d.i2cWord p).2 := by
  have read : ∀ (y : Device) b, b < 0x1000000 → y.OnlyReads (y.regRead b false).2 := fun y b hb => y.regRead_onlyReads hb false
  rw [Device.i2cWord]
  cases ha : i2cAddr p with
  | none => exact .refl d
  | some a =>
    have low := i2cAddr_lt ha
    dsimp only
    cases regRow a with
    | none => exact .refl d
    | some r =>
      dsimp only
      split
      · exact (read _ _ (by omega)).trans (read _ _ (by omega))
      · split
        · exact (read _ _ (by omega)).trans (read _ _ (by omega))
        · exact read _ _ (by omega)

/-! The bytes of a read, one after the other. -/

/-- The bytes that the byte at the pointer comes from: those latched, or a word read now. -/
def Device.i2cFrom (d : Device) : (Nat × List Byte) × Device :=
  match d.i2cLatch with
  | some (b, bs) => if b ≤ d.i2cPtr ∧ d.i2cPtr < b + bs.length then ((b, bs), d) else d.i2cWord d.i2cPtr
  | none => d.i2cWord d.i2cPtr

/-- What is left once the byte at the pointer has been sent. -/
def Device.i2cNext (d : Device) : Device := { d.i2cFrom.2 with i2cPtr := (d.i2cPtr + 1) % 65536, i2cLatch := some d.i2cFrom.1 }

theorem Device.i2cBytes_succ (d : Device) (n : Nat) : d.i2cBytes (n + 1) =
    (d.i2cFrom.1.2.getD (d.i2cPtr - d.i2cFrom.1.1) 0 :: (d.i2cNext.i2cBytes n).1, (d.i2cNext.i2cBytes n).2) := rfl

theorem Device.i2cFrom_onlyReads (d : Device) : d.OnlyReads d.i2cFrom.2 := by
  rw [Device.i2cFrom]
  split
  · split
    · exact .refl d
    · exact d.i2cWord_onlyReads _
  · exact d.i2cWord_onlyReads _

theorem Device.length_i2cBytes (d : Device) (n : Nat) : (d.i2cBytes n).1.length = n := by
  induction n generalizing d with
  | zero => rfl
  | succ n ih => exact congrArg (· + 1) (ih _)

theorem Device.i2cPtr_i2cBytes (d : Device) (h : d.i2cPtr < 65536) (n : Nat) : (d.i2cBytes n).2.i2cPtr = (d.i2cPtr + n) % 65536 := by
  induction n generalizing d with
  | zero => exact (Nat.mod_eq_of_lt h).symm
  | succ n ih =>
    have step : d.i2cNext.i2cPtr = (d.i2cPtr + 1) % 65536 := rfl
    rw [Device.i2cBytes_succ]
    refine (ih d.i2cNext (by rw [step]; exact Nat.mod_lt _ (by decide))).trans ?_
    rw [step]
    omega

theorem Device.i2cBytes_frame (d : Device) (n : Nat) : ∃ regs latch k ptr word, (d.i2cBytes n).2 =
    { d with regs := regs, hiLatch := latch, freeCount := k, i2cPtr := ptr, i2cLatch := word } := by
  induction n generalizing d with
  | zero => exact ⟨d.regs, d.hiLatch, d.freeCount, d.i2cPtr, d.i2cLatch, rfl⟩
  | succ n ih =>
    obtain ⟨regs, latch, k, ptr, word, e⟩ := ih d.i2cNext
    obtain ⟨_, _, _, e'⟩ := d.i2cFrom_onlyReads
    refine ⟨regs, latch, k, ptr, word, ?_⟩
    rw [Device.i2cBytes_succ]
    dsimp only
    rw [e, Device.i2cNext, e']

/-- A byte of the bytes latched is sent from them. -/
theorem Device.i2cFrom_latched {b : Nat} {bs : List Byte} (h : d.i2cLatch = some (b, bs)) (h0 : b ≤ d.i2cPtr) (h1 : d.i2cPtr < b + bs.length) :
    d.i2cFrom = ((b, bs), d) := by
  rw [Device.i2cFrom, h]
  exact if_pos ⟨h0, h1⟩

/-- The bytes latched, from the pointer on, while the pointer does not wrap. -/
theorem Device.i2cBytes_latched {b : Nat} {bs : List Byte} (h : d.i2cLatch = some (b, bs)) (h0 : b ≤ d.i2cPtr) (h1 : d.i2cPtr + n ≤ b + bs.length)
    (hw : b + bs.length ≤ 65535) : (d.i2cBytes n).1 = (bs.drop (d.i2cPtr - b)).take n ∧ (d.i2cBytes n).2.regs = d.regs := by
  induction n generalizing d with
  | zero => exact ⟨rfl, rfl⟩
  | succ n ih =>
    have src := Device.i2cFrom_latched h h0 (by omega)
    have ptr : d.i2cNext.i2cPtr = d.i2cPtr + 1 := Nat.mod_eq_of_lt (by omega)
    have latch : d.i2cNext.i2cLatch = some (b, bs) := by rw [Device.i2cNext, src]
    have regs : d.i2cNext.regs = d.regs := by rw [Device.i2cNext, src]
    obtain ⟨rest, same⟩ := ih latch (by omega) (by omega)
    have at' : d.i2cPtr - b < bs.length := by omega
    have on : d.i2cPtr + 1 - b = d.i2cPtr - b + 1 := by omega
    rw [Device.i2cBytes_succ, src]
    refine ⟨?_, same.trans regs⟩
    dsimp only
    rw [rest, ptr, on, List.drop_eq_getElem_cons at', List.take_succ_cons, List.getD_eq_getElem _ _ at']

/-- The four bytes of a word at the pointer, read with nothing latched. -/
theorem Device.i2cBytes_word {y : Device} (hp : d.i2cPtr ≤ 0x8000) (hl : d.i2cLatch = none)
    (hw : d.i2cWord d.i2cPtr = ((d.i2cPtr, bytesLE 4 v), y)) : (d.i2cBytes 4).1 = bytesLE 4 v ∧ (d.i2cBytes 4).2.regs = y.regs := by
  have src : d.i2cFrom = ((d.i2cPtr, bytesLE 4 v), y) := by rw [Device.i2cFrom, hl, hw]
  have ptr : d.i2cNext.i2cPtr = d.i2cPtr + 1 := Nat.mod_eq_of_lt (by omega)
  have latch : d.i2cNext.i2cLatch = some (d.i2cPtr, bytesLE 4 v) := by rw [Device.i2cNext, src]
  have regs : d.i2cNext.regs = y.regs := by rw [Device.i2cNext, src]
  have len : (bytesLE 4 v).length = 4 := length_bytesLE 4 v
  obtain ⟨rest, same⟩ := Device.i2cBytes_latched (n := 3) latch (by omega) (by omega) (by omega)
  have one : d.i2cPtr + 1 - d.i2cPtr = 1 := by omega
  rw [Device.i2cBytes_succ, src]
  refine ⟨?_, same.trans regs⟩
  dsimp only
  rw [rest, ptr, one, Nat.sub_self]
  rfl

/-! The two registers (R3, R511). -/

theorem Device.peek_low (d : Device) (hm : measured a = false) (hv : d.view a = d.rdN a) : d.peek a = (d.rdN a, d) := by
  rw [Device.peek_shown hm, hv]

theorem Device.view_low (d : Device) (h : a < 0x200000 ∨ (0xC00000 ≤ a ∧ a < 0xE00000)) : d.view a = d.rdN a := by
  have block : blockAt a 0x1000000 0x80000 32 = none := if_neg (by omega)
  rw [Device.view.eq_def]
  split
  · omega
  · omega
  · omega
  · omega
  · omega
  · rw [block]

/-- SYS_ID through I2C. -/
theorem Device.i2cWord_sysId (hk : (Sparse.get (fun _ => none) d.hiLatch Reg.SYS_ID : Option Word) = none) :
    d.i2cWord 0x8000 = ((0x8000, bytesLE 4 (d.rdN Reg.SYS_ID)), d) := by
  have row : (regRow Reg.SYS_ID).map (fun r => (r.half, r.rc)) = some (0, 0) := by decide +kernel
  obtain ⟨r, hr, hk'⟩ := Option.map_eq_some_iff.mp row
  obtain ⟨half, rc⟩ := Prod.mk.inj hk'
  have addr : i2cAddr 0x8000 = some Reg.SYS_ID := rfl
  have latches : latchedBy Reg.SYS_ID = [] := by decide +kernel
  have read : d.regRead Reg.SYS_ID false = (d.rdN Reg.SYS_ID, d) :=
    (Device.regRead_plain false hr rc latches hk).trans (d.peek_low (by decide) (d.view_low (.inl (by decide))))
  rw [Device.i2cWord, addr]
  dsimp only
  rw [hr]
  dsimp only
  rw [half, if_neg (by decide), if_neg (by decide), read]

/-- MON_SYNC_CNT through I2C: the read clears it. -/
theorem Device.i2cWord_syncCount (hk : (Sparse.get (fun _ => none) d.hiLatch Reg.MON_SYNC_CNT : Option Word) = none) :
    ∃ y, d.i2cWord (Reg.MON_SYNC_CNT - 0xC00000) = ((Reg.MON_SYNC_CNT - 0xC00000, bytesLE 4 (d.rdN Reg.MON_SYNC_CNT)), y) ∧
      y.rdN Reg.MON_SYNC_CNT = 0 := by
  have row : (regRow Reg.MON_SYNC_CNT).map (fun r => (r.half, r.rc)) = some (0, 0xFFFFFFFF) := by decide +kernel
  obtain ⟨r, hr, hk'⟩ := Option.map_eq_some_iff.mp row
  obtain ⟨half, rc⟩ := Prod.mk.inj hk'
  have addr : i2cAddr (Reg.MON_SYNC_CNT - 0xC00000) = some Reg.MON_SYNC_CNT := rfl
  have noPeak : ∀ q, blockAt Reg.MON_SYNC_CNT 0x710000 0x40 4096 ≠ some (q, 0x38) := fun q h => by
    rw [show blockAt Reg.MON_SYNC_CNT 0x710000 0x40 4096 = none from if_neg (by decide)] at h
    cases h
  obtain ⟨l, k, used, read⟩ := Device.regRead_counter (d := d) false hr rc noPeak hk
  have value := d.peek_low (a := Reg.MON_SYNC_CNT) (by decide) (d.view_low (.inr (by decide)))
  refine ⟨(d.leftByRead l k used).wr Reg.MON_SYNC_CNT 0, ?_, ?_⟩
  · rw [Device.i2cWord, addr]
    dsimp only
    rw [hr]
    dsimp only
    rw [half, if_neg (by decide), if_neg (by decide), read, value]
    rfl
  · exact Device.rdN_wr _ _ _

theorem Device.rdN_send_of_regs {x y : Device} (h : x.regs = y.regs) (o : Out) (a : Nat) : (x.send o).rdN a = y.rdN a := by
  have same : (x.send o).rd a = y.rd a := congrArg (fun r => Sparse.get regReset r a) h
  exact Device.rdN_congr same

/-- The four bytes of SYS_ID. -/
theorem Device.i2cBytes_sysId (hp : d.i2cPtr = 0x8000) (hl : d.i2cLatch = none)
    (hk : (Sparse.get (fun _ => none) d.hiLatch Reg.SYS_ID : Option Word) = none) : (d.i2cBytes 4).1 = bytesLE 4 (d.rdN Reg.SYS_ID) := by
  have read := d.i2cWord_sysId hk
  rw [← hp] at read
  exact (Device.i2cBytes_word (by rw [hp]) hl read).1

/-- The four bytes of MON_SYNC_CNT, which the read clears. -/
theorem Device.i2cBytes_syncCount (hp : d.i2cPtr = Reg.MON_SYNC_CNT - 0xC00000) (hl : d.i2cLatch = none)
    (hk : (Sparse.get (fun _ => none) d.hiLatch Reg.MON_SYNC_CNT : Option Word) = none) (o : Out) :
    (d.i2cBytes 4).1 = bytesLE 4 (d.rdN Reg.MON_SYNC_CNT) ∧ ((d.i2cBytes 4).2.send o).rdN Reg.MON_SYNC_CNT = 0 := by
  obtain ⟨y, read, cleared⟩ := d.i2cWord_syncCount hk
  rw [← hp] at read
  obtain ⟨sent, left⟩ := Device.i2cBytes_word (by rw [hp]; decide) hl read
  exact ⟨sent, (Device.rdN_send_of_regs left o _).trans cleared⟩

theorem exec_i2cRead (n : Nat) (s : State) :
    exec (.i2cRead n) s = .next { s with dev := (s.dev.i2cBytes n).2.send (.i2c (s.dev.i2cBytes n).1) } := rfl

end Sys2Proof.Machine
end


section
/-! PROOFS. Monitor results, passes, MONSYNC and the I2C target (R497 to R502, R505, R507 to R509, R511). -/

namespace Sys2Proof.Machine

/-- Settles O50: a result by its length, its sequence and what comes after it, then items, ranges and scales, passes, MONSYNC and the I2C target. -/
theorem monitorResults : Obligations.MonitorResults := by
  intro s m p n codes shadow t d x inj chain value swapped flags item stored fresh plain
  have given : ∀ slot w i, stored slot w i = d.monGiven m slot w codes i := fun slot w i => (d.monGiven_eq m slot w codes i rfl).symm
  refine ⟨fun h => ?_, fun w hm hw hn => .of_eq (exec_monResult hm) (Device.monResult_length hw hn), fun w hm hpl hi ha hp he hw hn y hy => ?_,
    fun w hm hpl hi he hw hn y hy => ?_, fun y bs => ⟨fun h => Device.monItem_off h bs t, fun h h0 h59 => Device.monItem_added h h0 h59 bs t⟩,
    fun w v h h0 h1 => monClamp_inside h h0 h1, fun w v h h1 => monClamp_above h h1, fun w scale y h => monScaled_near h scale y,
    fun hm hs ha b hb => ⟨fun ht hr => ?_, fun ht => ?_⟩, fun h => exec_monPassStart_none (h.imp id (Or.imp id .inl)),
    fun h => ⟨fun ht => .of_eq (exec_monsyncEdge h) (if_pos ht), fun ht => .of_eq (exec_monsyncEdge h) (if_neg (Bool.eq_false_iff.mp ht))⟩,
    fun h => exec_monsyncEdge_off h, fun y he hs hn h => Device.syncSample_monitor he hs hn h, fun h => exec_monDecimatorReset_none h,
    fun h hk => exec_monDecimatorReset_idle h hk, rfl, ?_⟩
  · rcases h with h | ⟨hi, ha⟩
    · exact exec_monResult_none h
    · by_cases hm : m < 8
      · exact .of_eq (exec_monResult hm) (Device.monResult_idle (Device.monWord_idle hi ha))
      · exact exec_monResult_none (Nat.le_of_not_lt hm)
  · obtain ⟨hs, hr⟩ := hpl
    have kept := d.monGiven_kept m (slot := x.entry) (by omega) w codes false
    have ran := (exec_monResult hm).trans (congrArg (fun z : Device => Host.Outcome.next { s with dev := z })
      (Device.monResult_regular (shadow := shadow) hs hr hi ha hp he hw hn))
    rw [hy, given]
    exact ⟨fun h => .of_eq ran (Device.monNext_repeats h), fun h hl => .of_eq ran (Device.monNext_entry kept hr hi h hl rfl),
      fun h hl => .of_eq ran (Device.monNext_ends kept h hl)⟩
  · obtain ⟨hs, hr⟩ := hpl
    have kept := d.monGiven_kept m (slot := 32 + x.injEntry) (by omega) w codes true
    have ran := (exec_monResult hm).trans (congrArg (fun z : Device => Host.Outcome.next { s with dev := z })
      (Device.monResult_injected (shadow := shadow) hs hr hi he hw hn))
    rw [hy, given]
    exact ⟨fun h => .of_eq ran (if_pos h), fun h hl => .of_eq ran (Device.injNext_entry kept hr hi h hl rfl),
      fun h hl => .of_eq ran (Device.injNext_ends kept h hl)⟩
  · have at' : d.passInstant m = b := hb.symm
    have ran := exec_monPassStart hm hs ha (by rw [at']; exact ht)
    rw [at', Device.passStart_eq hr] at ran
    exact .of_eq ran ⟨Device.mon_setMon _ _ _, fun k hk => (Device.mon_setMon_other _ _ hk).trans (Device.mon_setMon_other _ _ hk), rfl⟩
  · exact exec_monPassStart_none (.inr (.inr (.inr (show timeLE (x.startB + nsTime (x.passNo * d.rdN (Reg.MON_M_PERIOD m))) d.time = false by
      rw [← hb]; exact ht))))
  · obtain ⟨regs, latch, k, ptr, word, e⟩ := d.i2cBytes_frame n
    refine .of_eq (exec_i2cRead n s) ⟨(d.i2cBytes n).1, d.length_i2cBytes n, ?_, fun hp => d.i2cPtr_i2cBytes hp n, ?_, ?_, ?_⟩
    · rw [Device.send, e]
    · rintro hp hl rfl hk
      exact Device.i2cBytes_sysId hp hl hk
    · rintro hp hl rfl hk
      exact Device.i2cBytes_syncCount hp hl hk _
    · rw [Device.send, e]

end Sys2Proof.Machine
end
